-- ==== Sys2Proof/Word.lean ====
section
/-! DEFINITION. The word types of Apnik: registers are 32 bits wide (R24), Erg words and ring entries are
built of bytes and 64-bit words, and encoder positions are 48-bit signed counts (R44). -/
namespace Sys2Proof

/-- A register value (R24). -/
abbrev Word := BitVec 32
/-- A 64-bit word: queue words, ring entries, record fields. -/
abbrev Dword := BitVec 64
/-- A byte. -/
abbrev Byte := BitVec 8
/-- A 48-bit signed encoder position (R44). -/
abbrev Pos := BitVec 48
/-- A position with a 32-bit fraction, as TRG_NEXT is held (R59). -/
abbrev Fix := BitVec 80

end Sys2Proof
end

