-- ==== Sys2Proof/Syntax.lean ====
section
/-! DEFINITION. The commands Apnik takes: one constructor per row of spec/opcode_table.json.  A command is an
event at the part's boundary or inside it (a register access, a pin edge, a received block, an
engine's work ending); its operands are what the state does not already give. -/
namespace Sys2Proof

/-- The three inputs of an encoder port (R37). -/
inductive EncPin where
  | a | b | z
  deriving DecidableEq, Repr

/-- What one adaptation update does to a value: at most one code (R76). -/
inductive Move where
  | down | stay | up
  deriving DecidableEq, Repr

/-- The equaliser registers of a lane (R82). -/
inductive EqReg where
  | ctle | dfeA | dfeB | dfeC | freeze
  deriving DecidableEq, Repr

/-- What a port in ACTIVE lost on a lane (R84). -/
inductive LinkLoss where
  | sig | cdr | alignment
  deriving DecidableEq, Repr

/-- How an exit from QUIET starts (R93). -/
inductive QuietExit where
  | wake | trigger | signal
  deriving DecidableEq, Repr


/-- A window of a function onto the part (R256). -/
inductive Bar where
  | bar0 | bar2 | bar4
  deriving DecidableEq, Repr

/-- Completion Timeout: the default, one of the ranges A to D, or disabled (R251). -/
inductive CplTimeout where
  | default | rangeA | rangeB | rangeC | rangeD | off
  deriving DecidableEq, Repr

/-- What configuration software has set in a function's capability structures (R251): ECRC generation and checking;
Completion Timeout; D3hot; ASPM L1 with L1.1 and L1.2; LTR; the TPH Requester; the AER masks and severity. -/
structure PcieCaps where
  ecrcGen : Bool
  ecrcCheck : Bool
  cplTimeout : CplTimeout
  d3hot : Bool
  aspmL1 : Bool
  l11 : Bool
  l12 : Bool
  ltr : Bool
  tph : Bool
  aerMask : Word
  aerSeverity : Word
  aerCorrMask : Word
  deriving DecidableEq, Repr

/-- What training and PCIe configuration software have set (R251, R253, R287): the speed, 0 for 2.5 GT/s up to 5 for
64 GT/s; the width trained, and the width that L0p leaves active, as powers of 2; FLIT mode; 10-bit tags; Max Payload Size
128 * 2^mps; Max Read Request Size 128 * 2^mrrs; NumVFs and VF Enable; PF0's capability structures. -/
structure PcieCfg where
  speed : Fin 6
  width : Fin 5
  flit : Bool
  tags10 : Bool
  mps : Fin 3
  mrrs : Fin 6
  l0p : Fin 5
  numVfs : Fin 64
  vfEnable : Bool
  caps : PcieCaps
  deriving DecidableEq, Repr

/-- The writer of an Erg write that failed (R305). -/
inductive ErgWriter where
  /-- A look-back line: stream and line number. -/
  | lookback (t : Fin 96) (ln : Nat)
  /-- The item a queue's producer is writing, behind its commit pointer (R309). -/
  | queue (q : Fin 384)
  /-- The item the producer of a handover queue is writing. -/
  | handover
  /-- A DMA descriptor: channel, client, serial, and the failed length in 64-byte units. -/
  | dma (ch : Fin 64) (client : Fin 1024) (serial : Word) (units : Nat)
  /-- Any other writer. -/
  | other
  deriving DecidableEq, Repr

/-- How a span port lost its link (R335). -/
inductive SpanLoss where
  /-- SIG absent for 500 ns. -/
  | sig
  /-- Loss of CDR lock. -/
  | cdr
  /-- Two successive uncorrectable codewords. -/
  | codewords
  /-- No cell with a good header CRC for 1.5 us. -/
  | silence
  deriving DecidableEq, Repr

/-- What an ENUM or MGT cell says.  The manual gives these cells' contents and no layout of their payload (log 21). -/
inductive CvnMsg where
  /-- A cell of another class: its payload says all. -/
  | plain
  | change
  /-- The candidate GEN and the number of the pass. -/
  | probe (gen pass : Nat)
  | answerNew
  | answerSeen (id depth : Nat)
  | answerConflict
  /-- The candidate GEN, the pass, the ID and depth given, and whether the pass renumbers. -/
  | token (gen pass id depth : Nat) (renumber : Bool)
  /-- The pass, NEXT, the devices numbered in the branch, CLEAN and the largest excess in ns (R345, R351). -/
  | ret (pass next count : Nat) (clean : Bool) (excess : Nat)
  | progress
  | joinPending
  /-- GEN, the pass and the root TB of the switch. -/
  | commit (gen pass instant : Nat)
  /-- The range of a rerouted subtree. -/
  | reroute (lo hi : Nat)
  | read (addr : Nat)
  | write (addr : Nat) (data : Word)
  | response (code : Nat) (data : Word)
  deriving DecidableEq, Repr

/-- The commands: one constructor per row of spec/opcode_table.json, with the row's operands. -/
inductive Instr where
  /-- COLD_RESET (R31). -/
  | coldReset
  /-- WARM_RESET (R31). -/
  | warmReset (wdog : Bool) (ref : Bool)
  /-- FUNCTION_LEVEL_RESET (R31). -/
  | functionLevelReset (fn : Fin 64)
  /-- TB_ADVANCE (R12). -/
  | tbAdvance
  /-- SLEW_END (R14). -/
  | slewEnd
  /-- TB_RATE_WRITE (R13). -/
  | tbRateWrite (v : Word)
  /-- TB_STEP_WRITE (R14). -/
  | tbStepWrite (v : Word)
  /-- PPS_ARM (R17). -/
  | ppsArm
  /-- DISC_WRITE (R15). -/
  | discWrite (disc : Bool)
  /-- PPS_CAPTURE (R17). -/
  | ppsCapture
  /-- SPLIT_LO_READ (R16). -/
  | splitLoRead (fn : Fin 64) (bar : Bar) (addr : Nat)
  /-- COUNTER_WRITE (R21). -/
  | counterWrite (addr : Nat) (v : Word)
  /-- ATTEMPT_COUNTER_WRITE (R22). -/
  | attemptCounterWrite (addr : Nat) (v : Word)
  /-- REGISTER_WRITE (R24). -/
  | registerWrite (fn : Fin 64) (bar : Bar) (addr : Nat) (v : Word)
  /-- BAD_WIDTH_ACCESS (R25). -/
  | badWidthAccess (write : Bool) (addr : Nat) (lanes : BitVec 4)
  /-- UNMAPPED_WRITE (R25). -/
  | unmappedWrite (addr : Nat) (v : Word)
  /-- ACCESS_ERR_CLEAR (R25). -/
  | accessErrClear (v : Word)
  /-- OFF_READ (R27). -/
  | offRead (addr : Nat)
  /-- ENC_MODE_WRITE (R424). -/
  | encModeWrite (n : Fin 8) (v : Word)
  /-- ENC_TRANSITION (R37). -/
  | encTransition (n : Fin 8)
  /-- ENC_RAW_EDGE (R40). -/
  | encRawEdge (n : Fin 8) (pin : EncPin)
  /-- ENC_WINDOW_END (R43). -/
  | encWindowEnd (n : Fin 8)
  /-- ENC_INDEX (R41). -/
  | encIndex (n : Fin 8)
  /-- ENC_SNAP (R45). -/
  | encSnap (v : Word)
  /-- ENC_SET (R46). -/
  | encSet (n : Fin 8) (v : Word)
  /-- SPEED_UPDATE (R48). -/
  | speedUpdate (n : Fin 8)
  /-- STANDSTILL_TIMEOUT (R49). -/
  | standstillTimeout (n : Fin 8)
  /-- SSI_WORD_START (R50). -/
  | ssiWordStart (n : Fin 8) (dataHigh : Bool)
  /-- SSI_WORD_END (R52). -/
  | ssiWordEnd (n : Fin 8) (word : List Bool) (delay : Nat) (returnedHigh : Bool)
  /-- MS_OFFSET_TRACK (R56). -/
  | msOffsetTrack (m : Fin 8)
  /-- MS_INPUT_WRITE (R425). -/
  | msInputWrite (m : Fin 8) (sec : Bool) (v : Word)
  /-- MS_HOLD_END (R57). -/
  | msHoldEnd (m : Fin 8)
  /-- TRIGGER_DUE (R426). -/
  | triggerDue (g : Fin 96)
  /-- TRG_CTRL_WRITE (R60). -/
  | trgCtrlWrite (g : Fin 96) (v : Word)
  /-- TRG_NEXT_WRITE (R60). -/
  | trgNextWrite (g : Fin 96) (v : Word)
  /-- TRG_PORT_WRITE (R62). -/
  | trgPortWrite (p : Fin 24) (v : Word)
  /-- TRIG_PIN_EDGE (R63). -/
  | trigPinEdge (k : Fin 16) (level : Bool) (first : BitVec 64)
  /-- TRIG_PIN_PULSE_END (R63). -/
  | trigPinPulseEnd (k : Fin 16)
  /-- STAMP_QUERY (R68). -/
  | stampQuery (v : Word)
  /-- PORT_EN_WRITE (R84). -/
  | portEnWrite (p : Fin 28) (v : Word)
  /-- RETRAIN (R82). -/
  | retrain (p : Fin 28)
  /-- BC_TRAINING_FRAME (R80). -/
  | bcTrainingFrame (p : Fin 28)
  /-- RX_TRAINING_FRAME (R81). -/
  | rxTrainingFrame (p : Fin 28) (lane : Fin 2) (status : BitVec 48) (crc : BitVec 16) (inverted : Bool) (request : Option (BitVec 64))
  /-- SIG_DETECTED (R84). -/
  | sigDetected (p : Fin 28) (lane : Fin 2)
  /-- CDR_LOCK (R84). -/
  | cdrLock (p : Fin 28) (lane : Fin 2)
  /-- COEF_TIMEOUT (R79). -/
  | coefTimeout (p : Fin 28)
  /-- TUNE_STEP_END (R84). -/
  | tuneStepEnd (p : Fin 28) (eyes : List (Nat × Nat × Nat)) (up : Bool)
  /-- DESKEW_DONE (R84). -/
  | deskewDone (p : Fin 28)
  /-- TRAIN_TIMEOUT (R84). -/
  | trainTimeout (p : Fin 28)
  /-- BACKOFF_END (R85). -/
  | backoffEnd (p : Fin 28)
  /-- UNPLUG (R86). -/
  | unplug (p : Fin 28) (lane : Fin 2)
  /-- ADAPT_UPDATE (R76). -/
  | adaptUpdate (p : Fin 28) (lane : Fin 2) (moves : List Move)
  /-- EQ_REG_WRITE (R77). -/
  | eqRegWrite (p : Fin 28) (lane : Fin 2) (reg : EqReg) (v : Word)
  /-- LINK_RECOVER (R84). -/
  | linkRecover (p : Fin 28) (lane : Fin 2) (loss : LinkLoss)
  /-- RECOVER_DONE (R84). -/
  | recoverDone (p : Fin 28)
  /-- DL_REFCLK_LOSS (R89). -/
  | dlRefclkLoss (r : Fin 3)
  /-- DL_REFCLK_RETURN (R89). -/
  | dlRefclkReturn (r : Fin 3)
  /-- QUIET_ACK_TIMEOUT (R92). -/
  | quietAckTimeout (p : Fin 24)
  /-- QUIET_EXIT (R93). -/
  | quietExit (p : Fin 24) (how : QuietExit)
  /-- QUIET_EXIT_DONE (R95). -/
  | quietExitDone (p : Fin 24)
  /-- ESCAN_START (R97). -/
  | escanStart (p : Fin 28) (lane : Fin 2) (v : Word)
  /-- ESCAN_ABORT (R97). -/
  | escanAbort (p : Fin 28) (lane : Fin 2) (samples : List (Fin 4 × Bool))
  /-- ESCAN_DONE (R96). -/
  | escanDone (p : Fin 28) (lane : Fin 2) (samples : List (Fin 4 × Bool))
  /-- PRBS_CTRL_WRITE (R98). -/
  | prbsCtrlWrite (p : Fin 28) (lane : Fin 2) (v : Word)
  /-- PRBS_LOCK (R99). -/
  | prbsLock (p : Fin 28) (lane : Fin 2) (decisions : List (Fin 4))
  /-- PRBS_UNLOCK (R99). -/
  | prbsUnlock (p : Fin 28) (lane : Fin 2) (decisions : List (Fin 4))
  /-- RX_CODEWORD (R107). -/
  | rxCodeword (p : Fin 28) (lane : Fin 2) (decisions : BitVec 5440)
  /-- RX_MARKER_GROUP (R105). -/
  | rxMarkerGroup (p : Fin 28) (lane : Fin 2) (decisions : BitVec 5440) (before : Fin 4) (place : Nat) (arrival : Nat)
  /-- FEC_CW_CLEAR (R107). -/
  | fecCwClear (p : Fin 24) (lane : Fin 2)
  /-- RX_BLOCK (R101). -/
  | rxBlock (p : Fin 28)
  /-- RX_PACKET (R116). -/
  | rxPacket (p : Fin 24)
  /-- RX_LCTL (R115). -/
  | rxLctl (p : Fin 24)
  /-- BC_BLOCK (R111). -/
  | bcBlock (p : Fin 24)
  /-- REG_GO (R128). -/
  | regGo (p : Fin 24) (v : Word)
  /-- REG_TIMEOUT (R128). -/
  | regTimeout (p : Fin 24)
  /-- PIX_SRC_WRITE (R246). -/
  | pixSrcWrite (t : Fin 96) (v : Word)
  /-- STREAM_LINE_JOIN (R132). -/
  | streamLineJoin (t : Fin 96)
  /-- JOIN_TIMEOUT (R132). -/
  | joinTimeout (t : Fin 96)
  /-- PIPELINE_LINE (R161). -/
  | pipelineLine (t : Fin 96)
  /-- PIX_ARM (R154). -/
  | pixArm (t : Fin 96)
  /-- PIX_DISARM (R155). -/
  | pixDisarm (t : Fin 96)
  /-- SHADOW_WRITE (R155). -/
  | shadowWrite (t : Fin 96) (k : Fin 128) (v : Word)
  /-- PIX_TBL_LOAD (R156). -/
  | pixTblLoad (t : Fin 96) (v : Word)
  /-- PIX_TBL_LOAD_DONE (R156). -/
  | pixTblLoadDone (t : Fin 96)
  /-- CLS_TBL_LOAD (R164). -/
  | clsTblLoad (t : Fin 96) (v : Word)
  /-- CLS_TBL_LOAD_DONE (R164). -/
  | clsTblLoadDone (t : Fin 96)
  /-- OBJ_OPEN_WRITE (R162). -/
  | objOpenWrite (t : Fin 96)
  /-- VIEW_FORM (R191); `err`: the error words of the closed object's entry, 0 none, 1 corrected,
  2 not correctable (R308). -/
  | viewForm (t : Fin 96) (err : Fin 3)
  /-- PAIR_WAIT_EXPIRED (R185). -/
  | pairWaitExpired (t : Fin 96)
  /-- CUTOUT_WRITE_START (R182). -/
  | cutoutWriteStart (t : Fin 96)
  /-- CUTOUT_WRITE_DONE (R182). -/
  | cutoutWriteDone (t : Fin 96)
  /-- CUTOUT_LATE (R182). -/
  | cutoutLate (t : Fin 96)
  /-- RECORD_RELEASE (R190). -/
  | recordRelease (t : Fin 96)
  /-- HOST_VERDICT (R198). -/
  | hostVerdict
  /-- DECISION_POINT (R200). -/
  | decisionPoint (h : BitVec 64)
  /-- SETTLED_COPY (R201). -/
  | settledCopy (h : BitVec 64)
  /-- PENDING_EXPIRE (R197). -/
  | pendingExpire (h : BitVec 64)
  /-- EJT_TBL_LOAD (R204). -/
  | ejtTblLoad (v : Word)
  /-- EJT_TBL_LOAD_DONE (R204). -/
  | ejtTblLoadDone
  /-- EJT_TBL_SWAP (R204). -/
  | ejtTblSwap (v : Word)
  /-- EJT_PEND_PEAK_WRITE (R216). -/
  | ejtPendPeakWrite
  /-- EJ_FRAME (R211). -/
  | ejFrame (n : Fin 8)
  /-- EJ_SLOT_MISS (R401). -/
  | ejSlotMiss (n : Fin 8)
  /-- EJ_RETURN_FRAME (R214). -/
  | ejReturnFrame (n : Fin 8) (frame : BitVec 64)
  /-- EJ_RET_LOST (R214). -/
  | ejRetLost (n : Fin 8)
  /-- PWM_RELOAD (R218). -/
  | pwmReload (n : Fin 8)
  /-- PWM_STROBE_EVENT (R220). -/
  | pwmStrobeEvent (n : Fin 8)
  /-- PWM_CYCLE_END (R220). -/
  | pwmCycleEnd (n : Fin 8)
  /-- PWM_SHADOW_WRITE (R219). -/
  | pwmShadowWrite (n : Fin 8) (k : Fin 5) (v : Word)
  /-- PWM_OC (R221): the pin's level, and the TB of the first sample that showed it. -/
  | pwmOc (n : Fin 8) (level : Bool) (first : BitVec 64)
  /-- PWM_SC (R222): the pin's level, and the TB of the first sample that showed it. -/
  | pwmSc (n : Fin 8) (level : Bool) (first : BitVec 64)
  /-- PWM_CLEAR (R222). -/
  | pwmClear (n : Fin 8)
  /-- PWM_GRP_CLEAR (R223). -/
  | pwmGrpClear (g : Fin 2)
  /-- STRIP_SLOT (R227). -/
  | stripSlot (q : Fin 33)
  /-- LINE_SLOT (R227). -/
  | lineSlot (q : Fin 33)
  /-- EVENT_SLOT (R227). -/
  | eventSlot (q : Fin 33)
  /-- TICK_SLOT (R227). -/
  | tickSlot (q : Fin 33)
  /-- SLOT_BUDGET_EXPIRED (R241). -/
  | slotBudgetExpired (q : Fin 33)
  /-- NOP (R235). -/
  | nop (q : Fin 33)
  /-- END (R235). -/
  | endSlot (q : Fin 33)
  /-- MOVI (R235). -/
  | movi (q : Fin 33) (d : Fin 16) (imm : Word)
  /-- MOV (R235). -/
  | mov (q : Fin 33) (d : Fin 16) (a : Fin 16)
  /-- ADDI (R235). -/
  | addi (q : Fin 33) (d : Fin 16) (a : Fin 16) (imm : Word)
  /-- ADD (R235). -/
  | add (q : Fin 33) (d : Fin 16) (a : Fin 16) (b : Fin 16)
  /-- SUB (R235). -/
  | sub (q : Fin 33) (d : Fin 16) (a : Fin 16) (b : Fin 16)
  /-- ADDS (R235). -/
  | adds (q : Fin 33) (d : Fin 16) (a : Fin 16) (imm : Word)
  /-- AND (R235). -/
  | and (q : Fin 33) (d : Fin 16) (a : Fin 16) (b : Fin 16)
  /-- OR (R235). -/
  | or (q : Fin 33) (d : Fin 16) (a : Fin 16) (b : Fin 16)
  /-- XOR (R235). -/
  | xor (q : Fin 33) (d : Fin 16) (a : Fin 16) (b : Fin 16)
  /-- SHL (R235). -/
  | shl (q : Fin 33) (d : Fin 16) (a : Fin 16) (n : Fin 32)
  /-- SHR (R235). -/
  | shr (q : Fin 33) (d : Fin 16) (a : Fin 16) (n : Fin 32)
  /-- ANDI (R235). -/
  | andi (q : Fin 33) (d : Fin 16) (a : Fin 16) (imm : Word)
  /-- LDS (R237). -/
  | lds (q : Fin 33) (d : Fin 16) (t : Fin 128) (sel : Fin 15) (arg : Byte)
  /-- STAMP (R235). -/
  | stamp (q : Fin 33) (d : Fin 16)
  /-- BR (R235). -/
  | br (q : Fin 33) (t : Fin 4096)
  /-- BCMP (R235). -/
  | bcmp (q : Fin 33) (a : Fin 16) (b : Fin 16) (t : Fin 4096) (cond : Fin 6) (i : Bool) (imm : BitVec 27)
  /-- BBS (R235). -/
  | bbs (q : Fin 33) (a : Fin 16) (t : Fin 4096) (n : Fin 32)
  /-- BBC (R235). -/
  | bbc (q : Fin 33) (a : Fin 16) (t : Fin 4096) (n : Fin 32)
  /-- BEV (R235). -/
  | bev (q : Fin 33) (t : Fin 4096) (consume : Bool) (i : Fin 8)
  /-- LOOP (R236). -/
  | loop (q : Fin 33) (t : Fin 4096) (n : Fin 512)
  /-- WAITEV (R235). -/
  | waitev (q : Fin 33) (t : Fin 4096) (limit : BitVec 20) (consume : Bool) (i : Fin 8)
  /-- WAITEV_TIMEOUT (R235). -/
  | waitevTimeout (q : Fin 33) (t : Fin 4096) (limit : BitVec 20) (consume : Bool) (i : Fin 8)
  /-- TRIG (R238). -/
  | trig (q : Fin 33) (t : Fin 96) (delay : BitVec 20)
  /-- ARM (R238). -/
  | arm (q : Fin 33) (t : Fin 96) (disarm : Bool)
  /-- CTX (R238). -/
  | ctx (q : Fin 33) (t : Fin 96) (ctxNo : Fin 4)
  /-- SHW (R238). -/
  | shw (q : Fin 33) (t : Fin 96) (a : Fin 16) (k : Fin 128)
  /-- ROUTE (R238). -/
  | route (q : Fin 33) (t : Fin 96) (index : Fin 16) (kind : Fin 3)
  /-- DMAQ (R239). -/
  | dmaq (q : Fin 33) (a : Fin 16) (b : Fin 16) (psrc : Bool) (pdst : Bool) (tmpl : Fin 1024) (ch : Fin 64)
  /-- PUB (R235). -/
  | pub (q : Fin 33) (a : Fin 16) (ch : Fin 256)
  /-- TRACE (R235). -/
  | trace (q : Fin 33) (a : Fin 16) (imm : BitVec 16)
  /-- SEQ_ILLEGAL (R235). -/
  | seqIllegal (q : Fin 33)
  /-- SEQ_ECC (R241). -/
  | seqEcc (q : Fin 33) (double : Bool)
  /-- SEQ_RESTART (R231). -/
  | seqRestart (q : Fin 33) (hof : Bool)
  /-- SEQ_INIT (R231). -/
  | seqInit (q : Fin 33) (hof : Bool)
  /-- SEQ_PEAK_WRITE (R231). -/
  | seqPeakWrite (q : Fin 33) (kind : Fin 4)
  /-- IMG_LOAD (R247). -/
  | imgLoad
  /-- IMG_SWAP (R250). -/
  | imgSwap
  /-- SWAP_TBL_COPY_DONE (R250). -/
  | swapTblCopyDone
  /-- SEQ_BANK_SWITCH (R250). -/
  | seqBankSwitch (q : Fin 33)
  /-- PCIE_READY (R252). -/
  | pcieReady (cfg : PcieCfg)
  /-- PCIE_LINK_DOWN (R254). -/
  | pcieLinkDown
  /-- PCIE_LINK_UP (R254). -/
  | pcieLinkUp (cfg : PcieCfg)
  /-- PCIE_REFCLK_LOSS (R255). -/
  | pcieRefclkLoss
  /-- PCIE_REFCLK_RETURN (R255). -/
  | pcieRefclkReturn
  /-- BAR2_WRITE (R257). -/
  | bar2Write (addr : Nat) (data : List Byte)
  /-- RESET (R277). -/
  | reset
  /-- STREAM_RESET (R33). -/
  | streamReset
  /-- CLIENT_BIND (R259). -/
  | clientBind (numVfs : Fin 64)
  /-- CLIENT_UNBIND (R259). -/
  | clientUnbind
  /-- QUOTA_SET (R289). -/
  | quotaSet
  /-- CHAN_BIND (R277). -/
  | chanBind
  /-- FUNC_VECTORS (R258). -/
  | funcVectors (vfEnable : Bool)
  /-- PORT_CTRL (R277). -/
  | portCtrl
  /-- POWER (R370). -/
  | power
  /-- KEY_PROGRAM (R243). -/
  | keyProgram
  /-- FW_LOAD (R277). -/
  | fwLoad (authentic : Bool)
  /-- ERG_ALLOC (R296). -/
  | ergAlloc
  /-- ERG_FREE (R296). -/
  | ergFree
  /-- ERG_PIN (R296). -/
  | ergPin
  /-- ERG_UNPIN (R297). -/
  | ergUnpin
  /-- LOOKBACK_GET (R303). -/
  | lookbackGet
  /-- SPAN_ENUM (R344). -/
  | spanEnum
  /-- MBX_UNKNOWN_OPCODE (R275). -/
  | mbxUnknownOpcode
  /-- MBX_BUSY_WRITE (R275). -/
  | mbxBusyWrite
  /-- MBX_DONE (R275). -/
  | mbxDone
  /-- MBX_TIMEOUT (R275). -/
  | mbxTimeout
  /-- CLIENT_CTRL_WRITE (R261). -/
  | clientCtrlWrite (c : Fin 1024) (v : Word)
  /-- CONS_DOORBELL (R261). -/
  | consDoorbell (c : Fin 1024) (r : Fin 5) (v : Word)
  /-- VERDICT_DOORBELL (R271). -/
  | verdictDoorbell (c : Fin 1024) (v : Word)
  /-- DESC_DOORBELL (R261). -/
  | descDoorbell (c : Fin 1024) (v : Word)
  /-- DMA_PAUSE (R285). -/
  | dmaPause (ch : Fin 64)
  /-- DMA_UNPAUSE (R285). -/
  | dmaUnpause (ch : Fin 64)
  /-- DMA_RESUME (R285). -/
  | dmaResume (ch : Fin 64)
  /-- DMA_ABORT (R285). -/
  | dmaAbort (ch : Fin 64)
  /-- DMA_CMD_REJECT (R285). -/
  | dmaCmdReject (c : Fin 1024) (v : Word)
  /-- HEARTBEAT (R262). -/
  | heartbeat (c : Fin 1024)
  /-- INT_TIME_EXPIRE (R263). -/
  | intTimeExpire (c : Fin 1024)
  /-- RECORD_DELIVER (R267). -/
  | recordDeliver (t : Fin 96)
  /-- GAP_WRITE (R269). -/
  | gapWrite (c : Fin 1024) (r : Fin 5)
  /-- STAGING_HOLD_EXPIRE (R268). -/
  | stagingHoldExpire (t : Fin 96)
  /-- DATA_COPY_DONE (R270). -/
  | dataCopyDone (t : Fin 96) (stat : Bool)
  /-- VERDICT_FETCH (R271). -/
  | verdictFetch (c : Fin 1024) (entries : List (BitVec 128)) (late : Nat)
  /-- DESC_FETCH (R281). -/
  | descFetch (c : Fin 1024) (desc : BitVec 512) (late : Nat)
  /-- DMA_BURST (R283). -/
  | dmaBurst (ch : Fin 64) (len : Nat) (data : List Byte) (late : Nat)
  /-- DMA_REQUEST_FAIL (R284). -/
  | dmaRequestFail (ch : Fin 64) (cause : Fin 6)
  /-- DMA_COMPLETE (R286). -/
  | dmaComplete (ch : Fin 64)
  /-- SEGMENT_ZERO_DONE (R294). -/
  | segmentZeroDone (seg : Nat)
  /-- ERG_SCRUB_BLOCK (R306). -/
  | ergScrubBlock (addr : Nat) (err : Fin 3)
  /-- ERG_WRITE_FAIL (R305). -/
  | ergWriteFail (addr : Nat) (w : ErgWriter)
  /-- STACK_FAIL (R307). -/
  | stackFail (k : Fin 2) (training : Bool)
  /-- QUEUE_FLUSH (R311). -/
  | queueFlush (q : Fin 384)
  /-- QUEUE_HOSTPOP_WRITE (R314). -/
  | queueHostpopWrite (q : Fin 384) (v : Word)
  /-- QUEUE_POP (R314). -/
  | queuePop (q : Fin 384) (err : Fin 3)
  /-- QUEUE_POP_TIMEOUT (R314). -/
  | queuePopTimeout (q : Fin 384)
  /-- CMP_SUBMIT (R316). -/
  | cmpSubmit (e : Fin 4) (v : Word)
  /-- CMP_JOB_START (R316). -/
  | cmpJobStart (e : Fin 4)
  /-- CMP_JOB_END (R322). -/
  | cmpJobEnd (e : Fin 4) (raw : List Byte)
  /-- CMP_FLUSH (R321). -/
  | cmpFlush (e : Fin 4)
  /-- CMP_ABORT (R321). -/
  | cmpAbort (e : Fin 4)
  /-- EVT_PROD_WRITE (R327). -/
  | evtProdWrite (id : Fin 640) (v : Word)
  /-- EVT_PUB (R326). -/
  | evtPub (v : Word)
  /-- EVT_CH_CTRL_WRITE (R327). -/
  | evtChCtrlWrite (c : Fin 256) (v : Word)
  /-- EVT_LOCK (R327). -/
  | evtLock (c : Fin 256)
  /-- EVT_RATE_WRITE (R328). -/
  | evtRateWrite (c : Fin 256) (v : Word)
  /-- EVENT_ENTER (R324). -/
  | eventEnter (c : Fin 256)
  /-- EVENT_DELIVER (R329). -/
  | eventDeliver (c : Fin 256)
  /-- EVT_WATCH_EXPIRE (R328). -/
  | evtWatchExpire (c : Fin 256)
  /-- CELL_EVAL (R331). -/
  | cellEval (k : Fin 32)
  /-- CELL_STUCK (R332). -/
  | cellStuck (k : Fin 32)
  /-- CVN_CELL_TX (R340). -/
  | cvnCellTx (p : Fin 4) (fine : Byte)
  /-- CVN_IDLE_SYNC (R334). -/
  | cvnIdleSync (p : Fin 4)
  /-- CVN_CELL_RX (R338). -/
  | cvnCellRx (p : Fin 4) (msg : CvnMsg) (fine : Byte)
  /-- CVN_LINK_LOST (R335). -/
  | cvnLinkLost (p : Fin 4) (how : SpanLoss)
  /-- REROUTE (R353). -/
  | reroute (p : Fin 4)
  /-- CV_REFCLK_LOSS (R336). -/
  | cvRefclkLoss
  /-- CV_REFCLK_RETURN (R336). -/
  | cvRefclkReturn
  /-- ENUM_AUTO_START (R344). -/
  | enumAutoStart
  /-- CHANGE (R344). -/
  | change
  /-- PROBE (R345). -/
  | probe (p : Fin 4)
  /-- PROBE_TIMEOUT (R345). -/
  | probeTimeout
  /-- TOKEN (R345). -/
  | token (p : Fin 4)
  /-- RETURN (R345). -/
  | enumReturn (p : Fin 4)
  /-- PROGRESS (R348). -/
  | progress
  /-- ENUM_BRANCH_ABORT (R348). -/
  | enumBranchAbort
  /-- COMMIT (R346). -/
  | commit (p : Fin 4)
  /-- ENUM_SWITCH (R346). -/
  | enumSwitch
  /-- ROUTE_TABLE_EXPIRE (R343). -/
  | routeTableExpire
  /-- SYNC_REQ_SEND (R349). -/
  | syncReqSend (p : Fin 4)
  /-- SYNC_REQ_RX (R349). -/
  | syncReqRx (p : Fin 4)
  /-- SYNC_EXCHANGE (R350). -/
  | syncExchange (p : Fin 4)
  /-- TB_HOLDOVER (R350). -/
  | tbHoldover
  /-- POS_EXPORT (R354). -/
  | posExport (n : Fin 8)
  /-- POS_RX (R355). -/
  | posRx (p : Fin 4)
  /-- POS_INPUT_TIMEOUT (R355). -/
  | posInputTimeout (dev : Fin 4096) (n : Fin 8)
  /-- EVT_CELL_RX (R356). -/
  | evtCellRx (p : Fin 4)
  /-- OBJ_CELL_RX (R358). -/
  | objCellRx (p : Fin 4)
  /-- HANDOVER_ENTER (R358). -/
  | handoverEnter
  /-- RMT_GO (R359). -/
  | rmtGo (v : Word)
  /-- MGT_REQUEST_RX (R359). -/
  | mgtRequestRx (p : Fin 4)
  /-- MGT_RESPONSE_RX (R359). -/
  | mgtResponseRx (p : Fin 4)
  /-- RMT_TIMEOUT (R359). -/
  | rmtTimeout
  /-- PWR_PREDICT (R362). -/
  | pwrPredict (u : Fin 32)
  /-- PWR_EXIT_START (R364). -/
  | pwrExitStart (u : Fin 32)
  /-- PWR_EXIT_DONE (R361). -/
  | pwrExitDone (u : Fin 32)
  /-- CLUSTER_OP_WRITE (R366). -/
  | clusterOpWrite (c : Fin 8) (v : Word)
  /-- CLUSTER_OP_STEP (R368). -/
  | clusterOpStep (ok : Bool)
  /-- POWER_ENTRY_DONE (R371). -/
  | powerEntryDone
  /-- STANDBY_EXIT (R372). -/
  | standbyExit
  /-- OAS_WAKE (R376). -/
  | oasWake (src : Fin 4) (sameMs : Bool)
  /-- PG_UP (R376). -/
  | pgUp (i : Fin 4)
  /-- PG_TIMEOUT (R376). -/
  | pgTimeout
  /-- PG_LOST (R376). -/
  | pgLost (i : Fin 4)
  /-- POWER_DOWN_STEP (R376). -/
  | powerDownStep
  /-- VAON_POR (R412). -/
  | vaonPor (on : Bool)
  /-- CORE_RESET_RELEASE (R377). -/
  | coreResetRelease (straps : BitVec 6)
  /-- BOOT_DONE (R379). -/
  | bootDone
  /-- FIRMWARE_AUTH (R378). -/
  | firmwareAuth (ok1 : Bool) (ok2 : Bool)
  /-- I2C_TARGET_WRITE (R381). -/
  | i2cTargetWrite (addr : BitVec 7) (data : List Byte)
  /-- I2C_TARGET_READ (R381). -/
  | i2cTargetRead (addr : BitVec 7) (n : Nat)
  /-- STANDBY (R381). -/
  | standby
  /-- DEEP (R381). -/
  | deep
  /-- DEEP_WITH_RTC_KEEP (R381). -/
  | deepWithRtcKeep
  /-- RUN (R381). -/
  | run
  /-- I2C_STANDBY_MATCH (R383). -/
  | i2cStandbyMatch (ready : Bool)
  /-- ATTN_RAISE (R385). -/
  | attnRaise
  /-- ATTN_RETRY (R385). -/
  | attnRetry
  /-- MBOX_OUT_DONE (R389). -/
  | mboxOutDone (v : Word)
  /-- I2C_CTL_GO (R386). -/
  | i2cCtlGo (v : Word)
  /-- I2C_CTL_DONE (R386). -/
  | i2cCtlDone (result : Fin 6) (data : List Byte)
  /-- I2C_ARB_LOST (R387). -/
  | i2cArbLost
  /-- I2C_SCL_TIMEOUT (R388). -/
  | i2cSclTimeout (stuck : Bool)
  /-- FAULT_REPORT (R390). -/
  | faultReport (domain : Fin 60) (code : Byte) (inst : BitVec 16) (detail : BitVec 64)
  /-- FLT_LOG_CONS_WRITE (R393). -/
  | fltLogConsWrite (v : Word)
  /-- FLT_MIRROR_MOVE (R394). -/
  | fltMirrorMove
  /-- FLT_MIR_DOORBELL (R394). -/
  | fltMirDoorbell (v : Word)
  /-- FLT_CLEAR_FIRST (R396). -/
  | fltClearFirst
  /-- FLT_CLEAR_FATAL (R396). -/
  | fltClearFatal
  /-- HOST_KICK (R401). -/
  | hostKick
  /-- HOST_SILENT (R401). -/
  | hostSilent
  /-- MGMT_WDOG (R401). -/
  | mgmtWdog (pc : BitVec 64)
  /-- WDOG_WARM_RESET (R400). -/
  | wdogWarmReset
  /-- REFCLK_SYS_LOSS (R390). -/
  | refclkSysLoss
  /-- TB_PLL_LOSS (R390). -/
  | tbPllLoss
  /-- THERMAL_WARN (R390). -/
  | thermalWarn (tj : BitVec 16)
  /-- THERMAL_TRIP (R390). -/
  | thermalTrip (tj : BitVec 16)
  /-- VERDICT_ECC (R390). -/
  | verdictEcc (table : BitVec 16) (entry : BitVec 64)
  /-- NOC_ECC (R390). -/
  | nocEcc (router : Fin 16) (vc : Fin 2)
  /-- NOC_PRIORITY_OVERRUN (R10). -/
  | nocPriorityOverrun (router : Fin 16) (vc : Fin 2)
  /-- EXTEST (R405). -/
  | extest (cells : List Bool)
  /-- SAMPLE_PRELOAD (R404). -/
  | samplePreload (cells : List Bool)
  /-- CLAMP (R405). -/
  | clamp
  /-- HIGHZ (R405). -/
  | highz
  /-- EXTEST_PULSE (R407). -/
  | extestPulse (cells : List Bool)
  /-- EXTEST_TRAIN (R407). -/
  | extestTrain (cells : List Bool)
  /-- IDCODE (R404). -/
  | idcode
  /-- BYPASS (R404). -/
  | bypass (code : Byte)
  /-- TAP_RESET (R404). -/
  | tapReset
  /-- QUIET_EXIT_TIMEOUT (R84). -/
  | quietExitTimeout (p : Fin 24)
  /-- INDEX_INACTIVE (R41). -/
  | indexInactive (n : Fin 8)
  /-- ATTN_PULSE (R385). -/
  | attnPulse (ok : Bool)
  deriving DecidableEq, Repr

end Sys2Proof
end

