-- ==== Sys2Proof/Config.lean ====
section
/-! DEFINITION. What the manual leaves open as a value: free values, constants without a body.
Nothing in Lean can evaluate them, so a statement holds whatever they are (log 2). -/
namespace Sys2Proof.Config

/-- The n-th free value of a run, w bits wide.  The machine draws a fresh n (State.free) each time
a value is needed that the manual does not give.  DESIGN CHOICE (log 2): unconstrained. -/
opaque freeValue (w n : Nat) : BitVec w

/-- Whether a write to host memory for which the manual does not say it uses Relaxed Ordering (R253, log 2). -/
opaque relaxed : Bool

/-- The Device Serial Number of the part (R251, log 2). -/
opaque deviceSerial : BitVec 64

end Sys2Proof.Config
end

