-- ==== Sys2Proof/Machine/Bits.lean ====
section
/-! DEFINITION. Bit fields, byte order, checksums and small arithmetic.  Every multi-byte value of Apnik is
little-endian (R24 and the record tables). -/
namespace Sys2Proof.Machine

/-- Bits hi..lo of a number. -/
def nbits (v hi lo : Nat) : Nat := (v / 2 ^ lo) % 2 ^ (hi + 1 - lo)

/-- Bits hi..lo of a register value. -/
def bits (v : Word) (hi lo : Nat) : Nat := nbits v.toNat hi lo

/-- One bit of a register value. -/
def bit (v : Word) (i : Nat) : Bool := v.getLsbD i

/-- The mask of bits hi..lo. -/
def maskOf (hi lo : Nat) : Word := BitVec.ofNat 32 ((2 ^ (hi + 1 - lo) - 1) * 2 ^ lo)

/-- A register value with bits hi..lo replaced. -/
def putBits (v : Word) (hi lo x : Nat) : Word :=
  (v &&& ~~~ maskOf hi lo) ||| (BitVec.ofNat 32 ((x % 2 ^ (hi + 1 - lo)) * 2 ^ lo))

/-- A register value with one bit replaced. -/
def putBit (v : Word) (i : Nat) (b : Bool) : Word := putBits v i i (if b then 1 else 0)

/-- 1 for true, 0 for false. -/
def b2n (b : Bool) : Nat := if b then 1 else 0

/-- The low 32 bits of a number. -/
def lo32 (n : Nat) : Word := BitVec.ofNat 32 n

/-- Bits 63..32 of a number. -/
def hi32 (n : Nat) : Word := BitVec.ofNat 32 (n / 2 ^ 32)

/-- A number from its two 32-bit halves. -/
def join32 (lo hi : Word) : Nat := (hi ++ lo).toNat

/-- The n low bytes of a number, least significant first. -/
def leBytes : Nat → Nat → List Byte
  | 0, _ => []
  | n + 1, x => BitVec.ofNat 8 x :: leBytes n (x / 256)

/-- The number little-endian bytes spell. -/
def ofLe : List Byte → Nat
  | [] => 0
  | b :: bs => b.toNat + 256 * ofLe bs

/-- A two's complement number of w bits. -/
def sgn (w x : Nat) : Int := (BitVec.ofNat w x).toInt

/-- A two's complement encoding in w bits. -/
def unsgn (w : Nat) (x : Int) : Nat := (BitVec.ofInt w x).toNat

/-- The bytes at an offset of a byte list, read little-endian; bytes past the end read 0. -/
def leAt (bs : List Byte) (off n : Nat) : Nat := ofLe ((bs.drop off).take n)

/-- A byte list made exactly n long with zeros. -/
def padTo (n : Nat) (bs : List Byte) : List Byte := bs.take n ++ List.replicate (n - bs.length) 0#8

/-- Bit i of a number. -/
def tbit (x i : Nat) : Bool := x.testBit i

/-- The w bits of a number, most significant first. -/
def bitsMsb : Nat → Nat → List Bool
  | 0, _ => []
  | w + 1, x => tbit x w :: bitsMsb w x

/-- The number that bits spell, most significant first. -/
def ofMsb (bs : List Bool) : Nat := bs.foldl (fun r b => 2 * r + b2n b) 0

/-- The w low bits of a number, least significant first. -/
def bitsLsb (w x : Nat) : List Bool := (List.range w).map (fun i => tbit x i)

/-- A checksum register of w bits shifted most significant bit first over bits (R52, R81, R112). -/
def crcMsb (w poly init : Nat) (bs : List Bool) : Nat :=
  bs.foldl (fun r b =>
    let sh := (2 * r) % 2 ^ w
    if xor (tbit r (w - 1)) b then sh ^^^ (poly % 2 ^ w) else sh) init

/-- One bit of the reflected CRC-32C register. -/
def crc32cBit (r : Nat) (b : Bool) : Nat :=
  if xor (tbit r 0) b then (r / 2) ^^^ 0x82F63B78 else r / 2

/-- CRC-32C over bytes: reflected polynomial 0x82F63B78, start and final inversion. -/
def crc32c (bs : List Byte) : Nat :=
  (bs.foldl (fun r b => (bitsLsb 8 b.toNat).foldl crc32cBit r) 0xFFFFFFFF) ^^^ 0xFFFFFFFF

/-- a divided by b, rounded to nearest, ties up (away from zero for non-negative a). -/
def divRound (a b : Nat) : Nat := (2 * a + b) / (2 * b)

/-- A signed quotient rounded to nearest, ties away from zero. -/
def idivRound (a : Int) (b : Nat) : Int :=
  if a < 0 then -((divRound a.natAbs b : Nat) : Int) else (divRound a.natAbs b : Nat)

/-- A number clipped between two limits. -/
def clampInt (lo hi x : Int) : Int := if x < lo then lo else if hi < x then hi else x

/-- A number clipped from above. -/
def capNat (hi x : Nat) : Nat := if hi < x then hi else x

/-- The list with element i replaced; a longer index changes nothing. -/
def setAt {α : Type} (l : List α) (i : Nat) (v : α) : List α := l.set i v

/-- The element of a list at an index, with a default. -/
def atD {α : Type} (l : List α) (i : Nat) (d : α) : α := (l[i]?).getD d

/-- The indices below n that satisfy a test, rising. -/
def idxs (n : Nat) (p : Nat → Bool) : List Nat := (List.range n).filter p

end Sys2Proof.Machine
end

