-- ==== Sys2Proof/Machine/RegMap.lean ====
section
/-! DEFINITION. The register map of BAR0: the address of every register, and one row per register that
gives its fields' places, access types, reset values, stated ranges and reserved encodings, as the
field tables of spec/01 to spec/14 state them (R24, R36).  A register no row names does not exist (R25). -/
namespace Sys2Proof.Machine

/-- Access types of R24; `cs` variants survive warm reset (RWS). -/
inductive Acc where
  | rw | rws | ro | wo | w1c | w1s | w1cs
  deriving DecidableEq, Repr

/-- One field: bits hi..lo, its access, a stated range (R36 clips to it), whether the range is
signed, and its reserved encodings (R36 keeps the old value). -/
structure FieldRow where
  hi : Nat
  lo : Nat
  acc : Acc
  range : Option (Int × Int)
  signed : Bool
  reserved : List Nat
  deriving DecidableEq, Repr

/-- What a register is: fields, a 32-bit counter of R21, or a 16-bit attempt counter of R22. -/
inductive RegKind where
  | plain | counter | attempts
  deriving DecidableEq, Repr

/-- One register of a unit: offset, repetition inside the unit, kind, reset value, fields. -/
structure RegRow where
  off : Nat
  rep : Nat
  reps : Nat
  kind : RegKind
  reset : Nat
  fields : List FieldRow
  deriving DecidableEq, Repr

/-- The blocks that hold registers. -/
inductive Blk where
  | time | mot | phy | lnk | pix | obj | ejt | pwm | seq | host | dma | erg | cmp | evt | cvn | pwr | flt
  deriving DecidableEq, Repr

/-- A group of equal units: base, stride, count, the block whose state holds them, where their
CFG_ERR bit is (R36: offset base, stride, bit), and whether a bad write is ignored as a whole
instead of clipped, as the sequencer and client chapters state (R231, R260). -/
structure UnitRow where
  base : Nat
  stride : Nat
  count : Nat
  blk : Blk
  cfgErr : Option (Nat × Nat × Nat)
  ignore : Bool
  regs : List RegRow
  deriving DecidableEq, Repr

def fRow (hi lo : Nat) (acc : Acc) : FieldRow := ⟨hi, lo, acc, none, false, []⟩
/-- A field that holds a stream ID: 96 to 127 are reserved (R5). -/
def strRow (hi lo : Nat) : FieldRow := ⟨hi, lo, .rw, none, false, (List.range 32).map (· + 96)⟩
def cRow (off : Nat) : RegRow := ⟨off, 0, 1, .counter, 0, []⟩
def cRows (off rep reps : Nat) : RegRow := ⟨off, rep, reps, .counter, 0, []⟩


/-! hst: R29, 01_architecture.md -/
abbrev HST_ID : Nat := 0x0
abbrev HST_REV : Nat := 0x4
abbrev HST_CONFIG : Nat := 0x8
abbrev HST_TB_LO : Nat := 0x10
abbrev HST_TB_HI : Nat := 0x14
abbrev HST_TB_RATE : Nat := 0x18
abbrev HST_TB_STEP : Nat := 0x1C
abbrev HST_TB_CTRL : Nat := 0x20
abbrev HST_TB_STATUS : Nat := 0x24
abbrev HST_PPS_LO : Nat := 0x28
abbrev HST_PPS_HI : Nat := 0x2C
abbrev HST_ACCESS_ERR : Nat := 0x30
abbrev HST_ACCESS_ADDR : Nat := 0x34
abbrev HST_ACCESS_ADDR_HI : Nat := 0x38
abbrev HST_RESET_CAUSE : Nat := 0x40

/-! mbx: R274, 09_host_delivery.md -/
abbrev HST_MBX_CMD : Nat := 0x100000
abbrev HST_MBX_STATUS : Nat := 0x100004
abbrev HST_MBX_ARG (k : Nat) : Nat := 0x100010 + k * 0x4
abbrev HST_MBX_RES (k : Nat) : Nat := 0x100080 + k * 0x4

/-! dlp: R82, 03_dunelink_lanes.md -/
abbrev DLP_CTRL (n : Nat) : Nat := 0x200000 + n * 0x1000
abbrev DLP_STATUS (n : Nat) : Nat := 0x200004 + n * 0x1000
abbrev DLP_PRESET (n : Nat) : Nat := 0x200008 + n * 0x1000
abbrev DLP_BACKOFF (n : Nat) : Nat := 0x20000C + n * 0x1000
abbrev DLP_CNT_ATTEMPT (n : Nat) : Nat := 0x200010 + n * 0x1000
abbrev DLP_CNT_RECOVER (n : Nat) : Nat := 0x200014 + n * 0x1000
abbrev DLP_CNT_DOWN (n : Nat) : Nat := 0x200018 + n * 0x1000
abbrev DLP_LANE_STATUS (n : Nat) (k : Nat) : Nat := 0x200100 + n * 0x1000 + k * 0x100
abbrev DLP_CTLE (n : Nat) (k : Nat) : Nat := 0x200104 + n * 0x1000 + k * 0x100
abbrev DLP_DFE_A (n : Nat) (k : Nat) : Nat := 0x200108 + n * 0x1000 + k * 0x100
abbrev DLP_DFE_B (n : Nat) (k : Nat) : Nat := 0x20010C + n * 0x1000 + k * 0x100
abbrev DLP_DFE_C (n : Nat) (k : Nat) : Nat := 0x200110 + n * 0x1000 + k * 0x100
abbrev DLP_ADAPT_FREEZE (n : Nat) (k : Nat) : Nat := 0x200114 + n * 0x1000 + k * 0x100
abbrev DLP_FOM (n : Nat) (k : Nat) : Nat := 0x200118 + n * 0x1000 + k * 0x100
abbrev DLP_ESCAN_CTRL (n : Nat) (k : Nat) : Nat := 0x200120 + n * 0x1000 + k * 0x100
abbrev DLP_ESCAN_STATUS (n : Nat) (k : Nat) : Nat := 0x200124 + n * 0x1000 + k * 0x100
abbrev DLP_ESCAN_UI_LO (n : Nat) (k : Nat) : Nat := 0x200128 + n * 0x1000 + k * 0x100
abbrev DLP_ESCAN_UI_HI (n : Nat) (k : Nat) : Nat := 0x20012C + n * 0x1000 + k * 0x100
abbrev DLP_ESCAN_ERR (n : Nat) (k : Nat) : Nat := 0x200130 + n * 0x1000 + k * 0x100
abbrev DLP_PRBS_CTRL (n : Nat) (k : Nat) : Nat := 0x200140 + n * 0x1000 + k * 0x100
abbrev DLP_PRBS_ERR (n : Nat) (k : Nat) : Nat := 0x200144 + n * 0x1000 + k * 0x100
abbrev DLP_PRBS_BITS_LO (n : Nat) (k : Nat) : Nat := 0x200148 + n * 0x1000 + k * 0x100
abbrev DLP_PRBS_BITS_HI (n : Nat) (k : Nat) : Nat := 0x20014C + n * 0x1000 + k * 0x100

/-! dlk: R130, 04_dunelink_packets.md -/
abbrev DLK_STATUS (n : Nat) : Nat := 0x300000 + n * 0x1000
abbrev DLK_SKEW (n : Nat) : Nat := 0x300004 + n * 0x1000
abbrev DLK_LINE_CTRL (n : Nat) : Nat := 0x300008 + n * 0x1000
abbrev DLK_TRG_CTRL (n : Nat) : Nat := 0x30000C + n * 0x1000
abbrev DLK_FEC_WARN (n : Nat) : Nat := 0x300010 + n * 0x1000
abbrev DLK_CAM_EVT (n : Nat) : Nat := 0x300014 + n * 0x1000
abbrev DLK_VC_DIV_LO (n : Nat) : Nat := 0x300018 + n * 0x1000
abbrev DLK_VC_DIV_HI (n : Nat) : Nat := 0x30001C + n * 0x1000
abbrev DLK_REG_CMD (n : Nat) : Nat := 0x300020 + n * 0x1000
abbrev DLK_REG_ADDR (n : Nat) : Nat := 0x300024 + n * 0x1000
abbrev DLK_REG_WDATA (n : Nat) : Nat := 0x300028 + n * 0x1000
abbrev DLK_REG_RDATA (n : Nat) : Nat := 0x30002C + n * 0x1000
abbrev DLK_REG_STATUS (n : Nat) : Nat := 0x300030 + n * 0x1000
abbrev DLK_REG_TIMEOUT (n : Nat) : Nat := 0x300034 + n * 0x1000
abbrev DLK_CNT_HDR_CRC (n : Nat) : Nat := 0x300080 + n * 0x1000
abbrev DLK_CNT_MALFORMED (n : Nat) : Nat := 0x300084 + n * 0x1000
abbrev DLK_CNT_BADBLK (n : Nat) : Nat := 0x300088 + n * 0x1000
abbrev DLK_CNT_SEQ_GAP (n : Nat) : Nat := 0x30008C + n * 0x1000
abbrev DLK_CNT_PAY_CRC (n : Nat) : Nat := 0x300090 + n * 0x1000
abbrev DLK_CNT_ORPHAN (n : Nat) : Nat := 0x300094 + n * 0x1000
abbrev DLK_CNT_UNBOUND (n : Nat) : Nat := 0x300098 + n * 0x1000
abbrev DLK_CNT_BAD_DT (n : Nat) : Nat := 0x30009C + n * 0x1000
abbrev DLK_CNT_RXOVF (n : Nat) : Nat := 0x3000A0 + n * 0x1000
abbrev DLK_CNT_SHORT (n : Nat) : Nat := 0x3000A4 + n * 0x1000
abbrev DLK_CNT_MISSING (n : Nat) : Nat := 0x3000A8 + n * 0x1000
abbrev DLK_CNT_LATE (n : Nat) : Nat := 0x3000AC + n * 0x1000
abbrev DLK_CNT_NOSTAMP (n : Nat) : Nat := 0x3000B0 + n * 0x1000
abbrev DLK_CNT_STALE (n : Nat) : Nat := 0x3000B4 + n * 0x1000
abbrev DLK_CNT_RESYNC (n : Nat) : Nat := 0x3000B8 + n * 0x1000
abbrev DLK_CNT_LCTL_BAD (n : Nat) : Nat := 0x3000BC + n * 0x1000
abbrev DLK_CNT_STALE_RESP (n : Nat) : Nat := 0x3000C0 + n * 0x1000
abbrev DLK_CNT_REG_TIMEOUT (n : Nat) : Nat := 0x3000C4 + n * 0x1000
abbrev DLK_CNT_BC_ERR (n : Nat) : Nat := 0x3000C8 + n * 0x1000
abbrev DLK_CNT_CAM_TRIG_LOST (n : Nat) : Nat := 0x3000CC + n * 0x1000
abbrev DLK_CNT_CAM_EVT (n : Nat) : Nat := 0x3000D0 + n * 0x1000
abbrev DLK_FEC_CW_LO (n : Nat) (k : Nat) : Nat := 0x300100 + n * 0x1000 + k * 0x40
abbrev DLK_FEC_CW_HI (n : Nat) (k : Nat) : Nat := 0x300104 + n * 0x1000 + k * 0x40
abbrev DLK_FEC_CORR_CW (n : Nat) (k : Nat) : Nat := 0x300108 + n * 0x1000 + k * 0x40
abbrev DLK_FEC_CORR_SYM (n : Nat) (k : Nat) : Nat := 0x30010C + n * 0x1000 + k * 0x40
abbrev DLK_FEC_UNCORR (n : Nat) (k : Nat) : Nat := 0x300110 + n * 0x1000 + k * 0x40
abbrev DLK_FEC_AM_ERR (n : Nat) (k : Nat) : Nat := 0x300114 + n * 0x1000 + k * 0x40

/-! pix: R135, 05_pixel_pipeline.md -/
abbrev PIX_SRC (n : Nat) : Nat := 0x400000 + n * 0x4000
abbrev PIX_WIN (n : Nat) : Nat := 0x400004 + n * 0x4000
abbrev PIX_CTRL (n : Nat) : Nat := 0x400008 + n * 0x4000
abbrev PIX_STRIP (n : Nat) : Nat := 0x40000C + n * 0x4000
abbrev PIX_REG (n : Nat) : Nat := 0x400010 + n * 0x4000
abbrev PIX_SHIFT (n : Nat) : Nat := 0x400014 + n * 0x4000
abbrev PIX_ARM (n : Nat) : Nat := 0x400020 + n * 0x4000
abbrev PIX_ARM_STATUS (n : Nat) : Nat := 0x400024 + n * 0x4000
abbrev PIX_APPLIED_STRIP (n : Nat) : Nat := 0x400028 + n * 0x4000
abbrev PIX_STATUS (n : Nat) : Nat := 0x40002C + n * 0x4000
abbrev PIX_STRIP_NUM (n : Nat) : Nat := 0x400030 + n * 0x4000
abbrev PIX_STRIP_LINE (n : Nat) : Nat := 0x400034 + n * 0x4000
abbrev PIX_TBL_CMD (n : Nat) : Nat := 0x400040 + n * 0x4000
abbrev PIX_TBL_ADDR_LO (n : Nat) : Nat := 0x400044 + n * 0x4000
abbrev PIX_TBL_ADDR_HI (n : Nat) : Nat := 0x400048 + n * 0x4000
abbrev PIX_TBL_LEN (n : Nat) : Nat := 0x40004C + n * 0x4000
abbrev PIX_CNT_OVERRUN (n : Nat) : Nat := 0x400080 + n * 0x4000
abbrev PIX_CNT_CLIP (n : Nat) : Nat := 0x400084 + n * 0x4000
abbrev PIX_CNT_DEFECT_UNCORR (n : Nat) : Nat := 0x400088 + n * 0x4000
abbrev PIX_CNT_JOIN_FILL (n : Nat) : Nat := 0x40008C + n * 0x4000
abbrev PIX_CNT_JOIN_DROP (n : Nat) : Nat := 0x400090 + n * 0x4000
abbrev PIX_CNT_STAT_COMPACT (n : Nat) : Nat := 0x400094 + n * 0x4000
abbrev PIX_CNT_STAT_DROP (n : Nat) : Nat := 0x400098 + n * 0x4000
abbrev PIX_CNT_OUT_DROP (n : Nat) : Nat := 0x40009C + n * 0x4000
abbrev PIX_CNT_AREA_SURPLUS (n : Nat) : Nat := 0x4000A0 + n * 0x4000
abbrev PIX_OUT_CTRL (n : Nat) : Nat := 0x400100 + n * 0x4000
abbrev PIX_OUT_SEL (n : Nat) : Nat := 0x400104 + n * 0x4000
abbrev PIX_STAT_CTRL (n : Nat) : Nat := 0x400108 + n * 0x4000
abbrev PIX_TBL_SEL (n : Nat) : Nat := 0x40010C + n * 0x4000
abbrev PIX_CTX_CTRL (n : Nat) : Nat := 0x400110 + n * 0x4000
abbrev PIX_CTX_PAT (n : Nat) : Nat := 0x400114 + n * 0x4000
abbrev PIX_FF_ADDR_LO (n : Nat) : Nat := 0x400118 + n * 0x4000
abbrev PIX_FF_ADDR_HI (n : Nat) : Nat := 0x40011C + n * 0x4000
abbrev PIX_BLACK_C0 (n : Nat) (k : Nat) : Nat := 0x400200 + n * 0x4000 + k * 0x40
abbrev PIX_BLACK_C1 (n : Nat) (k : Nat) : Nat := 0x400204 + n * 0x4000 + k * 0x40
abbrev PIX_BLACK_C2 (n : Nat) (k : Nat) : Nat := 0x400208 + n * 0x4000 + k * 0x40
abbrev PIX_BLACK_C3 (n : Nat) (k : Nat) : Nat := 0x40020C + n * 0x4000 + k * 0x40
abbrev PIX_MAT_0 (n : Nat) (k : Nat) : Nat := 0x400210 + n * 0x4000 + k * 0x40
abbrev PIX_MAT_1 (n : Nat) (k : Nat) : Nat := 0x400214 + n * 0x4000 + k * 0x40
abbrev PIX_MAT_2 (n : Nat) (k : Nat) : Nat := 0x400218 + n * 0x4000 + k * 0x40
abbrev PIX_MAT_3 (n : Nat) (k : Nat) : Nat := 0x40021C + n * 0x4000 + k * 0x40
abbrev PIX_MAT_4 (n : Nat) (k : Nat) : Nat := 0x400220 + n * 0x4000 + k * 0x40
abbrev PIX_MAT_5 (n : Nat) (k : Nat) : Nat := 0x400224 + n * 0x4000 + k * 0x40
abbrev PIX_MAT_6 (n : Nat) (k : Nat) : Nat := 0x400228 + n * 0x4000 + k * 0x40
abbrev PIX_MAT_7 (n : Nat) (k : Nat) : Nat := 0x40022C + n * 0x4000 + k * 0x40
abbrev PIX_MATK_0 (n : Nat) (k : Nat) : Nat := 0x400230 + n * 0x4000 + k * 0x40
abbrev PIX_MATK_1 (n : Nat) (k : Nat) : Nat := 0x400234 + n * 0x4000 + k * 0x40
abbrev PIX_TONE (n : Nat) (k : Nat) : Nat := 0x400238 + n * 0x4000 + k * 0x40
abbrev PIX_OUT_CTRL_ACT (n : Nat) : Nat := 0x401100 + n * 0x4000
abbrev PIX_OUT_SEL_ACT (n : Nat) : Nat := 0x401104 + n * 0x4000
abbrev PIX_STAT_CTRL_ACT (n : Nat) : Nat := 0x401108 + n * 0x4000
abbrev PIX_TBL_SEL_ACT (n : Nat) : Nat := 0x40110C + n * 0x4000
abbrev PIX_CTX_CTRL_ACT (n : Nat) : Nat := 0x401110 + n * 0x4000
abbrev PIX_CTX_PAT_ACT (n : Nat) : Nat := 0x401114 + n * 0x4000
abbrev PIX_FF_ADDR_LO_ACT (n : Nat) : Nat := 0x401118 + n * 0x4000
abbrev PIX_FF_ADDR_HI_ACT (n : Nat) : Nat := 0x40111C + n * 0x4000
abbrev PIX_BLACK_C0_ACT (n : Nat) (k : Nat) : Nat := 0x401200 + n * 0x4000 + k * 0x40
abbrev PIX_BLACK_C1_ACT (n : Nat) (k : Nat) : Nat := 0x401204 + n * 0x4000 + k * 0x40
abbrev PIX_BLACK_C2_ACT (n : Nat) (k : Nat) : Nat := 0x401208 + n * 0x4000 + k * 0x40
abbrev PIX_BLACK_C3_ACT (n : Nat) (k : Nat) : Nat := 0x40120C + n * 0x4000 + k * 0x40
abbrev PIX_MAT_0_ACT (n : Nat) (k : Nat) : Nat := 0x401210 + n * 0x4000 + k * 0x40
abbrev PIX_MAT_1_ACT (n : Nat) (k : Nat) : Nat := 0x401214 + n * 0x4000 + k * 0x40
abbrev PIX_MAT_2_ACT (n : Nat) (k : Nat) : Nat := 0x401218 + n * 0x4000 + k * 0x40
abbrev PIX_MAT_3_ACT (n : Nat) (k : Nat) : Nat := 0x40121C + n * 0x4000 + k * 0x40
abbrev PIX_MAT_4_ACT (n : Nat) (k : Nat) : Nat := 0x401220 + n * 0x4000 + k * 0x40
abbrev PIX_MAT_5_ACT (n : Nat) (k : Nat) : Nat := 0x401224 + n * 0x4000 + k * 0x40
abbrev PIX_MAT_6_ACT (n : Nat) (k : Nat) : Nat := 0x401228 + n * 0x4000 + k * 0x40
abbrev PIX_MAT_7_ACT (n : Nat) (k : Nat) : Nat := 0x40122C + n * 0x4000 + k * 0x40
abbrev PIX_MATK_0_ACT (n : Nat) (k : Nat) : Nat := 0x401230 + n * 0x4000 + k * 0x40
abbrev PIX_MATK_1_ACT (n : Nat) (k : Nat) : Nat := 0x401234 + n * 0x4000 + k * 0x40
abbrev PIX_TONE_ACT (n : Nat) (k : Nat) : Nat := 0x401238 + n * 0x4000 + k * 0x40

/-! obj: R162, 06_object_extraction.md -/
abbrev OBJ_CTRL (n : Nat) : Nat := 0x600000 + n * 0x1000
abbrev OBJ_CLS_SEL (n : Nat) : Nat := 0x600004 + n * 0x1000
abbrev OBJ_FG_MASK (n : Nat) : Nat := 0x600008 + n * 0x1000
abbrev OBJ_CNT_MAP (n : Nat) : Nat := 0x60000C + n * 0x1000
abbrev OBJ_CUT (n : Nat) : Nat := 0x600010 + n * 0x1000
abbrev OBJ_PAIR (n : Nat) : Nat := 0x600014 + n * 0x1000
abbrev OBJ_PAIR_DPOS (n : Nat) : Nat := 0x600018 + n * 0x1000
abbrev OBJ_PAIR_TOL (n : Nat) : Nat := 0x60001C + n * 0x1000
abbrev OBJ_PAIR_XMAP (n : Nat) : Nat := 0x600020 + n * 0x1000
abbrev OBJ_PAIR_XOFF (n : Nat) : Nat := 0x600024 + n * 0x1000
abbrev OBJ_PAIR_WAIT (n : Nat) : Nat := 0x600028 + n * 0x1000
abbrev OBJ_STATUS (n : Nat) : Nat := 0x600040 + n * 0x1000
abbrev OBJ_OPEN (n : Nat) : Nat := 0x600044 + n * 0x1000
abbrev OBJ_TBL_CMD (n : Nat) : Nat := 0x600048 + n * 0x1000
abbrev OBJ_TBL_ADDR_LO (n : Nat) : Nat := 0x60004C + n * 0x1000
abbrev OBJ_TBL_ADDR_HI (n : Nat) : Nat := 0x600050 + n * 0x1000
abbrev OBJ_CNT_CLOSED (n : Nat) : Nat := 0x600080 + n * 0x1000
abbrev OBJ_CNT_LOST (n : Nat) : Nat := 0x600084 + n * 0x1000
abbrev OBJ_CNT_LOST_RUN (n : Nat) : Nat := 0x600088 + n * 0x1000
abbrev OBJ_CNT_FORCED (n : Nat) : Nat := 0x60008C + n * 0x1000
abbrev OBJ_CNT_INCOMPLETE (n : Nat) : Nat := 0x600090 + n * 0x1000
abbrev OBJ_CNT_CUT_DROP (n : Nat) : Nat := 0x600094 + n * 0x1000
abbrev OBJ_CNT_CUT_LATE (n : Nat) : Nat := 0x600098 + n * 0x1000
abbrev OBJ_CNT_CUT_TRUNC (n : Nat) : Nat := 0x60009C + n * 0x1000
abbrev OBJ_CNT_PAIRED (n : Nat) : Nat := 0x6000A0 + n * 0x1000
abbrev OBJ_CNT_UNPAIRED (n : Nat) : Nat := 0x6000A4 + n * 0x1000

/-! ejt: R216, 07_verdicts_and_ejection.md -/
abbrev EJT_STATUS : Nat := 0x800000
abbrev EJT_RETAIN : Nat := 0x800004
abbrev EJT_TBL_CMD : Nat := 0x800008
abbrev EJT_TBL_ADDR_LO : Nat := 0x80000C
abbrev EJT_TBL_ADDR_HI : Nat := 0x800010
abbrev EJT_TBL_SWAP : Nat := 0x800014
abbrev EJT_PEND_NOW : Nat := 0x800018
abbrev EJT_PEND_PEAK : Nat := 0x80001C
abbrev EJT_CNT_HOST : Nat := 0x800080
abbrev EJT_CNT_RULE : Nat := 0x800084
abbrev EJT_CNT_DEFAULT : Nat := 0x800088
abbrev EJT_CNT_LATE : Nat := 0x80008C
abbrev EJT_CNT_DUP : Nat := 0x800090
abbrev EJT_CNT_UNKNOWN : Nat := 0x800094
abbrev EJT_CNT_OWNER : Nat := 0x800098
abbrev EJT_CNT_FIELD : Nat := 0x80009C
abbrev EJT_CNT_RANGE : Nat := 0x8000A0
abbrev EJT_CNT_NODL : Nat := 0x8000A4
abbrev EJT_CNT_TOO_LATE : Nat := 0x8000A8
abbrev EJT_CNT_PEND_FULL : Nat := 0x8000AC
abbrev EJT_CNT_LIMITED : Nat := 0x8000B0
abbrev EJT_CNT_CANCELLED : Nat := 0x8000B4
abbrev EJT_CNT_LOST_EJECT : Nat := 0x8000B8
abbrev EJT_CNT_NO_ALT : Nat := 0x8000BC

/-! ejb: R216, 07_verdicts_and_ejection.md -/
abbrev EJT_BUS_CTRL (n : Nat) : Nat := 0x800100 + n * 0x40
abbrev EJT_BUS_PROT (n : Nat) : Nat := 0x800104 + n * 0x40
abbrev EJT_BUS_STATUS (n : Nat) : Nat := 0x800108 + n * 0x40
abbrev EJT_CNT_RET_CRC (n : Nat) : Nat := 0x80010C + n * 0x40

/-! ejs: R216, 07_verdicts_and_ejection.md -/
abbrev EJT_STR_CTRL (n : Nat) : Nat := 0x801000 + n * 0x40
abbrev EJT_STR_V0 (n : Nat) : Nat := 0x801004 + n * 0x40
abbrev EJT_STR_VSCALE (n : Nat) : Nat := 0x801008 + n * 0x40
abbrev EJT_STR_VRANGE (n : Nat) : Nat := 0x80100C + n * 0x40
abbrev EJT_STR_WIDEN (n : Nat) : Nat := 0x801010 + n * 0x40
abbrev EJT_STR_TIME (n : Nat) : Nat := 0x801014 + n * 0x40
abbrev EJT_STR_OFS (n : Nat) : Nat := 0x801018 + n * 0x40
abbrev EJT_STR_MARGIN (n : Nat) : Nat := 0x80101C + n * 0x40

/-! pwm: R217, 07_verdicts_and_ejection.md -/
abbrev PWM_CTRL (n : Nat) : Nat := 0x808000 + n * 0x40
abbrev PWM_PERIOD (n : Nat) : Nat := 0x808004 + n * 0x40
abbrev PWM_DUTY (n : Nat) : Nat := 0x808008 + n * 0x40
abbrev PWM_DEAD (n : Nat) : Nat := 0x80800C + n * 0x40
abbrev PWM_BLANK (n : Nat) : Nat := 0x808010 + n * 0x40
abbrev PWM_DELAY (n : Nat) : Nat := 0x808014 + n * 0x40
abbrev PWM_STATUS (n : Nat) : Nat := 0x808018 + n * 0x40
abbrev PWM_CNT_OC (n : Nat) : Nat := 0x808020 + n * 0x40
abbrev PWM_CNT_OVERRUN (n : Nat) : Nat := 0x808024 + n * 0x40
abbrev PWM_CNT_TRIP (n : Nat) : Nat := 0x808028 + n * 0x40

/-! pwg: R217, 07_verdicts_and_ejection.md -/
abbrev PWM_GRP_STATUS (n : Nat) : Nat := 0x808200 + n * 0x10
abbrev PWM_GRP_CLEAR (n : Nat) : Nat := 0x808204 + n * 0x10

/-! enc: R35, 02_motion_and_triggers.md -/
abbrev ENC_CTRL (n : Nat) : Nat := 0x900000 + n * 0x400
abbrev ENC_STANDSTILL (n : Nat) : Nat := 0x900004 + n * 0x400
abbrev ENC_POS_LO (n : Nat) : Nat := 0x900008 + n * 0x400
abbrev ENC_POS_HI (n : Nat) : Nat := 0x90000C + n * 0x400
abbrev ENC_SPEED (n : Nat) : Nat := 0x900010 + n * 0x400
abbrev ENC_STATUS (n : Nat) : Nat := 0x900014 + n * 0x400
abbrev ENC_SET_LO (n : Nat) : Nat := 0x900018 + n * 0x400
abbrev ENC_SET_HI (n : Nat) : Nat := 0x90001C + n * 0x400
abbrev ENC_ZERO_LO (n : Nat) : Nat := 0x900020 + n * 0x400
abbrev ENC_ZERO_HI (n : Nat) : Nat := 0x900024 + n * 0x400
abbrev ENC_ZLATCH_LO (n : Nat) : Nat := 0x900028 + n * 0x400
abbrev ENC_ZLATCH_HI (n : Nat) : Nat := 0x90002C + n * 0x400
abbrev ENC_SNAP_POS_LO (n : Nat) : Nat := 0x900030 + n * 0x400
abbrev ENC_SNAP_POS_HI (n : Nat) : Nat := 0x900034 + n * 0x400
abbrev ENC_SNAP_TB_LO (n : Nat) : Nat := 0x900038 + n * 0x400
abbrev ENC_SNAP_TB_HI (n : Nat) : Nat := 0x90003C + n * 0x400
abbrev ENC_SNAP_SPEED (n : Nat) : Nat := 0x900040 + n * 0x400
abbrev ENC_SNAP_STATE (n : Nat) : Nat := 0x900044 + n * 0x400
abbrev ENC_NOISE_LIM (n : Nat) : Nat := 0x900048 + n * 0x400
abbrev ENC_CNT_ILLEGAL (n : Nat) : Nat := 0x900080 + n * 0x400
abbrev ENC_CNT_OVERSPEED (n : Nat) : Nat := 0x900084 + n * 0x400
abbrev ENC_CNT_RAW_A (n : Nat) : Nat := 0x900088 + n * 0x400
abbrev ENC_CNT_RAW_B (n : Nat) : Nat := 0x90008C + n * 0x400
abbrev ENC_CNT_RAW_Z (n : Nat) : Nat := 0x900090 + n * 0x400
abbrev ENC_CNT_SSI_BAD (n : Nat) : Nat := 0x900094 + n * 0x400
abbrev ENC_SSI_CTRL (n : Nat) : Nat := 0x900100 + n * 0x400
abbrev ENC_SSI_CRC (n : Nat) : Nat := 0x900104 + n * 0x400
abbrev ENC_SSI_PERIOD (n : Nat) : Nat := 0x900108 + n * 0x400
abbrev ENC_SSI_DELAY (n : Nat) : Nat := 0x90010C + n * 0x400
abbrev ENC_SSI_TIMEOUT (n : Nat) : Nat := 0x900110 + n * 0x400
abbrev ENC_SSI_MAXSTEP (n : Nat) : Nat := 0x900114 + n * 0x400

/-! snap: R34, 02_motion_and_triggers.md -/
abbrev ENC_SNAP : Nat := 0x902000

/-! ms: R55, 02_motion_and_triggers.md -/
abbrev ENC_MS_PRIM (n : Nat) : Nat := 0x902100 + n * 0x10
abbrev ENC_MS_SEC (n : Nat) : Nat := 0x902104 + n * 0x10
abbrev ENC_MS_HOLD (n : Nat) : Nat := 0x902108 + n * 0x10
abbrev ENC_MS_STATUS (n : Nat) : Nat := 0x90210C + n * 0x10

/-! tport: R62, 02_motion_and_triggers.md -/
abbrev TRG_PORT (n : Nat) : Nat := 0x903000 + n * 0x4

/-! stq: R68, 02_motion_and_triggers.md -/
abbrev TRG_STAMP_Q : Nat := 0x903100
abbrev TRG_STAMP_TB_LO : Nat := 0x903104
abbrev TRG_STAMP_TB_HI : Nat := 0x903108
abbrev TRG_STAMP_POS_LO : Nat := 0x90310C
abbrev TRG_STAMP_POS_HI : Nat := 0x903110
abbrev TRG_STAMP_VALID : Nat := 0x903114

/-! tpin: R63, 02_motion_and_triggers.md -/
abbrev TRG_PIN (n : Nat) : Nat := 0x903200 + n * 0x10
abbrev TRG_PIN_STATUS (n : Nat) : Nat := 0x903204 + n * 0x10

/-! tg: R58, 02_motion_and_triggers.md -/
abbrev TRG_CTRL (n : Nat) : Nat := 0x910000 + n * 0x100
abbrev TRG_DIV_INT (n : Nat) : Nat := 0x910004 + n * 0x100
abbrev TRG_DIV_FRAC (n : Nat) : Nat := 0x910008 + n * 0x100
abbrev TRG_NEXT_LO (n : Nat) : Nat := 0x91000C + n * 0x100
abbrev TRG_NEXT_HI (n : Nat) : Nat := 0x910010 + n * 0x100
abbrev TRG_PER_INT (n : Nat) : Nat := 0x910014 + n * 0x100
abbrev TRG_PER_FRAC (n : Nat) : Nat := 0x910018 + n * 0x100
abbrev TRG_LIST_LEN (n : Nat) : Nat := 0x91001C + n * 0x100
abbrev TRG_CNT_ISSUED (n : Nat) : Nat := 0x910020 + n * 0x100
abbrev TRG_CNT_SKIP (n : Nat) : Nat := 0x910024 + n * 0x100
abbrev TRG_STATUS (n : Nat) : Nat := 0x910028 + n * 0x100

/-! tlist: R34, 02_motion_and_triggers.md -/
abbrev TRG_LIST (n : Nat) : Nat := 0x920000 + n * 0x4

/-! seq: R231, 08_schedules.md -/
abbrev SEQ_CTRL (n : Nat) : Nat := 0xA00000 + n * 0x1000
abbrev SEQ_STATUS (n : Nat) : Nat := 0xA00004 + n * 0x1000
abbrev SEQ_EVPEND (n : Nat) : Nat := 0xA00008 + n * 0x1000
abbrev SEQ_PEAK_LINE (n : Nat) : Nat := 0xA00010 + n * 0x1000
abbrev SEQ_PEAK_STRIP (n : Nat) : Nat := 0xA00014 + n * 0x1000
abbrev SEQ_PEAK_EVENT (n : Nat) : Nat := 0xA00018 + n * 0x1000
abbrev SEQ_PEAK_TICK (n : Nat) : Nat := 0xA0001C + n * 0x1000
abbrev SEQ_X (n : Nat) (k : Nat) : Nat := 0xA00040 + n * 0x1000 + k * 0x4
abbrev SEQ_CNT_SLOTS (n : Nat) : Nat := 0xA00080 + n * 0x1000
abbrev SEQ_CNT_BUDGET (n : Nat) : Nat := 0xA00084 + n * 0x1000
abbrev SEQ_CNT_OVERRUN (n : Nat) : Nat := 0xA00088 + n * 0x1000
abbrev SEQ_CNT_EARLY (n : Nat) : Nat := 0xA0008C + n * 0x1000
abbrev SEQ_CNT_DMA_FULL (n : Nat) : Nat := 0xA00090 + n * 0x1000
abbrev SEQ_CNT_TRIG_IGN (n : Nat) : Nat := 0xA00094 + n * 0x1000
abbrev SEQ_CNT_ECC_CORR (n : Nat) : Nat := 0xA00098 + n * 0x1000

/-! img: R232, 08_schedules.md -/
abbrev SEQ_IMG_STATUS : Nat := 0xA40000
abbrev SEQ_IMG_BUILD_LO : Nat := 0xA40004
abbrev SEQ_IMG_BUILD_HI : Nat := 0xA40008
abbrev SEQ_IMG_MAP_CRC : Nat := 0xA4000C

/-! dma: R285, 09_host_delivery.md -/
abbrev DMA_CH_CTRL (n : Nat) : Nat := 0xC00000 + n * 0x100
abbrev DMA_CH_STATUS (n : Nat) : Nat := 0xC00004 + n * 0x100
abbrev DMA_CH_RATE (n : Nat) : Nat := 0xC00008 + n * 0x100
abbrev DMA_CH_OWNER (n : Nat) : Nat := 0xC0000C + n * 0x100
abbrev DMA_CH_SERIAL (n : Nat) : Nat := 0xC00010 + n * 0x100
abbrev DMA_CH_HALT_SERIAL (n : Nat) : Nat := 0xC00014 + n * 0x100
abbrev DMA_CNT_DONE (n : Nat) : Nat := 0xC00020 + n * 0x100
abbrev DMA_CNT_RETRY (n : Nat) : Nat := 0xC00024 + n * 0x100
abbrev DMA_CNT_FAIL (n : Nat) : Nat := 0xC00028 + n * 0x100

/-! erg: R298, 10_erg_queues_compression.md -/
abbrev ERG_SEG_Q : Nat := 0xD00000
abbrev ERG_SEG_INFO : Nat := 0xD00004
abbrev ERG_FREE_SEGS : Nat := 0xD00008
abbrev ERG_SCRUB : Nat := 0xD0000C

/-! stk: R298, 10_erg_queues_compression.md -/
abbrev ERG_STK_STATUS (n : Nat) : Nat := 0xD00100 + n * 0x40
abbrev ERG_ECC_CORR (n : Nat) : Nat := 0xD00104 + n * 0x40
abbrev ERG_ECC_UNCORR (n : Nat) : Nat := 0xD00108 + n * 0x40
abbrev ERG_ECC_ADDR_LO (n : Nat) : Nat := 0xD0010C + n * 0x40
abbrev ERG_ECC_ADDR_HI (n : Nat) : Nat := 0xD00110 + n * 0x40
abbrev ERG_CNT_WR_FAIL (n : Nat) : Nat := 0xD00114 + n * 0x40

/-! lb: R302, 10_erg_queues_compression.md -/
abbrev ERG_LB_NEXT_LO (n : Nat) : Nat := 0xD10000 + n * 0x40
abbrev ERG_LB_NEXT_HI (n : Nat) : Nat := 0xD10004 + n * 0x40
abbrev ERG_LB_OLDEST_LO (n : Nat) : Nat := 0xD10008 + n * 0x40
abbrev ERG_LB_OLDEST_HI (n : Nat) : Nat := 0xD1000C + n * 0x40
abbrev ERG_LB_NLINES (n : Nat) : Nat := 0xD10010 + n * 0x40
abbrev ERG_LB_CNT_WRERR (n : Nat) : Nat := 0xD10014 + n * 0x40

/-! q: R313, 10_erg_queues_compression.md -/
abbrev ERG_Q_COUNT (n : Nat) : Nat := 0xD40000 + n * 0x20
abbrev ERG_Q_CTRL (n : Nat) : Nat := 0xD40004 + n * 0x20
abbrev ERG_Q_STATUS (n : Nat) : Nat := 0xD40008 + n * 0x20
abbrev ERG_Q_DATA_LO (n : Nat) : Nat := 0xD4000C + n * 0x20
abbrev ERG_Q_DATA_HI (n : Nat) : Nat := 0xD40010 + n * 0x20
abbrev ERG_Q_CNT_DROP (n : Nat) : Nat := 0xD40014 + n * 0x20
abbrev ERG_Q_CNT_CORR (n : Nat) : Nat := 0xD40018 + n * 0x20

/-! cmp: R316, 10_erg_queues_compression.md -/
abbrev CMP_CTRL (n : Nat) : Nat := 0xD80000 + n * 0x100
abbrev CMP_STATUS (n : Nat) : Nat := 0xD80004 + n * 0x100
abbrev CMP_SUBMIT_LO (n : Nat) : Nat := 0xD80008 + n * 0x100
abbrev CMP_SUBMIT_HI (n : Nat) : Nat := 0xD8000C + n * 0x100
abbrev CMP_CNT_JOBS (n : Nat) : Nat := 0xD80010 + n * 0x100
abbrev CMP_CNT_FAIL (n : Nat) : Nat := 0xD80014 + n * 0x100
abbrev CMP_CNT_VERIFY (n : Nat) : Nat := 0xD80018 + n * 0x100

/-! prod: R323, 11_event_routing.md -/
abbrev EVT_PROD (n : Nat) : Nat := 0xE00000 + n * 0x4

/-! ch: R327, 11_event_routing.md -/
abbrev EVT_CH_CTRL (n : Nat) : Nat := 0xE01000 + n * 0x40
abbrev EVT_CH_RATE (n : Nat) : Nat := 0xE01004 + n * 0x40
abbrev EVT_CH_STATUS (n : Nat) : Nat := 0xE01008 + n * 0x40
abbrev EVT_CH_ARG (n : Nat) : Nat := 0xE0100C + n * 0x40
abbrev EVT_CH_TB_LO (n : Nat) : Nat := 0xE01010 + n * 0x40
abbrev EVT_CH_TB_HI (n : Nat) : Nat := 0xE01014 + n * 0x40
abbrev EVT_CH_SRC (n : Nat) : Nat := 0xE01018 + n * 0x40
abbrev EVT_CNT_EVENTS (n : Nat) : Nat := 0xE01020 + n * 0x40
abbrev EVT_CNT_DROP (n : Nat) : Nat := 0xE01024 + n * 0x40
abbrev EVT_CNT_OVERRUN (n : Nat) : Nat := 0xE01028 + n * 0x40
abbrev EVT_CNT_RATE_DROP (n : Nat) : Nat := 0xE0102C + n * 0x40

/-! cell: R330, 11_event_routing.md -/
abbrev EVT_CELL_INA (n : Nat) : Nat := 0xE06000 + n * 0x20
abbrev EVT_CELL_INB (n : Nat) : Nat := 0xE06004 + n * 0x20
abbrev EVT_CELL_CTRL (n : Nat) : Nat := 0xE06008 + n * 0x20
abbrev EVT_CELL_STATUS (n : Nat) : Nat := 0xE0600C + n * 0x20
abbrev EVT_CELL_STUCK (n : Nat) : Nat := 0xE06010 + n * 0x20

/-! epub: R323, 11_event_routing.md -/
abbrev EVT_PUB_ARG : Nat := 0xE07000
abbrev EVT_PUB : Nat := 0xE07004

/-! cvn: R360, 12_caravan.md -/
abbrev CVN_CTRL : Nat := 0xF00000
abbrev CVN_STATUS : Nat := 0xF00004
abbrev CVN_ID : Nat := 0xF00008
abbrev CVN_GEN : Nat := 0xF0000C
abbrev CVN_SYNC : Nat := 0xF00010
abbrev CVN_POS : Nat := 0xF00014
abbrev CVN_OFFSET : Nat := 0xF00018
abbrev CVN_RATE_F : Nat := 0xF0001C
abbrev CVN_RMT_CMD : Nat := 0xF00020
abbrev CVN_RMT_ADDR : Nat := 0xF00024
abbrev CVN_RMT_DATA : Nat := 0xF00028
abbrev CVN_RMT_STATUS : Nat := 0xF0002C
abbrev CVN_ENUM_RESULT : Nat := 0xF00030
abbrev CVN_CNT_HDR_CRC : Nat := 0xF00080
abbrev CVN_CNT_CELL_CRC : Nat := 0xF00084
abbrev CVN_CNT_HOPS : Nat := 0xF00088
abbrev CVN_CNT_NOROUTE : Nat := 0xF0008C
abbrev CVN_CNT_HO_SENT : Nat := 0xF00090
abbrev CVN_CNT_HO_RECV : Nat := 0xF00094
abbrev CVN_CNT_HO_LOST : Nat := 0xF00098
abbrev CVN_CNT_HO_LOCAL : Nat := 0xF0009C
abbrev CVN_CNT_HO_DROP : Nat := 0xF000A0
abbrev CVN_CNT_POS_LATE : Nat := 0xF000A4
abbrev CVN_CNT_RELOCK : Nat := 0xF000A8
abbrev CVN_CNT_FAILOVER : Nat := 0xF000AC
abbrev CVN_CNT_ENUM_PASS : Nat := 0xF000B0
abbrev CVN_CNT_ENUM_ABORT : Nat := 0xF000B4
abbrev CVN_CNT_ENUM_LIMIT : Nat := 0xF000B8
abbrev CVN_CNT_EVT_OVERRUN : Nat := 0xF000BC

/-! cvy: R333, 12_caravan.md -/
abbrev CVY_CTRL (n : Nat) : Nat := 0xF10000 + n * 0x1000
abbrev CVY_STATUS (n : Nat) : Nat := 0xF10004 + n * 0x1000
abbrev CVY_PRESET (n : Nat) : Nat := 0xF10008 + n * 0x1000
abbrev CVY_BACKOFF (n : Nat) : Nat := 0xF1000C + n * 0x1000
abbrev CVY_CNT_ATTEMPT (n : Nat) : Nat := 0xF10010 + n * 0x1000
abbrev CVY_CNT_RECOVER (n : Nat) : Nat := 0xF10014 + n * 0x1000
abbrev CVY_CNT_DOWN (n : Nat) : Nat := 0xF10018 + n * 0x1000
abbrev CVY_LANE_STATUS (n : Nat) : Nat := 0xF10100 + n * 0x1000
abbrev CVY_CTLE (n : Nat) : Nat := 0xF10104 + n * 0x1000
abbrev CVY_DFE_A (n : Nat) : Nat := 0xF10108 + n * 0x1000
abbrev CVY_DFE_B (n : Nat) : Nat := 0xF1010C + n * 0x1000
abbrev CVY_DFE_C (n : Nat) : Nat := 0xF10110 + n * 0x1000
abbrev CVY_ADAPT_FREEZE (n : Nat) : Nat := 0xF10114 + n * 0x1000
abbrev CVY_FOM (n : Nat) : Nat := 0xF10118 + n * 0x1000
abbrev CVY_ESCAN_CTRL (n : Nat) : Nat := 0xF10120 + n * 0x1000
abbrev CVY_ESCAN_STATUS (n : Nat) : Nat := 0xF10124 + n * 0x1000
abbrev CVY_ESCAN_UI_LO (n : Nat) : Nat := 0xF10128 + n * 0x1000
abbrev CVY_ESCAN_UI_HI (n : Nat) : Nat := 0xF1012C + n * 0x1000
abbrev CVY_ESCAN_ERR (n : Nat) : Nat := 0xF10130 + n * 0x1000
abbrev CVY_PRBS_CTRL (n : Nat) : Nat := 0xF10140 + n * 0x1000
abbrev CVY_PRBS_ERR (n : Nat) : Nat := 0xF10144 + n * 0x1000
abbrev CVY_PRBS_BITS_LO (n : Nat) : Nat := 0xF10148 + n * 0x1000
abbrev CVY_PRBS_BITS_HI (n : Nat) : Nat := 0xF1014C + n * 0x1000

/-! cvp: R360, 12_caravan.md -/
abbrev CVN_PORT_STATUS (n : Nat) : Nat := 0xF01000 + n * 0x100
abbrev CVN_PORT_ASYM (n : Nat) : Nat := 0xF01004 + n * 0x100
abbrev CVN_PORT_DELAY (n : Nat) : Nat := 0xF01008 + n * 0x100
abbrev CVN_PORT_RANGE (n : Nat) : Nat := 0xF0100C + n * 0x100

/-! ho: R357, 12_caravan.md -/
abbrev CVN_HO (n : Nat) : Nat := 0xF08000 + n * 0x4

/-! pwr: R369, 13_power_and_management.md -/
abbrev PWR_STATUS : Nat := 0x1000000
abbrev PWR_GUARD : Nat := 0x1000004
abbrev PWR_VREG : Nat := 0x1000008
abbrev PWR_CNT_NAP : Nat := 0x1000080
abbrev PWR_CNT_QUIET : Nat := 0x1000084
abbrev PWR_CNT_MISPREDICT : Nat := 0x1000088

/-! pcl: R369, 13_power_and_management.md -/
abbrev PWR_CL_CTRL (n : Nat) : Nat := 0x1000100 + n * 0x10

/-! pul: R369, 13_power_and_management.md -/
abbrev PWR_UNIT_LIM (n : Nat) : Nat := 0x1000200 + n * 0x4

/-! pms: R369, 13_power_and_management.md -/
abbrev PWR_MS_ACCEL (n : Nat) : Nat := 0x1000300 + n * 0x4

/-! oas: R373, 13_power_and_management.md -/
abbrev OAS_CTRL : Nat := 0x1001000
abbrev OAS_STATUS : Nat := 0x1001004
abbrev OAS_WAKE_CAUSE : Nat := 0x1001008
abbrev OAS_STRAPS : Nat := 0x100100C
abbrev OAS_RTC_LO : Nat := 0x1001010
abbrev OAS_RTC_HI : Nat := 0x1001014
abbrev OAS_ALARM_LO : Nat := 0x1001018
abbrev OAS_ALARM_HI : Nat := 0x100101C
abbrev OAS_RET (k : Nat) : Nat := 0x1001040 + k * 0x4

/-! mgt: R389, 13_power_and_management.md -/
abbrev MGT_CTRL : Nat := 0x1002000
abbrev MGT_CTL_CMD : Nat := 0x1002004
abbrev MGT_CTL_STATUS : Nat := 0x1002008
abbrev MGT_CTL_DATA0 : Nat := 0x100200C
abbrev MGT_CTL_DATA1 : Nat := 0x1002010
abbrev MGT_CNT_ARB : Nat := 0x1002014
abbrev MGT_MBOX_STATUS : Nat := 0x1002018
abbrev MGT_MBOX_OUT_DONE : Nat := 0x100201C
abbrev MGT_MBOX_IN (k : Nat) : Nat := 0x1002100 + k * 0x4
abbrev MGT_MBOX_OUT (k : Nat) : Nat := 0x1002140 + k * 0x4

/-! flt: R398, 14_faults_and_test.md -/
abbrev FLT_STATUS : Nat := 0x1100000
abbrev FLT_CTRL : Nat := 0x1100004
abbrev FLT_LOG_PROD : Nat := 0x1100008
abbrev FLT_LOG_CONS : Nat := 0x110000C
abbrev FLT_NOT_LOGGED : Nat := 0x1100010
abbrev FLT_STAGE_COUNT : Nat := 0x1100014
abbrev FLT_MIR_BASE_LO : Nat := 0x1100020
abbrev FLT_MIR_BASE_HI : Nat := 0x1100024
abbrev FLT_MIR_SIZE : Nat := 0x1100028
abbrev FLT_MIR_PROD : Nat := 0x110002C
abbrev FLT_MIR_CONS : Nat := 0x1100030
abbrev FLT_HOST_WDOG : Nat := 0x1100034
abbrev FLT_HOST_KICK : Nat := 0x1100038
abbrev FLT_CAP_CLEAR : Nat := 0x1100040
abbrev FLT_FIRST (k : Nat) : Nat := 0x1100060 + k * 0x4
abbrev FLT_FATAL (k : Nat) : Nat := 0x1100080 + k * 0x4
abbrev FLT_COAL (k : Nat) : Nat := 0x1100400 + k * 0x4
abbrev FLT_LOG (k : Nat) : Nat := 0x1101000 + k * 0x4

/-! cli: R260, 09_host_delivery.md -/
abbrev HST_CLI_ID (n : Nat) : Nat := 0x4000000 + n * 0x1000
abbrev HST_CLI_CTRL (n : Nat) : Nat := 0x4000004 + n * 0x1000
abbrev HST_CLI_STATUS (n : Nat) : Nat := 0x4000008 + n * 0x1000
abbrev HST_CLI_INTMOD (n : Nat) : Nat := 0x400000C + n * 0x1000
abbrev HST_CLI_WB_LO (n : Nat) : Nat := 0x4000010 + n * 0x1000
abbrev HST_CLI_WB_HI (n : Nat) : Nat := 0x4000014 + n * 0x1000
abbrev HST_CLI_DATA_LO (n : Nat) : Nat := 0x4000018 + n * 0x1000
abbrev HST_CLI_DATA_HI (n : Nat) : Nat := 0x400001C + n * 0x1000
abbrev HST_CLI_DATA_SIZE (n : Nat) : Nat := 0x4000020 + n * 0x1000
abbrev HST_CLI_TPH (n : Nat) : Nat := 0x4000024 + n * 0x1000
abbrev HST_CLI_DMA (n : Nat) : Nat := 0x4000028 + n * 0x1000
abbrev HST_CLI_DMA_STATUS (n : Nat) : Nat := 0x400002C + n * 0x1000
abbrev HST_CLI_BASE_LO (n : Nat) (k : Nat) : Nat := 0x4000040 + n * 0x1000 + k * 0x20
abbrev HST_CLI_BASE_HI (n : Nat) (k : Nat) : Nat := 0x4000044 + n * 0x1000 + k * 0x20
abbrev HST_CLI_SIZE (n : Nat) (k : Nat) : Nat := 0x4000048 + n * 0x1000 + k * 0x20
abbrev HST_CLI_PROD (n : Nat) (k : Nat) : Nat := 0x400004C + n * 0x1000 + k * 0x20
abbrev HST_CLI_CONS (n : Nat) (k : Nat) : Nat := 0x4000050 + n * 0x1000 + k * 0x20
abbrev HST_CLI_Q_REC (n : Nat) : Nat := 0x4000100 + n * 0x1000
abbrev HST_CLI_Q_CPL (n : Nat) : Nat := 0x4000104 + n * 0x1000
abbrev HST_CLI_Q_DESC (n : Nat) : Nat := 0x4000108 + n * 0x1000
abbrev HST_CLI_Q_ERG (n : Nat) : Nat := 0x400010C + n * 0x1000
abbrev HST_CLI_USE_REC (n : Nat) : Nat := 0x4000110 + n * 0x1000
abbrev HST_CLI_USE_CPL (n : Nat) : Nat := 0x4000114 + n * 0x1000
abbrev HST_CLI_USE_DESC (n : Nat) : Nat := 0x4000118 + n * 0x1000
abbrev HST_CLI_USE_ERG (n : Nat) : Nat := 0x400011C + n * 0x1000
abbrev HST_CLI_CNT_REC_DROP (n : Nat) : Nat := 0x4000140 + n * 0x1000
abbrev HST_CLI_CNT_CPL_DROP (n : Nat) : Nat := 0x4000144 + n * 0x1000
abbrev HST_CLI_CNT_ERR_DROP (n : Nat) : Nat := 0x4000148 + n * 0x1000
abbrev HST_CLI_CNT_VER_FETCHED (n : Nat) : Nat := 0x400014C + n * 0x1000
abbrev HST_CLI_CNT_DESC_REJ (n : Nat) : Nat := 0x4000150 + n * 0x1000
abbrev HST_CLI_CNT_CUT_NOFIT (n : Nat) : Nat := 0x4000154 + n * 0x1000

def regsHst : List RegRow :=
  [ ⟨0x0, 0x0, 1, .plain, 0x3A4C1F2B,
      [fRow 31 0 .ro]⟩,
    ⟨0x4, 0x0, 1, .plain, 0xB1,
      [fRow 31 0 .ro]⟩,
    ⟨0x8, 0x0, 1, .plain, 0x300300,
      [fRow 23 16 .ro, fRow 9 8 .ro, fRow 0 0 .ro]⟩,
    ⟨0x10, 0x0, 1, .plain, 0x0,
      [fRow 31 0 .ro]⟩,
    ⟨0x14, 0x0, 1, .plain, 0x0,
      [fRow 31 0 .ro]⟩,
    ⟨0x18, 0x0, 1, .plain, 0x0,
      [fRow 31 0 .rws]⟩,
    ⟨0x1C, 0x0, 1, .plain, 0x0,
      [fRow 31 0 .rw]⟩,
    ⟨0x20, 0x0, 1, .plain, 0x0,
      [fRow 2 2 .w1s, fRow 1 1 .rws, fRow 0 0 .rws]⟩,
    ⟨0x24, 0x0, 1, .plain, 0x0,
      [fRow 6 6 .w1c, fRow 5 5 .w1c, fRow 4 4 .w1c, fRow 3 3 .ro, fRow 1 0 .ro]⟩,
    ⟨0x28, 0x0, 1, .plain, 0x0,
      [fRow 31 0 .ro]⟩,
    ⟨0x2C, 0x0, 1, .plain, 0x0,
      [fRow 31 0 .ro]⟩,
    ⟨0x30, 0x0, 1, .plain, 0x0,
      [fRow 3 3 .w1c, fRow 2 2 .w1c, fRow 1 1 .w1c, fRow 0 0 .w1c]⟩,
    ⟨0x34, 0x0, 1, .plain, 0x0,
      [fRow 31 0 .ro]⟩,
    ⟨0x38, 0x0, 1, .plain, 0x0,
      [fRow 31 31 .ro, fRow 3 0 .ro]⟩,
    ⟨0x40, 0x0, 1, .plain, 0x1,
      [fRow 3 3 .w1cs, fRow 2 2 .w1cs, fRow 1 1 .w1cs, fRow 0 0 .w1cs]⟩ ]
def unitHst : UnitRow :=
  ⟨0x0, 0x44, 1, .time, none, false, regsHst⟩

def regsMbx : List RegRow :=
  [ ⟨0x0, 0x0, 1, .plain, 0x0,
      [fRow 31 31 .w1s, fRow 7 0 .rw]⟩,
    ⟨0x4, 0x0, 1, .plain, 0x0,
      [fRow 31 31 .ro, fRow 30 30 .w1c, fRow 29 29 .w1c, fRow 7 0 .ro]⟩,
    ⟨0x10, 0x4, 16, .plain, 0x0,
      [fRow 31 0 .rw]⟩,
    ⟨0x80, 0x4, 8, .plain, 0x0,
      [fRow 31 0 .ro]⟩ ]
def unitMbx : UnitRow :=
  ⟨0x100000, 0xA0, 1, .host, none, false, regsMbx⟩

def regsDlp : List RegRow :=
  [ ⟨0x0, 0x0, 1, .plain, 0x3A560000,
      [fRow 31 31 .rw, fRow 30 30 .wo, fRow 29 28 .rw, fRow 27 27 .rw, ⟨26, 25, .rw, none, false, [3]⟩, fRow 24 24 .rw, fRow 23 23 .rw, fRow 22 22 .rw, fRow 21 19 .rw, fRow 18 18 .rw, fRow 17 17 .rw]⟩,
    ⟨0x4, 0x0, 1, .plain, 0x0,
      [fRow 31 28 .ro, fRow 27 24 .ro, fRow 23 21 .ro, fRow 20 20 .ro, fRow 19 19 .ro, fRow 18 18 .ro, fRow 17 17 .ro, fRow 7 7 .w1c, fRow 6 6 .w1c, fRow 5 5 .w1c, fRow 4 4 .w1c, fRow 3 3 .w1c, fRow 2 2 .w1c]⟩,
    ⟨0x8, 0x0, 1, .plain, 0x100000FF,
      [fRow 31 24 .rw, fRow 7 0 .rw]⟩,
    ⟨0xC, 0x0, 1, .plain, 0x0,
      [fRow 3 0 .ro]⟩,
    ⟨0x10, 0, 1, .attempts, 0, []⟩,
    cRow 0x14,
    cRow 0x18,
    ⟨0x100, 0x100, 2, .plain, 0x0,
      [fRow 4 4 .ro, fRow 3 3 .ro, fRow 2 2 .ro, fRow 1 1 .ro, fRow 0 0 .ro]⟩,
    ⟨0x104, 0x100, 2, .plain, 0xC,
      [⟨4, 0, .rw, some (0, 24), false, []⟩]⟩,
    ⟨0x108, 0x100, 2, .plain, 0x0,
      [fRow 31 24 .rw, fRow 21 16 .rw, fRow 13 8 .rw, fRow 5 0 .rw]⟩,
    ⟨0x10C, 0x100, 2, .plain, 0x0,
      [fRow 29 25 .rw, fRow 24 20 .rw, fRow 19 15 .rw, fRow 14 10 .rw, fRow 9 5 .rw, fRow 4 0 .rw]⟩,
    ⟨0x110, 0x100, 2, .plain, 0x0,
      [fRow 9 5 .rw, fRow 4 0 .rw]⟩,
    ⟨0x114, 0x100, 2, .plain, 0x0,
      [fRow 15 15 .rw, fRow 14 12 .rw, fRow 11 0 .rw]⟩,
    ⟨0x118, 0x100, 2, .plain, 0x0,
      [fRow 23 16 .ro, fRow 15 8 .ro, fRow 7 0 .ro]⟩,
    ⟨0x120, 0x100, 2, .plain, 0x15008000,
      [fRow 31 31 .w1s, fRow 30 30 .w1s, ⟨29, 28, .rw, none, false, [3]⟩, ⟨27, 22, .rw, some (10, 40), false, []⟩, fRow 15 9 .rw, fRow 8 0 .rw]⟩,
    ⟨0x124, 0x100, 2, .plain, 0x0,
      [fRow 2 2 .w1c, fRow 1 1 .w1c, fRow 0 0 .ro]⟩,
    ⟨0x128, 0x100, 2, .plain, 0x0,
      [fRow 31 0 .ro]⟩,
    ⟨0x12C, 0x100, 2, .plain, 0x0,
      [fRow 15 0 .ro]⟩,
    cRows 0x130 0x100 2,
    ⟨0x140, 0x100, 2, .plain, 0x0,
      [fRow 31 31 .rw, ⟨30, 28, .rw, none, false, [6, 7]⟩, fRow 27 27 .rw, fRow 26 26 .rw, fRow 25 25 .ro]⟩,
    cRows 0x144 0x100 2,
    ⟨0x148, 0x100, 2, .plain, 0x0,
      [fRow 31 0 .ro]⟩,
    ⟨0x14C, 0x100, 2, .plain, 0x0,
      [fRow 15 0 .ro]⟩ ]
def unitDlp : UnitRow :=
  ⟨0x200000, 0x1000, 24, .phy, some (0x200004, 0x1000, 7), false, regsDlp⟩

def regsDlk0 : List RegRow :=
  [ ⟨0x0, 0x0, 1, .plain, 0x0,
      [fRow 7 7 .w1c, fRow 6 6 .w1c, fRow 5 5 .w1c, fRow 4 4 .w1c, fRow 3 3 .ro, fRow 1 1 .ro, fRow 0 0 .ro]⟩,
    ⟨0x4, 0x0, 1, .plain, 0x0,
      [fRow 15 0 .ro]⟩,
    ⟨0x8, 0x0, 1, .plain, 0x640010,
      [⟨25, 16, .rw, some (1, 1000), false, []⟩, fRow 7 0 .rw]⟩,
    ⟨0xC, 0x0, 1, .plain, 0x0,
      [fRow 5 0 .rw]⟩,
    ⟨0x10, 0x0, 1, .plain, 0x2710,
      [fRow 23 0 .rw]⟩,
    ⟨0x14, 0x0, 1, .plain, 0x0,
      [fRow 31 0 .ro]⟩,
    ⟨0x18, 0x0, 1, .plain, 0x0,
      [fRow 31 0 .rw]⟩,
    ⟨0x1C, 0x0, 1, .plain, 0x0,
      [fRow 31 0 .rw]⟩,
    ⟨0x20, 0x0, 1, .plain, 0x10000000,
      [fRow 31 31 .w1s, fRow 30 30 .rw, fRow 29 27 .rw]⟩,
    ⟨0x24, 0x0, 1, .plain, 0x0,
      [fRow 31 2 .rw]⟩,
    ⟨0x28, 0x0, 1, .plain, 0x0,
      [fRow 31 0 .rw]⟩,
    ⟨0x2C, 0x0, 1, .plain, 0x0,
      [fRow 31 0 .ro]⟩,
    ⟨0x30, 0x0, 1, .plain, 0x0,
      [fRow 31 31 .ro, fRow 30 30 .w1c, fRow 27 24 .ro, fRow 18 16 .ro, fRow 7 0 .ro]⟩,
    ⟨0x34, 0x0, 1, .plain, 0xC8,
      [⟨13, 0, .rw, some (10, 10000), false, []⟩]⟩,
    cRow 0x80,
    cRow 0x84,
    cRow 0x88,
    cRow 0x8C,
    cRow 0x90,
    cRow 0x94,
    cRow 0x98,
    cRow 0x9C,
    cRow 0xA0,
    cRow 0xA4 ]
def regsDlk1 : List RegRow :=
  [ cRow 0xA8,
    cRow 0xAC,
    cRow 0xB0,
    cRow 0xB4,
    cRow 0xB8,
    cRow 0xBC,
    cRow 0xC0,
    cRow 0xC4,
    cRow 0xC8,
    cRow 0xCC,
    cRow 0xD0,
    ⟨0x100, 0x40, 2, .plain, 0x0,
      [fRow 31 0 .ro]⟩,
    ⟨0x104, 0x40, 2, .plain, 0x0,
      [fRow 15 0 .ro]⟩,
    cRows 0x108 0x40 2,
    cRows 0x10C 0x40 2,
    cRows 0x110 0x40 2,
    cRows 0x114 0x40 2 ]
def unitDlk : UnitRow :=
  ⟨0x300000, 0x1000, 24, .lnk, some (0x300000, 0x1000, 7), false, regsDlk0 ++ regsDlk1⟩

def regsPix0 : List RegRow :=
  [ ⟨0x0, 0x0, 1, .plain, 0x0,
      [fRow 31 31 .rw, ⟨30, 29, .rw, none, false, [3]⟩, ⟨28, 24, .rw, some (0, 23), false, []⟩, ⟨23, 19, .rw, some (0, 23), false, []⟩, ⟨18, 14, .rw, some (0, 23), false, []⟩, fRow 13 10 .rw, fRow 9 4 .rw]⟩,
    ⟨0x4, 0x0, 1, .plain, 0x0,
      [fRow 31 16 .rw, ⟨15, 0, .rw, some (1, 65535), false, []⟩]⟩,
    ⟨0x8, 0x0, 1, .plain, 0x39314000,
      [⟨31, 30, .rw, none, false, [2, 3]⟩, fRow 29 22 .rw, fRow 21 21 .rw, fRow 20 20 .rw, ⟨19, 13, .rw, some (1, 100), false, []⟩]⟩,
    ⟨0xC, 0x0, 1, .plain, 0xFFF,
      [⟨15, 0, .rw, some (255, 65535), false, []⟩]⟩,
    ⟨0x10, 0x0, 1, .plain, 0x0,
      [fRow 31 30 .rw, ⟨27, 21, .rw, some (0, 64), false, []⟩, ⟨20, 14, .rw, some (0, 64), false, []⟩, ⟨13, 7, .rw, some (0, 64), false, []⟩, ⟨6, 0, .rw, some (0, 64), false, []⟩]⟩,
    ⟨0x14, 0x0, 1, .plain, 0x0,
      [fRow 15 0 .rw]⟩,
    ⟨0x20, 0x0, 1, .plain, 0x0,
      [fRow 31 31 .w1s, fRow 30 30 .wo]⟩,
    ⟨0x24, 0x0, 1, .plain, 0x0,
      [fRow 31 31 .w1c, fRow 30 30 .w1c]⟩,
    ⟨0x28, 0x0, 1, .plain, 0x0,
      [fRow 31 0 .ro]⟩,
    ⟨0x2C, 0x0, 1, .plain, 0x0,
      [fRow 7 7 .w1c, fRow 6 6 .w1c, fRow 5 5 .w1c, fRow 4 4 .w1c, fRow 3 3 .w1c, fRow 2 2 .ro, fRow 1 1 .ro]⟩,
    ⟨0x30, 0x0, 1, .plain, 0x0,
      [fRow 31 0 .ro]⟩,
    ⟨0x34, 0x0, 1, .plain, 0x0,
      [fRow 15 0 .ro]⟩,
    ⟨0x40, 0x0, 1, .plain, 0x0,
      [fRow 31 31 .w1s, ⟨30, 28, .rw, none, false, [3, 4, 5, 6, 7]⟩, fRow 27 26 .rw]⟩,
    ⟨0x44, 0x0, 1, .plain, 0x0,
      [fRow 31 6 .rw]⟩,
    ⟨0x48, 0x0, 1, .plain, 0x0,
      [fRow 3 0 .rw]⟩,
    ⟨0x4C, 0x0, 1, .plain, 0x0,
      [fRow 31 0 .rw]⟩,
    cRow 0x80,
    cRow 0x84,
    cRow 0x88,
    cRow 0x8C,
    cRow 0x90,
    cRow 0x94,
    cRow 0x98,
    cRow 0x9C ]
def regsPix1 : List RegRow :=
  [ cRow 0xA0,
    ⟨0x100, 0x0, 1, .plain, 0x0,
      [fRow 31 31 .rw, fRow 30 30 .rw, fRow 29 28 .rw, fRow 27 27 .rw, fRow 26 26 .rw]⟩,
    ⟨0x104, 0x0, 1, .plain, 0x924,
      [fRow 11 0 .rw]⟩,
    ⟨0x108, 0x0, 1, .plain, 0x0,
      [fRow 31 31 .rw, fRow 30 30 .rw, fRow 29 28 .rw]⟩,
    ⟨0x10C, 0x0, 1, .plain, 0x0,
      [fRow 2 2 .rw, fRow 1 1 .rw, fRow 0 0 .rw]⟩,
    ⟨0x110, 0x0, 1, .plain, 0x0,
      [⟨31, 30, .rw, none, false, [3]⟩, fRow 29 28 .rw, fRow 27 24 .rw]⟩,
    ⟨0x114, 0x0, 1, .plain, 0x0,
      [fRow 31 0 .rw]⟩,
    ⟨0x118, 0x0, 1, .plain, 0x0,
      [fRow 31 0 .rw]⟩,
    ⟨0x11C, 0x0, 1, .plain, 0x0,
      [fRow 3 0 .rw]⟩,
    ⟨0x200, 0x40, 4, .plain, 0x0,
      [fRow 31 0 .rw]⟩,
    ⟨0x204, 0x40, 4, .plain, 0x0,
      [fRow 31 0 .rw]⟩,
    ⟨0x208, 0x40, 4, .plain, 0x0,
      [fRow 31 0 .rw]⟩,
    ⟨0x20C, 0x40, 4, .plain, 0x0,
      [fRow 31 0 .rw]⟩,
    ⟨0x210, 0x40, 4, .plain, 0x1000,
      [fRow 31 0 .rw]⟩,
    ⟨0x214, 0x40, 4, .plain, 0x0,
      [fRow 31 0 .rw]⟩,
    ⟨0x218, 0x40, 4, .plain, 0x10000000,
      [fRow 31 0 .rw]⟩,
    ⟨0x21C, 0x40, 4, .plain, 0x0,
      [fRow 31 0 .rw]⟩,
    ⟨0x220, 0x40, 4, .plain, 0x0,
      [fRow 31 0 .rw]⟩,
    ⟨0x224, 0x40, 4, .plain, 0x1000,
      [fRow 31 0 .rw]⟩,
    ⟨0x228, 0x40, 4, .plain, 0x0,
      [fRow 31 0 .rw]⟩,
    ⟨0x22C, 0x40, 4, .plain, 0x10000000,
      [fRow 31 0 .rw]⟩,
    ⟨0x230, 0x40, 4, .plain, 0x0,
      [fRow 31 0 .rw]⟩,
    ⟨0x234, 0x40, 4, .plain, 0x0,
      [fRow 31 0 .rw]⟩,
    ⟨0x238, 0x40, 4, .plain, 0x0,
      [fRow 3 0 .rw]⟩ ]
def regsPix2 : List RegRow :=
  [ ⟨0x1100, 0x0, 1, .plain, 0x0,
      [fRow 31 31 .ro, fRow 30 30 .ro, fRow 29 28 .ro, fRow 27 27 .ro, fRow 26 26 .ro]⟩,
    ⟨0x1104, 0x0, 1, .plain, 0x924,
      [fRow 11 0 .ro]⟩,
    ⟨0x1108, 0x0, 1, .plain, 0x0,
      [fRow 31 31 .ro, fRow 30 30 .ro, fRow 29 28 .ro]⟩,
    ⟨0x110C, 0x0, 1, .plain, 0x0,
      [fRow 2 2 .ro, fRow 1 1 .ro, fRow 0 0 .ro]⟩,
    ⟨0x1110, 0x0, 1, .plain, 0x0,
      [fRow 31 30 .ro, fRow 29 28 .ro, fRow 27 24 .ro]⟩,
    ⟨0x1114, 0x0, 1, .plain, 0x0,
      [fRow 31 0 .ro]⟩,
    ⟨0x1118, 0x0, 1, .plain, 0x0,
      [fRow 31 0 .ro]⟩,
    ⟨0x111C, 0x0, 1, .plain, 0x0,
      [fRow 3 0 .ro]⟩,
    ⟨0x1200, 0x40, 4, .plain, 0x0,
      [fRow 31 0 .ro]⟩,
    ⟨0x1204, 0x40, 4, .plain, 0x0,
      [fRow 31 0 .ro]⟩,
    ⟨0x1208, 0x40, 4, .plain, 0x0,
      [fRow 31 0 .ro]⟩,
    ⟨0x120C, 0x40, 4, .plain, 0x0,
      [fRow 31 0 .ro]⟩,
    ⟨0x1210, 0x40, 4, .plain, 0x1000,
      [fRow 31 0 .ro]⟩,
    ⟨0x1214, 0x40, 4, .plain, 0x0,
      [fRow 31 0 .ro]⟩,
    ⟨0x1218, 0x40, 4, .plain, 0x10000000,
      [fRow 31 0 .ro]⟩,
    ⟨0x121C, 0x40, 4, .plain, 0x0,
      [fRow 31 0 .ro]⟩,
    ⟨0x1220, 0x40, 4, .plain, 0x0,
      [fRow 31 0 .ro]⟩,
    ⟨0x1224, 0x40, 4, .plain, 0x1000,
      [fRow 31 0 .ro]⟩,
    ⟨0x1228, 0x40, 4, .plain, 0x0,
      [fRow 31 0 .ro]⟩,
    ⟨0x122C, 0x40, 4, .plain, 0x10000000,
      [fRow 31 0 .ro]⟩,
    ⟨0x1230, 0x40, 4, .plain, 0x0,
      [fRow 31 0 .ro]⟩,
    ⟨0x1234, 0x40, 4, .plain, 0x0,
      [fRow 31 0 .ro]⟩,
    ⟨0x1238, 0x40, 4, .plain, 0x0,
      [fRow 3 0 .ro]⟩ ]
def unitPix : UnitRow :=
  ⟨0x400000, 0x4000, 96, .pix, some (0x40002C, 0x4000, 7), false, regsPix0 ++ regsPix1 ++ regsPix2⟩

def regsObj0 : List RegRow :=
  [ ⟨0x0, 0x0, 1, .plain, 0x1001000,
      [fRow 31 31 .rw, ⟨30, 28, .rw, none, false, [5, 6, 7]⟩, ⟨27, 24, .rw, some (1, 15), false, []⟩, ⟨15, 0, .rw, some (1, 65535), false, []⟩]⟩,
    ⟨0x4, 0x0, 1, .plain, 0x6,
      [fRow 31 31 .rw, fRow 5 4 .rw, fRow 3 2 .rw, fRow 1 0 .rw]⟩,
    ⟨0x8, 0x0, 1, .plain, 0xFFFE,
      [fRow 15 1 .rw]⟩,
    ⟨0xC, 0x0, 1, .plain, 0x0,
      [fRow 29 0 .rw]⟩,
    ⟨0x10, 0x0, 1, .plain, 0x410000C8,
      [fRow 31 31 .rw, fRow 30 30 .rw, fRow 29 29 .rw, ⟨28, 27, .rw, none, false, [3]⟩, fRow 26 23 .rw, ⟨9, 0, .rw, some (10, 1000), false, []⟩]⟩,
    ⟨0x14, 0x0, 1, .plain, 0x0,
      [fRow 31 31 .rw, fRow 30 24 .rw]⟩,
    ⟨0x18, 0x0, 1, .plain, 0x0,
      [fRow 31 0 .rw]⟩,
    ⟨0x1C, 0x0, 1, .plain, 0x100008,
      [fRow 31 16 .rw, fRow 15 0 .rw]⟩,
    ⟨0x20, 0x0, 1, .plain, 0x40000000,
      [fRow 31 16 .rw]⟩,
    ⟨0x24, 0x0, 1, .plain, 0x0,
      [⟨31, 0, .rw, some (-65535, 65535), true, []⟩]⟩,
    ⟨0x28, 0x0, 1, .plain, 0x7D0,
      [⟨15, 0, .rw, some (1, 65535), false, []⟩]⟩,
    ⟨0x40, 0x0, 1, .plain, 0x200,
      [fRow 9 9 .ro, fRow 8 8 .ro, fRow 7 7 .w1c, fRow 6 6 .ro, fRow 5 5 .w1c, fRow 4 4 .ro, fRow 3 3 .w1c, fRow 2 2 .w1c, fRow 1 1 .w1c]⟩,
    ⟨0x44, 0x0, 1, .plain, 0x0,
      [fRow 28 16 .ro, fRow 12 0 .ro]⟩,
    ⟨0x48, 0x0, 1, .plain, 0x0,
      [fRow 31 31 .w1s]⟩,
    ⟨0x4C, 0x0, 1, .plain, 0x0,
      [fRow 31 0 .rw]⟩,
    ⟨0x50, 0x0, 1, .plain, 0x0,
      [fRow 3 0 .rw]⟩,
    cRow 0x80,
    cRow 0x84,
    cRow 0x88,
    cRow 0x8C,
    cRow 0x90,
    cRow 0x94,
    cRow 0x98,
    cRow 0x9C ]
def regsObj1 : List RegRow :=
  [ cRow 0xA0,
    cRow 0xA4 ]
def unitObj : UnitRow :=
  ⟨0x600000, 0x1000, 96, .obj, some (0x600040, 0x1000, 7), false, regsObj0 ++ regsObj1⟩

def regsEjt : List RegRow :=
  [ ⟨0x0, 0x0, 1, .plain, 0x0,
      [fRow 3 3 .ro, fRow 2 2 .w1c, fRow 1 1 .w1c, fRow 0 0 .w1c]⟩,
    ⟨0x4, 0x0, 1, .plain, 0xA,
      [⟨7, 0, .rw, some (1, 255), false, []⟩]⟩,
    ⟨0x8, 0x0, 1, .plain, 0x0,
      [fRow 31 31 .w1s, fRow 30 30 .rw, fRow 29 28 .rw]⟩,
    ⟨0xC, 0x0, 1, .plain, 0x0,
      [fRow 31 6 .rw]⟩,
    ⟨0x10, 0x0, 1, .plain, 0x0,
      [fRow 3 0 .rw]⟩,
    ⟨0x14, 0x0, 1, .plain, 0x0,
      [fRow 0 0 .wo]⟩,
    ⟨0x18, 0x0, 1, .plain, 0x0,
      [fRow 16 0 .ro]⟩,
    ⟨0x1C, 0x0, 1, .plain, 0x0,
      [fRow 16 0 .ro]⟩,
    cRow 0x80,
    cRow 0x84,
    cRow 0x88,
    cRow 0x8C,
    cRow 0x90,
    cRow 0x94,
    cRow 0x98,
    cRow 0x9C,
    cRow 0xA0,
    cRow 0xA4,
    cRow 0xA8,
    cRow 0xAC,
    cRow 0xB0,
    cRow 0xB4,
    cRow 0xB8,
    cRow 0xBC ]
def unitEjt : UnitRow :=
  ⟨0x800000, 0xC0, 1, .ejt, some (0x800000, 0x0, 1), false, regsEjt⟩

def regsEjb : List RegRow :=
  [ ⟨0x0, 0x0, 1, .plain, 0x0,
      [fRow 31 31 .rw, fRow 30 30 .rw]⟩,
    ⟨0x4, 0x0, 1, .plain, 0x80FA0004,
      [fRow 31 24 .rw, ⟨23, 12, .rw, some (1, 4095), false, []⟩, fRow 11 0 .rw]⟩,
    ⟨0x8, 0x0, 1, .plain, 0x0,
      [fRow 17 17 .ro, fRow 16 16 .w1c, fRow 15 0 .ro]⟩,
    cRow 0xC ]
def unitEjb : UnitRow :=
  ⟨0x800100, 0x40, 8, .ejt, some (0x800000, 0x0, 1), false, regsEjb⟩

def regsEjs : List RegRow :=
  [ ⟨0x0, 0x0, 1, .plain, 0x0,
      [fRow 31 31 .rw, fRow 30 29 .rw, fRow 28 27 .rw, ⟨26, 25, .rw, none, false, [2, 3]⟩, fRow 24 24 .rw, fRow 9 0 .rw]⟩,
    ⟨0x4, 0x0, 1, .plain, 0x0,
      [fRow 10 0 .rw]⟩,
    ⟨0x8, 0x0, 1, .plain, 0x80000,
      [fRow 31 0 .rw]⟩,
    ⟨0xC, 0x0, 1, .plain, 0x7FF0000,
      [fRow 26 16 .rw, fRow 10 0 .rw]⟩,
    ⟨0x10, 0x0, 1, .plain, 0x0,
      [fRow 26 16 .rw, fRow 3 0 .rw]⟩,
    ⟨0x14, 0x0, 1, .plain, 0x1F401F4,
      [fRow 31 16 .rw, fRow 15 0 .rw]⟩,
    ⟨0x18, 0x0, 1, .plain, 0x0,
      [fRow 31 0 .rw]⟩,
    ⟨0x1C, 0x0, 1, .plain, 0x7D0,
      [⟨15, 0, .rw, some (200, 65535), false, []⟩]⟩ ]
def unitEjs : UnitRow :=
  ⟨0x801000, 0x40, 96, .ejt, some (0x800000, 0x0, 1), false, regsEjs⟩

def regsPwm : List RegRow :=
  [ ⟨0x0, 0x0, 1, .plain, 0x20800000,
      [fRow 31 31 .rw, fRow 30 30 .rw, fRow 29 29 .rw, fRow 28 28 .rw, fRow 27 27 .rw, fRow 26 23 .rw, fRow 22 15 .rw, fRow 14 14 .wo]⟩,
    ⟨0x4, 0x0, 1, .plain, 0xFA0,
      [⟨15, 0, .rw, some (16, 65535), false, []⟩]⟩,
    ⟨0x8, 0x0, 1, .plain, 0x0,
      [fRow 15 0 .rw]⟩,
    ⟨0xC, 0x0, 1, .plain, 0x808,
      [⟨15, 8, .rw, some (1, 255), false, []⟩, ⟨7, 0, .rw, some (1, 255), false, []⟩]⟩,
    ⟨0x10, 0x0, 1, .plain, 0x28,
      [fRow 7 0 .rw]⟩,
    ⟨0x14, 0x0, 1, .plain, 0x0,
      [fRow 15 0 .rw]⟩,
    ⟨0x18, 0x0, 1, .plain, 0x0,
      [fRow 7 7 .w1c, fRow 6 6 .w1c, fRow 5 5 .w1c, fRow 4 4 .w1c, fRow 3 3 .ro, fRow 2 2 .ro, fRow 1 1 .ro, fRow 0 0 .ro]⟩,
    cRow 0x20,
    cRow 0x24,
    cRow 0x28 ]
def unitPwm : UnitRow :=
  ⟨0x808000, 0x40, 8, .pwm, some (0x808018, 0x40, 5), false, regsPwm⟩

def regsPwg : List RegRow :=
  [ ⟨0x0, 0x0, 1, .plain, 0x0,
      [fRow 2 2 .w1c, fRow 1 1 .ro, fRow 0 0 .ro]⟩,
    ⟨0x4, 0x0, 1, .plain, 0x0,
      [fRow 0 0 .wo]⟩ ]
def unitPwg : UnitRow :=
  ⟨0x808200, 0x10, 2, .pwm, none, false, regsPwg⟩

def regsEnc0 : List RegRow :=
  [ ⟨0x0, 0x0, 1, .plain, 0x8001C7,
      [⟨31, 30, .rw, none, false, [3]⟩, fRow 29 29 .rw, fRow 28 28 .rw, fRow 27 26 .rw, fRow 25 25 .rw, fRow 24 24 .rw, fRow 23 21 .rw, fRow 15 14 .rw, ⟨13, 12, .rw, none, false, [3]⟩, fRow 11 6 .rw, fRow 5 0 .rw]⟩,
    ⟨0x4, 0x0, 1, .plain, 0x2710,
      [⟨19, 0, .rw, some (1000, 1000000), false, []⟩]⟩,
    ⟨0x8, 0x0, 1, .plain, 0x0,
      [fRow 31 0 .ro]⟩,
    ⟨0xC, 0x0, 1, .plain, 0x0,
      [fRow 15 0 .ro]⟩,
    ⟨0x10, 0x0, 1, .plain, 0x0,
      [fRow 31 0 .ro]⟩,
    ⟨0x14, 0x0, 1, .plain, 0x8,
      [fRow 13 13 .w1c, fRow 12 12 .w1c, fRow 11 11 .w1c, fRow 10 10 .w1c, fRow 9 9 .w1c, fRow 8 8 .w1c, fRow 7 7 .w1c, fRow 6 6 .w1c, fRow 5 5 .ro, fRow 4 4 .ro, fRow 3 3 .ro, fRow 2 2 .ro, fRow 1 0 .ro]⟩,
    ⟨0x18, 0x0, 1, .plain, 0x0,
      [fRow 31 0 .rw]⟩,
    ⟨0x1C, 0x0, 1, .plain, 0x0,
      [fRow 15 0 .rw]⟩,
    ⟨0x20, 0x0, 1, .plain, 0x0,
      [fRow 31 0 .rw]⟩,
    ⟨0x24, 0x0, 1, .plain, 0x0,
      [fRow 15 0 .rw]⟩,
    ⟨0x28, 0x0, 1, .plain, 0x0,
      [fRow 31 0 .ro]⟩,
    ⟨0x2C, 0x0, 1, .plain, 0x0,
      [fRow 15 0 .ro]⟩,
    ⟨0x30, 0x0, 1, .plain, 0x0,
      [fRow 31 0 .ro]⟩,
    ⟨0x34, 0x0, 1, .plain, 0x0,
      [fRow 15 0 .ro]⟩,
    ⟨0x38, 0x0, 1, .plain, 0x0,
      [fRow 31 0 .ro]⟩,
    ⟨0x3C, 0x0, 1, .plain, 0x0,
      [fRow 31 0 .ro]⟩,
    ⟨0x40, 0x0, 1, .plain, 0x0,
      [fRow 31 0 .ro]⟩,
    ⟨0x44, 0x0, 1, .plain, 0x0,
      [fRow 3 0 .ro]⟩,
    ⟨0x48, 0x0, 1, .plain, 0x40,
      [fRow 15 0 .rw]⟩,
    cRow 0x80,
    cRow 0x84,
    cRow 0x88,
    cRow 0x8C,
    cRow 0x90 ]
def regsEnc1 : List RegRow :=
  [ cRow 0x94,
    ⟨0x100, 0x0, 1, .plain, 0x10636000,
      [fRow 31 31 .rw, fRow 30 30 .rw, fRow 29 29 .rw, fRow 28 28 .rw, ⟨25, 16, .rw, some (9, 999), false, []⟩, ⟨15, 10, .rw, some (8, 40), false, []⟩, ⟨9, 5, .rw, some (0, 16), false, []⟩, fRow 4 4 .rw]⟩,
    ⟨0x104, 0x0, 1, .plain, 0x0,
      [fRow 31 16 .rw, fRow 15 0 .rw]⟩,
    ⟨0x108, 0x0, 1, .plain, 0x186A0,
      [fRow 23 0 .rw]⟩,
    ⟨0x10C, 0x0, 1, .plain, 0x0,
      [fRow 8 0 .rw]⟩,
    ⟨0x110, 0x0, 1, .plain, 0x14,
      [⟨7, 0, .rw, some (1, 255), false, []⟩]⟩,
    ⟨0x114, 0x0, 1, .plain, 0xFFFFFFFF,
      [fRow 31 0 .rw]⟩ ]
def unitEnc : UnitRow :=
  ⟨0x900000, 0x400, 8, .mot, some (0x900014, 0x400, 13), false, regsEnc0 ++ regsEnc1⟩

def regsSnap : List RegRow :=
  [ ⟨0x0, 0x0, 1, .plain, 0x0,
      [fRow 7 0 .wo]⟩ ]
def unitSnap : UnitRow :=
  ⟨0x902000, 0x4, 1, .mot, none, false, regsSnap⟩

def regsMs : List RegRow :=
  [ ⟨0x0, 0x0, 1, .plain, 0x0,
      [fRow 31 31 .rw, fRow 30 30 .rw, fRow 26 15 .rw, fRow 2 0 .rw]⟩,
    ⟨0x4, 0x0, 1, .plain, 0x0,
      [fRow 31 31 .rw, fRow 30 30 .rw, fRow 26 15 .rw, fRow 2 0 .rw]⟩,
    ⟨0x8, 0x0, 1, .plain, 0x14,
      [fRow 31 31 .rw, fRow 30 30 .rw, ⟨7, 0, .rw, some (1, 200), false, []⟩]⟩,
    ⟨0xC, 0x0, 1, .plain, 0x0,
      [fRow 0 0 .w1c]⟩ ]
def unitMs : UnitRow :=
  ⟨0x902100, 0x10, 8, .mot, some (0x90210C, 0x10, 0), false, regsMs⟩

def regsTport : List RegRow :=
  [ ⟨0x0, 0x0, 1, .plain, 0x0,
      [fRow 31 31 .rw, fRow 6 0 .rw]⟩ ]
def unitTport : UnitRow :=
  ⟨0x903000, 0x4, 24, .mot, none, false, regsTport⟩

def regsStq : List RegRow :=
  [ ⟨0x0, 0x0, 1, .plain, 0x0,
      [fRow 28 24 .rw, fRow 15 0 .rw]⟩,
    ⟨0x4, 0x0, 1, .plain, 0x0,
      [fRow 31 0 .ro]⟩,
    ⟨0x8, 0x0, 1, .plain, 0x0,
      [fRow 31 0 .ro]⟩,
    ⟨0xC, 0x0, 1, .plain, 0x0,
      [fRow 31 0 .ro]⟩,
    ⟨0x10, 0x0, 1, .plain, 0x0,
      [fRow 31 0 .ro]⟩,
    ⟨0x14, 0x0, 1, .plain, 0x0,
      [fRow 0 0 .ro]⟩ ]
def unitStq : UnitRow :=
  ⟨0x903100, 0x18, 1, .mot, none, false, regsStq⟩

def regsTpin : List RegRow :=
  [ ⟨0x0, 0x0, 1, .plain, 0x1D4,
      [fRow 31 31 .rw, fRow 30 30 .rw, fRow 29 29 .rw, strRow 28 22, fRow 21 14 .rw, ⟨13, 12, .rw, none, false, [3]⟩, fRow 11 6 .rw, fRow 5 0 .rw]⟩,
    ⟨0x4, 0x0, 1, .plain, 0x0,
      [fRow 0 0 .w1c]⟩ ]
def unitTpin : UnitRow :=
  ⟨0x903200, 0x10, 16, .mot, some (0x903204, 0x10, 0), false, regsTpin⟩

def regsTg : List RegRow :=
  [ ⟨0x0, 0x0, 1, .plain, 0x0,
      [fRow 31 31 .rw, ⟨30, 28, .rw, none, false, [6, 7]⟩, fRow 27 25 .rw, fRow 24 24 .rw, fRow 23 20 .rw, ⟨19, 18, .rw, none, false, [3]⟩, fRow 15 8 .rw]⟩,
    ⟨0x4, 0x0, 1, .plain, 0x0,
      [fRow 31 0 .rw]⟩,
    ⟨0x8, 0x0, 1, .plain, 0x0,
      [fRow 31 0 .rw]⟩,
    ⟨0xC, 0x0, 1, .plain, 0x0,
      [fRow 31 0 .rw]⟩,
    ⟨0x10, 0x0, 1, .plain, 0x0,
      [fRow 23 0 .rw]⟩,
    ⟨0x14, 0x0, 1, .plain, 0x0,
      [fRow 31 0 .rw]⟩,
    ⟨0x18, 0x0, 1, .plain, 0x0,
      [fRow 31 0 .rw]⟩,
    ⟨0x1C, 0x0, 1, .plain, 0x1,
      [⟨8, 0, .rw, some (1, 256), false, []⟩]⟩,
    cRow 0x20,
    cRow 0x24,
    ⟨0x28, 0x0, 1, .plain, 0x0,
      [fRow 2 2 .ro, fRow 1 1 .ro, fRow 0 0 .w1c]⟩ ]
def unitTg : UnitRow :=
  ⟨0x910000, 0x100, 96, .mot, some (0x910028, 0x100, 0), false, regsTg⟩

def regsTlist : List RegRow :=
  [ ⟨0x0, 0x0, 1, .plain, 0x0,
      [fRow 31 0 .rw]⟩ ]
def unitTlist : UnitRow :=
  ⟨0x920000, 0x4, 24576, .mot, none, false, regsTlist⟩

def regsSeq : List RegRow :=
  [ ⟨0x0, 0x0, 1, .plain, 0x1,
      [fRow 2 2 .wo, fRow 1 1 .wo, fRow 0 0 .rw]⟩,
    ⟨0x4, 0x0, 1, .plain, 0x0,
      [fRow 31 30 .ro, fRow 29 29 .ro, fRow 28 24 .ro, fRow 23 12 .ro, fRow 11 8 .ro, fRow 7 7 .w1c, fRow 6 6 .w1c, fRow 5 5 .w1c, fRow 4 4 .w1c, fRow 3 3 .w1c, fRow 2 2 .w1c, fRow 1 1 .w1c, fRow 0 0 .w1c]⟩,
    ⟨0x8, 0x0, 1, .plain, 0x0,
      [fRow 7 0 .ro]⟩,
    ⟨0x10, 0x0, 1, .plain, 0x0,
      [fRow 15 0 .ro]⟩,
    ⟨0x14, 0x0, 1, .plain, 0x0,
      [fRow 15 0 .ro]⟩,
    ⟨0x18, 0x0, 1, .plain, 0x0,
      [fRow 15 0 .ro]⟩,
    ⟨0x1C, 0x0, 1, .plain, 0x0,
      [fRow 15 0 .ro]⟩,
    ⟨0x40, 0x4, 16, .plain, 0x0,
      [fRow 31 0 .rw]⟩,
    cRow 0x80,
    cRow 0x84,
    cRow 0x88,
    cRow 0x8C,
    cRow 0x90,
    cRow 0x94,
    cRow 0x98 ]
def unitSeq : UnitRow :=
  ⟨0xA00000, 0x1000, 33, .seq, some (0xA00004, 0x1000, 7), true, regsSeq⟩

def regsImg : List RegRow :=
  [ ⟨0x0, 0x0, 1, .plain, 0x0,
      [fRow 31 31 .ro, fRow 30 30 .ro, fRow 29 29 .ro, fRow 28 28 .ro, fRow 27 27 .ro, fRow 26 26 .ro, fRow 5 0 .ro]⟩,
    ⟨0x4, 0x0, 1, .plain, 0x0,
      [fRow 31 0 .ro]⟩,
    ⟨0x8, 0x0, 1, .plain, 0x0,
      [fRow 31 0 .ro]⟩,
    ⟨0xC, 0x0, 1, .plain, 0x0,
      [fRow 31 0 .ro]⟩ ]
def unitImg : UnitRow :=
  ⟨0xA40000, 0x10, 1, .seq, none, false, regsImg⟩

def regsDma : List RegRow :=
  [ ⟨0x0, 0x0, 1, .plain, 0x0,
      [fRow 31 31 .rw, fRow 29 29 .wo, fRow 28 28 .wo]⟩,
    ⟨0x4, 0x0, 1, .plain, 0x0,
      [fRow 31 30 .ro, fRow 29 29 .ro, fRow 15 8 .ro, fRow 6 0 .ro]⟩,
    ⟨0x8, 0x0, 1, .plain, 0x1000000,
      [⟨24, 16, .rw, some (1, 256), false, []⟩, fRow 15 0 .rw]⟩,
    ⟨0xC, 0x0, 1, .plain, 0x0,
      [fRow 31 31 .ro, fRow 30 30 .ro, fRow 19 16 .ro, fRow 9 0 .ro]⟩,
    ⟨0x10, 0x0, 1, .plain, 0x0,
      [fRow 31 0 .ro]⟩,
    ⟨0x14, 0x0, 1, .plain, 0x0,
      [fRow 31 0 .ro]⟩,
    cRow 0x20,
    cRow 0x24,
    cRow 0x28 ]
def unitDma : UnitRow :=
  ⟨0xC00000, 0x100, 64, .dma, none, false, regsDma⟩

def regsErg : List RegRow :=
  [ ⟨0x0, 0x0, 1, .plain, 0x0,
      [fRow 14 0 .rw]⟩,
    ⟨0x4, 0x0, 1, .plain, 0x0,
      [fRow 31 28 .ro, fRow 27 27 .ro, fRow 23 20 .ro, fRow 19 13 .ro, fRow 9 0 .ro]⟩,
    ⟨0x8, 0x0, 1, .plain, 0x0,
      [fRow 30 16 .ro, fRow 14 0 .ro]⟩,
    ⟨0xC, 0x0, 1, .plain, 0x80000018,
      [fRow 31 31 .rw, fRow 30 30 .w1c, ⟨7, 0, .rw, some (1, 168), false, []⟩]⟩ ]
def unitErg : UnitRow :=
  ⟨0xD00000, 0x10, 1, .erg, some (0xD0000C, 0x0, 30), false, regsErg⟩

def regsStk : List RegRow :=
  [ ⟨0x0, 0x0, 1, .plain, 0x1,
      [fRow 1 1 .ro, fRow 0 0 .ro]⟩,
    cRow 0x4,
    cRow 0x8,
    ⟨0xC, 0x0, 1, .plain, 0x0,
      [fRow 31 0 .ro]⟩,
    ⟨0x10, 0x0, 1, .plain, 0x0,
      [fRow 3 0 .ro]⟩,
    cRow 0x14 ]
def unitStk : UnitRow :=
  ⟨0xD00100, 0x40, 2, .erg, none, false, regsStk⟩

def regsLb : List RegRow :=
  [ ⟨0x0, 0x0, 1, .plain, 0x0,
      [fRow 31 0 .ro]⟩,
    ⟨0x4, 0x0, 1, .plain, 0x0,
      [fRow 31 0 .ro]⟩,
    ⟨0x8, 0x0, 1, .plain, 0x0,
      [fRow 31 0 .ro]⟩,
    ⟨0xC, 0x0, 1, .plain, 0x0,
      [fRow 31 0 .ro]⟩,
    ⟨0x10, 0x0, 1, .plain, 0x0,
      [fRow 31 0 .ro]⟩,
    cRow 0x14 ]
def unitLb : UnitRow :=
  ⟨0xD10000, 0x40, 96, .erg, none, false, regsLb⟩

def regsQ : List RegRow :=
  [ ⟨0x0, 0x0, 1, .plain, 0x0,
      [fRow 23 0 .ro]⟩,
    ⟨0x4, 0x0, 1, .plain, 0x0,
      [fRow 31 31 .w1s, fRow 30 30 .rw]⟩,
    ⟨0x8, 0x0, 1, .plain, 0x0,
      [fRow 3 3 .w1c, fRow 2 2 .w1c, fRow 1 1 .ro, fRow 0 0 .ro]⟩,
    ⟨0xC, 0x0, 1, .plain, 0x0,
      [fRow 31 0 .ro]⟩,
    ⟨0x10, 0x0, 1, .plain, 0x0,
      [fRow 31 0 .ro]⟩,
    cRow 0x14,
    cRow 0x18 ]
def unitQ : UnitRow :=
  ⟨0xD40000, 0x20, 384, .erg, none, false, regsQ⟩

def regsCmp : List RegRow :=
  [ ⟨0x0, 0x0, 1, .plain, 0x0,
      [fRow 31 31 .w1s, fRow 30 30 .wo]⟩,
    ⟨0x4, 0x0, 1, .plain, 0x0,
      [fRow 31 30 .ro, fRow 29 29 .ro, fRow 28 28 .w1c, fRow 27 27 .w1c, fRow 20 16 .ro, fRow 7 0 .ro]⟩,
    ⟨0x8, 0x0, 1, .plain, 0x0,
      [fRow 31 0 .rw]⟩,
    ⟨0xC, 0x0, 1, .plain, 0x0,
      [fRow 3 0 .rw]⟩,
    cRow 0x10,
    cRow 0x14,
    cRow 0x18 ]
def unitCmp : UnitRow :=
  ⟨0xD80000, 0x100, 4, .cmp, none, false, regsCmp⟩

def regsProd : List RegRow :=
  [ ⟨0x0, 0x0, 1, .plain, 0x0,
      [fRow 31 31 .rw, fRow 7 0 .rw]⟩ ]
def unitProd : UnitRow :=
  ⟨0xE00000, 0x4, 640, .evt, none, false, regsProd⟩

def regsCh : List RegRow :=
  [ ⟨0x0, 0x0, 1, .plain, 0x0,
      [fRow 31 31 .ro, fRow 30 30 .w1s, fRow 29 29 .rw, fRow 28 28 .rw, fRow 19 16 .ro]⟩,
    ⟨0x4, 0x0, 1, .plain, 0x0,
      [fRow 31 16 .rw, fRow 15 0 .rw]⟩,
    ⟨0x8, 0x0, 1, .plain, 0x0,
      [fRow 4 4 .w1c, fRow 3 3 .w1c, fRow 2 2 .w1c, fRow 1 1 .ro, fRow 0 0 .w1c]⟩,
    ⟨0xC, 0x0, 1, .plain, 0x0,
      [fRow 31 0 .ro]⟩,
    ⟨0x10, 0x0, 1, .plain, 0x0,
      [fRow 31 0 .ro]⟩,
    ⟨0x14, 0x0, 1, .plain, 0x0,
      [fRow 31 0 .ro]⟩,
    ⟨0x18, 0x0, 1, .plain, 0x0,
      [fRow 9 0 .ro]⟩,
    cRow 0x20,
    cRow 0x24,
    cRow 0x28,
    cRow 0x2C ]
def unitCh : UnitRow :=
  ⟨0xE01000, 0x40, 256, .evt, some (0xE01008, 0x40, 4), false, regsCh⟩

def regsCell : List RegRow :=
  [ ⟨0x0, 0x0, 1, .plain, 0x0,
      [fRow 27 26 .rw, fRow 23 16 .rw, fRow 11 10 .rw, fRow 7 0 .rw]⟩,
    ⟨0x4, 0x0, 1, .plain, 0x0,
      [fRow 27 26 .rw, fRow 23 16 .rw, fRow 11 10 .rw, fRow 7 0 .rw]⟩,
    ⟨0x8, 0x0, 1, .plain, 0x0,
      [fRow 31 31 .rw, fRow 30 29 .rw, fRow 28 27 .rw, fRow 26 19 .rw, fRow 15 0 .rw]⟩,
    ⟨0xC, 0x0, 1, .plain, 0x0,
      [fRow 2 2 .w1c, fRow 1 1 .w1c, fRow 0 0 .ro]⟩,
    ⟨0x10, 0x0, 1, .plain, 0x0,
      [fRow 7 0 .rw]⟩ ]
def unitCell : UnitRow :=
  ⟨0xE06000, 0x20, 32, .evt, some (0xE0600C, 0x20, 1), false, regsCell⟩

def regsEpub : List RegRow :=
  [ ⟨0x0, 0x0, 1, .plain, 0x0,
      [fRow 31 0 .rw]⟩,
    ⟨0x4, 0x0, 1, .plain, 0x0,
      [fRow 7 0 .wo]⟩ ]
def unitEpub : UnitRow :=
  ⟨0xE07000, 0x8, 1, .evt, none, false, regsEpub⟩

def regsCvn0 : List RegRow :=
  [ ⟨0x0, 0x0, 1, .plain, 0x600A0000,
      [fRow 31 31 .rw, fRow 30 30 .rw, fRow 29 29 .rw, ⟨23, 16, .rw, some (1, 255), false, []⟩]⟩,
    ⟨0x4, 0x0, 1, .plain, 0x0,
      [fRow 31 31 .ro, fRow 30 30 .ro, fRow 29 29 .ro, fRow 28 28 .ro, fRow 27 27 .ro, fRow 26 26 .ro, fRow 25 24 .ro, fRow 23 22 .ro, fRow 5 5 .w1c, fRow 4 4 .w1c, fRow 3 3 .w1c, fRow 2 2 .w1c, fRow 1 1 .w1c]⟩,
    ⟨0x8, 0x0, 1, .plain, 0x0,
      [fRow 31 31 .ro, fRow 19 16 .ro, fRow 11 0 .ro]⟩,
    ⟨0xC, 0x0, 1, .plain, 0x0,
      [fRow 15 0 .ro]⟩,
    ⟨0x10, 0x0, 1, .plain, 0x7D,
      [⟨15, 0, .rw, some (16, 10000), false, []⟩]⟩,
    ⟨0x14, 0x0, 1, .plain, 0xA0000,
      [⟨25, 16, .rw, some (1, 1000), false, []⟩, fRow 7 0 .rw]⟩,
    ⟨0x18, 0x0, 1, .plain, 0x0,
      [fRow 31 0 .ro]⟩,
    ⟨0x1C, 0x0, 1, .plain, 0x0,
      [fRow 31 0 .ro]⟩,
    ⟨0x20, 0x0, 1, .plain, 0x0,
      [fRow 31 31 .w1s, fRow 30 30 .rw, fRow 27 16 .rw]⟩,
    ⟨0x24, 0x0, 1, .plain, 0x0,
      [fRow 26 2 .rw]⟩,
    ⟨0x28, 0x0, 1, .plain, 0x0,
      [fRow 31 0 .rw]⟩,
    ⟨0x2C, 0x0, 1, .plain, 0x0,
      [fRow 31 31 .ro, fRow 30 30 .w1c, fRow 7 0 .ro]⟩,
    ⟨0x30, 0x0, 1, .plain, 0x0,
      [fRow 31 31 .ro, fRow 28 16 .ro, fRow 15 0 .ro]⟩,
    cRow 0x80,
    cRow 0x84,
    cRow 0x88,
    cRow 0x8C,
    cRow 0x90,
    cRow 0x94,
    cRow 0x98,
    cRow 0x9C,
    cRow 0xA0,
    cRow 0xA4,
    cRow 0xA8 ]
def regsCvn1 : List RegRow :=
  [ cRow 0xAC,
    cRow 0xB0,
    cRow 0xB4,
    cRow 0xB8,
    cRow 0xBC ]
def unitCvn : UnitRow :=
  ⟨0xF00000, 0xC0, 1, .cvn, some (0xF00004, 0x0, 5), false, regsCvn0 ++ regsCvn1⟩

def regsCvy : List RegRow :=
  [ ⟨0x0, 0x0, 1, .plain, 0x32560000,
      [fRow 31 31 .rw, fRow 30 30 .wo, fRow 29 28 .rw, fRow 27 27 .rw, ⟨26, 25, .rw, none, false, [3]⟩, fRow 24 24 .rw, fRow 23 23 .rw, fRow 22 22 .rw, fRow 21 19 .rw, fRow 18 18 .rw, fRow 17 17 .rw]⟩,
    ⟨0x4, 0x0, 1, .plain, 0x0,
      [fRow 31 28 .ro, fRow 27 24 .ro, fRow 23 21 .ro, fRow 20 20 .ro, fRow 19 19 .ro, fRow 18 18 .ro, fRow 17 17 .ro, fRow 7 7 .w1c, fRow 6 6 .w1c, fRow 5 5 .w1c, fRow 4 4 .w1c, fRow 3 3 .w1c, fRow 2 2 .w1c]⟩,
    ⟨0x8, 0x0, 1, .plain, 0x100000FF,
      [fRow 31 24 .rw, fRow 7 0 .rw]⟩,
    ⟨0xC, 0x0, 1, .plain, 0x0,
      [fRow 3 0 .ro]⟩,
    ⟨0x10, 0, 1, .attempts, 0, []⟩,
    cRow 0x14,
    cRow 0x18,
    ⟨0x100, 0x0, 1, .plain, 0x0,
      [fRow 4 4 .ro, fRow 3 3 .ro, fRow 2 2 .ro, fRow 1 1 .ro, fRow 0 0 .ro]⟩,
    ⟨0x104, 0x0, 1, .plain, 0xC,
      [⟨4, 0, .rw, some (0, 24), false, []⟩]⟩,
    ⟨0x108, 0x0, 1, .plain, 0x0,
      [fRow 31 24 .rw, fRow 21 16 .rw, fRow 13 8 .rw, fRow 5 0 .rw]⟩,
    ⟨0x10C, 0x0, 1, .plain, 0x0,
      [fRow 29 25 .rw, fRow 24 20 .rw, fRow 19 15 .rw, fRow 14 10 .rw, fRow 9 5 .rw, fRow 4 0 .rw]⟩,
    ⟨0x110, 0x0, 1, .plain, 0x0,
      [fRow 9 5 .rw, fRow 4 0 .rw]⟩,
    ⟨0x114, 0x0, 1, .plain, 0x0,
      [fRow 15 15 .rw, fRow 14 12 .rw, fRow 11 0 .rw]⟩,
    ⟨0x118, 0x0, 1, .plain, 0x0,
      [fRow 23 16 .ro, fRow 15 8 .ro, fRow 7 0 .ro]⟩,
    ⟨0x120, 0x0, 1, .plain, 0x15008000,
      [fRow 31 31 .w1s, fRow 30 30 .w1s, ⟨29, 28, .rw, none, false, [3]⟩, ⟨27, 22, .rw, some (10, 40), false, []⟩, fRow 15 9 .rw, fRow 8 0 .rw]⟩,
    ⟨0x124, 0x0, 1, .plain, 0x0,
      [fRow 2 2 .w1c, fRow 1 1 .w1c, fRow 0 0 .ro]⟩,
    ⟨0x128, 0x0, 1, .plain, 0x0,
      [fRow 31 0 .ro]⟩,
    ⟨0x12C, 0x0, 1, .plain, 0x0,
      [fRow 15 0 .ro]⟩,
    cRow 0x130,
    ⟨0x140, 0x0, 1, .plain, 0x0,
      [fRow 31 31 .rw, ⟨30, 28, .rw, none, false, [6, 7]⟩, fRow 27 27 .rw, fRow 26 26 .rw, fRow 25 25 .ro]⟩,
    cRow 0x144,
    ⟨0x148, 0x0, 1, .plain, 0x0,
      [fRow 31 0 .ro]⟩,
    ⟨0x14C, 0x0, 1, .plain, 0x0,
      [fRow 15 0 .ro]⟩ ]
def unitCvy : UnitRow :=
  ⟨0xF10000, 0x1000, 4, .phy, some (0xF10004, 0x1000, 7), false, regsCvy⟩

def regsCvp : List RegRow :=
  [ ⟨0x0, 0x0, 1, .plain, 0x0,
      [fRow 31 30 .ro, fRow 29 29 .ro, fRow 28 28 .ro, fRow 27 16 .ro, fRow 15 15 .ro, fRow 14 11 .ro]⟩,
    ⟨0x4, 0x0, 1, .plain, 0x0,
      [fRow 31 0 .rw]⟩,
    ⟨0x8, 0x0, 1, .plain, 0x0,
      [fRow 31 0 .ro]⟩,
    ⟨0xC, 0x0, 1, .plain, 0x0,
      [fRow 27 16 .ro, fRow 11 0 .ro]⟩ ]
def unitCvp : UnitRow :=
  ⟨0xF01000, 0x100, 4, .cvn, none, false, regsCvp⟩

def regsHo : List RegRow :=
  [ ⟨0x0, 0x0, 1, .plain, 0x0,
      [fRow 31 31 .rw, fRow 27 16 .rw, strRow 6 0]⟩ ]
def unitHo : UnitRow :=
  ⟨0xF08000, 0x4, 96, .cvn, some (0xF00004, 0x0, 5), false, regsHo⟩

def regsPwr : List RegRow :=
  [ ⟨0x0, 0x0, 1, .plain, 0x0,
      [fRow 31 28 .ro, fRow 0 0 .w1c]⟩,
    ⟨0x4, 0x0, 1, .plain, 0x3E8,
      [fRow 15 0 .rw]⟩,
    ⟨0x8, 0x0, 1, .plain, 0xC8,
      [fRow 31 31 .rw, fRow 22 16 .rw, ⟨15, 0, .rw, some (10, 10000), false, []⟩]⟩,
    cRow 0x80,
    cRow 0x84,
    cRow 0x88 ]
def unitPwr : UnitRow :=
  ⟨0x1000000, 0x8C, 1, .pwr, some (0x1000000, 0x0, 0), false, regsPwr⟩

def regsPcl : List RegRow :=
  [ ⟨0x0, 0x0, 1, .plain, 0x3,
      [fRow 31 30 .rw, fRow 29 28 .ro, fRow 27 27 .ro, fRow 26 26 .w1c, fRow 25 25 .w1c, fRow 1 0 .ro]⟩ ]
def unitPcl : UnitRow :=
  ⟨0x1000100, 0x10, 8, .pwr, some (0x1000100, 0x10, 25), false, regsPcl⟩

def regsPul : List RegRow :=
  [ ⟨0x0, 0x0, 1, .plain, 0x8,
      [fRow 5 4 .ro, ⟨3, 2, .rw, none, false, [3]⟩, fRow 1 0 .rw]⟩ ]
def unitPul : UnitRow :=
  ⟨0x1000200, 0x4, 32, .pwr, some (0x1000000, 0x0, 0), false, regsPul⟩

def regsPms : List RegRow :=
  [ ⟨0x0, 0x0, 1, .plain, 0x0,
      [fRow 31 0 .rw]⟩ ]
def unitPms : UnitRow :=
  ⟨0x1000300, 0x4, 8, .pwr, some (0x1000000, 0x0, 0), false, regsPms⟩

def regsOas : List RegRow :=
  [ ⟨0x0, 0x0, 1, .plain, 0xA0040032,
      [fRow 31 31 .rw, fRow 30 30 .rw, fRow 29 29 .rw, fRow 28 28 .rw, fRow 27 27 .rw, ⟨23, 16, .rw, some (1, 255), false, []⟩, ⟨7, 0, .rw, some (1, 255), false, []⟩]⟩,
    ⟨0x4, 0x0, 1, .plain, 0xFF000006,
      [fRow 31 28 .ro, fRow 27 24 .ro, fRow 2 2 .ro, fRow 1 1 .ro, fRow 0 0 .w1c]⟩,
    ⟨0x8, 0x0, 1, .plain, 0x10,
      [fRow 6 0 .w1c]⟩,
    ⟨0xC, 0x0, 1, .plain, 0x0,
      [fRow 5 4 .ro, fRow 3 2 .ro, fRow 1 1 .ro, fRow 0 0 .ro]⟩,
    ⟨0x10, 0x0, 1, .plain, 0x0,
      [fRow 31 0 .ro]⟩,
    ⟨0x14, 0x0, 1, .plain, 0x0,
      [fRow 15 0 .ro]⟩,
    ⟨0x18, 0x0, 1, .plain, 0x0,
      [fRow 31 0 .rw]⟩,
    ⟨0x1C, 0x0, 1, .plain, 0x0,
      [fRow 15 0 .rw]⟩,
    ⟨0x40, 0x4, 16, .plain, 0x0,
      [fRow 31 0 .rw]⟩ ]
def unitOas : UnitRow :=
  ⟨0x1001000, 0x80, 1, .pwr, none, false, regsOas⟩

def regsMgt : List RegRow :=
  [ ⟨0x0, 0x0, 1, .plain, 0x40100000,
      [⟨31, 30, .rw, none, false, [3]⟩, ⟨29, 28, .rw, none, false, [3]⟩, fRow 22 16 .rw]⟩,
    ⟨0x4, 0x0, 1, .plain, 0x0,
      [fRow 31 31 .w1s, fRow 22 16 .rw, ⟨11, 8, .rw, some (0, 8), false, []⟩, ⟨3, 0, .rw, some (0, 8), false, []⟩]⟩,
    ⟨0x8, 0x0, 1, .plain, 0x0,
      [fRow 31 31 .ro, fRow 30 30 .w1c, fRow 29 29 .w1c, fRow 28 28 .w1c, fRow 2 0 .ro]⟩,
    ⟨0xC, 0x0, 1, .plain, 0x0,
      [fRow 31 0 .rw]⟩,
    ⟨0x10, 0x0, 1, .plain, 0x0,
      [fRow 31 0 .rw]⟩,
    ⟨0x14, 0, 1, .attempts, 0, []⟩,
    ⟨0x18, 0x0, 1, .plain, 0x0,
      [fRow 0 0 .w1c]⟩,
    ⟨0x1C, 0x0, 1, .plain, 0x0,
      [fRow 0 0 .wo]⟩,
    ⟨0x100, 0x4, 16, .plain, 0x0,
      [fRow 31 0 .ro]⟩,
    ⟨0x140, 0x4, 16, .plain, 0x0,
      [fRow 31 0 .rw]⟩ ]
def unitMgt : UnitRow :=
  ⟨0x1002000, 0x180, 1, .pwr, some (0x1002008, 0x0, 28), false, regsMgt⟩

def regsFlt : List RegRow :=
  [ ⟨0x0, 0x0, 1, .plain, 0x0,
      [fRow 31 31 .ro, fRow 30 30 .ro, fRow 29 29 .ro, fRow 28 28 .ro, fRow 27 27 .ro, fRow 26 26 .w1c, fRow 1 1 .w1c, fRow 0 0 .w1c]⟩,
    ⟨0x4, 0x0, 1, .plain, 0x0,
      [fRow 31 31 .rw, fRow 30 30 .rw]⟩,
    ⟨0x8, 0x0, 1, .plain, 0x0,
      [fRow 31 0 .ro]⟩,
    ⟨0xC, 0x0, 1, .plain, 0x0,
      [fRow 31 0 .rw]⟩,
    cRow 0x10,
    ⟨0x14, 0x0, 1, .plain, 0x0,
      [fRow 16 0 .ro]⟩,
    ⟨0x20, 0x0, 1, .plain, 0x0,
      [fRow 31 12 .rw]⟩,
    ⟨0x24, 0x0, 1, .plain, 0x0,
      [fRow 31 0 .rw]⟩,
    ⟨0x28, 0x0, 1, .plain, 0xA,
      [⟨4, 0, .rw, some (4, 16), false, []⟩]⟩,
    ⟨0x2C, 0x0, 1, .plain, 0x0,
      [fRow 31 0 .ro]⟩,
    ⟨0x30, 0x0, 1, .plain, 0x0,
      [fRow 31 0 .rw]⟩,
    ⟨0x34, 0x0, 1, .plain, 0x0,
      [fRow 31 31 .rw, ⟨15, 0, .rw, some (1, 65535), false, []⟩]⟩,
    ⟨0x38, 0x0, 1, .plain, 0x0,
      [fRow 31 0 .wo]⟩,
    ⟨0x40, 0x0, 1, .plain, 0x0,
      [fRow 1 1 .wo, fRow 0 0 .wo]⟩,
    ⟨0x60, 0x4, 8, .plain, 0x0,
      [fRow 31 0 .ro]⟩,
    ⟨0x80, 0x4, 8, .plain, 0x0,
      [fRow 31 0 .ro]⟩,
    cRows 0x400 0x4 256,
    ⟨0x1000, 0x4, 2048, .plain, 0x0,
      [fRow 31 0 .ro]⟩ ]
def unitFlt : UnitRow :=
  ⟨0x1100000, 0x3000, 1, .flt, some (0x1100000, 0x0, 0), false, regsFlt⟩

def regsCli0 : List RegRow :=
  [ ⟨0x0, 0x0, 1, .plain, 0x0,
      [fRow 31 31 .ro, fRow 21 16 .ro, fRow 9 0 .ro]⟩,
    ⟨0x4, 0x0, 1, .plain, 0x0,
      [fRow 31 31 .rw, fRow 30 30 .rw, fRow 29 29 .rw, fRow 28 28 .rw, fRow 27 27 .rw, fRow 26 26 .rw, fRow 10 0 .rw]⟩,
    ⟨0x8, 0x0, 1, .plain, 0x0,
      [fRow 31 31 .ro, fRow 30 30 .ro, fRow 29 29 .ro, fRow 7 7 .w1c, fRow 6 6 .w1c, fRow 5 5 .w1c, fRow 4 4 .w1c, fRow 3 3 .w1c]⟩,
    ⟨0xC, 0x0, 1, .plain, 0x640020,
      [fRow 31 16 .rw, ⟨15, 0, .rw, some (1, 65535), false, []⟩]⟩,
    ⟨0x10, 0x0, 1, .plain, 0x0,
      [fRow 31 6 .rw]⟩,
    ⟨0x14, 0x0, 1, .plain, 0x0,
      [fRow 31 0 .rw]⟩,
    ⟨0x18, 0x0, 1, .plain, 0x0,
      [fRow 31 12 .rw]⟩,
    ⟨0x1C, 0x0, 1, .plain, 0x0,
      [fRow 31 0 .rw]⟩,
    ⟨0x20, 0x0, 1, .plain, 0x0,
      [fRow 23 0 .rw]⟩,
    ⟨0x24, 0x0, 1, .plain, 0x0,
      [fRow 9 8 .rw, fRow 7 0 .rw]⟩,
    ⟨0x28, 0x0, 1, .plain, 0x0,
      [fRow 30 30 .wo, fRow 29 29 .wo, fRow 28 28 .wo, fRow 27 27 .wo, fRow 5 0 .wo]⟩,
    ⟨0x2C, 0x0, 1, .plain, 0x0,
      [fRow 31 0 .ro]⟩,
    ⟨0x40, 0x20, 5, .plain, 0x0,
      [fRow 31 12 .rw]⟩,
    ⟨0x44, 0x20, 5, .plain, 0x0,
      [fRow 31 0 .rw]⟩,
    ⟨0x48, 0x20, 5, .plain, 0x4,
      [⟨4, 0, .rw, some (4, 20), false, []⟩]⟩,
    ⟨0x4C, 0x20, 5, .plain, 0x0,
      [fRow 31 0 .rw]⟩,
    ⟨0x50, 0x20, 5, .plain, 0x0,
      [fRow 31 0 .rw]⟩,
    ⟨0x100, 0x0, 1, .plain, 0x0,
      [fRow 31 0 .ro]⟩,
    ⟨0x104, 0x0, 1, .plain, 0x0,
      [fRow 31 0 .ro]⟩,
    ⟨0x108, 0x0, 1, .plain, 0x0,
      [fRow 31 0 .ro]⟩,
    ⟨0x10C, 0x0, 1, .plain, 0x0,
      [fRow 31 0 .ro]⟩,
    ⟨0x110, 0x0, 1, .plain, 0x0,
      [fRow 31 0 .ro]⟩,
    ⟨0x114, 0x0, 1, .plain, 0x0,
      [fRow 31 0 .ro]⟩,
    ⟨0x118, 0x0, 1, .plain, 0x0,
      [fRow 31 0 .ro]⟩ ]
def regsCli1 : List RegRow :=
  [ ⟨0x11C, 0x0, 1, .plain, 0x0,
      [fRow 31 0 .ro]⟩,
    cRow 0x140,
    cRow 0x144,
    cRow 0x148,
    cRow 0x14C,
    cRow 0x150,
    cRow 0x154 ]
def unitCli : UnitRow :=
  ⟨0x4000000, 0x1000, 1024, .host, some (0x4000008, 0x1000, 7), true, regsCli0 ++ regsCli1⟩

/-- Every group of registers of BAR0 (R28). -/
def units : List UnitRow :=
  [ unitHst, unitMbx, unitDlp, unitDlk, unitPix, unitObj, unitEjt, unitEjb, unitEjs, unitPwm, unitPwg, unitEnc, unitSnap, unitMs, unitTport, unitStq, unitTpin, unitTg, unitTlist, unitSeq, unitImg, unitDma,
    unitErg, unitStk, unitLb, unitQ, unitCmp, unitProd, unitCh, unitCell, unitEpub, unitCvn, unitCvy, unitCvp, unitHo, unitPwr, unitPcl, unitPul, unitPms, unitOas, unitMgt, unitFlt, unitCli ]

/-- Whether an address falls in a group's pages. -/
def UnitRow.has (u : UnitRow) (a : Nat) : Bool :=
  u.base ≤ a && decide (a < u.base + u.stride * u.count)

/-- Whether a page offset is one of a row's registers. -/
def RegRow.has (r : RegRow) (o : Nat) : Bool :=
  if r.reps ≤ 1 then r.off == o
  else r.off ≤ o && decide (o < r.off + r.rep * r.reps) && (o - r.off) % r.rep == 0

/-- The unit and row of a register address, none where no register stands (R25). -/
def regAt (a : Nat) : Option (UnitRow × RegRow) :=
  match units.find? (fun u => u.has a) with
  | none => none
  | some u =>
    match u.regs.find? (fun r => r.has ((a - u.base) % u.stride)) with
    | none => none
    | some r => some (u, r)

/-- The index of the unit an address belongs to inside its group. -/
def UnitRow.index (u : UnitRow) (a : Nat) : Nat := (a - u.base) / u.stride

/-- The reset value of the register at an address (0 where there is none, R25). -/
def regReset (a : Nat) : Word :=
  match regAt a with
  | none => 0#32
  | some (_, r) => BitVec.ofNat 32 r.reset

/-- The bits of a field. -/
def FieldRow.mask (f : FieldRow) : Word := BitVec.ofNat 32 ((2 ^ (f.hi + 1 - f.lo) - 1) <<< f.lo)

/-- The bits of a register that survive warm reset (RWS, R24). -/
def keepMask (a : Nat) : Word :=
  match regAt a with
  | none => 0#32
  | some (_, r) => (r.fields.filter (fun f => f.acc = .rws ∨ f.acc = .w1cs)).foldl (fun m f => m ||| f.mask) 0#32

end Sys2Proof.Machine
end

