-- ==== Sys2Proof/Machine/Tab.lean ====
section
/-! DEFINITION. Sparse tables in one canonical form: keys strictly rising, and no entry equal to what an
unlisted key reads as.  Register files, the Erg, host memory and every indexed piece of state use it. -/
namespace Sys2Proof.Machine

/-- A sparse table from numbers to values. -/
abbrev Tab (α : Type) := List (Nat × α)

variable {α : Type}

/-- The value at a key; an unlisted key reads as `d`. -/
def Tab.get (d : Nat → α) : Tab α → Nat → α
  | [], k => d k
  | (j, v) :: m, k => if j = k then v else Tab.get d m k

/-- List a value at a key, in rising order. -/
def Tab.put (k : Nat) (v : α) : Tab α → Tab α
  | [] => [(k, v)]
  | (j, w) :: m =>
    if k < j then (k, v) :: (j, w) :: m
    else if k = j then (k, v) :: m
    else (j, w) :: Tab.put k v m

/-- Unlist a key. -/
def Tab.del (k : Nat) (m : Tab α) : Tab α := m.filter (fun e => e.1 != k)

/-- Write a key, keeping the canonical form. -/
def Tab.set [DecidableEq α] (d : Nat → α) (m : Tab α) (k : Nat) (v : α) : Tab α :=
  if v = d k then Tab.del k m else Tab.put k v m

/-- Change the value at a key. -/
def Tab.upd [DecidableEq α] (d : Nat → α) (m : Tab α) (k : Nat) (f : α → α) : Tab α :=
  Tab.set d m k (f (Tab.get d m k))

/-- Whether the keys rise strictly from a bound. -/
def Tab.rising : Option Nat → Tab α → Bool
  | _, [] => true
  | b, (k, _) :: m => (match b with | none => true | some j => decide (j < k)) && Tab.rising (some k) m

/-- The canonical form: keys strictly rising, no entry at its default. -/
def Tab.wf [DecidableEq α] (d : Nat → α) (m : Tab α) : Bool :=
  Tab.rising none m && m.all (fun e => decide (e.2 ≠ d e.1))

/-- Write a list of values at consecutive keys. -/
def Tab.setList [DecidableEq α] (d : Nat → α) (m : Tab α) (k : Nat) : List α → Tab α
  | [] => m
  | v :: vs => Tab.setList d (Tab.set d m k v) (k + 1) vs

/-- The values at n consecutive keys. -/
def Tab.getList (d : Nat → α) (m : Tab α) (k n : Nat) : List α :=
  (List.range n).map (fun i => Tab.get d m (k + i))

end Sys2Proof.Machine
end

