-- ==== Sys2Proof/Machine/Flags.lean ====
section
/-! DEFINITION. Register files and every flag computation the manual gives a register: saturating counters
(R21, R22), W1C and W1S bits (R24), clipping and CFG_ERR (R36). -/
namespace Sys2Proof.Machine

/-- The registers of a block: those that differ from their reset value, by BAR0 address. -/
abbrev RegFile := Tab Word

/-- A register's value. -/
def rget (r : RegFile) (a : Nat) : Word := Tab.get regReset r a

/-- Store a register's value. -/
def rset (r : RegFile) (a : Nat) (v : Word) : RegFile := Tab.set regReset r a v

/-- Replace a field of a register. -/
def wrBits (r : RegFile) (a hi lo x : Nat) : RegFile := rset r a (putBits (rget r a) hi lo x)

/-- Replace one bit of a register. -/
def wrBit (r : RegFile) (a i : Nat) (b : Bool) : RegFile := rset r a (putBit (rget r a) i b)

/-- A counter after n more counts: it stops at 0xFFFF_FFFF (R21). -/
def satAdd (v : Word) (n : Nat) : Word := BitVec.ofNat 32 (capNat 0xFFFFFFFF (v.toNat + n))

/-- An attempt counter after one more: it stops at 0xFFFF (R22). -/
def satAttempt (v : Word) : Word := BitVec.ofNat 32 (capNat 0xFFFF (v.toNat + 1))

/-- Add to a counter register. -/
def incBy (r : RegFile) (a n : Nat) : RegFile := rset r a (satAdd (rget r a) n)

/-- Count one in a counter register. -/
def inc (r : RegFile) (a : Nat) : RegFile := incBy r a 1

/-- Count one in an attempt counter. -/
def incAttempt (r : RegFile) (a : Nat) : RegFile := rset r a (satAttempt (rget r a))

/-- The SAT bit of a counter: it reads 0xFFFF_FFFF (R21).  DEDUCED (log 8): a counter that reads
0xFFFF_FFFF has saturated. -/
def counterSat (v : Word) : Bool := v == 0xFFFFFFFF#32

/-- A counter after a W1C write (R21). -/
def counterWrite (old v : Word) : Word :=
  if v = 0xFFFFFFFF#32 then 0#32 else if counterSat old then old else old &&& ~~~ v

/-- A field's bits after a write, and whether R36 was needed: a reserved encoding keeps the old
value, a value outside the range goes to the nearer limit. -/
def FieldRow.write (f : FieldRow) (old v : Word) : Word × Bool :=
  let o := bits old f.hi f.lo
  let x := bits v f.hi f.lo
  match f.acc with
  | .ro => (putBits 0#32 f.hi f.lo o, false)
  | .wo => (0#32, false)
  | .w1c => (putBits 0#32 f.hi f.lo (o &&& (o ^^^ x)), false)
  | .w1cs => (putBits 0#32 f.hi f.lo (o &&& (o ^^^ x)), false)
  | .w1s => (putBits 0#32 f.hi f.lo (o ||| x), false)
  | .rw | .rws =>
    if f.reserved.contains x then (putBits 0#32 f.hi f.lo o, true)
    else match f.range with
      | none => (putBits 0#32 f.hi f.lo x, false)
      | some (a, b) =>
        let w := f.hi + 1 - f.lo
        let y : Int := if f.signed then sgn w x else (x : Int)
        let z := clampInt a b y
        (putBits 0#32 f.hi f.lo (unsgn w z), decide (z ≠ y))

/-- A register's value after a write by its access types, and whether R36 was needed.  Reserved
bits read 0 (R24).  In a unit that ignores a bad write as a whole, the old value stays. -/
def RegRow.write (r : RegRow) (ignore : Bool) (old v : Word) : Word × Bool :=
  match r.kind with
  | .counter => (counterWrite old v, false)
  | .attempts => (0#32, false)
  | .plain =>
    let parts := r.fields.map (fun f => f.write old v)
    let bad := parts.any (fun p => p.2)
    if ignore && bad then (old, true)
    else (parts.foldl (fun m p => m ||| p.1) 0#32, bad)

/-- The address of the CFG_ERR bit of the unit an address belongs to (R36), and the bit. -/
def UnitRow.cfgErrAt (u : UnitRow) (a : Nat) : Option (Nat × Nat) :=
  match u.cfgErr with
  | none => none
  | some (b, st, i) => some (b + st * u.index a, i)

/-- A write to a register without behaviour of its own: stored by its access types; a needed clip or
ignored encoding sets the unit's CFG_ERR (R24, R36). -/
def writeReg (r : RegFile) (a : Nat) (v : Word) : RegFile :=
  match regAt a with
  | none => r
  | some (u, row) =>
    let p := row.write u.ignore (rget r a) v
    let r := rset r a p.1
    if p.2 then
      match u.cfgErrAt a with
      | none => r
      | some (e, i) => wrBit r e i true
    else r

/-- A register's value after warm reset: RWS bits stay (R24, R31). -/
def warmValue (a : Nat) (v : Word) : Word := (v &&& keepMask a) ||| (regReset a &&& ~~~ keepMask a)

/-- The registers after warm reset: RWS bits stay, everything else takes its reset value (R31). -/
def warmRegs (r : RegFile) : RegFile :=
  r.foldl (fun m e => rset m e.1 (warmValue e.1 (rget r e.1))) []

/-- The registers after warm reset, where those a test names keep their values. -/
def warmRegsKeep (keep : Nat → Bool) (r : RegFile) : RegFile :=
  r.foldl (fun m e => rset m e.1 (if keep e.1 then rget r e.1 else warmValue e.1 (rget r e.1))) []

end Sys2Proof.Machine
end

