-- ==== Sys2Proof/Machine/State.lean ====
section
/-! DEFINITION. The state of Apnik as plain data: per block, its registers (those that differ from their reset
value, by BAR0 address) and the state behind them that the manual names, and the queue of waiting
commands. -/
namespace Sys2Proof.Machine

/-- Reasons a command stops with a fault.  There is none: the manual gives every command an effect,
and its own error cases are flags and records of the state. -/
inductive Fault where
  deriving DecidableEq, Repr

/-- Reasons a command is refused. -/
inductive Refusal where
  /-- Raised by the dispatcher for a command that has no meaning in this model yet.  Safe: no run passes it. -/
  | notModelled (mnemonic : String)
  deriving DecidableEq, Repr

/-! ## Identity, timebase and access (R2, R11 to R32) -/

/-- The order codes of R2. -/
inductive Part where
  | wap24_48C | wap24_48I | wap24_24I
  deriving DecidableEq, Repr

/-- Identity and global block. -/
structure TimeSt where
  regs : RegFile
  /-- TB in ns (R11).  It does not wrap (R23), so it is a natural number (log 9). -/
  tb : Nat
  /-- The 32-bit fractional accumulator (R12). -/
  frac : Nat
  /-- The remaining step in units of 2^-10 ns (R14). -/
  stepRem : Int
  /-- Holding registers of split reads: by function * 2^32 + address of the low half (R16). -/
  held : Tab Word
  /-- TB of the last captured PPS_IN edge (R17). -/
  ppsLast : Option Nat
  /-- REFCLK_SYS is present (R390, R400). -/
  refSysOk : Bool
  /-- Causes of a warm reset that waits for REFCLK_SYS (R400). -/
  warmWait : List Nat
  /-- The order code (R2). -/
  part : Part
  deriving DecidableEq, Repr

def TimeSt.init : TimeSt := ⟨[], 0, 0, 0, [], none, true, [], .wap24_48C⟩

/-! ## Motion (R34 to R68) -/

/-- An encoder port behind its registers. -/
structure EncSt where
  pos : Pos
  /-- Raw synchronised levels, toggled by raw edges (R40). -/
  rawA : Bool
  rawB : Bool
  rawZ : Bool
  /-- TB of the first sample that showed each raw level (R37). -/
  atA : Nat
  atB : Nat
  atZ : Nat
  /-- Accepted, filtered levels (R37). -/
  a : Bool
  b : Bool
  z : Bool
  /-- The reference state AB, after SWAP_AB (R37, R424). -/
  refA : Bool
  refB : Bool
  /-- TB of the last accepted transition, legal or not (R39). -/
  lastAcc : Option Nat
  /-- TB of the last legal transition (R49). -/
  lastLegal : Option Nat
  /-- The current run, newest first: TB and counts of each step, at most 129 (R48, R53). -/
  run : List (Nat × Nat)
  /-- The run's direction: true is decreasing. -/
  runDec : Bool
  /-- The turning point P_t (R49). -/
  turn : Pos
  /-- Counts of the current 1 ms window (R40, R43): illegal, legal, raw and accepted edges per pin. -/
  winIllegal : Nat
  winLegal : Nat
  winRaw : Nat × Nat × Nat
  winAcc : Nat × Nat × Nat
  winNoise : Bool
  /-- The 1 ms window the counts are of, and whether decoding ran throughout it (R423). -/
  winId : Nat
  winWhole : Bool
  /-- Counts accepted while Z has stayed active (R41). -/
  zRun : Nat
  /-- An index was accepted and no A/B transition since (R42). -/
  idxNoAB : Bool
  /-- Z_MODE 10: the next index loads ENC_ZERO (R41). -/
  zArm : Bool
  /-- The last good SSI word, the bad words in succession, and whether a first word is awaited (R52, R53). -/
  ssiLast : Option Nat
  ssiBad : Nat
  /-- TB of the last good word that moved or stood, for extrapolation (R53). -/
  ssiStamp : Nat
  /-- The word in progress: TB of its latch and whether the data line was high (R50). -/
  ssiWord : Option (Nat × Bool)
  deriving DecidableEq, Repr

def EncSt.init : EncSt :=
  ⟨0#48, false, false, false, 0, 0, 0, false, false, false, false, false, none, none, [], false, 0#48,
    0, 0, (0, 0, 0), (0, 0, 0), false, 0, false, 0, false, false, none, 0, 0, none⟩

/-- A position received over Caravan, by device and port (R354, R355). -/
structure SpanIn where
  valid : Bool
  pos : Pos
  speed : Int
  state : Nat
  dec : Bool
  lost : Bool
  seq : Option Nat
  period : Nat
  tb : Nat
  /-- TB at which the last good cell arrived. -/
  arrived : Nat
  deriving DecidableEq, Repr

def SpanIn.init : SpanIn := ⟨false, 0#48, 0, 0, false, true, none, 0, 0, 0⟩

/-- A motion source's extrapolation in holdover (R57). -/
structure HoldSt where
  start : Nat
  pos : Fix
  speed : Int
  /-- TB at which HOLD_MAX expires. -/
  ends : Nat
  filt : Nat
  deriving DecidableEq, Repr

/-- A motion source (R55 to R57). -/
structure MsSt where
  /-- The input in use: some false primary, some true secondary. -/
  inUse : Option Bool
  /-- Primary minus secondary, as last tracked (R56). -/
  offset : Option Pos
  /-- The offset the secondary is used with: that of the switch to it (R56, R57). -/
  inOff : Pos
  hold : Option HoldSt
  /-- The position a source without input stands at. -/
  frozen : Fix
  lost : Bool
  /-- Counts the emulated output of the port of this number has still to show, and the TB from which its next
  transition may come (R54). -/
  emuLag : Int
  emuAt : Nat
  deriving DecidableEq, Repr

def MsSt.init : MsSt := ⟨none, none, 0#48, none, 0#80, true, 0, 0⟩

/-- A trigger generator behind its registers (R58 to R61). -/
structure GenSt where
  /-- TRG_NEXT: 48-bit count, 32-bit fraction (R59). -/
  next : Fix
  listIdx : Nat
  /-- TIME mode: the next due instant in 2^-32 ns (R61). -/
  timeNext : Option Nat
  /-- Due instants (ps) of PIN, EVENT and SEQ triggers not yet issued. -/
  due : List Nat
  /-- The one pending event of the EVENT consumer (R329): its instant (ps). -/
  pendingEvt : Option Nat
  /-- The generator's last trigger while no port names it (ps). -/
  last : Option Nat
  deriving DecidableEq, Repr

def GenSt.init : GenSt := ⟨0#80, 0, none, [], none, none⟩

/-- A stamp table entry (R66). -/
structure StampEnt where
  tb : Nat
  pos : Pos
  frac : Nat
  flags : Nat
  deriving DecidableEq, Repr

def StampEnt.init : StampEnt := ⟨0, 0#48, 0, 0⟩

/-- A port's tags (R64, R66). -/
structure PortTrg where
  tag : Nat
  /-- Camera-side instant (ps) of the port's previous trigger (R61). -/
  last : Option Nat
  /-- The stamp table; an index no trigger has written is not listed (R68). -/
  stamps : Tab (Option StampEnt)
  deriving DecidableEq, Repr

def PortTrg.init : PortTrg := ⟨0, none, []⟩

/-- A trigger pin (R63): the accepted input level, and the output's pulses, start and end (ps), oldest first. -/
structure TrigPin where
  level : Bool
  pulses : List (Nat × Nat)
  deriving DecidableEq, Repr

def TrigPin.init : TrigPin := ⟨false, []⟩

/-- The motion block. -/
structure MotSt where
  regs : RegFile
  enc : Tab EncSt
  span : Tab SpanIn
  ms : Tab MsSt
  gen : Tab GenSt
  port : Tab PortTrg
  pin : Tab TrigPin
  deriving DecidableEq, Repr

def MotSt.init : MotSt := ⟨[], [], [], [], [], [], []⟩

/-! ## Dunelink and Caravan lanes (R69 to R99, R333): ports 0 to 23 are DL0 to DL23, 24 to 27 CV0 to CV3 -/

/-- An outstanding equaliser request (R79). -/
inductive CoefReq where
  /-- PRESET_LOAD of a preset. -/
  | preset (n : Nat)
  /-- One step of a coefficient: 0 is c(+1), 1 is c(-1); up or down. -/
  | step (coef : Nat) (up : Bool)
  /-- HOLD after a step; whether the coefficient was at its limit. -/
  | hold (limit : Bool)
  deriving DecidableEq, Repr

/-- Where TUNE stands (R84). -/
inductive TunePhase where
  /-- The preset search; the presets still to try. -/
  | search (todo : List Nat)
  /-- The kept preset is loaded again. -/
  | keep
  /-- Fine-tuning of a coefficient (0 is c(+1), 1 is c(-1)). -/
  | fine (coef : Nat)
  /-- A step that lowered the FOM is undone. -/
  | undo (coef : Nat)
  deriving DecidableEq, Repr

structure TuneSt where
  phase : TunePhase
  /-- The preset in force at the camera. -/
  cur : Nat
  /-- The best FOM so far and its preset. -/
  best : Option (Nat × Nat)
  /-- The direction of the last fine step. -/
  up : Bool
  /-- The direction in which the next coefficient's first step goes. -/
  next : Bool
  steps : Nat
  /-- TB at which the running adaptation period started. -/
  adapting : Option Nat
  deriving DecidableEq, Repr

/-- A lane's pattern checker (R99): the bits before the next one (newest lowest), how many are held, the bits in
succession that matched the prediction, and the last bits checked while locked, newest first: true is a mismatch. -/
structure Checker where
  hist : Nat
  held : Nat
  run : Nat
  recent : List Bool
  deriving DecidableEq, Repr

def Checker.init : Checker := ⟨0, 0, 0, []⟩

/-- A port's training state behind DLP_STATUS (R79 to R95). -/
structure PhyPort where
  /-- TB of the entry to the present state. -/
  entered : Nat := 0
  /-- TB at which back-off ends (R85). -/
  backoffEnd : Nat := 0
  /-- TB from which SIG has been continuous in DETECT (R86). -/
  sigFrom : Nat := 0
  /-- The settings taken at the last entry to DETECT (R83): RATE, LANES, PRECODE, AUTO_POL, AUTO_SWAP. -/
  rate : Nat := 3
  lanes : Nat := 1
  precode : Nat := 1
  autoPol : Bool := true
  autoSwap : Bool := true
  /-- Bits 47:8 of the request field last sent, and SEQ (R80). -/
  sent : Nat := 0
  seq : Nat := 0
  /-- Phase of the training frames' boundaries in ps, modulo 327,680 (R80; log 12), and the next one, in ps. -/
  phase : Nat := 0
  frameAt : Nat := 0
  /-- The frames' PRBS9 generator and the frame last sent, its bit 0 lowest (R80). -/
  prbs9 : Nat := 1
  frame : BitVec 1024 := 0
  /-- Per lane: consecutive good frames with BC_LOCK (R84), the last status field. -/
  good0 : Nat := 0
  good1 : Nat := 0
  stat0 : Option Nat := none
  stat1 : Option Nat := none
  precodeReq : Bool := false
  coef : Option (CoefReq × Nat) := none
  tune : Option TuneSt := none
  dataReady : Bool := false
  /-- TB of a QUIET_REQ without answer (R92). -/
  quietReq : Option Nat := none
  /-- TB before which no new QUIET_REQ is made (R92). -/
  quietHold : Nat := 0
  /-- TB at which the exit from QUIET started (R93). -/
  quietExit : Option Nat := none
  /-- Slicer thresholds, in codes: upper, middle, lower, per lane (R76). -/
  thr0 : Int × Int × Int := (0, 0, 0)
  thr1 : Int × Int × Int := (0, 0, 0)
  /-- Per lane TB + 1 of the CTLE's last move, and the instant in ps of the next update (R76). -/
  ctleAt : Tab Nat := []
  adaptAt : Tab Nat := []
  /-- TB + 1 of the last write to an equaliser register, by lane * 0x100 + offset (R77). -/
  eqAt : Tab Nat := []
  /-- The lanes' pattern checkers, and the seed of the pattern the back-channel sends (R98, R99). -/
  chk0 : Checker := .init
  chk1 : Checker := .init
  txSeed : Nat := 1
  /-- A span port's own transmitter, as the partner's requests set it (R79, R333): preset, the three
      coefficients in steps from it, the coefficient states reported, and ECHO. -/
  txPreset : Nat := 5
  txCoef : Int × Int × Int := (0, 0, 0)
  txState : Nat × Nat × Nat := (0, 0, 0)
  echo : Nat := 0
  /-- A span port as the partner's camera (R73, R81, R333): good frames in succession, precoding and data as the partner
  asks for them, whether data has begun, the frames' PRBS13 generator, and the frame last sent: symbol k in bits 2k + 1
  and 2k. -/
  seen : Nat := 0
  txPrecode : Bool := false
  dataReq : Bool := false
  dataOn : Bool := false
  prbs13 : Nat := 1
  rxFrame : BitVec 8192 := 0
  deriving DecidableEq, Repr

def PhyPort.init : PhyPort := {}

structure PhySt where
  regs : RegFile
  port : Tab PhyPort
  deriving DecidableEq, Repr

def PhySt.init : PhySt := ⟨[], []⟩

/-! ## Dunelink packets (R100 to R130) -/

/-- The stamp a line carries (R66, R125): TB, position, fraction, FLAGS. -/
abbrev Stamp := StampEnt

/-- A camera line as it is handed to the streams (R122 to R126). -/
structure CamLine where
  port : Nat
  vc : Nat
  /-- Its DT; none if no pixel packet fixed one (R122). -/
  dt : Option Nat
  pixels : Nat
  col0 : Nat
  /-- The payload of R120, bytes not received as 0. -/
  bytes : List Byte
  /-- The flag byte of R126. -/
  flags : Nat
  stamp : Stamp
  /-- Mosaic phase (R121, R142). -/
  phase : Nat
  /-- In an area frame: index of the line and line count of the frame (R121, R152). -/
  frame : Option (Nat × Nat)
  /-- TB at which it was completed. -/
  arrived : Nat
  deriving DecidableEq, Repr

/-- A line being received on a VC (R122). -/
structure OpenLine where
  tag : Nat
  tagValid : Bool
  held : Bool
  phase : Nat
  number : Nat
  pixels : Nat
  col0 : Nat
  dt : Option Nat
  bytes : List Byte
  flags : Nat
  /-- TB at which LINE_START arrived (R125). -/
  arrived : Nat
  deriving DecidableEq, Repr

/-- An area frame in progress (R121, R152, R153). -/
structure FrameSt where
  stamp : Option Stamp
  lines : Nat
  seen : Nat
  deriving DecidableEq, Repr

/-- A virtual channel of a port (R118, R122 to R125). -/
structure VcSt where
  /-- The SEQ expected next; none before the first entry to ACTIVE. -/
  seq : Option Nat
  line : Option OpenLine
  /-- TAG and NUMBER of the reference line (R124). -/
  ref : Option (Nat × Nat)
  /-- Lines dropped as stale in succession. -/
  stale : Nat
  /-- The line delivered last. -/
  prev : Option CamLine
  frame : Option FrameSt
  deriving DecidableEq, Repr

def VcSt.init : VcSt := ⟨none, none, none, 0, none, none⟩

/-- A block out of a codeword (R101, R107): whether control, its payload, whether its codeword was uncorrectable. -/
structure RxBlk where
  control : Bool
  payload : Dword
  errored : Bool
  deriving DecidableEq, Repr

/-- The blocks of a codeword: COUNT of its group, its place in the group, its blocks (R102, R104, R106). -/
structure LaneCw where
  grp : Nat
  cw : Nat
  blocks : List RxBlk
  deriving DecidableEq, Repr

/-- A logical lane behind the marker and FEC registers (R102 to R108). -/
structure LaneSt where
  /-- Group positions in succession with a match, and without. -/
  hits : Nat := 0
  misses : Nat := 0
  /-- Marker lock (R105). -/
  locked : Bool := false
  /-- While the lane is not locked: places that matched, within the last group's length (R105). -/
  cands : List Nat := []
  /-- The last group position, in received line bits, and the codewords taken since, the first included (R104, R105). -/
  place : Option Nat := none
  cw : Nat := 0
  /-- COUNT of the present group: taken, or one more than the group before. -/
  grp : Nat := 0
  /-- COUNT and LANE last taken (R105). -/
  count : Option Nat := none
  laneId : Option Nat := none
  /-- COUNT and arrival (ps) of the last good markers, newest first, at most 64 (R106). -/
  arrivals : List (Nat × Nat) := []
  /-- No data symbol has come since training; the last corrected decision; the descrambler (R72, R100). -/
  fresh : Bool := true
  prev : Nat := 0
  scr : Nat := 0
  /-- Codewords whose blocks wait for the other lane's (R102, R106). -/
  queue : List LaneCw := []
  /-- The 1 ms window of R108, its corrected symbols, and whether it has warned. -/
  window : Nat := 0
  corrected : Nat := 0
  warned : Bool := false
  deriving DecidableEq, Repr

def LaneSt.init : LaneSt := {}

/-- A packet in the receive buffer (R116). -/
structure Packet where
  vc : Nat
  dt : Nat
  seq : Nat
  len : Nat
  pos : Nat
  /-- Payload blocks received, as bytes. -/
  bytes : List Byte
  /-- A payload block lay in an uncorrectable codeword (R107, R123). -/
  fec : Bool
  /-- The packet ended before its last block (R123). -/
  cut : Bool
  /-- TB at which its PKT block arrived (R125). -/
  arrived : Nat
  deriving DecidableEq, Repr

/-- What waits in the receive buffer, in order: packets, and between them what happens to open lines. -/
inductive RxItem where
  | packet (q : Packet)
  /-- A pixel packet of a VC was rewound for want of room: its line is closed SHORT (R109). -/
  | lost (vc : Nat)
  /-- The port left ACTIVE: every open line is closed SHORT (R123). -/
  | left
  /-- The port entered ACTIVE from DESKEW: sequences and references start afresh (R118, R124). -/
  | fresh
  deriving DecidableEq, Repr

/-- The outstanding camera register request (R128, R129). -/
structure RegReq where
  write : Bool
  addr : Word
  data : Word
  retries : Nat
  tries : Nat
  id : Nat
  /-- Its REG_REQ block waits for a boundary. -/
  toSend : Bool
  /-- Its data block waits (R111). -/
  dataToSend : Bool
  /-- TB at which the attempt was launched. -/
  launched : Option Nat
  deriving DecidableEq, Repr

/-- A port's data layer. -/
structure LnkPort where
  lane0 : LaneSt := .init
  lane1 : LaneSt := .init
  /-- The skew in ps last measured on markers of the same COUNT (R106). -/
  skew : Option Nat := none
  /-- Blocks after deskew, oldest first (R102). -/
  rx : List RxBlk := []
  /-- Received LCTL blocks that wait (R115). -/
  lctlIn : List Dword := []
  /-- The packet being written to the receive buffer. -/
  asm : Option Packet := none
  /-- Discarding blocks up to the next PKT block (R109, R123). -/
  skip : Bool := false
  /-- After RECOVER: nothing is delivered before the first alignment marker (R91). -/
  await : Bool := false
  committed : List RxItem := []
  vc : Tab VcSt := []
  /-- Committed triggers: boundary (ps), tag, OFFSET (R113). -/
  trig : List (Nat × Nat × Nat) := []
  /-- Link-control messages to send (R115). -/
  lctl : List Nat := []
  reg : Option RegReq := none
  lastId : Nat := 0
  /-- The next back-channel block boundary, in ps. -/
  boundary : Nat := 0
  /-- Blocks since the last FILL (R110). -/
  sinceFill : Nat := 0
  /-- The block last sent on the back-channel: whether control, and its payload. -/
  sent : Option (Bool × Dword) := none
  /-- That block as it left: the two bits of the sync header, then the scrambled payload from bit 0 up; and the
  scrambler (R100). -/
  wire : List Bool := []
  scr : Nat := 0
  /-- A span port's transmitter (R334): blocks that wait for a codeword, codewords of the group sent, COUNT of the group,
  the last symbol sent, and the symbols of the codeword last sent, the first one highest. -/
  txBlocks : List (Bool × Dword) := []
  txCws : Nat := 0
  txCount : Nat := 0
  txPrev : Nat := 0
  txCw : BitVec 5440 := 0
  /-- A span port's receiver (R334): the bytes of the cell in progress, and cells received that wait. -/
  cellIn : Option (List Byte) := none
  cells : List (List Byte) := []
  deriving DecidableEq, Repr

def LnkPort.init : LnkPort := {}

structure LnkSt where
  regs : RegFile
  port : Tab LnkPort
  deriving DecidableEq, Repr

def LnkSt.init : LnkSt := ⟨[], []⟩

/-! ## The pixel pipeline (R131 to R161) -/

/-- A stream line (R131, R132): samples of D bits in column order, WIDTH columns. -/
structure StrLine where
  samples : List Nat
  flags : Nat
  stamp : Stamp
  phase : Nat
  frame : Option (Nat × Nat)
  /-- Its look-back line number (R301). -/
  ln : Nat
  /-- Its context (R157). -/
  ctx : Nat
  deriving DecidableEq, Repr

/-- A line after correction, or behind registration: one list of WIDTH values per component (a mosaic line
holds one). -/
structure PlaneLine where
  planes : List (List Nat)
  flags : Nat
  stamp : Stamp
  phase : Nat
  frame : Option (Nat × Nat)
  ln : Nat
  ctx : Nat
  deriving DecidableEq, Repr

/-- The outputs and statistics of the open strip (R151, R152, R158). -/
structure StripSt where
  num : Nat
  /-- Output lines of the strip so far, oldest first: planes after the matrix and after the tone tables,
      flags, context. -/
  mv : List (List (List Nat))
  tone : List (List (List Nat))
  flags : List Nat
  ctxs : List Nat
  first : Option Stamp
  last : Option Stamp
  /-- The lines the strip was opened for (R152). -/
  lines : Nat
  /-- Outputs with a free buffer since the strip's start (R148): machine vision, display, coding. -/
  outs : List Nat
  /-- The routes that hold for its strip buffers and its statistics record (R238). -/
  route1 : Option Nat
  route2 : Option Nat
  deriving DecidableEq, Repr

/-- A table bank of a tile: its bytes, none while invalid (R156). -/
abbrev Bank := Option (List Byte)

/-- A table load in progress (R156). -/
structure LoadSt where
  kind : Nat
  ctx : Nat
  addr : Nat
  len : Nat
  bank : Bool
  tiles : List Nat
  deriving DecidableEq, Repr

/-- A stream of the pixel pipeline. -/
structure PixStream where
  /-- Completed lines per port of the set, oldest first (R132). -/
  q0 : List CamLine
  q1 : List CamLine
  q2 : List CamLine
  /-- Lines waiting for the tiles, at most 4, oldest first (R161). -/
  tileQ : List StrLine
  /-- Registration memory: corrected lines, newest first (R141). -/
  reg : List PlaneLine
  /-- Input lines since EN went to 1; TB of the last line start, or of EN going to 1 (R250). -/
  inLines : Nat
  lineAt : Nat
  /-- Mosaic lines behind registration, newest first, at most two (R142). -/
  mosaic : List PlaneLine
  /-- The previous output line's planes (R143). -/
  prevOut : Option (List (List Nat))
  /-- The open strip, and the strips opened since EN went to 1: the next one's number modulo 2^32 (R23, R152). -/
  strip : Option StripSt
  nextStrip : Nat
  /-- Line starts since the arm was registered (R154). -/
  armStarts : Nat
  /-- Which bank of the tiles' flat-field, defect and tone tables the active set uses. -/
  flatSel : Bool
  defectSel : Bool
  toneSel : Bool
  load : Option LoadSt
  /-- The context last set by the sequencer (R157). -/
  seqCtx : Nat
  /-- Next look-back line number (R301). -/
  ln : Nat
  /-- Statistics records dropped since the last one written (R159). -/
  statDropped : Nat
  deriving DecidableEq, Repr

def PixStream.init : PixStream :=
  ⟨[], [], [], [], [], 0, 0, [], none, none, 0, 0, false, false, false, none, 0, 0, 0⟩

structure PixSt where
  regs : RegFile
  stream : Tab PixStream
  /-- The tiles' table banks, by tile, kind, context and bank (R156, R164). -/
  tile : Tab Bank
  deriving DecidableEq, Repr

def PixSt.init : PixSt := ⟨[], [], []⟩

/-! ## Object extraction (R162 to R192) -/

/-- A line at the classifier input: classified, its mask not yet cleaned (R163, R166). -/
structure ClsLine where
  /-- Component values at CLS_TAP, and at OBJ_CUT.TAP. -/
  vals : List (List Nat)
  cut : List (List Nat)
  cls : List Nat
  flags : Nat
  stamp : Stamp
  ln : Nat
  strip : Nat
  sline : Nat
  /-- In AREA mode: index of the line in its frame, and the frame's line count. -/
  frame : Option (Nat × Nat)
  deriving DecidableEq, Repr

/-- What a record takes of its stream's registers as they stand when the object closes: OBJ_CNT_MAP, OBJ_CUT and
the width (R174, R179, R189). -/
structure ObjPar where
  cntMap : Nat
  cut : Word
  width : Nat
  /-- The largest delay of its components (R187, R302), and the lines that came before its run of the stream (R179). -/
  delay : Nat
  yStart : Nat
  /-- The lines that had come when its run of the stream ended (R182). -/
  yEnd : Option Nat
  deriving DecidableEq, Repr

def ObjPar.init : ObjPar := ⟨0, 0#32, 0, 0, 0, none⟩

/-- An object with its exact accumulators (R168, R174, R175); sums are over stream columns and line
indices since EN, and become relative at close. -/
structure Obj where
  /-- First line and the start column of its first run (R168). -/
  y0 : Nat
  x0 : Nat
  /-- Last line with a run, and its runs in the line labelled last. -/
  yLast : Nat
  runs : List (Nat × Nat)
  xMin : Nat
  xMax : Nat
  area : Nat
  perim : Nat
  sx : Nat
  sy : Nat
  sxx : Nat
  syy : Nat
  sxy : Nat
  csum : List Nat
  cmin : List Nat
  cmax : List Nat
  /-- Pixels per class. -/
  cls : List Nat
  /-- Columns of the last line's pixels whose other three neighbours have M = 1 (R174, PERIM). -/
  pend : List Nat
  incomplete : Bool
  continued : Bool
  forced : Bool
  frameEdge : Bool
  /-- Ended by a stream reset (R33, R187). -/
  byReset : Bool
  lineFlags : Nat
  first : Stamp
  last : Stamp
  strip : Nat
  sline : Nat
  ln : Nat
  /-- In AREA mode: first line of its frame since EN, and the frame's line count. -/
  frame : Option (Nat × Nat)
  /-- TB at which it closed, and its stream's registers then. -/
  closedAt : Nat
  par : ObjPar
  deriving DecidableEq, Repr

/-- A formed view (R191). -/
structure ObjView where
  obj : Obj
  stream : Nat
  serial : Nat
  epoch : Bool
  handle : Nat
  /-- The stream's width and components at formation. -/
  width : Nat
  ncomp : Nat
  /-- TB at which it arrived at the pairing stage; the TB up to which it waits there, and whether it is of view B
      (R185). -/
  arrived : Nat
  leaveAt : Nat
  isB : Bool
  deriving DecidableEq, Repr

/-- Where a cut-out stands (R182). -/
inductive CutSt where
  | waiting | writing | written | dropped
  deriving DecidableEq, Repr

/-- A cut-out (R179 to R182). -/
structure CutJob where
  view : ObjView
  st : CutSt
  addr : Nat
  size : Nat
  widthCut : Bool
  heightCut : Bool
  /-- Source rectangle: first and last column, first and last line since EN. -/
  col0 : Nat
  col1 : Nat
  row0 : Nat
  row1 : Nat
  deriving DecidableEq, Repr

/-- Space of the staging ring, oldest first (R182, R268): address, size, handle, whether it is released,
copies of its record still to deliver, TB at which HOLD ends, and clients whose area has the cut-outs. -/
structure Staged where
  addr : Nat
  size : Nat
  handle : Nat
  released : Bool
  copies : Nat
  freeAt : Option Nat
  got : List Nat
  deriving DecidableEq, Repr

/-- A record whose pairing outcome is known (R190). -/
structure RecJob where
  a : Option ObjView
  b : Option ObjView
  paired : Bool
  unpaired : Bool
  deriving DecidableEq, Repr

/-- Objects lost since the last released record (R192). -/
structure LostSt where
  count : Nat
  xMin : Nat
  xMax : Nat
  tbFirst : Nat
  tbLast : Nat
  deriving DecidableEq, Repr

/-- The object stage of a stream. -/
structure ObjStream where
  /-- Lines in the cleaning delay, oldest first, and how many of them are labelled. -/
  win : List ClsLine
  done : Nat
  /-- M of the line labelled last. -/
  mask : List Bool
  /-- Lines labelled since the device's reset, and how many of them came before EN last went to 1. -/
  y : Nat
  yEn : Nat
  /-- Bytes of a line in the cut-out source ring, and the first line written with that size (R179, R180). -/
  ringSlot : Nat
  ringFrom : Nat
  opened : List Obj
  lostRuns : List (Nat × Nat)
  /-- Runs of objects force-closed at the end of the line before (R172). -/
  forcedRuns : List (Nat × Nat)
  closeQ : List Obj
  lost : Option LostSt
  serial : Nat
  epoch : Bool
  formed : Option Nat
  cuts : List CutJob
  staging : List Staged
  wait : List ObjView
  ready : List RecJob
  /-- A classifier load in progress: its source address and its tiles (R164). -/
  load : Option (Nat × List Nat)
  /-- View B of the pair this stream leads, as checked (R183). -/
  partner : Option Nat
  deriving DecidableEq, Repr

def ObjStream.init : ObjStream :=
  ⟨[], 0, [], 0, 0, 0, 0, [], [], [], [], none, 0, false, none, [], [], [], [], none, none⟩

structure ObjSt where
  regs : RegFile
  stream : Tab ObjStream
  /-- TB of the last view formed in the device, and the stream it was of (R191). -/
  formed : Option Nat
  served : Nat
  deriving DecidableEq, Repr

def ObjSt.init : ObjSt := ⟨[], [], none, 95⟩

/-! ## Verdicts, ejection and illumination (R193 to R224) -/

/-- A table of the verdict stage: its two banks, which is in use, and whether the other was loaded since
the last swap (R193, R202, R204). -/
structure VTable where
  bank0 : Bank
  bank1 : Bank
  sel : Bool
  fresh : Bool
  deriving DecidableEq, Repr

def VTable.init : VTable := ⟨none, none, false, false⟩

/-- SOURCE of a settled verdict (R186). -/
inductive VSource where
  | host | rule | dflt
  deriving DecidableEq, Repr

/-- A record in the verdict stage (R197 to R201). -/
structure VRec where
  handle : Nat
  /-- The record as released. -/
  bytes : List Byte
  /-- The stream of its record queue, and the stream whose EJT_STR registers apply. -/
  queue : Nat
  stream : Nat
  msrc : Nat
  /-- DEADLINE, none without one; the window TS to TE and the decision point (R196, R207). -/
  deadline : Option Int
  ts : Int
  te : Int
  decideAt : Int
  vFirst : Nat
  vLast : Nat
  /-- The fallback: action of the matching rule, if one matched, and the default action (R200). -/
  rule : Option Nat
  dflt : Nat
  ruleIdx : Nat
  settled : Option (VSource × Nat)
  hostTaken : Bool
  late : Bool
  limited : Bool
  override : Option (Nat × Nat)
  /-- The valves the ejection drives. -/
  valves : Option (Nat × Nat)
  started : Bool
  cancelled : Bool
  /-- It holds a pending entry (R197). -/
  inTable : Bool
  /-- It is an OBJ_LOST record (R209): no host verdict, no settled copy. -/
  isLost : Bool
  copied : Bool
  deriving DecidableEq, Repr

/-- A valve's history (R208): slots in which it was on within the last 20,000, newest first; the
consecutive on slots up to the last frame; the slot of its last change to off. -/
structure ValveSt where
  onSlots : List Nat
  onRun : Nat
  offRun : Nat
  deriving DecidableEq, Repr

/-- A valve that has been off since reset: off for longer than any MIN_OFF. -/
def ValveSt.init : ValveSt := ⟨[], 0, 4095⟩

/-- An ejector bus (R211 to R214): slot of the last frame, its valves, the slot of the last good return frame or of
the write that set RET_EN. -/
structure EjBus where
  slot : Option Nat
  valves : List Nat
  retSlot : Nat
  /-- The frame last sent (R211). -/
  frame : BitVec 304
  deriving DecidableEq, Repr

def EjBus.init : EjBus := ⟨none, [], 0, 0#304⟩

structure EjtSt where
  regs : RegFile
  flight : Tab VTable
  rule : Tab VTable
  recs : List VRec
  valve : Tab ValveSt
  bus : Tab EjBus
  /-- A table load in progress: rule table or flight table, index, Erg address (R204). -/
  load : Option (Bool × Nat × Nat)
  deriving DecidableEq, Repr

def EjtSt.init : EjtSt := ⟨[], [], [], [], [], [], none⟩

/-- The shadowed values of an illumination leg (R219): PERIOD, DUTY, DEAD, BLANK, DELAY. -/
structure LegSet where
  period : Nat
  duty : Nat
  deadLh : Nat
  deadHl : Nat
  blank : Nat
  delay : Nat
  deriving DecidableEq, Repr

def LegSet.init : LegSet := ⟨4000, 0, 8, 8, 40, 0⟩

/-- An illumination leg.  Instants are in units of 0.5 ns, of which a tick has 5. -/
structure LegSt where
  /-- The values in force, and those written since the last reload. -/
  act : LegSet
  shadow : LegSet
  /-- The values shadowed at the reload cycle itself wait for the following reload (R219). -/
  next : Option LegSet
  /-- The reload of the running cycle. -/
  cycle : Option Nat
  /-- Starts that wait for their instants, earliest first, and the one pending start behind a running cycle: instant and
  channel (R220, R329). -/
  starts : List (Nat × Nat)
  pending : Option (Nat × Nat)
  /-- OC ended this cycle's pulse, at this instant; the instant at which OC was last accepted active. -/
  ocAt : Option Nat
  ocOn : Nat
  /-- TB at which it tripped. -/
  trippedAt : Option Nat
  /-- Events that reached the leg and on which it has not acted: start instant and channel (R220, R329). -/
  events : List (Nat × Nat)
  deriving DecidableEq, Repr

def LegSt.init : LegSt := ⟨.init, .init, none, none, [], none, none, 0, none, []⟩

structure PwmSt where
  regs : RegFile
  leg : Tab LegSt
  /-- TB at which each group tripped (R223). -/
  grpAt : Tab (Option Nat)
  deriving DecidableEq, Repr

def PwmSt.init : PwmSt := ⟨[], [], []⟩

/-! ## Images and sequencers (R225 to R250) -/

/-- An activity of a resource map (R245). -/
structure ActEnt where
  id : Nat
  vc : Nat
  ej : Nat
  flags : Nat
  dma : Nat
  units0 : Nat
  units1 : Nat
  evt : Nat
  deriving DecidableEq, Repr

/-- A stream of a resource map (R245). -/
structure StrEnt where
  stream : Nat
  act : Nat
  tileFirst : Nat
  tiles : Nat
  rate : Nat
  deriving DecidableEq, Repr

/-- A region of a resource map (R245). -/
structure RegEnt where
  stream : Nat
  kind : Nat
  first : Nat
  count : Nat
  deriving DecidableEq, Repr

structure ResMap where
  clusterOp : List Nat
  acts : List ActEnt
  strs : List StrEnt
  regions : List RegEnt
  deriving DecidableEq, Repr

/-- A section of an image (R242): its tables stand for the table copies of R249. -/
structure Sect where
  type : Nat
  index : Nat
  body : List Byte
  deriving DecidableEq, Repr

structure Image where
  build : Nat
  mapCrc : Nat
  map : ResMap
  sects : List Sect
  deriving DecidableEq, Repr

/-- A program (R244). -/
structure Program where
  stream : Nat
  initOnSwap : Bool
  entry : List Nat
  budget : List Nat
  minLine : Nat
  minEvent : Nat
  tickPeriod : Nat
  tickPhase : Nat
  subs : List Nat
  xInit : List Word
  code : List Dword
  deriving DecidableEq, Repr

/-- A running slot (R227, R235, R236, R241).  Kinds: 0 LINE, 1 STRIP, 2 EVENT, 3 TICK. -/
structure SlotSt where
  kind : Nat
  pc : Nat
  /-- TB at the slot's start (R227). -/
  start : Nat
  used : Nat
  /-- Active loops, inner first: first index of the body, end, passes left. -/
  loops : List (Nat × Nat × Nat)
  x : List Word
  /-- Motion words, speeds and positions of MS0 to MS7 at the slot's start (R227, R237). -/
  motion : List (Word × Word × Word)
  evArg : Word
  /-- The WAITEV at PC is waiting; the TB at which it started. -/
  waiting : Option Nat
  deriving DecidableEq, Repr

/-- A sequencer behind its registers. -/
structure SeqUnit where
  bank0 : Option Program
  bank1 : Option Program
  slot : Option SlotSt
  /-- The argument of the event that set the pending EVENT slot. -/
  evArg : Word
  /-- TB of the last LINE and EVENT causes (R241), and of the last TICK. -/
  lastLine : Option Nat
  lastEvent : Option Nat
  lastTick : Option Nat
  /-- Line starts of the stream since the copy of a swap ended, and TB of the last one (R250). -/
  lineStarts : Nat
  /-- The one pending event of each busy subscription (R329): its argument. -/
  held : Tab (Option Word)
  /-- Causes of slots that have arrived (R227): kind and event argument, oldest first. -/
  causes : List (Nat × Word)
  deriving DecidableEq, Repr

def SeqUnit.init : SeqUnit := ⟨none, none, none, 0#32, none, none, none, 0, [], []⟩

/-- A bank swap in progress (R250): sequencers still to switch, and the TB at which the copy ended. -/
structure SwapSt where
  left : List Nat
  copied : Option Nat
  deriving DecidableEq, Repr

structure SeqSt where
  regs : RegFile
  unit : Tab SeqUnit
  active : Option Image
  staged : Option Image
  swap : Option SwapSt
  /-- Trace records written by TRACE, newest first: TB, sequencer, IMM, X (R235). -/
  trace : List (Nat × Nat × Nat × Word)
  deriving DecidableEq, Repr

def SeqSt.init : SeqSt := ⟨[], [], none, none, none, []⟩

/-! ## Host link, mailbox, clients, DMA (R251 to R291) -/

/-- Entries dropped for a client since the last one written (R269, R272). -/
structure GapSt where
  count : Nat
  first : Nat
  last : Nat
  deriving DecidableEq, Repr

/-- A client behind its page. -/
structure ClientSt where
  recGap : Option GapSt
  cplGap : Option GapSt
  errGap : Nat
  /-- Record and completion entries since the last interrupt, and TB of the first (R263). -/
  fresh : Nat
  firstNew : Option Nat
  /-- HB, and TB of the last write-back (R262). -/
  hb : Nat
  wbAt : Nat
  /-- The channel last named in HST_CLI_DMA (R260). -/
  named : Option Nat
  /-- Records of its streams that queues dropped while the link was down (R254, R273). -/
  lostLink : Nat
  deriving DecidableEq, Repr

def ClientSt.init : ClientSt := ⟨none, none, 0, 0, none, 0, 0, none, 0⟩

/-- A copy of a strip buffer or statistics record to its clients (R270). -/
structure DataCopy where
  kind : Nat
  stream : Nat
  src : Nat
  strip : Nat
  addr : Nat
  size : Nat
  /-- The channel it runs on. -/
  ch : Nat
  clients : List Nat
  slotSize : Nat
  nslot : Nat
  base : Nat
  /-- The output ring slot it keeps busy, if any. -/
  slot : Option Nat
  deriving DecidableEq, Repr

/-- The running mailbox command (R275): its opcode, status code and results once known. -/
structure MbxRun where
  op : Nat
  since : Nat
  code : Option Nat
  res : List Word
  deriving DecidableEq, Repr

/-- Capability structures at reset: everything optional off, AER as PCIe gives it (log 107). -/
def pcieCaps0 : PcieCaps :=
  ⟨false, false, .default, false, false, false, false, false, false, 0x00400000#32, 0x00462030#32, 0x0000E000#32⟩

/-- PCIe before training: no link, the sizes PCIe gives Max Payload Size and Max Read Request Size at reset, no VFs
(log 107). -/
def pcieCfg0 : PcieCfg := ⟨0, 0, false, false, 0, 2, 0, 0, false, pcieCaps0⟩

/-- A non-posted request to host memory that is out (R287): a verdict or descriptor fetch, or a DMA read of a channel;
and the TB at which its data are back. -/
structure HostReq where
  ch : Option Nat
  back : Nat
  deriving DecidableEq, Repr

/-- A packet of the last write to host memory (R253, R270): its address, length, Relaxed Ordering, and the ST and PH of
its TPH. -/
structure Tlp where
  addr : Nat
  len : Nat
  ro : Bool
  tph : Option (Nat × Nat)
  deriving DecidableEq, Repr

/-- A verdict entry being fetched (R271): its client, its ring index, the entry, and the TB at which its data are here. -/
structure Flight where
  client : Nat
  idx : Word
  entry : BitVec 128
  back : Nat
  deriving DecidableEq, Repr

structure HostSt where
  regs : RegFile
  /-- The PCIe configuration (R251, R253, R287). -/
  cfg : PcieCfg
  /-- The MSI-X tables (R256): word w of entry v of function fn at (fn * 4096 + v) * 4 + w; and vectors that are
      pending, by function * 4096 + entry (R263). -/
  msix : Tab Word
  vecPend : Tab Bool
  /-- Requests to host memory that are out (R287), and the packets of the last write there (R253). -/
  reqs : List HostReq
  tlps : List Tlp
  /-- The client whose verdicts were fetched last (R271). -/
  turn : Nat
  /-- The link is in DL_Active, and PCIe has become ready (R252, R254). -/
  up : Bool
  ready : Bool
  /-- TB at which the link left DL_Active. -/
  lossAt : Option Nat
  /-- PCIE_REFCLK is good, and TB since which it is back (R255). -/
  refOk : Bool
  refBack : Option Nat
  client : Tab ClientSt
  /-- Host memory as Apnik has written it; an unlisted byte reads 0 (log 5). -/
  mem : Tab Byte
  /-- MSI-X table sizes of the VFs (R258), and how often each vector was sent, by function * 4096 + entry. -/
  vecSize : Tab Nat
  sent : Tab Nat
  /-- The selected route by stream * 4 + kind: an index among the stream's routes (R238, R265). -/
  route : Tab (Option Nat)
  /-- Records routes chosen while items wait in the queue: items still before, index (R238). -/
  routeQ : Tab (List (Nat × Nat))
  mbx : Option MbxRun
  /-- Verdicts fetched and on their way to the verdict stage, in ring order (R271). -/
  flights : List Flight
  copies : List DataCopy
  /-- The four owner-key digests in fuses; 0 is not programmed (R243). -/
  keys : Tab Nat
  deriving DecidableEq, Repr

def HostSt.init : HostSt :=
  ⟨[], pcieCfg0, [], [], [], [], 1023, false, false, none, true, none, [], [], [], [], [], [], none, [], [], []⟩

/-- Word w of an MSI-X entry before anything is written: the vector is masked (R256; log 106). -/
def msixReset (k : Nat) : Word := if k % 4 = 3 then 1#32 else 0#32

/-- A descriptor in execution (R279). -/
structure Desc where
  fence : Bool
  move : Bool
  notify : Bool
  srcErg : Bool
  dstErg : Bool
  retries : Nat
  client : Nat
  src : Nat
  dst : Nat
  width : Nat
  rows : Nat
  srcPitch : Nat
  dstPitch : Nat
  tag : Nat
  serial : Nat
  /-- It comes from a template of a DMAQ (R239). -/
  tmpl : Bool
  /-- A segment of it was reclaimed before it started (R289). -/
  taken : Bool
  deriving DecidableEq, Repr

/-- The current descriptor that an ABORT ended (R285): at which TB, the descriptor, its attempts, whether its last request was
being retried, whether some request was, and the ring index of its completion entry. -/
structure AbortedDesc where
  tb : Nat
  desc : Desc
  tries : Nat
  retrying : Bool
  retried : Bool
  slot : Option Word
  deriving DecidableEq, Repr

/-- A DMA channel behind its registers (R278, R283 to R286). -/
structure DmaCh where
  /-- Descriptors in execution, the current one first, at most 64. -/
  queue : List Desc
  /-- Progress of the current descriptor: bytes copied, whether it has started. -/
  copied : Nat
  started : Bool
  /-- Attempts of the last failed request, 0 if none failed; it is being retried; some request was retried (R272,
  R284). -/
  tries : Nat
  retrying : Bool
  retried : Bool
  /-- TB of the previous burst's start, credit in 1/256 bytes, and TB it was counted at (R283). -/
  burstAt : Option Nat
  credit : Nat
  creditAt : Nat
  /-- The fence read of the current descriptor is out, and holds a tag (R286, R287). -/
  fenceOut : Bool
  /-- TB and cause of the last failure that is to be retried, and the current descriptor of the last ABORT (R285). -/
  failedAt : Option (Nat × Nat)
  aborted : Option AbortedDesc
  deriving DecidableEq, Repr

def DmaCh.init : DmaCh := ⟨[], 0, false, 0, false, false, none, 0, 0, false, none, none⟩

structure DmaSt where
  regs : RegFile
  ch : Tab DmaCh
  deriving DecidableEq, Repr

def DmaSt.init : DmaSt := ⟨[], []⟩

/-! ## Erg memory, queues and compression (R292 to R322) -/

/-- A segment (R294): STATE, pin, region kind and stream, client, its place in the order of allocation, and whether
it was taken from its client while a descriptor in execution works on it (R289). -/
structure Seg where
  st : Nat
  pinned : Bool
  kind : Nat
  stream : Nat
  client : Nat
  since : Nat
  leaving : Bool
  deriving DecidableEq, Repr

/-- A segment no command has changed (R293, R294): boot leaves every segment that is not reserved DIRTY (R379). -/
def Seg.init (n : Nat) : Seg :=
  if 24576 ≤ n then ⟨5, false, 0, 0, 0, 0, false⟩
  else if 12224 ≤ n ∧ n < 12288 ∨ 24512 ≤ n then ⟨4, false, 0, 0, 0, 0, false⟩
  else ⟨1, false, 0, 0, 0, 0, false⟩

/-- An Erg queue (R308 to R314): committed items, the rest of an item a host is popping, words written
so far, drops waiting for their marker, and the TB of a host read that waits; TBs of the first and last drop
owed, and of those of each marker in the queue, oldest first (R269). -/
structure ErgQ where
  items : List (List Dword)
  part : List Dword
  wr : Nat
  owed : Nat
  popped : Dword
  readAt : Option Nat
  owedTb : Nat × Nat
  marks : List (Nat × Nat)
  /-- A word of the item being written has failed (R305, R309). -/
  failing : Bool
  deriving DecidableEq, Repr

def ErgQ.init : ErgQ := ⟨[], [], 0, 0, 0#64, none, (0, 0), [], false⟩

/-- A look-back ring as laid out at activation (R300). -/
structure LbSt where
  base : Nat
  dt : Nat
  width : Nat
  slot : Nat
  nlines : Nat
  deriving DecidableEq, Repr

/-- A ring of strip buffers (R148): the buffers written so far, and those whose copies are not over, each by the first
segment it takes in the ring and their number. -/
structure OutRing where
  written : Nat
  busy : List (Nat × Nat)
  deriving DecidableEq, Repr

def OutRing.init : OutRing := ⟨0, []⟩

structure ErgSt where
  regs : RegFile
  /-- Bytes; an unlisted byte reads 0 (log 5). -/
  mem : Tab Byte
  /-- 64-bit words that hold an uncorrectable error (R304). -/
  poison : Tab Bool
  /-- 64-bit words that hold a single-bit error no reader has met yet (R304). -/
  soft : Tab Bool
  seg : Tab Seg
  /-- Number of the next allocation. -/
  allocs : Nat
  q : Tab ErgQ
  lb : Tab (Option LbSt)
  /-- Output rings by stream * 3 + format source. -/
  ring : Tab OutRing
  /-- TBs of the uncorrectable errors of the last 1 ms, per stack (R307). -/
  unc0 : List Nat
  unc1 : List Nat
  deriving DecidableEq, Repr

def ErgSt.init : ErgSt := ⟨[], [], [], [], [], 0, [], [], [], [], []⟩

/-- A compression job's descriptor (R316). -/
structure CmpJob where
  mode : Nat
  wrap : Nat
  delta : Bool
  dyn : Bool
  final : Bool
  syncEnd : Bool
  cont : Bool
  srcChain : Bool
  ncomp : Nat
  row : Nat
  src : Nat
  srcLen : Nat
  client : Nat
  wadiN : Nat
  dst : Nat
  dstLen : Nat
  wadi : Nat
  result : Nat
  deriving DecidableEq, Repr

/-- A compression engine: waiting jobs, the running job, the open stream's SYNC_END and wrapper, and
whether a FLUSH acted on the running job (R315, R321, R322). -/
structure CmpUnit where
  queue : List CmpJob
  running : Option CmpJob
  /-- The open stream: whether the previous job ended with SYNC_END, its wrapper, its filtered bytes. -/
  opened : Option (Bool × Nat × List Byte)
  /-- FLUSH commands of the running job (R321). -/
  flushes : Nat
  deriving DecidableEq, Repr

def CmpUnit.init : CmpUnit := ⟨[], none, none, 0⟩

structure CmpSt where
  regs : RegFile
  unit : Tab CmpUnit
  deriving DecidableEq, Repr

def CmpSt.init : CmpSt := ⟨[], []⟩

/-! ## Events (R323 to R332) -/

/-- A published event: its place in the order of R324, channel, argument, stamp and source ID, and the fabric cycle
in which it reaches the channel. -/
structure EvtRec where
  order : Nat
  ch : Nat
  arg : Word
  stamp : Nat
  src : Nat
  cyc : Nat
  deriving DecidableEq, Repr

/-- A channel (R324, R328). -/
structure ChSt where
  /-- Events waiting to enter, at most 8. -/
  waiting : List EvtRec
  /-- Events that entered and are not yet delivered. -/
  entered : List EvtRec
  /-- The 1 ms window counted, and the events delivered in it. -/
  window : Nat
  inWindow : Nat
  /-- The first fabric cycle in which the next event may enter. -/
  cycle : Nat
  /-- Start of the WATCH period. -/
  watchFrom : Nat
  deriving DecidableEq, Repr

def ChSt.init : ChSt := ⟨[], [], 0, 0, 0, 0⟩

/-- A logic cell (R331, R332). -/
structure CellSt where
  y : Bool
  /-- L of the previous cycle (REG). -/
  prevL : Bool
  out : Bool
  /-- Cycles y has differed from OUT. -/
  held : Nat
  /-- Channels whose event reached the cell since its last evaluation (KIND 1). -/
  hits : List Nat
  /-- OUT before the cell's last evaluation, and the fabric cycle of that evaluation. -/
  outPrev : Bool
  cyc : Nat
  /-- TB since which OUT is 1. -/
  since : Option Nat
  /-- A write in a fabric cycle acts from the next one on (R331): the cycle, and INA, INB and CTRL up to its end. -/
  was : Nat × Word × Word × Word
  /-- EN goes from 0 to 1 at the start of this fabric cycle: y, OUT and the filter start at 0 (R331). -/
  clearAt : Option Nat
  deriving DecidableEq, Repr

def CellSt.init : CellSt := ⟨false, false, false, 0, [], false, 0, none, (0, 0#32, 0#32, 0#32), none⟩

structure EvtSt where
  regs : RegFile
  /-- Published events that have not arrived at their channel's fabric cycle. -/
  bus : List EvtRec
  ch : Tab ChSt
  cell : Tab CellSt
  /-- A route written in a fabric cycle acts from the next one on (R324): the cycle, and the route up to its end. -/
  routeWas : Tab (Nat × Word)
  deriving DecidableEq, Repr

def EvtSt.init : EvtSt := ⟨[], [], [], [], []⟩

/-! ## Caravan (R333 to R360) -/

/-- A cell (R337): its header, its 52 payload bytes, and for ENUM and MGT cells what it says. -/
structure Cell where
  cls : Nat
  resp : Bool
  bcast : Bool
  gen0 : Bool
  dst : Nat
  src : Nat
  hops : Nat
  pay : List Byte
  msg : CvnMsg
  deriving DecidableEq, Repr

/-- A cell that waits for transmission on a port (R340), and for a forwarded cell the receive buffer it holds until
it leaves (R341): port, response lane, number of the cell. -/
structure OutCell where
  cell : Cell
  holds : Option (Nat × Bool × Nat)
  deriving DecidableEq, Repr

/-- A cell for this device in a receive buffer (R339, R341), and the port it came on. -/
structure InCell where
  port : Nat
  cell : Cell
  holds : Option (Nat × Bool × Nat)
  deriving DecidableEq, Repr

/-- A span port (R335, R339, R345, R349). -/
structure CvPort where
  /-- Cells sent on the request and response lanes, and the CRQ and CRS values received, modulo 256. -/
  sentReq : Nat
  sentRsp : Nat
  ackReq : Nat
  ackRsp : Nat
  /-- Buffers of this receiver freed so far, modulo 256. -/
  freedReq : Nat
  freedRsp : Nat
  /-- Cells ready to leave, in the order they became ready. -/
  out : List OutCell
  /-- TB of the last cell sent, and of the last cell with a good header. -/
  lastTx : Nat
  lastGood : Nat
  /-- Neighbour ID and GEN before the link was lost (R335), and the neighbour's GEN. -/
  before : Option (Nat × Nat)
  nbrGen : Nat
  /-- The reservation Q (R345). -/
  resv : Nat
  /-- T1 of the outstanding SYNC REQ in 1/256 ns, and TB of the last valid exchange (R349, R350). -/
  t1 : Option Nat
  lastEx : Option Nat
  /-- TB of the last SYNC REQ sent. -/
  reqAt : Option Nat
  /-- T2 of a REQ received and not yet answered, with its T1 (R349). -/
  answer : Option (Nat × Nat)
  /-- T1 to T4 of an answered REQ (R349). -/
  rsp : Option (Nat × Nat × Nat × Nat)
  /-- A SYNC cell has been received since the link came up (R335). -/
  synced : Bool
  /-- The blocks of the cell last sent: whether control, and the payload (R334). -/
  sent : List (Bool × Dword)
  /-- The pass during which the link came up behind the walk, until the neighbour's first ENUM cell (R347). -/
  late : Option Nat
  deriving DecidableEq, Repr

def CvPort.init : CvPort := ⟨0, 0, 0, 0, 0, 0, [], 0, 0, none, 0, 0, none, none, none, none, none, false, [], none⟩

/-- A routing table (R342, R343): its GEN, the device's ID, and per port its role and DOWN range. -/
structure RouteTab where
  gen : Nat
  id : Nat
  depth : Nat
  roles : List Nat
  los : List Nat
  his : List Nat
  deriving DecidableEq, Repr

def RouteTab.init : RouteTab := ⟨0, 0, 0, [0, 0, 0, 0], [0, 0, 0, 0], [0, 0, 0, 0]⟩

/-- What an enumeration pass waits for on the port it walks (R345, R348). -/
inductive EnumWait where
  /-- Nothing: the next port is to be probed. -/
  | idle
  /-- A PROBE sent at a TB. -/
  | probe (at_ : Nat)
  /-- A TOKEN sent; TB of the last sign of life. -/
  | token (at_ : Nat)
  deriving DecidableEq, Repr

/-- An enumeration pass as this device takes part in it (R345). -/
structure EnumSt where
  tab : RouteTab
  /-- The number of the pass. -/
  no : Nat
  /-- The port the token came on; none at the root. -/
  parent : Option Nat
  /-- The port being walked, and what is waited for. -/
  port : Nat
  wait : EnumWait
  next : Nat
  /-- Devices numbered below and including this one. -/
  count : Nat
  clean : Bool
  renumber : Bool
  /-- The largest excess a descendant or this device reported (R351). -/
  excess : Nat
  /-- The token has been returned. -/
  done : Bool
  /-- TB of the last PROGRESS sent. -/
  progAt : Nat
  deriving DecidableEq, Repr

/-- A record being reassembled (R358): source, TAG, target stream, its bytes; ended before it was complete. -/
structure HoAsm where
  src : Nat
  tag : Nat
  stream : Nat
  bytes : List Byte
  ended : Bool
  deriving DecidableEq, Repr

structure CvnSt where
  regs : RegFile
  port : Tab CvPort
  cur : RouteTab
  /-- The table before the last commit and the TB until which it is kept (R343). -/
  prev : Option (RouteTab × Nat)
  /-- Overrides, newest first: range and port (R353). -/
  overrides : List (Nat × Nat × Nat)
  pass : Option EnumSt
  /-- Passes the root has started. -/
  passes : Nat
  /-- A committed pass: the switch instant, the jump of R351 and the new table. -/
  commit : Option (Nat × Nat × RouteTab)
  /-- At the root, TB of the last CHANGE that no pass has answered; a CHANGE this device owes (R344). -/
  change : Option Nat
  changeOwed : Bool
  /-- What the last 16 exchanges wrote as a rate (R350), newest first, and exchanges in succession within 2 ns. -/
  rates : List (Option Int)
  good : Nat
  /-- The last theta on UP, in ns (R351). -/
  theta : Int
  /-- TB at which the outstanding remote access was sent (R359). -/
  rmtAt : Option Nat
  /-- POS cells sent per encoder, and TB of the last (R354). -/
  posSeq : Tab Nat
  posAt : Tab Nat
  /-- The one pending event of the EVT export (R329, R356). -/
  evtWait : Option Cell
  /-- Cells for this device, oldest first, and the number of the next cell that takes a buffer (R339). -/
  inbox : List InCell
  rxNo : Nat
  /-- The handover TAG; records being reassembled; target streams of the records in the handover queue (R357, R358). -/
  hoTag : Nat
  asm : List HoAsm
  hoStreams : List Nat
  deriving DecidableEq, Repr

def CvnSt.init : CvnSt :=
  ⟨[], [], .init, none, [], none, 0, none, none, false, [], 0, 0, none, [], [], none, [], 0, 0, [], []⟩
/-! ## Power, Oasis, management bus (R361 to R389) -/

/-- A tile cluster or a port as the power manager sees it (R362 to R365): TB at which its exit started, whether
work arrived during it, TB at which its work ends, and the instant of its next known event as last computed. -/
structure PwrUnit where
  exitAt : Option Nat
  missed : Bool
  workEnd : Nat
  event : Option Nat
  /-- A rise of the cluster's operating point failed, and no target has been written since (R367). -/
  failed : Bool
  deriving DecidableEq, Repr

def PwrUnit.init : PwrUnit := ⟨none, false, 0, none, false⟩

/-- A change of an operating point (R368): cluster, target, and the step it stands at: 0 VCORE, 1 settle,
2 cluster regulator, 3 bypass and PLL. -/
structure OpChange where
  cl : Nat
  target : Nat
  rising : Bool
  step : Nat
  deriving DecidableEq, Repr

/-- A transfer of the I2C controller (R386 to R388): of PF0, an attention write, or a write of VCORE to the regulator
(R367). -/
inductive MgtKind where
  | pf0 | attn | vreg
  deriving DecidableEq, Repr

structure MgtJob where
  kind : MgtKind
  tries : Nat
  deriving DecidableEq, Repr

structure PwrSt where
  regs : RegFile
  unit : Tab PwrUnit
  /-- Trigger-to-LINE_START delays of a port's last 256 lines, newest first (R362). -/
  delays : Tab (List Nat)
  /-- Camera-side instants of the triggers sent on a port whose LINE_START is still to come, newest first (R362). -/
  awaited : Tab (List Nat)
  /-- The change of an operating point under way (R368). -/
  change : Option OpChange
  /-- VCORE in mV, and the level the controller's VCORE write sends (R367). -/
  vcore : Nat
  vcoreOut : Nat
  /-- A device-state command that runs (R371): target, RTC_KEEP, whether from the management bus. -/
  devCmd : Option (Nat × Bool × Bool)
  /-- Wake causes held during entry (R371), and TB at which an exit from STANDBY started (R372). -/
  wakeHeld : Nat
  exitAt : Option Nat
  /-- The Oasis: powering up or down (R376), and level changes on ENC0_A and ENC0_B (R374). -/
  goingUp : Bool
  goingDown : Bool
  motA : Nat
  motB : Nat
  /-- The core runs: neither PORST_N nor the Oasis holds it in reset (R373, R376). -/
  coreUp : Bool
  /-- VAON is on (R380). -/
  vaonUp : Bool
  /-- The registers of the Oasis counter hold the count of a stopped counter (R373, R375). -/
  rtcHeld : Bool
  /-- The management-bus window (R381): pointer, latch of a 4-byte group, and its bytes that are no register. -/
  ptr : Nat
  latch : Option (Nat × Word)
  attnStatus : Nat
  attnMask : Nat
  cmdStatus : Nat
  tj : Nat
  bootFail : Bool
  fwRuns : Bool
  /-- TB at which the firmware started, and 64-byte pieces of firmware received through the window (R378, R401). -/
  fwFrom : Nat
  fwPieces : Nat
  /-- In STANDBY: the window logic is awake (R383, R384). -/
  awake : Bool
  /-- Attention is owed (R385), and TB of the last attempt. -/
  attnOwed : Bool
  attnAt : Option Nat
  /-- The controller's running transfer, and PF0 transfers that wait (R386). -/
  job : Option MgtJob
  waiting : List MgtKind
  /-- What the controller sends in its latest transfer: the 7-bit address, then the bytes written (R385, R386). -/
  ctlOut : List Byte
  /-- Whether the target acknowledged the last match, and the bytes the last read returned; the model's own output. -/
  i2cAck : Bool
  i2cOut : List Byte
  deriving DecidableEq, Repr

def PwrSt.init : PwrSt :=
  ⟨[], [], [], [], none, 800, 800, none, 0, none, false, false, 0, 0, true, true, false, 0, none, 0, 0x1F, 0, 0, false, false, 0,
    0, false, false, none, none, [], [], true, []⟩

/-! ## Faults (R390 to R401) and test (R404, R405) -/

/-- The OVERFLOW record owed (R395). -/
structure Owed where
  count : Nat
  first : Nat
  last : Nat
  tb : Nat
  deriving DecidableEq, Repr

/-- A report (R391): its stamp, SEV, DOMAIN, CODE, INST and DETAIL. -/
structure FltRep where
  tb : Nat
  sev : Nat
  domain : Nat
  code : Nat
  inst : Nat
  detail : Nat
  deriving DecidableEq, Repr

/-- The reports of a cycle, in their order, with the fault block before and after them (R392). -/
structure FltCyc where
  tb : Nat
  reps : List FltRep
  regs : RegFile
  nextSeq : Word
  owed : Option Owed
  left : RegFile
  deriving DecidableEq, Repr

/-- The fault block: the log window, FLT_FIRST, FLT_FATAL and FLT_COAL are registers. -/
structure FltSt where
  regs : RegFile
  /-- The staging ring in the Erg reservation, oldest first, 8 words a record (R394). -/
  staging : List (List Word)
  /-- SEQ of the next record (R391). -/
  nextSeq : Word
  owed : Option Owed
  /-- The reports of the newest cycle that had one (R392). -/
  cyc : Option FltCyc
  /-- TB at which the host watchdog's period started (R401). -/
  wdogFrom : Nat
  /-- The host watchdog's period has expired, and no other has started (R401). -/
  wdogDone : Bool
  /-- TB of the last mirror interrupt (R394). -/
  mirInt : Option Nat
  /-- A mirror interrupt is owed: the last one was less than 10 us ago (R394). -/
  mirOwed : Bool
  /-- THERMAL_WARN may be reported: Tj has been 5 degrees below the maximum since (R390). -/
  warnArmed : Bool
  /-- MGMT_WDOG: TB at which the outputs were safe, until the warm reset (R400). -/
  wdogSafe : Option Nat
  deriving DecidableEq, Repr

def FltSt.init : FltSt := ⟨[], [], 0#32, none, none, 0, false, none, false, true, none⟩

/-- The instructions of the TAP (R404). -/
inductive TapInstr where
  | extest | samplePreload | clamp | highz | extestPulse | extestTrain | idcode | bypass
  deriving DecidableEq, Repr

/-- The TAP (R404 to R407). -/
structure TapSt where
  ir : Byte
  instr : TapInstr
  /-- The boundary register's cells that differ from 0, by place from TDI (R406). -/
  boundary : Tab Bool
  bypassBit : Bool
  /-- The data register IDCODE captures. -/
  idcode : Word
  /-- The pins are held from the boundary register or in high impedance (R405). -/
  pinsHeld : Bool
  highz : Bool
  /-- An 1149.6 pulse or train test is running (R407). -/
  acTest : Bool
  /-- PORST_N holds the core in cold reset with every supply up (R405). -/
  coreHeld : Bool
  /-- TEST_REJ to be reported once the core runs (R405). -/
  testRej : Bool
  deriving DecidableEq, Repr

def TapSt.init : TapSt := ⟨0xFE#8, .idcode, [], false, 0x3A4C1F2B#32, false, false, false, false, false⟩


/-! ## The machine -/

/-- What a counter has counted in the cycle at a TB (R21): its address, its value before, and the count. -/
structure Tally where
  tb : Nat
  notes : List (Nat × Word × Nat)
  deriving DecidableEq, Repr

def Tally.init : Tally := ⟨0, []⟩

/-- The state of Apnik. -/
structure State where
  /-- identity, timebase, access (R11 to R33) -/
  time : TimeSt
  /-- motion and triggers (R34 to R68) -/
  mot : MotSt
  /-- Dunelink and Caravan lanes (R69 to R99, R333) -/
  phy : PhySt
  /-- Dunelink packets (R100 to R130) -/
  lnk : LnkSt
  /-- pixel pipeline (R131 to R161) -/
  pix : PixSt
  /-- object extraction (R162 to R192) -/
  obj : ObjSt
  /-- verdicts and ejection (R193 to R216) -/
  ejt : EjtSt
  /-- illumination outputs (R217 to R224) -/
  pwm : PwmSt
  /-- sequencers and images (R225 to R250) -/
  seq : SeqSt
  /-- host link, mailbox, clients (R251 to R277) -/
  host : HostSt
  /-- DMA channels (R278 to R289) -/
  dma : DmaSt
  /-- Erg memory and queues (R292 to R314) -/
  erg : ErgSt
  /-- compression engines (R315 to R322) -/
  cmp : CmpSt
  /-- event channels and cells (R323 to R332) -/
  evt : EvtSt
  /-- Caravan (R333 to R360) -/
  cvn : CvnSt
  /-- power, Oasis, management bus (R361 to R389) -/
  pwr : PwrSt
  /-- fault log and watchdogs (R390 to R401) -/
  flt : FltSt
  /-- test access port (R404 to R407) -/
  tap : TapSt
  /-- The word the last register read returned (the model's own output, log 4). -/
  readData : Word
  /-- The data of that read is marked poisoned (R304, R307). -/
  readPoisoned : Bool
  /-- The counts of the present cycle (R21; the model's own field, log 146). -/
  tally : Tally
  /-- How many free values the run has drawn (the model's own field, log 2). -/
  free : Nat
  /-- Commands waiting, first in first out. -/
  pending : List Instr
  deriving DecidableEq, Repr

/-- The machine right after reset. -/
def State.reset : State where
  time := TimeSt.init
  mot := MotSt.init
  phy := PhySt.init
  lnk := LnkSt.init
  pix := PixSt.init
  obj := ObjSt.init
  ejt := EjtSt.init
  pwm := PwmSt.init
  seq := SeqSt.init
  host := HostSt.init
  dma := DmaSt.init
  erg := ErgSt.init
  cmp := CmpSt.init
  evt := EvtSt.init
  cvn := CvnSt.init
  pwr := PwrSt.init
  flt := FltSt.init
  tap := TapSt.init
  readData := 0#32
  readPoisoned := false
  tally := Tally.init
  free := 0
  pending := []

/-- The registers of a block. -/
def State.regs (s : State) : Blk → RegFile
  | .time => s.time.regs
  | .mot => s.mot.regs
  | .phy => s.phy.regs
  | .lnk => s.lnk.regs
  | .pix => s.pix.regs
  | .obj => s.obj.regs
  | .ejt => s.ejt.regs
  | .pwm => s.pwm.regs
  | .seq => s.seq.regs
  | .host => s.host.regs
  | .dma => s.dma.regs
  | .erg => s.erg.regs
  | .cmp => s.cmp.regs
  | .evt => s.evt.regs
  | .cvn => s.cvn.regs
  | .pwr => s.pwr.regs
  | .flt => s.flt.regs

/-- The state with a block's registers replaced. -/
def State.setRegs (s : State) (b : Blk) (r : RegFile) : State :=
  match b with
  | .time => { s with time := { s.time with regs := r } }
  | .mot => { s with mot := { s.mot with regs := r } }
  | .phy => { s with phy := { s.phy with regs := r } }
  | .lnk => { s with lnk := { s.lnk with regs := r } }
  | .pix => { s with pix := { s.pix with regs := r } }
  | .obj => { s with obj := { s.obj with regs := r } }
  | .ejt => { s with ejt := { s.ejt with regs := r } }
  | .pwm => { s with pwm := { s.pwm with regs := r } }
  | .seq => { s with seq := { s.seq with regs := r } }
  | .host => { s with host := { s.host with regs := r } }
  | .dma => { s with dma := { s.dma with regs := r } }
  | .erg => { s with erg := { s.erg with regs := r } }
  | .cmp => { s with cmp := { s.cmp with regs := r } }
  | .evt => { s with evt := { s.evt with regs := r } }
  | .cvn => { s with cvn := { s.cvn with regs := r } }
  | .pwr => { s with pwr := { s.pwr with regs := r } }
  | .flt => { s with flt := { s.flt with regs := r } }

end Sys2Proof.Machine
end

