-- ==== Sys2Proof/Machine/Ops.lean ====
section
/-! DEFINITION. The named operations over the state that every family uses: register access by block, free
values, publishing events (R323), counting, reporting faults (R390 to R396). -/
namespace Sys2Proof.Machine

/-- A register of a block. -/
def State.rd (s : State) (b : Blk) (a : Nat) : Word := rget (s.regs b) a

/-- Store a register of a block. -/
def State.wr (s : State) (b : Blk) (a : Nat) (v : Word) : State :=
  s.setRegs b (rset (s.regs b) a v)

/-- A field of a register. -/
def State.fld (s : State) (b : Blk) (a hi lo : Nat) : Nat := bits (s.rd b a) hi lo

/-- One bit of a register. -/
def State.flag (s : State) (b : Blk) (a i : Nat) : Bool := bit (s.rd b a) i

/-- Replace a field of a register. -/
def State.put (s : State) (b : Blk) (a hi lo x : Nat) : State :=
  s.setRegs b (wrBits (s.regs b) a hi lo x)

/-- Replace one bit of a register. -/
def State.setb (s : State) (b : Blk) (a i : Nat) (x : Bool) : State :=
  s.setRegs b (wrBit (s.regs b) a i x)

/-- What the counter at an address, which holds v, has counted in the cycle at TB now: its value before, and the count. -/
def Tally.at' (t : Tally) (now a : Nat) (v : Word) : Option (Word × Nat) :=
  if t.tb ≠ now then none
  else ((t.notes.find? (fun e => e.1 == a)).map (fun e => e.2)).filter (fun e => v == satAdd e.1 e.2)

/-- Note n more counts of a counter that holds v. -/
def Tally.add (t : Tally) (now a : Nat) (v : Word) (n : Nat) : Tally :=
  let e := (t.at' now a v).getD (v, 0)
  ⟨now, (a, e.1, e.2 + n) :: (if t.tb = now then t.notes.filter (fun x => x.1 != a) else [])⟩

/-- Count n in a counter register (R21). -/
def State.countBy (s : State) (b : Blk) (a n : Nat) : State :=
  { s.setRegs b (incBy (s.regs b) a n) with tally := s.tally.add s.time.tb a (rget (s.regs b) a) n }

/-- Count one in a counter register (R21). -/
def State.count (s : State) (b : Blk) (a : Nat) : State := s.countBy b a 1

/-- The register at an address is a counter (R21). -/
def isCounter (a : Nat) : Bool :=
  match regAt a with
  | some p => p.2.kind == .counter
  | none => false

/-- What a register has counted in this cycle, if it is a counter that has: its value before, and the count (R21). -/
def countedNow (s : State) (b : Blk) (a : Nat) : Option (Word × Nat) :=
  if isCounter a then s.tally.at' s.time.tb a (rget (s.regs b) a) else none

/-- A write to a register without behaviour of its own (R24, R36).  What a counter has counted in this cycle comes after
the write (R21). -/
def State.store (s : State) (b : Blk) (a : Nat) (v : Word) : State :=
  match countedNow s b a with
  | none => s.setRegs b (writeReg (s.regs b) a v)
  | some e => (s.setRegs b (writeReg (rset (s.regs b) a e.1) a v)).countBy b a e.2

/-- A 64-bit value in two registers. -/
def State.rd64 (s : State) (b : Blk) (aLo aHi : Nat) : Nat := join32 (s.rd b aLo) (s.rd b aHi)

/-- Store a 64-bit value in two registers. -/
def State.wr64 (s : State) (b : Blk) (aLo aHi x : Nat) : State :=
  (s.wr b aLo (lo32 x)).wr b aHi (hi32 x)

/-- Store a 48-bit value in two registers, the high half in bits 15..0. -/
def State.wr48 (s : State) (b : Blk) (aLo aHi x : Nat) : State :=
  (s.wr b aLo (lo32 x)).wr b aHi (BitVec.ofNat 32 (x / 2 ^ 32 % 2 ^ 16))

/-- TB now. -/
abbrev State.now (s : State) : Nat := s.time.tb

/-- A fresh free value (log 2). -/
def State.drawn (s : State) (w : Nat) : BitVec w := Config.freeValue w s.free

/-- The state after a free value was drawn. -/
def State.draw (s : State) : State := { s with free := s.free + 1 }

/-- Fold a change of state over a list. -/
def State.each {α : Type} (s : State) (l : List α) (f : State → α → State) : State := l.foldl f s

/-! ### Publishing (R323) -/

/-- Put an event on the way to a channel. -/
def State.pubOn (s : State) (order ch : Nat) (arg : Word) (stamp src : Nat) : State :=
  { s with evt := { s.evt with bus := s.evt.bus ++ [⟨order, ch, arg, stamp, src, s.time.tb / 2⟩] } }

/-- The route an event of a producer takes now: one written in this fabric cycle acts after it (R324). -/
def routeNow (s : State) (id : Nat) : Word :=
  let w := Tab.get (fun _ => (0, 0#32)) s.evt.routeWas id
  if w.1 = s.now / 2 + 1 then w.2 else s.rd .evt (EVT_PROD id)

/-- An event of a hardware producer: it goes to the channel its route names while EN is 1 (R323). -/
def State.publishAt (s : State) (id : Nat) (arg : Word) (stamp : Nat) : State :=
  let r := routeNow s id
  if bit r 31 then s.pubOn id (bits r 7 0) arg stamp id else s

/-- An event of a hardware producer, stamped now. -/
def State.publish (s : State) (id : Nat) (arg : Word) : State := s.publishAt id arg s.now

/-! ### Fault reports (R390 to R396) -/

/-- An error record's eight words (R391). -/
def faultRecord (kind sev domain code inst : Nat) (seq : Word) (count tb detail : Nat) : List Word :=
  [BitVec.ofNat 32 (kind + sev * 2 ^ 8 + domain * 2 ^ 16), BitVec.ofNat 32 (code + inst * 2 ^ 16),
    seq, BitVec.ofNat 32 count, lo32 tb, hi32 tb, lo32 detail, hi32 detail]

/-- Store a list of words at consecutive registers. -/
def State.wrList (s : State) (b : Blk) (a : Nat) : List Word → State
  | [] => s
  | w :: ws => (s.wr b a w).wrList b (a + 4) ws

/-- Records the log holds: PROD minus CONS, free-running (R393). -/
def logUsed (r : RegFile) : Nat := (rget r FLT_LOG_PROD - rget r FLT_LOG_CONS).toNat

/-- Slots of the log that are free (R393). -/
def logFree (r : RegFile) : Nat := 256 - logUsed r

/-- LOG_FULL and COALESCING as they stand (R398). -/
def State.fltFlags (s : State) : State :=
  (s.setb .flt FLT_STATUS 29 (decide (logFree s.flt.regs < 2))).setb .flt FLT_STATUS 28 s.flt.owed.isSome

/-- Append a record to the log ring (R393). -/
def State.logAppend (s : State) (rec : List Word) : State :=
  let p := s.rd .flt FLT_LOG_PROD
  let s := s.wrList .flt (FLT_LOG (p.toNat % 256 * 8)) rec
  let s := s.wr .flt FLT_LOG_PROD (p + 1#32)
  { s with flt := { s.flt with nextSeq := s.flt.nextSeq + 1#32 } }

/-- Append the OVERFLOW record owed once 2 slots are free (R395). -/
def State.logOverflow (s : State) : State :=
  match s.flt.owed with
  | none => s
  | some o =>
    if logFree s.flt.regs < 2 then s
    else
      let s := s.logAppend (faultRecord 2 0 0 0 0 s.flt.nextSeq (capNat 0xFFFFFFFF o.count) o.tb
        (o.first + o.last * 2 ^ 16))
      { s with flt := { s.flt with owed := none } }

/-- One report (R390 to R396): capture, then log or coalesce. -/
def State.reportOne (s : State) (e : FltRep) : State :=
  let s := s.logOverflow
  let fits := decide (2 ≤ logFree s.flt.regs)
  let r := faultRecord 1 e.sev e.domain e.code e.inst s.flt.nextSeq 0 e.tb e.detail
  let s := if s.flag .flt FLT_STATUS 30 then s
    else (s.wrList .flt (FLT_FIRST 0) r).setb .flt FLT_STATUS 30 true
  let s := if e.sev = 2 && !s.flag .flt FLT_STATUS 31 then
      (s.wrList .flt (FLT_FATAL 0) r).setb .flt FLT_STATUS 31 true
    else s
  let s := if fits then s.logAppend r
    else
      let o : Owed := match s.flt.owed with
        | none => ⟨1, e.code, e.code, e.tb⟩
        | some o => { o with count := o.count + 1, last := e.code }
      let s := (s.count .flt (FLT_COAL e.code)).count .flt FLT_NOT_LOGGED
      { s with flt := { s.flt with owed := some o } }
  s.fltFlags

/-- The order of reports in a cycle: fatal before contained, then DOMAIN, then INST (R392). -/
def FltRep.before (a b : FltRep) : Bool :=
  decide (b.sev < a.sev ∨ a.sev = b.sev ∧ (a.domain < b.domain ∨ a.domain = b.domain ∧ a.inst < b.inst))

/-- A report takes its place among those of its cycle, behind its equals (R392). -/
def insertRep (e : FltRep) : List FltRep → List FltRep
  | [] => [e]
  | x :: xs => if e.before x then e :: x :: xs else x :: insertRep e xs

/-- The reports of this cycle (R392). -/
def cycleNow (s : State) : FltCyc :=
  let new : FltCyc := ⟨s.now, [], s.flt.regs, s.flt.nextSeq, s.flt.owed, s.flt.regs⟩
  match s.flt.cyc with
  | some c => if c.tb = s.now ∧ c.left = s.flt.regs then c else new
  | none => new

/-- Change the fault block as it was before the reports of this cycle, then let these reports act in their order
(R392). -/
def State.inCycle (s : State) (reps : List FltRep) (f : State → State) : State :=
  let c := cycleNow s
  let s := f { s with flt := { s.flt with regs := c.regs, nextSeq := c.nextSeq, owed := c.owed } }
  let base := s.flt
  let s := s.each reps State.reportOne
  { s with flt := { s.flt with cyc := some ⟨c.tb, reps, base.regs, base.nextSeq, base.owed, s.flt.regs⟩ } }

/-- A change of the fault block that is no report: it comes before the reports of its cycle (R392, R396; log 131). -/
def State.fltDo (s : State) (f : State → State) : State :=
  if (cycleNow s).reps.isEmpty then f s else s.inCycle (cycleNow s).reps f

/-- Report a fault at an instant (R390 to R396), in its place among the reports of this cycle (R392). -/
def State.reportAt (s : State) (tb sev domain code inst detail : Nat) : State :=
  s.inCycle (insertRep ⟨tb, sev, domain, code, inst, detail⟩ (cycleNow s).reps) id

/-- Report a contained fault now (R390). -/
def State.contained (s : State) (domain code inst detail : Nat) : State :=
  s.reportAt s.now 1 domain code inst detail

end Sys2Proof.Machine
end

