-- ==== Sys2Proof/Machine/Cross.lean ====
section
/-! DEFINITION. Effects one block has on another that several families share. -/
namespace Sys2Proof.Machine

/-- Outputs act: the device is in RUN (R215, R224, R380, R399). -/
def State.outputsOn (s : State) : Bool := decide (s.fld .pwr PWR_STATUS 31 28 = 1)

/-- An ejection of a record that R210 can cancel: not started, with a deadline, on this source. -/
def VRec.cancellable (v : VRec) (m : Nat) : Bool :=
  v.msrc == m && !v.started && !v.cancelled && v.deadline.isSome

/-- Cancel ejections of a motion source not yet started (R210); one that is not settled yet is counted
when its settlement would have ejected. -/
def State.cancelEjections (s : State) (m : Nat) : State :=
  let n := (s.ejt.recs.filter (fun v => v.cancellable m && v.valves.isSome)).length
  let recs := s.ejt.recs.map (fun v => if v.cancellable m then { v with cancelled := true } else v)
  let s : State := { s with ejt := { s.ejt with recs := recs } }
  if n = 0 then s else s.countBy .ejt EJT_CNT_CANCELLED n

end Sys2Proof.Machine
end

