-- ==== Sys2Proof/Machine/Source.lean ====
section
/-! DEFINITION. Motion sources (R55 to R57, R425): their inputs, switching, holdover and recovery, and the skip
rule of the generators that read them (R60). -/
namespace Sys2Proof.Machine

/-- An encoder port's hidden state. -/
def State.enc (s : State) (n : Nat) : EncSt := Tab.get (fun _ => EncSt.init) s.mot.enc n

def State.setEnc (s : State) (n : Nat) (e : EncSt) : State :=
  { s with mot := { s.mot with enc := Tab.set (fun _ => EncSt.init) s.mot.enc n e } }

/-- A motion source's hidden state. -/
def State.ms (s : State) (m : Nat) : MsSt := Tab.get (fun _ => MsSt.init) s.mot.ms m

def State.setMs (s : State) (m : Nat) (x : MsSt) : State :=
  { s with mot := { s.mot with ms := Tab.set (fun _ => MsSt.init) s.mot.ms m x } }

/-- A generator's hidden state. -/
def State.gen (s : State) (g : Nat) : GenSt := Tab.get (fun _ => GenSt.init) s.mot.gen g

def State.setGen (s : State) (g : Nat) (x : GenSt) : State :=
  { s with mot := { s.mot with gen := Tab.set (fun _ => GenSt.init) s.mot.gen g x } }

/-- A whole count as a target with fraction (R59). -/
def posFix (p : Pos) : Fix := BitVec.ofNat 80 (p.toNat * 2 ^ 32)

/-- The whole count of a position with fraction. -/
def fixPos (x : Fix) : Pos := BitVec.ofNat 48 (x.toNat / 2 ^ 32)

/-- Distance moved in dt_ps picoseconds at a Q24.8 speed, in 2^-32 counts. -/
def moved (speed dtPs : Int) : Int := (speed * dtPs * 2 ^ 32) / (256 * 1000000000000)

/-- What a motion input shows: validity, a base position and the TB it is of, speed (Q24.8),
state, direction, how far it may be extrapolated, and the delay of its filter (R65). -/
structure View where
  valid : Bool
  pos : Fix
  tb : Nat
  speed : Int
  state : Nat
  dec : Bool
  /-- The position moves between samples: SSI words, span cells, holdover (R53, R355, R57). -/
  linear : Bool
  /-- Limit of the extrapolation in ns. -/
  limit : Nat
  filt : Nat
  holdover : Bool
  deriving DecidableEq, Repr

def View.none : View := ⟨false, 0#80, 0, 0, 0, false, false, 0, 0, false⟩

/-- A view's position at an instant in ps; a sample of a later TB is moved back by the same formula (R355). -/
def View.posAt (v : View) (ps : Nat) : Fix :=
  if v.linear then
    v.pos + BitVec.ofInt 80 (moved v.speed (min ((ps : Int) - v.tb * 1000) (v.limit * 1000)))
  else v.pos

/-- A local encoder port as a motion input: valid while LOST is 0 (R43, R56).  DESIGN CHOICE (log 122): in MODE SSI before
the first good word the latch it extrapolates from is that of the words before, or zero (R53). -/
def encView (s : State) (n : Nat) : View :=
  let e := s.enc n
  let st := s.rd .mot (ENC_STATUS n)
  let ctrl := s.rd .mot (ENC_CTRL n)
  let ssi := bits ctrl 31 30 = 2
  { valid := !bit st 3
    pos := posFix e.pos
    tb := if ssi then e.ssiStamp else match e.run with | (t, _) :: _ => t | [] => s.now
    speed := (s.rd .mot (ENC_SPEED n)).toInt
    state := bits st 1 0
    dec := bit st 2
    linear := ssi
    limit := (s.rd .mot (ENC_SSI_PERIOD n)).toNat
    filt := if ssi then 0 else bits ctrl 11 6
    holdover := false }

/-- The key of a span input: device and port (R55). -/
def spanKey (v : Word) : Nat := bits v 26 15 * 8 + bits v 2 0

/-- A span input: valid while good cells arrive and its LOST bit is 0 (R355).  DESIGN CHOICE (log 123): the delay of R65 of an
SSI or span input is 96 ns. -/
def spanView (s : State) (v : Word) : View :=
  let x := Tab.get (fun _ => SpanIn.init) s.mot.span (spanKey v)
  { valid := x.valid && !x.lost
    pos := posFix x.pos
    tb := x.tb
    speed := x.speed
    state := x.state
    dec := x.dec
    linear := true
    limit := 4 * x.period * 1000
    filt := 0
    holdover := false }

/-- The input a register of a motion source names (R55): none while EN is 0. -/
def inputView (s : State) (v : Word) : View :=
  if !bit v 31 then .none
  else if bit v 30 then spanView s v
  else encView s (bits v 2 0)

def primView (s : State) (m : Nat) : View := inputView s (s.rd .mot (ENC_MS_PRIM m))
def secView (s : State) (m : Nat) : View := inputView s (s.rd .mot (ENC_MS_SEC m))

/-- A motion source as its users read it (R56, R57). -/
def sourceView (s : State) (m : Nat) : View :=
  let x := s.ms m
  match x.hold with
  | some h => ⟨true, h.pos, h.start, h.speed, 2, decide (h.speed < 0), true, h.ends - h.start, h.filt, true⟩
  | none =>
    match x.inUse with
    | some false => primView s m
    | some true =>
      let v := secView s m
      { v with pos := v.pos + posFix x.inOff }
    | none => { View.none with pos := x.frozen, tb := s.now }

/-- A motion source's position now. -/
def sourcePos (s : State) (m : Nat) : Fix := (sourceView s m).posAt (s.now * 1000)

/-! ### Generators in the position modes: the skip rule (R60) -/

/-- Whether a generator runs in DIVIDER or LIST mode on a source. -/
def genOn (s : State) (g m : Nat) : Bool :=
  let c := s.rd .mot (TRG_CTRL g)
  bit c 31 && decide (bits c 30 28 ≤ 1) && bits c 27 25 == m

/-- The entries a generator advances by, in 2^-32 counts: one in DIVIDER mode, the list in use in
LIST mode (R58, R59). -/
def genIncs (s : State) (g : Nat) : List Nat :=
  if s.fld .mot (TRG_CTRL g) 30 28 = 0 then
    [(s.rd .mot (TRG_DIV_INT g)).toNat * 2 ^ 32 + (s.rd .mot (TRG_DIV_FRAC g)).toNat]
  else (List.range (s.fld .mot (TRG_LIST_LEN g) 8 0)).map
    (fun i => (s.rd .mot (TRG_LIST (g * 256 + i))).toNat * 2 ^ 24)

/-- ZERO_ADV: every advance in use is 0 (R59). -/
def genZero (s : State) (g : Nat) : Bool := (genIncs s g).all (· == 0)

/-- How far a position is past a target in the generator's direction; negative: not passed (R59). -/
def past (dec : Bool) (p target : Fix) : Int := if dec then (target - p).toInt else (p - target).toInt

/-- A target moved on by an amount in the direction of travel (R59). -/
def ahead (dec : Bool) (t : Fix) (n : Nat) : Fix :=
  if dec then t - BitVec.ofNat 80 n else t + BitVec.ofNat 80 n

/-- Advance through list entries while the distance is not used up: entries passed and their sum.
Fuel bounds the walk. -/
def passedIn : Nat → List Nat → Nat → Nat → Nat × Nat × Nat
  | 0, _, i, sum => (0, i, sum)
  | f + 1, incs, i, d =>
    let x := atD incs (i % incs.length) 0
    if d < x then (1, (i + 1) % incs.length, x)
    else
      let r := passedIn f incs ((i + 1) % incs.length) (d - x)
      (r.1 + 1, r.2.1, r.2.2 + x)

/-- Targets passed when a position is `d` past the target in force, the entry index after them, and
how far the target moves (R60). -/
def skipCount (incs : List Nat) (i d : Nat) : Nat × Nat × Nat :=
  let total := incs.sum
  let q := d / total
  let r := passedIn (2 * incs.length + 1) incs i (d % total)
  (q * incs.length + r.1, r.2.1, q * total + r.2.2)

/-- Skip the targets a generator's position has already passed: none is triggered (R60). -/
def State.skipGen (s : State) (g : Nat) : State :=
  let c := s.rd .mot (TRG_CTRL g)
  let x := s.gen g
  let d := past (bit c 24) (sourcePos s (bits c 27 25)) x.next
  if genZero s g || d < 0 then s
  else
    let r := skipCount (genIncs s g) x.listIdx d.toNat
    (s.setGen g { x with next := ahead (bit c 24) x.next r.2.2, listIdx := r.2.1 }).countBy .mot
      (TRG_CNT_SKIP g) r.1

/-- The skip rule for every generator on a source whose position jumped (R60). -/
def State.skipSource (s : State) (m : Nat) : State :=
  s.each (idxs 96 (fun g => genOn s g m)) State.skipGen

/-! ### The emulated output (R54) -/

/-- Counts the emulated output of a port has not shown yet: one transition each 25 ns. -/
def MsSt.emuLeft (x : MsSt) (now : Nat) : Int :=
  let left : Nat := x.emuLag.natAbs - (if now < x.emuAt then 0 else (now - x.emuAt) / 25 + 1)
  if x.emuLag < 0 then -(left : Int) else left

/-- The source moved by whole counts: the emulated output follows at no more than 40 M counts/s (R54). -/
def MsSt.emuShift (x : MsSt) (now : Nat) (d : Int) : MsSt :=
  let left := x.emuLeft now
  let next := x.emuAt + 25 * (x.emuLag.natAbs - left.natAbs)
  { x with emuLag := left + d, emuAt := if left = 0 then max now next else next }

/-- Every source whose position differs from that before the command moves its emulated output. -/
def State.emuAll (s before : State) : State :=
  s.each (List.range 8) (fun s m =>
    let d := (fixPos (sourcePos s m) - fixPos (sourcePos before m)).toInt
    if d = 0 then s else s.setMs m ((s.ms m).emuShift s.now d))

/-! ### Switching, holdover and recovery (R56, R57) -/

/-- End of holdover: STANDSTILL, LOST, MS_HOLD_END; ejections not started are cancelled (R57, R210). -/
def State.msEnd (s : State) (m : Nat) (pos : Fix) : State :=
  let s := s.setMs m { s.ms m with inUse := none, hold := none, frozen := pos, lost := true }
  (s.publish (0x1A0 + 2 * m + 1) 0#32).cancelEjections m

/-- Take an input, the secondary with the offset last tracked; extrapolation stops; the position may jump (R56, R57,
R60). -/
def State.msTake (s : State) (m : Nat) (sec switch : Bool) : State :=
  let s := s.setMs m { s.ms m with
    inUse := some sec, inOff := (s.ms m).offset.getD 0#48, hold := none, lost := false }
  let s := if switch then s.publish (0x1A0 + 2 * m) 0#32 else s
  s.skipSource m

/-- Where holdover extrapolates from: the view's last sample, while its own extrapolation reaches (R57, R65). -/
def View.holdFrom (v : View) (now : Nat) : Nat × Fix :=
  if !v.linear || decide (now ≤ v.tb + v.limit) then (v.tb, v.pos) else (now, v.posAt (now * 1000))

/-- The source lost its input: holdover from the view before the loss, or the end at once (R57). -/
def State.msLose (s : State) (m : Nat) (before : View) : State :=
  let h := s.rd .mot (ENC_MS_HOLD m)
  let p := before.posAt (s.now * 1000)
  if bit h 30 && before.state == 2 then
    let b := before.holdFrom s.now
    s.setMs m { s.ms m with
      inUse := none
      hold := some ⟨b.1, b.2, before.speed, s.now + bits h 7 0 * 1000000, before.filt⟩ }
  else s.msEnd m p

/-- Judge a source's inputs again; `before` is the source as it read before the change (R56, R57).  DESIGN CHOICE (log 125):
a REVERT written while the primary is valid acts here, not at the write (R55). -/
def State.msEval (s : State) (m : Nat) (before : View) : State :=
  let vp := (primView s m).valid
  let vs := (secView s m).valid
  match (s.ms m).inUse with
  | some false => if vp then s else if vs then s.msTake m true true else s.msLose m before
  | some true =>
    if vp && (!vs || s.flag .mot (ENC_MS_HOLD m) 31) then s.msTake m false true
    else if vs then s else s.msLose m before
  | none => if vp then s.msTake m false false else if vs then s.msTake m true false else s

/-- Judge every source again after an input may have changed. -/
def State.msEvalAll (s : State) (before : State) : State :=
  s.each (List.range 8) (fun s m => s.msEval m (sourceView before m))

/-- The sources that read local port n, for which a load of its position is a jump (R46, R60). -/
def usesPort (s : State) (m n : Nat) : Bool :=
  let use := fun (v : Word) => bit v 31 && !bit v 30 && bits v 2 0 == n
  match (s.ms m).inUse with
  | some false => use (s.rd .mot (ENC_MS_PRIM m))
  | some true => use (s.rd .mot (ENC_MS_SEC m))
  | none => false

/-- The port's position jumped: the skip rule on every source that reads it (R46, R60). -/
def State.portJump (s : State) (n : Nat) : State :=
  s.each (idxs 8 (fun m => usesPort s m n)) State.skipSource

/-- Record the offset while both inputs are valid (R56). -/
def State.msTrack (s : State) (m : Nat) : State :=
  let p := primView s m
  let q := secView s m
  if p.valid && q.valid then
    s.setMs m { s.ms m with
      offset := some (fixPos (p.posAt (s.now * 1000) - q.posAt (s.now * 1000))) }
  else s

/-- MS_OFFSET_TRACK (R56): every 1 us, at the instants of R423. -/
def execMsOffsetTrack (m : Fin 8) (s : State) : Host.Outcome State Fault Refusal :=
  .next (if s.now % 1000 = 0 then s.msTrack m else s)

/-- The input a register names: none while EN is 0, else SPAN, PORT and, of a span input, DEV (R55). -/
def inputNamed (v : Word) : Option (Bool × Nat × Nat) :=
  if bit v 31 then some (bit v 30, bits v 2 0, if bit v 30 then bits v 26 15 else 0) else none

/-- Whether a write to ENC_MS_PRIM or ENC_MS_SEC clears EN or changes the input named (R425). -/
def msChanges (old v : Word) : Bool := inputNamed old != inputNamed v

/-- A write to ENC_MS_PRIM or ENC_MS_SEC (R425). -/
def State.msInputWrite (s : State) (m : Nat) (sec : Bool) (v : Word) : State :=
  let a := if sec then ENC_MS_SEC m else ENC_MS_PRIM m
  let old := s.rd .mot a
  if !msChanges old v then s.store .mot a v
  else
    let before := sourceView s m
    -- the input named before the write is lost at once, if it was in use
    let s := if (s.ms m).inUse = some sec then (s.wr .mot a (putBit old 31 false)).msEval m before else s
    let s := s.store .mot a v
    let s := s.setMs m { s.ms m with offset := none }
    s.msEval m (sourceView s m)

/-- MS_INPUT_WRITE (R425). -/
def execMsInputWrite (m : Fin 8) (sec : Bool) (v : Word) (s : State) : Host.Outcome State Fault Refusal :=
  .next ((s.msInputWrite m sec v).emuAll s)

/-- MS_HOLD_END (R57): due when HOLD_MAX has expired. -/
def execMsHoldEnd (m : Fin 8) (s : State) : Host.Outcome State Fault Refusal :=
  .next (match (s.ms m).hold with
    | some h => if h.ends ≤ s.now then (s.msEnd m ((sourceView s m).posAt (h.ends * 1000))).emuAll s else s
    | none => s)

end Sys2Proof.Machine
end

