-- ==== Sys2Proof/Machine/Encoder.lean ====
section
/-! DEFINITION. Encoder ports (R35 to R54, R424): quadrature decoding, index, speed and its state machine, SSI
words, snapshots and loads. -/
namespace Sys2Proof.Machine

/-- Change the hidden state of an encoder port. -/
def State.onEnc (s : State) (n : Nat) (f : EncSt → EncSt) : State := s.setEnc n (f (s.enc n))

/-- MODE of ENC_CTRL (R36): 0 OFF, 1 QUAD, 2 SSI. -/
def encMode (s : State) (n : Nat) : Nat := s.fld .mot (ENC_CTRL n) 31 30

/-- The place of AB in the counting order 00, 01, 11, 10 (R37). -/
def grayPlace (a b : Bool) : Nat := if a then (if b then 2 else 3) else (if b then 1 else 0)

/-- What a change of AB means by the table of R37. -/
inductive Step where
  | none | plus | minus | illegal
  deriving DecidableEq, Repr

/-- The table of R37. -/
def decodeStep (a b a' b' : Bool) : Step :=
  match (grayPlace a' b' + 4 - grayPlace a b) % 4 with
  | 0 => .none
  | 1 => .plus
  | 3 => .minus
  | _ => .illegal

/-- Publish a change of an encoder port (R323): k = 0 WRAP, 1 state, 2 index, 3 LOST. -/
def State.encEvent (s : State) (n k : Nat) (arg : Word) : State := s.publish (0x180 + 4 * n + k) arg

/-- Put STATE and DIR; a change of state is published (R49). -/
def State.putEncState (s : State) (n st : Nat) (dec : Bool) : State :=
  let old := s.fld .mot (ENC_STATUS n) 1 0
  let s := (s.put .mot (ENC_STATUS n) 1 0 st).setb .mot (ENC_STATUS n) 2 dec
  if old = st then s else s.encEvent n 1 (BitVec.ofNat 32 (st + 4 * b2n dec))

/-- DIR of ENC_STATUS. -/
def encDir (s : State) (n : Nat) : Bool := s.flag .mot (ENC_STATUS n) 2

/-! ### Speed (R47, R48) -/

/-- Intervals a speed averages over: 2^AVG, AVG 0 and 1 acting as 2 (R36). -/
def avgIntervals (ctrl : Word) : Nat := 2 ^ (max 2 (bits ctrl 23 21))

/-- Counts times 10^9 and the time they took, over the newest M intervals of the run (R48). -/
def measured (run : List (Nat × Nat)) (avg : Nat) : Option (Nat × Nat) :=
  let m := min avg (run.length - 1)
  match run, run[m]? with
  | (t, _) :: _, some (t0, _) =>
    if m = 0 then none else some (((run.take m).map (fun e => e.2)).sum * 1000000000, t - t0)
  | _, _ => none

/-- The larger-is-slower comparison of two speeds given as quotients; a zero time is unbounded. -/
def slower (a b : Nat × Nat) : Nat × Nat := if a.1 * b.2 ≤ b.1 * a.2 then a else b

/-- The reported magnitude in 1/256 count/s: the smaller of the measured speed and 10^9 over the time
since the last transition (R48), rounded to nearest, ties away from zero (R47). -/
def speedMag (run : List (Nat × Nat)) (avg now : Nat) : Nat :=
  match run, measured run avg with
  | (t, _) :: _, some q =>
    let r := slower q (1000000000, now - t)
    if r.2 = 0 then 0x7FFFFFFF + 1 else divRound (r.1 * 256) r.2
  | _, _ => 0

/-- Recompute ENC_SPEED (R47, R48): 0 except in VALID; saturation sets SPEED_SAT. -/
def State.encSpeed (s : State) (n : Nat) : State :=
  if s.fld .mot (ENC_STATUS n) 1 0 = 2 then
    let m := speedMag (s.enc n).run (avgIntervals (s.rd .mot (ENC_CTRL n))) s.now
    let v : Int := if encDir s n then -((capNat 0x7FFFFFFF m : Nat) : Int) else (capNat 0x7FFFFFFF m : Nat)
    let s := s.wr .mot (ENC_SPEED n) (BitVec.ofInt 32 v)
    if 0x7FFFFFFF < m then s.setb .mot (ENC_STATUS n) 12 true else s
  else s.wr .mot (ENC_SPEED n) 0#32

/-! ### LOST (R43) -/

/-- Set LOST: the state goes to STANDSTILL, speed reads 0, the sources judge their inputs (R43, R56).  DESIGN CHOICE
(log 124): this change of state is published too (R49). -/
def State.encLost (s : State) (n : Nat) : State :=
  if s.flag .mot (ENC_STATUS n) 3 then s
  else
    let before := s
    let s := (s.setb .mot (ENC_STATUS n) 3 true).encEvent n 3 1#32
    let s := (s.putEncState n 0 (encDir s n)).onEnc n (fun e => { e with run := [] })
    (s.encSpeed n).msEvalAll before

/-- Clear LOST: the state goes to STARTING with no transition recorded (R43, R49). -/
def State.encFound (s : State) (n : Nat) : State :=
  if s.flag .mot (ENC_STATUS n) 3 then
    let before := s
    let s := (s.setb .mot (ENC_STATUS n) 3 false).encEvent n 3 0#32
    let s := (s.onEnc n (fun e => { e with run := [] })).putEncState n 1 (encDir s n)
    s.msEvalAll before
  else s

/-! ### Counting (R44, R49) -/

/-- Whether adding a signed count to a position wraps (R44). -/
def wraps (p : Pos) (d : Int) : Bool := decide ((p + BitVec.ofInt 48 d).toInt ≠ p.toInt + d)

/-- Add a signed count to the position; a wrap sets WRAP and is published (R44). -/
def State.encAdd (s : State) (n : Nat) (d : Int) : State :=
  let p := (s.enc n).pos
  let s' := s.onEnc n (fun e => { e with pos := p + BitVec.ofInt 48 d })
  if wraps p d then (s'.setb .mot (ENC_STATUS n) 7 true).encEvent n 0 0#32 else s'

/-- The run after a step of c counts at TB t: a step the other way starts a new run (R48). -/
def pushRun (e : EncSt) (dec : Bool) (t c : Nat) : EncSt :=
  if e.run ≠ [] ∧ e.runDec = dec then { e with run := ((t, c) :: e.run).take 129 }
  else { e with run := [(t, c)], runDec := dec }

/-- One step of the state machine of R49 for a count that moved the position from p to q.  DESIGN CHOICE (log 80): a
load of the position in REVERSING leaves the turning point P_t as it is. -/
def State.encStep (s : State) (n : Nat) (dec : Bool) (p q : Pos) (second : Bool) : State :=
  let dir := encDir s n
  match s.fld .mot (ENC_STATUS n) 1 0 with
  | 0 => s.putEncState n 1 dir
  | 1 => if second then s.putEncState n 2 dec else s
  | 2 =>
    if dec = dir then s
    else (s.onEnc n (fun e => { e with turn := p })).putEncState n 3 dir
  | _ =>
    let d : Int := if dir then -1 else 1
    let turn := (s.enc n).turn
    if q = turn - BitVec.ofInt 48 (2 * d) then s.putEncState n 2 (!dir)
    else if q = turn + BitVec.ofInt 48 d then s.putEncState n 2 dir
    else s

/-- A legal step of one count accepted at TB t (R37, R44, R48, R49). -/
def State.encCount (s : State) (n : Nat) (dec : Bool) (t : Nat) : State :=
  let d : Int := if dec then -1 else 1
  let p := (s.enc n).pos
  let s := s.encAdd n d
  let q := (s.enc n).pos
  let s := s.onEnc n (fun e => { e with lastLegal := some t, winLegal := e.winLegal + 1 })
  -- Z held active across more than 4 counts (R41)
  let active := (s.enc n).z != s.flag .mot (ENC_CTRL n) 24
  let s := if active then s.onEnc n (fun e => { e with zRun := e.zRun + 1 }) else s
  let s := if active && decide (4 < (s.enc n).zRun) then s.setb .mot (ENC_STATUS n) 5 true else s
  if s.flag .mot (ENC_STATUS n) 3 then s
  else
    let same := (s.enc n).run ≠ [] ∧ (s.enc n).runDec = dec
    let s := s.onEnc n (fun e => pushRun e dec t 1)
    (s.encStep n dec p q (decide same)).encSpeed n

/-- An illegal transition (R38, R43). -/
def State.encIllegal (s : State) (n : Nat) : State :=
  let s := (s.setb .mot (ENC_STATUS n) 8 true).count .mot (ENC_CNT_ILLEGAL n)
  let s := s.onEnc n (fun e => { e with winIllegal := e.winIllegal + 1 })
  if 8 ≤ (s.enc n).winIllegal then s.encLost n else s

/-- A accepted change of the filtered levels of A and B at TB t (R37 to R39, R42). -/
def State.encTransition (s : State) (n : Nat) (a b : Bool) (t : Nat) : State :=
  let e := s.enc n
  let ctrl := s.rd .mot (ENC_CTRL n)
  let a' := if bit ctrl 28 then b else a
  let b' := if bit ctrl 28 then a else b
  let s := s.onEnc n (fun e => { e with
    a := a, b := b, refA := a', refB := b', lastAcc := some t, idxNoAB := false,
    winAcc := (e.winAcc.1 + b2n (e.a != a), e.winAcc.2.1 + b2n (e.b != b), e.winAcc.2.2) })
  let s := s.setb .mot (ENC_STATUS n) 4 false
  let fast := match e.lastAcc with
    | some u => decide (t < u + 25)
    | none => false
  let s := if fast then (s.setb .mot (ENC_STATUS n) 9 true).count .mot (ENC_CNT_OVERSPEED n) else s
  match decodeStep e.refA e.refB a' b' with
  | .none => s
  | .plus => s.encCount n (bit ctrl 29) t
  | .minus => s.encCount n (!bit ctrl 29) t
  | .illegal => s.encIllegal n

/-! ### Fixed windows of 1 ms (R40, R43, R423) -/

/-- The start of a new window; it is whole if decoding runs throughout it. -/
def EncSt.newWindow (e : EncSt) (w : Nat) : EncSt :=
  { e with winId := w, winWhole := true, winIllegal := 0, winLegal := 0, winRaw := (0, 0, 0),
           winAcc := (0, 0, 0), winNoise := false }

/-- Whether the window that ends clears LOST: whole, no illegal transition, no NOISE, some legal
transition, and no condition of R43 that still stands. -/
def clearsLost (s : State) (n : Nat) : Bool :=
  let e := s.enc n
  e.winWhole && e.winIllegal == 0 && !e.winNoise && decide (0 < e.winLegal) &&
    !s.flag .mot (ENC_STATUS n) 4 && encMode s n != 0

/-- The window counted has ended: it is judged, and what comes now counts in the window of this TB. -/
def State.encRoll (s : State) (n : Nat) : State :=
  if (s.enc n).winId < s.now / 1000000 then
    (if clearsLost s n then s.encFound n else s).onEnc n (fun e => e.newWindow (s.now / 1000000))
  else s

/-- ENC_WINDOW_END (R43, R423): due once TB has left the window counted. -/
def execEncWindowEnd (n : Fin 8) (s : State) : Host.Outcome State Fault Refusal := .next ((s.encRoll n).emuAll s)

/-! ### The input filters (R37) -/

/-- A pin whose raw level, shown since a TB, differs from the accepted one: that TB, once N = F + 1 samples have shown
the level. -/
def filtered (acc raw : Bool) (since f now : Nat) : Option Nat :=
  if acc ≠ raw ∧ since + 5 * f ≤ now then some since else none

/-- The earlier of two instants. -/
def earlier : Option Nat → Option Nat → Option Nat
  | some a, some b => some (min a b)
  | some a, none => some a
  | none, b => b

/-- ENC_TRANSITION (R37): a filter accepts a new level of A, of B or of both; the TB is that of the first sample that
showed it.  Nothing while no filter accepts one. -/
def execEncTransition (n : Fin 8) (s : State) : Host.Outcome State Fault Refusal :=
  .next (State.emuAll (before := s) (
    let s := s.encRoll n
    let e := s.enc n
    let f := s.fld .mot (ENC_CTRL n) 11 6
    let fa := filtered e.a e.rawA e.atA f s.now
    let fb := filtered e.b e.rawB e.atB f s.now
    match earlier fa fb with
    | some t =>
      if encMode s n = 1 then
        s.encTransition n (if fa = some t then e.rawA else e.a) (if fb = some t then e.rawB else e.b) t
      else s
    | none => s))

/-- The raw edges and accepted edges of a pin in the window (R40). -/
def pinCount (p : EncPin) (c : Nat × Nat × Nat) : Nat :=
  match p with
  | .a => c.1
  | .b => c.2.1
  | .z => c.2.2

/-- A raw edge now: counted in the window, and the pin's new level (R37, R40). -/
def EncSt.rawEdge (e : EncSt) (now : Nat) : EncPin → EncSt
  | .a => { e with rawA := !e.rawA, atA := now, winRaw := (e.winRaw.1 + 1, e.winRaw.2) }
  | .b => { e with rawB := !e.rawB, atB := now, winRaw := (e.winRaw.1, e.winRaw.2.1 + 1, e.winRaw.2.2) }
  | .z => { e with rawZ := !e.rawZ, atZ := now, winRaw := (e.winRaw.1, e.winRaw.2.1, e.winRaw.2.2 + 1) }

/-- The counter of a pin's raw edges (R40). -/
def rawCounter (n : Nat) : EncPin → Nat
  | .a => ENC_CNT_RAW_A n
  | .b => ENC_CNT_RAW_B n
  | .z => ENC_CNT_RAW_Z n

/-- Level changes on ENC0_A and ENC0_B since the entry to DEEP or STANDBY (R374). -/
def State.motionSeen (s : State) (n : Nat) (pin : EncPin) : State :=
  if n = 0 ∧ (s.fld .pwr PWR_STATUS 31 28 = 2 ∨ s.fld .pwr PWR_STATUS 31 28 = 3 ∨ ¬ s.pwr.coreUp) then
    match pin with
    | .a => { s with pwr := { s.pwr with motA := s.pwr.motA + 1 } }
    | .b => { s with pwr := { s.pwr with motB := s.pwr.motB + 1 } }
    | .z => s
  else s

/-- A raw edge on a port of a core that runs: it counts, and too many beside the accepted ones set NOISE (R40). -/
def State.encRaw (s : State) (n : Nat) (pin : EncPin) : State :=
  let s := s.count .mot (rawCounter n pin)
  let e := s.enc n
  if encMode s n = 1 ∧
      pinCount pin e.winAcc + (s.rd .mot (ENC_NOISE_LIM n)).toNat < pinCount pin e.winRaw then
    ((s.setb .mot (ENC_STATUS n) 10 true).onEnc n (fun e => { e with winNoise := true })).encLost n
  else s

/-- ENC_RAW_EDGE (R40, R374): a raw edge on a pin of a port; an unpowered core sees none of it, the Oasis does. -/
def execEncRawEdge (n : Fin 8) (pin : EncPin) (s : State) : Host.Outcome State Fault Refusal :=
  .next (State.emuAll (before := s) (
    let s := if s.pwr.coreUp then s.encRoll n else s
    let s := (s.motionSeen n pin).onEnc n (fun e => e.rawEdge s.now pin)
    if s.pwr.coreUp then s.encRaw n pin else s))

/-! ### Index (R41, R42) -/

/-- The position a port's ENC_ZERO pair holds. -/
def encZero (s : State) (n : Nat) : Pos :=
  BitVec.ofNat 48 (s.rd64 .mot (ENC_ZERO_LO n) (ENC_ZERO_HI n))

/-- Load a port's position: a jump for its generators, no wrap, no change of state (R46). -/
def State.encLoad (s : State) (n : Nat) (p : Pos) : State :=
  (s.onEnc n (fun e => { e with pos := p })).portJump n

/-- An accepted index edge (R41, R42). -/
def State.encIndex (s : State) (n : Nat) : State :=
  let e := s.enc n
  let zmode := s.fld .mot (ENC_CTRL n) 27 26
  let again := e.idxNoAB
  let s := s.wr48 .mot (ENC_ZLATCH_LO n) (ENC_ZLATCH_HI n) e.pos.toNat
  let s := (s.setb .mot (ENC_STATUS n) 6 true).encEvent n 2 (lo32 e.pos.toNat)
  let load := zmode = 3 ∨ (zmode = 2 ∧ e.zArm)
  let s := s.onEnc n (fun e => { e with idxNoAB := true, zArm := e.zArm && decide (zmode ≠ 2) })
  let s := if load then s.encLoad n (encZero s n) else s
  if again then (s.setb .mot (ENC_STATUS n) 4 true).encLost n else s

/-- The filter of Z accepts a level (R37, R41). -/
def zAccepts (s : State) (n : Nat) (level : Bool) : Bool :=
  let e := s.enc n
  encMode s n == 1 && e.rawZ == level && (filtered e.z e.rawZ e.atZ (s.fld .mot (ENC_CTRL n) 5 0) s.now).isSome

/-- The accepted level of Z: an accepted edge of the window, and no count with Z active so far. -/
def EncSt.zEdge (e : EncSt) (level : Bool) : EncSt :=
  { e with z := level, zRun := 0, winAcc := (e.winAcc.1, e.winAcc.2.1, e.winAcc.2.2 + 1) }

/-- ENC_INDEX (R41): Z becomes active after its filter. -/
def execEncIndex (n : Fin 8) (s : State) : Host.Outcome State Fault Refusal :=
  .next (State.emuAll (before := s) (
    let s := s.encRoll n
    let e := s.enc n
    let ctrl := s.rd .mot (ENC_CTRL n)
    if zAccepts s n (!bit ctrl 24) then
      let s := s.onEnc n (fun e => e.zEdge (!bit ctrl 24))
      if bits ctrl 27 26 = 0 ∨ (bit ctrl 25 ∧ ¬ (e.a ∧ e.b)) ∨ s.flag .mot (ENC_STATUS n) 5 then s
      else s.encIndex n
    else s))

/-- INDEX_INACTIVE (R41): Z becomes inactive after its filter; index action is possible again. -/
def execIndexInactive (n : Fin 8) (s : State) : Host.Outcome State Fault Refusal :=
  .next (State.emuAll (before := s) (
    let s := s.encRoll n
    let level := s.flag .mot (ENC_CTRL n) 24
    if zAccepts s n level then (s.onEnc n (fun e => e.zEdge level)).setb .mot (ENC_STATUS n) 5 false else s))

/-! ### Snapshots, loads, speed instants (R45, R46, R48, R49) -/

/-- Capture a port (R45). -/
def State.encSnap (s : State) (n : Nat) : State :=
  let s := s.wr48 .mot (ENC_SNAP_POS_LO n) (ENC_SNAP_POS_HI n) (s.enc n).pos.toNat
  let s := s.wr64 .mot (ENC_SNAP_TB_LO n) (ENC_SNAP_TB_HI n) s.now
  let s := s.wr .mot (ENC_SNAP_SPEED n) (s.rd .mot (ENC_SPEED n))
  s.wr .mot (ENC_SNAP_STATE n) (BitVec.ofNat 32 (s.fld .mot (ENC_STATUS n) 3 0))

/-- ENC_SNAP (R45). -/
def execEncSnap (v : Word) (s : State) : Host.Outcome State Fault Refusal :=
  .next (s.each (idxs 8 (fun n => bit v n)) State.encSnap)

/-- A write to ENC_SET_HI loads the pair (R46). -/
def State.encSetWrite (s : State) (n : Nat) (v : Word) : State :=
  let s := s.store .mot (ENC_SET_HI n) v
  s.encLoad n (BitVec.ofNat 48 (s.rd64 .mot (ENC_SET_LO n) (ENC_SET_HI n)))

/-- ENC_SET (R46): a write to ENC_SET_HI loads the pair. -/
def execEncSet (n : Fin 8) (v : Word) (s : State) : Host.Outcome State Fault Refusal :=
  .next ((s.encSetWrite n v).emuAll s)

/-- SPEED_UPDATE (R48): every 1 us, at the instants of R423. -/
def execSpeedUpdate (n : Fin 8) (s : State) : Host.Outcome State Fault Refusal :=
  .next (if s.now % 1000 = 0 then (s.encSpeed n).emuAll s else s)

/-- Whether the standstill timeout has passed without a legal transition (R49). -/
def standstillDue (s : State) (n : Nat) : Bool :=
  match (s.enc n).lastLegal with
  | some t => decide (t + (s.rd .mot (ENC_STANDSTILL n)).toNat * 1000 ≤ s.now)
  | none => false

/-- STANDSTILL_TIMEOUT (R49). -/
def execStandstillTimeout (n : Fin 8) (s : State) : Host.Outcome State Fault Refusal :=
  .next (if standstillDue s n ∧ ¬ s.flag .mot (ENC_STATUS n) 3 then
      (((s.onEnc n (fun e => { e with run := [] })).putEncState n 0 (encDir s n)).encSpeed n).emuAll s
    else s)

/-! ### ENC_CTRL (R36, R424, R43) -/

/-- A write to ENC_CTRL: a change of MODE to QUAD, or of SWAP_AB in QUAD, takes the accepted levels as the
reference (R424); MODE OFF sets LOST (R43); MODE SSI awaits a first word (R53).  DEDUCED (log 55): the levels accepted
when MODE becomes QUAD are those at the pins, for the filters act only in QUAD; an index that is not active then has
gone inactive (R41). -/
def State.encCtrlWrite (s : State) (n : Nat) (v : Word) : State :=
  let s := s.encRoll n
  let old := s.rd .mot (ENC_CTRL n)
  let new := ((regAt (ENC_CTRL n)).map (fun u => (u.2.write false old v).1)).getD old
  let s := if bits new 31 30 = 0 ∧ bits old 31 30 ≠ 0 then s.encLost n else s
  let s := s.store .mot (ENC_CTRL n) v
  let mode := bits new 31 30
  let toQuad := mode = 1 ∧ bits old 31 30 ≠ 1
  let s := if toQuad then s.onEnc n (fun e => { e with a := e.rawA, b := e.rawB, z := e.rawZ, idxNoAB := false })
    else s
  let s := if mode = 1 ∧ (toQuad ∨ bit old 28 ≠ bit new 28) then
      s.onEnc n (fun e => { e with
        refA := if bit new 28 then e.b else e.a, refB := if bit new 28 then e.a else e.b })
    else s
  let s := if bits new 31 30 ≠ bits old 31 30 then
      s.onEnc n (fun e => { e with winWhole := false, ssiLast := none, ssiBad := 0, ssiWord := none })
    else s
  let s := if mode = 1 ∧ (s.enc n).z = bit new 24 then
      (s.onEnc n (fun e => { e with zRun := 0 })).setb .mot (ENC_STATUS n) 5 false
    else s
  s.onEnc n (fun e => { e with zArm := decide (bits new 27 26 = 2) })

/-- ENC_MODE_WRITE (R424, R43, R36): a write to ENC_CTRL. -/
def execEncModeWrite (n : Fin 8) (v : Word) (s : State) : Host.Outcome State Fault Refusal :=
  .next ((s.encCtrlWrite n v).emuAll s)

/-! ### SSI words (R50 to R53) -/

/-- Bits of a word: position, error bit if ERR_EN, CRC (R50). -/
def ssiBits (c : Word) : Nat := bits c 15 10 + b2n (bit c 30) + bits c 9 5

/-- Gray to binary, most significant bit first (R53). -/
def unGray (bs : List Bool) : Nat :=
  (bs.foldl (fun (p : Nat × Bool) b => (2 * p.1 + b2n (xor p.2 b), xor p.2 b)) (0, false)).1

/-- The value of a word's position bits (R53). -/
def ssiValue (c : Word) (w : List Bool) : Nat :=
  if bit c 31 then unGray (w.take (bits c 15 10)) else ofMsb (w.take (bits c 15 10))

/-- Whether a word's CRC matches (R52). -/
def ssiCrcOk (c crc : Word) (w : List Bool) : Bool :=
  let len := bits c 9 5
  let n := bits c 15 10 + b2n (bit c 30)
  let r := crcMsb len (bits crc 31 16) (bits crc 15 0 % 2 ^ len) (w.take n)
  let got := ofMsb ((w.drop n).take len)
  len == 0 || (if bit c 4 then r ^^^ (2 ^ len - 1) else r) == got

/-- Whether a word passes the checks of R50 to R52 that need no earlier word. -/
def ssiWordOk (s : State) (n : Nat) (high : Bool) (w : List Bool) (delay : Nat) (back : Bool) : Bool :=
  let c := s.rd .mot (ENC_SSI_CTRL n)
  high && back && ssiCrcOk c (s.rd .mot (ENC_SSI_CRC n)) w &&
    !(bit c 30 && atD w (bits c 15 10) false == bit c 29) &&
    !(bit c 28 && decide (400 < delay))

/-- The change from the last good word as a signed NBITS-bit difference (R53). -/
def ssiChange (nb v last : Nat) : Int := sgn nb (v + 2 ^ nb - last % 2 ^ nb)

/-- Whether a change is too large (R52). -/
def ssiTooFar (s : State) (n : Nat) (d : Int) : Bool :=
  decide ((s.rd .mot (ENC_SSI_MAXSTEP n)).toNat < d.natAbs) ||
    decide (2 ^ (s.fld .mot (ENC_SSI_CTRL n) 15 10 - 1) < d.natAbs)

/-- A bad SSI word (R52). -/
def State.ssiBadWord (s : State) (n : Nat) : State :=
  let s := (s.count .mot (ENC_CNT_SSI_BAD n)).setb .mot (ENC_STATUS n) 11 true
  let s := s.onEnc n (fun e => { e with ssiBad := e.ssiBad + 1, ssiWord := none })
  if 3 ≤ (s.enc n).ssiBad then s.encLost n else s

/-- The state machine for a change of several counts in one direction: three steps settle it (R49). -/
def State.ssiSteps (s : State) (n : Nat) (dec : Bool) (p : Pos) : Nat → State
  | 0 => s
  | k + 1 =>
    let d : Int := if dec then -1 else 1
    let q := p + BitVec.ofInt 48 d
    (s.encStep n dec p q (decide (s.fld .mot (ENC_STATUS n) 1 0 = 1))).ssiSteps n dec q k

/-- A good word that moved the position: it counts as transitions for R48 and R49 (R53). -/
def State.ssiMove (s : State) (n : Nat) (d : Int) (t prev : Nat) : State :=
  let dec := decide (d < 0)
  let p := (s.enc n).pos
  let s := s.encAdd n d
  let s := s.onEnc n (fun e => { e with lastLegal := some t, winLegal := e.winLegal + 1 })
  if s.flag .mot (ENC_STATUS n) 3 then s
  else
    let e := s.enc n
    let first := s.fld .mot (ENC_STATUS n) 1 0 = 1 ∧ (e.run = [] ∨ e.runDec ≠ dec)
    let s := s.onEnc n (fun e =>
      if e.run ≠ [] ∧ e.runDec = dec then pushRun e dec t d.natAbs
      else pushRun { e with run := [(prev, 0)], runDec := dec } dec t d.natAbs)
    -- in STARTING a single count against the run is the first of a new one
    let s := if first ∧ d.natAbs = 1 then s else s.ssiSteps n dec p (min d.natAbs 3)
    s.encSpeed n

/-- A good SSI word (R53).  DESIGN CHOICE (log 122): ENC_CTRL.INVERT does not act on it. -/
def State.ssiGoodWord (s : State) (n : Nat) (v t delay : Nat) : State :=
  let e := s.enc n
  let c := s.rd .mot (ENC_SSI_CTRL n)
  let s := if bit c 28 then s.wr .mot (ENC_SSI_DELAY n) (BitVec.ofNat 32 (delay % 512)) else s
  let s := s.onEnc n (fun e => { e with ssiLast := some v, ssiBad := 0, ssiStamp := t, ssiWord := none })
  match e.ssiLast with
  | none => s.encLoad n (BitVec.ofNat 48 v)
  | some last =>
    let d := ssiChange (bits c 15 10) v last
    if d = 0 then s else s.ssiMove n d t e.ssiStamp

/-- SSI_WORD_START (R50): every ENC_SSI_PERIOD ns, aligned to TB (R423); the sensor is latched now. -/
def execSsiWordStart (n : Fin 8) (dataHigh : Bool) (s : State) : Host.Outcome State Fault Refusal :=
  let p := (s.rd .mot (ENC_SSI_PERIOD n)).toNat
  .next (if encMode s n = 2 ∧ (s.enc n).ssiWord = none ∧ p ≠ 0 ∧ s.now % p = 0 then
      s.onEnc n (fun e => { e with ssiWord := some (s.now, dataHigh) })
    else s)

/-- SSI_WORD_END (R51 to R53): the word's bits as received, the measured cable delay in 5 ns steps, and
whether the data line returned high in time. -/
def execSsiWordEnd (n : Fin 8) (word : List Bool) (delay : Nat) (returnedHigh : Bool) (s : State) :
    Host.Outcome State Fault Refusal :=
  .next (State.emuAll (before := s) (
    let s := s.encRoll n
    match (s.enc n).ssiWord with
    | none => s
    | some (t, high) =>
      if encMode s n ≠ 2 then s
      else
        let e := s.enc n
        let c := s.rd .mot (ENC_SSI_CTRL n)
        let v := ssiValue c word
        let far := match e.ssiLast with
          | none => false
          | some last => decide (e.ssiBad < 3) && ssiTooFar s n (ssiChange (bits c 15 10) v last)
        if ssiWordOk s n high word delay returnedHigh && !far then s.ssiGoodWord n v t delay
        else s.ssiBadWord n))

/-! ### Pass-through outputs (R54) -/

/-- What a pass-through output drives; none is high impedance. -/
structure PassThrough where
  pa : Option Bool
  pb : Option Bool
  pz : Option Bool
  deriving DecidableEq, Repr

/-- Quadrature and index of a position.  DESIGN CHOICE (log 81): AB is 00 at a position that is a multiple of 4 and
counts up by R37; the index is active at position 0 alone. -/
def emulated (p : Pos) : PassThrough :=
  let k := p.toNat % 4
  ⟨some (k == 2 || k == 3), some (k == 1 || k == 2), some (p == 0#48)⟩

/-- The position the emulated output of a port shows: that of motion source MSn, as far as it has followed (R54). -/
def emuPos (s : State) (n : Nat) : Pos :=
  fixPos (sourcePos s n) - BitVec.ofInt 48 ((s.ms n).emuLeft s.now)

/-- The pass-through outputs of a port (R54): high impedance in MODE OFF and outside RUN (R380), the SSI clock on PA in
MODE SSI, otherwise by PT_MODE.  The fixed delays of the filtered and raw outputs are timing (log 11). -/
def passThrough (s : State) (n : Nat) : PassThrough :=
  let e := s.enc n
  if !s.pwr.coreUp || !s.outputsOn then ⟨none, none, none⟩
  else match encMode s n, s.fld .mot (ENC_CTRL n) 15 14 with
  | 0, _ => ⟨none, none, none⟩
  | 1, 1 => ⟨some e.a, some e.b, some e.z⟩
  | 1, 2 => ⟨some e.rawA, some e.rawB, some e.rawZ⟩
  | 1, 3 => emulated (emuPos s n)
  | 2, _ => ⟨some e.ssiWord.isNone, none, none⟩
  | _, _ => ⟨none, none, none⟩

end Sys2Proof.Machine
end

