-- ==== Sys2Proof/Machine/Operands.lean ====
section
/-! DEFINITION. Operand forms of the commands: what a BAR0 address names (R21, R22, R24, R25, R27), the queues that
have registers (R313), and the sizes of addresses and lists. -/
namespace Sys2Proof.Machine

/-- What an address names, none where no register stands. -/
def addrKind (a : Nat) : Option RegKind := (regAt a).map (fun u => u.2.kind)

/-- A status register or a counter: nothing in it is written as configuration (R27). -/
def RegRow.isStatus (r : RegRow) : Bool :=
  match r.kind with
  | .plain => r.fields.all (fun f => decide (f.acc = .ro ∨ f.acc = .w1c ∨ f.acc = .w1cs))
  | _ => true

/-- An address of a status register or a counter. -/
def addrStatus (a : Nat) : Bool := (regAt a).any (fun u => u.2.isStatus)

/-- The size of PF0 BAR0, and of the window BAR2 (R256). -/
def bar0Size : Nat := 0x8000000
def bar2Size : Nat := 2 ^ 36

/-- A queue number that has registers: record and statistics queues (R313). -/
def qOk (q : Nat) : Bool := decide (q < 384 ∧ q % 4 < 2)

/-- Segments of the Erg, and its bytes (R292). -/
def ergSegs : Nat := 24576
def ergSize : Nat := ergSegs * 0x200000

/-- Values one adaptation update moves: the CTLE, 12 taps, 3 thresholds (R76). -/
def adaptMoves : Nat := 16

end Sys2Proof.Machine
end

