-- ==== Sys2Proof/Machine/Coding.lean ====
section
/-! DEFINITION. Line coding: test patterns (R80, R98), symbols and precoding (R71, R72, R87), the scrambler (R100),
transcoded blocks (R101, R102) and the Reed-Solomon code (R103). -/
namespace Sys2Proof.Machine

/-- The number that bits spell, least significant first. -/
def ofLsb : List Bool → Nat
  | [] => 0
  | b :: bs => b2n b + 2 * ofLsb bs

/-- A list cut into pieces of n, the last perhaps shorter; at most `fuel` pieces. -/
def pieces {α : Type} (n : Nat) : Nat → List α → List (List α)
  | 0, _ => []
  | fuel + 1, l => l.take n :: pieces n fuel (l.drop n)

/-! ### Test patterns (R98) -/

/-- The delays a pattern's next bit is the sum of: its polynomial's exponents.  5, the square wave, has none. -/
def prbsTaps : Nat → List Nat
  | 0 => [7, 6]
  | 1 => [9, 5]
  | 2 => [13, 12, 2, 1]
  | 3 => [15, 14]
  | 4 => [31, 28]
  | _ => []

/-- Bits a pattern's generator holds. -/
def prbsLength (pat : Nat) : Nat := (prbsTaps pat).headD 0

/-- The next bit of a pattern from the bits before it; bit i of `hist` is the one i + 1 places back. -/
def prbsNext (pat hist : Nat) : Bool := (prbsTaps pat).foldl (fun x k => xor x (tbit hist (k - 1))) false

/-- The bits before the next one, after a bit. -/
def histPush (w hist : Nat) (b : Bool) : Nat := (2 * hist + b2n b) % 2 ^ w

/-- The next n bits of a pattern's generator, and what it holds then. -/
def prbsRun (pat : Nat) : Nat → Nat → List Bool × Nat
  | 0, h => ([], h)
  | n + 1, h =>
    let b := prbsNext pat h
    let r := prbsRun pat n (histPush (prbsLength pat) h b)
    (b :: r.1, r.2)

/-- The first n bits, or levels in NRZ, of a pattern sent from a seed; the square wave is 8 UI at +3, then 8 at -3. -/
def patternBits (pat seed n : Nat) : List Bool :=
  if pat = 5 then (List.range n).map (fun i => decide (i % 16 < 8)) else (prbsRun pat n seed).1

/-! ### Symbols (R71, R72, R87) -/

/-- The bits of a Gray symbol integer, the first in serial order first (R71). -/
def grayBits : Nat → List Bool
  | 0 => [false, false]
  | 1 => [false, true]
  | 2 => [true, true]
  | _ => [true, false]

/-- The symbol integer of a bit pair (R71). -/
def graySymbol (first second : Bool) : Nat :=
  match first, second with
  | false, false => 0
  | false, true => 1
  | true, true => 2
  | true, false => 3

/-- The level of a symbol integer, in thirds of half the swing: -3, -1, +1, +3 (R71). -/
def symbolLevel (v : Nat) : Int := 2 * (v : Int) - 3

/-- A decision of an inverted lane as corrected (R87). -/
def uninvert (inv : Bool) (v : Nat) : Nat := if inv then 3 - v else v

/-- Gray integers from precoded decisions: each the sum of a decision and the one before it (R72). -/
def unprecode : Nat → List Nat → List Nat
  | _, [] => []
  | prev, v :: vs => (v + prev) % 4 :: unprecode v vs

/-- What a lane's decisions go through: PAM4 or NRZ, polarity, precoding (R71, R72, R87). -/
structure LineMode where
  pam4 : Bool
  inv : Bool
  precode : Bool
  deriving DecidableEq, Repr

/-- Symbol integers as decided: 2 bits each at PAM4 rates; in NRZ 1 bit each, level -3 or +3 (R71). -/
def decisionsOf (pam4 : Bool) (bs : List Bool) : List Nat :=
  if pam4 then (pieces 2 (bs.length / 2) bs).map ofMsb else bs.map (fun b => if b then 3 else 0)

/-- The bits of decisions, in serial order; `prev` is the corrected decision before the first (R71, R72, R87). -/
def LineMode.bits (m : LineMode) (prev : Nat) (vs : List Nat) : List Bool :=
  let vs := vs.map (uninvert m.inv)
  if !m.pam4 then vs.map (fun v => decide (2 ≤ v))
  else ((if m.precode then unprecode prev vs else vs).map grayBits).flatten

/-- The corrected decision that ends a run, for the one that follows (R72). -/
def LineMode.last (m : LineMode) (prev : Nat) (vs : List Nat) : Nat := (vs.getLast?.map (uninvert m.inv)).getD prev

/-! ### The scrambler 1 + x^39 + x^58 (R100) -/

/-- Descramble; bit i of the register is the scrambled bit i + 1 places back. -/
def descramble : Nat → List Bool → List Bool × Nat
  | st, [] => ([], st)
  | st, b :: bs =>
    let r := descramble (histPush 58 st b) bs
    (xor b (xor (tbit st 38) (tbit st 57)) :: r.1, r.2)

/-- Scramble. -/
def scramble : Nat → List Bool → List Bool × Nat
  | st, [] => ([], st)
  | st, b :: bs =>
    let c := xor b (xor (tbit st 38) (tbit st 57))
    let r := scramble (histPush 58 st c) bs
    (c :: r.1, r.2)

/-! ### Transcoded blocks (R101, R102) -/

/-- A TYPE from its low nibble: the high nibble is its complement (R101). -/
def typeOf (nibble : Nat) : Nat := nibble % 16 + 16 * (15 - nibble % 16)

/-- The header bits of a transcoded block: 1 if all four blocks are data, else 0 and the mask (R102). -/
def headerBits (first : Bool) : Nat := if first then 1 else 5

/-- The four blocks of a mask's kinds out of the content bits: the first control block holds 60 bits, every other
block 64 (R102). -/
def maskedBlocks : List Bool → Bool → Nat → List (Bool × Dword)
  | [], _, _ => []
  | false :: ks, seen, x => (false, BitVec.ofNat 64 x) :: maskedBlocks ks seen (x / 2 ^ 64)
  | true :: ks, true, x => (true, BitVec.ofNat 64 x) :: maskedBlocks ks true (x / 2 ^ 64)
  | true :: ks, false, x =>
    (true, BitVec.ofNat 64 (typeOf x + x / 16 % 2 ^ 56 * 256)) :: maskedBlocks ks true (x / 2 ^ 60)

/-- The four blocks of a transcoded block's 257 bits, bit 0 first, after descrambling (R102): whether control, and
the payload. -/
def blocksOf (bs : List Bool) : List (Bool × Dword) :=
  match bs with
  | true :: rest => maskedBlocks [false, false, false, false] false (ofLsb rest)
  | false :: rest => maskedBlocks (rest.take 4) false (ofLsb (rest.drop 4))
  | [] => []

/-- Transcoded blocks descrambled one after another.  DEDUCED (log 84): the scrambler runs over the content bits of
the transcoded blocks, since a TYPE is rebuilt from its nibble; header bits and marker groups are not scrambled. -/
def decodeBlocks : Nat → List (List Bool) → List (Bool × Dword) × Nat
  | st, [] => ([], st)
  | st, b :: bs =>
    let h := headerBits (b.headD true)
    let d := descramble st (b.drop h)
    let r := decodeBlocks d.2 bs
    (blocksOf (b.take h ++ d.1) ++ r.1, r.2)

/-- The message bits of a codeword as its transcoded blocks, from the k-th on: 257 bits each (R102, R103). -/
def transcoded (k : Nat) (msg : List Bool) : List (List Bool) := pieces 257 (20 - k) (msg.drop (257 * k))

/-! ### GF(2^10) and RS(544,514) (R103) -/

/-- A field element times alpha: x^10 + x^3 + 1. -/
def gfDouble (a : Nat) : Nat := if a < 512 then 2 * a else (2 * a) ^^^ 0x409

/-- The product of two field elements. -/
def gfMul (a b : Nat) : Nat :=
  ((bitsMsb 10 b).foldl (fun r x => if x then gfDouble r ^^^ a else gfDouble r) 0)

/-- A power of a field element, by squaring over the exponent's 10 bits. -/
def gfPow (a n : Nat) : Nat :=
  (bitsMsb 10 (n % 1023)).foldl (fun r x => let q := gfMul r r; if x then gfMul q a else q) 1

/-- The inverse of a field element that is not 0. -/
def gfInv (a : Nat) : Nat := gfPow a 1022

/-- alpha^n. -/
def gfAlpha (n : Nat) : Nat := gfPow 2 n

/-- A polynomial, constant term first, at a point. -/
def polyAt (p : List Nat) (x : Nat) : Nat := p.foldr (fun c r => c ^^^ gfMul r x) 0

/-- A polynomial times a constant. -/
def polyScale (k : Nat) (p : List Nat) : List Nat := p.map (gfMul k)

/-- The sum of two polynomials. -/
def polyAdd : List Nat → List Nat → List Nat
  | [], q => q
  | p, [] => p
  | a :: p, b :: q => (a ^^^ b) :: polyAdd p q

/-- The product of two polynomials. -/
def polyMul : List Nat → List Nat → List Nat
  | [], _ => []
  | a :: p, q => polyAdd (polyScale a q) (0 :: polyMul p q)

/-- The formal derivative: odd coefficients, one place down. -/
def polyDeriv (p : List Nat) : List Nat := (idxs p.length (fun i => 0 < i)).map (fun i => if i % 2 = 1 then atD p i 0 else 0)

/-- Symbols a codeword holds, and those that carry the message. -/
def rsTotal : Nat := 544
def rsMessage : Nat := 514

/-- The syndromes of received symbols, the first symbol at the highest power: values at alpha^0 to alpha^29. -/
def rsSyndromes (r : List Nat) : List Nat := (List.range 30).map (fun i => polyAt r.reverse (gfAlpha i))

/-- The search for the error locator: the locator, its last value before a change of length, the discrepancy then,
the length, and the steps since. -/
structure LocatorSt where
  cur : List Nat
  old : List Nat
  disc : Nat
  len : Nat
  gap : Nat
  deriving DecidableEq, Repr

/-- One step of the search with the syndromes up to the n-th, newest first. -/
def LocatorSt.step (x : LocatorSt) (n : Nat) (recent : List Nat) : LocatorSt :=
  let d := ((x.cur.zip recent).take (x.len + 1)).foldl (fun r p => r ^^^ gfMul p.1 p.2) 0
  if d = 0 then { x with gap := x.gap + 1 }
  else
    let next := polyAdd x.cur (polyScale (gfMul d (gfInv x.disc)) (List.replicate x.gap 0 ++ x.old))
    if 2 * x.len ≤ n then ⟨next, x.cur, d, n + 1 - x.len, 1⟩ else { x with cur := next, gap := x.gap + 1 }

/-- The error locator of syndromes. -/
def rsLocator (synd : List Nat) : List Nat :=
  let r := (synd.zip (List.range synd.length)).foldl
    (fun (a : LocatorSt × List Nat) e => let seen := e.1 :: a.2; (a.1.step e.2 seen, seen)) (⟨[1], [1], 1, 0, 1⟩, [])
  r.1.cur.take (r.1.len + 1)

/-- The error value at a root of the locator. -/
def rsValue (synd loc : List Nat) (j : Nat) : Nat :=
  let x := gfAlpha j
  let xi := gfAlpha (1023 - j % 1023)
  let omega := (polyMul synd loc).take 30
  gfMul x (gfMul (polyAt omega xi) (gfInv (polyAt (polyDeriv loc) xi)))

/-- The code of R103: the symbols corrected, and how many were; none where no codeword lies within 15 symbols. -/
def rsDecode (r : List Nat) : Option (List Nat × Nat) :=
  let synd := rsSyndromes r
  if synd.all (fun x => x == 0) then some (r, 0)
  else
    let loc := rsLocator synd
    let wrong := idxs rsTotal (fun i => polyAt loc (gfAlpha (1023 - (rsTotal - 1 - i))) == 0)
    let fixed := wrong.foldl (fun c i => c.set i (atD c i 0 ^^^ rsValue synd loc (rsTotal - 1 - i))) r
    let changed := (idxs rsTotal (fun i => atD fixed i 0 != atD r i 0)).length
    if (rsSyndromes fixed).all (fun x => x == 0) ∧ changed ≤ 15 then some (fixed, changed) else none

/-- The symbols of a codeword's bits: the first bit is bit 9 of symbol 0 (R103). -/
def rsSymbols (bs : List Bool) : List Nat := (pieces 10 rsTotal bs).map ofMsb

/-- The message bits of a codeword's symbols. -/
def rsMessageBits (symbols : List Nat) : List Bool := ((symbols.take rsMessage).map (bitsMsb 10)).flatten

/-- A codeword as decoded: its message bits, and the symbols corrected, none if it is uncorrectable (R103, R107). -/
def decodeCodeword (bs : List Bool) : List Bool × Option Nat :=
  let r := rsSymbols bs
  match rsDecode r with
  | some (c, k) => (rsMessageBits c, some k)
  | none => (rsMessageBits r, none)

/-! ### The transmitter of a span port (R72, R102 to R104, R334) -/

/-- The code's generator polynomial, constant term first: roots alpha^0 to alpha^29. -/
def rsGenerator : List Nat := (List.range 30).foldl (fun g i => polyMul g [gfAlpha i, 1]) [1]

/-- The 30 parity symbols of a message, the first to be sent first. -/
def rsParity (msg : List Nat) : List Nat :=
  let g := (rsGenerator.take 30).reverse
  msg.foldl (fun r m =>
    let k := r.headD 0 ^^^ m
    List.zipWith (fun a b => a ^^^ gfMul k b) (r.drop 1 ++ [0]) g) (List.replicate 30 0)

/-- A codeword's bits from those of its message. -/
def encodeCodeword (msg : List Bool) : List Bool :=
  msg ++ ((rsParity ((pieces 10 rsMessage msg).map ofMsb)).map (bitsMsb 10)).flatten

/-- The content bits of four blocks: the first control block gives 60, every other block 64 (R102). -/
def contentBits : Bool → List (Bool × Dword) → List Bool
  | _, [] => []
  | seen, (false, w) :: bs => bitsLsb 64 w.toNat ++ contentBits seen bs
  | true, (true, w) :: bs => bitsLsb 64 w.toNat ++ contentBits true bs
  | false, (true, w) :: bs => bitsLsb 4 w.toNat ++ bitsLsb 56 (w.toNat / 256) ++ contentBits true bs

/-- Four blocks as a transcoded block's 257 bits, bit 0 first, its content scrambled (R100, R102), and the scrambler then. -/
def transcode (st : Nat) (bs : List (Bool × Dword)) : List Bool × Nat :=
  let kinds := bs.map (fun b => b.1)
  let r := scramble st (contentBits false bs)
  ((if kinds.any id then false :: kinds else [true]) ++ r.1, r.2)

/-- Blocks, four at a time, as transcoded blocks one after another. -/
def transcodeAll : Nat → Nat → List (Bool × Dword) → List Bool × Nat
  | 0, st, _ => ([], st)
  | n + 1, st, bs =>
    let a := transcode st (bs.take 4)
    let r := transcodeAll n a.2 (bs.drop 4)
    (a.1 ++ r.1, r.2)

/-- The symbols of bits: Gray integers, precoded behind `prev` if precoding is on (R71, R72), and the last one. -/
def lineSymbols (precode : Bool) (prev : Nat) (bs : List Bool) : List Nat :=
  let gs := (pieces 2 (bs.length / 2) bs).map (fun p => graySymbol (p.headD false) (p.getLastD false))
  if precode then (gs.foldl (fun (a : List Nat × Nat) g => let v := (g + 4 - a.2) % 4; (v :: a.1, v)) ([], prev)).1.reverse
  else gs

end Sys2Proof.Machine
end

