-- ==== Sys2Proof/Machine/Lines.lean ====
section
/-! DEFINITION. Camera lines: data types, closing a line, the sequence check, stamps, and handing lines to the
streams that claim them (R67, R119 to R126, R131, R153). -/
namespace Sys2Proof.Machine

/-! ### Access to ports and streams -/

def State.lnkPort (s : State) (p : Nat) : LnkPort := Tab.get (fun _ => LnkPort.init) s.lnk.port p

def State.setLnkPort (s : State) (p : Nat) (x : LnkPort) : State :=
  { s with lnk := { s.lnk with port := Tab.set (fun _ => LnkPort.init) s.lnk.port p x } }

def State.onLnk (s : State) (p : Nat) (f : LnkPort → LnkPort) : State := s.setLnkPort p (f (s.lnkPort p))

def State.vcOf (s : State) (p v : Nat) : VcSt := Tab.get (fun _ => VcSt.init) (s.lnkPort p).vc v

def State.onVc (s : State) (p v : Nat) (f : VcSt → VcSt) : State :=
  s.onLnk p (fun x => { x with vc := Tab.upd (fun _ => VcSt.init) x.vc v f })

def State.pixStream (s : State) (t : Nat) : PixStream := Tab.get (fun _ => PixStream.init) s.pix.stream t

def State.setPix (s : State) (t : Nat) (x : PixStream) : State :=
  { s with pix := { s.pix with stream := Tab.set (fun _ => PixStream.init) s.pix.stream t x } }

def State.onPix (s : State) (t : Nat) (f : PixStream → PixStream) : State := s.setPix t (f (s.pixStream t))

def State.portTrg (s : State) (p : Nat) : PortTrg := Tab.get (fun _ => PortTrg.init) s.mot.port p

def State.onPortTrg (s : State) (p : Nat) (f : PortTrg → PortTrg) : State :=
  { s with mot := { s.mot with port := Tab.upd (fun _ => PortTrg.init) s.mot.port p f } }

/-! ### Data types (R119) -/

/-- Interleaved pixel types 0x10 to 0x1F, mosaic types 0x20 to 0x27 (R119). -/
def isPixelDt (dt : Nat) : Bool := decide (0x10 ≤ dt ∧ dt < 0x28)

/-- Mosaic types (R119). -/
def isMosaic (dt : Nat) : Bool := decide (0x20 ≤ dt ∧ dt < 0x30)

/-- Components per pixel in the line's bit stream (R119, R120). -/
def dtComps (dt : Nat) : Nat := if isMosaic dt then 1 else nbits dt 3 2 + 1

/-- Bits per component (R119). -/
def dtBits (dt : Nat) : Nat := atD [8, 10, 12, 16] (dt % 4) 8

/-- Bytes of a line's payload (R120). -/
def lineBytes (pixels dt : Nat) : Nat := (pixels * dtComps dt * dtBits dt + 7) / 8

/-! ### Line flags (R126) -/

abbrev flPay : Nat := 1
abbrev flShort : Nat := 2
abbrev flMissing : Nat := 4
abbrev flFec : Nat := 8
abbrev flLate : Nat := 16
abbrev flUnstamped : Nat := 32
abbrev flHeld : Nat := 64
abbrev flResync : Nat := 128

/-- Flags of the damaged class: RESYNC, FEC_ERR, MISSING, SHORT, PAY_ERR (R126). -/
def damagedFlags (f : Nat) : Bool := f &&& 0x8F != 0

/-- Flags of the late class: UNSTAMPED, LATE (R126). -/
def lateFlags (f : Nat) : Bool := f &&& 0x30 != 0

/-! ### Claims (R122, R131) -/

/-- The ports of a stream's source (R135). -/
def srcPorts (v : Word) : List Nat :=
  ([bits v 28 24, bits v 23 19, bits v 18 14] : List Nat).take (bits v 30 29 + 1)

/-- A VC is claimed on a port when a stream with EN = 1 has the port in its source and that VC (R122). -/
def claimsVc (v : Word) (p vc : Nat) : Bool :=
  bit v 31 && bits v 13 10 == vc && (srcPorts v).contains p

/-- Streams that claim a VC of a port. -/
def vcStreams (s : State) (p vc : Nat) : List Nat :=
  idxs 96 (fun t => claimsVc (s.rd .pix (PIX_SRC t)) p vc)

/-- AREA mode (R135). -/
def areaMode (s : State) (t : Nat) : Bool := s.fld .pix (PIX_CTRL t) 31 30 == 1

/-- Streams that claim a VC and DT of a port (R131). -/
def dtStreams (s : State) (p vc dt : Nat) : List Nat :=
  (vcStreams s p vc).filter (fun t => s.fld .pix (PIX_SRC t) 9 4 == dt)

/-! ### Stamps (R67, R125) -/

/-- The stamp a tag gives: the entry at tag[11:0] if its FLAGS[7:4] equal tag[15:12] (R67). -/
def tagStamp (s : State) (p tag : Nat) : Option Stamp :=
  match Tab.get (fun _ => none) (s.portTrg p).stamps (tag % 4096) with
  | none => none
  | some e => if e.flags / 16 % 16 = tag / 4096 % 16 then some e else none

/-- A stamp of all zeros (R125). -/
def zeroStamp : Stamp := StampEnt.init

/-- A line's stamp from what R67 gives: without one, the previous line's on the VC with UNSTAMPED (R125). -/
def stampFlags (found : Option Stamp) (prev : Option CamLine) : Stamp × Nat :=
  match found with
  | some e => (e, 0)
  | none => ((prev.map (fun l => l.stamp)).getD zeroStamp, flUnstamped)

/-- LATE: LINE_START arrived more than LAT_MAX us after the stamp; never for a stamp of all zeros (R125). -/
def lateFlag (s : State) (p arrived : Nat) (st : Stamp) : Nat :=
  if st ≠ zeroStamp ∧ st.tb + s.fld .lnk (DLK_LINE_CTRL p) 25 16 * 1000 < arrived then flLate else 0

/-! ### Delivery to the streams -/

/-- Append a line to a stream's queue for a port of its source (R132). -/
def PixStream.enqueue (x : PixStream) (i : Nat) (l : CamLine) : PixStream :=
  match i with
  | 0 => { x with q0 := x.q0 ++ [l] }
  | 1 => { x with q1 := x.q1 ++ [l] }
  | _ => { x with q2 := x.q2 ++ [l] }

/-- The streams that accept a line (R131). -/
def takers (s : State) (l : CamLine) : List Nat :=
  match l.dt with
  | some dt => dtStreams s l.port l.vc dt
  | none => vcStreams s l.port l.vc

/-- Hand a line to streams that accept it; it becomes the previous line of its VC (R131). -/
def State.deliver (s : State) (l : CamLine) (ts : List Nat) : State :=
  let s := s.each ts (fun s t =>
    s.onPix t (fun x => x.enqueue ((srcPorts (s.rd .pix (PIX_SRC t))).idxOf l.port) l))
  s.onVc l.port l.vc (fun v => { v with prev := some l })

/-- Count UNSTAMPED and LATE lines (R125). -/
def State.countMarks (s : State) (p flags : Nat) : State :=
  let s := if flags &&& flUnstamped ≠ 0 then s.count .lnk (DLK_CNT_NOSTAMP p) else s
  if flags &&& flLate ≠ 0 then s.count .lnk (DLK_CNT_LATE p) else s

/-- The place in the frame of the next line, and the frame after it (R152, R153). -/
def framePlace (f : Option FrameSt) : Option (Nat × Nat) := f.map (fun f => (f.seen, f.lines))

/-- Count a line of the open frame. -/
def VcSt.stepFrame (v : VcSt) : VcSt := { v with frame := v.frame.map (fun f => { f with seen := f.seen + 1 }) }

/-- The VC's frame already has all its lines (R153). -/
def VcSt.full (v : VcSt) : Bool :=
  match v.frame with
  | some f => decide (f.lines ≤ f.seen)
  | none => false

/-- Deliver one line with its stamp to the streams of a list; `found` is what R67 gives (R125).  A line beyond the frame's
count is dropped and counted by the streams in AREA mode (R153); the others take it. -/
def State.lineTo (s : State) (l : CamLine) (found : Option Stamp) (lineStart : Option Nat) (ts : List Nat) : State :=
  let v := s.vcOf l.port l.vc
  let drop := if v.full then ts.filter (fun t => areaMode s t) else []
  let s := s.each drop (fun s t => s.count .pix (PIX_CNT_AREA_SURPLUS t))
  if v.full ∧ drop = ts then s
  else
  let r := stampFlags found v.prev
  let late := match lineStart with
    | some a => lateFlag s l.port a r.1
    | none => 0
  let fl := l.flags ||| r.2 ||| late
  let s := (s.deliver { l with stamp := r.1, flags := fl, frame := framePlace v.frame }
    (ts.filter (fun t => !drop.contains t))).countMarks l.port fl
  s.onVc l.port l.vc VcSt.stepFrame

/-- Deliver one line with its stamp to every stream that accepts it. -/
def State.deliverStamped (s : State) (l : CamLine) (found : Option Stamp) (lineStart : Option Nat) : State :=
  s.lineTo l found lineStart (takers s l)

/-- A replacement line: the pixels of the line delivered before, flagged MISSING (R124). -/
def replacement (v : VcSt) (p vc pixels : Nat) (dt : Option Nat) (now : Nat) : CamLine :=
  match v.prev with
  | some l => { l with flags := flMissing, arrived := now }
  | none =>
    { port := p, vc := vc, dt := dt, pixels := pixels, col0 := 0, bytes := [], flags := flMissing,
      stamp := zeroStamp, phase := 0, frame := none, arrived := now }

/-- Insert the replacement lines of a gap, each with the stamp of its own skipped tag (R124); those that complete a frame
are for the streams in AREA mode (R153). -/
def State.insertMissing (s : State) (p vc pixels : Nat) (dt : Option Nat) (tags : List (Option Nat)) (area : Bool) : State :=
  s.each tags (fun s tag =>
    let v := s.vcOf p vc
    let found := match v.frame, tag with
      | some f, _ => f.stamp
      | none, some t => tagStamp s p t
      | none, none => none
    let l := replacement v p vc pixels dt s.now
    (s.lineTo l found none ((takers s l).filter (fun t => !area || areaMode s t))).count .lnk (DLK_CNT_MISSING p))

/-- What the sequence check says of a line (R124). -/
inductive SeqCheck where
  | first | next | gap (missing : Nat) | stale | resync
  deriving DecidableEq, Repr

/-- The sequence check on the step from the previous line (R124). -/
def seqCheck (d : Int) (n missMax : Nat) : SeqCheck :=
  if d ≤ 0 then .stale
  else if d = n then .next
  else if d % (n : Int) = 0 ∧ 2 * (n : Int) ≤ d ∧ d ≤ (missMax + 1) * (n : Int) then .gap ((d / n).toNat - 1)
  else .resync

/-- DLK_VC_DIV of a VC (R130). -/
def vcDiv (s : State) (p vc : Nat) : Nat :=
  if vc < 8 then s.fld .lnk (DLK_VC_DIV_LO p) (vc * 4 + 3) (vc * 4)
  else s.fld .lnk (DLK_VC_DIV_HI p) ((vc - 8) * 4 + 3) ((vc - 8) * 4)

/-- The step of a line in the units of its check: lines per trigger for tags, 1 for NUMBER (R124). -/
def seqStep (s : State) (p vc : Nat) (o : OpenLine) : Nat := if o.tagValid then vcDiv s p vc + 1 else 1

/-- The sequence check of a line on its VC (R124). -/
def checkLine (s : State) (p vc : Nat) (o : OpenLine) : SeqCheck :=
  let v := s.vcOf p vc
  match v.ref with
  | none => .first
  | some (tag, num) =>
    if v.stale = 16 then .resync
    else
      let d := if o.tagValid then sgn 16 (o.tag + 2 ^ 16 - tag) else sgn 32 (o.number + 2 ^ 32 - num)
      seqCheck d (seqStep s p vc o) (s.fld .lnk (DLK_LINE_CTRL p) 7 0)

/-- A trigger-to-LINE_START delay of the port, kept for its last 256 lines; the triggers up to this one are awaited no
longer (R362). -/
def State.noteDelay (s : State) (p arrived : Nat) (found : Option Stamp) : State :=
  match found with
  | none => s
  | some st => { s with pwr := { s.pwr with
      delays := Tab.upd (fun _ => []) s.pwr.delays p (fun l => ((arrived - st.tb) :: l).take 256)
      awaited := Tab.upd (fun _ => []) s.pwr.awaited p (fun l => l.filter (fun t => decide (st.tb < t))) } }

/-- A trigger was sent on a port; the last 256 whose LINE_START is still to come are awaited (R362). -/
def State.awaitLine (s : State) (p tb : Nat) : State :=
  { s with pwr := { s.pwr with awaited := Tab.upd (fun _ => []) s.pwr.awaited p (fun l => (tb :: l).take 256) } }

/-- The port's tags start again: no line of an earlier trigger is awaited (R64, R362). -/
def State.awaitNone (s : State) (p : Nat) : State :=
  { s with pwr := { s.pwr with awaited := Tab.set (fun _ => []) s.pwr.awaited p [] } }

/-- Close the open line of a VC: complete, or SHORT with what was not received as 0; then check,
gap-fill, stamp and deliver it (R122 to R125). -/
def State.closeLine (s : State) (p vc : Nat) (extra : Nat) : State :=
  match (s.vcOf p vc).line with
  | none => s
  | some o =>
    let s := s.onVc p vc (fun v => { v with line := none })
    let need := match o.dt with
      | some dt => lineBytes o.pixels dt
      | none => 0
    let short := o.dt.isNone || o.bytes.length != need
    let v := s.vcOf p vc
    let c := checkLine s p vc o
    if c = .stale then
      (s.onVc p vc (fun v => { v with stale := v.stale + 1 })).count .lnk (DLK_CNT_STALE p)
    else
      let n := seqStep s p vc o
      let missing := match c with
        | .gap k => k
        | _ => 0
      let tags := (List.range missing).map (fun i =>
        if o.tagValid then some (((v.ref.map (fun r => r.1)).getD 0 + (i + 1) * n) % 2 ^ 16) else none)
      let s := s.insertMissing p vc o.pixels o.dt tags false
      let s := if c = .resync then s.count .lnk (DLK_CNT_RESYNC p) else s
      let s := s.onVc p vc (fun v => { v with ref := some (o.tag, o.number), stale := 0 })
      let fl := o.flags ||| extra ||| (if short then flShort else 0) ||| (if o.held then flHeld else 0) |||
        (if c = .resync then flResync else 0)
      let l : CamLine :=
        { port := p, vc := vc, dt := o.dt, pixels := o.pixels, col0 := o.col0, bytes := padTo need o.bytes
          flags := fl, stamp := zeroStamp, phase := o.phase, frame := none, arrived := s.now }
      let found := match (s.vcOf p vc).frame with
        | some f => f.stamp
        | none => if o.tagValid then tagStamp s p o.tag else none
      (s.noteDelay p o.arrived found).deliverStamped l found (some o.arrived)

/-- Close a line SHORT and count it (R123). -/
def State.closeShort (s : State) (p vc : Nat) : State :=
  if (s.vcOf p vc).line.isSome then (s.closeLine p vc flShort).count .lnk (DLK_CNT_SHORT p) else s

/-- Sequences and line references start afresh (R118, R124). -/
def freshVcs : Tab VcSt :=
  (List.range 16).foldl (fun m v => Tab.set (fun _ => VcSt.init) m v { VcSt.init with seq := some 0 }) []

/-- What an entry of the receive buffer that is no packet does (R109, R118, R123). -/
def State.markDo (s : State) (p : Nat) : RxItem → State
  | .packet _ => s
  | .lost vc => s.closeLine p vc flShort
  | .left => s.each (List.range 16) (fun s v => s.closeShort p v)
  | .fresh => s.onLnk p (fun x => { x with vc := freshVcs })

/-- Such an entry takes its place behind the packets that wait; with none waiting it acts now. -/
def State.mark (s : State) (p : Nat) (e : RxItem) : State :=
  if (s.lnkPort p).committed = [] then s.markDo p e
  else s.onLnk p (fun x => { x with committed := x.committed ++ [e] })

/-- The port leaves ACTIVE: every open line is closed SHORT once the packets before are handled (R91, R123); nothing
of a packet in progress is delivered. -/
def State.closePort (s : State) (p : Nat) : State :=
  let s := s.onLnk p (fun x => { x with asm := none, skip := true })
  s.mark p .left

/-- The frame ends: missing lines are completed with replacement lines (R153); the camera's line counter has passed
them too (R121), and so does the reference. -/
def State.endFrame (s : State) (p vc : Nat) : State :=
  match (s.vcOf p vc).frame with
  | none => s
  | some f =>
    let k := f.lines - f.seen
    let s := if (vcStreams s p vc).any (fun t => areaMode s t) then s.insertMissing p vc 0 none (List.replicate k none) true else s
    s.onVc p vc (fun v => { v with frame := none, ref := v.ref.map (fun r => (r.1, (r.2 + k) % 2 ^ 32)) })

/-! ### The outstanding register request (R128, R129) -/

/-- End the outstanding register request with a result (R128). -/
def State.endReg (s : State) (p result : Nat) : State :=
  let s := s.onLnk p (fun x => { x with reg := none })
  let s := (s.put .lnk (DLK_REG_STATUS p) 27 24 result).setb .lnk (DLK_REG_STATUS p) 30 true
  (s.setb .lnk (DLK_REG_STATUS p) 31 false).setb .lnk (DLK_REG_CMD p) 31 false

/-- A move of the port to back-off or OFF ends an outstanding request with LINK_DOWN (R129). -/
def State.regLinkDown (s : State) (p : Nat) : State :=
  if (s.lnkPort p).reg.isSome then s.endReg p 6 else s

end Sys2Proof.Machine
end

