-- ==== Sys2Proof/Machine/Lanes.lean ====
section
/-! DEFINITION. Lanes (R69 to R99, R333, R336): the training state machine, equalisation, hot plug, QUIET, eye
scan and test patterns.  Ports 0 to 23 are DL0 to DL23, ports 24 to 27 are CV0 to CV3, whose physical
pages have the same offsets (R333). -/
namespace Sys2Proof.Machine

def State.phyPort (s : State) (p : Nat) : PhyPort := Tab.get (fun _ => PhyPort.init) s.phy.port p

def State.onPhy (s : State) (p : Nat) (f : PhyPort → PhyPort) : State :=
  { s with phy := { s.phy with port := Tab.upd (fun _ => PhyPort.init) s.phy.port p f } }

/-- The address of a register of a port's physical page (R82, R333). -/
def phyAt (p off : Nat) : Nat := if p < 24 then DLP_CTRL p + off else CVY_CTRL (p - 24) + off

abbrev phyCtrl (p : Nat) : Nat := phyAt p 0x0
abbrev phyStatus (p : Nat) : Nat := phyAt p 0x4
abbrev phyPreset (p : Nat) : Nat := phyAt p 0x8
abbrev phyBackoff (p : Nat) : Nat := phyAt p 0xC
abbrev phyAttempt (p : Nat) : Nat := phyAt p 0x10
abbrev phyRecover (p : Nat) : Nat := phyAt p 0x14
abbrev phyDown (p : Nat) : Nat := phyAt p 0x18
/-- A lane register of a port (R82). -/
abbrev phyLane (p lane off : Nat) : Nat := phyAt p (0x100 + lane * 0x100 + off)

/-- States of DLP_STATUS.STATE (R82). -/
abbrev phOff : Nat := 0
abbrev phDetect : Nat := 1
abbrev phAcquire : Nat := 2
abbrev phLock : Nat := 3
abbrev phOrient : Nat := 4
abbrev phTune : Nat := 5
abbrev phDeskew : Nat := 6
abbrev phActive : Nat := 7
abbrev phRecover : Nat := 8
abbrev phQuiet : Nat := 9

/-- STATE of a port. -/
def portState (s : State) (p : Nat) : Nat := s.fld .phy (phyStatus p) 31 28

/-- BACKOFF: the back-channel is idle for back-off (R85). -/
def inBackoff (s : State) (p : Nat) : Bool := s.flag .phy (phyStatus p) 17

/-- ACTIVE, RECOVER or QUIET: triggers go out (R88) and a move away is DL_DOWN (R91). -/
def portUp (s : State) (p : Nat) : Bool := decide (7 ≤ portState s p)

/-- The port's reference clock is present (R89, R336). -/
def refOk (s : State) (p : Nat) : Bool := !s.flag .phy (phyStatus p) 18

/-- The back-channel runs: its transmit clock is DL_REFCLK0 for every Dunelink port (R19, R89). -/
def bcAlive (s : State) (p : Nat) : Bool := if p < 24 then refOk s 0 else refOk s p

/-- The lanes a port uses, as last taken at DETECT (R83, R84). -/
def cfgLanes (s : State) (p : Nat) : List Nat :=
  if p < 24 ∧ (s.phyPort p).lanes = 1 then [0, 1] else [0]

/-- The RATE in effect: as taken at DETECT while EN is 1, as it stands in the register otherwise (R83, R98). -/
def rateNow (s : State) (p : Nat) : Nat :=
  if s.flag .phy (phyCtrl p) 31 then (s.phyPort p).rate else s.fld .phy (phyCtrl p) 29 28

/-- PAM4 rates; span ports always (R69, R333). -/
def isPam4 (s : State) (p : Nat) : Bool := decide (24 ≤ p) || rateNow s p != 0

/-- Enter a state now. -/
def State.phyGo (s : State) (p st : Nat) : State :=
  (s.put .phy (phyStatus p) 31 28 st).onPhy p (fun x => { x with entered := s.now })

/-- A logical lane's marker lock, its mirror in DLK_STATUS (R105, R130) and, behind DESKEW, in FRAME of the physical lane
(R82). -/
def State.setLock (s : State) (p lane : Nat) (b : Bool) : State :=
  let s := s.onLnk p (fun x => if lane = 0 then { x with lane0 := { x.lane0 with locked := b } }
    else { x with lane1 := { x.lane1 with locked := b } })
  let s := if portUp s p then s.setb .phy (phyLane p (if s.flag .phy (phyStatus p) 19 then 1 - lane else lane) 0) 2 b else s
  if p < 24 then s.setb .lnk (DLK_STATUS p) lane b else s

/-- A lane forgets its group positions.  DESIGN CHOICE (log 85): the COUNT last taken stays, so the first one after a
loss of lock counts in DLK_FEC_AM_ERR unless it is the next. -/
def LaneSt.lose (l : LaneSt) : LaneSt :=
  { l with hits := 0, misses := 0, cands := [], place := none, cw := 0, arrivals := [], queue := [] }

/-- Forget the lanes' marker alignment (R105, R106). -/
def State.dropLocks (s : State) (p : Nat) : State :=
  let s := s.onLnk p (fun x => { x with lane0 := x.lane0.lose, lane1 := x.lane1.lose, skew := none, rx := [] })
  let s := (s.setLock p 0 false).setLock p 1 false
  if p < 24 then s.setb .lnk (DLK_STATUS p) 3 false else s

/-- Training starts: the next data symbol is the first (R72). -/
def State.freshLanes (s : State) (p : Nat) : State :=
  s.onLnk p (fun x => { x with lane0 := { x.lane0 with fresh := true }, lane1 := { x.lane1 with fresh := true } })

def laneSt (s : State) (p lane : Nat) : LaneSt :=
  if lane = 0 then (s.lnkPort p).lane0 else (s.lnkPort p).lane1

/-- The logical lane a physical lane carries (R87): SWAPPED exchanges them for everything behind. -/
def logicalLane (s : State) (p lane : Nat) : Nat := if s.flag .phy (phyStatus p) 19 then 1 - lane else lane

/-- The skew in ps last measured on markers of the same COUNT; none before the first such pair (R106). -/
def skewPs (s : State) (p : Nat) : Option Nat := if cfgLanes s p = [0] then some 0 else (s.lnkPort p).skew

/-- Every configured lane is locked and the skew is at most 64 ns (R84, R106, R130). -/
def isAligned (s : State) (p : Nat) : Bool :=
  (cfgLanes s p).all (fun l => (laneSt s p l).locked) &&
    (match skewPs s p with
     | some k => decide (k ≤ 64000)
     | none => false)

/-- Leave ACTIVE, RECOVER or QUIET for back-off or OFF: DL_DOWN (R91), open lines SHORT (R123), an
outstanding request ends (R129). -/
def State.dlDown (s : State) (p : Nat) : State :=
  if !portUp s p then s
  else
    let s := (s.count .phy (phyDown p)).setb .phy (phyStatus p) 3 true
    if p < 24 then ((s.publish (0x1B0 + 4 * p + 1) 0#32).closePort p).regLinkDown p else s

/-- An eye scan ends with a status bit: 1 ABORTED, 2 DONE; START and ABORT clear, the counts stay readable (R96, R97). -/
def State.escanEnd (s : State) (p lane flag : Nat) : State :=
  let s := (s.setb .phy (phyLane p lane 0x24) 0 false).setb .phy (phyLane p lane 0x24) flag true
  s.put .phy (phyLane p lane 0x20) 31 30 0

/-- A measurement in progress stops with ABORTED (R97). -/
def State.escanStop (s : State) (p lane : Nat) : State :=
  if s.flag .phy (phyLane p lane 0x24) 0 then s.escanEnd p lane 1 else s

/-- The port leaves ACTIVE: eye scans stop (R97). -/
def State.leaveActive (s : State) (p : Nat) : State :=
  if portState s p = phActive then (s.escanStop p 0).escanStop p 1 else s

/-- Clear training bookkeeping. -/
def PhyPort.idle (x : PhyPort) : PhyPort :=
  { x with good0 := 0, good1 := 0, stat0 := none, stat1 := none, precodeReq := false, coef := none,
           tune := none, dataReady := false, quietReq := none, quietExit := none, seen := 0 }

/-- Clear CDR and FRAME of both lanes; SIG shows the signal as it is (R82). -/
def State.lanesDark (s : State) (p : Nat) : State :=
  (s.put .phy (phyLane p 0 0) 3 2 0).put .phy (phyLane p 1 0) 3 2 0

/-- Set SIG of both lanes (R82). -/
def State.sigAll (s : State) (p : Nat) (b : Bool) : State :=
  (s.setb .phy (phyLane p 0 0) 4 b).setb .phy (phyLane p 1 0) 4 b

/-- Training frames are 1,024 bits of 320 ps (R80); a span port's, of 4,096 symbols at 26.5625 GBd, last 154,202.35 ps,
taken as whole ps (R81, R333; log 12). -/
def framePs : Nat := 327680
def portFramePs (p : Nat) : Nat := if p < 24 then framePs else 154202

/-- The first instant at or after one in ps that is a phase off a multiple of a period. -/
def nextOn (period phase ps : Nat) : Nat :=
  if ps ≤ phase then phase else phase + (ps - phase + (period - 1)) / period * period

/-- Go to OFF, whatever the state was (R84); the back-channel goes to electrical idle (R90). -/
def State.phyOffNow (s : State) (p : Nat) : State :=
  let s := (s.leaveActive p).dlDown p
  let s := ((s.phyGo p phOff).setb .phy (phyStatus p) 17 false).onPhy p PhyPort.idle
  (s.lanesDark p).dropLocks p

/-- Enter DETECT: the stored settings are taken (R83), PRECODE_ON is cleared (R73), DLK_SKEW reads 0
(R106), the window starts (R84). -/
def State.phyDetect (s : State) (p : Nat) : State :=
  let c := s.rd .phy (phyCtrl p)
  let s := ((s.phyGo p phDetect).setb .phy (phyStatus p) 17 false).setb .phy (phyStatus p) 20 false
  let s := s.onPhy p (fun x => { x.idle with
    rate := bits c 29 28, lanes := bits c 27 27, precode := bits c 26 25,
    autoPol := bit c 18, autoSwap := bit c 17, sigFrom := s.now, frameAt := nextOn (portFramePs p) x.phase (s.now * 1000)
    dataReq := false, dataOn := false })
  let s := ((s.lanesDark p).dropLocks p).freshLanes p
  if p < 24 then s.put .lnk (DLK_SKEW p) 15 0 0 else s

/-- Back-off time after k failures: 16 ms * 2^min(k - 1, 6), in ns (R85). -/
def backoffNs (k : Nat) : Nat := 16000000 * 2 ^ min (k - 1) 6

/-- Enter back-off for a time (R85): STATE reads DETECT, BACKOFF reads 1. -/
def State.phyBackoffFor (s : State) (p ns : Nat) : State :=
  let s := (s.leaveActive p).dlDown p
  let s := (s.phyGo p phDetect).setb .phy (phyStatus p) 17 true
  let s := s.onPhy p (fun x => { x.idle with backoffEnd := s.now + ns })
  (s.lanesDark p).dropLocks p

/-- A failure: CAUSE, k and the attempt counter advance, back-off starts (R85). -/
def State.phyFail (s : State) (p cause : Nat) : State :=
  let k := capNat 15 (s.fld .phy (phyBackoff p) 3 0 + 1)
  let s := (s.phyBackoffFor p (backoffNs k)).put .phy (phyStatus p) 27 24 cause
  let s := s.put .phy (phyBackoff p) 3 0 k
  s.setRegs .phy (incAttempt (s.regs .phy) (phyAttempt p))

/-- Start the transmitter: the phase of its frames, the state of its PRBS generators and of its scrambler are free
values (logs 2, 12); a span port's has preset 5 (R416); then DETECT.  Lanes have no power in STANDBY and are idle in FAULT
(R361, R380). -/
def State.phyStart (s : State) (p : Nat) : State :=
  if s.fld .pwr PWR_STATUS 31 28 = 2 ∨ s.fld .pwr PWR_STATUS 31 28 = 4 then s else
  let ph := (s.drawn 32).toNat % portFramePs p
  let seed := (s.draw.drawn 9).toNat % 511 + 1
  let scr := (s.draw.draw.drawn 58).toNat
  let p13 := (s.draw.draw.draw.drawn 13).toNat % 8191 + 1
  let s := s.draw.draw.draw.draw
  ((s.onPhy p (fun x => { x with
    phase := ph, prbs9 := seed, prbs13 := p13, txPreset := 5, txCoef := (0, 0, 0), txState := (0, 0, 0), echo := 0
    txPrecode := false })).onLnk p (fun x => { x with scr := scr })).phyDetect p

/-! ### DLP_CTRL (R82, R83, R84, R98) -/

/-- RETRAIN: k is cleared and training restarts, at once or through a back-off of 16 ms (R82, R91). -/
def State.retrain (s : State) (p : Nat) : State :=
  if portState s p = phOff then s
  else
    let s := s.put .phy (phyBackoff p) 3 0 0
    if portUp s p then s.phyBackoffFor p 16000000 else s.phyDetect p

/-- A write to DLP_CTRL: stored by its fields; EN starts or stops the port, RETRAIN acts; span ports
keep their fixed fields (R82, R83, R84, R98, R333). -/
def State.phyCtrlWrite (s : State) (p : Nat) (v : Word) : State :=
  let old := s.rd .phy (phyCtrl p)
  let fixed : Word := maskOf 29 24
  let w := if p < 24 then v else (v &&& ~~~ fixed) ||| (old &&& fixed)
  let s := s.store .phy (phyCtrl p) w
  let s := if 24 ≤ p ∧ (v ^^^ old) &&& fixed ≠ 0#32 then s.setb .phy (phyStatus p) 7 true else s
  let s := if bit v 31 && !bit old 31 then
      let s := (s.put .phy (phyLane p 0 0x40) 31 31 0).put .phy (phyLane p 1 0x40) 31 31 0
      let s := (s.setb .phy (phyLane p 0 0x40) 26 false).setb .phy (phyLane p 0 0x40) 25 false
      let s := (s.setb .phy (phyLane p 1 0x40) 26 false).setb .phy (phyLane p 1 0x40) 25 false
      if refOk s p then s.phyStart p else s
    else if !bit v 31 && bit old 31 then s.phyOffNow p
    else s
  if bit v 30 then s.retrain p else s

/-! ### Training frames (R80, R81, R84, R87) -/

/-- Whether Apnik sends training frames: DETECT to DESKEW, not in back-off (R80). -/
def inTraining (s : State) (p : Nat) : Bool :=
  decide (1 ≤ portState s p ∧ portState s p ≤ 6) && !inBackoff s p

/-- Bits 47:8 of the request field (R80).  DESIGN CHOICE (log 86): while PRESET_LOAD is 0, PRESET is the preset in
force in TUNE and 0 in every other state. -/
def requestField (s : State) (p : Nat) : Nat :=
  let x := s.phyPort p
  let co (k : Nat) : Nat := match x.coef with
    | some (.step c up, _) => if c = k then (if up then 1 else 2) else 0
    | _ => 0
  let pre : Nat × Nat := match x.coef with
    | some (.preset n, _) => (n, 1)
    | _ => (match x.tune with | some t => t.cur | none => 0, 0)
  portState s p * 2 ^ 36 + x.rate % 4 * 2 ^ 34 + x.lanes % 2 * 2 ^ 33 + b2n x.precodeReq * 2 ^ 32 +
    b2n (portState s p == phDeskew) * 2 ^ 31 + pre.1 % 8 * 2 ^ 28 + pre.2 * 2 ^ 27 +
    co 1 * 2 ^ 25 + co 0 * 2 ^ 21

/-- The CRC-16 of training fields, trigger blocks and packet headers (R80, R117): polynomial 0x1021,
initial 0xFFFF, most significant bit first. -/
def crc16 (w x : Nat) : Nat := crcMsb 16 0x1021 0xFFFF (bitsMsb w x)

/-- SEQ advances whenever bits 47:8 of the field sent change (R80). -/
def PhyPort.send (x : PhyPort) (f : Nat) : PhyPort :=
  if x.sent = f then x else { x with sent := f, seq := (x.seq + 1) % 256 }

/-- The 64 bits a training frame carries: the request field and its CRC (R80). -/
def requestBits (x : PhyPort) : Nat :=
  let f := x.sent * 256 + x.seq
  f * 2 ^ 16 + crc16 48 f

/-- The marker of a back-channel training frame: 16 bits 1, 16 bits 0 (R80). -/
def frameMarker : List Bool := List.replicate 16 true ++ List.replicate 16 false

/-- The next training frame, bit 0 first: marker, request field and CRC, and 928 bits of PRBS9 that go on from the
frame before; the frame after it follows at once (R80). -/
def PhyPort.sendFrame (x : PhyPort) : PhyPort :=
  let r := prbsRun 1 928 x.prbs9
  { x with prbs9 := r.2, frameAt := x.frameAt + framePs
           frame := BitVec.ofNat 1024 (ofLsb (frameMarker ++ bitsMsb 64 (requestBits x) ++ r.1)) }

/-- The status field a span port reports to its partner (R81, R333; log 139): BC_LOCK after three good frames in
succession, the one rate as RATES 0b1000, precoding as asked for, DATA_READY as an answer to DATA_REQ. -/
def spanStatus (x : PhyPort) : Nat :=
  b2n (decide (3 ≤ x.seen)) * 2 ^ 46 + 2 ^ 45 + 2 ^ 41 + b2n x.txPrecode * 2 ^ 40 + b2n x.dataReq * 2 ^ 39 +
    x.txPreset % 8 * 2 ^ 36 + x.txState.1 % 4 * 2 ^ 34 + x.txState.2.1 % 4 * 2 ^ 32 + x.txState.2.2 % 4 * 2 ^ 30 + x.echo % 256

/-- The next training frame of a span port (R81, R333): marker, status field and CRC, request field and CRC, one bit per
symbol; then PRBS13 in 3,936 symbols, precoded if precoding is on.  Behind a frame with DATA_READY data begins. -/
def PhyPort.sendRxFrame (x : PhyPort) : PhyPort :=
  let f := spanStatus x
  let r := prbsRun 2 7872 x.prbs13
  let plain := List.replicate 16 true ++ List.replicate 16 false ++ bitsMsb 48 f ++ bitsMsb 16 (crc16 48 f) ++
    bitsMsb 64 (requestBits x)
  let syms := plain.map (fun b => if b then 3 else 0) ++ lineSymbols x.txPrecode 0 r.1
  { x with prbs13 := r.2, frameAt := x.frameAt + portFramePs 24, dataOn := x.dataReq
           rxFrame := BitVec.ofNat 8192 (syms.foldr (fun v n => v + 4 * n) 0) }

/-- The transmitter of a span port goes over to data (R84, R334): an alignment marker comes first. -/
def LnkPort.startData (x : LnkPort) : LnkPort := { x with txBlocks := [], txCws := 0, txPrev := 0 }

/-- BC_TRAINING_FRAME (R80, R81, R333): due at each frame boundary while training frames go out. -/
def execBcTrainingFrame (p : Fin 28) (s : State) : Host.Outcome State Fault Refusal :=
  .next (if inTraining s p && bcAlive s p && s.outputsOn && decide ((s.phyPort p).frameAt ≤ s.now * 1000) then
      if p.val < 24 then s.onPhy p (fun x => (x.send (requestField s p)).sendFrame)
      else if (s.phyPort p).dataOn then s
      else
        let s := s.onPhy p (fun x => (x.send (requestField s p)).sendRxFrame)
        if (s.phyPort p).dataOn then s.onLnk p LnkPort.startData else s
    else s)

/-- Ask the camera for a preset (R79). -/
def State.askPreset (s : State) (p n : Nat) : State :=
  s.onPhy p (fun x => { x with
    coef := some (.preset n, s.now), tune := x.tune.map (fun t => { t with cur := n, adapting := none }) })

/-- Ask the camera for one step of a coefficient (R79). -/
def State.askStep (s : State) (p coef : Nat) (up : Bool) : State :=
  s.onPhy p (fun x => { x with
    coef := some (.step coef up, s.now)
    tune := x.tune.map (fun t => { t with up := up, adapting := none }) })

/-- Enter TUNE: the presets of MASK from the lowest; MASK 0 means preset 0 and CFG_ERR (R84). -/
def State.enterTune (s : State) (p : Nat) : State :=
  let mask := s.fld .phy (phyPreset p) 7 0
  let ps := if mask = 0 then [0] else idxs 8 (fun i => tbit mask i)
  let s := if mask = 0 then s.setb .phy (phyStatus p) 7 true else s
  let s := (s.phyGo p phTune).onPhy p (fun x => { x with
    tune := some ⟨.search ps.tail, ps.headD 0, none, true, true, 0, none⟩ })
  s.askPreset p (ps.headD 0)

/-- Fine-tuning and the preset search are done: DESKEW, or EYE_LOW (R84). -/
def State.tuneFinish (s : State) (p fom : Nat) : State :=
  if fom < s.fld .phy (phyPreset p) 31 24 then s.phyFail p 8
  else ((s.phyGo p phDeskew).freshLanes p).onPhy p (fun x => { x with tune := none, coef := none })

/-- Take a coefficient for fine-tuning, or finish after c(-1) or 16 steps (R84). -/
def State.fineFrom (s : State) (p coef : Nat) (up : Bool) : State :=
  match (s.phyPort p).tune with
  | none => s
  | some t =>
    if 2 ≤ coef ∨ 16 ≤ t.steps then s.tuneFinish p ((t.best.map (fun b => b.1)).getD 0)
    else
      let s := s.onPhy p (fun x => { x with tune := some { t with phase := .fine coef, steps := t.steps + 1 } })
      s.askStep p coef up

/-- The preset kept is in force: fine-tuning if FINE = 1 (R84). -/
def State.tuneKept (s : State) (p : Nat) (up : Bool) : State :=
  if s.flag .phy (phyCtrl p) 22 then s.fineFrom p 0 up
  else match (s.phyPort p).tune with
    | some t => s.tuneFinish p ((t.best.map (fun b => b.1)).getD 0)
    | none => s

/-- Whether an answer carries the SEQ of the request in force (R79). -/
def echoed (s : State) (p status : Nat) : Bool :=
  let x := s.phyPort p
  x.sent == requestField s p && status % 256 == x.seq

/-- The state the camera reports for a coefficient: 0 is c(+1), 1 is c(-1) (R81). -/
def coefState (status coef : Nat) : Nat := if coef = 0 then nbits status 31 30 else nbits status 35 34

/-- A status field answers the outstanding request, or not yet (R79).  DESIGN CHOICE (log 126): on two lanes the status of
the first configured lane that echoes SEQ is the answer.  DESIGN CHOICE (log 87): a fine step answered MIN
or MAX ends its coefficient without a new FOM, and counts as one of the 16 steps. -/
def State.tuneAnswer (s : State) (p status : Nat) : State :=
  let x := s.phyPort p
  match x.coef, x.tune with
  | some (c, _), some t =>
    if !echoed s p status then s
    else match c with
      | .preset n =>
        if nbits status 38 36 ≠ n then s
        else
          let s := s.onPhy p (fun x => { x with coef := none })
          (match t.phase with
            | .keep => s.tuneKept p t.next
            | _ => s.onPhy p (fun x => { x with tune := some { t with adapting := some s.now } }))
      | .step k _ =>
        if coefState status k = 0 then s
        else s.onPhy p (fun x => { x with coef := some (.hold (decide (2 ≤ coefState status k)), s.now) })
      | .hold limit =>
        if nbits status 35 30 ≠ 0 then s
        else
          let s := s.onPhy p (fun x => { x with coef := none })
          (match t.phase with
            | .undo k => s.fineFrom p (k + 1) t.next
            | .fine k =>
              if limit then s.fineFrom p (k + 1) t.next
              else s.onPhy p (fun x => { x with tune := some { t with adapting := some s.now } })
            | _ => s)
  | _, _ => s

/-- The eyes of a lane that count for its FOM: all three, or the middle one in NRZ (R84). -/
def laneFom (pam4 : Bool) (e : Nat × Nat × Nat) : Nat := if pam4 then min e.1 (min e.2.1 e.2.2) else e.2.1

/-- The FOM of the port: the smallest over the lanes' eyes (R84). -/
def portFom (pam4 : Bool) (eyes : List (Nat × Nat × Nat)) : Nat :=
  match eyes.map (laneFom pam4) with
  | [] => 0
  | f :: fs => fs.foldl min f

/-- Adaptation before a measurement: 1 ms after a preset, 300 us after a fine step, in ns (R84). -/
def adaptNs : TunePhase → Nat
  | .search _ => 1000000
  | _ => 300000

/-- Write the eye heights measured (R82).  DESIGN CHOICE (log 88): a height above 255 steps reads 255. -/
def State.putFoms (s : State) (p : Nat) (eyes : List (Nat × Nat × Nat)) : State :=
  s.each (cfgLanes s p) (fun s l =>
    let e := atD eyes l (0, 0, 0)
    s.wr .phy (phyLane p l 0x18) (BitVec.ofNat 32 (capNat 255 e.1 * 65536 + capNat 255 e.2.1 * 256 + capNat 255 e.2.2)))

/-- A FOM was measured: the next preset, step or end (R84). -/
def State.tuneMeasured (s : State) (p fom : Nat) (t : TuneSt) (up : Bool) : State :=
  let put (s : State) (t : TuneSt) : State := s.onPhy p (fun x => { x with tune := some t })
  let bestFom := (t.best.map (fun b => b.1)).getD 0
  match t.phase with
  | .search todo =>
    let best := match t.best with
      | none => (fom, t.cur)
      | some b => if b.1 < fom then (fom, t.cur) else b
    let t := { t with best := some best, next := up, adapting := none }
    (match todo with
      | n :: rest => (put s { t with phase := .search rest }).askPreset p n
      | [] =>
        let s := (put s { t with phase := .keep }).put .phy (phyStatus p) 23 21 best.2
        if best.2 = t.cur then s.tuneKept p up else s.askPreset p best.2)
  | .fine k =>
    if fom < bestFom then
      (put s { t with phase := .undo k, next := up, adapting := none }).askStep p k (!t.up)
    else
      let t := { t with best := some (fom, t.cur), next := up, adapting := none }
      (put s t).fineFrom p k t.up
  | _ => s

/-- TUNE_STEP_END (R84): the eye heights measured per lane (upper, middle, lower), and the direction
Apnik takes next where the manual leaves it to it. -/
def execTuneStepEnd (p : Fin 28) (eyes : List (Nat × Nat × Nat)) (up : Bool) (s : State) :
    Host.Outcome State Fault Refusal :=
  .next (match (s.phyPort p).tune with
    | none => s
    | some t =>
      match t.adapting with
      | none => s
      | some a =>
        if a + adaptNs t.phase ≤ s.now ∧ eyes.length = (cfgLanes s p).length then
          (s.putFoms p eyes).tuneMeasured p (portFom (isPam4 s p) eyes) t up
        else s)

/-- COEF_TIMEOUT (R79): a request or its HOLD unanswered for 1 ms fails training. -/
def execCoefTimeout (p : Fin 28) (s : State) : Host.Outcome State Fault Refusal :=
  .next (match (s.phyPort p).coef with
    | some (_, since) => if since + 1000000 ≤ s.now then s.phyFail p 7 else s
    | none => s)

/-- Precoding settles in ORIENT (R73): none means it is not settled yet. -/
inductive Precode where
  | settled (on : Bool) | ask | fail
  deriving DecidableEq, Repr

/-- Negotiation of precoding from a status field (R73). -/
def precodeStep (s : State) (p status : Nat) : Precode :=
  let mode := if p < 24 then (s.phyPort p).precode else 1
  let cap := tbit status 41
  if !isPam4 s p || mode == 0 then .settled false
  else if !cap then (if mode = 2 then .fail else .settled false)
  else if tbit status 40 then .settled true else .ask

/-- ORIENT with the status fields of the configured lanes: lane order, rates, precoding (R73, R87).  DESIGN CHOICE
(log 89): on two lanes RATES, PRECODE_CAP and PRECODE_ON are those physical lane 0 reports. -/
def State.orient (s : State) (p : Nat) : State :=
  let x := s.phyPort p
  let st0 := x.stat0.getD 0
  let st1 := x.stat1.getD 0
  let two := decide (cfgLanes s p = [0, 1])
  let id0 := tbit st0 47
  let id1 := tbit st1 47
  let bad := if two then id0 == id1 || (id0 && !x.autoSwap) else id0
  if bad then s.phyFail p 4
  else
    let s := (s.setb .phy (phyLane p 0 0) 0 id0).setb .phy (phyLane p 1 0) 0 (two && id1)
    let s := s.setb .phy (phyStatus p) 19 (two && id0)
    if p < 24 ∧ ¬ tbit st0 (42 + x.rate % 4) then s.phyFail p 5
    else match precodeStep s p st0 with
      | .fail => s.phyFail p 6
      | .ask => s.onPhy p (fun x => { x with precodeReq := true })
      | .settled on => (s.setb .phy (phyStatus p) 20 on).enterTune p

/-- A good frame on a lane: its status and the count of frames with BC_LOCK in succession (R84). -/
def PhyPort.goodFrame (x : PhyPort) (lane status : Nat) : PhyPort :=
  let lock := tbit status 46
  if lane = 0 then { x with stat0 := some status, good0 := if lock then x.good0 + 1 else 0, seen := x.seen + 1 }
  else { x with stat1 := some status, good1 := if lock then x.good1 + 1 else 0 }

/-- A frame with a bad CRC, or not found, breaks the succession (R84). -/
def PhyPort.badFrame (x : PhyPort) (lane : Nat) : PhyPort :=
  if lane = 0 then { x with good0 := 0, seen := 0 } else { x with good1 := 0 }

/-- Three good frames in succession on every configured lane (R84). -/
def framesLocked (s : State) (p : Nat) : Bool :=
  let x := s.phyPort p
  (cfgLanes s p).all (fun l => decide (3 ≤ (if l = 0 then x.good0 else x.good1)))

/-- One coefficient of a span port's own transmitter moved by a request; a limit the manual does not
give for it is a free value (log 2): steps, and the state to report (R79). -/
def txStep (limit : Bool) (req : Nat) (c : Int) : Int × Nat :=
  match req with
  | 1 => if limit then (c, 3) else (c + 1, 1)
  | 2 => if limit then (c, 2) else (c - 1, 1)
  | _ => (c, 0)

/-- A partner's request field on a span port: Apnik meets the camera's obligations of R73, R79 and R84 (R333). -/
def State.txRequest (s : State) (p : Nat) (bits64 : BitVec 64) : State :=
  let f := bits64.toNat / 2 ^ 16
  if crc16 48 f ≠ bits64.toNat % 2 ^ 16 then s
  else
    let s := s.onPhy p (fun x => { x with txPrecode := tbit f 40, dataReq := tbit f 39 })
    let x := s.phyPort p
    if f % 256 = x.echo then s
    else if tbit f 35 then
      s.onPhy p (fun x => { x with txPreset := nbits f 38 36, txCoef := (0, 0, 0), txState := (0, 0, 0),
                                   echo := f % 256 })
    else
      let limit := (s.drawn 1) == 1#1
      let a := txStep limit (nbits f 34 33) x.txCoef.1
      let b := txStep limit (nbits f 32 31) x.txCoef.2.1
      let c := txStep limit (nbits f 30 29) x.txCoef.2.2
      s.draw.onPhy p (fun x => { x with
        txCoef := (a.1, b.1, c.1), txState := (a.2, b.2, c.2), echo := f % 256 })

/-- RX_TRAINING_FRAME (R79, R81, R84, R87): a frame's status field and CRC on a physical lane, whether
its marker arrived inverted, and on a span port the partner's request field (R333). -/
def execRxTrainingFrame (p : Fin 28) (lane : Fin 2) (status : BitVec 48) (crc : BitVec 16) (inverted : Bool)
    (request : Option (BitVec 64)) (s : State) : Host.Outcome State Fault Refusal :=
  let x := s.phyPort p
  let st := portState s p
  let found := crc16 48 status.toNat == crc.toNat && (!inverted || x.autoPol)
  .next (if ¬ (3 ≤ st ∧ st ≤ 6) ∨ inBackoff s p ∨ ¬ (cfgLanes s p).contains lane then s
    else if !found then s.onPhy p (fun x => x.badFrame lane)
    else
      let s := s.onPhy p (fun x => x.goodFrame lane status.toNat)
      let s := if st ≤ phOrient then s.setb .phy (phyLane p lane 0) 1 inverted else s
      let s := match request with
        | some r => if 24 ≤ p.val then s.txRequest p r else s
        | none => s
      if st = phLock then
        let own := if lane.val = 0 then (s.phyPort p).good0 else (s.phyPort p).good1
        let s := if 3 ≤ own then s.setb .phy (phyLane p lane 0) 2 true else s
        if framesLocked s p then (s.phyGo p phOrient).orient p else s
      else if st = phOrient then s.orient p
      else if st = phTune then s.tuneAnswer p status.toNat
      else if tbit status.toNat 39 then s.onPhy p (fun x => { x with dataReady := true }) else s)

/-! ### Moves of the state machine (R84 to R86, R91) -/

/-- The lanes LANES selects as it stands; a span port has one (R84, R98, R333). -/
def testLanes (s : State) (p : Nat) : List Nat := if p < 24 ∧ s.flag .phy (phyCtrl p) 27 then [0, 1] else [0]

/-- A test mode runs on a lane: DLP_CTRL.EN is 0, LANES takes it, and its checker is on (R98). -/
def testing (s : State) (p lane : Nat) : Bool :=
  !s.flag .phy (phyCtrl p) 31 && (testLanes s p).contains lane && s.flag .phy (phyLane p lane 0x40) 31

/-- Start the exit from QUIET (R93): STATE stays QUIET until markers are found (R95). -/
def State.quietExitStart (s : State) (p : Nat) : State :=
  if portState s p = phQuiet ∧ (s.phyPort p).quietExit.isNone then
    s.onPhy p (fun x => { x with quietExit := some s.now })
  else s

/-- Every configured lane shows a bit of DLP_LANE_STATUS. -/
def lanesShow (s : State) (p bit : Nat) : Bool := (cfgLanes s p).all (fun l => s.flag .phy (phyLane p l 0) bit)

/-- SIG_DETECTED (R82, R84, R86, R93, R95): there is a signal on a lane, and SIG shows it.  In DETECT the port goes on once
every configured lane has had one for 100 us; in QUIET a signal on a configured lane starts the exit. -/
def execSigDetected (p : Fin 28) (lane : Fin 2) (s : State) : Host.Outcome State Fault Refusal :=
  let st := portState s p
  let conf := (cfgLanes s p).contains lane
  let first := !s.flag .phy (phyLane p lane 0) 4
  let s := s.setb .phy (phyLane p lane 0) 4 true
  .next (if !conf then s
    else if st = phDetect ∧ ¬ inBackoff s p then
      let s := if first then s.onPhy p (fun x => { x with sigFrom := s.now }) else s
      if bcAlive s p ∧ lanesShow s p 4 ∧ (s.phyPort p).sigFrom + 100000 ≤ s.now then s.phyGo p phAcquire else s
    else if p.val < 24 then s.quietExitStart p else s)

/-- CDR_LOCK (R82, R84, R95, R98): a lane's CDR has locked, and CDR shows it; in ACQUIRE the port goes on once every
configured lane's has.  In RECOVER, in an exit from QUIET and in a test mode it only shows. -/
def execCdrLock (p : Fin 28) (lane : Fin 2) (s : State) : Host.Outcome State Fault Refusal :=
  let st := portState s p
  let conf := (cfgLanes s p).contains lane
  let show' (s : State) : State := s.setb .phy (phyLane p lane 0) 3 true
  .next (if st = phAcquire ∧ conf then
      let s := show' s
      if lanesShow s p 3 then s.phyGo p phLock else s
    else if conf ∧ (st = phRecover ∨ (st = phQuiet ∧ (s.phyPort p).quietExit.isSome)) then show' s
    else if st = phOff ∧ testing s p lane then show' s
    else s)

/-- Entry to ACTIVE from DESKEW (R64, R84, R91, R118, R124): k = 0, DL_UP, the tag counter restarts,
SEQ and the line references start afresh; data blocks begin at the next training frame boundary. -/
def State.enterActive (s : State) (p : Nat) : State :=
  let s := (s.phyGo p phActive).put .phy (phyBackoff p) 3 0 0
  let s := s.setb .phy (phyStatus p) 2 true
  let s := s.onPhy p PhyPort.idle
  if p < 24 then
    let b := nextOn framePs (s.phyPort p).phase (s.now * 1000)
    let s := (s.onLnk p (fun x => { x with
      asm := none, skip := false, await := false, rx := [], lctlIn := [], trig := [], lctl := [], boundary := b
      sinceFill := 0 })).mark p .fresh
    (s.awaitNone p |>.onPortTrg p (fun x => { x with tag := 0 })).publish (0x1B0 + 4 * p) 0#32
  else s.onLnk p (fun x => { x with await := false, rx := [], cellIn := none, cells := [] })

/-- DESKEW_DONE (R84, R106): alignment markers on every configured lane within 64 ns of skew. -/
def execDeskewDone (p : Fin 28) (s : State) : Host.Outcome State Fault Refusal :=
  .next (if portState s p = phDeskew ∧ isAligned s p then s.enterActive p else s)

/-- Timeouts of the states, in ns, with their causes (R84). -/
def trainLimit : Nat → Option (Nat × Nat)
  | 1 => some (20000000, 1)
  | 2 => some (2000000, 2)
  | 3 => some (1000000, 3)
  | 4 => some (500000, 3)
  | 5 => some (100000000, 9)
  | 6 => some (2000000, 11)
  | 8 => some (1000000, 13)
  | _ => none

/-- TRAIN_TIMEOUT (R84): due when the state's timeout has passed. -/
def execTrainTimeout (p : Fin 28) (s : State) : Host.Outcome State Fault Refusal :=
  .next (match trainLimit (portState s p) with
    | some (ns, cause) =>
      if ¬ inBackoff s p ∧ (s.phyPort p).entered + ns ≤ s.now then s.phyFail p cause else s
    | none => s)

/-- BACKOFF_END (R85). -/
def execBackoffEnd (p : Fin 28) (s : State) : Host.Outcome State Fault Refusal :=
  .next (if inBackoff s p ∧ (s.phyPort p).backoffEnd ≤ s.now then s.phyDetect p else s)

/-- UNPLUG (R84, R86, R92): SIG absent for 10 us on a lane.  On a configured lane in ACQUIRE to DESKEW or RECOVER it
ends training; in DETECT the 100 us start anew; elsewhere, and on a lane that is not configured, it only shows. -/
def execUnplug (p : Fin 28) (lane : Fin 2) (s : State) : Host.Outcome State Fault Refusal :=
  let st := portState s p
  let s := s.setb .phy (phyLane p lane 0) 4 false
  .next (if ((2 ≤ st ∧ st ≤ 6) ∨ st = phRecover) ∧ (cfgLanes s p).contains lane then
      (s.phyFail p 12).setb .phy (phyStatus p) 4 true
    else if st = phDetect ∧ (cfgLanes s p).contains lane then s.onPhy p (fun x => { x with sigFrom := s.now })
    else s)

/-- Enter RECOVER (R84, R91): equaliser settings are kept, open lines are closed SHORT, nothing is
delivered before the first alignment marker after the return. -/
def State.enterRecover (s : State) (p : Nat) : State :=
  let s := s.leaveActive p
  let s := if p < 24 then s.closePort p else s
  let s := (s.phyGo p phRecover).count .phy (phyRecover p)
  let s := s.onPhy p (fun x => { x with quietReq := none, quietExit := none })
  (s.dropLocks p).onLnk p (fun x => { x with await := true })

/-- Loss of SIG, CDR or alignment on a configured lane in ACTIVE (R84, R105, R106). -/
def State.linkRecover (s : State) (p lane : Nat) (loss : LinkLoss) : State :=
  if portState s p = phActive ∧ (cfgLanes s p).contains lane then
    let s := s.enterRecover p
    match loss with
    | .sig => s.put .phy (phyLane p lane 0) 4 2 0
    | .cdr => s.put .phy (phyLane p lane 0) 3 2 0
    | .alignment => s.setb .phy (phyLane p lane 0) 2 false
  else s

/-- Return to ACTIVE from RECOVER or QUIET (R84, R91, R95). -/
def State.backToActive (s : State) (p : Nat) : State :=
  let s := s.each (cfgLanes s p) (fun s l => s.put .phy (phyLane p l 0) 4 2 7)
  (s.phyGo p phActive).onPhy p (fun x => { x with quietExit := none, quietReq := none })

/-- RECOVER_DONE (R84): CDR relocked, markers found, skew at most 64 ns. -/
def execRecoverDone (p : Fin 28) (s : State) : Host.Outcome State Fault Refusal :=
  .next (if portState s p = phRecover ∧ isAligned s p then s.backToActive p else s)

/-! ### Reference clocks (R89) -/

/-- The ports a DL_REFCLK feeds (R19). -/
def refPorts (r : Nat) : List Nat := (List.range 8).map (fun i => r * 8 + i)

/-- A port loses its reference: OFF with cause REFCLK_LOSS, REFCLK_LOST set (R89, R336). -/
def State.loseRef (s : State) (p : Nat) : State :=
  ((s.phyOffNow p).put .phy (phyStatus p) 27 24 14).setb .phy (phyStatus p) 18 true

/-- A port's reference returns: with EN = 1 it enters DETECT with k = 0 (R89, R336). -/
def State.gainRef (s : State) (p : Nat) : State :=
  let s := s.setb .phy (phyStatus p) 18 false
  if s.flag .phy (phyCtrl p) 31 && portState s p == phOff then
    (s.put .phy (phyBackoff p) 3 0 0).phyStart p
  else s

/-- DL_REFCLK_LOSS (R89, R390): the eight ports go to OFF; a contained fault. -/
def execDlRefclkLoss (r : Fin 3) (s : State) : Host.Outcome State Fault Refusal :=
  .next (if refOk s (r.val * 8) then ((s.each (refPorts r) State.loseRef)).contained 42 0x30 r 0 else s)

/-- DL_REFCLK_RETURN (R89). -/
def execDlRefclkReturn (r : Fin 3) (s : State) : Host.Outcome State Fault Refusal :=
  .next (if refOk s (r.val * 8) then s else s.each (refPorts r) State.gainRef)

/-! ### QUIET (R92 to R95) -/

/-- Refusal or silence on a QUIET request: QUIET_NAK, and no new request for 1 ms (R92). -/
def State.quietNak (s : State) (p : Nat) : State :=
  (s.setb .phy (phyStatus p) 5 true).onPhy p (fun x => { x with quietReq := none, quietHold := s.now + 1000000 })

/-- QUIET_ACK_TIMEOUT (R92): no answer within 10 us. -/
def execQuietAckTimeout (p : Fin 24) (s : State) : Host.Outcome State Fault Refusal :=
  .next (match (s.phyPort p).quietReq with
    | some t => if t + 10000 ≤ s.now then s.quietNak p else s
    | none => s)

/-- Queue a link-control message for the back-channel (R115). -/
def State.sendLctl (s : State) (p msg : Nat) : State := s.onLnk p (fun x => { x with lctl := x.lctl ++ [msg] })

/-- Wake a port in QUIET: the exit starts and a wake message goes out (R93, R129). -/
def State.wakePort (s : State) (p : Nat) : State :=
  if portState s p = phQuiet ∧ (s.phyPort p).quietExit.isNone then (s.quietExitStart p).sendLctl p 2 else s

/-- QUIET_EXIT (R93, R95): by a wake message Apnik sends, a trigger block, or the camera's signal. -/
def execQuietExit (p : Fin 24) (how : QuietExit) (s : State) : Host.Outcome State Fault Refusal :=
  .next (if portState s p = phQuiet ∧ (s.phyPort p).quietExit.isNone then
      match how with
      | .wake => s.wakePort p
      | .trigger => s.quietExitStart p
      | .signal => (s.quietExitStart p).each (cfgLanes s p) (fun s l => s.setb .phy (phyLane p l 0) 4 true)
    else s)

/-- QUIET_EXIT_DONE (R95): markers found with a skew of at most 64 ns. -/
def execQuietExitDone (p : Fin 24) (s : State) : Host.Outcome State Fault Refusal :=
  .next (if portState s p = phQuiet ∧ (s.phyPort p).quietExit.isSome ∧ isAligned s p then s.backToActive p
    else s)

/-- QUIET_EXIT_TIMEOUT (R84): 100 us from the exit's start. -/
def execQuietExitTimeout (p : Fin 24) (s : State) : Host.Outcome State Fault Refusal :=
  .next (match (s.phyPort p).quietExit with
    | some t => if portState s p = phQuiet ∧ t + 100000 ≤ s.now then s.enterRecover p else s
    | none => s)

/-! ### Equalisation (R74 to R77) -/

/-- A value moved by at most one code inside its range (R76). -/
def moveIn (lo hi : Int) (m : Move) (x : Int) : Int :=
  match m with
  | .down => if x ≤ lo then lo else x - 1
  | .stay => x
  | .up => if hi ≤ x then hi else x + 1

/-- Where tap i (1 to 12) sits: register offset, high and low bit (R82). -/
def tapField : Nat → Nat × Nat × Nat
  | 1 => (0x8, 31, 24)
  | 2 => (0x8, 21, 16)
  | 3 => (0x8, 13, 8)
  | 4 => (0x8, 5, 0)
  | 5 => (0xC, 29, 25)
  | 6 => (0xC, 24, 20)
  | 7 => (0xC, 19, 15)
  | 8 => (0xC, 14, 10)
  | 9 => (0xC, 9, 5)
  | 10 => (0xC, 4, 0)
  | 11 => (0x10, 9, 5)
  | _ => (0x10, 4, 0)

/-- Whether a value is frozen: bit i - 1 for tap i, 12 to 14 the thresholds, 15 the CTLE (R77, R82). -/
def frozen (s : State) (p lane i : Nat) : Bool := s.flag .phy (phyLane p lane 0x14) i

/-- An equaliser register was written in this cycle: the update of its values is discarded (R77). -/
def eqWritten (s : State) (p lane off : Nat) : Bool :=
  Tab.get (fun _ => 0) (s.phyPort p).eqAt (lane * 0x100 + off) == s.now + 1

/-- One update of tap i (R75, R76): a tap at the end of its range stays there and sets TAP_LIM.  DESIGN CHOICE (log 127):
each update of a tap that stands at the end of its range sets TAP_LIM, also one that does not move it. -/
def State.adaptTap (s : State) (p lane i : Nat) (m : Move) : State :=
  if frozen s p lane (i - 1) || eqWritten s p lane (tapField i).1 then s
  else
    let f := tapField i
    let w := f.2.1 + 1 - f.2.2
    let lo : Int := -(2 ^ (w - 1) : Nat)
    let hi : Int := (2 ^ (w - 1) - 1 : Nat)
    let x := moveIn lo hi m (sgn w (s.fld .phy (phyLane p lane f.1) f.2.1 f.2.2))
    let s := s.put .phy (phyLane p lane f.1) f.2.1 f.2.2 (unsgn w x)
    if x = lo ∨ x = hi then s.setb .phy (phyStatus p) 6 true else s

/-- One update of the CTLE: in ACTIVE only with CTLE_TRACK, and by at most one code per 1 ms (R76). -/
def State.adaptCtle (s : State) (p lane : Nat) (m : Move) : State :=
  let active := portState s p == phActive
  let last := Tab.get (fun _ => 0) (s.phyPort p).ctleAt lane
  let wait := active && decide (0 < last ∧ s.now + 1 < last + 1000000)
  if frozen s p lane 15 || eqWritten s p lane 4 || (active && !s.flag .phy (phyCtrl p) 23) || wait then s
  else
    let old := s.fld .phy (phyLane p lane 4) 4 0
    let x := (moveIn 0 24 m old).toNat
    if x = old then s
    else (s.put .phy (phyLane p lane 4) 4 0 x).onPhy p (fun y => { y with ctleAt := Tab.set (fun _ => 0) y.ctleAt lane (s.now + 1) })

/-- One update of the slicer thresholds (R76); the manual gives their codes no range. -/
def State.adaptThr (s : State) (p lane : Nat) (u m l : Move) : State :=
  let mv (i : Nat) (d : Move) (x : Int) : Int :=
    if frozen s p lane i then x
    else match d with
      | .down => x - 1
      | .stay => x
      | .up => x + 1
  let f (t : Int × Int × Int) : Int × Int × Int := (mv 14 u t.1, mv 13 m t.2.1, mv 12 l t.2.2)
  s.onPhy p (fun x => if lane = 0 then { x with thr0 := f x.thr0 } else { x with thr1 := f x.thr1 })

/-- Whether the receiver adapts: in TUNE, in ACTIVE, and in a test mode (R76, R98). -/
def adapts (s : State) (p lane : Nat) : Bool :=
  portState s p == phTune || portState s p == phActive || testing s p lane

/-- One UI of the receive lanes, in ps, as a fraction (R69, R333): by RATE, span ports at 26.5625 GBd. -/
def uiPs (s : State) (p : Nat) : Nat × Nat :=
  if 24 ≤ p then (640, 17)
  else match rateNow s p with
  | 2 => (1280, 33)
  | 3 => (320, 9)
  | _ => (80, 1)

/-- The update interval in ps: 2^(10 + ADAPT_RATE) UI, with ADAPT_RATE 0 in TUNE (R76). -/
def adaptEvery (s : State) (p : Nat) : Nat :=
  let r := if portState s p = phTune then 0 else s.fld .phy (phyCtrl p) 21 19
  2 ^ (10 + r) * (uiPs s p).1 / (uiPs s p).2

/-- The instant in ps at which a lane's next update is due. -/
def adaptDue (s : State) (p lane : Nat) : Nat := Tab.get (fun _ => 0) (s.phyPort p).adaptAt lane

/-- ADAPT_UPDATE (R76): the moves of the CTLE, taps 1 to 12, and the upper, middle and lower threshold; once in each
update interval. -/
def execAdaptUpdate (p : Fin 28) (lane : Fin 2) (moves : List Move) (s : State) :
    Host.Outcome State Fault Refusal :=
  .next (if adapts s p lane ∧ moves.length = adaptMoves ∧ adaptDue s p lane < (s.now + 1) * 1000 then
      let m (i : Nat) : Move := atD moves i .stay
      let due := max (adaptDue s p lane) (s.now * 1000) + adaptEvery s p
      let s := s.adaptCtle p lane (m 0)
      let s := s.each (List.range 12) (fun s i => s.adaptTap p lane (i + 1) (m (i + 1)))
      let s := s.adaptThr p lane (m 13) (m 14) (m 15)
      s.onPhy p (fun x => { x with adaptAt := Tab.set (fun _ => 0) x.adaptAt lane due })
    else s)

/-- The offset of an equaliser register (R82). -/
def eqOff : EqReg → Nat
  | .ctle => 0x4
  | .dfeA => 0x8
  | .dfeB => 0xC
  | .dfeC => 0x10
  | .freeze => 0x14

/-- A write to an equaliser register takes effect at once, and wins over an update in the same cycle (R77). -/
def State.eqWrite (s : State) (p lane off : Nat) (v : Word) : State :=
  (s.store .phy (phyLane p lane off) v).onPhy p (fun x => { x with
    eqAt := Tab.set (fun _ => 0) x.eqAt (lane * 0x100 + off) (s.now + 1) })

/-- EQ_REG_WRITE (R77). -/
def execEqRegWrite (p : Fin 28) (lane : Fin 2) (reg : EqReg) (v : Word) (s : State) :
    Host.Outcome State Fault Refusal :=
  .next (s.eqWrite p lane (eqOff reg) v)

/-! ### Eye scan (R96, R97) -/

/-- A write to DLP_ESCAN_CTRL: fields are stored; START begins a measurement or is refused; ABORT ends
one (R96, R97).  At RATE 0b00 an EYE other than 0b01 is a reserved encoding.  DESIGN CHOICE (log 90): with both set
in one write, the running measurement ends first and the new one starts. -/
def State.escanWrite (s : State) (p lane : Nat) (v : Word) : State :=
  let a := phyLane p lane 0x20
  let nrz := !isPam4 s p
  let badEye := nrz && bits v 29 28 != 1
  let w := if badEye then putBits v 29 28 (s.fld .phy a 29 28) else v
  let s := s.store .phy a (w &&& ~~~ maskOf 31 30)
  let s := if badEye then s.setb .phy (phyStatus p) 7 true else s
  let s := if bit v 30 then s.escanStop p lane else s
  if !bit v 31 then s
  else if portState s p = phActive ∧ ¬ s.flag .phy (phyLane p lane 0x24) 0 then
    let s := s.wr48 .phy (phyLane p lane 0x28) (phyLane p lane 0x2C) 0
    let s := s.wr .phy (phyLane p lane 0x30) 0#32
    (s.setb .phy a 31 true).setb .phy (phyLane p lane 0x24) 0 true
  else s.setb .phy (phyLane p lane 0x24) 1 true

/-- ESCAN_START (R96, R97): a write to DLP_ESCAN_CTRL. -/
def execEscanStart (p : Fin 28) (lane : Fin 2) (v : Word) (s : State) : Host.Outcome State Fault Refusal :=
  .next (s.escanWrite p lane v)

/-- What one received symbol adds to an eye scan (R96): it is compared if its main decision is a level beside the EYE
threshold, every symbol in NRZ; an error if the offset sampler puts it on the other side. -/
def escanSample (pam4 : Bool) (eye main : Nat) (above : Bool) : Option Bool :=
  if !pam4 then some (above != decide (2 ≤ main))
  else if main = eye then some above
  else if main = eye + 1 then some (!above)
  else none

/-- Symbols go through a running measurement, up to 2^DWELL compared (R96). -/
def State.escanTake (s : State) (p lane : Nat) (samples : List (Fin 4 × Bool)) : State :=
  if !s.flag .phy (phyLane p lane 0x24) 0 then s
  else
    let lo := phyLane p lane 0x28
    let hi := phyLane p lane 0x2C
    let left := 2 ^ s.fld .phy (phyLane p lane 0x20) 27 22 - s.rd64 .phy lo hi
    let eye := s.fld .phy (phyLane p lane 0x20) 29 28
    let seen := (samples.filterMap (fun x => escanSample (isPam4 s p) eye x.1 x.2)).take left
    (s.wr48 .phy lo hi (s.rd64 .phy lo hi + seen.length)).countBy .phy (phyLane p lane 0x30) (seen.filter id).length

/-- ESCAN_ABORT (R97): the last symbols before the measurement stops: main decisions, and whether the offset sampler
put each above the offset threshold. -/
def execEscanAbort (p : Fin 28) (lane : Fin 2) (samples : List (Fin 4 × Bool)) (s : State) :
    Host.Outcome State Fault Refusal :=
  .next ((s.escanTake p lane samples).escanStop p lane)

/-- ESCAN_DONE (R96): symbols are compared; with 2^DWELL compared the measurement ends. -/
def execEscanDone (p : Fin 28) (lane : Fin 2) (samples : List (Fin 4 × Bool)) (s : State) :
    Host.Outcome State Fault Refusal :=
  .next (
    let s := s.escanTake p lane samples
    if s.flag .phy (phyLane p lane 0x24) 0 ∧
        2 ^ s.fld .phy (phyLane p lane 0x20) 27 22 ≤ s.rd64 .phy (phyLane p lane 0x28) (phyLane p lane 0x2C) then
      s.escanEnd p lane 2
    else s)

/-! ### Test patterns (R98, R99) -/

def State.chk (s : State) (p lane : Nat) : Checker := if lane = 0 then (s.phyPort p).chk0 else (s.phyPort p).chk1

def State.setChk (s : State) (p lane : Nat) (c : Checker) : State :=
  s.onPhy p (fun x => if lane = 0 then { x with chk0 := c } else { x with chk1 := c })

/-- A write to DLP_PRBS_CTRL (R98): EN and TX are ignored, with CFG_ERR, while DLP_CTRL.EN = 1; TX exists on lane 0
only, and its pattern starts at a free value (log 2).  DESIGN CHOICE (log 91): clearing EN clears LOCKED. -/
def State.prbsWrite (s : State) (p lane : Nat) (v : Word) : State :=
  let a := phyLane p lane 0x40
  let old := s.rd .phy a
  let on := s.flag .phy (phyCtrl p) 31
  let v1 := if lane = 0 then v else putBit v 26 false
  let w := if on then putBit (putBit v1 31 (bit old 31)) 26 (bit old 26) else v1
  let s := s.store .phy a w
  let s := if on && (bit v1 31 || bit v1 26) then s.setb .phy (phyStatus p) 7 true else s
  let s := if s.flag .phy a 26 && !bit old 26 then
      let n := (s.drawn 31).toNat
      let w := prbsLength (s.fld .phy a 30 28)
      s.draw.onPhy p (fun x => { x with txSeed := n % (2 ^ w - 1) + 1 })
    else s
  if !s.flag .phy a 31 then s.setb .phy a 25 false else if bit old 31 then s else s.setChk p lane .init

/-- PRBS_CTRL_WRITE (R98). -/
def execPrbsCtrlWrite (p : Fin 28) (lane : Fin 2) (v : Word) (s : State) : Host.Outcome State Fault Refusal :=
  .next (s.prbsWrite p lane v)

/-- Mismatches within 256 bits at which the checker unlocks (R99). -/
def unlockAt : Nat := 16

/-- One bit while the checker is not locked: it seeds itself from the received bits, then counts matches (R99). -/
def Checker.seek (c : Checker) (pat : Nat) (b : Bool) : Checker :=
  let w := prbsLength pat
  let hist := histPush w c.hist b
  if c.held < w then { c with hist := hist, held := c.held + 1, run := 0 }
  else { c with hist := hist, run := if prbsNext pat c.hist = b then c.run + 1 else 0 }

/-- One bit while locked: the prediction runs on by itself; whether the bit is a mismatch (R99).  DEDUCED (log 91):
a locked checker predicts from its own sequence, so that one wrong bit is one mismatch. -/
def Checker.check (c : Checker) (pat : Nat) (b : Bool) : Checker × Bool :=
  let q := prbsNext pat c.hist
  ({ c with hist := histPush (prbsLength pat) c.hist q, recent := ((q != b) :: c.recent).take 256 }, q != b)

/-- Add checked bits and mismatches (R99); the 48-bit count stops at its end (R23). -/
def State.prbsCount (s : State) (p lane checked errors : Nat) : State :=
  let n := s.rd64 .phy (phyLane p lane 0x48) (phyLane p lane 0x4C) + checked
  (s.wr48 .phy (phyLane p lane 0x48) (phyLane p lane 0x4C) (capNat (2 ^ 48 - 1) n)).countBy .phy
    (phyLane p lane 0x44) errors

/-- One received bit at the checker (R99): 64 matches in succession lock it; 16 mismatches within 256 bits unlock it,
and it seeds itself anew. -/
def State.checkBit (s : State) (p lane : Nat) (b : Bool) : State :=
  let a := phyLane p lane 0x40
  let pat := s.fld .phy a 30 28
  let b := xor b (s.flag .phy a 27)
  if s.flag .phy a 25 then
    let r := (s.chk p lane).check pat b
    let s := s.prbsCount p lane 1 (b2n r.2)
    if unlockAt ≤ (r.1.recent.filter id).length then (s.setb .phy a 25 false).setChk p lane .init
    else s.setChk p lane r.1
  else
    let c := (s.chk p lane).seek pat b
    if 64 ≤ c.run then (s.setb .phy a 25 true).setChk p lane { c with run := 0, recent := [] }
    else s.setChk p lane c

/-- The bits of decisions in a test mode: polarity as last found, no precoding, symbols by R71 (R98). -/
def testBits (s : State) (p lane : Nat) (decisions : List (Fin 4)) : List Bool :=
  (⟨isPam4 s p, s.flag .phy (phyLane p lane 0) 1, false⟩ : LineMode).bits 0 (decisions.map (fun v => v.val))

/-- Received decisions go through a running checker; the square wave is not checked (R99). -/
def State.checkAll (s : State) (p lane : Nat) (decisions : List (Fin 4)) : State :=
  if testing s p lane ∧ s.fld .phy (phyLane p lane 0x40) 30 28 < 5 then
    s.each (testBits s p lane decisions) (fun s b => s.checkBit p lane b)
  else s

/-- PRBS_LOCK (R99): decisions received by a checker that is not locked. -/
def execPrbsLock (p : Fin 28) (lane : Fin 2) (decisions : List (Fin 4)) (s : State) :
    Host.Outcome State Fault Refusal :=
  .next (if s.flag .phy (phyLane p lane 0x40) 25 then s else s.checkAll p lane decisions)

/-- PRBS_UNLOCK (R99): decisions received by a checker that is locked. -/
def execPrbsUnlock (p : Fin 28) (lane : Fin 2) (decisions : List (Fin 4)) (s : State) :
    Host.Outcome State Fault Refusal :=
  .next (if s.flag .phy (phyLane p lane 0x40) 25 then s.checkAll p lane decisions else s)

/-! ### What the back-channel carries (R80, R84, R85, R90, R98) -/

/-- What a port's back-channel sends. -/
inductive BcDrive where
  | idle | frames | blocks
  /-- A test pattern of R98; its first n bits or levels are `patternBits`. -/
  | pattern (pat seed : Nat)
  deriving DecidableEq, Repr

/-- The back-channel of a port: electrical idle in OFF without a test pattern, in back-off, without its clock and with
the core in reset, unpowered or in DEEP (R90); training frames from DETECT to DESKEW; data blocks behind (R84). -/
def bcDrive (s : State) (p : Nat) : BcDrive :=
  if !s.pwr.coreUp || !s.outputsOn || !bcAlive s p || inBackoff s p then .idle
  else if portState s p = phOff then
    (if s.flag .phy (phyLane p 0 0x40) 26 then .pattern (s.fld .phy (phyLane p 0 0x40) 30 28) (s.phyPort p).txSeed else .idle)
  else if portState s p ≤ phDeskew ∧ ¬ (24 ≤ p ∧ (s.phyPort p).dataOn) then .frames
  else .blocks

end Sys2Proof.Machine
end

