-- ==== Sys2Proof/Machine/Packets.lean ====
section
/-! DEFINITION. Dunelink framing and packets (R100 to R130): codewords, markers, blocks, packets, the back-channel
and camera register access. -/
namespace Sys2Proof.Machine

/-! ### Codewords (R107, R108) -/

/-- Change a lane's state. -/
def State.onLane (s : State) (p lane : Nat) (f : LaneSt → LaneSt) : State :=
  s.onLnk p (fun x => if lane = 0 then { x with lane0 := f x.lane0 } else { x with lane1 := f x.lane1 })

/-- Count a codeword in the 48-bit DLK_FEC_CW, which stops at its end (R107). -/
def State.countCw (s : State) (p lane : Nat) : State :=
  let n := s.rd64 .lnk (DLK_FEC_CW_LO p lane) (DLK_FEC_CW_HI p lane)
  s.wr48 .lnk (DLK_FEC_CW_LO p lane) (DLK_FEC_CW_HI p lane) (capNat (2 ^ 48 - 1) (n + 1))

/-- Corrected symbols in the 1 ms window; past THRESH it warns once (R108). -/
def State.fecWindow (s : State) (p lane k : Nat) : State :=
  let w := s.now / 1000000
  let s := s.onLane p lane (fun l =>
    if l.window = w then { l with corrected := l.corrected + k }
    else { l with window := w, corrected := k, warned := false })
  let l := laneSt s p lane
  let th := (s.rd .lnk (DLK_FEC_WARN p)).toNat
  if th ≠ 0 ∧ th < l.corrected ∧ ¬ l.warned then
    ((s.onLane p lane (fun l => { l with warned := true })).setb .lnk (DLK_STATUS p) 5 true).publish
      (0x1B0 + 4 * p + 2) (BitVec.ofNat 32 lane)
  else s

/-- A decoded codeword's counts (R107, R108): corrected symbols, none if uncorrectable. -/
def State.countCodeword (s : State) (p lane : Nat) (corrected : Option Nat) : State :=
  if 24 ≤ p then s
  else
    let s := s.countCw p lane
    match corrected with
    | none => s.count .lnk (DLK_FEC_UNCORR p lane)
    | some 0 => s
    | some k =>
      ((s.count .lnk (DLK_FEC_CORR_CW p lane)).countBy .lnk (DLK_FEC_CORR_SYM p lane) k).fecWindow p lane k

/-- Two lanes' blocks dealt in turn, lane 0 first (R102). -/
def dealt : List RxBlk → List RxBlk → List RxBlk
  | a :: as, b :: bs => a :: b :: dealt as bs
  | as, [] => as
  | [], bs => bs

/-- Codewords of both lanes with the same COUNT and place are dealt; one whose partner never comes is dropped (R102,
R106): the blocks, and what waits on each lane. -/
def dealQueues : Nat → List LaneCw → List LaneCw → List RxBlk × List LaneCw × List LaneCw
  | fuel + 1, a :: as, b :: bs =>
    let d := sgn 16 (a.grp + 2 ^ 16 - b.grp)
    if d = 0 ∧ a.cw = b.cw then
      let r := dealQueues fuel as bs
      (dealt a.blocks b.blocks ++ r.1, r.2)
    else if d < 0 ∨ (d = 0 ∧ a.cw < b.cw) then dealQueues fuel as (b :: bs)
    else dealQueues fuel (a :: as) bs
  | _, as, bs => ([], as, bs)

/-- What waits on the lanes goes on to the port: on one lane at once, on two as the lanes match (R102, R106). -/
def LnkPort.deal (x : LnkPort) (two : Bool) : LnkPort :=
  if two then
    let r := dealQueues (x.lane0.queue.length + x.lane1.queue.length) x.lane0.queue x.lane1.queue
    { x with rx := x.rx ++ r.1, lane0 := { x.lane0 with queue := r.2.1 }, lane1 := { x.lane1 with queue := r.2.2 } }
  else { x with rx := x.rx ++ (x.lane0.queue.map (fun c => c.blocks)).flatten, lane0 := { x.lane0 with queue := [] } }

/-- The blocks of a codeword from its k-th transcoded block on go to the deskew buffer, marked if it is uncorrectable
(R102, R107, R334).  A port in ACTIVE delivers them, after RECOVER from the first marker on (R91). -/
def State.passBlocks (s : State) (p lane k : Nat) (msg : List Bool) (errored : Bool) : State :=
  let l := laneSt s p lane
  let r := decodeBlocks l.scr (transcoded k msg)
  let s := s.onLane p lane (fun l => { l with scr := r.2 })
  if portState s p = phActive ∧ ¬ (s.lnkPort p).await then
    let c : LaneCw := ⟨l.grp, l.cw, r.1.map (fun b => ⟨b.1, b.2, errored⟩)⟩
    (s.onLane p lane (fun l => { l with queue := l.queue ++ [c] })).onLnk p
      (fun x => x.deal (decide (cfgLanes s p = [0, 1])))
  else s

/-- What a port's decisions on a physical lane go through (R71, R72, R87). -/
def lineMode (s : State) (p lane : Nat) : LineMode :=
  ⟨isPam4 s p, s.flag .phy (phyLane p lane 0) 1, s.flag .phy (phyStatus p) 20⟩

/-- A codeword's decisions, in the order received. -/
def cwDecisions (s : State) (p : Nat) (d : BitVec 5440) : List Nat := decisionsOf (isPam4 s p) (bitsMsb 5440 d.toNat)

/-- Codewords of a group (R104). -/
def groupCws : Nat := 40

/-- RX_CODEWORD (R103, R107, R108): the decisions of the next codeword of a group, behind its first, on a physical
lane. -/
def execRxCodeword (p : Fin 28) (lane : Fin 2) (decisions : BitVec 5440) (s : State) :
    Host.Outcome State Fault Refusal :=
  let ll := logicalLane s p lane
  let l := laneSt s p ll
  .next (if l.cw = 0 ∨ groupCws ≤ l.cw then s
    else
      let m := lineMode s p lane
      let vs := cwDecisions s p decisions
      let d := decodeCodeword (m.bits l.prev vs)
      let s := s.onLane p ll (fun l => { l with cw := l.cw + 1, prev := m.last l.prev vs })
      (s.countCodeword p ll d.2).passBlocks p ll 0 d.1 d.2.isNone)

/-- FEC_CW_CLEAR (R107): a write to DLK_FEC_CW_LO clears the 48-bit counter. -/
def execFecCwClear (p : Fin 24) (lane : Fin 2) (s : State) : Host.Outcome State Fault Refusal :=
  .next (s.wr48 .lnk (DLK_FEC_CW_LO p lane) (DLK_FEC_CW_HI p lane) 0)

/-! ### Marker groups (R104 to R106) -/

/-- Set bits of a number below 2^w. -/
def popCount (w x : Nat) : Nat := ((List.range w).filter (fun i => tbit x i)).length

/-- The marker PATTERN (R104). -/
def markerPattern : Nat := 0xC96B1E423A8DF570

/-- A 257-bit block of the marker group, from bits of which bit 0 comes first (R104).  DEDUCED (log 84): bit 0 of a
transcoded block is its first bit, as payload bit 0 is of a block. -/
def groupBlock (k : Nat) (bs : List Bool) : Nat := ofLsb ((bs.drop (257 * k)).take 257)

/-- A marker block matches when at least 60 of its 64 PATTERN bits agree (R105). -/
def markerMatches (m : Nat) : Bool := decide (popCount 64 (nbits m 64 1 ^^^ markerPattern) ≤ 4)

/-- The CRC of a marker block matches (R104). -/
def markerCrcOk (m : Nat) : Bool := crc16 17 (nbits m 81 65) == nbits m 97 82

/-- COUNT of a marker block (R104). -/
def markerCount (m : Nat) : Nat := nbits m 81 66

/-- The CRC of a status block matches (R104). -/
def statusCrcOk (b : Nat) : Bool := crc16 32 (nbits b 32 1) == nbits b 48 33

/-- The marker block a group's COUNT and LANE come from: of a codeword that decodes, one whose CRC matches (R105). -/
def goodMarker (msg : List Bool) (good : Bool) : Option Nat :=
  if good then ([groupBlock 0 msg, groupBlock 1 msg] : List Nat).find? markerCrcOk else none

/-- The camera's status block, from lane 0 only (R105). -/
def State.statusBlock (s : State) (p b : Nat) : State :=
  if statusCrcOk b then
    (s.countBy .lnk (DLK_CNT_BC_ERR p) (nbits b 16 1)).countBy .lnk (DLK_CNT_CAM_TRIG_LOST p) (nbits b 32 17)
  else s

/-- COUNT and LANE taken from a group: a COUNT that is not the next counts AM_ERR (R105). -/
def State.takeCount (s : State) (p lane m arrival : Nat) : State :=
  let c := markerCount m
  let gap := match (laneSt s p lane).count with
    | some k => decide ((k + 1) % 2 ^ 16 ≠ c)
    | none => false
  let s := if gap && decide (p < 24) then s.count .lnk (DLK_FEC_AM_ERR p lane) else s
  s.onLane p lane (fun l => { l with
    count := some c, laneId := some (nbits m 65 65), grp := c, arrivals := ((c, arrival) :: l.arrivals).take 64 })

/-- The arrival (ps) on a lane of the marker of a COUNT. -/
def markerArrival (l : LaneSt) (c : Nat) : Option Nat := (l.arrivals.find? (fun a => a.1 == c)).map (fun a => a.2)

/-- The skew is measured once both lanes hold a marker with the COUNT just taken (R106). -/
def State.measureSkew (s : State) (p c : Nat) : State :=
  match markerArrival (laneSt s p 0) c, markerArrival (laneSt s p 1) c with
  | some a, some b => s.onLnk p (fun x => { x with skew := some (max a b - min a b) })
  | _, _ => s

/-- Skew and ALIGNED after a group; too much skew ends DESKEW or ACTIVE (R106).  DESIGN CHOICE (log 92): a skew above
65,535 ps reads 0xFFFF in DLK_SKEW. -/
def State.judgeSkew (s : State) (p : Nat) : State :=
  let s := if p < 24 then s.setb .lnk (DLK_STATUS p) 3 (isAligned s p) else s
  match skewPs s p with
  | none => s
  | some k =>
    let s := if p < 24 ∧ cfgLanes s p ≠ [0] then s.put .lnk (DLK_SKEW p) 15 0 (capNat 0xFFFF k) else s
    if k ≤ 64000 then s
    else if portState s p = phDeskew then s.phyFail p 10
    else if portState s p = phActive then s.enterRecover p
    else s

/-- Line bits of a group (R104). -/
def groupBits : Nat := 217600

/-- Groups from a lane's last group position to a place in its line bits; none off the grid (R105). -/
def groupsOn (l : LaneSt) (place : Nat) : Option Nat :=
  match l.place with
  | none => none
  | some b => if b < place ∧ (place - b) % groupBits = 0 then some ((place - b) / groupBits) else none

/-- The first codeword of a group, decoded (R104 to R107): counts, COUNT, LANE, status, blocks. -/
def State.groupCodeword (s : State) (p lane arrival : Nat) (msg : List Bool) (corrected : Option Nat) : State :=
  let s := s.onLane p lane (fun l => { l with grp := (l.grp + 1) % 2 ^ 16 })
  let s := s.countCodeword p lane corrected
  let s := match goodMarker msg corrected.isSome with
    | some m => (s.takeCount p lane m arrival).measureSkew p (markerCount m)
    | none => s
  let s := if corrected.isSome ∧ lane = 0 ∧ p < 24 then s.statusBlock p (groupBlock 2 msg) else s
  s.passBlocks p lane 3 msg corrected.isNone

/-- A match while the lane is not locked joins the candidates of the last group's length (R105). -/
def LaneSt.candidate (l : LaneSt) (place : Nat) : LaneSt :=
  { l with cands := place :: l.cands.filter (fun c => decide (c < place ∧ place ≤ c + groupBits)) }

/-- A marker group's place (R104 to R106): the decisions of 5,440 line bits at a place of a physical lane's line bits that may
start a group, the decision before them, and the arrival in ps.  PATTERN is sought in the raw bits.  A lane without
lock follows the groups from the first match on, and locks on a match 217,600 bits behind any other; a lane with lock
looks at its group positions only, and one passed over counts as without a match. -/
def State.markerGroup (s : State) (p lane : Nat) (decisions : BitVec 5440) (before place arrival : Nat) : State :=
  let ll := logicalLane s p lane
  let l := laneSt s p ll
  let on := if !l.locked && l.cands.any (fun c => c + groupBits == place) then some 1 else groupsOn l place
  let m := lineMode s p lane
  let vs := cwDecisions s p decisions
  let prev := if groupsOn l place = some 1 ∧ l.cw = groupCws then l.prev else if l.fresh then 0 else uninvert m.inv before
  let raw := m.bits prev vs
  let hit := markerMatches (groupBlock 0 raw) || markerMatches (groupBlock 1 raw)
  let d := decodeCodeword raw
  let taken (s : State) (hits misses : Nat) : State := s.onLane p ll (fun l => { l with
    hits := hits, misses := misses, place := some place, cw := 1, prev := m.last prev vs })
  let lost (s : State) : State :=
    let s := (s.onLane p ll LaneSt.lose).setLock p ll false
    let s := s.setb .phy (phyLane p lane 0) 2 false
    if portState s p = phActive ∧ (cfgLanes s p).contains lane then s.enterRecover p else s.judgeSkew p
  let s := s.onLane p ll (fun l => { l with fresh := false })
  let s := if hit ∧ ¬ l.locked then s.onLane p ll (fun l => l.candidate place) else s
  match on, l.locked, hit with
  | none, true, _ => s
  | none, false, false => s
  | none, false, true =>
    if l.place.any (fun b => decide (place < b + groupBits)) then s
    else ((taken s 1 0).groupCodeword p ll arrival d.1 d.2).judgeSkew p
  | some _, false, false => s.onLane p ll (fun l => { l.lose with cands := l.cands })
  | some k, lk, true =>
    if lk ∧ 4 ≤ l.misses + (k - 1) then lost s else
    let hits := if k = 1 then max 1 l.hits + 1 else 1
    let s := taken s hits 0
    let s := if 2 ≤ hits ∧ ¬ lk then (s.setLock p ll true).setb .phy (phyLane p lane 0) 2 true else s
    let s := if portState s p = phActive ∧ (s.lnkPort p).await then
        s.onLnk p (fun x => { x with await := false, skip := true })
      else s
    (s.groupCodeword p ll arrival d.1 d.2).judgeSkew p
  | some k, true, false =>
    let s := (taken s 0 (l.misses + k)).groupCodeword p ll arrival d.1 d.2
    if 4 ≤ l.misses + k then lost s else s.judgeSkew p

/-! ### Blocks (R101, R109, R116, R123) -/

/-- A TYPE is valid only if its high nibble is the complement of its low nibble (R101). -/
def typeValid (t : Nat) : Bool := t / 16 % 16 == 15 - t % 16

/-- Bytes of the receive buffer in use (R109): 8 per block, header included. -/
def bufUsed (x : LnkPort) : Nat :=
  (x.committed.map (fun e => match e with
    | .packet q => q.bytes.length + 8
    | _ => 0)).sum +
    (match x.asm with
     | some q => q.bytes.length + 8
     | none => 0)

/-- Data blocks of a packet's payload and CRC (R117). -/
def payloadBlocks (len : Nat) : Nat := (len + 4 + 7) / 8

/-- End the packet in progress before its last block: what was received is committed (R109, R123). -/
def LnkPort.cutPacket (x : LnkPort) : LnkPort :=
  match x.asm with
  | some q => { x with asm := none, committed := x.committed ++ [.packet { q with cut := true }] }
  | none => x

/-- The buffer is full: the packet is rewound, blocks are discarded up to the next PKT, and the line a pixel packet
belonged to is closed SHORT in its turn (R109). -/
def State.rxOverflow (s : State) (p : Nat) (q : Packet) : State :=
  let s := (s.count .lnk (DLK_CNT_RXOVF p)).setb .lnk (DLK_STATUS p) 4 true
  let s := s.onLnk p (fun x => { x with asm := none, skip := true })
  if isPixelDt q.dt then s.mark p (.lost q.vc) else s

/-- A packet header's fields (R116). -/
def headerPacket (w now : Nat) : Packet :=
  { vc := nbits w 63 60, dt := nbits w 59 54, seq := nbits w 53 46, len := nbits w 45 31, pos := nbits w 30 29,
    bytes := [], fec := false, cut := false, arrived := now }

/-- A PKT block (R116, R123): the packet before it, if unfinished, ends; a bad header is discarded with
its blocks. -/
def State.rxHeader (s : State) (p w : Nat) (errored : Bool) : State :=
  let s := s.onLnk p LnkPort.cutPacket
  let discard (s : State) : State := s.onLnk p (fun x => { x with asm := none, skip := true })
  let q := headerPacket w s.now
  if errored ∨ crc16 40 (w / 2 ^ 24) ≠ nbits w 23 8 then (discard s).count .lnk (DLK_CNT_HDR_CRC p)
  else if q.len = 0 ∨ 16384 < q.len then (discard s).count .lnk (DLK_CNT_MALFORMED p)
  else if 65536 < bufUsed (s.lnkPort p) + 8 then s.rxOverflow p q
  else s.onLnk p (fun x => { x with asm := some q, skip := false })

/-- A data block (R109, R117): payload of the packet in progress; its last block commits it. -/
def State.rxData (s : State) (p w : Nat) (errored : Bool) : State :=
  let x := s.lnkPort p
  match x.asm with
  | none => s
  | some q =>
    if 65536 < bufUsed x + 8 then s.rxOverflow p q
    else
      let q := { q with bytes := q.bytes ++ leBytes 8 w, fec := q.fec || errored }
      if q.bytes.length = 8 * payloadBlocks q.len then
        s.onLnk p (fun x => { x with asm := none, committed := x.committed ++ [.packet q] })
      else s.onLnk p (fun x => { x with asm := some q })

/-- A block by its kind (R101, R109, R115, R123).  DESIGN CHOICE (log 93): TRIG and REG_REQ, valid on the back-channel
only, are bad blocks here. -/
def State.rxTake (s : State) (p : Nat) (b : RxBlk) : State :=
  let w := b.payload.toNat
  let t := w % 256
  if !b.control then (if (s.lnkPort p).skip then s else s.rxData p w b.errored)
  else if t = 0x1E then s
  else if t = 0x5A then s.onLnk p (fun x => { x with lctlIn := x.lctlIn ++ [b.payload] })
  else if t = 0x4B then s.rxHeader p w b.errored
  else (s.onLnk p LnkPort.cutPacket).count .lnk (DLK_CNT_BADBLK p)

/-- A block on a span port (R334): a CELL block begins a cell, and the eighth data block behind it completes it; FILL is
deleted, and a bad block is treated as FILL (R101).  DESIGN CHOICE (log 139): a cell that another CELL block cuts short is
dropped, and a data block outside a cell carries nothing. -/
def LnkPort.spanTake (x : LnkPort) (b : RxBlk) : LnkPort :=
  if b.control then (if b.payload.toNat % 256 = 0x69 then { x with cellIn := some [] } else x)
  else match x.cellIn with
    | none => x
    | some bs =>
      let bs := bs ++ leBytes 8 b.payload.toNat
      if bs.length = 64 then { x with cellIn := none, cells := x.cells ++ [bs] } else { x with cellIn := some bs }

/-- RX_BLOCK (R101, R109, R123, R334): the oldest block after deskew; a port that is not in ACTIVE delivers none (R91). -/
def execRxBlock (p : Fin 28) (s : State) : Host.Outcome State Fault Refusal :=
  .next (match (s.lnkPort p).rx with
    | [] => s
    | b :: rest =>
      let s := s.onLnk p (fun x => { x with rx := rest })
      if portState s p ≠ phActive then s
      else if 24 ≤ p.val then s.onLnk p (fun x => x.spanTake b)
      else s.rxTake p b)

/-! ### Camera register access (R127 to R129) -/

/-- Change the outstanding request. -/
def State.onReg (s : State) (p : Nat) (f : RegReq → RegReq) : State :=
  s.onLnk p (fun x => { x with reg := x.reg.map f })

/-- A new attempt: a new ID, one more than the last; its REG_REQ waits for a boundary (R128).  In QUIET it starts the
exit (R129). -/
def State.regAttempt (s : State) (p : Nat) : State :=
  let id := ((s.lnkPort p).lastId + 1) % 256
  let s := s.onLnk p (fun x => { x with lastId := id })
  let s := s.onReg p (fun r => { r with id := id, toSend := true, dataToSend := false, launched := none })
  (s.put .lnk (DLK_REG_STATUS p) 7 0 id).wakePort p

/-- An attempt ended with an outcome that is retried up to RETRY times (R128). -/
def State.regRetry (s : State) (p result : Nat) : State :=
  match (s.lnkPort p).reg with
  | none => s
  | some r =>
    if r.tries < r.retries then
      let s := s.onReg p (fun r => { r with tries := r.tries + 1 })
      (s.put .lnk (DLK_REG_STATUS p) 18 16 (r.tries + 1)).regAttempt p
    else s.endReg p result

/-- A write to DLK_REG_CMD (R128, R129). -/
def State.regGo (s : State) (p : Nat) (v : Word) : State :=
  if bit v 31 && s.flag .lnk (DLK_REG_STATUS p) 31 then s.setb .lnk (DLK_STATUS p) 6 true
  else
    let s := s.store .lnk (DLK_REG_CMD p) v
    if !bit v 31 then s
    else
      let s := s.put .lnk (DLK_REG_STATUS p) 18 16 0
      if !portUp s p then s.endReg p 6
      else
        let s := s.setb .lnk (DLK_REG_STATUS p) 31 true
        let r : RegReq :=
          { write := bit v 30, addr := s.rd .lnk (DLK_REG_ADDR p), data := s.rd .lnk (DLK_REG_WDATA p),
            retries := bits v 29 27, tries := 0, id := 0, toSend := true, dataToSend := false,
            launched := none }
        let s := s.onLnk p (fun x => { x with reg := some r })
        s.regAttempt p

/-- REG_GO (R128, R129): a write to DLK_REG_CMD. -/
def execRegGo (p : Fin 24) (v : Word) (s : State) : Host.Outcome State Fault Refusal := .next (s.regGo p v)

/-- REG_TIMEOUT (R128): an attempt unanswered for DLK_REG_TIMEOUT us from its launch. -/
def execRegTimeout (p : Fin 24) (s : State) : Host.Outcome State Fault Refusal :=
  .next (match (s.lnkPort p).reg.bind (fun r => r.launched) with
    | some t =>
      if t + s.fld .lnk (DLK_REG_TIMEOUT p) 13 0 * 1000 ≤ s.now then
        (s.count .lnk (DLK_CNT_REG_TIMEOUT p)).regRetry p 5
      else s
    | none => s)

/-- A REG_RESP packet (R127, R128). -/
def State.regResp (s : State) (p : Nat) (bs : List Byte) : State :=
  let stale (s : State) : State := s.count .lnk (DLK_CNT_STALE_RESP p)
  match (s.lnkPort p).reg with
  | none => stale s
  | some r =>
    if r.launched.isNone ∨ leAt bs 0 1 ≠ r.id then stale s
    else match leAt bs 1 1 with
      | 0 =>
        let s := if r.write then s else s.wr .lnk (DLK_REG_RDATA p) (BitVec.ofNat 32 (leAt bs 4 4))
        s.endReg p 0
      | 1 => s.endReg p 1
      | 2 => s.endReg p 2
      | 3 => s.regRetry p 3
      | 4 => s.regRetry p 4
      | _ => s.endReg p 7

/-! ### Packets (R116 to R125) -/

/-- Whether a packet's payload CRC fails (R117, R123); a packet that ended early is not checked. -/
def payloadBad (q : Packet) : Bool :=
  !q.cut && leAt q.bytes (8 * payloadBlocks q.len - 4) 4 != crc32c (q.bytes.take q.len)

/-- Line flags a packet gives (R123). -/
def packetFlags (q : Packet) : Nat := (if payloadBad q then flPay else 0) ||| (if q.fec then flFec else 0)

/-- LINE_START (R121, R122): an open line is closed SHORT, then the new one opens. -/
def State.lineStart (s : State) (p : Nat) (q : Packet) : State :=
  let s := s.closeShort p q.vc
  let fl := leAt q.bytes 2 1
  let o : OpenLine :=
    { tag := leAt q.bytes 0 2, tagValid := tbit fl 0, held := tbit fl 3, phase := nbits fl 2 1,
      number := leAt q.bytes 4 4, pixels := leAt q.bytes 8 2, col0 := leAt q.bytes 10 2, dt := none,
      bytes := [], flags := packetFlags q, arrived := q.arrived }
  s.onVc p q.vc (fun v => { v with line := some o })

/-- FRAME_START (R121, R152): an unfinished frame ends, the new one opens with its stamp and line count. -/
def State.frameStart (s : State) (p : Nat) (q : Packet) : State :=
  let s := (s.closeShort p q.vc).endFrame p q.vc
  let tag := leAt q.bytes 0 2
  let st := if tbit (leAt q.bytes 2 1) 0 then tagStamp s p tag else none
  s.onVc p q.vc (fun v => { v with frame := some ⟨st, leAt q.bytes 14 2, 0⟩ })

/-- A pixel packet (R122, R123).  DESIGN CHOICE (log 136): with no line open, one that no stream claims is counted in
DLK_CNT_UNBOUND alone.  The line ends with POS last or only, or once its bytes are complete. -/
def State.pixelPacket (s : State) (p : Nat) (q : Packet) : State :=
  let claimed := dtStreams s p q.vc q.dt ≠ []
  match (s.vcOf p q.vc).line with
  | none => s.count .lnk (if claimed then DLK_CNT_ORPHAN p else DLK_CNT_UNBOUND p)
  | some o =>
    if o.dt.isSome ∧ o.dt ≠ some q.dt then
      let s := s.closeShort p q.vc
      if claimed then s else s.count .lnk (DLK_CNT_UNBOUND p)
    else if ¬ claimed then s.count .lnk (DLK_CNT_UNBOUND p)
    else
      let data := if q.cut then q.bytes.take q.len else padTo q.len (q.bytes.take q.len)
      let o' : OpenLine :=
        { o with dt := some q.dt, bytes := o.bytes ++ data, flags := o.flags ||| packetFlags q }
      let s := s.onVc p q.vc (fun v => { v with line := some o' })
      let need := lineBytes o.pixels q.dt
      if q.cut then s.closeShort p q.vc
      else if need ≤ o'.bytes.length then s.closeLine p q.vc 0
      else if 2 ≤ q.pos then s.closeShort p q.vc
      else s

/-- The SEQ check of a VC (R123): packets missed are counted and an open line is closed SHORT. -/
def State.checkSeq (s : State) (p : Nat) (q : Packet) : State :=
  let expected := ((s.vcOf p q.vc).seq).getD q.seq
  let gap := (q.seq + 256 - expected) % 256
  let s := if gap = 0 then s else (s.countBy .lnk (DLK_CNT_SEQ_GAP p) gap).closeLine p q.vc flShort
  s.onVc p q.vc (fun v => { v with seq := some ((q.seq + 1) % 256) })

/-- A packet by its DT (R119, R122); one that ended early closes its line and has no other effect (R123). -/
def State.packetByDt (s : State) (p : Nat) (q : Packet) : State :=
  let claimed (act : State) : State :=
    if vcStreams s p q.vc = [] then s.count .lnk (DLK_CNT_UNBOUND p)
    else if q.cut then s.closeShort p q.vc
    else act
  if isPixelDt q.dt then s.pixelPacket p q
  else match q.dt with
    | 0x01 => claimed (s.frameStart p q)
    | 0x02 => claimed ((s.closeShort p q.vc).endFrame p q.vc)
    | 0x03 => claimed (s.lineStart p q)
    | 0x08 => if q.cut then s.closeShort p q.vc else s.regResp p q.bytes
    | 0x09 =>
      if q.cut then s.closeShort p q.vc
      else
        let e := BitVec.ofNat 32 (leAt q.bytes 0 4)
        ((s.wr .lnk (DLK_CAM_EVT p) e).count .lnk (DLK_CNT_CAM_EVT p)).publish (0x1B0 + 4 * p + 3) e
    | _ => s.count .lnk (DLK_CNT_BAD_DT p)

/-- The entries that are no packets at the head of the buffer act (R109, R123). -/
def State.drainMarks (s : State) (p : Nat) : List RxItem → State
  | [] => s.onLnk p (fun x => { x with committed := [] })
  | .packet q :: rest => s.onLnk p (fun x => { x with committed := .packet q :: rest })
  | e :: rest => (s.markDo p e).drainMarks p rest

/-- RX_PACKET (R116 to R125): the oldest committed packet leaves the buffer and is handled. -/
def execRxPacket (p : Fin 24) (s : State) : Host.Outcome State Fault Refusal :=
  .next (match (s.lnkPort p).committed with
    | .packet q :: rest =>
      let s := s.checkSeq p q
      let s := if payloadBad q then s.count .lnk (DLK_CNT_PAY_CRC p) else s
      (s.packetByDt p q).drainMarks p rest
    | es => s.drainMarks p es)

/-! ### Link-control messages (R92, R115) -/

/-- Enter QUIET (R92, R369): the CDR and equalisers are parked with their settings kept. -/
def State.enterQuiet (s : State) (p : Nat) : State :=
  let s := ((s.leaveActive p).closePort p).count .pwr PWR_CNT_QUIET
  let s := (s.phyGo p phQuiet).onPhy p (fun x => { x with quietReq := none, quietExit := none })
  ((s.lanesDark p).sigAll p false).dropLocks p

/-- A received LCTL block (R92, R115).  An answer after the 10 us is no answer: the request ends as refused; a late
ACK is answered with WAKE, and so is one that nothing asked for (DESIGN CHOICE, log 135).  A WAKE starts an exit (R93). -/
def State.lctlTake (s : State) (p : Nat) (payload : Dword) : State :=
  let w := payload.toNat
  let ok := w % 256 == 0x5A && crc16 40 (w / 2 ^ 24) == nbits w 23 8
  let req := (s.phyPort p).quietReq
  let inTime := req.any (fun t => decide (s.now ≤ t + 10000))
  if ok && nbits w 63 56 == 0x81 then
    (if inTime && portState s p == phActive then s.enterQuiet p
     else ((if req.isSome then s.quietNak p else s).sendLctl p 2).quietExitStart p)
  else if ok && nbits w 63 56 == 0x82 then (if req.isSome then s.quietNak p else s)
  else s.count .lnk (DLK_CNT_LCTL_BAD p)

/-- RX_LCTL (R92, R115): the oldest received LCTL block. -/
def execRxLctl (p : Fin 24) (s : State) : Host.Outcome State Fault Refusal :=
  .next (match (s.lnkPort p).lctlIn with
    | [] => s
    | b :: rest => (s.onLnk p (fun x => { x with lctlIn := rest })).lctlTake p b)

/-! ### The back-channel (R110 to R115, R127) -/

/-- A control block whose content carries a CRC-16 over bits 63:24 (R112, R115, R127). -/
def ctlBlock (ty top40 : Nat) : Dword := BitVec.ofNat 64 (top40 * 2 ^ 24 + crc16 40 top40 * 2 ^ 8 + ty)

/-- A trigger block (R112). -/
def trigBlock (tag offset : Nat) : Dword := ctlBlock 0x2D (tag % 2 ^ 16 * 2 ^ 24 + offset % 128 * 2 ^ 17)

/-- A link-control block (R115). -/
def lctlBlock (msg : Nat) : Dword := ctlBlock 0x5A (msg % 256 * 2 ^ 32)

/-- A register request block (R127). -/
def regBlock (r : RegReq) : Dword :=
  ctlBlock 0x3C (b2n r.write * 2 ^ 38 + r.id % 256 * 2 ^ 30 + r.addr.toNat / 4)

/-- The data block of a register write (R127). -/
def regDataBlock (r : RegReq) : Dword :=
  BitVec.ofNat 64 (crc16 32 r.data.toNat * 2 ^ 48 + r.data.toNat)

/-- FILL (R101). -/
def fillBlock : Dword := 0x1E#64

/-- What goes out at a boundary (R110, R111). -/
inductive BcNext where
  | trig (tag offset : Nat)
  | data (r : RegReq)
  | lctl (msg : Nat)
  | req (r : RegReq)
  | fill
  deriving DecidableEq, Repr

/-- Blocks after which a FILL comes before anything but a trigger or a data block, so that one stands
in every 2,048 blocks (R110). -/
def fillEvery : Nat := 2044

/-- The first of what is ready at the next boundary (R110, R111). -/
def bcNext (x : LnkPort) (canReq : Bool) : BcNext :=
  match x.trig.find? (fun t => t.1 == x.boundary), x.reg with
  | some t, _ => .trig t.2.1 t.2.2
  | none, some r =>
    if r.dataToSend then .data r
    else if fillEvery ≤ x.sinceFill then .fill
    else match x.lctl with
      | m :: _ => .lctl m
      | [] => if r.toSend && canReq then .req r else .fill
  | none, none =>
    if fillEvery ≤ x.sinceFill then .fill
    else match x.lctl with
      | m :: _ => .lctl m
      | [] => .fill

/-- Record the block sent, as it leaves with its sync header and scrambled payload (R100), and move to the next
boundary.  DESIGN CHOICE (log 134): the header's bits leave in the order written, 0 then 1 for data. -/
def LnkPort.sentBlock (x : LnkPort) (control : Bool) (b : Dword) (fill : Bool) : LnkPort :=
  let r := scramble x.scr (bitsLsb 64 b.toNat)
  { x with sent := some (control, b), boundary := x.boundary + 21120, wire := [control, !control] ++ r.1, scr := r.2
           sinceFill := if fill then 0 else x.sinceFill + 1 }

/-- Send at a boundary (R111). -/
def State.bcSend (s : State) (p : Nat) : State :=
  let st := portState s p
  let x := s.lnkPort p
  match bcNext x (decide (st = phActive ∨ st = phQuiet)) with
  | .trig tag off => s.onLnk p (fun x =>
      ({ x with trig := x.trig.filter (fun t => t.1 != x.boundary) } : LnkPort).sentBlock true
        (trigBlock tag off) false)
  | .data r => s.onLnk p (fun x =>
      ({ x with reg := some ({ r with dataToSend := false }) } : LnkPort).sentBlock false (regDataBlock r) false)
  | .lctl m => s.onLnk p (fun x =>
      ({ x with lctl := x.lctl.tail } : LnkPort).sentBlock true (lctlBlock m) false)
  | .req r => s.onLnk p (fun x =>
      ({ x with reg := some ({ r with toSend := false, dataToSend := r.write, launched := some s.now }) } :
        LnkPort).sentBlock true (regBlock r) false)
  | .fill => s.onLnk p (fun x => x.sentBlock true fillBlock true)

/-- BC_BLOCK (R110, R111): due at each block boundary while data blocks go out. -/
def execBcBlock (p : Fin 24) (s : State) : Host.Outcome State Fault Refusal :=
  .next (if portUp s p ∧ bcAlive s p ∧ (s.lnkPort p).boundary ≤ s.now * 1000 then s.bcSend p else s)

end Sys2Proof.Machine
end

