-- ==== Sys2Proof/Machine/Trigger.lean ====
section
/-! DEFINITION. Trigger generators, trigger pins, tags and the stamp table (R58 to R68, R113, R426). -/
namespace Sys2Proof.Machine

/-! ### Due instants (R59, R61, R65) -/

/-- A trigger that is due: its camera-side instant in ps, whether R59 interpolated it, and whether it
belongs to no position mode (R65, R66). -/
structure Due where
  cam : Nat
  interp : Bool
  timed : Bool
  deriving DecidableEq, Repr

/-- The time in ps to cover a distance (2^-32 counts) at a Q24.8 speed; none at speed 0 (R59). -/
def coverPs (dist : Nat) (speed : Int) : Option Nat :=
  if speed = 0 then none else some (dist * 256 * 1000000000000 / (speed.natAbs * 2 ^ 32))

/-- The TB of the count passed k counts before the newest position of a run (R37). -/
def reachedAt : List (Nat × Nat) → Nat → Option Nat
  | [], _ => none
  | (t, c) :: run, k => if k < c then some t else reachedAt run (k - c)

/-- The whole count at or behind a target in the direction of travel, and the distance from it (R59). -/
def targetCount (dec : Bool) (t : Fix) : Pos × Nat :=
  let f := t.toNat % 2 ^ 32
  if dec ∧ f ≠ 0 then (fixPos t + 1#48, 2 ^ 32 - f) else (fixPos t, f)

/-- Whether a speed carries the position in the generator's direction. -/
def speedAlong (dec : Bool) (speed : Int) : Bool := if dec then decide (speed < 0) else decide (0 < speed)

/-- The due instant in ps of a target on a source that counts transitions, and whether it was
interpolated (R59). -/
def countDue (run : List (Nat × Nat)) (p : Pos) (speed : Int) (dec : Bool) (target : Fix) (now : Nat) :
    Option (Nat × Bool) :=
  let n := targetCount dec target
  let k := past dec (posFix p) (posFix n.1) / 2 ^ 32
  if k < 0 then none
  else
    let at' (j : Nat) : Nat := ((reachedAt run j).getD now) * 1000
    let tn := at' k.toNat
    if n.2 = 0 then some (tn, false)
    else
      let mid := if speedAlong dec speed then (coverPs n.2 speed).map (fun d => tn + d) else none
      match decide (0 < k), mid with
      | false, none => none
      | false, some t => some (t, true)
      | true, none => some (at' (k.toNat - 1), false)
      | true, some t => if at' (k.toNat - 1) < t then some (at' (k.toNat - 1), false) else some (t, true)

/-- The due instant in ps of a target on a source whose position is extrapolated, computed by R59 unless the sample
itself has passed the target (R53, R57, R65, R355). -/
def linearDue (v : View) (dec : Bool) (target : Fix) : Option (Nat × Bool) :=
  let d := past dec v.pos target
  if 0 ≤ d then some (v.tb * 1000, false)
  else if !speedAlong dec v.speed then none
  else match coverPs d.natAbs v.speed with
    | none => none
    | some t => if t ≤ v.limit * 1000 then some (v.tb * 1000 + t, true) else none

/-- The run of transitions behind a motion source that reads a local quadrature port. -/
def sourceRun (s : State) (m : Nat) : List (Nat × Nat) :=
  let v := match (s.ms m).inUse with
    | some true => s.rd .mot (ENC_MS_SEC m)
    | _ => s.rd .mot (ENC_MS_PRIM m)
  if bit v 30 then [] else (s.enc (bits v 2 0)).run

/-- The due instant of a generator's target in the position modes (R59, R65); none without one, on a LOST
source (R57), or where no advance moves the target (R59). -/
def positionDue (s : State) (g : Nat) : Option (Nat × Bool) :=
  let c := s.rd .mot (TRG_CTRL g)
  let v := sourceView s (bits c 27 25)
  if genZero s g || !v.valid then none
  else if v.linear then linearDue v (bit c 24) (s.gen g).next
  else countDue (sourceRun s (bits c 27 25)) (fixPos v.pos) v.speed (bit c 24) (s.gen g).next s.now

/-- The fixed latency of a trigger, in ps (R65). -/
def trigLatency : Nat := 96000

/-- The period in use in TIME mode, in 2^-32 ns: at least 2,500 ns (R61). -/
def timePeriod (s : State) (g : Nat) : Nat :=
  max (2500 * 2 ^ 32) ((s.rd .mot (TRG_PER_INT g)).toNat * 2 ^ 32 + (s.rd .mot (TRG_PER_FRAC g)).toNat)

/-- MODE of a generator: 0 DIVIDER, 1 LIST, 2 TIME, 3 PIN, 4 EVENT, 5 SEQ (R58). -/
def genMode (s : State) (g : Nat) : Nat := s.fld .mot (TRG_CTRL g) 30 28

/-- The trigger that is due now on a generator (R59, R61, R65); none after a fatal fault (R399, R402). -/
def genDue (s : State) (g : Nat) : Option Due :=
  if !s.flag .mot (TRG_CTRL g) 31 || s.fld .pwr PWR_STATUS 31 28 == 4 then none
  else match genMode s g with
    | 0 | 1 =>
      (match positionDue s g with
        | some (t, i) =>
          if t ≤ s.now * 1000 then
            some ⟨t + trigLatency + 5000 * (sourceView s (s.fld .mot (TRG_CTRL g) 27 25)).filt, i, false⟩
          else none
        | none => none)
    | 2 =>
      (match (s.gen g).timeNext with
        | some t => if t / 2 ^ 32 ≤ s.now then some ⟨t * 1000 / 2 ^ 32 + trigLatency, false, true⟩ else none
        | none => none)
    | _ =>
      match (s.gen g).due with
        | t :: _ => if t ≤ s.now * 1000 then some ⟨t + trigLatency, false, true⟩ else none
        | [] => none

/-- The generator moves past the trigger that was due: the target advances (R59), the next period
starts (R61), the pending event becomes due (R329).  DESIGN CHOICE (log 82): a write of ENABLE, MODE or TRG_LIST_LEN
leaves the entry index; it counts modulo the length that stands. -/
def State.genAdvance (s : State) (g : Nat) : State :=
  let x := s.gen g
  match genMode s g with
  | 0 | 1 =>
    let incs := genIncs s g
    let i := x.listIdx % incs.length
    s.setGen g { x with next := ahead (s.flag .mot (TRG_CTRL g) 24) x.next (atD incs i 0),
                        listIdx := (i + 1) % incs.length }
  | 2 => s.setGen g { x with timeNext := x.timeNext.map (fun t => t + timePeriod s g) }
  | _ =>
    match x.due.tail, x.pendingEvt with
    | [], some e => s.setGen g { x with due := [max e (s.now * 1000)], pendingEvt := none }
    | d, _ => s.setGen g { x with due := d }

/-! ### Issuing (R61, R64, R66, R88, R113, R426) -/

/-- The ports that name a generator (R426). -/
def namingPorts (s : State) (g : Nat) : List Nat :=
  idxs 24 (fun p => s.flag .mot (TRG_PORT p) 31 && s.fld .mot (TRG_PORT p) 6 0 == g)

/-- A trigger at this camera-side instant follows the previous one by less than 2,500 ns (R61). -/
def tooClose (last : Option Nat) (cam : Nat) : Bool :=
  match last with
  | some t => decide (cam < t + 2500000)
  | none => false

/-- The naming ports that can send a trigger (R61, R88, R89, R426). -/
def sendingPorts (s : State) (g cam : Nat) : List Nat :=
  (namingPorts s g).filter (fun p => portUp s p && bcAlive s p && !tooClose (s.portTrg p).last cam)

/-- The source position at an instant in ps, at the current speed (R66). -/
def View.extrapolated (v : View) (ps : Nat) : Fix :=
  v.pos + BitVec.ofInt 80 (moved v.speed ((ps : Int) - v.tb * 1000))

/-- ps rounded to the nearest ns, halves up (R66). -/
def roundNs (ps : Nat) : Nat := (ps + 500) / 1000

/-- The stamp entry of a trigger (R66). -/
def trigStamp (s : State) (g tag : Nat) (d : Due) : StampEnt :=
  let v := sourceView s (s.fld .mot (TRG_CTRL g) 27 25)
  let p := v.extrapolated d.cam
  { tb := roundNs d.cam
    pos := fixPos p
    frac := p.toNat / 2 ^ 24 % 256
    flags := tag / 4096 % 16 * 16 + b2n d.timed * 8 + b2n v.dec * 4 + b2n d.interp * 2 + b2n v.holdover }

/-- The back-channel boundary and OFFSET of a trigger (R113): phase of the boundaries, CHAN_UI and the camera-side instant
in ps. -/
def trigBoundary (phase chanUi cam : Nat) : Nat × Nat :=
  let limit := cam - chanUi * 320 - 30720
  let b := phase + (limit - phase) / 21120 * 21120
  let off := (limit - b + 160) / 320
  if off = 66 then (b + 21120, 0) else (b, off)

/-- Send a trigger on a port: the next tag, the stamp entry, the commitment to a boundary, and the exit
from QUIET (R64, R66, R94, R113, R365).  DESIGN CHOICE (log 12): a boundary before the first one of the port's data
blocks is replaced by that first one, with OFFSET 0. -/
def State.sendTrigger (s : State) (g p : Nat) (d : Due) : State :=
  let tag := (s.portTrg p).tag
  let e := trigStamp s g tag d
  let s := s.onPortTrg p (fun x => { x with
    tag := (tag + 1) % 2 ^ 16, last := some d.cam,
    stamps := Tab.set (fun _ => none) x.stamps (tag % 4096) (some e) })
  let next := (s.lnkPort p).boundary
  let b := trigBoundary (next % 21120) (s.fld .lnk (DLK_TRG_CTRL p) 5 0) d.cam
  let b := if b.1 < next then (next, 0) else b
  let s := (s.onLnk p (fun x => { x with trig := x.trig ++ [(b.1, tag, b.2)] })).awaitLine p e.tb
  if portState s p = phQuiet then (s.quietExitStart p).count .pwr PWR_CNT_MISPREDICT else s

def State.onPin (s : State) (k : Nat) (f : TrigPin → TrigPin) : State :=
  { s with mot := { s.mot with pin := Tab.upd (fun _ => TrigPin.init) s.mot.pin k f } }

/-- Pulses with one more: it extends the one that is active when it starts (R63). -/
def addPulse (start stop : Nat) : List (Nat × Nat) → List (Nat × Nat)
  | [] => [(start, stop)]
  | (a, b) :: ps => if a ≤ start ∧ start ≤ b then (a, max b stop) :: ps else (a, b) :: addPulse start stop ps

/-- A pulse on a trigger pin from an instant in ps (R63). -/
def State.pinPulse (s : State) (k cam : Nat) : State :=
  let stop := cam + (s.fld .mot (TRG_PIN k) 5 0 + 1) * 5000
  s.onPin k (fun x => { x with pulses := addPulse cam stop x.pulses })

/-- Output pins that take a generator (R63). -/
def genPins (s : State) (g : Nat) : List Nat :=
  idxs 16 (fun k => let v := s.rd .mot (TRG_PIN k); bit v 31 && !bit v 29 && bits v 28 22 == g)

/-- The trigger is issued: counted, the pins act, the event is published (R426, R323). -/
def State.issued (s : State) (g : Nat) (arg : Word) (d : Due) : State :=
  let s := s.count .mot (TRG_CNT_ISSUED g)
  let s := s.setGen g { s.gen g with last := some d.cam }
  let s := s.each (genPins s g) (fun s k => s.pinPulse k d.cam)
  s.publishAt g arg (roundNs d.cam)

/-- A due trigger is issued or skipped, once however many ports carry it (R426, R61). -/
def State.trigger (s : State) (g : Nat) (d : Due) : State :=
  match namingPorts s g, sendingPorts s g d.cam with
  | [], _ =>
    if tooClose (s.gen g).last d.cam then s.count .mot (TRG_CNT_SKIP g)
    else s.issued g (BitVec.ofNat 32 (2 ^ 31)) d
  | _, [] => s.count .mot (TRG_CNT_SKIP g)
  | _, p :: ps =>
    let tag := (s.portTrg p).tag
    (s.each (p :: ps) (fun s q => s.sendTrigger g q d)).issued g (BitVec.ofNat 32 (tag + p * 2 ^ 24)) d

/-- TRIGGER_DUE (R59, R61, R426): the next trigger that is due on a generator; none due, nothing. -/
def execTriggerDue (g : Fin 96) (s : State) : Host.Outcome State Fault Refusal :=
  .next (match genDue s g with
    | some d => (s.trigger g d).genAdvance g
    | none => s)

/-! ### Registers (R58 to R63, R68) -/

/-- A write to TRG_CTRL (R36, R60, R61, R329). -/
def State.trgCtrlWrite (s : State) (g : Nat) (v : Word) : State :=
  let old := s.rd .mot (TRG_CTRL g)
  let s := s.store .mot (TRG_CTRL g) v
  let new := s.rd .mot (TRG_CTRL g)
  let on := bit new 31
  let rise := on && !bit old 31
  let modeNew := bits new 30 28 != bits old 30 28
  let changed := modeNew || bits new 27 24 != bits old 27 24
  let s := if !on || modeNew then
      s.setGen g { s.gen g with due := [], pendingEvt := none, timeNext := none }
    else s
  if rise || (on && changed) then
    match bits new 30 28 with
    | 0 | 1 => s.skipGen g
    | 2 => if rise || modeNew then s.setGen g { s.gen g with timeNext := some (s.now * 2 ^ 32) } else s
    | _ => s
  else s

/-- TRG_CTRL_WRITE (R60, R61). -/
def execTrgCtrlWrite (g : Fin 96) (v : Word) (s : State) : Host.Outcome State Fault Refusal :=
  .next (s.trgCtrlWrite g v)

/-- The target a TRG_NEXT pair names: whole count, upper 8 bits of the fraction, zeros below (R58). -/
def nextTarget (lo hi : Word) : Fix :=
  BitVec.ofNat 80 (bits hi 23 8 * 2 ^ 64 + lo.toNat * 2 ^ 32 + bits hi 7 0 * 2 ^ 24)

/-- A write to TRG_NEXT_HI applies the pair (R58, R60). -/
def State.trgNextWrite (s : State) (g : Nat) (v : Word) : State :=
  let s := s.store .mot (TRG_NEXT_HI g) v
  let s := s.setGen g { s.gen g with next := nextTarget (s.rd .mot (TRG_NEXT_LO g)) v }
  if s.flag .mot (TRG_CTRL g) 31 && decide (genMode s g ≤ 1) then s.skipGen g else s

/-- TRG_NEXT_WRITE (R58, R60): a write to TRG_NEXT_HI. -/
def execTrgNextWrite (g : Fin 96) (v : Word) (s : State) : Host.Outcome State Fault Refusal :=
  .next (s.trgNextWrite g v)

/-- TRG_NEXT as its registers show it (R59). -/
def nextReading (x : Fix) : Word × Word :=
  (lo32 (x.toNat / 2 ^ 32), BitVec.ofNat 32 (x.toNat / 2 ^ 64 % 2 ^ 16 * 2 ^ 8 + x.toNat / 2 ^ 24 % 2 ^ 8))

/-- TRG_STATUS as it reads: PER_LOW, ZERO_ADV, CFG_ERR (R58, R59, R61). -/
def trgStatus (s : State) (g : Nat) : Word :=
  let v := s.rd .mot (TRG_STATUS g)
  let low := genMode s g == 2 && (s.rd .mot (TRG_PER_INT g)).toNat < 2500
  let zero := s.flag .mot (TRG_CTRL g) 31 && decide (genMode s g ≤ 1) && genZero s g
  putBit (putBit v 2 low) 1 zero

/-- TRG_PORT_WRITE (R62): a GEN that names a reserved stream ID is ignored. -/
def execTrgPortWrite (p : Fin 24) (v : Word) (s : State) : Host.Outcome State Fault Refusal :=
  .next (if 96 ≤ bits v 6 0 then s else s.store .mot (TRG_PORT p) v)

def State.trigPin (s : State) (k : Nat) : TrigPin := Tab.get (fun _ => TrigPin.init) s.mot.pin k

/-- Whether EDGE takes an edge to a level: rising, falling, both (R58). -/
def edgeTakes (edge : Nat) (level : Bool) : Bool :=
  match edge with
  | 0 => level
  | 1 => !level
  | _ => true

/-- Queue a trigger of a PIN, EVENT or SEQ generator, due at a TB (R61). -/
def State.queueTriggerAt (s : State) (g tb : Nat) : State :=
  s.setGen g { s.gen g with due := (s.gen g).due ++ [tb * 1000] }

/-- Queue a trigger that is due now. -/
def State.queueTrigger (s : State) (g : Nat) : State := s.queueTriggerAt g s.now

/-- Generators in PIN mode on a pin that take an edge (R61). -/
def pinGens (s : State) (k : Nat) (level : Bool) : List Nat :=
  idxs 96 (fun g =>
    let c := s.rd .mot (TRG_CTRL g)
    bit c 31 && bits c 30 28 == 3 && bits c 23 20 == k && edgeTakes (bits c 19 18) level)

/-- TRIG_PIN_EDGE (R61, R63, R65, R323): the FILT of an input pin accepts a new level, N = FILT + 1 equal samples from the
TB of the first one on; the trigger is due at the acceptance.  POL inverts the level (log 83). -/
def execTrigPinEdge (k : Fin 16) (level : Bool) (first : BitVec 64) (s : State) : Host.Outcome State Fault Refusal :=
  .next (
    let c := s.rd .mot (TRG_PIN k)
    let act := level != bit c 30
    let accepted := first.toNat + 5 * bits c 11 6
    if bit c 31 ∨ (s.trigPin k).level = act ∨ s.now < accepted then s
    else
      let s := s.onPin k (fun x => { x with level := act })
      let s := s.each (pinGens s k act) (fun s g => s.queueTriggerAt g accepted)
      s.publish (0x210 + k) (BitVec.ofNat 32 (b2n act)))

/-- TRIG_PIN_PULSE_END (R63): a pulse's time is over. -/
def execTrigPinPulseEnd (k : Fin 16) (s : State) : Host.Outcome State Fault Refusal :=
  .next (s.onPin k (fun x => { x with pulses := x.pulses.filter (fun p => decide (s.now * 1000 < p.2)) }))

/-- The level a trigger pin drives (R63, R380): none is high impedance, of an input and outside RUN; a pulse drives the
active level, which POL makes low. -/
def pinDrive (s : State) (k : Nat) : Option Bool :=
  let c := s.rd .mot (TRG_PIN k)
  if !bit c 31 || !s.pwr.coreUp || !s.outputsOn then none
  else some ((s.trigPin k).pulses.any (fun p => decide (p.1 ≤ s.now * 1000 ∧ s.now * 1000 < p.2)) != bit c 30)

/-- A write to TRG_STAMP_Q shows the entry at index tag[11:0] of a port (R68). -/
def State.stampQuery (s : State) (v : Word) : State :=
  let p := bits v 28 24
  let tag := bits v 15 0
  let e := (Tab.get (fun _ => none) (s.portTrg p).stamps (tag % 4096)).getD StampEnt.init
  let s := s.store .mot TRG_STAMP_Q v
  let s := s.wr64 .mot TRG_STAMP_TB_LO TRG_STAMP_TB_HI e.tb
  let s := s.wr64 .mot TRG_STAMP_POS_LO TRG_STAMP_POS_HI (e.frac * 2 ^ 56 + e.flags * 2 ^ 48 + e.pos.toNat)
  s.wr .mot TRG_STAMP_VALID (BitVec.ofNat 32 (b2n (tagStamp s p tag).isSome))

/-- STAMP_QUERY (R68): a write to TRG_STAMP_Q. -/
def execStampQuery (v : Word) (s : State) : Host.Outcome State Fault Refusal := .next (s.stampQuery v)

end Sys2Proof.Machine
end

