-- ==== Sys2Proof/Machine/Erg.lean ====
section
/-! DEFINITION. The Erg (R292 to R314): bytes, ECC, segments, the regions of the active image, queues, and
look-back rings. -/
namespace Sys2Proof.Machine

/-! ### Bytes and ECC (R292, R304, R307) -/

/-- Bytes of a segment (R292). -/
abbrev segBytes : Nat := 0x200000

/-- The stack of an Erg address (R292). -/
def stackOf (a : Nat) : Nat := if a < 0x600000000 then 0 else 1

/-- Whether the stack of an address is populated (R3, R292). -/
def stackPresent (s : State) (t : Nat) : Bool :=
  t == 0 || (t == 1 && decide (s.time.part ≠ .wap24_24I))

/-- A stack answers: populated and not failed (R307). -/
def stackOk (s : State) (t : Nat) : Bool := stackPresent s t && !s.flag .erg (ERG_STK_STATUS t) 1

/-- A byte of the Erg. -/
def ergByte (s : State) (a : Nat) : Byte := Tab.get (fun _ => 0#8) s.erg.mem a

/-- n bytes from an Erg address. -/
def ergRead (s : State) (a n : Nat) : List Byte := (List.range n).map (fun i => ergByte s (a + i))

/-- The 64-bit words of a span that a table names. -/
def errWords (t : Tab Bool) (a n : Nat) : List Nat :=
  (t.filter (fun e => e.2 && decide (a / 8 ≤ e.1 ∧ e.1 * 8 < a + n))).map (fun e => e.1)

/-- A read of n bytes meets an uncorrectable error or a failed stack (R304, R307). -/
def ergPoisoned (s : State) (a n : Nat) : Bool := !(errWords s.erg.poison a n).isEmpty || !stackOk s (stackOf a)

/-- The words of a table that a write of n bytes does not write whole. -/
def errKept (t : Tab Bool) (a n : Nat) : Tab Bool :=
  t.filter (fun e => !(decide (a ≤ e.1 * 8) && decide (e.1 * 8 + 8 ≤ a + n)))

/-- Write bytes; a failed or absent stack drops them (R307).  A word written whole is good again. -/
def State.ergWrite (s : State) (a : Nat) (bs : List Byte) : State :=
  if stackOk s (stackOf a) then
    { s with erg := { s.erg with
        mem := Tab.setList (fun _ => 0#8) s.erg.mem a bs
        poison := errKept s.erg.poison a bs.length, soft := errKept s.erg.soft a bs.length } }
  else s

/-- An error strikes a 64-bit word (R304): a single-bit one, or with another one a double-bit error. -/
def State.ergStrike (s : State) (a : Nat) (double : Bool) : State :=
  let w := a / 8
  if double || Tab.get (fun _ => false) s.erg.soft w then
    { s with erg := { s.erg with
      poison := Tab.set (fun _ => false) s.erg.poison w true, soft := Tab.set (fun _ => false) s.erg.soft w false } }
  else if Tab.get (fun _ => false) s.erg.poison w then s
  else { s with erg := { s.erg with soft := Tab.set (fun _ => false) s.erg.soft w true } }

/-- Count and report an uncorrectable error; the first address since the counter was cleared is kept (R298, R304,
R390). -/
def State.ergUncorr (s : State) (a : Nat) : State :=
  let t := stackOf a
  let s := if s.rd .erg (ERG_ECC_UNCORR t) = 0#32 then s.wr64 .erg (ERG_ECC_ADDR_LO t) (ERG_ECC_ADDR_HI t) a
    else s
  let s := (s.count .erg (ERG_ECC_UNCORR t)).contained (14 + t) 0x40 t a
  let keep (l : List Nat) : List Nat := (s.now :: l).filter (fun u => decide (s.now < u + 1000000))
  if t = 0 then { s with erg := { s.erg with unc0 := keep s.erg.unc0 } }
  else { s with erg := { s.erg with unc1 := keep s.erg.unc1 } }

/-- A reader of n bytes meets the errors of their words (R304): an uncorrectable one is counted, a single-bit one is
counted and written back corrected.  A failed stack answers nothing that could be counted. -/
def State.ergMeet (s : State) (a n : Nat) : State :=
  if !stackOk s (stackOf a) then s
  else
    let soft := errWords s.erg.soft a n
    let s := s.each (errWords s.erg.poison a n) (fun s w => s.ergUncorr (w * 8))
    if soft = [] then s
    else
      let s := s.countBy .erg (ERG_ECC_CORR (stackOf a)) soft.length
      { s with erg := { s.erg with soft := s.erg.soft.filter (fun e => !soft.contains e.1) } }

/-! ### Segments (R293, R294, R298) -/

def segOf (s : State) (n : Nat) : Seg := Tab.get Seg.init s.erg.seg n

def State.setSeg (s : State) (n : Nat) (x : Seg) : State :=
  { s with erg := { s.erg with seg := Tab.set Seg.init s.erg.seg n x } }

/-- STATE of a segment; there are 24,576, and stack 1 is absent on WAP24-24-I (R292, R294). -/
def segState (s : State) (n : Nat) : Nat :=
  if ergSegs ≤ n ∨ (12288 ≤ n ∧ ¬ stackPresent s 1) then 5 else (segOf s n).st

/-- ERG_SEG_INFO of a segment (R298). -/
def segInfo (s : State) (n : Nat) : Word :=
  let x := segOf s n
  match segState s n with
  | 2 => BitVec.ofNat 32 (2 * 2 ^ 28 + x.kind * 2 ^ 20 + x.stream * 2 ^ 13)
  | 3 => BitVec.ofNat 32 (3 * 2 ^ 28 + b2n x.pinned * 2 ^ 27 + x.client)
  | k => BitVec.ofNat 32 (k * 2 ^ 28)

/-- ERG_FREE_SEGS (R298). -/
def freeSegs (s : State) : Word :=
  let n (a : Nat) : Nat := (idxs 12288 (fun i => segState s (a + i) == 0)).length
  BitVec.ofNat 32 (n 12288 * 2 ^ 16 + n 0)

/-- A segment no longer named becomes DIRTY (R294). -/
def State.dirtySeg (s : State) (n : Nat) : State := s.setSeg n ⟨1, false, 0, 0, 0, 0, false⟩

/-- Zero a segment; it becomes FREE (R294). -/
def State.zeroSeg (s : State) (n : Nat) : State :=
  let s : State := { s with erg := { s.erg with
    mem := s.erg.mem.filter (fun e => e.1 / segBytes != n)
    poison := s.erg.poison.filter (fun e => e.1 * 8 / segBytes != n)
    soft := s.erg.soft.filter (fun e => e.1 * 8 / segBytes != n) } }
  s.setSeg n ⟨0, false, 0, 0, 0, 0, false⟩

/-- Segments a client holds. -/
def clientSegs (s : State) (c : Nat) : List Nat :=
  ((s.erg.seg.filter (fun e => e.2.st == 3 && e.2.client == c && !e.2.leaving)).map (fun e => e.1))

/-- An Erg span lies wholly in segments that satisfy a test. -/
def spanIn (p : Nat → Bool) (a n : Nat) : Bool :=
  (List.range ((a + n + segBytes - 1) / segBytes - a / segBytes)).all (fun i => p (a / segBytes + i))

/-- Erg addresses that exist: below the populated size, outside the reservation (R257, R293). -/
def ergUsable (s : State) (a n : Nat) : Bool :=
  spanIn (fun g => segState s g != 4 && segState s g != 5) a n

/-- SEGMENT_ZERO_DONE (R294): a DIRTY segment has been zeroed whole. -/
def execSegmentZeroDone (seg : Nat) (s : State) : Host.Outcome State Fault Refusal :=
  .next (if segState s seg = 1 then s.zeroSeg seg else s)

/-- ERG_SCRUB_BLOCK (R304, R306): an error strikes at the address, err 1 single-bit, 2 double-bit, or none does; the
scrubber, if it is enabled, reads the 64-byte block and corrects it.  An error it does not meet waits for the next
reader of its word (log 115). -/
def execErgScrubBlock (addr : Nat) (err : Fin 3) (s : State) : Host.Outcome State Fault Refusal :=
  .next (if !stackOk s (stackOf addr) ∨ 0xC00000000 ≤ addr then s
    else
      let s := if err.val = 0 then s else s.ergStrike addr (err.val == 2)
      if s.flag .erg ERG_SCRUB 31 then s.ergMeet (addr / 64 * 64) 64 else s)

/-! ### The active image (R245) -/

/-- A stream's entry in the active map. -/
def mapStream (s : State) (t : Nat) : Option StrEnt :=
  s.seq.active.bind (fun i => i.map.strs.find? (fun e => e.stream == t))

/-- A region of the active map by stream and kind. -/
def mapRegion (s : State) (t kind : Nat) : Option RegEnt :=
  s.seq.active.bind (fun i => i.map.regions.find? (fun r => r.stream == t && r.kind == kind))

/-- The stream has tiles (R246). -/
def hasTiles (s : State) (t : Nat) : Bool :=
  match mapStream s t with
  | some e => decide (0 < e.tiles ∧ e.tileFirst ≠ 0xFF)
  | none => false

/-- The stream runs wholly on context tiles, tiles 0 to 7 (R157). -/
def onContextTiles (s : State) (t : Nat) : Bool :=
  match mapStream s t with
  | some e => decide (0 < e.tiles ∧ e.tileFirst + e.tiles ≤ 8)
  | none => false

/-- The activity that owns a stream in the active map. -/
def streamAct (s : State) (t : Nat) : Option Nat := (mapStream s t).map (fun e => e.act)

/-- The activity that owns an event channel in the active map (R326). -/
def channelAct (s : State) (c : Nat) : Option Nat :=
  s.seq.active.bind (fun i => (i.map.acts.find? (fun a => tbit a.evt c)).map (fun a => a.id))

/-- The activity that owns a DMA channel in an image. -/
def imageDmaAct (i : Option Image) (c : Nat) : Option Nat :=
  i.bind (fun i => (i.map.acts.find? (fun a => tbit a.dma c)).map (fun a => a.id))

/-- A section of an image by type and index. -/
def Image.sect (i : Image) (type index : Nat) : Option (List Byte) :=
  (i.sects.find? (fun x => x.type == type && x.index == index)).map (fun x => x.body)

/-- The route table of a stream in the active image. -/
def routeTable (s : State) (t : Nat) : List (List Byte) :=
  match s.seq.active.bind (fun i => i.sect 4 t) with
  | some b => (List.range (b.length / 32)).map (fun i => (b.drop (32 * i)).take 32)
  | none => []

/-- The index of the selected route of a kind: the one ROUTE chose, else the first of that KIND. -/
def routeIdx (s : State) (t kind : Nat) : Option Nat :=
  match Tab.get (fun _ => none) s.host.route (t * 4 + kind) with
  | some i => some i
  | none => (List.range (routeTable s t).length).find? (fun i => leAt (atD (routeTable s t) i []) 0 1 == kind)

/-- The bytes of a route by index, if its KIND is the one asked for. -/
def routeAt (s : State) (t kind : Nat) (i : Option Nat) : Option (List Byte) :=
  match i with
  | some i =>
    match (routeTable s t)[i]? with
    | some r => if leAt r 0 1 = kind then some r else none
    | none => none
  | none => none

/-- The clients of a route. -/
def routeClients (r : List Byte) : List Nat := (List.range (leAt r 1 1)).map (fun k => leAt r (4 + 2 * k) 2)

/-! ### Staging space and the copies of a record (R182, R268) -/

/-- The space of abandoned and delivered cut-outs at the old end of the ring is taken back, in the order
written (R182). -/
def reapStaged (now : Nat) : List Staged → List Staged
  | [] => []
  | e :: es => if e.released && (match e.freeAt with | some f => decide (f ≤ now) | none => false) then
      reapStaged now es else e :: es

/-- HOLD of a stream's KIND 0 route, in ms (R266). -/
def holdMs (s : State) (t : Nat) : Nat :=
  match routeAt s t 0 (routeIdx s t 0) with
  | some r => leAt r 12 2
  | none => 0

/-- The streams of the valid views of a record (R186, R188). -/
def viewStreams (rec : List Byte) : List Nat :=
  ([leAt rec 70 1, leAt rec 166 1].filter (fun v => 128 ≤ v)).map (fun v => v - 128)

/-- Change the staging space of a record's cut-outs. -/
def State.onStaged (s : State) (rec : List Byte) (f : Staged → Staged) : State :=
  if leAt rec 0 1 = 2 then s
  else s.each (viewStreams rec).eraseDups (fun s t =>
    { s with obj := { s.obj with stream := Tab.upd (fun _ => ObjStream.init) s.obj.stream t (fun x => { x with
        staging := reapStaged s.now (x.staging.map (fun e =>
          if e.released ∧ 0 < e.copies ∧ e.handle = leAt rec 8 8 then f e else e)) }) } })

/-- One copy of a record is over, delivered or dropped; HOLD runs from the last (R268). -/
def State.copyOver (s : State) (t : Nat) (rec : List Byte) : State :=
  let h := holdMs s t
  s.onStaged rec (fun e =>
    { e with copies := e.copies - 1, freeAt := if e.copies = 1 then some (s.now + h * 1000000) else e.freeAt })

/-- The bytes of a data item; none of a marker (R308). -/
def itemBytes (it : List Dword) : Option (List Byte) :=
  if (it.headD 0#64).toNat / 2 ^ 56 = 1 then some (it.tail.flatMap (fun w => leBytes 8 w.toNat)) else none

/-- A record that is dropped or has left its queue counts as one copy over (R268). -/
def State.itemGone (s : State) (q : Nat) (it : List Dword) : State :=
  match itemBytes it with
  | some b => if q % 4 = 0 ∧ q < 384 then s.copyOver (q / 4) b else s
  | none => s

/-- An item leaves a record queue: a route that ROUTE chose behind it comes nearer, and is selected when it is
next (R238). -/
def State.itemLeft (s : State) (q : Nat) (it : List Dword) : State :=
  let s := s.itemGone q it
  if q % 4 ≠ 0 ∨ 384 ≤ q then s
  else
    let t := q / 4
    let l := (Tab.get (fun _ => []) s.host.routeQ t).map (fun p => (p.1 - 1, p.2))
    let s : State := match ((l.filter (fun p => p.1 == 0)).map (fun p => p.2)).getLast? with
      | some i => { s with host := { s.host with route := Tab.set (fun _ => none) s.host.route (t * 4) (some i) } }
      | none => s
    { s with host := { s.host with routeQ := Tab.set (fun _ => []) s.host.routeQ t (l.filter (fun p => p.1 != 0)) } }

/-! ### Queues (R308 to R314) -/

def State.ergQ (s : State) (q : Nat) : ErgQ := Tab.get (fun _ => ErgQ.init) s.erg.q q

/-- The queue of a stream: k = 0 records, 1 statistics (R313). -/
def qOf (t k : Nat) : Nat := t * 4 + k

/-- The register index of a queue: only k = 0 and 1 have registers (R313). -/
def qAddr (q off : Nat) : Nat := 0xD40000 + q * 0x20 + off

/-- The number of the handover queue, which has no registers (R358). -/
def qHandover : Nat := 508

/-- The region of a queue in the active map: kind 7 records, 6 statistics, 9 handover (R308, R358). -/
def qRegion (s : State) (q : Nat) : Option RegEnt :=
  mapRegion s (q / 4) (if q = qHandover then 9 else if q % 4 = 0 then 7 else 6)

/-- Words of a queue's circle. -/
def qWords (s : State) (q : Nat) : Nat :=
  match qRegion s q with
  | some r => r.count * segBytes / 8
  | none => 0

/-- Free words of a queue (R310). -/
def qFree (s : State) (q : Nat) : Nat :=
  qWords s q - ((s.ergQ q).items.map List.length).sum - (s.ergQ q).part.length

/-- The header word of an item (R308). -/
def itemHeader (kind len count : Nat) : Dword :=
  BitVec.ofNat 64 (kind * 2 ^ 56 + len * 2 ^ 40 + capNat 0xFFFFFFFF count)

/-- Put a queue and its COUNT and DROPPING (R313). -/
def State.setQ (s : State) (q : Nat) (x : ErgQ) : State :=
  let s : State := { s with erg := { s.erg with q := Tab.set (fun _ => ErgQ.init) s.erg.q q x } }
  if 384 ≤ q then s
  else (s.put .erg (qAddr q 0x0) 23 0 x.items.length).setb .erg (qAddr q 0x8) 1 (decide (0 < x.owed))

/-- Write an item's words at the write pointer of the circle. -/
def State.qWrite (s : State) (q : Nat) (it : List Dword) : State :=
  let n := qWords s q
  let base := match qRegion s q with
    | some r => r.first * segBytes
    | none => 0
  let w := (s.ergQ q).wr
  let s := s.each (it.zipIdx) (fun s p => s.ergWrite (base + (w + p.2) % n * 8) (leBytes 8 p.1.toNat))
  let x := s.ergQ q
  s.setQ q { x with items := x.items ++ [it], wr := w + it.length }

/-- The value a read of an empty queue returns (R314). -/
def qSentinel : Word := 0xE3E3E3E3#32

/-- What a register read returned. -/
def State.answer (s : State) (v : Word) : State := { s with readData := v, readPoisoned := false }

/-- The Erg address of a word of a queue, counted from the one read next (R308). -/
def qWordAt (s : State) (q i : Nat) : Nat :=
  let x := s.ergQ q
  let used := (x.items.map List.length).sum + x.part.length
  match qRegion s q with
  | some r => r.first * segBytes + (x.wr - used + i) % qWords s q * 8
  | none => 0

/-- A reader of a queue's next n words meets their errors (R304, R308). -/
def State.qMeet (s : State) (q n : Nat) : State :=
  s.each (List.range n) (fun s i =>
    let a := qWordAt s q i
    let soft := !(errWords s.erg.soft a 8).isEmpty && stackOk s (stackOf a)
    let s := s.ergMeet a 8
    if soft && decide (q < 384) then s.count .erg (qAddr q 0x18) else s)

/-- Pop one word to the host; err 1: an error that is corrected strikes it, 2: an uncorrectable one.  An uncorrectable
word, or one of a failed stack, is returned as read: its value is free (R307, R308, R313, R314). -/
def State.qPop (s : State) (q err : Nat) : State :=
  if (qRegion s q).isNone then
    (s.setQ q { s.ergQ q with popped := BitVec.ofNat 64 (0xE3E3E3E3 * 2 ^ 32) }).answer qSentinel
  else if !s.flag .erg (qAddr q 0x4) 30 then s.answer 0#32
  else if (s.ergQ q).part = [] ∧ (s.ergQ q).items = [] then s.setQ q { s.ergQ q with readAt := some s.now }
  else
    let a := qWordAt s q 0
    let s := if err = 0 then s else s.ergStrike a (err == 2)
    let bad := ergPoisoned s a 8
    let s := s.qMeet q 1
    let s := if bad then s.setb .erg (qAddr q 0x8) 2 true else s
    let free := s.drawn 64
    let s := if bad then s.draw else s
    let x := s.ergQ q
    match x.part, x.items with
    | w :: ws, _ =>
      let r := if bad then free else w
      (s.setQ q { x with part := ws, popped := r }).answer (lo32 r.toNat)
    | [], (w :: ws) :: rest =>
      let r := if bad then free else w
      let marks := if w.toNat / 2 ^ 56 = 1 then x.marks else x.marks.tail
      ((s.setQ q { x with items := rest, part := ws, popped := r, marks := marks }).itemLeft q (w :: ws)).answer
        (lo32 r.toNat)
    | [], _ => s

/-- A host read that waits pops the header of the item just committed (R314). -/
def State.qServe (s : State) (q : Nat) : State :=
  let x := s.ergQ q
  if x.readAt.isSome ∧ x.items ≠ [] then (s.setQ q { x with readAt := none }).qPop q 0 else s

def State.client (s : State) (c : Nat) : ClientSt := Tab.get (fun _ => ClientSt.init) s.host.client c

/-- Change a client. -/
def State.onClient (s : State) (c : Nat) (f : ClientSt → ClientSt) : State :=
  { s with host := { s.host with client := Tab.upd (fun _ => ClientSt.init) s.host.client c f } }

/-- An item is dropped and counted; its marker is owed (R310).  While the link is down the drop counts for
the clients of the stream's route (R254, R273). -/
def State.qDrop (s : State) (q : Nat) (it : List Dword) : State :=
  let x := s.ergQ q
  let first := if x.owed = 0 then s.now else x.owedTb.1
  let s := (s.setQ q { x with owed := x.owed + 1, owedTb := (first, s.now) }).count (if q < 384 then .erg else .cvn)
    (if q < 384 then qAddr q 0x14 else CVN_CNT_HO_DROP)
  let s := s.itemGone q it
  if q % 4 = 0 ∧ q < 384 ∧ ¬ s.host.up then
    let cs := match routeAt s (q / 4) 0 (routeIdx s (q / 4) 0) with
      | some r => routeClients r
      | none => []
    s.each cs (fun s c => s.onClient (c % 1024) (fun y => { y with lostLink := y.lostLink + 1 }))
  else s

/-- Whether an item of LEN payload words fits (R310). -/
def qFits (s : State) (q len : Nat) : Bool := (qRegion s q).isSome && decide (len + 2 ≤ qFree s q)

/-- A queue commits an item of LEN payload words (R309, R310). -/
def qTakes (s : State) (q len : Nat) : Bool := qFits s q len && !(s.ergQ q).failing

/-- An item whose write fails: the write pointer goes back to the commit pointer, and the item is counted (R305, R309). -/
def State.qRewind (s : State) (q : Nat) (it : List Dword) : State :=
  ((s.setQ q { s.ergQ q with failing := false }).count (if q < 384 then .erg else .cvn)
    (if q < 384 then qAddr q 0x14 else CVN_CNT_HO_DROP)).itemGone q it

/-- Write a data item and commit it (R308 to R310): the owed DROP marker goes first; an item that does not fit is
dropped, and one whose write fails is rewound.  A queue the map does not place takes nothing. -/
def State.qPush (s : State) (q : Nat) (payload : List Dword) : State :=
  if (qRegion s q).isNone then s
  else
    let it := itemHeader 1 payload.length 0 :: payload
    if !qFits s q payload.length then s.qDrop q it
    else
      let x := s.ergQ q
      let s := if x.owed = 0 then s
        else (s.setQ q { x with owed := 0, marks := x.marks ++ [x.owedTb] }).qWrite q [itemHeader 2 0 x.owed]
      if x.failing then (s.qServe q).qRewind q it else (s.qWrite q it).qServe q

/-- FLUSH (R311). -/
def State.qFlush (s : State) (q : Nat) : State :=
  if (qRegion s q).isNone then s
  else
    let x := s.ergQ q
    let n := (x.items.filter (fun it => (it.headD 0#64).toNat / 2 ^ 56 == 1)).length
    let s := s.setQ q { x with items := [], part := [], marks := [(s.now, s.now)], failing := false }
    let s := s.each x.items (fun s it => s.itemLeft q it)
    ((s.qWrite q [itemHeader 3 0 n]).setb .erg (qAddr q 0x4) 31 false).qServe q

/-- A write to ERG_Q_CTRL (R311, R313, R314). -/
def State.qCtrlWrite (s : State) (q : Nat) (v : Word) : State :=
  let was := s.flag .erg (qAddr q 0x4) 30
  let s := s.setb .erg (qAddr q 0x4) 30 (bit v 30)
  let x := s.ergQ q
  let s := if was && !bit v 30 && x.part ≠ [] then
      (s.setQ q { x with part := [] }).count .erg (qAddr q 0x14)
    else s
  if bit v 31 then s.qFlush q else s

/-- QUEUE_FLUSH (R311). -/
def execQueueFlush (q : Fin 384) (s : State) : Host.Outcome State Fault Refusal :=
  .next (if qOk q then s.qFlush q else s)

/-- QUEUE_HOSTPOP_WRITE (R311, R314): a write to ERG_Q_CTRL. -/
def execQueueHostpopWrite (q : Fin 384) (v : Word) (s : State) : Host.Outcome State Fault Refusal :=
  .next (if qOk q then s.qCtrlWrite q v else s)

/-- QUEUE_POP (R313, R314): a read of ERG_Q_DATA_LO. -/
def execQueuePop (q : Fin 384) (err : Fin 3) (s : State) : Host.Outcome State Fault Refusal :=
  .next (if qOk q then s.qPop q err else s)

/-- QUEUE_POP_TIMEOUT (R314): a read has waited 1 us. -/
def execQueuePopTimeout (q : Fin 384) (s : State) : Host.Outcome State Fault Refusal :=
  .next (match (s.ergQ q).readAt with
    | some t =>
      if t + 1000 ≤ s.now then
        ((s.setQ q { s.ergQ q with readAt := none, popped := BitVec.ofNat 64 (0xE3E3E3E3 * 2 ^ 32) }).setb .erg
          (qAddr q 0x8) 3 true).answer qSentinel
      else s
    | none => s)

/-- The head item leaves a queue for an internal consumer (R309). -/
def State.qTake (s : State) (q : Nat) : State :=
  let x := s.ergQ q
  match x.items with
  | it :: rest => (s.setQ q { x with
      items := rest, marks := if (itemBytes it).isNone then x.marks.tail else x.marks }).itemLeft q it
  | [] => s

/-- Some word of a queue's head item is uncorrectable (R308). -/
def qHeadBad (s : State) (q : Nat) : Bool :=
  match (s.ergQ q).items with
  | it :: _ => (List.range it.length).any (fun i => ergPoisoned s (qWordAt s q i) 8)
  | _ => false

/-- An internal consumer reads the head item: the errors of its words are met (R304, R308). -/
def State.qRead (s : State) (q : Nat) : State :=
  match (s.ergQ q).items with
  | it :: _ => s.qMeet q it.length
  | _ => s

/-- An internal consumer discards an uncorrectable item and counts it (R308). -/
def State.qDiscard (s : State) (q : Nat) : State :=
  ((((s.qRead q).qTake q)).count .erg (qAddr q 0x14)).setb .erg (qAddr q 0x8) 2 true

/-! ### Look-back rings (R299 to R302) -/

def State.lbOf (s : State) (t : Nat) : Option LbSt := Tab.get (fun _ => none) s.erg.lb t

/-- Components per pixel as written (R299), and the slot of a line: its bytes rounded up to 64. -/
def lbSlot (width dt : Nat) : Nat := (lineBytes width dt + 63) / 64 * 64

/-- Lines a look-back region of R bytes holds (R300). -/
def lbLines (r slot : Nat) : Nat := (r - 2101312) / (slot + 32)

/-- Bytes with their CRC-32C appended. -/
def withCrc (bs : List Byte) : List Byte := bs ++ leBytes 4 (crc32c bs)

/-- The address of the line index, and of the line data (R300). -/
def lbIndex (b : LbSt) : Nat := b.base + 2101248
def lbData (b : LbSt) : Nat := b.base + (2101248 + b.nlines * 32 + 63) / 64 * 64

/-- Lay out a look-back ring at activation (R300); the header's fields have no stated places (log 14). -/
def State.layLookback (s : State) (r : RegEnt) : State :=
  let w := s.fld .pix (PIX_WIN r.stream) 15 0
  let dt := s.fld .pix (PIX_SRC r.stream) 9 4
  let slot := lbSlot w dt
  let n := lbLines (r.count * segBytes) slot
  let b : LbSt := ⟨r.first * segBytes, dt, w, slot, n⟩
  let s : State := { s with erg := { s.erg with lb := Tab.set (fun _ => none) s.erg.lb r.stream (some b) } }
  let h := leBytes 1 r.stream ++ leBytes 1 dt ++ leBytes 2 w ++ leBytes 4 slot ++ leBytes 4 n ++
    leBytes 8 4096 ++ leBytes 8 2101248 ++ leBytes 8 (lbData b - b.base)
  (s.ergWrite b.base (withCrc h)).wr .erg (ERG_LB_NLINES r.stream) (BitVec.ofNat 32 n)

/-- Samples of D bits as the bit stream of R120: bytes filled from bit 0 upward. -/
def packBits (d : Nat) (xs : List Nat) : List Byte :=
  leBytes ((xs.length * d + 7) / 8) (xs.foldr (fun x acc => acc * 2 ^ d + x % 2 ^ d) 0)

/-- Write an input line into the stream's look-back ring (R299, R301). -/
def State.lbWrite (s : State) (t ln strip : Nat) (l : StrLine) : State :=
  match s.lbOf t with
  | none => s
  | some b =>
    if b.nlines = 0 then s
    else
      let i := ln % b.nlines
      let e := lbIndex b + i * 32
      let s := s.ergWrite (e + 23) [0#8]
      let s := s.ergWrite (lbData b + i * b.slot) (padTo b.slot (packBits (dtBits b.dt) l.samples))
      let ent := leBytes 8 ln ++ leBytes 8 l.stamp.tb ++ leBytes 6 l.stamp.pos.toNat ++ leBytes 1 l.flags ++
        [1#8] ++ leBytes 4 strip
      let s := s.ergWrite e (withCrc ent)
      let s := s.wr64 .erg (ERG_LB_NEXT_LO t) (ERG_LB_NEXT_HI t) (ln + 1)
      s.wr64 .erg (ERG_LB_OLDEST_LO t) (ERG_LB_OLDEST_HI t) (ln + 1 - b.nlines)

/-- The line index starts anew (R301). -/
def State.lbRestart (s : State) (t : Nat) : State :=
  let s := s.onPix t (fun x => { x with ln := 0 })
  (s.wr64 .erg (ERG_LB_NEXT_LO t) (ERG_LB_NEXT_HI t) 0).wr64 .erg (ERG_LB_OLDEST_LO t) (ERG_LB_OLDEST_HI t) 0

/-- Write a directory entry (R302). -/
def State.lbDirectory (s : State) (t serial handle lnFirst height xMin xMax vflags : Nat) : State :=
  match s.lbOf t with
  | none => s
  | some b =>
    let e := leBytes 8 handle ++ leBytes 8 lnFirst ++ leBytes 2 height ++ leBytes 2 xMin ++ leBytes 2 xMax ++
      leBytes 1 vflags ++ leBytes 5 0
    s.ergWrite (b.base + 4096 + serial % 65536 * 32) (withCrc e)

end Sys2Proof.Machine
end

