-- ==== Sys2Proof/Machine/Controller.lean ====
section
/-! DEFINITION. The transfers of the I2C controller: what one sends, which runs and which wait (R367, R385, R386). -/
namespace Sys2Proof.Machine

/-- Apnik's own target address (R377, R381). -/
def ownAddr (s : State) : Nat := 0x58 + s.fld .pwr OAS_STRAPS 3 2

/-- The address and the bytes of a write as a transfer starts: PF0's WLEN bytes of the data registers (R386), the own
address and ATTN_STATUS (R385), or VOUT_COMMAND and its two data bytes (R367; log 128: the code is PMBus's, the data
bytes are a free value). -/
def ctlBytes (s : State) : MgtKind → List Byte
  | .pf0 => BitVec.ofNat 8 (s.fld .pwr MGT_CTL_CMD 22 16) ::
      (leBytes 4 (s.rd .pwr MGT_CTL_DATA0).toNat ++ leBytes 4 (s.rd .pwr MGT_CTL_DATA1).toNat).take
        (s.fld .pwr MGT_CTL_CMD 11 8)
  | .attn => [BitVec.ofNat 8 (s.fld .pwr MGT_CTRL 22 16), BitVec.ofNat 8 (ownAddr s), BitVec.ofNat 8 s.pwr.attnStatus]
  | .vreg => BitVec.ofNat 8 (s.fld .pwr PWR_VREG 22 16) :: 0x21#8 :: leBytes 2 (s.drawn 16).toNat

/-- A transfer starts. -/
def State.mgtStart (s : State) (k : MgtKind) : State :=
  let t : State := { s with pwr := { s.pwr with job := some ⟨k, 0⟩, ctlOut := ctlBytes s k } }
  if k = .vreg then t.draw else t

/-- Start a transfer, or let it wait: writes of VCORE and attention writes go before a waiting PF0 transfer (R386). -/
def State.mgtQueue (s : State) (k : MgtKind) : State :=
  match s.pwr.job with
  | none => s.mgtStart k
  | some _ =>
    let l := s.pwr.waiting
    { s with pwr := { s.pwr with
      waiting := if k = .pf0 then l ++ [k] else l.filter (fun x => x != .pf0) ++ k :: l.filter (fun x => x == .pf0) } }

/-- The running transfer is over; the next one starts. -/
def State.mgtNext (s : State) : State :=
  match s.pwr.waiting with
  | [] => { s with pwr := { s.pwr with job := none } }
  | k :: ks => ({ s with pwr := { s.pwr with waiting := ks } } : State).mgtStart k

end Sys2Proof.Machine
end

