-- ==== Sys2Proof/Machine/Clusters.lean ====
section
/-! DEFINITION. Operating points of the tile clusters (R366 to R369). -/
namespace Sys2Proof.Machine

/-- Tiles a stream entry of a map takes. -/
def StrEnt.hasTile (e : StrEnt) (i : Nat) : Bool := decide (e.tileFirst ≤ i ∧ i < e.tileFirst + e.tiles)

/-- A map gives a cluster tiles: cluster c has tiles 4c to 4c + 3. -/
def ResMap.usesCluster (m : ResMap) (c : Nat) : Bool :=
  m.strs.any (fun e => (List.range 4).any (fun i => e.hasTile (4 * c + i)))

/-- Cluster voltage of an operating point, in mV (R366). -/
def opVolts (op : Nat) : Nat :=
  match op with
  | 0 => 0
  | 1 => 650
  | 2 => 700
  | _ => 750

/-- Clock of an operating point in Hz (R366). -/
def opHz (op : Nat) : Nat :=
  match op with
  | 0 => 0
  | 1 => 500000000
  | 2 => 800000000
  | _ => 1000000000

def clOp (s : State) (c : Nat) : Nat := s.fld .pwr (PWR_CL_CTRL c) 31 30
def clCur (s : State) (c : Nat) : Nat := s.fld .pwr (PWR_CL_CTRL c) 29 28

/-- A cluster's clock in Hz: the 400 MHz bypass while its frequency changes (R368). -/
def clHz (s : State) (c : Nat) : Nat :=
  if s.pwr.change.any (fun x => x.cl == c && x.step == 3) then 400000000 else opHz (clCur s c)

/-- VCORE in mV for the points in effect, with one cluster at another (R367). -/
def vcoreFor (s : State) (c op : Nat) : Nat :=
  max 650 (((List.range 8).map (fun k => opVolts (if k = c then op else clCur s k))).foldl max 0 + 50)

/-- Firmware writes VCORE (R367). -/
def vregOn (s : State) : Bool := s.flag .pwr PWR_VREG 31

/-- The first step of a change: rising starts with VCORE where it must rise, falling with the frequency (R368). -/
def firstStep (s : State) (c op : Nat) (rising : Bool) : Nat :=
  if rising then (if vregOn s ∧ s.pwr.vcoreOut < vcoreFor s c op then 0 else 2) else 3

/-- VCORE is to have a level: its write runs, waits, or is the one that waits already (R367, R386). -/
def State.vcoreWrite (s : State) (mv : Nat) : State :=
  let s : State := { s with pwr := { s.pwr with vcoreOut := mv } }
  if s.pwr.waiting.contains .vreg then s else s.mgtQueue .vreg

/-- A change goes on to a step; step 0 writes VCORE (R367, R368). -/
def State.opGo (s : State) (x : OpChange) (step : Nat) : State :=
  let s : State := { s with pwr := { s.pwr with change := some { x with step := step } } }
  if step = 0 then s.vcoreWrite (vcoreFor s x.cl x.target) else s

/-- Start a change of a cluster's point, if its target differs from the point in effect (R368). -/
def State.opStart (s : State) (c : Nat) : State :=
  let op := clOp s c
  let cur := clCur s c
  if s.pwr.change.isSome || op == cur then s
  else
    let rising := decide (cur < op)
    (s.setb .pwr (PWR_CL_CTRL c) 27 true).opGo ⟨c, op, rising, 0⟩ (firstStep s c op rising)

/-- A cluster whose rise failed stays at its point until its target is written again (R367). -/
def State.opFailed (s : State) (c : Nat) (b : Bool) : State :=
  { s with pwr := { s.pwr with unit := Tab.upd (fun _ => PwrUnit.init) s.pwr.unit c (fun x => { x with failed := b }) } }

/-- The next waiting target starts when no change runs. -/
def State.opKick (s : State) : State :=
  match (List.range 8).find? (fun c =>
    clOp s c != clCur s c && !(Tab.get (fun _ => PwrUnit.init) s.pwr.unit c).failed) with
  | some c => s.opStart c
  | none => s

/-- Set a cluster's target (R366, R368). -/
def State.opTarget (s : State) (c op : Nat) : State := ((s.put .pwr (PWR_CL_CTRL c) 31 30 op).opFailed c false).opStart c

/-- The points an active image gives the clusters: 1.0 GHz where it gives them tiles, OFF elsewhere (R366). -/
def State.imageOps (s : State) (m : ResMap) : State :=
  s.each (List.range 8) (fun s c => s.opTarget c (if m.usesCluster c then 3 else 0))

/-- A write to PWR_CL_CTRL (R366, R369). -/
def State.clCtrlWrite (s : State) (c : Nat) (v : Word) : State :=
  let m := s.seq.active.map (fun i => i.map)
  let low := (m.map (fun m => atD m.clusterOp c 0)).getD 0
  let uses := (m.map (fun m => m.usesCluster c)).getD false
  let s := if bit v 26 then s.setb .pwr (PWR_CL_CTRL c) 26 false else s
  let s := if bit v 25 then s.setb .pwr (PWR_CL_CTRL c) 25 false else s
  let op := bits v 31 30
  if op = 0 ∧ uses then s.setb .pwr (PWR_CL_CTRL c) 25 true
  else if op < low then (s.setb .pwr (PWR_CL_CTRL c) 25 true).opTarget c low
  else s.opTarget c op

/-- CLUSTER_OP_WRITE (R366). -/
def execClusterOpWrite (c : Fin 8) (v : Word) (s : State) : Host.Outcome State Fault Refusal :=
  .next (s.clCtrlWrite c v)

/-- A cluster whose SRAM loses power: the table banks of its tiles 4c to 4c + 3 are lost (R361). -/
def State.tilesLost (s : State) (c : Nat) : State :=
  { s with pix := { s.pix with tile := s.pix.tile.filter (fun e => e.1 / 128 != c) } }

/-- The change is over: its point is in effect (or, after a failed rise, the old one), and the next starts. -/
def State.opEnd (s : State) (x : OpChange) (done : Bool) : State :=
  let s := if done then
      let s := s.put .pwr (PWR_CL_CTRL x.cl) 29 28 x.target
      if x.target = 0 then (s.put .pwr (PWR_CL_CTRL x.cl) 1 0 3).tilesLost x.cl
      else if s.fld .pwr (PWR_CL_CTRL x.cl) 1 0 = 3 then s.put .pwr (PWR_CL_CTRL x.cl) 1 0 1 else s
    else s
  let s := s.setb .pwr (PWR_CL_CTRL x.cl) 27 false
  ({ s with pwr := { s.pwr with change := none } } : State).opKick

/-- A step of the change completes: 0 the VCORE write, 1 SETTLE, 2 the cluster regulator's ramp, 3 the PLL behind
the bypass clock (R367, R368). -/
def State.opStep (s : State) (ok : Bool) : State :=
  match s.pwr.change with
  | none => s
  | some x =>
    match x.step with
    | 0 =>
      if ok then s.opGo x 1
      else if x.rising then
        let s := s.opFailed x.cl (clOp s x.cl == x.target)
        ((s.setb .pwr (PWR_CL_CTRL x.cl) 26 true).contained 55 0x50 x.cl 0).opEnd x false
      else s.opEnd x true
    | 1 => if x.rising then s.opGo x 2 else s.opEnd x true
    | 2 =>
      if x.rising then s.opGo x 3
      else if vregOn s ∧ vcoreFor s x.cl x.target < s.pwr.vcoreOut then s.opGo x 0
      else s.opEnd x true
    | _ => if x.rising then s.opEnd x true else s.opGo x 2

/-- The controller's write of VCORE is over; a later level that waits is still to be written (R367). -/
def State.vcoreEnd (s : State) (ok : Bool) : State :=
  if s.pwr.waiting.contains .vreg then s
  else
    let s : State := { s with pwr := { s.pwr with
      vcore := if ok then s.pwr.vcoreOut else s.pwr.vcore, vcoreOut := if ok then s.pwr.vcoreOut else s.pwr.vcore } }
    if s.pwr.change.any (fun x => x.step == 0) then s.opStep ok else s

/-- CLUSTER_OP_STEP (R367, R368): the step in progress completes; ok false: a regulator write failed.  The step that writes
VCORE completes with the controller's transfer, once that runs. -/
def execClusterOpStep (ok : Bool) (s : State) : Host.Outcome State Fault Refusal :=
  .next (match s.pwr.change with
    | some x =>
      if x.step ≠ 0 then s.opStep ok
      else if s.pwr.job.any (fun j => j.kind == .vreg) then (s.vcoreEnd ok).mgtNext else s
    | none => s)

/-- The level VCORE needs for every point in use and the one under change (R367). -/
def vcoreNeed (s : State) : Nat :=
  vcoreFor s 8 0 |> fun l => match s.pwr.change with
    | some x => max l (vcoreFor s x.cl (max (clCur s x.cl) x.target))
    | none => l

/-- A write to PWR_VREG (R367, R369): VREG_EN brings VCORE to its level; without it you supply 0.80 V. -/
def State.vregWrite (s : State) (v : Word) : State :=
  let was := vregOn s
  let s := s.store .pwr PWR_VREG v
  if !vregOn s then { s with pwr := { s.pwr with vcore := 800, vcoreOut := 800 } }
  else if was || vcoreNeed s == s.pwr.vcoreOut then s
  else s.vcoreWrite (vcoreNeed s)

end Sys2Proof.Machine
end

