-- ==== Sys2Proof/Machine/Cells.lean ====
section
/-! DEFINITION. Caravan ports, cells, receive buffers and credits, and the routing of a cell (R333 to R343).  Span port
p is lane port 24 + p. -/
namespace Sys2Proof.Machine

/-! ### Ports and links (R335) -/

/-- A span port. -/
def cvPort (s : State) (p : Nat) : CvPort := Tab.get (fun _ => CvPort.init) s.cvn.port p

def State.onCv (s : State) (p : Nat) (f : CvPort → CvPort) : State :=
  { s with cvn := { s.cvn with port := Tab.upd (fun _ => CvPort.init) s.cvn.port p f } }

/-- The port's lane is in ACTIVE. -/
def cvActive (s : State) (p : Nat) : Bool := portState s (24 + p) == phActive

/-- LINK: ACTIVE and in routing (R335, R342, R360). -/
def cvLink (s : State) (p : Nat) : Bool := s.flag .cvn (CVN_PORT_STATUS p) 29 && cvActive s p

/-- SPAN_ROOT (R360). -/
def isRoot (s : State) : Bool := s.flag .cvn CVN_STATUS 31

/-- The ports in order. -/
def cvPorts : List Nat := [0, 1, 2, 3]

/-- A port's role in a table: 0 UNUSED, 1 UP, 2 DOWN, 3 ALT (R342). -/
def RouteTab.role (t : RouteTab) (p : Nat) : Nat := atD t.roles p 0

/-- The UP port of a table. -/
def RouteTab.up (t : RouteTab) : Option Nat := cvPorts.find? (fun p => t.role p == 1)

/-- The DOWN ports of a table. -/
def RouteTab.downs (t : RouteTab) : List Nat := cvPorts.filter (fun p => t.role p == 2)

/-- A table with a port's role and range replaced. -/
def RouteTab.put (t : RouteTab) (p role lo hi : Nat) : RouteTab :=
  { t with roles := setAt t.roles p role, los := setAt t.los p lo, his := setAt t.his p hi }

/-! ### Cells (R337) -/

/-- CRC-8 of a header (R337). -/
def crc8 (bs : List Byte) : Nat := crcMsb 8 0x07 0 (bs.flatMap (fun b => bitsMsb 8 b.toNat))

/-- A cell's 64 bytes with the credit fields of a port (R337). -/
def Cell.bytes (c : Cell) (crq crs : Nat) : List Byte :=
  let hdr := leBytes 1 (c.cls + 8 * b2n c.resp + 16 * b2n c.bcast + 32 * b2n c.gen0) ++
    leBytes 3 (c.dst % 4096 + c.src % 4096 * 4096) ++ leBytes 1 c.hops ++ leBytes 1 crq ++ leBytes 1 crs
  let body := hdr ++ leBytes 1 (crc8 hdr) ++ padTo 52 c.pay
  body ++ leBytes 4 (crc32c body)

/-- The nine blocks a cell travels as: a CELL control block without content, then its bytes in order (R334). -/
def cellBlocks (bs : List Byte) : List (Bool × Dword) :=
  (true, 0x69#64) :: (pieces 8 8 bs).map (fun b => (false, BitVec.ofNat 64 (leAt b 0 8)))

/-- A marker block of a span port (R104, R334): LANE is 0. -/
def markerBits (count : Nat) : List Bool :=
  let top := count % 2 ^ 16 * 2
  let fixed := (List.range 80).foldl (fun n i => n + 2 ^ (98 + 2 * i)) 0
  bitsLsb 257 (markerPattern * 2 + top * 2 ^ 65 + crc16 17 top * 2 ^ 82 + fixed)

/-- The status block of a span port (R104): nothing to report (DESIGN CHOICE, log 139). -/
def statusBits : List Bool := bitsLsb 257 (crc16 32 0 * 2 ^ 33)

/-- Blocks join those that wait; once a codeword is full it leaves, the first of a group behind its markers (R102 to R104,
R334). -/
def LnkPort.txPut (x : LnkPort) (precode : Bool) (bs : List (Bool × Dword)) : LnkPort :=
  let x := { x with txBlocks := x.txBlocks ++ bs }
  let first := x.txCws == 0
  let n := if first then 17 else 20
  if x.txBlocks.length < 4 * n then x
  else
    let r := transcodeAll n x.scr (x.txBlocks.take (4 * n))
    let m := markerBits x.txCount
    let cw := encodeCodeword ((if first then m ++ m ++ statusBits else []) ++ r.1)
    let syms := lineSymbols precode x.txPrev cw
    { x with
      txBlocks := x.txBlocks.drop (4 * n), scr := r.2, txCws := (x.txCws + 1) % groupCws
      txCount := if x.txCws + 1 = groupCws then (x.txCount + 1) % 2 ^ 16 else x.txCount
      txPrev := syms.getLastD 0, txCw := BitVec.ofNat 5440 (syms.foldl (fun n v => 4 * n + v) 0) }

/-- A span port sends blocks, with a FILL block before them once the next 2,048 blocks might hold none (R334); FILL blocks
alone are a boundary without a cell. -/
def State.spanBlocks (s : State) (p : Nat) (bs : List (Bool × Dword)) : State :=
  let pre := (s.phyPort (24 + p)).txPrecode
  s.onLnk (24 + p) (fun x =>
    let due := bs.isEmpty || decide (2048 ≤ x.sinceFill + bs.length + 1)
    let x := { x with sinceFill := (if due then 0 else x.sinceFill) + bs.length }
    x.txPut pre ((if due then [(true, fillBlock)] else []) ++ bs))

/-- The cell that 64 bytes spell. -/
def Cell.ofBytes (bs : List Byte) (msg : CvnMsg) : Cell :=
  let k := leAt bs 0 1
  let a := leAt bs 1 3
  { cls := nbits k 2 0, resp := tbit k 3, bcast := tbit k 4, gen0 := tbit k 5, dst := a % 4096, src := a / 4096
    hops := leAt bs 4 1, pay := (bs.drop 8).take 52, msg := msg }

/-- A field of a cell's payload by its offset in the cell. -/
def Cell.at (c : Cell) (off n : Nat) : Nat := leAt c.pay (off - 8) n

/-- A cell this device originates.  The payload of an ENUM or MGT cell is open (log 21): it is settled as the cell leaves. -/
def newCell (s : State) (cls : Nat) (resp bcast : Bool) (dst : Nat) (pay : List Byte) (msg : CvnMsg) : Cell :=
  ⟨cls, resp, bcast, decide (s.cvn.cur.gen % 2 = 1), dst, s.cvn.cur.id, 0, if msg = .plain then padTo 52 pay else [], msg⟩

/-- A link-local ENUM cell; answers, RETURN and PROGRESS take the response lane (log 21). -/
def enumCell (s : State) (resp : Bool) (msg : CvnMsg) : Cell := newCell s 5 resp false 0 [] msg

/-! ### Buffers and credits (R339, R341) -/

/-- Put a cell on a port's transmit list (R340). -/
def State.cvPut (s : State) (p : Nat) (c : Cell) (holds : Option (Nat × Bool × Nat)) : State :=
  s.onCv p (fun x => { x with out := x.out ++ [⟨c, holds⟩] })

/-- Credit for a cell on a port (R339): SYNC needs none; the last 4 request credits are for POS and EVT. -/
def cvCredit (s : State) (p : Nat) (c : Cell) : Bool :=
  let x := cvPort s p
  if c.cls = 0 then true
  else if c.resp then decide ((x.sentRsp + 256 - x.ackRsp) % 256 < 16)
  else decide ((x.sentReq + 256 - x.ackReq) % 256 < if c.cls = 1 ∨ c.cls = 3 then 16 else 12)

/-- Response buffers of a port that cells hold (R339). -/
def rspHeld (s : State) (p : Nat) : Nat :=
  ((s.cvn.inbox.filterMap (fun e => e.holds) ++ cvPorts.flatMap (fun q => (cvPort s q).out.filterMap (fun e => e.holds))).filter
    (fun k => k.1 == p && k.2.1)).eraseDups.length

/-- Some cell still holds a receive buffer. -/
def bufHeld (s : State) (k : Nat × Bool × Nat) : Bool :=
  s.cvn.inbox.any (fun e => e.holds == some k) || cvPorts.any (fun p => (cvPort s p).out.any (fun e => e.holds == some k))

/-- Free a receive buffer: the count this device reports moves (R337, R339). -/
def State.bufFree (s : State) (p : Nat) (resp : Bool) : State :=
  s.onCv p (fun x => if resp then { x with freedRsp := (x.freedRsp + 1) % 256 } else { x with freedReq := (x.freedReq + 1) % 256 })

/-- A holder has gone: the buffer is free when it was the last one (R341). -/
def State.bufDone (s : State) (k : Option (Nat × Bool × Nat)) : State :=
  match k with
  | some k => if bufHeld s k then s else s.bufFree k.1 k.2.1
  | none => s

/-- Take the oldest waiting cell from a port that satisfies a test, freeing its buffer. -/
def State.cvTake (s : State) (p : Nat) (f : Cell → Bool) : Option (Cell × State) :=
  match s.cvn.inbox.find? (fun e => e.port == p && f e.cell) with
  | some e => some (e.cell, (({ s with cvn := { s.cvn with inbox := s.cvn.inbox.erase e } } : State).bufDone e.holds))
  | none => none

/-! ### Routing (R342, R343) -/

/-- The kept table a cell is routed with (R343). -/
def tableFor (s : State) (gen0 : Bool) : Option RouteTab :=
  let fits (t : RouteTab) : Bool := decide (t.gen % 2 = 1) == gen0
  if fits s.cvn.cur then some s.cvn.cur
  else match s.cvn.prev with
    | some (t, _) => if fits t then some t else none
    | none => none

/-- Where a unicast destination leads: none discards, some none is this device, some p a port (R342). -/
def cvRoute (s : State) (t : RouteTab) (dst : Nat) : Option (Option Nat) :=
  if dst = t.id then some none
  else
    let port := match s.cvn.overrides.find? (fun o => decide (o.1 ≤ dst ∧ dst ≤ o.2.1)) with
      | some o => some o.2.2
      | none =>
        match t.downs.find? (fun p => decide (atD t.los p 0 ≤ dst ∧ dst ≤ atD t.his p 0)) with
        | some p => some p
        | none => if isRoot s then none else t.up
    match port with
    | some p => if cvLink s p then some (some p) else none
    | none => none

/-- Send a unicast cell of this device; none where routing would discard it here. -/
def State.cvSend (s : State) (c : Cell) : Option State :=
  match cvRoute s s.cvn.cur c.dst with
  | some (some p) => some (s.cvPut p c none)
  | some none => some { s with cvn := { s.cvn with inbox := s.cvn.inbox ++ [⟨0, c, none⟩] } }
  | none => none

/-- Send a broadcast cell of this device: up, or from the root to every DOWN port (R342). -/
def State.cvBroadcast (s : State) (c : Cell) : State :=
  let t := s.cvn.cur
  let ports := if isRoot s then t.downs else t.up.toList
  s.each (ports.filter (fun p => cvLink s p)) (fun s p => s.cvPut p c none)

/-- Send a cell towards the root, with the receive buffer it holds. -/
def State.cvUp (s : State) (c : Cell) (k : Option (Nat × Bool × Nat)) : State :=
  match s.cvn.cur.up with
  | some p => if cvLink s p then s.cvPut p c k else s.count .cvn CVN_CNT_NOROUTE
  | none => s.count .cvn CVN_CNT_NOROUTE

/-- Response buffers of a port kept for the answers this device waits for: one for its MGT request, one for its ENUM
request (R341). -/
def rspOwed (s : State) (p : Nat) : Nat :=
  b2n (s.cvn.rmtAt.isSome && cvRoute s s.cvn.cur (s.fld .cvn CVN_RMT_CMD 27 16) == some (some p)) +
    b2n (s.cvn.pass.any (fun e => e.port == p && decide (e.wait ≠ .idle)))

/-- A request that this device originates and that is answered leaves only while the buffers for its answers are free
(R341). -/
def answerKept (s : State) (p : Nat) (e : OutCell) : Bool :=
  match e.cell.msg with
  | .probe _ _ | .token _ _ _ _ _ => decide (rspHeld s p + rspOwed s p ≤ 16)
  | .read _ | .write _ _ => !e.cell.pay.isEmpty || decide (rspHeld s p + rspOwed s p ≤ 16)
  | _ => true

/-- Response credit stands on a port for one more response, behind those that wait there (R341). -/
def rspCredit (s : State) (p : Nat) : Bool :=
  let x := cvPort s p
  decide ((x.sentRsp + 256 - x.ackRsp) % 256 + (x.out.filter (fun e => e.cell.resp)).length < 16)

end Sys2Proof.Machine
end

