-- ==== Sys2Proof/Machine/Pixels.lean ====
section
/-! DEFINITION. The arithmetic of the pixel pipeline on one line (R134 to R150): unpacking, black level, flat-field,
defect correction, registration, demosaic, band matrix, tone tables, formatters. -/
namespace Sys2Proof.Machine

/-- rsh(x, s): floor((x + 2^(s-1)) / 2^s), half up. -/
def rsh (x : Int) (s : Nat) : Int := (x + 2 ^ (s - 1)) / 2 ^ s

/-- clip16(x) (R136). -/
def clip16 (x : Int) : Nat := (clampInt 0 65535 x).toNat

/-- Whether clip16 limits a value (R136). -/
def clips16 (x : Int) : Bool := decide (x < 0 ∨ 65535 < x)

/-- A 16-bit signed field. -/
def s16 (x : Nat) : Int := sgn 16 x

/-- Internal components of a data type (R134): DT[3:2] + 1, or 3 and 4 for the two mosaics. -/
def pixComps (dt : Nat) : Nat := if isMosaic dt then (if tbit dt 2 then 4 else 3) else dtComps dt

/-- The colour of a column in a mosaic line of a phase (R142): 0 red, 1 green, 2 blue, 3 NIR. -/
def mosaicColour (nir : Bool) (phase x : Nat) : Nat :=
  let lo := if nir then 2 else 1
  let hi := if nir then 3 else 2
  match phase, x % 2 with
  | 0, 0 => 0
  | 0, _ => 1
  | 1, 0 => 1
  | 1, _ => 0
  | 2, 0 => lo
  | 2, _ => hi
  | _, 0 => hi
  | _, _ => lo

/-! ### Unpacking (R120, R137) -/

/-- Samples of D bits of a line's bit stream (R120). -/
def unpackBits (d count : Nat) (bs : List Byte) : List Nat :=
  let v := ofLe bs
  (List.range count).map (fun i => v / 2 ^ (i * d) % 2 ^ d)

/-- The internal components of an interleaved line: CMAP chooses, u = v * 2^(16 - D) (R134, R137). -/
def unpackPlanes (dt cmap width : Nat) (samples : List Nat) : List (List Nat) :=
  let n := dtComps dt
  let up := 2 ^ (16 - dtBits dt)
  (List.range n).map (fun c =>
    let src := nbits cmap (2 * c + 1) (2 * c)
    (List.range width).map (fun x => if src < n then atD samples (x * n + src) 0 * up else 0))

/-- The values of a line before correction: one list per component, or one for a mosaic (R134, R137). -/
def unpackLine (dt cmap width : Nat) (samples : List Nat) : List (List Nat) :=
  if isMosaic dt then
    [(List.range width).map (fun x => atD samples x 0 * 2 ^ (16 - dtBits dt))]
  else unpackPlanes dt cmap width samples

/-- The component that plane p of a line holds at column x. -/
def compAt (dt phase p x : Nat) : Nat := if isMosaic dt then mosaicColour (tbit dt 2) phase x else p

/-! ### Correction (R138 to R140) -/

/-- One stage over a line: every value, and the number of columns in which it clips (R136). -/
def clipStage (planes : List (List Nat)) (f : Nat → Nat → Nat → Int) : List (List Nat) × Nat :=
  let raw := planes.mapIdx (fun p row => row.mapIdx (fun x v => f p x v))
  let width := (planes.headD []).length
  (raw.map (fun row => row.map clip16),
    ((List.range width).filter (fun x => raw.any (fun row => clips16 (atD row x 0)))).length)

/-- Black level and offset (R138): black c holds BLACK and OFFSET of component c. -/
def blackStage (dt phase : Nat) (black : Nat → Nat × Int) (planes : List (List Nat)) : List (List Nat) × Nat :=
  clipStage planes (fun p x v =>
    let b := black (compAt dt phase p x)
    (v : Int) - b.1 + b.2)

/-- Flat-field (R139): entry x c is the 32-bit entry, 0x40000000 where there is none (R156). -/
def flatStage (dt phase : Nat) (entry : Nat → Nat → Nat) (planes : List (List Nat)) : List (List Nat) × Nat :=
  clipStage planes (fun p x v =>
    let e := entry x (compAt dt phase p x)
    rsh ((v : Int) * (e / 2 ^ 16 % 2 ^ 16 : Nat)) 14 + s16 (e % 2 ^ 16))

/-- The flat-field entry of a LINE-mode table; no table acts as the identity (R139, R156). -/
def flatEntry (bank : Bank) (n x c : Nat) : Nat :=
  match bank with
  | none => 0x40000000
  | some bs => leAt bs ((x * n + c) * 4) 4

/-- The columns a defect map lists for a line: every entry in LINE mode, those of the row in AREA mode,
inside the window (R140). -/
def defectCols (bank : Bank) (width : Nat) (row : Option Nat) : List Nat :=
  match bank with
  | none => []
  | some bs =>
    let es := (List.range (bs.length / 4)).map (fun i => leAt bs (4 * i) 4)
    ((es.filter (fun e => match row with
      | some y => e % 2 ^ 16 == y
      | none => true)).map (fun e => e / 2 ^ 16)).filter (fun x => decide (x < width))

/-- The nearest good neighbour up to 4 steps to one side: column x + k * step * dir (R140). -/
def goodNeighbour (bad : List Nat) (width step : Nat) (left : Bool) (x : Nat) : Option Nat :=
  (List.range 4).findSome? (fun k =>
    let d := (k + 1) * step
    if left then (if d ≤ x ∧ ¬ bad.contains (x - d) then some (x - d) else none)
    else (if x + d < width ∧ ¬ bad.contains (x + d) then some (x + d) else none))

/-- Defect correction (R140): the line, and how many positions stay uncorrected. -/
def defectStage (dt : Nat) (bad : List Nat) (planes : List (List Nat)) : List (List Nat) × Nat :=
  let width := (planes.headD []).length
  let step := if isMosaic dt then 2 else 1
  let fix (row : List Nat) : List Nat := row.mapIdx (fun x v =>
    if bad.contains x then
      match goodNeighbour bad width step true x, goodNeighbour bad width step false x with
      | some l, some r => (rsh ((atD row l 0 : Int) + (atD row r 0 : Int)) 1).toNat
      | some l, none => atD row l 0
      | none, some r => atD row r 0
      | none, none => v
    else v)
  (planes.map fix, (bad.eraseDups.filter (fun x =>
    (goodNeighbour bad width step true x).isNone && (goodNeighbour bad width step false x).isNone)).length)

/-! ### Registration (R141) -/

/-- The source line of output line k at a delay: input lines newest first. -/
def regLine (lines : List PlaneLine) (delay : Nat) : Option PlaneLine := lines[delay]?

/-- A row shifted by whole columns, edges repeated (R141). -/
def shiftRow (row : List Nat) (shift : Int) : List Nat :=
  (List.range row.length).map (fun x =>
    let y := clampInt 0 (row.length - 1 : Nat) ((x : Int) - shift)
    atD row y.toNat 0)

/-- A mosaic line of registration (R141): each column takes the line of its own colour, in the grid of the REF line
moved by its shift.  DEDUCED (log 15).  Where the line and column that R141 names hold another colour, the value is the
free one given for the column. -/
def mosaicRow (nir : Bool) (phase : Nat) (delays : List Nat) (shifts : List Int) (free : Nat → Nat)
    (lines : List PlaneLine) (width : Nat) : List Nat :=
  (List.range width).map (fun x =>
    let c := mosaicColour nir phase x
    match regLine lines (atD delays c 0) with
    | some l =>
      let at' := (x : Int) - atD shifts c 0
      let y := (clampInt 0 (width - 1 : Nat) at').toNat
      if at' = y ∧ mosaicColour nir l.phase y ≠ c then free x else atD (l.planes.headD []) y 0
    | none => 0)

/-- The output line of registration, once every source line has arrived (R141): newest first input lines,
delays and shifts per component, the delay and shift of REF. -/
def registered (dt n : Nat) (delays : List Nat) (shifts : List Int) (refDelay : Nat) (refShift : Int) (free : Nat → Nat)
    (lines : List PlaneLine) : Option PlaneLine :=
  let ds := (delays.take n)
  let mx := ds.foldl max 0
  if lines.length ≤ mx then none
  else match regLine lines refDelay with
    | none => none
    | some ref =>
      let src := (List.range n).filterMap (fun c => regLine lines (atD ds c 0))
      let fl := src.foldl (fun f l => f ||| l.flags) 0
      let planes := (List.range n).map (fun c =>
        match regLine lines (atD ds c 0) with
        | some l => shiftRow (atD l.planes c []) (atD shifts c 0)
        | none => [])
      let phase := if refShift % 2 = 0 then ref.phase else ref.phase ^^^ 1
      let mosaic := [mosaicRow (tbit dt 2) phase ds shifts free lines (ref.planes.headD []).length]
      some { ref with planes := if isMosaic dt then mosaic else planes, flags := fl, phase := phase }

/-! ### Demosaic (R142 to R145) -/

/-- Column j mirrored into the window (R143). -/
def mirror (width : Nat) (j : Int) : Nat :=
  let w : Int := width
  let k := if j < 0 then -j else if w ≤ j then 2 * (w - 1) - j else j
  (clampInt 0 (w - 1) k).toNat

/-- The mosaic rows around a line: its own values and phase, the rows above and below (R142, R143). -/
structure Rows where
  nir : Bool
  y : List Nat
  yPhase : Nat
  u : List Nat
  uPhase : Nat
  d : List Nat
  dPhase : Nat
  prev : Option (List (List Nat))
  deriving DecidableEq, Repr

/-- Whether a row of a phase holds a colour at a column. -/
def Rows.holds (r : Rows) (phase colour x : Nat) : Bool := mosaicColour r.nir phase x == colour

/-- A sample of the row above (up) or below with a colour at column x + dx; a row that does not hold it
there is replaced by the opposite row (R143). -/
def Rows.vert (r : Rows) (up : Bool) (colour : Nat) (x : Nat) (dx : Int) : Option Nat :=
  let j := mirror r.y.length ((x : Int) + dx)
  let a := if up then (r.u, r.uPhase) else (r.d, r.dPhase)
  let b := if up then (r.d, r.dPhase) else (r.u, r.uPhase)
  if r.holds a.2 colour j then some (atD a.1 j 0)
  else if r.holds b.2 colour j then some (atD b.1 j 0)
  else none

/-- A sample of the line itself at column x + dx. -/
def Rows.horiz (r : Rows) (x : Nat) (dx : Int) : Nat := atD r.y (mirror r.y.length ((x : Int) + dx)) 0

/-- rsh of the sum of values by 1 for two and 2 for four (R144, R145); none unless all are there. -/
def meanOf (xs : List (Option Nat)) : Option Nat :=
  if xs.any Option.isNone then none
  else some (rsh ((xs.map (fun x => ((x.getD 0 : Nat) : Int))).sum) (if xs.length = 4 then 2 else 1)).toNat

/-- The component copied from the previous output line (R143); 0 before the first (DESIGN CHOICE, log 137). -/
def Rows.copied (r : Rows) (c x : Nat) : Nat :=
  match r.prev with
  | some p => atD (atD p c []) x 0
  | none => 0

/-- Green at a red or blue site of the colour mosaic: the direction with the smaller step (R144). -/
def Rows.green (r : Rows) (x : Nat) : Option Nat :=
  let l := r.horiz x (-1)
  let h := r.horiz x 1
  match r.vert true 1 x 0, r.vert false 1 x 0 with
  | some a, some b =>
    let gh := max l h - min l h
    let gv := max a b - min a b
    if gh < gv then meanOf [some l, some h]
    else if gv < gh then meanOf [some a, some b]
    else meanOf [some l, some h, some a, some b]
  | _, _ => none

/-- Component c of the pixel at column x (R143 to R145): its own sample, its horizontal neighbours, its
vertical neighbours, or its diagonals. -/
def Rows.comp (r : Rows) (c x : Nat) : Nat :=
  let own := mosaicColour r.nir r.yPhase x
  let side := mosaicColour r.nir r.yPhase (x + 1)
  let vert := r.holds r.uPhase c x || r.holds r.dPhase c x
  if c = own then atD r.y x 0
  else if !r.nir && c == 1 then (r.green x).getD (r.copied c x)
  else if c = side then (meanOf [some (r.horiz x (-1)), some (r.horiz x 1)]).getD 0
  else if vert then (meanOf [r.vert true c x 0, r.vert false c x 0]).getD (r.copied c x)
  else (meanOf [r.vert true c x (-1), r.vert true c x 1, r.vert false c x (-1), r.vert false c x 1]).getD
    (r.copied c x)

/-- The planes of a demosaiced line (R142 to R145). -/
def Rows.planes (r : Rows) : List (List Nat) :=
  (List.range (if r.nir then 4 else 3)).map (fun c => (List.range r.y.length).map (fun x => r.comp c x))

/-! ### Band matrix and tone tables (R146, R147) -/

/-- The band matrix (R146): m i j and k i of a context. -/
def matrixStage (m : Nat → Nat → Int) (k : Nat → Int) (planes : List (List Nat)) : List (List Nat) × Nat :=
  let n := planes.length
  let width := (planes.headD []).length
  let raw := (List.range n).map (fun i => (List.range width).map (fun x =>
    rsh (((List.range n).map (fun j => m i j * (atD (atD planes j []) x 0 : Nat))).sum) 12 + k i))
  (raw.map (fun row => row.map clip16),
    ((List.range width).filter (fun x => raw.any (fun row => clips16 (atD row x 0)))).length)

/-- A tone table's output for a value (R147): component c of a context's table. -/
def toneValue (tab : List Byte) (c v : Nat) : Nat :=
  let i := v / 16
  let t0 := leAt tab ((c * 4096 + i) * 2) 2
  let t1 := leAt tab ((c * 4096 + min (i + 1) 4095) * 2) 2
  ((t0 : Int) + rsh (((t1 : Int) - t0) * (v % 16 : Nat)) 4).toNat

/-- The tone tables (R147, R156): components whose EN bit is 0, and columns whose tile has no valid table, pass. -/
def toneStage (bank : Nat → Bank) (en : Nat) (planes : List (List Nat)) : List (List Nat) :=
  planes.mapIdx (fun c row => if tbit en c then row.mapIdx (fun x v =>
    match bank x with
    | some tab => toneValue tab c v
    | none => v) else row)

/-! ### Formatters (R148 to R151) -/

/-- Round up to a multiple of 64. -/
def up64 (n : Nat) : Nat := (n + 63) / 64 * 64

/-- A line of bytes padded to its pitch. -/
def pitchLine (bs : List Byte) : List Byte := padTo (up64 bs.length) bs

/-- A machine-vision line: the components of each pixel, 2 bytes each (R151). -/
def mvLine (planes : List (List Nat)) : List Byte :=
  pitchLine ((List.range (planes.headD []).length).flatMap (fun x => planes.flatMap (fun p => leBytes 2 (atD p x 0))))

/-- A component of a pixel of a strip. -/
def pixAt (line : List (List Nat)) (c x : Nat) : Nat := atD (atD line c []) x 0

/-- The mean of an s by s block (R149); s = 2^k. -/
def blockMean (lines : List (List (List Nat))) (c k bx by' : Nat) : Nat :=
  let s := 2 ^ k
  let sum := ((List.range s).map (fun dy => ((List.range s).map (fun dx =>
    pixAt (atD lines (by' * s + dy) []) c (bx * s + dx))).sum)).sum
  if k = 0 then sum else (rsh sum (2 * k)).toNat

/-- An 8-bit display value (R149). -/
def disp8 (v : Nat) : Nat := (clampInt 0 255 (rsh v 8)).toNat

/-- The display lines of a strip (R149): scale 1/2^k, the components of red, green and blue. -/
def displayLines (lines : List (List (List Nat))) (k width : Nat) (sel : List Nat) : List (List Byte) :=
  (List.range (lines.length / 2 ^ k)).map (fun y =>
    pitchLine ((List.range (width / 2 ^ k)).flatMap (fun x =>
      sel.map (fun c => BitVec.ofNat 8 (disp8 (blockMean lines c k x y))))))

/-- Y of a pixel in B bits (R150). -/
def codeY (b red green blue : Nat) : Nat :=
  let u : Int := 2 ^ (b - 8)
  (clampInt (16 * u) (235 * u) (16 * u + rsh ((11919 * red + 40097 * green + 4048 * blue : Nat)) (32 - b))).toNat

/-- Cb or Cr from the sum over a 2 by 2 block (R150). -/
def codeC (b : Nat) (c : Int) : Nat :=
  let u : Int := 2 ^ (b - 8)
  (clampInt (16 * u) (240 * u) (128 * u + rsh c (34 - b))).toNat

/-- The bytes of a coded value (R151). -/
def codeBytes (b v : Nat) : List Byte := if b = 8 then leBytes 1 v else leBytes 2 v

/-- The coding planes of a strip: Y lines, then CbCr lines (R150, R151). -/
def codingLines (lines : List (List (List Nat))) (b width : Nat) (sel : List Nat) : List (List Byte) × List (List Byte) :=
  let px (y x k : Nat) : Nat := pixAt (atD lines y []) (atD sel k 0) x
  let ys := (List.range lines.length).map (fun y =>
    pitchLine ((List.range width).flatMap (fun x => codeBytes b (codeY b (px y x 0) (px y x 1) (px y x 2)))))
  let sum (y x : Nat) (a : Int × Int × Int) : Int :=
    ((List.range 2).map (fun dy => ((List.range 2).map (fun dx =>
      let yy := min (2 * y + dy) (lines.length - 1)
      let xx := min (2 * x + dx) (width - 1)
      a.1 * (px yy xx 0 : Nat) + a.2.1 * (px yy xx 1 : Nat) + a.2.2 * (px yy xx 2 : Nat))).sum)).sum
  let cs := (List.range ((lines.length + 1) / 2)).map (fun y =>
    pitchLine ((List.range ((width + 1) / 2)).flatMap (fun x =>
      codeBytes b (codeC b (sum y x (-6570, -22102, 28672))) ++ codeBytes b (codeC b (sum y x (28672, -26043, -2629))))))
  (ys, cs)

/-! ### Statistics (R158, R159) -/

/-- The lines counted for statistics: planes at the tap, with the line's place in the strip. -/
abbrev StatLines := List (Nat × List (List Nat))

/-- A histogram of B bins (1,024 or 256) of component c (R158, R159). -/
def histogram (ls : StatLines) (b c : Nat) : List Nat :=
  let vs := ls.flatMap (fun l => atD l.2 c [])
  (List.range b).map (fun i => (vs.filter (fun v => v * b / 65536 == i)).length)

/-- Sum and count of a zone of a grid of Q by R zones (R158): a strip of L lines, WIDTH columns. -/
def zoneSums (ls : StatLines) (width lines c : Nat) (inside : Nat → Nat → Bool) : Nat × Nat :=
  let vs := ls.flatMap (fun l => ((atD l.2 c []).zipIdx.filter (fun v =>
    inside (v.2 * 64 / width) (l.1 * 16 / lines))).map (fun v => v.1))
  (vs.sum, vs.length)

/-- A zone average, 0 for an empty zone (R158). -/
def zoneMean (p : Nat × Nat) : Nat := if p.2 = 0 then 0 else (p.1 + p.2 / 2) / p.2

/-- The zone averages of a full (64 by 16) or compact (8 by 8) record, row by row (R158, R159). -/
def zones (ls : StatLines) (width lines : Nat) (compact : Bool) : List Nat :=
  let cols := if compact then 8 else 64
  let rows := if compact then 8 else 16
  (List.range rows).flatMap (fun r => (List.range cols).flatMap (fun q => (List.range 4).map (fun c =>
    zoneMean (zoneSums ls width lines c (fun zc zr =>
      if compact then zc / 8 == q && zr / 2 == r else zc == q && zr == r)))))

end Sys2Proof.Machine
end

