-- ==== Sys2Proof/Machine/Labels.lean ====
section
/-! DEFINITION. Classification, mask cleaning, labelling and features of objects, line by line (R163 to R176), and
the view blocks of Crema records (R186 to R189). -/
namespace Sys2Proof.Machine

/-! ### Classes and cleaning (R163, R166, R167) -/

/-- The class of a pixel from a classifier table (R163). -/
def classOf (tab : List Byte) (a b c : Nat) : Nat :=
  let i := a / 2 ^ 10 % 64 * 4096 + b / 2 ^ 10 % 64 * 64 + c / 2 ^ 10 % 64
  let v := leAt tab (i / 2) 1
  if i % 2 = 0 then v % 16 else v / 16

/-- The classes of a line, each column by the bank of its tile; without a valid table every pixel is class 0 (R163,
R165). -/
def classLine (bank : Nat → Bank) (sel : Nat × Nat × Nat) (planes : List (List Nat)) : List Nat :=
  (List.range (planes.headD []).length).map (fun x =>
    match bank x with
    | none => 0
    | some tab => classOf tab (pixAt planes sel.1 x) (pixAt planes sel.2.1 x) (pixAt planes sel.2.2 x))

/-- F of a line (R166). -/
def foreground (fg : Nat) (cls : List Nat) : List Bool := cls.map (fun c => tbit fg c)

/-- A pixel of a stack of lines; lines and columns that do not exist take the nearest (R167). -/
def nearAt (m : List (List Bool)) (y x : Int) : Bool :=
  let row := atD m (clampInt 0 (m.length - 1 : Nat) y).toNat []
  atD row (clampInt 0 (row.length - 1 : Nat) x).toNat false

/-- The 3 by 3 neighbourhood of a pixel. -/
def around (m : List (List Bool)) (y x : Nat) : List Bool :=
  ([-1, 0, 1] : List Int).flatMap (fun dy => ([-1, 0, 1] : List Int).map (fun dx => nearAt m ((y : Int) + dy) ((x : Int) + dx)))

/-- An erosion or a dilation of a stack of lines (R166). -/
def morph (erode : Bool) (m : List (List Bool)) : List (List Bool) :=
  m.mapIdx (fun y row => row.mapIdx (fun x _ =>
    if erode then (around m y x).all id else (around m y x).any id))

/-- The stages of CLEAN: true is an erosion (R166). -/
def cleanStages : Nat → List Bool
  | 1 => [true, false]
  | 2 => [false, true]
  | 3 => [true, false, false, true]
  | 4 => [false, true, true, false]
  | _ => []

/-- The mask M of a stack of lines (R166). -/
def cleaned (clean : Nat) (m : List (List Bool)) : List (List Bool) :=
  (cleanStages clean).foldl (fun m e => morph e m) m

/-! ### Runs and connection (R168) -/

/-- The maximal runs of a line from column x, with the start of the run in progress. -/
def runsFrom : Nat → Option Nat → List Bool → List (Nat × Nat)
  | x, some a, [] => [(a, x - 1)]
  | _, none, [] => []
  | x, some a, true :: m => runsFrom (x + 1) (some a) m
  | x, some a, false :: m => (a, x - 1) :: runsFrom (x + 1) none m
  | x, none, true :: m => runsFrom (x + 1) (some x) m
  | x, none, false :: m => runsFrom (x + 1) none m

/-- The runs of a mask line (R168). -/
def runsOf (m : List Bool) : List (Nat × Nat) := runsFrom 0 none m

/-- Two runs of adjacent lines are connected (R168). -/
def connected (p q : Nat × Nat) : Bool := decide (q.1 ≤ p.2 + 1 ∧ p.1 ≤ q.2 + 1)

/-- A run is connected to one of the runs above. -/
def touches (above : List (Nat × Nat)) (r : Nat × Nat) : Bool := above.any (fun p => connected p r)

/-! ### Objects (R168 to R175) -/

/-- An object opened by a run at line y (R168). -/
def Obj.start (y : Nat) (l : ClsLine) (n : Nat) (r : Nat × Nat) : Obj :=
  { y0 := y, x0 := r.1, yLast := y, runs := [], xMin := r.1, xMax := r.2, area := 0, perim := 0, sx := 0,
    sy := 0, sxx := 0, syy := 0, sxy := 0, csum := List.replicate n 0, cmin := List.replicate n 65535,
    cmax := List.replicate n 0, cls := List.replicate 16 0, pend := [], incomplete := false,
    continued := false, forced := false, frameEdge := false, byReset := false, lineFlags := 0,
    first := l.stamp, last := l.stamp, strip := l.strip, sline := l.sline, ln := l.ln,
    frame := l.frame.map (fun f => (y - f.1, f.2)), closedAt := 0, par := .init }

/-- Add two lists place by place. -/
def addLists (a b : List Nat) : List Nat := List.zipWith (· + ·) a b

/-- Merge two objects: exact sums, ORed flags, the identity of the one that opened first, and on one line
of the one whose first line starts further left (R168). -/
def Obj.merge (p q : Obj) : Obj :=
  let pFirst := decide (p.y0 < q.y0 ∨ (p.y0 = q.y0 ∧ p.x0 ≤ q.x0))
  let f := if pFirst then p else q
  { f with
    yLast := max p.yLast q.yLast, runs := p.runs ++ q.runs, xMin := min p.xMin q.xMin,
    xMax := max p.xMax q.xMax, area := p.area + q.area, perim := p.perim + q.perim, sx := p.sx + q.sx,
    sy := p.sy + q.sy, sxx := p.sxx + q.sxx, syy := p.syy + q.syy, sxy := p.sxy + q.sxy,
    csum := addLists p.csum q.csum, cmin := List.zipWith min p.cmin q.cmin,
    cmax := List.zipWith max p.cmax q.cmax, cls := addLists p.cls q.cls, pend := p.pend ++ q.pend,
    incomplete := p.incomplete || q.incomplete, continued := p.continued || q.continued,
    lineFlags := p.lineFlags ||| q.lineFlags, last := if p.yLast < q.yLast then q.last else p.last }

/-- PERIM of the pixels that waited for the line below (R174). -/
def Obj.below (o : Obj) (mask : List Bool) : Obj :=
  { o with perim := o.perim + (o.pend.filter (fun x => !atD mask x false)).length, pend := [] }

/-- What a line gives the labeller: its index, values, classes after cleaning, mask, the mask above. -/
structure LabelLine where
  y : Nat
  line : ClsLine
  cls : List Nat
  mask : List Bool
  above : List Bool
  deriving DecidableEq, Repr

/-- Add a pixel to an object (R174). -/
def Obj.addPixel (o : Obj) (l : LabelLine) (x : Nat) : Obj :=
  let inner := atD l.above x false && (decide (0 < x) && atD l.mask (x - 1) false) && atD l.mask (x + 1) false
  let v (c : Nat) : Nat := pixAt l.line.vals c x
  { o with
    xMin := min o.xMin x, xMax := max o.xMax x, area := o.area + 1,
    perim := if inner then o.perim else o.perim + 1,
    pend := if inner then o.pend ++ [x] else o.pend,
    sx := o.sx + x, sy := o.sy + l.y, sxx := o.sxx + x * x, syy := o.syy + l.y * l.y, sxy := o.sxy + x * l.y,
    csum := o.csum.mapIdx (fun c a => a + v c), cmin := o.cmin.mapIdx (fun c a => min a (v c)),
    cmax := o.cmax.mapIdx (fun c a => max a (v c)),
    cls := o.cls.mapIdx (fun k a => if k = atD l.cls x 0 then a + 1 else a) }

/-- Add the runs of a line to an object; they become its last line's runs. -/
def Obj.addRuns (o : Obj) (l : LabelLine) (rs : List (Nat × Nat)) : Obj :=
  let xs := rs.flatMap (fun r => (List.range (r.2 + 1 - r.1)).map (fun i => r.1 + i))
  let o := xs.foldl (fun o x => o.addPixel l x) o
  { o with runs := rs, yLast := l.y, last := l.line.stamp, lineFlags := o.lineFlags ||| l.line.flags }

/-- Give a run to the open objects it is connected to, merging them (R168, R173): the objects with the
runs they have on this line. -/
def joinRun (lost : List (Nat × Nat)) (os : List (Obj × List (Nat × Nat))) (r : Nat × Nat) :
    Option (List (Obj × List (Nat × Nat))) :=
  match os.partition (fun o => touches o.1.runs r) with
  | ([], _) => none
  | (o :: hit, rest) =>
    let m := hit.foldl (fun (a : Obj × List (Nat × Nat)) b => (a.1.merge b.1, a.2 ++ b.2)) o
    let m := ({ m.1 with incomplete := m.1.incomplete || touches lost r }, m.2 ++ [r])
    some (rest ++ [m])

/-- The runs of a line given to the open objects; those connected to none are left over (R168). -/
def joinRuns (lost : List (Nat × Nat)) :
    List (Obj × List (Nat × Nat)) → List (Nat × Nat) → List (Obj × List (Nat × Nat)) × List (Nat × Nat)
  | os, [] => (os, [])
  | os, r :: rs =>
    match joinRun lost os r with
    | some os' => joinRuns lost os' rs
    | none => let p := joinRuns lost os rs; (p.1, r :: p.2)

/-- Open objects for the runs left over, at most 4,096 in all; others are lost (R172, R173). -/
def openRuns (l : LabelLine) (n : Nat) (lost forced : List (Nat × Nat)) :
    List (Obj × List (Nat × Nat)) → List (Nat × Nat) → List (Obj × List (Nat × Nat)) × List (Nat × Nat)
  | os, [] => (os, [])
  | os, r :: rs =>
    let bad := touches lost r
    let cont := touches forced r
    if (bad && !cont) || decide (4096 ≤ os.length) then
      let p := openRuns l n lost forced os rs
      (p.1, r :: p.2)
    else
      let o := { Obj.start l.y l.line n r with continued := cont, incomplete := bad }
      openRuns l n lost forced (os ++ [(o, [r])]) rs

/-- Insert an object by the leftmost column of its last line (R169). -/
def insertObj (o : Obj) : List Obj → List Obj
  | [] => [o]
  | p :: ps =>
    let left (q : Obj) : Nat := (q.runs.map (fun r => r.1)).foldl min 65536
    if left o < left p then o :: p :: ps else p :: insertObj o ps

/-- Objects that close together, in ascending order (R169). -/
def sortObjs (os : List Obj) : List Obj := os.foldl (fun l o => insertObj o l) []

/-- What labelling a line leaves: the stage, the objects closed in order, the lost runs. -/
structure Labelled where
  st : ObjStream
  closed : List Obj
  lostRuns : Nat
  deriving DecidableEq, Repr

/-- Label a line (R168 to R174); `ends`: it is the last of an AREA frame, which closes every open object with
FRAME_EDGE (R171).  Objects that close at the end of one line leave in ascending order (R169), those of MAX_LINES
among them (R172).  DEDUCED (log 98): PERIM of a forced object's last line still waits for the line below. -/
def labelLine (x : ObjStream) (l : LabelLine) (n maxLines now : Nat) (ends : Bool) : Labelled :=
  let opened := x.opened.map (fun o => o.below l.mask)
  let p := joinRuns x.lostRuns (opened.map (fun o => (o, []))) (runsOf l.mask)
  let q := openRuns l n x.lostRuns x.forcedRuns p.1 p.2
  let os := q.1.map (fun o => if o.2 = [] then o.1 else o.1.addRuns l o.2)
  let gone := os.filter (fun o => o.yLast != l.y)
  let live := (os.filter (fun o => o.yLast == l.y)).map (fun o =>
    if maxLines ≤ l.y + 1 - o.y0 then { o with forced := true } else o)
  let shut := if ends then live.map (fun o => { o.below [] with frameEdge := true }) else live.filter (fun o => o.forced)
  let closed := (sortObjs (gone ++ shut)).map (fun o => { o with closedAt := now })
  let queue := x.closeQ.map (fun o => o.below l.mask)
  let st := { x with
    opened := live.filter (fun o => !o.forced), lostRuns := q.2, forcedRuns := shut.flatMap (fun o => o.runs)
    closeQ := queue, mask := l.mask, y := l.y + 1 }
  { st := if ends then { st with opened := [], lostRuns := [], forcedRuns := [], mask := [] } else st
    closed := closed
    lostRuns := q.2.length }

/-- The stream ends: every open object closes (R33, R171); the line below counts as M = 0. -/
def closeAll (x : ObjStream) (now : Nat) : ObjStream × List Obj :=
  ({ x with
      opened := [], lostRuns := [], forcedRuns := [], mask := [], closeQ := x.closeQ.map (fun o => o.below []) },
    sortObjs (x.opened.map (fun o => { o.below [] with byReset := true, closedAt := now })))

/-! ### Features (R174 to R176) -/

/-- HEIGHT. -/
def Obj.height (o : Obj) : Nat := o.yLast + 1 - o.y0

/-- Sums relative to X_MIN and the first line (R175): SX, SY, SXX, SYY, SXY. -/
def Obj.sums (o : Obj) : Int × Int × Int × Int × Int :=
  let a : Int := o.area
  let x0 : Int := o.xMin
  let y0 : Int := o.y0
  (o.sx - a * x0, o.sy - a * y0, o.sxx - 2 * x0 * o.sx + a * x0 * x0, o.syy - 2 * y0 * o.sy + a * y0 * y0,
    o.sxy - y0 * o.sx - x0 * o.sy + a * x0 * y0)

/-- A moment: floor((2N + A^2) / (2 A^2)) with N = 256 (A * s2 - s * t) (R175). -/
def Obj.moment (o : Obj) (s2 s t : Int) : Int :=
  let a : Int := o.area
  (2 * (256 * (a * s2 - s * t)) + a * a) / (2 * (a * a))

/-- A saturating field: value and whether it saturated (R174, R176). -/
def satField (limit : Nat) (v : Int) : Nat × Bool := ((clampInt 0 limit v).toNat, decide ((limit : Int) < v))

/-- VXY as a signed saturating field (R174). -/
def satSigned (v : Int) : Nat × Bool :=
  (unsgn 32 (clampInt (-0x7FFFFFFF) 0x7FFFFFFF v), decide (v < -0x7FFFFFFF ∨ 0x7FFFFFFF < v))

/-- DOM: the class 1 to 15 with the most pixels, ties to the lower (R174). -/
def dominant (cls : List Nat) : Nat :=
  ((List.range 15).foldl (fun (b : Nat × Nat) i =>
    let v := atD cls (i + 1) 0
    if b.2 < v then (i + 1, v) else b) (0, 0)).1

/-- The centre column relative to nothing: cx and the centre line cy (R179). -/
def Obj.centre (o : Obj) : Nat × Nat :=
  let s := o.sums
  (o.xMin + ((2 * s.1 + o.area) / (2 * (o.area : Int))).toNat,
    o.y0 + ((2 * s.2.1 + o.area) / (2 * (o.area : Int))).toNat)

/-- The saturating fields of a view in record order: PERIM, SUM_X, SUM_Y, VXX, VYY, VXY, CSUM0 to 3, CNT0
to 3, with their widths in bytes (R174, R188). -/
def Obj.fields (o : Obj) : List (Nat × (Nat × Bool)) :=
  let s := o.sums
  let cntMap := o.par.cntMap
  let cnt (k : Nat) : Nat := ((List.range 15).map (fun i =>
    if nbits cntMap (2 * i + 1) (2 * i) = k then atD o.cls (i + 1) 0 else 0)).sum
  [(2, satField 0xFFFF o.perim), (4, satField 0xFFFFFFFF s.1), (4, satField 0xFFFFFFFF s.2.1),
    (4, satField 0xFFFFFFFF (o.moment s.2.2.1 s.1 s.1)), (4, satField 0xFFFFFFFF (o.moment s.2.2.2.1 s.2.1 s.2.1)),
    (4, satSigned (o.moment s.2.2.2.2 s.1 s.2.1))] ++
    (List.range 4).map (fun c => (5, satField 0xFFFFFFFFFF (atD o.csum c 0 : Nat))) ++
    (List.range 4).map (fun k => (3, satField 0xFFFFFF (cnt k)))

/-- SAT of a view (R176). -/
def Obj.sat (o : Obj) : Bool := o.fields.any (fun f => f.2.2)

/-- VFLAGS (R189). -/
def vflags (v : ObjView) : Nat :=
  b2n v.obj.sat * 128 + b2n v.obj.incomplete * 64 + b2n v.obj.continued * 32 + b2n v.obj.forced * 16 +
    b2n v.obj.frameEdge * 8 + b2n (decide (v.obj.xMax + 1 = v.width)) * 4 + b2n (decide (v.obj.xMin = 0)) * 2 +
    b2n v.epoch

/-- A view block (R188). -/
def viewBlock (v : ObjView) : List Byte :=
  let o := v.obj
  let f := o.fields
  let at' (i : Nat) : List Byte := let e := atD f i (0, (0, false)); leBytes e.1 e.2.1
  let comp (l : List Nat) (c : Nat) : Nat := if c < v.ncomp then atD l c 0 else 0
  leBytes 6 v.serial ++ leBytes 1 (v.stream + 128) ++ leBytes 1 (vflags v) ++ leBytes 4 o.strip ++
    leBytes 2 o.sline ++ leBytes 2 o.height ++ leBytes 2 o.xMin ++ leBytes 2 o.xMax ++ leBytes 4 o.area ++
    at' 0 ++ leBytes 1 (dominant o.cls) ++ [0#8] ++ at' 1 ++ at' 2 ++ at' 3 ++ at' 4 ++ at' 5 ++
    at' 6 ++ at' 7 ++ at' 8 ++ at' 9 ++
    (List.range 4).flatMap (fun c => leBytes 2 (comp o.cmin c)) ++
    (List.range 4).flatMap (fun c => leBytes 2 (comp o.cmax c)) ++
    at' 10 ++ at' 11 ++ at' 12 ++ at' 13

end Sys2Proof.Machine
end

