-- ==== Sys2Proof/Machine/Verdict.lean ====
section
/-! DEFINITION. The verdict stage and the ejector buses (R193 to R216). -/
namespace Sys2Proof.Machine

/-- Bytes with some replaced at an offset. -/
def patch (bs : List Byte) (off : Nat) (new : List Byte) : List Byte :=
  bs.take off ++ new ++ bs.drop (off + new.length)

/-- Little-endian 64-bit words of bytes. -/
def bytesToWords : List Byte → List Dword
  | b0 :: b1 :: b2 :: b3 :: b4 :: b5 :: b6 :: b7 :: bs =>
    BitVec.ofNat 64 (ofLe [b0, b1, b2, b3, b4, b5, b6, b7]) :: bytesToWords bs
  | [] => []
  | bs => [BitVec.ofNat 64 (ofLe bs)]

/-! ### Tables (R193, R202, R204) -/

def flightTable (s : State) (k : Nat) : VTable := Tab.get (fun _ => VTable.init) s.ejt.flight k
def ruleTable (s : State) (k : Nat) : VTable := Tab.get (fun _ => VTable.init) s.ejt.rule k

/-- The bank in use. -/
def VTable.active (t : VTable) : Bank := if t.sel then t.bank1 else t.bank0

/-- The table with a bank image, or none, in the bank not in use. -/
def VTable.load (t : VTable) (b : Bank) : VTable :=
  if t.sel then { t with bank0 := b, fresh := b.isSome } else { t with bank1 := b, fresh := b.isSome }

/-- A freshly loaded valid bank becomes active (R204). -/
def VTable.swap (t : VTable) : VTable := if t.fresh then { t with sel := !t.sel, fresh := false } else t

def State.setVTable (s : State) (rule : Bool) (k : Nat) (t : VTable) : State :=
  if rule then { s with ejt := { s.ejt with rule := Tab.set (fun _ => VTable.init) s.ejt.rule k t } }
  else { s with ejt := { s.ejt with flight := Tab.set (fun _ => VTable.init) s.ejt.flight k t } }

/-- The fall delay in us of a flight table for a speed (Q24.8) and a lateral class, none if not valid
(R193, R194). -/
def fallDelay (bank : Bank) (speed : Int) (lc : Nat) : Option Nat :=
  match bank with
  | none => none
  | some t =>
    let base : Int := leAt t 16384 4
    let stp : Int := leAt t 16388 4
    let sc := (clampInt 0 63 (((speed.natAbs : Int) - base * 256) / (stp * 256))).toNat
    let e := leAt t ((sc * 64 + lc % 64) * 4) 4
    if tbit e 31 then some (e % 2 ^ 20) else none

/-- A flight table image is good (R193, R204): its CRC, STEP at least 1, no delay above 1,000,000 us. -/
def flightOk (t : List Byte) : Bool :=
  t.length == 16448 && leAt t 16444 4 == crc32c (t.take 16444) && decide (1 ≤ leAt t 16388 4) &&
    (List.range 4096).all (fun i => decide (leAt t (4 * i) 4 % 2 ^ 20 ≤ 1000000))

/-- A rule's term is well formed (R202). -/
def termOk (t : List Byte) (a : Nat) : Bool :=
  decide (leAt t (a + 3) 1 ≤ 8) && decide (leAt t a 1 + leAt t (a + 1) 1 ≤ 256)

/-- A rule table image is good (R202, R204): its CRC, no reserved ACTION, DEFAULT or OP, no term past the
record's end. -/
def ruleOk (t : List Byte) : Bool :=
  t.length == 1088 && leAt t 1084 4 == crc32c (t.take 1084) && decide (leAt t 1024 1 ≤ 2) &&
    (List.range 16).all (fun r =>
      decide (leAt t (64 * r + 1) 1 ≤ 2) && decide (leAt t (64 * r) 1 % 4 ≤ 2) &&
        (List.range (leAt t (64 * r) 1 % 4 + 1)).all (fun i => termOk t (64 * r + 16 + 16 * i)))

/-- Compare a term's field with its operand (R202, R203): OP, SIGNED, the record's field and VALUE. -/
def termHolds (op : Nat) (signed : Bool) (bits' field value : Nat) : Bool :=
  let f : Int := if signed then sgn (8 * bits') field else field
  let v : Int := if signed then sgn 64 value else value
  match op with
  | 0 => true
  | 1 => decide (f < v)
  | 2 => decide (f ≤ v)
  | 3 => decide (unsgn 64 f = value)
  | 4 => decide (unsgn 64 f ≠ value)
  | 5 => decide (v ≤ f)
  | 6 => decide (v < f)
  | 7 => unsgn 64 f &&& value != 0
  | 8 => unsgn 64 f &&& value == 0
  | _ => false

/-- A term of a rule on a record (R202, R203). -/
def termAt (t rec : List Byte) (a : Nat) : Bool :=
  let size := leAt t (a + 1) 1
  termHolds (leAt t (a + 3) 1) (tbit (leAt t (a + 2) 1) 0) size (leAt rec (leAt t a 1) size) (leAt t (a + 8) 8)

/-- A rule matches (R203). -/
def ruleMatches (t rec : List Byte) (r : Nat) : Bool :=
  tbit (leAt t (64 * r) 1) 7 &&
    (List.range (leAt t (64 * r) 1 % 4 + 1)).all (fun i => termAt t rec (64 * r + 16 + 16 * i))

/-- The first matching rule and its action, and the default action (R200, R203); without a valid bank no
rule matches and DEFAULT is PASS (log 16). -/
def evalRules (bank : Bank) (rec : List Byte) : Option (Nat × Nat) × Nat :=
  match bank with
  | none => (none, 0)
  | some t =>
    (((List.range 16).find? (fun r => ruleMatches t rec r)).map (fun r => (r, leAt t (64 * r + 1) 1 % 4)),
      leAt t 1024 1 % 4)

/-! ### Valves, deadline and window (R194 to R196, R205, R207) -/

/-- valve(x) (R205). -/
def valveOf (s : State) (t x : Nat) : Int :=
  (s.fld .ejt (EJT_STR_V0 t) 10 0 : Int) + ((2 * x + 1 : Nat) : Int) * (s.rd .ejt (EJT_STR_VSCALE t)).toInt / 2 ^ 25

/-- The valve range of a view's columns, none if it maps to no valve (R195, R205). -/
def valveRange (s : State) (t xMin xMax : Nat) : Option (Nat × Nat) :=
  let a := valveOf s t xMin
  let b := valveOf s t xMax
  let w : Int := s.fld .ejt (EJT_STR_WIDEN t) 3 0
  let lo := max ((if a ≤ b then a else b) - w) (s.fld .ejt (EJT_STR_VRANGE t) 10 0 : Int)
  let hi := min ((if a ≤ b then b else a) + w) (s.fld .ejt (EJT_STR_VRANGE t) 26 16 : Int)
  if lo ≤ hi then some (lo.toNat, hi.toNat) else none

/-- DEADLINE at release (R194), none in the cases of R195. -/
def deadlineOf (s : State) (t m tbFirst : Nat) (valves : Option (Nat × Nat)) : Option Int :=
  let c := s.rd .ejt (EJT_STR_CTRL t)
  let v := sourceView s m
  if !bit c 31 || v.state != 2 || !v.valid then none
  else match valves with
    | none => none
    | some r =>
      (fallDelay (flightTable s (bits c 30 29)).active v.speed ((r.1 + r.2) / 64)).map
        (fun d => (tbFirst : Int) + 1000 * d + (s.rd .ejt (EJT_STR_OFS t)).toInt)

/-- TS of a deadline (R207). -/
def windowStart (s : State) (t : Nat) (dl : Int) : Int := dl - 1000 * (s.fld .ejt (EJT_STR_TIME t) 31 16 : Nat)

/-- TE of a deadline (R207). -/
def windowEnd (s : State) (t : Nat) (dl : Int) (tbFirst tbLast : Nat) : Int :=
  dl + ((tbLast : Int) - tbFirst) + 1000 * (s.fld .ejt (EJT_STR_TIME t) 15 0 : Nat)

/-- The decision point of a deadline (R196). -/
def decisionPoint (s : State) (t : Nat) (dl : Int) : Int := dl - 1000 * (s.fld .ejt (EJT_STR_MARGIN t) 15 0 : Nat)

/-! ### The pending table (R197, R216) -/

/-- Entries of the pending table. -/
def pendNow (s : State) : Nat := (s.ejt.recs.filter (fun v => v.inTable)).length

/-- EJT_PEND_NOW and EJT_PEND_PEAK follow the table (R216). -/
def State.pendSync (s : State) : State :=
  let n := pendNow s
  let s := s.put .ejt EJT_PEND_NOW 16 0 n
  if s.fld .ejt EJT_PEND_PEAK 16 0 < n then s.put .ejt EJT_PEND_PEAK 16 0 n else s

/-- Change the records of a handle that are in the verdict stage. -/
def State.onRec (s : State) (h : Nat) (f : VRec → VRec) : State :=
  { s with ejt := { s.ejt with recs := s.ejt.recs.map (fun v => if v.handle = h ∧ ¬ v.isLost then f v else v) } }

/-- SOURCE as VERDICT carries it (R186). -/
def VSource.code : VSource → Nat
  | .host => 1
  | .rule => 2
  | .dflt => 3

/-- The valves an action drives (R206), and whether it is an EJECT_ALT without an alternative (R200). -/
def actionValves (s : State) (v : VRec) (action : Nat) : Option (Nat × Nat) × Bool :=
  let r := v.override.getD (v.vFirst, v.vLast)
  let alt := s.fld .ejt (EJT_STR_WIDEN v.stream) 26 16
  if v.deadline.isNone then (none, action == 2 && alt == 0)
  else match action with
    | 1 => (some r, false)
    | 2 => if alt = 0 then (none, true) else (some (r.1 + alt, r.2 + alt), false)
    | _ => (none, false)

/-- The counter of a settlement (R200). -/
def settleCounter : VSource → Nat
  | .host => EJT_CNT_HOST
  | .rule => EJT_CNT_RULE
  | .dflt => EJT_CNT_DEFAULT

/-- A settled record, and the counters its settlement changes (R200, R206, R210). -/
def State.settleRec (s : State) (v : VRec) (src : VSource) (action : Nat) : State × VRec :=
  let p := actionValves s v action
  let s := s.count .ejt (settleCounter src)
  let s := if p.2 then s.count .ejt EJT_CNT_NO_ALT else s
  let s := if v.cancelled && p.1.isSome then s.count .ejt EJT_CNT_CANCELLED else s
  (s, { v with settled := some (src, action), valves := p.1 })

/-- Settlement by the fallback (R200). -/
def State.settleByRule (s : State) (v : VRec) : State × VRec :=
  match v.rule with
  | some a => s.settleRec v .rule a
  | none => s.settleRec v .dflt v.dflt

/-- The settled copy's bytes (R201, R264, R186): TYPE 0x03, VERDICT, and FLAGS bits 19:16. -/
def settledBytes (v : VRec) : List Byte :=
  let vd := match v.settled with
    | some (src, a) => src.code * 16 + a
    | none => 0
  let fl := b2n v.late + b2n v.override.isSome * 2 + b2n v.limited * 4 + b2n v.deadline.isNone * 8
  let f := leAt v.bytes 16 4 % 2 ^ 16 + fl * 2 ^ 16
  patch (patch (patch v.bytes 0 [3#8]) 1 (leBytes 1 vd)) 16 (leBytes 4 f)

/-- The settled copy enters the record queue (R201). -/
def State.pushSettled (s : State) (v : VRec) : State × VRec :=
  (s.qPush (qOf v.queue 0) (bytesToWords (settledBytes v)), { v with copied := true })

/-- Append a record to the verdict stage. -/
def State.addRec (s : State) (v : VRec) : State :=
  ({ s with ejt := { s.ejt with recs := s.ejt.recs ++ [v] } } : State).pendSync

/-- What the verdict stage needs of a record at release (R194, R201, R209). -/
structure Release where
  bytes : List Byte
  handle : Nat
  queue : Nat
  stream : Nat
  msrc : Nat
  xMin : Nat
  xMax : Nat
  tbFirst : Nat
  tbLast : Nat
  deriving DecidableEq, Repr

/-- A record in the verdict stage before its settlement. -/
def Release.toRec (r : Release) : VRec :=
  { handle := r.handle, bytes := r.bytes, queue := r.queue, stream := r.stream, msrc := r.msrc,
    deadline := none, ts := 0, te := 0, decideAt := 0, vFirst := 0xFFFF, vLast := 0xFFFF, rule := none,
    dflt := 0, ruleIdx := 0xFF, settled := none, hostTaken := false, late := false, limited := false,
    override := none, valves := none, started := false, cancelled := false, inTable := false, isLost := false,
    copied := false }

/-- DEADLINE of a release after R195 and R196; the counter of a record without one. -/
def releaseDeadline (s : State) (r : Release) (vs : Option (Nat × Nat)) : Option Int × State :=
  match deadlineOf s r.stream r.msrc r.tbFirst vs with
  | none => (none, s.count .ejt EJT_CNT_NODL)
  | some dl =>
    if windowStart s r.stream dl < (s.now : Int) then (none, s.count .ejt EJT_CNT_TOO_LATE) else (some dl, s)

/-- Release an object record to the verdict stage and its copy to the queue (R190, R194 to R201). -/
def State.verdictRelease (s : State) (r : Release) : State :=
  let vs := valveRange s r.stream r.xMin r.xMax
  let p := releaseDeadline s r vs
  let s := p.2
  let v := vs.getD (0xFFFF, 0xFFFF)
  let dl := p.1.getD 0
  let f := leAt r.bytes 16 4 + (if p.1.isNone then 2 ^ 19 else 0)
  let bytes := patch (patch (patch (patch r.bytes 48 (leBytes 8 dl.toNat)) 26 (leBytes 2 v.1)) 28 (leBytes 2 v.2)) 16
    (leBytes 4 f)
  let ev := evalRules (ruleTable s (s.fld .ejt (EJT_STR_CTRL r.stream) 28 27)).active bytes
  let ri := (ev.1.map (fun e => e.1)).getD 0xFF
  let bytes := patch bytes 2 (leBytes 1 ri)
  let s := s.qPush (qOf r.queue 0) (bytesToWords bytes)
  let rec0 : VRec :=
    { r.toRec with
      bytes := bytes, deadline := p.1, ts := windowStart s r.stream dl
      te := windowEnd s r.stream dl r.tbFirst r.tbLast, decideAt := decisionPoint s r.stream dl
      vFirst := v.1, vLast := v.2, rule := ev.1.map (fun e => e.2), dflt := ev.2, ruleIdx := ri }
  if p.1.isNone then
    let q := s.settleByRule rec0
    let q := q.1.pushSettled q.2
    q.1
  else
    let full := decide (65536 ≤ pendNow s)
    let s := if full then (s.count .ejt EJT_CNT_PEND_FULL).setb .ejt EJT_STATUS 0 true else s
    if full ∨ rec0.decideAt ≤ (s.now : Int) then
      let q := s.settleByRule { rec0 with inTable := !full }
      q.1.addRec q.2
    else s.addRec { rec0 with inTable := true }

/-- Release an OBJ_LOST record (R192, R209). -/
def State.lostRelease (s : State) (r : Release) : State :=
  let eject := s.fld .ejt (EJT_STR_CTRL r.stream) 26 25 = 1
  let vs := valveRange s r.stream r.xMin r.xMax
  let p := if eject then releaseDeadline s r vs else (none, s)
  let s := p.2
  let v := match p.1 with
    | some _ => vs.getD (0xFFFF, 0xFFFF)
    | none => if eject then vs.getD (0xFFFF, 0xFFFF) else (0xFFFF, 0xFFFF)
  let dl := p.1.getD 0
  let bytes := patch (patch (patch r.bytes 48 (leBytes 8 dl.toNat)) 24 (leBytes 2 v.1)) 26 (leBytes 2 v.2)
  let s := s.qPush (qOf r.queue 0) (bytesToWords bytes)
  match p.1 with
  | none => s
  | some d =>
    (s.count .ejt EJT_CNT_LOST_EJECT).addRec
      { r.toRec with
        bytes := bytes, deadline := some d, ts := windowStart s r.stream d
        te := windowEnd s r.stream d r.tbFirst r.tbLast, decideAt := decisionPoint s r.stream d
        vFirst := v.1, vLast := v.2, settled := some (.dflt, 1), valves := some v, isLost := true, copied := true }

/-! ### Host verdicts and settlement (R198 to R201) -/

/-- The record of a handle in the pending table. -/
def pendingRec (s : State) (h : Nat) : Option VRec := s.ejt.recs.find? (fun v => v.handle == h && v.inTable)

/-- Settle a record that waits, at its decision point (R199, R200). -/
def State.decideRec (s : State) (h : Nat) : State :=
  match pendingRec s h with
  | none => s
  | some v =>
    if v.settled.isSome then s
    else
      let p := s.settleByRule v
      p.1.onRec h (fun w => if w.inTable then p.2 else w)

/-- DECISION_POINT (R199, R200): TB has reached the decision point of a record that is not settled. -/
def execDecisionPoint (h : BitVec 64) (s : State) : Host.Outcome State Fault Refusal :=
  .next (match pendingRec s h.toNat with
    | some v => if v.decideAt ≤ (s.now : Int) then s.decideRec h.toNat else s
    | none => s)

/-- Refuse a host verdict: its counter and its status code (R198, R276). -/
def State.refuseVerdict (s : State) (counter code : Nat) : State × Option Nat := (s.count .ejt counter, some code)

/-- A host verdict is accepted now from a client's ring: the new state and the refusal's status code
(R198 to R200, R206). -/
def State.verdictArrive (s : State) (client : Nat) (e : BitVec 128) : State × Option Nat :=
  let w := e.toNat
  let h := w % 2 ^ 64
  let action := nbits w 71 64
  let ovr := tbit w 72
  let vf := nbits w 90 80
  let vl := nbits w 106 96
  match pendingRec s h with
  | none => s.refuseVerdict EJT_CNT_UNKNOWN 2
  | some v =>
    let c := s.rd .ejt (EJT_STR_CTRL v.stream)
    if nbits w 121 112 ≠ client ∨ ¬ (bit c 24 ∨ bits c 9 0 = client) then s.refuseVerdict EJT_CNT_OWNER 4
    else if 3 < action then s.refuseVerdict EJT_CNT_FIELD 1
    else if v.hostTaken then s.refuseVerdict EJT_CNT_DUP 6
    else if v.decideAt ≤ (s.now : Int) then
      ((s.decideRec h).onRec h (fun x => { x with late := true })).refuseVerdict EJT_CNT_LATE 0xB
    else if ovr ∧ (vl < vf ∨ vf < s.fld .ejt (EJT_STR_VRANGE v.stream) 10 0 ∨
        s.fld .ejt (EJT_STR_VRANGE v.stream) 26 16 < vl) then s.refuseVerdict EJT_CNT_RANGE 2
    else
      let v := { v with hostTaken := true, override := if ovr then some (vf, vl) else none }
      let p := if action = 3 then s.settleByRule v else s.settleRec v .host action
      (p.1.onRec h (fun x => if x.inTable then p.2 else x), none)

/-- SETTLED_COPY (R201): TB has reached TE of a settled record. -/
def execSettledCopy (h : BitVec 64) (s : State) : Host.Outcome State Fault Refusal :=
  .next (match s.ejt.recs.find? (fun v => v.handle == h.toNat && !v.isLost && !v.copied) with
    | some v =>
      if v.settled.isSome ∧ v.te ≤ (s.now : Int) then
        let p := s.pushSettled v
        p.1.onRec h.toNat (fun _ => p.2)
      else s
    | none => s)

/-- A record leaves the verdict stage: a pending entry RETAIN ms after TE, another at TE (R197). -/
def VRec.expired (v : VRec) (now retain : Nat) : Bool :=
  v.copied && decide (v.te + (if v.inTable then 1000000 * retain else 0 : Nat) ≤ (now : Int))

/-- PENDING_EXPIRE (R197). -/
def execPendingExpire (h : BitVec 64) (s : State) : Host.Outcome State Fault Refusal :=
  let retain := s.fld .ejt EJT_RETAIN 7 0
  .next (({ s with ejt := { s.ejt with
    recs := s.ejt.recs.filter (fun v => !(v.handle == h.toNat && v.expired s.now retain)) } } : State).pendSync)

/-- Verdicts of a stream still pending are settled by the rule table (R33). -/
def State.settleStream (s : State) (t : Nat) : State :=
  s.each ((s.ejt.recs.filter (fun v => v.stream == t && v.inTable && v.settled.isNone)).map (fun v => v.handle))
    State.decideRec

/-! ### Table loads (R204) -/

/-- A write to EJT_TBL_CMD (R204): GO starts a load; while one runs it is ignored with CFG_ERR. -/
def State.ejtLoad (s : State) (v : Word) : State :=
  if !bit v 31 then s.store .ejt EJT_TBL_CMD v
  else if s.flag .ejt EJT_STATUS 3 then s.setb .ejt EJT_STATUS 1 true
  else
    let s := (s.store .ejt EJT_TBL_CMD v).setb .ejt EJT_STATUS 3 true
    let k := bits v 29 28
    let t := if bit v 30 then ruleTable s k else flightTable s k
    let s := s.setVTable (bit v 30) k (t.load none)
    { s with ejt := { s.ejt with load := some (bit v 30, k, s.rd64 .ejt EJT_TBL_ADDR_LO EJT_TBL_ADDR_HI) } }

/-- EJT_TBL_LOAD (R204): a write to EJT_TBL_CMD. -/
def execEjtTblLoad (v : Word) (s : State) : Host.Outcome State Fault Refusal := .next (s.ejtLoad v)

/-- EJT_TBL_LOAD_DONE (R204, R304): the image is checked; a bad one leaves the bank invalid. -/
def execEjtTblLoadDone (s : State) : Host.Outcome State Fault Refusal :=
  .next (match s.ejt.load with
    | none => s
    | some (rule, k, a) =>
      let n := if rule then 1088 else 16448
      let img := ergRead s a n
      let ok := (if rule then ruleOk img else flightOk img) && !ergPoisoned s a n
      let s := s.ergMeet a n
      let t := if rule then ruleTable s k else flightTable s k
      let s := s.setVTable rule k (t.load (if ok then some img else none))
      let s := (s.setb .ejt EJT_STATUS 3 false).setb .ejt EJT_TBL_CMD 31 false
      let s := if ok then s else s.setb .ejt EJT_STATUS 2 true
      { s with ejt := { s.ejt with load := none } })

/-- Every freshly loaded valid bank becomes active at once (R204). -/
def State.ejtSwap (s : State) : State :=
  { s with ejt := { s.ejt with
      flight := (List.range 4).foldl (fun m k => Tab.upd (fun _ => VTable.init) m k VTable.swap) s.ejt.flight
      rule := (List.range 4).foldl (fun m k => Tab.upd (fun _ => VTable.init) m k VTable.swap) s.ejt.rule } }

/-- EJT_TBL_SWAP (R204). -/
def execEjtTblSwap (v : Word) (s : State) : Host.Outcome State Fault Refusal :=
  .next (if bit v 0 then s.ejtSwap else s)

/-- EJT_PEND_PEAK_WRITE (R216). -/
def execEjtPendPeakWrite (s : State) : Host.Outcome State Fault Refusal :=
  .next (s.put .ejt EJT_PEND_PEAK 16 0 (pendNow s))

/-- A write to EJT_STR_VRANGE (R216): VMAX + ALT_OFS above 2,047 sets CFG_ERR; ALT_OFS stays. -/
def State.vrangeWrite (s : State) (t : Nat) (v : Word) : State :=
  let s := s.store .ejt (EJT_STR_VRANGE t) v
  if 2047 < bits v 26 16 + s.fld .ejt (EJT_STR_WIDEN t) 26 16 then s.setb .ejt EJT_STATUS 1 true else s

/-- A write to EJT_STR_WIDEN (R216): VMAX + ALT_OFS above 2,047 keeps the previous ALT_OFS. -/
def State.widenWrite (s : State) (t : Nat) (v : Word) : State :=
  if 2047 < s.fld .ejt (EJT_STR_VRANGE t) 26 16 + bits v 26 16 then
    (s.store .ejt (EJT_STR_WIDEN t) (putBits v 26 16 (s.fld .ejt (EJT_STR_WIDEN t) 26 16))).setb .ejt EJT_STATUS 1 true
  else s.store .ejt (EJT_STR_WIDEN t) v

/-! ### Ejector buses (R207, R208, R211 to R214) -/

def ejBus (s : State) (n : Nat) : EjBus := Tab.get (fun _ => EjBus.init) s.ejt.bus n

def State.setEjBus (s : State) (n : Nat) (b : EjBus) : State :=
  { s with ejt := { s.ejt with bus := Tab.set (fun _ => EjBus.init) s.ejt.bus n b } }

/-- A record requests its valves in slot k (R207). -/
def VRec.inSlot (v : VRec) (k : Nat) : Bool :=
  v.valves.isSome && !v.cancelled && decide (v.ts < ((k + 1) * 5000 : Nat)) && decide (((k * 5000 : Nat) : Int) < v.te)

/-- A record requests a valve in slot k (R207). -/
def VRec.requests (v : VRec) (k valve : Nat) : Bool :=
  v.inSlot k && (match v.valves with
    | some (a, b) => decide (a ≤ valve ∧ valve ≤ b)
    | none => false)

def valveSt (s : State) (v : Nat) : ValveSt := Tab.get (fun _ => ValveSt.init) s.ejt.valve v

/-- On slots of a valve within the 20,000 before slot k (R208). -/
def ValveSt.recent (v : ValveSt) (k : Nat) : List Nat := v.onSlots.filter (fun j => decide (k ≤ j + 20000))

/-- The protections let a valve be on in slot k (R208): MAX_ON, MIN_OFF, DUTY_MAX. -/
def valveAllowed (prot : Word) (v : ValveSt) (k : Nat) : Bool :=
  decide (v.onRun < bits prot 23 12) && (decide (0 < v.onRun) || decide (bits prot 11 0 ≤ v.offRun)) &&
    decide ((v.recent k).length < bits prot 31 24 * 20000 / 256)

/-- A valve after a slot. -/
def ValveSt.after (v : ValveSt) (k : Nat) (on : Bool) : ValveSt :=
  if on then ⟨k :: v.recent k, v.onRun + 1, 0⟩ else ⟨v.recent k, 0, capNat 4095 (v.offRun + 1)⟩

/-- Slots without a frame count as off. -/
def ValveSt.idle (v : ValveSt) (gap : Nat) : ValveSt :=
  if gap = 0 then v else ⟨v.onSlots, 0, capNat 4095 (v.offRun + gap)⟩

/-- The 304-bit frame of a slot (R211). -/
def ejFrame (n k : Nat) (on : List Nat) : BitVec 304 :=
  let body := n % 8 * 2 ^ 269 + k % 2 ^ 12 * 2 ^ 256 + (on.map (fun v => 2 ^ (255 - v % 256))).sum
  BitVec.ofNat 304 (0xB38F * 2 ^ 288 + body * 2 ^ 16 + crc16 272 body)

/-- The slot whose frame has started last: frame k starts at TB k * 5,000 - 3,040 (R212). -/
def frameSlot (now : Nat) : Nat := (now + 3040) / 5000

/-- Form and send the frame of slot k on a bus (R207, R208, R211). -/
def State.ejSend (s : State) (n k : Nat) : State :=
  let b := ejBus s n
  let gap := match b.slot with
    | some j => k - j - 1
    | none => 0
  let prot := s.rd .ejt (EJT_BUS_PROT n)
  let req := idxs 256 (fun i => s.ejt.recs.any (fun v => v.requests k (n * 256 + i)))
  let st (i : Nat) : ValveSt := (valveSt s (n * 256 + i)).idle gap
  let on := req.filter (fun i => valveAllowed prot (st i) k)
  let off := req.filter (fun i => !on.contains i)
  let valve := (List.range 256).foldl (fun m i =>
    Tab.set (fun _ => ValveSt.init) m (n * 256 + i) ((st i).after k (on.contains i))) s.ejt.valve
  let recs := s.ejt.recs.map (fun v =>
    { v with started := v.started || (v.inSlot k && (List.range 256).any (fun i => v.requests k (n * 256 + i)))
             limited := v.limited || off.any (fun i => v.requests k (n * 256 + i)) })
  let s : State := { s with ejt := { s.ejt with valve := valve, recs := recs } }
  let s := if off = [] then s else s.countBy .ejt EJT_CNT_LIMITED off.length
  s.setEjBus n ⟨some k, on.map (fun i => n * 256 + i), b.retSlot, ejFrame n k on⟩

/-- EJ_FRAME (R207, R208, R211, R212): the frame of the slot whose time has come, once per slot. -/
def execEjFrame (n : Fin 8) (s : State) : Host.Outcome State Fault Refusal :=
  let k := frameSlot s.now
  let done := match (ejBus s n).slot with
    | some j => decide (k ≤ j)
    | none => false
  .next (if s.flag .ejt (EJT_BUS_CTRL n) 31 && s.outputsOn && !done then s.ejSend n k else s)

/-- EJn_D at a TB (R211, R212, R215): none is high impedance, in DEEP and unpowered; a bit of the slot's frame, MSB
first at 10 ns each, while the frame runs; 0 otherwise. -/
def ejData (s : State) (n tb : Nat) : Option Bool :=
  let b := ejBus s n
  if !s.flag .pwr OAS_STATUS 1 then none
  else if s.flag .ejt (EJT_BUS_CTRL n) 31 && s.outputsOn && b.slot == some (frameSlot tb) &&
      decide ((tb + 3040) % 5000 < 3040) then
    some (b.frame.getLsbD (303 - (tb + 3040) % 5000 / 10))
  else some false

/-- Every valve of a bus was off in the slots up to the one whose frame has started (R208). -/
def State.busIdle (s : State) (n : Nat) : State :=
  let k := frameSlot s.now
  let gap := match (ejBus s n).slot with
    | some j => k - j
    | none => 0
  let valve := (List.range 256).foldl (fun m i =>
    Tab.upd (fun _ => ValveSt.init) m (n * 256 + i) (fun v => v.idle gap)) s.ejt.valve
  ({ s with ejt := { s.ejt with valve := valve } } : State).setEjBus n { ejBus s n with slot := some k }

/-- A write to EJT_BUS_CTRL: EN 0 to 1 starts at the next slot whose frame is still ahead (R212, log 17); the slots
without a good return frame count from RET_EN 0 to 1 (R214). -/
def State.busCtrlWrite (s : State) (n : Nat) (v : Word) : State :=
  let c := s.rd .ejt (EJT_BUS_CTRL n)
  let s := s.store .ejt (EJT_BUS_CTRL n) v
  let s := if bit v 31 && !bit c 31 then s.busIdle n else s
  if bit v 30 && !bit c 30 then s.setEjBus n { ejBus s n with retSlot := s.now / 5000 } else s

/-- EJ_RETURN_FRAME (R214): 64 bits from a driver board. -/
def execEjReturnFrame (n : Fin 8) (frame : BitVec 64) (s : State) : Host.Outcome State Fault Refusal :=
  let w := frame.toNat
  .next (if !s.flag .ejt (EJT_BUS_CTRL n) 30 then s
    else if nbits w 63 48 = 0x4C70 ∧ crc16 32 (nbits w 47 16) = nbits w 15 0 then
      let s := s.put .ejt (EJT_BUS_STATUS n) 15 0 (nbits w 47 32)
      let s := (s.setb .ejt (EJT_BUS_STATUS n) 16 true).setb .ejt (EJT_BUS_STATUS n) 17 false
      s.setEjBus n { ejBus s n with retSlot := s.now / 5000 }
    else s.count .ejt (EJT_CNT_RET_CRC n))

/-- EJ_RET_LOST (R214): 8 whole slots without a good return frame. -/
def execEjRetLost (n : Fin 8) (s : State) : Host.Outcome State Fault Refusal :=
  .next (if s.flag .ejt (EJT_BUS_CTRL n) 30 && decide ((ejBus s n).retSlot + 9 ≤ s.now / 5000) &&
      !s.flag .ejt (EJT_BUS_STATUS n) 17 then
      (s.setb .ejt (EJT_BUS_STATUS n) 17 true).publish (0x22A + n) 0#32
    else s)

end Sys2Proof.Machine
end

