-- ==== Sys2Proof/Machine/Objects.lean ====
section
/-! DEFINITION. The object stage of a stream: cleaning and labelling line by line, the close queue, view formation,
cut-outs, pairing and the release of records (R162 to R192). -/
namespace Sys2Proof.Machine

def State.objStream (s : State) (t : Nat) : ObjStream := Tab.get (fun _ => ObjStream.init) s.obj.stream t

def State.setObj (s : State) (t : Nat) (x : ObjStream) : State :=
  { s with obj := { s.obj with stream := Tab.set (fun _ => ObjStream.init) s.obj.stream t x } }

def State.onObj (s : State) (t : Nat) (f : ObjStream → ObjStream) : State := s.setObj t (f (s.objStream t))

/-- The stream runs (R135). -/
def streamOn (s : State) (t : Nat) : Bool := s.flag .pix (PIX_SRC t) 31

/-- WIDTH (R135). -/
def streamWidth (s : State) (t : Nat) : Nat := s.fld .pix (PIX_WIN t) 15 0

/-- The motion source of a stream's trigger generator: TGg belongs to stream g (R58, R186). -/
def streamMsrc (s : State) (t : Nat) : Nat := s.fld .mot (TRG_CTRL t) 27 25

/-- The device ID in force (R178, R348). -/
def deviceId (s : State) : Nat := s.fld .cvn CVN_ID 11 0

/-- A handle (R178). -/
def handleOf (dev stream serial : Nat) : Nat := dev % 4096 * 2 ^ 52 + stream * 2 ^ 45 + serial

/-! ### The tiles' table banks (R133, R156, R164) -/

/-- The place of a tile's bank: kind 0 flat-field, 1 defect map, 2 tone with its context, 3 classifier. -/
def bankKey (tile kind ctx : Nat) (b : Bool) : Nat := tile * 32 + kind * 8 + ctx * 2 + b2n b

def State.tileBank (s : State) (tile kind ctx : Nat) (b : Bool) : Bank :=
  Tab.get (fun _ => none) s.pix.tile (bankKey tile kind ctx b)

/-- Put a table into a bank of several tiles. -/
def State.putBanks (s : State) (tiles : List Nat) (kind ctx : Nat) (b : Bool) (v : Bank) : State :=
  { s with pix := { s.pix with
    tile := tiles.foldl (fun m k => Tab.set (fun _ => none) m (bankKey k kind ctx b) v) s.pix.tile } }

/-- The tiles of a stream. -/
def StrEnt.tileList (e : StrEnt) : List Nat :=
  if e.tileFirst = 0xFF then [] else (List.range e.tiles).map (fun i => e.tileFirst + i)

/-- Columns of a line that tile i of n carries, and the cycles they cost it (R133, R160). -/
def tileCols (width n i : Nat) : Nat := min ((width + n - 1) / n) (width - i * ((width + n - 1) / n))
def tileCycles (cols : Nat) : Nat := (cols + 1) / 2 + 24

/-- The tiles of a stream in the active map, and the one that carries a column.  DESIGN CHOICE (log 97): the columns
divide evenly; R133 lets no result depend on it while the tiles hold the same tables. -/
def streamTiles (s : State) (t : Nat) : List Nat := ((mapStream s t).map StrEnt.tileList).getD []

def tileOf (s : State) (t x : Nat) : Nat :=
  let ts := streamTiles s t
  atD ts (x / max 1 ((streamWidth s t + ts.length - 1) / ts.length)) 0

/-! ### The close queue (R169, R191) -/

/-- OBJ_OPEN: NOW, and the peak (R162). -/
def State.openSync (s : State) (t : Nat) : State :=
  let n := (s.objStream t).opened.length
  let s := s.put .obj (OBJ_OPEN t) 12 0 n
  if s.fld .obj (OBJ_OPEN t) 28 16 < n then s.put .obj (OBJ_OPEN t) 28 16 n else s

/-- A lost object joins the losses to report (R192). -/
def LostSt.add (l : Option LostSt) (o : Obj) : LostSt :=
  match l with
  | none => ⟨1, o.xMin, o.xMax, o.first.tb, o.last.tb⟩
  | some l => ⟨l.count + 1, min l.xMin o.xMin, max l.xMax o.xMax, min l.tbFirst o.first.tb, max l.tbLast o.last.tb⟩

/-- max(DELAYc) over n components; 0 in AREA mode (R141). -/
def objDelay (s : State) (t n : Nat) : Nat :=
  let r := s.rd .pix (PIX_REG t)
  if areaMode s t then 0 else (([bits r 6 0, bits r 13 7, bits r 20 14, bits r 27 21] : List Nat).take n).foldl max 0

/-- An object is lost (R191, R192). -/
def State.loseObj (s : State) (t : Nat) (o : Obj) : State :=
  ((s.count .obj (OBJ_CNT_LOST t)).setb .obj (OBJ_STATUS t) 2 true).onObj t
    (fun x => { x with lost := some (LostSt.add x.lost o) })

/-- A closed object enters its stream's close queue, or is lost if 256 wait there (R191). -/
def State.closeObj (s : State) (t : Nat) (o : Obj) : State :=
  let s := s.count .obj (OBJ_CNT_CLOSED t)
  let o := { o with par := ⟨s.fld .obj (OBJ_CNT_MAP t) 29 0, s.rd .obj (OBJ_CUT t), streamWidth s t,
    objDelay s t o.csum.length, (s.objStream t).yEn, none⟩ }
  if (s.objStream t).closeQ.length < 256 then s.onObj t (fun x => { x with closeQ := x.closeQ ++ [o] })
  else s.loseObj t o

/-! ### The cut-out source ring (R179) -/

/-- Bytes of a line in the source ring: n components of 2 bytes and a mask byte per pixel. -/
def cutSlot (width n : Nat) : Nat := width * (2 * n + 1)

/-- Lines of a size the source ring holds. -/
def cutLines (s : State) (t slot : Nat) : Nat :=
  match mapRegion s t 1 with
  | some r => r.count * segBytes / slot
  | none => 0

/-- The Erg address of line y in the source ring. -/
def cutAddr (s : State) (t slot y : Nat) : Nat :=
  match mapRegion s t 1 with
  | some r => r.first * segBytes + y % cutLines s t slot * slot
  | none => 0

/-- The bytes of a line as the source ring holds it. -/
def cutLineBytes (planes : List (List Nat)) (mask : List Bool) (cls : List Nat) : List Byte :=
  (List.range mask.length).flatMap (fun x =>
    planes.flatMap (fun p => leBytes 2 (atD p x 0)) ++ leBytes 1 (b2n (atD mask x false) * 128 + atD cls x 0))

/-- Write a labelled line into the source ring (R179).  Lines of another size are no longer in it: DEDUCED (log 99). -/
def State.cutSource (s : State) (t y : Nat) (l : ClsLine) (mask : List Bool) (cls : List Nat) : State :=
  let slot := cutSlot mask.length l.cut.length
  if s.flag .obj (OBJ_CUT t) 31 && decide (0 < cutLines s t slot) then
    let s := if (s.objStream t).ringSlot = slot then s
      else s.onObj t (fun x => { x with ringSlot := slot, ringFrom := y })
    s.ergWrite (cutAddr s t slot y) (cutLineBytes l.cut mask cls)
  else s

/-! ### Labelling (R166 to R173) -/

/-- The line is the last of an AREA frame. -/
def ClsLine.lastOfFrame (l : ClsLine) : Bool :=
  match l.frame with
  | some (i, n) => decide (n ≤ i + 1)
  | none => false

/-- Label one cleaned line (R167 to R173). -/
def State.labelOne (s : State) (t : Nat) (l : ClsLine) (mask : List Bool) : State :=
  let c := s.rd .obj (OBJ_CTRL t)
  let x := s.objStream t
  let f := foreground (s.fld .obj (OBJ_FG_MASK t) 15 0) l.cls
  let cls := l.cls.mapIdx (fun i k => if atD mask i false && !atD f i false then bits c 27 24 else k)
  let r := labelLine x ⟨x.y, l, cls, mask, x.mask⟩ l.vals.length (bits c 15 0) s.now l.lastOfFrame
  let s := (s.setObj t r.st).cutSource t x.y l mask cls
  let s := if r.lostRuns = 0 then s
    else (s.countBy .obj (OBJ_CNT_LOST_RUN t) r.lostRuns).setb .obj (OBJ_STATUS t) 3 true
  (s.each r.closed (fun s o => s.closeObj t o)).openSync t

/-- A line at the classifier input of a stream: the cleaning window moves on, and the lines whose mask is
known are labelled (R165 to R171). -/
def State.objLine (s : State) (t : Nat) (l : ClsLine) : State :=
  let c := s.rd .obj (OBJ_CTRL t)
  if !bit c 31 then s
  else
    let d := (cleanStages (bits c 30 28)).length
    let x := s.objStream t
    let win := x.win ++ [l]
    let fg := s.fld .obj (OBJ_FG_MASK t) 15 0
    let m := cleaned (bits c 30 28) (win.map (fun w => foreground fg w.cls))
    let upto := if l.lastOfFrame then win.length else win.length - d
    let s := s.each ((List.range (upto - x.done)).map (fun i => x.done + i))
      (fun s i => s.labelOne t (atD win i l) (atD m i []))
    if l.lastOfFrame then s.onObj t (fun x => { x with win := [], done := 0 })
    else s.onObj t (fun x => { x with win := win.drop (upto - d), done := upto - (upto - d) })

/-! ### Classifier tables (R164, R165) -/

/-- The classifier bank in use at a column. -/
def clsBank (s : State) (t x : Nat) : Bank := s.tileBank (tileOf s t x) 3 0 (s.flag .obj (OBJ_STATUS t) 8)

/-- A classifier bank is valid in every tile of the stream (R164). -/
def clsValid (s : State) (t : Nat) (b : Bool) : Bool :=
  let ts := streamTiles s t
  !ts.isEmpty && ts.all (fun k => (s.tileBank k 3 0 b).isSome)

/-- Put the bank ACT_BANK does not name, in some tiles. -/
def State.putOtherBank (s : State) (t : Nat) (tiles : List Nat) (v : Bank) : State :=
  s.putBanks tiles 3 0 (!s.flag .obj (OBJ_STATUS t) 8) v

/-- NO_TABLE follows the active bank (R162). -/
def State.noTableSync (s : State) (t : Nat) : State :=
  s.setb .obj (OBJ_STATUS t) 9 (!clsValid s t (s.flag .obj (OBJ_STATUS t) 8))

/-- The arm copies OBJ_CLS_SEL.BANK into ACT_BANK (R165). -/
def State.clsArm (s : State) (t : Nat) : State :=
  (s.setb .obj (OBJ_STATUS t) 8 (s.flag .obj (OBJ_CLS_SEL t) 31)).noTableSync t

/-- Streams an image carries tables for. -/
def Image.tableStreams (i : Image) : List Nat :=
  idxs 96 (fun t => (i.sects.any (fun x => decide (0x10 ≤ x.type ∧ x.type ≤ 0x13) && x.index % 256 == t)))

/-- A swap of this stream's tables is under way (R250). -/
def swapHolds (s : State) (t : Nat) : Bool :=
  match s.seq.swap, mapStream s t with
  | some w, some e => w.left.contains e.tileFirst && s.seq.staged.any (fun i => i.tableStreams.contains t)
  | _, _ => false

/-- A write to OBJ_TBL_CMD (R164): a refused load clears GO, also that of a load in progress. -/
def State.clsLoad (s : State) (t : Nat) (v : Word) : State :=
  if !bit v 31 then s
  else
    let a := s.rd64 .obj (OBJ_TBL_ADDR_LO t) (OBJ_TBL_ADDR_HI t)
    if s.flag .pix (PIX_ARM t) 31 || s.flag .obj (OBJ_STATUS t) 6 || !hasTiles s t || decide (a % 64 ≠ 0) ||
        swapHolds s t then
      (s.setb .obj (OBJ_STATUS t) 5 true).setb .obj (OBJ_TBL_CMD t) 31 false
    else
      let s := (s.putOtherBank t (streamTiles s t) none).onObj t (fun x => { x with load := some (a, streamTiles s t) })
      (s.setb .obj (OBJ_TBL_CMD t) 31 true).setb .obj (OBJ_STATUS t) 6 true

/-- CLS_TBL_LOAD (R164): a write to OBJ_TBL_CMD. -/
def execClsTblLoad (t : Fin 96) (v : Word) (s : State) : Host.Outcome State Fault Refusal :=
  .next (s.clsLoad t v)

/-- CLS_TBL_LOAD_DONE (R164, R304): the copy ends; poisoned data leaves the bank invalid with LOAD_REJ. -/
def execClsTblLoadDone (t : Fin 96) (s : State) : Host.Outcome State Fault Refusal :=
  .next (match (s.objStream t).load with
    | none => s
    | some (a, tiles) =>
      let bad := ergPoisoned s a 131072
      let s := s.ergMeet a 131072
      let s := if bad then s.setb .obj (OBJ_STATUS t) 5 true
        else s.putOtherBank t tiles (some (ergRead s a 131072))
      ((s.setb .obj (OBJ_TBL_CMD t) 31 false).setb .obj (OBJ_STATUS t) 6 false).onObj t
        (fun x => { x with load := none }))

/-- OBJ_OPEN_WRITE (R162): PEAK becomes NOW. -/
def execObjOpenWrite (t : Fin 96) (s : State) : Host.Outcome State Fault Refusal :=
  .next (s.put .obj (OBJ_OPEN t) 28 16 (s.fld .obj (OBJ_OPEN t) 12 0))

/-- A register that is locked while the stream runs (R162): OBJ_CLS_SEL keeps its selectors, the others
keep everything; while ARM is 1, BANK ignores the write with SHADOW_LOCK (R165). -/
def State.objLockedWrite (s : State) (t a : Nat) (v : Word) : State :=
  if a = OBJ_CLS_SEL t then
    let armed := s.flag .pix (PIX_ARM t) 31
    let old := s.rd .obj a
    let s := if armed then s.setb .pix (PIX_STATUS t) 5 true else s
    let v := if armed then putBit v 31 (bit old 31) else v
    if !streamOn s t then s.store .obj a v
    else (if bits v 5 0 = bits old 5 0 then s else s.setb .obj (OBJ_STATUS t) 7 true).setb .obj a 31 (bit v 31)
  else if streamOn s t then s.setb .obj (OBJ_STATUS t) 7 true
  else s.store .obj a v

/-! ### Pairing (R183 to R185) -/

/-- The pair a stream belongs to while pairing is on: view A and view B (R183). -/
def pairOf (s : State) (t : Nat) : Option (Nat × Nat) :=
  match (s.objStream t).partner with
  | some b => some (t, b)
  | none => ((List.range 96).find? (fun a => (s.objStream a).partner == some t)).map (fun a => (a, t))

/-- The checks of R183, as view A's EN goes to 1. -/
def pairGood (s : State) (t : Nat) : Bool :=
  let b := s.fld .obj (OBJ_PAIR t) 30 24
  decide (b < 96) && b != t && !s.flag .obj (OBJ_PAIR b) 31 &&
    !(List.range 96).any (fun u => u != t && s.flag .obj (OBJ_PAIR u) 31 && s.fld .obj (OBJ_PAIR u) 30 24 == b) &&
    streamMsrc s t == streamMsrc s b

/-- Pairing of view A is on with a partner, or off (R183). -/
def State.setPair (s : State) (t : Nat) (b : Option Nat) : State :=
  (s.setb .obj (OBJ_STATUS t) 4 b.isSome).onObj t (fun x => { x with partner := b })

/-- PAIR_CHECK (R183): the partner checked is the one that pairing keeps. -/
def State.pairCheck (s : State) (t : Nat) : State :=
  if !s.flag .obj (OBJ_PAIR t) 31 then s.setPair t none
  else if pairGood s t then s.setPair t (some (s.fld .obj (OBJ_PAIR t) 30 24))
  else (s.setPair t none).setb .obj (OBJ_STATUS t) 7 true

/-- map(x) of R184. -/
def pairMap (gain off : Int) (x : Int) : Int := rsh (gain * x) 14 + off

/-- How well an A object and a B object match: position error and column error, none if they do not
(R184). -/
def pairMatch (s : State) (a : Nat) (va vb : ObjView) : Option (Nat × Nat) :=
  let gain := sgn 16 (s.fld .obj (OBJ_PAIR_XMAP a) 31 16)
  let off := (s.rd .obj (OBJ_PAIR_XOFF a)).toInt
  let lat : Int := s.fld .obj (OBJ_PAIR_TOL a) 15 0
  let err := ((vb.obj.first.pos - va.obj.first.pos).toInt - (s.rd .obj (OBJ_PAIR_DPOS a)).toInt).natAbs
  let m1 := pairMap gain off vb.obj.xMin
  let m2 := pairMap gain off vb.obj.xMax
  let lo := min m1 m2
  let hi := max m1 m2
  if err ≤ s.fld .obj (OBJ_PAIR_TOL a) 31 16 ∧ lo ≤ (va.obj.xMax : Int) + lat ∧ (va.obj.xMin : Int) - lat ≤ hi then
    some (err, ((va.obj.centre.1 : Int) - pairMap gain off vb.obj.centre.1).natAbs)
  else none

/-- The better of two candidates: position error, column error, serial (R184). -/
def betterMatch (p q : (Nat × Nat) × ObjView) : Bool :=
  decide (p.1.1 < q.1.1 ∨ (p.1.1 = q.1.1 ∧ (p.1.2 < q.1.2 ∨ (p.1.2 = q.1.2 ∧ p.2.serial < q.2.serial))))

/-- The best of the candidates (R184). -/
def bestMatch : List ((Nat × Nat) × ObjView) → Option ObjView
  | [] => none
  | p :: ps => some (ps.foldl (fun b q => if betterMatch q b then q else b) p).2

/-- A view leaves pairing in a record of its own (R185). -/
def State.leaveAlone (s : State) (v : ObjView) (unpaired : Bool) : State :=
  let s := if unpaired then s.count .obj (OBJ_CNT_UNPAIRED v.stream) else s
  s.onObj v.stream (fun x => { x with ready := x.ready ++
    [⟨if v.isB then none else some v, if v.isB then some v else none, false, unpaired⟩] })

/-- A formed view joins the waiting list of its stream; the oldest leaves if 1,024 wait there (R185). -/
def State.pairWait (s : State) (v : ObjView) : State :=
  let s := match (s.objStream v.stream).wait with
    | w :: ws =>
      if 1024 ≤ ws.length + 1 then (s.onObj v.stream (fun x => { x with wait := ws })).leaveAlone w true else s
    | [] => s
  s.onObj v.stream (fun x => { x with wait := x.wait ++ [v] })

/-- A formed view arrives at the pairing stage (R185).  DEDUCED (log 100): one of a stopped stream still takes a match,
and without one leaves at once. -/
def State.pairArrive (s : State) (v : ObjView) : State :=
  match pairOf s v.stream with
  | none => s.leaveAlone v false
  | some (a, b) =>
    let v := { v with isB := v.stream == b, leaveAt := s.now + 1000 * s.fld .obj (OBJ_PAIR_WAIT a) 15 0 }
    let other := if v.isB then a else b
    let cands := (s.objStream other).wait.filterMap (fun w =>
      (if v.isB then pairMatch s a w v else pairMatch s a v w).map (fun e => (e, w)))
    match bestMatch cands with
      | some w =>
        let s := s.onObj other (fun x => { x with wait := x.wait.filter (fun u => u.serial != w.serial) })
        let s := s.count .obj (OBJ_CNT_PAIRED a)
        let r : RecJob := ⟨some (if v.isB then w else v), some (if v.isB then v else w), true, false⟩
        s.onObj a (fun x => { x with ready := x.ready ++ [r] })
      | none => if streamOn s v.stream then s.pairWait v else s.leaveAlone v true

/-- The waiting objects of a stream leave unpaired (R185). -/
def State.pairFlush (s : State) (t : Nat) : State :=
  let ws := (s.objStream t).wait
  (s.onObj t (fun x => { x with wait := [] })).each ws (fun s w => s.leaveAlone w true)

/-- PAIR_WAIT_EXPIRED (R185): TB has passed the oldest waiting object's arrival plus OBJ_PAIR_WAIT. -/
def execPairWaitExpired (t : Fin 96) (s : State) : Host.Outcome State Fault Refusal :=
  .next (match (s.objStream t).wait with
    | w :: ws =>
      if w.leaveAt < s.now then (s.onObj t (fun x => { x with wait := ws })).leaveAlone w true else s
    | [] => s)

/-! ### Forming views (R177, R191) -/

/-- The head of a stream's close queue is complete: the line below a forced object has come (R174; log 98). -/
def headFinal (x : ObjStream) : Bool :=
  match x.closeQ with
  | o :: _ => o.pend.isEmpty
  | [] => false

/-- A stream has an object to form, 1,000 ns after its last one (R191). -/
def formable (s : State) (t : Nat) : Bool :=
  let x := s.objStream t
  headFinal x && (match x.formed with | some f => decide (f + 1000 ≤ s.now) | none => true)

/-- It is a stream's turn: no stream between the one served last and it has an object to form (R191). -/
def formTurn (s : State) (t : Nat) : Bool :=
  let k := s.obj.served + 1
  !(List.range ((t + 96 - k % 96) % 96)).any (fun i => formable s ((k + i) % 96))

/-- Whether the object engine may form a view of a stream now (R191). -/
def viewDue (s : State) (t : Nat) : Bool :=
  formable s t && formTurn s t && (match s.obj.formed with | some f => decide (f + 250 ≤ s.now) | none => true)

/-! ### The rectangle of a cut-out (R179) -/

/-- A span cut to a limit around a centre, staying inside (R179). -/
def cutSpan (lo hi limit centre : Nat) : Nat × Nat × Bool :=
  if hi + 1 - lo ≤ limit then (lo, hi, false)
  else
    let a := clampInt lo ((hi : Int) + 1 - limit) ((centre : Int) - limit / 2)
    (a.toNat, a.toNat + limit - 1, true)

/-- The lines written when the stream ended for an object (R182). -/
def endLine (s : State) (t : Nat) (o : Obj) : Option Nat :=
  o.par.yEnd.orElse (fun _ => if streamOn s t then none else some (s.objStream t).y)

/-- The run of the stream ends for an object. -/
def Obj.endAt (o : Obj) (y : Nat) : Obj := { o with par := { o.par with yEnd := some (o.par.yEnd.getD y) } }

/-- The run of the stream ends for the objects that wait for their view or their cut-out (R182). -/
def ObjStream.endRun (x : ObjStream) : ObjStream :=
  { x with
    closeQ := x.closeQ.map (fun o => o.endAt x.y)
    cuts := x.cuts.map (fun j => { j with view := { j.view with obj := j.view.obj.endAt x.y } }) }

/-- The source rectangle of an object: first and last column and line, and whether width and height were cut (R179).
DEDUCED (log 99): lines that are still to come are inside it while the stream runs. -/
def cutRect (s : State) (t : Nat) (o : Obj) : Nat × Nat × Nat × Nat × Bool × Bool :=
  let m := bits o.par.cut 26 23
  let sc := 2 ^ bits o.par.cut 28 27
  let top := max (o.y0 - m) ((o.frame.map (fun f => f.1)).getD o.par.yStart)
  let bottom := match o.frame with
    | some (i, n) => min (o.yLast + m) (i + n - 1)
    | none => o.yLast + m
  let bottom := min bottom ((endLine s t o).getD (bottom + 1) - 1)
  let xs := cutSpan (o.xMin - m) (min (o.xMax + m) (o.par.width - 1)) (256 * sc) o.centre.1
  let ys := cutSpan top bottom (256 * sc) o.centre.2
  (xs.1, xs.2.1, ys.1, ys.2.1, xs.2.2, ys.2.2)

/-- The cut-out of a view at its formation, each cut of its rectangle counted (R179). -/
def State.cutForm (s : State) (t : Nat) (v : ObjView) : State :=
  if !bit v.obj.par.cut 31 then s
  else
    let r := cutRect s t v.obj
    (s.countBy .obj (OBJ_CNT_CUT_TRUNC t) (b2n r.2.2.2.2.1 + b2n r.2.2.2.2.2)).onObj t (fun x => { x with cuts := x.cuts ++
      [⟨v, .waiting, 0, 0, r.2.2.2.2.1, r.2.2.2.2.2, r.1, r.2.1, r.2.2.1, r.2.2.2.1⟩] })

/-! ### Forming a view (R177, R191) -/

/-- VIEW_FORM (R177, R191, R302): the next object of a stream's close queue gets its serial, its directory
entry, its cut-out, and goes to pairing. -/
def State.formView (s : State) (t : Nat) : State :=
  let x := s.objStream t
  match x.closeQ with
  | [] => s
  | o :: rest =>
    let next := (x.serial + 1) % 2 ^ 45
    let v : ObjView :=
      { obj := o, stream := t, serial := x.serial, epoch := x.epoch, handle := handleOf (deviceId s) t x.serial
        width := o.par.width, ncomp := o.csum.length, arrived := s.now, leaveAt := s.now, isB := false }
    let s := s.setObj t { x with
      closeQ := rest, serial := next, epoch := if next = 0 then !x.epoch else x.epoch, formed := some s.now }
    let s : State := { s with obj := { s.obj with formed := some s.now, served := t } }
    let s := if o.forced then s.count .obj (OBJ_CNT_FORCED t) else s
    let s := if o.incomplete then s.count .obj (OBJ_CNT_INCOMPLETE t) else s
    let s := s.lbDirectory t v.serial v.handle o.ln o.height o.xMin o.xMax (vflags v)
    (s.cutForm t v).pairArrive v

/-- The head of a close queue is discarded for an uncorrectable word (R191, R308).  DESIGN CHOICE (log 144): it is a lost
object, since the close queue has no counters of its own. -/
def State.formLost (s : State) (t : Nat) : State :=
  match (s.objStream t).closeQ with
  | [] => s
  | o :: rest => (s.onObj t (fun x => { x with closeQ := rest })).loseObj t o

/-- VIEW_FORM (R191, R308): err 1 is an error of the entry's words that is corrected, 2 one that is not. -/
def execViewForm (t : Fin 96) (err : Fin 3) (s : State) : Host.Outcome State Fault Refusal :=
  .next (if !viewDue s t then s else if err.val = 2 then s.formLost t else s.formView t)

/-! ### Cut-outs (R179 to R182) -/

/-- Output pixels, lines and pitches of a rectangle, and the size of its cut-out (R180, R181). -/
def cutShape (cols rows sc n : Nat) (mask : Bool) : Nat × Nat × Nat × Nat × Nat :=
  let w := (cols + sc - 1) / sc
  let h := (rows + sc - 1) / sc
  let p := up64 (w * n * 2)
  let mp := if mask then up64 w else 0
  (w, h, p, mp, 64 + h * (p + mp))

/-- A place of n bytes in a staging ring, oldest entries first: after the newest, or from the start when the
end is too near (R182). -/
def stagePlace (base top n : Nat) (l : List Staged) : Option Nat :=
  match l.head?, l.getLast? with
  | some o, some e =>
    let fin := up64 (e.addr + e.size)
    if o.addr ≤ e.addr then
      if fin + n ≤ top then some fin
      else if base + n ≤ o.addr then some base
      else none
    else if fin + n ≤ o.addr then some fin
    else none
  | _, _ => if base + n ≤ top then some base else none

/-- The writer of a cut-out may start (R182): line MARGIN after the object's last is in the ring, or the
stream or frame has ended. -/
def cutCanStart (s : State) (t : Nat) (j : CutJob) : Bool :=
  let x := s.objStream t
  let o := j.view.obj
  decide (o.yLast + bits o.par.cut 26 23 < x.y) || (endLine s t o).isSome ||
    (match o.frame with
      | some (i, n) => decide (i + n ≤ x.y)
      | none => false)

/-- Change the cut-out of a view. -/
def State.onCut (s : State) (t serial : Nat) (f : CutJob → CutJob) : State :=
  s.onObj t (fun x => { x with cuts := x.cuts.map (fun j => if j.view.serial = serial then f j else j) })

/-- A cut-out is dropped or abandoned (R182). -/
def State.cutDrop (s : State) (t serial counter : Nat) : State :=
  ((s.count .obj counter).setb .obj (OBJ_STATUS t) 1 true).onCut t serial (fun j => { j with st := .dropped })

/-- Lines that a stop of the stream left unwritten leave the rectangle (R179). -/
def clipRows (s : State) (t : Nat) (j : CutJob) : CutJob :=
  { j with row1 := max j.row0 (min j.row1 ((endLine s t j.view.obj).getD (j.row1 + 1) - 1)) }

/-- Start writing a cut-out (R179, R182). -/
def State.cutStart (s : State) (t : Nat) (j : CutJob) : State :=
  let c := j.view.obj.par.cut
  let j := clipRows s t j
  let sh := cutShape (j.col1 + 1 - j.col0) (j.row1 + 1 - j.row0) (2 ^ bits c 28 27) j.view.ncomp (bit c 30)
  let size := sh.2.2.2.2
  let place := match mapRegion s t 2 with
    | some g => stagePlace (g.first * segBytes) ((g.first + g.count) * segBytes) size (s.objStream t).staging
    | none => none
  match place with
  | none => s.cutDrop t j.view.serial (OBJ_CNT_CUT_DROP t)
  | some a =>
    (s.onCut t j.view.serial (fun _ => { j with st := .writing, addr := a, size := size })).onObj t
      (fun x => { x with staging := x.staging ++ [⟨a, size, j.view.handle, false, 0, none, []⟩] })

/-- CUTOUT_WRITE_START (R182): the oldest waiting cut-out whose writer may start. -/
def execCutoutWriteStart (t : Fin 96) (s : State) : Host.Outcome State Fault Refusal :=
  .next (match (s.objStream t).cuts.find? (fun j => j.st == .waiting) with
    | some j => if cutCanStart s t j then s.cutStart t j else s
    | none => s)

/-- A source line is still in the ring (R180). -/
def cutHeld (s : State) (t slot y : Nat) : Bool :=
  let x := s.objStream t
  decide (x.ringSlot = slot ∧ x.ringFrom ≤ y ∧ y < x.y ∧ x.y ≤ y + cutLines s t slot)

/-- A source line as the cut-out writer reads it: none if it is no longer in the ring or poisoned (R180,
R304). -/
def cutReadLine (s : State) (t slot y : Nat) : Option (List Byte) :=
  let a := cutAddr s t slot y
  if cutHeld s t slot y && !ergPoisoned s a slot then some (ergRead s a slot) else none

/-- The value of a component at a source column, or of the mask byte for component n. -/
def cutPix (n : Nat) (row : List Byte) (x c : Nat) : Nat :=
  if c < n then leAt row (x * (2 * n + 1) + 2 * c) 2 else leAt row (x * (2 * n + 1) + 2 * n) 1

/-- The mask byte of a block (R180). -/
def blockMask (ms : List Nat) : Nat :=
  let on := ms.filter (fun m => 128 ≤ m)
  let best := (List.range 16).foldl (fun (b : Nat × Nat) k =>
    let c := (on.filter (fun m => m % 16 == k)).length
    if b.2 < c then (k, c) else b) (0, 0)
  if on = [] then 0 else 128 + best.1

/-- The bytes of a cut-out (R180, R181), the pair fields left 0, and whether lines were filled. -/
def cutBytes (s : State) (t : Nat) (j : CutJob) : List Byte × Bool :=
  let c := j.view.obj.par.cut
  let n := j.view.ncomp
  let k := bits c 28 27
  let sc := 2 ^ k
  let rows := (List.range (j.row1 + 1 - j.row0)).map (fun i => cutReadLine s t (cutSlot j.view.width n) (j.row0 + i))
  let filled := rows.any Option.isNone
  let sh := cutShape (j.col1 + 1 - j.col0) rows.length sc n (bit c 30)
  let px (y x ch : Nat) : Nat :=
    cutPix n ((atD rows (min y (rows.length - 1)) none).getD []) (j.col0 + min x (j.col1 - j.col0)) ch
  let block (by' bx ch : Nat) : List Nat := (List.range sc).flatMap (fun dy => (List.range sc).map (fun dx =>
    px (by' * sc + dy) (bx * sc + dx) ch))
  let val (by' bx ch : Nat) : Nat := if k = 0 then px by' bx ch else (rsh ((block by' bx ch).sum) (2 * k)).toNat
  let m (by' bx : Nat) : Nat := if k = 0 then px by' bx n else blockMask (block by' bx n)
  let pixels := (List.range sh.2.1).flatMap (fun y => pitchLine ((List.range sh.1).flatMap (fun x =>
    (List.range n).flatMap (fun ch => leBytes 2 (val y x ch)))))
  let masks := if bit c 30 then (List.range sh.2.1).flatMap (fun y => pitchLine ((List.range sh.1).flatMap (fun x =>
    leBytes 1 (m y x)))) else []
  let fl := b2n j.widthCut + 2 * b2n j.heightCut + 4 * b2n filled
  let hdr := leBytes 8 j.view.handle ++ leBytes 2 sh.1 ++ leBytes 2 sh.2.1 ++ leBytes 2 j.col0 ++
    leBytes 2 (unsgn 16 ((j.row0 : Int) - j.view.obj.y0)) ++ leBytes 1 sc ++ leBytes 1 n ++
    leBytes 1 (b2n (bit c 30) + 2 * b2n (bit c 29)) ++ leBytes 1 fl ++ leBytes 4 sh.2.2.1 ++ leBytes 4 sh.2.2.2.1 ++
    leBytes 32 0
  (withCrc hdr ++ pixels ++ masks, filled)

/-- The cut-out writer has read its source lines (R304). -/
def State.cutMeet (s : State) (t : Nat) (j : CutJob) : State :=
  let slot := cutSlot j.view.width j.view.ncomp
  s.each ((List.range (j.row1 + 1 - j.row0)).filter (fun i => cutHeld s t slot (j.row0 + i)))
    (fun s i => s.ergMeet (cutAddr s t slot (j.row0 + i)) slot)

/-- A cut-out is written into the staging ring (R180 to R182). -/
def State.cutDone (s : State) (t : Nat) (j : CutJob) : State :=
  ((s.cutMeet t j).ergWrite j.addr (cutBytes s t j).1).onCut t j.view.serial (fun j => { j with st := .written })

/-- CUTOUT_WRITE_DONE (R180 to R182): the cut-out in writing is in the staging ring. -/
def execCutoutWriteDone (t : Fin 96) (s : State) : Host.Outcome State Fault Refusal :=
  .next (match (s.objStream t).cuts.find? (fun j => j.st == .writing) with
    | some j => s.cutDone t j
    | none => s)

/-- CUTOUT_LATE (R182): a write has not ended LIMIT us after its object closed. -/
def execCutoutLate (t : Fin 96) (s : State) : Host.Outcome State Fault Refusal :=
  .next (match (s.objStream t).cuts.find? (fun j => (j.st == .writing || j.st == .waiting) &&
      decide (j.view.obj.closedAt + 1000 * bits j.view.obj.par.cut 9 0 ≤ s.now)) with
    | some j =>
      let s := s.cutDrop t j.view.serial (OBJ_CNT_CUT_LATE t)
      s.onObj t (fun x => { x with staging := reapStaged s.now (x.staging.map (fun e =>
        if e.handle = j.view.handle then { e with released := true, freeAt := some s.now } else e)) })
    | none => s)

/-! ### Records (R186 to R192) -/

/-- The finished cut-out of a view. -/
def cutOf (s : State) (v : Option ObjView) : Option CutJob :=
  v.bind (fun v => (s.objStream v.stream).cuts.find? (fun j => j.view.serial == v.serial && j.st == .written))

/-- The rectangle of a view was cut, whatever became of its cut-out (R179, R187). -/
def rectCut (s : State) (v : ObjView) : Bool :=
  (s.objStream v.stream).cuts.any (fun j => j.view.serial == v.serial && (j.widthCut || j.heightCut))

/-- Every view's cut-out has been written or abandoned (R190). -/
def cutsOver (s : State) (r : RecJob) : Bool :=
  [r.a, r.b].all (fun v => match v with
    | none => true
    | some v => !(s.objStream v.stream).cuts.any (fun j =>
        j.view.serial == v.serial && (j.st == .waiting || j.st == .writing)))

/-- The look-back ring of a stream holds every line of a view (R302). -/
def lookbackHolds (s : State) (v : ObjView) : Bool :=
  let t := v.stream
  let first := v.obj.ln - v.obj.par.delay
  (s.lbOf t).isSome && decide ((s.rd64 .erg (ERG_LB_OLDEST_LO t) (ERG_LB_OLDEST_HI t)) ≤ first)

/-- The record of a job and what the verdict stage needs of it (R186, R187, R190); the view of the earliest first line,
view A on a tie, is the reference (R194). -/
def buildRecord (s : State) (r : RecJob) : Release :=
  let vs := [r.a, r.b].filterMap id
  let main := (r.a.orElse (fun _ => r.b)).getD
    ⟨Obj.start 0 ⟨[], [], [], 0, zeroStamp, 0, 0, 0, none⟩ 0 (0, 0), 0, 0, false, 0, 0, 0, 0, 0, false⟩
  let early := vs.foldl (fun b v => if v.obj.first.tb < b.obj.first.tb then v else b) main
  let lateV := vs.foldl (fun b v => if b.obj.last.tb < v.obj.last.tb then v else b) main
  let cut := (cutOf s r.a).orElse (fun _ => cutOf s r.b)
  let fl := vs.foldl (fun f v => f ||| v.obj.lineFlags) 0
  let hold := vs.any (fun v => tbit v.obj.first.flags 0 || tbit v.obj.last.flags 0)
  let reset := vs.any (fun v => v.obj.byReset)
  let trunc := reset || vs.any (fun v => rectCut s v)
  let flags := b2n main.epoch + 4 * b2n r.paired + 8 * b2n r.unpaired + 16 * b2n cut.isSome + 32 * b2n trunc +
    64 * b2n (damagedFlags fl || reset) + 128 * b2n (lateFlags fl) + 256 * b2n (vs.all (fun v => lookbackHolds s v)) +
    512 * b2n hold + 1024 * b2n (vs.any (fun v => v.obj.sat))
  let span := unsgn 16 (clampInt (-32767) 32767 (lateV.obj.last.pos - early.obj.first.pos).toInt)
  let blk (v : Option ObjView) : List Byte := match v with
    | some v => viewBlock v
    | none => List.replicate 96 0#8
  let msrc := streamMsrc s main.stream
  let hdr := [1#8, 0#8, 0xFF#8] ++ leBytes 1 msrc ++ leBytes 4 0 ++ leBytes 8 main.handle ++ leBytes 4 flags ++
    leBytes 6 early.obj.first.pos.toNat ++ leBytes 2 0xFFFF ++ leBytes 2 0xFFFF ++ leBytes 2 span ++
    leBytes 8 early.obj.first.tb ++ leBytes 8 lateV.obj.last.tb ++ leBytes 8 0 ++
    leBytes 5 ((cut.map (fun j => j.addr)).getD 0) ++ leBytes 3 ((cut.map (fun j => j.size)).getD 0)
  { bytes := hdr ++ blk r.a ++ blk r.b, handle := main.handle, queue := main.stream, stream := early.stream
    msrc := msrc, xMin := early.obj.xMin, xMax := early.obj.xMax, tbFirst := early.obj.first.tb
    tbLast := lateV.obj.last.tb }

/-- The OBJ_LOST record of a stream (R192). -/
def buildLost (s : State) (t : Nat) (l : LostSt) : Release :=
  let h := handleOf (deviceId s) t (s.objStream t).serial
  let msrc := streamMsrc s t
  let bytes := [2#8, 0#8, 0#8] ++ leBytes 1 msrc ++ leBytes 4 0 ++ leBytes 8 h ++
    leBytes 4 (capNat 0xFFFFFFFF l.count) ++ leBytes 2 l.xMin ++ leBytes 2 l.xMax ++ leBytes 2 0xFFFF ++
    leBytes 2 0xFFFF ++ leBytes 4 0 ++ leBytes 8 l.tbFirst ++ leBytes 8 l.tbLast ++ leBytes 8 0 ++ leBytes 200 0
  { bytes := bytes, handle := h, queue := t, stream := t, msrc := msrc, xMin := l.xMin, xMax := l.xMax
    tbFirst := l.tbFirst, tbLast := l.tbLast }

/-- The view A cut-out of a pair names that of view B (R182). -/
def State.linkCuts (s : State) (r : RecJob) : State :=
  match cutOf s r.a, cutOf s r.b with
  | some a, some b =>
    let hdr := patch (patch (ergRead s a.addr 60) 28 (leBytes 5 b.addr)) 33 (leBytes 3 b.size)
    s.ergWrite a.addr (withCrc hdr)
  | _, _ => s

/-- The cut-outs of a record's views leave the writer's list.  Their staging space is named by the record's
handle; it is free at once when the record leaves the device, else once the record's two copies are delivered
(R182, R268, R357). -/
def State.dropCuts (s : State) (v : Option ObjView) (handle : Nat) (free : Bool) : State :=
  match v with
  | none => s
  | some v => s.onObj v.stream (fun x => { x with
      cuts := x.cuts.filter (fun j => j.view.serial != v.serial)
      staging := reapStaged s.now (x.staging.map (fun e =>
        if e.handle = v.handle ∧ ¬ e.released then
          { e with released := true, handle := handle, copies := 2, freeAt := if free then some s.now else none }
        else e)) })

end Sys2Proof.Machine
end

