-- ==== Sys2Proof/Machine/Handover.lean ====
section
/-! DEFINITION. The first half of object handover: the cells of a record and where a record of this device goes
(R357). -/
namespace Sys2Proof.Machine

/-- The six OBJ cells of a record (R357). -/
def hoCells (s : State) (dev stream : Nat) (rec : List Byte) : List Cell :=
  (List.range 6).map (fun k => newCell s 2 false false dev
    (leBytes 1 k ++ leBytes 1 stream ++ leBytes 2 s.cvn.hoTag ++ (rec.drop (48 * k)).take 48) .plain)

/-- A record leaves for another device, if CVN_HO says so and routing takes it there (R357); whether it has left. -/
def State.handover (s : State) (t : Nat) (rec : List Byte) : State × Bool :=
  let h := s.rd .cvn (CVN_HO t)
  if !bit h 31 then (s, false)
  else match cvRoute s s.cvn.cur (bits h 27 16) with
    | some (some p) =>
      let s' := s.each (hoCells s (bits h 27 16) (bits h 6 0) rec) (fun s c => s.cvPut p c none)
      let s' : State := { s' with cvn := { s'.cvn with hoTag := (s'.cvn.hoTag + 1) % 65536 } }
      (s'.count .cvn CVN_CNT_HO_SENT, true)
    | _ => (s.count .cvn CVN_CNT_HO_LOCAL, false)

/-- The OBJ_LOST record owed by a stream is released (R192, R357). -/
def State.lostOut (s : State) (t : Nat) : State :=
  match (s.objStream t).lost with
  | some l =>
    let r := buildLost s t l
    let s := s.onObj t (fun x => { x with lost := none })
    let h := s.handover t r.bytes
    if h.2 then h.1 else h.1.lostRelease r
  | none => s

end Sys2Proof.Machine
end

