-- ==== Sys2Proof/Machine/Slots.lean ====
section
/-! DEFINITION. Slots of the sequencers and the bank swap (R225 to R232, R241, R249, R250).  Slot kinds are 0 LINE,
1 STRIP, 2 EVENT, 3 TICK. -/
namespace Sys2Proof.Machine

def State.seqU (s : State) (q : Nat) : SeqUnit := Tab.get (fun _ => SeqUnit.init) s.seq.unit q

def State.setSeqU (s : State) (q : Nat) (x : SeqUnit) : State :=
  { s with seq := { s.seq with unit := Tab.set (fun _ => SeqUnit.init) s.seq.unit q x } }

def State.onSeq (s : State) (q : Nat) (f : SeqUnit → SeqUnit) : State := s.setSeqU q (f (s.seqU q))

/-- SEQ_STATUS.STATE: 0 STOPPED, 1 IDLE, 2 RUNNING, 3 HALTED (R231). -/
def seqState (s : State) (q : Nat) : Nat := s.fld .seq (SEQ_STATUS q) 31 30

def State.seqGo (s : State) (q st : Nat) : State := s.put .seq (SEQ_STATUS q) 31 30 st

/-- The program of a bank. -/
def SeqUnit.prog (x : SeqUnit) (bank : Bool) : Option Program := if bank then x.bank1 else x.bank0

/-- The program a sequencer executes. -/
def activeProg (s : State) (q : Nat) : Option Program := (s.seqU q).prog (s.flag .seq (SEQ_STATUS q) 29)

/-- The lead sequencer of a stream (R226). -/
def leadOf (s : State) (t : Nat) : Option Nat :=
  if hasTiles s t then (mapStream s t).map (fun e => e.tileFirst) else none

/-- The stream a sequencer leads. -/
def ledStream (s : State) (q : Nat) : Option Nat := (activeProg s q).bind (fun p => if p.stream < 96 then some p.stream else none)

/-- Entry index of a slot kind; none for 0xFFFF (R244). -/
def Program.entryOf (p : Program) (kind : Nat) : Option Nat :=
  let e := atD p.entry kind 0xFFFF
  if e = 0xFFFF then none else some e

/-- A slot cause arrives at a sequencer (R227): kept until its slot command takes it. -/
def State.seqCause (s : State) (q kind : Nat) (arg : Word) : State :=
  let st := seqState s q
  if st = 1 ∨ st = 2 then
    match (activeProg s q).bind (fun p => p.entryOf kind) with
    | some _ => s.onSeq q (fun x => { x with causes := x.causes ++ [(kind, arg)] })
    | none => s
  else s

/-- A 32-bit X register. -/
def seqX (s : State) (q i : Nat) : Word := s.rd .seq (SEQ_X q i) 

/-- Load X0 to X15. -/
def State.loadX (s : State) (q : Nat) (xs : List Word) : State := s.wrList .seq (SEQ_X q 0) xs

/-- The motion words LDS reads of a source (R237): MOTION, SPEED, POS. -/
def motionWords (s : State) (m : Nat) : Word × Word × Word :=
  let v := sourceView s m
  (BitVec.ofNat 32 (v.state + 4 * b2n v.dec + 8 * b2n (s.ms m).lost + 16 * b2n v.holdover), BitVec.ofInt 32 v.speed,
    (fixPos (v.posAt (s.now * 1000))).setWidth 32)

/-- The register of the most cycles a kind used (R231). -/
def peakAt (q kind : Nat) : Nat :=
  if kind = 0 then SEQ_PEAK_LINE q else if kind = 1 then SEQ_PEAK_STRIP q else if kind = 2 then SEQ_PEAK_EVENT q
  else SEQ_PEAK_TICK q

/-- The running slot is over: X registers and peak are kept, loop counters reset (R231, R236). -/
def State.slotOver (s : State) (q st : Nat) : State :=
  match (s.seqU q).slot with
  | none => s.seqGo q st
  | some sl =>
    let s := s.loadX q sl.x
    let a := peakAt q sl.kind
    let s := if s.fld .seq a 15 0 < sl.used then s.put .seq a 15 0 (capNat 65535 sl.used) else s
    (s.onSeq q (fun x => { x with slot := none })).seqGo q st

/-- Ticks before now are over for a sequencer: one that begins to run takes those to come (R227). -/
def SeqUnit.ticksOver (x : SeqUnit) (now : Nat) : SeqUnit :=
  { x with lastTick := some (max (x.lastTick.getD 0) (now - 1)) }

/-- A sequencer switches to its other bank (R249, R250); a subscription that is not enabled there discards its pending
event (R329). -/
def State.seqSwitch (s : State) (q : Nat) (init : Bool) : State :=
  let s := s.slotOver q (if seqState s q = 2 then 1 else seqState s q)
  let b := !s.flag .seq (SEQ_STATUS q) 29
  let s := (s.setb .seq (SEQ_STATUS q) 29 b).onSeq q (fun x => x.ticksOver s.now)
  match (s.seqU q).prog b with
  | none => (s.onSeq q (fun x => { x with held := [] })).seqGo q 0
  | some p =>
    let s := s.onSeq q (fun x => { x with held := x.held.filter (fun e => tbit (atD p.subs e.1 0) 15) })
    let s := if init || p.initOnSwap then s.loadX q p.xInit else s
    s.seqGo q 1

/-- SWAP_LEFT (R231). -/
def State.swapLeft (s : State) : State :=
  s.put .seq SEQ_IMG_STATUS 5 0 (match s.seq.swap with | some w => w.left.length | none => 0)

/-- The registers of the active image (R231), and the points it gives the clusters (R366). -/
def State.imageRegs (s : State) (i : Image) : State :=
  (((s.wr64 .seq SEQ_IMG_BUILD_LO SEQ_IMG_BUILD_HI i.build).wr .seq SEQ_IMG_MAP_CRC (BitVec.ofNat 32 i.mapCrc)).setb
    .seq SEQ_IMG_STATUS 31 true).imageOps i.map

/-- SQS switches last; the flight and rule banks become active, route 0 of each kind is selected (R265) and the swap
ends (R250). -/
def State.swapFinish (s : State) : State :=
  match s.seq.swap, s.seq.staged with
  | some _, some i =>
    let s := (s.seqSwitch 32 false).ejtSwap
    let s : State := { s with seq := { s.seq with active := some i, staged := none, swap := none } }
    let s : State := { s with host := { s.host with route := [], routeQ := [] } }
    let s := (s.imageRegs i).setb .seq SEQ_IMG_STATUS 30 (!s.flag .seq SEQ_IMG_STATUS 30)
    let s := ((s.setb .seq SEQ_IMG_STATUS 29 false).setb .seq SEQ_IMG_STATUS 28 false).swapLeft
    s.publish 0x236 (lo32 i.build)
  | _, _ => s

/-- The swap waits for the next TICK slot of SQS alone (R250). -/
def swapWaitsSqs (s : State) : Bool :=
  match s.seq.swap with
  | some w => w.left == [32] && w.copied.isSome
  | none => false

/-- Start a slot (R227); SQS switches at the start of its TICK slot, last in a swap (R250). -/
def State.startSlot (s : State) (q kind : Nat) (arg : Word) : State :=
  let s := if q = 32 ∧ kind = 3 ∧ swapWaitsSqs s then s.swapFinish else s
  match (activeProg s q).bind (fun p => p.entryOf kind) with
  | none => s
  | some e =>
    let x0 := s
    let sl : SlotSt :=
      { kind := kind, pc := e, start := s.now, used := 0, loops := []
        x := (List.range 16).map (fun i => seqX x0 q i)
        motion := (List.range 8).map (fun m => motionWords x0 m)
        evArg := if kind = 2 then arg else 0#32, waiting := none }
    ((s.onSeq q (fun x => { x with slot := some sl })).seqGo q 2).count .seq (SEQ_CNT_SLOTS q)

/-- The pending bit of a kind: 8 LINE, 9 STRIP, 10 EVENT, 11 TICK (R231). -/
def slotPending (s : State) (q kind : Nat) : Bool := s.flag .seq (SEQ_STATUS q) (8 + kind)

/-- When no slot runs, the next pending slot starts, in the order STRIP, LINE, EVENT, TICK (R228). -/
def State.nextSlot (s : State) (q : Nat) : State :=
  if seqState s q ≠ 1 then s
  else match ([1, 0, 2, 3] : List Nat).find? (fun k => slotPending s q k) with
    | some k => (s.setb .seq (SEQ_STATUS q) (8 + k) false).startSlot q k (s.seqU q).evArg
    | none => s

/-- The slot ends and the next pending one starts (R228). -/
def State.endSlot (s : State) (q : Nat) : State := (s.slotOver q 1).nextSlot q

/-- Bits of a slot kind as LDS SLOT and the fault records show it (log 18). -/
def kindBit (kind : Nat) : Nat := 2 ^ kind

/-- A fault of a sequencer (R231, R232, R241, R390): FAULT and FAULT_PC, the report; with HALT_ON_FAULT it
halts, and its generator in SEQ mode issues no triggers.  Whether the running slot ends is the caller's. -/
def State.seqFault (s : State) (q fault code detail : Nat) (ends : Bool) : State :=
  let pc := match (s.seqU q).slot with
    | some sl => sl.pc
    | none => 0
  let s := (s.put .seq (SEQ_STATUS q) 28 24 fault).put .seq (SEQ_STATUS q) 23 12 pc
  let s := s.contained 52 code q detail
  if s.flag .seq (SEQ_CTRL q) 0 then
    let s := match ledStream s q with
      | some t => if genMode s t = 5 then s.setGen t { s.gen t with due := [] } else s
      | none => s
    (s.slotOver q 3).onSeq q (fun x => { x with causes := [] })
  else if ends then s.endSlot q else s

/-- A cause of a kind is taken: its slot starts, or becomes pending, or is dropped as an overrun (R227,
R228). -/
def State.takeCause (s : State) (q kind : Nat) (arg : Word) : State :=
  if seqState s q = 1 then s.startSlot q kind arg
  else if seqState s q ≠ 2 then s
  else if slotPending s q kind then
    (s.count .seq (SEQ_CNT_OVERRUN q)).seqFault q 2 0x11 (kindBit kind * 2 ^ 16) false
  else
    let s := s.setb .seq (SEQ_STATUS q) (8 + kind) true
    if kind = 2 then s.onSeq q (fun x => { x with evArg := arg }) else s

/-- EARLY: the cause comes sooner than the declared minimum after the previous one (R241). -/
def State.earlyCheck (s : State) (q : Nat) (last : Option Nat) (least : Nat) : State :=
  match last with
  | some t =>
    if s.now < t + least then (s.setb .seq (SEQ_STATUS q) 0 true).count .seq (SEQ_CNT_EARLY q) else s
  | none => s

/-- Take the oldest cause of a kind, if one has arrived (R227); LINE waits for a STRIP that came with it. -/
def State.slotCommand (s : State) (q kind : Nat) : State :=
  let x := s.seqU q
  if kind = 0 ∧ x.causes.any (fun c => c.1 == 1) then s
  else match x.causes.find? (fun c => c.1 == kind), activeProg s q with
    | some c, some p =>
      let s := s.onSeq q (fun x => { x with causes := x.causes.erase c })
      let s := if kind = 0 then
          (s.earlyCheck q x.lastLine p.minLine).onSeq q (fun x => { x with lastLine := some s.now })
        else if kind = 2 then
          (s.earlyCheck q x.lastEvent p.minEvent).onSeq q (fun x => { x with lastEvent := some s.now })
        else s
      s.takeCause q kind c.2
    | _, _ => s

/-- STRIP_SLOT (R227, R228). -/
def execStripSlot (q : Fin 33) (s : State) : Host.Outcome State Fault Refusal := .next (s.slotCommand q 1)

/-- LINE_SLOT (R227, R228). -/
def execLineSlot (q : Fin 33) (s : State) : Host.Outcome State Fault Refusal := .next (s.slotCommand q 0)

/-- EVENT_SLOT (R227, R228). -/
def execEventSlot (q : Fin 33) (s : State) : Host.Outcome State Fault Refusal := .next (s.slotCommand q 2)

/-! ### Bank swap (R249, R250) -/

/-- The bank of a kind that the active set uses. -/
def PixStream.sel (x : PixStream) (kind : Nat) : Bool :=
  if kind = 0 then x.flatSel else if kind = 1 then x.defectSel else x.toneSel

/-- The tables of a stream that an image carries, into the banks not in use of its tiles (R249, R250). -/
def State.tablesCopy (s : State) (t : Nat) (i : Image) : State :=
  let tiles := ((i.map.strs.find? (fun e => e.stream == t)).map StrEnt.tileList).getD []
  let s := match i.sect 0x10 t with
    | some b => s.putOtherBank t tiles (some b)
    | none => s
  let x := s.pixStream t
  let s := match i.sect 0x11 t with
    | some b => s.putBanks tiles 0 0 (!x.flatSel) (some b)
    | none => s
  let s := match i.sect 0x12 t with
    | some b => s.putBanks tiles 1 0 (!x.defectSel) (some b)
    | none => s
  s.each (List.range 4) (fun s c =>
    match i.sect 0x13 (t + c * 256) with
    | some b => s.putBanks tiles 2 c (!x.toneSel) (some b)
    | none => s)

/-- The tables of a stream that an image carries become active, as an arm would make them (R250). -/
def State.tablesUse (s : State) (t : Nat) (i : Image) : State :=
  let s := if (i.sect 0x10 t).isSome then
      let b := !s.flag .obj (OBJ_STATUS t) 8
      ((s.setb .obj (OBJ_STATUS t) 8 b).setb .obj (OBJ_CLS_SEL t) 31 b).noTableSync t
    else s
  s.onPix t (fun x => { x with
    flatSel := x.flatSel != (i.sect 0x11 t).isSome
    defectSel := x.defectSel != (i.sect 0x12 t).isSome
    toneSel := x.toneSel != (List.range 4).any (fun c => (i.sect 0x13 (t + c * 256)).isSome) })

/-- The verdict tables of an image, into the banks not in use (R249). -/
def State.verdictTables (s : State) (i : Image) : State :=
  s.each (List.range 4) (fun s k =>
    let s := match i.sect 0x14 k with
      | some b => s.setVTable false k ((flightTable s k).load (some b))
      | none => s
    match i.sect 0x15 k with
    | some b => s.setVTable true k ((ruleTable s k).load (some b))
    | none => s)

/-- SQS has a TICK entry (R250). -/
def sqsTicks (s : State) : Bool := ((activeProg s 32).bind (fun p => p.entryOf 3)).isSome

/-- A sequencer whose turn has come switches, with its stream's tables; SQS follows at once when it has no
TICK entry (R250). -/
def State.bankSwitch (s : State) (q : Nat) : State :=
  match s.seq.swap, s.seq.staged with
  | some w, some i =>
    if w.left.contains q && w.copied.isSome && q < 32 then
      let ts := (i.map.strs.filter (fun e => e.tileFirst == q && decide (0 < e.tiles))).map (fun e => e.stream)
      let s := s.each ts (fun s t => s.tablesUse t i)
      let s := s.seqSwitch q false
      let left := w.left.erase q
      let s : State := { s with seq := { s.seq with swap := some { w with left := left } } }
      let s := s.swapLeft
      if left = [32] ∧ ¬ sqsTicks s then s.swapFinish else s
    else s
  | _, _ => s

/-- A sequencer may switch outside a strip boundary: its stream does not run, or had no line start for
100 ms (R250). -/
def switchAtOnce (s : State) (q : Nat) : Bool :=
  match s.seq.swap with
  | some w =>
    (match w.copied, (List.range 96).find? (fun t => leadOf s t == some q) with
      | some _, some t => !streamOn s t || decide ((s.pixStream t).lineAt + 100000000 ≤ s.now)
      | some _, none => true
      | none, _ => false)
  | none => false

/-- SEQ_BANK_SWITCH (R250). -/
def execSeqBankSwitch (q : Fin 33) (s : State) : Host.Outcome State Fault Refusal :=
  .next (if switchAtOnce s q then s.bankSwitch q else s)

/-- The line starts of a stream for its lead sequencer: the LINE cause, and a count since the copy of a swap
ended (R227, R250). -/
def State.seqLineStart (s : State) (t : Nat) : State :=
  match leadOf s t with
  | none => s
  | some q =>
    let copied := match s.seq.swap with
      | some w => w.copied.isSome
      | none => false
    (s.onSeq q (fun x => { x with lineStarts := if copied then x.lineStarts + 1 else 0 })).seqCause q 0 0#32

/-- A strip boundary of a stream: its lead sequencer may switch banks, and the stream its tables (R250). -/
def State.seqBoundary (s : State) (t : Nat) : State :=
  match leadOf s t with
  | some q => if 2 ≤ (s.seqU q).lineStarts then s.bankSwitch q else s
  | none => s

/-- The STRIP cause, which strip 0 has at the stream's first line start (R227). -/
def State.seqStrip (s : State) (t : Nat) (cause : Bool) : State :=
  match leadOf s t with
  | some q => if cause then s.seqCause q 1 0#32 else s
  | none => s

/-- A stream without EN has no LINE or STRIP slots: those that wait are gone (R230). -/
def State.leadStop (s : State) (t : Nat) : State :=
  match leadOf s t with
  | none => s
  | some q =>
    (s.put .seq (SEQ_STATUS q) 9 8 0).onSeq q (fun x => { x with causes := x.causes.filter (fun c => decide (2 ≤ c.1)) })

/-- Whether a TICK of a program is due at an instant, the last one at another (R227). -/
def tickDue (p : Program) (last now : Nat) : Bool :=
  decide (0 < p.tickPeriod) && decide (p.tickPhase ≤ now) &&
    decide (last < p.tickPhase + (now - p.tickPhase) / p.tickPeriod * p.tickPeriod)

/-- TICK_SLOT (R227, R228): TB has reached a tick. -/
def execTickSlot (q : Fin 33) (s : State) : Host.Outcome State Fault Refusal :=
  .next (match activeProg s q with
    | some p =>
      let st := seqState s q
      if tickDue p ((s.seqU q).lastTick.getD 0) s.now ∧ (st = 1 ∨ st = 2) ∧ (p.entryOf 3).isSome then
        (s.onSeq q (fun x => { x with lastTick := some s.now })).takeCause q 3 0#32
      else s
    | none => s)

end Sys2Proof.Machine
end

