-- ==== Sys2Proof/Machine/Streams.lean ====
section
/-! DEFINITION. Streams of the pixel pipeline: joining port lines, line starts, contexts, strips, outputs,
statistics, arming and table loads (R131 to R161, R246). -/
namespace Sys2Proof.Machine

/-! ### Parameters of a stream -/

def streamDt (s : State) (t : Nat) : Nat := s.fld .pix (PIX_SRC t) 9 4

/-- Internal components of a stream. -/
def streamComps (s : State) (t : Nat) : Nat := pixComps (streamDt s t)

/-- DELAYc of the components; 0 in AREA mode (R141). -/
def streamDelays (s : State) (t : Nat) : List Nat :=
  let r := s.rd .pix (PIX_REG t)
  if areaMode s t then [0, 0, 0, 0] else [bits r 6 0, bits r 13 7, bits r 20 14, bits r 27 21]

/-- SHIFTc of the components; 0 in AREA mode (R141). -/
def streamShifts (s : State) (t : Nat) : List Int :=
  let r := s.rd .pix (PIX_SHIFT t)
  if areaMode s t then [0, 0, 0, 0]
  else [sgn 4 (bits r 3 0), sgn 4 (bits r 7 4), sgn 4 (bits r 11 8), sgn 4 (bits r 15 12)]

/-- max(DELAYc) over the components that exist (R141). -/
def streamMaxDelay (s : State) (t : Nat) : Nat := ((streamDelays s t).take (streamComps s t)).foldl max 0

/-- The delay of the line whose stamp an output line takes (R141). -/
def refDelay (s : State) (t : Nat) : Nat :=
  let ref := s.fld .pix (PIX_REG t) 31 30
  if ref < streamComps s t then atD (streamDelays s t) ref 0 else 0

/-- The shift of the component whose stamp an output line takes (R141). -/
def refShift (s : State) (t : Nat) : Int :=
  let ref := s.fld .pix (PIX_REG t) 31 30
  if ref < streamComps s t then atD (streamShifts s t) ref 0 else 0

/-- The tiles are not in AREA mode's way: delays or shifts set in AREA mode (R141). -/
def areaBadRegs (s : State) (t : Nat) : Bool :=
  areaMode s t && (s.rd .pix (PIX_REG t) &&& 0x0FFFFFFF#32 != 0#32 || s.rd .pix (PIX_SHIFT t) != 0#32)

/-- Lines of the open strip: PIX_STRIP + 1, or the frame's count (R152). -/
def stripLength (s : State) (t : Nat) (frame : Option (Nat × Nat)) : Nat :=
  match frame with
  | some (_, n) => if areaMode s t then n else s.fld .pix (PIX_STRIP t) 15 0 + 1
  | none => s.fld .pix (PIX_STRIP t) 15 0 + 1

/-! ### Routes (R238, R265, R266) -/

/-- The copy of data of a stream that a route asks for (R266, R270). -/
def DataCopy.ofRoute (r : List Byte) (kind t strip addr size : Nat) (slot : Option Nat) : DataCopy :=
  { kind := kind, stream := t, src := leAt r 3 1, strip := strip, addr := addr, size := size, ch := leAt r 2 1
    clients := (routeClients r).map (fun c => c % 1024), slotSize := leAt r 16 4, nslot := leAt r 20 4
    base := leAt r 24 8, slot := slot }

/-- Queue the copy of a strip buffer or statistics record (R270): from the route's first slot rules. -/
def State.startCopy (s : State) (t kind : Nat) (r : List Byte) (src strip addr size : Nat) (slot : Option Nat) : State :=
  if routeClients r = [] then s
  else
    { s with host := { s.host with
      copies := s.host.copies ++ [{ DataCopy.ofRoute r kind t strip addr size slot with src := src }] } }

/-! ### Strip outputs (R148 to R151) -/

/-- The format source of a region kind: 0 machine vision, 1 display, 2 coding (R245, R266). -/
def outRing (s : State) (t src : Nat) : OutRing := Tab.get (fun _ => OutRing.init) s.erg.ring (t * 3 + src)

def State.setOutRing (s : State) (t src : Nat) (r : OutRing) : State :=
  { s with erg := { s.erg with ring := Tab.set (fun _ => OutRing.init) s.erg.ring (t * 3 + src) r } }

/-- Bytes of a strip buffer of L lines (R151): p holds the parameters in use. -/
def outBytes (p : State) (t src lines : Nat) : Nat :=
  let w := streamWidth p t
  let c := p.rd .pix (PIX_OUT_CTRL_ACT t)
  let k := bits c 29 28
  let v := if bit c 26 then 2 else 1
  64 + up64 (if src = 1 then lines / 2 ^ k else lines) + match src with
    | 0 => lines * up64 (w * streamComps p t * 2)
    | 1 => lines / 2 ^ k * up64 (w / 2 ^ k * 3)
    | _ => (lines + (lines + 1) / 2) * up64 (w * v)

/-- The buffer slots of an output ring for buffers of a size, and the segments of each (log 19). -/
def outSlots (s : State) (t src size : Nat) : Nat × Nat :=
  let segs := (size + segBytes - 1) / segBytes
  match mapRegion s t (3 + src) with
  | some r => (r.count / segs, segs)
  | none => (0, segs)

/-- A formatter is enabled in the active set. -/
def outEnabled (p : State) (t src : Nat) : Bool :=
  let c := p.rd .pix (PIX_OUT_CTRL_ACT t)
  match src with
  | 0 => bit c 31
  | 1 => bit c 30
  | _ => bit c 27

/-- The ring has a free buffer for the next strip (R148). -/
def outFree (s : State) (t src lines : Nat) : Bool :=
  let sl := outSlots s t src (outBytes s t src lines)
  let i := (outRing s t src).written % sl.1 * sl.2
  decide (0 < sl.1) && !(outRing s t src).busy.any (fun b => decide (b.1 < i + sl.2 ∧ i < b.1 + b.2))

/-- The formatted pixel lines of a strip: the main plane, then the CbCr plane (R149 to R151). -/
def outPlanes (p : State) (t src : Nat) (x : StripSt) : List (List Byte) × List (List Byte) :=
  let c := p.rd .pix (PIX_OUT_CTRL_ACT t)
  let sel := p.rd .pix (PIX_OUT_SEL_ACT t)
  let w := streamWidth p t
  match src with
  | 0 => (x.mv.map mvLine, [])
  | 1 => (displayLines x.tone (bits c 29 28) w [bits sel 11 10, bits sel 9 8, bits sel 7 6], [])
  | _ => codingLines x.tone (if bit c 26 then 10 else 8) w [bits sel 5 4, bits sel 3 2, bits sel 1 0]

/-- The flag byte of each output line (R151): a display line has the flags of every line of its blocks.  DEDUCED
(log 96). -/
def outFlags (src k : Nat) (flags : List Nat) : List Nat :=
  if src = 1 then (pieces (2 ^ k) (flags.length / 2 ^ k) flags).map (fun f => f.foldl (fun a b => a ||| b) 0) else flags

/-- The bytes of a strip buffer (R151). -/
def stripBuffer (p : State) (t src : Nat) (x : StripSt) (early : Bool) : List Byte :=
  let c := p.rd .pix (PIX_OUT_CTRL_ACT t)
  let k := bits c 29 28
  let w := streamWidth p t
  let pl := outPlanes p t src x
  let fmt := if src = 2 ∧ bit c 26 then 3 else src
  let ncomp := if src = 0 then streamComps p t else 3
  let fl := b2n early + 2 * b2n (decide (1 < x.ctxs.eraseDups.length)) + 256 * x.flags.foldl (fun a b => a ||| b) 0
  let ow := if src = 1 then w / 2 ^ k else w
  let lines := pl.1.length
  let pitch := match src with
    | 0 => up64 (w * streamComps p t * 2)
    | 1 => up64 (ow * 3)
    | _ => up64 (w * (if bit c 26 then 2 else 1))
  let st (v : Option Stamp) : Stamp := v.getD zeroStamp
  let hdr := leBytes 4 x.num ++ leBytes 1 fmt ++ leBytes 1 ncomp ++ leBytes 2 fl ++ leBytes 4 ow ++ leBytes 4 lines ++
    leBytes 4 pitch ++ leBytes 4 (if src = 2 then lines * pitch else 0) ++ leBytes 8 (st x.first).tb ++
    leBytes 8 (st x.last).tb ++ leBytes 6 (st x.first).pos.toNat ++ leBytes 14 0
  let fs := outFlags src k x.flags
  withCrc hdr ++ padTo (up64 fs.length) (fs.map (fun f => BitVec.ofNat 8 f)) ++ pl.1.flatten ++ pl.2.flatten

/-- Write one output's strip buffer and start its copies (R148, R151, R270). -/
def State.writeOut (s p : State) (t : Nat) (x : StripSt) (early : Bool) (src : Nat) : State :=
  let b := stripBuffer p t src x early
  let sl := outSlots s t src (outBytes p t src x.lines)
  let r := outRing s t src
  match mapRegion s t (3 + src) with
  | none => s
  | some g =>
    if sl.1 = 0 then s
    else
      let i := r.written % sl.1 * sl.2
      let a := (g.first + i) * segBytes
      let s := s.ergWrite a b
      match routeAt s t 1 x.route1 with
      | some rt =>
        if leAt rt 3 1 = src ∧ routeClients rt ≠ [] then
          (s.setOutRing t src ⟨r.written + 1, r.busy ++ [(i, sl.2)]⟩).startCopy t 1 rt src x.num a b.length (some i)
        else s.setOutRing t src { r with written := r.written + 1 }
      | none => s.setOutRing t src { r with written := r.written + 1 }

/-! ### Statistics (R158, R159) -/

/-- The lines a record counts: CTX_ONLY selects (R158). -/
def statLines (p : State) (t : Nat) (x : StripSt) : StatLines × List Nat :=
  let c := p.rd .pix (PIX_STAT_CTRL_ACT t)
  let ls := if p.flag .pix (PIX_CTRL t) 20 then x.tone else x.mv
  let keep := (List.range ls.length).filter (fun i => !bit c 30 || atD x.ctxs i 0 == bits c 29 28)
  (keep.map (fun i => (i, atD ls i [])), keep.map (fun i => atD x.flags i 0))

/-- A statistics record (R159). -/
def statRecord (p : State) (t : Nat) (x : StripSt) (early compact : Bool) (dropped : Nat) : List Byte :=
  let c := p.rd .pix (PIX_STAT_CTRL_ACT t)
  let ls := statLines p t x
  let b := if compact then 256 else 1024
  let size := if compact then 4672 else 24640
  let st (v : Option Stamp) : Stamp := v.getD zeroStamp
  let fl := b2n compact + 2 * b2n (p.flag .pix (PIX_CTRL t) 20) + 4 * b2n (ls.2.any damagedFlags) + 8 * b2n (bit c 30) +
    16 * bits c 29 28 + 64 * b2n early
  let hist := (List.range 4).flatMap (fun k => (histogram ls.1 b k).flatMap (fun v => leBytes 4 v))
  let zs := (zones ls.1 (streamWidth p t) x.flags.length compact).flatMap (fun v => leBytes 2 v)
  let hdr := leBytes 4 x.num ++ leBytes 1 t ++ leBytes 1 fl ++ leBytes 2 (size / 8) ++ leBytes 4 ls.1.length ++
    leBytes 4 (streamWidth p t) ++ leBytes 8 (st x.first).tb ++ leBytes 8 (st x.last).tb ++
    leBytes 6 (st x.first).pos.toNat ++ leBytes 2 0 ++ leBytes 4 dropped ++ leBytes 16 0
  let all := hdr ++ leBytes 4 0 ++ hist ++ zs
  patch all 60 (leBytes 4 (crc32c all))

/-- The statistics record of a strip enters the queue: full, compact, or dropped (R159). -/
def State.statistics (s p : State) (t : Nat) (x : StripSt) (early : Bool) : State :=
  if !p.flag .pix (PIX_STAT_CTRL_ACT t) 31 then s
  else
    let q := qOf t 1
    let full := qFits s q 3080
    let y := s.pixStream t
    if !full && !qFits s q 584 then
      (s.onPix t (fun y => { y with statDropped := y.statDropped + 1 })).count .pix (PIX_CNT_STAT_DROP t)
    else
      let s := if full then s else s.count .pix (PIX_CNT_STAT_COMPACT t)
      let rec0 := statRecord p t x early (!full) y.statDropped
      let failed := (s.ergQ q).failing
      let a := match qRegion s q with
        | some r => r.first * segBytes + ((s.ergQ q).wr + 1) % qWords s q * 8
        | none => 0
      let s := (s.onPix t (fun y => { y with statDropped := 0 })).qPush q (bytesToWords rec0)
      match routeAt s t 2 x.route2 with
      | some rt =>
        if failed || routeClients rt = [] then s else s.startCopy t 2 rt (leAt rt 3 1) x.num a rec0.length none
      | none => s

/-! ### Strips (R152 to R154) -/

/-- The strip ends (R152, R153, R229): outputs and statistics are committed, then STRIP_END is published. -/
def State.endStrip (s p : State) (t : Nat) (early : Bool) : State :=
  match (s.pixStream t).strip with
  | none => s
  | some x =>
    let s := s.each x.outs (fun s src => s.writeOut p t x early src)
    let s := if hasTiles s t then s.statistics p t x early else s
    let s := s.onPix t (fun y => { y with strip := none })
    s.publish (0x060 + t) (BitVec.ofNat 32 x.num)

/-- The shadow registers and their active twins: 0x100 to 0x2FF (R154). -/
def shadowOffsets : List Nat := (List.range 128).map (fun i => 0x100 + 4 * i)

/-- The arm applies (R154, R165): shadow into active, banks switch, PIX_APPLIED. -/
def State.applyArm (s : State) (t num : Nat) : State :=
  let base := PIX_SRC t
  let s := s.each shadowOffsets (fun s o =>
    if (regAt (base + o)).isSome then s.wr .pix (base + 0x1000 + o) (s.rd .pix (base + o)) else s)
  let sel := s.rd .pix (PIX_TBL_SEL t)
  let s := s.onPix t (fun x => { x with
    toneSel := x.toneSel != bit sel 2, defectSel := x.defectSel != bit sel 1, flatSel := x.flatSel != bit sel 0 })
  let s := s.clsArm t
  let s := ((s.setb .pix (PIX_ARM t) 31 false).wr .pix (PIX_APPLIED_STRIP t) (BitVec.ofNat 32 num)).setb .pix
    (PIX_ARM_STATUS t) 31 true
  s.publish (0x0C0 + t) (BitVec.ofNat 32 num)

/-- A strip boundary before a line (R23, R152, R154, R227): an arm may apply; the number, and STRIP_WRAP where it goes
back to 0. -/
def State.boundary (s : State) (t : Nat) : State :=
  let x := s.pixStream t
  let num := x.nextStrip % 2 ^ 32
  let s := if s.flag .pix (PIX_ARM t) 31 ∧ 2 ≤ x.armStarts then s.applyArm t num else s
  let s := s.onPix t (fun x => { x with nextStrip := x.nextStrip + 1 })
  if x.nextStrip ≠ 0 ∧ num = 0 then s.publish (0x120 + t) 0#32 else s

/-- Open a strip (R148, R151): outputs without a free buffer are dropped for it. -/
def State.openStrip (s : State) (t num lines : Nat) : State :=
  let want := if hasTiles s t then ([0, 1, 2] : List Nat).filter (fun src => outEnabled s t src) else []
  let got := want.filter (fun src => outFree s t src lines)
  let s := if want.length = got.length then s
    else s.countBy .pix (PIX_CNT_OUT_DROP t) (want.length - got.length)
  let r1 := routeIdx s t 1
  let r2 := routeIdx s t 2
  let s := s.onPix t (fun x => { x with strip := some ⟨num, [], [], [], [], none, none, lines, got, r1, r2⟩ })
  s.wr .pix (PIX_STRIP_NUM t) (BitVec.ofNat 32 num)

/-- Count a line into the open strip. -/
def StripSt.add (x : StripSt) (mv tone : List (List Nat)) (flags ctx : Nat) (st : Stamp) : StripSt :=
  { x with mv := x.mv ++ [mv], tone := x.tone ++ [tone], flags := x.flags ++ [flags], ctxs := x.ctxs ++ [ctx],
           first := some (x.first.getD st), last := some st }

/-! ### The stages (R136 to R147), with the parameters of a state p -/

/-- BLACK and OFFSET of a component in a context (R138). -/
def blackOf (p : State) (t ctx c : Nat) : Nat × Int :=
  let v := p.rd .pix (PIX_BLACK_C0_ACT t ctx + 4 * c)
  (bits v 15 0, sgn 16 (bits v 31 16))

/-- The bank in use of the tile that carries a column (R156). -/
def bankAt (p : State) (t kind ctx x : Nat) : Bank := p.tileBank (tileOf p t x) kind ctx ((p.pixStream t).sel kind)

/-- The flat-field entry of a column and component: the bank in LINE mode, the Erg in AREA mode (R139). -/
def flatOf (p : State) (t : Nat) (row : Nat) (x c : Nat) : Nat :=
  let n := streamComps p t
  if areaMode p t then
    ofLe (ergRead p (p.rd64 .pix (PIX_FF_ADDR_LO_ACT t) (PIX_FF_ADDR_HI_ACT t) +
      ((row * streamWidth p t + x) * n + c) * 4) 4)
  else flatEntry (bankAt p t 0 0 x) n x c

/-- The columns listed as defect for a line, each by its own tile's map (R140, R156). -/
def defectsOf (p : State) (t : Nat) (row : Option Nat) : List Nat :=
  (streamTiles p t).flatMap (fun k =>
    (defectCols (p.tileBank k 1 0 (p.pixStream t).defectSel) (streamWidth p t) row).filter (fun x => tileOf p t x == k))

/-- The front end of a line: unpack, black level, flat-field, defects; with the clip and uncorrected
counts (R137 to R140). -/
def frontEnd (p : State) (t : Nat) (l : StrLine) : List (List Nat) × Nat × Nat :=
  let dt := streamDt p t
  let w := streamWidth p t
  let row := (l.frame.map (fun f => f.1)).getD 0
  let u := unpackLine dt (p.fld .pix (PIX_CTRL t) 29 22) w l.samples
  let b := blackStage dt l.phase (blackOf p t l.ctx) u
  let f := flatStage dt l.phase (flatOf p t row) b.1
  let cols := defectsOf p t (if areaMode p t then some row else none)
  let d := defectStage dt cols f.1
  (d.1, b.2 + f.2, d.2)

/-- M[i][j] of a context (R146). -/
def matOf (p : State) (t ctx i j : Nat) : Int :=
  let v := p.rd .pix (PIX_MAT_0_ACT t ctx + 4 * (2 * i + j / 2))
  s16 (if j % 2 = 0 then bits v 15 0 else bits v 31 16)

/-- K[i] of a context (R146). -/
def matKOf (p : State) (t ctx i : Nat) : Int :=
  let v := p.rd .pix (PIX_MATK_0_ACT t ctx + 4 * (i / 2))
  s16 (if i % 2 = 0 then bits v 15 0 else bits v 31 16)

/-- An output line behind registration and demosaic: matrix, tone, classification, strip (R146, R147, R163,
R151, R152), with the parameters of p. -/
def State.emitLine (s p : State) (t : Nat) (l : PlaneLine) : State :=
  let m := matrixStage (matOf p t l.ctx) (matKOf p t l.ctx) l.planes
  let tn := toneStage (bankAt p t 2 l.ctx) (p.fld .pix (PIX_TONE_ACT t l.ctx) 3 0) m.1
  let s := s.countBy .pix (PIX_CNT_CLIP t) m.2
  let x := s.pixStream t
  match x.strip with
  | none => s
  | some st =>
    let sline := st.flags.length
    let s := s.setPix t { x with prevOut := some l.planes, strip := some (st.add m.1 tn l.flags l.ctx l.stamp) }
    let tap (b : Bool) : List (List Nat) := if b then tn else m.1
    let sel := s.rd .obj (OBJ_CLS_SEL t)
    let vals := tap (p.flag .pix (PIX_CTRL t) 21)
    let cl : ClsLine :=
      { vals := vals, cut := tap (s.flag .obj (OBJ_CUT t) 29)
        cls := classLine (clsBank p t) (bits sel 5 4, bits sel 3 2, bits sel 1 0) vals
        flags := l.flags, stamp := l.stamp, ln := l.ln, strip := st.num, sline := sline
        frame := if areaMode p t then l.frame else none }
    let s := s.objLine t cl
    if stripLength p t l.frame ≤ sline + 1 then s.endStrip p t false else s

/-- The line is the last of its AREA frame. -/
def PlaneLine.lastOfFrame (l : PlaneLine) : Bool :=
  match l.frame with
  | some (i, n) => decide (n ≤ i + 1)
  | none => false

/-- A mosaic line with the rows above and below (R142, R143). -/
def mosaicOut (s : State) (t : Nat) (y u d : PlaneLine) : PlaneLine :=
  let r : Rows :=
    { nir := tbit (streamDt s t) 2, y := y.planes.headD [], yPhase := y.phase, u := u.planes.headD [], uPhase := u.phase
      d := d.planes.headD [], dPhase := d.phase, prev := (s.pixStream t).prevOut }
  { y with planes := r.planes }

/-- The mosaic line before an arriving one is complete with it as the row below (R142, R143). -/
def State.mosaicFinish (s p : State) (t : Nat) (d : PlaneLine) : State :=
  match (s.pixStream t).mosaic with
  | y :: rest => s.emitLine p t (mosaicOut s t y (rest.headD d) d)
  | [] => s

/-- A mosaic line arrives behind registration: kept as y; the last of an AREA frame is completed at once,
the row above taken as the row below (R143); the only line of a frame stands for both (DESIGN CHOICE, log 137). -/
def State.mosaicTake (s p : State) (t : Nat) (l : PlaneLine) : State :=
  let prev := (s.pixStream t).mosaic.head?
  let s := s.onPix t (fun x => { x with mosaic := (l :: x.mosaic).take 2 })
  if areaMode s t && l.lastOfFrame then
    (s.emitLine p t (mosaicOut s t l (prev.getD l) (prev.getD l))).onPix t (fun x => { x with mosaic := [] })
  else s

/-! ### Line starts (R154, R157, R161, R227) -/

/-- Whether an input line begins a strip: LINE mode counts output lines, AREA mode frames (R152). -/
def startsStrip (s : State) (t : Nat) (l : StrLine) : Bool :=
  let x := s.pixStream t
  if areaMode s t then
    (match l.frame with
      | some (i, _) => i == 0
      | none => x.strip.isNone)
  else
    let d := if hasTiles s t then streamMaxDelay s t else 0
    decide (d ≤ x.inLines) && decide ((x.inLines - d) % (s.fld .pix (PIX_STRIP t) 15 0 + 1) = 0)

/-- The context of a line (R157): its place j in the strip; off the context tiles always 0. -/
def lineCtx (s : State) (t j : Nat) : Nat :=
  let c := s.rd .pix (PIX_CTX_CTRL_ACT t)
  if !onContextTiles s t then 0
  else match bits c 31 30 with
  | 0 => bits c 29 28
  | 1 => bits (s.rd .pix (PIX_CTX_PAT_ACT t)) (2 * (j % (bits c 27 24 + 1)) + 1) (2 * (j % (bits c 27 24 + 1)))
  | _ => (s.pixStream t).seqCtx

/-- The place of an input line in its strip: by output line, and before output line 0 by input line. -/
def linePlace (s : State) (t : Nat) (l : StrLine) : Nat :=
  let x := s.pixStream t
  if areaMode s t then (l.frame.map (fun f => f.1)).getD 0
  else
    let d := if hasTiles s t then streamMaxDelay s t else 0
    if d ≤ x.inLines then (x.inLines - d) % (s.fld .pix (PIX_STRIP t) 15 0 + 1) else x.inLines

/-- The line start: counts for the arm, RUNNING, PIX_STRIP_LINE, the LINE cause. -/
def State.lineStart' (s : State) (t place : Nat) : State :=
  let s := s.onPix t (fun x => { x with inLines := x.inLines + 1, lineAt := s.now, armStarts := x.armStarts + 1 })
  let s := s.setb .pix (PIX_STATUS t) 1 true
  (s.put .pix (PIX_STRIP_LINE t) 15 0 place).seqLineStart t

/-- A line enters the tiles of its stream and passes the stages (R136 to R161). -/
def State.tileLine (s : State) (t : Nat) (l : StrLine) : State :=
  let p0 := s
  let starts := startsStrip s t l
  let first := (s.pixStream t).nextStrip = 0
  let num := (s.pixStream t).nextStrip % 2 ^ 32
  let s := if starts then (s.boundary t).seqBoundary t else s
  -- the parameters from here on; the mosaic line before still uses p0
  let p := s
  let place := linePlace s t l
  let l := { l with ctx := lineCtx s t place }
  let f := frontEnd p t l
  let s := (s.countBy .pix (PIX_CNT_CLIP t) f.2.1).countBy .pix (PIX_CNT_DEFECT_UNCORR t) f.2.2
  let pl : PlaneLine := ⟨f.1, l.flags, l.stamp, l.phase, l.frame, l.ln, l.ctx⟩
  let s := s.onPix t (fun x => { x with reg := (pl :: x.reg).take (streamMaxDelay p t + 1) })
  let mos := isMosaic (streamDt p t)
  let free0 := s.free
  let r := registered (streamDt p t) (streamComps p t) (streamDelays p t) (streamShifts p t) (refDelay p t) (refShift p t)
    (fun x => (Config.freeValue 16 (free0 + x)).toNat) (s.pixStream t).reg
  let s := if mos then { s with free := free0 + streamWidth p t } else s
  let s := match r with
    | some d => if mos then s.mosaicFinish p0 t d else s
    | none => s
  let s := if starts then
      (s.endStrip p0 t false).openStrip t num (stripLength p t l.frame)
    else s
  let s := s.seqStrip t ((starts && !first) || (s.pixStream t).inLines == 0)
  let s := s.lineStart' t place
  match r with
  | none => s
  | some d => if mos then s.mosaicTake p t d else s.emitLine p t d

/-- A line of an ingest-only stream: strips are counted, nothing else (R246). -/
def State.ingestLine (s : State) (t : Nat) (l : StrLine) : State :=
  let starts := startsStrip s t l
  let num := (s.pixStream t).nextStrip % 2 ^ 32
  let s := if starts then s.boundary t else s
  let s := if starts then (s.endStrip s t false).openStrip t num (stripLength s t l.frame) else s
  let s := s.lineStart' t (linePlace s t l)
  match (s.pixStream t).strip with
  | none => s
  | some st =>
    let s := s.onPix t (fun x => { x with strip := some (st.add [] [] l.flags 0 l.stamp) })
    if stripLength s t l.frame ≤ st.flags.length + 1 then s.endStrip s t false else s

/-! ### Joining (R131, R132, R301) -/

/-- The lines at the heads of the port queues of a stream, in the order of the set. -/
def heads (s : State) (t : Nat) : List (Option CamLine) :=
  let x := s.pixStream t
  ([x.q0.head?, x.q1.head?, x.q2.head?] : List (Option CamLine)).take (s.fld .pix (PIX_SRC t) 30 29 + 1)

/-- Drop the head of port queue i. -/
def PixStream.dropHead (x : PixStream) (i : Nat) : PixStream :=
  match i with
  | 0 => { x with q0 := x.q0.tail }
  | 1 => { x with q1 := x.q1.tail }
  | _ => { x with q2 := x.q2.tail }

/-- Stamped heads. -/
def isStamped (l : CamLine) : Bool := l.flags &&& flUnstamped == 0

/-- Places of the heads older than the newest stamp, among stamped ones (R132). -/
def olderHeads (hs : List (Option CamLine)) : List Nat :=
  let tbs := hs.filterMap (fun h => h.bind (fun l => if isStamped l then some l.stamp.tb else none))
  let newest := tbs.foldl max 0
  (List.range hs.length).filter (fun i => match atD hs i none with
    | some l => isStamped l && decide (l.stamp.tb < newest)
    | none => false)

/-- Discard older heads until the stamped heads agree (R132). -/
def State.joinDiscard (s : State) (t : Nat) : Nat → State
  | 0 => s
  | n + 1 =>
    match olderHeads (heads s t) with
    | [] => s
    | is =>
      let s := (s.onPix t (fun x => is.foldl PixStream.dropHead x)).countBy .pix (PIX_CNT_JOIN_DROP t) is.length
      s.joinDiscard t n

/-- Lines that wait in the port queues. -/
def queued (x : PixStream) : Nat := x.q0.length + x.q1.length + x.q2.length

/-- Samples of a head's line, by sensor column from COL0: none outside it. -/
def headPixel (dt : Nat) (l : CamLine) (samples : List Nat) (col : Nat) : Option (List Nat) :=
  let n := dtComps dt
  if l.col0 ≤ col ∧ col < l.col0 + l.pixels then
    some ((List.range n).map (fun k => atD samples ((col - l.col0) * n + k) 0))
  else none

/-- The stream line of the heads at hand (R131, R132): the window's columns, lower places first, missing ones
0 with SHORT.  DEDUCED (log 15): the mosaic phase names the colours from the camera line's own first column on, so an
odd distance to the window's first column exchanges the two colours.  DEDUCED (log 121): surplus columns leave the line
without SHORT, by R131. -/
def joinLine (s : State) (t : Nat) (hs : List (Option CamLine)) : StrLine :=
  let dt := streamDt s t
  let n := dtComps dt
  let ls := hs.filterMap id
  let us := ls.map (fun l => (l, unpackBits (dtBits dt) (l.pixels * n) l.bytes))
  let first := s.fld .pix (PIX_WIN t) 31 16
  let px := (List.range (streamWidth s t)).map (fun x => us.findSome? (fun u => headPixel dt u.1 u.2 (first + x)))
  let miss := px.any Option.isNone || hs.any Option.isNone
  let main := ls.find? isStamped
  let any := (main.orElse (fun _ => ls.head?))
  { samples := px.flatMap (fun v => v.getD (List.replicate n 0))
    flags := (ls.foldl (fun f l => f ||| l.flags) 0) ||| (if miss then flShort else 0)
    stamp := (any.map (fun l => l.stamp)).getD zeroStamp
    phase := ((ls.head?.map (fun l => if (first + l.col0) % 2 = 0 then l.phase else l.phase ^^^ 1))).getD 0
    frame := (ls.head?).bind (fun l => l.frame)
    ln := (s.pixStream t).ln, ctx := 0 }

/-- The cluster of a stream's first tile. -/
def firstCluster (s : State) (t : Nat) : Nat := ((mapStream s t).map (fun e => e.tileFirst / 4)).getD 0

/-- The number of the strip an input line belongs to, counting the lines that wait before it (R152, R301). -/
def stripOf (s : State) (t : Nat) (l : StrLine) : Nat :=
  let x := s.pixStream t
  let n := if areaMode s t then
      x.nextStrip + ((x.tileQ ++ [l]).filter (fun l => l.frame.all (fun f => f.1 == 0))).length - 1
    else
      let d := if hasTiles s t then streamMaxDelay s t else 0
      (x.inLines + x.tileQ.length - d) / (s.fld .pix (PIX_STRIP t) 15 0 + 1)
  n % 2 ^ 32

/-- A stream line is complete (R161, R246, R299): look-back, then the tiles' buffer, or an ingest-only
stream's strip count. -/
def State.lineIn (s : State) (t : Nat) (l : StrLine) : State :=
  let s := s.lbWrite t l.ln (stripOf s t l) l
  let s := s.onPix t (fun x => { x with ln := x.ln + 1 })
  if !hasTiles s t then s.ingestLine t l
  else
    let x := s.pixStream t
    if x.tileQ.length < 4 then s.onPix t (fun x => { x with tileQ := x.tileQ ++ [l] })
    else
      let repl : StrLine := { l with samples := ((x.tileQ.getLast?).map (fun y => y.samples)).getD l.samples
                                     flags := flMissing }
      let s := s.onPix t (fun x => { x with tileQ := x.tileQ ++ [repl] })
      let s := (s.count .pix (PIX_CNT_OVERRUN t)).setb .pix (PIX_STATUS t) 6 true
      s.contained (6 + firstCluster s t) 0x20 t (s.rd .pix (PIX_STRIP_NUM t)).toNat

/-- Form one stream line of the heads and hand it on. -/
def State.joinNow (s : State) (t : Nat) : State :=
  let hs := heads s t
  let l := joinLine s t hs
  (s.onPix t (fun x => (List.range hs.length).foldl PixStream.dropHead x)).lineIn t l

/-- STREAM_LINE_JOIN (R131, R132): every port of the set has a head. -/
def execStreamLineJoin (t : Fin 96) (s : State) : Host.Outcome State Fault Refusal :=
  .next (if streamOn s t then
    let u := s.joinDiscard t (queued (s.pixStream t))
    if (heads u t).all Option.isSome then u.joinNow t else u
  else s)

/-- JOIN_TIMEOUT (R132): ports have no head JOIN_US after the first head's arrival, once older heads are discarded;
each such port counts a fill. -/
def execJoinTimeout (t : Fin 96) (s : State) : Host.Outcome State Fault Refusal :=
  .next (if !streamOn s t then s
    else
      let u := s.joinDiscard t (queued (s.pixStream t))
      let hs := heads u t
      let gone := (hs.filter Option.isNone).length
      match hs.filterMap (fun h => h.map (fun l => l.arrived)) with
      | [] => u
      | a :: as =>
        if gone ≠ 0 ∧ as.foldl min a + 1000 * u.fld .pix (PIX_CTRL t) 19 13 ≤ u.now then
          (u.joinNow t).countBy .pix (PIX_CNT_JOIN_FILL t) gone
        else u)

/-! ### The tiles' clusters (R361, R365) -/

/-- Clusters that carry a stream's tiles. -/
def streamClusters (s : State) (t : Nat) : List Nat :=
  match mapStream s t with
  | some e => (List.range 8).filter (fun c => decide (e.tileFirst / 4 ≤ c ∧ c * 4 < e.tileFirst + e.tiles))
  | none => []

def State.onUnit (s : State) (u : Nat) (f : PwrUnit → PwrUnit) : State :=
  { s with pwr := { s.pwr with unit := Tab.upd (fun _ => PwrUnit.init) s.pwr.unit u f } }

/-- Work arrived for a unit that has not left its deeper state: it exits at once, counted once (R365). -/
def State.mispredict (s : State) (u : Nat) : State :=
  let x := Tab.get (fun _ => PwrUnit.init) s.pwr.unit u
  if x.missed then s
  else
    (s.count .pwr PWR_CNT_MISPREDICT).onUnit u (fun x => { x with missed := true, exitAt := some (x.exitAt.getD s.now) })

/-- PSTATE of a cluster: 0 ACTIVE, 1 IDLE, 2 NAP, 3 OFF (R369). -/
def clPstate (s : State) (c : Nat) : Nat := s.fld .pwr (PWR_CL_CTRL c) 1 0

/-- The time a line of a stream costs a cluster, in ns: that of its tile with the most columns (R160, R364). -/
def lineCost (s : State) (t c : Nat) : Nat :=
  match mapStream s t with
  | some e =>
    let is := (List.range e.tiles).filter (fun i => (e.tileFirst + i) / 4 == c)
    let cyc := (is.map (fun i => tileCycles (tileCols (streamWidth s t) e.tiles i))).foldl max 0
    (cyc * 1000000000 + clHz s c - 1) / clHz s c
  | none => 0

/-- Clusters at work read ACTIVE (R369); their work ends with the line (R364). -/
def State.clustersWork (s : State) (t : Nat) : State :=
  s.each (streamClusters s t) (fun s c =>
    ((s.put .pwr (PWR_CL_CTRL c) 1 0 0).put .pwr (PWR_UNIT_LIM c) 5 4 0).onUnit c
      (fun x => { x with workEnd := max x.workEnd (s.now + lineCost s t c) }))

/-- PIPELINE_LINE (R161, R365): the oldest waiting line of a stream enters its tiles; a napping cluster exits
first. -/
def execPipelineLine (t : Fin 96) (s : State) : Host.Outcome State Fault Refusal :=
  .next (match (s.pixStream t).tileQ with
    | [] => s
    | l :: rest =>
      if !streamOn s t then s
      else
        let naps := (streamClusters s t).filter (fun c => clPstate s c == 2)
        if naps ≠ [] then s.each naps (fun s c => s.mispredict c)
        else if (streamClusters s t).any (fun c => clPstate s c == 3) then s
        else ((s.onPix t (fun x => { x with tileQ := rest })).clustersWork t).tileLine t l)

/-! ### Enabling and stopping (R135, R152, R153, R183, R246) -/

/-- The stream stops or is reset: lines in the tiles are discarded, every open object ends, the open strip ends
early, waiting objects leave unpaired, losses are reported (R33, R153, R171, R185, R192). -/
def State.streamEnd (s : State) (t : Nat) : State :=
  let p := closeAll (s.objStream t) s.now
  let s := ((s.setObj t { p.1 with win := [], done := 0 }).each p.2 (fun s o => s.closeObj t o)).openSync t
  let s := s.onObj t ObjStream.endRun
  let s := s.endStrip s t true
  let s := s.onPix t (fun x => { x with
    q0 := [], q1 := [], q2 := [], tileQ := [], reg := [], mosaic := [], prevOut := none, strip := none })
  let s := s.pairFlush t
  s.lostOut t

/-- A stream starts (R152, R183, R301). -/
def State.streamBegin (s : State) (t : Nat) : State :=
  let s := s.onPix t (fun x => { x with
    q0 := [], q1 := [], q2 := [], tileQ := [], reg := [], mosaic := [], prevOut := none, strip := none
    inLines := 0, lineAt := s.now, nextStrip := 0 })
  let s := s.onObj t (fun x => { x with
    win := [], done := 0, mask := [], yEn := x.y, opened := [], lostRuns := [], forcedRuns := [] })
  let s := (s.setb .pix (PIX_STATUS t) 1 false).openSync t
  let s := if areaBadRegs s t then s.setb .pix (PIX_STATUS t) 7 true else s
  s.pairCheck t

/-- PIX_SRC without EN, as a write leaves it (R36, R135): only pixel types are data types. -/
def srcFields (old v : Word) : Word × Bool :=
  let x := (regAt (PIX_SRC 0)).map (fun r => r.2.write false old v)
  let p := x.getD (v, false)
  if isPixelDt (bits v 9 4) then p
  else (putBits p.1 9 4 (bits old 9 4), true)

/-- A write to PIX_SRC (R135, R246). -/
def State.pixSrcWrite (s : State) (t : Nat) (v : Word) : State :=
  let old := s.rd .pix (PIX_SRC t)
  if bit old 31 then
    let s := if bits v 30 0 = bits old 30 0 then s else s.setb .pix (PIX_STATUS t) 7 true
    if bit v 31 then s
    else (((s.setb .pix (PIX_SRC t) 31 false).leadStop t).streamEnd t).setb .pix (PIX_STATUS t) 1 false
  else
    let p := srcFields old v
    let s := (s.wr .pix (PIX_SRC t) (putBit p.1 31 false)).setb .pix (PIX_STATUS t) 7
      (s.flag .pix (PIX_STATUS t) 7 || p.2)
    if !bit v 31 then s
    else if (mapStream s t).isSome then (s.setb .pix (PIX_SRC t) 31 true).streamBegin t
    else s.setb .pix (PIX_STATUS t) 7 true

/-- PIX_SRC_WRITE (R135, R246). -/
def execPixSrcWrite (t : Fin 96) (v : Word) (s : State) : Host.Outcome State Fault Refusal :=
  .next (s.pixSrcWrite t v)

/-- A write to a register that is locked while the stream runs (R135). -/
def State.pixLockedWrite (s : State) (t a : Nat) (v : Word) : State :=
  if streamOn s t then s.setb .pix (PIX_STATUS t) 7 true else s.store .pix a v

/-! ### Arming (R154, R155, R165) -/

/-- The other bank of the tile sets, as PIX_TBL_SEL asks for it, holds a valid table (R155). -/
def selValid (s : State) (t : Nat) : Bool :=
  let v := s.rd .pix (PIX_TBL_SEL t)
  let x := s.pixStream t
  let ts := streamTiles s t
  let valid (kind ctx : Nat) : Bool := !ts.isEmpty && ts.all (fun k => (s.tileBank k kind ctx (!x.sel kind)).isSome)
  (!bit v 0 || valid 0 0) && (!bit v 1 || valid 1 0) && (!bit v 2 || (List.range 4).any (valid 2))

/-- The shadow set keeps R149 and R150. -/
def shadowShape (s : State) (t : Nat) : Bool :=
  let c := s.rd .pix (PIX_OUT_CTRL t)
  let n := s.fld .pix (PIX_STRIP t) 15 0 + 1
  areaMode s t || ((!bit c 30 || n % 2 ^ bits c 29 28 == 0) && (!bit c 27 || n % 2 == 0))

/-- CMODE is FIXED with context 0, or the stream is on context tiles (R155, R157). -/
def shadowCtx (s : State) (t : Nat) : Bool :=
  let c := s.rd .pix (PIX_CTX_CTRL t)
  (bits c 31 30 == 0 && bits c 29 28 == 0) || onContextTiles s t

/-- Whether an arm is accepted (R155, R165, R250).  A stream without tiles has no classifier bank that could be invalid
(R246; DEDUCED, log 141). -/
def armGood (s : State) (t : Nat) : Bool :=
  streamOn s t && !s.flag .pix (PIX_STATUS t) 2 && selValid s t && shadowShape s t && shadowCtx s t &&
    !s.flag .obj (OBJ_STATUS t) 6 && !swapHolds s t &&
    (!hasTiles s t || clsValid s t (s.flag .obj (OBJ_CLS_SEL t) 31))

/-- ARM (R154, R155): whether it was accepted is ARM's value afterwards. -/
def State.arm (s : State) (t : Nat) : State :=
  if s.flag .pix (PIX_ARM t) 31 then s
  else if armGood s t then
    (s.setb .pix (PIX_ARM t) 31 true).onPix t (fun x => { x with armStarts := 0 })
  else s.setb .pix (PIX_STATUS t) 3 true

/-- DISARM (R155). -/
def State.disarm (s : State) (t : Nat) : State :=
  if s.flag .pix (PIX_ARM t) 31 then
    (s.setb .pix (PIX_ARM t) 31 false).setb .pix (PIX_ARM_STATUS t) 30 true
  else s

/-- A write to PIX_ARM: ARM, then DISARM. -/
def State.pixArmWrite (s : State) (t : Nat) (v : Word) : State :=
  let s := if bit v 31 then s.arm t else s
  if bit v 30 then s.disarm t else s

/-- PIX_ARM (R154, R155). -/
def execPixArm (t : Fin 96) (s : State) : Host.Outcome State Fault Refusal := .next (s.arm t)

/-- PIX_DISARM (R155). -/
def execPixDisarm (t : Fin 96) (s : State) : Host.Outcome State Fault Refusal := .next (s.disarm t)

/-- A write to a shadow register at an offset from 0x100 on (R155). -/
def State.shadowWrite (s : State) (t off : Nat) (v : Word) : State :=
  if s.flag .pix (PIX_ARM t) 31 then s.setb .pix (PIX_STATUS t) 5 true
  else s.store .pix (PIX_SRC t + off) v

/-- SHADOW_WRITE (R154, R155): register number k of the shadow set, at 0x100 + 4k. -/
def execShadowWrite (t : Fin 96) (k : Fin 128) (v : Word) (s : State) : Host.Outcome State Fault Refusal :=
  .next (s.shadowWrite t (0x100 + 4 * k) v)

/-! ### Table loads (R156) -/

/-- The size a table must have (R156). -/
def tableSizeOk (s : State) (t kind len : Nat) : Bool :=
  match kind with
  | 0 => len == streamWidth s t * streamComps s t * 4
  | 1 => len % 4 == 0 && decide (len ≤ 4096)
  | 2 => len == 32768
  | _ => false

/-- A write to PIX_TBL_CMD (R155, R156, R157, R250). -/
def State.pixLoad (s : State) (t : Nat) (v : Word) : State :=
  if s.flag .pix (PIX_ARM t) 31 then s.setb .pix (PIX_STATUS t) 5 true
  else if !bit v 31 then s.store .pix (PIX_TBL_CMD t) v
  else if s.flag .pix (PIX_STATUS t) 2 then s.setb .pix (PIX_STATUS t) 7 true
  else if swapHolds s t then s.setb .pix (PIX_STATUS t) 4 true
  else
    let kind := bits v 30 28
    let ctx := if kind = 2 then bits v 27 26 else 0
    let len := (s.rd .pix (PIX_TBL_LEN t)).toNat
    if !tableSizeOk s t kind len || !hasTiles s t || (ctx != 0 && !onContextTiles s t) then
      (s.store .pix (PIX_TBL_CMD t) (putBit v 31 false)).setb .pix (PIX_STATUS t) 7 true
    else
      let x := s.pixStream t
      let b := !x.sel kind
      let a := s.rd64 .pix (PIX_TBL_ADDR_LO t) (PIX_TBL_ADDR_HI t)
      let s := (s.store .pix (PIX_TBL_CMD t) v).setb .pix (PIX_STATUS t) 2 true
      s.onPix t (fun x => { x with load := some ⟨kind, ctx, a, len, b, streamTiles s t⟩ })

/-- PIX_TBL_LOAD (R156): a write to PIX_TBL_CMD. -/
def execPixTblLoad (t : Fin 96) (v : Word) (s : State) : Host.Outcome State Fault Refusal := .next (s.pixLoad t v)

/-- A defect map is in ascending order of row, then column (R140). -/
def defectOrdered (bs : List Byte) : Bool :=
  let k (i : Nat) : Nat := leAt bs (4 * i) 2 * 65536 + leAt bs (4 * i + 2) 2
  (List.range (bs.length / 4 - 1)).all (fun i => decide (k i < k (i + 1)))

/-- The bank a load aims at is in use (R156). -/
def PixStream.inUse (x : PixStream) (l : LoadSt) : Bool := x.sel l.kind == l.bank

/-- PIX_TBL_LOAD_DONE (R156, R304): the copy ends. -/
def execPixTblLoadDone (t : Fin 96) (s : State) : Host.Outcome State Fault Refusal :=
  .next (match (s.pixStream t).load with
    | none => s
    | some l =>
      let s := (s.setb .pix (PIX_TBL_CMD t) 31 false).setb .pix (PIX_STATUS t) 2 false
      let s := s.onPix t (fun x => { x with load := none })
      if (s.pixStream t).inUse l then s.setb .pix (PIX_STATUS t) 4 true
      else
        let bs := ergRead s l.addr l.len
        let bad := ergPoisoned s l.addr l.len
        let s := s.ergMeet l.addr l.len
        if bad || (l.kind == 1 && !defectOrdered bs) then
          (s.putBanks l.tiles l.kind l.ctx l.bank none).setb .pix (PIX_STATUS t) 7 true
        else s.putBanks l.tiles l.kind l.ctx l.bank (some bs))

end Sys2Proof.Machine
end

