-- ==== Sys2Proof/Machine/Channels.lean ====
section
/-! DEFINITION. What host memory and the DMA channels have in common: writes and requests to host memory with their
packets and tags (R253, R270, R287), the state of a channel and its rate limiter (R283, R285). -/
namespace Sys2Proof.Machine

/-! ### Packets and tags (R253, R287) -/

/-- Max Payload Size and Max Read Request Size in bytes (R251). -/
def mpsBytes (s : State) : Nat := 128 * 2 ^ s.host.cfg.mps.val
def mrrsBytes (s : State) : Nat := 128 * 2 ^ s.host.cfg.mrrs.val

/-- Bytes of an access at an address up to a limit and to the 4 KB boundary (R253). -/
def tlpLen (limit a n : Nat) : Nat := min n (min limit (4096 - a % 4096))

/-- An access of n bytes in packets of at most limit bytes, none across a 4 KB boundary (R253). -/
def tlpSplit (limit : Nat) : Nat → Nat → Nat → List (Nat × Nat)
  | 0, _, _ => []
  | fuel + 1, a, n =>
    if n = 0 then []
    else
      let k := tlpLen limit a n
      (a, k) :: tlpSplit limit fuel (a + k) (n - k)

/-- Write host memory: the bytes, and the packets that carry them; `strict` excludes Relaxed Ordering (R253, R270). -/
def State.hostPut (s : State) (a : Nat) (bs : List Byte) (strict : Bool) (tph : Option (Nat × Nat)) : State :=
  { s with host := { s.host with
    mem := Tab.setList (fun _ => 0#8) s.host.mem a bs
    tlps := (tlpSplit (mpsBytes s) (bs.length / 64 + 2) a bs.length).map (fun p =>
      ⟨p.1, p.2, !strict && Config.relaxed, tph⟩) } }

/-- A write to host memory that carries no TPH. -/
def State.hostWrite (s : State) (a : Nat) (bs : List Byte) : State := s.hostPut a bs false none

/-- Tags Apnik has for requests to host memory (R251, R287); 10-bit tags at 32 and 16 GT/s. -/
def tagPool (s : State) : Nat :=
  let c := s.host.cfg
  if c.flit then 4096 else if c.tags10 && (c.speed.val == 3 || c.speed.val == 4) then 768 else 256

/-- Tags kept for verdict and descriptor fetches (R287). -/
def fetchTags (s : State) : Nat := max 32 (tagPool s / 8)

/-- Requests that are still out. -/
def reqsOut (s : State) : List HostReq := s.host.reqs.filter (fun r => decide (s.now < r.back))

def State.dmaCh (s : State) (n : Nat) : DmaCh := Tab.get (fun _ => DmaCh.init) s.dma.ch n

/-- Fence reads that are out. -/
def fencesOut (s : State) : Nat := ((List.range 64).filter (fun n => (s.dmaCh n).fenceOut)).length

/-- A tag is free for a fetch, or for a read of a channel (R287). -/
def tagFree (s : State) (ch : Option Nat) : Bool :=
  let used := ((reqsOut s).filter (fun r => r.ch.isSome == ch.isSome)).length
  decide (if ch.isSome then used + fencesOut s < tagPool s - fetchTags s else used < fetchTags s)

/-- Send a request whose data are back after a time: it holds a tag until then (R287). -/
def State.request (s : State) (ch : Option Nat) (late : Nat) : State :=
  { s with host := { s.host with reqs := reqsOut s ++ [⟨ch, s.now + late⟩] } }

/-- A channel has reads of host memory out. -/
def chReads (s : State) (n : Nat) : Bool := (reqsOut s).any (fun r => r.ch == some n)

/-! ### Channels (R283, R285) -/

def State.onDma (s : State) (n : Nat) (f : DmaCh → DmaCh) : State :=
  { s with dma := { s.dma with ch := Tab.upd (fun _ => DmaCh.init) s.dma.ch n f } }

/-- STATE of a channel: 0 IDLE, 1 RUNNING, 2 PAUSED, 3 HALTED. -/
def chState (s : State) (n : Nat) : Nat := s.fld .dma (DMA_CH_STATUS n) 31 30

/-- The channel has a link pause (R254). -/
def linkPaused (s : State) (n : Nat) : Bool := s.flag .dma (DMA_CH_STATUS n) 29

/-- Bytes per ns of the bus a channel loads: PCIe, or a stack of the Erg (R283). -/
def busRate (host : Bool) : Nat := if host then 121 else 1020

/-- Growth of a channel's credit, in 1/256 bytes per ns (R283). -/
def creditRate (s : State) (n : Nat) (host : Bool) : Nat := s.fld .dma (DMA_CH_RATE n) 24 16 * busRate host

/-- Credit of a channel now, in 1/256 bytes (R283). -/
def creditNow (s : State) (n : Nat) (host : Bool) : Nat :=
  let x := s.dmaCh n
  capNat (65536 * 256) (x.credit + creditRate s n host * (s.now - x.creditAt))

/-- Count the credit up to now: its SHARE or its bus changes (R283). -/
def State.creditSettle (s : State) (n : Nat) (host : Bool) : State :=
  s.onDma n (fun x => { x with credit := creditNow s n host, creditAt := max x.creditAt s.now })

/-- Credit and GAP allow a burst of n bytes (R283). -/
def burstAllowed (s : State) (ch : Nat) (host : Bool) (n : Nat) : Bool :=
  let share := s.fld .dma (DMA_CH_RATE ch) 24 16
  let gap := s.fld .dma (DMA_CH_RATE ch) 15 0
  (share == 256 && gap == 0) ||
    (decide (n * 256 ≤ creditNow s ch host) &&
      (match (s.dmaCh ch).burstAt with
        | some t => decide (t + gap ≤ s.now)
        | none => true))

/-- A burst of n bytes starts (R283). -/
def State.burstTake (s : State) (ch : Nat) (host : Bool) (n : Nat) : State :=
  s.onDma ch (fun x => { x with
    burstAt := some s.now, creditAt := max x.creditAt s.now, credit := creditNow s ch host - n * 256 })

/-! ### Copies to a data area on a channel (R268, R270) -/

/-- A copy of n bytes may start on a channel: it is neither PAUSED nor HALTED, and its first burst may start. -/
def copyFree (s : State) (ch n : Nat) : Bool :=
  n == 0 || (decide (chState s ch ≤ 1) && !linkPaused s ch && burstAllowed s ch true (min n (mpsBytes s)))

/-- A copy of n bytes uses its channel: credit it lacks is time in which the channel's credit does not grow, and its
bursts stand GAP apart (log 109). -/
def State.copyTake (s : State) (ch n : Nat) : State :=
  if n = 0 then s
  else
    let have' := creditNow s ch true
    let rate := max 1 (creditRate s ch true)
    let owed := n * 256 - have'
    let bursts := (n + mpsBytes s - 1) / mpsBytes s
    s.onDma ch (fun x => { x with
      burstAt := some (s.now + (bursts - 1) * s.fld .dma (DMA_CH_RATE ch) 15 0)
      credit := have' - n * 256, creditAt := max x.creditAt (s.now + (owed + rate - 1) / rate) })

end Sys2Proof.Machine
end

