-- ==== Sys2Proof/Machine/Clients.lean ====
section
/-! DEFINITION. Clients, their rings in host memory, the write-back block and interrupts, and the delivery of
records and data (R259 to R273). -/
namespace Sys2Proof.Machine

/-! ### Rings (R260, R261) -/

/-- Bytes of an entry of ring r: 0 record, 1 verdict, 2 completion, 3 error, 4 descriptor (R261). -/
def entryBytes (r : Nat) : Nat :=
  match r with
  | 0 => 256
  | 1 => 16
  | 4 => 64
  | _ => 32

/-- A client is bound (R259). -/
def bound (s : State) (c : Nat) : Bool := decide (c < 1024) && s.flag .host (HST_CLI_ID c) 31

/-- The function of a client. -/
def cliFn (s : State) (c : Nat) : Nat := s.fld .host (HST_CLI_ID c) 21 16

/-- A ring of a client is enabled. -/
def ringOn (s : State) (c r : Nat) : Bool := bound s c && s.flag .host (HST_CLI_CTRL c) (31 - r)

/-- Entries a ring holds (R261). -/
def ringUsed (s : State) (c r : Nat) : Nat := (s.rd .host (HST_CLI_PROD c r) - s.rd .host (HST_CLI_CONS c r)).toNat

/-- Entries a ring has. -/
def ringSize (s : State) (c r : Nat) : Nat := 2 ^ s.fld .host (HST_CLI_SIZE c r) 4 0

/-- The host address of the slot of an index. -/
def ringSlot (s : State) (c r i : Nat) : Nat :=
  s.rd64 .host (HST_CLI_BASE_LO c r) (HST_CLI_BASE_HI c r) + i % ringSize s c r * entryBytes r

/-- Room for one more entry, by size and by quota (R267, R269, R272). -/
def ringRoom (s : State) (c r : Nat) : Bool :=
  let u := ringUsed s c r
  decide (u < ringSize s c r) &&
    (if r = 0 then decide (u < (s.rd .host (HST_CLI_Q_REC c)).toNat)
    else if r = 2 then decide (u < (s.rd .host (HST_CLI_Q_CPL c)).toNat)
    else true)

/-- Pinned segments of a client. -/
def pinnedSegs (s : State) (c : Nat) : Nat := ((clientSegs s c).filter (fun n => (segOf s n).pinned)).length

/-- The use registers and the quota flags of a client (R260, R288, R289). -/
def State.cliSync (s : State) (c : Nat) : State :=
  if !bound s c then s
  else
    let rec0 := ringUsed s c 0
    let cpl := ringUsed s c 2
    let segs := (clientSegs s c).length
    let quota := (s.rd .host (HST_CLI_Q_ERG c)).toNat
    let s := s.wr .host (HST_CLI_USE_REC c) (BitVec.ofNat 32 rec0)
    let s := s.wr .host (HST_CLI_USE_CPL c) (BitVec.ofNat 32 cpl)
    let s := s.wr .host (HST_CLI_USE_ERG c) (BitVec.ofNat 32 segs)
    let over' := decide ((s.rd .host (HST_CLI_Q_REC c)).toNat ≤ rec0) || decide ((s.rd .host (HST_CLI_Q_CPL c)).toNat ≤ cpl)
    let s := s.setb .host (HST_CLI_STATUS c) 31 over'
    if segs ≤ quota then s.setb .host (HST_CLI_STATUS c) 30 false
    else if quota < pinnedSegs s c then s.setb .host (HST_CLI_STATUS c) 30 true else s

/-! ### Write-back block and interrupts (R262, R263) -/

/-- Write the client's write-back block (R262). -/
def State.writeBack (s : State) (c : Nat) : State :=
  if !ringOn s c 0 || !s.host.up then s
  else
    let s := s.onClient c (fun x => { x with hb := (x.hb + 1) % 2 ^ 32, wbAt := s.now })
    let w (r : Word) : List Byte := leBytes 4 r.toNat
    s.hostPut (s.rd64 .host (HST_CLI_WB_LO c) (HST_CLI_WB_HI c))
      (w (s.rd .host (HST_CLI_PROD c 0)) ++ w (s.rd .host (HST_CLI_PROD c 2)) ++ w (s.rd .host (HST_CLI_PROD c 3)) ++
        w (s.rd .host (HST_CLI_CONS c 1)) ++ w (s.rd .host (HST_CLI_CONS c 4)) ++ leBytes 4 (s.client c).hb ++
        leBytes 8 s.now ++ w (s.rd .host (HST_CLI_STATUS c)) ++ leBytes 28 0) true none

/-- Key of a vector: its function and its entry. -/
def vecKey (fn v : Nat) : Nat := fn * 4096 + v

/-- Word w of an entry of a function's MSI-X table: address, its upper half, data, vector control (R256). -/
def msixWord (s : State) (fn v w : Nat) : Word := Tab.get msixReset s.host.msix (vecKey fn v * 4 + w)

/-- The message of a vector: its data are written at its address; its pending bit clears (R256, R263). -/
def State.vectorSend (s : State) (fn v : Nat) : State :=
  let k := vecKey fn v
  let s := s.hostPut (join32 (msixWord s fn v 0) (msixWord s fn v 1)) (leBytes 4 (msixWord s fn v 2).toNat) true none
  { s with host := { s.host with
    sent := Tab.upd (fun _ => 0) s.host.sent k (fun n => n + 1)
    vecPend := Tab.set (fun _ => false) s.host.vecPend k false } }

/-- Send a vector of a function: one that is masked, or that the link cannot carry, is pending (R254, R263; log 106). -/
def State.vector (s : State) (fn v : Nat) : State :=
  if bit (msixWord s fn v 3) 0 || !s.host.up then
    { s with host := { s.host with vecPend := Tab.set (fun _ => false) s.host.vecPend (vecKey fn v) true } }
  else s.vectorSend fn v

/-- Send the vectors that are pending and no longer masked. -/
def State.vectorsDue (s : State) : State :=
  if !s.host.up then s
  else s.each (s.host.vecPend.filter (fun e => e.2 && !bit (msixWord s (e.1 / 4096) (e.1 % 4096) 3) 0))
    (fun s e => s.vectorSend (e.1 / 4096) (e.1 % 4096))

/-- Send the client's vector (R263). -/
def State.interrupt (s : State) (c : Nat) : State :=
  (s.vector (cliFn s c) (s.fld .host (HST_CLI_CTRL c) 10 0)).onClient c
    (fun x => { x with fresh := 0, firstNew := none })

/-- The vector is due by COUNT (R263). -/
def cliCountDue (s : State) (c : Nat) : Bool :=
  s.flag .host (HST_CLI_CTRL c) 26 && decide (0 < (s.client c).fresh) &&
    decide (s.fld .host (HST_CLI_INTMOD c) 15 0 ≤ (s.client c).fresh)

/-- A group of entries was written: record and completion entries, or an error entry.  The write-back block
follows, then the vector if it is due (R262, R263). -/
def State.cliWrote (s : State) (c n : Nat) (err : Bool) : State :=
  let s := (s.cliSync c).writeBack c
  let s := if n = 0 then s else s.onClient c (fun x => { x with
    fresh := x.fresh + n, firstNew := some (x.firstNew.getD s.now) })
  if s.flag .host (HST_CLI_CTRL c) 26 && (err || cliCountDue s c) then s.interrupt c else s

/-- Write an entry at PROD with SEQ in bytes 4 to 7 (R265); records carry the client's ST and PH (R253, R270). -/
def State.ringPut (s : State) (c r : Nat) (bs : List Byte) : State :=
  let p := s.rd .host (HST_CLI_PROD c r)
  let tph := if r = 0 then some (s.fld .host (HST_CLI_TPH c) 7 0, s.fld .host (HST_CLI_TPH c) 9 8) else none
  let s := s.hostPut (ringSlot s c r p.toNat) (padTo (entryBytes r) (patch bs 4 (leBytes 4 p.toNat))) (r == 0) tph
  s.wr .host (HST_CLI_PROD c r) (p + 1#32)

/-! ### Gaps (R269, R272, R273) -/

/-- Entries dropped for a client between two instants join the gap owed. -/
def GapSt.add (g : Option GapSt) (n first last : Nat) : Option GapSt :=
  match g with
  | none => some ⟨n, first, last⟩
  | some g => some { g with count := g.count + n, last := last }

/-- Write the gap entry owed to a ring, if it has room (R269, R272, R273). -/
def State.gapPut (s : State) (c r : Nat) : State × Nat :=
  let x := s.client c
  if !ringOn s c r || !s.host.up || !ringRoom s c r then (s, 0)
  else
    let gapSet (s : State) : State := s.setb .host (HST_CLI_STATUS c) 5 true
    match r with
    | 0 => match x.recGap with
      | some g =>
        ((gapSet (s.ringPut c 0 (leBytes 8 4 ++ leBytes 4 (capNat 0xFFFFFFFF g.count) ++ leBytes 4 0 ++
          leBytes 8 g.first ++ leBytes 8 g.last))).onClient c (fun x => { x with recGap := none }), 1)
      | none => (s, 0)
    | 2 => match x.cplGap with
      | some g =>
        ((gapSet (s.ringPut c 2 (leBytes 8 2 ++ leBytes 4 (capNat 0xFFFFFFFF g.count)))).onClient c
          (fun x => { x with cplGap := none }), 1)
      | none => (s, 0)
    | 3 =>
      if x.errGap = 0 then (s, 0)
      else ((gapSet (s.ringPut c 3 (leBytes 2 6 ++ leBytes 2 c ++ leBytes 4 0 ++ leBytes 8 s.now ++
          leBytes 4 (capNat 0xFFFFFFFF x.errGap)))).onClient c (fun x => { x with errGap := 0 }), 1)
    | _ => (s, 0)

/-- GAP_WRITE (R269, R272, R273): rings 0 record, 2 completion, 3 error. -/
def execGapWrite (c : Fin 1024) (r : Fin 5) (s : State) : Host.Outcome State Fault Refusal :=
  let p := s.gapPut c r
  .next (if p.2 = 0 then s else p.1.cliWrote c (if r.val = 3 then 0 else p.2) (r.val == 3))

/-! ### Entries -/

/-- A record entry for a client, behind the gap owed; dropped for this client alone when its ring is off or
has no room (R267, R269).  The entry is made for its index. -/
def State.recordPut (s : State) (c : Nat) (mk : State → Nat → State × List Byte) : State :=
  if !bound s c then s
  else
    let g := s.gapPut c 0
    let s := g.1
    if !ringOn s c 0 || !ringRoom s c 0 then
      let s := s.count .host (HST_CLI_CNT_REC_DROP c)
      let s := s.onClient c (fun x => { x with recGap := GapSt.add x.recGap 1 s.now s.now })
      if g.2 = 0 then s.cliSync c else s.cliWrote c 1 false
    else
      let p := mk s (s.rd .host (HST_CLI_PROD c 0)).toNat
      (p.1.ringPut c 0 p.2).cliWrote c (g.2 + 1) false

/-- A completion entry (R272); one that cannot be written while the link is down is dropped like one that
finds no room. -/
def State.completionPut (s : State) (c : Nat) (bs : List Byte) : State :=
  if !bound s c then s
  else
    let g := s.gapPut c 2
    let s := g.1
    if !ringOn s c 2 || !s.host.up || !ringRoom s c 2 then
      let s := s.count .host (HST_CLI_CNT_CPL_DROP c)
      let s := s.onClient c (fun x => { x with cplGap := GapSt.add x.cplGap 1 s.now s.now })
      if g.2 = 0 then s.cliSync c else s.cliWrote c 1 false
    else (s.ringPut c 2 bs).cliWrote c (g.2 + 1) false

/-- The ring index a completion entry would take now. -/
def completionSlot (s : State) (c : Nat) : Option Word :=
  let g := (s.gapPut c 2).1
  if bound s c && ringOn g c 2 && g.host.up && ringRoom g c 2 then some (g.rd .host (HST_CLI_PROD c 2)) else none

/-- An error entry (R273): discarded while ERR_EN is 0, dropped and counted when the ring is full or the link
is down. -/
def State.errorPut (s : State) (c type status : Nat) (detail : List Byte) : State :=
  if !ringOn s c 3 then s
  else
    let g := s.gapPut c 3
    let s := g.1
    if !s.host.up || !ringRoom s c 3 then
      let s := (s.count .host (HST_CLI_CNT_ERR_DROP c)).onClient c (fun x => { x with errGap := x.errGap + 1 })
      if g.2 = 0 then s else s.cliWrote c 0 true
    else
      (s.ringPut c 3 (leBytes 1 type ++ leBytes 1 status ++ leBytes 2 c ++ leBytes 4 0 ++ leBytes 8 s.now ++
        padTo 16 detail)).cliWrote c 0 true

/-- HEARTBEAT (R262): at least once in every 1 ms. -/
def execHeartbeat (c : Fin 1024) (s : State) : Host.Outcome State Fault Refusal := .next (s.writeBack c)

/-- INT_TIME_EXPIRE (R263). -/
def execIntTimeExpire (c : Fin 1024) (s : State) : Host.Outcome State Fault Refusal :=
  .next (match (s.client c).firstNew with
    | some t =>
      if s.flag .host (HST_CLI_CTRL c) 26 ∧ s.host.up ∧ t + s.fld .host (HST_CLI_INTMOD c) 31 16 * 1000 ≤ s.now then
        s.interrupt c
      else s
    | none => s)

/-! ### Controls and doorbells (R260, R261) -/

/-- Entries of a function's MSI-X table (R258). -/
def vecEntries (s : State) (fn : Nat) : Nat :=
  if fn = 0 then 64 else Tab.get (fun _ => 31) s.host.vecSize fn

/-- A write to HST_CLI_CTRL (R260, R261): a ring that goes on starts empty. -/
def State.cliCtrlWrite (s : State) (c : Nat) (v : Word) : State :=
  if !bound s c then s
  else
    let old := s.rd .host (HST_CLI_CTRL c)
    let badVec := decide (vecEntries s (cliFn s c) ≤ bits v 10 0)
    let new := putBits (putBits 0#32 31 26 (bits v 31 26)) 10 0 (if badVec then bits old 10 0 else bits v 10 0)
    let s := s.wr .host (HST_CLI_CTRL c) new
    let s := if badVec then s.setb .host (HST_CLI_STATUS c) 7 true else s
    let s := s.each (idxs 5 (fun r => !bit old (31 - r) && bit v (31 - r))) (fun s r =>
      (s.wr .host (HST_CLI_PROD c r) 0#32).wr .host (HST_CLI_CONS c r) 0#32)
    let s := s.cliSync c
    if cliCountDue s c && s.host.up then s.interrupt c else s

/-- A write to HST_CLI_INTMOD (R263): a COUNT below what was written since the last interrupt makes it due. -/
def State.intmodWrite (s : State) (c : Nat) (v : Word) : State :=
  let s := s.store .host (HST_CLI_INTMOD c) v
  if cliCountDue s c && s.host.up then s.interrupt c else s

/-- CLIENT_CTRL_WRITE (R261). -/
def execClientCtrlWrite (c : Fin 1024) (v : Word) (s : State) : Host.Outcome State Fault Refusal :=
  .next (s.cliCtrlWrite c v)

/-- A doorbell write: the pointer the host owns, unless the ring would hold too many or too few (R261). -/
def State.doorbell (s : State) (c r : Nat) (v : Word) : State :=
  if !ringOn s c r then s
  else
    let n := if r = 1 ∨ r = 4 then (v - s.rd .host (HST_CLI_CONS c r)).toNat
      else (s.rd .host (HST_CLI_PROD c r) - v).toNat
    if ringSize s c r < n then s.setb .host (HST_CLI_STATUS c) 6 true
    else if r = 1 ∨ r = 4 then s.wr .host (HST_CLI_PROD c r) v
    else (s.wr .host (HST_CLI_CONS c r) v).cliSync c

/-- CONS_DOORBELL (R261): rings 0 record, 2 completion, 3 error. -/
def execConsDoorbell (c : Fin 1024) (r : Fin 5) (v : Word) (s : State) : Host.Outcome State Fault Refusal :=
  .next (if r.val = 1 ∨ r.val = 4 then s else s.doorbell c r v)

/-- VERDICT_DOORBELL (R261, R271). -/
def execVerdictDoorbell (c : Fin 1024) (v : Word) (s : State) : Host.Outcome State Fault Refusal :=
  .next (s.doorbell c 1 v)

/-- DESC_DOORBELL (R261). -/
def execDescDoorbell (c : Fin 1024) (v : Word) (s : State) : Host.Outcome State Fault Refusal :=
  .next (s.doorbell c 4 v)

/-! ### Verdicts (R271) -/

/-- Entries of a client whose read is out or whose data the verdict stage has not taken. -/
def verdictsFlying (s : State) (c : Nat) : Nat := (s.host.flights.filter (fun f => f.client == c)).length

/-- A client has verdicts to fetch. -/
def verdictsWait (s : State) (c : Nat) : Bool := ringOn s c 1 && decide (verdictsFlying s c < ringUsed s c 1)

/-- It is a client's turn: those with pending entries are served in turn, from the one served last upward (R271). -/
def verdictTurn (s : State) (c : Nat) : Bool :=
  let d := (c + 1023 - s.host.turn) % 1024
  verdictsWait s c && !(List.range d).any (fun k => verdictsWait s ((s.host.turn + 1 + k) % 1024))

/-- Fetch verdict entries of a client: up to 16 in one read, whose data are here after a time; they go to the verdict
stage in ring order (R271, R287).  Entries whose read is out are fetched when their data are taken (log 110). -/
def State.fetchVerdicts (s : State) (c : Nat) (es : List (BitVec 128)) (late : Nat) : State :=
  let k := verdictsFlying s c
  let n := min 16 (min (ringUsed s c 1 - k) es.length)
  if !verdictTurn s c || !s.host.up || n = 0 || !tagFree s none then s
  else
    let s := s.request none late
    let at' (i : Nat) : Word := s.rd .host (HST_CLI_CONS c 1) + BitVec.ofNat 32 (k + i)
    { s with host := { s.host with
      turn := c, flights := s.host.flights ++ (es.take n).mapIdx (fun i e => ⟨c, at' i, e, s.now + late⟩) } }

/-- A fetched entry is counted and VER_CONS moves past it (R271), as long as the ring still stands at it. -/
def State.verdictFetched (s : State) (f : Flight) : State :=
  let s := s.count .host (HST_CLI_CNT_VER_FETCHED f.client)
  if ringOn s f.client 1 && s.rd .host (HST_CLI_CONS f.client 1) == f.idx then
    (s.wr .host (HST_CLI_CONS f.client 1) (f.idx + 1#32)).writeBack f.client
  else s

/-- VERDICT_FETCH (R271): a read of the verdict ring that returns these entries after `late` ns. -/
def execVerdictFetch (c : Fin 1024) (entries : List (BitVec 128)) (late : Nat) (s : State) :
    Host.Outcome State Fault Refusal :=
  .next (s.fetchVerdicts c entries late)

/-- HOST_VERDICT (R198, R271, R273): the oldest fetched entry, once its data are here, arrives at the verdict stage; a
refused one is reported. -/
def execHostVerdict (s : State) : Host.Outcome State Fault Refusal :=
  .next (match s.host.flights with
    | [] => s
    | f :: rest =>
      if s.now < f.back then s
      else
        let e := f.entry
        let p := (({ s with host := { s.host with flights := rest } } : State).verdictFetched f).verdictArrive f.client e
        match p.2 with
        | none => p.1
        | some code => p.1.errorPut f.client 1 code (leBytes 8 (e.toNat % 2 ^ 64) ++ leBytes 1 (nbits e.toNat 71 64)))

/-! ### Record delivery (R267, R268) -/

/-- Host address and size of a client's data area (R260). -/
def dataArea (s : State) (c : Nat) : Nat × Nat :=
  (s.rd64 .host (HST_CLI_DATA_LO c) (HST_CLI_DATA_HI c), s.fld .host (HST_CLI_DATA_SIZE c) 23 0 * 4096)

/-- Write at an offset of a client's data area; false if it does not lie inside. -/
def State.dataPut (s : State) (c off : Nat) (bs : List Byte) : State × Bool :=
  let d := dataArea s c
  if off + bs.length ≤ d.2 then (s.hostWrite (d.1 + off) bs, true) else (s, false)

/-- A completion entry of a channel (R272). -/
def completionEntry (s : State) (status ch flags serial tries cause tag : Nat) : List Byte :=
  [1#8] ++ leBytes 1 status ++ leBytes 1 ch ++ leBytes 1 flags ++ leBytes 4 0 ++ leBytes 4 serial ++ leBytes 1 tries ++
    leBytes 1 cause ++ leBytes 2 0 ++ leBytes 8 s.now ++ leBytes 8 tag

/-- Clients whose data area has a record's cut-outs already (R268). -/
def cutGot (s : State) (rec : List Byte) : List Nat :=
  (viewStreams rec).flatMap (fun t =>
    ((Tab.get (fun _ => ObjStream.init) s.obj.stream t).staging.filter (fun e =>
      e.released && e.handle == leAt rec 8 8)).flatMap (fun e => e.got))

/-- Bytes of a record's cut-outs: of view A, and of view B that NEXT_ADDR names (R268). -/
def cutSizes (s : State) (rec : List Byte) : Nat × Nat :=
  let n := leAt rec 61 3
  (n, if n = 0 then 0 else leAt (ergRead s (leAt rec 56 5) 64) 33 3)

/-- Copy a record's cut-outs to a client before its entry of an index, on the route's channel (R268).  A copy that fails is reported in
the completion ring; SERIAL and TAG of that entry are not given. -/
def State.copyCuts (s : State) (c : Nat) (route rec : List Byte) (seq : Nat) : State :=
  let a := leAt rec 56 5
  let n := leAt rec 61 3
  if n = 0 ∨ (cutGot s rec).contains c then s
  else
    let s := s.onStaged rec (fun e => { e with got := e.got ++ [c] })
    let hdr := ergRead s a 64
    let b := leAt hdr 28 5
    let m := leAt hdr 33 3
    if leAt route 16 4 < n + m then s.count .host (HST_CLI_CNT_CUT_NOFIT c)
    else
      let off := leAt route 24 8 + seq % leAt route 20 4 * leAt route 16 4
      let bad := ergPoisoned s a n || (decide (0 < m) && ergPoisoned s b m)
      let s := ((s.copyTake (leAt route 2 1) (n + m)).ergMeet a n).ergMeet b m
      let p := s.dataPut c off (ergRead s a n ++ ergRead s b m)
      if !bad && p.2 then p.1
      else
        let sn := s.drawn 32
        let tag := s.draw.drawn 64
        s.draw.draw.completionPut c (completionEntry s (if bad then 9 else 2) (leAt route 2 1) 0 sn.toNat 0
          (if bad then 5 else 0) tag.toNat)

/-- A client of a KIND 0 route takes a record (R264, R266). -/
def takesCopy (type cli : Nat) : Bool :=
  match type with
  | 1 => tbit cli 12
  | 3 => tbit cli 13
  | _ => true

/-- Deliver a record to one client of the route. -/
def State.deliverTo (s : State) (route rec : List Byte) (cli : Nat) : State :=
  let type := leAt rec 0 1
  let c := cli % 1024
  if !takesCopy type cli then s
  else s.recordPut c (fun s seq =>
    (if tbit cli 14 && type != 2 then s.copyCuts c route rec seq else s, rec))

/-- Bytes of cut-outs that a record's delivery copies now: to the clients that take it with CUT, have room for it and
hold no copy yet (R268). -/
def cutsDue (s : State) (route rec : List Byte) (clis : List Nat) : Nat :=
  let z := cutSizes s rec
  let due := clis.filter (fun cli =>
    let c := cli % 1024
    takesCopy (leAt rec 0 1) cli && tbit cli 14 && leAt rec 0 1 != 2 && ringOn s c 0 && ringRoom s c 0 &&
      !(cutGot s rec).contains c)
  if z.1 = 0 ∨ leAt route 16 4 < z.1 + z.2 then 0 else due.length * (z.1 + z.2)

/-- Internal delivery of a queue runs (R254, R314). -/
def delivers (s : State) (q : Nat) : Bool :=
  s.host.up && s.host.ready && !s.flag .erg (qAddr q 0x4) 30 && (s.ergQ q).part.isEmpty

/-- Take the head of a stream's record queue and deliver it (R267, R268), once the channel of the route may copy its
cut-outs; a marker becomes a gap for each
client of the route (R267, R269). -/
def State.recordDeliver (s : State) (t : Nat) : State :=
  let q := qOf t 0
  if !delivers s q then s
  else match (s.ergQ q).items with
    | [] => s
    | it :: _ =>
      if qHeadBad s q then s.qDiscard q
      else
        let route := routeAt s t 0 (routeIdx s t 0)
        let clis := match route with
          | some r => routeClients r
          | none => []
        let waits := match itemBytes it with
          | some b => !copyFree s (leAt (route.getD []) 2 1) (cutsDue s (route.getD []) b clis)
          | none => false
        if waits then s
        else
        let s := match itemBytes it with
          | none =>
            let n := (it.headD 0#64).toNat % 2 ^ 32
            let tb := ((s.ergQ q).marks.head?).getD (s.now, s.now)
            (s.qRead q).each clis (fun s cli => if n = 0 ∨ ¬ bound s (cli % 1024) then s else
              s.onClient (cli % 1024) (fun x => { x with recGap := GapSt.add x.recGap n tb.1 tb.2 }))
          | some b => (s.qRead q).each clis (fun s cli => s.deliverTo (route.getD []) b cli)
        s.qTake q

/-- RECORD_DELIVER (R267). -/
def execRecordDeliver (t : Fin 96) (s : State) : Host.Outcome State Fault Refusal := .next (s.recordDeliver t)

/-- STAGING_HOLD_EXPIRE (R268): staging space of delivered records is taken back. -/
def execStagingHoldExpire (t : Fin 96) (s : State) : Host.Outcome State Fault Refusal :=
  .next (s.onObj t (fun x => { x with staging := reapStaged s.now x.staging }))

/-! ### Strip buffers and statistics (R270) -/

/-- A data notice (R270). -/
def dataNotice (j : DataCopy) (bytes off : Nat) (nofit failed : Bool) : List Byte :=
  leBytes 1 (if j.kind = 1 then 0x10 else 0x11) ++ leBytes 1 j.stream ++ leBytes 1 (b2n nofit + 2 * b2n failed) ++
    leBytes 1 j.src ++ leBytes 4 0 ++ leBytes 4 j.strip ++ leBytes 4 bytes ++ leBytes 8 off

/-- A copy may run on its channel; one that does not fit copies nothing (R270). -/
def dataFree (s : State) (j : DataCopy) (n : Nat) : Bool := decide (j.slotSize < n) || copyFree s j.ch n

/-- Copy data to each routed client's slot on the route's channel, and write the notices (R270). -/
def State.dataCopied (s : State) (j : DataCopy) (data : List Byte) (bad : Bool) : State :=
  let off := j.base + j.strip % j.nslot * j.slotSize
  let nofit := decide (j.slotSize < data.length)
  let s := if nofit then s else s.copyTake j.ch (data.length * (j.clients.filter (bound s)).length)
  s.each j.clients (fun s c =>
    if !bound s c then s
    else
      let p := if nofit || bad then (s, false) else s.dataPut c off data
      p.1.recordPut c (fun s _ => (s, dataNotice j (if p.2 then data.length else 0) off nofit (!nofit && !p.2))))

/-- A copy of a strip buffer ends; its slot is free again (R148, R270). -/
def State.stripCopied (s : State) (t : Nat) : State :=
  match s.host.copies.find? (fun j => j.stream == t && j.kind == 1 && dataFree s j j.size) with
  | some j =>
    let s : State := { s with host := { s.host with copies := s.host.copies.erase j } }
    let s := (s.ergMeet j.addr j.size).dataCopied j (ergRead s j.addr j.size) (ergPoisoned s j.addr j.size)
    let r := outRing s t j.src
    s.setOutRing t j.src { r with busy := match j.slot with | some i => r.busy.filter (fun b => b.1 != i) | none => r.busy }
  | none => s

/-- A copy of a statistics record ends: the head of the statistics queue is taken (R159, R270, R309). -/
def State.statCopied (s : State) (t : Nat) : State :=
  let q := qOf t 1
  match (s.ergQ q).items with
  | [] => s
  | it :: _ =>
    if !delivers s q then s
    else if qHeadBad s q then s.qDiscard q
    else match itemBytes it with
      | none => (s.qRead q).qTake q
      | some b =>
        let strip := leAt b 0 4
        let job := match s.host.copies.find? (fun j => j.stream == t && j.kind == 2 && j.strip == strip) with
          | some j => some j
          | none => (routeAt s t 2 (routeIdx s t 2)).map (fun r => DataCopy.ofRoute r 2 t strip 0 b.length none)
        match job with
        | some j =>
          if !dataFree s j b.length then s
          else
            let s : State := { s with host := { s.host with copies := s.host.copies.erase j } }
            ((s.qRead q).dataCopied j b false).qTake q
        | none => (s.qRead q).qTake q

/-- DATA_COPY_DONE (R270): a copy of a stream's strip buffer, or of its statistics record, ends. -/
def execDataCopyDone (t : Fin 96) (stat : Bool) (s : State) : Host.Outcome State Fault Refusal :=
  .next (if !s.host.up then s else if stat then s.statCopied t else s.stripCopied t)

end Sys2Proof.Machine
end

