-- ==== Sys2Proof/Machine/Dma.lean ====
section
/-! DEFINITION. DMA channels and descriptors (R239, R278 to R287, R289). -/
namespace Sys2Proof.Machine

/-! ### Descriptors (R279, R280) -/

/-- The descriptor of 64 bytes. -/
def Desc.ofBytes (bs : List Byte) (client serial : Nat) (tmpl : Bool) : Desc :=
  let fl := leAt bs 0 1
  let sp := leAt bs 1 1
  { fence := tbit fl 0, move := tbit fl 1, notify := tbit fl 2, srcErg := tbit sp 0, dstErg := tbit sp 4
    retries := leAt bs 3 1 % 8, client := client, src := leAt bs 8 8, dst := leAt bs 16 8, width := leAt bs 24 4
    rows := leAt bs 28 4, srcPitch := leAt bs 32 4, dstPitch := leAt bs 36 4, tag := leAt bs 48 8, serial := serial
    tmpl := tmpl, taken := false }

/-- Bytes from the first to the last of a side (R280). -/
def sideLen (rows pitch width : Nat) : Nat := if rows ≤ 1 then width else (rows - 1) * pitch + width

def Desc.srcLen (d : Desc) : Nat := sideLen d.rows d.srcPitch d.width
def Desc.dstLen (d : Desc) : Nat := sideLen d.rows d.dstPitch d.width

/-- Two spans share a byte. -/
def spansMeet (a n b m : Nat) : Bool := decide (a < b + m ∧ b < a + n)

/-- A descriptor has a host side. -/
def Desc.hostSide (d : Desc) : Bool := !d.srcErg || !d.dstErg

/-- The Erg sides of a descriptor touch a segment. -/
def Desc.names (d : Desc) (n : Nat) : Bool :=
  (d.srcErg && spansMeet d.src d.srcLen (n * segBytes) segBytes) ||
    (d.dstErg && spansMeet d.dst d.dstLen (n * segBytes) segBytes)

/-- Source and destination overlap in the Erg (R282). -/
def Desc.overlaps (d : Desc) : Bool :=
  d.srcErg && d.dstErg && spansMeet d.src d.srcLen d.dst d.dstLen

/-- Check 1 of R281: reserved fields and encodings. -/
def descFields (bs : List Byte) (tmpl : Bool) : Bool :=
  let sp := leAt bs 1 1
  decide (leAt bs 0 1 < 8) && ([0x01, 0x10, 0x11] : List Nat).contains sp && decide (leAt bs 3 1 < 8) &&
    decide (leAt bs 4 2 < 1024) && leAt bs 6 2 == 0 && leAt bs 40 8 == 0 && leAt bs 56 8 == 0 &&
    (!tmpl || leAt bs 2 1 == 0)

/-- Some route of a stream names a client (R281). -/
def routesName (s : State) (t c : Nat) : Bool :=
  (routeTable s t).any (fun r => (routeClients r).any (fun e => e % 1024 == c))

/-- A segment that a descriptor may use (R281, check 5). -/
def descSeg (s : State) (c : Nat) (act : Option Nat) (dst : Bool) (n : Nat) : Bool :=
  let g := segOf s n
  (g.st == 3 && g.client == c && !g.leaving) ||
    (match s.seq.active with
      | some i => i.map.regions.any (fun r =>
          decide (r.first ≤ n ∧ n < r.first + r.count) &&
            ((!dst && decide (r.kind ≤ 6) && routesName s r.stream c) ||
              (act.isSome && streamAct s r.stream == act)))
      | none => false)

/-- The checks of R281 on a descriptor for a channel: from a client's ring, or of a template of an activity. -/
def descStatus (s : State) (ch : Nat) (bs : List Byte) (d : Desc) (ring : Nat) (act : Option Nat) : Nat :=
  let own := s.rd .dma (DMA_CH_OWNER ch)
  if !descFields bs act.isSome then 1
  else if (match act with
      | some a => !bit own 31 || bits own 19 16 != a
      | none => decide (64 ≤ ch) || !bit own 30 || bits own 9 0 != ring || d.client != ring) then 4
  else if d.width = 0 ∨ 16777216 < d.width ∨ d.rows = 0 ∨ 65536 < d.rows ∨ (1 < d.rows ∧ d.dstPitch < d.width) then 2
  else if (!d.srcErg && decide ((dataArea s d.client).2 < d.src + d.srcLen)) ||
      (!d.dstErg && decide ((dataArea s d.client).2 < d.dst + d.dstLen)) then 2
  else if (d.srcErg && !spanIn (descSeg s d.client act false) d.src d.srcLen) ||
      (d.dstErg && !spanIn (descSeg s d.client act true) d.dst d.dstLen) then 4
  else if d.overlaps && !(d.move && d.rows == 1) then 3
  else 0

/-! ### Channel state (R285) -/

def State.chGo (s : State) (n st : Nat) : State := s.put .dma (DMA_CH_STATUS n) 31 30 st

/-- The channel may run again: it is RUNNING with work, else IDLE. -/
def State.chRun (s : State) (n : Nat) : State := s.chGo n (if (s.dmaCh n).queue = [] then 0 else 1)

/-- Descriptors in execution, and a pause for a host side while the link is down (R254, R285). -/
def State.chSync (s : State) (n : Nat) : State :=
  let q := (s.dmaCh n).queue
  let s := s.put .dma (DMA_CH_STATUS n) 6 0 q.length
  let wait := !s.host.up && (match q with | d :: _ => d.hostSide | [] => false)
  if wait && !linkPaused s n then
    let s := s.setb .dma (DMA_CH_STATUS n) 29 true
    if chState s n = 3 then s else s.chGo n 2
  else s

/-- A segment taken from its client is DIRTY once no descriptor in execution has started on it (R289). -/
def State.reapSegs (s : State) : State :=
  let leaving := (s.erg.seg.filter (fun e => e.2.leaving)).map (fun e => e.1)
  s.each leaving (fun s n =>
    if s.dma.ch.any (fun e => e.2.started && (match e.2.queue with | d :: _ => d.names n | [] => false)) then s
    else s.dirtySeg n)

/-- Use of descriptors by a client (R260, R288). -/
def State.useDesc (s : State) (d : Desc) (more : Bool) : State :=
  if d.tmpl then s
  else
    let a := HST_CLI_USE_DESC d.client
    s.wr .host a (if more then s.rd .host a + 1#32 else s.rd .host a - 1#32)

/-- Enqueue a descriptor: it takes the channel's next serial (R278). -/
def State.dmaEnqueue (s : State) (n : Nat) (d : Desc) : State :=
  let a := DMA_CH_SERIAL n
  let d := { d with serial := (s.rd .dma a).toNat }
  let s := s.wr .dma a (s.rd .dma a + 1#32)
  let s := (s.onDma n (fun x => { x with queue := x.queue ++ [d] })).useDesc d true
  let s := if chState s n = 0 then s.chGo n (if s.flag .dma (DMA_CH_CTRL n) 31 then 2 else 1) else s
  s.chSync n

/-- Write the completion of a descriptor (R272, R284, R286). -/
def State.descEnds (s : State) (n : Nat) (d : Desc) (status cause tries : Nat) (retried : Bool) : State :=
  let s := s.useDesc d false
  let s := s.count .dma (if status = 0 then DMA_CNT_DONE n else DMA_CNT_FAIL n)
  if status = 0 ∧ ¬ d.notify then s
  else s.completionPut d.client
    (completionEntry s status n (b2n d.fence + 2 * b2n retried) d.serial tries cause d.tag)

/-- The credit of a channel up to now is of its current descriptor's bus (R283). -/
def State.chSettle (s : State) (n : Nat) : State :=
  s.creditSettle n (match (s.dmaCh n).queue with | d :: _ => d.hostSide | [] => true)

/-- The current descriptor is over; the channel stands ready for the next. -/
def State.chNext (s : State) (n : Nat) : State :=
  ((s.chSettle n).onDma n (fun x => { x with
    queue := x.queue.tail, copied := 0, started := false, tries := 0, retrying := false, retried := false
    fenceOut := false, failedAt := none })).reapSegs

/-- STATUS of a cause (R284). -/
def causeStatus (cause : Nat) : Nat :=
  match cause with
  | 0 => 0
  | 1 => 0xB
  | 2 => 0xA
  | 3 => 4
  | 4 => 9
  | 5 => 9
  | 8 => 4
  | _ => 6

/-- The current descriptor fails for good: it completes and the channel halts (R284). -/
def State.chHalt (s : State) (n cause : Nat) : State :=
  let x := s.dmaCh n
  match x.queue with
  | [] => s
  | d :: _ =>
    let s := (s.chNext n).descEnds n d (causeStatus cause) cause x.tries x.retried
    let s := (s.put .dma (DMA_CH_STATUS n) 15 8 cause).wr .dma (DMA_CH_HALT_SERIAL n) (BitVec.ofNat 32 d.serial)
    (s.chGo n 3).chSync n

/-- A request of the current descriptor fails (R284): retried while RETRIES allows, else the channel halts. -/
def State.dmaFail (s : State) (n cause : Nat) : State :=
  let x := s.dmaCh n
  match x.queue with
  | [] => s
  | d :: _ =>
    let tries := if x.retrying then x.tries + 1 else 1
    let again := (cause == 1 || cause == 4 || cause == 5) && decide (tries ≤ d.retries)
    let s := s.onDma n (fun y => { y with
      started := true, tries := tries, retrying := again, retried := y.retried || again
      fenceOut := false, failedAt := if again then some (s.now, cause) else none })
    if again then s.count .dma (DMA_CNT_RETRY n) else s.chHalt n cause

/-- The channel's current descriptor can issue bursts: RUNNING, and its host side reachable. -/
def chWorks (s : State) (n : Nat) : Bool := chState s n == 1 && !linkPaused s n

/-- What the current descriptor has issued can end: PAUSE stops new bursts alone (R285, R286). -/
def chEnds (s : State) (n : Nat) : Bool := (chState s n == 1 || chState s n == 2) && !linkPaused s n

/-! ### Bursts (R283) -/

/-- Source and destination of the next burst of at most len bytes, and its length: it stays in a row and, on a host
side, in a 4 KB page and within MRRS for a read, MPS for a write (R253, R280, R282, R283). -/
def nextBurst (s : State) (d : Desc) (copied len : Nat) : Nat × Nat × Nat :=
  let row := copied / d.width
  let col := copied % d.width
  let back := d.overlaps && d.move && decide (d.src < d.dst)
  let area := (dataArea s d.client).1
  let src := d.src + row * d.srcPitch + col + (if d.srcErg then 0 else area)
  let dst := d.dst + row * d.dstPitch + col + (if d.dstErg then 0 else area)
  let most (erg : Bool) (limit a : Nat) : Nat := if erg then 4096 else min limit (4096 - a % 4096)
  let n := min (min len (d.width - col)) (min (most d.srcErg (mrrsBytes s) src) (most d.dstErg (mpsBytes s) dst))
  if back then (d.src + d.width - copied - n, d.dst + d.width - copied - n, n) else (src, dst, n)

/-- One burst of the current descriptor; data is what a read of host memory returns after `late` ns, in which it holds
a tag (R287). -/
def State.dmaBurst (s : State) (ch len : Nat) (data : List Byte) (late : Nat) : State :=
  let x := s.dmaCh ch
  match x.queue with
  | [] => s
  | d :: _ =>
    if !chWorks s ch || decide (d.width * d.rows ≤ x.copied) then s
    else if d.taken && !x.started then s.chHalt ch 8
    else
      let b := nextBurst s d x.copied len
      let n := b.2.2
      if n = 0 || !burstAllowed s ch d.hostSide n || (!d.srcErg && !tagFree s (some ch)) then s
      else
        let s := (s.burstTake ch d.hostSide n).onDma ch (fun y => { y with started := true })
        let s := if d.srcErg then s else s.request (some ch) late
        let bad := d.srcErg && ergPoisoned s b.1 n
        let s := if d.srcErg then s.ergMeet b.1 n else s
        if bad then s.dmaFail ch 5
        else
          let bytes := if d.srcErg then ergRead s b.1 n else padTo n data
          let s := if d.dstErg then s.ergWrite b.2.1 bytes else s.hostWrite b.2.1 bytes
          s.onDma ch (fun y => { y with
            copied := y.copied + n, tries := if y.retrying then y.tries + 1 else y.tries, retrying := false })

/-- DMA_BURST (R253, R280, R283): the current descriptor's next burst, of at most len bytes. -/
def execDmaBurst (ch : Fin 64) (len : Nat) (data : List Byte) (late : Nat) (s : State) :
    Host.Outcome State Fault Refusal :=
  .next (s.dmaBurst ch len data late)

/-- A failure in the cycle of an ABORT that has ended its descriptor (R285): the descriptor carries its own cause, and the
completion entry, the cause and the serial are those of a failure. -/
def State.abortFail (s : State) (n cause : Nat) (a : AbortedDesc) : State :=
  let d := a.desc
  let tries := if a.retrying then a.tries + 1 else 1
  let again := (cause == 1 || cause == 4 || cause == 5) && decide (tries ≤ d.retries)
  let s := if again then s.count .dma (DMA_CNT_RETRY n) else s
  let s := s.onDma n (fun x => { x with aborted := none })
  let s := (s.put .dma (DMA_CH_STATUS n) 15 8 cause).wr .dma (DMA_CH_HALT_SERIAL n) (BitVec.ofNat 32 d.serial)
  match a.slot with
  | none => s
  | some p =>
    let e := completionEntry s (causeStatus cause) n (b2n d.fence + 2 * b2n (a.retried || again)) d.serial tries cause d.tag
    s.hostPut (ringSlot s d.client 2 p.toNat) (padTo (entryBytes 2) (patch e 4 (leBytes 4 p.toNat))) false none

/-- DMA_REQUEST_FAIL (R284, R285): a request of the current descriptor, or of the one that an ABORT of this cycle ended,
fails with a cause. -/
def execDmaRequestFail (ch : Fin 64) (cause : Fin 6) (s : State) : Host.Outcome State Fault Refusal :=
  .next (if cause.val = 0 then s
    else match (s.dmaCh ch).aborted.filter (fun a => a.tb == s.now) with
      | some a => s.abortFail ch cause a
      | none => if chEnds s ch then s.dmaFail ch cause else s)

/-- The current descriptor has copied everything (R286): its fence read goes out once a tag is free, and holds it until it
returns (R287); the fence returned, or none asked for, the descriptor completes (R284, R289). -/
def State.dmaComplete (s : State) (ch : Nat) : State :=
  let x := s.dmaCh ch
  match x.queue with
  | [] => s
  | d :: _ =>
    if !chEnds s ch then s
    else if d.taken && !x.started then (if chWorks s ch then s.chHalt ch 8 else s)
    else if x.copied < d.width * d.rows ∨ chReads s ch then s
    else if d.fence && !d.dstErg && !x.fenceOut then
      (if tagFree s (some ch) then s.onDma ch (fun y => { y with fenceOut := true }) else s)
    else
      let tries := if x.retrying then x.tries + 1 else x.tries
      let s := (s.chNext ch).descEnds ch d 0 0 tries x.retried
      (if (s.dmaCh ch).queue = [] ∧ chState s ch = 1 then s.chGo ch 0 else s).chSync ch

/-- DMA_COMPLETE (R286, R287): the last write has left the engine, on which a host destination's fence read goes out; or
the fence has returned. -/
def execDmaComplete (ch : Fin 64) (s : State) : Host.Outcome State Fault Refusal := .next (s.dmaComplete ch)

/-! ### Controls (R285) -/

/-- PAUSE = 1. -/
def State.dmaPause (s : State) (n : Nat) : State :=
  let s := s.setb .dma (DMA_CH_CTRL n) 31 true
  if chState s n = 3 then s else s.chGo n 2

/-- PAUSE = 0. -/
def State.dmaUnpause (s : State) (n : Nat) : State :=
  let s := s.setb .dma (DMA_CH_CTRL n) 31 false
  if chState s n = 2 ∧ ¬ linkPaused s n then s.chRun n else s

/-- RESUME. -/
def State.dmaResume (s : State) (n : Nat) : State :=
  if chState s n ≠ 3 then s
  else if s.flag .dma (DMA_CH_CTRL n) 31 || linkPaused s n then s.chGo n 2
  else s.chRun n

/-- Complete descriptors of a channel with a cause, in order; the others stay (R31, R285). -/
def State.dmaEndSome (s : State) (n cause : Nat) (ends : Desc → Bool) : State :=
  let x := s.dmaCh n
  let first := match x.queue with | d :: _ => ends d | [] => true
  let s := (s.chSettle n).onDma n (fun y => { y with
    queue := x.queue.filter (fun d => !ends d)
    copied := if first then 0 else y.copied, started := y.started && !first, tries := if first then 0 else y.tries
    retrying := y.retrying && !first, retried := y.retried && !first, fenceOut := y.fenceOut && !first })
  s.reapSegs.each (x.queue.zipIdx.filter (fun p => ends p.1)) (fun s p =>
    s.descEnds n p.1 (causeStatus cause) cause (if p.2 = 0 then x.tries else 0) (p.2 == 0 && x.retried))

/-- What a failure later in the cycle of an ABORT needs to know (R285). -/
def abortRecord (s : State) (n : Nat) : Option AbortedDesc :=
  let x := s.dmaCh n
  x.queue.head?.map (fun d => ⟨s.now, d, x.tries, x.retrying, x.retried, completionSlot s d.client⟩)

/-- ABORT: every descriptor ends with CAUSE 6, but one that fails in the same cycle with its own, and the channel is IDLE
(R285). -/
def State.dmaAbort (s : State) (n : Nat) : State :=
  let s := match (s.dmaCh n).failedAt with
    | some (t, cause) => if t = s.now ∧ (s.dmaCh n).retrying then s.chHalt n cause else s
    | none => s
  let s := s.onDma n (fun x => { x with aborted := if chState s n = 3 then none else abortRecord s n })
  let s : State := { s with host := { s.host with reqs := s.host.reqs.filter (fun r => r.ch != some n) } }
  (((s.dmaEndSome n 6 (fun _ => true)).chGo n 0).setb .dma (DMA_CH_STATUS n) 29 false).chSync n

/-- The descriptors of clients end with CAUSE 7 (R31, R284): the channel halts with the first of them. -/
def State.dmaFlr (s : State) (n : Nat) (of : Nat → Bool) : State :=
  match (s.dmaCh n).queue.find? (fun d => of d.client) with
  | none => s
  | some d =>
    let s := s.dmaEndSome n 7 (fun d => of d.client)
    let s := (s.put .dma (DMA_CH_STATUS n) 15 8 7).wr .dma (DMA_CH_HALT_SERIAL n) (BitVec.ofNat 32 d.serial)
    (s.chGo n 3).chSync n

/-- DMA_PAUSE (R285). -/
def execDmaPause (ch : Fin 64) (s : State) : Host.Outcome State Fault Refusal := .next (s.dmaPause ch)

/-- DMA_UNPAUSE (R285). -/
def execDmaUnpause (ch : Fin 64) (s : State) : Host.Outcome State Fault Refusal := .next (s.dmaUnpause ch)

/-- DMA_RESUME (R285). -/
def execDmaResume (ch : Fin 64) (s : State) : Host.Outcome State Fault Refusal := .next (s.dmaResume ch)

/-- DMA_ABORT (R285): outstanding bursts end, every descriptor completes with CAUSE 6. -/
def execDmaAbort (ch : Fin 64) (s : State) : Host.Outcome State Fault Refusal := .next (s.dmaAbort ch)

/-- A write to DMA_CH_CTRL (R285). -/
def State.chCtrlWrite (s : State) (n : Nat) (v : Word) : State :=
  let s := if bit v 31 then s.dmaPause n else s.dmaUnpause n
  let s := if bit v 29 then s.dmaResume n else s
  if bit v 28 then s.dmaAbort n else s

/-- A write to DMA_CH_RATE (R283): the credit up to now has grown at the old SHARE. -/
def State.chRateWrite (s : State) (n : Nat) (v : Word) : State := (s.chSettle n).store .dma (DMA_CH_RATE n) v

/-- A channel is bound to a client. -/
def chBound (s : State) (ch c : Nat) : Bool :=
  let own := s.rd .dma (DMA_CH_OWNER ch)
  bit own 30 && bits own 9 0 == c

/-- A write to HST_CLI_DMA (R260, R285): the channel is named; its controls act if it is bound to the client. -/
def State.cliDmaWrite (s : State) (c : Nat) (v : Word) : State :=
  if !bound s c then s
  else
    let ch := bits v 5 0
    let s := s.onClient c (fun x => { x with named := some ch })
    if !chBound s ch c then s.setb .host (HST_CLI_STATUS c) 3 true
    else
      let s := if bit v 30 then s.dmaPause ch else s
      let s := if bit v 29 then s.dmaUnpause ch else s
      let s := if bit v 28 then s.dmaResume ch else s
      if bit v 27 then s.dmaAbort ch else s

/-- DMA_CMD_REJECT (R285): a write to HST_CLI_DMA whose channel is not bound to the client. -/
def execDmaCmdReject (c : Fin 1024) (v : Word) (s : State) : Host.Outcome State Fault Refusal :=
  .next (if chBound s (bits v 5 0) c then s else s.cliDmaWrite c v)

/-! ### Client descriptors (R281) -/

/-- A client's next descriptor, fetched when the channel it names has room and the quota allows. -/
def State.fetchDesc (s : State) (c : Nat) (bs : List Byte) (late : Nat) : State :=
  let ch := leAt bs 2 1
  let wait := (decide (ch < 64) && decide (64 ≤ (s.dmaCh ch).queue.length)) ||
    decide ((s.rd .host (HST_CLI_Q_DESC c)).toNat ≤ (s.rd .host (HST_CLI_USE_DESC c)).toNat)
  if !ringOn s c 4 || !s.host.up || ringUsed s c 4 == 0 || wait || !tagFree s none then s
  else
    let s := s.request none late
    let i := s.rd .host (HST_CLI_CONS c 4)
    let s := s.wr .host (HST_CLI_CONS c 4) (i + 1#32)
    let d := Desc.ofBytes bs (leAt bs 4 2) 0 false
    let st := descStatus s ch bs d c none
    let s := if st = 0 then s.dmaEnqueue ch d
      else
        let s := (s.setb .host (HST_CLI_STATUS c) 4 true).count .host (HST_CLI_CNT_DESC_REJ c)
        s.errorPut c 2 st (leBytes 4 i.toNat ++ leBytes 1 ch)
    s.writeBack c

/-- DESC_FETCH (R281): the read of the next descriptor, which holds a tag for `late` ns, returns these 64 bytes. -/
def execDescFetch (c : Fin 1024) (desc : BitVec 512) (late : Nat) (s : State) : Host.Outcome State Fault Refusal :=
  .next (s.fetchDesc c (leBytes 64 desc.toNat) late)

/-! ### Templates (R239) -/

/-- A template of an activity's DESC section with its patches. -/
def template (i : Image) (act tmpl : Nat) (psrc pdst : Option Word) : Option (List Byte) :=
  (i.sect 3 act).bind (fun b =>
    let bs := (b.drop (64 * tmpl)).take 64
    if bs.length < 64 then none
    else
      let add (off : Nat) (x : Option Word) (bs : List Byte) : List Byte := match x with
        | some w => patch bs off (leBytes 8 ((leAt bs off 8 + w.toNat) % 2 ^ 64))
        | none => bs
      some (add 16 pdst (add 8 psrc bs)))

/-- Enqueue a template's descriptor (R239, R281): what happened: 0 enqueued, 1 the queue is full, 2 refused.
DESC_REFUSED has no ring index for a template; that field is not given. -/
def State.dmaTemplate (s : State) (i : Image) (act ch tmpl : Nat) (psrc pdst : Option Word) : State × Nat :=
  match template i act tmpl psrc pdst with
  | none => (s, 2)
  | some bs =>
    if 64 ≤ (s.dmaCh ch).queue.length then (s, 1)
    else
      let d := Desc.ofBytes bs (leAt bs 4 2) 0 true
      let st := descStatus s ch bs d 0 (some act)
      if st = 0 then (s.dmaEnqueue ch d, 0)
      else
        let ix := s.drawn 32
        (s.draw.errorPut d.client 2 st (leBytes 4 ix.toNat ++ leBytes 1 ch), 2)

end Sys2Proof.Machine
end

