-- ==== Sys2Proof/Machine/Sequencer.lean ====
section
/-! DEFINITION. The sequencer instruction set (R229, R231 to R241).  An instruction command names its sequencer and
its fields; it acts when that sequencer's running slot stands at that word and the slot's budget allows it. -/
namespace Sys2Proof.Machine

/-! ### Words (R233, R235) -/

/-- An instruction word of its fields (R233). -/
def instrWord (op d a b t : Nat) (imm : Word) : Dword :=
  BitVec.ofNat 64 (op * 2 ^ 56 + d * 2 ^ 52 + a * 2 ^ 48 + b * 2 ^ 44 + t * 2 ^ 32 + imm.toNat)

/-- OP of a word. -/
def wordOp (w : Dword) : Nat := w.toNat / 2 ^ 56

/-- Cycles of an instruction without waits and loop returns; none for a reserved opcode (R235). -/
def opCycles (op : Nat) : Option Nat :=
  if op ≤ 0x0D then some 1
  else match op with
    | 0x10 => some 4
    | 0x11 => some 2
    | 0x20 => some 2
    | 0x21 => some 2
    | 0x22 => some 2
    | 0x23 => some 2
    | 0x24 => some 2
    | 0x25 => some 2
    | 0x26 => some 2
    | 0x30 => some 1
    | 0x31 => some 1
    | 0x32 => some 1
    | 0x33 => some 12
    | 0x34 => some 1
    | 0x35 => some 4
    | 0x36 => some 1
    | 0x37 => some 2
    | _ => none

/-! ### Event-pending bits (R229, R329) -/

/-- An event of a subscription acts: Ei is set, and an EVENT slot's cause arrives if SLOT is set. -/
def State.subAct (s : State) (q i : Nat) (arg : Word) : State :=
  let s := s.setb .seq (SEQ_EVPEND q) i true
  match activeProg s q with
  | some p => if tbit (atD p.subs i 0) 14 then s.seqCause q 2 arg else s
  | none => s

/-- CONSUME: Ei is cleared, and the event held behind it acts. -/
def State.subConsume (s : State) (q i : Nat) : State :=
  let s := s.setb .seq (SEQ_EVPEND q) i false
  match Tab.get (fun _ => none) (s.seqU q).held i with
  | some arg => (s.onSeq q (fun x => { x with held := Tab.set (fun _ => none) x.held i none })).subAct q i arg
  | none => s

/-! ### Execution (R235, R236, R241) -/

/-- The running slot of a sequencer and its program. -/
def runningSlot (s : State) (q : Nat) : Option (Program × SlotSt) :=
  if seqState s q = 2 then
    match activeProg s q, (s.seqU q).slot with
    | some p, some sl => some (p, sl)
    | _, _ => none
  else none

/-- The slot of a sequencer if it stands at a word and the cycles fit its budget (R241). -/
def slotAt (s : State) (q : Nat) (w : Dword) (cycles : Nat) : Option SlotSt :=
  match runningSlot s q with
  | some (p, sl) =>
    if p.code[sl.pc]? = some w ∧ sl.used + cycles ≤ atD p.budget sl.kind 0 then some sl else none
  | none => none

/-- Reaching the end of a loop's body (R236): where the slot continues, the cycles of returns, the loops left. -/
def passLoops (npc : Nat) : List (Nat × Nat × Nat) → Nat × Nat × List (Nat × Nat × Nat)
  | [] => (npc, 0, [])
  | (f, e, left) :: rest =>
    if npc = e then (if 1 < left then (f, 1, (f, e, left - 1) :: rest) else passLoops npc rest)
    else (npc, 0, (f, e, left) :: rest)

/-- The slot after an instruction that goes on at an index. -/
def SlotSt.goOn (sl : SlotSt) (cycles npc : Nat) : SlotSt :=
  let r := passLoops npc sl.loops
  { sl with pc := r.1, used := sl.used + cycles + r.2.1, loops := r.2.2, waiting := none }

def State.putSlot (s : State) (q : Nat) (sl : SlotSt) : State := s.onSeq q (fun x => { x with slot := some sl })

/-- Execute an instruction that changes only the slot: its X registers and where it continues. -/
def State.seqPure (s : State) (q : Nat) (w : Dword) (f : SlotSt → List Word × Nat) : State :=
  let cycles := (opCycles (wordOp w)).getD 1
  match slotAt s q w cycles with
  | none => s
  | some sl =>
    let r := f sl
    s.putSlot q ({ sl with x := r.1 }.goOn cycles r.2)

/-- Execute an instruction that acts on the device and goes on at the next index. -/
def State.seqAct (s : State) (q : Nat) (w : Dword) (f : State → SlotSt → State) : State :=
  let cycles := (opCycles (wordOp w)).getD 1
  match slotAt s q w cycles with
  | none => s
  | some sl => f (s.putSlot q (sl.goOn cycles (sl.pc + 1))) sl

/-- Set X[D]. -/
def SlotSt.setX (sl : SlotSt) (d : Nat) (v : Word) : List Word := sl.x.set d v

def SlotSt.getX (sl : SlotSt) (i : Nat) : Word := atD sl.x i 0#32

/-- An instruction that writes X[D]. -/
def State.seqAlu (s : State) (q : Nat) (w : Dword) (d : Nat) (f : SlotSt → Word) : State :=
  s.seqPure q w (fun sl => (sl.setX d (f sl), sl.pc + 1))

/-- A branch instruction. -/
def State.seqBranch (s : State) (q : Nat) (w : Dword) (t : Nat) (f : SlotSt → Bool) : State :=
  s.seqPure q w (fun sl => (sl.x, if f sl then t else sl.pc + 1))

/-! ### Plain instructions (R235) -/

/-- NOP. -/
def execNop (q : Fin 33) (s : State) : Host.Outcome State Fault Refusal :=
  .next (s.seqPure q (instrWord 0x00 0 0 0 0 0#32) (fun sl => (sl.x, sl.pc + 1)))

/-- END (R228, R236): the slot ends and the next pending one starts. -/
def execEndSlot (q : Fin 33) (s : State) : Host.Outcome State Fault Refusal :=
  .next (match slotAt s q (instrWord 0x01 0 0 0 0 0#32) 1 with
    | some sl => (s.putSlot q { sl with used := sl.used + 1 }).endSlot q
    | none => s)

/-- MOVI. -/
def execMovi (q : Fin 33) (d : Fin 16) (imm : Word) (s : State) : Host.Outcome State Fault Refusal :=
  .next (s.seqAlu q (instrWord 0x02 d 0 0 0 imm) d (fun _ => imm))

/-- MOV. -/
def execMov (q : Fin 33) (d a : Fin 16) (s : State) : Host.Outcome State Fault Refusal :=
  .next (s.seqAlu q (instrWord 0x03 d a 0 0 0#32) d (fun sl => sl.getX a))

/-- ADDI. -/
def execAddi (q : Fin 33) (d a : Fin 16) (imm : Word) (s : State) : Host.Outcome State Fault Refusal :=
  .next (s.seqAlu q (instrWord 0x04 d a 0 0 imm) d (fun sl => sl.getX a + imm))

/-- ADD. -/
def execAdd (q : Fin 33) (d a b : Fin 16) (s : State) : Host.Outcome State Fault Refusal :=
  .next (s.seqAlu q (instrWord 0x05 d a b 0 0#32) d (fun sl => sl.getX a + sl.getX b))

/-- SUB. -/
def execSub (q : Fin 33) (d a b : Fin 16) (s : State) : Host.Outcome State Fault Refusal :=
  .next (s.seqAlu q (instrWord 0x06 d a b 0 0#32) d (fun sl => sl.getX a - sl.getX b))

/-- The unsigned sum that stops at 0xFFFF_FFFF. -/
def addSat (x y : Word) : Word := BitVec.ofNat 32 (min (x.toNat + y.toNat) 0xFFFFFFFF)

/-- ADDS. -/
def execAdds (q : Fin 33) (d a : Fin 16) (imm : Word) (s : State) : Host.Outcome State Fault Refusal :=
  .next (s.seqAlu q (instrWord 0x07 d a 0 0 imm) d (fun sl => addSat (sl.getX a) imm))

/-- AND. -/
def execAnd (q : Fin 33) (d a b : Fin 16) (s : State) : Host.Outcome State Fault Refusal :=
  .next (s.seqAlu q (instrWord 0x08 d a b 0 0#32) d (fun sl => sl.getX a &&& sl.getX b))

/-- OR. -/
def execOr (q : Fin 33) (d a b : Fin 16) (s : State) : Host.Outcome State Fault Refusal :=
  .next (s.seqAlu q (instrWord 0x09 d a b 0 0#32) d (fun sl => sl.getX a ||| sl.getX b))

/-- XOR. -/
def execXor (q : Fin 33) (d a b : Fin 16) (s : State) : Host.Outcome State Fault Refusal :=
  .next (s.seqAlu q (instrWord 0x0A d a b 0 0#32) d (fun sl => sl.getX a ^^^ sl.getX b))

/-- SHL by IMM[4:0]. -/
def execShl (q : Fin 33) (d a : Fin 16) (n : Fin 32) (s : State) : Host.Outcome State Fault Refusal :=
  .next (s.seqAlu q (instrWord 0x0B d a 0 0 (BitVec.ofNat 32 n)) d (fun sl => sl.getX a <<< n.val))

/-- SHR by IMM[4:0]. -/
def execShr (q : Fin 33) (d a : Fin 16) (n : Fin 32) (s : State) : Host.Outcome State Fault Refusal :=
  .next (s.seqAlu q (instrWord 0x0C d a 0 0 (BitVec.ofNat 32 n)) d (fun sl => sl.getX a >>> n.val))

/-- ANDI. -/
def execAndi (q : Fin 33) (d a : Fin 16) (imm : Word) (s : State) : Host.Outcome State Fault Refusal :=
  .next (s.seqAlu q (instrWord 0x0D d a 0 0 imm) d (fun sl => sl.getX a &&& imm))

/-- A status word (R237). -/
def statusWord (s : State) (q : Nat) (sl : SlotSt) (t sel arg : Nat) : Word :=
  let m := atD sl.motion (arg % 8) (0#32, 0#32, 0#32)
  let onStream (v : Word) : Word := if t < 96 then v else 0#32
  match sel with
  | 0 => onStream (s.rd .pix (PIX_STRIP_NUM t))
  | 1 => onStream (s.rd .pix (PIX_STRIP_LINE t))
  | 2 => m.1
  | 3 => m.2.1
  | 4 => m.2.2
  | 5 =>
    let p := arg % 32
    if p < 24 then BitVec.ofNat 32 (portState s p * 2 ^ 28 + 8 * s.fld .lnk (DLK_STATUS p) 3 3) else 0#32
  | 6 => BitVec.ofNat 32 (64 - (s.dmaCh (arg % 64)).queue.length)
  | 7 => onStream (BitVec.ofNat 32 (s.fld .obj (OBJ_OPEN t) 12 0))
  | 8 => lo32 sl.start
  | 9 => hi32 sl.start
  | 10 => BitVec.ofNat 32 (kindBit sl.kind + s.fld .seq (SEQ_STATUS q) 11 8 * 2 ^ 8 + s.fld .seq (SEQ_EVPEND q) 7 0 * 2 ^ 16)
  | 11 => onStream (s.rd .pix (PIX_STATUS t))
  | 12 => onStream (BitVec.ofNat 32 (s.fld .pix (PIX_ARM t) 31 31 + 2 * s.fld .pix (PIX_ARM_STATUS t) 31 31 +
      4 * s.fld .pix (PIX_ARM_STATUS t) 30 30))
  | 13 => s.rd .ejt (EJT_BUS_STATUS (arg % 8))
  | 14 => sl.evArg
  | _ => 0#32

/-- LDS (R237). -/
def execLds (q : Fin 33) (d : Fin 16) (t : Fin 128) (sel : Fin 15) (arg : Byte) (s : State) :
    Host.Outcome State Fault Refusal :=
  .next (s.seqAlu q (instrWord 0x10 d 0 0 t (BitVec.ofNat 32 (sel * 256 + arg.toNat))) d
    (fun sl => statusWord s q sl t sel arg.toNat))

/-- STAMP: X[D] and X[D+1] take TB. -/
def execStamp (q : Fin 33) (d : Fin 16) (s : State) : Host.Outcome State Fault Refusal :=
  .next (s.seqPure q (instrWord 0x11 d 0 0 0 0#32)
    (fun sl => ((sl.x.set d (lo32 s.now)).set (d + 1) (hi32 s.now), sl.pc + 1)))

/-! ### Branches and loops (R234 to R236) -/

/-- BR. -/
def execBr (q : Fin 33) (t : Fin 4096) (s : State) : Host.Outcome State Fault Refusal :=
  .next (s.seqBranch q (instrWord 0x20 0 0 0 t 0#32) t (fun _ => true))

/-- COND of BCMP: 0 EQ, 1 NE, 2 LTU, 3 GEU, 4 LT, 5 GE. -/
def condHolds (cond : Nat) (x y : Word) : Bool :=
  match cond with
  | 0 => x == y
  | 1 => x != y
  | 2 => x.ult y
  | 3 => !x.ult y
  | 4 => x.slt y
  | _ => !x.slt y

/-- BCMP: X[A] with X[B], or with IMM[26:0] sign-extended where I is 1. -/
def execBcmp (q : Fin 33) (a b : Fin 16) (t : Fin 4096) (cond : Fin 6) (i : Bool) (imm : BitVec 27) (s : State) :
    Host.Outcome State Fault Refusal :=
  .next (s.seqBranch q
    (instrWord 0x21 0 a b t (BitVec.ofNat 32 (cond * 2 ^ 28 + b2n i * 2 ^ 27 + imm.toNat))) t
    (fun sl => condHolds cond (sl.getX a) (if i then imm.signExtend 32 else sl.getX b)))

/-- BBS. -/
def execBbs (q : Fin 33) (a : Fin 16) (t : Fin 4096) (n : Fin 32) (s : State) : Host.Outcome State Fault Refusal :=
  .next (s.seqBranch q (instrWord 0x22 0 a 0 t (BitVec.ofNat 32 n)) t (fun sl => bit (sl.getX a) n))

/-- BBC. -/
def execBbc (q : Fin 33) (a : Fin 16) (t : Fin 4096) (n : Fin 32) (s : State) : Host.Outcome State Fault Refusal :=
  .next (s.seqBranch q (instrWord 0x23 0 a 0 t (BitVec.ofNat 32 n)) t (fun sl => !bit (sl.getX a) n))

/-- BEV (R229). -/
def execBev (q : Fin 33) (t : Fin 4096) (consume : Bool) (i : Fin 8) (s : State) : Host.Outcome State Fault Refusal :=
  let w := instrWord 0x24 0 0 0 t (BitVec.ofNat 32 (8 * b2n consume + i))
  let set := s.flag .seq (SEQ_EVPEND q) i
  .next (match slotAt s q w 2 with
    | some sl =>
      let s := s.putSlot q (sl.goOn 2 (if set then t else sl.pc + 1))
      if set && consume then s.subConsume q i else s
    | none => s)

/-- LOOP (R236): the body from the next index to T - 1 runs N times. -/
def execLoop (q : Fin 33) (t : Fin 4096) (n : Fin 512) (s : State) : Host.Outcome State Fault Refusal :=
  .next (match slotAt s q (instrWord 0x25 0 0 0 t (BitVec.ofNat 32 n)) 2 with
    | some sl =>
      if t.val = sl.pc + 1 then s.putSlot q (sl.goOn (2 + (n - 1)) t)
      else s.putSlot q { sl with pc := sl.pc + 1, used := sl.used + 2, loops := (sl.pc + 1, t, n) :: sl.loops }
    | none => s)

/-- The word of WAITEV. -/
def waitWord (t : Fin 4096) (limit : BitVec 20) (consume : Bool) (i : Fin 8) : Dword :=
  instrWord 0x26 0 0 0 t (BitVec.ofNat 32 (limit.toNat * 2 ^ 8 + 8 * b2n consume + i))

/-- Cycles a slot has waited at its WAITEV. -/
def SlotSt.waited (sl : SlotSt) (now : Nat) : Nat :=
  match sl.waiting with
  | some w => now - w
  | none => 0

/-- WAITEV (R229): falls through once Ei is set, else waits. -/
def execWaitev (q : Fin 33) (t : Fin 4096) (limit : BitVec 20) (consume : Bool) (i : Fin 8) (s : State) :
    Host.Outcome State Fault Refusal :=
  .next (match slotAt s q (waitWord t limit consume i) 2 with
    | some sl =>
      let n := 2 + sl.waited s.now
      if s.flag .seq (SEQ_EVPEND q) i then
        if (slotAt s q (waitWord t limit consume i) n).isSome then
          let s := s.putSlot q (sl.goOn n (sl.pc + 1))
          if consume then s.subConsume q i else s
        else s
      else s.putSlot q { sl with waiting := some (sl.waiting.getD s.now) }
    | none => s)

/-- WAITEV_TIMEOUT: LIMIT cycles without Ei; the slot branches to T. -/
def execWaitevTimeout (q : Fin 33) (t : Fin 4096) (limit : BitVec 20) (consume : Bool) (i : Fin 8) (s : State) :
    Host.Outcome State Fault Refusal :=
  .next (match slotAt s q (waitWord t limit consume i) (2 + limit.toNat) with
    | some sl =>
      if sl.waiting.isSome ∧ limit.toNat ≤ sl.waited s.now ∧ ¬ s.flag .seq (SEQ_EVPEND q) i then
        s.putSlot q (sl.goOn (2 + limit.toNat) t)
      else s
    | none => s)

/-! ### Stream operations (R238) -/

/-- A TRIG for a stream's generator (R238): ignored unless in SEQ mode and without a TRIG that is not yet due. -/
def State.seqTrig (s : State) (q t : Nat) (ps : Nat) : State :=
  let x := s.gen t
  let mode := s.flag .mot (TRG_CTRL t) 31 && genMode s t == 5
  let held := x.due.any (fun d => decide (s.now * 1000 < d))
  if mode && !held then s.setGen t { x with due := x.due ++ [max ps (s.now * 1000)] }
  else
    let s := (s.setb .seq (SEQ_STATUS q) 4 true).count .seq (SEQ_CNT_TRIG_IGN q)
    if mode && held then s.count .mot (TRG_CNT_SKIP t) else s

/-- TRIG. -/
def execTrig (q : Fin 33) (t : Fin 96) (delay : BitVec 20) (s : State) : Host.Outcome State Fault Refusal :=
  .next (s.seqAct q (instrWord 0x30 0 0 0 t (delay.setWidth 32))
    (fun s sl => s.seqTrig q t ((sl.start + delay.toNat) * 1000)))

/-- ARM: as a write to PIX_ARM; a refused ARM sets ARM_FAIL as well. -/
def State.seqArm (s : State) (q t : Nat) (disarm : Bool) : State :=
  if disarm then s.disarm t
  else
    let s := s.arm t
    if s.flag .pix (PIX_ARM t) 31 then s else s.setb .seq (SEQ_STATUS q) 2 true

/-- ARM. -/
def execArm (q : Fin 33) (t : Fin 96) (disarm : Bool) (s : State) : Host.Outcome State Fault Refusal :=
  .next (s.seqAct q (instrWord 0x31 0 0 0 t (BitVec.ofNat 32 (b2n disarm))) (fun s _ => s.seqArm q t disarm))

/-- CTX: the context of the next line start, where CMODE is SEQ. -/
def State.seqCtx (s : State) (q t ctx : Nat) : State :=
  if s.fld .pix (PIX_CTX_CTRL_ACT t) 31 30 = 2 then s.onPix t (fun x => { x with seqCtx := ctx })
  else s.setb .seq (SEQ_STATUS q) 3 true

/-- CTX. -/
def execCtx (q : Fin 33) (t : Fin 96) (ctx : Fin 4) (s : State) : Host.Outcome State Fault Refusal :=
  .next (s.seqAct q (instrWord 0x32 0 0 0 t (BitVec.ofNat 32 ctx)) (fun s _ => s.seqCtx q t ctx))

/-- SHW: as a host write to a shadow register; SHW_LOCK as well as SHADOW_LOCK while armed. -/
def execShw (q : Fin 33) (t : Fin 96) (a : Fin 16) (k : Fin 128) (s : State) : Host.Outcome State Fault Refusal :=
  .next (s.seqAct q (instrWord 0x33 0 a 0 t (BitVec.ofNat 32 k)) (fun s sl =>
    let s := if s.flag .pix (PIX_ARM t) 31 then s.setb .seq (SEQ_STATUS q) 1 true else s
    s.shadowWrite t (0x100 + 4 * k) (sl.getX a)))

/-- ROUTE: records from the next one released, the other kinds from the next strip. -/
def State.seqRoute (s : State) (t kind index : Nat) : State :=
  let n := (s.ergQ (qOf t 0)).items.length
  if kind = 0 ∧ 0 < n then
    { s with host := { s.host with
        routeQ := Tab.upd (fun _ => []) s.host.routeQ t (fun l => l ++ [(n, index)]) } }
  else { s with host := { s.host with route := Tab.set (fun _ => none) s.host.route (t * 4 + kind) (some index) } }

/-- ROUTE. -/
def execRoute (q : Fin 33) (t : Fin 96) (index : Fin 16) (kind : Fin 3) (s : State) :
    Host.Outcome State Fault Refusal :=
  .next (s.seqAct q (instrWord 0x34 0 0 0 t (BitVec.ofNat 32 (index * 16 + kind))) (fun s _ => s.seqRoute t kind index))

/-! ### DMA, events and trace (R239, R323) -/

/-- The image a sequencer's program is of: the staged one once it has switched (R250). -/
def seqImage (s : State) (q : Nat) : Option Image :=
  match s.seq.swap with
  | some w => if w.left.contains q then s.seq.active else s.seq.staged
  | none => s.seq.active

/-- The activity a sequencer acts for (R226, R245). -/
def seqActivity (s : State) (i : Image) (q : Nat) : Option Nat :=
  if q = 32 then (i.map.acts.find? (fun a => tbit a.flags 0)).map (fun a => a.id)
  else (ledStream s q).bind (fun t => (i.map.strs.find? (fun e => e.stream == t)).map (fun e => e.act))

/-- DMAQ's enqueue: DMA_FULL or DMA_REJ where it fails (R239). -/
def State.seqDma (s : State) (q ch tmpl : Nat) (psrc pdst : Option Word) : State :=
  match seqImage s q with
  | none => s
  | some i =>
    match seqActivity s i q with
    | none => s
    | some act =>
      let p := s.dmaTemplate i act ch tmpl psrc pdst
      match p.2 with
      | 0 => p.1
      | 1 => (p.1.setb .seq (SEQ_STATUS q) 6 true).count .seq (SEQ_CNT_DMA_FULL q)
      | _ => p.1.setb .seq (SEQ_STATUS q) 5 true

/-- DMAQ. -/
def execDmaq (q : Fin 33) (a b : Fin 16) (psrc pdst : Bool) (tmpl : Fin 1024) (ch : Fin 64) (s : State) :
    Host.Outcome State Fault Refusal :=
  .next (s.seqAct q
    (instrWord 0x35 0 a b 0 (BitVec.ofNat 32 (b2n psrc * 2 ^ 31 + b2n pdst * 2 ^ 30 + tmpl * 2 ^ 8 + ch)))
    (fun s sl => s.seqDma q ch tmpl (if psrc then some (sl.getX a) else none)
      (if pdst then some (sl.getX b) else none)))

/-- PUB: the place of PUB in the order of R324 is behind the routed producers. -/
def execPub (q : Fin 33) (a : Fin 16) (ch : Fin 256) (s : State) : Host.Outcome State Fault Refusal :=
  .next (s.seqAct q (instrWord 0x36 0 a 0 0 (BitVec.ofNat 32 ch))
    (fun s sl => s.pubOn (0x1000 + q) ch (sl.getX a) s.now 0x3FE))

/-- TRACE. -/
def execTrace (q : Fin 33) (a : Fin 16) (imm : BitVec 16) (s : State) : Host.Outcome State Fault Refusal :=
  .next (s.seqAct q (instrWord 0x37 0 a 0 0 (imm.setWidth 32))
    (fun s sl => { s with seq := { s.seq with trace := (s.now, q.val, imm.toNat, sl.getX a) :: s.seq.trace } }))

/-! ### Faults at run time (R235, R241) -/

/-- The instruction at PC would end after the slot's budget. -/
def budgetOver (s : State) (q : Nat) : Bool :=
  match runningSlot s q with
  | some (p, sl) =>
    (match p.code[sl.pc]? with
      | some w => (match opCycles (wordOp w) with
        | some c => decide (atD p.budget sl.kind 0 < sl.used + c + sl.waited s.now)
        | none => false)
      | none => false)
  | none => false

/-- SLOT_BUDGET_EXPIRED (R241). -/
def execSlotBudgetExpired (q : Fin 33) (s : State) : Host.Outcome State Fault Refusal :=
  .next (match runningSlot s q with
    | some (_, sl) =>
      if budgetOver s q then
        (s.count .seq (SEQ_CNT_BUDGET q)).seqFault q 1 0x10 (sl.pc + kindBit sl.kind * 2 ^ 16) true
      else s
    | none => s)

/-- SEQ_ILLEGAL (R235): the word at PC has a reserved opcode. -/
def execSeqIllegal (q : Fin 33) (s : State) : Host.Outcome State Fault Refusal :=
  .next (match runningSlot s q with
    | some (p, sl) =>
      (match p.code[sl.pc]? with
        | some w => if (opCycles (wordOp w)).isNone then s.seqFault q 4 0x13 sl.pc true else s
        | none => s)
    | none => s)

/-- SEQ_ECC (R241): the word at PC holds a double-bit error, or a single-bit error that is corrected. -/
def execSeqEcc (q : Fin 33) (double : Bool) (s : State) : Host.Outcome State Fault Refusal :=
  .next (match runningSlot s q with
    | some (_, sl) =>
      if double then s.seqFault q 3 0x12 sl.pc true else s.count .seq (SEQ_CNT_ECC_CORR q)
    | none => s)

/-! ### Controls (R231) -/

/-- A write to SEQ_CTRL (R231, R232). -/
def State.seqCtrlWrite (s : State) (q : Nat) (v : Word) : State :=
  let s := s.setb .seq (SEQ_CTRL q) 0 (bit v 0)
  if !bit v 1 || seqState s q != 3 then s
  else
    let s := match activeProg s q with
      | some p => if bit v 2 then s.loadX q p.xInit else s
      | none => s
    ((s.seqGo q 1).onSeq q (fun x => x.ticksOver s.now)).nextSlot q

/-- SEQ_RESTART (R231): a write of RESTART without INIT. -/
def execSeqRestart (q : Fin 33) (hof : Bool) (s : State) : Host.Outcome State Fault Refusal :=
  .next (s.seqCtrlWrite q (BitVec.ofNat 32 (2 + b2n hof)))

/-- SEQ_INIT (R231): a write of RESTART and INIT. -/
def execSeqInit (q : Fin 33) (hof : Bool) (s : State) : Host.Outcome State Fault Refusal :=
  .next (s.seqCtrlWrite q (BitVec.ofNat 32 (6 + b2n hof)))

/-- SEQ_PEAK_WRITE (R231): any value sets the register of a kind to 0. -/
def execSeqPeakWrite (q : Fin 33) (kind : Fin 4) (s : State) : Host.Outcome State Fault Refusal :=
  .next (s.wr .seq (peakAt q kind) 0#32)

end Sys2Proof.Machine
end

