-- ==== Sys2Proof/Machine/Mailbox.lean ====
section
/-! DEFINITION. The command mailbox (R274 to R276): how a command starts, runs and ends.  Codes are those of R276. -/
namespace Sys2Proof.Machine

/-- Opcodes of R277. -/
def mbxKnown : List Nat :=
  [0x01, 0x02, 0x03, 0x04, 0x05, 0x06, 0x07, 0x08, 0x09, 0x0A, 0x0B, 0x0C, 0x0D, 0x10, 0x11, 0x12, 0x13, 0x14, 0x20]

def mbxBusy (s : State) : Bool := s.flag .host HST_MBX_STATUS 31

/-- Argument i of the mailbox. -/
def mbxArg (s : State) (i : Nat) : Nat := (s.rd .host (HST_MBX_ARG i)).toNat

/-- A 64-bit argument in two registers. -/
def mbxArg64 (s : State) (i : Nat) : Nat := join32 (s.rd .host (HST_MBX_ARG i)) (s.rd .host (HST_MBX_ARG (i + 1)))

/-- DSTATE: 0 BOOT, 1 RUN, 2 STANDBY, 3 ENTERING, 4 FAULT (R369). -/
def dstate (s : State) : Nat := s.fld .pwr PWR_STATUS 31 28

/-- A command that the device state refuses with E_STATE: in BOOT all but FW_LOAD (R252, R379), in STANDBY all but
POWER (R371). -/
def mbxStateRefuses (s : State) (op : Nat) : Bool :=
  match dstate s with
  | 0 => op != 0x0D
  | 2 => op != 0x0B
  | _ => false

/-- GO (R275): the command starts; one that the device state refuses has its code at once.  LOADING reads 1 while an
IMG_LOAD is verified (R231). -/
def State.mbxGo (s : State) : State :=
  let op := s.fld .host HST_MBX_CMD 7 0
  let s := if op = 1 ∧ ¬ mbxStateRefuses s op then s.setb .seq SEQ_IMG_STATUS 26 true else s
  let s := (s.setb .host HST_MBX_CMD 31 true).setb .host HST_MBX_STATUS 31 true
  { s with host := { s.host with mbx := some ⟨op, s.now, if mbxStateRefuses s op then some 6 else none, []⟩ } }

/-- A write to HST_MBX_CMD (R274, R275): with GO while BUSY is 1 it is ignored and rejected; without GO it is a write of
OPCODE alone, at any time. -/
def State.mbxCmdWrite (s : State) (v : Word) : State :=
  if mbxBusy s ∧ bit v 31 then s.setb .host HST_MBX_STATUS 29 true
  else
    let s := s.put .host HST_MBX_CMD 7 0 (bits v 7 0)
    if bit v 31 then s.mbxGo else s

/-- A write to an argument (R275). -/
def State.mbxArgWrite (s : State) (i : Nat) (v : Word) : State :=
  if mbxBusy s then s.setb .host HST_MBX_STATUS 29 true else s.wr .host (HST_MBX_ARG i) v

/-- MBX_BUSY_WRITE (R275): a write of GO or of an argument while BUSY is 1. -/
def execMbxBusyWrite (s : State) : Host.Outcome State Fault Refusal :=
  .next (if mbxBusy s then s.setb .host HST_MBX_STATUS 29 true else s)

/-- The running command ends its work with a code and results (R275).  With any code but DONE its work changes nothing else
of the device than the errors that its reading met (R304). -/
def State.mbxRun (s : State) (op : Nat) (f : State → State × Nat × List Word) : State :=
  match s.host.mbx with
  | some r =>
    if r.op = op ∧ r.code.isNone then
      let p := f s
          let t := if op = 1 then p.1.setb .seq SEQ_IMG_STATUS 26 false else p.1
      { t with host := { t.host with mbx := some { r with code := some p.2.1, res := if p.2.1 = 0 then p.2.2 else [] } } }
    else s
  | none => s

/-- MBX_UNKNOWN_OPCODE (R275). -/
def execMbxUnknownOpcode (s : State) : Host.Outcome State Fault Refusal :=
  .next (match s.host.mbx with
    | some r => if mbxKnown.contains r.op then s else s.mbxRun r.op (fun s => (s, 0xA, []))
    | none => s)

/-- The time a command may take, in ns (R249, R275, R277, R296, R303). -/
def mbxLimit (s : State) (op : Nat) : Nat :=
  match op with
  | 0x01 => 10000000 + 600 * (ofLe (ergRead s (mbxArg64 s 0 + 8) 4)) / 1000
  | 0x0C => 100000000
  | 0x0D => 500000000
  | 0x10 => 10000000 + 40000 * mbxArg s 1
  | 0x14 => 10000000 + 1000000 * (mbxArg s 6 / 67108864 + 1)
  | _ => 10000000

/-- MBX_TIMEOUT (R275): the running command has not finished in its time. -/
def execMbxTimeout (s : State) : Host.Outcome State Fault Refusal :=
  .next (match s.host.mbx with
    | some r => if r.since + mbxLimit s r.op ≤ s.now then s.mbxRun r.op (fun s => (s, 0xB, [])) else s
    | none => s)

/-- MBX_DONE (R275): CODE and the results are written, BUSY clears, DONE sets, vector 0 goes out. -/
def execMbxDone (s : State) : Host.Outcome State Fault Refusal :=
  .next (match s.host.mbx with
    | some r =>
      (match r.code with
        | some code =>
          let s := s.put .host HST_MBX_STATUS 7 0 code
          let s := s.wrList .host (HST_MBX_RES 0) ((r.res ++ List.replicate 8 0#32).take 8)
          let s := (s.setb .host HST_MBX_STATUS 31 false).setb .host HST_MBX_STATUS 30 true
          let s := (s.setb .host HST_MBX_CMD 31 false).vector 0 0
          { s with host := { s.host with mbx := none } }
        | none => s)
    | none => s)

/-- PORT_CTRL (R277): writes DLP_CTRL.EN of each port named. -/
def execPortCtrl (s : State) : Host.Outcome State Fault Refusal :=
  .next (s.mbxRun 0x0A (fun s =>
    let en := tbit (mbxArg s 1) 0
    (s.each (idxs 24 (fun p => tbit (mbxArg s 0) p)) (fun s p =>
      s.phyCtrlWrite p (putBit (s.rd .phy (phyCtrl p)) 31 en)), 0, [])))

/-- KEY_PROGRAM (R243, R277): an owner-key digest goes into fuses, once per slot. -/
def execKeyProgram (s : State) : Host.Outcome State Fault Refusal :=
  .next (s.mbxRun 0x0C (fun s =>
    let k := mbxArg s 0
    let d := (List.range 8).foldl (fun n i => n * 2 ^ 32 + mbxArg s (1 + i)) 0
    if 4 ≤ k then (s, 2, [])
    else if Tab.get (fun _ => 0) s.host.keys k ≠ 0 then (s, 6, [])
    else ({ s with host := { s.host with keys := Tab.set (fun _ => 0) s.host.keys k d } }, 0, [])))

end Sys2Proof.Machine
end

