-- ==== Sys2Proof/Machine/Pwm.lean ====
section
/-! DEFINITION. Illumination outputs (R217 to R224): legs 0 to 7, legs 0 to 3 in group A and 4 to 7 in group B.  Instants are
in units of 0.5 ns of TB; a tick is five of them. -/
namespace Sys2Proof.Machine

/-- A leg. -/
def pwmLeg (s : State) (n : Nat) : LegSt := Tab.get (fun _ => LegSt.init) s.pwm.leg n

def State.onPwm (s : State) (n : Nat) (f : LegSt → LegSt) : State :=
  { s with pwm := { s.pwm with leg := Tab.upd (fun _ => LegSt.init) s.pwm.leg n f } }

/-- TB now in units of 0.5 ns. -/
def halfNow (s : State) : Nat := s.now * 2

/-- Outputs are driven in RUN and during an entry to another state only (R224). -/
def outputsLive (s : State) : Bool := dstate s == 1 || dstate s == 3

/-- The leg runs: EN, not tripped, its group not tripped (R222 to R224). -/
def pwmRuns (s : State) (n : Nat) : Bool :=
  s.flag .pwm (PWM_CTRL n) 31 && !s.flag .pwm (PWM_STATUS n) 0 && !s.flag .pwm (PWM_STATUS n) 1 && outputsLive s

/-- STROBE mode (R220). -/
def pwmStrobe (s : State) (n : Nat) : Bool := s.flag .pwm (PWM_CTRL n) 30

/-- The end of the running cycle. -/
def LegSt.ends (l : LegSt) : Option Nat := l.cycle.map (fun c => c + 5 * l.act.period)

/-- The next start of a STROBE leg: the pending one, else the earliest that waits (R220). -/
def LegSt.nextStart (l : LegSt) : Option Nat := (l.pending.or l.starts.head?).map (fun x => x.1)

/-- The next reload of a leg (R220): the end of a FREE cycle; a start that waits, not before a running cycle ends. -/
def pwmNextReload (s : State) (n : Nat) : Option Nat :=
  let l := pwmLeg s n
  match l.ends with
  | some e => if pwmStrobe s n then l.nextStart.map (max e) else some e
  | none => l.nextStart

/-- E of R218. -/
def LegSet.high (p : LegSet) : Nat := min p.duty (p.period - p.deadLh - p.deadHl)

/-- Where OC ends the high side of the running cycle (R221): when it was accepted, or, active since before, when
blanking ends; `oc`: OC is active. -/
def LegSt.cut (l : LegSt) (c : Nat) (oc : Bool) : Option Nat :=
  match l.ocAt with
  | some t => some t
  | none =>
    let t := max l.ocOn (c + 5 * (l.act.deadLh + l.act.blank))
    if oc && decide (t < c + 5 * (l.act.deadLh + l.act.high)) then some t else none

/-- The instant at which the high side of the running cycle falls: its end, or the accepted OC (R218, R221). -/
def LegSt.falls (l : LegSt) (c : Nat) (oc : Bool) : Nat :=
  let e := c + 5 * (l.act.deadLh + l.act.high)
  match l.cut c oc with
  | some t => min t e
  | none => e

/-- PWn_HI and PWn_LO at an instant (R218, R221 to R224).  DEDUCED (log 20): between the cycles of a STROBE leg both
are low. -/
def pwmPins (s : State) (n t : Nat) : Bool × Bool :=
  let l := pwmLeg s n
  match pwmRuns s n, l.cycle with
  | true, some c =>
    let stop := c + 5 * l.act.period
    let lo := s.flag .pwm (PWM_CTRL n) 29
    if t < c ∨ stop ≤ t then (false, false)
    else if l.act.high = 0 then (false, lo)
    else
      let f := l.falls c (s.flag .pwm (PWM_STATUS n) 2)
      (decide (c + 5 * l.act.deadLh ≤ t) && decide (t < f), lo && decide (f + 5 * l.act.deadHl ≤ t))
  | _, _ => (false, false)

/-- OC has ended the pulse of the running cycle by an instant: OC_SEEN, and its count (R221). -/
def State.ocSettle (s : State) (n upTo : Nat) : State :=
  let l := pwmLeg s n
  match pwmRuns s n && l.ocAt.isNone, l.cycle with
  | true, some c =>
    (match l.cut c (s.flag .pwm (PWM_STATUS n) 2) with
      | some t =>
        if t ≤ upTo then
          ((s.onPwm n (fun l => { l with ocAt := some t })).setb .pwm (PWM_STATUS n) 4 true).count .pwm (PWM_CNT_OC n)
        else s
      | none => s)
  | _, _ => s

/-! ### Reloads and strobes (R219, R220) -/

/-- A start takes its place among those that wait. -/
def LegSt.await (l : LegSt) (x : Nat × Nat) : LegSt :=
  { l with starts := l.starts.filter (fun y => decide (y.1 ≤ x.1)) ++ x :: l.starts.filter (fun y => decide (x.1 < y.1)) }

/-- A reload: the pending shadowed values apply together (R219), and the start it serves waits no more. -/
def LegSt.reload (l : LegSt) (t : Nat) : LegSt :=
  { l with act := l.shadow, shadow := l.next.getD l.shadow, next := none, cycle := some t, ocAt := none
           starts := if l.pending.isSome then l.starts else l.starts.drop 1, pending := none }

/-- An event finds a start pending: the overrun of the leg and of the channel (R220, R329). -/
def State.pwmOverrun (s : State) (n ch : Nat) : State :=
  (s.count .pwm (PWM_CNT_OVERRUN n)).count .evt (EVT_CNT_OVERRUN ch)

/-- A start or event that meets a running cycle: the one pending start, or an overrun (R220, R329). -/
def State.pwmHold (s : State) (n : Nat) (x : Nat × Nat) : State :=
  if (pwmLeg s n).pending.isNone then s.onPwm n (fun l => { l with pending := some x }) else s.pwmOverrun n x.2

/-- Starts whose instant comes, by `upTo`, while a STROBE cycle runs meet it (R220; DEDUCED, log 67). -/
def State.startSettle (s : State) (n upTo : Nat) : State :=
  match pwmStrobe s n, (pwmLeg s n).ends with
  | true, some e =>
    let due (x : Nat × Nat) : Bool := decide (x.1 < e ∧ x.1 ≤ upTo)
    let l := (pwmLeg s n).starts
    (s.onPwm n (fun y => { y with starts := l.filter (fun x => !due x) })).each (l.filter due) (fun s x => s.pwmHold n x)
  | _, _ => s

/-- What time alone has done to a leg by an instant: OC after its blanking, and starts during a cycle. -/
def State.pwmSettle (s : State) (n upTo : Nat) : State := (s.ocSettle n upTo).startSettle n upTo

/-- PWM_RELOAD (R218 to R220): the reload that is due. -/
def execPwmReload (n : Fin 8) (s : State) : Host.Outcome State Fault Refusal :=
  .next (
    let s := s.pwmSettle n (halfNow s)
    match pwmRuns s n, pwmNextReload s n with
    | true, some t => if t ≤ halfNow s then s.onPwm n (fun l => l.reload t) else s
    | _, _ => s)

/-- An event reaches a leg that names its channel: from a trigger generator at its stamp, otherwise now, plus DELAY
(R220). -/
def State.pwmArrive (s : State) (n : Nat) (e : EvtRec) : State :=
  if pwmRuns s n && pwmStrobe s n && s.fld .pwm (PWM_CTRL n) 22 15 == e.ch then
    let t := if e.src < 96 then e.stamp * 2 else halfNow s
    s.onPwm n (fun l => { l with events := l.events ++ [(t + 5 * l.act.delay, e.ch)] })
  else s

/-- A cycle runs at an instant (R220). -/
def LegSt.busy (l : LegSt) (t : Nat) : Bool :=
  match l.ends with
  | some e => decide (t < e)
  | none => false

/-- PWM_STROBE_EVENT (R220, R329): the leg acts on the oldest event that reached it: during a cycle it is the pending
start, or an overrun; otherwise a start that waits for its DELAY. -/
def execPwmStrobeEvent (n : Fin 8) (s : State) : Host.Outcome State Fault Refusal :=
  let l := pwmLeg s n
  .next (match l.events with
    | [] => s
    | x :: es =>
      let s := (s.onPwm n (fun l => { l with events := es })).pwmSettle n (halfNow s)
      if l.busy (halfNow s) then s.pwmHold n x else s.onPwm n (fun l => l.await x))

/-- PWM_CYCLE_END (R220): a STROBE cycle ends and the pending start begins. -/
def execPwmCycleEnd (n : Fin 8) (s : State) : Host.Outcome State Fault Refusal :=
  let l := pwmLeg s n
  .next (
    let s := s.pwmSettle n (halfNow s)
    match l.ends with
    | some e =>
      if pwmStrobe s n ∧ e ≤ halfNow s then
        s.onPwm n (fun l =>
          let l' := { l with cycle := none, ocAt := none, pending := none }
          match l.pending with
          | some x => l'.await (max e x.1, x.2)
          | none => l')
      else s
    | none => s)

/-- The values the shadowed registers of a leg hold. -/
def pwmShadow (s : State) (n : Nat) : LegSet :=
  { period := s.fld .pwm (PWM_PERIOD n) 15 0, duty := s.fld .pwm (PWM_DUTY n) 15 0
    deadLh := s.fld .pwm (PWM_DEAD n) 7 0, deadHl := s.fld .pwm (PWM_DEAD n) 15 8
    blank := s.fld .pwm (PWM_BLANK n) 7 0, delay := s.fld .pwm (PWM_DELAY n) 15 0 }

/-- A shadowed register by its place: PERIOD, DUTY, DEAD, BLANK, DELAY. -/
def pwmShadowReg (n k : Nat) : Nat :=
  match k with
  | 0 => PWM_PERIOD n
  | 1 => PWM_DUTY n
  | 2 => PWM_DEAD n
  | 3 => PWM_BLANK n
  | _ => PWM_DELAY n

/-- A write to a shadowed register (R219): one that lands in a reload cycle waits for the following reload. -/
def State.pwmShadowWrite (s : State) (n k : Nat) (v : Word) : State :=
  let s := s.pwmSettle n (halfNow s)
  let s := s.store .pwm (pwmShadowReg n k) v
  let set := pwmShadow s n
  let l := pwmLeg s n
  let hit (r : Option Nat) : Bool :=
    match r with
    | some t => decide (t ≤ halfNow s) && decide (halfNow s < t + 5)
    | none => false
  let due : Bool := match pwmNextReload s n with
    | some t => decide (t ≤ halfNow s)
    | none => false
  let s := if hit l.cycle || hit (pwmNextReload s n) then s.setb .pwm (PWM_STATUS n) 6 true else s
  s.onPwm n (fun l => if due || l.next.isSome then { l with next := some set } else { l with shadow := set })

/-- PWM_SHADOW_WRITE (R219). -/
def execPwmShadowWrite (n : Fin 8) (k : Fin 5) (v : Word) (s : State) : Host.Outcome State Fault Refusal :=
  .next (s.pwmShadowWrite n k v)

/-! ### Overcurrent and short circuit (R221 to R223) -/

/-- A leg stands still: no cycle, no start, no event. -/
def LegSt.idle (l : LegSt) : LegSt :=
  { l with cycle := none, starts := [], pending := none, ocAt := none, events := [] }

/-- PWM_OC (R217, R221): the OC pin has shown a level since the sample at TB `first`; it is accepted after OC_FILT + 1
equal samples, one a tick, and OC_POL says which level is active.  An OC that is active behind the blanking ends
the pulse. -/
def execPwmOc (n : Fin 8) (level : Bool) (first : BitVec 64) (s : State) : Host.Outcome State Fault Refusal :=
  .next (
    let c := s.rd .pwm (PWM_CTRL n)
    let act := level != bit c 28
    let t := first.toNat * 2 + 5 * bits c 26 23
    let s := s.ocSettle n (if act then halfNow s else min (t - 1) (halfNow s))
    if halfNow s < t then s
    else if !act then s.setb .pwm (PWM_STATUS n) 2 false
    else if s.flag .pwm (PWM_STATUS n) 2 then s
    else ((s.setb .pwm (PWM_STATUS n) 2 true).onPwm n (fun l => { l with ocOn := t })).ocSettle n (halfNow s))

/-- The legs of a group: 0 to 3 and 4 to 7. -/
def groupLegs (g : Nat) : List Nat := [4 * g, 4 * g + 1, 4 * g + 2, 4 * g + 3]

/-- SC is active on some leg of a group. -/
def groupSc (s : State) (g : Nat) : Bool := (groupLegs g).any (fun n => s.flag .pwm (PWM_STATUS n) 3)

/-- The group trips (R223). -/
def State.groupTrip (s : State) (g : Nat) : State :=
  let s := s.each (groupLegs g) (fun s n => (s.setb .pwm (PWM_STATUS n) 1 true).onPwm n LegSt.idle)
  let s := s.setb .pwm (PWM_GRP_STATUS g) 0 true
  let s : State := { s with pwm := { s.pwm with grpAt := Tab.set (fun _ => none) s.pwm.grpAt g (some s.now) } }
  s.publish (0x228 + g) 0#32

/-- Another leg of the group tripped within 1 us (R223). -/
def tripNear (s : State) (n : Nat) : Bool :=
  (groupLegs (n / 4)).any (fun k => k != n &&
    (match (pwmLeg s k).trippedAt with
      | some t => decide (s.now ≤ t + 1000)
      | none => false))

/-- A leg trips (R222, R223). -/
def State.legTrip (s : State) (n : Nat) : State :=
  let s := (s.setb .pwm (PWM_STATUS n) 0 true).count .pwm (PWM_CNT_TRIP n)
  let s := s.onPwm n (fun l => { l.idle with trippedAt := some s.now })
  let s := s.publish (0x220 + n) 0#32
  if tripNear s n && !s.flag .pwm (PWM_GRP_STATUS (n / 4)) 0 then s.groupTrip (n / 4) else s

/-- PWM_SC (R217, R222, R223): the SC pin has shown a level since the sample at TB `first`; it is accepted after two
equal samples, one a tick, and SC_POL says which level is active. -/
def execPwmSc (n : Fin 8) (level : Bool) (first : BitVec 64) (s : State) : Host.Outcome State Fault Refusal :=
  .next (
    let act := level != s.flag .pwm (PWM_CTRL n) 27
    if halfNow s < first.toNat * 2 + 5 then s
    else
      let s := s.each (groupLegs (n / 4)) (fun s k => s.pwmSettle k (min (halfNow s) (first.toNat * 2 + 5)))
      let s := s.setb .pwm (PWM_STATUS n) 3 act
      let s := s.setb .pwm (PWM_GRP_STATUS (n / 4)) 1 (groupSc s (n / 4))
      if act ∧ ¬ s.flag .pwm (PWM_STATUS n) 0 then s.legTrip n else s)

/-- A leg that may run again: FREE restarts at a new reload, STROBE waits for its next event (R222). -/
def State.pwmRestart (s : State) (n : Nat) : State :=
  if s.flag .pwm (PWM_CTRL n) 31 && !pwmStrobe s n then
    s.onPwm n (fun l => l.idle.await (halfNow s, 0))
  else s.onPwm n LegSt.idle

/-- CLEAR (R222). -/
def State.pwmClear (s : State) (n : Nat) : State :=
  if s.flag .pwm (PWM_STATUS n) 3 || s.flag .pwm (PWM_STATUS n) 1 then s.setb .pwm (PWM_STATUS n) 7 true
  else if s.flag .pwm (PWM_STATUS n) 0 then (s.setb .pwm (PWM_STATUS n) 0 false).pwmRestart n
  else s

/-- PWM_CLEAR (R222). -/
def execPwmClear (n : Fin 8) (s : State) : Host.Outcome State Fault Refusal := .next (s.pwmClear n)

/-- A write to PWM_GRP_CLEAR with its bit set (R223). -/
def State.pwmGrpClear (s : State) (g : Nat) : State :=
  let since : Bool := match Tab.get (fun _ => none) s.pwm.grpAt g with
    | some t => decide (t + 10000000 ≤ s.now)
    | none => false
  if s.flag .pwm (PWM_GRP_STATUS g) 0 && since && !groupSc s g then
    let s := s.setb .pwm (PWM_GRP_STATUS g) 0 false
    s.each (groupLegs g) (fun s n =>
      ((s.setb .pwm (PWM_STATUS n) 1 false).setb .pwm (PWM_STATUS n) 0 false).pwmRestart n)
  else s.setb .pwm (PWM_GRP_STATUS g) 2 true

/-- PWM_GRP_CLEAR (R223). -/
def execPwmGrpClear (g : Fin 2) (s : State) : Host.Outcome State Fault Refusal := .next (s.pwmGrpClear g)

/-- A write to PWM_CTRL (R217, R220, R222, R224): EN starts or stops the leg, CLEAR acts, a leg that turns to FREE
starts. -/
def State.pwmCtrlWrite (s : State) (n : Nat) (v : Word) : State :=
  let s := s.pwmSettle n (halfNow s)
  let was := s.flag .pwm (PWM_CTRL n) 31
  let strobe := pwmStrobe s n
  let s := s.store .pwm (PWM_CTRL n) v
  let on := s.flag .pwm (PWM_CTRL n) 31
  let s := if !on then s.onPwm n LegSt.idle
    else if !pwmStrobe s n && (!was || (strobe && (pwmLeg s n).cycle.isNone)) then
      s.onPwm n (fun l => l.idle.await (halfNow s, 0))
    else s
  if bit v 14 then s.pwmClear n else s

end Sys2Proof.Machine
end

