-- ==== Sys2Proof/Machine/Timebase.lean ====
section
/-! DEFINITION. The timebase (R11 to R17): the advance of TB, rate, jump, slew, PPS alignment. -/
namespace Sys2Proof.Machine

/-- Largest rate offset, in 2^-32 ns per ns (R13). -/
def rateLimit : Int := 4294967

/-- The slew in a cycle, in 2^-32 ns: plus or minus 2^-10 ns while a step remains (R14). -/
def slewOf (rem : Int) : Int := if rem = 0 then 0 else if rem < 0 then -4194304 else 4194304

/-- The remaining step after one cycle (R14). -/
def remAfter (rem : Int) : Int := if rem = 0 then 0 else if rem < 0 then rem + 1 else rem - 1

/-- HST_TB_STEP as it reads: the remaining step's magnitude rounded up to whole ns, with its sign (R14). -/
def stepReading (rem : Int) : Word :=
  let m : Int := ((rem.natAbs + 1023) / 1024 : Nat)
  BitVec.ofInt 32 (if rem < 0 then -m else m)

/-- The time after one nanosecond cycle (R12): TB and the fractional accumulator. -/
def tbAfter (tb frac : Nat) (rate rem : Int) : Nat × Nat :=
  let sum := ((frac : Int) + 4294967296 + rate + slewOf rem).toNat
  (tb + sum / 2 ^ 32, sum % 2 ^ 32)

/-- Put the timebase's remaining step and SLEW_BUSY (R14). -/
def TimeSt.withRem (t : TimeSt) (rem : Int) : TimeSt :=
  { t with stepRem := rem, regs := wrBit t.regs HST_TB_STATUS 3 (decide (rem ≠ 0)) }

/-- One nanosecond cycle of the timebase (R12, R14). -/
def TimeSt.cycle (t : TimeSt) : TimeSt :=
  let p := tbAfter t.tb t.frac (rget t.regs HST_TB_RATE).toInt t.stepRem
  { t with tb := p.1, frac := p.2 }.withRem (remAfter t.stepRem)

/-- TB jumps forward (R14); a captured PPS_IN edge keeps its distance from now (R17). -/
def TimeSt.jump (t : TimeSt) (n : Nat) : TimeSt := { t with tb := t.tb + n, ppsLast := t.ppsLast.map (fun p => p + n) }

/-- Request a phase correction of a signed number of ns (R14): a jump, a slew, or a rejection. -/
def TimeSt.requestStep (t : TimeSt) (step : Int) : TimeSt :=
  if bit (rget t.regs HST_TB_STATUS) 3 then { t with regs := wrBit t.regs HST_TB_STATUS 4 true }
  else if step = 0 then t
  else if 0 < step ∧ bit (rget t.regs HST_TB_CTRL) 1 ∧ bits (rget t.regs HST_TB_STATUS) 1 0 ≠ 2 then
    t.jump step.toNat
  else t.withRem (step * 1024)

/-- Set STEP_REJ (R29). -/
def TimeSt.stepRej (t : TimeSt) : TimeSt := { t with regs := wrBit t.regs HST_TB_STATUS 4 true }

/-- The value of HST_TB_RATE after a write, and whether it was clipped (R13). -/
def clipRate (v : Word) : Word × Bool :=
  let z := clampInt (-rateLimit) rateLimit v.toInt
  (BitVec.ofInt 32 z, decide (z ≠ v.toInt))

/-- Put the discipline bit; clearing it sets STATE to FREE (R15). -/
def TimeSt.putDisc (t : TimeSt) (disc : Bool) : TimeSt :=
  let was := bit (rget t.regs HST_TB_CTRL) 0
  let t := { t with regs := wrBit t.regs HST_TB_CTRL 0 disc }
  if was && !disc then { t with regs := wrBits t.regs HST_TB_STATUS 1 0 0 } else t

/-- The smallest step that makes a captured value a whole second; +0.5 s at the halfway point (R17). -/
def alignStep (tb : Nat) : Int :=
  let r := tb % 1000000000
  if r < 500000000 then -(r : Int) else ((1000000000 - r : Nat) : Int)

/-- PPS_IN edges closer than this to a captured edge are ignored (R17), in ns. -/
def ppsHoldoff : Nat := 500000000

/-- Whether a PPS_IN edge now is captured (R17). -/
def TimeSt.ppsDue (t : TimeSt) : Bool :=
  bit (rget t.regs HST_TB_CTRL) 2 &&
    (match t.ppsLast with | none => true | some p => decide (ppsHoldoff ≤ t.tb - p))

/-- The capture of a PPS_IN edge (R15, R17). -/
def TimeSt.ppsCapture (t : TimeSt) : TimeSt :=
  let r := rset (rset t.regs HST_PPS_LO (lo32 t.tb)) HST_PPS_HI (hi32 t.tb)
  let r := wrBit (wrBit r HST_TB_STATUS 6 true) HST_TB_CTRL 2 false
  let t := { t with regs := r, ppsLast := some t.tb }
  if bit (rget t.regs HST_TB_CTRL) 0 then t.stepRej
  else t.requestStep (alignStep t.tb)

/-- Change the timebase block. -/
def State.onTime (s : State) (f : TimeSt → TimeSt) : State := { s with time := f s.time }

/-- One nanosecond of TB; while the core is held in reset or without power, TB does not count (R11). -/
def State.tbCycle (s : State) : State := if s.pwr.coreUp then s.onTime TimeSt.cycle else s

/-- TB_ADVANCE (R11, R12). -/
def execTbAdvance (s : State) : Host.Outcome State Fault Refusal := .next s.tbCycle

/-- SLEW_END (R14): the cycle in which the remaining step reaches 0. -/
def execSlewEnd (s : State) : Host.Outcome State Fault Refusal :=
  .next (if s.time.stepRem.natAbs = 1 then s.tbCycle else s)

/-- A write to HST_TB_RATE (R13, R15). -/
def TimeSt.rateWrite (t : TimeSt) (v : Word) : TimeSt :=
  if bit (rget t.regs HST_TB_CTRL) 0 then t.stepRej
  else
    let p := clipRate v
    let r := rset t.regs HST_TB_RATE p.1
    { t with regs := if p.2 then wrBit r HST_TB_STATUS 5 true else r }

/-- A write to HST_TB_STEP (R14, R15). -/
def TimeSt.stepWrite (t : TimeSt) (v : Word) : TimeSt :=
  if bit (rget t.regs HST_TB_CTRL) 0 then t.stepRej else t.requestStep v.toInt

/-- TB_RATE_WRITE (R13, R15). -/
def execTbRateWrite (v : Word) (s : State) : Host.Outcome State Fault Refusal :=
  .next (s.onTime (fun t => t.rateWrite v))

/-- TB_STEP_WRITE (R14, R15). -/
def execTbStepWrite (v : Word) (s : State) : Host.Outcome State Fault Refusal :=
  .next (s.onTime (fun t => t.stepWrite v))

/-- Set PPS_ARM (R17, R29). -/
def TimeSt.ppsArm (t : TimeSt) : TimeSt := { t with regs := wrBit t.regs HST_TB_CTRL 2 true }

/-- PPS_ARM (R17). -/
def execPpsArm (s : State) : Host.Outcome State Fault Refusal := .next (s.onTime TimeSt.ppsArm)

/-- DISC_WRITE (R15). -/
def execDiscWrite (disc : Bool) (s : State) : Host.Outcome State Fault Refusal :=
  .next (s.onTime (fun t => t.putDisc disc))

/-- PPS_CAPTURE (R15, R17): a rising PPS_IN edge; nothing unless it is to be captured. -/
def execPpsCapture (s : State) : Host.Outcome State Fault Refusal :=
  .next (if s.time.ppsDue then s.onTime TimeSt.ppsCapture else s)

/-- A write to HST_TB_CTRL: JUMP is stored, DISC started or stopped, PPS_ARM set (R15, R17, R29). -/
def TimeSt.ctrlWrite (t : TimeSt) (v : Word) : TimeSt :=
  let t := { t with regs := wrBit t.regs HST_TB_CTRL 1 (bit v 1) }
  let t := t.putDisc (bit v 0)
  if bit v 2 then t.ppsArm else t

/-! ### Access errors (R25, R257) -/

/-- Set an error of HST_ACCESS_ERR; the access that sets ANY from 0 is captured (R25). -/
def State.accessErr (s : State) (i : Nat) (lo hi : Word) : State :=
  let was := s.flag .time HST_ACCESS_ERR 0
  let s := (s.setb .time HST_ACCESS_ERR i true).setb .time HST_ACCESS_ERR 0 true
  if was then s else (s.wr .time HST_ACCESS_ADDR lo).wr .time HST_ACCESS_ADDR_HI hi

/-- ACCESS_ERR_CLEAR (R25): W1C bits of HST_ACCESS_ERR; clearing ANY re-arms the capture. -/
def execAccessErrClear (v : Word) (s : State) : Host.Outcome State Fault Refusal :=
  .next (s.store .time HST_ACCESS_ERR v)

/-- UNMAPPED_WRITE (R25): dropped, UNMAPPED set; nothing where a register stands. -/
def execUnmappedWrite (addr : Nat) (_v : Word) (s : State) : Host.Outcome State Fault Refusal :=
  .next (if (regAt addr).isNone then s.accessErr 2 (lo32 addr) 0#32 else s)

end Sys2Proof.Machine
end

