-- ==== Sys2Proof/Machine/Caravan.lean ====
section
/-! DEFINITION. Caravan as a tree: its registers, enumeration (R344 to R348), the switch of tables (R343, R346), link
loss and failover (R335, R353). -/
namespace Sys2Proof.Machine

/-! ### The second uplink (R353) -/

/-- The ALT port with the least neighbour depth, no more than 11; ties go to the lower port. -/
def secondUplink (s : State) : Option Nat :=
  let ok (p : Nat) : Bool := s.cvn.cur.role p == 3 && cvLink s p && decide (s.fld .cvn (CVN_PORT_STATUS p) 14 11 ≤ 11)
  (cvPorts.filter ok).foldl (fun b p =>
    match b with
    | some q => if s.fld .cvn (CVN_PORT_STATUS p) 14 11 < s.fld .cvn (CVN_PORT_STATUS q) 14 11 then some p else b
    | none => some p) none

/-- UP2_VALID and UPLINK2 as the table and the neighbours stand. -/
def State.up2Sync (s : State) : State :=
  match if s.flag .cvn CVN_CTRL 29 then secondUplink s else none with
  | some p => (s.setb .cvn CVN_STATUS 26 true).put .cvn CVN_STATUS 25 24 p
  | none => (s.setb .cvn CVN_STATUS 26 false).put .cvn CVN_STATUS 25 24 0

/-- The table in force as the registers show it (R360). -/
def State.tabRegs (s : State) : State :=
  let t := s.cvn.cur
  let s := s.each cvPorts (fun s p =>
    let s := s.put .cvn (CVN_PORT_STATUS p) 31 30 (t.role p)
    let s := s.put .cvn (CVN_PORT_RANGE p) 27 16 (if t.role p = 2 then atD t.his p 0 else 0)
    s.put .cvn (CVN_PORT_RANGE p) 11 0 (if t.role p = 2 then atD t.los p 0 else 0))
  let s := (s.put .cvn CVN_ID 19 16 t.depth).put .cvn CVN_ID 11 0 t.id
  let s := (s.put .cvn CVN_GEN 15 0 t.gen).put .cvn CVN_STATUS 23 22 (t.up.getD 0)
  s.up2Sync

/-! ### Enumeration: the walk (R344, R345, R348) -/

/-- A COMMIT goes down the tree of its pass.  DEDUCED (log 47): the committed tables do not lead to every device that
the pass numbered. -/
def State.commitDown (s : State) (e : EnumSt) (c : Cell) (k : Option (Nat × Bool × Nat)) : State :=
  s.each (e.tab.downs.filter (fun p => cvActive s p)) (fun s p => s.cvPut p c k)

/-- A broadcast COMMIT, or the end of an unclean pass (R346); the jump of R351. -/
def State.rootEnds (s : State) (e : EnumSt) : State :=
  let w := BitVec.ofNat 32 (e.tab.gen + e.count % 8192 * 2 ^ 16 + 2 ^ 31 * b2n e.clean)
  let s := (s.setb .cvn CVN_STATUS 28 false).wr .cvn CVN_ENUM_RESULT w
  let s := s.publish 0x238 w
  let s : State := { s with cvn := { s.cvn with pass := none, change := s.cvn.change.map (fun _ => s.now) } }
  if e.clean then
    let jump := s.flag .time HST_TB_CTRL 1
    let s := if 0 < e.excess ∧ ¬ jump then s.setb .cvn CVN_STATUS 3 true else s
    let add := if 0 < e.excess ∧ jump then e.excess + 1000000 else 0
    let s := s.commitDown e (newCell s 5 false true 0 [] (.commit e.tab.gen e.no (s.now + 1000000))) none
    { s with cvn := { s.cvn with commit := some (s.now + 1000000, add, e.tab) } }
  else s.count .cvn CVN_CNT_ENUM_ABORT

/-- The IDs that stay reserved for the ports of a list (R345). -/
def portsResv (s : State) (ps : List Nat) : Nat := (ps.map (fun p => (cvPort s p).resv)).sum

/-- The walk goes on behind a port: the next port that can be probed, or the token goes back (R345).  DEDUCED (log 47): a
port passed over keeps its reservation, so that NEXT moves past it. -/
def State.walkOn (s : State) (e : EnumSt) (from' : Nat) : State :=
  let found := cvPorts.find? (fun p => decide (from' ≤ p) && e.parent != some p && cvActive s p)
  let passed := cvPorts.filter (fun p => decide (from' ≤ p ∧ p < found.getD 4) && e.parent != some p)
  let e := { e with next := e.next + portsResv s passed }
  match found with
  | some p =>
    let s := s.cvPut p (enumCell s false (.probe e.tab.gen e.no)) none
    { s with cvn := { s.cvn with pass := some { e with port := p, wait := .probe s.now } } }
  | none =>
    let e := { e with port := 4, wait := .idle, done := true }
    match e.parent with
    | some p =>
      let s := s.cvPut p (enumCell s true (.ret e.no e.next e.count e.clean e.excess)) none
      { s with cvn := { s.cvn with pass := some e } }
    | none => s.rootEnds e

/-- The port being walked is settled with a role; the walk goes on. -/
def State.walkPort (s : State) (e : EnumSt) (role lo hi : Nat) : State :=
  s.walkOn { e with tab := e.tab.put e.port role lo hi } (e.port + 1)

/-- The port being walked gave no child: UNUSED for the pass, its reservation kept (R345; DEDUCED, log 47). -/
def State.walkPast (s : State) (e : EnumSt) : State :=
  s.walkPort { e with next := e.next + (cvPort s e.port).resv } 0 0 0

/-- The excess this device reports: how far it is ahead, while AHEAD is set (R351). -/
def ownExcess (s : State) : Nat := if s.flag .cvn CVN_STATUS 2 then (-s.cvn.theta).toNat else 0

/-- RENUMBER: no reservation holds (R345). -/
def State.forgetResv (s : State) (renumber : Bool) : State :=
  if renumber then s.each cvPorts (fun s p => s.onCv p (fun x => { x with resv := 0 })) else s

/-- The root starts a pass (R344, R345).  DESIGN CHOICE (log 47): the number of a pass is its count at the root and a free
value, which tells the passes of different roots apart. -/
def State.passStart (s : State) (renumber : Bool) : State :=
  let s := (s.setb .cvn CVN_STATUS 28 true).count .cvn CVN_CNT_ENUM_PASS
  let s := s.forgetResv renumber
  let s : State := { s with cvn := { s.cvn with change := none, passes := s.cvn.passes + 1 } }
  let gen := (s.fld .cvn CVN_GEN 15 0 + 1) % 65536
  let no := s.cvn.passes * 2 ^ 64 + (s.drawn 64).toNat
  s.draw.walkOn { tab := { RouteTab.init with gen := gen }, no := no, parent := none, port := 0, wait := .idle, next := 1, count := 1,
                      clean := true, renumber := renumber, excess := ownExcess s, done := false, progAt := s.now } 0

/-- SPAN_ENUM (R277, R344): ARG0 [0] START, [1] RENUMBER. -/
def execSpanEnum (s : State) : Host.Outcome State Fault Refusal :=
  .next (s.mbxRun 0x20 (fun s =>
    let a := mbxArg s 0
    if !isRoot s then (s, 6, [])
    else if s.flag .cvn CVN_STATUS 28 then (s, 5, [])
    else if tbit a 0 then (s.passStart (tbit a 1), 0, [])
    else (s, 0, [])))

/-- ENUM_AUTO_START (R344). -/
def execEnumAutoStart (s : State) : Host.Outcome State Fault Refusal :=
  .next (match s.cvn.change with
    | some t =>
      if isRoot s ∧ s.flag .cvn CVN_CTRL 30 ∧ ¬ s.flag .cvn CVN_STATUS 28 ∧
          t + s.fld .cvn CVN_CTRL 23 16 * 1000000 ≤ s.now then s.passStart false
      else s
    | none => s)

/-- A CHANGE reaches the root, or goes on towards it (R344), with the receive buffer it holds. -/
def State.changeSend (s : State) (c : Cell) (k : Option (Nat × Bool × Nat)) : State :=
  if isRoot s then { s with cvn := { s.cvn with change := some s.now } }
  else match s.cvn.cur.up with
    | some p => if cvLink s p then s.cvPut p c k else s
    | none => s.each (cvPorts.filter (fun p => cvActive s p)) (fun s p => s.cvPut p c k)

/-- CHANGE (R344, R346, R347): a change this device owes is sent towards the root. -/
def execChange (s : State) : Host.Outcome State Fault Refusal :=
  .next (if s.cvn.changeOwed then
      ({ s with cvn := { s.cvn with changeOwed := false } } : State).changeSend (newCell s 5 false false 0 [] .change) none
    else s)

/-- The device owes a CHANGE. -/
def State.oweChange (s : State) : State := { s with cvn := { s.cvn with changeOwed := true } }

/-- An answer to the PROBE on a port (R345). -/
def State.probeAnswer (s : State) (p : Nat) (m : CvnMsg) : State :=
  match s.cvn.pass with
  | some e =>
    (match e.wait with
    | .probe _ =>
      if e.port ≠ p then s
      else match m with
        | .answerNew =>
          if e.tab.depth < 12 ∧ e.next < 4096 then
            let s := s.cvPut p (enumCell s false (.token e.tab.gen e.no e.next (e.tab.depth + 1) e.renumber)) none
            { s with cvn := { s.cvn with pass := some { e with wait := .token s.now, progAt := s.now } } }
          else (s.count .cvn CVN_CNT_ENUM_LIMIT).walkPort e 0 0 0
        | .answerSeen i _ => s.walkPort e (if i < e.tab.id then 3 else 0) 0 0
        | .answerConflict => (s.setb .cvn CVN_STATUS 4 true).walkPast e
        | _ => s
    | _ => s)
  | none => s

/-- PROBE (R341, R345): the answer to the oldest PROBE on a port, once there is response credit for it.  DEDUCED (log 47):
what an earlier pass gave and no COMMIT took is discarded here. -/
def execProbe (p : Fin 4) (s : State) : Host.Outcome State Fault Refusal :=
  .next (if !rspCredit s p then s else match s.cvTake p (fun c => match c.msg with | .probe _ _ => true | _ => false) with
    | some (⟨_, _, _, _, _, _, _, _, .probe _ n⟩, s) =>
      (match s.cvn.pass.filter (fun e => e.no == n) with
      | some e => s.cvPut p (enumCell s true (.answerSeen e.tab.id e.tab.depth)) none
      | none =>
        let s : State := if isRoot s then s else { s with cvn := { s.cvn with pass := none } }
        if isRoot s then (s.setb .cvn CVN_STATUS 4 true).cvPut p (enumCell s true .answerConflict) none
        else s.cvPut p (enumCell s true .answerNew) none)
    | some (_, s) => s
    | none => s)

/-- PROBE_TIMEOUT (R345): no answer for 100 us. -/
def execProbeTimeout (s : State) : Host.Outcome State Fault Refusal :=
  .next (match s.cvn.pass with
    | some e =>
      (match e.wait with
      | .probe t => if t + 100000 ≤ s.now then s.walkPast e else s
      | _ => s)
    | none => s)

/-- TOKEN (R341, R345): a provisional ID and depth; the ports are probed.  It is held until there is response credit. -/
def execToken (p : Fin 4) (s : State) : Host.Outcome State Fault Refusal :=
  .next (if !rspCredit s p then s else match s.cvTake p (fun c => match c.msg with | .token _ _ _ _ _ => true | _ => false) with
    | some (⟨_, _, _, _, _, _, _, _, .token g n i d r⟩, s) =>
      let s := s.forgetResv r
      let t : RouteTab := { RouteTab.init with gen := g, id := i, depth := d }
      s.walkOn { tab := t.put p 1 0 0, no := n, parent := some p, port := 0, wait := .idle, next := i + 1, count := 1, clean := true
                 renumber := r, excess := ownExcess s, done := false, progAt := s.now } 0
    | some (_, s) => s
    | none => s)

/-- RETURN (R345): the branch on the port is a DOWN range; one that nobody waits for is discarded (R348). -/
def execEnumReturn (p : Fin 4) (s : State) : Host.Outcome State Fault Refusal :=
  .next (match s.cvTake p (fun c => match c.msg with | .ret _ _ _ _ _ => true | _ => false) with
    | some (⟨_, _, _, _, _, _, _, _, .ret no n k cl x⟩, s) =>
      (match s.cvn.pass with
      | some e =>
        (match e.wait with
        | .token _ =>
          if e.port ≠ p ∨ e.no ≠ no then s
          else
            let lo := e.next
            let hi := max n (lo + (cvPort s p).resv) - 1
            s.walkPort { e with next := hi + 1, count := e.count + k, clean := e.clean && cl, excess := max e.excess x } 2 lo hi
        | _ => s)
      | none => s)
    | some (_, s) => s
    | none => s)

/-- PROGRESS (R348): sent to the parent every 100 ms of waiting for RETURN. -/
def execProgress (s : State) : Host.Outcome State Fault Refusal :=
  .next (match s.cvn.pass with
    | some e =>
      (match e.wait, e.parent with
      | .token _, some p =>
        if e.progAt + 100000000 ≤ s.now then
          let s := s.cvPut p (enumCell s true .progress) none
          { s with cvn := { s.cvn with pass := some { e with progAt := s.now } } }
        else s
      | _, _ => s)
    | none => s)

/-- The branch on the walked port is aborted (R348). -/
def State.branchAbort (s : State) (e : EnumSt) : State := s.walkPort { e with clean := false } 0 0 0

/-- ENUM_BRANCH_ABORT (R348): the link of the walked port is gone, or 500 ms without a sign of life. -/
def execEnumBranchAbort (s : State) : Host.Outcome State Fault Refusal :=
  .next (match s.cvn.pass with
    | some e =>
      (match e.wait with
      | .token t => if !cvActive s e.port || decide (t + 500000000 ≤ s.now) then s.branchAbort e else s
      | .probe _ => if cvActive s e.port then s else s.branchAbort e
      | .idle => s)
    | none => s)

/-! ### Commit (R343, R346) -/

/-- COMMIT (R346): the switch of the pass this device took part in is scheduled. -/
def execCommit (p : Fin 4) (s : State) : Host.Outcome State Fault Refusal :=
  .next (match s.cvTake p (fun c => match c.msg with | .commit _ _ _ => true | _ => false) with
    | some (⟨_, _, _, _, _, _, _, _, .commit _ n t⟩, s) =>
      (match s.cvn.pass with
      | some e =>
        if e.no = n ∧ e.done then { s with cvn := { s.cvn with commit := some (t, 0, e.tab), pass := none } } else s
      | none => s)
    | some (_, s) => s
    | none => s)

/-- Every stream's serial and epoch are loaded from TB (R177, R346). -/
def State.loadSerials (s : State) : State :=
  s.each (List.range 96) (fun s t => s.onObj t (fun x => { x with
    serial := s.now / 512 % 2 ^ 45, epoch := tbit s.now 54 }))

/-- The new table is in force (R346, R353). -/
def State.takeTable (s : State) (t : RouteTab) : State :=
  let changed := s.fld .cvn CVN_ID 11 0 != t.id
  let s : State := { s with cvn := { s.cvn with
    prev := some (s.cvn.cur, s.now + 10000000), cur := t, overrides := [], commit := none } }
  let s := ((s.setb .cvn CVN_ID 31 true).setb .cvn CVN_STATUS 30 true).setb .cvn CVN_STATUS 29 false
  let s := s.setb .cvn CVN_STATUS 27 false
  let s := s.each cvPorts (fun s p =>
    let s := s.setb .cvn (CVN_PORT_STATUS p) 29 (t.role p != 0 && cvActive s p)
    s.onCv p (fun x => { x with
      before := none, resv := if t.role p = 2 then atD t.his p 0 + 1 - atD t.los p 0 else x.resv }))
  let s := s.tabRegs
  if changed then s.loadSerials else s

/-- ENUM_SWITCH (R346, R351): the switch instant has come. -/
def execEnumSwitch (s : State) : Host.Outcome State Fault Refusal :=
  .next (match s.cvn.commit with
    | some (t, j, tab) =>
      if t ≤ s.now then (s.takeTable tab).onTime (fun x => x.jump j) else s
    | none => s)

/-- ROUTE_TABLE_EXPIRE (R343): 10 ms after a commit. -/
def execRouteTableExpire (s : State) : Host.Outcome State Fault Refusal :=
  .next (match s.cvn.prev with
    | some (_, t) => if t ≤ s.now then { s with cvn := { s.cvn with prev := none } } else s
    | none => s)

/-! ### Loss of a link and failover (R335, R353) -/

/-- The largest ID of this device's subtree. -/
def subtreeHi (s : State) : Nat := (s.cvn.cur.downs.map (fun p => atD s.cvn.cur.his p 0)).foldl max s.cvn.cur.id

/-- TB transfer on a port is current: a valid exchange in the last 4 periods (R350, R353). -/
def syncFresh (s : State) (p : Nat) : Bool :=
  match (cvPort s p).lastEx with
  | some t => decide (s.now < t + 4 * s.fld .cvn CVN_SYNC 15 0 * 1000)
  | none => false

/-- F: the mean of the rates written over the last 16 exchanges; the present rate if they wrote none (R350; DESIGN CHOICE,
log 48). -/
def rateF (s : State) : Int :=
  match s.cvn.rates.filterMap id with
  | [] => (s.rd .time HST_TB_RATE).toInt
  | l => idivRound l.sum l.length

/-- TB goes to HOLDOVER: HST_TB_RATE stands at F (R350), a mean of rates within the limits of R13. -/
def State.tbHold (s : State) : State :=
  let st := s.fld .time HST_TB_STATUS 1 0
  if s.flag .time HST_TB_CTRL 0 && (st == 1 || st == 2) then
    let f := BitVec.ofInt 32 (rateF s)
    ((s.put .time HST_TB_STATUS 1 0 3).wr .cvn CVN_RATE_F f).wr .time HST_TB_RATE (clipRate f).1
  else s

/-- The UP link is gone: the second uplink takes over, if there is one (R353). -/
def State.failover (s : State) (old : Nat) : State :=
  if !s.flag .cvn CVN_STATUS 26 then s
  else
    let p := s.fld .cvn CVN_STATUS 25 24
    let t := s.cvn.cur
    let t := { (t.put old 0 0 0).put p 1 0 0 with depth := s.fld .cvn (CVN_PORT_STATUS p) 14 11 + 1 }
    let s := ({ s with cvn := { s.cvn with cur := t } } : State).tabRegs
    let s := (s.count .cvn CVN_CNT_FAILOVER).setb .cvn CVN_STATUS 27 true
    let s := s.cvUp (newCell s 5 false false 0 [] (.reroute t.id (subtreeHi s))) none
    if syncFresh s p then s else s.tbHold

/-- A span port whose link is lost: what was on the link is gone; the neighbour is remembered (R335). -/
def CvPort.lost (x : CvPort) (st : Word) : CvPort :=
  { x with
    sentReq := 0, sentRsp := 0, ackReq := 0, ackRsp := 0, freedReq := 0, freedRsp := 0, out := [], t1 := none
    reqAt := none, answer := none, rsp := none, synced := false, late := none
    before := if bit st 29 then some (bits st 27 16, x.nbrGen) else x.before }

/-- A pass as it goes on without a port: the token came on it, or it is the one being walked (R348). -/
def State.passLost (s : State) (p : Nat) : State :=
  match s.cvn.pass with
  | some e =>
    if e.parent = some p ∧ ¬ e.done then { s with cvn := { s.cvn with pass := none } }
    else if e.port = p ∧ e.wait ≠ EnumWait.idle then s.branchAbort e
    else s
  | none => s

/-- A link is lost (R335, R344, R348, R353): the port leaves routing, what was on it is gone. -/
def State.spanLost (s : State) (p : Nat) : State :=
  let st := s.rd .cvn (CVN_PORT_STATUS p)
  let gone := (cvPort s p).out
  let s := (s.setb .cvn (CVN_PORT_STATUS p) 29 false).setb .cvn CVN_STATUS 1 true
  let s := s.onCv p (fun y => y.lost st)
  let other (h : Option (Nat × Bool × Nat)) : Option (Nat × Bool × Nat) := h.filter (fun k => k.1 != p)
  let s : State := { s with cvn := { s.cvn with
    inbox := s.cvn.inbox.map (fun e => { e with holds := other e.holds }) } }
  let s := s.each cvPorts (fun s q => s.onCv q (fun y => { y with
    out := y.out.map (fun e => { e with holds := other e.holds }) }))
  let s := s.each gone (fun s e => s.bufDone e.holds)
  let s := (s.contained 47 0x31 p (bits st 27 16)).passLost p
  (if s.cvn.cur.up = some p then s.failover p else s.up2Sync).oweChange

/-- A span port that was in ACTIVE and is no more has lost its link (R335, R336, R360). -/
def State.linkCheck (s s0 : State) (p : Nat) : State :=
  if 24 ≤ p ∧ portState s0 p = phActive ∧ portState s p ≠ phActive then s.spanLost (p - 24) else s

/-- LINK_RECOVER (R84, R105, R106, R335): loss of SIG, CDR or alignment on a configured lane in ACTIVE. -/
def execLinkRecover (p : Fin 28) (lane : Fin 2) (loss : LinkLoss) (s : State) :
    Host.Outcome State Fault Refusal := .next ((s.linkRecover p lane loss).linkCheck s p)

/-- RX_MARKER_GROUP (R104 to R106, R335): a place of a lane's line bits that may start a group. -/
def execRxMarkerGroup (p : Fin 28) (lane : Fin 2) (decisions : BitVec 5440) (before : Fin 4) (place arrival : Nat)
    (s : State) : Host.Outcome State Fault Refusal :=
  .next ((s.markerGroup p lane decisions before place arrival).linkCheck s p)

/-- A write to DLP_CTRL or CVN_PHY_CTRL (R82, R83, R84, R98, R333). -/
def State.ctrlWrite (s : State) (p : Nat) (v : Word) : State := (s.phyCtrlWrite p v).linkCheck s p

/-- PORT_EN_WRITE (R83, R84, R98): a write to DLP_CTRL. -/
def execPortEnWrite (p : Fin 28) (v : Word) (s : State) : Host.Outcome State Fault Refusal := .next (s.ctrlWrite p v)

/-- RETRAIN (R82, R85, R91). -/
def execRetrain (p : Fin 28) (s : State) : Host.Outcome State Fault Refusal := .next ((s.retrain p).linkCheck s p)

/-- CVN_LINK_LOST (R335): SIG, CDR lock, two uncorrectable codewords, or 1.5 us without a good header; the lane follows
R84 through RECOVER. -/
def execCvnLinkLost (p : Fin 4) (how : SpanLoss) (s : State) : Host.Outcome State Fault Refusal :=
  let quiet := decide (max (cvPort s p).lastGood (s.phyPort (24 + p)).entered + 1500 ≤ s.now)
  .next (if ¬ cvActive s p ∨ (how = .silence ∧ ¬ quiet) then s
    else
      let loss : LinkLoss := match how with
        | .sig => .sig
        | .cdr => .cdr
        | _ => .alignment
      (s.linkRecover (24 + p) 0 loss).linkCheck s (24 + p))

/-- CV_REFCLK_LOSS (R336, R390). -/
def execCvRefclkLoss (s : State) : Host.Outcome State Fault Refusal :=
  .next (if !refOk s 24 then s
    else
      let s := s.each cvPorts (fun s p => (s.loseRef (24 + p)).linkCheck s (24 + p))
      (s.contained 47 0x33 0 0).tbHold)

/-- CV_REFCLK_RETURN (R336): enabled ports enter DETECT with k = 0. -/
def execCvRefclkReturn (s : State) : Host.Outcome State Fault Refusal :=
  .next (if refOk s 24 then s else s.each cvPorts (fun s p => s.gainRef (24 + p)))

/-- Install an override; a 17th replaces the oldest (R353). -/
def State.putOverride (s : State) (lo hi p : Nat) : State :=
  { s with cvn := { s.cvn with overrides := ((lo, hi, p) :: s.cvn.overrides.filter (fun o => o.1 != lo || o.2.1 != hi)).take 16 } }

/-- REROUTE (R353): on its way up it installs an override towards the port it came on; the root broadcasts it; a
broadcast one installs an override towards UP where none stands. -/
def execReroute (p : Fin 4) (s : State) : Host.Outcome State Fault Refusal :=
  .next (match s.cvTake p (fun c => match c.msg with | .reroute _ _ => true | _ => false) with
    | some (⟨g, r, b, g0, d, x, h, y, .reroute lo hi⟩, s) =>
      if b then
        (if s.cvn.overrides.any (fun o => o.1 == lo && o.2.1 == hi) then s
        else match s.cvn.cur.up with
          | some u => s.putOverride lo hi u
          | none => s)
      else
        let s := s.putOverride lo hi p
        if isRoot s then s.cvBroadcast (newCell s 5 false true 0 [] (.reroute lo hi))
        else s.cvUp ⟨g, r, b, g0, d, x, h + 1, y, .reroute lo hi⟩ none
    | some (_, s) => s
    | none => s)

end Sys2Proof.Machine
end

