-- ==== Sys2Proof/Machine/Span.lean ====
section
/-! DEFINITION. What Caravan cells do: transmission and reception (R334, R338 to R342, R347), time transfer (R349, R350),
positions (R354, R355), events (R356), handover (R357, R358), remote access (R359), and the release of records (R190). -/
namespace Sys2Proof.Machine

/-! ### Transmission (R334, R340) -/

/-- Where a cell stands in the order of R340. -/
def txRank (c : Cell) : Nat :=
  if c.cls = 0 then 0 else if c.resp then 3
  else if c.cls = 1 then 1 else if c.cls = 3 then 2 else if c.cls = 2 then 4 else if c.cls = 4 then 5 else 6

/-- The first ready cell: of each place in the order, the cell that became ready first, while it has credit. -/
def txNext (s : State) (p : Nat) : Option OutCell :=
  ((List.range 7).filterMap (fun r => ((cvPort s p).out.find? (fun e => txRank e.cell == r)).bind (fun e =>
    if cvCredit s p e.cell && answerKept s p e then some e else none))).head?

/-- TB in 1/256 ns with the fraction measured at the pin (R349). -/
def stamp256 (s : State) (fine : Byte) : Nat := s.now * 256 + fine.toNat

/-- The payload of a SYNC cell (R349); T1 and T2 in 1/256 ns. -/
def syncPay (s : State) (kind t1 t2 : Nat) : List Byte :=
  let flags := b2n (s.flag .cvn CVN_ID 31) + 2 * b2n (s.fld .time HST_TB_STATUS 1 0 == 2)
  leBytes 1 kind ++ leBytes 1 flags ++ leBytes 1 s.cvn.cur.depth ++ leBytes 1 (t1 % 256) ++ leBytes 2 s.cvn.cur.gen ++
    leBytes 2 s.cvn.cur.id ++ leBytes 8 (t1 / 256) ++ leBytes 8 (t2 / 256) ++ leBytes 8 0 ++ leBytes 1 (t2 % 256) ++
    leBytes 19 0

/-- The transmit stamp of a SYNC cell: T1 of a REQ, T3 of a RSP (R349). -/
def Cell.stamped (c : Cell) (t : Nat) : Cell :=
  if c.cls ≠ 0 then c
  else if c.at 8 1 = 1 then { c with pay := patch (patch c.pay 3 (leBytes 1 (t % 256))) 8 (leBytes 8 (t / 256)) }
  else if c.at 8 1 = 2 then { c with pay := patch (patch c.pay 33 (leBytes 1 (t % 256))) 24 (leBytes 8 (t / 256)) }
  else c

/-- The export of events waits for credit: an EVT cell of this device without credit on some port (R356). -/
def evtBusy (s : State) : Bool :=
  cvPorts.any (fun p => (cvPort s p).out.any (fun e =>
    e.cell.cls == 3 && e.cell.src == s.cvn.cur.id && e.holds.isNone && !cvCredit s p e.cell))

/-- The pending event is exported once the consumer is free (R329, R356). -/
def State.evtPump (s : State) : State :=
  match s.cvn.evtWait with
  | some c => if evtBusy s then s else ({ s with cvn := { s.cvn with evtWait := none } } : State).cvBroadcast c
  | none => s

/-- The cell leaves (R334, R339, R341): counted against the credit, its buffer freed.  A forwarded cell keeps its payload;
that of an ENUM or MGT cell of this device is a free value (log 21). -/
def State.cellSend (s : State) (p : Nat) (e : OutCell) (fine : Byte) : State :=
  let t := stamp256 s fine
  let c := e.cell.stamped t
  let free := c.pay.isEmpty
  let c := if free then { c with pay := leBytes 52 (s.drawn 416).toNat } else c
  let s := if free then s.draw else s
  let req := c.cls == 0 && c.at 8 1 == 1
  let s := s.onCv p (fun x => { x with
    out := x.out.erase e, lastTx := s.now, sent := cellBlocks (c.bytes x.freedReq x.freedRsp)
    t1 := if req then some t else x.t1
    sentReq := if c.cls ≠ 0 ∧ ¬ c.resp then (x.sentReq + 1) % 256 else x.sentReq
    sentRsp := if c.cls ≠ 0 ∧ c.resp then (x.sentRsp + 1) % 256 else x.sentRsp })
  ((s.spanBlocks p (cvPort s p).sent).bufDone e.holds).evtPump

/-- CVN_CELL_TX (R334, R340): a cell boundary; fine is the fraction of the transmit stamp.  With nothing to send, a FILL
block goes out. -/
def execCvnCellTx (p : Fin 4) (fine : Byte) (s : State) : Host.Outcome State Fault Refusal :=
  .next (if !cvActive s p then s
    else match txNext s p with
      | some e => s.cellSend p e fine
      | none => s.spanBlocks p [])

/-- CVN_IDLE_SYNC (R334): no cell for 500 ns. -/
def execCvnIdleSync (p : Fin 4) (s : State) : Host.Outcome State Fault Refusal :=
  let x := cvPort s p
  .next (if cvActive s p ∧ x.lastTx + 500 ≤ s.now ∧ ¬ x.out.any (fun e => e.cell.cls == 0) then
      s.cvPut p (newCell s 0 false false 0 (syncPay s 0 0 0) .plain) none
    else s)

/-! ### Reception (R338, R339, R341, R342) -/

/-- GEN a is newer than GEN b, modulo 65,536. -/
def genNewer (a b : Nat) : Bool := decide (0 < (a + 65536 - b) % 65536 ∧ (a + 65536 - b) % 65536 < 32768)

/-- The pass that runs and has the port behind it (R347). -/
def walkedPast (s : State) (p : Nat) : Option Nat :=
  (s.cvn.pass.filter (fun e => e.done || decide (p < e.port))).map (fun e => e.no)

/-- A SYNC cell (R335, R346, R349): the neighbour's identity, and the stamps of an exchange. -/
def State.syncRx (s : State) (p : Nat) (c : Cell) (t : Nat) : State :=
  let x := cvPort s p
  let id := c.at 14 2 % 4096
  let gen := c.at 12 2
  let st := CVN_PORT_STATUS p
  let s := (s.put .cvn st 27 16 id).setb .cvn st 15 (tbit (c.at 9 1) 0)
  let s := s.put .cvn st 14 11 (c.at 10 1)
  let same := x.before == some (id, gen) && s.cvn.cur.role p != 0
  let s := if x.synced || s.flag .cvn st 29 then s
    else if same then s.setb .cvn st 29 true else s.oweChange
  let s := if gen != x.nbrGen && genNewer gen (s.fld .cvn CVN_GEN 15 0) then s.oweChange else s
  let t1 := c.at 16 8 * 256 + c.at 11 1
  let past := walkedPast s p
  let s := s.onCv p (fun x => { x with
    synced := true, nbrGen := gen, late := if x.synced then x.late else past
    answer := if c.at 8 1 = 1 then some (t1, t) else x.answer
    rsp := if c.at 8 1 = 2 ∧ x.t1 = some t1 then
        some (t1, c.at 24 8 * 256 + c.at 40 1, c.at 32 8 * 256 + c.at 41 1, t)
      else x.rsp })
  s.up2Sync

/-- The pass an ENUM cell belongs to, where it says (R345). -/
def passOf (m : CvnMsg) : Option Nat :=
  match m with
  | .probe _ n | .commit _ n _ => some n
  | .token _ n _ _ _ => some n
  | .ret n _ _ _ _ => some n
  | _ => none

/-- The neighbour's link came up behind the walk of the pass that still runs (R347).  A cell of another pass shows that this
one has ended (log 47). -/
def lateJoin (s : State) (p : Nat) (m : CvnMsg) : Bool :=
  match s.cvn.pass with
  | some e => (cvPort s p).late == some e.no && (passOf m).all (fun n => n == e.no)
  | none => false

/-- The first ENUM cell of a late neighbour is answered with JOIN_PENDING (R347); its buffer is held until the answer leaves
(R341). -/
def State.tellPending (s : State) (p : Nat) (k : Option (Nat × Bool × Nat)) : State :=
  ((s.onCv p (fun x => { x with late := none })).cvPut p (enumCell s true .joinPending) k).oweChange

/-- Keep a cell for this device's own commands. -/
def State.cvKeep (s : State) (p : Nat) (c : Cell) (k : Option (Nat × Bool × Nat)) : State :=
  { s with cvn := { s.cvn with inbox := s.cvn.inbox ++ [⟨p, c, k⟩] } }

/-- A broadcast cell (R342): this device's own copies are discarded; from UP, or at the root, it is kept here and goes
to every DOWN port; otherwise it goes up. -/
def State.bcastRx (s : State) (p : Nat) (c : Cell) (k : Option (Nat × Bool × Nat)) : State :=
  match tableFor s c.gen0 with
  | none => (s.count .cvn CVN_CNT_NOROUTE).bufDone k
  | some t =>
    if c.src = t.id then s.bufDone k
    else
      let local' := isRoot s || t.up == some p
      let ports := (if local' then t.downs else t.up.toList).filter (fun q => cvLink s q)
      let s := s.each ports (fun s q => s.cvPut q { c with hops := c.hops + 1 } k)
      (if local' then s.cvKeep p c k else s).bufDone k

/-- A unicast cell (R342, R343). -/
def State.unicastRx (s : State) (p : Nat) (c : Cell) (k : Option (Nat × Bool × Nat)) : State :=
  match (tableFor s c.gen0).bind (fun t => cvRoute s t c.dst) with
  | some none => s.cvKeep p c k
  | some (some q) => s.cvPut q { c with hops := c.hops + 1 } k
  | none => (s.count .cvn CVN_CNT_NOROUTE).bufDone k

/-- A COMMIT (R346): it comes down the tree of its pass, is kept here and goes further down. -/
def State.commitRx (s : State) (p n : Nat) (c : Cell) (k : Option (Nat × Bool × Nat)) : State :=
  match s.cvn.pass with
  | some e =>
    if e.no = n ∧ e.parent = some p then
      ((s.commitDown e { c with hops := c.hops + 1 } k).cvKeep p c k).bufDone k
    else s.bufDone k
  | none => s.bufDone k

/-- An ENUM cell (R345, R346, R348). -/
def State.enumTake (s : State) (p : Nat) (c : Cell) (k : Option (Nat × Bool × Nat)) : State :=
  match c.msg with
  | .change => (s.changeSend { c with hops := c.hops + 1 } k).bufDone k
  | .answerNew | .answerConflict => (s.probeAnswer p c.msg).bufDone k
  | .answerSeen _ _ => (s.probeAnswer p c.msg).bufDone k
  | .progress =>
    let s : State := match s.cvn.pass with
      | some e => (match e.wait with
        | .token _ => if e.port = p then { s with cvn := { s.cvn with pass := some { e with wait := .token s.now } } } else s
        | _ => s)
      | none => s
    s.bufDone k
  | .joinPending => (if s.flag .cvn CVN_ID 31 then s else s.setb .cvn CVN_STATUS 29 true).bufDone k
  | .probe _ _ => s.cvKeep p c k
  | .token _ _ _ _ _ => s.cvKeep p c k
  | .ret _ _ _ _ _ => s.cvKeep p c k
  | .commit _ n _ => s.commitRx p n c k
  | .reroute _ _ => if c.bcast then s.bcastRx p c k else s.cvKeep p c k
  | _ => s.bufDone k

/-- A received ENUM cell (R347): a late neighbour's first one is answered with JOIN_PENDING. -/
def State.enumRx (s : State) (p : Nat) (c : Cell) (k : Option (Nat × Bool × Nat)) : State :=
  if lateJoin s p c.msg ∧ c.msg ≠ .joinPending then s.tellPending p k else s.enumTake p c k

/-- A received cell (R338 to R342). -/
def State.cellRx (s : State) (p : Nat) (bs : List Byte) (msg : CvnMsg) (t : Nat) : State :=
  let c := Cell.ofBytes bs msg
  if crc8 (bs.take 7) ≠ leAt bs 7 1 then s.count .cvn CVN_CNT_HDR_CRC
  else if 6 ≤ c.cls then (s.onCv p (fun x => { x with lastGood := s.now })).count .cvn CVN_CNT_HDR_CRC
  else
    let s := s.onCv p (fun x => { x with lastGood := s.now, ackReq := leAt bs 5 1, ackRsp := leAt bs 6 1 })
    let s := s.evtPump
    let drop (s : State) : State := if c.cls = 0 then s else s.bufFree p c.resp
    if crc32c (bs.take 60) ≠ leAt bs 60 4 then drop (s.count .cvn CVN_CNT_CELL_CRC)
    else if 48 ≤ c.hops then drop (s.count .cvn CVN_CNT_HOPS)
    else if c.cls = 0 then s.syncRx p c t
    else
      let k := some (p, c.resp, s.cvn.rxNo)
      let s : State := { s with cvn := { s.cvn with rxNo := s.cvn.rxNo + 1 } }
      if c.cls = 5 then s.enumRx p c k
      else if c.cls = 2 ∨ c.cls = 4 then s.unicastRx p c k
      else s.bcastRx p c k

/-- CVN_CELL_RX (R334, R338): the oldest cell received; msg is what an ENUM or MGT payload says (log 21); fine is the
fraction of the arrival stamp. -/
def execCvnCellRx (p : Fin 4) (msg : CvnMsg) (fine : Byte) (s : State) : Host.Outcome State Fault Refusal :=
  .next (if !cvActive s p then s
    else match (s.lnkPort (24 + p)).cells with
      | [] => s
      | bs :: rest =>
        (s.onLnk (24 + p) (fun x => { x with cells := rest })).cellRx p bs msg (stamp256 s fine))

/-! ### Time transfer (R349, R350) -/

/-- The ports on which this device exchanges time with a parent (R349, R353). -/
def uplinks (s : State) : List Nat :=
  s.cvn.cur.up.toList ++ (if s.flag .cvn CVN_STATUS 26 then [s.fld .cvn CVN_STATUS 25 24] else [])

/-- SYNC_REQ_SEND (R349): every PERIOD us on each uplink. -/
def execSyncReqSend (p : Fin 4) (s : State) : Host.Outcome State Fault Refusal :=
  let due : Bool := match (cvPort s p).reqAt with
    | some t => decide (t + s.fld .cvn CVN_SYNC 15 0 * 1000 ≤ s.now)
    | none => true
  .next (if (uplinks s).contains p.val ∧ cvLink s p ∧ due then
      (s.cvPut p (newCell s 0 false false 0 (syncPay s 1 0 0) .plain) none).onCv p (fun x => { x with reqAt := some s.now })
    else s)

/-- SYNC_REQ_RX (R349): the REQ received last is answered. -/
def execSyncReqRx (p : Fin 4) (s : State) : Host.Outcome State Fault Refusal :=
  .next (match (cvPort s p).answer with
    | some (t1, t2) =>
      (s.cvPut p (newCell s 0 false false 0 (syncPay s 2 t1 t2) .plain) none).onCv p (fun x => { x with answer := none })
    | none => s)

/-- An exchange wrote a rate, or none; CVN_RATE_F is F with it (R350). -/
def State.noteRate (s : State) (r : Option Int) : State :=
  let s : State := { s with cvn := { s.cvn with rates := r :: s.cvn.rates.take 15 } }
  s.wr .cvn CVN_RATE_F (BitVec.ofInt 32 (rateF s))

/-- The rate law (R350) for an error in 1/512,000 ns. -/
def State.rateLaw (s : State) (e : Int) : State :=
  let d := idivRound (e * 2 ^ 32) (512000 * 4000 * s.fld .cvn CVN_SYNC 15 0)
  let r := (clipRate (BitVec.ofInt 32 (clampInt (-2147483648) 2147483647 (rateF s + d)))).1
  (s.wr .time HST_TB_RATE r).noteRate (some r.toInt)

/-- What LOCKING does with theta (R350), in 1/512,000 ns: a jump, a slew with the rate law, or AHEAD; no step while a
slew runs. -/
def State.lockStep (s : State) (th e : Int) : State :=
  let ns := idivRound th 512000
  if s.flag .time HST_TB_STATUS 3 then
    (if e ≤ -1000000 * 512000 then (s.setb .cvn CVN_STATUS 2 true).noteRate none
     else if e < 1000 * 512000 then s.rateLaw e
     else s.noteRate none)
  else if 1000 * 512000 ≤ th then (s.onTime (fun t => t.jump ns.toNat)).noteRate none
  else if th ≤ -1000000 * 512000 then (s.setb .cvn CVN_STATUS 2 true).noteRate none
  else (if ns = 0 then s else s.onTime (fun t => t.withRem (ns * 1024))).rateLaw e

/-- The discipline of TB after an exchange on the UP port (R350). -/
def State.discipline (s : State) (th : Int) : State :=
  let st := s.fld .time HST_TB_STATUS 1 0
  let e := th - s.time.stepRem * 500
  let relock := st == 2 && decide (10000 * 512000 < th.natAbs)
  let s := if relock then s.count .cvn CVN_CNT_RELOCK else s
  if st = 2 ∧ ¬ relock then s.rateLaw e
  else
    let n := if th.natAbs ≤ 2 * 512000 then (if st = 1 then s.cvn.good else 0) + 1 else 0
    let s := s.lockStep th e
    let s : State := { s with cvn := { s.cvn with good := if 16 ≤ n then 0 else n } }
    s.put .time HST_TB_STATUS 1 0 (if 16 ≤ n then 2 else 1)

/-- SYNC_EXCHANGE (R349, R350): a RSP completes an exchange. -/
def execSyncExchange (p : Fin 4) (s : State) : Host.Outcome State Fault Refusal :=
  .next (match (cvPort s p).rsp with
    | some (t1, t2, t3, t4) =>
      let fwd : Int := (t2 : Int) - t1
      let back : Int := (t4 : Int) - t3
      let th := (fwd - back) * 1000 - (s.rd .cvn (CVN_PORT_ASYM p)).toInt * 512
      let s := s.onCv p (fun x => { x with rsp := none, t1 := none, lastEx := some s.now })
      let s := s.wr .cvn (CVN_PORT_DELAY p) (BitVec.ofInt 32 (clampInt 0 0xFFFFFFFF ((fwd + back) / 512)))
      if s.cvn.cur.up ≠ some p.val then s
      else
        let s := s.wr .cvn CVN_OFFSET (BitVec.ofInt 32 (clampInt (-2147483648) 2147483647 (idivRound th 512000)))
        let s : State := { s with cvn := { s.cvn with theta := idivRound th 512000 } }
        if s.flag .time HST_TB_CTRL 0 then s.discipline th else s
    | none => s)

/-- TB_HOLDOVER (R350): no valid exchange for 4 periods on any uplink. -/
def execTbHoldover (s : State) : Host.Outcome State Fault Refusal :=
  .next (if (uplinks s).all (fun p => !syncFresh s p) then s.tbHold else s)

/-! ### Positions (R354, R355) -/

/-- A span input takes a POS cell, unless it is late (R355). -/
def State.posTake (s : State) (c : Cell) : State :=
  let key := c.src * 8 + c.at 8 1 % 8
  let x := Tab.get (fun _ => SpanIn.init) s.mot.span key
  let late : Bool := match x.seq with
    | some q => !genNewer (c.at 10 2) q
    | none => false
  if late then s.count .cvn CVN_CNT_POS_LATE
  else
    let st := c.at 9 1
    let y : SpanIn :=
      { valid := true, pos := BitVec.ofNat 48 (c.at 16 6), speed := sgn 32 (c.at 12 4), state := st % 4, dec := tbit st 2
        lost := tbit st 3, seq := some (c.at 10 2), period := c.at 22 2, tb := c.at 24 8, arrived := s.now }
    ({ s with mot := { s.mot with span := Tab.set (fun _ => SpanIn.init) s.mot.span key y } } : State).msEvalAll s

/-- POS_EXPORT (R354, R342): a POS cell of an exported encoder port; this device takes it too. -/
def execPosExport (n : Fin 8) (s : State) : Host.Outcome State Fault Refusal :=
  let per := s.fld .cvn CVN_POS 25 16
  .next (if s.flag .cvn CVN_POS n ∧ Tab.get (fun _ => 0) s.cvn.posAt n + per * 1000 ≤ s.now then
      let v := encView s n
      let st := s.rd .mot (ENC_STATUS n)
      let seq := Tab.get (fun _ => 0) s.cvn.posSeq n
      let pay := leBytes 1 n ++ leBytes 1 (bits st 3 0) ++ leBytes 2 seq ++ leBytes 4 (unsgn 32 v.speed) ++
        leBytes 6 (fixPos (v.posAt (s.now * 1000))).toNat ++ leBytes 2 per ++ leBytes 8 s.now
      let c := newCell s 1 false true 0 pay .plain
      let s : State := { s with cvn := { s.cvn with
        posSeq := Tab.set (fun _ => 0) s.cvn.posSeq n ((seq + 1) % 65536)
        posAt := Tab.set (fun _ => 0) s.cvn.posAt n s.now } }
      ((s.cvBroadcast c).posTake c).emuAll s
    else s)

/-- POS_RX (R355). -/
def execPosRx (p : Fin 4) (s : State) : Host.Outcome State Fault Refusal :=
  .next (match s.cvTake p (fun c => c.cls == 1) with
    | some (c, s) => (s.posTake c).emuAll s
    | none => s)

/-- POS_INPUT_TIMEOUT (R355): no good cell for 4 x PERIOD. -/
def execPosInputTimeout (dev : Fin 4096) (n : Fin 8) (s : State) : Host.Outcome State Fault Refusal :=
  let key := dev.val * 8 + n
  let x := Tab.get (fun _ => SpanIn.init) s.mot.span key
  .next (if x.valid ∧ x.arrived + 4 * x.period * 1000 ≤ s.now then
      (({ s with mot := { s.mot with
        span := Tab.set (fun _ => SpanIn.init) s.mot.span key { x with valid := false } } } : State).msEvalAll s).emuAll s
    else s)

/-! ### Events (R356) -/

/-- An event delivered on a SPAN channel is exported, held as the one pending, or an overrun (R329, R356). -/
def State.evtExport (s : State) (e : EvtRec) : State :=
  let c := newCell s 3 false true 0 (leBytes 1 e.ch ++ leBytes 3 0 ++ leBytes 4 e.arg.toNat ++ leBytes 8 e.stamp) .plain
  if !evtBusy s && s.cvn.evtWait.isNone then s.cvBroadcast c
  else if s.cvn.evtWait.isNone then { s with cvn := { s.cvn with evtWait := some c } }
  else (s.count .cvn CVN_CNT_EVT_OVERRUN).count .evt (EVT_CNT_OVERRUN e.ch)

/-- EVT_CELL_RX (R356, R324): published on its channel if that has SPAN = 1. -/
def execEvtCellRx (p : Fin 4) (s : State) : Host.Outcome State Fault Refusal :=
  .next (match s.cvTake p (fun c => c.cls == 3) with
    | some (c, s) =>
      let ch := c.at 8 1
      if s.flag .evt (EVT_CH_CTRL ch) 28 then s.pubOn 0x2000 ch (BitVec.ofNat 32 (c.at 12 4)) (c.at 16 8) 0x3FD else s
    | none => s)

/-! ### Handover and release (R190, R357, R358) -/

/-- A record is released (R182, R190, R192, R357). -/
def State.recordOut (s : State) (t : Nat) (j : RecJob) : State :=
  let s := s.onObj t (fun x => { x with ready := x.ready.erase j })
  let s := s.each ([j.a, j.b].filterMap id) (fun s v => s.lostOut v.stream)
  let s := s.linkCuts j
  let r := buildRecord s j
  let h := s.handover r.stream r.bytes
  let s := if h.2 then h.1 else h.1.verdictRelease r
  (s.dropCuts j.a r.handle h.2).dropCuts j.b r.handle h.2

/-- RECORD_RELEASE (R190): the oldest record of a stream whose cut-outs are written or abandoned. -/
def execRecordRelease (t : Fin 96) (s : State) : Host.Outcome State Fault Refusal :=
  .next (match (s.objStream t).ready.find? (fun j => cutsOver s j) with
    | some j => s.recordOut t j
    | none => s)

/-- Every object in a stream's close queue is formed (R33). -/
def State.formAll (s : State) (t : Nat) : Nat → State
  | 0 => s
  | n + 1 => (s.formView t).formAll t n

/-- A cut-out that waits or is being written is finished, or dropped for want of space (R33, R182). -/
def State.cutFinish (s : State) (t serial : Nat) : State :=
  let job (s : State) (st : CutSt) : Option CutJob :=
    (s.objStream t).cuts.find? (fun j => j.view.serial == serial && j.st == st)
  let s := match job s .waiting with
    | some j => s.cutStart t j
    | none => s
  match job s .writing with
  | some j => s.cutDone t j
  | none => s

/-- Every record of a stream that may be released is (R33). -/
def State.releaseAll (s : State) (t : Nat) : Nat → State
  | 0 => s
  | n + 1 =>
    match (s.objStream t).ready.find? (fun j => cutsOver s j) with
    | some j => (s.recordOut t j).releaseAll t n
    | none => s

/-- The records of a stream that is reset: every object that is left forms, finishes its cut-out and is released before
the stream's state is cleared (R33).  DEDUCED (log 103): the spacing of R191 does not hold the reset up. -/
def State.emitAll (s : State) (t : Nat) : State :=
  let s := s.formAll t (s.objStream t).closeQ.length
  let s := s.pairFlush t
  let s := s.each ((s.objStream t).cuts.map (fun j => j.view.serial)) (fun s k => s.cutFinish t k)
  s.releaseAll t (s.objStream t).ready.length

/-- A complete record enters the handover queue (R358). -/
def State.hoEnter (s : State) (stream : Nat) (rec : List Byte) : State :=
  if (qRegion s qHandover).isNone ∨ 96 ≤ stream then s.count .cvn CVN_CNT_HO_DROP
  else
    let s : State := if qTakes s qHandover 32 then { s with cvn := { s.cvn with hoStreams := s.cvn.hoStreams ++ [stream] } } else s
    s.qPush qHandover (bytesToWords rec)

/-- Put the reassembly of a source. -/
def State.putAsm (s : State) (src : Nat) (a : Option HoAsm) : State :=
  { s with cvn := { s.cvn with asm := a.toList ++ s.cvn.asm.filter (fun e => e.src != src) } }

/-- A part of a record (R358). -/
def State.hoPart (s : State) (c : Cell) : State :=
  let k := c.at 8 1 % 8
  let a := s.cvn.asm.find? (fun e => e.src == c.src)
  let data := (c.pay.drop 4).take 48
  let fresh : HoAsm := ⟨c.src, c.at 10 2, c.at 9 1 % 128, data, false⟩
  match a.filter (fun e => e.tag == c.at 10 2) with
  | some e =>
    if e.ended then s
    else if e.bytes.length ≠ 48 * k then (s.count .cvn CVN_CNT_HO_LOST).putAsm c.src (some { e with ended := true })
    else if k = 5 then (s.putAsm c.src none).hoEnter e.stream ((e.bytes ++ data).take 256)
    else s.putAsm c.src (some { e with bytes := e.bytes ++ data })
  | none =>
    let s := if a.any (fun e => !e.ended) then s.count .cvn CVN_CNT_HO_LOST else s
    if k = 0 then s.putAsm c.src (some fresh)
    else (s.count .cvn CVN_CNT_HO_LOST).putAsm c.src (some { fresh with ended := true })

/-- OBJ_CELL_RX (R358). -/
def execObjCellRx (p : Fin 4) (s : State) : Host.Outcome State Fault Refusal :=
  .next (match s.cvTake p (fun c => c.cls == 2) with
    | some (c, s) => s.hoPart c
    | none => s)

/-- A handed-over record as the target stream releases it (R358): no cut-out; MSRC is the target's. -/
def hoRelease (s : State) (t : Nat) (rec : List Byte) : Release :=
  let msrc := streamMsrc s t
  let lost := leAt rec 0 1 == 2
  let base := if 128 ≤ leAt rec 70 1 then 64 else 160
  let rec0 := patch rec 3 (leBytes 1 msrc)
  let f := leAt rec 16 4
  let bytes := if lost then rec0 else patch (patch rec0 16 (leBytes 4 (f - 16 * b2n (tbit f 4)))) 56 (leBytes 8 0)
  { bytes := bytes, handle := leAt rec 8 8, queue := t, stream := t, msrc := msrc
    xMin := if lost then leAt rec 20 2 else leAt rec (base + 16) 2
    xMax := if lost then leAt rec 22 2 else leAt rec (base + 18) 2
    tbFirst := leAt rec 32 8, tbLast := leAt rec 40 8 }

/-- HANDOVER_ENTER (R308, R358): the head of the handover queue enters the verdict stage. -/
def execHandoverEnter (s : State) : Host.Outcome State Fault Refusal :=
  .next (match (s.ergQ qHandover).items with
    | it :: _ =>
      let bad := qHeadBad s qHandover
      let s := (s.qRead qHandover).qTake qHandover
      (match itemBytes it, s.cvn.hoStreams with
      | some rec, t :: ts =>
        let s : State := { s with cvn := { s.cvn with hoStreams := ts } }
        if bad then s.count .cvn CVN_CNT_HO_DROP
        else
          let s := s.count .cvn CVN_CNT_HO_RECV
          if leAt rec 0 1 = 2 then s.lostRelease (hoRelease s t rec) else s.verdictRelease (hoRelease s t rec)
      | _, _ => s)
    | [] => s)

/-! ### Remote access (R359) -/

/-- A remote access ends with a code of R276. -/
def State.rmtEnd (s : State) (code : Nat) : State :=
  let s := (s.setb .cvn CVN_RMT_CMD 31 false).wr .cvn CVN_RMT_STATUS (BitVec.ofNat 32 (2 ^ 30 + code))
  { s with cvn := { s.cvn with rmtAt := none } }

/-- A write to CVN_RMT_CMD (R359). -/
def State.rmtWrite (s : State) (v : Word) : State :=
  let busy := s.flag .cvn CVN_RMT_STATUS 31
  if busy && bit v 31 then s
  else
    let s := (s.setb .cvn CVN_RMT_CMD 30 (bit v 30)).put .cvn CVN_RMT_CMD 27 16 (bits v 27 16)
    if !bit v 31 then s
    else
      let s := (s.setb .cvn CVN_RMT_CMD 31 true).setb .cvn CVN_RMT_STATUS 31 true
      let addr := s.fld .cvn CVN_RMT_ADDR 26 2 * 4
      let msg : CvnMsg := if bit v 30 then .write addr (s.rd .cvn CVN_RMT_DATA) else .read addr
      if 0x1200000 ≤ addr then s.rmtEnd 2
      else match s.cvSend (newCell s 4 false false (bits v 27 16) [] msg) with
        | some s => { s with cvn := { s.cvn with rmtAt := some s.now } }
        | none => s.rmtEnd 2

/-- RMT_GO (R359): a write to CVN_RMT_CMD. -/
def execRmtGo (v : Word) (s : State) : Host.Outcome State Fault Refusal := .next (s.rmtWrite v)

/-- MGT_RESPONSE_RX (R359). -/
def execMgtResponseRx (p : Fin 4) (s : State) : Host.Outcome State Fault Refusal :=
  .next (match s.cvTake p (fun c => c.cls == 4 && c.resp) with
    | some (⟨_, _, _, _, _, _, _, _, .response code data⟩, s) =>
      if s.flag .cvn CVN_RMT_STATUS 31 then
        (if code = 0 ∧ ¬ s.flag .cvn CVN_RMT_CMD 30 then s.wr .cvn CVN_RMT_DATA data else s).rmtEnd code
      else s
    | some (_, s) => s
    | none => s)

/-- RMT_TIMEOUT (R359): 1 ms without a response. -/
def execRmtTimeout (s : State) : Host.Outcome State Fault Refusal :=
  .next (match s.cvn.rmtAt with
    | some t => if t + 1000000 ≤ s.now then s.rmtEnd 0x0B else s
    | none => s)

end Sys2Proof.Machine
end

