-- ==== Sys2Proof/Machine/Events.lean ====
section
/-! DEFINITION. Event channels, their consumers and the logic cells (R323 to R332).  A fabric cycle is 2 ns of TB. -/
namespace Sys2Proof.Machine

/-- A channel. -/
def evtCh (s : State) (c : Nat) : ChSt := Tab.get (fun _ => ChSt.init) s.evt.ch c

def State.onCh (s : State) (c : Nat) (f : ChSt → ChSt) : State :=
  { s with evt := { s.evt with ch := Tab.upd (fun _ => ChSt.init) s.evt.ch c f } }

/-- A logic cell. -/
def evtCell (s : State) (k : Nat) : CellSt := Tab.get (fun _ => CellSt.init) s.evt.cell k

def State.onCell (s : State) (k : Nat) (f : CellSt → CellSt) : State :=
  { s with evt := { s.evt with cell := Tab.upd (fun _ => CellSt.init) s.evt.cell k f } }

/-- The fabric cycle now. -/
def fabricNow (s : State) : Nat := s.now / 2

/-! ### Routes and channel control (R323, R326 to R328) -/

/-- LOCK of a channel. -/
def chLocked (s : State) (c : Nat) : Bool := s.flag .evt (EVT_CH_CTRL c) 30

/-- The producer IDs of R323; the others are reserved. -/
def prodIs (id : Nat) : Bool := decide (id < 0x239) || (decide (0x240 ≤ id) && decide (id < 0x260))

/-- A write to a route (R323, R324, R327): ignored where it names, or would name, a locked channel. -/
def State.prodWrite (s : State) (id : Nat) (v : Word) : State :=
  if !prodIs id then s.accessErr 2 (lo32 (EVT_PROD id)) 0#32
  else
  let old := s.rd .evt (EVT_PROD id)
  let named (w : Word) : List Nat := if bit w 31 && chLocked s (bits w 7 0) then [bits w 7 0] else []
  let locked := (named old ++ named v).dedup
  if locked = [] then
    ({ s with evt := { s.evt with
      routeWas := Tab.set (fun _ => (0, 0#32)) s.evt.routeWas id (s.now / 2 + 1, routeNow s id) } } : State).store
      .evt (EVT_PROD id) v
  else s.each locked (fun s c => s.setb .evt (EVT_CH_STATUS c) 4 true)

/-- EVT_PROD_WRITE (R323, R327). -/
def execEvtProdWrite (id : Fin 640) (v : Word) (s : State) : Host.Outcome State Fault Refusal := .next (s.prodWrite id v)

/-- A write to EVT_PUB (R323, R326). -/
def State.hostPub (s : State) (v : Word) : State :=
  let c := bits v 7 0
  let own := s.flag .evt (EVT_CH_CTRL c) 31
  if (own && !s.flag .evt (EVT_CH_CTRL c) 29) || chLocked s c then s.setb .evt (EVT_CH_STATUS c) 3 true
  else s.pubOn 0x3000 c (s.rd .evt EVT_PUB_ARG) s.now 0x3FF

/-- EVT_PUB (R326). -/
def execEvtPub (v : Word) (s : State) : Host.Outcome State Fault Refusal := .next (s.hostPub v)

/-- A write to EVT_CH_CTRL (R327). -/
def State.chWrite (s : State) (c : Nat) (v : Word) : State :=
  let old := s.rd .evt (EVT_CH_CTRL c)
  if chLocked s c && bits old 29 28 != bits v 29 28 then s.setb .evt (EVT_CH_STATUS c) 4 true
  else s.store .evt (EVT_CH_CTRL c) v

/-- EVT_CH_CTRL_WRITE (R327). -/
def execEvtChCtrlWrite (c : Fin 256) (v : Word) (s : State) : Host.Outcome State Fault Refusal := .next (s.chWrite c v)

/-- EVT_LOCK (R327): a write that sets LOCK and leaves HOST_PUB and SPAN. -/
def execEvtLock (c : Fin 256) (s : State) : Host.Outcome State Fault Refusal :=
  .next (s.chWrite c (putBit (s.rd .evt (EVT_CH_CTRL c)) 30 true))

/-- A write to EVT_CH_RATE (R328): one that changes WATCH starts the period afresh. -/
def State.rateWrite (s : State) (c : Nat) (v : Word) : State :=
  let was := s.fld .evt (EVT_CH_RATE c) 15 0
  let s := s.store .evt (EVT_CH_RATE c) v
  if was = bits v 15 0 then s else s.onCh c (fun x => { x with watchFrom := s.now })

/-- EVT_RATE_WRITE (R328). -/
def execEvtRateWrite (c : Fin 256) (v : Word) (s : State) : Host.Outcome State Fault Refusal := .next (s.rateWrite c v)

/-! ### Entering a channel (R324) -/

/-- Insert by the order of R324, behind equals. -/
def insertEvt (e : EvtRec) : List EvtRec → List EvtRec
  | [] => [e]
  | f :: l => if e.order < f.order then e :: f :: l else f :: insertEvt e l

/-- Events that reach a channel by a cycle, in the order of R324. -/
def evtArrivals (s : State) (c cyc : Nat) : List EvtRec :=
  (s.evt.bus.filter (fun e => e.ch == c && decide (e.cyc ≤ cyc))).foldl (fun l e => insertEvt e l) []

/-- The next fabric cycle in which an event enters a channel; none while it has no event. -/
def enterCycle (s : State) (c : Nat) : Option Nat :=
  let x := evtCh s c
  match x.waiting, (s.evt.bus.filter (fun e => e.ch == c)).map (fun e => e.cyc) with
  | _ :: _, _ => some x.cycle
  | [], k :: ks => some (max x.cycle (ks.foldl min k))
  | [], [] => none

/-- One cycle of a channel: one event enters, up to 8 wait, the others are discarded (R324). -/
def State.evtEnter (s : State) (c cyc : Nat) : State :=
  let l := (evtCh s c).waiting ++ evtArrivals s c cyc
  let lost := l.length - 9
  let s : State := { s with evt := { s.evt with
    bus := s.evt.bus.filter (fun e => !(e.ch == c && decide (e.cyc ≤ cyc))) } }
  let s := s.onCh c (fun x => { x with
    waiting := (l.drop 1).take 8, entered := x.entered ++ l.take 1, cycle := cyc + 1 })
  if lost = 0 then s else (s.setb .evt (EVT_CH_STATUS c) 0 true).countBy .evt (EVT_CNT_DROP c) lost

/-- EVENT_ENTER (R324): the channel's next fabric cycle with an event, once that cycle is over and all its events are
there. -/
def execEventEnter (c : Fin 256) (s : State) : Host.Outcome State Fault Refusal :=
  .next (match enterCycle s c with
    | some t => if t < fabricNow s then s.evtEnter c t else s
    | none => s)

/-! ### Delivery (R325, R328, R329) -/

/-- Trigger generators in EVENT mode on a channel. -/
def evtGens (s : State) (c : Nat) : List Nat :=
  idxs 96 (fun g =>
    let v := s.rd .mot (TRG_CTRL g)
    bit v 31 && bits v 30 28 == 4 && bits v 15 8 == c)

/-- An event reaches a generator: due now, the one pending, or an overrun (R329). -/
def State.genEvent (s : State) (g c : Nat) : State :=
  let x := s.gen g
  if x.due = [] then s.queueTrigger g
  else if x.pendingEvt.isNone then s.setGen g { x with pendingEvt := some (s.now * 1000) }
  else (s.count .evt (EVT_CNT_OVERRUN c)).count .mot (TRG_CNT_SKIP g)

/-- Subscriptions on a channel: sequencer and number (R244). -/
def evtSubs (s : State) (c : Nat) : List (Nat × Nat) :=
  (List.range 33).flatMap (fun q =>
    match activeProg s q with
    | some p =>
      if seqState s q = 0 then []
      else (idxs 8 (fun i => let v := atD p.subs i 0; tbit v 15 && nbits v 7 0 == c)).map (fun i => (q, i))
    | none => [])

/-- An event reaches a subscription: Ei, the one pending, or an overrun (R229, R329). -/
def State.subEvent (s : State) (q i c : Nat) (arg : Word) : State :=
  if !s.flag .seq (SEQ_EVPEND q) i then s.subAct q i arg
  else if (Tab.get (fun _ => none) (s.seqU q).held i).isNone then
    s.onSeq q (fun x => { x with held := Tab.set (fun _ => none) x.held i (some arg) })
  else s.count .evt (EVT_CNT_OVERRUN c)

/-- Output pins on a channel (R63). -/
def evtPins (s : State) (c : Nat) : List Nat :=
  idxs 16 (fun k => let v := s.rd .mot (TRG_PIN k); bit v 31 && bit v 29 && bits v 21 14 == c)

/-- The channel page shows the event (R329): argument, stamp, source. -/
def State.chShow (s : State) (e : EvtRec) : State :=
  let s := s.wr .evt (EVT_CH_ARG e.ch) e.arg
  let s := s.wr64 .evt (EVT_CH_TB_LO e.ch) (EVT_CH_TB_HI e.ch) e.stamp
  (s.wr .evt (EVT_CH_SRC e.ch) (BitVec.ofNat 32 e.src)).count .evt (EVT_CNT_EVENTS e.ch)

/-- Every consumer acts (R329). -/
def State.consumers (s : State) (e : EvtRec) : State :=
  let s := s.each (evtGens s e.ch) (fun s g => s.genEvent g e.ch)
  let s := s.each (List.range 8) (fun s n => s.pwmArrive n e)
  let s := s.each (evtSubs s e.ch) (fun s p => s.subEvent p.1 p.2 e.ch e.arg)
  let s := s.each (evtPins s e.ch) (fun s k => s.pinPulse k (s.now * 1000))
  let s := s.each (List.range 32) (fun s k => s.onCell k (fun x => { x with hits := (e.ch :: x.hits).dedup }))
  if s.flag .evt (EVT_CH_CTRL e.ch) 28 && e.src != 0x3FD then s.evtExport e else s

/-- An event is delivered, or discarded by LIMIT (R328). -/
def State.evtDeliver (s : State) (c : Nat) (e : EvtRec) : State :=
  let w := s.now / 1000000
  let x := evtCh s c
  let n := if x.window = w then x.inWindow else 0
  let limit := s.fld .evt (EVT_CH_RATE c) 31 16
  if 0 < limit ∧ limit ≤ n then (s.setb .evt (EVT_CH_STATUS c) 2 true).count .evt (EVT_CNT_RATE_DROP c)
  else
    let s := s.onCh c (fun x => { x with window := w, inWindow := n + 1, watchFrom := s.now })
    ((s.setb .evt (EVT_CH_STATUS c) 1 false).chShow e).consumers e

/-- EVENT_DELIVER (R325, R328, R329): the oldest event that has entered a channel. -/
def execEventDeliver (c : Fin 256) (s : State) : Host.Outcome State Fault Refusal :=
  .next (match (evtCh s c).entered with
    | e :: es => (s.onCh c (fun x => { x with entered := es })).evtDeliver c e
    | [] => s)

/-- EVT_WATCH_EXPIRE (R328). -/
def execEvtWatchExpire (c : Fin 256) (s : State) : Host.Outcome State Fault Refusal :=
  let w := s.fld .evt (EVT_CH_RATE c) 15 0
  .next (if 0 < w ∧ ¬ s.flag .evt (EVT_CH_STATUS c) 1 ∧ (evtCh s c).watchFrom + w * 1000 ≤ s.now then
      (s.setb .evt (EVT_CH_STATUS c) 1 true).publish 0x237 (BitVec.ofNat 32 c)
    else s)

/-! ### Logic cells (R330 to R332) -/

/-- OUT of a cell in the cycle before a given one. -/
def cellOutBefore (s : State) (k cyc : Nat) : Bool :=
  let x := evtCell s k
  if x.cyc = cyc then x.outPrev
  else match x.clearAt with
    | some t => x.out && decide (cyc ≤ t)
    | none => x.out

/-- The start of EN has cleared a cell by a cycle (R331). -/
def CellSt.cleared (x : CellSt) (cyc : Nat) : Bool :=
  match x.clearAt with
  | some t => decide (t ≤ cyc)
  | none => false

/-- An input's value in a cycle (R330). -/
def cellInput (s : State) (k cyc sel : Nat) : Bool :=
  let num := nbits sel 7 0
  match nbits sel 11 10 with
  | 0 => false
  | 1 => (evtCell s k).hits.contains num
  | 2 => s.flag .evt (EVT_CH_ARG num) 0
  | _ => if num < 16 then (s.trigPin num).level else if 32 ≤ num ∧ num < 64 then cellOutBefore s (num - 32) cyc else false

/-- y of a cell (R331). -/
def cellY (ff : Nat) (x : CellSt) (l in3 : Bool) : Bool :=
  match ff with
  | 0 => l
  | 1 => x.prevL
  | 2 => xor x.y l
  | _ => if in3 then false else if l then true else x.y

/-- INA, INB and CTRL of a cell as they act in a cycle: a write acts from the next one on (R331). -/
def cellRegs (s : State) (k cyc : Nat) : Word × Word × Word :=
  let w := (evtCell s k).was
  if w.1 = cyc + 1 then w.2 else (s.rd .evt (EVT_CELL_INA k), s.rd .evt (EVT_CELL_INB k), s.rd .evt (EVT_CELL_CTRL k))

/-- A register of a cell is about to be written. -/
def State.cellKeep (s : State) (k : Nat) : State :=
  let cyc := fabricNow s
  s.onCell k (fun x => { x with was := (cyc + 1, cellRegs s k cyc) })

/-- One cycle of a cell (R330, R331). -/
def State.cellStep (s : State) (k : Nat) : State :=
  let cyc := fabricNow s
  let r := cellRegs s k cyc
  let a := r.1
  let b := r.2.1
  let c := r.2.2
  let i0 := cellInput s k cyc (bits a 11 0)
  let i1 := cellInput s k cyc (bits a 27 16)
  let i2 := cellInput s k cyc (bits b 11 0)
  let i3 := cellInput s k cyc (bits b 27 16)
  let l := bit c (b2n i3 * 8 + b2n i2 * 4 + b2n i1 * 2 + b2n i0)
  let x := evtCell s k
  let before := cellOutBefore s k cyc
  let x := if x.cleared cyc then { CellSt.init with was := x.was } else x
  let y := cellY (bits c 30 29) x l i3
  let held := if y = x.out then 0 else x.held + 1
  let flips := decide (bits c 26 19 + 1 ≤ held)
  let out := if flips then y else x.out
  let s := s.onCell k (fun _ =>
    { y := y, prevL := l, out := out, held := if flips then 0 else held, hits := [], outPrev := before, cyc := cyc, was := x.was
      clearAt := none
      since := if out then (if x.out then x.since else some s.now) else none })
  let s := s.setb .evt (EVT_CELL_STATUS k) 0 out
  let pub := flips && tbit (bits c 28 27) (if out then 0 else 1)
  if pub then s.publish (0x240 + k) (BitVec.ofNat 32 (b2n out + k * 2 ^ 8)) else s

/-- CELL_EVAL (R331): a fabric cycle of a cell with EN = 1, at most one for each cycle. -/
def execCellEval (k : Fin 32) (s : State) : Host.Outcome State Fault Refusal :=
  .next (if bit (cellRegs s k (fabricNow s)).2.2 31 ∧ (evtCell s k).cyc < fabricNow s then s.cellStep k else s)

/-- CELL_STUCK (R332). -/
def execCellStuck (k : Fin 32) (s : State) : Host.Outcome State Fault Refusal :=
  let ms := s.fld .evt (EVT_CELL_STUCK k) 7 0
  .next (match (evtCell s k).since with
    | some t =>
      if 0 < ms ∧ t + ms * 1000000 < s.now ∧ ¬ (evtCell s k).cleared (fabricNow s) then s.setb .evt (EVT_CELL_STATUS k) 2 true else s
    | none => s)

/-- A selector that R330 reserves: KIND 3 with a NUM that names no pin and no cell. -/
def cellSelBad (sel : Nat) : Bool :=
  nbits sel 11 10 == 3 && !(decide (nbits sel 7 0 < 16) || (decide (32 ≤ nbits sel 7 0) && decide (nbits sel 7 0 < 64)))

/-- A write to EVT_CELL_INA or EVT_CELL_INB (R330, R36): a reserved selector keeps its old value. -/
def State.cellInWrite (s : State) (k a : Nat) (v : Word) : State :=
  let old := s.rd .evt a
  let badLo := cellSelBad (bits v 11 0)
  let badHi := cellSelBad (bits v 27 16)
  let w := if badLo then putBits v 11 0 (bits old 11 0) else v
  let w := if badHi then putBits w 27 16 (bits old 27 16) else w
  let s := (s.cellKeep k).store .evt a w
  if badLo || badHi then s.setb .evt (EVT_CELL_STATUS k) 1 true else s

/-- A write to EVT_CELL_CTRL (R331): where it takes EN from 0 to 1 at the start of the next cycle, y, OUT and the filter
start at 0 there. -/
def State.cellCtrlWrite (s : State) (k : Nat) (v : Word) : State :=
  let cyc := fabricNow s
  let was := bit (cellRegs s k cyc).2.2 31
  let s := (s.cellKeep k).store .evt (EVT_CELL_CTRL k) v
  if !was && bit v 31 then s.onCell k (fun x => { x with hits := [], clearAt := some (cyc + 1) })
  else s.onCell k (fun x => { x with clearAt := x.clearAt.filter (fun t => t != cyc + 1) })

end Sys2Proof.Machine
end

