-- ==== Sys2Proof/Machine/Crypto.lean ====
section
/-! DEFINITION. SHA-256 and the ECDSA P-256 check of image signatures (R242, R243), over numbers. -/
namespace Sys2Proof.Machine

/-! ### SHA-256 -/

/-- The primes below a bound. -/
def primesBelow (n : Nat) : List Nat :=
  (List.range n).filter (fun p => decide (2 ≤ p) && (List.range p).all (fun d => d < 2 || p % d != 0))

/-- The integer root of a degree: the bits of the root from bit b - 1 down, over those found so far. -/
def rootBits (degree x : Nat) : Nat → Nat → Nat
  | 0, r => r
  | b + 1, r => rootBits degree x b (if (r + 2 ^ b) ^ degree ≤ x then r + 2 ^ b else r)

/-- The first 32 bits of the fraction of a prime's root of a degree. -/
def rootFraction (degree p : Nat) : Word := BitVec.ofNat 32 (rootBits degree (p * 2 ^ (32 * degree)) 37 0)

/-- The round constants: from the cube roots of the first 64 primes. -/
def shaK : List Word := (primesBelow 312).map (rootFraction 3)

/-- The initial hash value: from the square roots of the first 8 primes. -/
def shaInit : List Word := (primesBelow 20).map (rootFraction 2)

def rotr (x : Word) (n : Nat) : Word := x.rotateRight n

/-- The message schedule, newest word first, from the 16 words of a block. -/
def shaSchedule : Nat → List Word → List Word
  | 0, w => w
  | n + 1, w =>
    let a := atD w 1 0#32
    let b := atD w 14 0#32
    let s1 := rotr a 17 ^^^ rotr a 19 ^^^ (a >>> 10)
    let s0 := rotr b 7 ^^^ rotr b 18 ^^^ (b >>> 3)
    shaSchedule n ((s1 + atD w 6 0#32 + s0 + atD w 15 0#32) :: w)

/-- One round. -/
def shaRound (h : List Word) (kw : Word × Word) : List Word :=
  match h with
  | [a, b, c, d, e, f, g, x] =>
    let t1 := x + (rotr e 6 ^^^ rotr e 11 ^^^ rotr e 25) + ((e &&& f) ^^^ (~~~ e &&& g)) + kw.1 + kw.2
    let t2 := (rotr a 2 ^^^ rotr a 13 ^^^ rotr a 22) + ((a &&& b) ^^^ (a &&& c) ^^^ (b &&& c))
    [t1 + t2, a, b, c, d + t1, e, f, g]
  | h => h

/-- Big-endian number of bytes. -/
def ofBe (bs : List Byte) : Nat := bs.foldl (fun n b => 256 * n + b.toNat) 0

/-- The n bytes of a number, most significant first. -/
def beBytes (n x : Nat) : List Byte := (leBytes n x).reverse

/-- One block of 64 bytes. -/
def shaBlock (h : List Word) (b : List Byte) : List Word :=
  let w := (List.range 16).map (fun i => BitVec.ofNat 32 (ofBe ((b.drop (4 * i)).take 4)))
  let sched := (shaSchedule 48 w.reverse).reverse
  let r := (shaK.zip sched).foldl shaRound h
  h.zipWith (· + ·) r

/-- The padded message. -/
def shaPad (bs : List Byte) : List Byte :=
  bs ++ [0x80#8] ++ List.replicate ((119 - bs.length % 64) % 64) 0#8 ++ beBytes 8 (8 * bs.length)

/-- SHA-256 of bytes, as a big-endian number. -/
def sha256 (bs : List Byte) : Nat :=
  let m := shaPad bs
  let h := (List.range (m.length / 64)).foldl (fun h i => shaBlock h ((m.drop (64 * i)).take 64)) shaInit
  h.foldl (fun n w => n * 2 ^ 32 + w.toNat) 0

/-! ### ECDSA on P-256 -/

def p256 : Nat := 2 ^ 256 - 2 ^ 224 + 2 ^ 192 + 2 ^ 96 - 1
def p256n : Nat := 0xffffffff00000000ffffffffffffffffbce6faada7179e84f3b9cac2fc632551
def p256b : Nat := 0x5ac635d8aa3a93e7b3ebbd55769886bc651d06b0cc53b0f63bce3c3e27d2604b
def p256gx : Nat := 0x6b17d1f2e12c4247f8bce6e563a440f277037d812deb33a0f4a13945d898c296
def p256gy : Nat := 0x4fe342e2fe1a7f9b8ee7eb4a7c0f9e162bce33576b315ececbb6406837bf51f5

/-- A power modulo m, over f bits of the exponent. -/
def powMod (m : Nat) : Nat → Nat → Nat → Nat
  | 0, _, _ => 1 % m
  | f + 1, b, e =>
    let r := powMod m f (b * b % m) (e / 2)
    if e % 2 = 1 then r * b % m else r

/-- The inverse modulo a prime. -/
def invMod (m a : Nat) : Nat := powMod m 256 (a % m) (m - 2)

/-- a - b modulo m, for numbers below m. -/
def subMod (m a b : Nat) : Nat := (a + m - b % m) % m

/-- The sum of two points; none is the point at infinity. -/
def ecAdd (x y : Option (Nat × Nat)) : Option (Nat × Nat) :=
  match x, y with
  | none, y => y
  | x, none => x
  | some (x1, y1), some (x2, y2) =>
    if x1 = x2 ∧ (y1 + y2) % p256 = 0 then none
    else
      let l := if x1 = x2 then (subMod p256 (3 * x1 * x1 % p256) 3) * invMod p256 (2 * y1) % p256
        else subMod p256 y2 y1 * invMod p256 (subMod p256 x2 x1) % p256
      let x3 := subMod p256 (subMod p256 (l * l % p256) x1) x2
      some (x3, subMod p256 (l * subMod p256 x1 x3 % p256) y1)

/-- k times a point, over f bits of k. -/
def ecMul : Nat → Nat → Option (Nat × Nat) → Option (Nat × Nat)
  | 0, _, _ => none
  | f + 1, k, q =>
    let r := ecMul f (k / 2) (ecAdd q q)
    if k % 2 = 1 then ecAdd q r else r

/-- A point of the curve. -/
def onCurve (x y : Nat) : Bool :=
  decide (x < p256 ∧ y < p256) && (y * y) % p256 == (x * x * x + (p256 - 3) * x + p256b) % p256

/-- A signature (r, s) of a digest by a public key is valid. -/
def ecdsaOk (qx qy r s digest : Nat) : Bool :=
  onCurve qx qy && decide (0 < r ∧ r < p256n ∧ 0 < s ∧ s < p256n) &&
    (let w := invMod p256n s
     match ecAdd (ecMul 256 (digest * w % p256n) (some (p256gx, p256gy))) (ecMul 256 (r * w % p256n) (some (qx, qy))) with
     | some (x, _) => x % p256n == r
     | none => false)

end Sys2Proof.Machine
end

