-- ==== Sys2Proof/Machine/Image.lean ====
section
/-! DEFINITION. Schedule images: container, resource map, programs, the checks of IMG_LOAD, activation and swap (R160,
R242 to R250). -/
namespace Sys2Proof.Machine

/-! ### The container (R242) -/

/-- An entry of the section table. -/
structure SectEnt where
  type : Nat
  index : Nat
  off : Nat
  size : Nat
  crc : Nat
  deriving DecidableEq, Repr

/-- NSECT, and the section table. -/
def nsectOf (b : List Byte) : Nat := leAt b 12 4

def sectTable (b : List Byte) : List SectEnt :=
  (List.range (capNat 512 (nsectOf b))).map (fun i =>
    let e := (b.drop (64 + 16 * i)).take 16
    ⟨leAt e 0 2, leAt e 2 2, leAt e 4 4, leAt e 8 4, leAt e 12 4⟩)

/-- The body of a section. -/
def sectBody (b : List Byte) (e : SectEnt) : List Byte := (b.drop e.off).take e.size

/-- The body of the section of a type and index. -/
def sectOf (b : List Byte) (type index : Nat) : Option (List Byte) :=
  ((sectTable b).find? (fun e => e.type == type && e.index == index)).map (sectBody b)

/-- Bytes a up to b are 0. -/
def zeroAt (bs : List Byte) (off n : Nat) : Bool := ((bs.drop off).take n).all (fun x => x == 0#8)

/-- The index of a section type is one it may have. -/
def indexOk (type index : Nat) : Bool :=
  match type with
  | 0x01 => decide (index ≤ 32)
  | 0x02 => index == 0
  | 0x03 => decide (index < 16)
  | 0x04 => decide (index < 128)
  | 0x10 => decide (index < 128)
  | 0x11 => decide (index < 128)
  | 0x12 => decide (index < 128)
  | 0x13 => decide (index < 1024 ∧ index % 256 < 128)
  | 0x14 => decide (index < 4)
  | 0x15 => decide (index < 4)
  | _ => false

/-- The size of a section type is one it may have (R242, R244, R245). -/
def sizeOk (s : State) (b : List Byte) (e : SectEnt) : Bool :=
  let x := sectBody b e
  match e.type with
  | 0x01 => decide (1 ≤ leAt x 0 2 ∧ leAt x 0 2 ≤ 4096) && e.size == 128 + 8 * leAt x 0 2
  | 0x02 => decide (1 ≤ leAt x 0 1 ∧ leAt x 0 1 ≤ 16 ∧ leAt x 1 1 ≤ 96 ∧ leAt x 2 2 ≤ 1024) &&
      e.size == 16 + 64 * leAt x 0 1 + 16 * leAt x 1 1 + 16 * leAt x 2 2
  | 0x03 => e.size % 64 == 0 && decide (e.size ≤ 65536)
  | 0x04 => e.size % 32 == 0 && decide (32 ≤ e.size ∧ e.size ≤ 512)
  | 0x10 => e.size == 131072
  | 0x11 => e.size == streamWidth s e.index * streamComps s e.index * 4
  | 0x12 => e.size % 4 == 0 && decide (e.size ≤ 4096)
  | 0x13 => e.size == 32768
  | 0x14 => e.size == 16448
  | 0x15 => e.size == 1088
  | _ => false

/-- The section lies between the table and the trailer, on a 64-byte boundary. -/
def boundsOk (b : List Byte) (e : SectEnt) : Bool :=
  e.off % 64 == 0 && decide (64 + 16 * nsectOf b ≤ e.off ∧ e.off + e.size + 192 ≤ b.length)

/-! ### The resource map (R245) -/

def ActEnt.ofBytes (e : List Byte) : ActEnt :=
  ⟨leAt e 0 1, leAt e 1 1, leAt e 2 1, leAt e 3 1, leAt e 4 8, leAt e 12 2, leAt e 14 2, leAt e 32 32⟩

def StrEnt.ofBytes (e : List Byte) : StrEnt := ⟨leAt e 0 1, leAt e 1 1, leAt e 2 1, leAt e 3 1, leAt e 4 4⟩

def RegEnt.ofBytes (e : List Byte) : RegEnt := ⟨leAt e 0 1, leAt e 1 1, leAt e 4 4, leAt e 8 4⟩

/-- Entries of n bytes from an offset. -/
def entriesAt (b : List Byte) (off n count : Nat) : List (List Byte) :=
  (List.range count).map (fun i => (b.drop (off + n * i)).take n)

def mapActs (b : List Byte) : List (List Byte) := entriesAt b 16 64 (leAt b 0 1)
def mapStrs (b : List Byte) : List (List Byte) := entriesAt b (16 + 64 * leAt b 0 1) 16 (leAt b 1 1)
def mapRegs (b : List Byte) : List (List Byte) := entriesAt b (16 + 64 * leAt b 0 1 + 16 * leAt b 1 1) 16 (leAt b 2 2)

def ResMap.ofBytes (b : List Byte) : ResMap :=
  { clusterOp := (List.range 8).map (fun c => leAt b (4 + c) 1), acts := (mapActs b).map ActEnt.ofBytes
    strs := (mapStrs b).map StrEnt.ofBytes, regions := (mapRegs b).map RegEnt.ofBytes }

/-- No two elements of a list are equal. -/
def distinct (l : List Nat) : Bool := l.eraseDups.length == l.length

/-- Fields of the map that hold a reserved value (check 7). -/
def mapFields (b : List Byte) : Bool :=
  let m := ResMap.ofBytes b
  zeroAt b 12 4 && m.clusterOp.all (fun o => decide (o ≤ 3)) &&
    (mapActs b).all (fun e => zeroAt e 16 16) && (mapStrs b).all (fun e => zeroAt e 8 8) &&
    (mapRegs b).all (fun e => zeroAt e 2 2 && zeroAt e 12 4) &&
    m.acts.all (fun a => decide (a.id ≤ 15 ∧ a.flags ≤ 1)) && distinct (m.acts.map (fun a => a.id)) &&
    m.strs.all (fun e => m.acts.any (fun a => a.id == e.act) && decide (e.stream < 128 ∧ e.tiles ≤ 8) &&
      (if e.tiles = 0 then e.tileFirst == 0xFF else decide (e.tileFirst < 32))) &&
    distinct (m.strs.map (fun e => e.stream)) && m.regions.all (fun r => decide (r.kind ≤ 9 ∧ 1 ≤ r.count))

/-- Check 11: places of regions. -/
def regionPlaces (s : State) (m : ResMap) : Bool :=
  m.regions.all (fun r =>
    decide (r.first + r.count ≤ 24576 ∧ r.first / 12288 = (r.first + r.count - 1) / 12288) &&
      decide (r.first + r.count ≤ 12224 ∨ 12288 ≤ r.first ∧ r.first + r.count ≤ 24512) &&
      (r.kind != 0 || decide (1024 ≤ lbLines (r.count * segBytes)
        (lbSlot (streamWidth s r.stream) (streamDt s r.stream)))))

def regMeet (a b : RegEnt) : Bool := decide (a.first < b.first + b.count ∧ b.first < a.first + a.count)

/-- Some pair of a list is related. -/
def anyPair {α : Type} (p : α → α → Bool) : List α → Bool
  | [] => false
  | x :: xs => xs.any (p x) || anyPair p xs

/-- Check 12: regions that share a segment, or cover a client's (R297). -/
def regionsMeet (s : State) (m : ResMap) : Bool :=
  anyPair regMeet m.regions ||
    m.regions.any (fun r => s.erg.seg.any (fun e => e.2.st == 3 && decide (r.first ≤ e.1 ∧ e.1 < r.first + r.count)))

/-- Bits two masks share. -/
def share (f : ActEnt → Nat) (a b : ActEnt) : Bool := f a &&& f b != 0

/-- R133 and R160 for a stream of a map. -/
def tilesCarry (s : State) (m : ResMap) (e : StrEnt) : Bool :=
  let width := streamWidth s e.stream
  let w := (width + e.tiles - 1) / e.tiles
  let d := ((streamDelays s e.stream).take (streamComps s e.stream)).sum
  e.tiles == 0 || (decide (w ≤ 8192) && decide (w * 2 * d ≤ 1572864) &&
    (List.range e.tiles).all (fun i => decide
      (e.rate * tileCycles (tileCols width e.tiles i) ≤ opHz (atD m.clusterOp ((e.tileFirst + i) / 4) 0))))

/-- The valve range of a stream lies on ejector buses of its activity (R216): VMIN to VMAX, to which R205 limits a
widened range, and that range moved by ALT_OFS.  DEDUCED (log 101): of each stream of the map, whatever its
EJT_STR_CTRL.EN. -/
def valvesOwned (s : State) (m : ResMap) (e : StrEnt) : Bool :=
  let r := s.rd .ejt (EJT_STR_VRANGE e.stream)
  let alt := s.fld .ejt (EJT_STR_WIDEN e.stream) 26 16
  let buses := ([0, alt] : List Nat).flatMap (fun d =>
    idxs 8 (fun n => decide ((bits r 10 0 + d) / 256 ≤ n ∧ n ≤ (bits r 26 16 + d) / 256)))
  m.acts.any (fun a => a.id == e.act && buses.all (fun n => tbit a.ej n))

/-- Check 13: every resource has one owner and carries its load. -/
def resourcesOk (s : State) (m : ResMap) : Bool :=
  let tiled := m.strs.filter (fun e => decide (0 < e.tiles))
  !anyPair (fun a b => share (fun x => x.vc) a b || share (fun x => x.ej) a b || share (fun x => x.dma) a b ||
      share (fun x => x.evt) a b || share (fun x => x.flags) a b) m.acts &&
    !anyPair (fun a b => decide (a.tileFirst < b.tileFirst + b.tiles ∧ b.tileFirst < a.tileFirst + a.tiles)) tiled &&
    tiled.all (fun e => decide (e.tileFirst + e.tiles ≤ 32)) &&
    (List.range 8).all (fun c => !m.usesCluster c || atD m.clusterOp c 0 != 0) &&
    decide ((m.acts.map (fun a => a.units0)).sum ≤ 240 ∧ (m.acts.map (fun a => a.units1)).sum ≤ 240) &&
    (stackPresent s 1 || (m.acts.all (fun a => a.units1 == 0) && m.regions.all (fun r => decide (r.first < 12288)))) &&
    m.strs.all (fun e => tilesCarry s m e && valvesOwned s m e)

/-! ### Programs (R226, R233 to R240, R244, R248) -/

def Program.ofBytes (b : List Byte) : Program :=
  { stream := leAt b 2 1, initOnSwap := tbit (leAt b 3 1) 0
    entry := (List.range 4).map (fun i => leAt b (4 + 2 * i) 2), budget := (List.range 4).map (fun i => leAt b (12 + 2 * i) 2)
    minLine := leAt b 20 4, minEvent := leAt b 24 4, tickPeriod := leAt b 28 4, tickPhase := leAt b 32 4
    subs := (List.range 8).map (fun i => leAt b (36 + 2 * i) 2)
    xInit := (List.range 16).map (fun i => BitVec.ofNat 32 (leAt b (64 + 4 * i) 4))
    code := (List.range (leAt b 0 2)).map (fun i => BitVec.ofNat 64 (leAt b (128 + 8 * i) 8)) }

/-- Fields of a word: OP, D, A, B, T, IMM. -/
def fieldD (w : Dword) : Nat := nbits w.toNat 55 52
def fieldA (w : Dword) : Nat := nbits w.toNat 51 48
def fieldB (w : Dword) : Nat := nbits w.toNat 47 44
def fieldT (w : Dword) : Nat := nbits w.toNat 43 32
def fieldImm (w : Dword) : Nat := nbits w.toNat 31 0

/-- The fields an opcode uses: D, A, B, T, and the bits of IMM (R235). -/
def usedFields (op : Nat) : Bool × Bool × Bool × Bool × Nat :=
  match op with
  | 0x02 => (true, false, false, false, 0xFFFFFFFF)
  | 0x03 => (true, true, false, false, 0)
  | 0x04 => (true, true, false, false, 0xFFFFFFFF)
  | 0x05 => (true, true, true, false, 0)
  | 0x06 => (true, true, true, false, 0)
  | 0x07 => (true, true, false, false, 0xFFFFFFFF)
  | 0x08 => (true, true, true, false, 0)
  | 0x09 => (true, true, true, false, 0)
  | 0x0A => (true, true, true, false, 0)
  | 0x0B => (true, true, false, false, 0x1F)
  | 0x0C => (true, true, false, false, 0x1F)
  | 0x0D => (true, true, false, false, 0xFFFFFFFF)
  | 0x10 => (true, false, false, true, 0x1FFF)
  | 0x11 => (true, false, false, false, 0)
  | 0x20 => (false, false, false, true, 0)
  | 0x21 => (false, true, true, true, 0xFFFFFFFF)
  | 0x22 => (false, true, false, true, 0x1F)
  | 0x23 => (false, true, false, true, 0x1F)
  | 0x24 => (false, false, false, true, 0xF)
  | 0x25 => (false, false, false, true, 0x1FF)
  | 0x26 => (false, false, false, true, 0x0FFFFF0F)
  | 0x30 => (false, false, false, true, 0xFFFFF)
  | 0x31 => (false, false, false, true, 1)
  | 0x32 => (false, false, false, true, 3)
  | 0x33 => (false, true, false, true, 0x7F)
  | 0x34 => (false, false, false, true, 0xF3)
  | 0x35 => (false, true, true, false, 0xC003FF3F)
  | 0x36 => (false, true, false, false, 0xFF)
  | 0x37 => (false, true, false, false, 0xFFFF)
  | _ => (false, false, false, false, 0)

/-- T is a branch target. -/
def isBranch (op : Nat) : Bool := decide (0x20 ≤ op ∧ op ≤ 0x26)

/-- T names a stream. -/
def isStreamOp (op : Nat) : Bool := op == 0x10 || decide (0x30 ≤ op ∧ op ≤ 0x34)

/-- The word's own encodings are legal (R233, R235, R237). -/
def wordOk (w : Dword) : Bool :=
  let op := wordOp w
  let u := usedFields op
  let imm := fieldImm w
  (opCycles op).isSome && (u.1 || fieldD w == 0) && (u.2.1 || fieldA w == 0) && (u.2.2.1 || fieldB w == 0) &&
    (u.2.2.2.1 || fieldT w == 0) && imm &&& u.2.2.2.2 == imm && (!isStreamOp op || decide (fieldT w < 128)) &&
    (match op with
      | 0x10 => decide (nbits imm 12 8 ≤ 14)
      | 0x11 => fieldD w % 2 == 0
      | 0x21 => decide (nbits imm 31 28 ≤ 5)
      | 0x25 => decide (1 ≤ imm ∧ imm ≤ 256)
      | 0x26 => decide (1 ≤ nbits imm 27 8 ∧ nbits imm 27 8 ≤ 1000000)
      | 0x30 => decide (imm ≤ 1000000)
      | 0x34 => decide (imm % 4 ≠ 3)
      | _ => true)

/-- The loops whose body holds an index: index of the LOOP and T, outer first. -/
def loopsAround (code : List Dword) (i : Nat) : List (Nat × Nat) :=
  ((code.zipIdx).filter (fun p => wordOp p.1 == 0x25 && decide (p.2 < i ∧ i < fieldT p.1))).map
    (fun p => (p.2, fieldT p.1))

/-- Indices that may follow an instruction. -/
def successors (w : Dword) (i : Nat) : List Nat :=
  match wordOp w with
  | 0x01 => []
  | 0x20 => [fieldT w]
  | 0x25 => [i + 1]
  | op => if isBranch op then [i + 1, fieldT w] else [i + 1]

/-- Indices reached from a list of starts, walking forward. -/
def reach (code : List Dword) (starts : List Nat) : List Nat :=
  (code.zipIdx).foldl (fun r p => if r.contains p.2 then r ++ (successors p.1 p.2).filter (fun k => !r.contains k) else r)
    starts.eraseDups

/-- R234 and R236: targets forward and inside, loops nested at most twice, every path reaches END. -/
def flowOk (p : Program) : Bool :=
  let n := p.code.length
  (p.code.zipIdx).all (fun q =>
      let t := fieldT q.1
      let around := loopsAround p.code q.2
      !isBranch (wordOp q.1) ||
        (decide (q.2 < t ∧ t < n) && around.all (fun l => decide (t ≤ l.2)) &&
          (wordOp q.1 != 0x25 || decide (around.length ≤ 1)))) &&
    !(reach p.code (p.entry.filter (fun e => e != 0xFFFF))).contains n

/-- Reserved fields of a program's header (R244, check 7). -/
def headFields (b : List Byte) : Bool :=
  decide (leAt b 2 1 < 128 ∧ leAt b 3 1 ≤ 1) && zeroAt b 52 12 &&
    (List.range 8).all (fun i => leAt b (36 + 2 * i) 2 &&& 0xC0FF == leAt b (36 + 2 * i) 2)

/-- Entries and budgets of a program's header (R226, R244). -/
def headOk (b : List Byte) (q : Nat) : Bool :=
  let p := Program.ofBytes b
  let n := p.code.length
  (List.range 4).all (fun k =>
      let e := atD p.entry k 0
      let g := atD p.budget k 0
      (e == 0xFFFF && g == 0) || (decide (e < n) && decide (1 ≤ g))) &&
    (q != 32 || (p.stream == 0x7F && (p.entryOf 0).isNone && (p.entryOf 1).isNone)) &&
    ((p.entryOf 3).isNone || decide (1000 ≤ p.tickPeriod ∧ p.tickPhase < p.tickPeriod))

/-- Check 16 for a program. -/
def programOk (m : ResMap) (b : List Byte) (q : Nat) : Bool :=
  let p := Program.ofBytes b
  headOk b q && p.code.all wordOk && flowOk p &&
    (q == 32 || m.strs.any (fun e => e.stream == p.stream && e.tileFirst == q && decide (0 < e.tiles)))

/-- Whether an instruction names only what its activity owns (R240). -/
def operandOk (b : List Byte) (m : ResMap) (q : Nat) (p : Program) (w : Dword) : Bool :=
  let imm := fieldImm w
  let t := fieldT w
  let act := if q = 32 then (m.acts.find? (fun a => tbit a.flags 0)).map (fun a => a.id)
    else (m.strs.find? (fun e => e.stream == p.stream)).map (fun e => e.act)
  let owns (f : ActEnt → Nat) (i : Nat) : Bool := m.acts.any (fun a => some a.id == act && tbit (f a) i)
  let stream := if q = 32 then m.strs.any (fun e => e.stream == t && e.tiles == 0 && some e.act == act)
    else t == p.stream
  match wordOp w with
  | 0x30 => stream
  | 0x31 => stream
  | 0x32 => stream
  | 0x33 => stream
  | 0x34 => stream && decide (nbits imm 7 4 < ((sectOf b 4 t).getD []).length / 32)
  | 0x35 => owns (fun a => a.dma) (imm % 64) &&
      decide (nbits imm 17 8 < ((act.bind (sectOf b 3)).getD []).length / 64)
  | 0x36 => owns (fun a => a.evt) (imm % 256)
  | _ => true

/-- Worst cycles from each index of lo to hi - 1 until END or hi, in rising order (R248); fuel is the depth of loops. -/
def worstList : Nat → List Dword → Nat → Nat → List Nat
  | 0, _, _, _ => []
  | f + 1, code, lo, hi =>
    ((List.range (hi - lo)).map (fun k => hi - 1 - k)).foldl (fun acc i =>
      let at' (j : Nat) : Nat := if hi ≤ j then 0 else atD acc (j - (i + 1)) 0
      let w := atD code i 0#64
      let t := fieldT w
      let c := match wordOp w with
        | 0x01 => 1
        | 0x20 => 2 + at' t
        | 0x25 =>
          let body := atD (worstList f code (i + 1) (min t hi)) 0 0
          2 + fieldImm w * (body + 1) + at' t
        | 0x26 => 2 + nbits (fieldImm w) 27 8 + max (at' (i + 1)) (at' t)
        | op => (opCycles op).getD 0 + (if isBranch op then max (at' (i + 1)) (at' t) else at' (i + 1))
      c :: acc) []

/-- R248 for a program: worst paths within budgets, budgets within the least intervals. -/
def budgetsOk (m : ResMap) (p : Program) : Bool :=
  let worst := worstList 3 p.code 0 p.code.length
  let used := idxs 4 (fun k => (p.entryOf k).isSome)
  let sum := (used.map (fun k => atD p.budget k 0 + 20)).sum
  used.all (fun k => decide (atD worst (atD p.entry k 0) 0 ≤ atD p.budget k 0)) &&
    (!(used.contains 0 || used.contains 1) || decide (sum ≤ p.minLine)) &&
    (!used.contains 2 || decide (sum ≤ p.minEvent)) && (!used.contains 3 || decide (sum ≤ p.tickPeriod)) &&
    m.strs.all (fun e => e.stream != p.stream || e.rate == 0 || decide (p.minLine ≤ 1000000000 / e.rate))

/-! ### Routes (R266) -/

/-- Reserved values of a route entry. -/
def routeFields (r : List Byte) : Bool :=
  let kind := leAt r 0 1
  decide (kind ≤ 2 ∧ leAt r 1 1 ≤ 4 ∧ leAt r 12 2 ≤ 10000) && zeroAt r 14 2 &&
    (if kind = 1 then decide (leAt r 3 1 ≤ 2) else leAt r 3 1 == 0) && leAt r 16 4 % 64 == 0 && decide (1 ≤ leAt r 20 4) &&
    (List.range (leAt r 1 1)).all (fun k =>
      let c := leAt r (4 + 2 * k) 2
      !tbit c 15 && nbits c 11 10 == 0 && (kind != 0 || nbits c 13 12 != 0))

/-- The route copies something. -/
def routeCopies (r : List Byte) : Bool :=
  if leAt r 0 1 = 0 then (List.range (leAt r 1 1)).any (fun k => tbit (leAt r (4 + 2 * k) 2) 14) else decide (0 < leAt r 1 1)

/-- The routes of a stream use channels of its activity (R266). -/
def routesOwned (m : ResMap) (t : Nat) (b : List Byte) : Bool :=
  (entriesAt b 0 32 (b.length / 32)).all (fun r =>
    !routeCopies r || m.strs.any (fun e => e.stream == t && m.acts.any (fun a => a.id == e.act && tbit a.dma (leAt r 2 1))))

/-! ### The checks of IMG_LOAD (R247) -/

/-- ALG and signature by R243. -/
def imageAuth (s : State) (b tr : List Byte) : Bool :=
  let keys := (List.range 4).map (fun k => Tab.get (fun _ => 0) s.host.keys k)
  let key := (tr.drop 8).take 64
  match leAt tr 4 4 with
  | 0 => keys.all (fun k => k == 0)
  | 1 =>
    (keys.all (fun k => k == 0) || keys.any (fun k => k != 0 && k == sha256 key)) &&
      ecdsaOk (ofBe (key.take 32)) (ofBe (key.drop 32)) (ofBe ((tr.drop 72).take 32)) (ofBe ((tr.drop 104).take 32))
        (sha256 (b.take (b.length - 184)))
  | _ => false

/-- Check 7: section types, reserved fields, duplicates. -/
def fieldsOk (b tr : List Byte) : Bool :=
  let t := sectTable b
  decide (1 ≤ nsectOf b ∧ nsectOf b ≤ 512) && zeroAt b 6 2 && zeroAt b 32 32 && zeroAt tr 136 56 &&
    t.all (fun e => indexOk e.type e.index) && distinct (t.map (fun e => e.type * 65536 + e.index)) &&
    (sectOf b 2 0).isSome &&
    t.all (fun e =>
      let x := sectBody b e
      if !boundsOk b e then true
      else match e.type with
        | 0x01 => headFields x
        | 0x02 => mapFields x
        | 0x04 => (entriesAt x 0 32 (x.length / 32)).all routeFields
        | _ => true)

/-- Check 10: the CRCs of sections, of the map, and of flight and rule tables. -/
def crcsOk (b : List Byte) : Bool :=
  (sectTable b).all (fun e =>
    let x := sectBody b e
    let own (n : Nat) : Bool := crc32c (x.take n) == leAt x n 4
    crc32c x == e.crc &&
      (match e.type with
        | 0x02 => e.crc == leAt b 24 4
        | 0x14 => own 16444
        | 0x15 => own 1084
        | _ => true))

/-- Check 18: the contents of tables (R140, R202). -/
def tablesOk (b : List Byte) : Bool :=
  (sectTable b).all (fun e =>
    let x := sectBody b e
    match e.type with
    | 0x12 => defectOrdered x
    | 0x15 => ruleOk x
    | _ => true)

/-- A section is of a stream: its index names one, a tone table's in its low byte (R242). -/
def SectEnt.stream (e : SectEnt) : Option Nat :=
  if e.type = 4 ∨ (0x10 ≤ e.type ∧ e.type ≤ 0x12) then some e.index
  else if e.type = 0x13 then some (e.index % 256) else none

/-- Check 11: no stream field of the image holds a reserved ID (R5): map, section indices, programs and their stream
operations; 0x7F is the device's in a region and in the program of SQS.  DEDUCED (log 102): the place of the check. -/
def streamsReal (b : List Byte) (m : ResMap) : Bool :=
  m.strs.all (fun e => decide (e.stream < 96)) && m.regions.all (fun r => decide (r.stream < 96 ∨ r.stream = 0x7F)) &&
    (sectTable b).all (fun e =>
      let p := Program.ofBytes (sectBody b e)
      decide (e.stream.getD 0 < 96) && (e.type != 1 || (decide (p.stream < 96 ∨ (e.index = 32 ∧ p.stream = 0x7F)) &&
        p.code.all (fun w => !isStreamOp (wordOp w) || decide (fieldT w < 96 ∨ 128 ≤ fieldT w)))))

/-- The image in an Erg range, and the first failing check's code; 0 when it passes (R247). -/
def imageStatus (s : State) (addr range : Nat) : Nat :=
  let len := ofLe (ergRead s (addr + 8) 4)
  if s.seq.swap.isSome then 5
  else if 67108864 < len ∨ range < len ∨ len < 256 ∨ ¬ ergUsable s addr len then 2
  else
    let b := ergRead s addr len
    let tr := b.drop (len - 192)
    let t := sectTable b
    let m := ResMap.ofBytes ((sectOf b 2 0).getD [])
    let progs := t.filter (fun e => e.type == 1)
    if leAt b 0 4 ≠ 0x44484353 then 1
    else if leAt b 4 2 ≠ 1 ∨ leAt b 28 4 ≠ 0xB1 then 0xA
    else if ergPoisoned s addr len ∨ crc32c (b.take (len - 192)) ≠ leAt tr 0 4 then 9
    else if !imageAuth s b tr then 8
    else if !fieldsOk b tr then 1
    else if !t.all (fun e => boundsOk b e && sizeOk s b e) then 2
    else if anyPair (fun x y => spansMeet x.off x.size y.off y.size) t then 3
    else if !crcsOk b then 9
    else if !streamsReal b m || !regionPlaces s m then 2
    else if regionsMeet s m then 3
    else if !resourcesOk s m then 0xD
    else if m.acts.any (fun a => (List.range 64).any (fun c => tbit a.dma c && s.flag .dma (DMA_CH_OWNER c) 30)) then 4
    else if s.seq.active.isSome && (List.range 96).any (fun t => streamOn s t) &&
        leAt b 24 4 != ((s.seq.active.map (fun i => i.mapCrc)).getD 0) then 6
    else if !progs.all (fun e => programOk m (sectBody b e) e.index) then 1
    else if !progs.all (fun e =>
        let p := Program.ofBytes (sectBody b e)
        p.code.all (operandOk b m e.index p) && budgetsOk m p) then 0xD
    else if !t.all (fun e => e.type != 4 || routesOwned m e.index (sectBody b e)) then 0xD
    else if !tablesOk b then 1
    else 0

/-- The image of bytes that passed the checks. -/
def Image.ofBytes (b : List Byte) : Image :=
  { build := leAt b 16 8, mapCrc := leAt b 24 4, map := ResMap.ofBytes ((sectOf b 2 0).getD [])
    sects := (sectTable b).map (fun e => ⟨e.type, e.index, sectBody b e⟩) }

/-! ### Staging and activation (R249) -/

/-- Write sections one after another, each on a 64-byte boundary, into a region while they fit. -/
def State.copyTables (s : State) (r : RegEnt) (l : List Sect) : State :=
  (l.foldl (fun (p : State × Nat) x =>
    if p.2 + x.body.length ≤ (r.first + r.count) * segBytes then
      (p.1.ergWrite p.2 x.body, up64 (p.2 + x.body.length))
    else p) (s, r.first * segBytes)).1

/-- The table-copy region that a stream's tables go to, or for 0x7F the device's: its own, else the device's, else the first
(DESIGN CHOICE, log 140). -/
def tableHome (regs : List RegEnt) (t : Nat) : Option RegEnt :=
  (regs.find? (fun r => r.stream == t)).orElse (fun _ => (regs.find? (fun r => r.stream == 0x7F)).orElse (fun _ => regs.head?))

/-- The table sections go into their table-copy regions; flight and rule tables into those of both stacks (R249). -/
def State.tableRegions (s : State) (i : Image) : State :=
  let regs := i.map.regions.filter (fun r => r.kind == 8)
  let tile := i.sects.filter (fun x => decide (0x10 ≤ x.type ∧ x.type ≤ 0x13))
  let verdict := i.sects.filter (fun x => decide (0x14 ≤ x.type))
  s.each regs (fun s r =>
    let device := tableHome (regs.filter (fun q => q.first / 12288 == r.first / 12288)) 0x7F == some r
    s.copyTables r ((if device then verdict else []) ++ tile.filter (fun x => tableHome regs (x.index % 256) == some r)))

/-- The programs go into the inactive bank of each named sequencer. -/
def State.loadPrograms (s : State) (i : Image) : State :=
  s.each (List.range 33) (fun s q =>
    let p := (i.sect 1 q).map Program.ofBytes
    let bank := !s.flag .seq (SEQ_STATUS q) 29
    s.onSeq q (fun x => if bank then { x with bank1 := p } else { x with bank0 := p }))

/-- Segments of the image's regions are in STATE REGION (R294). -/
def State.claimRegions (s : State) (i : Image) : State :=
  s.each i.map.regions (fun s r =>
    s.each (List.range r.count) (fun s k => s.setSeg (r.first + k) ⟨2, false, r.kind, r.stream, 0, 0, false⟩))

/-- A segment belongs to a region of an image. -/
def Image.hasSeg (i : Image) (n : Nat) : Bool := i.map.regions.any (fun r => decide (r.first ≤ n ∧ n < r.first + r.count))

/-- Region segments that no image names any more are DIRTY (R294). -/
def State.dropRegions (s : State) (i : Option Image) : State :=
  s.each ((s.erg.seg.filter (fun e => e.2.st == 2)).map (fun e => e.1)) (fun s n =>
    if (i.map (fun i => i.hasSeg n)).getD false then s else s.dirtySeg n)

/-- A stream's region of a kind is the same in two maps. -/
def sameRegion (old s : State) (t kind : Nat) : Bool := mapRegion old t kind == mapRegion s t kind

/-- A record or statistics queue of a stream whose region changed starts empty (R312). -/
def State.queueFresh (s old : State) (t k : Nat) : State :=
  let s' := if sameRegion old s t (if k = 0 then 7 else 6) then s else s.setQ (qOf t k) ErgQ.init
  s'.setb .erg (qAddr (qOf t k) 0x8) 0 (qRegion s' (qOf t k)).isSome

/-- An output ring of a stream whose region changed starts empty. -/
def State.ringFresh (s old : State) (t k : Nat) : State :=
  if sameRegion old s t (3 + k) then s else s.setOutRing t k OutRing.init

/-- The queues, the staging ring and the output rings of a stream under a new map. -/
def State.streamFresh (s old : State) (t : Nat) : State :=
  let s' := s.each [0, 1] (fun u k => u.queueFresh old t k)
  let s' := if sameRegion old s t 2 then s' else s'.onObj t (fun x => { x with staging := [] })
  s'.each [0, 1, 2] (fun u k => u.ringFresh old t k)

/-- Queues, output rings and staging rings of regions that changed start empty; PRESENT as the map places them. -/
def State.queueRegions (s old : State) : State :=
  let s := s.each (List.range 96) (fun u t => u.streamFresh old t)
  if sameRegion old s 127 9 then s
  else
    let s := s.setQ qHandover ErgQ.init
    { s with cvn := { s.cvn with hoStreams := [] } }

/-- Owners of DMA and event channels follow the active map (R278, R326, R327). -/
def State.claimChannels (s : State) : State :=
  let s := s.each (List.range 64) (fun s c =>
    let a := imageDmaAct s.seq.active c
    (s.setb .dma (DMA_CH_OWNER c) 31 a.isSome).put .dma (DMA_CH_OWNER c) 19 16 (a.getD 0))
  s.each (List.range 256) (fun s c =>
    let a := channelAct s c
    let was := s.flag .evt (EVT_CH_CTRL c) 31
    let old := if was then some (s.fld .evt (EVT_CH_CTRL c) 19 16) else none
    if old = a then s
    else ((s.setb .evt (EVT_CH_CTRL c) 31 a.isSome).put .evt (EVT_CH_CTRL c) 19 16 (a.getD 0)).setb .evt
      (EVT_CH_CTRL c) 30 false)

/-- Every look-back ring is gone and every stream's line count starts anew (R300, R301). -/
def State.lbClear (s : State) : State :=
  let s : State := { s with erg := { s.erg with lb := [] } }
  s.each (List.range 96) (fun s t => (s.lbRestart t).wr .erg (ERG_LB_NLINES t) 0#32)

/-- The image becomes active at once (R249, R265, R300, R366). -/
def State.activate (s : State) (i : Image) : State :=
  let old := s
  let s := s.each i.tableStreams (fun s t => s.tablesCopy t i)
  let s : State := { s with seq := { s.seq with active := some i, staged := none } }
  let s := s.each (List.range 33) (fun s q => s.seqSwitch q true)
  let s := s.each i.tableStreams (fun s t => s.tablesUse t i)
  let s := (s.verdictTables i).ejtSwap
  let s := ((s.dropRegions (some i)).claimRegions i).queueRegions old
  let s := (s.lbClear).each (i.map.regions.filter (fun r => r.kind == 0)) (fun s r => s.layLookback r)
  let s := (s.each (List.range 96) (fun s t => s.noTableSync t)).claimChannels
  let s : State := { s with host := { s.host with route := [], routeQ := [] } }
  let s := (s.imageRegs i).setb .seq SEQ_IMG_STATUS 30 (!s.flag .seq SEQ_IMG_STATUS 30)
  s.setb .seq SEQ_IMG_STATUS 29 false

/-- IMG_LOAD's effect on an image that passed (R249). -/
def State.imageStage (s : State) (i : Image) : State :=
  let s := (s.tableRegions i).loadPrograms i
  if (List.range 96).any (fun t => streamOn s t) then
    let s := s.claimRegions i
    ({ s with seq := { s.seq with staged := some i } } : State).setb .seq SEQ_IMG_STATUS 29 true
  else s.activate i

/-- IMG_LOAD (R247, R249): the words that the checks read are met, good or not (R304). -/
def execImgLoad (s : State) : Host.Outcome State Fault Refusal :=
  .next (s.mbxRun 0x01 (fun s =>
    let addr := mbxArg64 s 0
    let st := imageStatus s addr (mbxArg s 2)
    let len := ofLe (ergRead s (addr + 8) 4)
    let read := decide (¬ (67108864 < len ∨ mbxArg s 2 < len)) && ergUsable s addr len
    let s' := if s.seq.swap.isSome then s else if read then s.ergMeet addr len else s.ergMeet (addr + 8) 4
    if st = 0 then (s'.imageStage (Image.ofBytes (ergRead s addr len)), 0, []) else (s', st, [])))

/-! ### Swap (R250) -/

/-- A stream with tables in the staged image is armed or loads a table. -/
def swapBlocked (s : State) (i : Image) : Bool :=
  i.tableStreams.any (fun t => s.flag .pix (PIX_ARM t) 31 || s.flag .pix (PIX_STATUS t) 2 || s.flag .obj (OBJ_STATUS t) 6)

/-- Sequencers that switch: the lead sequencers of the image's streams, and SQS. -/
def swapUnits (i : Image) : List Nat :=
  idxs 32 (fun q => i.map.strs.any (fun e => e.tileFirst == q && decide (0 < e.tiles))) ++ [32]

/-- IMG_SWAP (R250). -/
def execImgSwap (s : State) : Host.Outcome State Fault Refusal :=
  .next (s.mbxRun 0x02 (fun s =>
    match s.seq.staged with
    | none => (s, 6, [])
    | some i =>
      if s.seq.swap.isSome || swapBlocked s i then (s, 5, [])
      else
        let s : State := { s with seq := { s.seq with swap := some ⟨swapUnits i, none⟩ } }
        (((s.setb .seq SEQ_IMG_STATUS 28 true).setb .seq SEQ_IMG_STATUS 27 true).swapLeft, 0, [])))

/-- SWAP_TBL_COPY_DONE (R250): the staged tables are in the inactive banks. -/
def execSwapTblCopyDone (s : State) : Host.Outcome State Fault Refusal :=
  .next (match s.seq.swap, s.seq.staged with
    | some w, some i =>
      if w.copied.isSome then s
      else
        let s := s.each i.tableStreams (fun s t => s.tablesCopy t i)
        let s := s.verdictTables i
        let s := s.each (List.range 33) (fun s q => s.onSeq q (fun x => { x with lineStarts := 0 }))
        let s : State := { s with seq := { s.seq with swap := some { w with copied := some s.now } } }
        let s := s.setb .seq SEQ_IMG_STATUS 27 false
        if w.left = [32] ∧ ¬ sqsTicks s then s.swapFinish else s
    | _, _ => s)

end Sys2Proof.Machine
end

