-- ==== Sys2Proof/Machine/Inflate.lean ====
section
/-! DEFINITION. DEFLATE decoding (RFC 1951) and its wrappers (RFC 1950, RFC 1952), as R317 uses them. -/
namespace Sys2Proof.Machine

/-! ### Checks -/

/-- One bit of the reflected CRC-32 register. -/
def crc32Bit (r : Nat) (b : Bool) : Nat :=
  if xor (tbit r 0) b then (r / 2) ^^^ 0xEDB88320 else r / 2

/-- CRC-32 of RFC 1952. -/
def crc32 (bs : List Byte) : Nat :=
  (bs.foldl (fun r b => (bitsLsb 8 b.toNat).foldl crc32Bit r) 0xFFFFFFFF) ^^^ 0xFFFFFFFF

/-- Adler-32 of RFC 1950. -/
def adler32 (bs : List Byte) : Nat :=
  let p := bs.foldl (fun (p : Nat × Nat) b =>
    let a := (p.1 + b.toNat) % 65521
    (a, (p.2 + a) % 65521)) (1, 0)
  p.2 * 65536 + p.1

/-! ### Huffman codes -/

/-- A code: entries of length, code word and symbol. -/
abbrev Huff := List (Nat × Nat × Nat)

/-- The canonical code of a list of code lengths by symbol. -/
def huffOf (lens : List Nat) : Huff :=
  let step (p : Nat × Huff) (len : Nat) : Nat × Huff :=
    let syms := idxs lens.length (fun i => atD lens i 0 == len)
    (2 * (p.1 + syms.length), p.2 ++ syms.zipIdx.map (fun q => (len, p.1 + q.2, q.1)))
  (((List.range 15).map (· + 1)).foldl step (0, [])).2

/-- Decode one symbol: the symbol and the bits left. -/
def huffSym (h : Huff) : Nat → Nat → Nat → List Bool → Option (Nat × List Bool)
  | 0, _, _, _ => none
  | _, _, _, [] => none
  | f + 1, len, code, b :: bs =>
    let code := 2 * code + b2n b
    match h.find? (fun e => e.1 == len + 1 && e.2.1 == code) with
    | some e => some (e.2.2, bs)
    | none => huffSym h f (len + 1) code bs

/-- Take n bits, least significant first. -/
def takeBits (n : Nat) (bs : List Bool) : Option (Nat × List Bool) :=
  if bs.length < n then none
  else some ((bs.take n).foldr (fun b r => b2n b + 2 * r) 0, bs.drop n)

/-- Base and extra bits of the length codes 257 to 285. -/
def lenCode (i : Nat) : Nat × Nat :=
  if i < 8 then (3 + i, 0)
  else if i < 28 then (3 + (4 + i % 4) * 2 ^ (i / 4 - 1), i / 4 - 1)
  else (258, 0)

/-- Base and extra bits of the distance codes 0 to 29. -/
def distCode (i : Nat) : Nat × Nat :=
  if i < 4 then (1 + i, 0) else (1 + (2 + i % 2) * 2 ^ (i / 2 - 1), i / 2 - 1)

/-- The fixed codes. -/
def fixedLit : Huff :=
  huffOf (List.replicate 144 8 ++ List.replicate 112 9 ++ List.replicate 24 7 ++ List.replicate 8 8)

def fixedDist : Huff := huffOf (List.replicate 30 5)

/-- Output so far, newest byte first, after a copy of n bytes from a distance. -/
def copyBack : Nat → Nat → List Byte → List Byte
  | 0, _, out => out
  | n + 1, d, out => copyBack n d (atD out (d - 1) 0#8 :: out)

/-- How a decoder step ended: done, out of input, or with input that no conforming stream holds. -/
inductive DecEnd where
  | done | short | bad
  deriving DecidableEq, Repr

/-- What a decoder step leaves: how it ended, the bits left there, and the output, newest first. -/
abbrev Decoded := DecEnd × List Bool × List Byte

/-- No code word fits: the input ends before one could, or none begins so. -/
def noCode (bs : List Bool) : DecEnd := if bs.length < 15 then .short else .bad

/-- The symbols of a block up to its end code; a failure leaves the bits from the symbol on that failed. -/
def inflateSyms (lit dist : Huff) : Nat → List Bool → List Byte → Decoded
  | 0, bs, out => (.short, bs, out)
  | f + 1, at_, out =>
    match huffSym lit 15 0 0 at_ with
    | none => (noCode at_, at_, out)
    | some (s, bs) =>
      if s < 256 then inflateSyms lit dist f bs (BitVec.ofNat 8 s :: out)
      else if s = 256 then (.done, bs, out)
      else if 285 < s then (.bad, at_, out)
      else
        match takeBits (lenCode (s - 257)).2 bs with
        | none => (.short, at_, out)
        | some (x, bs) =>
          match huffSym dist 15 0 0 bs with
          | none => (noCode bs, at_, out)
          | some (d, bs) =>
            if 29 < d then (.bad, at_, out)
            else
              match takeBits (distCode d).2 bs with
              | none => (.short, at_, out)
              | some (y, bs) =>
                let n := (lenCode (s - 257)).1 + x
                let back := (distCode d).1 + y
                if out.length < back ∨ 32768 < back then (.bad, at_, out)
                else inflateSyms lit dist f bs (copyBack n back out)

/-- The order of the code length codes. -/
def clOrder : List Nat := [16, 17, 18, 0, 8, 7, 9, 6, 10, 5, 11, 4, 12, 3, 13, 2, 14, 1, 15]

/-- Read n code lengths with the code length code; newest first. -/
def readLens (h : Huff) : Nat → Nat → List Bool → List Nat → Option (List Bool × List Nat)
  | 0, _, _, _ => none
  | f + 1, n, bs, ls =>
    if ls.length = n then some (bs, ls)
    else if n < ls.length then none
    else
      match huffSym h 15 0 0 bs with
      | none => none
      | some (s, bs) =>
        if s < 16 then readLens h f n bs (s :: ls)
        else
          let w := if s = 16 then (2, 3) else if s = 17 then (3, 3) else (7, 11)
          match takeBits w.1 bs with
          | none => none
          | some (x, bs) =>
            if s = 16 ∧ ls = [] then none
            else readLens h f n bs (List.replicate (w.2 + x) (if s = 16 then ls.headD 0 else 0) ++ ls)

/-- The codes of a dynamic block. -/
def dynCodes (bs : List Bool) : Option (Huff × Huff × List Bool) :=
  match takeBits 14 bs with
  | none => none
  | some (x, bs) =>
    let hlit := x % 32 + 257
    let hdist := x / 32 % 32 + 1
    let hclen := x / 1024 + 4
    if bs.length < 3 * hclen then none
    else
      let raw := (List.range hclen).map (fun i => ((takeBits 3 (bs.drop (3 * i))).map (fun p => p.1)).getD 0)
      let cl := (List.range 19).map (fun s => atD raw ((clOrder.findIdx? (· == s)).getD 0) 0)
      match readLens (huffOf cl) (hlit + hdist + 1) (hlit + hdist) (bs.drop (3 * hclen)) [] with
      | none => none
      | some (bs, ls) =>
        let ls := ls.reverse
        some (huffOf (ls.take hlit), huffOf (ls.drop hlit), bs)

/-- A stored block: n bytes. -/
def storedBytes : Nat → List Bool → List Byte → Decoded
  | 0, bs, out => (.done, bs, out)
  | n + 1, at_, out =>
    match takeBits 8 at_ with
    | some (x, bs) => storedBytes n bs (BitVec.ofNat 8 x :: out)
    | none => (.short, at_, out)

/-- One block behind its 3 header bits; total is the stream's length in bits, for the byte boundary. -/
def inflateBlock (total type : Nat) (bs : List Bool) (out : List Byte) : Decoded :=
  match type with
  | 0 =>
    let at_ := bs.drop (bs.length % 8)
    match takeBits 32 at_ with
    | some (x, bs) => if x % 65536 + x / 65536 = 65535 then storedBytes (x % 65536) bs out else (.bad, at_, out)
    | none => (.short, at_, out)
  | 1 => inflateSyms fixedLit fixedDist (total + 1) bs out
  | 2 =>
    match dynCodes bs with
    | some (l, d, bs) => inflateSyms l d (total + 1) bs out
    | none => (if bs.length < 14 then .short else .bad, bs, out)
  | _ => (.bad, bs, out)

/-- What inflating came to: some true after a final block, some false at the end of the input between blocks, none
where it stopped inside a block; whether it stopped for want of input; the bits left there; the output, newest first; and
the blocks begun, newest first: their types, and whether they hold nothing. -/
structure Inflated where
  fin : Option Bool
  short : Bool
  left : List Bool
  out : List Byte
  blocks : List (Nat × Bool)
  deriving DecidableEq, Repr

/-- The blocks of a stream. -/
def inflateGo (total : Nat) : Nat → List Bool → List Byte → List (Nat × Bool) → Inflated
  | 0, bs, out, ks => ⟨none, true, bs, out, ks⟩
  | f + 1, bs, out, ks =>
    if bs = [] then ⟨some false, false, [], out, ks⟩
    else match takeBits 3 bs with
      | none => ⟨none, true, bs, out, ks⟩
      | some (h, rest) =>
        let r := inflateBlock total (h / 2) rest out
        let ks := (h / 2, decide (r.2.2.length = out.length)) :: ks
        match r.1 with
        | .done => if h % 2 = 1 then ⟨some true, false, r.2.1, r.2.2, ks⟩ else inflateGo total f r.2.1 r.2.2 ks
        | e => ⟨none, e == .short, r.2.1, r.2.2, ks⟩

/-- Inflate bytes behind earlier output; `out` is the new output in order. -/
def inflate (before bs : List Byte) : Inflated :=
  let bits := bs.flatMap (fun b => bitsLsb 8 b.toNat)
  let r := inflateGo bits.length (bits.length + 1) bits before.reverse []
  { r with out := r.out.reverse.drop before.length }

/-- Bytes of an input of n bytes that inflating has taken, a part of a byte counting whole; and the byte it stopped in. -/
def Inflated.taken (r : Inflated) (n : Nat) : Nat := (8 * n - r.left.length + 7) / 8
def Inflated.place (r : Inflated) (n : Nat) : Nat := (8 * n - r.left.length) / 8

/-! ### Wrappers (R317) -/

/-- The length of a zero-terminated string with its end, or none. -/
def zeroEnd (bs : List Byte) : Option Nat := (bs.findIdx? (· == 0#8)).map (· + 1)

/-- The header of a gzip stream: whether it is one, and its length, or the byte where it fails. -/
def gzipHeader (bs : List Byte) : Bool × Nat :=
  let fl := leAt bs 3 1
  let magic := [0x1F, 0x8B, 8]
  match (List.range 3).find? (fun i => leAt bs i 1 != atD magic i 0) with
  | some i => (false, min i bs.length)
  | none =>
    if bs.length < 10 then (false, bs.length)
    else if 32 ≤ fl then (false, 3)
    else
      let n := if tbit fl 2 then 12 + leAt bs 10 2 else 10
      let n1 := if tbit fl 3 then (zeroEnd (bs.drop n)).map (· + n) else some n
      let n2 := n1.bind (fun n => if tbit fl 4 then (zeroEnd (bs.drop n)).map (· + n) else some n)
      match n2 with
      | none => (false, bs.length)
      | some n =>
        let m := if tbit fl 1 then n + 2 else n
        if bs.length < m then (false, bs.length)
        else if tbit fl 1 ∧ leAt bs n 2 ≠ crc32 (bs.take n) % 65536 then (false, n)
        else (true, m)

/-- The header of a zlib stream (RFC 1950), likewise. -/
def zlibHeader (bs : List Byte) : Bool × Nat :=
  if bs.length < 2 then (false, bs.length)
  else if leAt bs 0 1 % 16 ≠ 8 then (false, 0)
  else if (leAt bs 0 1 * 256 + leAt bs 1 1) % 31 ≠ 0 then (false, 1)
  else (true, 2)

end Sys2Proof.Machine
end

