-- ==== Sys2Proof/Machine/Compress.lean ====
section
/-! DEFINITION. The compression engines (R315 to R322).  The bytes a compressor chooses are not specified; they are
an operand of the job's end, and the engine's own decoder checks them (R317, R319). -/
namespace Sys2Proof.Machine

def State.cmpU (s : State) (e : Nat) : CmpUnit := Tab.get (fun _ => CmpUnit.init) s.cmp.unit e

/-- STATE, OPEN and QUEUED follow the unit (R322). -/
def State.setCmp (s : State) (e : Nat) (x : CmpUnit) : State :=
  let s : State := { s with cmp := { s.cmp with unit := Tab.set (fun _ => CmpUnit.init) s.cmp.unit e x } }
  let s := s.put .cmp (CMP_STATUS e) 31 30 (b2n x.running.isSome)
  (s.setb .cmp (CMP_STATUS e) 29 x.opened.isSome).put .cmp (CMP_STATUS e) 20 16 x.queue.length

/-! ### Descriptors (R316, R320) -/

def CmpJob.ofBytes (b : List Byte) : CmpJob :=
  let op := leAt b 0 1
  let fl := leAt b 1 1
  { mode := op % 4, wrap := op / 4 % 4, delta := tbit op 4, dyn := tbit op 5, final := tbit op 6, syncEnd := tbit op 7
    cont := tbit fl 0, srcChain := tbit fl 1, ncomp := leAt b 2 1, row := leAt b 4 4, src := leAt b 8 8
    srcLen := leAt b 16 4, client := leAt b 20 2, wadiN := leAt b 22 2, dst := leAt b 24 8, dstLen := leAt b 32 4
    wadi := leAt b 40 8, result := leAt b 48 8 }

/-- A chain's entries: address and length (R320). -/
def chainAt (s : State) (a n : Nat) : List (Nat × Nat) :=
  (List.range (capNat 256 n)).map (fun i => let e := ergRead s (a + 16 * i) 16; (leAt e 0 8, leAt e 8 4))

/-- The chain's entries keep their fields; reserved bytes are 0. -/
def chainFields (s : State) (a n : Nat) : Bool :=
  (List.range (capNat 256 n)).all (fun i => leAt (ergRead s (a + 16 * i) 16) 12 4 == 0)

def chainSizes (l : List (Nat × Nat)) : Bool := l.all (fun p => p.2 % 64 == 0 && decide (64 ≤ p.2 ∧ p.2 ≤ 2 ^ 31))

/-- Source spans and destination buffers of a job. -/
def CmpJob.sources (s : State) (j : CmpJob) : List (Nat × Nat) :=
  if j.srcChain then chainAt s j.src j.srcLen else [(j.src, j.srcLen)]

def CmpJob.buffers (s : State) (j : CmpJob) : List (Nat × Nat) := (j.dst, j.dstLen) :: chainAt s j.wadi j.wadiN

/-- Every Erg span a job names. -/
def CmpJob.spans (s : State) (j : CmpJob) : List (Nat × Nat) :=
  j.sources s ++ j.buffers s ++ [(j.result, 32)] ++ (if j.srcChain then [(j.src, 16 * j.srcLen)] else []) ++
    (if j.wadiN = 0 then [] else [(j.wadi, 16 * j.wadiN)])

/-- A span a job may use (R293, R316). -/
def CmpJob.mayUse (s : State) (j : CmpJob) (p : Nat × Nat) : Bool :=
  if j.client = 0x8000 then ergUsable s p.1 p.2
  else spanIn (fun n => (segOf s n).st == 3 && (segOf s n).client == j.client && !(segOf s n).leaving) p.1 p.2

/-- The outcome of a submission (R316). -/
def cmpStatus (s : State) (e : Nat) (b : List Byte) : Nat :=
  let j := CmpJob.ofBytes b
  let badCl := j.client != 0x8000 && decide (1024 ≤ j.client)
  if decide (2 ≤ j.mode) || j.wrap == 3 || decide (4 ≤ leAt b 1 1) || leAt b 3 1 != 0 || leAt b 36 4 != 0 ||
      leAt b 56 8 != 0 || badCl || (if j.delta then j.ncomp == 0 || decide (4 < j.ncomp) else j.ncomp != 0) ||
      !chainFields s j.wadi j.wadiN || (j.srcChain && !chainFields s j.src j.srcLen) then 1
  else if j.srcLen = 0 ∨ 256 < j.wadiN ∨ (j.srcChain ∧ 256 < j.srcLen) ∨ j.dstLen % 64 ≠ 0 ∨
      ¬ chainSizes (chainAt s j.wadi j.wadiN) ∨ (j.srcChain ∧ ¬ chainSizes (chainAt s j.src j.srcLen)) then 2
  else if !(j.spans s).all (j.mayUse s) then 4
  else if (j.sources s).any (fun p => (j.buffers s).any (fun q => spansMeet p.1 p.2 q.1 q.2)) then 3
  else if 16 ≤ (s.cmpU e).queue.length then 0xC
  else 0

/-- The spans of a job's chains (R320). -/
def CmpJob.chains (j : CmpJob) : List (Nat × Nat) :=
  (if j.wadiN = 0 then [] else [(j.wadi, 16 * capNat 256 j.wadiN)]) ++
    (if j.srcChain then [(j.src, 16 * capNat 256 j.srcLen)] else [])

/-- Read spans of the Erg: their errors are met, and whether one of their words is poisoned (R304, R307). -/
def State.meetSpans (s : State) (l : List (Nat × Nat)) : State × Bool :=
  (s.each l (fun s p => s.ergMeet p.1 p.2), l.any (fun p => ergPoisoned s p.1 p.2))

/-- A write to CMP_SUBMIT_HI submits the descriptor named (R316).  DESIGN CHOICE (log 143): a poisoned descriptor or chain
is refused with E_CHECK (R304). -/
def State.cmpSubmit (s : State) (e : Nat) (v : Word) : State :=
  let s := s.store .cmp (CMP_SUBMIT_HI e) v
  let a := s.rd64 .cmp (CMP_SUBMIT_LO e) (CMP_SUBMIT_HI e)
  let b := ergRead s a 64
  let d := s.meetSpans [(a, 64)]
  let c := if d.2 then d else d.1.meetSpans (CmpJob.ofBytes b).chains
  let st := if c.2 then 9 else cmpStatus s e b
  let s := c.1
  let s := s.put .cmp (CMP_STATUS e) 7 0 st
  if st = 0 then s.setCmp e { s.cmpU e with queue := (s.cmpU e).queue ++ [CmpJob.ofBytes b] }
  else s.setb .cmp (CMP_STATUS e) 27 true

/-- CMP_SUBMIT (R316). -/
def execCmpSubmit (e : Fin 4) (v : Word) (s : State) : Host.Outcome State Fault Refusal := .next (s.cmpSubmit e v)

/-! ### Data (R318, R320) -/

/-- Little-endian 16-bit samples; an odd last byte is apart. -/
def samples16 : List Byte → List Nat × List Byte
  | a :: b :: bs => let r := samples16 bs; ((a.toNat + 256 * b.toNat) :: r.1, r.2)
  | bs => ([], bs)

/-- The sample a place is predicted from; none at the start of the input or of a row (R318). -/
def deltaFrom (ncomp row i : Nat) : Option Nat :=
  let k := if row = 0 then i else i % (row * ncomp)
  if k < ncomp then none else some (i - ncomp)

/-- The delta pre-filter (R318). -/
def deltaFilter (ncomp row : Nat) (bs : List Byte) : List Byte :=
  let p := samples16 bs
  ((p.1.zipIdx).flatMap (fun q =>
    let prev := match deltaFrom ncomp row q.2 with | some k => atD p.1 k 0 | none => 0
    leBytes 2 (q.1 + 65536 - prev))) ++ p.2

/-- Its inverse. -/
def deltaUndo (ncomp row : Nat) (bs : List Byte) : List Byte :=
  let p := samples16 bs
  let xs := (p.1.zipIdx).foldl (fun (acc : List Nat) q =>
    let prev := match deltaFrom ncomp row q.2 with | some _ => atD acc (ncomp - 1) 0 | none => 0
    (q.1 + prev) % 65536 :: acc) []
  xs.reverse.flatMap (leBytes 2) ++ p.2

/-- Write output to the buffers in order: whether it fitted, the bytes written, the chain entries written. -/
def State.fillBuffers (s : State) : List (Nat × Nat) → List Byte → State × Nat × Nat
  | _, [] => (s, 0, 0)
  | [], _ => (s, 0, 0)
  | (a, n) :: rest, bs =>
    let r := (s.ergWrite a (bs.take n)).fillBuffers rest (bs.drop n)
    (r.1, min n bs.length + r.2.1, 1 + r.2.2)

/-- The header of a wrapper that Apnik writes (R317). -/
def wrapHeader (wrap : Nat) (dyn : Bool) : List Byte :=
  match wrap with
  | 1 => [0x78#8, if dyn then 0x9C#8 else 0x5E#8]
  | 2 => [0x1F#8, 0x8B#8, 8#8, 0#8, 0#8, 0#8, 0#8, 0#8, 0#8, 0xFF#8]
  | _ => []

/-- The check value of a wrapper, and its trailer. -/
def wrapCheck (wrap : Nat) (bs : List Byte) : Nat :=
  match wrap with
  | 1 => adler32 bs
  | 2 => crc32 bs
  | _ => 0

def wrapTrailer (wrap : Nat) (bs : List Byte) : List Byte :=
  match wrap with
  | 1 => beBytes 4 (adler32 bs)
  | 2 => leBytes 4 (crc32 bs) ++ leBytes 4 bs.length
  | _ => []

/-- What a job has come to: status, flags of its result, input and output bytes, checks, and what it writes. -/
structure CmpEnd where
  status : Nat
  verify : Bool
  remain : Bool
  input : Nat
  out : List Byte
  crc : Nat
  check : Nat
  errOfs : Nat
  deriving DecidableEq, Repr

def CmpEnd.fail (status : Nat) : CmpEnd := ⟨status, false, false, 0, [], 0, 0, 0⟩

/-- The blocks of a compress job are what R317 and R321 ask for: the code DYN names in every block that holds data, and an
empty stored block for each FLUSH and for SYNC_END, there the last one. -/
def blocksGood (j : CmpJob) (ks : List (Nat × Bool)) (flushes : Nat) : Bool :=
  let code := if j.dyn then 2 else 1
  let sync := j.syncEnd && !j.final
  ks.all (fun k => k.1 == code || (k.1 == 0 && k.2)) &&
    (ks.filter (fun k => k.1 == 0)).length == flushes + b2n sync && (!sync || (ks.map (fun k => k.1)).head? == some 0)

/-- A compress job: the bytes `raw` are what the engine made of the filtered input; one that leaves its stream open without
SYNC_END may stop inside a block (R317, R319, R321). -/
def compressJob (j : CmpJob) (before data raw : List Byte) (flushes : Nat) : CmpEnd :=
  let f := if j.delta then deltaFilter j.ncomp j.row data else data
  let r := inflate before raw
  let ended := match r.fin with
    | some b => b == j.final
    | none => !j.final && !j.syncEnd && r.short
  let good := r.out == f && ended && blocksGood j r.blocks flushes
  let all := before ++ f
  { status := if good then 0 else 9, verify := !good, remain := false, input := data.length
    out := (if j.cont then [] else wrapHeader j.wrap j.dyn) ++ raw ++ (if j.final then wrapTrailer j.wrap all else [])
    crc := crc32c data, check := wrapCheck j.wrap all, errOfs := 0 }

/-- A decompress job (R317, R318, R322).  DEDUCED (log 142): the byte at which it failed is that of the symbol, the block
header, the check value or the wrapper's byte that does not fit; IN counts what was read up to and with it. -/
def decompressJob (j : CmpJob) (data : List Byte) : CmpEnd :=
  let n := data.length
  let h : Bool × Nat := match j.wrap with
    | 1 => zlibHeader data
    | 2 => gzipHeader data
    | _ => (true, 0)
  if j.wrap = 1 ∧ h.1 ∧ tbit (leAt data 1 1) 5 then { CmpEnd.fail 0xA with input := 2, errOfs := 1 }
  else if ¬ h.1 then { CmpEnd.fail 9 with input := min n (h.2 + 1), errOfs := h.2 }
  else
    let body := data.drop h.2
    let r := inflate [] body
    let out := if j.delta then deltaUndo j.ncomp j.row r.out else r.out
    let x : CmpEnd :=
      { status := 9, verify := false, remain := false, input := min n (h.2 + r.place body.length + 1), out := out
        crc := crc32c out, check := wrapCheck j.wrap r.out, errOfs := h.2 + r.place body.length }
    if r.fin ≠ some true then x
    else
      let fin := h.2 + r.taken body.length
      let tr := wrapTrailer j.wrap r.out
      let got := (data.drop fin).take tr.length
      let used := min n (fin + tr.length)
      if got = tr then { x with status := 0, remain := decide (used < n), input := used, errOfs := 0 }
      else { x with input := used, errOfs := if got.take 4 = tr.take 4 then fin + 4 else fin }

/-- The result record of a job (R322). -/
def resultRecord (x : CmpEnd) (status out wadi now : Nat) (trunc flushed : Bool) : List Byte :=
  leBytes 1 status ++ leBytes 1 (b2n x.verify + 2 * b2n trunc + 4 * b2n x.remain + 8 * b2n flushed) ++ leBytes 2 wadi ++
    leBytes 4 x.input ++ leBytes 4 out ++ leBytes 4 x.crc ++ leBytes 4 x.check ++ leBytes 4 x.errOfs ++ leBytes 8 now

/-- A compress stream that stands open: whether its last job ended with SYNC_END, its wrapper, its filtered bytes. -/
abbrev OpenStream := Option (Bool × Nat × List Byte)

/-- The stream that stands open, behind a job that did not end it with SYNC_END (R321). -/
def noSync (o : OpenStream) : OpenStream := o.map (fun x => (false, x.2))

/-- A job is over: its output and result are written, CMP_DONE is published (R320, R322).  `keep` stands open after a
job that is DONE, `bad` after another one; when the space runs out, none does. -/
def State.cmpEnds (s : State) (e : Nat) (j : CmpJob) (x : CmpEnd) (flushes : Nat) (keep bad : OpenStream) : State :=
  let p := s.fillBuffers (j.buffers s) x.out
  let trunc := decide (p.2.1 < x.out.length)
  let status := if trunc then 0xC else x.status
  let s := p.1.ergWrite j.result (resultRecord x status p.2.1 (p.2.2 - 1) p.1.now trunc (decide (0 < flushes)))
  let s := s.count .cmp (CMP_CNT_JOBS e)
  let s := if status = 0 then s else s.count .cmp (CMP_CNT_FAIL e)
  let s := if x.verify then s.count .cmp (CMP_CNT_VERIFY e) else s
  let u := s.cmpU e
  let opened := if trunc then none else if status = 0 then keep else bad
  let s := s.setCmp e { u with running := none, opened := opened, flushes := 0 }
  (s.setb .cmp (CMP_CTRL e) 31 false).publish (0x232 + e) (BitVec.ofNat 32 (e + status * 256))

/-- CMP_JOB_START (R316, R321): the engine takes its next job; CONT without an open stream that the previous job ended with
SYNC_END ends it with E_STATE, and so does CONT of a decompress job, which no open stream precedes (DEDUCED, log 142). -/
def execCmpJobStart (e : Fin 4) (s : State) : Host.Outcome State Fault Refusal :=
  let u := s.cmpU e
  .next (match u.running, u.queue with
    | none, j :: rest =>
      let s := s.setCmp e { u with queue := rest, running := some j, flushes := 0 }
      let sync : Bool := match u.opened with
        | some (b, _, _) => b
        | none => false
      if j.cont ∧ (j.mode = 1 ∨ ¬ sync) then s.cmpEnds e j (CmpEnd.fail 6) 0 none (noSync u.opened) else s
    | _, _ => s)

/-- CMP_JOB_END (R317 to R322): the running job ends; raw is what a compressor made. -/
def State.cmpJobEnd (s : State) (e : Nat) (raw : List Byte) : State :=
  let u := s.cmpU e
  match u.running with
  | none => s
  | some j =>
    let src := j.sources s
    let c := s.meetSpans j.chains
    let d := if c.2 then c else c.1.meetSpans src
    let s := d.1
    if d.2 then s.cmpEnds e j (CmpEnd.fail 9) u.flushes none (if j.mode = 1 then noSync u.opened else none)
    else
      let data := src.flatMap (fun p => ergRead s p.1 p.2)
      if j.mode = 1 then s.cmpEnds e j (decompressJob j data) u.flushes (noSync u.opened) (noSync u.opened)
      else
        let before := if j.cont then (match u.opened with | some (_, _, b) => b | none => []) else []
        let f := if j.delta then deltaFilter j.ncomp j.row data else data
        s.cmpEnds e j (compressJob j before data raw u.flushes) u.flushes
          (if j.final then none else some (j.syncEnd, j.wrap, before ++ f)) none

/-- CMP_JOB_END (R322). -/
def execCmpJobEnd (e : Fin 4) (raw : List Byte) (s : State) : Host.Outcome State Fault Refusal :=
  .next (s.cmpJobEnd e raw)

/-- FLUSH (R321): the block ends and the stored block is written, so that FLUSH reads 0 again.  DESIGN CHOICE (log 142): both
happen at the write. -/
def State.cmpFlush (s : State) (e : Nat) : State :=
  let u := s.cmpU e
  match u.running with
  | some j =>
    if j.mode = 0 then s.setCmp e { u with flushes := u.flushes + 1 }
    else s.setb .cmp (CMP_STATUS e) 28 true
  | none => s.setb .cmp (CMP_STATUS e) 28 true

/-- ABORT (R321). -/
def State.cmpAbort (s : State) (e : Nat) : State :=
  let u := s.cmpU e
  let jobs := (match u.running with | some j => [j] | none => []) ++ u.queue
  let s := s.setCmp e { u with queue := [], opened := none }
  let s := s.each jobs (fun s j => s.cmpEnds e j (CmpEnd.fail 6) 0 none none)
  s.setCmp e { s.cmpU e with running := none, opened := none }

/-- CMP_FLUSH (R321). -/
def execCmpFlush (e : Fin 4) (s : State) : Host.Outcome State Fault Refusal := .next (s.cmpFlush e)

/-- CMP_ABORT (R321). -/
def execCmpAbort (e : Fin 4) (s : State) : Host.Outcome State Fault Refusal := .next (s.cmpAbort e)

/-- A write to CMP_CTRL: a FLUSH with ABORT is ignored (R321). -/
def State.cmpCtrlWrite (s : State) (e : Nat) (v : Word) : State :=
  if bit v 30 then s.cmpAbort e else if bit v 31 then s.cmpFlush e else s

end Sys2Proof.Machine
end

