-- ==== Sys2Proof/Machine/Host.lean ====
section
/-! DEFINITION. The PCIe link (R252 to R255) and the mailbox commands about clients, channels, vectors and Erg
segments (R258, R259, R277, R288, R289, R296, R297, R303, R305). -/
namespace Sys2Proof.Machine

/-! ### The link (R252, R254, R255) -/

/-- Clients that are bound. -/
def boundClients (s : State) : List Nat := idxs 1024 (fun c => bound s c)

/-- The link leaves DL_Active (R254); what was being read from host memory does not come, and its
entries stay in their rings (log 110). -/
def State.linkDown (s : State) : State :=
  if !s.host.up then s
  else
    let s : State := { s with host := { s.host with
      up := false, lossAt := some s.now, reqs := [], flights := s.host.flights.filter (fun f => decide (f.back ≤ s.now)) } }
    let s := s.each (boundClients s) (fun s c =>
      (s.setb .host (HST_CLI_STATUS c) 29 true).onClient c (fun x => { x with lostLink := 0 }))
    let s := s.each (List.range 64) State.chSync
    s.contained 16 0x32 0 0

/-- A channel paused for the link goes on: its descriptor restarts from its first byte (R254). -/
def State.chRestart (s : State) (n : Nat) : State :=
  if !linkPaused s n then s
  else
    let s := (s.setb .dma (DMA_CH_STATUS n) 29 false).onDma n (fun x => { x with
      copied := 0, retrying := false, fenceOut := false })
    if chState s n = 2 ∧ ¬ s.flag .dma (DMA_CH_CTRL n) 31 then s.chRun n else s

/-- The link is in DL_Active again (R254), with what training and configuration have set. -/
def State.linkUp (s : State) (cfg : PcieCfg) : State :=
  if s.host.up || !s.host.ready || !s.host.refOk then s
  else
    let lost := s.host.lossAt.getD s.now
    let s : State := { s with host := { s.host with up := true, cfg := cfg } }
    let s := (s.each (List.range 64) State.chRestart).vectorsDue
    s.each (boundClients s) (fun s c =>
      let s := s.errorPut c 5 0 (leBytes 8 lost ++ leBytes 4 (capNat 0xFFFFFFFF (s.client c).lostLink))
      (s.setb .host (HST_CLI_STATUS c) 29 false).onClient c (fun x => { x with lostLink := 0 }))

/-- How Apnik answers a configuration request (R252). -/
inductive CfgAnswer where
  /-- Configuration Request Retry Status: it is not ready yet. -/
  | retry
  | completes
  deriving DecidableEq, Repr

/-- What configuration space shows of the functions (R251): PF0's class code, TotalVFs, First VF Offset, VF Stride,
and the MSI-X vectors in total. -/
def classCode : Nat := 0x118000
def totalVfs : Nat := 63
def firstVfOffset : Nat := 1
def vfStride : Nat := 1
def vectorsTotal : Nat := 2048

/-- Capability structures of configuration space (R251); what the table does not name is absent. -/
inductive PcieCap where
  | pciExpress | powerManagement | msix | aer | srIov | ltr | l1PmSubstates | tphRequester | deviceSerial
  | dataLinkFeature | phy16 | phy32 | phy64 | laneMargining
  deriving DecidableEq, Repr

def pcieCaps : List PcieCap :=
  [.pciExpress, .powerManagement, .msix, .aer, .srIov, .ltr, .l1PmSubstates, .tphRequester, .deviceSerial,
    .dataLinkFeature, .phy16, .phy32, .phy64, .laneMargining]

/-- The Device Serial Number (R251). -/
def serialNumber : BitVec 64 := Config.deviceSerial

/-- The ST table is in the MSI-X table (R251): the steering tag of a vector stands beside its mask bit. -/
def steeringTag (s : State) (fn v : Nat) : Nat := bits (msixWord s fn v 3) 31 16

/-- The routing ID of a function from that of PF0, number 0 (R251). -/
def functionId (pf0 fn : Nat) : Nat := if fn = 0 then pf0 else pf0 + firstVfOffset + (fn - 1) * vfStride

/-- The answer to a configuration request (R252). -/
def configAnswer (s : State) : CfgAnswer := if s.host.ready then .completes else .retry

/-- PCIE_READY (R252): Apnik answers configuration requests, with the link in DL_Active. -/
def execPcieReady (cfg : PcieCfg) (s : State) : Host.Outcome State Fault Refusal :=
  .next (if s.host.ready ∨ ¬ s.host.refOk then s
    else { s with host := { s.host with ready := true, up := true, cfg := cfg } })

/-- PCIE_LINK_DOWN (R254). -/
def execPcieLinkDown (s : State) : Host.Outcome State Fault Refusal := .next s.linkDown

/-- PCIE_LINK_UP (R254). -/
def execPcieLinkUp (cfg : PcieCfg) (s : State) : Host.Outcome State Fault Refusal := .next (s.linkUp cfg)

/-- PCIE_REFCLK_LOSS (R255). -/
def execPcieRefclkLoss (s : State) : Host.Outcome State Fault Refusal :=
  .next (if !s.host.refOk then s
    else
      let s : State := { s with host := { s.host with refOk := false, refBack := none } }
      s.linkDown.contained 16 0x34 0 0)

/-- PCIE_REFCLK_RETURN (R255): present and within its limits for 1 ms; training starts from Detect. -/
def execPcieRefclkReturn (s : State) : Host.Outcome State Fault Refusal :=
  .next (if s.host.refOk then s else { s with host := { s.host with refOk := true, refBack := some s.now } })

/-! ### Clients (R259, R288) -/

/-- The registers of a client's page take their reset values. -/
def State.pageReset (s : State) (c : Nat) : State :=
  let a := HST_CLI_ID c
  let s : State := { s with host := { s.host with
    regs := s.host.regs.filter (fun e => decide (e.1 < a ∨ a + 0x1000 ≤ e.1)) } }
  s.onClient c (fun _ => ClientSt.init)

/-- Bind a client with default quotas (R259, R288). -/
def State.clientBind (s : State) (c fn : Nat) : State :=
  let s := s.pageReset c
  let s := s.wr .host (HST_CLI_ID c) (BitVec.ofNat 32 (2 ^ 31 + fn * 2 ^ 16 + c))
  let s := s.wr .host (HST_CLI_Q_REC c) (BitVec.ofNat 32 1048576)
  let s := s.wr .host (HST_CLI_Q_CPL c) (BitVec.ofNat 32 1048576)
  let s := s.wr .host (HST_CLI_Q_DESC c) (BitVec.ofNat 32 256)
  (s.setb .host (HST_CLI_STATUS c) 29 (!s.host.up)).cliSync c

/-- Configuration space shows NumVFs, or VF Enable, as software has set them by now (log 26). -/
def State.vfsSet (s : State) (n : Fin 64) : State :=
  { s with host := { s.host with cfg := { s.host.cfg with numVfs := n } } }

def State.vfeSet (s : State) (on : Bool) : State :=
  { s with host := { s.host with cfg := { s.host.cfg with vfEnable := on } } }

/-- CLIENT_BIND (R251, R259, R277): numVfs is what the PCIe configuration's NumVFs now holds. -/
def execClientBind (numVfs : Fin 64) (s : State) : Host.Outcome State Fault Refusal :=
  .next ((s.vfsSet numVfs).mbxRun 0x05 (fun s =>
    let c := mbxArg s 0
    let fn := mbxArg s 1
    if 1024 ≤ c ∨ s.host.cfg.numVfs < fn then (s, 2, [])
    else if bound s c then (s, 6, [])
    else (s.clientBind c fn, 0, [])))

/-- The client holds something that keeps it bound (R259). -/
def clientHolds (s : State) (c : Nat) : Bool :=
  (List.range 5).any (ringOn s c) || s.dma.ch.any (fun e => e.2.queue.any (fun d => d.client == c)) ||
    !(clientSegs s c).isEmpty || (List.range 64).any (fun n => chBound s n c)

/-- CLIENT_UNBIND (R259, R277). -/
def execClientUnbind (s : State) : Host.Outcome State Fault Refusal :=
  .next (s.mbxRun 0x06 (fun s =>
    let c := mbxArg s 0
    if 1024 ≤ c then (s, 2, [])
    else if !bound s c || clientHolds s c then (s, 6, [])
    else (s.pageReset c, 0, [])))

/-- Quota and use registers by KIND: REC, CPL, DESC, ERG. -/
def quotaAt (c kind : Nat) : Nat := HST_CLI_Q_REC c + 4 * kind
def useAt (c kind : Nat) : Nat := HST_CLI_USE_REC c + 4 * kind

/-- The largest quota of a KIND (R288). -/
def quotaMax (s : State) (kind : Nat) : Nat :=
  match kind with
  | 2 => 4096
  | 3 => if stackPresent s 1 then 24576 else 12288
  | _ => 1048576

/-- Write a QUOTA entry (R273, R289). -/
def State.quotaEntry (s : State) (c kind value use taken : Nat) : State :=
  s.errorPut c 4 0 (leBytes 1 kind ++ leBytes 3 0 ++ leBytes 4 value ++ leBytes 4 use ++ leBytes 4 taken)

/-- Take a segment from its client: descriptors that have not started lose it; one that has finishes first
(R284, R289). -/
def State.takeSeg (s : State) (n : Nat) : State :=
  let s : State := { s with dma := { s.dma with ch := s.dma.ch.map (fun e => (e.1, { e.2 with
    queue := e.2.queue.zipIdx.map (fun p =>
      if p.1.names n ∧ (0 < p.2 ∨ ¬ e.2.started) then { p.1 with taken := true } else p.1) })) } }
  if s.dma.ch.any (fun e => e.2.started && (match e.2.queue with | d :: _ => d.names n | [] => false)) then
    s.setSeg n { segOf s n with leaving := true }
  else s.dirtySeg n

/-- The client's oldest unpinned segments above the quota (R289). -/
def segsOver (s : State) (c quota : Nat) : List Nat :=
  let all := clientSegs s c
  let free := all.filter (fun n => !(segOf s n).pinned)
  let old := free.mergeSort (fun a b => decide ((segOf s a).since < (segOf s b).since ∨
    (segOf s a).since = (segOf s b).since ∧ a ≤ b))
  old.take (all.length - quota)

/-- QUOTA_SET's effect (R289). -/
def State.quotaSet (s : State) (c kind value : Nat) : State :=
  let s := s.cliSync c
  let taken := if kind = 3 then segsOver s c value else []
  let s := s.quotaEntry c kind value (s.rd .host (useAt c kind)).toNat taken.length
  let s := s.wr .host (quotaAt c kind) (BitVec.ofNat 32 value)
  (s.each taken State.takeSeg).cliSync c

/-- QUOTA_SET (R277, R288, R289). -/
def execQuotaSet (s : State) : Host.Outcome State Fault Refusal :=
  .next (s.mbxRun 0x07 (fun s =>
    let c := mbxArg s 0
    let kind := mbxArg s 1
    let v := mbxArg s 2
    if 1024 ≤ c then (s, 2, [])
    else if !bound s c then (s, 6, [])
    else if 4 ≤ kind then (s, 1, [])
    else if quotaMax s kind < v then (s, 2, [])
    else (s.quotaSet c kind v, 0, [])))

/-- CHAN_BIND (R277, R278, R285). -/
def execChanBind (s : State) : Host.Outcome State Fault Refusal :=
  .next (s.mbxRun 0x08 (fun s =>
    let n := mbxArg s 0
    let c := mbxArg s 1
    if 64 ≤ n ∨ (c ≠ 0xFFFF ∧ 1024 ≤ c) then (s, 2, [])
    else if (imageDmaAct s.seq.active n).isSome ∨ (imageDmaAct s.seq.staged n).isSome then (s, 4, [])
    else if (s.dmaCh n).queue ≠ [] then (s, 5, [])
    else if chState s n ≠ 0 ∨ (c ≠ 0xFFFF ∧ ¬ bound s c) then (s, 6, [])
    else if c = 0xFFFF then ((s.setb .dma (DMA_CH_OWNER n) 30 false).put .dma (DMA_CH_OWNER n) 9 0 0, 0, [])
    else ((s.setb .dma (DMA_CH_OWNER n) 30 true).put .dma (DMA_CH_OWNER n) 9 0 c, 0, [])))

/-- FUNC_VECTORS (R251, R258, R277): vfEnable is what the PCIe configuration's VF Enable now holds. -/
def execFuncVectors (vfEnable : Bool) (s : State) : Host.Outcome State Fault Refusal :=
  .next ((s.vfeSet vfEnable).mbxRun 0x09 (fun s =>
    let vf := mbxArg s 0
    let n := mbxArg s 1
    let sum := ((List.range 64).map (fun f => if f = vf then n else vecEntries s f)).sum
    if vf = 0 ∨ 64 ≤ vf ∨ n = 0 ∨ 2048 < n then (s, 2, [])
    else if s.host.cfg.vfEnable then (s, 6, [])
    else if 2048 < sum then (s, 0xC, [])
    else ({ s with host := { s.host with vecSize := Tab.set (fun _ => 31) s.host.vecSize vf n } }, 0, [])))

/-! ### Erg segments (R296, R297) -/

/-- A segment may be allocated. -/
def segFree (s : State) (n : Nat) : Bool := decide (segState s n ≤ 1)

/-- First segments of runs of n free segments within one stack. -/
def freeRuns (s : State) (n stack : Nat) : List Nat :=
  let go (base : Nat) : List Nat :=
    (idxs (12289 - n) (fun i => (List.range n).all (fun k => segFree s (base + i + k)))).map (fun i => base + i)
  (if stack = 1 then [] else go 0) ++ (if stack = 0 then [] else go 12288)

/-- Allocate segments: zeroed and unpinned. -/
def State.allocSegs (s : State) (c first n : Nat) : State :=
  let order := s.erg.allocs
  let s : State := { s with erg := { s.erg with allocs := order + 1 } }
  (s.each (List.range n) (fun s k => (s.zeroSeg (first + k)).setSeg (first + k) ⟨3, false, 0, 0, c, order, false⟩)).cliSync c

/-- ERG_ALLOC (R296): which of the runs that fit is taken is not stated. -/
def execErgAlloc (s : State) : Host.Outcome State Fault Refusal :=
  .next (s.mbxRun 0x10 (fun s =>
    let c := mbxArg s 0
    let n := mbxArg s 1
    let stack := mbxArg s 2 % 4
    if 1024 ≤ c then (s, 2, [])
    else if !bound s c then (s, 6, [])
    else if n = 0 ∨ 4096 < n ∨ stack = 3 ∨ (stack = 1 ∧ ¬ stackPresent s 1) then (s, 2, [])
    else if (s.rd .host (HST_CLI_Q_ERG c)).toNat < (clientSegs s c).length + n then (s, 7, [])
    else
      let runs := freeRuns s n stack
      if runs = [] then (s, 0xC, [])
      else
        let first := atD runs ((s.drawn 32).toNat % runs.length) 0
        (s.draw.allocSegs c first n, 0, [BitVec.ofNat 32 first])))

/-- The segments an ERG command names, and whether all are the client's. -/
def namedSegs (s : State) : List Nat := (List.range (capNat 32768 (mbxArg s 2))).map (fun k => mbxArg s 1 + k)

def ownsSegs (s : State) (c : Nat) (l : List Nat) : Bool :=
  l.all (fun n => (segOf s n).st == 3 && (segOf s n).client == c && !(segOf s n).leaving)

/-- Work in execution names a segment (R296). -/
def segWorks (s : State) (n : Nat) : Bool :=
  s.dma.ch.any (fun e => e.2.queue.any (fun d => d.names n)) ||
    s.cmp.unit.any (fun e => ((match e.2.running with | some j => [j] | none => []) ++ e.2.queue).any (fun j =>
      (j.spans s).any (fun p => spansMeet p.1 p.2 (n * segBytes) segBytes)))

/-- ERG_FREE (R296). -/
def execErgFree (s : State) : Host.Outcome State Fault Refusal :=
  .next (s.mbxRun 0x11 (fun s =>
    let c := mbxArg s 0
    let l := namedSegs s
    if !ownsSegs s c l then (s, 4, [])
    else if l.any (fun n => (segOf s n).pinned) then (s, 6, [])
    else if l.any (segWorks s) then (s, 5, [])
    else ((s.each l State.dirtySeg).cliSync c, 0, [])))

/-- ERG_PIN (R296). -/
def execErgPin (s : State) : Host.Outcome State Fault Refusal :=
  .next (s.mbxRun 0x12 (fun s =>
    let c := mbxArg s 0
    let l := namedSegs s
    if !ownsSegs s c l then (s, 4, [])
    else ((s.each l (fun s n => s.setSeg n { segOf s n with pinned := true })).cliSync c, 0, [])))

/-- Unpin segments in order; each is reclaimed while use exceeds the quota, if reclaim is on (R297). -/
def State.unpinSegs (s : State) (c : Nat) (reclaim : Bool) (l : List Nat) : State × Nat :=
  l.foldl (fun (p : State × Nat) n =>
    let s := p.1.setSeg n { segOf p.1 n with pinned := false }
    if reclaim && decide ((s.rd .host (HST_CLI_Q_ERG c)).toNat < (clientSegs s c).length) then (s.takeSeg n, p.2 + 1)
    else (s, p.2)) (s, 0)

/-- ERG_UNPIN (R296, R297). -/
def execErgUnpin (s : State) : Host.Outcome State Fault Refusal :=
  .next (s.mbxRun 0x13 (fun s =>
    let c := mbxArg s 0
    let l := namedSegs s
    if !ownsSegs s c l then (s, 4, [])
    else
      let reclaim := s.flag .host (HST_CLI_STATUS c) 30
      let use := (clientSegs s c).length
      let p := s.unpinSegs c reclaim l
      let s := if reclaim then p.1.quotaEntry c 3 (p.1.rd .host (HST_CLI_Q_ERG c)).toNat use p.2 else p.1
      (s.cliSync c, 0, [BitVec.ofNat 32 p.2])))

/-! ### Retrieval by handle (R303) -/

/-- The index entry of a line that is still held, and its slot's bytes. -/
def heldLine (s : State) (b : LbSt) (ln : Int) : Option (List Byte × List Byte) :=
  if ln < 0 ∨ b.nlines = 0 then none
  else
    let i := ln.toNat % b.nlines
    let e := ergRead s (lbIndex b + i * 32) 32
    let d := lbData b + i * b.slot
    if tbit (leAt e 23 1) 0 ∧ leAt e 0 8 = ln.toNat ∧ crc32c (e.take 28) = leAt e 28 4 ∧
        ¬ ergPoisoned s (lbIndex b + i * 32) 32 ∧ ¬ ergPoisoned s d b.slot then
      some (e, ergRead s d b.slot)
    else none

/-- LOOKBACK_GET's output (R303): entries of lines that are not held carry their number and STATE 0. -/
def lookbackOut (s : State) (b : LbSt) (t h : Nat) (dir : List Byte) (ln0 : Int) (l : Nat) : List Byte × Nat :=
  let lines := (List.range l).map (fun k => (unsgn 64 (ln0 + k), heldLine s b (ln0 + k)))
  let missing := (lines.filter (fun p => p.2.isNone)).length
  let hdr := leBytes 8 h ++ leBytes 8 (unsgn 64 ln0) ++ leBytes 4 l ++ leBytes 4 b.slot ++ leBytes 2 b.width ++
    leBytes 1 b.dt ++ leBytes 1 (b2n (decide (0 < missing))) ++ leBytes 4 missing ++ (dir.drop 18).take 4 ++
    (((List.range 4).map (fun c => atD (streamDelays s t) c 0)).flatMap (leBytes 1)) ++
    leBytes 2 (s.fld .pix (PIX_WIN t) 31 16) ++ leBytes 18 0
  let ents := lines.flatMap (fun p => match p.2 with
    | some q => q.1
    | none => withCrc (leBytes 8 p.1 ++ leBytes 20 0))
  (withCrc hdr ++ padTo (up64 (32 * l)) ents ++ lines.flatMap (fun p => match p.2 with
    | some q => q.2
    | none => List.replicate b.slot 0#8), missing)

/-- The lines LOOKBACK_GET asks for: BEFORE, those of the object, AFTER; and the bytes they take (R303). -/
def lookbackLines (before after' : Nat) (dir : List Byte) : Nat := before + leAt dir 16 2 + after'

def lookbackSize (b : LbSt) (l : Nat) : Nat := 64 + up64 (32 * l) + l * b.slot

/-- The code LOOKBACK_GET ends with before it copies, 0 to go on (R303). -/
def lookbackCode (s : State) (b : LbSt) (h c da dst len l : Nat) (dir : List Byte) : Nat :=
  if !bound s c then 6
  else if !spanIn (fun n => ownsSegs s c [n]) dst len then 4
  else if ergPoisoned s da 32 ∨ crc32c (dir.take 28) ≠ leAt dir 28 4 ∨ leAt dir 0 8 ≠ h then 2
  else if 65536 < l ∨ len < lookbackSize b l then 2
  else 0

/-- Put what LOOKBACK_GET found; when every line is gone it is refused. -/
def State.lookbackPut (s : State) (dst l : Nat) (out : List Byte × Nat) : State × Nat × List Word :=
  if out.2 = l then (s, 2, [])
  else (s.ergWrite dst out.1, 0, [BitVec.ofNat 32 (l - out.2), BitVec.ofNat 32 out.2, BitVec.ofNat 32 out.1.length])

/-- The copy reads the directory entry, and the index entries and slots of its lines (R303, R304). -/
def State.lookbackMeet (s : State) (b : LbSt) (da : Nat) (ln : Int) (l : Nat) : State :=
  (s.ergMeet da 32).each (List.range l) (fun s k =>
    let i := (ln + k).toNat % b.nlines
    if ln + k < 0 ∨ b.nlines = 0 then s else (s.ergMeet (lbIndex b + i * 32) 32).ergMeet (lbData b + i * b.slot) b.slot)

/-- The copy of an object's lines from a ring (R303). -/
def State.lookbackFrom (s : State) (b : LbSt) (t h c dst len before after' : Nat) : State × Nat × List Word :=
  let da := b.base + 4096 + nbits h 44 0 % 65536 * 32
  let dir := ergRead s da 32
  let l := lookbackLines before after' dir
  let code := lookbackCode s b h c da dst len l dir
  let ln := (leAt dir 8 8 : Int) - before
  if code ≠ 0 then (if code = 2 then s.ergMeet da 32 else s, code, [])
  else (s.lookbackMeet b da ln l).lookbackPut dst l (lookbackOut s b t h dir ln l)

/-- The look-back ring an object's handle names, on this device (R300, R303). -/
def lookbackRing (s : State) (h : Nat) : Option LbSt :=
  if nbits h 63 52 = deviceId s ∧ nbits h 51 45 < 96 then s.lbOf (nbits h 51 45) else none

/-- LOOKBACK_GET's work (R303): ARG2 holds BEFORE and AFTER. -/
def State.lookbackGet (s : State) : State × Nat × List Word :=
  match lookbackRing s (mbxArg64 s 0) with
  | none => (s, 2, [])
  | some b => s.lookbackFrom b (nbits (mbxArg64 s 0) 51 45) (mbxArg64 s 0) (mbxArg s 3) (mbxArg64 s 4) (mbxArg s 6)
      (s.fld .host (HST_MBX_ARG 2) 15 0) (s.fld .host (HST_MBX_ARG 2) 31 16)

/-- LOOKBACK_GET (R303). -/
def execLookbackGet (s : State) : Host.Outcome State Fault Refusal :=
  .next (s.mbxRun 0x14 State.lookbackGet)

/-! ### Failed writes (R290, R305, R309) -/

/-- A write of the item that a queue's producer is writing fails (R305, R309).  DEDUCED (log 145): a command writes an item
whole, so the failure stands until that command. -/
def State.qFails (s : State) (q : Nat) : State :=
  if (qRegion s q).isNone then s else s.setQ q { s.ergQ q with failing := true }

/-- A look-back line was not written: WRITE_ERR in its index entry (R301, R305). -/
def State.lbFails (s : State) (t ln : Nat) : State :=
  match s.lbOf t with
  | some b =>
    let a := lbIndex b + ln % b.nlines * 32
    let e := patch (ergRead s a 28) 23 (leBytes 1 2)
    (s.ergWrite a (withCrc e)).count .erg (ERG_LB_CNT_WRERR t)
  | none => s

/-- ERG_WRITE_FAIL (R290, R305): a write at an address still fails after 3 retries; its writer reports it. -/
def execErgWriteFail (addr : Nat) (w : ErgWriter) (s : State) : Host.Outcome State Fault Refusal :=
  let k := stackOf addr
  let s := (s.count .erg (ERG_CNT_WR_FAIL k)).contained (14 + k) 0x41 k addr
  .next (match w with
    | .other => s
    | .lookback t ln => s.lbFails t ln
    | .queue q => s.qFails q
    | .handover => s.qFails qHandover
    | .dma ch client serial units =>
      (match (s.dmaCh ch).queue with
        | d :: _ =>
          if d.serial = serial.toNat ∧ d.fence ∧ (s.dmaCh ch).started then s.dmaFail ch 5
          else s.errorPut client 3 9 (leBytes 1 ch ++ leBytes 3 0 ++ leBytes 4 serial.toNat ++ leBytes 5 addr ++
            leBytes 3 units)
        | [] => s.errorPut client 3 9 (leBytes 1 ch ++ leBytes 3 0 ++ leBytes 4 serial.toNat ++ leBytes 5 addr ++
            leBytes 3 units)))

end Sys2Proof.Machine
end

