-- ==== Sys2Proof/Machine/Resets.lean ====
section
/-! DEFINITION. The resets (R30 to R33, R307, R397, R400): cold, warm, function-level, stream and stack failure. -/
namespace Sys2Proof.Machine

/-! ### What a reset leaves -/

/-- The pins of an encoder keep their levels; everything else starts anew, within the 1 ms window w (R37, R40, R423). -/
def EncSt.afterReset (e : EncSt) (w : Nat) : EncSt :=
  { EncSt.init with
    rawA := e.rawA, rawB := e.rawB, rawZ := e.rawZ, winId := w, a := e.rawA, b := e.rawB, z := e.rawZ, refA := e.rawA, refB := e.rawB }

/-- The timebase block after a cold reset: TB starts at 0 (R11); the part and its reference clock stay. -/
def TimeSt.atCold (t : TimeSt) : TimeSt := { TimeSt.init with part := t.part, refSysOk := t.refSysOk }

/-- The motion block behind its registers, after a reset. -/
def MotSt.afterReset (m : MotSt) (regs : RegFile) (w : Nat) : MotSt :=
  { MotSt.init with
    regs := regs
    enc := (List.range 8).foldl (fun t n => Tab.set (fun _ => EncSt.init) t n
      ((Tab.get (fun _ => EncSt.init) m.enc n).afterReset w)) []
    pin := (List.range 16).foldl (fun t k => Tab.set (fun _ => TrigPin.init) t k
      { TrigPin.init with level := (Tab.get (fun _ => TrigPin.init) m.pin k).level }) [] }

/-- REFCLK_LOST of each port shows the clock as it is (R82, R89, R336). -/
def keepRefLost (old new : RegFile) : RegFile :=
  (List.range 28).foldl (fun r p => wrBit r (phyStatus p) 18 (bit (rget old (phyStatus p)) 18)) new

/-- CAUSE of each port stays: it tells the last failure since the cold reset (R82). -/
def keepCause (old new : RegFile) : RegFile :=
  (List.range 28).foldl (fun r p => wrBits r (phyStatus p) 27 24 (bits (rget old (phyStatus p)) 27 24)) new

/-- The live inputs of the legs: OC_NOW, SC_NOW and SC_ACTIVE (R222 to R224). -/
def keepPwmPins (old new : RegFile) : RegFile :=
  let r := (List.range 8).foldl (fun r n => wrBits r (PWM_STATUS n) 3 2 (bits (rget old (PWM_STATUS n)) 3 2)) new
  (List.range 2).foldl (fun r g => wrBit r (PWM_GRP_STATUS g) 1 (bit (rget old (PWM_GRP_STATUS g)) 1)) r

/-- The Oasis registers: no reset but the VAON power-on reset changes them (R373). -/
def isOasis (a : Nat) : Bool := decide (0x01001000 ≤ a ∧ a < 0x01002000)

/-- The power block after a reset: the Oasis, its pins and the supply stay (R373). -/
def PwrSt.afterReset (p : PwrSt) : PwrSt :=
  { PwrSt.init with
    regs := warmRegsKeep isOasis p.regs, goingUp := p.goingUp, goingDown := p.goingDown, motA := p.motA, motB := p.motB
    coreUp := p.coreUp, vaonUp := p.vaonUp, rtcHeld := p.rtcHeld, tj := p.tj }

/-- The registers of the fault block that a warm reset keeps (R397). -/
def keepsFlt (a : Nat) : Bool :=
  a == FLT_LOG_PROD || a == FLT_LOG_CONS || a == FLT_NOT_LOGGED || a == FLT_STAGE_COUNT ||
    decide (FLT_FIRST 0 ≤ a ∧ a < FLT_FATAL 0 + 32) || decide (FLT_COAL 0 ≤ a)

/-- The fault block after a warm reset (R397). -/
def FltSt.afterWarm (f : FltSt) : FltSt :=
  { f with
    regs := wrBits (warmRegsKeep keepsFlt f.regs) FLT_STATUS 31 28 (bits (rget f.regs FLT_STATUS) 31 28)
    cyc := none, wdogFrom := 0, mirInt := none, mirOwed := false, wdogSafe := none }

/-- A segment after a warm reset: pinned client segments stay, other named segments become DIRTY (R31, R297). -/
def Seg.afterWarm (x : Seg) : Seg :=
  if x.st = 3 ∧ x.pinned then x else if x.st = 2 ∨ x.st = 3 then ⟨1, false, 0, 0, 0, 0, false⟩ else x

/-- The Erg after a warm reset (R31, R297, R378): its contents stay in self-refresh. -/
def ErgSt.afterWarm (e : ErgSt) : ErgSt :=
  { ErgSt.init with
    regs := warmRegs e.regs, mem := e.mem, poison := e.poison, soft := e.soft, allocs := e.allocs
    seg := e.seg.foldl (fun t p => Tab.set Seg.init t p.1 (Tab.get Seg.init e.seg p.1).afterWarm) [] }

/-- The timebase block after a warm reset (R31): TB goes on, a slew and a pending PPS_ARM are discarded, STATE is
HOLDOVER if DISC is 1 and FREE otherwise; the reset's causes are recorded (R30). -/
def TimeSt.afterWarm (t : TimeSt) (causes : List Nat) : TimeSt :=
  let r := warmRegs t.regs
  let r := wrBits r HST_TB_STATUS 1 0 (if bit (rget r HST_TB_CTRL) 0 then 3 else 0)
  { t with
    regs := causes.foldl (fun r c => wrBit r HST_RESET_CAUSE c true) r
    stepRem := 0, held := [], ppsLast := none, warmWait := [] }

/-- Host memory, what was sent to the host, fuses and the reference clock are outside the resets. -/
def HostSt.afterReset (h : HostSt) (regs : RegFile) (cfgToo : Bool) : HostSt :=
  let x : HostSt := { HostSt.init with
    regs := regs, refOk := h.refOk, refBack := h.refBack, mem := h.mem, tlps := h.tlps, sent := h.sent, keys := h.keys }
  if cfgToo then x else { x with cfg := h.cfg, msix := h.msix, vecPend := h.vecPend, vecSize := h.vecSize }

/-- Caravan after a warm reset (R345, R348, R360): reservations stay, SPAN_ROOT shows the strap. -/
def CvnSt.afterWarm (c : CvnSt) (root : Bool) : CvnSt :=
  { CvnSt.init with
    regs := wrBit (warmRegs c.regs) CVN_STATUS 31 root
    port := cvPorts.foldl (fun t p => Tab.set (fun _ => CvPort.init) t p
      { CvPort.init with resv := (Tab.get (fun _ => CvPort.init) c.port p).resv }) [] }

/-! ### Warm reset (R31, R32, R400) -/

/-- The activities of the device stop: motion to sequencers. -/
def State.warmSorting (s : State) : State :=
  { s with
    mot := s.mot.afterReset (warmRegs s.mot.regs) (s.now / 1000000)
    phy := { PhySt.init with regs := keepCause s.phy.regs (keepRefLost s.phy.regs (warmRegs s.phy.regs)) }
    lnk := { LnkSt.init with regs := warmRegs s.lnk.regs }
    pix := { PixSt.init with regs := warmRegs s.pix.regs }
    obj := { ObjSt.init with regs := warmRegs s.obj.regs }
    ejt := { EjtSt.init with regs := warmRegs s.ejt.regs }
    pwm := { PwmSt.init with regs := keepPwmPins s.pwm.regs (warmRegs s.pwm.regs) }
    seq := { SeqSt.init with regs := warmRegs s.seq.regs } }

/-- The rest of the device; PERST_N also clears the PCIe configuration, and with it the VFs' vector tables (R31, R258). -/
def State.warmRest (s : State) (perst : Bool) : State :=
  { s with
    host := s.host.afterReset (warmRegs s.host.regs) perst
    dma := { DmaSt.init with regs := warmRegs s.dma.regs }
    erg := s.erg.afterWarm
    cmp := { CmpSt.init with regs := warmRegs s.cmp.regs }
    evt := { EvtSt.init with regs := warmRegs s.evt.regs }
    cvn := s.cvn.afterWarm (s.flag .pwr OAS_STRAPS 1)
    pwr := s.pwr.afterReset
    flt := s.flt.afterWarm }

/-- A warm reset with its bits of HST_RESET_CAUSE: 1 PERST, 2 CMD, 3 WDOG (R29 to R31); serials start above every
serial given out (R177). -/
def State.warmNow (s : State) (causes : List Nat) : State :=
  let s : State := (s.warmSorting).warmRest (causes.contains 1)
  ({ s with time := s.time.afterWarm causes } : State).loadSerials

/-- A warm reset, with the one that waits, or its wait for REFCLK_SYS (R400; log 132); a core that is held in reset has
none. -/
def State.warmReset (s : State) (cause : Nat) : State :=
  if !s.pwr.coreUp then s
  else if !s.time.refSysOk then s.onTime (fun t => { t with warmWait := cause :: t.warmWait })
  else s.warmNow (cause :: s.time.warmWait)

/-- WARM_RESET (R31, R32, R400): PERST_N or the watchdog.  `ref`: REFCLK_SYS has been present for 10 ms. -/
def execWarmReset (wdog ref : Bool) (s : State) : Host.Outcome State Fault Refusal :=
  .next ((if ref then s.onTime (fun t => { t with refSysOk := true }) else s).warmReset (if wdog then 3 else 1))

/-- RESET (R277): the mailbox command; no DONE is reported.  FAULT lasts until PERST_N or PORST_N (R400). -/
def execReset (s : State) : Host.Outcome State Fault Refusal :=
  .next (match s.host.mbx with
    | some r => if r.op = 3 ∧ r.code.isNone ∧ dstate s ≠ 4 then s.warmReset 2 else s
    | none => s)

/-- WDOG_WARM_RESET (R400): 1 ms after the outputs are safe. -/
def execWdogWarmReset (s : State) : Host.Outcome State Fault Refusal :=
  .next (match s.flt.wdogSafe with
    | some t => if t + 1000000 ≤ s.now then s.warmReset 3 else s
    | none => s)

/-! ### Cold reset (R11, R30 to R32) -/

/-- Every supply group is up (R376, R410). -/
def suppliesUp (s : State) : Bool := s.fld .pwr OAS_STATUS 31 28 == 15

/-- What survives a cold reset around the reset values: the Oasis, fuses, pins, the outside (R373). -/
def State.coldNow (s : State) : State :=
  let r := State.reset
  { r with
    time := s.time.atCold
    mot := s.mot.afterReset [] 0
    phy := { PhySt.init with regs := keepRefLost s.phy.regs [] }
    pwm := { PwmSt.init with regs := keepPwmPins s.pwm.regs [] }
    host := s.host.afterReset [] true
    pwr := { s.pwr.afterReset with regs := s.pwr.regs.filter (fun e => isOasis e.1), coreUp := false }
    tap := s.tap, readData := s.readData, readPoisoned := s.readPoisoned, free := s.free, pending := s.pending }

/-- COLD_RESET (R31, R32): PORST_N low; the core is held in reset until CORE_RESET_RELEASE. -/
def execColdReset (s : State) : Host.Outcome State Fault Refusal :=
  .next { s.coldNow with tap := { s.tap with coreHeld := suppliesUp s } }

/-! ### Function-level reset (R31, R32, R285, R297) -/

/-- The registers of a client's page that a function-level reset keeps: who owns it, its quotas and its use. -/
def keepsFlr (c a : Nat) : Bool := a == HST_CLI_ID c || decide (HST_CLI_Q_REC c ≤ a ∧ a < HST_CLI_Q_REC c + 0x20)

/-- The page of a client after a function-level reset: rings disabled, registers at their reset values. -/
def State.pageFlr (s : State) (c : Nat) : State :=
  let keep := (s.host.regs.filter (fun e => keepsFlr c e.1))
  let s := s.pageReset c
  let s : State := { s with host := { s.host with regs := keep.foldl (fun r e => rset r e.1 (rget keep e.1)) s.host.regs } }
  (s.setb .host (HST_CLI_STATUS c) 29 (!s.host.up)).cliSync c

/-- The MSI-X table and pending bits of a function after its reset (R31, R256). -/
def State.msixFlr (s : State) (fn : Nat) : State :=
  { s with host := { s.host with
    msix := s.host.msix.filter (fun e => e.1 / 16384 != fn), vecPend := s.host.vecPend.filter (fun e => e.1 / 4096 != fn) } }

/-- The mailbox belongs to PF0's host interface (R32). -/
def State.mailboxReset (s : State) : State :=
  let s := s.setb .seq SEQ_IMG_STATUS 26 false
  { s with host := { s.host with
    mbx := none, regs := s.host.regs.filter (fun e => decide (e.1 < HST_MBX_CMD ∨ HST_MBX_CMD + 0x100000 ≤ e.1)) } }

/-- PF0's PCIe configuration after its reset: what belongs to the link stays; the function's own Max Read Request Size,
10-bit tags, VFs and capability structures take their reset values (R31, R251; log 133). -/
def State.cfgFlr (s : State) : State :=
  let c := s.host.cfg
  { s with host := { s.host with cfg := { pcieCfg0 with
    speed := c.speed, width := c.width, flit := c.flit, mps := c.mps, l0p := c.l0p } } }

/-- FUNCTION_LEVEL_RESET (R31, R32, R284): of PF0 (0) or a VF. -/
def execFunctionLevelReset (fn : Fin 64) (s : State) : Host.Outcome State Fault Refusal :=
  .next (
    let s0 := s
    let s := s.each (List.range 64) (fun s n => s.dmaFlr n (fun c => bound s0 c && cliFn s0 c == fn.val))
    let s := s.msixFlr fn
    let s := s.each ((boundClients s0).filter (fun c => cliFn s0 c == fn.val)) (fun s c => s.pageFlr c)
    if fn.val = 0 then s.mailboxReset.cfgFlr else s)

/-! ### Stream reset (R31, R33, R230, R301) -/

/-- A stream's lead sequencer: the running slot ends without a fault, the pending bits clear (R230). -/
def State.leadReset (s : State) (t : Nat) : State :=
  match leadOf s t with
  | none => s
  | some q =>
    let s := (s.put .seq (SEQ_STATUS q) 11 8 0).onSeq q (fun x => { x with causes := [] })
    if seqState s q = 2 then s.slotOver q 1 else s

/-- The registers of a stream (R31): its pages of the pixel and object blocks, its EJT_STR and CVN_HO registers, its
look-back ring's and those of its trigger generator.  DEDUCED (log 104). -/
def ofStream (t a : Nat) : Bool :=
  let at' (b n : Nat) : Bool := decide (b ≤ a ∧ a < b + n)
  at' (PIX_SRC t) 0x4000 || at' (OBJ_CTRL t) 0x1000 || at' (EJT_STR_CTRL t) 0x40 || at' (CVN_HO t) 4 ||
    at' (TRG_CTRL t) 0x100 || at' (TRG_LIST (t * 256)) 0x400 || at' (ERG_LB_CNT_WRERR t) 4

/-- The stream's registers take their reset values; tables, ACT_BANK and NO_TABLE stay (R31, R135, R164). -/
def State.streamPages (s : State) (t : Nat) : State :=
  let act := s.fld .obj (OBJ_STATUS t) 9 8
  let s := s.each ([.pix, .obj, .ejt, .cvn, .mot, .erg] : List Blk) (fun s b =>
    s.setRegs b ((s.regs b).filter (fun e => !ofStream t e.1)))
  s.put .obj (OBJ_STATUS t) 9 8 act

/-- A stream reset (R33): its records first, then its state and registers. -/
def State.streamReset (s : State) (t : Nat) : State :=
  let s := if streamOn s t then s.streamEnd t else s
  let s := (((s.emitAll t).lostOut t).settleStream t).leadReset t
  let s := s.trgCtrlWrite t (putBit (s.rd .mot (TRG_CTRL t)) 31 false)
  let s := (s.streamPages t).setGen t { GenSt.init with last := (s.gen t).last }
  let s := s.onPix t (fun x => { x with load := none, armStarts := 0, seqCtx := 0, nextStrip := 0, inLines := 0 })
  (s.onObj t (fun x => { x with
    load := none, win := [], done := 0, opened := [], lostRuns := [], forcedRuns := [] })).lbRestart t

/-- STREAM_RESET (R33, R277): E_RANGE for IDs from 96. -/
def execStreamReset (s : State) : Host.Outcome State Fault Refusal :=
  .next (s.mbxRun 0x04 (fun s =>
    if 96 ≤ mbxArg s 0 then (s, 2, []) else (s.streamReset (mbxArg s 0), 0, [])))

/-! ### Stack failure (R307) -/

/-- Streams with a region on a stack. -/
def stackStreams (s : State) (k : Nat) : List Nat :=
  idxs 96 (fun t => s.erg.seg.any (fun e => e.2.st == 2 && e.2.stream == t && decide (e.1 / 12288 = k)))

/-- A stack has taken 64 uncorrectable errors within 1 ms. -/
def stackErrors (s : State) (k : Nat) : Bool :=
  decide (64 ≤ ((if k = 0 then s.erg.unc0 else s.erg.unc1).filter (fun u => decide (s.now < u + 1000000))).length)

/-- STACK_FAIL (R307): the controller loses training, or the errors of the last 1 ms say so. -/
def execStackFail (k : Fin 2) (training : Bool) (s : State) : Host.Outcome State Fault Refusal :=
  .next (if stackOk s k ∧ (training ∨ stackErrors s k) then
      let s := (s.setb .erg (ERG_STK_STATUS k) 1 true).contained (14 + k) 0x42 k 0
      s.each (stackStreams s k) (fun s t => s.streamReset t)
    else s)

end Sys2Proof.Machine
end

