-- ==== Sys2Proof/Machine/Power.lean ====
section
/-! DEFINITION. The power manager's choice of unit states (R361 to R365) and the device states (R370 to R372). -/
namespace Sys2Proof.Machine

/-! ### Prediction (R362, R363): an event's TB, now or earlier for an event now; none for no event -/

/-- The integer square root, bit by bit from bit b down. -/
def isqrtFrom (x : Nat) : Nat → Nat → Nat
  | 0, r => r
  | b + 1, r => isqrtFrom x b (if (r + 2 ^ b) * (r + 2 ^ b) ≤ x then r + 2 ^ b else r)

/-- The integer square root of a number below 2^160. -/
def isqrt (x : Nat) : Nat := isqrtFrom x 80 0

/-- 2d / (v + sqrt(v^2 + 2ad)) in ns: d in 2^-32 counts, v in counts/s times 256, a in counts/s^2 (R363). -/
def soonest (d v a : Nat) : Option Nat :=
  let den := v * 65536 + isqrt ((v * v * 65536 + 2 * a * d) * 65536)
  if den = 0 then none else some (d * 1000000000 / (128 * den))

/-- The next trigger of a generator in a position mode (R363). -/
def predictPosition (s : State) (g : Nat) : Nat :=
  let c := s.rd .mot (TRG_CTRL g)
  let v := sourceView s (bits c 27 25)
  if !v.valid || v.state == 1 || v.state == 3 then s.now
  else
    let d := past (bit c 24) (v.posAt (s.now * 1000)) (s.gen g).next
    if 0 ≤ d then s.now
    else match soonest d.natAbs (if speedAlong (bit c 24) v.speed then v.speed.natAbs else 0)
        (s.rd .pwr (PWR_MS_ACCEL (bits c 27 25))).toNat with
      | some t => s.now + t
      | none => s.now

/-- The next trigger of a generator (R363): none while it is not enabled. -/
def predictGen (s : State) (g : Nat) : Option Nat :=
  if !s.flag .mot (TRG_CTRL g) 31 then none
  else match genMode s g with
    | 0 | 1 => some (predictPosition s g)
    | 2 => some (((s.gen g).timeNext.map (fun t => t / 2 ^ 32)).getD s.now)
    | _ => some s.now

/-- The earlier of two events. -/
def sooner : Option Nat → Option Nat → Option Nat
  | some a, some b => some (min a b)
  | some a, none => some a
  | none, b => b

/-- The least trigger-to-LINE_START delay of a port's last 256 lines (R362). -/
def leastDelay (s : State) (p : Nat) : Nat :=
  match Tab.get (fun _ => []) s.pwr.delays p with
  | [] => 0
  | d :: ds => ds.foldl min d

/-- The predicted trigger of a port: that of the generator it names (R62, R363). -/
def portTrigger (s : State) (p : Nat) : Option Nat :=
  let c := s.rd .mot (TRG_PORT p)
  if bit c 31 then predictGen s (bits c 6 0) else none

/-- The earliest trigger of a port whose LINE_START is still to come: one that was sent, else the predicted one (R362). -/
def portLine (s : State) (p : Nat) : Option Nat :=
  (Tab.get (fun _ => []) s.pwr.awaited p).foldl (fun m t => sooner m (some t)) (portTrigger s p)

/-- The earliest predicted line start of a stream, or its table work as an event now (R362). -/
def streamEvent (s : State) (t : Nat) : Option Nat :=
  let x := s.pixStream t
  if x.load.isSome || s.flag .obj (OBJ_STATUS t) 6 || !x.tileQ.isEmpty then some s.now
  else if !streamOn s t then none
  else
    ((srcPorts (s.rd .pix (PIX_SRC t))).map (fun p => (portLine s p).map (fun e => e + leastDelay s p))).foldl sooner none

/-- The next known event of a cluster (R362). -/
def clusterEvent (s : State) (c : Nat) : Option Nat :=
  if s.seq.swap.isSome then some s.now
  else ((idxs 96 (fun t => (streamClusters s t).contains c)).map (streamEvent s)).foldl sooner none

/-- The next known event of a port (R362). -/
def portEvent (s : State) (p : Nat) : Option Nat :=
  let x := s.lnkPort p
  if x.reg.isSome || !x.trig.isEmpty then some s.now
  else portTrigger s p

/-- A unit's next known event: 0 to 7 clusters, 8 to 31 ports. -/
def unitEvent (s : State) (u : Nat) : Option Nat := if u < 8 then clusterEvent s u else portEvent s (u - 8)

/-! ### Choosing the deeper state (R361, R364) -/

/-- Exit latency and break-even in ns (R361). -/
def exitNs (u : Nat) : Nat := if u < 8 then 3000 else 20000
def breakNs (u : Nat) : Nat := if u < 8 then 10000 else 100000

/-- PWR_GUARD in ns. -/
def guardNs (s : State) : Nat := s.fld .pwr PWR_GUARD 15 0

/-- The instant a unit's work ends (R364). -/
def workEnd (s : State) (u : Nat) : Nat :=
  if u < 8 then (Tab.get (fun _ => PwrUnit.init) s.pwr.unit u).workEnd
  else (idxs 16 (fun _ => true)).foldl (fun m v =>
    max m (((s.vcOf (u - 8) v).prev.map (fun l => l.arrived)).getD 0)) (s.phyPort (u - 8)).entered

/-- The idle time suffices, and the exit would start later than now (R364). -/
def deeperPays (s : State) (u : Nat) : Bool :=
  let lim := s.rd .pwr (PWR_UNIT_LIM u)
  bits lim 3 2 == 2 &&
    match unitEvent s u with
    | none => true
    | some e =>
      let t := e - workEnd s u
      decide (exitNs u + guardNs s ≤ t) && (bits lim 1 0 == 2 || decide (breakNs u ≤ t)) &&
        decide (s.now + exitNs u + guardNs s ≤ e)

/-- A port may ask for QUIET: QUIET_EN, in ACTIVE with nothing under way, no refusal within 1 ms (R92, R364). -/
def quietReady (s : State) (p : Nat) : Bool :=
  let x := s.lnkPort p
  s.flag .phy (phyCtrl p) 24 && portState s p == phActive && (s.phyPort p).quietReq.isNone &&
    decide ((s.phyPort p).quietHold ≤ s.now) && x.asm.isNone && x.committed.isEmpty &&
    (List.range 16).all (fun v => (s.vcOf p v).line.isNone)

/-- A cluster enters NAP. -/
def State.napEnter (s : State) (c : Nat) : State :=
  let s := ((s.put .pwr (PWR_CL_CTRL c) 1 0 2).put .pwr (PWR_UNIT_LIM c) 5 4 2).count .pwr PWR_CNT_NAP
  s.onUnit c (fun x => { x with exitAt := none, missed := false })

/-- A cluster whose work is over reads IDLE, and naps if that pays; never while its operating point changes (R364). -/
def State.clusterChoose (s : State) (c : Nat) : State :=
  if 2 ≤ clPstate s c ∨ s.now < workEnd s c then s
  else
    let s := (s.put .pwr (PWR_CL_CTRL c) 1 0 1).put .pwr (PWR_UNIT_LIM c) 5 4 1
    if !s.flag .pwr (PWR_CL_CTRL c) 27 && deeperPays s c then s.napEnter c else s

/-- A port asks its camera for QUIET if that pays (R92, R364). -/
def State.portChoose (s : State) (p : Nat) : State :=
  if quietReady s p && deeperPays s (p + 8) then
    (s.onPhy p (fun x => { x with quietReq := some s.now })).sendLctl p 1
  else s

/-- The instants at which a unit's next event is computed again: every 1 us (R423), and when it has changed (R362). -/
def predictDue (s : State) (u : Nat) : Bool :=
  decide (s.now % 1000 = 0) || unitEvent s u != (Tab.get (fun _ => PwrUnit.init) s.pwr.unit u).event

/-- PWR_PREDICT (R362 to R364, R423): a unit's next event is computed, and its state chosen. -/
def execPwrPredict (u : Fin 32) (s : State) : Host.Outcome State Fault Refusal :=
  .next (if dstate s ≠ 1 ∨ ¬ predictDue s u then s
    else
      let e := unitEvent s u
      (if u.val < 8 then s.clusterChoose u else s.portChoose (u - 8)).onUnit u (fun x => { x with event := e }))

/-- The instant for an exit to start has come (R364). -/
def exitDue (s : State) (u : Nat) : Bool :=
  match unitEvent s u with
  | some e => decide (e ≤ s.now + exitNs u + guardNs s)
  | none => false

/-- PWR_EXIT_START (R364). -/
def execPwrExitStart (u : Fin 32) (s : State) : Host.Outcome State Fault Refusal :=
  .next (if !exitDue s u then s
    else if u.val < 8 then
      (if clPstate s u = 2 then s.onUnit u (fun x => { x with exitAt := some (x.exitAt.getD s.now) }) else s)
    else s.wakePort (u - 8))

/-- PWR_EXIT_DONE (R361, R364): 3 us after a cluster's exit started; a port's markers found (R95). -/
def execPwrExitDone (u : Fin 32) (s : State) : Host.Outcome State Fault Refusal :=
  .next (if u.val < 8 then
      match (Tab.get (fun _ => PwrUnit.init) s.pwr.unit u).exitAt with
      | some t =>
        if clPstate s u = 2 ∧ t + 3000 ≤ s.now then
          ((s.put .pwr (PWR_CL_CTRL u) 1 0 1).put .pwr (PWR_UNIT_LIM u) 5 4 1).onUnit u
            (fun x => { x with exitAt := none, missed := false })
        else s
      | none => s
    else if portState s (u - 8) = phQuiet ∧ (s.phyPort (u - 8)).quietExit.isSome ∧ isAligned s (u - 8) then
      s.backToActive (u - 8)
    else s)

/-! ### Attention (R385) -/

/-- ATTN_STATUS and ATTN_MASK are as given now: a bit of their AND that became 1 owes attention once. -/
def State.attnPut (s : State) (status mask : Nat) : State :=
  let old := s.pwr.attnStatus &&& s.pwr.attnMask
  let new := status &&& mask
  { s with pwr := { s.pwr with
    attnStatus := status, attnMask := mask
    attnOwed := (s.pwr.attnOwed || decide (new &&& old ≠ new)) && decide (new ≠ 0)
    attnAt := if new &&& old ≠ new then none else s.pwr.attnAt } }

/-- Set a bit of ATTN_STATUS. -/
def State.attnSet (s : State) (bit : Nat) : State := s.attnPut (s.pwr.attnStatus ||| 2 ^ bit) s.pwr.attnMask

/-! ### Device states (R370 to R372, R380) -/

/-- Any stream, bus or leg is enabled (R370). -/
def anyOutput (s : State) : Bool :=
  (List.range 96).any (fun t => streamOn s t) || (List.range 8).any (fun n => s.flag .ejt (EJT_BUS_CTRL n) 31) ||
    (List.range 8).any (fun n => s.flag .pwm (PWM_CTRL n) 31)

/-- An IMG_LOAD, an IMG_SWAP or a cluster change is in progress (R370). -/
def imageBusy (s : State) : Bool :=
  s.flag .seq SEQ_IMG_STATUS 26 || s.flag .seq SEQ_IMG_STATUS 28 || s.pwr.change.isSome

/-- The code of a device-state command (R370, R371): 0 DONE, 1 E_FIELD, 5 E_BUSY, 6 E_STATE. -/
def powerCode (s : State) (target : Nat) : Nat :=
  if target = 3 then 1
  else if s.pwr.devCmd.isSome then 5
  else if dstate s ≠ 1 ∧ dstate s ≠ 2 then 6
  else if target ≠ 0 ∧ anyOutput s then 6
  else if imageBusy s then 5
  else 0

/-- A device-state command is accepted and starts; one for the state the device is in changes nothing. -/
def State.powerStart (s : State) (target : Nat) (rtc bus : Bool) : State :=
  if dstate s = 2 ∧ target = 0 then
    let s := s.setb .pwr OAS_WAKE_CAUSE 5 true
    { s with pwr := { s.pwr with devCmd := some (0, false, bus), exitAt := some (s.pwr.exitAt.getD s.now) } }
  else if target = 0 ∨ dstate s = 2 ∧ target = 1 then s
  else
    let s := s.put .pwr PWR_STATUS 31 28 3
    { s with pwr := { s.pwr with devCmd := some (target, rtc, bus), wakeHeld := 0, motA := 0, motB := 0, awake := false } }

/-- POWER (R370, R371). -/
def execPower (s : State) : Host.Outcome State Fault Refusal :=
  .next (s.mbxRun 0x0B (fun s =>
    let target := mbxArg s 0 % 4
    let code := powerCode s target
    (if code = 0 then s.powerStart target (tbit (mbxArg s 1) 0) false else s, code, [])))

/-- A command of the management bus ends with its code (R381). -/
def State.busEnd (s : State) (code : Nat) : State :=
  ({ s with pwr := { s.pwr with cmdStatus := code } } : State).attnSet 4

/-- The device-state command that ran is over.  A RUN of the management bus has its code now; the commands for STANDBY
and DEEP had theirs before the entry (R371). -/
def State.devEnd (s : State) : State :=
  let bus := s.pwr.devCmd.any (fun c => c.1 == 0 && c.2.2)
  let s : State := { s with pwr := { s.pwr with devCmd := none } }
  if bus then s.busEnd 0 else s

/-- A write of CMD (R381, R382): run as POWER; while CMD_STATUS reads 0xFF it is not acknowledged.  DONE for STANDBY and
DEEP comes before the entry (R371); a RUN that leaves STANDBY runs until the device is back. -/
def State.busCmd (s : State) (target : Nat) (rtc : Bool) : State :=
  if s.pwr.cmdStatus = 0xFF ∨ dstate s = 0 then { s with pwr := { s.pwr with i2cAck := false } }
  else
    let code := powerCode s target
    let s : State := { s with pwr := { s.pwr with i2cAck := true } }
    if code ≠ 0 then s.busEnd code
    else
      let s := s.powerStart target rtc true
      if s.pwr.devCmd.any (fun c => c.1 == 0) then { s with pwr := { s.pwr with cmdStatus := 0xFF } } else s.busEnd 0

/-- STANDBY (R381): CMD 0x01. -/
def execStandby (s : State) : Host.Outcome State Fault Refusal := .next (s.busCmd 1 false)

/-- DEEP (R381): CMD 0x02. -/
def execDeep (s : State) : Host.Outcome State Fault Refusal := .next (s.busCmd 2 false)

/-- DEEP_WITH_RTC_KEEP (R381): CMD 0x03. -/
def execDeepWithRtcKeep (s : State) : Host.Outcome State Fault Refusal := .next (s.busCmd 2 true)

/-- RUN (R381): CMD 0x04. -/
def execRun (s : State) : Host.Outcome State Fault Refusal := .next (s.busCmd 0 false)

/-- Every lane goes to electrical idle; EN stays as it is (R335, R372, R380, R399). -/
def State.lanesOff (s : State) : State :=
  let s := s.each (List.range 24) State.phyOffNow
  let s := s.each cvPorts (fun s p =>
    (s.phyOffNow (24 + p)).linkCheck s (24 + p))
  if s.flag .time HST_TB_CTRL 0 then s.tbHold else s

/-- Clusters with an operating point lose or regain their logic; SRAM is retained (R361, R372). -/
def State.clustersPower (s : State) (on : Bool) : State :=
  s.each (List.range 8) (fun s c =>
    if clCur s c = 0 then s
    else ((s.put .pwr (PWR_CL_CTRL c) 1 0 (if on then 1 else 3)).put .pwr (PWR_UNIT_LIM c) 5 4 (if on then 1 else 0)).onUnit c
      (fun x => { x with exitAt := none, missed := false }))

/-- The device is in STANDBY (R361, R371); a wake that was held starts the exit, but an address match, which wakes from
DEEP only (R373). -/
def State.standbyEnter (s : State) : State :=
  let s := s.each (List.range 8) (fun s n => s.pwmSettle n (halfNow s))
  let s := (s.lanesOff.clustersPower false).put .pwr PWR_STATUS 31 28 2
  let held := s.pwr.wakeHeld &&& 0xB
  let s : State := { s with pwr := { s.pwr with
    wakeHeld := 0, exitAt := if held = 0 then none else some s.now } }
  (s.wr .pwr OAS_WAKE_CAUSE (s.rd .pwr OAS_WAKE_CAUSE ||| BitVec.ofNat 32 held)).devEnd

/-- The core is held in reset and loses its power; the Oasis powers down (R371, R373, R376). -/
def State.coreDown (s : State) : State :=
  let held := s.pwr.wakeHeld
  let s := (s.coldNow).setb .pwr OAS_STATUS 1 false
  { s with
    pwr := { s.pwr with goingUp := false, goingDown := true, wakeHeld := held }
    tap := { s.tap with coreHeld := false, pinsHeld := false, highz := false, acTest := false } }

/-- The device hands over to the Oasis for DEEP (R371, R375): RTC_KEEP is written, and without it the counter stops. -/
def State.deepEnter (s : State) (rtc : Bool) : State :=
  (s.coreDown.setb .pwr OAS_CTRL 27 rtc).setb .pwr OAS_STATUS 2 rtc

/-- POWER_ENTRY_DONE (R371, R375, R380): the entry that DSTATE shows is complete. -/
def execPowerEntryDone (s : State) : Host.Outcome State Fault Refusal :=
  .next (if dstate s ≠ 3 then s
    else match s.pwr.devCmd with
      | some (1, _, _) => s.standbyEnter
      | some (2, rtc, _) => s.deepEnter rtc
      | _ => s)

/-- A port that is enabled enters DETECT (R372). -/
def State.portWake (s : State) (p : Nat) : State :=
  if s.flag .phy (phyCtrl p) 31 && refOk s p then s.phyStart p else s

/-- STANDBY_EXIT (R372): the device is back in RUN. -/
def execStandbyExit (s : State) : Host.Outcome State Fault Refusal :=
  .next (if dstate s = 2 ∧ s.pwr.exitAt.isSome then
      let s := (s.put .pwr PWR_STATUS 31 28 1).clustersPower true
      let s : State := { s with pwr := { s.pwr with exitAt := none } }
      (s.each (List.range 28) State.portWake).devEnd
    else s)

end Sys2Proof.Machine
end

