-- ==== Sys2Proof/Machine/Oasis.lean ====
section
/-! DEFINITION. The Oasis: wake sources, the power sequence and the core's start (R373 to R379, R410, R412). -/
namespace Sys2Proof.Machine

/-- PWR_EN and PG as OAS_STATUS shows them (R373). -/
def pwrEn (s : State) : Nat := s.fld .pwr OAS_STATUS 27 24
def pgNow (s : State) : Nat := s.fld .pwr OAS_STATUS 31 28

/-- The device is in DEEP: powered down and not on the way up. -/
def inDeep (s : State) : Bool :=
  s.pwr.vaonUp && !s.pwr.coreUp && !s.pwr.goingUp && !s.pwr.goingDown && pwrEn s == 0

/-- What a pin does (R380): a level, high impedance, electrical idle, released, without power, or as the block behind it
drives it. -/
inductive Drive where
  | low | high | highZ | idle | released | unpowered | driven
  deriving DecidableEq, Repr

/-- The outputs whose state R380 alone gives, and an ejector bus's clock and return pairs (R215). -/
inductive Output where
  | caravanTx (p : Fin 4) | pcieTx | ejClk (n : Fin 8) | ejRet (n : Fin 8) | qspiCs | qspiClk | qspiIo
  | pwrEn (i : Fin 4) | mgt
  deriving DecidableEq, Repr

/-- An output's state (R380): in DEEP and unpowered; in reset, with the supplies up; and with the core running. -/
def outputDrive (s : State) (o : Output) : Drive :=
  let supply := s.flag .pwr OAS_STATUS 1
  let reset := !s.pwr.coreUp && supply
  match o with
  | .caravanTx p => if s.outputsOn && portState s (24 + p) != phOff then .driven else .idle
  | .pcieTx => if s.pwr.coreUp && s.host.ready && dstate s != 4 then .driven else .idle
  | .ejClk _ => if !supply then .highZ else if s.pwr.coreUp && s.outputsOn then .driven else .low
  | .ejRet _ => .highZ
  | .qspiCs => if s.pwr.coreUp then .driven else if reset then .high else .highZ
  | .qspiClk => if s.pwr.coreUp then .driven else if reset then .low else .highZ
  | .qspiIo => if s.pwr.coreUp then .driven else .highZ
  | .pwrEn i => if !s.pwr.vaonUp then .unpowered else if tbit (pwrEn s) i then .high else .low
  | .mgt => if s.pwr.coreUp && s.outputsOn then .driven else .released

/-- Record wake causes (R373). -/
def State.wakeCause (s : State) (bits : Nat) : State :=
  s.wr .pwr OAS_WAKE_CAUSE (s.rd .pwr OAS_WAKE_CAUSE ||| BitVec.ofNat 32 bits)

/-- The Oasis starts to power up: PWR_EN0, the oscillator runs (R376). -/
def State.powerUp (s : State) : State :=
  let s := ((s.put .pwr OAS_STATUS 31 28 0).put .pwr OAS_STATUS 27 24 1).setb .pwr OAS_STATUS 2 true
  { s with pwr := { s.pwr with goingUp := true, goingDown := false, rtcHeld := false } }

/-- The Oasis starts to power down with PG_FAIL set (R376); the counter goes on with RTC_KEEP only (R375). -/
def State.powerFail (s : State) : State :=
  let s := s.setb .pwr OAS_STATUS 2 (s.flag .pwr OAS_CTRL 27)
  let s := ((s.setb .pwr OAS_STATUS 0 true).wakeCause 0x40).setb .pwr OAS_STATUS 1 false
  { s with pwr := { s.pwr with goingUp := false, goingDown := true } }

/-- A wake source is enabled and has fired: 0 WAKE_N, 1 MOTION, 2 I2C, 3 RTC (R373 to R375). -/
def wakeFires (s : State) (src : Nat) : Bool :=
  match src with
  | 0 => s.flag .pwr OAS_CTRL 31
  | 1 =>
    let n := s.fld .pwr OAS_CTRL 23 16
    s.flag .pwr OAS_CTRL 30 && decide (n ≤ s.pwr.motA ∧ n ≤ s.pwr.motB)
  | 2 => s.flag .pwr OAS_CTRL 29
  | _ => s.flag .pwr OAS_CTRL 28 && s.flag .pwr OAS_STATUS 2

/-- The alarm wakes when the count equals it (R373). -/
def State.rtcAtAlarm (s : State) (src : Nat) : State :=
  if src = 3 then
    (s.wr .pwr OAS_RTC_LO (s.rd .pwr OAS_ALARM_LO)).wr .pwr OAS_RTC_HI (s.rd .pwr OAS_ALARM_HI)
  else s

/-- OAS_WAKE (R371, R372, R374, R376, R383): an enabled source fires; `sameMs`: within 1 ms of the one that started the
power-up. -/
def execOasWake (src : Fin 4) (sameMs : Bool) (s : State) : Host.Outcome State Fault Refusal :=
  .next (if !wakeFires s src then s
    else if inDeep s then ((s.wakeCause (2 ^ src.val)).rtcAtAlarm src).powerUp
    else if s.pwr.goingUp then (if sameMs then s.wakeCause (2 ^ src.val) else s)
    else if s.pwr.goingDown ∨ dstate s = 3 then
      { s with pwr := { s.pwr with wakeHeld := s.pwr.wakeHeld ||| 2 ^ src.val } }
    else if dstate s = 2 ∧ src.val ≠ 2 then
      let s := (s.wakeCause (2 ^ src.val)).rtcAtAlarm src
      { s with pwr := { s.pwr with exitAt := some (s.pwr.exitAt.getD s.now) } }
    else s)

/-- PG_UP (R376): PG i has been high for 1 ms; the next output is asserted, or every supply is up: until the release
of the core reset, PORST_N holds the core (R405). -/
def execPgUp (i : Fin 4) (s : State) : Host.Outcome State Fault Refusal :=
  .next (if s.pwr.goingUp ∧ pwrEn s = 2 ^ (i.val + 1) - 1 ∧ pgNow s = 2 ^ i.val - 1 then
      let s := s.setb .pwr OAS_STATUS (28 + i) true
      if i.val < 3 then s.setb .pwr OAS_STATUS (24 + i + 1) true
      else
        let s := s.setb .pwr OAS_STATUS 1 true
        { s with pwr := { s.pwr with goingUp := false }, tap := { s.tap with coreHeld := true } }
    else s)

/-- PG_TIMEOUT (R376): a PG was not high within PG_TIMEOUT; the Oasis stays in DEEP until the next wake. -/
def execPgTimeout (s : State) : Host.Outcome State Fault Refusal :=
  .next (if s.pwr.goingUp then s.powerFail else s)

/-- PG_LOST (R376): PG i fell for 10 us or longer; the core is held in reset and the device enters DEEP. -/
def execPgLost (i : Fin 4) (s : State) : Host.Outcome State Fault Refusal :=
  .next (if s.pwr.coreUp then
      let s := (s.coreDown.setb .pwr OAS_STATUS (28 + i) false).powerFail
      { s with pwr := { s.pwr with motA := 0, motB := 0 } }
    else s)

/-- The highest output that is asserted. -/
def topEn (s : State) : Option Nat := ([3, 2, 1, 0] : List Nat).find? (fun i => tbit (pwrEn s) i)

/-- Down: DEEP; a wake held during the entry starts the power-up (R371). -/
def State.powerIsDown (s : State) : State :=
  let held := s.pwr.wakeHeld
  let s : State := { s with pwr := { s.pwr with goingDown := false, wakeHeld := 0 } }
  if held = 0 then s else (s.wakeCause held).powerUp

/-- POWER_DOWN_STEP (R376): the next output in reverse order, 1 ms after the one before. -/
def execPowerDownStep (s : State) : Host.Outcome State Fault Refusal :=
  .next (if !s.pwr.goingDown then s
    else match topEn s with
      | some i =>
        let s := (s.setb .pwr OAS_STATUS (24 + i) false).setb .pwr OAS_STATUS (28 + i) false
        if i = 0 then s.powerIsDown else s
      | none => s.powerIsDown)

/-- VAON_POR (R373, R376, R412): every Oasis register clears and every PWR_EN is de-asserted; with VAON back (`on`) the
Oasis powers up at once. -/
def execVaonPor (on : Bool) (s : State) : Host.Outcome State Fault Refusal :=
  .next (
    let s := s.coldNow
    let s : State := { s with pwr := { s.pwr with
      regs := s.pwr.regs.filter (fun e => !isOasis e.1), goingUp := false, goingDown := false, motA := 0, motB := 0
      vaonUp := on, rtcHeld := false } }
    let s := (s.wr .pwr OAS_STATUS 0#32).wr .pwr OAS_WAKE_CAUSE 0#32
    let s : State := { s with tap := { s.tap with coreHeld := false, pinsHeld := false, highz := false, acTest := false } }
    if on then (s.wakeCause 0x10).powerUp else s)

/-! ### Start-up (R377 to R379) -/

/-- CORE_RESET_RELEASE (R376, R377, R405, R412): every PG is up and PORST_N is high; the straps are latched, the ROM
starts, a refused scan instruction is reported. -/
def execCoreResetRelease (straps : BitVec 6) (s : State) : Host.Outcome State Fault Refusal :=
  .next (if s.pwr.coreUp ∨ s.pwr.goingUp ∨ s.pwr.goingDown ∨ ¬ suppliesUp s then s
    else
      let s := (s.wr .pwr OAS_STRAPS (BitVec.ofNat 32 straps.toNat)).setb .cvn CVN_STATUS 31 (straps.getLsbD 1)
      let s := if s.tap.testRej then s.setb .flt FLT_STATUS 26 true else s
      { s with
        time := s.time.atCold
        pwr := { s.pwr with coreUp := true }
        mot := s.mot.afterReset s.mot.regs 0
        tap := { s.tap with coreHeld := false, pinsHeld := false, highz := false, acTest := false, testRej := false } })

/-- BOOT_MODE (R377). -/
def bootMode (s : State) : Nat := s.fld .pwr OAS_STRAPS 5 4

/-- The firmware starts (R378, R401). -/
def State.fwStart (s : State) : State := { s with pwr := { s.pwr with fwRuns := true, fwFrom := s.now } }

/-- FIRMWARE_AUTH (R378): whether the image at offset 0, and the copy, pass CRC and signature; in recovery, whether the
image whose pieces came through the window does (log 129). -/
def execFirmwareAuth (ok1 ok2 : Bool) (s : State) : Host.Outcome State Fault Refusal :=
  .next (if !s.pwr.coreUp || dstate s != 0 || s.pwr.fwRuns then s
    else
      let ok := match bootMode s with
        | 0 => ok1 || ok2
        | 1 => false
        | _ => ok1 && decide (0 < s.pwr.fwPieces)
      if ok then s.fwStart
      else if bootMode s = 0 then { s with pwr := { s.pwr with bootFail := true } }
      else s)

/-- FW_LOAD (R252, R277): `authentic`: the image passes authentication; E_AUTH otherwise. -/
def execFwLoad (authentic : Bool) (s : State) : Host.Outcome State Fault Refusal :=
  .next (s.mbxRun 0x0D (fun s =>
    if authentic then (s.fwStart, 0, []) else (s, 8, [])))

/-- BOOT_DONE (R379, R381): RUN; ATTN WAKE_DONE, and PG_FAIL if the Oasis holds it. -/
def execBootDone (s : State) : Host.Outcome State Fault Refusal :=
  .next (if s.pwr.coreUp ∧ s.pwr.fwRuns ∧ dstate s = 0 then
      let s := (s.put .pwr PWR_STATUS 31 28 1).attnSet 2
      if s.flag .pwr OAS_STATUS 0 then s.attnSet 1 else s
    else s)

end Sys2Proof.Machine
end

