-- ==== Sys2Proof/Machine/Faults.lean ====
section
/-! DEFINITION. Reported faults, the log and its mirror, fatal faults and the watchdogs (R390 to R401). -/
namespace Sys2Proof.Machine

/-! ### Fatal faults (R399) -/

/-- Every output goes to the fatal-fault state: back-channels, Caravan and PCIe idle; frames and legs stop with DSTATE
(R215, R224, R380, R399).  A change of the device state under way ends: FAULT stays until a reset (R400). -/
def State.allSafe (s : State) : State :=
  let s := s.each (List.range 8) (fun s n => s.pwmSettle n (halfNow s))
  let s := s.put .pwr PWR_STATUS 31 28 4
  let s : State := { s with pwr := { s.pwr with devCmd := none, exitAt := none, wakeHeld := 0 } }
  (s.linkDown.lanesOff).attnSet 0

/-- A fatal fault of a core that runs (R390, R399). -/
def State.fatal (s : State) (domain code inst detail : Nat) : State :=
  if s.pwr.coreUp then (s.reportAt s.now 2 domain code inst detail).allSafe else s

/-- Codes of R390: contained and fatal. -/
def isContained (code : Nat) : Bool :=
  ([0x01, 0x10, 0x11, 0x12, 0x13, 0x20, 0x30, 0x31, 0x32, 0x33, 0x34, 0x40, 0x41, 0x42, 0x50, 0x51, 0x60, 0x61] :
    List Nat).contains code
def isFatal (code : Nat) : Bool := decide (0xF0 ≤ code ∧ code ≤ 0xF6)

/-- FAULT_REPORT (R390 to R396): a report of a unit; the reserved codes are not reported. -/
def execFaultReport (domain : Fin 60) (code : Byte) (inst : BitVec 16) (detail : BitVec 64) (s : State) :
    Host.Outcome State Fault Refusal :=
  .next (if isContained code.toNat then s.contained domain code.toNat inst.toNat detail.toNat
    else if isFatal code.toNat then s.fatal domain code.toNat inst.toNat detail.toNat
    else s)

/-- MGMT_WDOG (R390, R400, R401): the firmware has not served it for 100 ms, so it has run for that long. -/
def execMgmtWdog (pc : BitVec 64) (s : State) : Host.Outcome State Fault Refusal :=
  .next (if s.pwr.coreUp ∧ s.pwr.fwRuns ∧ s.pwr.fwFrom + 100000000 ≤ s.now then
      let s := s.fatal 55 0xF1 0 pc.toNat
      { s with flt := { s.flt with wdogSafe := some s.now } }
    else s)

/-- REFCLK_SYS_LOSS (R390, R400). -/
def execRefclkSysLoss (s : State) : Host.Outcome State Fault Refusal :=
  .next ((s.onTime (fun t => { t with refSysOk := false })).fatal 55 0xF0 0 0)

/-- TB_PLL_LOSS (R390). -/
def execTbPllLoss (s : State) : Host.Outcome State Fault Refusal := .next (s.fatal 3 0xF4 0 0)

/-- VERDICT_ECC (R390): the table or bank, and the entry. -/
def execVerdictEcc (table : BitVec 16) (entry : BitVec 64) (s : State) : Host.Outcome State Fault Refusal :=
  .next (s.fatal 53 0xF2 table.toNat entry.toNat)

/-- NOC_ECC (R390): on a flit in VC 0 or VC 1. -/
def execNocEcc (router : Fin 16) (vc : Fin 2) (s : State) : Host.Outcome State Fault Refusal :=
  .next (s.fatal 5 0xF3 router vc)

/-- NOC_PRIORITY_OVERRUN (R10, R390): the excess of VC 0 or VC 1 is held at its source. -/
def execNocPriorityOverrun (router : Fin 16) (vc : Fin 2) (s : State) : Host.Outcome State Fault Refusal :=
  .next (s.contained 5 0x01 router vc)

/-- The slot whose frame must have been formed by now: TB k * 5,000 - 3,040 (R401). -/
def slotFormed (now : Nat) : Nat := (now + 3040) / 5000

/-- EJ_SLOT_MISS (R401): an enabled bus has no frame for the slot. -/
def execEjSlotMiss (n : Fin 8) (s : State) : Host.Outcome State Fault Refusal :=
  .next (let k := slotFormed s.now
    let formed := match (ejBus s n).slot with
      | some j => decide (k ≤ j)
      | none => false
    if s.flag .ejt (EJT_BUS_CTRL n) 31 && s.outputsOn && !formed then s.fatal 49 0xF5 n (k % 2 ^ 32) else s)

/-! ### Temperature (R390) -/

/-- The grade's highest junction temperature in half degrees (R2). -/
def maxTj (s : State) : Int :=
  match s.time.part with
  | .wap24_48C => 190
  | _ => 210

/-- THERMAL_WARN (R390): the highest Tj, in half degrees, for 1 ms; it is reported again only after Tj has fallen 5
degrees below the maximum. -/
def execThermalWarn (tj : BitVec 16) (s : State) : Host.Outcome State Fault Refusal :=
  .next (let s : State := { s with pwr := { s.pwr with tj := tj.toNat } }
    if tj.toInt ≤ maxTj s - 10 then { s with flt := { s.flt with warnArmed := true } }
    else if maxTj s < tj.toInt ∧ s.flt.warnArmed then
      ({ s with flt := { s.flt with warnArmed := false } } : State).contained 55 0x60 0 tj.toNat
    else s)

/-- THERMAL_TRIP (R390): the highest Tj above the maximum plus 15 degrees. -/
def execThermalTrip (tj : BitVec 16) (s : State) : Host.Outcome State Fault Refusal :=
  .next (let s : State := { s with pwr := { s.pwr with tj := tj.toNat } }
    if maxTj s + 30 < tj.toInt then s.fatal 55 0xF6 0 tj.toNat else s)

/-! ### The log (R393, R395) -/

/-- A write to FLT_LOG_CONS (R393). -/
def State.logConsWrite (s : State) (v : Word) : State :=
  let cons := s.rd .flt FLT_LOG_CONS
  if s.flag .flt FLT_CTRL 31 ∨ logUsed s.flt.regs < (v - cons).toNat then s.setb .flt FLT_STATUS 0 true
  else (s.wr .flt FLT_LOG_CONS v).logOverflow.fltFlags

/-- FLT_LOG_CONS_WRITE (R393, R395). -/
def execFltLogConsWrite (v : Word) (s : State) : Host.Outcome State Fault Refusal :=
  .next (s.fltDo (fun s => s.logConsWrite v))

/-- Clear FLT_FIRST. -/
def State.clearFirst (s : State) : State :=
  (s.wrList .flt (FLT_FIRST 0) (List.replicate 8 0#32)).setb .flt FLT_STATUS 30 false

/-- Clear FLT_FATAL. -/
def State.clearFatal (s : State) : State :=
  (s.wrList .flt (FLT_FATAL 0) (List.replicate 8 0#32)).setb .flt FLT_STATUS 31 false

/-- FLT_CLEAR_FIRST and FLT_CLEAR_FATAL (R396): a report of this cycle is captured all the same. -/
def execFltClearFirst (s : State) : Host.Outcome State Fault Refusal := .next (s.fltDo State.clearFirst)
def execFltClearFatal (s : State) : Host.Outcome State Fault Refusal := .next (s.fltDo State.clearFatal)

/-! ### The mirror (R394) -/

/-- Entries of the mirror ring, and those in use. -/
def mirSize (s : State) : Nat := 2 ^ s.fld .flt FLT_MIR_SIZE 4 0
def mirUsed (s : State) : Nat := (s.rd .flt FLT_MIR_PROD - s.rd .flt FLT_MIR_CONS).toNat

/-- FLT_STAGE_COUNT shows the staging ring. -/
def State.putStaging (s : State) (l : List (List Word)) : State :=
  let s : State := { s with flt := { s.flt with staging := l } }
  s.wr .flt FLT_STAGE_COUNT (BitVec.ofNat 32 l.length)

/-- Staged records move to the mirror ring while the link is up and the ring has room. -/
def State.mirrorOut (s : State) : State :=
  if !s.host.up then s
  else
    let n := min s.flt.staging.length (mirSize s - mirUsed s)
    let prod := s.rd .flt FLT_MIR_PROD
    let base := s.rd64 .flt FLT_MIR_BASE_LO FLT_MIR_BASE_HI
    let size := mirSize s
    let s := s.each ((s.flt.staging.take n).zipIdx) (fun s p =>
      s.hostWrite (base + (prod.toNat + p.2) % size * 32) (p.1.flatMap (fun w => leBytes 4 w.toNat)))
    let s := s.wr .flt FLT_MIR_PROD (prod + BitVec.ofNat 32 n)
    let s : State := { s with flt := { s.flt with mirOwed := s.flt.mirOwed || (decide (0 < n) && s.flag .flt FLT_CTRL 30) } }
    s.putStaging (s.flt.staging.drop n)

/-- Log records move to the staging ring of 65,536 records in log order; an OVERFLOW record owed is appended (R395). -/
def State.mirrorIn (s : State) : State :=
  let n := min (logUsed s.flt.regs) (65536 - s.flt.staging.length)
  let cons := s.rd .flt FLT_LOG_CONS
  let recs := (List.range n).map (fun i =>
    (List.range 8).map (fun w => s.rd .flt (FLT_LOG ((cons.toNat + i) % 256 * 8 + w))))
  ((s.putStaging (s.flt.staging ++ recs)).wr .flt FLT_LOG_CONS (cons + BitVec.ofNat 32 n)).logOverflow.fltFlags

/-- Vector 1 of PF0, at most once per 10 us. -/
def State.mirrorInt (s : State) : State :=
  if s.flt.mirOwed ∧ s.host.up ∧ s.flt.mirInt.all (fun t => decide (t + 10000 ≤ s.now)) then
    let s := s.vector 0 1
    { s with flt := { s.flt with mirOwed := false, mirInt := some s.now } }
  else s

/-- FLT_MIRROR_MOVE (R394): records of reports of this cycle move with a later one. -/
def execFltMirrorMove (s : State) : Host.Outcome State Fault Refusal :=
  .next (if s.flag .flt FLT_CTRL 31 then s.fltDo (fun s => s.mirrorOut.mirrorIn.mirrorOut.mirrorInt) else s)

/-- A doorbell of the mirror ring (R261, R394). -/
def State.mirDoorbell (s : State) (v : Word) : State :=
  if mirUsed s < (v - s.rd .flt FLT_MIR_CONS).toNat then s.setb .flt FLT_STATUS 1 true
  else s.wr .flt FLT_MIR_CONS v

/-- FLT_MIR_DOORBELL (R394). -/
def execFltMirDoorbell (v : Word) (s : State) : Host.Outcome State Fault Refusal :=
  .next (s.fltDo (fun s => s.mirDoorbell v))

/-- A write to FLT_CTRL (R394, R398): MIR_EN from 0 to 1 sets both pointers to 0. -/
def State.fltCtrlWrite (s : State) (v : Word) : State :=
  let rise := bit v 31 && !s.flag .flt FLT_CTRL 31
  let s := s.store .flt FLT_CTRL v
  let s := if bit v 30 then s else { s with flt := { s.flt with mirOwed := false } }
  if rise then (s.wr .flt FLT_MIR_PROD 0#32).wr .flt FLT_MIR_CONS 0#32 else s

/-- A write to FLT_MIR_BASE (R398): only while MIR_EN is 0. -/
def State.mirBaseWrite (s : State) (a : Nat) (v : Word) : State :=
  if s.flag .flt FLT_CTRL 31 then s.setb .flt FLT_STATUS 0 true else s.store .flt a v

/-! ### The host watchdog (R401) -/

/-- A kick: it starts the period again, and an expiry in the same cycle was none. -/
def State.hostKick (s : State) : State :=
  let f (s : State) : State :=
    ({ s with flt := { s.flt with wdogFrom := s.now, wdogDone := false } } : State).setb .flt FLT_STATUS 27 false
  let reps := (cycleNow s).reps
  if reps.isEmpty then f s else s.inCycle (reps.filter (fun e => e.code != 0x61)) f

/-- HOST_KICK (R401). -/
def execHostKick (s : State) : Host.Outcome State Fault Refusal := .next s.hostKick

/-- A write to FLT_HOST_WDOG (R401): EN from 0 to 1 starts the period afresh. -/
def State.wdogWrite (s : State) (v : Word) : State :=
  let rise := bit v 31 && !s.flag .flt FLT_HOST_WDOG 31
  let s := s.store .flt FLT_HOST_WDOG v
  if rise then { s with flt := { s.flt with wdogFrom := s.now, wdogDone := false } } else s

/-- HOST_SILENT (R401): PERIOD ms without a kick. -/
def execHostSilent (s : State) : Host.Outcome State Fault Refusal :=
  .next (if s.flag .flt FLT_HOST_WDOG 31 ∧ ¬ s.flt.wdogDone ∧
      s.flt.wdogFrom + s.fld .flt FLT_HOST_WDOG 15 0 * 1000000 ≤ s.now then
      let silent (s : State) : State :=
        { s with flt := { s.flt with regs := wrBit s.flt.regs FLT_STATUS 27 true, wdogDone := true } }
      (s.fltDo silent).contained 55 0x61 0 0
    else s)

end Sys2Proof.Machine
end

