-- ==== Sys2Proof/Machine/MgtBus.lean ====
section
/-! DEFINITION. The management bus (R381 to R389): the target's window, attention, and the controller's transfers. -/
namespace Sys2Proof.Machine

/-! ### The window (R381, R382) -/

/-- A byte of a register. -/
def regByte (s : State) (b : Blk) (a k : Nat) : Byte := BitVec.ofNat 8 ((s.rd b a).toNat / 2 ^ (8 * k))

/-- A byte of the window as it stands. -/
def winByte (s : State) (o : Nat) : Byte :=
  if o < 4 then regByte s .time HST_ID o
  else if o = 4 then 0xB1#8
  else if o = 5 then BitVec.ofNat 8 (dstate s)
  else if o = 6 then BitVec.ofNat 8 (s.fld .pwr OAS_WAKE_CAUSE 6 0)
  else if o = 7 then BitVec.ofNat 8 (b2n s.pwr.bootFail + 2 * b2n s.pwr.fwRuns)
  else if o = 9 then BitVec.ofNat 8 s.pwr.cmdStatus
  else if o = 10 ∨ o = 11 then BitVec.ofNat 8 (s.pwr.tj / 2 ^ (8 * (o - 10)))
  else if o = 12 then BitVec.ofNat 8 s.pwr.attnStatus
  else if o = 13 then BitVec.ofNat 8 s.pwr.attnMask
  else if o < 0x40 then 0#8
  else if o < 0x80 then regByte s .pwr (OAS_RET ((o - 0x40) / 4)) (o % 4)
  else if o < 0xC0 then regByte s .pwr (MGT_MBOX_IN ((o - 0x80) / 4)) (o % 4)
  else regByte s .pwr (MGT_MBOX_OUT ((o - 0xC0) / 4)) (o % 4)

/-- The 4-byte group of the window at an offset. -/
def winGroup (s : State) (o : Nat) : Word :=
  BitVec.ofNat 32 (ofLe ((List.range 4).map (fun k => winByte s (o / 4 * 4 + k))))

/-- Put a byte of a register. -/
def State.putByte (s : State) (b : Blk) (a k : Nat) (v : Byte) : State := s.put b a (8 * k + 7) (8 * k) v.toNat

/-- Recovery waits for firmware, which the window may take (R378; log 129). -/
def fwWindow (s : State) : Bool := dstate s == 0 && decide (2 ≤ bootMode s) && !s.pwr.fwRuns

/-- A byte written at an offset (R381); CMD's other values are ignored, read-only and reserved bytes have no effect. -/
def State.winWrite (s : State) (o : Nat) (v : Byte) : State :=
  if o = 6 then s.wr .pwr OAS_WAKE_CAUSE (s.rd .pwr OAS_WAKE_CAUSE &&& ~~~ BitVec.ofNat 32 (v.toNat % 128))
  else if o = 8 then
    (match v.toNat with
    | 1 => s.busCmd 1 false
    | 2 => s.busCmd 2 false
    | 3 => s.busCmd 2 true
    | 4 => s.busCmd 0 false
    | _ => if s.pwr.cmdStatus = 0xFF then { s with pwr := { s.pwr with i2cAck := false } } else s)
  else if o = 12 then s.attnPut (s.pwr.attnStatus &&& (s.pwr.attnStatus ^^^ v.toNat)) s.pwr.attnMask
  else if o = 13 then s.attnPut s.pwr.attnStatus v.toNat
  else if o < 0x40 then s
  else if o < 0x80 then s.putByte .pwr (OAS_RET ((o - 0x40) / 4)) (o % 4) v
  else if o < 0xC0 then
    let s := s.putByte .pwr (MGT_MBOX_IN ((o - 0x80) / 4)) (o % 4) v
    if o = 0xBF then
      let s := s.setb .pwr MGT_MBOX_STATUS 0 true
      { s with pwr := { s.pwr with fwPieces := s.pwr.fwPieces + b2n (fwWindow s) } }
    else s
  else s

/-- The window answers: the core has booted (R382) or takes firmware (R378), and in STANDBY its logic is awake (R383,
R384); in a fatal fault it still runs (R399). -/
def winReady (s : State) : Bool :=
  s.pwr.coreUp && (dstate s != 0 || fwWindow s) && (dstate s != 2 || s.pwr.awake)

/-- A transfer of the bus that names an address (R381): without an answer it is not acknowledged; after it the window logic
sleeps again in STANDBY (R383; log 130). -/
def State.winTransfer (s : State) (addr : Nat) (f : State → State) : State :=
  if addr ≠ ownAddr s then s
  else if !winReady s then { s with pwr := { s.pwr with i2cAck := false } }
  else
    let s := f { s with pwr := { s.pwr with i2cAck := true } }
    { s with pwr := { s.pwr with awake := false } }

/-- Write bytes at the pointer, which advances and wraps; a byte that is not acknowledged ends the write. -/
def State.winWriteAll (s : State) : List Byte → State
  | [] => s
  | v :: vs =>
    let s' := s.winWrite s.pwr.ptr v
    if s'.pwr.i2cAck then
      ({ s' with pwr := { s'.pwr with ptr := (s.pwr.ptr + 1) % 256 } } : State).winWriteAll vs
    else s'

/-- I2C_TARGET_WRITE (R381, R382): the first byte sets the pointer. -/
def execI2cTargetWrite (addr : BitVec 7) (data : List Byte) (s : State) : Host.Outcome State Fault Refusal :=
  .next (s.winTransfer addr.toNat (fun s =>
    match data with
    | [] => s
    | p :: vs => ({ s with pwr := { s.pwr with ptr := p.toNat } } : State).winWriteAll vs))

/-- Read bytes from the pointer: an offset that is a multiple of 4 latches its group, the others of a latched group
come from the latch (R381). -/
def State.winReadAll (s : State) : Nat → State
  | 0 => s
  | n + 1 =>
    let o := s.pwr.ptr
    let latch := if o % 4 = 0 then some (o, winGroup s o) else s.pwr.latch
    let b := match latch with
      | some (g, w) => if g = o / 4 * 4 then BitVec.ofNat 8 (w.toNat / 2 ^ (8 * (o % 4))) else winByte s o
      | none => winByte s o
    ({ s with pwr := { s.pwr with ptr := (o + 1) % 256, latch := latch, i2cOut := s.pwr.i2cOut ++ [b] } } : State).winReadAll n

/-- I2C_TARGET_READ (R381): n bytes from the pointer. -/
def execI2cTargetRead (addr : BitVec 7) (n : Nat) (s : State) : Host.Outcome State Fault Refusal :=
  .next (s.winTransfer addr.toNat (fun s =>
    let s := ({ s with pwr := { s.pwr with latch := none, i2cOut := [] } } : State).winReadAll n
    { s with pwr := { s.pwr with latch := none } }))

/-- I2C_STANDBY_MATCH (R383, R384): `ready`: the window logic woke within 50 us.  With I2C_COMPAT SCL is not held, and the
address is acknowledged only where the logic is awake already. -/
def execI2cStandbyMatch (ready : Bool) (s : State) : Host.Outcome State Fault Refusal :=
  .next (if dstate s = 2 then
      let was := s.pwr.awake
      { s with pwr := { s.pwr with i2cAck := was || (ready && !s.flag .pwr OAS_STRAPS 0), awake := was || ready } }
    else s)

/-! ### Transfers of the controller (R386 to R388) -/

/-- The data registers after a read of n bytes (R386). -/
def State.ctlData (s : State) (n : Nat) (data : List Byte) : State :=
  s.each ((data.take n).zipIdx) (fun s p =>
    s.putByte .pwr (if p.2 < 4 then MGT_CTL_DATA0 else MGT_CTL_DATA1) (p.2 % 4) p.1)

/-- The running transfer ends with a RESULT (R386 to R388): 0 OK, 1 ADDR_NACK, 2 DATA_NACK, 3 ARB_LOST, 4 TIMEOUT,
5 STUCK, which is also reported. -/
def State.ctlEnd (s : State) (result : Nat) (data : List Byte) : State :=
  match s.pwr.job with
  | none => s
  | some j =>
    let s := if result = 5 then (s.setb .pwr MGT_CTL_STATUS 29 true).contained 55 0x51 0 0 else s
    let s := match j.kind with
      | .pf0 =>
        let s := if result = 0 then s.ctlData (s.fld .pwr MGT_CTL_CMD 3 0) data else s
        let s := ((s.put .pwr MGT_CTL_STATUS 2 0 result).setb .pwr MGT_CTL_STATUS 31 false).setb .pwr MGT_CTL_STATUS 30 true
        s.setb .pwr MGT_CTL_CMD 31 false
      | .attn => if result = 0 then { s with pwr := { s.pwr with attnOwed := s.pwr.attnOwed && s.pwr.attnAt.isNone } } else s
      | .vreg => s.vcoreEnd (decide (result = 0))
    s.mgtNext

/-- A write to MGT_CTL_CMD (R386, R389): GO starts a transfer; while one is BUSY it is ignored. -/
def State.ctlWrite (s : State) (v : Word) : State :=
  if s.flag .pwr MGT_CTL_STATUS 31 then (if bit v 31 then s.setb .pwr MGT_CTL_STATUS 28 true else s)
  else
    let s := s.store .pwr MGT_CTL_CMD v
    if bit v 31 then (s.setb .pwr MGT_CTL_STATUS 31 true).mgtQueue .pf0 else s

/-- I2C_CTL_GO (R386): a write to MGT_CTL_CMD. -/
def execI2cCtlGo (v : Word) (s : State) : Host.Outcome State Fault Refusal := .next (s.ctlWrite v)

/-- I2C_CTL_DONE (R386). -/
def execI2cCtlDone (result : Fin 6) (data : List Byte) (s : State) : Host.Outcome State Fault Refusal :=
  .next (s.ctlEnd result data)

/-- I2C_ARB_LOST (R385, R387): up to 7 retries, then ARB_LOST. -/
def execI2cArbLost (s : State) : Host.Outcome State Fault Refusal :=
  .next (match s.pwr.job with
    | some j =>
      let s := s.setRegs .pwr (incAttempt (s.regs .pwr) MGT_CNT_ARB)
      if 7 ≤ j.tries then s.ctlEnd 3 []
      else { s with pwr := { s.pwr with job := some { j with tries := j.tries + 1 } } }
    | none => s)

/-- I2C_SCL_TIMEOUT (R388): SCL low for 25 ms; `stuck`: SDA is still low after the ninth clock. -/
def execI2cSclTimeout (stuck : Bool) (s : State) : Host.Outcome State Fault Refusal :=
  .next (({ s with pwr := { s.pwr with latch := none } } : State).ctlEnd (if stuck then 5 else 4) [])

/-! ### Attention (R385) -/

/-- ATTN_MODE: 0 off, 1 write, 2 pulse. -/
def attnMode (s : State) : Nat := s.fld .pwr MGT_CTRL 29 28

/-- An attention write to ATTN_ADDR starts or waits. -/
def State.attnWrite (s : State) : State :=
  ({ s with pwr := { s.pwr with attnAt := some s.now } } : State).mgtQueue .attn

/-- ATTN_RAISE (R385): the attention owed; with ATTN_MODE off none is raised. -/
def execAttnRaise (s : State) : Host.Outcome State Fault Refusal :=
  .next (if ¬ s.pwr.attnOwed ∨ s.pwr.attnAt.isSome then s
    else match attnMode s with
      | 1 => s.attnWrite
      | 2 => s
      | _ => { s with pwr := { s.pwr with attnOwed := false } })

/-- An attention write is under way. -/
def attnRuns (s : State) : Bool := s.pwr.job.any (fun j => j.kind == .attn) || s.pwr.waiting.contains .attn

/-- ATTN_RETRY (R385): 10 ms after a write that failed, until it succeeds or the bits are cleared. -/
def execAttnRetry (s : State) : Host.Outcome State Fault Refusal :=
  .next (match s.pwr.attnAt with
    | some t => if s.pwr.attnOwed ∧ attnMode s = 1 ∧ ¬ attnRuns s ∧ t + 10000000 ≤ s.now then s.attnWrite else s
    | none => s)

/-- ATTN_PULSE (R385): SDA low for 30 us; `ok` false: SCL fell, and Apnik pulses again at the next idle. -/
def execAttnPulse (ok : Bool) (s : State) : Host.Outcome State Fault Refusal :=
  .next (if s.pwr.attnOwed ∧ attnMode s = 2 ∧ ok then { s with pwr := { s.pwr with attnOwed := false } } else s)

/-- MBOX_OUT_DONE (R381, R389): a write to MGT_MBOX_OUT_DONE. -/
def execMboxOutDone (v : Word) (s : State) : Host.Outcome State Fault Refusal :=
  .next (if bit v 0 then s.attnSet 3 else s)

end Sys2Proof.Machine
end

