-- ==== Sys2Proof/Machine/Tap.lean ====
section
/-! DEFINITION. The test access port (R404 to R407): its instructions and the boundary register, whose cells follow the
ball map (R406, R419, R420). -/
namespace Sys2Proof.Machine

/-! ### The boundary register (R406, R419, R420) -/

/-- The repeated pins of index i with their cells: row, column, cells.  A pair has its cells on the positive ball. -/
def lanePins (p : Nat) : List (Nat × Nat × Nat) :=
  if p < 12 then [(8 + 3 * p, 2, 1), (9 + 3 * p, 2, 1), (8 + 3 * p, 5, 2)]
  else [(8 + 3 * (p - 12), 57, 1), (9 + 3 * (p - 12), 57, 1), (8 + 3 * (p - 12), 54, 2)]
def pciePins (l : Nat) : List (Nat × Nat × Nat) := [(1, 9 + 3 * l, 1), (4, 9 + 3 * l, 2)]
def spanPins (q : Nat) : List (Nat × Nat × Nat) := [(58, 9 + 3 * q, 1), (55, 9 + 3 * q, 2)]
def busPins (n : Nat) : List (Nat × Nat × Nat) := [(58, 26 + 3 * n, 2), (57, 26 + 3 * n, 2), (56, 26 + 3 * n, 1)]
def legPins (n : Nat) : List (Nat × Nat × Nat) := [(49 + n, 1, 2), (49 + n, 2, 2), (49 + n, 5, 1), (49 + n, 6, 1)]
def encPins (n : Nat) : List (Nat × Nat × Nat) :=
  [(50 + n, 51, 3), (50 + n, 52, 3), (50 + n, 53, 3), (50 + n, 55, 3), (50 + n, 56, 3), (50 + n, 57, 3)]
def trigPins (k : Nat) : List (Nat × Nat × Nat) := if k < 8 then [(58, 51 + k, 3)] else [(49, 43 + k, 3)]

/-- The single pins: PPS_IN, PERST_N, WAKE_N; PWR_EN; PG; MGT_SCL, MGT_SDA; straps; QSPI. -/
def singlePins : List (Nat × Nat × Nat) :=
  [(49, 10, 1), (49, 12, 1), (49, 16, 1), (50, 10, 2), (50, 11, 2), (50, 12, 2), (50, 13, 2), (50, 15, 1), (50, 16, 1),
    (50, 17, 1), (50, 18, 1), (51, 10, 3), (51, 11, 3), (51, 13, 1), (51, 14, 1), (51, 15, 1), (51, 16, 1), (51, 17, 1),
    (51, 18, 1), (52, 10, 3), (52, 11, 3), (52, 12, 3), (52, 13, 3), (52, 14, 3), (52, 15, 3)]

/-- Every pin with cells. -/
def scanPins : List (Nat × Nat × Nat) :=
  (List.range 24).flatMap lanePins ++ (List.range 16).flatMap pciePins ++ (List.range 4).flatMap spanPins ++
    (List.range 8).flatMap busPins ++ (List.range 8).flatMap legPins ++ (List.range 8).flatMap encPins ++
    (List.range 16).flatMap trigPins ++ singlePins

/-- The place from TDI of a ball's first cell: cells of balls with a smaller coordinate, row first (R406). -/
def cellPlace (row col : Nat) : Nat :=
  (scanPins.filter (fun p => decide (p.1 < row ∨ p.1 = row ∧ p.2.1 < col))).foldl (fun n p => n + p.2.2) 0

/-- Cells of the boundary register. -/
def scanLength : Nat := scanPins.foldl (fun n p => n + p.2.2) 0

/-- A cell of the boundary register. -/
def scanCell (s : State) (k : Nat) : Bool := Tab.get (fun _ => false) s.tap.boundary k

/-- What PWn_HI and PWn_LO drive from the boundary register: both cells at 1 drive 0 (R405).  The output cell comes
first (R406). -/
def scanLeg (s : State) (n : Nat) : Bool × Bool :=
  let hi := scanCell s (cellPlace (49 + n) 1)
  let lo := scanCell s (cellPlace (49 + n) 2)
  if hi && lo then (false, false) else (hi, lo)

/-- The boundary register is updated, from the cell next to TDI on. -/
def State.scanUpdate (s : State) (cells : List Bool) : State :=
  { s with tap := { s.tap with boundary := Tab.setList (fun _ => false) s.tap.boundary 0 (cells.take scanLength) } }

/-! ### Instructions (R404, R405) -/

/-- An instruction is selected; what holds the pins is given. -/
def State.tapSelect (s : State) (ir : Byte) (i : TapInstr) (pins hiz ac : Bool) : State :=
  { s with tap := { s.tap with
      ir := ir, instr := i, pinsHeld := pins, highz := hiz, acTest := ac
      bypassBit := false } }

/-- An instruction that takes the pins: while PORST_N holds the core in cold reset with every supply up; otherwise it
acts as BYPASS and TEST_REJ is set, and shown once the core runs (R405). -/
def State.tapTake (s : State) (ir : Byte) (i : TapInstr) (hiz ac : Bool) (cells : Option (List Bool)) : State :=
  if s.tap.coreHeld then
    let s := s.tapSelect ir i (!hiz) hiz ac
    match cells with
    | some c => s.scanUpdate c
    | none => s
  else
    let s := s.tapSelect ir .bypass false false false
    if s.pwr.coreUp then s.fltDo (fun s => s.setb .flt FLT_STATUS 26 true)
    else { s with tap := { s.tap with testRej := true } }

/-- EXTEST (R404, R405): the pins are driven from the boundary register. -/
def execExtest (cells : List Bool) (s : State) : Host.Outcome State Fault Refusal :=
  .next (s.tapTake 0x00#8 .extest false false (some cells))

/-- SAMPLE_PRELOAD (R404): the boundary register is preloaded; the pins stay with the core. -/
def execSamplePreload (cells : List Bool) (s : State) : Host.Outcome State Fault Refusal :=
  .next ((s.tapSelect 0x01#8 .samplePreload false false false).scanUpdate cells)

/-- CLAMP (R404, R405): the pins are held from the boundary register, with the bypass register selected. -/
def execClamp (s : State) : Host.Outcome State Fault Refusal := .next (s.tapTake 0x04#8 .clamp false false none)

/-- HIGHZ (R404, R405). -/
def execHighz (s : State) : Host.Outcome State Fault Refusal := .next (s.tapTake 0x05#8 .highz true false none)

/-- EXTEST_PULSE (R404, R405, R407). -/
def execExtestPulse (cells : List Bool) (s : State) : Host.Outcome State Fault Refusal :=
  .next (s.tapTake 0x06#8 .extestPulse false true (some cells))

/-- EXTEST_TRAIN (R404, R405, R407). -/
def execExtestTrain (cells : List Bool) (s : State) : Host.Outcome State Fault Refusal :=
  .next (s.tapTake 0x07#8 .extestTrain false true (some cells))

/-- IDCODE (R404). -/
def execIdcode (s : State) : Host.Outcome State Fault Refusal := .next (s.tapSelect 0xFE#8 .idcode false false false)

/-- What the instruction register captures (R404). -/
def irCapture : Byte := 0x01#8

/-- Bits of the data register that the selected instruction puts between TDI and TDO (R404). -/
def tapLength (s : State) : Nat :=
  match s.tap.instr with
  | .extest | .samplePreload | .extestPulse | .extestTrain => scanLength
  | .idcode => 32
  | .clamp | .highz | .bypass => 1

/-- The codes of R404 that select another instruction than BYPASS. -/
def tapCodes : List Byte := [0x00#8, 0x01#8, 0x04#8, 0x05#8, 0x06#8, 0x07#8, 0xFE#8]

/-- BYPASS (R404): 0xFF and every code that R404 does not list. -/
def execBypass (code : Byte) (s : State) : Host.Outcome State Fault Refusal :=
  .next (if tapCodes.contains code then s else s.tapSelect code .bypass false false false)

/-- TAP_RESET (R404): IDCODE is selected. -/
def execTapReset (s : State) : Host.Outcome State Fault Refusal := .next (s.tapSelect 0xFE#8 .idcode false false false)

end Sys2Proof.Machine
end

