-- ==== Sys2Proof/Machine/Bus.lean ====
section
/-! DEFINITION. Register access through BAR0 and the Erg window BAR2 (R16, R21 to R27, R257), and the remote access a
target executes (R359): one write and one read of a register, whatever unit it belongs to. -/
namespace Sys2Proof.Machine

/-! ### Writes -/

/-- A write to a lane page, Dunelink port p or span port 24 + p (R77, R82, R96, R98). -/
def State.phyWrite (s : State) (p o a : Nat) (v : Word) : State :=
  if o = 0 then s.ctrlWrite p v
  else if o < 0x100 then s.store .phy a v
  else if o % 0x100 = 0x20 then s.escanWrite p (o / 0x100 - 1) v
  else if o % 0x100 = 0x40 then s.prbsWrite p (o / 0x100 - 1) v
  else if 4 ≤ o % 0x100 ∧ o % 0x100 ≤ 0x14 then s.eqWrite p (o / 0x100 - 1) (o % 0x100) v
  else s.store .phy a v

/-- A write to a link page (R107, R128, R130). -/
def State.lnkWrite (s : State) (p o a : Nat) (v : Word) : State :=
  if o = 0x20 then s.regGo p v
  else if 0x100 ≤ o ∧ o % 0x40 = 0 then s.wr48 .lnk a (a + 4) 0
  else s.store .lnk a v

/-- A write to a stream page (R135, R154 to R156). -/
def State.pixWrite (s : State) (t o a : Nat) (v : Word) : State :=
  if o = 0 then s.pixSrcWrite t v
  else if o < 0x20 then s.pixLockedWrite t a v
  else if o = 0x20 then s.pixArmWrite t v
  else if o = 0x40 then s.pixLoad t v
  else if 0x100 ≤ o ∧ o < 0x300 then s.shadowWrite t o v
  else s.store .pix a v

/-- A write to a stream's object registers (R162, R164). -/
def State.objWrite (s : State) (t o a : Nat) (v : Word) : State :=
  if o ≤ 0x28 then s.objLockedWrite t a v
  else if o = 0x44 then s.put .obj a 28 16 (s.fld .obj a 12 0)
  else if o = 0x48 then s.clsLoad t v
  else s.store .obj a v

/-- A write to the registers all streams' verdicts share (R204, R216). -/
def State.ejtWrite (s : State) (o a : Nat) (v : Word) : State :=
  if o = 0x8 then s.ejtLoad v
  else if o = 0x14 then (if bit v 0 then s.ejtSwap else s)
  else if o = 0x1C then s.put .ejt EJT_PEND_PEAK 16 0 (pendNow s)
  else s.store .ejt a v

/-- A write to a leg's registers (R219, R220, R222). -/
def State.pwmWrite (s : State) (n o a : Nat) (v : Word) : State :=
  if o = 0 then s.pwmCtrlWrite n v
  else if o ≤ 0x14 then s.pwmShadowWrite n (o / 4 - 1) v
  else (s.pwmSettle n (halfNow s)).store .pwm a v

/-- The shortest SSI word period of a port, in ns: the clock burst and the timeout (R50). -/
def ssiLeast (s : State) (n : Nat) : Nat :=
  let c := s.rd .mot (ENC_SSI_CTRL n)
  ssiBits c * (2 * (bits c 25 16 + 1)) * 5 + (s.rd .mot (ENC_SSI_TIMEOUT n)).toNat * 1000

/-- A write to ENC_SSI_PERIOD: clipped to what R50 requires. -/
def State.ssiPeriodWrite (s : State) (n : Nat) (v : Word) : State :=
  let p := bits v 23 0
  let least := ssiLeast s n
  if p < least then (s.wr .mot (ENC_SSI_PERIOD n) (BitVec.ofNat 32 (capNat 0xFFFFFF least))).setb .mot (ENC_STATUS n) 13 true
  else s.store .mot (ENC_SSI_PERIOD n) v

/-- A write to an encoder port's registers (R34, R46, R50). -/
def State.encWrite (s : State) (n o a : Nat) (v : Word) : State :=
  if o = 0 then (s.encCtrlWrite n v).emuAll s
  else if o = 0x1C then (s.encSetWrite n v).emuAll s
  else if o = 0x108 then (s.ssiPeriodWrite n v).emuAll s
  else s.store .mot a v

/-- A write to a trigger generator (R58 to R60). -/
def State.tgWrite (s : State) (g o a : Nat) (v : Word) : State :=
  if o = 0 then s.trgCtrlWrite g v
  else if o = 0x10 then s.trgNextWrite g v
  else s.store .mot a v

/-- A write to a sequencer's registers (R231): X0 to X15 only in STOPPED or HALTED; a peak goes to 0. -/
def State.seqWrite (s : State) (q o a : Nat) (v : Word) : State :=
  if o = 0 then s.seqCtrlWrite q v
  else if 0x10 ≤ o ∧ o ≤ 0x1C then s.wr .seq a 0#32
  else if 0x40 ≤ o ∧ o < 0x80 ∧ seqState s q ≠ 0 ∧ seqState s q ≠ 3 then s.setb .seq (SEQ_STATUS q) 7 true
  else s.store .seq a v

/-- A write to PWR_UNIT_LIM: a FLOOR above CEIL is clipped to CEIL (R36, R369). -/
def State.limWrite (s : State) (a : Nat) (v : Word) : State :=
  let s := s.store .pwr a v
  if s.fld .pwr a 3 2 < s.fld .pwr a 1 0 then
    (s.put .pwr a 1 0 (s.fld .pwr a 3 2)).setb .pwr PWR_STATUS 0 true
  else s

/-- A write to the fault block (R393, R394, R396, R398, R401). -/
def State.fltWrite (s : State) (o a : Nat) (v : Word) : State :=
  if o = 0x4 then s.fltCtrlWrite v
  else if o = 0xC then s.logConsWrite v
  else if o = 0x20 ∨ o = 0x24 then s.mirBaseWrite a v
  else if o = 0x30 then s.mirDoorbell v
  else if o = 0x34 then s.wdogWrite v
  else if o = 0x40 then
    let s := if bit v 0 then s.clearFirst else s
    if bit v 1 then s.clearFatal else s
  else s.store .flt a v

/-- The registers of a client page that an enabled ring or REC_EN locks (R260). -/
def cliLocked (s : State) (c o : Nat) : Bool :=
  if 0x40 ≤ o ∧ o < 0xE0 then decide ((o - 0x40) % 0x20 < 0xC) && s.flag .host (HST_CLI_CTRL c) (31 - (o - 0x40) / 0x20)
  else decide (0x10 ≤ o ∧ o ≤ 0x20) && s.flag .host (HST_CLI_CTRL c) 31

/-- A write to a client page (R259 to R261, R285): a page of an unbound client drops it. -/
def State.cliWrite (s : State) (c o a : Nat) (v : Word) : State :=
  if !bound s c then s
  else if o = 0x4 then s.cliCtrlWrite c v
  else if o = 0xC then s.intmodWrite c v
  else if o = 0x28 then s.cliDmaWrite c v
  else if cliLocked s c o then s.setb .host (HST_CLI_STATUS c) 7 true
  else if 0x40 ≤ o ∧ o < 0xE0 ∧ 0xC ≤ (o - 0x40) % 0x20 then
    let r := (o - 0x40) / 0x20
    let prod := (o - 0x40) % 0x20 = 0xC
    if prod = (r = 1 ∨ r = 4) then s.doorbell c r v else s
  else s.store .host a v

/-- A write to a unit of the blocks at and above 0x00B0_0000 (R24, R28). -/
def State.highWrite (s : State) (u : UnitRow) (n o a : Nat) (v : Word) : State :=
  if u.base = unitDma.base then (if o = 0 then s.chCtrlWrite n v else if o = 8 then s.chRateWrite n v else s.store .dma a v)
  else if u.base = unitQ.base then
    (if !qOk n then s.accessErr 2 (lo32 a) 0#32 else if o = 4 then s.qCtrlWrite n v else s.store .erg a v)
  else if u.base = unitCmp.base then
    (if o = 0 then s.cmpCtrlWrite n v else if o = 0xC then s.cmpSubmit n v else s.store .cmp a v)
  else if u.base = unitProd.base then s.prodWrite n v
  else if u.base = unitCh.base then
    (if o = 0 then s.chWrite n v else if o = 4 then s.rateWrite n v else s.store .evt a v)
  else if u.base = unitCell.base then
    (if o ≤ 4 then s.cellInWrite n a v else if o = 8 then s.cellCtrlWrite n v else s.store .evt a v)
  else if u.base = unitEpub.base then (if o = 4 then s.hostPub v else s.store .evt a v)
  else if u.base = unitCvn.base then (if o = 0x20 then s.rmtWrite v else if o = 0 then (s.store .cvn a v).up2Sync else s.store .cvn a v)
  else if u.base = unitCvy.base then s.phyWrite (24 + n) o a v
  else if u.base = unitPcl.base then s.clCtrlWrite n v
  else if u.base = unitPul.base then s.limWrite a v
  else if u.base = unitPwr.base ∧ o = 8 then s.vregWrite v
  else if u.base = unitMgt.base then
    (if o = 4 then s.ctlWrite v else if o = 0x1C then (if bit v 0 then s.attnSet 3 else s) else s.store .pwr a v)
  else if u.base = unitFlt.base then (if o = 0x38 then s.hostKick else s.fltDo (fun s => s.fltWrite o a v))
  else if u.base = unitCli.base then s.cliWrite n o a v
  else s.store u.blk a v

/-- A write to a register of a unit: page index n, page offset o (R24, R28). -/
def State.unitWrite (s : State) (u : UnitRow) (n o a : Nat) (v : Word) : State :=
  if u.base = unitHst.base then
    (if o = 0x18 then s.onTime (fun t => t.rateWrite v)
    else if o = 0x1C then s.onTime (fun t => t.stepWrite v)
    else if o = 0x20 then s.onTime (fun t => t.ctrlWrite v)
    else s.store .time a v)
  else if u.base = unitMbx.base then
    (if o = 0 then s.mbxCmdWrite v else if 0x10 ≤ o ∧ o < 0x80 then s.mbxArgWrite ((o - 0x10) / 4) v else s.store .host a v)
  else if u.base = unitDlp.base then s.phyWrite n o a v
  else if u.base = unitDlk.base then s.lnkWrite n o a v
  else if u.base = unitPix.base then s.pixWrite n o a v
  else if u.base = unitObj.base then s.objWrite n o a v
  else if u.base = unitEjt.base then s.ejtWrite o a v
  else if u.base = unitEjb.base then (if o = 0 then s.busCtrlWrite n v else s.store .ejt a v)
  else if u.base = unitEjs.base then (if o = 0x10 then s.widenWrite n v else if o = 0xC then s.vrangeWrite n v else s.store .ejt a v)
  else if u.base = unitPwm.base then s.pwmWrite n o a v
  else if u.base = unitPwg.base then
    (if o = 4 then (if bit v 0 then s.pwmGrpClear n else s) else s.store .pwm a v)
  else if u.base = unitEnc.base then s.encWrite n o a v
  else if u.base = unitSnap.base then s.each (idxs 8 (fun k => bit v k)) State.encSnap
  else if u.base = unitMs.base then
    (if o ≤ 4 then s.msInputWrite n (o == 4) v else s.store .mot a v)
  else if u.base = unitTport.base then (if 96 ≤ bits v 6 0 then s else s.store .mot a v)
  else if u.base = unitStq.base then (if o = 0 then s.stampQuery v else s)
  else if u.base = unitTg.base then s.tgWrite n o a v
  else if u.base = unitSeq.base then s.seqWrite n o a v
  else s.highWrite u n o a v

/-- A 32-bit write to a BAR0 address by PF0 (R24, R25): an address with no register sets UNMAPPED. -/
def State.busWrite (s : State) (a : Nat) (v : Word) : State :=
  match regAt a with
  | none => s.accessErr 2 (lo32 a) 0#32
  | some (u, _) => s.unitWrite u (u.index a) ((a - u.base) % u.stride) a v

/-! ### Functions and their windows (R252, R256, R257) -/

/-- Host download stands until FW_LOAD succeeds: only PF0's configuration space, BAR0 and mailbox answer (R252, R378). -/
def hostDownload (s : State) : Bool := (bootMode s == 1 || s.pwr.bootFail) && !s.pwr.fwRuns

/-- The place in the block map that an access to BAR0 of a function reaches: page k of a VF is that of its k-th client, in
ascending client ID (R256, R259). -/
def barPlace (s : State) (fn a : Nat) : Option Nat :=
  if fn = 0 then some a
  else (((boundClients s).filter (fun c => cliFn s c == fn))[a / 0x1000]?).map (fun c =>
    unitCli.base + c * 0x1000 + a % 0x1000)

/-- A segment that BAR2 does not reach: absent, or Apnik's own (R257). -/
def bar2Hidden (s : State) (g : Nat) : Bool := segState s g == 4 || segState s g == 5

/-- A segment that BAR2 writes may not reach: hidden, or a table-copy region of the active image (R257). -/
def bar2Barred (s : State) (g : Nat) : Bool := bar2Hidden s g || (segState s g == 2 && (segOf s g).kind == 8)

/-- A write through BAR2: bytes go past every quota and ownership check, or are dropped with UNMAPPED (R257). -/
def State.bar2Put (s : State) (a : Nat) (bs : List Byte) : State :=
  if hostDownload s || decide (bar2Size < a + bs.length) || bs.isEmpty then s
  else if spanIn (fun g => !bar2Barred s g) a bs.length then s.ergWrite a bs
  else s.accessErr 2 (lo32 a) (BitVec.ofNat 32 (2 ^ 31 + a / 2 ^ 32 % 16))

/-- A write to BAR4 of a function: a word of its MSI-X table; a vector that is unmasked goes out if it is pending
(R256, R263). -/
def State.bar4Write (s : State) (fn a : Nat) (v : Word) : State :=
  if vecEntries s fn * 16 ≤ a then s
  else
    let k := vecKey fn (a / 16) * 4 + a % 16 / 4
    ({ s with host := { s.host with msix := Tab.set msixReset s.host.msix k v } } : State).vectorsDue

/-- A 32-bit read of BAR4 of a function: its MSI-X table at 0, its pending bits at 0x8000 (R256). -/
def bar4Reading (s : State) (fn a : Nat) : Word :=
  let n := vecEntries s fn
  let pending (v : Nat) : Bool := decide (v < n) && Tab.get (fun _ => false) s.host.vecPend (vecKey fn v)
  if a < n * 16 then msixWord s fn (a / 16) (a % 16 / 4)
  else if 0x8000 ≤ a then
    (List.range 32).foldl (fun w k => putBit w k (pending ((a - 0x8000) / 4 * 32 + k))) 0#32
  else 0#32

/-- REGISTER_WRITE (R24, R26, R256): a 32-bit write of a function through one of its windows. -/
def execRegisterWrite (fn : Fin 64) (bar : Bar) (addr : Nat) (v : Word) (s : State) : Host.Outcome State Fault Refusal :=
  .next (match bar with
    | .bar0 =>
      (match barPlace s fn addr with
        | some a => s.busWrite a v
        | none => s.accessErr 2 (lo32 addr) 0#32)
    | .bar2 => if fn.val = 0 then s.bar2Put addr (leBytes 4 v.toNat) else s
    | .bar4 => if hostDownload s then s else s.bar4Write fn addr v)

/-- COUNTER_WRITE (R21): a W1C write to a 32-bit counter. -/
def execCounterWrite (addr : Nat) (v : Word) (s : State) : Host.Outcome State Fault Refusal :=
  .next (match regAt addr with
    | some (_, row) => if row.kind = .counter then s.busWrite addr v else s
    | none => s)

/-- ATTEMPT_COUNTER_WRITE (R22): a write of any value clears a 16-bit attempt counter. -/
def execAttemptCounterWrite (addr : Nat) (v : Word) (s : State) : Host.Outcome State Fault Refusal :=
  .next (match regAt addr with
    | some (_, row) => if row.kind = .attempts then s.busWrite addr v else s
    | none => s)

/-! ### Reads -/

/-- DMA_CH_STATUS: a channel is not PAUSED before its outstanding bursts have ended (R285). -/
def chStatusReading (s : State) (n : Nat) : Word :=
  let v := s.rd .dma (DMA_CH_STATUS n)
  if bits v 31 30 = 2 ∧ chReads s n then putBits v 31 30 1 else v

/-- STATE of a port's power unit as PWR_UNIT_LIM shows it (R369; log 73): QUIET 2; in ACTIVE with no line open 1; else 0. -/
def portLimState (s : State) (p : Nat) : Nat :=
  if portState s p = phQuiet then 2
  else if portState s p = phActive ∧ (List.range 16).all (fun v => (s.vcOf p v).line.isNone) then 1 else 0

/-- HST_CONFIG of the part (R3, R29). -/
def partConfig (p : Part) : Word :=
  match p with
  | .wap24_48C => 0x00300300#32
  | .wap24_48I => 0x00300301#32
  | .wap24_24I => 0x00180101#32

/-- The parts of a register's value that follow other state (R29, R34, R59, R260, R298, R313, R360, R369). -/
def liveReading (s : State) (u : UnitRow) (n o a : Nat) : Word :=
  if u.base = unitHst.base then
    (if o = 0x8 then partConfig s.time.part
    else if o = 0x10 then lo32 s.now
    else if o = 0x14 then hi32 s.now
    else if o = 0x1C then stepReading s.time.stepRem
    else s.rd .time a)
  else if u.base = unitEnc.base then
    (if o = 0x8 then lo32 (s.enc n).pos.toNat else if o = 0xC then hi32 (s.enc n).pos.toNat else s.rd .mot a)
  else if u.base = unitTg.base then
    (if o = 0xC then (nextReading (s.gen n).next).1
    else if o = 0x10 then (nextReading (s.gen n).next).2
    else if o = 0x28 then trgStatus s n
    else s.rd .mot a)
  else if u.base = unitErg.base then
    (if o = 4 then segInfo s (s.fld .erg ERG_SEG_Q 14 0) else if o = 8 then freeSegs s else s.rd .erg a)
  else if u.base = unitStk.base ∧ o = 0 then putBit (s.rd .erg a) 0 (stackPresent s n)
  else if u.base = unitQ.base then
    (if !qOk n then 0#32
    else if o = 8 then putBit (s.rd .erg a) 0 (qRegion s n).isSome
    else if o = 0xC then lo32 (s.ergQ n).popped.toNat
    else if o = 0x10 then hi32 (s.ergQ n).popped.toNat
    else s.rd .erg a)
  else if u.base = unitDma.base ∧ o = 4 then chStatusReading s n
  else if u.base = unitCvp.base ∧ o = 0 then putBit (putBit (s.rd .cvn a) 29 (cvLink s n)) 28 (syncFresh s n)
  else if u.base = unitCell.base ∧ o = 0xC ∧ (evtCell s n).cleared (fabricNow s) then putBit (s.rd .evt a) 0 false
  else if u.base = unitPul.base ∧ 8 ≤ n then putBits (s.rd .pwr a) 5 4 (portLimState s (n - 8))
  else if u.base = unitCli.base then
    (if !bound s n then 0#32
    else if o = 0x2C then
      (match (s.client n).named with
      | some ch => if chBound s ch n then chStatusReading s ch else 0#32
      | none => 0#32)
    else s.rd .host a)
  else s.rd u.blk a

/-- Bits that a read returns: write-only fields and reserved bits read 0 (R24). -/
def RegRow.readable (r : RegRow) : Word :=
  match r.kind with
  | .plain => (r.fields.filter (fun f => f.acc ≠ .wo)).foldl (fun m f => m ||| f.mask) 0#32
  | _ => 0xFFFFFFFF#32

/-- A register's value as a read returns it. -/
def regReading (s : State) (a : Nat) : Word :=
  match regAt a with
  | none => 0#32
  | some (u, row) => liveReading s u (u.index a) ((a - u.base) % u.stride) a &&& row.readable

/-- The low half, by unit and offset, of a 64-bit or 48-bit value split over two registers (R16). -/
def splitLow (u : UnitRow) (o : Nat) : Bool :=
  if u.base = unitHst.base then o == 0x10 || o == 0x28
  else if u.base = unitDlp.base ∨ u.base = unitCvy.base then decide (0x100 ≤ o) && (o % 0x100 == 0x28 || o % 0x100 == 0x48)
  else if u.base = unitDlk.base then decide (0x100 ≤ o) && o % 0x40 == 0
  else if u.base = unitEnc.base then [0x8, 0x18, 0x20, 0x28, 0x30, 0x38].contains o
  else if u.base = unitStq.base then o == 0x4 || o == 0xC
  else if u.base = unitTg.base then o == 0xC
  else if u.base = unitStk.base then o == 0xC
  else if u.base = unitImg.base then o == 0x4
  else if u.base = unitLb.base then o == 0x0 || o == 0x8
  else if u.base = unitCh.base then o == 0x10
  else if u.base = unitOas.base then o == 0x10 || o == 0x18
  else if u.base = unitFlt.base then o == 0x20
  else if u.base = unitCli.base then o == 0x10 || o == 0x18 || (decide (0x40 ≤ o ∧ o < 0xE0) && o % 0x20 == 0)
  else false

/-- The unit of an address has its power off: the lanes, ejection and PWM in STANDBY, a stream page when every
cluster of its tiles is OFF (R27, R361). -/
def poweredOff (s : State) (u : UnitRow) (n : Nat) : Bool :=
  let standby := dstate s == 2
  if u.base = unitPix.base then
    let cs := streamClusters s n
    !cs.isEmpty && cs.all (fun c => clPstate s c == 3)
  else standby && (u.base == unitDlp.base || u.base == unitCvy.base || u.base == unitEjt.base || u.base == unitEjb.base ||
    u.base == unitEjs.base || u.base == unitPwm.base || u.base == unitPwg.base)

/-- The key of a holding register: per function, by the address of the low half (R16). -/
def heldKey (fn a : Nat) : Nat := fn * 2 ^ 32 + a

/-- Latch the high half of a split value for a function (R16). -/
def State.latch (s : State) (fn a : Nat) (hi : Word) : State :=
  { s with time := { s.time with held := Tab.set (fun _ => 0#32) s.time.held (heldKey fn a) hi } }

/-- A 32-bit read through BAR2: 0 where the window does not reach (R257); a poisoned word is returned marked so, its value
free (R304, R307). -/
def State.bar2Read (s : State) (a : Nat) : State :=
  if spanIn (fun g => !bar2Hidden s g) a 4 ∧ a + 4 ≤ bar2Size then
    let t := s.ergMeet a 4
    if ergPoisoned s a 4 then { t.draw with readData := t.drawn 32, readPoisoned := true }
    else t.answer (BitVec.ofNat 32 (ofLe (ergRead s a 4)))
  else s.answer 0#32

/-- The Oasis counter as it is read (R373, R375; log 62): it has gone on from the count last known by a free number of
periods; one that stands still holds its count. -/
def State.rtcCount (s : State) : State :=
  if s.pwr.rtcHeld then s
  else
    let c := (s.rd64 .pwr OAS_RTC_LO OAS_RTC_HI + (s.drawn 48).toNat) % 2 ^ 48
    let s := s.draw.wr64 .pwr OAS_RTC_LO OAS_RTC_HI c
    { s with pwr := { s.pwr with rtcHeld := !s.flag .pwr OAS_STATUS 2 } }

/-- A 32-bit read of a BAR0 address by a function (R16, R24, R25, R27). -/
def State.busRead (s : State) (fn a : Nat) : State :=
  match regAt a with
  | none => s.answer 0#32
  | some (u, row) =>
    let n := u.index a
    let o := (a - u.base) % u.stride
    let s := if u.base = unitPwm.base then s.pwmSettle n (halfNow s) else s
    if row.isStatus && poweredOff s u n then (s.accessErr 3 (lo32 a) 0#32).answer 0#32
    else if u.base = unitQ.base ∧ o = 0xC ∧ qOk n then s.qPop n 0
    else if u.base = unitOas.base ∧ o = 0x10 then
      let s := s.rtcCount
      (s.latch fn a (s.rd .pwr (a + 4))).answer (s.rd .pwr a)
    else if splitLow u o then (s.latch fn a (regReading s (a + 4))).answer (regReading s a)
    else if 4 ≤ o ∧ splitLow u (o - 4) then s.answer (Tab.get (fun _ => 0#32) s.time.held (heldKey fn (a - 4)))
    else s.answer (regReading s a)

/-- SPLIT_LO_READ (R16, R256, R257): a 32-bit read of a function through one of its windows; of the low half of a split
value it latches the high half, and the next read of the high half by the same function returns that. -/
def execSplitLoRead (fn : Fin 64) (bar : Bar) (addr : Nat) (s : State) : Host.Outcome State Fault Refusal :=
  .next (match bar with
    | .bar0 =>
      (match barPlace s fn addr with
        | some a => s.busRead fn a
        | none => s.answer 0#32)
    | .bar2 => if fn.val = 0 ∧ ¬ hostDownload s then s.bar2Read addr else s
    | .bar4 => if hostDownload s then s else s.answer (bar4Reading s fn addr))

/-- OFF_READ (R27): a read of a status register or counter of a unit whose power is off. -/
def execOffRead (addr : Nat) (s : State) : Host.Outcome State Fault Refusal :=
  .next (match regAt addr with
    | some (u, row) =>
      if row.isStatus && poweredOff s u (u.index addr) then (s.accessErr 3 (lo32 addr) 0#32).answer 0#32 else s
    | none => s)

/-- The byte lanes a narrow access names. -/
def laneMask (lanes : BitVec 4) : Word :=
  (List.range 4).foldl (fun m i => if lanes.getLsbD i then m ||| maskOf (8 * i + 7) (8 * i) else m) 0#32

/-- BAD_WIDTH_ACCESS (R25): an access narrower than 32 bits drops a write and returns the lanes of a read. -/
def execBadWidthAccess (write : Bool) (addr : Nat) (lanes : BitVec 4) (s : State) : Host.Outcome State Fault Refusal :=
  .next (if lanes = 0xF#4 then s
    else
      let s := s.accessErr 1 (lo32 addr) 0#32
      if write then (if (regAt addr).isNone then s.accessErr 2 (lo32 addr) 0#32 else s)
      else
        let s := s.busRead 0 addr
        s.answer (s.readData &&& laneMask lanes))

/-- BAR2_WRITE (R257): PF0 writes bytes through the window. -/
def execBar2Write (addr : Nat) (data : List Byte) (s : State) : Host.Outcome State Fault Refusal :=
  .next (s.bar2Put addr data)

/-! ### Remote access at the target (R341, R359) -/

/-- A read of an empty queue that a remote access waits for ends as by its timeout (R314). -/
def State.remoteRead (s : State) (a : Nat) : State :=
  let t := s.busRead 0 a
  let q := unitQ.index a
  if unitQ.has a && (t.ergQ q).readAt.isSome then
    ((t.setQ q { t.ergQ q with readAt := none, popped := BitVec.ofNat 64 (0xE3E3E3E3 * 2 ^ 32) }).setb .erg
      (qAddr q 0x8) 3 true).answer qSentinel
  else t

/-- What an access does at its target, with its code and data (R359). -/
def State.remoteRun (s : State) (msg : CvnMsg) : State × Nat × Word :=
  let addr := match msg with
    | .read a => a
    | .write a _ => a
    | _ => 0
  if !s.flag .cvn CVN_CTRL 31 then (s, 4, 0#32)
  else if 0x1200000 ≤ addr then (s, 2, 0#32)
  else match msg with
    | .write a v => (s.busWrite a v, 0, 0#32)
    | _ => let t := s.remoteRead addr; (t, 0, t.readData)

/-- Whether a message is a remote access. -/
def isAccess (m : CvnMsg) : Bool :=
  match m with
  | .read _ | .write _ _ => true
  | _ => false

/-- Send the response to a request; the request's buffer is held until the response leaves (R341). -/
def State.respond (s : State) (e : InCell) (c : Cell) : State :=
  match cvRoute s s.cvn.cur c.dst with
  | some (some p) => s.cvPut p c e.holds
  | some none => ({ s with cvn := { s.cvn with inbox := s.cvn.inbox ++ [⟨0, c, none⟩] } } : State).bufDone e.holds
  | none => (s.count .cvn CVN_CNT_NOROUTE).bufDone e.holds

/-- Response credit stands towards the requester (R341); a requester without a route waits for none. -/
def canRespond (s : State) (c : Cell) : Bool :=
  match cvRoute s s.cvn.cur c.src with
  | some (some p) => rspCredit s p
  | _ => true

/-- MGT_REQUEST_RX (R359): the oldest request from a port is executed as a PF0 access and answered. -/
def execMgtRequestRx (p : Fin 4) (s : State) : Host.Outcome State Fault Refusal :=
  .next (match s.cvn.inbox.find? (fun e => e.port == p.val && e.cell.cls == 4 && !e.cell.resp && isAccess e.cell.msg) with
    | some e =>
      if !canRespond s e.cell then s
      else
        let s : State := { s with cvn := { s.cvn with inbox := s.cvn.inbox.erase e } }
        let r := s.remoteRun e.cell.msg
        r.1.respond e (newCell r.1 4 true false e.cell.src [] (.response r.2.1 r.2.2))
    | none => s)

end Sys2Proof.Machine
end

