-- ==== Sys2Proof/Machine/Dispatch.lean ====
section
/-! DEFINITION. What each command does: one arm per constructor of Instr, one direct call of its meaning. -/
namespace Sys2Proof.Machine

/-- The effect of a command on everything but the queue. -/
def exec (i : Instr) (s : State) : Host.Outcome State Fault Refusal :=
  match i with
  | .coldReset => Sys2Proof.Machine.execColdReset s
  | .warmReset wdog ref => Sys2Proof.Machine.execWarmReset wdog ref s
  | .functionLevelReset fn => Sys2Proof.Machine.execFunctionLevelReset fn s
  | .tbAdvance => Sys2Proof.Machine.execTbAdvance s
  | .slewEnd => Sys2Proof.Machine.execSlewEnd s
  | .tbRateWrite v => Sys2Proof.Machine.execTbRateWrite v s
  | .tbStepWrite v => Sys2Proof.Machine.execTbStepWrite v s
  | .ppsArm => Sys2Proof.Machine.execPpsArm s
  | .discWrite disc => Sys2Proof.Machine.execDiscWrite disc s
  | .ppsCapture => Sys2Proof.Machine.execPpsCapture s
  | .splitLoRead fn bar addr => Sys2Proof.Machine.execSplitLoRead fn bar addr s
  | .counterWrite addr v => Sys2Proof.Machine.execCounterWrite addr v s
  | .attemptCounterWrite addr v => Sys2Proof.Machine.execAttemptCounterWrite addr v s
  | .registerWrite fn bar addr v => Sys2Proof.Machine.execRegisterWrite fn bar addr v s
  | .badWidthAccess write addr lanes => Sys2Proof.Machine.execBadWidthAccess write addr lanes s
  | .unmappedWrite addr v => Sys2Proof.Machine.execUnmappedWrite addr v s
  | .accessErrClear v => Sys2Proof.Machine.execAccessErrClear v s
  | .offRead addr => Sys2Proof.Machine.execOffRead addr s
  | .encModeWrite n v => Sys2Proof.Machine.execEncModeWrite n v s
  | .encTransition n => Sys2Proof.Machine.execEncTransition n s
  | .encRawEdge n pin => Sys2Proof.Machine.execEncRawEdge n pin s
  | .encWindowEnd n => Sys2Proof.Machine.execEncWindowEnd n s
  | .encIndex n => Sys2Proof.Machine.execEncIndex n s
  | .encSnap v => Sys2Proof.Machine.execEncSnap v s
  | .encSet n v => Sys2Proof.Machine.execEncSet n v s
  | .speedUpdate n => Sys2Proof.Machine.execSpeedUpdate n s
  | .standstillTimeout n => Sys2Proof.Machine.execStandstillTimeout n s
  | .ssiWordStart n dataHigh => Sys2Proof.Machine.execSsiWordStart n dataHigh s
  | .ssiWordEnd n word delay returnedHigh => Sys2Proof.Machine.execSsiWordEnd n word delay returnedHigh s
  | .msOffsetTrack m => Sys2Proof.Machine.execMsOffsetTrack m s
  | .msInputWrite m sec v => Sys2Proof.Machine.execMsInputWrite m sec v s
  | .msHoldEnd m => Sys2Proof.Machine.execMsHoldEnd m s
  | .triggerDue g => Sys2Proof.Machine.execTriggerDue g s
  | .trgCtrlWrite g v => Sys2Proof.Machine.execTrgCtrlWrite g v s
  | .trgNextWrite g v => Sys2Proof.Machine.execTrgNextWrite g v s
  | .trgPortWrite p v => Sys2Proof.Machine.execTrgPortWrite p v s
  | .trigPinEdge k level first => Sys2Proof.Machine.execTrigPinEdge k level first s
  | .trigPinPulseEnd k => Sys2Proof.Machine.execTrigPinPulseEnd k s
  | .stampQuery v => Sys2Proof.Machine.execStampQuery v s
  | .portEnWrite p v => Sys2Proof.Machine.execPortEnWrite p v s
  | .retrain p => Sys2Proof.Machine.execRetrain p s
  | .bcTrainingFrame p => Sys2Proof.Machine.execBcTrainingFrame p s
  | .rxTrainingFrame p lane status crc inverted request => Sys2Proof.Machine.execRxTrainingFrame p lane status crc inverted request s
  | .sigDetected p lane => Sys2Proof.Machine.execSigDetected p lane s
  | .cdrLock p lane => Sys2Proof.Machine.execCdrLock p lane s
  | .coefTimeout p => Sys2Proof.Machine.execCoefTimeout p s
  | .tuneStepEnd p eyes up => Sys2Proof.Machine.execTuneStepEnd p eyes up s
  | .deskewDone p => Sys2Proof.Machine.execDeskewDone p s
  | .trainTimeout p => Sys2Proof.Machine.execTrainTimeout p s
  | .backoffEnd p => Sys2Proof.Machine.execBackoffEnd p s
  | .unplug p lane => Sys2Proof.Machine.execUnplug p lane s
  | .adaptUpdate p lane moves => Sys2Proof.Machine.execAdaptUpdate p lane moves s
  | .eqRegWrite p lane reg v => Sys2Proof.Machine.execEqRegWrite p lane reg v s
  | .linkRecover p lane loss => Sys2Proof.Machine.execLinkRecover p lane loss s
  | .recoverDone p => Sys2Proof.Machine.execRecoverDone p s
  | .dlRefclkLoss r => Sys2Proof.Machine.execDlRefclkLoss r s
  | .dlRefclkReturn r => Sys2Proof.Machine.execDlRefclkReturn r s
  | .quietAckTimeout p => Sys2Proof.Machine.execQuietAckTimeout p s
  | .quietExit p how => Sys2Proof.Machine.execQuietExit p how s
  | .quietExitDone p => Sys2Proof.Machine.execQuietExitDone p s
  | .escanStart p lane v => Sys2Proof.Machine.execEscanStart p lane v s
  | .escanAbort p lane samples => Sys2Proof.Machine.execEscanAbort p lane samples s
  | .escanDone p lane samples => Sys2Proof.Machine.execEscanDone p lane samples s
  | .prbsCtrlWrite p lane v => Sys2Proof.Machine.execPrbsCtrlWrite p lane v s
  | .prbsLock p lane decisions => Sys2Proof.Machine.execPrbsLock p lane decisions s
  | .prbsUnlock p lane decisions => Sys2Proof.Machine.execPrbsUnlock p lane decisions s
  | .rxCodeword p lane decisions => Sys2Proof.Machine.execRxCodeword p lane decisions s
  | .rxMarkerGroup p lane decisions before place arrival => Sys2Proof.Machine.execRxMarkerGroup p lane decisions before place arrival s
  | .fecCwClear p lane => Sys2Proof.Machine.execFecCwClear p lane s
  | .rxBlock p => Sys2Proof.Machine.execRxBlock p s
  | .rxPacket p => Sys2Proof.Machine.execRxPacket p s
  | .rxLctl p => Sys2Proof.Machine.execRxLctl p s
  | .bcBlock p => Sys2Proof.Machine.execBcBlock p s
  | .regGo p v => Sys2Proof.Machine.execRegGo p v s
  | .regTimeout p => Sys2Proof.Machine.execRegTimeout p s
  | .pixSrcWrite t v => Sys2Proof.Machine.execPixSrcWrite t v s
  | .streamLineJoin t => Sys2Proof.Machine.execStreamLineJoin t s
  | .joinTimeout t => Sys2Proof.Machine.execJoinTimeout t s
  | .pipelineLine t => Sys2Proof.Machine.execPipelineLine t s
  | .pixArm t => Sys2Proof.Machine.execPixArm t s
  | .pixDisarm t => Sys2Proof.Machine.execPixDisarm t s
  | .shadowWrite t k v => Sys2Proof.Machine.execShadowWrite t k v s
  | .pixTblLoad t v => Sys2Proof.Machine.execPixTblLoad t v s
  | .pixTblLoadDone t => Sys2Proof.Machine.execPixTblLoadDone t s
  | .clsTblLoad t v => Sys2Proof.Machine.execClsTblLoad t v s
  | .clsTblLoadDone t => Sys2Proof.Machine.execClsTblLoadDone t s
  | .objOpenWrite t => Sys2Proof.Machine.execObjOpenWrite t s
  | .viewForm t err => Sys2Proof.Machine.execViewForm t err s
  | .pairWaitExpired t => Sys2Proof.Machine.execPairWaitExpired t s
  | .cutoutWriteStart t => Sys2Proof.Machine.execCutoutWriteStart t s
  | .cutoutWriteDone t => Sys2Proof.Machine.execCutoutWriteDone t s
  | .cutoutLate t => Sys2Proof.Machine.execCutoutLate t s
  | .recordRelease t => Sys2Proof.Machine.execRecordRelease t s
  | .hostVerdict => Sys2Proof.Machine.execHostVerdict s
  | .decisionPoint h => Sys2Proof.Machine.execDecisionPoint h s
  | .settledCopy h => Sys2Proof.Machine.execSettledCopy h s
  | .pendingExpire h => Sys2Proof.Machine.execPendingExpire h s
  | .ejtTblLoad v => Sys2Proof.Machine.execEjtTblLoad v s
  | .ejtTblLoadDone => Sys2Proof.Machine.execEjtTblLoadDone s
  | .ejtTblSwap v => Sys2Proof.Machine.execEjtTblSwap v s
  | .ejtPendPeakWrite => Sys2Proof.Machine.execEjtPendPeakWrite s
  | .ejFrame n => Sys2Proof.Machine.execEjFrame n s
  | .ejSlotMiss n => Sys2Proof.Machine.execEjSlotMiss n s
  | .ejReturnFrame n frame => Sys2Proof.Machine.execEjReturnFrame n frame s
  | .ejRetLost n => Sys2Proof.Machine.execEjRetLost n s
  | .pwmReload n => Sys2Proof.Machine.execPwmReload n s
  | .pwmStrobeEvent n => Sys2Proof.Machine.execPwmStrobeEvent n s
  | .pwmCycleEnd n => Sys2Proof.Machine.execPwmCycleEnd n s
  | .pwmShadowWrite n k v => Sys2Proof.Machine.execPwmShadowWrite n k v s
  | .pwmOc n level first => Sys2Proof.Machine.execPwmOc n level first s
  | .pwmSc n level first => Sys2Proof.Machine.execPwmSc n level first s
  | .pwmClear n => Sys2Proof.Machine.execPwmClear n s
  | .pwmGrpClear g => Sys2Proof.Machine.execPwmGrpClear g s
  | .stripSlot q => Sys2Proof.Machine.execStripSlot q s
  | .lineSlot q => Sys2Proof.Machine.execLineSlot q s
  | .eventSlot q => Sys2Proof.Machine.execEventSlot q s
  | .tickSlot q => Sys2Proof.Machine.execTickSlot q s
  | .slotBudgetExpired q => Sys2Proof.Machine.execSlotBudgetExpired q s
  | .nop q => Sys2Proof.Machine.execNop q s
  | .endSlot q => Sys2Proof.Machine.execEndSlot q s
  | .movi q d imm => Sys2Proof.Machine.execMovi q d imm s
  | .mov q d a => Sys2Proof.Machine.execMov q d a s
  | .addi q d a imm => Sys2Proof.Machine.execAddi q d a imm s
  | .add q d a b => Sys2Proof.Machine.execAdd q d a b s
  | .sub q d a b => Sys2Proof.Machine.execSub q d a b s
  | .adds q d a imm => Sys2Proof.Machine.execAdds q d a imm s
  | .and q d a b => Sys2Proof.Machine.execAnd q d a b s
  | .or q d a b => Sys2Proof.Machine.execOr q d a b s
  | .xor q d a b => Sys2Proof.Machine.execXor q d a b s
  | .shl q d a n => Sys2Proof.Machine.execShl q d a n s
  | .shr q d a n => Sys2Proof.Machine.execShr q d a n s
  | .andi q d a imm => Sys2Proof.Machine.execAndi q d a imm s
  | .lds q d t sel arg => Sys2Proof.Machine.execLds q d t sel arg s
  | .stamp q d => Sys2Proof.Machine.execStamp q d s
  | .br q t => Sys2Proof.Machine.execBr q t s
  | .bcmp q a b t cond k imm => Sys2Proof.Machine.execBcmp q a b t cond k imm s
  | .bbs q a t n => Sys2Proof.Machine.execBbs q a t n s
  | .bbc q a t n => Sys2Proof.Machine.execBbc q a t n s
  | .bev q t consume k => Sys2Proof.Machine.execBev q t consume k s
  | .loop q t n => Sys2Proof.Machine.execLoop q t n s
  | .waitev q t limit consume k => Sys2Proof.Machine.execWaitev q t limit consume k s
  | .waitevTimeout q t limit consume k => Sys2Proof.Machine.execWaitevTimeout q t limit consume k s
  | .trig q t delay => Sys2Proof.Machine.execTrig q t delay s
  | .arm q t disarm => Sys2Proof.Machine.execArm q t disarm s
  | .ctx q t ctxNo => Sys2Proof.Machine.execCtx q t ctxNo s
  | .shw q t a k => Sys2Proof.Machine.execShw q t a k s
  | .route q t index kind => Sys2Proof.Machine.execRoute q t index kind s
  | .dmaq q a b psrc pdst tmpl ch => Sys2Proof.Machine.execDmaq q a b psrc pdst tmpl ch s
  | .pub q a ch => Sys2Proof.Machine.execPub q a ch s
  | .trace q a imm => Sys2Proof.Machine.execTrace q a imm s
  | .seqIllegal q => Sys2Proof.Machine.execSeqIllegal q s
  | .seqEcc q double => Sys2Proof.Machine.execSeqEcc q double s
  | .seqRestart q hof => Sys2Proof.Machine.execSeqRestart q hof s
  | .seqInit q hof => Sys2Proof.Machine.execSeqInit q hof s
  | .seqPeakWrite q kind => Sys2Proof.Machine.execSeqPeakWrite q kind s
  | .imgLoad => Sys2Proof.Machine.execImgLoad s
  | .imgSwap => Sys2Proof.Machine.execImgSwap s
  | .swapTblCopyDone => Sys2Proof.Machine.execSwapTblCopyDone s
  | .seqBankSwitch q => Sys2Proof.Machine.execSeqBankSwitch q s
  | .pcieReady cfg => Sys2Proof.Machine.execPcieReady cfg s
  | .pcieLinkDown => Sys2Proof.Machine.execPcieLinkDown s
  | .pcieLinkUp cfg => Sys2Proof.Machine.execPcieLinkUp cfg s
  | .pcieRefclkLoss => Sys2Proof.Machine.execPcieRefclkLoss s
  | .pcieRefclkReturn => Sys2Proof.Machine.execPcieRefclkReturn s
  | .bar2Write addr data => Sys2Proof.Machine.execBar2Write addr data s
  | .reset => Sys2Proof.Machine.execReset s
  | .streamReset => Sys2Proof.Machine.execStreamReset s
  | .clientBind numVfs => Sys2Proof.Machine.execClientBind numVfs s
  | .clientUnbind => Sys2Proof.Machine.execClientUnbind s
  | .quotaSet => Sys2Proof.Machine.execQuotaSet s
  | .chanBind => Sys2Proof.Machine.execChanBind s
  | .funcVectors vfEnable => Sys2Proof.Machine.execFuncVectors vfEnable s
  | .portCtrl => Sys2Proof.Machine.execPortCtrl s
  | .power => Sys2Proof.Machine.execPower s
  | .keyProgram => Sys2Proof.Machine.execKeyProgram s
  | .fwLoad authentic => Sys2Proof.Machine.execFwLoad authentic s
  | .ergAlloc => Sys2Proof.Machine.execErgAlloc s
  | .ergFree => Sys2Proof.Machine.execErgFree s
  | .ergPin => Sys2Proof.Machine.execErgPin s
  | .ergUnpin => Sys2Proof.Machine.execErgUnpin s
  | .lookbackGet => Sys2Proof.Machine.execLookbackGet s
  | .spanEnum => Sys2Proof.Machine.execSpanEnum s
  | .mbxUnknownOpcode => Sys2Proof.Machine.execMbxUnknownOpcode s
  | .mbxBusyWrite => Sys2Proof.Machine.execMbxBusyWrite s
  | .mbxDone => Sys2Proof.Machine.execMbxDone s
  | .mbxTimeout => Sys2Proof.Machine.execMbxTimeout s
  | .clientCtrlWrite c v => Sys2Proof.Machine.execClientCtrlWrite c v s
  | .consDoorbell c r v => Sys2Proof.Machine.execConsDoorbell c r v s
  | .verdictDoorbell c v => Sys2Proof.Machine.execVerdictDoorbell c v s
  | .descDoorbell c v => Sys2Proof.Machine.execDescDoorbell c v s
  | .dmaPause ch => Sys2Proof.Machine.execDmaPause ch s
  | .dmaUnpause ch => Sys2Proof.Machine.execDmaUnpause ch s
  | .dmaResume ch => Sys2Proof.Machine.execDmaResume ch s
  | .dmaAbort ch => Sys2Proof.Machine.execDmaAbort ch s
  | .dmaCmdReject c v => Sys2Proof.Machine.execDmaCmdReject c v s
  | .heartbeat c => Sys2Proof.Machine.execHeartbeat c s
  | .intTimeExpire c => Sys2Proof.Machine.execIntTimeExpire c s
  | .recordDeliver t => Sys2Proof.Machine.execRecordDeliver t s
  | .gapWrite c r => Sys2Proof.Machine.execGapWrite c r s
  | .stagingHoldExpire t => Sys2Proof.Machine.execStagingHoldExpire t s
  | .dataCopyDone t stat => Sys2Proof.Machine.execDataCopyDone t stat s
  | .verdictFetch c entries late => Sys2Proof.Machine.execVerdictFetch c entries late s
  | .descFetch c desc late => Sys2Proof.Machine.execDescFetch c desc late s
  | .dmaBurst ch len data late => Sys2Proof.Machine.execDmaBurst ch len data late s
  | .dmaRequestFail ch cause => Sys2Proof.Machine.execDmaRequestFail ch cause s
  | .dmaComplete ch => Sys2Proof.Machine.execDmaComplete ch s
  | .segmentZeroDone seg => Sys2Proof.Machine.execSegmentZeroDone seg s
  | .ergScrubBlock addr err => Sys2Proof.Machine.execErgScrubBlock addr err s
  | .ergWriteFail addr w => Sys2Proof.Machine.execErgWriteFail addr w s
  | .stackFail k training => Sys2Proof.Machine.execStackFail k training s
  | .queueFlush q => Sys2Proof.Machine.execQueueFlush q s
  | .queueHostpopWrite q v => Sys2Proof.Machine.execQueueHostpopWrite q v s
  | .queuePop q err => Sys2Proof.Machine.execQueuePop q err s
  | .queuePopTimeout q => Sys2Proof.Machine.execQueuePopTimeout q s
  | .cmpSubmit e v => Sys2Proof.Machine.execCmpSubmit e v s
  | .cmpJobStart e => Sys2Proof.Machine.execCmpJobStart e s
  | .cmpJobEnd e raw => Sys2Proof.Machine.execCmpJobEnd e raw s
  | .cmpFlush e => Sys2Proof.Machine.execCmpFlush e s
  | .cmpAbort e => Sys2Proof.Machine.execCmpAbort e s
  | .evtProdWrite id v => Sys2Proof.Machine.execEvtProdWrite id v s
  | .evtPub v => Sys2Proof.Machine.execEvtPub v s
  | .evtChCtrlWrite c v => Sys2Proof.Machine.execEvtChCtrlWrite c v s
  | .evtLock c => Sys2Proof.Machine.execEvtLock c s
  | .evtRateWrite c v => Sys2Proof.Machine.execEvtRateWrite c v s
  | .eventEnter c => Sys2Proof.Machine.execEventEnter c s
  | .eventDeliver c => Sys2Proof.Machine.execEventDeliver c s
  | .evtWatchExpire c => Sys2Proof.Machine.execEvtWatchExpire c s
  | .cellEval k => Sys2Proof.Machine.execCellEval k s
  | .cellStuck k => Sys2Proof.Machine.execCellStuck k s
  | .cvnCellTx p fine => Sys2Proof.Machine.execCvnCellTx p fine s
  | .cvnIdleSync p => Sys2Proof.Machine.execCvnIdleSync p s
  | .cvnCellRx p msg fine => Sys2Proof.Machine.execCvnCellRx p msg fine s
  | .cvnLinkLost p how => Sys2Proof.Machine.execCvnLinkLost p how s
  | .reroute p => Sys2Proof.Machine.execReroute p s
  | .cvRefclkLoss => Sys2Proof.Machine.execCvRefclkLoss s
  | .cvRefclkReturn => Sys2Proof.Machine.execCvRefclkReturn s
  | .enumAutoStart => Sys2Proof.Machine.execEnumAutoStart s
  | .change => Sys2Proof.Machine.execChange s
  | .probe p => Sys2Proof.Machine.execProbe p s
  | .probeTimeout => Sys2Proof.Machine.execProbeTimeout s
  | .token p => Sys2Proof.Machine.execToken p s
  | .enumReturn p => Sys2Proof.Machine.execEnumReturn p s
  | .progress => Sys2Proof.Machine.execProgress s
  | .enumBranchAbort => Sys2Proof.Machine.execEnumBranchAbort s
  | .commit p => Sys2Proof.Machine.execCommit p s
  | .enumSwitch => Sys2Proof.Machine.execEnumSwitch s
  | .routeTableExpire => Sys2Proof.Machine.execRouteTableExpire s
  | .syncReqSend p => Sys2Proof.Machine.execSyncReqSend p s
  | .syncReqRx p => Sys2Proof.Machine.execSyncReqRx p s
  | .syncExchange p => Sys2Proof.Machine.execSyncExchange p s
  | .tbHoldover => Sys2Proof.Machine.execTbHoldover s
  | .posExport n => Sys2Proof.Machine.execPosExport n s
  | .posRx p => Sys2Proof.Machine.execPosRx p s
  | .posInputTimeout dev n => Sys2Proof.Machine.execPosInputTimeout dev n s
  | .evtCellRx p => Sys2Proof.Machine.execEvtCellRx p s
  | .objCellRx p => Sys2Proof.Machine.execObjCellRx p s
  | .handoverEnter => Sys2Proof.Machine.execHandoverEnter s
  | .rmtGo v => Sys2Proof.Machine.execRmtGo v s
  | .mgtRequestRx p => Sys2Proof.Machine.execMgtRequestRx p s
  | .mgtResponseRx p => Sys2Proof.Machine.execMgtResponseRx p s
  | .rmtTimeout => Sys2Proof.Machine.execRmtTimeout s
  | .pwrPredict u => Sys2Proof.Machine.execPwrPredict u s
  | .pwrExitStart u => Sys2Proof.Machine.execPwrExitStart u s
  | .pwrExitDone u => Sys2Proof.Machine.execPwrExitDone u s
  | .clusterOpWrite c v => Sys2Proof.Machine.execClusterOpWrite c v s
  | .clusterOpStep ok => Sys2Proof.Machine.execClusterOpStep ok s
  | .powerEntryDone => Sys2Proof.Machine.execPowerEntryDone s
  | .standbyExit => Sys2Proof.Machine.execStandbyExit s
  | .oasWake src sameMs => Sys2Proof.Machine.execOasWake src sameMs s
  | .pgUp k => Sys2Proof.Machine.execPgUp k s
  | .pgTimeout => Sys2Proof.Machine.execPgTimeout s
  | .pgLost k => Sys2Proof.Machine.execPgLost k s
  | .powerDownStep => Sys2Proof.Machine.execPowerDownStep s
  | .vaonPor on => Sys2Proof.Machine.execVaonPor on s
  | .coreResetRelease straps => Sys2Proof.Machine.execCoreResetRelease straps s
  | .bootDone => Sys2Proof.Machine.execBootDone s
  | .firmwareAuth ok1 ok2 => Sys2Proof.Machine.execFirmwareAuth ok1 ok2 s
  | .i2cTargetWrite addr data => Sys2Proof.Machine.execI2cTargetWrite addr data s
  | .i2cTargetRead addr n => Sys2Proof.Machine.execI2cTargetRead addr n s
  | .standby => Sys2Proof.Machine.execStandby s
  | .deep => Sys2Proof.Machine.execDeep s
  | .deepWithRtcKeep => Sys2Proof.Machine.execDeepWithRtcKeep s
  | .run => Sys2Proof.Machine.execRun s
  | .i2cStandbyMatch ready => Sys2Proof.Machine.execI2cStandbyMatch ready s
  | .attnRaise => Sys2Proof.Machine.execAttnRaise s
  | .attnRetry => Sys2Proof.Machine.execAttnRetry s
  | .mboxOutDone v => Sys2Proof.Machine.execMboxOutDone v s
  | .i2cCtlGo v => Sys2Proof.Machine.execI2cCtlGo v s
  | .i2cCtlDone result data => Sys2Proof.Machine.execI2cCtlDone result data s
  | .i2cArbLost => Sys2Proof.Machine.execI2cArbLost s
  | .i2cSclTimeout stuck => Sys2Proof.Machine.execI2cSclTimeout stuck s
  | .faultReport domain code inst detail => Sys2Proof.Machine.execFaultReport domain code inst detail s
  | .fltLogConsWrite v => Sys2Proof.Machine.execFltLogConsWrite v s
  | .fltMirrorMove => Sys2Proof.Machine.execFltMirrorMove s
  | .fltMirDoorbell v => Sys2Proof.Machine.execFltMirDoorbell v s
  | .fltClearFirst => Sys2Proof.Machine.execFltClearFirst s
  | .fltClearFatal => Sys2Proof.Machine.execFltClearFatal s
  | .hostKick => Sys2Proof.Machine.execHostKick s
  | .hostSilent => Sys2Proof.Machine.execHostSilent s
  | .mgmtWdog pc => Sys2Proof.Machine.execMgmtWdog pc s
  | .wdogWarmReset => Sys2Proof.Machine.execWdogWarmReset s
  | .refclkSysLoss => Sys2Proof.Machine.execRefclkSysLoss s
  | .tbPllLoss => Sys2Proof.Machine.execTbPllLoss s
  | .thermalWarn tj => Sys2Proof.Machine.execThermalWarn tj s
  | .thermalTrip tj => Sys2Proof.Machine.execThermalTrip tj s
  | .verdictEcc table entry => Sys2Proof.Machine.execVerdictEcc table entry s
  | .nocEcc router vc => Sys2Proof.Machine.execNocEcc router vc s
  | .nocPriorityOverrun router vc => Sys2Proof.Machine.execNocPriorityOverrun router vc s
  | .extest cells => Sys2Proof.Machine.execExtest cells s
  | .samplePreload cells => Sys2Proof.Machine.execSamplePreload cells s
  | .clamp => Sys2Proof.Machine.execClamp s
  | .highz => Sys2Proof.Machine.execHighz s
  | .extestPulse cells => Sys2Proof.Machine.execExtestPulse cells s
  | .extestTrain cells => Sys2Proof.Machine.execExtestTrain cells s
  | .idcode => Sys2Proof.Machine.execIdcode s
  | .bypass code => Sys2Proof.Machine.execBypass code s
  | .tapReset => Sys2Proof.Machine.execTapReset s
  | .quietExitTimeout p => Sys2Proof.Machine.execQuietExitTimeout p s
  | .indexInactive n => Sys2Proof.Machine.execIndexInactive n s
  | .attnPulse ok => Sys2Proof.Machine.execAttnPulse ok s

end Sys2Proof.Machine
end

