-- ==== Sys2Proof/Safety.lean ====
section
/-! DEFINITION. What counts as a sound state and a well-behaved step of Apnik, in the terms the statements use. -/
namespace Sys2Proof.Machine

/-- The timebase is sound: the accumulator has 32 bits (R12), the rate stands within its limits (R13), SLEW_BUSY is 1
exactly while a step remains, and the remaining step has a reading (R14). -/
abbrev TimeSt.ok (t : TimeSt) : Prop :=
  t.frac < 2 ^ 32 ∧ -rateLimit ≤ (rget t.regs HST_TB_RATE).toInt ∧ (rget t.regs HST_TB_RATE).toInt ≤ rateLimit ∧
    bit (rget t.regs HST_TB_STATUS) 3 = decide (t.stepRem ≠ 0) ∧ t.stepRem.natAbs ≤ 2 ^ 31 * 1024

/-- Erg memory and host memory stand in their canonical form. -/
abbrev State.memWf (s : State) : Prop :=
  Tab.wf (fun _ => (0#8 : Byte)) s.erg.mem = true ∧ Tab.wf (fun _ => (0#8 : Byte)) s.host.mem = true

/-- Commands that start TB anew: the cold resets, the loss of the core's supply and the release of the core (R11,
R376). -/
def startsTb : Instr → Bool
  | .coldReset => true
  | .vaonPor _ => true
  | .pgLost _ => true
  | .powerEntryDone => true
  | .coreResetRelease _ => true
  | _ => false

/-- A warm reset has run (R31): TB, the accumulator and every RWS bit stay, the remaining step and PPS_ARM are dropped,
STATE follows DISC, the reset's own bit of HST_RESET_CAUSE is set with those of the
resets that waited; images, look-back and the waiting work of the stages are
gone; the bytes of the Erg and host memory stay. -/
def WarmlyReset (cause : Nat) (s t : State) : Prop :=
  t.now = s.now ∧ t.time.frac = s.time.frac ∧ t.time.stepRem = 0 ∧ t.rd .time HST_TB_RATE = s.rd .time HST_TB_RATE ∧
  (∀ i, i < 2 → t.flag .time HST_TB_CTRL i = s.flag .time HST_TB_CTRL i) ∧ t.flag .time HST_TB_CTRL 2 = false ∧
  t.fld .time HST_TB_STATUS 1 0 = (if s.flag .time HST_TB_CTRL 0 then 3 else 0) ∧ t.flag .time HST_TB_STATUS 3 = false ∧
  (∀ i, i < 4 → t.flag .time HST_RESET_CAUSE i =
    (s.flag .time HST_RESET_CAUSE i || i == cause || s.time.warmWait.contains i)) ∧ t.time.warmWait = [] ∧
  t.seq.active = none ∧ t.seq.unit = [] ∧ t.pix.stream = [] ∧ t.ejt.recs = [] ∧ t.dma.ch = [] ∧ t.erg.lb = [] ∧
  t.erg.q = [] ∧ t.erg.mem = s.erg.mem ∧ t.host.mem = s.host.mem ∧ t.host.mbx = none ∧ t.pending = s.pending

/-- Everything outside the named blocks is as before, with the queue of commands, the TAP, the read data and the
count of free values; State.tally alone, the model's own note of what this cycle has counted, is not told. -/
def Kept (bs : List Blk) (s t : State) : Prop :=
  (Blk.time ∉ bs → t.time = s.time) ∧ (Blk.mot ∉ bs → t.mot = s.mot) ∧ (Blk.phy ∉ bs → t.phy = s.phy) ∧
  (Blk.lnk ∉ bs → t.lnk = s.lnk) ∧ (Blk.pix ∉ bs → t.pix = s.pix) ∧ (Blk.obj ∉ bs → t.obj = s.obj) ∧
  (Blk.ejt ∉ bs → t.ejt = s.ejt) ∧ (Blk.pwm ∉ bs → t.pwm = s.pwm) ∧ (Blk.seq ∉ bs → t.seq = s.seq) ∧
  (Blk.host ∉ bs → t.host = s.host) ∧ (Blk.dma ∉ bs → t.dma = s.dma) ∧ (Blk.erg ∉ bs → t.erg = s.erg) ∧
  (Blk.cmp ∉ bs → t.cmp = s.cmp) ∧ (Blk.evt ∉ bs → t.evt = s.evt) ∧ (Blk.cvn ∉ bs → t.cvn = s.cvn) ∧
  (Blk.pwr ∉ bs → t.pwr = s.pwr) ∧ (Blk.flt ∉ bs → t.flt = s.flt) ∧
  t.tap = s.tap ∧ t.readData = s.readData ∧ t.readPoisoned = s.readPoisoned ∧ t.free = s.free ∧ t.pending = s.pending

/-- Every block outside the named ones is as before, with the TAP and the queue of commands; free values may have been drawn
and read data may have been answered. -/
def BlocksKept (bs : List Blk) (s t : State) : Prop :=
  (Blk.time ∉ bs → t.time = s.time) ∧ (Blk.mot ∉ bs → t.mot = s.mot) ∧ (Blk.phy ∉ bs → t.phy = s.phy) ∧
  (Blk.lnk ∉ bs → t.lnk = s.lnk) ∧ (Blk.pix ∉ bs → t.pix = s.pix) ∧ (Blk.obj ∉ bs → t.obj = s.obj) ∧
  (Blk.ejt ∉ bs → t.ejt = s.ejt) ∧ (Blk.pwm ∉ bs → t.pwm = s.pwm) ∧ (Blk.seq ∉ bs → t.seq = s.seq) ∧
  (Blk.host ∉ bs → t.host = s.host) ∧ (Blk.dma ∉ bs → t.dma = s.dma) ∧ (Blk.erg ∉ bs → t.erg = s.erg) ∧
  (Blk.cmp ∉ bs → t.cmp = s.cmp) ∧ (Blk.evt ∉ bs → t.evt = s.evt) ∧ (Blk.cvn ∉ bs → t.cvn = s.cvn) ∧
  (Blk.pwr ∉ bs → t.pwr = s.pwr) ∧ (Blk.flt ∉ bs → t.flt = s.flt) ∧ t.tap = s.tap ∧ t.pending = s.pending

/-- Every register of a block but the named ones reads as before. -/
def RegsKept (b : Blk) (as : List Nat) (s t : State) : Prop := ∀ a, a ∉ as → t.rd b a = s.rd b a

/-- A port's training failed (R85): STATE reads DETECT with BACKOFF, CAUSE is the failure's, k went up by one to at most 15,
and back-off ends 16 ms * 2^min(k - 1, 6) from now. -/
def FailedTraining (p cause : Nat) (s t : State) : Prop :=
  portState t p = phDetect ∧ inBackoff t p = true ∧ t.fld .phy (phyStatus p) 27 24 = cause ∧
    t.fld .phy (phyBackoff p) 3 0 = capNat 15 (s.fld .phy (phyBackoff p) 3 0 + 1) ∧
    (t.phyPort p).backoffEnd = s.now + backoffNs (capNat 15 (s.fld .phy (phyBackoff p) 3 0 + 1))

/-- A sequencer's running slot went on: it holds these X registers, has used the cycles (and one more for each loop's
return) and continues at the index, by the loops that end there (R235, R236); nothing else has changed. -/
def SlotGoes (q : Nat) (sl : SlotSt) (xs : List Word) (cycles npc : Nat) (s t : State) : Prop :=
  t.seqU q = { s.seqU q with slot := some ({ sl with x := xs }.goOn cycles npc) } ∧ (∀ r, r ≠ q → t.seqU r = s.seqU r) ∧
    RegsKept .seq [] s t ∧ Kept [.seq] s t

/-- The mailbox works on a command of an opcode that has no code yet (R275). -/
abbrev State.mbxWorks (s : State) (op : Nat) (r : MbxRun) : Prop := s.host.mbx = some r ∧ r.op = op ∧ r.code = none

/-- The state in which the running command has ended its work with a code and results (R275). -/
def State.mbxEnded (s : State) (r : MbxRun) (code : Nat) (res : List Word) : State :=
  { s with host := { s.host with mbx := some { r with code := some code, res := res } } }

/-- The oldest cell a span port has kept for this device whose message satisfies a test (R339). -/
def State.oldest (s : State) (p : Nat) (f : CvnMsg → Bool) : Option InCell :=
  s.cvn.inbox.find? (fun e => e.port == p && f e.cell.msg)

/-- The pass goes on behind a port that is settled with a role and a range, or it is over (R345). -/
def PortSettled (e : EnumSt) (role lo hi : Nat) (t : State) : Prop :=
  ∀ e', t.cvn.pass = some e' → e'.tab = e.tab.put e.port role lo hi ∧ e.port < e'.port ∧ e'.parent = e.parent

end Sys2Proof.Machine
end

