-- ==== Sys2Proof/Certificates/Slice0/Obligations.lean ====
section
/-! DEFINITION. The statements about Apnik that the provers prove: each says what its docstring says, of the rules
it cites. -/
open Sys2Proof Sys2Proof.Machine

/-- Step of a state with command c at the front of its queue is exec of c on that state with the queue's rest, whatever c
and the rest are; step of a state whose queue is empty changes nothing (the model's choice, logs 1 and 6). -/
def Obligations.StepRunsTheFrontCommand : Prop :=
  (∀ (c : Instr) (rest : List Instr) (s : State),
    Sys2Proof.Machine.step (s.withPending (c :: rest)) = Sys2Proof.Machine.exec c (s.withPending rest)) ∧
  ∀ s : State, s.pending = [] → Sys2Proof.Machine.step s = .next s

/-- For every command and every state, exec answers a next state, and the queue of commands in it is the one before: a
command neither adds to the queue nor takes from it (log 1). -/
def Obligations.EveryCommandLeavesTheQueueAlone : Prop :=
  ∀ (c : Instr) (s : State), ∃ t, Sys2Proof.Machine.exec c s = .next t ∧ t.pending = s.pending

/-- Right after reset TB is 0, no step remains, the rate is 0, the timebase is sound, and both memories stand in their
canonical form. -/
def Obligations.ResetHasASoundTimebase : Prop :=
  State.reset.time.tb = 0 ∧ State.reset.time.stepRem = 0 ∧ State.reset.rd .time HST_TB_RATE = 0#32 ∧
    State.reset.time.ok ∧ State.reset.memWf

/-- From every state whose timebase is sound, a step that answers a next state leaves it sound: the accumulator keeps its 32
bits, the rate its limits of 1,000 ppm, SLEW_BUSY is 1 exactly while a step remains, and the remaining step keeps its
reading.  It holds whatever command stands in front: register writes, Caravan's discipline, resets. -/
def Obligations.EveryStepKeepsTheTimebaseSound : Prop :=
  ∀ s t : State, s.time.ok → Sys2Proof.Machine.step s = .next t → t.time.ok

/-- From every state with a sound timebase, every command but the cold reset, the VAON power-on reset, the loss of a
supply, the entry to DEEP and the release of the core from reset answers a next state in which TB is at least what it was. -/
def Obligations.TbNeverDecreases : Prop :=
  ∀ (c : Instr) (s : State), s.time.ok → startsTb c = false →
    ∃ t, Sys2Proof.Machine.exec c s = .next t ∧ s.now ≤ t.now

/-- TB_ADVANCE of a core that runs completes from every state with a sound timebase: in units of 2^-32 ns, TB with its accumulator advances by
one nanosecond plus HST_TB_RATE plus the slew, the accumulator keeps 32 bits, and the integer part advances by 0, 1 or 2, so
never backwards; while the core is held TB stands.  TB_RATE_WRITE completes while DISC is 0: HST_TB_RATE takes the value clipped to -4,294,967 to 4,294,967,
RATE_CLIP is set when it was clipped and kept otherwise; all else is as before. -/
def Obligations.TbRunsAtItsRate : Prop :=
  (∀ s : State, s.pwr.coreUp = false → Sys2Proof.Machine.exec .tbAdvance s = .next s) ∧
  (∀ s : State, s.time.ok → s.pwr.coreUp = true → ∃ t, Sys2Proof.Machine.exec .tbAdvance s = .next t ∧
    (t.now : Int) * 4294967296 + t.time.frac =
      s.now * 4294967296 + s.time.frac + 4294967296 + (s.rd .time HST_TB_RATE).toInt + slewOf s.time.stepRem ∧
    t.time.frac < 4294967296 ∧ s.now ≤ t.now ∧ t.now ≤ s.now + 2 ∧
    t.time.held = s.time.held ∧ t.time.ppsLast = s.time.ppsLast ∧ t.time.part = s.time.part ∧
    RegsKept .time [HST_TB_STATUS] s t ∧ Kept [.time] s t) ∧
  (∀ (v : Word) (s : State), s.flag .time HST_TB_CTRL 0 = false →
    ∃ t, Sys2Proof.Machine.exec (.tbRateWrite v) s = .next t ∧
      (t.rd .time HST_TB_RATE).toInt = clampInt (-4294967) 4294967 v.toInt ∧
      t.flag .time HST_TB_STATUS 5 =
        (s.flag .time HST_TB_STATUS 5 || decide (v.toInt < -4294967) || decide (4294967 < v.toInt)) ∧
      (∀ i, i ≠ 5 → t.flag .time HST_TB_STATUS i = s.flag .time HST_TB_STATUS i) ∧
      RegsKept .time [HST_TB_RATE, HST_TB_STATUS] s t ∧ t.time = { s.time with regs := t.time.regs } ∧ Kept [.time] s t)

/-- TB_STEP_WRITE completes while DISC is 0.  While SLEW_BUSY is 1 it only sets STEP_REJ, a write of 0 included.  Otherwise a
write of 0 changes nothing; a positive step with JUMP at 1 and STATE not LOCKED is added to TB at once (a captured PPS edge keeps its
distance) and changes nothing else; every other step becomes the remaining step, in units of 2^-10 ns, with SLEW_BUSY at 1.  Each TB_ADVANCE applies
plus or minus 2^-10 ns (4,194,304 units of 2^-32 ns) by the sign of the remaining step and takes one unit off it, so that
it reaches exactly 0 after as many cycles as it has units (512,000 for -500 ns); SLEW_END is the cycle that takes the last
unit and clears SLEW_BUSY.  The register reads the magnitude rounded up to whole nanoseconds, with its sign, and reads 0
exactly when SLEW_BUSY is 0. -/
def Obligations.StepsJumpOrSlew : Prop :=
  (∀ (v : Word) (s : State), s.flag .time HST_TB_CTRL 0 = false →
    (s.flag .time HST_TB_STATUS 3 = true →
      Sys2Proof.Machine.exec (.tbStepWrite v) s = .next (s.setb .time HST_TB_STATUS 4 true)) ∧
    (s.flag .time HST_TB_STATUS 3 = false → v = 0#32 → Sys2Proof.Machine.exec (.tbStepWrite v) s = .next s) ∧
    (s.flag .time HST_TB_STATUS 3 = false → v ≠ 0#32 →
      (0 < v.toInt ∧ s.flag .time HST_TB_CTRL 1 = true ∧ s.fld .time HST_TB_STATUS 1 0 ≠ 2 →
        Sys2Proof.Machine.exec (.tbStepWrite v) s =
          .next { s with time := { s.time with tb := s.now + v.toNat, ppsLast := s.time.ppsLast.map (· + v.toNat) } }) ∧
      (¬ (0 < v.toInt ∧ s.flag .time HST_TB_CTRL 1 = true ∧ s.fld .time HST_TB_STATUS 1 0 ≠ 2) →
        Sys2Proof.Machine.exec (.tbStepWrite v) s =
          .next (({ s with time := { s.time with stepRem := v.toInt * 1024 } } : State).setb .time HST_TB_STATUS 3 true)))) ∧
  (∀ s : State, s.pwr.coreUp = true → ∃ t, Sys2Proof.Machine.exec .tbAdvance s = .next t ∧
    t.time.stepRem = (if s.time.stepRem = 0 then 0 else if 0 < s.time.stepRem then s.time.stepRem - 1
      else s.time.stepRem + 1) ∧
    slewOf s.time.stepRem = (if s.time.stepRem = 0 then 0 else if 0 < s.time.stepRem then 4194304 else -4194304) ∧
    t.flag .time HST_TB_STATUS 3 = decide (t.time.stepRem ≠ 0)) ∧
  (∀ rem : Int, (remAfter^[rem.natAbs]) rem = 0) ∧ (-500 * 1024 : Int).natAbs = 512000 ∧
  (∀ s : State, s.pwr.coreUp = true → s.time.stepRem.natAbs = 1 → ∃ t, Sys2Proof.Machine.exec .slewEnd s = .next t ∧ t.time.stepRem = 0 ∧
    t.flag .time HST_TB_STATUS 3 = false ∧ Sys2Proof.Machine.exec .tbAdvance s = .next t) ∧
  (∀ s : State, s.time.ok →
    stepReading s.time.stepRem = BitVec.ofInt 32 (s.time.stepRem.sign * ((s.time.stepRem.natAbs + 1023) / 1024 : Nat)) ∧
    (stepReading s.time.stepRem = 0#32 ↔ s.flag .time HST_TB_STATUS 3 = false))

/-- While DISC is 1, TB_RATE_WRITE and TB_STEP_WRITE of any value only set STEP_REJ, and a PPS_CAPTURE that is due stores
TB in HST_PPS_LO and HST_PPS_HI, sets PPS_SEEN and STEP_REJ, clears PPS_ARM, and leaves TB, the remaining step, the rate
and SLEW_BUSY alone.  DISC_WRITE of 0 while DISC is 1 clears DISC and puts STATE to FREE (0), and keeps HST_TB_RATE, TB and the
remaining step with SLEW_BUSY; from the state it leaves, rate and step writes act by R13 and R14 (DISC is 0). -/
def Obligations.DisciplineLocksRateAndStep : Prop :=
  ∀ s : State, s.flag .time HST_TB_CTRL 0 = true →
    (∀ v : Word, Sys2Proof.Machine.exec (.tbRateWrite v) s = .next (s.setb .time HST_TB_STATUS 4 true)) ∧
    (∀ v : Word, Sys2Proof.Machine.exec (.tbStepWrite v) s = .next (s.setb .time HST_TB_STATUS 4 true)) ∧
    (s.time.ppsDue = true → ∃ t, Sys2Proof.Machine.exec .ppsCapture s = .next t ∧
      t.rd .time HST_PPS_LO = lo32 s.now ∧ t.rd .time HST_PPS_HI = hi32 s.now ∧
      t.flag .time HST_TB_STATUS 6 = true ∧ t.flag .time HST_TB_STATUS 4 = true ∧ t.flag .time HST_TB_CTRL 2 = false ∧
      t.now = s.now ∧ t.time.frac = s.time.frac ∧ t.time.stepRem = s.time.stepRem ∧
      t.flag .time HST_TB_STATUS 3 = s.flag .time HST_TB_STATUS 3 ∧
      RegsKept .time [HST_PPS_LO, HST_PPS_HI, HST_TB_STATUS, HST_TB_CTRL] s t ∧ Kept [.time] s t) ∧
    (∃ t, Sys2Proof.Machine.exec (.discWrite false) s = .next t ∧
      t.flag .time HST_TB_CTRL 0 = false ∧ t.fld .time HST_TB_STATUS 1 0 = 0 ∧
      t.rd .time HST_TB_RATE = s.rd .time HST_TB_RATE ∧ t.now = s.now ∧ t.time.stepRem = s.time.stepRem ∧
      t.flag .time HST_TB_STATUS 3 = s.flag .time HST_TB_STATUS 3 ∧
      RegsKept .time [HST_TB_STATUS, HST_TB_CTRL] s t ∧ Kept [.time] s t)

/-- PPS_ARM sets PPS_ARM and nothing else.  PPS_CAPTURE is the rising edge of PPS_IN: with PPS_ARM at 0, or less than 500 ms
after a captured edge, it changes nothing.  Otherwise it stores TB in HST_PPS_LO and HST_PPS_HI, sets PPS_SEEN and
clears PPS_ARM; with DISC at 1 it requests nothing (R15); with DISC at 0 it requests a step by R14: rejected with STEP_REJ
while SLEW_BUSY is 1, nothing for 0, a jump where R14 jumps, and a slew otherwise.  The step makes TB a whole multiple of 1,000,000,000 ns, is
greater than -500,000,000 and at most 500,000,000, and exactly halfway it is +500,000,000. -/
def Obligations.PpsAlignsToTheSecond : Prop :=
  (∀ s : State, Sys2Proof.Machine.exec .ppsArm s = .next (s.setb .time HST_TB_CTRL 2 true)) ∧
  (∀ s : State, s.flag .time HST_TB_CTRL 2 = false ∨ s.time.ppsLast.any (fun p => decide (s.now - p < 500000000)) = true →
    Sys2Proof.Machine.exec .ppsCapture s = .next s) ∧
  (∀ s : State, s.flag .time HST_TB_CTRL 2 = true → s.time.ppsLast.all (fun p => decide (500000000 ≤ s.now - p)) = true →
    ∃ t, Sys2Proof.Machine.exec .ppsCapture s = .next t ∧
      t.rd .time HST_PPS_LO = lo32 s.now ∧ t.rd .time HST_PPS_HI = hi32 s.now ∧
      t.flag .time HST_TB_STATUS 6 = true ∧ t.flag .time HST_TB_CTRL 2 = false ∧ t.time.ppsLast = some t.now ∧
      (s.flag .time HST_TB_CTRL 0 = false → s.flag .time HST_TB_STATUS 3 = true →
        t.flag .time HST_TB_STATUS 4 = true ∧ t.now = s.now ∧ t.time.stepRem = s.time.stepRem) ∧
      (s.flag .time HST_TB_CTRL 0 = false → s.flag .time HST_TB_STATUS 3 = false →
        (alignStep s.now = 0 → t.now = s.now ∧ t.time.stepRem = s.time.stepRem) ∧
        (alignStep s.now ≠ 0 →
          (0 < alignStep s.now ∧ s.flag .time HST_TB_CTRL 1 = true ∧ s.fld .time HST_TB_STATUS 1 0 ≠ 2 →
            t.now = s.now + (alignStep s.now).toNat ∧ t.time.stepRem = s.time.stepRem) ∧
          (¬ (0 < alignStep s.now ∧ s.flag .time HST_TB_CTRL 1 = true ∧ s.fld .time HST_TB_STATUS 1 0 ≠ 2) →
            t.now = s.now ∧ t.time.stepRem = alignStep s.now * 1024 ∧ t.flag .time HST_TB_STATUS 3 = true))) ∧
      (s.flag .time HST_TB_CTRL 0 = true → t.flag .time HST_TB_STATUS 4 = true ∧ t.now = s.now ∧
        t.time.stepRem = s.time.stepRem) ∧
      RegsKept .time [HST_PPS_LO, HST_PPS_HI, HST_TB_STATUS, HST_TB_CTRL] s t ∧ Kept [.time] s t) ∧
  ∀ n : Nat, (1000000000 : Int) ∣ n + alignStep n ∧ -500000000 < alignStep n ∧ alignStep n ≤ 500000000 ∧
    (n % 1000000000 = 500000000 → alignStep n = 500000000)

/-- UNMAPPED_WRITE to an address with no register is dropped and sets UNMAPPED (bit 2) and ANY (bit 0); a narrow write
(BAD_WIDTH_ACCESS) to a register is dropped and sets BAD_WIDTH (bit 1) and ANY; OFF_READ of a status register or a counter of
a unit whose power is off returns 0 and sets OFF_READ (bit 3) and ANY.  With ANY at 0 the access's address is captured; with
ANY at 1 HST_ACCESS_ADDR and HST_ACCESS_ADDR_HI keep the captured one.  Nothing else changes.  ACCESS_ERR_CLEAR clears each of the four bits written as 1 and leaves
everything else.  BAR2_WRITE inside the window to populated segments that are not barred stores its bytes and nothing else; one that meets a barred or absent segment is dropped as a whole (the model's choice, log 75) and sets UNMAPPED and ANY, captured with
bit 31 of the high word; to a stack that has failed (R307), or while the host download has not ended (R252), it changes nothing.  A narrow
read sets BAD_WIDTH and ANY too and returns the byte lanes named of what the whole read returns. -/
def Obligations.DroppedAccessesSetAccessErr : Prop :=
  (∀ (addr : Nat) (v : Word) (s : State), regAt addr = none → ∃ t,
    Sys2Proof.Machine.exec (.unmappedWrite addr v) s = .next t ∧
    t.flag .time HST_ACCESS_ERR 2 = true ∧ t.flag .time HST_ACCESS_ERR 0 = true ∧
    t.rd .time HST_ACCESS_ADDR = (if s.flag .time HST_ACCESS_ERR 0 then s.rd .time HST_ACCESS_ADDR else lo32 addr) ∧
    t.rd .time HST_ACCESS_ADDR_HI = (if s.flag .time HST_ACCESS_ERR 0 then s.rd .time HST_ACCESS_ADDR_HI else 0#32) ∧
    (∀ i, i ≠ 0 → i ≠ 2 → t.flag .time HST_ACCESS_ERR i = s.flag .time HST_ACCESS_ERR i) ∧
    RegsKept .time [HST_ACCESS_ERR, HST_ACCESS_ADDR, HST_ACCESS_ADDR_HI] s t ∧
    t.time = { s.time with regs := t.time.regs } ∧ Kept [.time] s t) ∧
  (∀ (addr : Nat) (lanes : BitVec 4) (s : State), (regAt addr).isSome = true → lanes ≠ 0xF#4 → ∃ t,
    Sys2Proof.Machine.exec (.badWidthAccess true addr lanes) s = .next t ∧
    t.flag .time HST_ACCESS_ERR 1 = true ∧ t.flag .time HST_ACCESS_ERR 0 = true ∧
    t.rd .time HST_ACCESS_ADDR = (if s.flag .time HST_ACCESS_ERR 0 then s.rd .time HST_ACCESS_ADDR else lo32 addr) ∧
    (∀ i, i ≠ 0 → i ≠ 1 → t.flag .time HST_ACCESS_ERR i = s.flag .time HST_ACCESS_ERR i) ∧
    RegsKept .time [HST_ACCESS_ERR, HST_ACCESS_ADDR, HST_ACCESS_ADDR_HI] s t ∧
    t.time = { s.time with regs := t.time.regs } ∧ Kept [.time] s t) ∧
  (∀ (addr : Nat) (u : UnitRow) (row : RegRow) (s : State), regAt addr = some (u, row) → row.isStatus = true →
    poweredOff s u (u.index addr) = true → ∃ t,
    Sys2Proof.Machine.exec (.offRead addr) s = .next t ∧ t.readData = 0#32 ∧
    t.flag .time HST_ACCESS_ERR 3 = true ∧ t.flag .time HST_ACCESS_ERR 0 = true ∧
    t.rd .time HST_ACCESS_ADDR = (if s.flag .time HST_ACCESS_ERR 0 then s.rd .time HST_ACCESS_ADDR else lo32 addr) ∧
    (∀ i, i ≠ 0 → i ≠ 3 → t.flag .time HST_ACCESS_ERR i = s.flag .time HST_ACCESS_ERR i) ∧
    RegsKept .time [HST_ACCESS_ERR, HST_ACCESS_ADDR, HST_ACCESS_ADDR_HI] s t ∧
    Kept [.time] s { t with readData := s.readData, readPoisoned := s.readPoisoned }) ∧
  (∀ (v : Word) (s : State), ∃ t, Sys2Proof.Machine.exec (.accessErrClear v) s = .next t ∧
    (∀ i, i < 4 → t.flag .time HST_ACCESS_ERR i = (s.flag .time HST_ACCESS_ERR i && !bit v i)) ∧
    RegsKept .time [HST_ACCESS_ERR] s t ∧ t.time = { s.time with regs := t.time.regs } ∧ Kept [.time] s t) ∧
  (∀ (addr : Nat) (lanes : BitVec 4) (s : State), lanes ≠ 0xF#4 → ∃ t,
    Sys2Proof.Machine.exec (.badWidthAccess false addr lanes) s = .next t ∧
    t.flag .time HST_ACCESS_ERR 1 = true ∧ t.flag .time HST_ACCESS_ERR 0 = true ∧
    t.readData = ((s.accessErr 1 (lo32 addr) 0#32).busRead 0 addr).readData &&& laneMask lanes) ∧
  (∀ (addr : Nat) (data : List Byte) (s : State), hostDownload s = true →
    Sys2Proof.Machine.exec (.bar2Write addr data) s = .next s) ∧
  ∀ (addr : Nat) (data : List Byte) (s : State), addr + data.length ≤ bar2Size → data ≠ [] → hostDownload s = false →
    (spanIn (fun g => !bar2Barred s g) addr data.length = true → stackOk s (stackOf addr) = false →
      Sys2Proof.Machine.exec (.bar2Write addr data) s = .next s) ∧
    (spanIn (fun g => !bar2Barred s g) addr data.length = true → stackOk s (stackOf addr) = true → ∃ t,
      Sys2Proof.Machine.exec (.bar2Write addr data) s = .next t ∧
      (∀ i b, data[i]? = some b → ergByte t (addr + i) = b) ∧
      (∀ a, a < addr ∨ addr + data.length ≤ a → ergByte t a = ergByte s a) ∧
      t.erg = { s.erg with mem := t.erg.mem, poison := t.erg.poison, soft := t.erg.soft } ∧ Kept [.erg] s t) ∧
    (spanIn (fun g => !bar2Barred s g) addr data.length = false → ∃ t,
      Sys2Proof.Machine.exec (.bar2Write addr data) s = .next t ∧
      t.flag .time HST_ACCESS_ERR 2 = true ∧ t.flag .time HST_ACCESS_ERR 0 = true ∧
      (s.flag .time HST_ACCESS_ERR 0 = false → t.rd .time HST_ACCESS_ADDR = lo32 addr ∧
        t.flag .time HST_ACCESS_ADDR_HI 31 = true ∧ t.fld .time HST_ACCESS_ADDR_HI 3 0 = addr / 2 ^ 32) ∧
      RegsKept .time [HST_ACCESS_ERR, HST_ACCESS_ADDR, HST_ACCESS_ADDR_HI] s t ∧ Kept [.time] s t)

/-- REGISTER_WRITE of any value, shown on registers of an encoder port n and completing in every state: ENC_NOISE_LIM (RW) takes
bits 15 to 0; ENC_SPEED (RO) and with it the state stay as they are; each of the bits 13 to 6 of ENC_STATUS (W1C) written as 1 clears and every
other bit stays.  COUNTER_WRITE of ENC_CNT_ILLEGAL: all ones clears a counter, and below saturation each bit written as 1 is
cleared from the count; a saturated counter ignores every other value; what the counter has counted in the cycle of the write comes after it
(R21; the model's choice, log 146).  ATTEMPT_COUNTER_WRITE of a lane's training attempts
clears it.  SPLIT_LO_READ of HST_TB_LO returns TB bits 31 to 0, and the next such read of HST_TB_HI by the same function
returns bits 63 to 32 as they were then, whatever happens in between that leaves the holding register. -/
def Obligations.RegisterAccessesFollowTheirTypes : Prop :=
  (∀ (n : Fin 8) (v : Word) (s : State),
    (∃ t, Sys2Proof.Machine.exec (.registerWrite 0 .bar0 (ENC_NOISE_LIM n) v) s = .next t ∧
      t.rd .mot (ENC_NOISE_LIM n) = BitVec.ofNat 32 (bits v 15 0) ∧ RegsKept .mot [ENC_NOISE_LIM n] s t ∧
      Kept [.mot] s t) ∧
    (∃ t, Sys2Proof.Machine.exec (.registerWrite 0 .bar0 (ENC_SPEED n) v) s = .next t ∧ t.rd .mot (ENC_SPEED n) = s.rd .mot (ENC_SPEED n) ∧
      RegsKept .mot [] s t ∧ Kept [.mot] s t) ∧
    (∃ t, Sys2Proof.Machine.exec (.registerWrite 0 .bar0 (ENC_STATUS n) v) s = .next t ∧
      (∀ i, 6 ≤ i → i ≤ 13 → t.flag .mot (ENC_STATUS n) i = (s.flag .mot (ENC_STATUS n) i && !bit v i)) ∧
      (∀ i, i < 6 → t.flag .mot (ENC_STATUS n) i = s.flag .mot (ENC_STATUS n) i) ∧
      RegsKept .mot [ENC_STATUS n] s t ∧ Kept [.mot] s t) ∧
    (∃ t, Sys2Proof.Machine.exec (.counterWrite (ENC_CNT_ILLEGAL n) v) s = .next t ∧
      (countedNow s .mot (ENC_CNT_ILLEGAL n) = none → t.rd .mot (ENC_CNT_ILLEGAL n) =
        (if v = 0xFFFFFFFF#32 then 0#32
        else if s.rd .mot (ENC_CNT_ILLEGAL n) = 0xFFFFFFFF#32 then 0xFFFFFFFF#32
        else s.rd .mot (ENC_CNT_ILLEGAL n) &&& ~~~ v)) ∧
      (∀ e, countedNow s .mot (ENC_CNT_ILLEGAL n) = some e → t.rd .mot (ENC_CNT_ILLEGAL n) =
        satAdd (if v = 0xFFFFFFFF#32 then 0#32 else if e.1 = 0xFFFFFFFF#32 then 0xFFFFFFFF#32 else e.1 &&& ~~~ v) e.2) ∧
      RegsKept .mot [ENC_CNT_ILLEGAL n] s t ∧ Kept [.mot] s t)) ∧
  (∀ (p : Fin 24) (v : Word) (s : State), ∃ t,
    Sys2Proof.Machine.exec (.attemptCounterWrite (phyAttempt p) v) s = .next t ∧
    t.rd .phy (phyAttempt p) = 0#32 ∧ RegsKept .phy [phyAttempt p] s t ∧ Kept [.phy] s t) ∧
  ∀ s : State, ∃ t, Sys2Proof.Machine.exec (.splitLoRead 0 .bar0 HST_TB_LO) s = .next t ∧ t.readData = lo32 s.now ∧
    t.time = { s.time with held := t.time.held } ∧ Kept [.time] s { t with readData := s.readData, readPoisoned := s.readPoisoned } ∧
    ∀ t' : State, Tab.get (fun _ => 0#32) t'.time.held (heldKey 0 HST_TB_LO) =
        Tab.get (fun _ => 0#32) t.time.held (heldKey 0 HST_TB_LO) →
      ∃ u, Sys2Proof.Machine.exec (.splitLoRead 0 .bar0 HST_TB_HI) t' = .next u ∧ u.readData = hi32 s.now ∧
        u = { t' with readData := u.readData, readPoisoned := false }

/-- COLD_RESET puts TB to 0, HST_RESET_CAUSE to COLD alone, and the blocks without pins of their own to their reset state; the
Oasis registers, host memory and the fuses stay.  WARM_RESET, the mailbox RESET outside FAULT and the watchdog's WDOG_WARM_RESET of a running core with
its reference clock keep TB, the accumulator and every RWS bit (HST_TB_RATE, JUMP and DISC whole), drop the remaining step
and PPS_ARM, put STATE to HOLDOVER (3) if DISC is 1 and FREE (0) otherwise, set their own bit of HST_RESET_CAUSE and those of resets that
waited (the model's choice, log 132), lose images, look-back and the waiting work of the stages, and keep the bytes of the Erg and host memory.
Without REFCLK_SYS a warm reset only waits; in FAULT the mailbox RESET changes nothing.  A function-level reset of PF0 clears the mailbox, keeps TB and the
trained link, and resets 10-bit tags and MRRS (log 133); of a VF it clears its MSI-X table and pending bits (log 106), and every client bound to it keeps its binding,
loses its rings, and its descriptors leave all channels (log 52).  A stream reset by the mailbox ends with DONE and leaves every
register of the stream (log 104 says which) at its reset value but ACT_BANK and NO_TABLE in OBJ_STATUS, and its object stage without open objects; an ID
from 96 ends with E_RANGE and changes nothing else. -/
def Obligations.ResetsClearWhatTheirKindClears : Prop :=
  (∀ s : State, ∃ t, Sys2Proof.Machine.exec .coldReset s = .next t ∧ t.now = 0 ∧ t.time.stepRem = 0 ∧
    t.rd .time HST_TB_RATE = 0#32 ∧ t.rd .time HST_RESET_CAUSE = 1#32 ∧
    t.lnk = LnkSt.init ∧ t.pix = PixSt.init ∧ t.obj = ObjSt.init ∧ t.ejt = EjtSt.init ∧ t.seq = SeqSt.init ∧
    t.dma = DmaSt.init ∧ t.erg = ErgSt.init ∧ t.cmp = CmpSt.init ∧ t.evt = EvtSt.init ∧ t.flt = FltSt.init ∧
    t.pwr.coreUp = false ∧ t.tap.coreHeld = suppliesUp s ∧ t.host.mem = s.host.mem ∧ t.host.keys = s.host.keys ∧
    (∀ a, isOasis a = true → t.rd .pwr a = s.rd .pwr a) ∧ t.pending = s.pending) ∧
  (∀ (wdog ref : Bool) (s : State), s.pwr.coreUp = true → (s.time.refSysOk || ref) = true → ∃ t,
    Sys2Proof.Machine.exec (.warmReset wdog ref) s = .next t ∧ WarmlyReset (if wdog then 3 else 1) s t) ∧
  (∀ (s : State) (r : MbxRun), s.mbxWorks 3 r → dstate s = 4 → Sys2Proof.Machine.exec .reset s = .next s) ∧
  (∀ (s : State) (r : MbxRun), s.pwr.coreUp = true → s.time.refSysOk = true → s.mbxWorks 3 r → dstate s ≠ 4 → ∃ t,
    Sys2Proof.Machine.exec .reset s = .next t ∧ WarmlyReset 2 s t) ∧
  (∀ (s : State) (t0 : Nat), s.pwr.coreUp = true → s.time.refSysOk = true → s.flt.wdogSafe = some t0 →
    t0 + 1000000 ≤ s.now → ∃ t, Sys2Proof.Machine.exec .wdogWarmReset s = .next t ∧ WarmlyReset 3 s t) ∧
  (∀ (wdog : Bool) (s : State), s.pwr.coreUp = true → s.time.refSysOk = false → ∃ t,
    Sys2Proof.Machine.exec (.warmReset wdog false) s = .next t ∧
    t.time = { s.time with warmWait := (if wdog then 3 else 1) :: s.time.warmWait } ∧ Kept [.time] s t) ∧
  (∀ s : State, ∃ t, Sys2Proof.Machine.exec (.functionLevelReset 0) s = .next t ∧ t.host.mbx = none ∧
    t.rd .host HST_MBX_CMD = 0#32 ∧ t.rd .host HST_MBX_STATUS = 0#32 ∧
    (t.host.cfg.tags10 = false ∧ t.host.cfg.mrrs = 2 ∧ t.host.cfg.speed = s.host.cfg.speed ∧
      t.host.cfg.width = s.host.cfg.width ∧ t.host.cfg.flit = s.host.cfg.flit ∧ t.host.cfg.mps = s.host.cfg.mps) ∧
    t.time = s.time ∧ t.pending = s.pending) ∧
  (∀ (fn : Fin 64) (s : State), fn ≠ 0 → ∃ t, Sys2Proof.Machine.exec (.functionLevelReset fn) s = .next t ∧
    (∀ v : Fin 2048, Tab.get (fun _ => false) t.host.vecPend (vecKey fn v) = false ∧ msixWord t fn v 3 = 1#32) ∧
    (∀ c : Fin 1024, bound s c = true → cliFn s c = fn.val →
      bound t c = true ∧ cliFn t c = fn.val ∧ ∀ r, r < 5 → ringOn t c r = false) ∧
    (∀ (ch : Fin 64) (d : Desc), d ∈ (t.dmaCh ch).queue → ¬ (bound s d.client = true ∧ cliFn s d.client = fn.val)) ∧
    t.time = s.time ∧ t.pending = s.pending ∧
    ((∀ c : Nat, (bound s c && cliFn s c == fn.val) = false) → t = { s with host := { s.host with
      msix := s.host.msix.filter (fun e => e.1 / 16384 != fn.val)
      vecPend := s.host.vecPend.filter (fun e => e.1 / 4096 != fn.val) } })) ∧
  ∀ (s : State) (r : MbxRun), s.host.mbx = some r → r.op = 4 → r.code = none →
    (mbxArg s 0 < 96 → ∃ t, Sys2Proof.Machine.exec .streamReset s = .next t ∧
      t.host.mbx.bind MbxRun.code = some 0 ∧
      (∀ (b : Blk) (a : Nat), b ∈ ([.pix, .obj, .ejt, .cvn, .mot, .erg] : List Blk) → ofStream (mbxArg s 0) a = true →
        ¬ (b = .obj ∧ a = OBJ_STATUS (mbxArg s 0)) → t.rd b a = regReset a) ∧
      (∀ i, i < 8 ∨ 9 < i → t.flag .obj (OBJ_STATUS (mbxArg s 0)) i = bit (regReset (OBJ_STATUS (mbxArg s 0))) i) ∧
      (t.objStream (mbxArg s 0)).opened = [] ∧ t.time = s.time ∧ t.pending = s.pending) ∧
    (96 ≤ mbxArg s 0 → Sys2Proof.Machine.exec .streamReset s =
      .next { s with host := { s.host with mbx := some { r with code := some 2, res := [] } } })

/-- A write to ENC_CTRL that makes MODE QUAD takes the raw levels as the reference, after SWAP_AB, and counts nothing (that they
become the accepted levels is the model's choice, log 55); a reserved MODE keeps the old one and sets CFG_ERR.  With the window current, a filter that accepts a level takes it over;
a transition that the table of R37 decodes as +1 or -1, after SWAP_AB, moves the position by one, with the sign reversed by INVERT; an illegal one leaves it and counts in ENC_CNT_ILLEGAL (fewer than 8 in the window, so that R43
stays out).  A raw edge toggles its level and counts, in every MODE; where no window's noise limit can be passed it does nothing else of the port.  A window's end
starts new counts.  An index latches the position as it was before any load and sets ZSEEN; Z inactive clears Z_STUCK.  A snapshot holds
position, TB, speed and state of every port named.  A write to ENC_SET_HI loads the pair. -/
def Obligations.EncodersCountAndLatch : Prop :=
  (∀ (n : Fin 8) (v : Word) (s : State), bits v 31 30 = 1 → encMode s n ≠ 1 → s.now / 1000000 ≤ (s.enc n).winId →
    ∃ t, Sys2Proof.Machine.exec (.encModeWrite n v) s = .next t ∧ encMode t n = 1 ∧
      (t.enc n).a = (s.enc n).rawA ∧ (t.enc n).b = (s.enc n).rawB ∧ (t.enc n).z = (s.enc n).rawZ ∧
      (t.enc n).refA = (if bit v 28 then (s.enc n).rawB else (s.enc n).rawA) ∧
      (t.enc n).refB = (if bit v 28 then (s.enc n).rawA else (s.enc n).rawB) ∧
      (t.enc n).pos = (s.enc n).pos ∧ RegsKept .mot [ENC_CTRL n, ENC_STATUS n] s t ∧ Kept [.mot] s t) ∧
  (∀ (n : Fin 8) (v : Word) (s : State), bits v 31 30 = 3 → s.now / 1000000 ≤ (s.enc n).winId →
    ∃ t, Sys2Proof.Machine.exec (.encModeWrite n v) s = .next t ∧ encMode t n = encMode s n ∧
      t.flag .mot (ENC_STATUS n) 13 = true ∧ (t.enc n).pos = (s.enc n).pos ∧ Kept [.mot] s t) ∧
  (∀ (n : Fin 8) (u : Nat) (a b c d : Bool) (s : State), encMode s n = 1 →
    s.now / 1000000 ≤ (s.enc n).winId →
    earlier (filtered (s.enc n).a (s.enc n).rawA (s.enc n).atA (s.fld .mot (ENC_CTRL n) 11 6) s.now)
      (filtered (s.enc n).b (s.enc n).rawB (s.enc n).atB (s.fld .mot (ENC_CTRL n) 11 6) s.now) = some u →
    a = (if filtered (s.enc n).a (s.enc n).rawA (s.enc n).atA (s.fld .mot (ENC_CTRL n) 11 6) s.now = some u
      then (s.enc n).rawA else (s.enc n).a) →
    b = (if filtered (s.enc n).b (s.enc n).rawB (s.enc n).atB (s.fld .mot (ENC_CTRL n) 11 6) s.now = some u
      then (s.enc n).rawB else (s.enc n).b) →
    c = (if s.flag .mot (ENC_CTRL n) 28 then b else a) → d = (if s.flag .mot (ENC_CTRL n) 28 then a else b) → ∃ t, Sys2Proof.Machine.exec (.encTransition n) s = .next t ∧
      (t.enc n).a = a ∧ (t.enc n).b = b ∧ (t.enc n).refA = c ∧ (t.enc n).refB = d ∧
      (decodeStep (s.enc n).refA (s.enc n).refB c d = .plus →
        (t.enc n).pos = if s.flag .mot (ENC_CTRL n) 29 then (s.enc n).pos - 1#48 else (s.enc n).pos + 1#48) ∧
      (decodeStep (s.enc n).refA (s.enc n).refB c d = .minus →
        (t.enc n).pos = if s.flag .mot (ENC_CTRL n) 29 then (s.enc n).pos + 1#48 else (s.enc n).pos - 1#48) ∧
      (decodeStep (s.enc n).refA (s.enc n).refB c d = .illegal → (s.enc n).winIllegal < 7 →
        (t.enc n).pos = (s.enc n).pos ∧ t.flag .mot (ENC_STATUS n) 8 = true ∧
        t.rd .mot (ENC_CNT_ILLEGAL n) = satAdd (s.rd .mot (ENC_CNT_ILLEGAL n)) 1 ∧ Kept [.mot] s t) ∧
      t.time = s.time ∧ t.pending = s.pending) ∧
  (∀ (n : Fin 8) (pin : EncPin) (s : State), s.pwr.coreUp = true → s.fld .pwr PWR_STATUS 31 28 ≠ 2 →
    s.fld .pwr PWR_STATUS 31 28 ≠ 3 → (encMode s n = 1 → pinCount pin (s.enc n).winRaw < pinCount pin (s.enc n).winAcc + (s.rd .mot (ENC_NOISE_LIM n)).toNat) → s.now / 1000000 ≤ (s.enc n).winId →
    ∃ t, Sys2Proof.Machine.exec (.encRawEdge n pin) s = .next t ∧
      t.rd .mot (rawCounter n pin) = satAdd (s.rd .mot (rawCounter n pin)) 1 ∧ t.enc n = (s.enc n).rawEdge s.now pin ∧
      RegsKept .mot [rawCounter n pin] s t ∧ Kept [.mot] s t) ∧
  (∀ (n : Fin 8) (s : State), (s.enc n).winId < s.now / 1000000 → ∃ t,
    Sys2Proof.Machine.exec (.encWindowEnd n) s = .next t ∧ (t.enc n).winId = s.now / 1000000 ∧
      (t.enc n).winIllegal = 0 ∧ (t.enc n).winLegal = 0 ∧ (t.enc n).winRaw = (0, 0, 0) ∧
      (clearsLost s n = false → (t.enc n).pos = (s.enc n).pos ∧ RegsKept .mot [] s t ∧ Kept [.mot] s t)) ∧
  (∀ (n : Fin 8) (s : State), s.now / 1000000 ≤ (s.enc n).winId → zAccepts s n (!s.flag .mot (ENC_CTRL n) 24) = true →
    s.fld .mot (ENC_CTRL n) 27 26 = 1 → s.flag .mot (ENC_CTRL n) 25 = false → s.flag .mot (ENC_STATUS n) 5 = false →
    (s.enc n).idxNoAB = false → ∃ t, Sys2Proof.Machine.exec (.encIndex n) s = .next t ∧
      t.rd64 .mot (ENC_ZLATCH_LO n) (ENC_ZLATCH_HI n) = (s.enc n).pos.toNat ∧ t.flag .mot (ENC_STATUS n) 6 = true ∧
      (t.enc n).pos = (s.enc n).pos ∧ (t.enc n).z = (!s.flag .mot (ENC_CTRL n) 24) ∧
      RegsKept .mot [ENC_ZLATCH_LO n, ENC_ZLATCH_HI n, ENC_STATUS n] s t ∧ Kept [.mot, .evt] s t) ∧
  (∀ (n : Fin 8) (s : State), s.now / 1000000 ≤ (s.enc n).winId → zAccepts s n (s.flag .mot (ENC_CTRL n) 24) = true → ∃ t,
    Sys2Proof.Machine.exec (.indexInactive n) s = .next t ∧ (t.enc n).z = s.flag .mot (ENC_CTRL n) 24 ∧
      (t.enc n).pos = (s.enc n).pos ∧ t.flag .mot (ENC_STATUS n) 5 = false ∧ RegsKept .mot [ENC_STATUS n] s t ∧ Kept [.mot] s t) ∧
  (∀ (v : Word) (s : State), ∃ t, Sys2Proof.Machine.exec (.encSnap v) s = .next t ∧ t.mot.enc = s.mot.enc ∧ Kept [.mot] s t ∧
    ∀ n : Fin 8, bit v n = true →
      t.rd64 .mot (ENC_SNAP_POS_LO n) (ENC_SNAP_POS_HI n) = (s.enc n).pos.toNat ∧
      t.rd .mot (ENC_SNAP_TB_LO n) = lo32 s.now ∧ t.rd .mot (ENC_SNAP_TB_HI n) = hi32 s.now ∧
      t.rd .mot (ENC_SNAP_SPEED n) = s.rd .mot (ENC_SPEED n) ∧
      t.rd .mot (ENC_SNAP_STATE n) = BitVec.ofNat 32 (s.fld .mot (ENC_STATUS n) 3 0)) ∧
  ∀ (n : Fin 8) (v : Word) (s : State), ∃ t, Sys2Proof.Machine.exec (.encSet n v) s = .next t ∧
    (t.enc n).pos = BitVec.ofNat 48 ((s.rd .mot (ENC_SET_LO n)).toNat + bits v 15 0 * 2 ^ 32) ∧
    t.rd .mot (ENC_SET_HI n) = BitVec.ofNat 32 (bits v 15 0) ∧ t.time = s.time ∧ t.pending = s.pending

/-- At each microsecond SPEED_UPDATE stores the speed of R47 and R48 in VALID, clipped with SPEED_SAT, and 0 in every other
state; off those instants it does nothing.  The standstill timeout of a port that is not LOST goes to STANDSTILL with speed 0.
An SSI word starts at a multiple of its period; a bad word (the first two in succession) leaves the position, counts and sets SSI_ERR; the
first good word loads the position.  At each microsecond a source with both inputs valid records primary minus secondary as its
offset.  A write that names another secondary input while the valid primary is in use drops the offset and nothing else.  The end
of HOLD_MAX leaves the source LOST, frozen at its position of that instant. -/
def Obligations.SpeedSsiAndSourcesFollow : Prop :=
  (∀ (n : Fin 8) (s : State),
    (s.now % 1000 ≠ 0 → Sys2Proof.Machine.exec (.speedUpdate n) s = .next s) ∧
    (s.now % 1000 = 0 → ∃ t, Sys2Proof.Machine.exec (.speedUpdate n) s = .next t ∧
      (s.fld .mot (ENC_STATUS n) 1 0 ≠ 2 → t.rd .mot (ENC_SPEED n) = 0#32) ∧
      (s.fld .mot (ENC_STATUS n) 1 0 = 2 →
        let m := speedMag (s.enc n).run (avgIntervals (s.rd .mot (ENC_CTRL n))) s.now
        (t.rd .mot (ENC_SPEED n)).toInt = (if encDir s n then -((capNat 0x7FFFFFFF m : Nat) : Int)
          else ((capNat 0x7FFFFFFF m : Nat) : Int)) ∧
        t.flag .mot (ENC_STATUS n) 12 = (s.flag .mot (ENC_STATUS n) 12 || decide (0x7FFFFFFF < m))) ∧
      RegsKept .mot [ENC_SPEED n, ENC_STATUS n] s t ∧ t.mot = { s.mot with regs := t.mot.regs, ms := t.mot.ms } ∧ Kept [.mot] s t)) ∧
  (∀ (n : Fin 8) (s : State), standstillDue s n = true → s.flag .mot (ENC_STATUS n) 3 = false → ∃ t,
    Sys2Proof.Machine.exec (.standstillTimeout n) s = .next t ∧ t.fld .mot (ENC_STATUS n) 1 0 = 0 ∧
      t.rd .mot (ENC_SPEED n) = 0#32 ∧ (t.enc n).pos = (s.enc n).pos ∧ encDir t n = encDir s n ∧
      RegsKept .mot [ENC_SPEED n, ENC_STATUS n] s t ∧ Kept [.mot, .evt] s t) ∧
  (∀ (n : Fin 8) (high : Bool) (s : State), encMode s n = 2 → (s.enc n).ssiWord = none →
    s.rd .mot (ENC_SSI_PERIOD n) ≠ 0#32 → s.now % (s.rd .mot (ENC_SSI_PERIOD n)).toNat = 0 → ∃ t,
    Sys2Proof.Machine.exec (.ssiWordStart n high) s = .next t ∧
      t.enc n = { s.enc n with ssiWord := some (s.now, high) } ∧ RegsKept .mot [] s t ∧ Kept [.mot] s t) ∧
  (∀ (n : Fin 8) (word : List Bool) (delay : Nat) (back high : Bool) (t0 : Nat) (s : State), encMode s n = 2 →
    (s.enc n).ssiWord = some (t0, high) → s.now / 1000000 ≤ (s.enc n).winId →
    (ssiWordOk s n high word delay back = false → (s.enc n).ssiBad < 2 → ∃ t,
      Sys2Proof.Machine.exec (.ssiWordEnd n word delay back) s = .next t ∧ (t.enc n).pos = (s.enc n).pos ∧
      t.flag .mot (ENC_STATUS n) 11 = true ∧ t.rd .mot (ENC_CNT_SSI_BAD n) = satAdd (s.rd .mot (ENC_CNT_SSI_BAD n)) 1 ∧
      (t.enc n).ssiBad = (s.enc n).ssiBad + 1 ∧ (t.enc n).ssiWord = none ∧
      RegsKept .mot [ENC_STATUS n, ENC_CNT_SSI_BAD n] s t ∧ Kept [.mot] s t) ∧
    (ssiWordOk s n high word delay back = true → (s.enc n).ssiLast = none → ∃ t,
      Sys2Proof.Machine.exec (.ssiWordEnd n word delay back) s = .next t ∧
      (t.enc n).pos = BitVec.ofNat 48 (ssiValue (s.rd .mot (ENC_SSI_CTRL n)) word) ∧
      (t.enc n).ssiLast = some (ssiValue (s.rd .mot (ENC_SSI_CTRL n)) word) ∧ (t.enc n).ssiBad = 0 ∧
      (t.enc n).ssiStamp = t0 ∧ t.time = s.time ∧ t.pending = s.pending)) ∧
  (∀ (m : Fin 8) (s : State), s.now % 1000 = 0 → (primView s m).valid = true → (secView s m).valid = true → ∃ t,
    Sys2Proof.Machine.exec (.msOffsetTrack m) s = .next t ∧
      (let d := fixPos ((primView s m).posAt (s.now * 1000) - (secView s m).posAt (s.now * 1000))
       t.ms m = { s.ms m with offset := some d }) ∧
      RegsKept .mot [] s t ∧ Kept [.mot] s t) ∧
  (∀ (m : Fin 8) (v : Word) (s : State), (s.ms m).inUse = some false → (primView s m).valid = true →
    msChanges (s.rd .mot (ENC_MS_SEC m)) v = true → ∃ t, Sys2Proof.Machine.exec (.msInputWrite m true v) s = .next t ∧
      t.ms m = { s.ms m with offset := none } ∧ RegsKept .mot [ENC_MS_SEC m] s t ∧ Kept [.mot] s t) ∧
  ∀ (m : Fin 8) (s : State) (h : HoldSt), (s.ms m).hold = some h → h.ends ≤ s.now → ∃ t,
    Sys2Proof.Machine.exec (.msHoldEnd m) s = .next t ∧ (t.ms m).lost = true ∧ (t.ms m).hold = none ∧
      (t.ms m).inUse = none ∧ (t.ms m).frozen = (sourceView s m).posAt (h.ends * 1000) ∧ RegsKept .mot [] s t ∧
      Kept [.mot, .evt, .ejt] s t

/-- A trigger due on a generator that no port names is issued, counted once, or skipped and counted once when the generator's last one is
less than 2,500 ns back; with none due nothing happens.  On a generator that ports name each port that may send takes its next tag, notes the
instant, writes the stamp entry of that tag and queues the trigger block with the boundary and the offset of R113, and the trigger is
issued; where none of them sends it is skipped, and no tag is used.  Clearing ENABLE drops the triggers a generator still holds.
TRG_NEXT_HI applies the pair to a generator that is off.  A TRG_PORT with a GEN from 96 is ignored, every other
is stored.  A level of an input pin that its FILT accepts (N = FILT + 1 samples from the first on) and that POL makes a new one changes the
pin's level and queues a trigger on every generator that takes it, due at the acceptance; one on an output pin does nothing.
Pulses whose time is over end, the others go on.  A stamp query shows the entry of the tag, and VALID when it is the tag's own. -/
def Obligations.TriggersAreIssuedOrSkipped : Prop :=
  (∀ (g : Fin 96) (s : State), genDue s g = none → Sys2Proof.Machine.exec (.triggerDue g) s = .next s) ∧
  (∀ (g : Fin 96) (s : State) (d : Due), genDue s g = some d → namingPorts s g = [] → ∃ t,
    Sys2Proof.Machine.exec (.triggerDue g) s = .next t ∧
      (tooClose (s.gen g).last d.cam = false → (t.gen g).last = some d.cam ∧
        t.rd .mot (TRG_CNT_ISSUED g) = satAdd (s.rd .mot (TRG_CNT_ISSUED g)) 1 ∧
        t.rd .mot (TRG_CNT_SKIP g) = s.rd .mot (TRG_CNT_SKIP g)) ∧
      (tooClose (s.gen g).last d.cam = true → (t.gen g).last = (s.gen g).last ∧
        t.rd .mot (TRG_CNT_SKIP g) = satAdd (s.rd .mot (TRG_CNT_SKIP g)) 1 ∧
        t.rd .mot (TRG_CNT_ISSUED g) = s.rd .mot (TRG_CNT_ISSUED g)) ∧
      Kept [.mot, .evt] s t) ∧
  (∀ (g : Fin 96) (s : State) (d : Due), genDue s g = some d → namingPorts s g ≠ [] → sendingPorts s g d.cam = [] → ∃ t,
    Sys2Proof.Machine.exec (.triggerDue g) s = .next t ∧ (t.gen g).last = (s.gen g).last ∧
      t.rd .mot (TRG_CNT_SKIP g) = satAdd (s.rd .mot (TRG_CNT_SKIP g)) 1 ∧ t.mot.port = s.mot.port ∧
      RegsKept .mot [TRG_CNT_SKIP g] s t ∧ Kept [.mot] s t) ∧
  (∀ (g : Fin 96) (s : State) (d : Due) (p : Nat) (ps : List Nat), genDue s g = some d → sendingPorts s g d.cam = p :: ps → ∃ t,
    Sys2Proof.Machine.exec (.triggerDue g) s = .next t ∧ (t.gen g).last = some d.cam ∧
      t.rd .mot (TRG_CNT_ISSUED g) = satAdd (s.rd .mot (TRG_CNT_ISSUED g)) 1 ∧
      t.rd .mot (TRG_CNT_SKIP g) = s.rd .mot (TRG_CNT_SKIP g) ∧
      (∀ q : Fin 24, (p :: ps).contains q.val = true →
        (let e := trigStamp s g (s.portTrg q).tag d
         t.portTrg q = {
           tag := ((s.portTrg q).tag + 1) % 2 ^ 16, last := some d.cam,
           stamps := Tab.set (fun _ => none) (s.portTrg q).stamps ((s.portTrg q).tag % 4096) (some e) }) ∧
        (let b := trigBoundary ((s.lnkPort q).boundary % 21120) (s.fld .lnk (DLK_TRG_CTRL q) 5 0) d.cam
         (t.lnkPort q).trig = (s.lnkPort q).trig ++ [if b.1 < (s.lnkPort q).boundary
           then ((s.lnkPort q).boundary, (s.portTrg q).tag, 0) else (b.1, (s.portTrg q).tag, b.2)])) ∧
      (∀ q : Fin 24, (p :: ps).contains q.val = false → t.portTrg q = s.portTrg q ∧ t.lnkPort q = s.lnkPort q) ∧
      Kept [.mot, .lnk, .phy, .pwr, .evt] s t) ∧
  (∀ (g : Fin 96) (v : Word) (s : State), bit v 31 = false → ∃ t,
    Sys2Proof.Machine.exec (.trgCtrlWrite g v) s = .next t ∧ t.flag .mot (TRG_CTRL g) 31 = false ∧
      t.gen g = { s.gen g with due := [], pendingEvt := none, timeNext := none } ∧
      RegsKept .mot [TRG_CTRL g, TRG_STATUS g] s t ∧ Kept [.mot] s t) ∧
  (∀ (g : Fin 96) (v : Word) (s : State), s.flag .mot (TRG_CTRL g) 31 = false → ∃ t,
    Sys2Proof.Machine.exec (.trgNextWrite g v) s = .next t ∧
      (let x := bits v 23 8 * 2 ^ 64 + (s.rd .mot (TRG_NEXT_LO g)).toNat * 2 ^ 32 + bits v 7 0 * 2 ^ 24
       t.gen g = { s.gen g with next := BitVec.ofNat 80 x }) ∧
      RegsKept .mot [TRG_NEXT_HI g] s t ∧ Kept [.mot] s t) ∧
  (∀ (p : Fin 24) (v : Word) (s : State),
    (96 ≤ bits v 6 0 → Sys2Proof.Machine.exec (.trgPortWrite p v) s = .next s) ∧
    (bits v 6 0 < 96 → ∃ t, Sys2Proof.Machine.exec (.trgPortWrite p v) s = .next t ∧
      t.flag .mot (TRG_PORT p) 31 = bit v 31 ∧ t.fld .mot (TRG_PORT p) 6 0 = bits v 6 0 ∧
      RegsKept .mot [TRG_PORT p] s t ∧ t.mot = { s.mot with regs := t.mot.regs } ∧ Kept [.mot] s t)) ∧
  (∀ (k : Fin 16) (level : Bool) (first : BitVec 64) (s : State), s.flag .mot (TRG_PIN k) 31 = true →
    Sys2Proof.Machine.exec (.trigPinEdge k level first) s = .next s) ∧
  (∀ (k : Fin 16) (level act : Bool) (first : BitVec 64) (s : State), s.flag .mot (TRG_PIN k) 31 = false →
    act = (level != s.flag .mot (TRG_PIN k) 30) → (s.trigPin k).level ≠ act →
    first.toNat + 5 * s.fld .mot (TRG_PIN k) 11 6 ≤ s.now → ∃ t,
      Sys2Proof.Machine.exec (.trigPinEdge k level first) s = .next t ∧ (t.trigPin k).level = act ∧
      (∀ g : Fin 96, (t.gen g).due =
        if (pinGens s k act).contains g.val
        then (s.gen g).due ++ [(first.toNat + 5 * s.fld .mot (TRG_PIN k) 11 6) * 1000] else (s.gen g).due) ∧
      RegsKept .mot [] s t ∧ Kept [.mot, .evt] s t) ∧
  (∀ (k : Fin 16) (s : State), ∃ t, Sys2Proof.Machine.exec (.trigPinPulseEnd k) s = .next t ∧
    t.trigPin k = { s.trigPin k with pulses := (s.trigPin k).pulses.filter (fun p => decide (s.now * 1000 < p.2)) } ∧
      RegsKept .mot [] s t ∧ Kept [.mot] s t) ∧
  ∀ (v : Word) (s : State), ∃ t, Sys2Proof.Machine.exec (.stampQuery v) s = .next t ∧
    (let e := (Tab.get (fun _ => none) (s.portTrg (bits v 28 24)).stamps (bits v 15 0 % 4096)).getD StampEnt.init
     t.rd .mot TRG_STAMP_TB_LO = lo32 e.tb ∧ t.rd .mot TRG_STAMP_TB_HI = hi32 e.tb ∧
     t.rd .mot TRG_STAMP_POS_LO = lo32 e.pos.toNat) ∧
    t.flag .mot TRG_STAMP_VALID 0 = (tagStamp s (bits v 28 24) (bits v 15 0)).isSome ∧
    t.mot = { s.mot with regs := t.mot.regs } ∧ Kept [.mot] s t

/-- Clearing DLP_CTRL.EN puts a port to OFF in every state; setting it with the reference present, outside STANDBY and FAULT, starts DETECT with the stored settings.
RETRAIN does nothing in OFF, restarts at DETECT with k = 0 before ACTIVE and goes through a back-off of 16 ms from there on.
Training frames are due at their boundaries, leave in DSTATE RUN only, and carry the request field and a SEQ that moves only when it changes; a span port sends the frame of R81 until
it has been asked for data.  SIG of a lane shows at once, SIG of every configured lane for 100 us takes DETECT to ACQUIRE, CDR lock of every configured lane ACQUIRE to LOCK,
alignment DESKEW to ACTIVE with k = 0 and DL_UP.  An unanswered request, a state's timeout and the loss of SIG in training fail with their
CAUSE; nothing happens before the time is over.  A frame with a bad CRC or polarity breaks the succession, one in LOCK counts, one in DESKEW may
say DATA_READY.  In TUNE a measured preset is kept if it is the best so far, and the next preset is asked for.  The end of
back-off starts DETECT. -/
def Obligations.PortsTrainByTheStateMachine : Prop :=
  (∀ (p : Fin 28) (v : Word) (s : State), bit v 31 = false → s.flag .phy (phyCtrl p) 31 = true → ∃ t,
    Sys2Proof.Machine.exec (.portEnWrite p v) s = .next t ∧ portState t p = phOff ∧ inBackoff t p = false ∧
      (p.val < 24 ∨ portState s p ≠ phActive → BlocksKept [.phy, .lnk, .pix, .evt, .pwr] s t)) ∧
  (∀ (p : Fin 28) (v : Word) (s : State), bit v 31 = true → bit v 30 = false → s.flag .phy (phyCtrl p) 31 = false →
    refOk s p = true → s.fld .pwr PWR_STATUS 31 28 ≠ 2 → s.fld .pwr PWR_STATUS 31 28 ≠ 4 → ∃ t, Sys2Proof.Machine.exec (.portEnWrite p v) s = .next t ∧ portState t p = phDetect ∧
      inBackoff t p = false ∧ (t.phyPort p).entered = s.now ∧ (t.phyPort p).rate = t.fld .phy (phyCtrl p) 29 28 ∧
      (t.phyPort p).lanes = t.fld .phy (phyCtrl p) 27 27 ∧ (t.phyPort p).autoPol = t.flag .phy (phyCtrl p) 18 ∧
      (p.val < 24 ∨ portState s p ≠ phActive → BlocksKept [.phy, .lnk] s t)) ∧
  (∀ (p : Fin 28) (s : State),
    (portState s p = phOff → Sys2Proof.Machine.exec (.retrain p) s = .next s) ∧
    (1 ≤ portState s p → portState s p ≤ 6 → ∃ t, Sys2Proof.Machine.exec (.retrain p) s = .next t ∧
      portState t p = phDetect ∧ inBackoff t p = false ∧ t.fld .phy (phyBackoff p) 3 0 = 0 ∧ Kept [.phy, .lnk] s t) ∧
    (portUp s p = true → ∃ t, Sys2Proof.Machine.exec (.retrain p) s = .next t ∧
      portState t p = phDetect ∧ inBackoff t p = true ∧ t.fld .phy (phyBackoff p) 3 0 = 0 ∧
      (t.phyPort p).backoffEnd = s.now + 16000000 ∧
      (p.val < 24 ∨ portState s p ≠ phActive → BlocksKept [.phy, .lnk, .pix, .evt, .pwr] s t))) ∧
  (∀ (p : Fin 28) (s : State), s.outputsOn = false → Sys2Proof.Machine.exec (.bcTrainingFrame p) s = .next s) ∧
  (∀ (p : Fin 28) (s : State), p.val < 24 → inTraining s p = true → bcAlive s p = true → s.outputsOn = true →
    (s.phyPort p).frameAt ≤ s.now * 1000 → ∃ t,
    Sys2Proof.Machine.exec (.bcTrainingFrame p) s = .next t ∧ (t.phyPort p).sent = requestField s p ∧
      (t.phyPort p).frameAt = (s.phyPort p).frameAt + 327680 ∧
      (t.phyPort p).seq = (if (s.phyPort p).sent = requestField s p then (s.phyPort p).seq
        else ((s.phyPort p).seq + 1) % 256) ∧
      RegsKept .phy [] s t ∧ Kept [.phy] s t) ∧
  (∀ (p : Fin 28) (s : State), 24 ≤ p.val → inTraining s p = true → bcAlive s p = true → s.outputsOn = true →
    (s.phyPort p).frameAt ≤ s.now * 1000 →
    ((s.phyPort p).dataOn = true → Sys2Proof.Machine.exec (.bcTrainingFrame p) s = .next s) ∧
    ((s.phyPort p).dataOn = false → ∃ t, Sys2Proof.Machine.exec (.bcTrainingFrame p) s = .next t ∧
      t.phyPort p = ((s.phyPort p).send (requestField s p)).sendRxFrame ∧ (t.phyPort p).dataOn = (s.phyPort p).dataReq ∧
      RegsKept .phy [] s t ∧ RegsKept .lnk [] s t ∧ Kept [.phy, .lnk] s t)) ∧
  (∀ (p : Fin 28) (lane : Fin 2) (s : State), portState s p = phDetect → inBackoff s p = false →
    (cfgLanes s p).contains lane.val = true →
    (s.flag .phy (phyLane p lane 0) 4 = false → ∃ t, Sys2Proof.Machine.exec (.sigDetected p lane) s = .next t ∧
      portState t p = phDetect ∧ t.flag .phy (phyLane p lane 0) 4 = true ∧
      t.phyPort p = { s.phyPort p with sigFrom := s.now } ∧ RegsKept .phy [phyLane p lane 0] s t ∧ Kept [.phy] s t) ∧
    (bcAlive s p = true → lanesShow s p 4 = true → (s.phyPort p).sigFrom + 100000 ≤ s.now → ∃ t,
      Sys2Proof.Machine.exec (.sigDetected p lane) s = .next t ∧ portState t p = phAcquire ∧
      (t.phyPort p).entered = s.now ∧ RegsKept .phy [phyStatus p, phyLane p lane 0] s t ∧ Kept [.phy] s t)) ∧
  (∀ (p : Fin 28) (lane : Fin 2) (s : State), portState s p = phAcquire → (cfgLanes s p).contains lane.val = true → ∃ t,
    Sys2Proof.Machine.exec (.cdrLock p lane) s = .next t ∧ t.flag .phy (phyLane p lane 0) 3 = true ∧
      ((∀ l ∈ cfgLanes s p, l = lane.val ∨ s.flag .phy (phyLane p l 0) 3 = true) →
        portState t p = phLock ∧ (t.phyPort p).entered = s.now) ∧
      ((∃ l ∈ cfgLanes s p, l ≠ lane.val ∧ s.flag .phy (phyLane p l 0) 3 = false) → portState t p = phAcquire) ∧
      RegsKept .phy [phyStatus p, phyLane p lane 0] s t ∧ Kept [.phy] s t) ∧
  (∀ (p : Fin 28) (s : State) (r : CoefReq) (since : Nat), (s.phyPort p).coef = some (r, since) →
    (s.now < since + 1000000 → Sys2Proof.Machine.exec (.coefTimeout p) s = .next s) ∧
    (since + 1000000 ≤ s.now → ∃ t, Sys2Proof.Machine.exec (.coefTimeout p) s = .next t ∧ FailedTraining p 7 s t ∧
      BlocksKept [.phy, .lnk, .pix, .evt, .pwr] s t)) ∧
  (∀ (p : Fin 28) (eyes : List (Nat × Nat × Nat)) (up : Bool) (s : State) (ts : TuneSt) (a n : Nat) (rest : List Nat),
    (s.phyPort p).tune = some ts → ts.adapting = some a → ts.phase = .search (n :: rest) →
    (s.now < a + 1000000 → Sys2Proof.Machine.exec (.tuneStepEnd p eyes up) s = .next s) ∧
    (a + 1000000 ≤ s.now → eyes.length = (cfgLanes s p).length → ∃ t,
      Sys2Proof.Machine.exec (.tuneStepEnd p eyes up) s = .next t ∧ (t.phyPort p).coef = some (.preset n, s.now) ∧
      (t.phyPort p).tune = some { ts with
        phase := .search rest
        cur := n
        next := up
        adapting := none
        best := some (match ts.best with
          | none => (portFom (isPam4 s p) eyes, ts.cur)
          | some b => if b.1 < portFom (isPam4 s p) eyes then (portFom (isPam4 s p) eyes, ts.cur) else b) } ∧
      RegsKept .phy [phyLane p 0 0x18, phyLane p 1 0x18] s t ∧ Kept [.phy] s t)) ∧
  (∀ (p : Fin 28) (s : State), portState s p = phDeskew →
    (isAligned s p = false → Sys2Proof.Machine.exec (.deskewDone p) s = .next s) ∧
    (isAligned s p = true → ∃ t, Sys2Proof.Machine.exec (.deskewDone p) s = .next t ∧ portState t p = phActive ∧
      (t.phyPort p).entered = s.now ∧ t.fld .phy (phyBackoff p) 3 0 = 0 ∧ t.flag .phy (phyStatus p) 2 = true ∧
      (p.val < 24 → (t.portTrg p).tag = 0) ∧ RegsKept .phy [phyStatus p, phyBackoff p] s t ∧
      Kept [.phy, .lnk, .mot, .evt, .pwr] s t)) ∧
  (∀ (p : Fin 28) (s : State) (ns cause : Nat), trainLimit (portState s p) = some (ns, cause) → inBackoff s p = false →
    (s.now < (s.phyPort p).entered + ns → Sys2Proof.Machine.exec (.trainTimeout p) s = .next s) ∧
    ((s.phyPort p).entered + ns ≤ s.now → ∃ t, Sys2Proof.Machine.exec (.trainTimeout p) s = .next t ∧
      FailedTraining p cause s t ∧ BlocksKept [.phy, .lnk, .pix, .evt, .pwr] s t)) ∧
  (∀ (p : Fin 28) (s : State), inBackoff s p = true → (s.phyPort p).backoffEnd ≤ s.now → ∃ t,
    Sys2Proof.Machine.exec (.backoffEnd p) s = .next t ∧ portState t p = phDetect ∧ inBackoff t p = false ∧
      (t.phyPort p).entered = s.now ∧ (t.phyPort p).rate = s.fld .phy (phyCtrl p) 29 28 ∧ Kept [.phy, .lnk] s t) ∧
  (∀ (p : Fin 28) (lane : Fin 2) (s : State), 2 ≤ portState s p → portState s p ≤ 6 →
    (cfgLanes s p).contains lane.val = true → ∃ t, Sys2Proof.Machine.exec (.unplug p lane) s = .next t ∧
      FailedTraining p 12 s t ∧ t.flag .phy (phyStatus p) 4 = true ∧ BlocksKept [.phy, .lnk, .pix, .evt, .pwr] s t) ∧
  ∀ (p : Fin 28) (lane : Fin 2) (status : BitVec 48) (crc : BitVec 16) (inverted : Bool) (s : State),
    inBackoff s p = false → (cfgLanes s p).contains lane.val = true →
    (3 ≤ portState s p → portState s p ≤ 6 →
      (crc16 48 status.toNat ≠ crc.toNat ∨ (inverted = true ∧ (s.phyPort p).autoPol = false)) → ∃ t,
      Sys2Proof.Machine.exec (.rxTrainingFrame p lane status crc inverted none) s = .next t ∧
        t.phyPort p = (s.phyPort p).badFrame lane ∧ RegsKept .phy [] s t ∧ Kept [.phy] s t) ∧
    (crc16 48 status.toNat = crc.toNat → inverted = false →
      (portState s p = phLock → framesLocked (s.onPhy p (fun x => x.goodFrame lane status.toNat)) p = false → ∃ t,
        Sys2Proof.Machine.exec (.rxTrainingFrame p lane status crc inverted none) s = .next t ∧
          t.phyPort p = (s.phyPort p).goodFrame lane status.toNat ∧ portState t p = phLock ∧
          RegsKept .phy [phyLane p lane 0] s t ∧ Kept [.phy] s t) ∧
      (portState s p = phDeskew → tbit status.toNat 39 = true → ∃ t,
        Sys2Proof.Machine.exec (.rxTrainingFrame p lane status crc inverted none) s = .next t ∧
          t.phyPort p = { (s.phyPort p).goodFrame lane status.toNat with dataReady := true } ∧
          RegsKept .phy [] s t ∧ Kept [.phy] s t))

/-- With no equaliser write in the cycle, a due adaptation update moves a tap that is not frozen by at most one code inside its range and leaves a frozen one; so the
CTLE in TUNE.  An equaliser write takes effect at once, the CTLE clipped to 24.  A loss in ACTIVE goes to RECOVER and counts;
RECOVER and QUIET return to ACTIVE with the lanes aligned, and a QUIET exit of 100 us without that goes to RECOVER.  A lost
reference clock turns its eight ports OFF with cause 14 and is a contained fault; its return starts those that are enabled, outside STANDBY and FAULT.
An unanswered QUIET request sets QUIET_NAK and waits 1 ms; an exit from QUIET starts once, a wake message queues its message. -/
def Obligations.PortsRecoverRestAndAdapt : Prop :=
  (∀ (p : Fin 28) (lane : Fin 2) (moves : List Move) (s : State), adapts s p lane = true → moves.length = adaptMoves →
    adaptDue s p lane ≤ s.now * 1000 → (∀ off ∈ [0x4, 0x8, 0xC, 0x10], eqWritten s p lane off = false) →
    ∃ t, Sys2Proof.Machine.exec (.adaptUpdate p lane moves) s = .next t ∧
      (∀ i, 1 ≤ i → i ≤ 12 → let f := tapField i; let w := f.2.1 + 1 - f.2.2
        sgn w (t.fld .phy (phyLane p lane f.1) f.2.1 f.2.2) =
          if frozen s p lane (i - 1) then sgn w (s.fld .phy (phyLane p lane f.1) f.2.1 f.2.2)
          else moveIn (-(2 ^ (w - 1) : Nat)) ((2 ^ (w - 1) - 1 : Nat)) (atD moves i .stay)
            (sgn w (s.fld .phy (phyLane p lane f.1) f.2.1 f.2.2))) ∧
      (portState s p = phTune → frozen s p lane 15 = false →
        (t.fld .phy (phyLane p lane 4) 4 0 : Int) = moveIn 0 24 (atD moves 0 .stay) (s.fld .phy (phyLane p lane 4) 4 0)) ∧
      RegsKept .phy [phyLane p lane 0x4, phyLane p lane 0x8, phyLane p lane 0xC, phyLane p lane 0x10, phyStatus p] s t ∧
      Kept [.phy] s t) ∧
  (∀ (p : Fin 28) (lane : Fin 2) (reg : EqReg) (v : Word) (s : State), p.val < 24 ∨ lane = 0 → ∃ t,
    Sys2Proof.Machine.exec (.eqRegWrite p lane reg v) s = .next t ∧
      (reg = .ctle → t.fld .phy (phyLane p lane 4) 4 0 = min 24 (bits v 4 0)) ∧
      (reg = .freeze → t.rd .phy (phyLane p lane 0x14) = BitVec.ofNat 32 (bits v 15 0)) ∧
      (∀ i, 1 ≤ i → i ≤ 12 → (tapField i).1 = eqOff reg →
        t.fld .phy (phyLane p lane (eqOff reg)) (tapField i).2.1 (tapField i).2.2 =
          bits v (tapField i).2.1 (tapField i).2.2) ∧
      RegsKept .phy [phyLane p lane (eqOff reg), phyStatus p] s t ∧ 
      t.phyPort p = { s.phyPort p with eqAt := (t.phyPort p).eqAt } ∧ Kept [.phy] s t) ∧
  (∀ (p : Fin 28) (lane : Fin 2) (loss : LinkLoss) (s : State),
    (portState s p ≠ phActive → Sys2Proof.Machine.exec (.linkRecover p lane loss) s = .next s) ∧
    (portState s p = phActive → (cfgLanes s p).contains lane.val = true → ∃ t,
      Sys2Proof.Machine.exec (.linkRecover p lane loss) s = .next t ∧ portState t p = phRecover ∧
        (t.phyPort p).entered = s.now ∧ t.rd .phy (phyRecover p) = satAdd (s.rd .phy (phyRecover p)) 1 ∧
        (t.lnkPort p).await = true ∧ t.flag .phy (phyLane p lane 0) 2 = false ∧
        (loss = .sig → t.fld .phy (phyLane p lane 0) 4 2 = 0) ∧
        (p.val < 24 → BlocksKept [.phy, .lnk, .pix, .pwr] s t))) ∧
  (∀ (p : Fin 28) (s : State), portState s p = phRecover →
    (isAligned s p = false → Sys2Proof.Machine.exec (.recoverDone p) s = .next s) ∧
    (isAligned s p = true → ∃ t, Sys2Proof.Machine.exec (.recoverDone p) s = .next t ∧ portState t p = phActive ∧
      (t.phyPort p).entered = s.now ∧ (∀ l ∈ cfgLanes s p, t.fld .phy (phyLane p l 0) 4 2 = 7) ∧
      RegsKept .phy [phyStatus p, phyLane p 0 0, phyLane p 1 0] s t ∧ Kept [.phy] s t)) ∧
  (∀ (r : Fin 3) (s : State), refOk s (r.val * 8) = true → ∃ t,
    Sys2Proof.Machine.exec (.dlRefclkLoss r) s = .next t ∧
      (∀ p ∈ refPorts r.val, portState t p = phOff ∧ t.fld .phy (phyStatus p) 27 24 = 14 ∧ refOk t p = false) ∧
      (∀ q, q < 28 → q ∉ refPorts r.val → portState t q = portState s q) ∧ t.flag .flt FLT_STATUS 30 = true ∧
      BlocksKept [.phy, .lnk, .pix, .evt, .pwr, .flt] s t) ∧
  (∀ (r : Fin 3) (s : State), refOk s (r.val * 8) = false → ∃ t,
    Sys2Proof.Machine.exec (.dlRefclkReturn r) s = .next t ∧
      (∀ p ∈ refPorts r.val, refOk t p = true ∧
        (s.flag .phy (phyCtrl p) 31 = true → portState s p = phOff → s.fld .pwr PWR_STATUS 31 28 ≠ 2 →
          s.fld .pwr PWR_STATUS 31 28 ≠ 4 → portState t p = phDetect ∧ t.fld .phy (phyBackoff p) 3 0 = 0) ∧
        (s.flag .phy (phyCtrl p) 31 = false → portState t p = portState s p)) ∧
      BlocksKept [.phy, .lnk] s t) ∧
  (∀ (p : Fin 24) (s : State) (t0 : Nat), (s.phyPort p).quietReq = some t0 →
    (s.now < t0 + 10000 → Sys2Proof.Machine.exec (.quietAckTimeout p) s = .next s) ∧
    (t0 + 10000 ≤ s.now → ∃ t, Sys2Proof.Machine.exec (.quietAckTimeout p) s = .next t ∧
      t.flag .phy (phyStatus p) 5 = true ∧
      t.phyPort p = { s.phyPort p with quietReq := none, quietHold := s.now + 1000000 } ∧
      RegsKept .phy [phyStatus p] s t ∧ Kept [.phy] s t)) ∧
  (∀ (p : Fin 24) (how : QuietExit) (s : State),
    (portState s p ≠ phQuiet → Sys2Proof.Machine.exec (.quietExit p how) s = .next s) ∧
    (portState s p = phQuiet → (s.phyPort p).quietExit = none → ∃ t,
      Sys2Proof.Machine.exec (.quietExit p how) s = .next t ∧ portState t p = phQuiet ∧
        t.phyPort p = { s.phyPort p with quietExit := some s.now } ∧
        (how = .wake → (t.lnkPort p).lctl = (s.lnkPort p).lctl ++ [2]) ∧ (how ≠ .wake → t.lnk = s.lnk) ∧
        RegsKept .phy [phyLane p 0 0, phyLane p 1 0] s t ∧ Kept [.phy, .lnk] s t)) ∧
  (∀ (p : Fin 24) (s : State) (t0 : Nat), portState s p = phQuiet → (s.phyPort p).quietExit = some t0 →
    (isAligned s p = true → ∃ t, Sys2Proof.Machine.exec (.quietExitDone p) s = .next t ∧ portState t p = phActive ∧
      (t.phyPort p).quietExit = none ∧ RegsKept .phy [phyStatus p, phyLane p 0 0, phyLane p 1 0] s t ∧ Kept [.phy] s t) ∧
    (t0 + 100000 ≤ s.now → ∃ t, Sys2Proof.Machine.exec (.quietExitTimeout p) s = .next t ∧
      portState t p = phRecover ∧ t.rd .phy (phyRecover p) = satAdd (s.rd .phy (phyRecover p)) 1 ∧
      BlocksKept [.phy, .lnk, .pix, .pwr] s t))

/-- START in ACTIVE with no scan running clears the counts and sets BUSY; outside ACTIVE it only sets ABORTED beside storing the fields.
While one runs, the symbols that count are added with their errors, up to 2^DWELL; an abort, and the end once 2^DWELL are compared,
clear BUSY and START and set ABORTED or DONE; with no scan running nothing happens.  A write to DLP_PRBS_CTRL stores its fields while DLP_CTRL.EN is 0 (TX on lane 0 only); while EN
is 1 it keeps EN and TX and sets CFG_ERR if they were asked for.  A seeded checker that is not locked locks on the 64th match in
succession and starts again at a mismatch; a locked one counts each bit and each mismatch and unlocks at 16 within the last 256. -/
def Obligations.EyeScansAndTestPatterns : Prop :=
  (∀ (p : Fin 28) (lane : Fin 2) (v : Word) (s : State), p.val < 24 ∨ lane = 0 → isPam4 s p = true ∨ bits v 29 28 = 1 → bit v 31 = true →
    bit v 30 = false → (portState s p = phActive → s.flag .phy (phyLane p lane 0x24) 0 = false → ∃ t,
      Sys2Proof.Machine.exec (.escanStart p lane v) s = .next t ∧ t.flag .phy (phyLane p lane 0x24) 0 = true ∧
        t.flag .phy (phyLane p lane 0x20) 31 = true ∧ t.rd .phy (phyLane p lane 0x30) = 0#32 ∧
        t.rd64 .phy (phyLane p lane 0x28) (phyLane p lane 0x2C) = 0 ∧
        RegsKept .phy [phyLane p lane 0x20, phyLane p lane 0x24, phyLane p lane 0x28, phyLane p lane 0x2C,
          phyLane p lane 0x30, phyStatus p] s t ∧ Kept [.phy] s t) ∧
    (portState s p ≠ phActive → ∃ t, Sys2Proof.Machine.exec (.escanStart p lane v) s = .next t ∧
      t.flag .phy (phyLane p lane 0x24) 1 = true ∧
      t.flag .phy (phyLane p lane 0x24) 0 = s.flag .phy (phyLane p lane 0x24) 0 ∧
      RegsKept .phy [phyLane p lane 0x20, phyLane p lane 0x24, phyStatus p] s t ∧ Kept [.phy] s t)) ∧
  (∀ (p : Fin 28) (lane : Fin 2) (samples : List (Fin 4 × Bool)) (s : State), s.flag .phy (phyLane p lane 0x24) 0 = false →
    Sys2Proof.Machine.exec (.escanAbort p lane samples) s = .next s) ∧
  (∀ (p : Fin 28) (lane : Fin 2) (samples : List (Fin 4 × Bool)) (s : State), s.flag .phy (phyLane p lane 0x24) 0 = false →
    Sys2Proof.Machine.exec (.escanDone p lane samples) s = .next s) ∧
  (∀ (p : Fin 28) (lane : Fin 2) (samples : List (Fin 4 × Bool)) (seen : List Bool) (old : Nat) (s : State),
    s.flag .phy (phyLane p lane 0x24) 0 = true → old = s.rd64 .phy (phyLane p lane 0x28) (phyLane p lane 0x2C) →
    seen = (samples.filterMap (fun x => escanSample (isPam4 s p) (s.fld .phy (phyLane p lane 0x20) 29 28) x.1 x.2)).take
      (2 ^ s.fld .phy (phyLane p lane 0x20) 27 22 - old) → old + seen.length < 2 ^ 48 →
    (∃ t, Sys2Proof.Machine.exec (.escanAbort p lane samples) s = .next t ∧
      t.rd64 .phy (phyLane p lane 0x28) (phyLane p lane 0x2C) = old + seen.length ∧
      t.rd .phy (phyLane p lane 0x30) = satAdd (s.rd .phy (phyLane p lane 0x30)) (seen.filter id).length ∧
      t.flag .phy (phyLane p lane 0x24) 0 = false ∧ t.flag .phy (phyLane p lane 0x24) 1 = true ∧
      t.fld .phy (phyLane p lane 0x20) 31 30 = 0 ∧ Kept [.phy] s t) ∧
    (∃ t, Sys2Proof.Machine.exec (.escanDone p lane samples) s = .next t ∧
      t.rd64 .phy (phyLane p lane 0x28) (phyLane p lane 0x2C) = old + seen.length ∧
      t.rd .phy (phyLane p lane 0x30) = satAdd (s.rd .phy (phyLane p lane 0x30)) (seen.filter id).length ∧
      (t.flag .phy (phyLane p lane 0x24) 0 = decide (old + seen.length < 2 ^ s.fld .phy (phyLane p lane 0x20) 27 22)) ∧
      (2 ^ s.fld .phy (phyLane p lane 0x20) 27 22 ≤ old + seen.length →
        t.flag .phy (phyLane p lane 0x24) 2 = true ∧ t.fld .phy (phyLane p lane 0x20) 31 30 = 0) ∧ Kept [.phy] s t)) ∧
  (∀ (p : Fin 28) (lane : Fin 2) (v : Word) (s : State), p.val < 24 ∨ lane = 0 → bits v 30 28 < 6 →
    (s.flag .phy (phyCtrl p) 31 = false → ∃ t, Sys2Proof.Machine.exec (.prbsCtrlWrite p lane v) s = .next t ∧
      t.flag .phy (phyLane p lane 0x40) 31 = bit v 31 ∧ t.fld .phy (phyLane p lane 0x40) 30 28 = bits v 30 28 ∧
      t.flag .phy (phyLane p lane 0x40) 26 = (bit v 26 && decide (lane = 0)) ∧
      RegsKept .phy [phyLane p lane 0x40] s t ∧ BlocksKept [.phy] s t) ∧
    (s.flag .phy (phyCtrl p) 31 = true → ∃ t, Sys2Proof.Machine.exec (.prbsCtrlWrite p lane v) s = .next t ∧
      t.flag .phy (phyLane p lane 0x40) 31 = s.flag .phy (phyLane p lane 0x40) 31 ∧
      t.flag .phy (phyLane p lane 0x40) 26 = s.flag .phy (phyLane p lane 0x40) 26 ∧
      (bit v 31 = true → t.flag .phy (phyStatus p) 7 = true) ∧
      RegsKept .phy [phyLane p lane 0x40, phyStatus p] s t ∧ Kept [.phy] s t)) ∧
  (∀ (p : Fin 28) (lane : Fin 2) (decisions : List (Fin 4)) (s : State), s.flag .phy (phyLane p lane 0x40) 25 = true →
    Sys2Proof.Machine.exec (.prbsLock p lane decisions) s = .next s) ∧
  (∀ (p : Fin 28) (lane : Fin 2) (decisions : List (Fin 4)) (s : State), testing s p lane = false →
    Sys2Proof.Machine.exec (.prbsLock p lane decisions) s = .next s) ∧
  (∀ (p : Fin 28) (lane : Fin 2) (d : Fin 4) (b : Bool) (s : State), s.flag .phy (phyLane p lane 0x40) 25 = false →
    testing s p lane = true → s.fld .phy (phyLane p lane 0x40) 30 28 < 5 → testBits s p lane [d] = [b] →
    prbsLength (s.fld .phy (phyLane p lane 0x40) 30 28) ≤ (s.chk p lane).held → ∃ t,
    Sys2Proof.Machine.exec (.prbsLock p lane [d]) s = .next t ∧
      t.flag .phy (phyLane p lane 0x40) 25 =
        (decide (63 ≤ (s.chk p lane).run) && prbsNext (s.fld .phy (phyLane p lane 0x40) 30 28) (s.chk p lane).hist ==
          xor b (s.flag .phy (phyLane p lane 0x40) 27)) ∧
      (prbsNext (s.fld .phy (phyLane p lane 0x40) 30 28) (s.chk p lane).hist ≠ xor b (s.flag .phy (phyLane p lane 0x40) 27) →
        (t.chk p lane).run = 0) ∧
      RegsKept .phy [phyLane p lane 0x40] s t ∧ Kept [.phy] s t) ∧
  (∀ (p : Fin 28) (lane : Fin 2) (decisions : List (Fin 4)) (s : State), s.flag .phy (phyLane p lane 0x40) 25 = false →
    Sys2Proof.Machine.exec (.prbsUnlock p lane decisions) s = .next s) ∧
  ∀ (p : Fin 28) (lane : Fin 2) (d : Fin 4) (b wrong : Bool) (s : State), s.flag .phy (phyLane p lane 0x40) 25 = true →
    testing s p lane = true → s.fld .phy (phyLane p lane 0x40) 30 28 < 5 → testBits s p lane [d] = [b] →
    wrong = (prbsNext (s.fld .phy (phyLane p lane 0x40) 30 28) (s.chk p lane).hist !=
      xor b (s.flag .phy (phyLane p lane 0x40) 27)) → ∃ t,
    Sys2Proof.Machine.exec (.prbsUnlock p lane [d]) s = .next t ∧
      t.flag .phy (phyLane p lane 0x40) 25 =
        decide ((((wrong :: (s.chk p lane).recent).take 256).filter id).length < 16) ∧
      t.rd64 .phy (phyLane p lane 0x48) (phyLane p lane 0x4C) =
        capNat (2 ^ 48 - 1) (s.rd64 .phy (phyLane p lane 0x48) (phyLane p lane 0x4C) + 1) ∧
      t.rd .phy (phyLane p lane 0x44) = satAdd (s.rd .phy (phyLane p lane 0x44)) (b2n wrong) ∧
      RegsKept .phy [phyLane p lane 0x40, phyLane p lane 0x44, phyLane p lane 0x48, phyLane p lane 0x4C] s t ∧
      Kept [.phy] s t

/-- A codeword of a group is decoded from its decisions: it counts in the 48-bit DLK_FEC_CW, which stops at its end; an
uncorrectable one counts in DLK_FEC_UNCORR, one with k corrected symbols in DLK_FEC_CORR_CW and by k in DLK_FEC_CORR_SYM, and the FEC warning is
set when the window's symbols pass a nonzero threshold for the first time; a span port counts none of it; a codeword before any group position changes nothing (the model's choice, log 84).  Clearing puts the 48-bit counter to 0.
A place off the grid of a locked lane, or without the PATTERN, changes no more than that the lane has received.  At the next group position, or one group behind any
earlier match of an unlocked lane, a match counts a hit, clears the misses and, the second in succession, locks the lane, and the COUNT and LANE of a good marker are taken; a miss clears the hits; the fourth in
succession unlocks the lane, which in ACTIVE is a move to RECOVER. -/
def Obligations.CodewordsAndMarkersKeepTheirCounts : Prop :=
  (∀ (p : Fin 28) (lane : Fin 2) (bits : BitVec 5440) (s : State),
    (laneSt s p (logicalLane s p lane)).cw = 0 ∨ 40 ≤ (laneSt s p (logicalLane s p lane)).cw →
    Sys2Proof.Machine.exec (.rxCodeword p lane bits) s = .next s) ∧
  (∀ (p : Fin 28) (lane : Fin 2) (bits : BitVec 5440) (ll : Nat) (d : List Bool × Option Nat) (s : State), p.val < 24 →
    ll = logicalLane s p lane → 0 < (laneSt s p ll).cw → (laneSt s p ll).cw < 40 →
    d = decodeCodeword ((lineMode s p lane).bits (laneSt s p ll).prev (cwDecisions s p bits)) → ∃ t,
    Sys2Proof.Machine.exec (.rxCodeword p lane bits) s = .next t ∧
      t.rd64 .lnk (DLK_FEC_CW_LO p ll) (DLK_FEC_CW_HI p ll) =
        capNat (2 ^ 48 - 1) (s.rd64 .lnk (DLK_FEC_CW_LO p ll) (DLK_FEC_CW_HI p ll) + 1) ∧
      (laneSt t p ll).cw = (laneSt s p ll).cw + 1 ∧
      (d.2 = none → t.rd .lnk (DLK_FEC_UNCORR p ll) = satAdd (s.rd .lnk (DLK_FEC_UNCORR p ll)) 1 ∧
        RegsKept .lnk [DLK_FEC_CW_LO p ll, DLK_FEC_CW_HI p ll, DLK_FEC_UNCORR p ll] s t) ∧
      (d.2 = some 0 → RegsKept .lnk [DLK_FEC_CW_LO p ll, DLK_FEC_CW_HI p ll] s t) ∧
      (∀ k, 0 < k → d.2 = some k →
        t.rd .lnk (DLK_FEC_CORR_CW p ll) = satAdd (s.rd .lnk (DLK_FEC_CORR_CW p ll)) 1 ∧
        t.rd .lnk (DLK_FEC_CORR_SYM p ll) = satAdd (s.rd .lnk (DLK_FEC_CORR_SYM p ll)) k ∧
        (s.rd .lnk (DLK_FEC_WARN p) = 0#32 → t.rd .lnk (DLK_STATUS p) = s.rd .lnk (DLK_STATUS p) ∧ t.evt = s.evt) ∧
        ((laneSt s p ll).window = s.now / 1000000 → (laneSt s p ll).warned = false →
          s.rd .lnk (DLK_FEC_WARN p) ≠ 0#32 → (s.rd .lnk (DLK_FEC_WARN p)).toNat < (laneSt s p ll).corrected + k →
          t.flag .lnk (DLK_STATUS p) 5 = true ∧ (laneSt t p ll).warned = true)) ∧
      Kept [.lnk, .evt] s t) ∧
  (∀ (p : Fin 28) (lane : Fin 2) (bits : BitVec 5440) (s : State), 24 ≤ p.val → 0 < (laneSt s p (logicalLane s p lane)).cw →
    (laneSt s p (logicalLane s p lane)).cw < 40 → ∃ t, Sys2Proof.Machine.exec (.rxCodeword p lane bits) s = .next t ∧
      (laneSt t p (logicalLane s p lane)).cw = (laneSt s p (logicalLane s p lane)).cw + 1 ∧
      RegsKept .lnk [] s t ∧ Kept [.lnk] s t) ∧
  (∀ (p : Fin 24) (lane : Fin 2) (s : State), ∃ t, Sys2Proof.Machine.exec (.fecCwClear p lane) s = .next t ∧
    t.rd64 .lnk (DLK_FEC_CW_LO p lane) (DLK_FEC_CW_HI p lane) = 0 ∧
    RegsKept .lnk [DLK_FEC_CW_LO p lane, DLK_FEC_CW_HI p lane] s t ∧ t.lnk = { s.lnk with regs := t.lnk.regs } ∧
    Kept [.lnk] s t) ∧
  ∀ (p : Fin 28) (lane : Fin 2) (bits : BitVec 5440) (before : Fin 4) (place arrival ll prev : Nat) (raw : List Bool)
    (hit : Bool) (s : State), ll = logicalLane s p lane →
    prev = (if groupsOn (laneSt s p ll) place = some 1 ∧ (laneSt s p ll).cw = 40 then (laneSt s p ll).prev
      else if (laneSt s p ll).fresh then 0 else uninvert (lineMode s p lane).inv before) →
    raw = (lineMode s p lane).bits prev (cwDecisions s p bits) →
    hit = (markerMatches (groupBlock 0 raw) || markerMatches (groupBlock 1 raw)) →
    (groupsOn (laneSt s p ll) place = none → (laneSt s p ll).locked = true ∨
        (hit = false ∧ (laneSt s p ll).cands.any (fun c => c + groupBits == place) = false) →
      Sys2Proof.Machine.exec (.rxMarkerGroup p lane bits before place arrival) s =
        .next (s.onLane p ll (fun l => { l with fresh := false }))) ∧
    (hit = true → (groupsOn (laneSt s p ll) place = some 1 ∧ ((laneSt s p ll).locked = false ∨ (laneSt s p ll).misses < 4)) ∨
        ((laneSt s p ll).locked = false ∧ (laneSt s p ll).cands.any (fun c => c + groupBits == place) = true) →
      portState s p ≠ phDeskew → portState s p ≠ phActive → ∃ t,
      Sys2Proof.Machine.exec (.rxMarkerGroup p lane bits before place arrival) s = .next t ∧
        (laneSt t p ll).hits = max 1 (laneSt s p ll).hits + 1 ∧ (laneSt t p ll).misses = 0 ∧ (laneSt t p ll).locked = true ∧
        (laneSt t p ll).place = some place ∧
        (∀ m, goodMarker (decodeCodeword raw).1 (decodeCodeword raw).2.isSome = some m →
          (laneSt t p ll).count = some (markerCount m) ∧ (laneSt t p ll).laneId = some (nbits m 65 65)) ∧
        portState t p = portState s p ∧ Kept [.phy, .lnk, .evt] s t) ∧
    (groupsOn (laneSt s p ll) place = some 1 → hit = false → (laneSt s p ll).locked = true → (laneSt s p ll).misses < 3 →
      portState s p ≠ phDeskew → portState s p ≠ phActive → ∃ t, Sys2Proof.Machine.exec (.rxMarkerGroup p lane bits before place arrival) s = .next t ∧
        (laneSt t p ll).hits = 0 ∧ (laneSt t p ll).misses = (laneSt s p ll).misses + 1 ∧ (laneSt t p ll).locked = true ∧
        Kept [.phy, .lnk, .evt] s t) ∧
    (groupsOn (laneSt s p ll) place = some 1 → hit = false → (laneSt s p ll).locked = true → 3 ≤ (laneSt s p ll).misses →
      portState s p = phActive → (cfgLanes s p).contains lane.val = true → ∃ t,
      Sys2Proof.Machine.exec (.rxMarkerGroup p lane bits before place arrival) s = .next t ∧
        portState t p = phRecover ∧ (laneSt t p ll).locked = false ∧ t.flag .phy (phyLane p lane 0) 2 = false ∧
        (p.val < 24 → BlocksKept [.phy, .lnk, .pix, .evt, .pwr] s t))

/-- The oldest block after deskew is taken; off ACTIVE, or FILL, it does nothing more.  A good PKT block begins a packet; one with a bad CRC is
discarded and counted; a data block is added, the last one commits the packet; an LCTL block waits; another control TYPE counts
DLK_CNT_BADBLK (that TRIG and REG_REQ are among them is the model's choice, log 93; so is a packet's arrival, TB at its PKT block, log 95).  A span port collects the 8 data blocks behind a
CELL block.  The oldest committed packet is taken: a camera event
shows its word and counts, a LINE_START opens a line.  QUIET_ACK in time goes to QUIET and counts, QUIET_NAK in
time sets QUIET_NAK, a bad message counts.  At a due boundary the back-channel sends what R111 puts first: a trigger of that boundary, a write's
data block, a message, a request (launched now) or FILL.  A register command with the port up makes a request with a new ID and BUSY; with the port down it ends LINK_DOWN (6);
one while BUSY sets REG_REJ alone.  An unanswered attempt is retried with a new ID, and past RETRY ends with 5. -/
def Obligations.PacketsAndControlBlocks : Prop :=
  (∀ (p : Fin 28) (s : State), (s.lnkPort p).rx = [] → Sys2Proof.Machine.exec (.rxBlock p) s = .next s) ∧
  (∀ (p : Fin 28) (b : RxBlk) (rest : List RxBlk) (x : LnkPort) (s : State), (s.lnkPort p).rx = b :: rest →
    x = { s.lnkPort p with rx := rest } →
    (portState s p ≠ phActive ∨ (b.control = true ∧ b.payload.toNat % 256 = 0x1E) → ∃ t,
      Sys2Proof.Machine.exec (.rxBlock p) s = .next t ∧ t.lnkPort p = x ∧ RegsKept .lnk [] s t ∧ Kept [.lnk] s t) ∧
    (24 ≤ p.val → portState s p = phActive → ∃ t, Sys2Proof.Machine.exec (.rxBlock p) s = .next t ∧
      (b.control = true → b.payload.toNat % 256 = 0x69 → t.lnkPort p = { x with cellIn := some [] }) ∧
      (∀ bs, b.control = false → x.cellIn = some bs → t.lnkPort p = if bs.length = 56
        then { x with cellIn := none, cells := x.cells ++ [bs ++ leBytes 8 b.payload.toNat] }
        else { x with cellIn := some (bs ++ leBytes 8 b.payload.toNat) }) ∧ RegsKept .lnk [] s t ∧ Kept [.lnk] s t) ∧
    (p.val < 24 → portState s p = phActive → b.control = true → b.payload.toNat % 256 = 0x4B → b.errored = false →
      crc16 40 (b.payload.toNat / 2 ^ 24) = nbits b.payload.toNat 23 8 →
      0 < (headerPacket b.payload.toNat s.now).len → (headerPacket b.payload.toNat s.now).len ≤ 16384 →
      bufUsed x.cutPacket + 8 ≤ 65536 → ∃ t, Sys2Proof.Machine.exec (.rxBlock p) s = .next t ∧
        t.lnkPort p = { x.cutPacket with asm := some (headerPacket b.payload.toNat s.now), skip := false } ∧
        RegsKept .lnk [] s t ∧ Kept [.lnk] s t) ∧
    (p.val < 24 → portState s p = phActive → b.control = true → b.payload.toNat % 256 = 0x4B →
      b.errored = true ∨ crc16 40 (b.payload.toNat / 2 ^ 24) ≠ nbits b.payload.toNat 23 8 → ∃ t,
      Sys2Proof.Machine.exec (.rxBlock p) s = .next t ∧ t.lnkPort p = { x.cutPacket with asm := none, skip := true } ∧
        t.rd .lnk (DLK_CNT_HDR_CRC p) = satAdd (s.rd .lnk (DLK_CNT_HDR_CRC p)) 1 ∧
        RegsKept .lnk [DLK_CNT_HDR_CRC p] s t ∧ Kept [.lnk] s t) ∧
    (p.val < 24 → portState s p = phActive → b.control = true → b.payload.toNat % 256 = 0x5A → ∃ t,
      Sys2Proof.Machine.exec (.rxBlock p) s = .next t ∧ t.lnkPort p = { x with lctlIn := x.lctlIn ++ [b.payload] } ∧
        RegsKept .lnk [] s t ∧ Kept [.lnk] s t) ∧
    (p.val < 24 → portState s p = phActive → b.control = true → b.payload.toNat % 256 ∉ [0x1E, 0x5A, 0x4B] → ∃ t,
      Sys2Proof.Machine.exec (.rxBlock p) s = .next t ∧ t.lnkPort p = x.cutPacket ∧
        t.rd .lnk (DLK_CNT_BADBLK p) = satAdd (s.rd .lnk (DLK_CNT_BADBLK p)) 1 ∧
        RegsKept .lnk [DLK_CNT_BADBLK p] s t ∧ Kept [.lnk] s t) ∧
    (∀ q : Packet, p.val < 24 → portState s p = phActive → b.control = false → x.skip = false → x.asm = some q → bufUsed x + 8 ≤ 65536 →
      ∃ t, Sys2Proof.Machine.exec (.rxBlock p) s = .next t ∧
        (let q' : Packet := { q with bytes := q.bytes ++ leBytes 8 b.payload.toNat, fec := q.fec || b.errored }
         t.lnkPort p = if q.bytes.length + 8 = 8 * payloadBlocks q.len
           then { x with asm := none, committed := x.committed ++ [.packet q'] } else { x with asm := some q' }) ∧
        RegsKept .lnk [] s t ∧ Kept [.lnk] s t)) ∧
  (∀ (p : Fin 24) (s : State) (q : Packet) (rest : List Packet), (s.lnkPort p).committed = .packet q :: rest.map .packet →
    q.cut = false → payloadBad q = false → (s.vcOf p q.vc).seq = some q.seq →
    (q.dt = 0x09 → ∃ t, Sys2Proof.Machine.exec (.rxPacket p) s = .next t ∧ (t.lnkPort p).committed = rest.map .packet ∧
      (t.vcOf p q.vc).seq = some ((q.seq + 1) % 256) ∧ t.rd .lnk (DLK_CAM_EVT p) = BitVec.ofNat 32 (leAt q.bytes 0 4) ∧
      t.rd .lnk (DLK_CNT_CAM_EVT p) = satAdd (s.rd .lnk (DLK_CNT_CAM_EVT p)) 1 ∧
      RegsKept .lnk [DLK_CAM_EVT p, DLK_CNT_CAM_EVT p] s t ∧ Kept [.lnk, .evt] s t) ∧
    (q.dt = 0x03 → vcStreams s p q.vc ≠ [] → (s.vcOf p q.vc).line = none → ∃ t,
      Sys2Proof.Machine.exec (.rxPacket p) s = .next t ∧ (t.lnkPort p).committed = rest.map .packet ∧
      (∃ o, (t.vcOf p q.vc).line = some o ∧ o.tag = leAt q.bytes 0 2 ∧ o.number = leAt q.bytes 4 4 ∧
        o.pixels = leAt q.bytes 8 2 ∧ o.bytes = [] ∧ o.arrived = q.arrived) ∧ RegsKept .lnk [] s t ∧ Kept [.lnk] s t)) ∧
  (∀ (p : Fin 24) (s : State), (s.lnkPort p).lctlIn = [] → Sys2Proof.Machine.exec (.rxLctl p) s = .next s) ∧
  (∀ (p : Fin 24) (b : Dword) (rest : List Dword) (s : State), (s.lnkPort p).lctlIn = b :: rest →
    (b.toNat % 256 ≠ 0x5A ∨ crc16 40 (b.toNat / 2 ^ 24) ≠ nbits b.toNat 23 8 → ∃ t,
      Sys2Proof.Machine.exec (.rxLctl p) s = .next t ∧ t.lnkPort p = { s.lnkPort p with lctlIn := rest } ∧
      t.rd .lnk (DLK_CNT_LCTL_BAD p) = satAdd (s.rd .lnk (DLK_CNT_LCTL_BAD p)) 1 ∧
      RegsKept .lnk [DLK_CNT_LCTL_BAD p] s t ∧ Kept [.lnk] s t) ∧
    (∀ t0 : Nat, b.toNat % 256 = 0x5A → crc16 40 (b.toNat / 2 ^ 24) = nbits b.toNat 23 8 →
      (s.phyPort p).quietReq = some t0 → s.now ≤ t0 + 10000 →
      (nbits b.toNat 63 56 = 0x81 → portState s p = phActive → ∃ t,
        Sys2Proof.Machine.exec (.rxLctl p) s = .next t ∧ portState t p = phQuiet ∧
          t.rd .pwr PWR_CNT_QUIET = satAdd (s.rd .pwr PWR_CNT_QUIET) 1 ∧ (t.phyPort p).quietReq = none ∧
          BlocksKept [.phy, .lnk, .pix, .evt, .pwr] s t) ∧
      (nbits b.toNat 63 56 = 0x82 → ∃ t, Sys2Proof.Machine.exec (.rxLctl p) s = .next t ∧
        t.flag .phy (phyStatus p) 5 = true ∧ (t.phyPort p).quietHold = s.now + 1000000 ∧
        (t.phyPort p).quietReq = none ∧ RegsKept .phy [phyStatus p] s t ∧ Kept [.phy, .lnk] s t))) ∧
  (∀ (p : Fin 24) (s : State),
    (s.now * 1000 < (s.lnkPort p).boundary → Sys2Proof.Machine.exec (.bcBlock p) s = .next s) ∧
    ((s.lnkPort p).boundary ≤ s.now * 1000 → portUp s p = true → bcAlive s p = true → ∃ t,
      Sys2Proof.Machine.exec (.bcBlock p) s = .next t ∧ (t.lnkPort p).boundary = (s.lnkPort p).boundary + 21120 ∧
      (match bcNext (s.lnkPort p) (decide (portState s p = phActive ∨ portState s p = phQuiet)) with
        | .trig tag off => (t.lnkPort p).sent = some (true, trigBlock tag off)
        | .data r => (t.lnkPort p).sent = some (false, regDataBlock r) ∧
            (t.lnkPort p).reg = some { r with dataToSend := false }
        | .lctl m => (t.lnkPort p).sent = some (true, lctlBlock m) ∧ (t.lnkPort p).lctl = (s.lnkPort p).lctl.tail
        | .req r => (t.lnkPort p).sent = some (true, regBlock r) ∧
            (t.lnkPort p).reg = some { r with toSend := false, dataToSend := r.write, launched := some s.now }
        | .fill => (t.lnkPort p).sent = some (true, fillBlock) ∧ (t.lnkPort p).sinceFill = 0) ∧
      RegsKept .lnk [] s t ∧ Kept [.lnk] s t)) ∧
  (∀ (p : Fin 24) (v : Word) (s : State), bit v 31 = true →
    (s.flag .lnk (DLK_REG_STATUS p) 31 = true →
      Sys2Proof.Machine.exec (.regGo p v) s = .next (s.setb .lnk (DLK_STATUS p) 6 true)) ∧
    (s.flag .lnk (DLK_REG_STATUS p) 31 = false → portUp s p = false → ∃ t,
      Sys2Proof.Machine.exec (.regGo p v) s = .next t ∧ t.fld .lnk (DLK_REG_STATUS p) 27 24 = 6 ∧
        t.flag .lnk (DLK_REG_STATUS p) 30 = true ∧ t.flag .lnk (DLK_REG_STATUS p) 31 = false ∧
        (t.lnkPort p).reg = none ∧ Kept [.lnk] s t) ∧
    (s.flag .lnk (DLK_REG_STATUS p) 31 = false → portUp s p = true → ∃ t r,
      Sys2Proof.Machine.exec (.regGo p v) s = .next t ∧ t.flag .lnk (DLK_REG_STATUS p) 31 = true ∧
        t.fld .lnk (DLK_REG_STATUS p) 7 0 = ((s.lnkPort p).lastId + 1) % 256 ∧ (t.lnkPort p).reg = some r ∧
        r.write = bit v 30 ∧ r.addr = s.rd .lnk (DLK_REG_ADDR p) ∧ r.data = s.rd .lnk (DLK_REG_WDATA p) ∧
        r.retries = bits v 29 27 ∧ r.tries = 0 ∧ r.id = ((s.lnkPort p).lastId + 1) % 256 ∧ r.toSend = true ∧
        r.launched = none ∧ Kept [.lnk, .phy] s t)) ∧
  ∀ (p : Fin 24) (s : State) (r : RegReq) (t0 : Nat), (s.lnkPort p).reg = some r → r.launched = some t0 →
    (s.now < t0 + s.fld .lnk (DLK_REG_TIMEOUT p) 13 0 * 1000 → Sys2Proof.Machine.exec (.regTimeout p) s = .next s) ∧
    (t0 + s.fld .lnk (DLK_REG_TIMEOUT p) 13 0 * 1000 ≤ s.now → ∃ t, Sys2Proof.Machine.exec (.regTimeout p) s = .next t ∧
      t.rd .lnk (DLK_CNT_REG_TIMEOUT p) = satAdd (s.rd .lnk (DLK_CNT_REG_TIMEOUT p)) 1 ∧
      (r.tries < r.retries → (t.lnkPort p).reg = some { r with
        tries := r.tries + 1
        id := ((s.lnkPort p).lastId + 1) % 256
        toSend := true
        dataToSend := false
        launched := none }) ∧
      (r.retries ≤ r.tries → (t.lnkPort p).reg = none ∧ t.fld .lnk (DLK_REG_STATUS p) 27 24 = 5 ∧
        t.flag .lnk (DLK_REG_STATUS p) 30 = true ∧ t.flag .lnk (DLK_REG_STATUS p) 31 = false) ∧
      RegsKept .lnk [DLK_CNT_REG_TIMEOUT p, DLK_REG_STATUS p, DLK_REG_CMD p] s t ∧ Kept [.lnk, .phy] s t)

/-- While EN is 1 a write to PIX_SRC changes nothing but EN, and sets CFG_ERR for a field that differs; clearing EN drops every waiting
line.  EN is set only for a stream the active image places, and then starts from input line 0 and strip 0.  When every port of the
set has a head and the stamps agree, the heads leave their queues as one line with the next look-back number; it waits for the tiles
while fewer than 4 do, and otherwise an overrun is counted and reported.  JOIN_US after the first head the missing ones are filled and counted each, not earlier.  The
oldest waiting line enters the tiles; with a cluster in NAP it waits and the misprediction is counted. -/
def Obligations.PixelStreamsJoinTheirLines : Prop :=
  (∀ (n : Fin 96) (v : Word) (s : State),
    (streamOn s n = true →
      (bit v 31 = true → bits v 30 0 = bits (s.rd .pix (PIX_SRC n)) 30 0 →
        Sys2Proof.Machine.exec (.pixSrcWrite n v) s = .next s) ∧
      (bit v 31 = true → bits v 30 0 ≠ bits (s.rd .pix (PIX_SRC n)) 30 0 →
        Sys2Proof.Machine.exec (.pixSrcWrite n v) s = .next (s.setb .pix (PIX_STATUS n) 7 true)) ∧
      (bit v 31 = false → ∃ t, Sys2Proof.Machine.exec (.pixSrcWrite n v) s = .next t ∧ streamOn t n = false ∧
        (t.pixStream n).q0 = [] ∧ (t.pixStream n).q1 = [] ∧ (t.pixStream n).q2 = [] ∧ (t.pixStream n).tileQ = [] ∧
        (t.pixStream n).strip = none ∧ t.flag .pix (PIX_STATUS n) 1 = false ∧ t.time = s.time ∧ t.pending = s.pending)) ∧
    (streamOn s n = false → bit v 31 = true →
      (mapStream s n = none → ∃ t, Sys2Proof.Machine.exec (.pixSrcWrite n v) s = .next t ∧ streamOn t n = false ∧
        t.flag .pix (PIX_STATUS n) 7 = true ∧ RegsKept .pix [PIX_SRC n, PIX_STATUS n] s t ∧ Kept [.pix] s t) ∧
      (mapStream s n ≠ none → ∃ t, Sys2Proof.Machine.exec (.pixSrcWrite n v) s = .next t ∧ streamOn t n = true ∧
        (t.pixStream n).inLines = 0 ∧ (t.pixStream n).nextStrip = 0 ∧ (t.pixStream n).q0 = [] ∧
        (t.pixStream n).strip = none ∧ t.time = s.time ∧ t.pending = s.pending))) ∧
  (∀ (n : Fin 96) (s : State), olderHeads (heads s n) = [] → (heads s n).all Option.isSome = true → streamOn s n = true →
    hasTiles s n = true → ∃ t, Sys2Proof.Machine.exec (.streamLineJoin n) s = .next t ∧
      (t.pixStream n).q0 = (s.pixStream n).q0.tail ∧ (t.pixStream n).ln = (s.pixStream n).ln + 1 ∧
      ((s.pixStream n).tileQ.length < 4 →
        (t.pixStream n).tileQ = (s.pixStream n).tileQ ++ [joinLine s n (heads s n)] ∧ RegsKept .pix [] s t ∧
        Kept [.pix, .erg] s t) ∧
      (4 ≤ (s.pixStream n).tileQ.length →
        (t.pixStream n).tileQ.length = (s.pixStream n).tileQ.length + 1 ∧
        t.rd .pix (PIX_CNT_OVERRUN n) = satAdd (s.rd .pix (PIX_CNT_OVERRUN n)) 1 ∧
        t.flag .pix (PIX_STATUS n) 6 = true ∧ t.flag .flt FLT_STATUS 30 = true ∧
        RegsKept .pix [PIX_CNT_OVERRUN n, PIX_STATUS n] s t ∧ Kept [.pix, .erg, .flt] s t)) ∧
  (∀ (n : Fin 96) (s : State) (a : Nat) (as : List Nat),
    (heads s n).filterMap (fun h => h.map (fun l => l.arrived)) = a :: as → olderHeads (heads s n) = [] →
    (s.now < as.foldl min a + 1000 * s.fld .pix (PIX_CTRL n) 19 13 →
      Sys2Proof.Machine.exec (.joinTimeout n) s = .next s) ∧
    (as.foldl min a + 1000 * s.fld .pix (PIX_CTRL n) 19 13 ≤ s.now → streamOn s n = true →
      (heads s n).any Option.isNone = true → hasTiles s n = true → (s.pixStream n).tileQ.length < 4 → ∃ t,
      Sys2Proof.Machine.exec (.joinTimeout n) s = .next t ∧
        (t.pixStream n).tileQ = (s.pixStream n).tileQ ++ [joinLine s n (heads s n)] ∧
        t.rd .pix (PIX_CNT_JOIN_FILL n) = 
          satAdd (s.rd .pix (PIX_CNT_JOIN_FILL n)) ((heads s n).filter Option.isNone).length ∧
        RegsKept .pix [PIX_CNT_JOIN_FILL n] s t ∧ Kept [.pix, .erg] s t)) ∧
  ∀ (n : Fin 96) (s : State) (l : StrLine) (rest : List StrLine), (s.pixStream n).tileQ = l :: rest →
    streamOn s n = true →
    ((∀ c ∈ streamClusters s n, clPstate s c < 2) → ∃ t, Sys2Proof.Machine.exec (.pipelineLine n) s = .next t ∧
      (t.pixStream n).tileQ = rest ∧ (t.pixStream n).inLines = (s.pixStream n).inLines + 1 ∧
      t.flag .pix (PIX_STATUS n) 1 = true ∧ t.time = s.time ∧ t.pending = s.pending) ∧
    (∀ c, streamClusters s n = [c] → clPstate s c = 2 →
      (Tab.get (fun _ => PwrUnit.init) s.pwr.unit c).missed = false → ∃ t,
      Sys2Proof.Machine.exec (.pipelineLine n) s = .next t ∧ t.pix = s.pix ∧
        t.rd .pwr PWR_CNT_MISPREDICT = satAdd (s.rd .pwr PWR_CNT_MISPREDICT) 1 ∧
        (Tab.get (fun _ => PwrUnit.init) t.pwr.unit c).missed = true ∧
        RegsKept .pwr [PWR_CNT_MISPREDICT] s t ∧ Kept [.pwr] s t)

/-- ARM is accepted when the checks of R155 hold, otherwise it sets ARM_REJ; while armed it does nothing.  DISARM withdraws it.
A shadow register takes a write by its fields, and while armed only sets the lock error.  A table load while armed or loading, or
with a bad length, is refused with its flag; an accepted one notes its source and the bank not in use and sets BUSY.  The end of
the load clears BUSY and fills the bank of each tile it began with, with the bytes of the Erg, or empties it with CFG_ERR when they are poisoned. -/
def Obligations.ShadowSetsArmAndTablesLoad : Prop :=
  (∀ (n : Fin 96) (s : State),
    (s.flag .pix (PIX_ARM n) 31 = true → Sys2Proof.Machine.exec (.pixArm n) s = .next s) ∧
    (s.flag .pix (PIX_ARM n) 31 = false →
      (armGood s n = false → Sys2Proof.Machine.exec (.pixArm n) s = .next (s.setb .pix (PIX_STATUS n) 3 true)) ∧
      (armGood s n = true → ∃ t, Sys2Proof.Machine.exec (.pixArm n) s = .next t ∧ t.flag .pix (PIX_ARM n) 31 = true ∧
        t.pixStream n = { s.pixStream n with armStarts := 0 } ∧ RegsKept .pix [PIX_ARM n] s t ∧ Kept [.pix] s t))) ∧
  (∀ (n : Fin 96) (s : State),
    (s.flag .pix (PIX_ARM n) 31 = false → Sys2Proof.Machine.exec (.pixDisarm n) s = .next s) ∧
    (s.flag .pix (PIX_ARM n) 31 = true → ∃ t, Sys2Proof.Machine.exec (.pixDisarm n) s = .next t ∧
      t.flag .pix (PIX_ARM n) 31 = false ∧ t.flag .pix (PIX_ARM_STATUS n) 30 = true ∧
      RegsKept .pix [PIX_ARM n, PIX_ARM_STATUS n] s t ∧ t.pix = { s.pix with regs := t.pix.regs } ∧ Kept [.pix] s t)) ∧
  (∀ (n : Fin 96) (k : Fin 128) (v : Word) (s : State),
    (s.flag .pix (PIX_ARM n) 31 = true →
      Sys2Proof.Machine.exec (.shadowWrite n k v) s = .next (s.setb .pix (PIX_STATUS n) 5 true)) ∧
    (∀ u row, s.flag .pix (PIX_ARM n) 31 = false → regAt (PIX_SRC n + (0x100 + 4 * k.val)) = some (u, row) → ∃ t,
      Sys2Proof.Machine.exec (.shadowWrite n k v) s = .next t ∧
        t.rd .pix (PIX_SRC n + (0x100 + 4 * k.val)) =
          (row.write u.ignore (s.rd .pix (PIX_SRC n + (0x100 + 4 * k.val))) v).1 ∧
        RegsKept .pix [PIX_SRC n + (0x100 + 4 * k.val), PIX_STATUS n] s t ∧
        t.pix = { s.pix with regs := t.pix.regs } ∧ Kept [.pix] s t)) ∧
  (∀ (n : Fin 96) (v : Word) (s : State), bit v 31 = true →
    (s.flag .pix (PIX_ARM n) 31 = true →
      Sys2Proof.Machine.exec (.pixTblLoad n v) s = .next (s.setb .pix (PIX_STATUS n) 5 true)) ∧
    (s.flag .pix (PIX_ARM n) 31 = false → s.flag .pix (PIX_STATUS n) 2 = true →
      Sys2Proof.Machine.exec (.pixTblLoad n v) s = .next (s.setb .pix (PIX_STATUS n) 7 true)) ∧
    (s.flag .pix (PIX_ARM n) 31 = false → s.flag .pix (PIX_STATUS n) 2 = false → swapHolds s n = false →
      bits v 30 28 < 2 →
      (tableSizeOk s n (bits v 30 28) (s.rd .pix (PIX_TBL_LEN n)).toNat = false → ∃ t,
        Sys2Proof.Machine.exec (.pixTblLoad n v) s = .next t ∧ t.flag .pix (PIX_STATUS n) 7 = true ∧
          t.pixStream n = s.pixStream n ∧ RegsKept .pix [PIX_TBL_CMD n, PIX_STATUS n] s t ∧ Kept [.pix] s t) ∧
      (tableSizeOk s n (bits v 30 28) (s.rd .pix (PIX_TBL_LEN n)).toNat = true → hasTiles s n = true → ∃ t,
        Sys2Proof.Machine.exec (.pixTblLoad n v) s = .next t ∧ t.flag .pix (PIX_STATUS n) 2 = true ∧
          (t.pixStream n).load = some ⟨bits v 30 28, 0, s.rd64 .pix (PIX_TBL_ADDR_LO n) (PIX_TBL_ADDR_HI n),
            (s.rd .pix (PIX_TBL_LEN n)).toNat,
            if bits v 30 28 = 0 then !(s.pixStream n).flatSel else !(s.pixStream n).defectSel, streamTiles s n⟩ ∧
          RegsKept .pix [PIX_TBL_CMD n, PIX_STATUS n] s t ∧ Kept [.pix] s t))) ∧
  ∀ (n : Fin 96) (s : State) (l : LoadSt), (s.pixStream n).load = some l → (s.pixStream n).inUse l = false → ∃ t,
    Sys2Proof.Machine.exec (.pixTblLoadDone n) s = .next t ∧ t.flag .pix (PIX_TBL_CMD n) 31 = false ∧
      t.flag .pix (PIX_STATUS n) 2 = false ∧
      (ergPoisoned s l.addr l.len = false → (l.kind = 1 → defectOrdered (ergRead s l.addr l.len) = true) →
        t.pix.tile = (s.putBanks l.tiles l.kind l.ctx l.bank (some (ergRead s l.addr l.len))).pix.tile) ∧
      (ergPoisoned s l.addr l.len = true →
        t.pix.tile = (s.putBanks l.tiles l.kind l.ctx l.bank none).pix.tile ∧ t.flag .pix (PIX_STATUS n) 7 = true) ∧
      t.pixStream n = { s.pixStream n with load := none } ∧
      RegsKept .pix [PIX_TBL_CMD n, PIX_STATUS n] s t ∧ Kept [.pix, .erg, .flt] s t

/-- A classifier load while one runs sets LOAD_REJ and clears GO; an allowed one empties the bank not in use in the stream's tiles and sets BUSY,
and its end fills that bank from the Erg, or with poisoned data only sets LOAD_REJ.  A write to OBJ_OPEN makes PEAK NOW.  A view is formed
when due, with the next serial, and leaves the close queue; an object of a stream without pairing waits as a record of its own; an entry whose words cannot be corrected is lost and counted (R308; how it is
marked is the model's choice, log 144).  A waiting view past
OBJ_PAIR_WAIT leaves unpaired, not earlier.  A cut-out starts at its place in the staging ring or is dropped and counted, is written
with its bytes to the Erg, and is abandoned when late.  A released record leaves the ready list, and its cut-outs the writer's. -/
def Obligations.ObjectsFormPairAndReleaseRecords : Prop :=
  (∀ (n : Fin 96) (v : Word) (s : State), bit v 31 = true →
    (s.flag .obj (OBJ_STATUS n) 6 = true →
      Sys2Proof.Machine.exec (.clsTblLoad n v) s =
        .next ((s.setb .obj (OBJ_STATUS n) 5 true).setb .obj (OBJ_TBL_CMD n) 31 false)) ∧
    (s.flag .obj (OBJ_STATUS n) 6 = false → s.flag .pix (PIX_ARM n) 31 = false → hasTiles s n = true →
      s.rd64 .obj (OBJ_TBL_ADDR_LO n) (OBJ_TBL_ADDR_HI n) % 64 = 0 → swapHolds s n = false → ∃ t,
      Sys2Proof.Machine.exec (.clsTblLoad n v) s = .next t ∧ t.flag .obj (OBJ_STATUS n) 6 = true ∧
        t.flag .obj (OBJ_TBL_CMD n) 31 = true ∧ t.pix.tile = (s.putOtherBank n (streamTiles s n) none).pix.tile ∧
        (t.objStream n).load = some (s.rd64 .obj (OBJ_TBL_ADDR_LO n) (OBJ_TBL_ADDR_HI n), streamTiles s n) ∧
        RegsKept .obj [OBJ_STATUS n, OBJ_TBL_CMD n] s t ∧ RegsKept .pix [] s t ∧ Kept [.obj, .pix] s t)) ∧
  (∀ (n : Fin 96) (s : State), (s.objStream n).load = none → Sys2Proof.Machine.exec (.clsTblLoadDone n) s = .next s) ∧
  (∀ (n : Fin 96) (a : Nat) (tiles : List Nat) (s : State), (s.objStream n).load = some (a, tiles) → ∃ t,
    Sys2Proof.Machine.exec (.clsTblLoadDone n) s = .next t ∧ t.flag .obj (OBJ_STATUS n) 6 = false ∧
      t.flag .obj (OBJ_TBL_CMD n) 31 = false ∧ (t.objStream n).load = none ∧
      (ergPoisoned s a 131072 = false → t.pix.tile = (s.putOtherBank n tiles (some (ergRead s a 131072))).pix.tile) ∧
      (ergPoisoned s a 131072 = true → t.flag .obj (OBJ_STATUS n) 5 = true ∧ t.pix = s.pix) ∧
      RegsKept .obj [OBJ_STATUS n, OBJ_TBL_CMD n] s t ∧ Kept [.obj, .pix, .erg, .flt] s t) ∧
  (∀ (n : Fin 96) (s : State), ∃ t, Sys2Proof.Machine.exec (.objOpenWrite n) s = .next t ∧
    t.fld .obj (OBJ_OPEN n) 28 16 = s.fld .obj (OBJ_OPEN n) 12 0 ∧
    t.fld .obj (OBJ_OPEN n) 12 0 = s.fld .obj (OBJ_OPEN n) 12 0 ∧ RegsKept .obj [OBJ_OPEN n] s t ∧
    t.obj = { s.obj with regs := t.obj.regs } ∧ Kept [.obj] s t) ∧
  (∀ (n : Fin 96) (err : Fin 3) (s : State),
    (viewDue s n = false → Sys2Proof.Machine.exec (.viewForm n err) s = .next s) ∧
    (∀ o rest, viewDue s n = true → (s.objStream n).closeQ = o :: rest → err = 2 → ∃ t,
      Sys2Proof.Machine.exec (.viewForm n err) s = .next t ∧
        t.objStream n = { s.objStream n with closeQ := rest, lost := some (LostSt.add (s.objStream n).lost o) } ∧
        t.rd .obj (OBJ_CNT_LOST n) = satAdd (s.rd .obj (OBJ_CNT_LOST n)) 1 ∧ t.flag .obj (OBJ_STATUS n) 2 = true ∧
        RegsKept .obj [OBJ_CNT_LOST n, OBJ_STATUS n] s t ∧ Kept [.obj] s t) ∧
    (∀ o rest, viewDue s n = true → (s.objStream n).closeQ = o :: rest → err ≠ 2 → ∃ t,
      Sys2Proof.Machine.exec (.viewForm n err) s = .next t ∧ (t.objStream n).closeQ = rest ∧
        (t.objStream n).serial = ((s.objStream n).serial + 1) % 2 ^ 45 ∧ (t.objStream n).formed = some s.now ∧
        t.obj.formed = some s.now ∧ t.obj.served = n.val ∧
        (pairOf s n = none → ∃ v, (t.objStream n).ready = (s.objStream n).ready ++ [⟨some v, none, false, false⟩] ∧
          
          v.obj = o ∧ v.stream = n.val ∧ v.serial = (s.objStream n).serial ∧ v.arrived = s.now ∧ v.isB = false) ∧
        Kept [.obj, .erg] s t)) ∧
  (∀ (n : Fin 96) (s : State) (w : ObjView) (ws : List ObjView), (s.objStream n).wait = w :: ws → w.stream = n.val →
    (s.now ≤ w.leaveAt → Sys2Proof.Machine.exec (.pairWaitExpired n) s = .next s) ∧
    (w.leaveAt < s.now → ∃ t, Sys2Proof.Machine.exec (.pairWaitExpired n) s = .next t ∧ (t.objStream n).wait = ws ∧
        (t.objStream n).ready = (s.objStream n).ready ++
          [⟨if w.isB then none else some w, if w.isB then some w else none, false, true⟩] ∧
        t.rd .obj (OBJ_CNT_UNPAIRED n) = satAdd (s.rd .obj (OBJ_CNT_UNPAIRED n)) 1 ∧
        RegsKept .obj [OBJ_CNT_UNPAIRED n] s t ∧ Kept [.obj] s t)) ∧
  (∀ (n : Fin 96) (s : State) (j : CutJob),
    (s.objStream n).cuts.find? (fun j => j.st == .waiting) = some j →
    (cutCanStart s n j = false → Sys2Proof.Machine.exec (.cutoutWriteStart n) s = .next s) ∧
    (∀ (g : RegEnt) (r : CutJob) (size : Nat), cutCanStart s n j = true → mapRegion s n 2 = some g → r = clipRows s n j →
      size = (cutShape (r.col1 + 1 - r.col0) (r.row1 + 1 - r.row0) (2 ^ bits j.view.obj.par.cut 28 27)
        j.view.ncomp (bit j.view.obj.par.cut 30)).2.2.2.2 → ∃ t, Sys2Proof.Machine.exec (.cutoutWriteStart n) s = .next t ∧
        (match stagePlace (g.first * segBytes) ((g.first + g.count) * segBytes) size (s.objStream n).staging with
          | some a => (t.objStream n).staging =
              (s.objStream n).staging ++ [⟨a, size, j.view.handle, false, 0, none, []⟩] ∧
              (∀ k ∈ (t.objStream n).cuts, k.view.serial = j.view.serial → k.st = .writing ∧ k.addr = a ∧ k.size = size)
          | none => (t.objStream n).staging = (s.objStream n).staging ∧
              t.rd .obj (OBJ_CNT_CUT_DROP n) = satAdd (s.rd .obj (OBJ_CNT_CUT_DROP n)) 1 ∧
              t.flag .obj (OBJ_STATUS n) 1 = true ∧
              (∀ k ∈ (t.objStream n).cuts, k.view.serial = j.view.serial → k.st = .dropped)) ∧
        RegsKept .obj [OBJ_CNT_CUT_DROP n, OBJ_STATUS n] s t ∧ Kept [.obj] s t)) ∧
  (∀ (n : Fin 96) (s : State) (j : CutJob),
    (s.objStream n).cuts.find? (fun j => j.st == .writing) = some j → ∃ t,
      Sys2Proof.Machine.exec (.cutoutWriteDone n) s = .next t ∧
        t.erg = ((s.cutMeet n j).ergWrite j.addr (cutBytes s n j).1).erg ∧
        (∀ k ∈ (t.objStream n).cuts, k.view.serial = j.view.serial → k.st = .written) ∧
        (t.objStream n).staging = (s.objStream n).staging ∧ RegsKept .obj [] s t ∧ Kept [.obj, .erg, .flt] s t) ∧
  (∀ (n : Fin 96) (s : State) (j : CutJob), (s.objStream n).cuts.find? (fun j => (j.st == .writing || j.st == .waiting) &&
      decide (j.view.obj.closedAt + 1000 * bits j.view.obj.par.cut 9 0 ≤ s.now)) = some j → ∃ t,
      Sys2Proof.Machine.exec (.cutoutLate n) s = .next t ∧
        t.rd .obj (OBJ_CNT_CUT_LATE n) = satAdd (s.rd .obj (OBJ_CNT_CUT_LATE n)) 1 ∧
        t.flag .obj (OBJ_STATUS n) 1 = true ∧
        (∀ k ∈ (t.objStream n).cuts, k.view.serial = j.view.serial → k.st = .dropped) ∧
        RegsKept .obj [OBJ_CNT_CUT_LATE n, OBJ_STATUS n] s t ∧ Kept [.obj] s t) ∧
  ∀ (n : Fin 96) (s : State),
    (∀ j, (s.objStream n).ready.find? (fun j => cutsOver s j) = some j → ∃ t,
      Sys2Proof.Machine.exec (.recordRelease n) s = .next t ∧
        (t.objStream n).ready = (s.objStream n).ready.erase j ∧
        (∀ v, j.a = some v → ∀ k ∈ (t.objStream v.stream).cuts, k.view.serial ≠ v.serial) ∧
        BlocksKept [.cvn, .ejt, .erg, .flt, .host, .obj] s t) ∧
    ((s.objStream n).ready.find? (fun j => cutsOver s j) = none →
      Sys2Proof.Machine.exec (.recordRelease n) s = .next s)

/-- The oldest fetched verdict waits for its data and arrives: for a handle that is not pending it only counts EJT_CNT_UNKNOWN; before the decision point the owner's
PASS, EJECT or EJECT_ALT settles the record by the host and counts; a second one counts EJT_CNT_DUP and changes no record; one at or
past the decision point counts EJT_CNT_LATE and marks the record late.  At its decision point, not before, an unsettled record is settled by the
rule that matched, or else by the default.  From TE on a settled record has its settled copy made.  An expired entry leaves the
table, and PEND_NOW follows it; a write to PEND_PEAK makes it the present number. -/
def Obligations.VerdictsSettleOnce : Prop :=
  (∀ s : State, s.host.flights = [] → Sys2Proof.Machine.exec .hostVerdict s = .next s) ∧
  (∀ (s : State) (f : Flight) (rest : List Flight), s.host.flights = f :: rest → s.now < f.back →
    Sys2Proof.Machine.exec .hostVerdict s = .next s) ∧
  (∀ (s : State) (c : Nat) (k : Word) (e : BitVec 128) (h action back : Nat) (rest : List Flight),
    s.host.flights = ⟨c, k, e, back⟩ :: rest → back ≤ s.now → h = e.toNat % 2 ^ 64 → action = nbits e.toNat 71 64 →
    (pendingRec s h = none → ∃ t, Sys2Proof.Machine.exec .hostVerdict s = .next t ∧ t.host.flights = rest ∧
      t.rd .ejt EJT_CNT_UNKNOWN = satAdd (s.rd .ejt EJT_CNT_UNKNOWN) 1 ∧ t.ejt.recs = s.ejt.recs ∧
      RegsKept .ejt [EJT_CNT_UNKNOWN] s t ∧ Kept [.ejt, .host] s t) ∧
    (∀ v, pendingRec s h = some v → nbits e.toNat 121 112 = c →
      (s.flag .ejt (EJT_STR_CTRL v.stream) 24 = true ∨ s.fld .ejt (EJT_STR_CTRL v.stream) 9 0 = c) →
      (action ≤ 2 → v.hostTaken = false → (s.now : Int) < v.decideAt → tbit e.toNat 72 = false → ∃ t,
        Sys2Proof.Machine.exec .hostVerdict s = .next t ∧ t.host.flights = rest ∧
        (∀ x ∈ t.ejt.recs, x.handle = h → x.inTable = true → x.isLost = false →
          x.settled = some (.host, action) ∧ x.hostTaken = true) ∧
        t.rd .ejt EJT_CNT_HOST = satAdd (s.rd .ejt EJT_CNT_HOST) 1 ∧
        RegsKept .ejt [EJT_CNT_HOST, EJT_CNT_NO_ALT, EJT_CNT_CANCELLED] s t ∧ Kept [.ejt, .host] s t) ∧
      (action ≤ 3 → v.hostTaken = true → ∃ t, Sys2Proof.Machine.exec .hostVerdict s = .next t ∧ t.host.flights = rest ∧
        t.rd .ejt EJT_CNT_DUP = satAdd (s.rd .ejt EJT_CNT_DUP) 1 ∧ t.ejt.recs = s.ejt.recs ∧
        RegsKept .ejt [EJT_CNT_DUP] s t ∧ Kept [.ejt, .host] s t) ∧
      (action ≤ 3 → v.hostTaken = false → v.decideAt ≤ (s.now : Int) → ∃ t,
        Sys2Proof.Machine.exec .hostVerdict s = .next t ∧ t.host.flights = rest ∧
        t.rd .ejt EJT_CNT_LATE = satAdd (s.rd .ejt EJT_CNT_LATE) 1 ∧
        (∀ x ∈ t.ejt.recs, x.handle = h → x.isLost = false → x.late = true) ∧ Kept [.ejt, .host] s t))) ∧
  (∀ (h : BitVec 64) (s : State) (v : VRec), pendingRec s h.toNat = some v → v.settled = none →
    ((s.now : Int) < v.decideAt → Sys2Proof.Machine.exec (.decisionPoint h) s = .next s) ∧
    (v.decideAt ≤ (s.now : Int) → ∃ t, Sys2Proof.Machine.exec (.decisionPoint h) s = .next t ∧
      (∀ x ∈ t.ejt.recs, x.handle = h.toNat → x.inTable = true → x.isLost = false →
        x.settled = some (match v.rule with
          | some a => (.rule, a)
          | none => (.dflt, v.dflt))) ∧
      RegsKept .ejt [EJT_CNT_RULE, EJT_CNT_DEFAULT, EJT_CNT_NO_ALT, EJT_CNT_CANCELLED] s t ∧ Kept [.ejt] s t)) ∧
  (∀ (h : BitVec 64) (s : State) (v : VRec),
    s.ejt.recs.find? (fun v => v.handle == h.toNat && !v.isLost && !v.copied) = some v →
    ((s.now : Int) < v.te → Sys2Proof.Machine.exec (.settledCopy h) s = .next s) ∧
    (v.settled ≠ none → v.te ≤ (s.now : Int) → ∃ t, Sys2Proof.Machine.exec (.settledCopy h) s = .next t ∧
      (∀ x ∈ t.ejt.recs, x.handle = h.toNat → x.isLost = false → x.copied = true) ∧ RegsKept .ejt [] s t ∧
      BlocksKept [.cvn, .ejt, .erg, .flt, .host, .obj] s t)) ∧
  (∀ (h : BitVec 64) (s : State), ∃ t, Sys2Proof.Machine.exec (.pendingExpire h) s = .next t ∧
    t.ejt.recs = s.ejt.recs.filter (fun v => !(v.handle == h.toNat && v.expired s.now (s.fld .ejt EJT_RETAIN 7 0))) ∧
    t.fld .ejt EJT_PEND_NOW 16 0 = pendNow t % 2 ^ 17 ∧ RegsKept .ejt [EJT_PEND_NOW, EJT_PEND_PEAK] s t ∧
    Kept [.ejt] s t) ∧
  ∀ s : State, ∃ t, Sys2Proof.Machine.exec .ejtPendPeakWrite s = .next t ∧
    t.fld .ejt EJT_PEND_PEAK 16 0 = pendNow s % 2 ^ 17 ∧ RegsKept .ejt [EJT_PEND_PEAK] s t ∧
    t.ejt = { s.ejt with regs := t.ejt.regs } ∧ Kept [.ejt] s t

/-- A table load while one runs only sets CFG_ERR; another empties the bank not in use and sets BUSY.  Its end fills the bank from
a good image, or leaves it invalid with its flag.  A swap exchanges exactly the freshly loaded banks.  The frame of a slot is sent once, on an
enabled bus in RUN: a valve is on exactly if a record requests it and the protections allow it, and the other buses' valves
are as before.  A good return frame shows the board's status and clears the loss, a bad one is counted; after 8
whole slots without one the loss is flagged. -/
def Obligations.EjectorsDriveTheirValves : Prop :=
  (∀ (v : Word) (s : State), bit v 31 = true →
    (s.flag .ejt EJT_STATUS 3 = true →
      Sys2Proof.Machine.exec (.ejtTblLoad v) s = .next (s.setb .ejt EJT_STATUS 1 true)) ∧
    (s.flag .ejt EJT_STATUS 3 = false → ∃ t, Sys2Proof.Machine.exec (.ejtTblLoad v) s = .next t ∧
      t.flag .ejt EJT_STATUS 3 = true ∧
      t.ejt.load = some (bit v 30, bits v 29 28, s.rd64 .ejt EJT_TBL_ADDR_LO EJT_TBL_ADDR_HI) ∧
      (bit v 30 = true → ruleTable t (bits v 29 28) = (ruleTable s (bits v 29 28)).load none ∧
        t.ejt.flight = s.ejt.flight) ∧
      (bit v 30 = false → flightTable t (bits v 29 28) = (flightTable s (bits v 29 28)).load none ∧
        t.ejt.rule = s.ejt.rule) ∧
      t.ejt.recs = s.ejt.recs ∧ RegsKept .ejt [EJT_TBL_CMD, EJT_STATUS] s t ∧ Kept [.ejt] s t)) ∧
  (∀ (s : State) (k a : Nat),
    (s.ejt.load = none → Sys2Proof.Machine.exec .ejtTblLoadDone s = .next s) ∧
    (s.ejt.load = some (true, k, a) → ∃ t, Sys2Proof.Machine.exec .ejtTblLoadDone s = .next t ∧ t.ejt.load = none ∧
      t.flag .ejt EJT_STATUS 3 = false ∧ t.flag .ejt EJT_TBL_CMD 31 = false ∧
      (let ok := ruleOk (ergRead s a 1088) && !ergPoisoned s a 1088
       ruleTable t k = (ruleTable s k).load (if ok then some (ergRead s a 1088) else none) ∧
        (ok = false → t.flag .ejt EJT_STATUS 2 = true)) ∧
      t.ejt.flight = s.ejt.flight ∧ RegsKept .ejt [EJT_TBL_CMD, EJT_STATUS] s t ∧ Kept [.ejt, .erg, .flt] s t) ∧
    (s.ejt.load = some (false, k, a) → ∃ t, Sys2Proof.Machine.exec .ejtTblLoadDone s = .next t ∧ t.ejt.load = none ∧
      t.flag .ejt EJT_STATUS 3 = false ∧ t.flag .ejt EJT_TBL_CMD 31 = false ∧
      (let ok := flightOk (ergRead s a 16448) && !ergPoisoned s a 16448
       flightTable t k = (flightTable s k).load (if ok then some (ergRead s a 16448) else none) ∧
        (ok = false → t.flag .ejt EJT_STATUS 2 = true)) ∧
      t.ejt.rule = s.ejt.rule ∧ RegsKept .ejt [EJT_TBL_CMD, EJT_STATUS] s t ∧ Kept [.ejt, .erg, .flt] s t)) ∧
  (∀ (v : Word) (s : State),
    (bit v 0 = false → Sys2Proof.Machine.exec (.ejtTblSwap v) s = .next s) ∧
    (bit v 0 = true → ∃ t, Sys2Proof.Machine.exec (.ejtTblSwap v) s = .next t ∧
      (∀ k, k < 4 → flightTable t k = (flightTable s k).swap ∧ ruleTable t k = (ruleTable s k).swap) ∧
      t.ejt.recs = s.ejt.recs ∧ RegsKept .ejt [] s t ∧ Kept [.ejt] s t)) ∧
  (∀ (n : Fin 8) (s : State) (j : Nat), (ejBus s n).slot = some j →
    (frameSlot s.now ≤ j → Sys2Proof.Machine.exec (.ejFrame n) s = .next s) ∧
    (s.flag .ejt (EJT_BUS_CTRL n) 31 = false → Sys2Proof.Machine.exec (.ejFrame n) s = .next s) ∧
    (j < frameSlot s.now → s.flag .ejt (EJT_BUS_CTRL n) 31 = true → s.outputsOn = true → ∃ t,
      Sys2Proof.Machine.exec (.ejFrame n) s = .next t ∧ (ejBus t n).slot = some (frameSlot s.now) ∧
      (∀ i, i < 256 → (n.val * 256 + i ∈ (ejBus t n).valves ↔
        s.ejt.recs.any (fun v => v.requests (frameSlot s.now) (n.val * 256 + i)) = true ∧
        valveAllowed (s.rd .ejt (EJT_BUS_PROT n)) ((valveSt s (n.val * 256 + i)).idle (frameSlot s.now - j - 1))
          (frameSlot s.now) = true)) ∧
      (∀ v, v / 256 ≠ n.val → valveSt t v = valveSt s v) ∧ RegsKept .ejt [EJT_CNT_LIMITED] s t ∧ Kept [.ejt] s t)) ∧
  (∀ (n : Fin 8) (frame : BitVec 64) (s : State),
    (s.flag .ejt (EJT_BUS_CTRL n) 30 = false → Sys2Proof.Machine.exec (.ejReturnFrame n frame) s = .next s) ∧
    (s.flag .ejt (EJT_BUS_CTRL n) 30 = true →
      (nbits frame.toNat 63 48 = 0x4C70 → crc16 32 (nbits frame.toNat 47 16) = nbits frame.toNat 15 0 → ∃ t,
        Sys2Proof.Machine.exec (.ejReturnFrame n frame) s = .next t ∧
          t.fld .ejt (EJT_BUS_STATUS n) 15 0 = nbits frame.toNat 47 32 ∧ t.flag .ejt (EJT_BUS_STATUS n) 16 = true ∧
          t.flag .ejt (EJT_BUS_STATUS n) 17 = false ∧ ejBus t n = { ejBus s n with retSlot := s.now / 5000 } ∧
          RegsKept .ejt [EJT_BUS_STATUS n] s t ∧ Kept [.ejt] s t) ∧
      (nbits frame.toNat 63 48 ≠ 0x4C70 → ∃ t, Sys2Proof.Machine.exec (.ejReturnFrame n frame) s = .next t ∧
        t.rd .ejt (EJT_CNT_RET_CRC n) = satAdd (s.rd .ejt (EJT_CNT_RET_CRC n)) 1 ∧ ejBus t n = ejBus s n ∧
        RegsKept .ejt [EJT_CNT_RET_CRC n] s t ∧ Kept [.ejt] s t))) ∧
  ∀ (n : Fin 8) (s : State),
    (s.now / 5000 < (ejBus s n).retSlot + 9 → Sys2Proof.Machine.exec (.ejRetLost n) s = .next s) ∧
    ((ejBus s n).retSlot + 9 ≤ s.now / 5000 → s.flag .ejt (EJT_BUS_CTRL n) 30 = true → s.flag .ejt (EJT_BUS_STATUS n) 17 = false →
      ∃ t, Sys2Proof.Machine.exec (.ejRetLost n) s = .next t ∧ t.flag .ejt (EJT_BUS_STATUS n) 17 = true ∧
        RegsKept .ejt [EJT_BUS_STATUS n] s t ∧ Kept [.ejt, .evt] s t)

/-- Before each of these the overcurrents and the starts whose instants have come are settled (the later of a set's own instant and its cycle's end
is the model's choice, log 42; so is what becomes of a start that falls due during a cycle, log 67).  A due reload takes the shadowed values together
and begins a cycle; one that is ahead changes nothing.  An event that finds no cycle running waits for its start instant, one during a
cycle waits behind it, and with one waiting already counts an overrun.  At a strobe cycle's end the waiting start
follows, not before the end.  A shadow write goes to the set of the next reload, and past a due reload to the one after, with WRITE_AT_RELOAD within its cycle; the running
cycle keeps its values.  Overcurrent, accepted by its filter and polarity, ends the pulse behind the blanking and counts.  A short circuit trips the leg, which stands
still, is counted, and trips the group when another leg tripped within 1 us.  CLEAR releases a tripped leg, and is rejected while SC or the
group trip stands; the group's clear does so after 10 ms without SC, and of a group that is not tripped sets CLR_REJ (the model's choice, log 43). -/
def Obligations.LegsReloadStrobeAndTrip : Prop :=
  (∀ (n : Fin 8) (s u : State) (r : Nat), u = s.pwmSettle n (halfNow s) → pwmNextReload u n = some r →
    (halfNow s < r ∨ pwmRuns u n = false → Sys2Proof.Machine.exec (.pwmReload n) s = .next u) ∧
    (r ≤ halfNow s → pwmRuns u n = true → ∃ t, Sys2Proof.Machine.exec (.pwmReload n) s = .next t ∧
      (pwmLeg t n).act = (pwmLeg u n).shadow ∧ (pwmLeg t n).cycle = some r ∧ (pwmLeg t n).pending = none ∧
      (pwmLeg t n).starts = (if (pwmLeg u n).pending.isSome then (pwmLeg u n).starts else (pwmLeg u n).starts.drop 1) ∧
      (pwmLeg t n).ocAt = none ∧ (pwmLeg t n).next = none ∧ RegsKept .pwm [] u t ∧ Kept [.pwm] u t)) ∧
  (∀ (n : Fin 8) (s u : State) (x : Nat × Nat) (es : List (Nat × Nat)), (pwmLeg s n).events = x :: es →
    u = (s.onPwm n (fun l => { l with events := es })).pwmSettle n (halfNow s) →
    ((pwmLeg s n).busy (halfNow s) = false →
      Sys2Proof.Machine.exec (.pwmStrobeEvent n) s = .next (u.onPwm n (fun l => l.await x))) ∧
    ((pwmLeg s n).busy (halfNow s) = true → (pwmLeg u n).pending = none → ∃ t,
      Sys2Proof.Machine.exec (.pwmStrobeEvent n) s = .next t ∧ pwmLeg t n = { pwmLeg u n with pending := some x } ∧
        RegsKept .pwm [] u t ∧ Kept [.pwm] u t) ∧
    ((pwmLeg s n).busy (halfNow s) = true → (pwmLeg u n).pending ≠ none → ∃ t,
      Sys2Proof.Machine.exec (.pwmStrobeEvent n) s = .next t ∧ pwmLeg t n = pwmLeg u n ∧
        t.rd .pwm (PWM_CNT_OVERRUN n) = satAdd (u.rd .pwm (PWM_CNT_OVERRUN n)) 1 ∧
        t.rd .evt (EVT_CNT_OVERRUN x.2) = satAdd (u.rd .evt (EVT_CNT_OVERRUN x.2)) 1 ∧
        RegsKept .pwm [PWM_CNT_OVERRUN n] u t ∧ Kept [.pwm, .evt] u t)) ∧
  (∀ (n : Fin 8) (s u : State) (c : Nat), (pwmLeg s n).cycle = some c → u = s.pwmSettle n (halfNow s) →
    (halfNow s < c + 5 * (pwmLeg s n).act.period → Sys2Proof.Machine.exec (.pwmCycleEnd n) s = .next u) ∧
    (c + 5 * (pwmLeg s n).act.period ≤ halfNow s → pwmStrobe u n = true → ∃ t,
      Sys2Proof.Machine.exec (.pwmCycleEnd n) s = .next t ∧ (pwmLeg t n).cycle = none ∧ (pwmLeg t n).pending = none ∧
      (pwmLeg t n).starts = (match (pwmLeg u n).pending with
        | some x => ((pwmLeg u n).await (max (c + 5 * (pwmLeg s n).act.period) x.1, x.2)).starts
        | none => (pwmLeg u n).starts) ∧ RegsKept .pwm [] u t ∧ Kept [.pwm] u t)) ∧
  (∀ (n : Fin 8) (k : Fin 5) (v : Word) (s u : State), u = s.pwmSettle n (halfNow s) → (pwmLeg u n).next = none → ∃ t,
    Sys2Proof.Machine.exec (.pwmShadowWrite n k v) s = .next t ∧ (pwmLeg t n).act = (pwmLeg u n).act ∧
      (pwmLeg t n).cycle = (pwmLeg u n).cycle ∧
      ((∀ r, pwmNextReload u n = some r → halfNow s < r) → (pwmLeg t n).shadow = pwmShadow t n ∧
        (pwmLeg t n).next = none) ∧
      (∀ r, pwmNextReload u n = some r → r ≤ halfNow s → (pwmLeg t n).shadow = (pwmLeg u n).shadow ∧
        (pwmLeg t n).next = some (pwmShadow t n) ∧ (halfNow s < r + 5 → t.flag .pwm (PWM_STATUS n) 6 = true)) ∧
      RegsKept .pwm [pwmShadowReg n k, PWM_STATUS n] u t ∧ Kept [.pwm] u t) ∧
  (∀ (n : Fin 8) (level : Bool) (first : BitVec 64) (s : State) (a : Nat),
    a = first.toNat * 2 + 5 * s.fld .pwm (PWM_CTRL n) 26 23 →
    (level = s.flag .pwm (PWM_CTRL n) 28 → a ≤ halfNow s → Sys2Proof.Machine.exec (.pwmOc n level first) s =
      .next ((s.ocSettle n (min (a - 1) (halfNow s))).setb .pwm (PWM_STATUS n) 2 false)) ∧
    (halfNow s < a → s.flag .pwm (PWM_STATUS n) 2 = false → Sys2Proof.Machine.exec (.pwmOc n level first) s = .next s) ∧
    (∀ c e, level ≠ s.flag .pwm (PWM_CTRL n) 28 → s.flag .pwm (PWM_STATUS n) 2 = false → a ≤ halfNow s → (pwmLeg s n).cycle = some c →
      (pwmLeg s n).ocAt = none → pwmRuns s n = true →
      e = max a (c + 5 * ((pwmLeg s n).act.deadLh + (pwmLeg s n).act.blank)) →
      e < c + 5 * ((pwmLeg s n).act.deadLh + (pwmLeg s n).act.high) → e ≤ halfNow s → ∃ t,
      Sys2Proof.Machine.exec (.pwmOc n level first) s = .next t ∧ (pwmLeg t n).ocAt = some e ∧
        (pwmLeg t n).cycle = some c ∧ t.flag .pwm (PWM_STATUS n) 2 = true ∧ t.flag .pwm (PWM_STATUS n) 4 = true ∧
        t.rd .pwm (PWM_CNT_OC n) = satAdd (s.rd .pwm (PWM_CNT_OC n)) 1 ∧
        RegsKept .pwm [PWM_STATUS n, PWM_CNT_OC n] s t ∧ Kept [.pwm] s t)) ∧
  (∀ (n : Fin 8) (level : Bool) (first : BitVec 64) (s : State),
    level ≠ s.flag .pwm (PWM_CTRL n) 27 → first.toNat * 2 + 5 ≤ halfNow s → s.flag .pwm (PWM_STATUS n) 0 = false → ∃ t,
    Sys2Proof.Machine.exec (.pwmSc n level first) s = .next t ∧ t.flag .pwm (PWM_STATUS n) 0 = true ∧
      t.flag .pwm (PWM_STATUS n) 3 = true ∧ t.flag .pwm (PWM_GRP_STATUS (n.val / 4)) 1 = true ∧
      t.rd .pwm (PWM_CNT_TRIP n) = satAdd (s.rd .pwm (PWM_CNT_TRIP n)) 1 ∧
      (pwmLeg t n).cycle = none ∧ (pwmLeg t n).starts = [] ∧ (pwmLeg t n).trippedAt = some s.now ∧
      (tripNear s n = true → t.flag .pwm (PWM_GRP_STATUS (n.val / 4)) 0 = true) ∧ Kept [.pwm, .evt] s t) ∧
  (∀ (n : Fin 8) (s : State),
    (s.flag .pwm (PWM_STATUS n) 3 = true → Sys2Proof.Machine.exec (.pwmClear n) s =
      .next (s.setb .pwm (PWM_STATUS n) 7 true)) ∧
    (s.flag .pwm (PWM_STATUS n) 3 = false → s.flag .pwm (PWM_STATUS n) 1 = false →
      s.flag .pwm (PWM_STATUS n) 0 = true → ∃ t, Sys2Proof.Machine.exec (.pwmClear n) s = .next t ∧
      t.flag .pwm (PWM_STATUS n) 0 = false ∧ (pwmLeg t n).cycle = none ∧
      (pwmLeg t n).starts = (if s.flag .pwm (PWM_CTRL n) 31 && !pwmStrobe s n then [(halfNow s, 0)] else []) ∧
      RegsKept .pwm [PWM_STATUS n] s t ∧ Kept [.pwm] s t)) ∧
  ∀ (g : Fin 2) (s : State),
    (s.flag .pwm (PWM_GRP_STATUS g) 0 = false → Sys2Proof.Machine.exec (.pwmGrpClear g) s =
      .next (s.setb .pwm (PWM_GRP_STATUS g) 2 true)) ∧
    (∀ t0, s.flag .pwm (PWM_GRP_STATUS g) 0 = true → Tab.get (fun _ => none) s.pwm.grpAt g = some t0 →
      t0 + 10000000 ≤ s.now → groupSc s g = false → ∃ t, Sys2Proof.Machine.exec (.pwmGrpClear g) s = .next t ∧
      t.flag .pwm (PWM_GRP_STATUS g) 0 = false ∧
      (∀ k ∈ groupLegs g.val, t.flag .pwm (PWM_STATUS k) 0 = false ∧ t.flag .pwm (PWM_STATUS k) 1 = false ∧
        (pwmLeg t k).cycle = none) ∧
      Kept [.pwm] s t)

/-- With no slot running the oldest cause of its kind starts the slot at the program's entry, at this TB with nothing used, and counts
it; TICK at its instant, not without one due.  Behind a running slot a cause becomes pending, and a second one is an overrun: counted,
FAULT 2, reported.  END ends the slot, keeps its X registers and leaves IDLE when nothing is pending.  A slot past its
budget, a reserved opcode and a double-bit error fault with 1, 4 and 3 and end the slot; a corrected error only counts.  RESTART
without INIT leaves HALTED and keeps the X registers; with INIT they take the image's.  A write to a peak clears it.  A
bank switch that is allowed flips the bank, leaves the list of those to switch, and goes on IDLE. -/
def Obligations.SlotsStartWaitAndEnd : Prop :=
  (∀ (q : Fin 33) (s : State) (p : Program) (e : Nat) (arg : Word), activeProg s q = some p → p.entryOf 1 = some e →
    seqState s q = 1 → (s.seqU q).causes.find? (fun c => c.1 == 1) = some (1, arg) → ∃ t,
    Sys2Proof.Machine.exec (.stripSlot q) s = .next t ∧ seqState t q = 2 ∧
      (t.seqU q).slot.map (fun sl => (sl.kind, sl.pc, sl.start)) = some (1, e, s.now) ∧ Kept [.seq] s t) ∧
  (∀ (q : Fin 33) (s : State) (p : Program) (e : Nat) (arg : Word), activeProg s q = some p → p.entryOf 0 = some e →
    seqState s q = 1 → (s.seqU q).causes.find? (fun c => c.1 == 0) = some (0, arg) →
    (s.seqU q).causes.any (fun c => c.1 == 1) = false → ∃ t,
    Sys2Proof.Machine.exec (.lineSlot q) s = .next t ∧ seqState t q = 2 ∧
      (t.seqU q).slot.map (fun sl => (sl.kind, sl.pc, sl.start)) = some (0, e, s.now) ∧ Kept [.seq] s t) ∧
  (∀ (q : Fin 33) (s : State) (p : Program) (e : Nat) (arg : Word), activeProg s q = some p → p.entryOf 2 = some e →
    seqState s q = 1 → (s.seqU q).causes.find? (fun c => c.1 == 2) = some (2, arg) → ∃ t,
    Sys2Proof.Machine.exec (.eventSlot q) s = .next t ∧ seqState t q = 2 ∧
      (t.seqU q).slot.map (fun sl => (sl.kind, sl.pc, sl.start)) = some (2, e, s.now) ∧ Kept [.seq] s t) ∧
  (∀ (q : Fin 33) (s : State) (p : Program) (k e : Nat) (arg : Word) (c : Instr),
    (c, k) ∈ [(Instr.stripSlot q, 1), (Instr.lineSlot q, 0), (Instr.eventSlot q, 2)] → activeProg s q = some p →
    (s.seqU q).causes.find? (fun c => c.1 == k) = some (k, arg) →
    (k = 0 → (s.seqU q).causes.any (fun c => c.1 == 1) = false ∧ (s.seqU q).lastLine = none) →
    (k = 2 → (s.seqU q).lastEvent = none) →
    (seqState s q = 1 → p.entryOf k = some e → ∃ t, Sys2Proof.Machine.exec c s = .next t ∧ seqState t q = 2 ∧
      (t.seqU q).slot = some { kind := k, pc := e, start := s.now, used := 0, loops := []
                               x := (List.range 16).map (fun i => seqX s q i)
                               motion := (List.range 8).map (fun m => motionWords s m)
                               evArg := if k = 2 then arg else 0#32, waiting := none } ∧
      (t.seqU q).causes = (s.seqU q).causes.erase (k, arg) ∧
      t.rd .seq (SEQ_CNT_SLOTS q) = satAdd (s.rd .seq (SEQ_CNT_SLOTS q)) 1 ∧
      RegsKept .seq [SEQ_STATUS q, SEQ_CNT_SLOTS q] s t ∧ Kept [.seq] s t) ∧
    (seqState s q = 2 → slotPending s q k = false → ∃ t, Sys2Proof.Machine.exec c s = .next t ∧
      slotPending t q k = true ∧ (t.seqU q).slot = (s.seqU q).slot ∧ seqState t q = 2 ∧
      (k = 2 → (t.seqU q).evArg = arg) ∧ RegsKept .seq [SEQ_STATUS q] s t ∧ Kept [.seq] s t) ∧
    (seqState s q = 2 → slotPending s q k = true → s.flag .seq (SEQ_CTRL q) 0 = false → ∃ t,
      Sys2Proof.Machine.exec c s = .next t ∧ t.rd .seq (SEQ_CNT_OVERRUN q) = satAdd (s.rd .seq (SEQ_CNT_OVERRUN q)) 1 ∧
      t.fld .seq (SEQ_STATUS q) 28 24 = 2 ∧ (t.seqU q).slot = (s.seqU q).slot ∧ t.flag .flt FLT_STATUS 30 = true ∧
      RegsKept .seq [SEQ_STATUS q, SEQ_CNT_OVERRUN q] s t ∧ Kept [.seq, .flt] s t)) ∧
  (∀ (q : Fin 33) (s : State) (p : Program) (e : Nat), activeProg s q = some p → p.entryOf 3 = some e →
    seqState s q = 1 → s.seq.swap = none →
    (tickDue p ((s.seqU q).lastTick.getD 0) s.now = false → Sys2Proof.Machine.exec (.tickSlot q) s = .next s) ∧
    (tickDue p ((s.seqU q).lastTick.getD 0) s.now = true → ∃ t, Sys2Proof.Machine.exec (.tickSlot q) s = .next t ∧
      seqState t q = 2 ∧ (t.seqU q).slot.map (fun sl => (sl.kind, sl.pc, sl.start, sl.used)) = some (3, e, s.now, 0) ∧
      (t.seqU q).lastTick = some s.now ∧ RegsKept .seq [SEQ_STATUS q, SEQ_CNT_SLOTS q] s t ∧ Kept [.seq] s t)) ∧
  (∀ (q : Fin 33) (s : State) (sl : SlotSt), slotAt s q (instrWord 0x01 0 0 0 0 0#32) 1 = some sl →
    sl.x.length = 16 → s.fld .seq (SEQ_STATUS q) 11 8 = 0 → ∃ t, Sys2Proof.Machine.exec (.endSlot q) s = .next t ∧
      seqState t q = 1 ∧ (t.seqU q).slot = none ∧ (∀ i, i < 16 → seqX t q i = sl.getX i) ∧
      t.fld .seq (peakAt q sl.kind) 15 0 = max (s.fld .seq (peakAt q sl.kind) 15 0) (capNat 65535 (sl.used + 1)) ∧
      Kept [.seq] s t) ∧
  (∀ (q : Fin 33) (s : State) (p : Program) (sl : SlotSt), runningSlot s q = some (p, sl) →
    s.flag .seq (SEQ_CTRL q) 0 = false → s.fld .seq (SEQ_STATUS q) 11 8 = 0 →
    (budgetOver s q = false → Sys2Proof.Machine.exec (.slotBudgetExpired q) s = .next s) ∧
    (budgetOver s q = true → ∃ t, Sys2Proof.Machine.exec (.slotBudgetExpired q) s = .next t ∧
      t.fld .seq (SEQ_STATUS q) 28 24 = 1 ∧ (t.seqU q).slot = none ∧ seqState t q = 1 ∧
      t.rd .seq (SEQ_CNT_BUDGET q) = satAdd (s.rd .seq (SEQ_CNT_BUDGET q)) 1 ∧ Kept [.seq, .flt] s t) ∧
    (∀ w, p.code[sl.pc]? = some w → opCycles (wordOp w) = none → ∃ t,
      Sys2Proof.Machine.exec (.seqIllegal q) s = .next t ∧ t.fld .seq (SEQ_STATUS q) 28 24 = 4 ∧
      (t.seqU q).slot = none ∧ seqState t q = 1 ∧ Kept [.seq, .flt] s t) ∧
    (∃ t, Sys2Proof.Machine.exec (.seqEcc q true) s = .next t ∧ t.fld .seq (SEQ_STATUS q) 28 24 = 3 ∧
      (t.seqU q).slot = none ∧ seqState t q = 1 ∧ Kept [.seq, .flt] s t) ∧
    (∃ t, Sys2Proof.Machine.exec (.seqEcc q false) s = .next t ∧ t.seqU q = s.seqU q ∧
      t.rd .seq (SEQ_CNT_ECC_CORR q) = satAdd (s.rd .seq (SEQ_CNT_ECC_CORR q)) 1 ∧
      RegsKept .seq [SEQ_CNT_ECC_CORR q] s t ∧ Kept [.seq] s t)) ∧
  (∀ (q : Fin 33) (hof : Bool) (s : State), s.fld .seq (SEQ_STATUS q) 11 8 = 0 →
    (seqState s q = 3 → (∃ t, Sys2Proof.Machine.exec (.seqRestart q hof) s = .next t ∧ seqState t q = 1 ∧
      t.flag .seq (SEQ_CTRL q) 0 = hof ∧ (t.seqU q).slot = (s.seqU q).slot ∧
      RegsKept .seq [SEQ_STATUS q, SEQ_CTRL q] s t ∧ Kept [.seq] s t)) ∧
    (∀ p, seqState s q = 3 → activeProg s q = some p → p.xInit.length = 16 → ∃ t,
      Sys2Proof.Machine.exec (.seqInit q hof) s = .next t ∧ seqState t q = 1 ∧ t.flag .seq (SEQ_CTRL q) 0 = hof ∧
      (∀ i, i < 16 → seqX t q i = atD p.xInit i 0#32) ∧ Kept [.seq] s t) ∧
    (seqState s q ≠ 3 → Sys2Proof.Machine.exec (.seqRestart q hof) s = .next (s.setb .seq (SEQ_CTRL q) 0 hof) ∧
      Sys2Proof.Machine.exec (.seqInit q hof) s = .next (s.setb .seq (SEQ_CTRL q) 0 hof))) ∧
  (∀ (q : Fin 33) (kind : Fin 4) (s : State), ∃ t, Sys2Proof.Machine.exec (.seqPeakWrite q kind) s = .next t ∧
    t.rd .seq (peakAt q kind) = 0#32 ∧ RegsKept .seq [peakAt q kind] s t ∧ t.seq = { s.seq with regs := t.seq.regs } ∧
    Kept [.seq] s t) ∧
  ∀ (q : Fin 33) (s : State),
    (switchAtOnce s q = false → Sys2Proof.Machine.exec (.seqBankSwitch q) s = .next s) ∧
    (∀ w i p, switchAtOnce s q = true → s.seq.swap = some w → s.seq.staged = some i → w.left.contains q.val = true →
      q.val < 32 → w.left.erase q.val ≠ [32] → (s.seqU q).prog (!s.flag .seq (SEQ_STATUS q) 29) = some p → ∃ t,
      Sys2Proof.Machine.exec (.seqBankSwitch q) s = .next t ∧
      t.flag .seq (SEQ_STATUS q) 29 = (!s.flag .seq (SEQ_STATUS q) 29) ∧ seqState t q = 1 ∧ (t.seqU q).slot = none ∧
      t.seq.swap = some { w with left := w.left.erase q.val } ∧ t.seq.active = s.seq.active ∧
      Kept [.seq, .pix, .obj] s t)

/-- When the slot stands at the instruction's word and its cycles fit the budget: NOP changes no register; MOVI, MOV, ADDI, ADD, SUB, ADDS
(unsigned, stopping at 0xFFFF_FFFF), AND, OR, XOR, SHL, SHR and ANDI put their result into X[D]; LDS puts the status word
selected and uses 4 cycles; STAMP puts TB into X[D] and X[D+1] and uses 2.  Each other X register is as before, the
slot goes on at the next word, and nothing else of the device changes.  Each of them that the slot does not stand at, or whose cycles do not fit, changes
nothing. -/
def Obligations.SequencerArithmetic : Prop :=
  ∀ (q : Fin 33) (d a b : Fin 16) (imm : Word) (n : Fin 32) (sl : SlotSt) (s : State),
    (slotAt s q (instrWord 0x00 0 0 0 0 0#32) 1 = some sl → ∃ t,
      Sys2Proof.Machine.exec (.nop q) s = .next t ∧ SlotGoes q sl sl.x 1 (sl.pc + 1) s t) ∧
    (slotAt s q (instrWord 0x02 d 0 0 0 imm) 1 = some sl → ∃ t,
      Sys2Proof.Machine.exec (.movi q d imm) s = .next t ∧ SlotGoes q sl (sl.x.set d imm) 1 (sl.pc + 1) s t) ∧
    (slotAt s q (instrWord 0x03 d a 0 0 0#32) 1 = some sl → ∃ t,
      Sys2Proof.Machine.exec (.mov q d a) s = .next t ∧ SlotGoes q sl (sl.x.set d (sl.getX a)) 1 (sl.pc + 1) s t) ∧
    (slotAt s q (instrWord 0x04 d a 0 0 imm) 1 = some sl → ∃ t,
      Sys2Proof.Machine.exec (.addi q d a imm) s = .next t ∧
      SlotGoes q sl (sl.x.set d (sl.getX a + imm)) 1 (sl.pc + 1) s t) ∧
    (slotAt s q (instrWord 0x05 d a b 0 0#32) 1 = some sl → ∃ t,
      Sys2Proof.Machine.exec (.add q d a b) s = .next t ∧
      SlotGoes q sl (sl.x.set d (sl.getX a + sl.getX b)) 1 (sl.pc + 1) s t) ∧
    (slotAt s q (instrWord 0x06 d a b 0 0#32) 1 = some sl → ∃ t,
      Sys2Proof.Machine.exec (.sub q d a b) s = .next t ∧
      SlotGoes q sl (sl.x.set d (sl.getX a - sl.getX b)) 1 (sl.pc + 1) s t) ∧
    (slotAt s q (instrWord 0x07 d a 0 0 imm) 1 = some sl → ∃ t,
      Sys2Proof.Machine.exec (.adds q d a imm) s = .next t ∧
      SlotGoes q sl (sl.x.set d (if (sl.getX a).toNat + imm.toNat < 2 ^ 32 then sl.getX a + imm else 0xFFFFFFFF#32)) 1
        (sl.pc + 1) s t) ∧
    (slotAt s q (instrWord 0x08 d a b 0 0#32) 1 = some sl → ∃ t,
      Sys2Proof.Machine.exec (.and q d a b) s = .next t ∧
      SlotGoes q sl (sl.x.set d (sl.getX a &&& sl.getX b)) 1 (sl.pc + 1) s t) ∧
    (slotAt s q (instrWord 0x09 d a b 0 0#32) 1 = some sl → ∃ t,
      Sys2Proof.Machine.exec (.or q d a b) s = .next t ∧
      SlotGoes q sl (sl.x.set d (sl.getX a ||| sl.getX b)) 1 (sl.pc + 1) s t) ∧
    (slotAt s q (instrWord 0x0A d a b 0 0#32) 1 = some sl → ∃ t,
      Sys2Proof.Machine.exec (.xor q d a b) s = .next t ∧
      SlotGoes q sl (sl.x.set d (sl.getX a ^^^ sl.getX b)) 1 (sl.pc + 1) s t) ∧
    (slotAt s q (instrWord 0x0B d a 0 0 (BitVec.ofNat 32 n)) 1 = some sl → ∃ t,
      Sys2Proof.Machine.exec (.shl q d a n) s = .next t ∧
      SlotGoes q sl (sl.x.set d (sl.getX a <<< n.val)) 1 (sl.pc + 1) s t) ∧
    (slotAt s q (instrWord 0x0C d a 0 0 (BitVec.ofNat 32 n)) 1 = some sl → ∃ t,
      Sys2Proof.Machine.exec (.shr q d a n) s = .next t ∧
      SlotGoes q sl (sl.x.set d (sl.getX a >>> n.val)) 1 (sl.pc + 1) s t) ∧
    (slotAt s q (instrWord 0x0D d a 0 0 imm) 1 = some sl → ∃ t,
      Sys2Proof.Machine.exec (.andi q d a imm) s = .next t ∧
      SlotGoes q sl (sl.x.set d (sl.getX a &&& imm)) 1 (sl.pc + 1) s t) ∧
    (∀ (u : Fin 128) (sel : Fin 15) (arg : Byte),
      slotAt s q (instrWord 0x10 d 0 0 u (BitVec.ofNat 32 (sel * 256 + arg.toNat))) 4 = some sl → ∃ t,
      Sys2Proof.Machine.exec (.lds q d u sel arg) s = .next t ∧
      SlotGoes q sl (sl.x.set d (statusWord s q sl u sel arg.toNat)) 4 (sl.pc + 1) s t) ∧
    (slotAt s q (instrWord 0x11 d 0 0 0 0#32) 2 = some sl → ∃ t,
      Sys2Proof.Machine.exec (.stamp q d) s = .next t ∧
      SlotGoes q sl ((sl.x.set d (lo32 s.now)).set (d + 1) (hi32 s.now)) 2 (sl.pc + 1) s t) ∧
    (∀ (u : Fin 128) (sel : Fin 15) (arg : Byte) (c : Instr) (w : Dword) (k : Nat),
      (c, w, k) ∈ [(Instr.nop q, instrWord 0x00 0 0 0 0 0#32, 1), (Instr.movi q d imm, instrWord 0x02 d 0 0 0 imm, 1),
        (Instr.mov q d a, instrWord 0x03 d a 0 0 0#32, 1), (Instr.addi q d a imm, instrWord 0x04 d a 0 0 imm, 1),
        (Instr.add q d a b, instrWord 0x05 d a b 0 0#32, 1), (Instr.sub q d a b, instrWord 0x06 d a b 0 0#32, 1),
        (Instr.adds q d a imm, instrWord 0x07 d a 0 0 imm, 1), (Instr.and q d a b, instrWord 0x08 d a b 0 0#32, 1),
        (Instr.or q d a b, instrWord 0x09 d a b 0 0#32, 1), (Instr.xor q d a b, instrWord 0x0A d a b 0 0#32, 1),
        (Instr.shl q d a n, instrWord 0x0B d a 0 0 (BitVec.ofNat 32 n), 1),
        (Instr.shr q d a n, instrWord 0x0C d a 0 0 (BitVec.ofNat 32 n), 1),
        (Instr.andi q d a imm, instrWord 0x0D d a 0 0 imm, 1),
        (Instr.lds q d u sel arg, instrWord 0x10 d 0 0 u (BitVec.ofNat 32 (sel * 256 + arg.toNat)), 4),
        (Instr.stamp q d, instrWord 0x11 d 0 0 0 0#32, 2)] →
      slotAt s q w k = none → Sys2Proof.Machine.exec c s = .next s)

/-- BR goes to T; BCMP goes to T if its condition holds between X[A] and X[B] or the sign-extended immediate; BBS and BBC test bit N;
BEV goes to T if Ei is set; otherwise each goes on at the next word, in 2 cycles.  LOOP enters its body N times; a body of
no words is passed at once.  At a loop's end with passes left the slot returns to its first word for one cycle more, and leaves the
loop after the last.  WAITEV without Ei waits and falls through with Ei set; after LIMIT cycles it
branches to T, not earlier. -/
def Obligations.SequencerControlFlow : Prop :=
  (∀ (q : Fin 33) (a b : Fin 16) (g : Fin 4096) (n : Fin 32) (sl : SlotSt) (s : State),
    (slotAt s q (instrWord 0x20 0 0 0 g 0#32) 2 = some sl → ∃ t,
      Sys2Proof.Machine.exec (.br q g) s = .next t ∧ SlotGoes q sl sl.x 2 g s t) ∧
    (∀ (cond : Fin 6) (k : Bool) (imm : BitVec 27),
      slotAt s q (instrWord 0x21 0 a b g (BitVec.ofNat 32 (cond * 2 ^ 28 + b2n k * 2 ^ 27 + imm.toNat))) 2 = some sl →
      ∃ t, Sys2Proof.Machine.exec (.bcmp q a b g cond k imm) s = .next t ∧
        (let x := sl.getX a
         let y := if k then imm.signExtend 32 else sl.getX b
         let holds : Bool := if cond = 0 then x == y else if cond = 1 then x != y else if cond = 2 then x.ult y
           else if cond = 3 then !x.ult y else if cond = 4 then x.slt y else !x.slt y
         SlotGoes q sl sl.x 2 (if holds then g.val else sl.pc + 1) s t)) ∧
    (slotAt s q (instrWord 0x22 0 a 0 g (BitVec.ofNat 32 n)) 2 = some sl → ∃ t,
      Sys2Proof.Machine.exec (.bbs q a g n) s = .next t ∧
      SlotGoes q sl sl.x 2 (if (sl.getX a).getLsbD n then g.val else sl.pc + 1) s t) ∧
    (slotAt s q (instrWord 0x23 0 a 0 g (BitVec.ofNat 32 n)) 2 = some sl → ∃ t,
      Sys2Proof.Machine.exec (.bbc q a g n) s = .next t ∧
      SlotGoes q sl sl.x 2 (if (sl.getX a).getLsbD n then sl.pc + 1 else g.val) s t)) ∧
  (∀ (q : Fin 33) (g : Fin 4096) (consume : Bool) (i : Fin 8) (sl : SlotSt) (s : State),
    slotAt s q (instrWord 0x24 0 0 0 g (BitVec.ofNat 32 (8 * b2n consume + i))) 2 = some sl →
    (s.flag .seq (SEQ_EVPEND q) i = false ∨ consume = false → ∃ t,
      Sys2Proof.Machine.exec (.bev q g consume i) s = .next t ∧
      SlotGoes q sl sl.x 2 (if s.flag .seq (SEQ_EVPEND q) i then g.val else sl.pc + 1) s t) ∧
    (s.flag .seq (SEQ_EVPEND q) i = true → consume = true → Tab.get (fun _ => none) (s.seqU q).held i.val = none → ∃ t,
      Sys2Proof.Machine.exec (.bev q g consume i) s = .next t ∧ t.flag .seq (SEQ_EVPEND q) i = false ∧
      (t.seqU q).slot = some (sl.goOn 2 g) ∧ RegsKept .seq [SEQ_EVPEND q] s t ∧ Kept [.seq] s t)) ∧
  (∀ (q : Fin 33) (g : Fin 4096) (n : Fin 512) (sl : SlotSt) (s : State),
    slotAt s q (instrWord 0x25 0 0 0 g (BitVec.ofNat 32 n)) 2 = some sl → ∃ t,
      Sys2Proof.Machine.exec (.loop q g n) s = .next t ∧
      (g.val ≠ sl.pc + 1 → (t.seqU q).slot =
        some { sl with pc := sl.pc + 1, used := sl.used + 2, loops := (sl.pc + 1, g.val, n.val) :: sl.loops }) ∧
      (g.val = sl.pc + 1 → (t.seqU q).slot = some (sl.goOn (2 + (n - 1)) g)) ∧ RegsKept .seq [] s t ∧ Kept [.seq] s t) ∧
  (∀ (f e left : Nat) (rest : List (Nat × Nat × Nat)),
    (1 < left → passLoops e ((f, e, left) :: rest) = (f, 1, (f, e, left - 1) :: rest)) ∧
    (left ≤ 1 → passLoops e ((f, e, left) :: rest) = passLoops e rest) ∧
    (∀ pc, pc ≠ e → passLoops pc ((f, e, left) :: rest) = (pc, 0, (f, e, left) :: rest))) ∧
  ∀ (q : Fin 33) (g : Fin 4096) (limit : BitVec 20) (consume : Bool) (i : Fin 8) (sl : SlotSt) (s : State),
    (slotAt s q (waitWord g limit consume i) 2 = some sl → s.flag .seq (SEQ_EVPEND q) i = false → ∃ t,
      Sys2Proof.Machine.exec (.waitev q g limit consume i) s = .next t ∧
      (t.seqU q).slot = some { sl with waiting := some (sl.waiting.getD s.now) } ∧ RegsKept .seq [] s t ∧
      Kept [.seq] s t) ∧
    (slotAt s q (waitWord g limit consume i) 2 = some sl →
      slotAt s q (waitWord g limit consume i) (2 + sl.waited s.now) = some sl →
      s.flag .seq (SEQ_EVPEND q) i = true → consume = false → ∃ t,
      Sys2Proof.Machine.exec (.waitev q g limit consume i) s = .next t ∧
      SlotGoes q sl sl.x (2 + sl.waited s.now) (sl.pc + 1) s t) ∧
    (∀ w, slotAt s q (waitWord g limit consume i) (2 + limit.toNat) = some sl → sl.waiting = some w →
      (s.now - w < limit.toNat → Sys2Proof.Machine.exec (.waitevTimeout q g limit consume i) s = .next s) ∧
      (limit.toNat ≤ s.now - w → s.flag .seq (SEQ_EVPEND q) i = false → ∃ t,
        Sys2Proof.Machine.exec (.waitevTimeout q g limit consume i) s = .next t ∧
        SlotGoes q sl sl.x (2 + limit.toNat) g s t))

/-- Each acts when the slot stands at its word, which then goes on at the next one.  TRIG gives the generator of its stream a trigger due DELAY
after the slot's start, never in the past; a generator that already holds one counts it as a skip, and one not in SEQ mode, or off, ignores it, both counted.  ARM arms as a write to PIX_ARM does, and a
refusal also sets ARM_FAIL.  CTX sets the context where CMODE is SEQ, and otherwise its flag.  SHW writes the shadow register, while armed
only the two lock flags.  ROUTE selects at once, or for records (kind 0) behind those that wait, which is the model's choice (log 33).  DMAQ enqueues its template on a good channel with the
next serial, and a full channel is flagged and counted.  PUB publishes X[A] on its channel now; TRACE records it. -/
def Obligations.SequencerActions : Prop :=
  (∀ (q : Fin 33) (n : Fin 96) (delay : BitVec 20) (sl : SlotSt) (s : State),
    slotAt s q (instrWord 0x30 0 0 0 n (delay.setWidth 32)) 1 = some sl →
    (s.flag .mot (TRG_CTRL n) 31 = true → genMode s n = 5 → (s.gen n).due.any (fun d => decide (s.now * 1000 < d)) = false → ∃ t,
      Sys2Proof.Machine.exec (.trig q n delay) s = .next t ∧
      (t.gen n).due = (s.gen n).due ++ [max ((sl.start + delay.toNat) * 1000) (s.now * 1000)] ∧
      (t.seqU q).slot = some (sl.goOn 1 (sl.pc + 1)) ∧ RegsKept .seq [] s t ∧ RegsKept .mot [] s t ∧
      Kept [.seq, .mot] s t) ∧
    (s.flag .mot (TRG_CTRL n) 31 = true → genMode s n = 5 → (s.gen n).due.any (fun d => decide (s.now * 1000 < d)) = true → ∃ t,
      Sys2Proof.Machine.exec (.trig q n delay) s = .next t ∧ t.gen n = s.gen n ∧ t.flag .seq (SEQ_STATUS q) 4 = true ∧
      t.rd .seq (SEQ_CNT_TRIG_IGN q) = satAdd (s.rd .seq (SEQ_CNT_TRIG_IGN q)) 1 ∧
      t.rd .mot (TRG_CNT_SKIP n) = satAdd (s.rd .mot (TRG_CNT_SKIP n)) 1 ∧
      (t.seqU q).slot = some (sl.goOn 1 (sl.pc + 1)) ∧ RegsKept .seq [SEQ_STATUS q, SEQ_CNT_TRIG_IGN q] s t ∧
      RegsKept .mot [TRG_CNT_SKIP n] s t ∧ Kept [.seq, .mot] s t) ∧
    (s.flag .mot (TRG_CTRL n) 31 = false ∨ genMode s n ≠ 5 → ∃ t, Sys2Proof.Machine.exec (.trig q n delay) s = .next t ∧
      t.flag .seq (SEQ_STATUS q) 4 = true ∧
      t.rd .seq (SEQ_CNT_TRIG_IGN q) = satAdd (s.rd .seq (SEQ_CNT_TRIG_IGN q)) 1 ∧
      (t.seqU q).slot = some (sl.goOn 1 (sl.pc + 1)) ∧
      RegsKept .seq [SEQ_STATUS q, SEQ_CNT_TRIG_IGN q] s t ∧ Kept [.seq] s t)) ∧
  (∀ (q : Fin 33) (n : Fin 96) (disarm : Bool) (sl : SlotSt) (s : State),
    slotAt s q (instrWord 0x31 0 0 0 n (BitVec.ofNat 32 (b2n disarm))) 1 = some sl → ∃ t,
      Sys2Proof.Machine.exec (.arm q n disarm) s = .next t ∧ (t.seqU q).slot = some (sl.goOn 1 (sl.pc + 1)) ∧
      (disarm = false → s.flag .pix (PIX_ARM n) 31 = false →
        t.flag .pix (PIX_ARM n) 31 = armGood s n ∧
        (armGood s n = false → t.flag .pix (PIX_STATUS n) 3 = true ∧ t.flag .seq (SEQ_STATUS q) 2 = true)) ∧
      (disarm = true → t.flag .pix (PIX_ARM n) 31 = false) ∧ Kept [.seq, .pix] s t) ∧
  (∀ (q : Fin 33) (n : Fin 96) (c : Fin 4) (sl : SlotSt) (s : State),
    slotAt s q (instrWord 0x32 0 0 0 n (BitVec.ofNat 32 c)) 1 = some sl → ∃ t,
      Sys2Proof.Machine.exec (.ctx q n c) s = .next t ∧ (t.seqU q).slot = some (sl.goOn 1 (sl.pc + 1)) ∧
      (s.fld .pix (PIX_CTX_CTRL_ACT n) 31 30 = 2 → t.pixStream n = { s.pixStream n with seqCtx := c }) ∧
      (s.fld .pix (PIX_CTX_CTRL_ACT n) 31 30 ≠ 2 → t.flag .seq (SEQ_STATUS q) 3 = true ∧ t.pix = s.pix) ∧
      RegsKept .pix [] s t ∧ Kept [.seq, .pix] s t) ∧
  (∀ (q : Fin 33) (n : Fin 96) (a : Fin 16) (k : Fin 128) (sl : SlotSt) (s : State),
    slotAt s q (instrWord 0x33 0 a 0 n (BitVec.ofNat 32 k)) 12 = some sl → ∃ t,
      Sys2Proof.Machine.exec (.shw q n a k) s = .next t ∧ (t.seqU q).slot = some (sl.goOn 12 (sl.pc + 1)) ∧
      (s.flag .pix (PIX_ARM n) 31 = true → t.flag .seq (SEQ_STATUS q) 1 = true ∧
        t.flag .pix (PIX_STATUS n) 5 = true ∧ RegsKept .pix [PIX_STATUS n] s t) ∧
      (∀ u row, s.flag .pix (PIX_ARM n) 31 = false → regAt (PIX_SRC n + (0x100 + 4 * k.val)) = some (u, row) →
        t.rd .pix (PIX_SRC n + (0x100 + 4 * k.val)) =
          (row.write u.ignore (s.rd .pix (PIX_SRC n + (0x100 + 4 * k.val))) (sl.getX a)).1) ∧
      Kept [.seq, .pix] s t) ∧
  (∀ (q : Fin 33) (n : Fin 96) (index : Fin 16) (kind : Fin 3) (sl : SlotSt) (s : State),
    slotAt s q (instrWord 0x34 0 0 0 n (BitVec.ofNat 32 (index * 16 + kind))) 1 = some sl → ∃ t,
      Sys2Proof.Machine.exec (.route q n index kind) s = .next t ∧ (t.seqU q).slot = some (sl.goOn 1 (sl.pc + 1)) ∧
      (let len := (s.ergQ (qOf n 0)).items.length
       (kind ≠ 0 ∨ len = 0 →
          Tab.get (fun _ => none) t.host.route (n.val * 4 + kind.val) = some index.val ∧ t.host.routeQ = s.host.routeQ) ∧
       (kind = 0 → 0 < len → t.host.route = s.host.route ∧ Tab.get (fun _ => []) t.host.routeQ n.val =
          Tab.get (fun _ => []) s.host.routeQ n.val ++ [(len, index.val)])) ∧
      RegsKept .seq [] s t ∧ Kept [.seq, .host] s t) ∧
  (∀ (q : Fin 33) (a b : Fin 16) (psrc pdst : Bool) (tmpl : Fin 1024) (ch : Fin 64) (sl : SlotSt) (s : State)
    (i : Image) (act : Nat) (bs : List Byte),
    slotAt s q (instrWord 0x35 0 a b 0
      (BitVec.ofNat 32 (b2n psrc * 2 ^ 31 + b2n pdst * 2 ^ 30 + tmpl * 2 ^ 8 + ch))) 4 = some sl →
    seqImage s q = some i → seqActivity s i q = some act →
    template i act tmpl (if psrc then some (sl.getX a) else none) (if pdst then some (sl.getX b) else none) = some bs →
    (64 ≤ (s.dmaCh ch).queue.length → ∃ t, Sys2Proof.Machine.exec (.dmaq q a b psrc pdst tmpl ch) s = .next t ∧
      t.flag .seq (SEQ_STATUS q) 6 = true ∧
      t.rd .seq (SEQ_CNT_DMA_FULL q) = satAdd (s.rd .seq (SEQ_CNT_DMA_FULL q)) 1 ∧
      (t.seqU q).slot = some (sl.goOn 4 (sl.pc + 1)) ∧ Kept [.seq] s t) ∧
    ((s.dmaCh ch).queue.length < 64 → descStatus s ch bs (Desc.ofBytes bs (leAt bs 4 2) 0 true) 0 (some act) = 0 → ∃ t,
      Sys2Proof.Machine.exec (.dmaq q a b psrc pdst tmpl ch) s = .next t ∧
      (t.dmaCh ch).queue = (s.dmaCh ch).queue ++
        [{ Desc.ofBytes bs (leAt bs 4 2) 0 true with serial := (s.rd .dma (DMA_CH_SERIAL ch)).toNat }] ∧
      t.rd .dma (DMA_CH_SERIAL ch) = s.rd .dma (DMA_CH_SERIAL ch) + 1#32 ∧
      (t.seqU q).slot = some (sl.goOn 4 (sl.pc + 1)) ∧ RegsKept .seq [] s t ∧ Kept [.seq, .dma, .host] s t)) ∧
  (∀ (q : Fin 33) (a : Fin 16) (ch : Fin 256) (sl : SlotSt) (s : State),
    slotAt s q (instrWord 0x36 0 a 0 0 (BitVec.ofNat 32 ch)) 1 = some sl → ∃ t,
      Sys2Proof.Machine.exec (.pub q a ch) s = .next t ∧ (t.seqU q).slot = some (sl.goOn 1 (sl.pc + 1)) ∧
      t.evt = { s.evt with bus := s.evt.bus ++ [⟨0x1000 + q, ch, sl.getX a, s.now, 0x3FE, s.now / 2⟩] } ∧
      RegsKept .seq [] s t ∧ Kept [.seq, .evt] s t) ∧
  ∀ (q : Fin 33) (a : Fin 16) (imm : BitVec 16) (sl : SlotSt) (s : State),
    slotAt s q (instrWord 0x37 0 a 0 0 (imm.setWidth 32)) 2 = some sl → ∃ t,
      Sys2Proof.Machine.exec (.trace q a imm) s = .next t ∧ (t.seqU q).slot = some (sl.goOn 2 (sl.pc + 1)) ∧
      t.seq.trace = (s.now, q.val, imm.toNat, sl.getX a) :: s.seq.trace ∧ RegsKept .seq [] s t ∧ Kept [.seq] s t

/-- PCIE_READY with the reference clock present makes the device ready with the link up and its configuration, and only once.  A link that goes down is stamped with TB, sets
LINK_WAIT of each bound client, drops what was being read from host memory (which reads end, and which verdicts that were read are lost, is the model's choice, log 110), pauses each DMA channel whose current descriptor has a host side and is reported; one that is down
changes nothing.  The loss of the reference clock takes the link down as well and is reported; its return notes TB and does
not bring the link up.  A link that comes up needs both, puts a LINK entry into each error ring that is on and has room, clears LINK_WAIT and the lost count of each bound client, lifts the link pause
of each channel and restarts that descriptor from its first byte; else nothing changes. -/
def Obligations.PcieLinkComesAndGoes : Prop :=
  ∀ (s : State) (cfg : PcieCfg),
    (s.host.ready = false → s.host.refOk = true → Sys2Proof.Machine.exec (.pcieReady cfg) s =
      .next { s with host := { s.host with ready := true, up := true, cfg := cfg } }) ∧
    (s.host.ready = true ∨ s.host.refOk = false → Sys2Proof.Machine.exec (.pcieReady cfg) s = .next s) ∧
    (s.host.up = false → Sys2Proof.Machine.exec .pcieLinkDown s = .next s) ∧
    (s.host.up = true → ∃ t, Sys2Proof.Machine.exec .pcieLinkDown s = .next t ∧ t.host.up = false ∧
      t.host.lossAt = some s.now ∧ t.dma.ch = s.dma.ch ∧ t.host.reqs = [] ∧
      t.host.flights = s.host.flights.filter (fun f => decide (f.back ≤ s.now)) ∧
      (∀ c, bound s c = true → t.flag .host (HST_CLI_STATUS c) 29 = true ∧ (t.client c).lostLink = 0) ∧
      (∀ n d ds, n < 64 → (s.dmaCh n).queue = d :: ds → d.hostSide = true → linkPaused t n = true ∧
        (linkPaused s n = false → chState s n ≠ 3 → chState t n = 2)) ∧
      t.flag .flt FLT_STATUS 30 = true ∧ Kept [.host, .dma, .flt] s t) ∧
    (s.host.refOk = false → Sys2Proof.Machine.exec .pcieRefclkLoss s = .next s) ∧
    (s.host.refOk = true → ∃ t, Sys2Proof.Machine.exec .pcieRefclkLoss s = .next t ∧ t.host.refOk = false ∧
      t.host.refBack = none ∧ t.host.up = false ∧ t.flag .flt FLT_STATUS 30 = true ∧ Kept [.host, .dma, .flt] s t) ∧
    (s.host.refOk = true → Sys2Proof.Machine.exec .pcieRefclkReturn s = .next s) ∧
    (s.host.refOk = false → Sys2Proof.Machine.exec .pcieRefclkReturn s =
      .next { s with host := { s.host with refOk := true, refBack := some s.now } }) ∧
    (s.host.up = true ∨ s.host.ready = false ∨ s.host.refOk = false →
      Sys2Proof.Machine.exec (.pcieLinkUp cfg) s = .next s) ∧
    (s.host.up = false → s.host.ready = true → s.host.refOk = true → ∃ t : State,
      Sys2Proof.Machine.exec (.pcieLinkUp cfg) s = .next t ∧ t.host.up = true ∧ t.host.cfg = cfg ∧
      (∀ c, bound s c = true → t.flag .host (HST_CLI_STATUS c) 29 = false ∧ (t.client c).lostLink = 0 ∧
        (ringOn s c 3 = true → ringRoom s c 3 = true → (s.client c).errGap = 0 →
          t.rd .host (HST_CLI_PROD c 3) = s.rd .host (HST_CLI_PROD c 3) + 1#32)) ∧
      (∀ n, n < 64 → linkPaused t n = false ∧ (t.dmaCh n).queue = (s.dmaCh n).queue ∧
        (linkPaused s n = true → (t.dmaCh n).copied = 0)) ∧ Kept [.host, .dma] s t)

/-- IMG_LOAD ends with the first failing check's code and changes nothing else but LOADING, which reads 0 again, and the errors its reading met (the model's choice, log 147); an image that passes is staged while a stream is
enabled, leaving the active one in force, and otherwise becomes the active image at once.  IMG_SWAP is refused with E_STATE with
nothing staged and with E_BUSY while a swap runs or a stream of the image is armed or loads a table; else the swap starts
with the image's sequencers and SQS to switch.  When its tables have been copied the swap notes TB; without a swap, without an image, or
a second time, nothing changes. -/
def Obligations.ImagesLoadAndSwap : Prop :=
  (∀ (s : State) (r : MbxRun) (a : Nat) (img : Image), s.mbxWorks 0x01 r → a = mbxArg64 s 0 →
    img = Image.ofBytes (ergRead s a (ofLe (ergRead s (a + 8) 4))) →
    (imageStatus s a (mbxArg s 2) ≠ 0 → ∃ t : State,
      Sys2Proof.Machine.exec .imgLoad s = .next (t.mbxEnded r (imageStatus s a (mbxArg s 2)) []) ∧
      t.seq = (s.setb .seq SEQ_IMG_STATUS 26 false).seq ∧ t.erg.mem = s.erg.mem ∧ t.host = s.host ∧
      Kept [.erg, .flt, .seq] s t) ∧
    (imageStatus s a (mbxArg s 2) = 0 → (List.range 96).any (fun t => streamOn s t) = true → ∃ t : State,
      Sys2Proof.Machine.exec .imgLoad s = .next (t.mbxEnded r 0 []) ∧ t.seq.active = s.seq.active ∧
      t.seq.staged = some img ∧ t.flag .seq SEQ_IMG_STATUS 29 = true ∧ t.flag .seq SEQ_IMG_STATUS 26 = false ∧ t.host = s.host ∧
      Kept [.erg, .flt, .seq] s t) ∧
    (imageStatus s a (mbxArg s 2) = 0 → (List.range 96).any (fun t => streamOn s t) = false → ∃ t : State,
      Sys2Proof.Machine.exec .imgLoad s = .next (t.mbxEnded r 0 []) ∧ t.seq.active = some img ∧
      t.seq.staged = none ∧ t.flag .seq SEQ_IMG_STATUS 31 = true ∧ t.flag .seq SEQ_IMG_STATUS 29 = false ∧
      t.rd64 .seq SEQ_IMG_BUILD_LO SEQ_IMG_BUILD_HI = img.build % 2 ^ 64 ∧
      t.rd .seq SEQ_IMG_MAP_CRC = BitVec.ofNat 32 img.mapCrc ∧ t.host.route = [] ∧
      t.flag .seq SEQ_IMG_STATUS 26 = false ∧ t.time = s.time ∧ t.phy = s.phy ∧ t.lnk = s.lnk)) ∧
  (∀ (s : State) (r : MbxRun), s.mbxWorks 0x02 r →
    (s.seq.staged = none → Sys2Proof.Machine.exec .imgSwap s = .next (s.mbxEnded r 6 [])) ∧
    (∀ i, s.seq.staged = some i → (s.seq.swap.isSome || swapBlocked s i) = true →
      Sys2Proof.Machine.exec .imgSwap s = .next (s.mbxEnded r 5 [])) ∧
    (∀ i, s.seq.staged = some i → s.seq.swap = none → swapBlocked s i = false → ∃ t : State,
      Sys2Proof.Machine.exec .imgSwap s = .next (t.mbxEnded r 0 []) ∧ t.seq.swap = some ⟨swapUnits i, none⟩ ∧
      t.seq.active = s.seq.active ∧ t.seq.staged = s.seq.staged ∧ t.flag .seq SEQ_IMG_STATUS 28 = true ∧
      t.flag .seq SEQ_IMG_STATUS 27 = true ∧
      t.fld .seq SEQ_IMG_STATUS 5 0 = (swapUnits i).length % 64 ∧ RegsKept .seq [SEQ_IMG_STATUS] s t ∧
      t.host = s.host ∧ Kept [.seq] s t)) ∧
  ∀ s : State,
    (s.seq.swap = none ∨ s.seq.staged = none → Sys2Proof.Machine.exec .swapTblCopyDone s = .next s) ∧
    (∀ w i, s.seq.swap = some w → s.seq.staged = some i → w.copied ≠ none →
      Sys2Proof.Machine.exec .swapTblCopyDone s = .next s) ∧
    (∀ w i, s.seq.swap = some w → s.seq.staged = some i → w.copied = none → w.left ≠ [32] → ∃ t : State,
      Sys2Proof.Machine.exec .swapTblCopyDone s = .next t ∧ t.seq.swap = some { w with copied := some s.now } ∧
      t.seq.active = s.seq.active ∧ t.seq.staged = s.seq.staged ∧ t.flag .seq SEQ_IMG_STATUS 27 = false ∧
      RegsKept .seq [SEQ_IMG_STATUS] s t ∧ Kept [.pix, .obj, .ejt, .seq] s t)

/-- A command ends its work once: an unknown opcode with E_OPCODE; one past its time with its time-out code; on DONE the code and the results are
written, BUSY and GO clear, DONE sets and vector 0 goes out, or is pending while masked or without the link.  A write while BUSY is 1 sets the refusal bit and nothing
else.  PORT_CTRL writes EN of each port named.  KEY_PROGRAM writes a free fuse slot, else E_RANGE or E_STATE.  FW_LOAD runs an
authentic image, else E_AUTH.  POWER ends with the code of the device state; accepted, it enters the target, starts the exit from STANDBY,
or does nothing in the state asked for.  No mailbox command's work changes anything when the mailbox does not run it; CLIENT_BIND and
FUNC_VECTORS then change only the configuration their operand reads.  The model's choices: POWER STANDBY in STANDBY is done with no
change, and POWER RUN there sets WAKE_CAUSE.CMD (log 59); the layout in which vector 0 is masked and held pending (log 106, PRESUMED). -/
def Obligations.MailboxCommandsStartAndEnd : Prop :=
  (∀ (s : State) (r : MbxRun), s.host.mbx = some r → r.code = none →
    (mbxKnown.contains r.op = true → Sys2Proof.Machine.exec .mbxUnknownOpcode s = .next s) ∧
    (mbxKnown.contains r.op = false → Sys2Proof.Machine.exec .mbxUnknownOpcode s = .next (s.mbxEnded r 0xA [])) ∧
    (s.now < r.since + mbxLimit s r.op → Sys2Proof.Machine.exec .mbxTimeout s = .next s) ∧
    (r.since + mbxLimit s r.op ≤ s.now → Sys2Proof.Machine.exec .mbxTimeout s =
      .next ((if r.op = 1 then s.setb .seq SEQ_IMG_STATUS 26 false else s).mbxEnded r 0xB [])) ∧
    Sys2Proof.Machine.exec .mbxDone s = .next s) ∧
  (∀ (s : State) (r : MbxRun) (code : Nat), s.host.mbx = some r → r.code = some code → ∃ t : State,
    Sys2Proof.Machine.exec .mbxDone s = .next t ∧ t.host.mbx = none ∧ t.fld .host HST_MBX_STATUS 7 0 = code % 256 ∧
      t.flag .host HST_MBX_STATUS 31 = false ∧ t.flag .host HST_MBX_STATUS 30 = true ∧
      t.flag .host HST_MBX_CMD 31 = false ∧ (∀ k, k < 8 → t.rd .host (HST_MBX_RES k) = atD r.res k 0#32) ∧
      (s.host.up = true → bit (msixWord s 0 0 3) 0 = false →
        Tab.get (fun _ => 0) t.host.sent 0 = Tab.get (fun _ => 0) s.host.sent 0 + 1) ∧
      (s.host.up = false ∨ bit (msixWord s 0 0 3) 0 = true → Tab.get (fun _ => false) t.host.vecPend 0 = true) ∧
      RegsKept .host ([HST_MBX_CMD, HST_MBX_STATUS] ++ (List.range 8).map HST_MBX_RES) s t ∧ Kept [.host] s t) ∧
  (∀ s : State, s.host.mbx = none → Sys2Proof.Machine.exec .mbxDone s = .next s ∧
    Sys2Proof.Machine.exec .mbxTimeout s = .next s ∧ Sys2Proof.Machine.exec .mbxUnknownOpcode s = .next s) ∧
  (∀ s : State, Sys2Proof.Machine.exec .mbxBusyWrite s =
    .next (if mbxBusy s then s.setb .host HST_MBX_STATUS 29 true else s)) ∧
  (∀ (s : State) (r : MbxRun), s.mbxWorks 0x0A r → ∃ t : State,
    Sys2Proof.Machine.exec .portCtrl s = .next (t.mbxEnded r 0 []) ∧
      (∀ p, p < 24 → tbit (mbxArg s 0) p = true → t.flag .phy (phyCtrl p) 31 = tbit (mbxArg s 1) 0) ∧
      (∀ p, p < 24 → tbit (mbxArg s 0) p = false → t.rd .phy (phyCtrl p) = s.rd .phy (phyCtrl p)) ∧
      t.time = s.time ∧ t.host.regs = s.host.regs ∧ t.pending = s.pending) ∧
  (∀ (s : State) (r : MbxRun), s.mbxWorks 0x0C r →
    let k := mbxArg s 0
    let free := Tab.get (fun _ => 0) s.host.keys k = 0
    (4 ≤ k → Sys2Proof.Machine.exec .keyProgram s = .next (s.mbxEnded r 2 [])) ∧
    (k < 4 → ¬ free → Sys2Proof.Machine.exec .keyProgram s = .next (s.mbxEnded r 6 [])) ∧
    (k < 4 → free → ∃ t : State, Sys2Proof.Machine.exec .keyProgram s = .next (t.mbxEnded r 0 []) ∧
      Tab.get (fun _ => 0) t.host.keys k =
        (List.range 8).foldl (fun n i => n * 2 ^ 32 + mbxArg s (1 + i)) 0 ∧
      (∀ j, j ≠ k → Tab.get (fun _ => 0) t.host.keys j = Tab.get (fun _ => 0) s.host.keys j) ∧
      RegsKept .host [] s t ∧ Kept [.host] s t)) ∧
  (∀ (s : State) (r : MbxRun), s.mbxWorks 0x0D r →
    Sys2Proof.Machine.exec (.fwLoad false) s = .next (s.mbxEnded r 8 []) ∧
    Sys2Proof.Machine.exec (.fwLoad true) s =
      .next (({ s with pwr := { s.pwr with fwRuns := true, fwFrom := s.now } } : State).mbxEnded r 0 [])) ∧
  (∀ (s : State) (r : MbxRun), s.mbxWorks 0x0B r →
    let target := mbxArg s 0 % 4
    (powerCode s target ≠ 0 → Sys2Proof.Machine.exec .power s = .next (s.mbxEnded r (powerCode s target) [])) ∧
    (powerCode s target = 0 → dstate s = 2 ∧ target = 1 ∨ dstate s = 1 ∧ target = 0 →
      Sys2Proof.Machine.exec .power s = .next (s.mbxEnded r 0 [])) ∧
    (powerCode s target = 0 → dstate s = 2 → target = 0 → ∃ t : State,
      Sys2Proof.Machine.exec .power s = .next (t.mbxEnded r 0 []) ∧ t.flag .pwr OAS_WAKE_CAUSE 5 = true ∧
      t.pwr.devCmd = some (0, false, false) ∧ t.pwr.exitAt = some (s.pwr.exitAt.getD s.now) ∧
      RegsKept .pwr [OAS_WAKE_CAUSE] s t ∧ Kept [.pwr] s t) ∧
    (powerCode s target = 0 → 1 ≤ target → dstate s = 1 ∨ target = 2 → ∃ t : State,
      Sys2Proof.Machine.exec .power s = .next (t.mbxEnded r 0 []) ∧ dstate t = 3 ∧
      t.pwr.devCmd = some (target, tbit (mbxArg s 1) 0, false) ∧ t.pwr.wakeHeld = 0 ∧
      t.pwr.motA = 0 ∧ t.pwr.motB = 0 ∧ t.pwr.awake = false ∧
      RegsKept .pwr [PWR_STATUS] s t ∧ Kept [.pwr] s t)) ∧
  (∀ (s : State) (op : Nat) (c : Instr), s.host.mbx.all (fun r => r.op != op || r.code.isSome) = true →
    (op, c) ∈ [(0x01, Instr.imgLoad), (0x02, .imgSwap), (0x03, .reset), (0x04, .streamReset), (0x06, .clientUnbind), (0x07, .quotaSet), (0x08, .chanBind),
      (0x0A, .portCtrl), (0x0B, .power), (0x0C, .keyProgram), (0x0D, .fwLoad false), (0x0D, .fwLoad true),
      (0x10, .ergAlloc), (0x11, .ergFree), (0x12, .ergPin), (0x13, .ergUnpin), (0x14, .lookbackGet),
      (0x20, .spanEnum)] → Sys2Proof.Machine.exec c s = .next s) ∧
  (∀ (vfs : Fin 64) (s : State), s.host.mbx.all (fun r => r.op != 0x05 || r.code.isSome) = true →
    Sys2Proof.Machine.exec (.clientBind vfs) s = .next (s.vfsSet vfs)) ∧
  ∀ (en : Bool) (s : State), s.host.mbx.all (fun r => r.op != 0x09 || r.code.isSome) = true →
    Sys2Proof.Machine.exec (.funcVectors en) s = .next (s.vfeSet en)

/-- Each command refuses what its rule names, with that code and nothing else changed but the operand (NumVFs, VF Enable), which the
model stores in the function's configuration (log 26).  CLIENT_BIND binds a free client of an enabled
function with its ID and the default quotas.  CLIENT_UNBIND resets the page of a client that holds nothing.  QUOTA_SET stores a
quota within its limit.  CHAN_BIND sets the owner of an idle, unclaimed channel or clears it.  FUNC_VECTORS sets
the size of a virtual function's table while VF Enable is 0 and the sum stays at most 2,048. -/
def Obligations.ClientsQuotasAndVectors : Prop :=
  (∀ (vfs : Fin 64) (s : State) (r : MbxRun), s.mbxWorks 0x05 r →
    let c := mbxArg s 0
    let fn := mbxArg s 1
    (1024 ≤ c ∨ vfs.val < fn → Sys2Proof.Machine.exec (.clientBind vfs) s = .next ((s.vfsSet vfs).mbxEnded r 2 [])) ∧
    (c < 1024 → fn ≤ vfs.val → bound s c = true →
      Sys2Proof.Machine.exec (.clientBind vfs) s = .next ((s.vfsSet vfs).mbxEnded r 6 [])) ∧
    (c < 1024 → fn ≤ vfs.val → bound s c = false → ∃ t : State,
      Sys2Proof.Machine.exec (.clientBind vfs) s = .next (t.mbxEnded r 0 []) ∧ bound t c = true ∧ cliFn t c = fn ∧
      (t.rd .host (HST_CLI_Q_REC c)).toNat = 1048576 ∧ (t.rd .host (HST_CLI_Q_CPL c)).toNat = 1048576 ∧
      (t.rd .host (HST_CLI_Q_DESC c)).toNat = 256 ∧ (t.rd .host (HST_CLI_Q_ERG c)).toNat = 0 ∧
      (∀ k, k < 5 → ringOn t c k = false) ∧ t.client c = ClientSt.init ∧
      t.flag .host (HST_CLI_STATUS c) 29 = (!s.host.up) ∧ t.host.cfg.numVfs = vfs ∧
      (∀ a, a < HST_CLI_ID c ∨ HST_CLI_ID c + 0x1000 ≤ a → t.rd .host a = s.rd .host a) ∧ Kept [.host] s t)) ∧
  (∀ (s : State) (r : MbxRun), s.mbxWorks 0x06 r →
    let c := mbxArg s 0
    (1024 ≤ c → Sys2Proof.Machine.exec .clientUnbind s = .next (s.mbxEnded r 2 [])) ∧
    (c < 1024 → bound s c = false ∨ clientHolds s c = true →
      Sys2Proof.Machine.exec .clientUnbind s = .next (s.mbxEnded r 6 [])) ∧
    (c < 1024 → bound s c = true → clientHolds s c = false → ∃ t : State,
      Sys2Proof.Machine.exec .clientUnbind s = .next (t.mbxEnded r 0 []) ∧
      (∀ a, HST_CLI_ID c ≤ a → a < HST_CLI_ID c + 0x1000 → t.rd .host a = regReset a) ∧
      (∀ a, a < HST_CLI_ID c ∨ HST_CLI_ID c + 0x1000 ≤ a → t.rd .host a = s.rd .host a) ∧
      t.client c = ClientSt.init ∧ Kept [.host] s t)) ∧
  (∀ (s : State) (r : MbxRun), s.mbxWorks 0x07 r →
    let c := mbxArg s 0
    let kind := mbxArg s 1
    let v := mbxArg s 2
    (1024 ≤ c → Sys2Proof.Machine.exec .quotaSet s = .next (s.mbxEnded r 2 [])) ∧
    (c < 1024 → bound s c = false → Sys2Proof.Machine.exec .quotaSet s = .next (s.mbxEnded r 6 [])) ∧
    (c < 1024 → bound s c = true → 4 ≤ kind → Sys2Proof.Machine.exec .quotaSet s = .next (s.mbxEnded r 1 [])) ∧
    (c < 1024 → bound s c = true → kind < 4 → quotaMax s kind < v →
      Sys2Proof.Machine.exec .quotaSet s = .next (s.mbxEnded r 2 [])) ∧
    (c < 1024 → bound s c = true → kind < 4 → v ≤ quotaMax s kind → ∃ t : State,
      Sys2Proof.Machine.exec .quotaSet s = .next (t.mbxEnded r 0 []) ∧ (t.rd .host (quotaAt c kind)).toNat = v ∧
      (kind ≠ 3 → t.erg = s.erg ∧ t.dma = s.dma) ∧ Kept [.host, .dma, .erg] s t)) ∧
  (∀ (s : State) (r : MbxRun), s.mbxWorks 0x08 r →
    let n := mbxArg s 0
    let c := mbxArg s 1
    let claimed := (imageDmaAct s.seq.active n).isSome = true ∨ (imageDmaAct s.seq.staged n).isSome = true
    (64 ≤ n ∨ c ≠ 0xFFFF ∧ 1024 ≤ c → Sys2Proof.Machine.exec .chanBind s = .next (s.mbxEnded r 2 [])) ∧
    (n < 64 → c = 0xFFFF ∨ c < 1024 →
      (claimed → Sys2Proof.Machine.exec .chanBind s = .next (s.mbxEnded r 4 [])) ∧
      (¬ claimed → (s.dmaCh n).queue ≠ [] → Sys2Proof.Machine.exec .chanBind s = .next (s.mbxEnded r 5 [])) ∧
      (¬ claimed → (s.dmaCh n).queue = [] → chState s n ≠ 0 ∨ c ≠ 0xFFFF ∧ bound s c = false →
        Sys2Proof.Machine.exec .chanBind s = .next (s.mbxEnded r 6 [])) ∧
      (¬ claimed → (s.dmaCh n).queue = [] → chState s n = 0 → c = 0xFFFF ∨ bound s c = true → ∃ t : State,
        Sys2Proof.Machine.exec .chanBind s = .next (t.mbxEnded r 0 []) ∧
        t.flag .dma (DMA_CH_OWNER n) 30 = decide (c ≠ 0xFFFF) ∧
        t.fld .dma (DMA_CH_OWNER n) 9 0 = (if c = 0xFFFF then 0 else c) ∧
        t.flag .dma (DMA_CH_OWNER n) 31 = s.flag .dma (DMA_CH_OWNER n) 31 ∧
        RegsKept .dma [DMA_CH_OWNER n] s t ∧ t.dma = { s.dma with regs := t.dma.regs } ∧ t.host = s.host ∧
        Kept [.dma] s t))) ∧
  ∀ (en : Bool) (s : State) (r : MbxRun), s.mbxWorks 0x09 r →
    let vf := mbxArg s 0
    let n := mbxArg s 1
    let sum := ((List.range 64).map (fun f => if f = vf then n else vecEntries s f)).sum
    (vf = 0 ∨ 64 ≤ vf ∨ n = 0 ∨ 2048 < n →
      Sys2Proof.Machine.exec (.funcVectors en) s = .next ((s.vfeSet en).mbxEnded r 2 [])) ∧
    (1 ≤ vf → vf < 64 → 1 ≤ n → n ≤ 2048 →
      (en = true → Sys2Proof.Machine.exec (.funcVectors en) s = .next ((s.vfeSet en).mbxEnded r 6 [])) ∧
      (en = false → 2048 < sum → Sys2Proof.Machine.exec (.funcVectors en) s = .next ((s.vfeSet en).mbxEnded r 0xC [])) ∧
      (en = false → sum ≤ 2048 → ∃ t : State, Sys2Proof.Machine.exec (.funcVectors en) s = .next (t.mbxEnded r 0 []) ∧
        t.host.cfg.vfEnable = false ∧ vecEntries t vf = n ∧ (∀ f, f ≠ vf → vecEntries t f = vecEntries s f) ∧ RegsKept .host [] s t ∧
        Kept [.host] s t))

/-- ERG_ALLOC refuses in the order of its rule; else it gives the client a run of free segments of one stack (which run that fits is open), zeroed and
unpinned, and returns the first.  ERG_FREE, ERG_PIN and ERG_UNPIN refuse with E_OWNER segments the client does not own; ERG_FREE also
refuses pinned ones and ones work still names, and leaves the rest DIRTY; ERG_PIN pins; ERG_UNPIN unpins, and with reclaim off returns 0.
A DIRTY segment that has been zeroed is FREE and reads as zeros; one that is not DIRTY is left alone.  Every other segment and byte
is as before. -/
def Obligations.ErgSegmentsAreAllocatedAndFreed : Prop :=
  (∀ (s : State) (r : MbxRun), s.mbxWorks 0x10 r →
    let c := mbxArg s 0
    let n := mbxArg s 1
    let stack := mbxArg s 2 % 4
    let wrong := n = 0 ∨ 4096 < n ∨ stack = 3 ∨ stack = 1 ∧ stackPresent s 1 = false
    let tooMany := (s.rd .host (HST_CLI_Q_ERG c)).toNat < (clientSegs s c).length + n
    (1024 ≤ c → Sys2Proof.Machine.exec .ergAlloc s = .next (s.mbxEnded r 2 [])) ∧
    (c < 1024 → bound s c = false → Sys2Proof.Machine.exec .ergAlloc s = .next (s.mbxEnded r 6 [])) ∧
    (c < 1024 → bound s c = true →
      (wrong → Sys2Proof.Machine.exec .ergAlloc s = .next (s.mbxEnded r 2 [])) ∧
      (¬ wrong → tooMany → Sys2Proof.Machine.exec .ergAlloc s = .next (s.mbxEnded r 7 [])) ∧
      (¬ wrong → ¬ tooMany → freeRuns s n stack = [] →
        Sys2Proof.Machine.exec .ergAlloc s = .next (s.mbxEnded r 0xC [])) ∧
      (¬ wrong → ¬ tooMany → freeRuns s n stack ≠ [] → ∃ (t : State) (first : Nat),
        Sys2Proof.Machine.exec .ergAlloc s = .next (t.mbxEnded r 0 [BitVec.ofNat 32 first]) ∧
        first ∈ freeRuns s n stack ∧
        (∀ k, k < n → (segOf t (first + k)).st = 3 ∧ (segOf t (first + k)).client = c ∧
          (segOf t (first + k)).pinned = false ∧ (segOf t (first + k)).leaving = false) ∧
        (∀ a, first ≤ a / segBytes → a / segBytes < first + n → ergByte t a = 0#8) ∧
        (∀ m, m < first ∨ first + n ≤ m → segOf t m = segOf s m) ∧
        (∀ a, a / segBytes < first ∨ first + n ≤ a / segBytes → ergByte t a = ergByte s a) ∧
        BlocksKept [.host, .erg] s t))) ∧
  (∀ (s : State) (op : Nat) (c : Instr) (r : MbxRun), s.mbxWorks op r →
    (op, c) ∈ [(0x11, Instr.ergFree), (0x12, .ergPin), (0x13, .ergUnpin)] →
    ownsSegs s (mbxArg s 0) (namedSegs s) = false →
    Sys2Proof.Machine.exec c s = .next (s.mbxEnded r 4 [])) ∧
  (∀ (s : State) (r : MbxRun), s.mbxWorks 0x11 r → ownsSegs s (mbxArg s 0) (namedSegs s) = true →
    let l := namedSegs s
    (l.any (fun n => (segOf s n).pinned) = true →
      Sys2Proof.Machine.exec .ergFree s = .next (s.mbxEnded r 6 [])) ∧
    (l.any (fun n => (segOf s n).pinned) = false → l.any (segWorks s) = true →
      Sys2Proof.Machine.exec .ergFree s = .next (s.mbxEnded r 5 [])) ∧
    (l.any (fun n => (segOf s n).pinned) = false → l.any (segWorks s) = false → ∃ t : State,
      Sys2Proof.Machine.exec .ergFree s = .next (t.mbxEnded r 0 []) ∧
      (∀ n, n ∈ l → segOf t n = ⟨1, false, 0, 0, 0, 0, false⟩) ∧ (∀ n, n ∉ l → segOf t n = segOf s n) ∧
      t.erg.mem = s.erg.mem ∧ Kept [.host, .erg] s t)) ∧
  (∀ (s : State) (r : MbxRun), s.mbxWorks 0x12 r → ownsSegs s (mbxArg s 0) (namedSegs s) = true → ∃ t : State,
    Sys2Proof.Machine.exec .ergPin s = .next (t.mbxEnded r 0 []) ∧
      (∀ n, n ∈ namedSegs s → segOf t n = { segOf s n with pinned := true }) ∧
      (∀ n, n ∉ namedSegs s → segOf t n = segOf s n) ∧ t.erg.mem = s.erg.mem ∧ Kept [.host, .erg] s t) ∧
  (∀ (s : State) (r : MbxRun), s.mbxWorks 0x13 r → ownsSegs s (mbxArg s 0) (namedSegs s) = true →
    ∃ (t : State) (k : Nat), Sys2Proof.Machine.exec .ergUnpin s = .next (t.mbxEnded r 0 [BitVec.ofNat 32 k]) ∧
      k ≤ (namedSegs s).length ∧ (s.flag .host (HST_CLI_STATUS (mbxArg s 0)) 30 = false → k = 0 ∧
        ∀ n, n ∈ namedSegs s → segOf t n = { segOf s n with pinned := false }) ∧
      (∀ n, n ∈ namedSegs s → (segOf t n).pinned = false) ∧
      (∀ n, n ∉ namedSegs s → segOf t n = segOf s n) ∧ t.erg.mem = s.erg.mem ∧ Kept [.host, .dma, .erg] s t) ∧
  ∀ (n : Nat) (s : State),
    (segState s n ≠ 1 → Sys2Proof.Machine.exec (.segmentZeroDone n) s = .next s) ∧
    (segState s n = 1 → ∃ t, Sys2Proof.Machine.exec (.segmentZeroDone n) s = .next t ∧ segState t n = 0 ∧
      (∀ m, m ≠ n → segOf t m = segOf s m) ∧ (∀ a, a / segBytes = n → ergByte t a = 0#8) ∧
      (∀ a, a / segBytes ≠ n → ergByte t a = ergByte s a) ∧ RegsKept .erg [] s t ∧ Kept [.erg] s t)

/-- An error strikes a word of a stack that answers; while scrubbing is off it waits for a reader.  The scrub of a block that held none corrects
and counts a single-bit one; a double-bit one leaves its 64-bit word poisoned, counts and is reported, and keeps the first address.  A write that fails for good counts for its stack and is reported; a look-back
line's is counted for its stream, a queue's makes the producer rewind and count its next item.  A stack that fails is marked and reported, and no
longer answers.  LOOKBACK_GET refuses in the order of its rule; else it writes the lines that are held and returns their
number, the number missing and the size.  The model's choices: an error stays latent until a reader or the scrub meets it (log 115), the order of the
checks, E_RANGE with all lines gone last (log 39), the errors a refused read met stay counted (log 147), the failed item is the one being written (log 145). -/
def Obligations.ErgErrorsAndLookback : Prop :=
  (∀ (addr : Nat) (s : State),
    let k := stackOf addr
    (∀ err : Fin 3, stackOk s k = false ∨ 0xC00000000 ≤ addr →
      Sys2Proof.Machine.exec (.ergScrubBlock addr err) s = .next s) ∧
    (stackOk s k = true → addr < 0xC00000000 → s.flag .erg ERG_SCRUB 31 = false →
      Sys2Proof.Machine.exec (.ergScrubBlock addr 0) s = .next s ∧
      Sys2Proof.Machine.exec (.ergScrubBlock addr 1) s = .next (s.ergStrike addr false) ∧
      Sys2Proof.Machine.exec (.ergScrubBlock addr 2) s = .next (s.ergStrike addr true)) ∧
    (stackOk s k = true → addr < 0xC00000000 → s.flag .erg ERG_SCRUB 31 = true →
      errWords s.erg.soft (addr / 64 * 64) 64 = [] → errWords s.erg.poison (addr / 64 * 64) 64 = [] →
      Sys2Proof.Machine.exec (.ergScrubBlock addr 0) s = .next s ∧
      (∃ t, Sys2Proof.Machine.exec (.ergScrubBlock addr 1) s = .next t ∧
        t.rd .erg (ERG_ECC_CORR k) = satAdd (s.rd .erg (ERG_ECC_CORR k)) 1 ∧ t.erg.mem = s.erg.mem ∧
        t.erg.poison = s.erg.poison ∧ errWords t.erg.soft (addr / 64 * 64) 64 = [] ∧
        RegsKept .erg [ERG_ECC_CORR k] s t ∧ Kept [.erg] s t) ∧
      ∃ t, Sys2Proof.Machine.exec (.ergScrubBlock addr 2) s = .next t ∧
        errWords t.erg.poison (addr / 64 * 64) 64 = [addr / 8] ∧ t.erg.mem = s.erg.mem ∧
        t.rd .erg (ERG_ECC_UNCORR k) = satAdd (s.rd .erg (ERG_ECC_UNCORR k)) 1 ∧
        t.rd64 .erg (ERG_ECC_ADDR_LO k) (ERG_ECC_ADDR_HI k) =
          (if s.rd .erg (ERG_ECC_UNCORR k) = 0#32 then addr / 8 * 8
            else s.rd64 .erg (ERG_ECC_ADDR_LO k) (ERG_ECC_ADDR_HI k)) ∧
        RegsKept .erg [ERG_ECC_UNCORR k, ERG_ECC_ADDR_LO k, ERG_ECC_ADDR_HI k] s t ∧
        t.flag .flt FLT_STATUS 30 = true ∧ Kept [.erg, .flt] s t)) ∧
  (∀ (addr : Nat) (s : State),
    let k := stackOf addr
    let a := ERG_CNT_WR_FAIL k
    (∃ t, Sys2Proof.Machine.exec (.ergWriteFail addr .other) s = .next t ∧
      t.rd .erg a = satAdd (s.rd .erg a) 1 ∧ t.flag .flt FLT_STATUS 30 = true ∧ RegsKept .erg [a] s t ∧
      t.erg = { s.erg with regs := t.erg.regs } ∧ Kept [.erg, .flt] s t) ∧
    (∀ (t' : Fin 96) (ln : Nat) (b : LbSt), s.lbOf t'.val = some b → ∃ t, Sys2Proof.Machine.exec (.ergWriteFail addr (.lookback t' ln)) s = .next t ∧
      t.rd .erg a = satAdd (s.rd .erg a) 1 ∧
      t.rd .erg (ERG_LB_CNT_WRERR t') = satAdd (s.rd .erg (ERG_LB_CNT_WRERR t')) 1 ∧
      RegsKept .erg [a, ERG_LB_CNT_WRERR t'] s t ∧ Kept [.erg, .flt] s t) ∧
    (∀ (q : Nat) (w : ErgWriter), (w = .handover ∧ q = qHandover ∨ ∃ q' : Fin 384, w = .queue q' ∧ q = q'.val) →
      (qRegion s q = none → ∃ t, Sys2Proof.Machine.exec (.ergWriteFail addr w) s = .next t ∧
        t.rd .erg a = satAdd (s.rd .erg a) 1 ∧ t.ergQ q = s.ergQ q ∧ Kept [.erg, .flt] s t) ∧
      (qRegion s q ≠ none → ∃ t, Sys2Proof.Machine.exec (.ergWriteFail addr w) s = .next t ∧
        t.rd .erg a = satAdd (s.rd .erg a) 1 ∧ t.ergQ q = { s.ergQ q with failing := true } ∧
        (∀ p, p ≠ q → t.ergQ p = s.ergQ p) ∧ RegsKept .erg [a] s t ∧ Kept [.erg, .flt] s t ∧
        ∀ payload, qFits t q payload.length = true → (s.ergQ q).owed = 0 → (s.ergQ q).readAt = none →
          (t.qPush q payload).ergQ q = { s.ergQ q with failing := false } ∧
          (∀ q' : Fin 384, q = q'.val → (t.qPush q payload).rd .erg (ERG_Q_CNT_DROP q') =
            satAdd (s.rd .erg (ERG_Q_CNT_DROP q')) 1) ∧
          (q = qHandover → (t.qPush q payload).rd .cvn CVN_CNT_HO_DROP = satAdd (s.rd .cvn CVN_CNT_HO_DROP) 1))) ∧
    ∀ ch c ser n, ∃ t, Sys2Proof.Machine.exec (.ergWriteFail addr (.dma ch c ser n)) s = .next t ∧
      t.rd .erg a = satAdd (s.rd .erg a) 1 ∧ t.erg.mem = s.erg.mem ∧ Kept [.erg, .flt, .dma, .host] s t) ∧
  (∀ (k : Fin 2) (training : Bool) (s : State),
    (stackOk s k = false ∨ training = false ∧ stackErrors s k = false →
      Sys2Proof.Machine.exec (.stackFail k training) s = .next s) ∧
    (stackOk s k = true → training = true ∨ stackErrors s k = true → ∃ t,
      Sys2Proof.Machine.exec (.stackFail k training) s = .next t ∧ t.flag .erg (ERG_STK_STATUS k) 1 = true ∧
      stackOk t k = false ∧ t.flag .flt FLT_STATUS 30 = true ∧ t.time = s.time ∧ t.pending = s.pending)) ∧
  ∀ (s : State) (r : MbxRun), s.mbxWorks 0x14 r →
    let h := mbxArg64 s 0
    let dst := mbxArg64 s 4
    let before := s.fld .host (HST_MBX_ARG 2) 15 0
    (lookbackRing s h = none → Sys2Proof.Machine.exec .lookbackGet s = .next (s.mbxEnded r 2 [])) ∧
    ∀ b, lookbackRing s h = some b →
      let da := b.base + 4096 + nbits h 44 0 % 65536 * 32
      let dir := ergRead s da 32
      let l := lookbackLines before (s.fld .host (HST_MBX_ARG 2) 31 16) dir
      let code := lookbackCode s b h (mbxArg s 3) da dst (mbxArg s 6) l dir
      let out := lookbackOut s b (nbits h 51 45) h dir ((leAt dir 8 8 : Int) - before) l
      (code ≠ 0 → Sys2Proof.Machine.exec .lookbackGet s =
        .next ((if code = 2 then s.ergMeet da 32 else s).mbxEnded r code [])) ∧
      (code = 0 → out.2 = l → Sys2Proof.Machine.exec .lookbackGet s =
        .next ((s.lookbackMeet b da ((leAt dir 8 8 : Int) - before) l).mbxEnded r 2 [])) ∧
      (code = 0 → out.2 ≠ l → ∃ t : State, Sys2Proof.Machine.exec .lookbackGet s = .next (t.mbxEnded r 0
          [BitVec.ofNat 32 (l - out.2), BitVec.ofNat 32 out.2, BitVec.ofNat 32 out.1.length]) ∧
        (stackOk s (stackOf dst) = true → ergRead t dst out.1.length = out.1) ∧
        (∀ a, a < dst ∨ dst + out.1.length ≤ a → ergByte t a = ergByte s a) ∧
        RegsKept .erg [ERG_ECC_CORR 0, ERG_ECC_CORR 1, ERG_ECC_UNCORR 0, ERG_ECC_UNCORR 1, ERG_ECC_ADDR_LO 0,
          ERG_ECC_ADDR_LO 1, ERG_ECC_ADDR_HI 0, ERG_ECC_ADDR_HI 1] s t ∧ Kept [.erg, .flt] s t)

/-- A queue without registers, and FLUSH of one the map does not place, change nothing.  A pop of one not placed returns the
sentinel, of one without HOST_POP 0.  A pop takes the next word of the item being read, or the header of the next item, returns
its low half and holds the word; a corrected error counts, an uncorrectable one sets its bit and the word is a free value.  An empty queue makes the read wait; after 1 us it
gives the sentinel and sets its bit, not earlier.  HOST_POP that clears with an item half read discards and counts that item.  FLUSH empties the
queue and leaves a marker with the number of data items dropped. -/
def Obligations.QueuesAreReadByTheHost : Prop :=
  (∀ (q : Fin 384) (s : State), qOk q = false →
    Sys2Proof.Machine.exec (.queueFlush q) s = .next s ∧
    (∀ v, Sys2Proof.Machine.exec (.queueHostpopWrite q v) s = .next s) ∧
    ∀ e, Sys2Proof.Machine.exec (.queuePop q e) s = .next s) ∧
  (∀ (q : Fin 384) (s : State), qOk q = true →
    (qRegion s q = none → Sys2Proof.Machine.exec (.queueFlush q) s = .next s) ∧
    (qRegion s q ≠ none → (s.ergQ q).readAt = none → ∃ t, Sys2Proof.Machine.exec (.queueFlush q) s = .next t ∧
      (let n := ((s.ergQ q).items.filter (fun it => (it.headD 0#64).toNat / 2 ^ 56 == 1)).length
       (t.ergQ q).items = [[itemHeader 3 0 n]] ∧ (t.ergQ q).part = [] ∧ (t.ergQ q).owed = (s.ergQ q).owed ∧
       (t.ergQ q).wr = (s.ergQ q).wr + 1) ∧ t.flag .erg (ERG_Q_CTRL q) 31 = false ∧
      t.fld .erg (ERG_Q_COUNT q) 23 0 = 1 ∧ (∀ p, p ≠ q.val → t.ergQ p = s.ergQ p) ∧
      RegsKept .erg [ERG_Q_COUNT q, ERG_Q_CTRL q, ERG_Q_STATUS q] s t ∧ Kept [.erg, .obj, .host] s t)) ∧
  (∀ (q : Fin 384) (v : Word) (s : State), qOk q = true →
    (bit v 31 = false → ∃ t, Sys2Proof.Machine.exec (.queueHostpopWrite q v) s = .next t ∧
      t.flag .erg (ERG_Q_CTRL q) 30 = bit v 30 ∧ (t.ergQ q).items = (s.ergQ q).items ∧
      (let drop := s.flag .erg (ERG_Q_CTRL q) 30 && !bit v 30 && decide ((s.ergQ q).part ≠ [])
       (t.ergQ q).part = (if drop then [] else (s.ergQ q).part) ∧
       t.rd .erg (ERG_Q_CNT_DROP q) = satAdd (s.rd .erg (ERG_Q_CNT_DROP q)) (b2n drop)) ∧
      RegsKept .erg [ERG_Q_CTRL q, ERG_Q_COUNT q, ERG_Q_STATUS q, ERG_Q_CNT_DROP q] s t ∧ Kept [.erg] s t) ∧
    (bit v 31 = true → ∀ t, Sys2Proof.Machine.exec (.queueHostpopWrite q (putBit v 31 false)) s = .next t →
      Sys2Proof.Machine.exec (.queueHostpopWrite q v) s = Sys2Proof.Machine.exec (.queueFlush q) t)) ∧
  (∀ (q : Fin 384) (e : Fin 3) (s : State), qOk q = true →
    (qRegion s q = none → ∃ t, Sys2Proof.Machine.exec (.queuePop q e) s = .next t ∧ t.readData = qSentinel ∧
      t.ergQ q = { s.ergQ q with popped := BitVec.ofNat 64 (0xE3E3E3E3 * 2 ^ 32) } ∧
      RegsKept .erg [ERG_Q_COUNT q, ERG_Q_STATUS q] s t ∧ BlocksKept [.erg] s t) ∧
    (qRegion s q ≠ none → s.flag .erg (ERG_Q_CTRL q) 30 = false →
      Sys2Proof.Machine.exec (.queuePop q e) s =
        .next { s with readData := 0#32, readPoisoned := false }) ∧
    (qRegion s q ≠ none → s.flag .erg (ERG_Q_CTRL q) 30 = true →
      (∀ w ws, (s.ergQ q).part = w :: ws → ergPoisoned s (qWordAt s q 0) 8 = false →
        errWords s.erg.soft (qWordAt s q 0) 8 = [] →
        (∃ t, Sys2Proof.Machine.exec (.queuePop q 0) s = .next t ∧ t.readData = lo32 w.toNat ∧
          t.ergQ q = { s.ergQ q with part := ws, popped := w } ∧ RegsKept .erg [ERG_Q_COUNT q, ERG_Q_STATUS q] s t ∧
          BlocksKept [.erg] s t) ∧
        (∃ t, Sys2Proof.Machine.exec (.queuePop q 1) s = .next t ∧ t.readData = lo32 w.toNat ∧
          t.ergQ q = { s.ergQ q with part := ws, popped := w } ∧
          t.rd .erg (ERG_Q_CNT_CORR q) = satAdd (s.rd .erg (ERG_Q_CNT_CORR q)) 1 ∧
          t.flag .erg (ERG_Q_STATUS q) 2 = s.flag .erg (ERG_Q_STATUS q) 2 ∧ t.erg.poison = s.erg.poison ∧
          BlocksKept [.erg] s t) ∧
        ∃ t, Sys2Proof.Machine.exec (.queuePop q 2) s = .next t ∧ t.readData = lo32 (s.drawn 64).toNat ∧
          t.ergQ q = { s.ergQ q with part := ws, popped := s.drawn 64 } ∧ t.flag .erg (ERG_Q_STATUS q) 2 = true ∧
          t.rd .erg (ERG_Q_CNT_CORR q) = s.rd .erg (ERG_Q_CNT_CORR q) ∧ BlocksKept [.erg, .flt] s t) ∧
      (∀ w ws rest, (s.ergQ q).part = [] → (s.ergQ q).items = (w :: ws) :: rest →
        ergPoisoned s (qWordAt s q 0) 8 = false → errWords s.erg.soft (qWordAt s q 0) 8 = [] → ∃ t,
        Sys2Proof.Machine.exec (.queuePop q 0) s = .next t ∧ t.readData = lo32 w.toNat ∧
        (t.ergQ q).items = rest ∧ (t.ergQ q).part = ws ∧ (t.ergQ q).popped = w ∧
        t.fld .erg (ERG_Q_COUNT q) 23 0 = rest.length % 2 ^ 24 ∧ BlocksKept [.erg, .obj, .host] s t) ∧
      ((s.ergQ q).part = [] → (s.ergQ q).items = [] → ∃ t, Sys2Proof.Machine.exec (.queuePop q e) s = .next t ∧
        t.readData = s.readData ∧ t.ergQ q = { s.ergQ q with readAt := some s.now } ∧ Kept [.erg] s t))) ∧
  ∀ (q : Fin 384) (s : State),
    ((s.ergQ q).readAt = none → Sys2Proof.Machine.exec (.queuePopTimeout q) s = .next s) ∧
    (∀ at_, (s.ergQ q).readAt = some at_ →
      (s.now < at_ + 1000 → Sys2Proof.Machine.exec (.queuePopTimeout q) s = .next s) ∧
      (at_ + 1000 ≤ s.now → ∃ t, Sys2Proof.Machine.exec (.queuePopTimeout q) s = .next t ∧ t.readData = qSentinel ∧
        t.ergQ q = { s.ergQ q with readAt := none, popped := BitVec.ofNat 64 (0xE3E3E3E3 * 2 ^ 32) } ∧
        t.flag .erg (ERG_Q_STATUS q) 3 = true ∧ RegsKept .erg [ERG_Q_COUNT q, ERG_Q_STATUS q] s t ∧ BlocksKept [.erg] s t))

/-- PAUSE = 1 pauses every channel that is not HALTED.  PAUSE = 0 lets a PAUSED channel without a link pause run: RUNNING with work, else
IDLE.  RESUME leaves HALTED for PAUSED under PAUSE or a link pause, else to run; in another state it does nothing.  ABORT completes every
descriptor as failed, counts each, and leaves the channel IDLE and empty.  A client's command for a channel bound to
another only names the channel and sets the client's refusal bit.  The descriptors stay as they are but for ABORT.
A burst that its channel, its credit, its gap and, for a read of host memory, a free tag allow copies its bytes from source to destination, and only there, and moves the
descriptor on; else nothing changes; a read holds its tag of the pool until its data are back, and so does the read of a fence.  A request that fails with a retriable cause while retries are left is counted and tried again;
otherwise the descriptor fails, the channel halts with the cause and the descriptor's serial and goes on to none.  A descriptor whose segments were
taken before it started halts with cause 8.  One whose bytes are all copied, its reads back and its fence read, completes, under PAUSE too: it is
counted and leaves, and a RUNNING channel is RUNNING with more work, else IDLE; before that nothing changes.  A failure in the cycle of an ABORT
gives its descriptor its own cause, whichever of the two comes first.  The strict division of the tags between
fetches and channels, and that a request without one waits, are the model's reading of R287 (log 105). -/
def Obligations.DmaChannelsRunTheirDescriptors : Prop :=
  ((∀ (ch : Fin 64) (s : State), ∃ t, Sys2Proof.Machine.exec (.dmaPause ch) s = .next t ∧
     t.flag .dma (DMA_CH_CTRL ch) 31 = true ∧ chState t ch = (if chState s ch = 3 then 3 else 2) ∧
     t.dma = { s.dma with regs := t.dma.regs } ∧ RegsKept .dma [DMA_CH_CTRL ch, DMA_CH_STATUS ch] s t ∧ Kept [.dma] s t) ∧
   (∀ (ch : Fin 64) (s : State), ∃ t, Sys2Proof.Machine.exec (.dmaUnpause ch) s = .next t ∧
     t.flag .dma (DMA_CH_CTRL ch) 31 = false ∧
     chState t ch = (if chState s ch = 2 ∧ linkPaused s ch = false then (if (s.dmaCh ch).queue = [] then 0 else 1)
       else chState s ch) ∧
     t.dma = { s.dma with regs := t.dma.regs } ∧ RegsKept .dma [DMA_CH_CTRL ch, DMA_CH_STATUS ch] s t ∧ Kept [.dma] s t) ∧
   (∀ (ch : Fin 64) (s : State),
     (chState s ch ≠ 3 → Sys2Proof.Machine.exec (.dmaResume ch) s = .next s) ∧
     (chState s ch = 3 → ∃ t, Sys2Proof.Machine.exec (.dmaResume ch) s = .next t ∧
       chState t ch = (if s.flag .dma (DMA_CH_CTRL ch) 31 || linkPaused s ch then 2
         else if (s.dmaCh ch).queue = [] then 0 else 1) ∧ linkPaused t ch = linkPaused s ch ∧
       t.dma = { s.dma with regs := t.dma.regs } ∧ RegsKept .dma [DMA_CH_STATUS ch] s t ∧ Kept [.dma] s t)) ∧
   (∀ (ch : Fin 64) (s : State), ∃ t, Sys2Proof.Machine.exec (.dmaAbort ch) s = .next t ∧ (t.dmaCh ch).queue = [] ∧
     (t.dmaCh ch).copied = 0 ∧ (t.dmaCh ch).started = false ∧ chState t ch = 0 ∧ linkPaused t ch = false ∧
     t.rd .dma (DMA_CNT_FAIL ch) = satAdd (s.rd .dma (DMA_CNT_FAIL ch)) (s.dmaCh ch).queue.length ∧
     ((s.dmaCh ch).retrying = false → t.rd .dma (DMA_CH_HALT_SERIAL ch) = s.rd .dma (DMA_CH_HALT_SERIAL ch)) ∧
     (∀ (d : Desc) (ds : List Desc) (cause : Nat), (s.dmaCh ch).queue = d :: ds → (s.dmaCh ch).retrying = true →
       (s.dmaCh ch).failedAt = some (s.now, cause) →
       t.rd .dma (DMA_CH_HALT_SERIAL ch) = BitVec.ofNat 32 d.serial ∧ t.fld .dma (DMA_CH_STATUS ch) 15 8 = cause % 256) ∧
     (∀ n, n ≠ ch.val → t.dmaCh n = s.dmaCh n) ∧
     RegsKept .dma [DMA_CH_STATUS ch, DMA_CNT_FAIL ch, DMA_CH_HALT_SERIAL ch] s t ∧
     t.erg.mem = s.erg.mem ∧ Kept [.dma, .host, .erg] s t) ∧
   ∀ (c : Fin 1024) (v : Word) (s : State),
     (chBound s (bits v 5 0) c = true ∨ bound s c = false → Sys2Proof.Machine.exec (.dmaCmdReject c v) s = .next s) ∧
     (chBound s (bits v 5 0) c = false → bound s c = true → ∃ t, Sys2Proof.Machine.exec (.dmaCmdReject c v) s = .next t ∧
       t.client c = { s.client c with named := some (bits v 5 0) } ∧
       t.flag .host (HST_CLI_STATUS c) 3 = (s.flag .host (HST_CLI_STATUS c) 3 || decide (bits v 30 27 ≠ 0)) ∧
       RegsKept .host [HST_CLI_STATUS c] s t ∧ Kept [.host] s t)) ∧
  (∀ (ch : Fin 64) (len : Nat) (data : List Byte) (late : Nat) (s : State),
    ((s.dmaCh ch).queue = [] ∨ chWorks s ch = false → Sys2Proof.Machine.exec (.dmaBurst ch len data late) s = .next s) ∧
    ((s.dmaCh ch).queue = [] ∨ chEnds s ch = false → Sys2Proof.Machine.exec (.dmaComplete ch) s = .next s ∧
      ((s.dmaCh ch).aborted.all (fun a => a.tb != s.now) = true → ∀ cause : Fin 6,
        Sys2Proof.Machine.exec (.dmaRequestFail ch cause) s = .next s)) ∧
    (∀ (d : Desc) (ds : List Desc), (s.dmaCh ch).queue = d :: ds → chWorks s ch = true → (d.taken && !(s.dmaCh ch).started) = false →
      let b := nextBurst s d (s.dmaCh ch).copied len
      let n := b.2.2
      (d.width * d.rows ≤ (s.dmaCh ch).copied ∨ n = 0 ∨ burstAllowed s ch d.hostSide n = false ∨
          (d.srcErg = false ∧ tagFree s (some ch.val) = false) →
        Sys2Proof.Machine.exec (.dmaBurst ch len data late) s = .next s) ∧
      ((s.dmaCh ch).copied < d.width * d.rows → n ≠ 0 → burstAllowed s ch d.hostSide n = true →
        d.srcErg = true ∨ tagFree s (some ch.val) = true → (d.srcErg && ergPoisoned s b.1 n) = false → ∃ t, Sys2Proof.Machine.exec (.dmaBurst ch len data late) s = .next t ∧
        (t.dmaCh ch).copied = (s.dmaCh ch).copied + n ∧ (t.dmaCh ch).queue = d :: ds ∧ (t.dmaCh ch).started = true ∧
        (t.dmaCh ch).burstAt = some s.now ∧ (t.dmaCh ch).retrying = false ∧
        (let bytes := if d.srcErg then ergRead s b.1 n else padTo n data
         (d.dstErg = true → stackOk s (stackOf b.2.1) = true → ergRead t b.2.1 n = bytes) ∧
         (d.dstErg = false → ∀ i, i < n → Tab.get (fun _ => 0#8) t.host.mem (b.2.1 + i) = atD bytes i 0#8)) ∧
        (∀ a, d.dstErg = false ∨ a < b.2.1 ∨ b.2.1 + n ≤ a → ergByte t a = ergByte s a) ∧
        (∀ a, d.dstErg = true ∨ a < b.2.1 ∨ b.2.1 + n ≤ a →
          Tab.get (fun _ => 0#8) t.host.mem a = Tab.get (fun _ => 0#8) s.host.mem a) ∧
        t.host.reqs = (if d.srcErg then s.host.reqs else reqsOut s ++ [⟨some ch.val, s.now + late⟩]) ∧
        RegsKept .dma [] s t ∧ RegsKept .host [] s t ∧
        RegsKept .erg (if d.srcErg then [ERG_ECC_CORR (stackOf b.1)] else []) s t ∧ Kept [.dma, .host, .erg] s t))) ∧
  (∀ (ch : Fin 64) (cause : Fin 6) (s : State) (a : AbortedDesc), (s.dmaCh ch).aborted = some a → a.tb = s.now →
    (cause = 0 → Sys2Proof.Machine.exec (.dmaRequestFail ch cause) s = .next s) ∧
    (cause ≠ 0 → ∃ t, Sys2Proof.Machine.exec (.dmaRequestFail ch cause) s = .next t ∧
      t.dmaCh ch = { s.dmaCh ch with aborted := none } ∧ t.fld .dma (DMA_CH_STATUS ch) 15 8 = cause.val ∧
      t.rd .dma (DMA_CH_HALT_SERIAL ch) = BitVec.ofNat 32 a.desc.serial ∧ chState t ch = chState s ch ∧
      RegsKept .dma [DMA_CNT_RETRY ch, DMA_CH_STATUS ch, DMA_CH_HALT_SERIAL ch] s t ∧ Kept [.dma, .host] s t)) ∧
  (∀ (ch : Fin 64) (s : State) (d : Desc) (ds : List Desc), (s.dmaCh ch).queue = d :: ds → chEnds s ch = true →
    (∀ (cause : Fin 6), (s.dmaCh ch).aborted.all (fun a => a.tb != s.now) = true →
      let tries := if (s.dmaCh ch).retrying then (s.dmaCh ch).tries + 1 else 1
      let again := (cause.val = 1 ∨ cause.val = 4 ∨ cause.val = 5) ∧ tries ≤ d.retries
      (cause = 0 → Sys2Proof.Machine.exec (.dmaRequestFail ch cause) s = .next s) ∧
      (again → ∃ t, Sys2Proof.Machine.exec (.dmaRequestFail ch cause) s = .next t ∧ (t.dmaCh ch).queue = d :: ds ∧
        (t.dmaCh ch).tries = tries ∧ (t.dmaCh ch).failedAt = some (s.now, cause.val) ∧ (t.dmaCh ch).fenceOut = false ∧
        (t.dmaCh ch).retrying = true ∧ (t.dmaCh ch).retried = true ∧
        (t.dmaCh ch).copied = (s.dmaCh ch).copied ∧
        t.rd .dma (DMA_CNT_RETRY ch) = satAdd (s.rd .dma (DMA_CNT_RETRY ch)) 1 ∧
        RegsKept .dma [DMA_CNT_RETRY ch] s t ∧ Kept [.dma] s t) ∧
      (cause ≠ 0 → ¬ again → ∃ t, Sys2Proof.Machine.exec (.dmaRequestFail ch cause) s = .next t ∧
        (t.dmaCh ch).queue = ds ∧ (t.dmaCh ch).copied = 0 ∧ (t.dmaCh ch).started = false ∧ chState t ch = 3 ∧
        t.fld .dma (DMA_CH_STATUS ch) 15 8 = cause.val ∧ t.rd .dma (DMA_CH_HALT_SERIAL ch) = BitVec.ofNat 32 d.serial ∧
        t.rd .dma (DMA_CNT_FAIL ch) = satAdd (s.rd .dma (DMA_CNT_FAIL ch)) 1 ∧
        RegsKept .dma [DMA_CH_STATUS ch, DMA_CH_HALT_SERIAL ch, DMA_CNT_FAIL ch] s t ∧ t.erg.mem = s.erg.mem ∧
        Kept [.dma, .host, .erg] s t)) ∧
    (d.taken = true → (s.dmaCh ch).started = false → chWorks s ch = true → ∀ (len : Nat) (data : List Byte) (late : Nat), ∃ t,
      Sys2Proof.Machine.exec (.dmaBurst ch len data late) s = .next t ∧
      ((s.dmaCh ch).copied < d.width * d.rows → Sys2Proof.Machine.exec (.dmaComplete ch) s = .next t ∧
        (t.dmaCh ch).queue = ds ∧ chState t ch = 3 ∧ t.fld .dma (DMA_CH_STATUS ch) 15 8 = 8)) ∧
    ((d.taken && !(s.dmaCh ch).started) = false → (s.dmaCh ch).copied < d.width * d.rows ∨ chReads s ch = true →
      Sys2Proof.Machine.exec (.dmaComplete ch) s = .next s) ∧
    ((d.taken && !(s.dmaCh ch).started) = false → d.width * d.rows ≤ (s.dmaCh ch).copied → chReads s ch = false →
      (d.fence && !d.dstErg && !(s.dmaCh ch).fenceOut) = true → Sys2Proof.Machine.exec (.dmaComplete ch) s =
        .next (if tagFree s (some ch.val) then s.onDma ch (fun x => { x with fenceOut := true }) else s)) ∧
    ((d.taken && !(s.dmaCh ch).started) = false → d.width * d.rows ≤ (s.dmaCh ch).copied → chReads s ch = false →
      (d.fence && !d.dstErg && !(s.dmaCh ch).fenceOut) = false → ∃ t,
      Sys2Proof.Machine.exec (.dmaComplete ch) s = .next t ∧ (t.dmaCh ch).queue = ds ∧ (t.dmaCh ch).copied = 0 ∧
      (t.dmaCh ch).started = false ∧ (ds = [] → chState t ch = (if chState s ch = 1 then 0 else chState s ch)) ∧
      (ds ≠ [] → s.host.up = true → chState t ch = chState s ch) ∧
      t.rd .dma (DMA_CNT_DONE ch) = satAdd (s.rd .dma (DMA_CNT_DONE ch)) 1 ∧
      (d.notify = false → t.host.mem = s.host.mem ∧ RegsKept .host [HST_CLI_USE_DESC d.client] s t) ∧
      (d.tmpl = false → d.notify = false →
        t.rd .host (HST_CLI_USE_DESC d.client) = s.rd .host (HST_CLI_USE_DESC d.client) - 1#32) ∧
      (∀ n, n ≠ ch.val → t.dmaCh n = s.dmaCh n) ∧ RegsKept .dma [DMA_CH_STATUS ch, DMA_CNT_DONE ch] s t ∧
      t.erg.mem = s.erg.mem ∧ Kept [.dma, .host, .erg] s t))

/-- A client that is not bound is left alone.  A write to its control register takes the ring enables and the vector, but keeps the old vector and sets a
flag where the function's table has no such entry; a ring that goes on starts empty.  A doorbell moves the pointer the host owns, unless
the ring would hold more than its entries: then it sets a flag only; off rings ignore it.  A heartbeat writes the write-back block of 64 bytes with its number and
TB.  The timed interrupt sends the client's vector when its time is due and the link is up: its message is written at its address, or it is
pending while it is masked; the new entries start again from none; else nothing changes.  The layout of the MSI-X table, its mask and its
pending bits are PCI Express's and are the model's choice (log 106, PRESUMED). -/
def Obligations.ClientPagesRingAndInterrupt : Prop :=
  (∀ (c : Fin 1024) (v : Word) (s : State),
    (bound s c = false → Sys2Proof.Machine.exec (.clientCtrlWrite c v) s = .next s) ∧
    (bound s c = true → ∃ t, Sys2Proof.Machine.exec (.clientCtrlWrite c v) s = .next t ∧
      t.fld .host (HST_CLI_CTRL c) 31 26 = bits v 31 26 ∧
      (bits v 10 0 < vecEntries s (cliFn s c) → t.fld .host (HST_CLI_CTRL c) 10 0 = bits v 10 0 ∧
        t.flag .host (HST_CLI_STATUS c) 7 = s.flag .host (HST_CLI_STATUS c) 7) ∧
      (vecEntries s (cliFn s c) ≤ bits v 10 0 → t.flag .host (HST_CLI_STATUS c) 7 = true ∧
        t.fld .host (HST_CLI_CTRL c) 10 0 = s.fld .host (HST_CLI_CTRL c) 10 0) ∧
      (∀ r, r < 5 →
        (s.flag .host (HST_CLI_CTRL c) (31 - r) = false → bit v (31 - r) = true →
          t.rd .host (HST_CLI_PROD c r) = 0#32 ∧ t.rd .host (HST_CLI_CONS c r) = 0#32) ∧
        (s.flag .host (HST_CLI_CTRL c) (31 - r) = true ∨ bit v (31 - r) = false →
          t.rd .host (HST_CLI_PROD c r) = s.rd .host (HST_CLI_PROD c r) ∧
          t.rd .host (HST_CLI_CONS c r) = s.rd .host (HST_CLI_CONS c r))) ∧
      (bit v 26 = false → t.host = { s.host with regs := t.host.regs }) ∧
      (∀ a, a < HST_CLI_ID c ∨ HST_CLI_ID c + 0x1000 ≤ a → t.rd .host a = s.rd .host a) ∧ Kept [.host] s t)) ∧
  (∀ (c : Fin 1024) (r : Fin 5) (v : Word) (s : State),
    (r.val = 1 ∨ r.val = 4 ∨ ringOn s c r = false → Sys2Proof.Machine.exec (.consDoorbell c r v) s = .next s) ∧
    (r.val ≠ 1 → r.val ≠ 4 → ringOn s c r = true →
      (ringSize s c r < (s.rd .host (HST_CLI_PROD c r) - v).toNat →
        Sys2Proof.Machine.exec (.consDoorbell c r v) s = .next (s.setb .host (HST_CLI_STATUS c) 6 true)) ∧
      ((s.rd .host (HST_CLI_PROD c r) - v).toNat ≤ ringSize s c r → ∃ t,
        Sys2Proof.Machine.exec (.consDoorbell c r v) s = .next t ∧ t.rd .host (HST_CLI_CONS c r) = v ∧
        (t.rd .host (HST_CLI_USE_REC c)).toNat = ringUsed t c 0 ∧ t.host = { s.host with regs := t.host.regs } ∧
        RegsKept .host [HST_CLI_CONS c r, HST_CLI_USE_REC c, HST_CLI_USE_CPL c, HST_CLI_USE_ERG c, HST_CLI_STATUS c] s t ∧
        Kept [.host] s t))) ∧
  (∀ (c : Fin 1024) (v : Word) (s : State),
    (ringOn s c 1 = false → Sys2Proof.Machine.exec (.verdictDoorbell c v) s = .next s) ∧
    (ringOn s c 1 = true → ringSize s c 1 < (v - s.rd .host (HST_CLI_CONS c 1)).toNat →
      Sys2Proof.Machine.exec (.verdictDoorbell c v) s = .next (s.setb .host (HST_CLI_STATUS c) 6 true)) ∧
    (ringOn s c 1 = true → (v - s.rd .host (HST_CLI_CONS c 1)).toNat ≤ ringSize s c 1 →
      Sys2Proof.Machine.exec (.verdictDoorbell c v) s = .next (s.wr .host (HST_CLI_PROD c 1) v))) ∧
  (∀ (c : Fin 1024) (v : Word) (s : State),
    (ringOn s c 4 = false → Sys2Proof.Machine.exec (.descDoorbell c v) s = .next s) ∧
    (ringOn s c 4 = true → ringSize s c 4 < (v - s.rd .host (HST_CLI_CONS c 4)).toNat →
      Sys2Proof.Machine.exec (.descDoorbell c v) s = .next (s.setb .host (HST_CLI_STATUS c) 6 true)) ∧
    (ringOn s c 4 = true → (v - s.rd .host (HST_CLI_CONS c 4)).toNat ≤ ringSize s c 4 →
      Sys2Proof.Machine.exec (.descDoorbell c v) s = .next (s.wr .host (HST_CLI_PROD c 4) v))) ∧
  (∀ (c : Fin 1024) (s : State),
    (ringOn s c 0 = false ∨ s.host.up = false → Sys2Proof.Machine.exec (.heartbeat c) s = .next s) ∧
    (ringOn s c 0 = true → s.host.up = true → ∃ t, Sys2Proof.Machine.exec (.heartbeat c) s = .next t ∧
      (let n := ((s.client c).hb + 1) % 2 ^ 32
       let wb := s.rd64 .host (HST_CLI_WB_LO c) (HST_CLI_WB_HI c)
       let w (a : Nat) : List Byte := leBytes 4 (s.rd .host a).toNat
       t.client c = { s.client c with hb := n, wbAt := s.now } ∧
       (∀ i, i < 64 → Tab.get (fun _ => 0#8) t.host.mem (wb + i) = atD (w (HST_CLI_PROD c 0) ++ w (HST_CLI_PROD c 2) ++
          w (HST_CLI_PROD c 3) ++ w (HST_CLI_CONS c 1) ++ w (HST_CLI_CONS c 4) ++ leBytes 4 n ++ leBytes 8 s.now ++
          w (HST_CLI_STATUS c) ++ leBytes 28 0) i 0#8) ∧
       ∀ a, a < wb ∨ wb + 64 ≤ a → Tab.get (fun _ => 0#8) t.host.mem a = Tab.get (fun _ => 0#8) s.host.mem a) ∧
      RegsKept .host [] s t ∧ Kept [.host] s t)) ∧
  ∀ (c : Fin 1024) (s : State),
    let due (at_ : Nat) := s.flag .host (HST_CLI_CTRL c) 26 = true ∧ s.host.up = true ∧
      at_ + s.fld .host (HST_CLI_INTMOD c) 31 16 * 1000 ≤ s.now
    ((∀ at_, (s.client c).firstNew = some at_ → ¬ due at_) →
      Sys2Proof.Machine.exec (.intTimeExpire c) s = .next s) ∧
    (∀ at_, (s.client c).firstNew = some at_ → due at_ → ∃ t,
      Sys2Proof.Machine.exec (.intTimeExpire c) s = .next t ∧
      (let v := s.fld .host (HST_CLI_CTRL c) 10 0
       let w := fun n => msixWord s (cliFn s c) v n
       let k := vecKey (cliFn s c) v
       let a := join32 (w 0) (w 1)
       (bit (w 3) 0 = true → Tab.get (fun _ => false) t.host.vecPend k = true ∧ t.host.sent = s.host.sent ∧
         t.host.mem = s.host.mem) ∧
       (bit (w 3) 0 = false → Tab.get (fun _ => 0) t.host.sent k = Tab.get (fun _ => 0) s.host.sent k + 1 ∧
         Tab.get (fun _ => false) t.host.vecPend k = false ∧
         (∀ i, i < 4 → Tab.get (fun _ => 0#8) t.host.mem (a + i) = atD (leBytes 4 (w 2).toNat) i 0#8) ∧
         ∀ b, b < a ∨ a + 4 ≤ b → Tab.get (fun _ => 0#8) t.host.mem b = Tab.get (fun _ => 0#8) s.host.mem b)) ∧
      t.client c = { s.client c with fresh := 0, firstNew := none } ∧
      RegsKept .host [] s t ∧ Kept [.host] s t)

/-- A stream delivers only while the link is up and its queue is not read by the host; an empty queue changes nothing.  An uncorrectable head is
discarded and counted.  A head item otherwise leaves the queue, unless the channel of its route may not copy the cut-outs due with it: for one client with room it is written at PROD of the record ring with its index in
bytes 4 to 7, the write-back block and the vector's message lying elsewhere; for one without room it is counted as dropped there and joins the gap owed.  A gap owed is written at PROD of its ring, when that
has room, as the entry of its rule (kind 4 in the record ring) with the number dropped, and is then no longer owed; without room, or with nothing owed, nothing changes.  Staging space at the old end of
the ring is taken back when its hold is over, not before. -/
def Obligations.RecordsAreDelivered : Prop :=
  (∀ (n : Fin 96) (s : State),
    let q := qOf n 0
    (delivers s q = false ∨ (s.ergQ q).items = [] → Sys2Proof.Machine.exec (.recordDeliver n) s = .next s) ∧
    (∀ it rest, delivers s q = true → (s.ergQ q).items = it :: rest →
      (qHeadBad s q = true → ∃ t, Sys2Proof.Machine.exec (.recordDeliver n) s = .next t ∧ (t.ergQ q).items = rest ∧
        t.rd .erg (ERG_Q_CNT_DROP q) = satAdd (s.rd .erg (ERG_Q_CNT_DROP q)) 1 ∧
        t.flag .erg (ERG_Q_STATUS q) 2 = true ∧ Kept [.erg, .obj, .host, .flt] s t) ∧
      (let r := routeAt s n 0 (routeIdx s n 0)
       let waits : Bool := match itemBytes it with
         | some b => !copyFree s (leAt (r.getD []) 2 1) (cutsDue s (r.getD []) b ((r.map routeClients).getD []))
         | none => false
       (qHeadBad s q = false → waits = true → Sys2Proof.Machine.exec (.recordDeliver n) s = .next s) ∧
       (qHeadBad s q = false → waits = false → ∃ t, Sys2Proof.Machine.exec (.recordDeliver n) s = .next t ∧
         (t.ergQ q).items = rest ∧ (t.ergQ q).wr = (s.ergQ q).wr ∧ t.erg.mem = s.erg.mem ∧
         BlocksKept [.erg, .obj, .host, .dma, .flt] s t)) ∧
      (∀ route b cli, qHeadBad s q = false → itemBytes it = some b → routeAt s n 0 (routeIdx s n 0) = some route →
        routeClients route = [cli] → takesCopy (leAt b 0 1) cli = true → tbit cli 14 = false → bound s (cli % 1024) = true →
        (s.client (cli % 1024)).recGap = none → ∃ t, Sys2Proof.Machine.exec (.recordDeliver n) s = .next t ∧
        (t.ergQ q).items = rest ∧
        (let c := cli % 1024
         let p := s.rd .host (HST_CLI_PROD c 0)
         let a := ringSlot s c 0 p.toNat
         let wb := s.rd64 .host (HST_CLI_WB_LO c) (HST_CLI_WB_HI c)
         let w := fun n => msixWord s (cliFn s c) (s.fld .host (HST_CLI_CTRL c) 10 0) n
         let m := join32 (w 0) (w 1)
         ((ringOn s c 0 && ringRoom s c 0) = true → t.rd .host (HST_CLI_PROD c 0) = p + 1#32 ∧
           ((a + 256 ≤ wb ∨ wb + 64 ≤ a) → (a + 256 ≤ m ∨ m + 4 ≤ a) → ∀ i, i < 256 → Tab.get (fun _ => 0#8) t.host.mem (a + i) =
             atD (padTo 256 (patch b 4 (leBytes 4 p.toNat))) i 0#8) ∧
           ∀ y, (y < a ∨ a + 256 ≤ y) → (y < wb ∨ wb + 64 ≤ y) → (y < m ∨ m + 4 ≤ y) →
             Tab.get (fun _ => 0#8) t.host.mem y = Tab.get (fun _ => 0#8) s.host.mem y) ∧
         ((ringOn s c 0 && ringRoom s c 0) = false → t.rd .host (HST_CLI_PROD c 0) = p ∧
           t.rd .host (HST_CLI_CNT_REC_DROP c) = satAdd (s.rd .host (HST_CLI_CNT_REC_DROP c)) 1 ∧
           (t.client c).recGap = some ⟨1, s.now, s.now⟩ ∧ t.host.mem = s.host.mem)) ∧
        BlocksKept [.erg, .obj, .host, .flt] s t))) ∧
  (∀ (c : Fin 1024) (r : Fin 5) (s : State),
    (r.val = 1 ∨ r.val = 4 ∨ ringOn s c r = false ∨ s.host.up = false ∨ ringRoom s c r = false →
      Sys2Proof.Machine.exec (.gapWrite c r) s = .next s) ∧
    (r.val = 0 → (s.client c).recGap = none → Sys2Proof.Machine.exec (.gapWrite c r) s = .next s) ∧
    (r.val = 2 → (s.client c).cplGap = none → Sys2Proof.Machine.exec (.gapWrite c r) s = .next s) ∧
    (r.val = 3 → (s.client c).errGap = 0 → Sys2Proof.Machine.exec (.gapWrite c r) s = .next s) ∧
    (ringOn s c r = true → s.host.up = true → ringRoom s c r = true →
      (r.val = 0 ∧ (s.client c).recGap ≠ none ∨ r.val = 2 ∧ (s.client c).cplGap ≠ none ∨
        r.val = 3 ∧ (s.client c).errGap ≠ 0) → ∃ t, Sys2Proof.Machine.exec (.gapWrite c r) s = .next t ∧
      t.rd .host (HST_CLI_PROD c r) = s.rd .host (HST_CLI_PROD c r) + 1#32 ∧ t.flag .host (HST_CLI_STATUS c) 5 = true ∧
      (let p := (s.rd .host (HST_CLI_PROD c r)).toNat
       let a := ringSlot s c r p
       let n := entryBytes r
       let wb := s.rd64 .host (HST_CLI_WB_LO c) (HST_CLI_WB_HI c)
       let w := fun k => msixWord s (cliFn s c) (s.fld .host (HST_CLI_CTRL c) 10 0) k
       let m := join32 (w 0) (w 1)
       let gr := (s.client c).recGap.getD ⟨0, 0, 0⟩
       let gc := (s.client c).cplGap.getD ⟨0, 0, 0⟩
       let gap := if r.val = 0 then leBytes 8 4 ++ leBytes 4 (capNat 0xFFFFFFFF gr.count) ++ leBytes 4 0 ++
           leBytes 8 gr.first ++ leBytes 8 gr.last
         else if r.val = 2 then leBytes 8 2 ++ leBytes 4 (capNat 0xFFFFFFFF gc.count)
         else leBytes 2 6 ++ leBytes 2 c ++ leBytes 4 0 ++ leBytes 8 s.now ++
           leBytes 4 (capNat 0xFFFFFFFF (s.client c).errGap)
       ((a + n ≤ wb ∨ wb + 64 ≤ a) → (a + n ≤ m ∨ m + 4 ≤ a) → ∀ i, i < n →
         Tab.get (fun _ => 0#8) t.host.mem (a + i) = atD (padTo n (patch gap 4 (leBytes 4 p))) i 0#8) ∧
       ∀ y, (y < a ∨ a + n ≤ y) → (y < wb ∨ wb + 64 ≤ y) → (y < m ∨ m + 4 ≤ y) →
         Tab.get (fun _ => 0#8) t.host.mem y = Tab.get (fun _ => 0#8) s.host.mem y) ∧
      (t.client c).recGap = (if r.val = 0 then none else (s.client c).recGap) ∧
      (t.client c).cplGap = (if r.val = 2 then none else (s.client c).cplGap) ∧
      (t.client c).errGap = (if r.val = 3 then 0 else (s.client c).errGap) ∧
      RegsKept .host [HST_CLI_PROD c r, HST_CLI_STATUS c, HST_CLI_USE_REC c, HST_CLI_USE_CPL c, HST_CLI_USE_ERG c] s t ∧
      Kept [.host] s t)) ∧
  ∀ (n : Fin 96) (s : State), ∃ t, Sys2Proof.Machine.exec (.stagingHoldExpire n) s = .next t ∧
    (∀ e es, (s.objStream n).staging = e :: es →
      (e.released = true → e.freeAt.any (fun f => decide (f ≤ s.now)) = true →
        (t.objStream n).staging = reapStaged s.now es) ∧
      (e.released = false ∨ e.freeAt.all (fun f => decide (s.now < f)) = true →
        (t.objStream n).staging = e :: es)) ∧
    t.objStream n = { s.objStream n with staging := (t.objStream n).staging } ∧
    (∀ m, m ≠ n.val → t.objStream m = s.objStream m) ∧ RegsKept .obj [] s t ∧ Kept [.obj] s t

/-- While the link is down no copy ends.  The end of a strip buffer's copy takes the copy off the list and frees its slot; that of a statistics record
takes the head of its queue.  A copy waits while the channel
of its route may not copy.  A fetch of verdicts, when it is the client's turn and a tag is free, reads at most 16 entries, those of the ring not yet on
their way that the read returned, and they are on their way in ring order; with none, nothing changes.  An entry that has come back moves CONS and the count on by one.  A fetched descriptor leaves the ring: one that passes
is enqueued on its channel with the channel's next serial, which goes on, and counts in its client's use; a refused one is counted
and leaves the channels alone.  A descriptor waits while its channel is full, the quota is used or no tag is free.
The division of
the tags (log 105) and where the turn of the clients begins (log 113) are the model's choices. -/
def Obligations.DataVerdictsAndDescriptorsCross : Prop :=
  (∀ (n : Fin 96) (s : State),
    (∀ st : Bool, s.host.up = false → Sys2Proof.Machine.exec (.dataCopyDone n st) s = .next s) ∧
    (s.host.up = true →
      (s.host.copies.find? (fun j => j.stream == n.val && j.kind == 1 && dataFree s j j.size) = none →
        Sys2Proof.Machine.exec (.dataCopyDone n false) s = .next s) ∧
      (∀ j, s.host.copies.find? (fun j => j.stream == n.val && j.kind == 1 && dataFree s j j.size) = some j → ∃ t,
        Sys2Proof.Machine.exec (.dataCopyDone n false) s = .next t ∧ t.host.copies = s.host.copies.erase j ∧
        (∀ i, j.slot = some i → (outRing t n j.src).busy = (outRing s n j.src).busy.filter (fun b => b.1 != i)) ∧
        t.erg.mem = s.erg.mem ∧ Kept [.erg, .host, .dma, .flt] s t) ∧
      ((s.ergQ (qOf n 1)).items = [] ∨ delivers s (qOf n 1) = false →
        Sys2Proof.Machine.exec (.dataCopyDone n true) s = .next s) ∧
      (∀ it rest, (s.ergQ (qOf n 1)).items = it :: rest → delivers s (qOf n 1) = true →
        let job := (itemBytes it).bind (fun b =>
           match s.host.copies.find? (fun j => j.stream == n.val && j.kind == 2 && j.strip == leAt b 0 4) with
           | some j => some j
           | none => (routeAt s n 2 (routeIdx s n 2)).map (fun r => DataCopy.ofRoute r 2 n (leAt b 0 4) 0 b.length none))
        let free := job.all (fun j => dataFree s j ((itemBytes it).getD []).length)
        (qHeadBad s (qOf n 1) = false → free = false →
           Sys2Proof.Machine.exec (.dataCopyDone n true) s = .next s) ∧
        (qHeadBad s (qOf n 1) = true ∨ free = true → ∃ t,
           Sys2Proof.Machine.exec (.dataCopyDone n true) s = .next t ∧ (t.ergQ (qOf n 1)).items = rest ∧
           t.erg.mem = s.erg.mem ∧ Kept [.erg, .obj, .host, .dma, .flt] s t)))) ∧
  (∀ (c : Fin 1024) (es : List (BitVec 128)) (late : Nat) (s : State),
    let k := verdictsFlying s c
    let n := min 16 (min (ringUsed s c 1 - k) es.length)
    (verdictTurn s c = false ∨ s.host.up = false ∨ n = 0 ∨ tagFree s none = false →
      Sys2Proof.Machine.exec (.verdictFetch c es late) s = .next s) ∧
    (verdictTurn s c = true → s.host.up = true → n ≠ 0 → tagFree s none = true → ∃ t,
      Sys2Proof.Machine.exec (.verdictFetch c es late) s = .next t ∧
      t.host.flights = s.host.flights ++ (es.take n).mapIdx (fun i e =>
        ⟨c.val, s.rd .host (HST_CLI_CONS c 1) + BitVec.ofNat 32 (k + i), e, s.now + late⟩) ∧ t.host.turn = c.val ∧
      t.host.reqs = reqsOut s ++ [⟨none, s.now + late⟩] ∧ t.host.mem = s.host.mem ∧
      RegsKept .host [] s t ∧ Kept [.host] s t)) ∧
  (∀ (s : State) (f : Flight), ∃ t, s.verdictFetched f = t ∧
    t.rd .host (HST_CLI_CNT_VER_FETCHED f.client) = satAdd (s.rd .host (HST_CLI_CNT_VER_FETCHED f.client)) 1 ∧
    t.rd .host (HST_CLI_CONS f.client 1) = (if ringOn s f.client 1 = true ∧ s.rd .host (HST_CLI_CONS f.client 1) = f.idx
      then f.idx + 1#32 else s.rd .host (HST_CLI_CONS f.client 1)) ∧
    RegsKept .host [HST_CLI_CONS f.client 1, HST_CLI_CNT_VER_FETCHED f.client] s t ∧ Kept [.host] s t) ∧
  ∀ (c : Fin 1024) (desc : BitVec 512) (late : Nat) (s : State),
    let bs := leBytes 64 desc.toNat
    let ch := leAt bs 2 1
    let d := Desc.ofBytes bs (leAt bs 4 2) 0 false
    let i := s.rd .host (HST_CLI_CONS c 4)
    let waits := ch < 64 ∧ 64 ≤ (s.dmaCh ch).queue.length ∨
      (s.rd .host (HST_CLI_Q_DESC c)).toNat ≤ (s.rd .host (HST_CLI_USE_DESC c)).toNat ∨ tagFree s none = false
    (waits ∨ ringOn s c 4 = false ∨ s.host.up = false ∨ ringUsed s c 4 = 0 →
      Sys2Proof.Machine.exec (.descFetch c desc late) s = .next s) ∧
    (¬ waits → ringOn s c 4 = true → s.host.up = true → ringUsed s c 4 ≠ 0 → ∃ t,
      Sys2Proof.Machine.exec (.descFetch c desc late) s = .next t ∧ t.rd .host (HST_CLI_CONS c 4) = i + 1#32 ∧
      (descStatus s ch bs d c none = 0 →
        (t.dmaCh ch).queue = (s.dmaCh ch).queue ++ [{ d with serial := (s.rd .dma (DMA_CH_SERIAL ch)).toNat }] ∧
        t.rd .dma (DMA_CH_SERIAL ch) = s.rd .dma (DMA_CH_SERIAL ch) + 1#32 ∧
        t.rd .host (HST_CLI_USE_DESC c) = s.rd .host (HST_CLI_USE_DESC c) + 1#32 ∧
        RegsKept .dma [DMA_CH_SERIAL ch, DMA_CH_STATUS ch] s t) ∧
      (descStatus s ch bs d c none ≠ 0 → t.dma = s.dma ∧ t.flag .host (HST_CLI_STATUS c) 4 = true ∧
        t.rd .host (HST_CLI_CNT_DESC_REJ c) = satAdd (s.rd .host (HST_CLI_CNT_DESC_REJ c)) 1) ∧
      Kept [.host, .dma] s t)

/-- A submission stores its code, status 9 where the descriptor or a chain cannot be read: one that passes joins the engine's queue, a refused one only sets the flag.  A free engine takes its
oldest job; one that continues a stream no compression left open with SYNC_END, or continues in decompression, ends at once with E_STATE.  A running job that ends leaves the engine free, its queue as it was
and its end counted; data that cannot be read give status 9; a decompressed output that fits one buffer is written there, with
the status in the result record.  FLUSH asks a running compression to end its block, each once more, else sets the refusal flag.  ABORT ends the running and every waiting
job as failed and closes the stream. -/
def Obligations.CompressionJobsRunInOrder : Prop :=
  (∀ (e : Fin 4) (v : Word) (s : State),
    let a := (s.store .cmp (CMP_SUBMIT_HI e) v).rd64 .cmp (CMP_SUBMIT_LO e) (CMP_SUBMIT_HI e)
    let b := ergRead s a 64
    let d := (s.store .cmp (CMP_SUBMIT_HI e) v).meetSpans [(a, 64)]
    let c := if d.2 then d else d.1.meetSpans (CmpJob.ofBytes b).chains
    let code := if c.2 then 9 else cmpStatus s e b
    ∃ t, Sys2Proof.Machine.exec (.cmpSubmit e v) s = .next t ∧
      t.fld .cmp (CMP_STATUS e) 7 0 = code % 256 ∧
      (code = 0 → t.cmpU e = { s.cmpU e with queue := (s.cmpU e).queue ++ [CmpJob.ofBytes b] } ∧
        t.flag .cmp (CMP_STATUS e) 27 = s.flag .cmp (CMP_STATUS e) 27) ∧
      (code ≠ 0 → t.cmpU e = s.cmpU e ∧ t.flag .cmp (CMP_STATUS e) 27 = true) ∧
      t.erg.mem = s.erg.mem ∧ RegsKept .cmp [CMP_SUBMIT_HI e, CMP_STATUS e] s t ∧ Kept [.cmp, .erg, .flt] s t) ∧
  (∀ (e : Fin 4) (s : State),
    let u := s.cmpU e
    let sync := u.opened.any (fun o => o.1)
    (u.running ≠ none ∨ u.queue = [] → Sys2Proof.Machine.exec (.cmpJobStart e) s = .next s) ∧
    (∀ j rest, u.running = none → u.queue = j :: rest →
      (j.cont = false ∨ j.mode ≠ 1 ∧ sync = true → ∃ t, Sys2Proof.Machine.exec (.cmpJobStart e) s = .next t ∧
        t.cmpU e = { u with queue := rest, running := some j, flushes := 0 } ∧
        t.fld .cmp (CMP_STATUS e) 31 30 = 1 ∧ RegsKept .cmp [CMP_STATUS e] s t ∧ Kept [.cmp] s t) ∧
      (j.cont = true → j.mode = 1 ∨ sync = false → ∃ t, Sys2Proof.Machine.exec (.cmpJobStart e) s = .next t ∧
        (t.cmpU e).queue = rest ∧ (t.cmpU e).running = none ∧ (t.cmpU e).opened = noSync u.opened ∧
        t.rd .cmp (CMP_CNT_FAIL e) = satAdd (s.rd .cmp (CMP_CNT_FAIL e)) 1 ∧ Kept [.cmp, .erg, .evt] s t))) ∧
  (∀ (e : Fin 4) (raw : List Byte) (s : State),
    let u := s.cmpU e
    (u.running = none → Sys2Proof.Machine.exec (.cmpJobEnd e raw) s = .next s) ∧
    ∀ j, u.running = some j →
      let c := s.meetSpans j.chains
      let d := if c.2 then c else c.1.meetSpans (j.sources s)
      let bad := d.2
      let x := decompressJob j ((j.sources s).flatMap (fun p => ergRead s p.1 p.2))
      ∃ t, Sys2Proof.Machine.exec (.cmpJobEnd e raw) s = .next t ∧ (t.cmpU e).running = none ∧
        (t.cmpU e).queue = u.queue ∧ (t.cmpU e).flushes = 0 ∧ t.flag .cmp (CMP_CTRL e) 31 = false ∧
        t.rd .cmp (CMP_CNT_JOBS e) = satAdd (s.rd .cmp (CMP_CNT_JOBS e)) 1 ∧
        (bad = true → stackOk s (stackOf j.result) = true →
          ergByte t j.result = 9#8 ∧ t.rd .cmp (CMP_CNT_FAIL e) = satAdd (s.rd .cmp (CMP_CNT_FAIL e)) 1) ∧
        (bad = false → j.mode = 1 → j.wadiN = 0 → x.out.length ≤ j.dstLen →
          j.dst + x.out.length ≤ j.result ∨ j.result + 32 ≤ j.dst →
          (stackOk s (stackOf j.dst) = true → ergRead t j.dst x.out.length = x.out) ∧
          (stackOk s (stackOf j.result) = true → ergByte t j.result = BitVec.ofNat 8 x.status) ∧
          (t.cmpU e).opened = noSync u.opened) ∧
        RegsKept .cmp [CMP_CTRL e, CMP_STATUS e, CMP_CNT_JOBS e, CMP_CNT_FAIL e, CMP_CNT_VERIFY e] s t ∧
        Kept [.cmp, .erg, .evt, .flt] s t) ∧
  (∀ (e : Fin 4) (s : State),
    (∀ j, (s.cmpU e).running = some j → j.mode = 0 → ∃ t, Sys2Proof.Machine.exec (.cmpFlush e) s = .next t ∧
      t.cmpU e = { s.cmpU e with flushes := (s.cmpU e).flushes + 1 } ∧ (∀ k, k ≠ e.val → t.cmpU k = s.cmpU k) ∧
      RegsKept .cmp [] s t ∧ Kept [.cmp] s t) ∧
    ((∀ j, (s.cmpU e).running = some j → j.mode ≠ 0) →
      Sys2Proof.Machine.exec (.cmpFlush e) s = .next (s.setb .cmp (CMP_STATUS e) 28 true))) ∧
  ∀ (e : Fin 4) (s : State), ∃ t, Sys2Proof.Machine.exec (.cmpAbort e) s = .next t ∧ (t.cmpU e).queue = [] ∧
    (t.cmpU e).running = none ∧ (t.cmpU e).opened = none ∧
    (let n := (s.cmpU e).running.toList.length + (s.cmpU e).queue.length
     t.rd .cmp (CMP_CNT_JOBS e) = satAdd (s.rd .cmp (CMP_CNT_JOBS e)) n ∧
     t.rd .cmp (CMP_CNT_FAIL e) = satAdd (s.rd .cmp (CMP_CNT_FAIL e)) n) ∧
    (∀ k, k ≠ e.val → t.cmpU k = s.cmpU k) ∧ t.fld .cmp (CMP_STATUS e) 31 30 = 0 ∧ Kept [.cmp, .erg, .evt] s t

/-- A route of a reserved ID does not exist.  A route that names, or would name, a locked channel stays and marks it; another is stored.  A host publication on a channel an image owns, without
HOST_PUB or locked only sets its flag; else the event joins the bus with TB.  A control write that changes HOST_PUB or SPAN of a locked
channel only marks it; LOCK locks and leaves both.  Once its fabric cycle is over (cycle TB / 2, the model's reading, log 44) one event enters, up to 8 wait in the order of R324, the rest are counted
as dropped.  Delivery shows argument, stamp and source, counts, and tells every cell, unless LIMIT is reached: then it is
counted as dropped.  WATCH marks a silent channel once its period is over. -/
def Obligations.EventsEnterAndReachConsumers : Prop :=
  (∀ (id : Fin 640) (v : Word) (s : State),
    let old := s.rd .evt (EVT_PROD id)
    let locked (w : Word) (c : Nat) := bit w 31 = true ∧ bits w 7 0 = c ∧ chLocked s c = true
    (prodIs id = false → Sys2Proof.Machine.exec (.evtProdWrite id v) s =
      .next (s.accessErr 2 (lo32 (EVT_PROD id)) 0#32)) ∧
    (prodIs id = true → (bit old 31 && chLocked s (bits old 7 0)) = false → (bit v 31 && chLocked s (bits v 7 0)) = false →
      Sys2Proof.Machine.exec (.evtProdWrite id v) s = .next (({ s with evt := { s.evt with
        routeWas := Tab.set (fun _ => (0, 0#32)) s.evt.routeWas id (s.now / 2 + 1, routeNow s id) } } : State).store
        .evt (EVT_PROD id) v)) ∧
    (∀ c : Nat, prodIs id = true → locked old c ∨ locked v c → ∃ t,
      Sys2Proof.Machine.exec (.evtProdWrite id v) s = .next t ∧ t.flag .evt (EVT_CH_STATUS c) 4 = true ∧
      t.rd .evt (EVT_PROD id) = old ∧ t.evt = { s.evt with regs := t.evt.regs } ∧ Kept [.evt] s t)) ∧
  (∀ (v : Word) (s : State),
    let c := bits v 7 0
    let refused := (s.flag .evt (EVT_CH_CTRL c) 31 && !s.flag .evt (EVT_CH_CTRL c) 29) || chLocked s c
    (refused = true → Sys2Proof.Machine.exec (.evtPub v) s = .next (s.setb .evt (EVT_CH_STATUS c) 3 true)) ∧
    (refused = false → ∃ t, Sys2Proof.Machine.exec (.evtPub v) s = .next t ∧
      t.evt = { s.evt with bus := s.evt.bus ++ [⟨0x3000, c, s.rd .evt EVT_PUB_ARG, s.now, 0x3FF, s.now / 2⟩] } ∧
      Kept [.evt] s t)) ∧
  (∀ (c : Fin 256) (v : Word) (s : State),
    (chLocked s c = true → s.fld .evt (EVT_CH_CTRL c) 29 28 ≠ bits v 29 28 →
      Sys2Proof.Machine.exec (.evtChCtrlWrite c v) s = .next (s.setb .evt (EVT_CH_STATUS c) 4 true)) ∧
    (chLocked s c = false ∨ s.fld .evt (EVT_CH_CTRL c) 29 28 = bits v 29 28 → ∃ t,
      Sys2Proof.Machine.exec (.evtChCtrlWrite c v) s = .next t ∧ t.fld .evt (EVT_CH_CTRL c) 29 28 = bits v 29 28 ∧
      chLocked t c = (chLocked s c || bit v 30) ∧ t.flag .evt (EVT_CH_CTRL c) 31 = s.flag .evt (EVT_CH_CTRL c) 31 ∧
      t.fld .evt (EVT_CH_CTRL c) 19 16 = s.fld .evt (EVT_CH_CTRL c) 19 16 ∧
      t.evt = { s.evt with regs := t.evt.regs } ∧ RegsKept .evt [EVT_CH_CTRL c] s t ∧ Kept [.evt] s t) ∧
    ∃ t, Sys2Proof.Machine.exec (.evtLock c) s = .next t ∧ chLocked t c = true ∧
      t.fld .evt (EVT_CH_CTRL c) 29 28 = s.fld .evt (EVT_CH_CTRL c) 29 28 ∧ RegsKept .evt [EVT_CH_CTRL c] s t ∧
      Kept [.evt] s t) ∧
  (∀ (c : Fin 256) (v : Word) (s : State), ∃ t, Sys2Proof.Machine.exec (.evtRateWrite c v) s = .next t ∧
    t.rd .evt (EVT_CH_RATE c) = v ∧ RegsKept .evt [EVT_CH_RATE c] s t ∧ t.evt.bus = s.evt.bus ∧
    (let from' := if s.fld .evt (EVT_CH_RATE c) 15 0 = bits v 15 0 then (evtCh s c).watchFrom else s.now
     evtCh t c = { evtCh s c with watchFrom := from' }) ∧ Kept [.evt] s t) ∧
  (∀ (c : Fin 256) (s : State),
    ((enterCycle s c).all (fun k => decide (fabricNow s ≤ k)) = true → Sys2Proof.Machine.exec (.eventEnter c) s = .next s) ∧
    (∀ k, enterCycle s c = some k → k < fabricNow s → ∃ t, Sys2Proof.Machine.exec (.eventEnter c) s = .next t ∧
      (let l := (evtCh s c).waiting ++ evtArrivals s c k
       evtCh t c = { evtCh s c with
         waiting := (l.drop 1).take 8, entered := (evtCh s c).entered ++ l.take 1, cycle := k + 1 } ∧
       t.evt.bus = s.evt.bus.filter (fun e => !(e.ch == c.val && decide (e.cyc ≤ k))) ∧
       t.rd .evt (EVT_CNT_DROP c) = satAdd (s.rd .evt (EVT_CNT_DROP c)) (l.length - 9) ∧
       t.flag .evt (EVT_CH_STATUS c) 0 = (s.flag .evt (EVT_CH_STATUS c) 0 || decide (9 < l.length))) ∧
      RegsKept .evt [EVT_CNT_DROP c, EVT_CH_STATUS c] s t ∧ Kept [.evt] s t)) ∧
  (∀ (c : Fin 256) (s : State),
    ((evtCh s c).entered = [] → Sys2Proof.Machine.exec (.eventDeliver c) s = .next s) ∧
    (∀ e es, (evtCh s c).entered = e :: es → e.ch = c →
      let w := s.now / 1000000
      let n := if (evtCh s c).window = w then (evtCh s c).inWindow else 0
      let limit := s.fld .evt (EVT_CH_RATE c) 31 16
      (0 < limit ∧ limit ≤ n → ∃ t, Sys2Proof.Machine.exec (.eventDeliver c) s = .next t ∧
        evtCh t c = { evtCh s c with entered := es } ∧ t.flag .evt (EVT_CH_STATUS c) 2 = true ∧
        t.rd .evt (EVT_CNT_RATE_DROP c) = satAdd (s.rd .evt (EVT_CNT_RATE_DROP c)) 1 ∧
        RegsKept .evt [EVT_CH_STATUS c, EVT_CNT_RATE_DROP c] s t ∧ Kept [.evt] s t) ∧
      (limit = 0 ∨ n < limit → ∃ t, Sys2Proof.Machine.exec (.eventDeliver c) s = .next t ∧
        evtCh t c = { evtCh s c with entered := es, window := w, inWindow := n + 1, watchFrom := s.now } ∧
        t.rd .evt (EVT_CH_ARG c) = e.arg ∧ t.rd64 .evt (EVT_CH_TB_LO c) (EVT_CH_TB_HI c) = e.stamp % 2 ^ 64 ∧
        t.rd .evt (EVT_CH_SRC c) = BitVec.ofNat 32 e.src ∧ t.flag .evt (EVT_CH_STATUS c) 1 = false ∧
        t.rd .evt (EVT_CNT_EVENTS c) = satAdd (s.rd .evt (EVT_CNT_EVENTS c)) 1 ∧
        (∀ k, k < 32 → c.val ∈ (evtCell t k).hits) ∧ Kept [.cvn, .evt, .mot, .pwm, .seq] s t))) ∧
  ∀ (c : Fin 256) (s : State),
    let w := s.fld .evt (EVT_CH_RATE c) 15 0
    let due := 0 < w ∧ s.flag .evt (EVT_CH_STATUS c) 1 = false ∧ (evtCh s c).watchFrom + w * 1000 ≤ s.now
    (¬ due → Sys2Proof.Machine.exec (.evtWatchExpire c) s = .next s) ∧
    (due → ∃ t, Sys2Proof.Machine.exec (.evtWatchExpire c) s = .next t ∧ t.flag .evt (EVT_CH_STATUS c) 1 = true ∧
      t.evt.bus = (if bit (routeNow s 0x237) 31 then s.evt.bus ++
        [⟨0x237, bits (routeNow s 0x237) 7 0, BitVec.ofNat 32 c, s.now, 0x237, s.now / 2⟩] else s.evt.bus) ∧
      RegsKept .evt [EVT_CH_STATUS c] s t ∧ Kept [.evt] s t)

/-- A cell that is off, or has been evaluated in this fabric cycle, is left alone (a register written in a cycle acts from the next one).  One that EN has turned on starts from 0.  Else its y follows from the truth table's bit for its four
inputs and its function; OUT takes y once y has differed from it for FILTER + 1 cycles in succession, and the status shows OUT;
the events that had reached it are used up, and a change that is routed is published.  A cell is marked stuck when OUT has been 1
for longer than its time, not before. -/
def Obligations.LogicCellsEvaluate : Prop :=
  ∀ (k : Fin 32) (s : State),
    let cyc := fabricNow s
    let e := evtCell s k
    let x := if e.cleared cyc then { CellSt.init with was := e.was } else e
    let a := (cellRegs s k cyc).1
    let b := (cellRegs s k cyc).2.1
    let c := (cellRegs s k cyc).2.2
    let i0 := cellInput s k cyc (bits a 11 0)
    let i1 := cellInput s k cyc (bits a 27 16)
    let i2 := cellInput s k cyc (bits b 11 0)
    let i3 := cellInput s k cyc (bits b 27 16)
    let l := bit c (8 * b2n i3 + 4 * b2n i2 + 2 * b2n i1 + b2n i0)
    let y := cellY (bits c 30 29) x l i3
    (bit c 31 = false ∨ cyc ≤ e.cyc → Sys2Proof.Machine.exec (.cellEval k) s = .next s) ∧
    (bit c 31 = true → e.cyc < cyc → ∃ t, Sys2Proof.Machine.exec (.cellEval k) s = .next t ∧
      (evtCell t k).y = y ∧ (evtCell t k).prevL = l ∧ (evtCell t k).hits = [] ∧ (evtCell t k).cyc = cyc ∧
      (evtCell t k).outPrev = cellOutBefore s k cyc ∧ (evtCell t k).clearAt = none ∧
      (y ≠ x.out → bits c 26 19 ≤ x.held → (evtCell t k).out = y ∧ (evtCell t k).held = 0) ∧
      (y ≠ x.out → x.held < bits c 26 19 → (evtCell t k).out = x.out ∧ (evtCell t k).held = x.held + 1) ∧
      (y = x.out → (evtCell t k).out = x.out ∧ (evtCell t k).held = 0 ∧ t.evt.bus = s.evt.bus) ∧
      t.flag .evt (EVT_CELL_STATUS k) 0 = (evtCell t k).out ∧ (∀ j, j ≠ k.val → evtCell t j = evtCell s j) ∧
      RegsKept .evt [EVT_CELL_STATUS k] s t ∧ Kept [.evt] s t) ∧
    (let ms := s.fld .evt (EVT_CELL_STUCK k) 7 0
     let due := !e.cleared cyc && e.since.any (fun at_ => decide (0 < ms ∧ at_ + ms * 1000000 < s.now))
     (due = true → Sys2Proof.Machine.exec (.cellStuck k) s = .next (s.setb .evt (EVT_CELL_STATUS k) 2 true)) ∧
     (due = false → Sys2Proof.Machine.exec (.cellStuck k) s = .next s))

/-- A port without a link sends nothing, and one without a ready cell that has credit sends a fill block; else the first by the order of R340 leaves with its stamp,
counts against the credit of its lane unless it is a SYNC cell, and is noted as last sent.  After 500 ns of silence one SYNC cell is queued.  A
received cell with a bad header counts and changes nothing else; so does one of a reserved class, which shows that the link lives.  With a good header its credit fields are taken; a bad
cell CRC or 48 hops count, free the buffer and go no further; a unicast cell for this device is kept with its buffer; one without a route counts and
frees its buffer.  (Cases with an event waiting for export are left to that rule.) -/
def Obligations.CaravanCellsLeaveAndArrive : Prop :=
  (∀ (p : Fin 4) (fine : Byte) (s : State),
    let x := cvPort s p
    (cvActive s p = false → Sys2Proof.Machine.exec (.cvnCellTx p fine) s = .next s) ∧
    (cvActive s p = true → txNext s p = none → ∃ t, Sys2Proof.Machine.exec (.cvnCellTx p fine) s = .next t ∧
      t = s.spanBlocks p [] ∧ (t.lnkPort (24 + p)).sinceFill = 0 ∧ Kept [.lnk] s t) ∧
    (∀ e, cvActive s p = true → txNext s p = some e → s.cvn.evtWait = none → ∃ t,
      Sys2Proof.Machine.exec (.cvnCellTx p fine) s = .next t ∧ (cvPort t p).out = x.out.erase e ∧
      (cvPort t p).lastTx = s.now ∧ (cvPort t p).lastGood = x.lastGood ∧
      (e.cell.pay ≠ [] →
        (cvPort t p).sent = cellBlocks ((e.cell.stamped (stamp256 s fine)).bytes x.freedReq x.freedRsp)) ∧
      (cvPort t p).sentReq =
        (if e.cell.cls ≠ 0 ∧ e.cell.resp = false then (x.sentReq + 1) % 256 else x.sentReq) ∧
      (cvPort t p).sentRsp =
        (if e.cell.cls ≠ 0 ∧ e.cell.resp = true then (x.sentRsp + 1) % 256 else x.sentRsp) ∧
      (∀ q, q ≠ p.val → (cvPort t q).out = (cvPort s q).out) ∧ RegsKept .cvn [] s t ∧ RegsKept .lnk [] s t ∧ BlocksKept [.cvn, .lnk] s t)) ∧
  (∀ (p : Fin 4) (s : State),
    let x := cvPort s p
    let due := cvActive s p = true ∧ x.lastTx + 500 ≤ s.now ∧ x.out.any (fun e => e.cell.cls == 0) = false
    (¬ due → Sys2Proof.Machine.exec (.cvnIdleSync p) s = .next s) ∧
    (due → ∃ t, Sys2Proof.Machine.exec (.cvnIdleSync p) s = .next t ∧
      cvPort t p = { x with out := x.out ++ [⟨newCell s 0 false false 0 (syncPay s 0 0 0) .plain, none⟩] } ∧
      (∀ q, q ≠ p.val → cvPort t q = cvPort s q) ∧ RegsKept .cvn [] s t ∧ Kept [.cvn] s t)) ∧
  (∀ (p : Fin 4) (msg : CvnMsg) (fine : Byte) (s : State), cvActive s p = false ∨ (s.lnkPort (24 + p)).cells = [] →
    Sys2Proof.Machine.exec (.cvnCellRx p msg fine) s = .next s) ∧
  ∀ (p : Fin 4) (msg : CvnMsg) (fine : Byte) (s : State) (bs : List Byte) (rest : List (List Byte)),
    cvActive s p = true → (s.lnkPort (24 + p)).cells = bs :: rest →
    let u := s.onLnk (24 + p) (fun x => { x with cells := rest })
    let c := Cell.ofBytes bs msg
    let goodHead := crc8 (bs.take 7) = leAt bs 7 1 ∧ c.cls < 6
    let goodCrc := crc32c (bs.take 60) = leAt bs 60 4
    let route := (tableFor s c.gen0).bind (fun t => cvRoute s t c.dst)
    let taken (t : State) := (cvPort t p).lastGood = s.now ∧ (cvPort t p).ackReq = leAt bs 5 1 ∧
      (cvPort t p).ackRsp = leAt bs 6 1
    let freed (t : State) := (cvPort t p).freedReq =
        (if c.cls = 0 ∨ c.resp = true then (cvPort s p).freedReq else ((cvPort s p).freedReq + 1) % 256) ∧
      (cvPort t p).freedRsp =
        (if c.cls ≠ 0 ∧ c.resp = true then ((cvPort s p).freedRsp + 1) % 256 else (cvPort s p).freedRsp)
    let counts (t : State) (a : Nat) := t.rd .cvn a = satAdd (s.rd .cvn a) 1 ∧ RegsKept .cvn [a] s t
    (crc8 (bs.take 7) ≠ leAt bs 7 1 →
      Sys2Proof.Machine.exec (.cvnCellRx p msg fine) s = .next (u.count .cvn CVN_CNT_HDR_CRC)) ∧
    (crc8 (bs.take 7) = leAt bs 7 1 → 6 ≤ c.cls →
      Sys2Proof.Machine.exec (.cvnCellRx p msg fine) s =
        .next ((u.onCv p (fun x => { x with lastGood := s.now })).count .cvn CVN_CNT_HDR_CRC)) ∧
    (goodHead → s.cvn.evtWait = none →
      (¬ goodCrc → ∃ t, Sys2Proof.Machine.exec (.cvnCellRx p msg fine) s = .next t ∧
        counts t CVN_CNT_CELL_CRC ∧ taken t ∧ freed t ∧ t.cvn.inbox = s.cvn.inbox ∧ (t.lnkPort (24 + p)).cells = rest ∧ Kept [.cvn, .lnk] s t) ∧
      (goodCrc → 48 ≤ c.hops → ∃ t, Sys2Proof.Machine.exec (.cvnCellRx p msg fine) s = .next t ∧
        counts t CVN_CNT_HOPS ∧ taken t ∧ freed t ∧ t.cvn.inbox = s.cvn.inbox ∧ (t.lnkPort (24 + p)).cells = rest ∧ Kept [.cvn, .lnk] s t) ∧
      (goodCrc → c.hops < 48 → c.cls = 2 ∨ c.cls = 4 →
        (route = some none → ∃ t, Sys2Proof.Machine.exec (.cvnCellRx p msg fine) s = .next t ∧ taken t ∧
          t.cvn.inbox = s.cvn.inbox ++ [⟨p, c, some (p, c.resp, s.cvn.rxNo)⟩] ∧ t.cvn.rxNo = s.cvn.rxNo + 1 ∧
          RegsKept .cvn [] s t ∧ (t.lnkPort (24 + p)).cells = rest ∧ Kept [.cvn, .lnk] s t) ∧
        (∀ q, route = some (some q) → ∃ t, Sys2Proof.Machine.exec (.cvnCellRx p msg fine) s = .next t ∧ taken t ∧
          t.cvn.inbox = s.cvn.inbox ∧ (cvPort t q).out = (cvPort s q).out ++
            [⟨{ c with hops := c.hops + 1 }, some (p, c.resp, s.cvn.rxNo)⟩] ∧ RegsKept .cvn [] s t ∧ (t.lnkPort (24 + p)).cells = rest ∧ Kept [.cvn, .lnk] s t) ∧
        (route = none → bufHeld s (p, c.resp, s.cvn.rxNo) = false → ∃ t,
          Sys2Proof.Machine.exec (.cvnCellRx p msg fine) s = .next t ∧ counts t CVN_CNT_NOROUTE ∧ taken t ∧
          freed t ∧ t.cvn.inbox = s.cvn.inbox ∧ (t.lnkPort (24 + p)).cells = rest ∧ Kept [.cvn, .lnk] s t)))

/-- On an uplink with a link a SYNC request is queued once its period is over, and its time noted; a request received is answered once.  A
completed exchange stores the delay and the time; only on the UP port does it set the offset, and only with DISC on does it touch TB: LOCKED
and within 10 us it sets the rate and leaves TB alone; LOCKING, an offset of 1 us or more ahead makes TB jump by it.  Without a valid
exchange on any uplink for 4 periods a disciplined TB goes to HOLDOVER at the mean rate.  The rounding of the offset, the delay and the rate
is the model's reading (log 48). -/
def Obligations.TimeTransferDisciplinesTb : Prop :=
  (∀ (p : Fin 4) (s : State),
    let x := cvPort s p
    let due := (uplinks s).contains p.val = true ∧ cvLink s p = true ∧
      x.reqAt.all (fun at_ => decide (at_ + s.fld .cvn CVN_SYNC 15 0 * 1000 ≤ s.now)) = true
    (¬ due → Sys2Proof.Machine.exec (.syncReqSend p) s = .next s) ∧
    (due → ∃ t, Sys2Proof.Machine.exec (.syncReqSend p) s = .next t ∧
      (let req := newCell s 0 false false 0 (syncPay s 1 0 0) .plain
       cvPort t p = { x with out := x.out ++ [⟨req, none⟩], reqAt := some s.now }) ∧ RegsKept .cvn [] s t ∧
      Kept [.cvn] s t) ∧
    (x.answer = none → Sys2Proof.Machine.exec (.syncReqRx p) s = .next s) ∧
    (∀ t1 t2, x.answer = some (t1, t2) → ∃ t, Sys2Proof.Machine.exec (.syncReqRx p) s = .next t ∧
      (let rsp := newCell s 0 false false 0 (syncPay s 2 t1 t2) .plain
       cvPort t p = { x with out := x.out ++ [⟨rsp, none⟩], answer := none }) ∧ RegsKept .cvn [] s t ∧ Kept [.cvn] s t)) ∧
  (∀ (p : Fin 4) (s : State),
    ((cvPort s p).rsp = none → Sys2Proof.Machine.exec (.syncExchange p) s = .next s) ∧
    (∀ t1 t2 t3 t4, (cvPort s p).rsp = some (t1, t2, t3, t4) →
      let fwd : Int := (t2 : Int) - t1
      let back : Int := (t4 : Int) - t3
      let th := (fwd - back) * 1000 - (s.rd .cvn (CVN_PORT_ASYM p)).toInt * 512
      let disc := s.cvn.cur.up = some p.val ∧ s.flag .time HST_TB_CTRL 0 = true
      ∃ t, Sys2Proof.Machine.exec (.syncExchange p) s = .next t ∧
        cvPort t p = { cvPort s p with rsp := none, t1 := none, lastEx := some s.now } ∧
        t.rd .cvn (CVN_PORT_DELAY p) = BitVec.ofInt 32 (clampInt 0 0xFFFFFFFF ((fwd + back) / 512)) ∧
        (s.cvn.cur.up ≠ some p.val → RegsKept .cvn [CVN_PORT_DELAY p] s t ∧ Kept [.cvn] s t) ∧
        (s.cvn.cur.up = some p.val → t.rd .cvn CVN_OFFSET =
          BitVec.ofInt 32 (clampInt (-2147483648) 2147483647 (idivRound th 512000))) ∧
        (¬ disc → t.time = s.time) ∧
        (disc → s.fld .time HST_TB_STATUS 1 0 = 2 → th.natAbs ≤ 10000 * 512000 → t.now = s.now ∧
          t.fld .time HST_TB_STATUS 1 0 = 2 ∧ RegsKept .time [HST_TB_RATE] s t) ∧
        (disc → s.fld .time HST_TB_STATUS 1 0 ≠ 2 → s.flag .time HST_TB_STATUS 3 = false → 1000 * 512000 ≤ th →
          t.now = s.now + (idivRound th 512000).toNat ∧ t.fld .time HST_TB_STATUS 1 0 = 1 ∧
          t.rd .time HST_TB_RATE = s.rd .time HST_TB_RATE) ∧ Kept [.cvn, .time] s t)) ∧
  ∀ s : State,
    let on := s.flag .time HST_TB_CTRL 0 = true ∧
      (s.fld .time HST_TB_STATUS 1 0 = 1 ∨ s.fld .time HST_TB_STATUS 1 0 = 2)
    ((uplinks s).any (fun p => syncFresh s p) = true ∨ ¬ on → Sys2Proof.Machine.exec .tbHoldover s = .next s) ∧
    ((uplinks s).any (fun p => syncFresh s p) = false → on → ∃ t, Sys2Proof.Machine.exec .tbHoldover s = .next t ∧
      t.fld .time HST_TB_STATUS 1 0 = 3 ∧ t.rd .time HST_TB_RATE = (clipRate (BitVec.ofInt 32 (rateF s))).1 ∧
      t.rd .cvn CVN_RATE_F = BitVec.ofInt 32 (rateF s) ∧ t.now = s.now ∧
      RegsKept .time [HST_TB_STATUS, HST_TB_RATE] s t ∧ RegsKept .cvn [CVN_RATE_F] s t ∧ Kept [.time, .cvn] s t)

/-- A port that is not ACTIVE has no link to lose; silence that is not yet 1.5 us changes nothing.  A lost link leaves routing, its credits and exchange
start anew, it is reported and a CHANGE is owed, and its lane goes to RECOVER.  The loss of the reference clock puts the four span
ports to OFF with cause 14, takes the links of those in ACTIVE out of routing and is reported, and a disciplined TB goes to HOLDOVER; its return lets each enabled port enter DETECT with k = 0 unless STANDBY or a fatal fault keeps it in OFF.  A REROUTE
on its way up installs an override towards the port it came on, newest first, at most 16; a broadcast one installs one towards UP,
unless one stands.  A message the port does not hold changes nothing.  To whom a CHANGE is owed without an UP port is the model's choice (log 47). -/
def Obligations.SpanLinksFailAndReroute : Prop :=
  (∀ (p : Fin 4) (how : SpanLoss) (s : State),
    let quiet := max (cvPort s p).lastGood (s.phyPort (24 + p)).entered + 1500 ≤ s.now
    (cvActive s p = false ∨ how = .silence ∧ ¬ quiet → Sys2Proof.Machine.exec (.cvnLinkLost p how) s = .next s) ∧
    (cvActive s p = true → how ≠ .silence ∨ quiet → ∃ t, Sys2Proof.Machine.exec (.cvnLinkLost p how) s = .next t ∧
      t.flag .cvn (CVN_PORT_STATUS p) 29 = false ∧ t.flag .cvn CVN_STATUS 1 = true ∧ (cvPort t p).sentReq = 0 ∧
      (cvPort t p).sentRsp = 0 ∧ (cvPort t p).t1 = none ∧ (cvPort t p).synced = false ∧
      (s.flag .cvn (CVN_PORT_STATUS p) 29 = true →
        (cvPort t p).before = some (s.fld .cvn (CVN_PORT_STATUS p) 27 16, (cvPort s p).nbrGen)) ∧
      t.cvn.changeOwed = true ∧ t.flag .flt FLT_STATUS 30 = true ∧
      portState t (24 + p) = phRecover ∧ BlocksKept [.cvn, .evt, .flt, .phy, .lnk, .time] s t)) ∧
  (∀ s : State,
    (refOk s 24 = false → Sys2Proof.Machine.exec .cvRefclkLoss s = .next s) ∧
    (refOk s 24 = true → ∃ t, Sys2Proof.Machine.exec .cvRefclkLoss s = .next t ∧
      (∀ p, p < 4 → refOk t (24 + p) = false ∧ portState t (24 + p) = phOff ∧
        t.fld .phy (phyStatus (24 + p)) 27 24 = 14 ∧
        (portState s (24 + p) = phActive → t.flag .cvn (CVN_PORT_STATUS p) 29 = false ∧ t.cvn.changeOwed = true)) ∧ t.flag .flt FLT_STATUS 30 = true ∧
      (s.flag .time HST_TB_CTRL 0 = true → s.fld .time HST_TB_STATUS 1 0 = 2 →
        t.fld .time HST_TB_STATUS 1 0 = 3) ∧ t.now = s.now ∧
      BlocksKept [.cvn, .evt, .flt, .phy, .lnk, .time] s t) ∧
    (refOk s 24 = true → Sys2Proof.Machine.exec .cvRefclkReturn s = .next s) ∧
    (refOk s 24 = false → ∃ t, Sys2Proof.Machine.exec .cvRefclkReturn s = .next t ∧
      (∀ p, p < 4 → refOk t (24 + p) = true ∧
        (s.flag .phy (phyCtrl (24 + p)) 31 = true → portState s (24 + p) = phOff → dstate s ≠ 2 → dstate s ≠ 4 →
          portState t (24 + p) = phDetect ∧ t.fld .phy (phyBackoff (24 + p)) 3 0 = 0) ∧
        (s.flag .phy (phyCtrl (24 + p)) 31 = false → portState t (24 + p) = portState s (24 + p))) ∧
      BlocksKept [.phy, .lnk] s t)) ∧
  ∀ (p : Fin 4) (s : State),
    let held := s.oldest p (fun m => match m with | .reroute _ _ => true | _ => false)
    (held = none → Sys2Proof.Machine.exec (.reroute p) s = .next s) ∧
    ∀ e lo hi, held = some e → e.cell.msg = .reroute lo hi → ∃ t, Sys2Proof.Machine.exec (.reroute p) s = .next t ∧
      (e.cell.bcast = false → t.cvn.overrides =
        ((lo, hi, p.val) :: s.cvn.overrides.filter (fun o => o.1 != lo || o.2.1 != hi)).take 16) ∧
      (∀ u, e.cell.bcast = true → s.cvn.overrides.any (fun o => o.1 == lo && o.2.1 == hi) = false →
        s.cvn.cur.up = some u → t.cvn.overrides =
          ((lo, hi, u) :: s.cvn.overrides.filter (fun o => o.1 != lo || o.2.1 != hi)).take 16) ∧
      (e.cell.bcast = true → s.cvn.overrides.any (fun o => o.1 == lo && o.2.1 == hi) = true →
        t.cvn.overrides = s.cvn.overrides) ∧
      t.cvn.inbox = s.cvn.inbox.erase e ∧ t.cvn.cur = s.cvn.cur ∧ Kept [.cvn] s t

/-- SPAN_ENUM is refused off the root and while a pass runs; without START it does nothing; with it, and on its own when a CHANGE has waited its time, the
root counts a pass and probes its first active port.  An owed CHANGE goes to the root or towards it.  A PROBE is answered with what this
device knows of the pass; a TOKEN gives ID, depth and the UP port; a RETURN makes the walked port DOWN with its range; a probe
without answer for 100 us, and a branch that is gone, leave the port UNUSED, the latter making the pass unclean; NEXT moves past the
reservation of a port that gives no child.  A PROBE or TOKEN waits in its buffer for the credit of its answer.  PROGRESS goes to the parent
every 100 ms.  What is not due, or waits for nothing, changes nothing.  How a pass is told from another (its count and a free value) and what is
discarded of an unclean one are the model's choices (log 47). -/
def Obligations.EnumerationStartsAndWalks : Prop :=
  (∀ (s : State) (r : MbxRun), s.mbxWorks 0x20 r →
    let first := cvPorts.find? (fun p => cvActive s p)
    (isRoot s = false → Sys2Proof.Machine.exec .spanEnum s = .next (s.mbxEnded r 6 [])) ∧
    (isRoot s = true → s.flag .cvn CVN_STATUS 28 = true →
      Sys2Proof.Machine.exec .spanEnum s = .next (s.mbxEnded r 5 [])) ∧
    (isRoot s = true → s.flag .cvn CVN_STATUS 28 = false →
      (tbit (mbxArg s 0) 0 = false → Sys2Proof.Machine.exec .spanEnum s = .next (s.mbxEnded r 0 [])) ∧
      (tbit (mbxArg s 0) 0 = true → ∃ t : State, Sys2Proof.Machine.exec .spanEnum s = .next (t.mbxEnded r 0 []) ∧
        t.rd .cvn CVN_CNT_ENUM_PASS = satAdd (s.rd .cvn CVN_CNT_ENUM_PASS) 1 ∧ t.cvn.cur = s.cvn.cur ∧
        (∀ p, first = some p → t.flag .cvn CVN_STATUS 28 = true ∧ t.cvn.change = none ∧
          ∃ e, t.cvn.pass = some e ∧ e.port = p ∧ e.wait = .probe s.now ∧ e.parent = none ∧ e.next = 1 + portsResv (s.forgetResv (tbit (mbxArg s 0) 1)) (cvPorts.filter (fun q => decide (q < p))) ∧
            e.no / 2 ^ 64 = s.cvn.passes + 1 ∧ e.tab.gen = (s.fld .cvn CVN_GEN 15 0 + 1) % 65536 ∧
            e.renumber = tbit (mbxArg s 0) 1) ∧
        (tbit (mbxArg s 0) 1 = true → ∀ p, p < 4 → (cvPort t p).resv = 0) ∧
        (first = none → t.flag .cvn CVN_STATUS 28 = false ∧ t.cvn.pass = none) ∧ Kept [.cvn, .evt] s t))) ∧
  (∀ s : State,
    let due := isRoot s = true ∧ s.flag .cvn CVN_CTRL 30 = true ∧ s.flag .cvn CVN_STATUS 28 = false ∧
      s.cvn.change.any (fun c => decide (c + s.fld .cvn CVN_CTRL 23 16 * 1000000 ≤ s.now)) = true
    (¬ due → Sys2Proof.Machine.exec .enumAutoStart s = .next s) ∧
    (due → ∃ t, Sys2Proof.Machine.exec .enumAutoStart s = .next t ∧
      t.rd .cvn CVN_CNT_ENUM_PASS = satAdd (s.rd .cvn CVN_CNT_ENUM_PASS) 1 ∧
      (∀ p, cvPorts.find? (fun p => cvActive s p) = some p →
        ∃ e, t.cvn.pass = some e ∧ e.port = p ∧ e.wait = .probe s.now ∧ e.renumber = false) ∧
      Kept [.cvn, .evt] s t) ∧
    (s.cvn.changeOwed = false → Sys2Proof.Machine.exec .change s = .next s) ∧
    (s.cvn.changeOwed = true → ∃ t, Sys2Proof.Machine.exec .change s = .next t ∧ t.cvn.changeOwed = false ∧
      (isRoot s = true → t.cvn.change = some s.now ∧ t.cvn.port = s.cvn.port) ∧
      (∀ p, isRoot s = false → s.cvn.cur.up = some p → cvLink s p = true →
        (cvPort t p).out = (cvPort s p).out ++ [⟨newCell s 5 false false 0 [] .change, none⟩]) ∧
      RegsKept .cvn [] s t ∧ Kept [.cvn] s t)) ∧
  (∀ (p : Fin 4) (s : State),
    let held := s.oldest p (fun m => match m with | .probe _ _ => true | _ => false)
    (held = none ∨ rspCredit s p = false → Sys2Proof.Machine.exec (.probe p) s = .next s) ∧
    (∀ c g n, held = some c → rspCredit s p = true → c.cell.msg = .probe g n → ∃ t, Sys2Proof.Machine.exec (.probe p) s = .next t ∧
      (let known := s.cvn.pass.filter (fun e => e.no == n)
       let answer : CvnMsg := match known with
         | some e => .answerSeen e.tab.id e.tab.depth
         | none => if isRoot s then .answerConflict else .answerNew
       (cvPort t p).out = (cvPort s p).out ++ [⟨enumCell s true answer, none⟩] ∧
       t.flag .cvn CVN_STATUS 4 = (s.flag .cvn CVN_STATUS 4 || known.isNone && isRoot s) ∧
       t.cvn.pass = (if known.isSome || isRoot s then s.cvn.pass else none)) ∧
      t.cvn.inbox = s.cvn.inbox.erase c ∧ t.cvn.cur = s.cvn.cur ∧ Kept [.cvn] s t)) ∧
  (∀ (p : Fin 4) (s : State),
    let held := s.oldest p (fun m => match m with | .token _ _ _ _ _ => true | _ => false)
    (held = none ∨ rspCredit s p = false → Sys2Proof.Machine.exec (.token p) s = .next s) ∧
    (∀ c g n i d rn, held = some c → rspCredit s p = true → c.cell.msg = .token g n i d rn → ∃ t e, Sys2Proof.Machine.exec (.token p) s = .next t ∧
      t.cvn.pass = some e ∧ e.tab.gen = g ∧ e.no = n ∧ e.tab.id = i ∧ e.tab.depth = d ∧ e.tab.role p = 1 ∧ e.parent = some p.val ∧
      e.next = i + 1 + portsResv (s.forgetResv rn) (cvPorts.filter (fun q => decide (q < e.port) && q != p.val)) ∧ e.count = 1 ∧ e.clean = true ∧ e.port ≠ p ∧ t.cvn.inbox = s.cvn.inbox.erase c ∧
      (rn = true → ∀ q, q < 4 → (cvPort t q).resv = 0) ∧ Kept [.cvn] s t)) ∧
  (∀ (p : Fin 4) (s : State),
    let held := s.oldest p (fun m => match m with | .ret _ _ _ _ _ => true | _ => false)
    (held = none → Sys2Proof.Machine.exec (.enumReturn p) s = .next s) ∧
    (∀ c no n k cl x, held = some c → c.cell.msg = .ret no n k cl x → ∃ t, Sys2Proof.Machine.exec (.enumReturn p) s = .next t ∧
      ((∀ e at_, s.cvn.pass = some e → e.wait = .token at_ → e.port ≠ p ∨ e.no ≠ no) → t.cvn.pass = s.cvn.pass) ∧
      (∀ e at_, s.cvn.pass = some e → e.wait = .token at_ → e.port = p → e.no = no →
        let hi := max n (e.next + (cvPort s p).resv) - 1
        PortSettled e 2 e.next hi t ∧ ∀ e', t.cvn.pass = some e' → e'.count = e.count + k ∧
          e'.next = hi + 1 + portsResv s (cvPorts.filter (fun q => decide (e.port < q ∧ q < e'.port) && e.parent != some q)) ∧
          e'.clean = (e.clean && cl) ∧ e'.excess = max e.excess x) ∧
      Kept [.cvn, .evt] s t)) ∧
  ∀ s : State,
    (s.cvn.pass = none → Sys2Proof.Machine.exec .probeTimeout s = .next s) ∧
    (s.cvn.pass = none → Sys2Proof.Machine.exec .progress s = .next s) ∧
    (s.cvn.pass = none → Sys2Proof.Machine.exec .enumBranchAbort s = .next s) ∧
    (∀ e, s.cvn.pass = some e → e.port < 4 →
      let late : Bool := match e.wait with | .probe at_ => decide (at_ + 100000 ≤ s.now) | _ => false
      let waits : Bool := match e.wait with | .token _ => decide (e.progAt + 100000000 ≤ s.now) | _ => false
      let gone : Bool := match e.wait with
        | .token at_ => !cvActive s e.port || decide (at_ + 500000000 ≤ s.now)
        | .probe _ => !cvActive s e.port
        | .idle => false
      (late = false → Sys2Proof.Machine.exec .probeTimeout s = .next s) ∧
      (late = true → ∃ t, Sys2Proof.Machine.exec .probeTimeout s = .next t ∧ PortSettled e 0 0 0 t ∧
        (∀ e', t.cvn.pass = some e' → e'.clean = e.clean ∧ e'.next = e.next + (cvPort s e.port).resv +
          portsResv s (cvPorts.filter (fun q => decide (e.port < q ∧ q < e'.port) && e.parent != some q))) ∧
        Kept [.cvn, .evt] s t) ∧
      (waits = false ∨ e.parent = none → Sys2Proof.Machine.exec .progress s = .next s) ∧
      (∀ p, waits = true → e.parent = some p → ∃ t, Sys2Proof.Machine.exec .progress s = .next t ∧
        (cvPort t p).out = (cvPort s p).out ++ [⟨enumCell s true .progress, none⟩] ∧
        t.cvn.pass = some { e with progAt := s.now } ∧ RegsKept .cvn [] s t ∧ Kept [.cvn] s t) ∧
      (gone = false → Sys2Proof.Machine.exec .enumBranchAbort s = .next s) ∧
      (gone = true → ∃ t, Sys2Proof.Machine.exec .enumBranchAbort s = .next t ∧ PortSettled e 0 0 0 t ∧
        (∀ e', t.cvn.pass = some e' → e'.clean = false) ∧ Kept [.cvn, .evt] s t))

/-- A COMMIT of the pass this device has finished schedules its table for the instant named and ends the pass; of another pass only the cell goes.
Before the instant nothing changes.  At it the new table is in force and the old one kept for 10 ms, overrides are gone, ID, GEN and the
ports' roles show it, TB jumps by the excess that was agreed, and a changed ID loads every stream's serial from TB.  The old
table is dropped after its 10 ms, not before. -/
def Obligations.TablesCommitAndSwitch : Prop :=
  (∀ (p : Fin 4) (s : State),
    let held := s.oldest p (fun m => match m with | .commit _ _ _ => true | _ => false)
    (held = none → Sys2Proof.Machine.exec (.commit p) s = .next s) ∧
    (∀ c g n at_, held = some c → c.cell.msg = .commit g n at_ → ∃ t, Sys2Proof.Machine.exec (.commit p) s = .next t ∧
      (∀ e, s.cvn.pass = some e → e.no = n → e.done = true →
        t.cvn.commit = some (at_, 0, e.tab) ∧ t.cvn.pass = none) ∧
      ((∀ e, s.cvn.pass = some e → e.no ≠ n ∨ e.done = false) →
        t.cvn.commit = s.cvn.commit ∧ t.cvn.pass = s.cvn.pass) ∧
      t.cvn.inbox = s.cvn.inbox.erase c ∧ t.cvn.cur = s.cvn.cur ∧ RegsKept .cvn [] s t ∧ Kept [.cvn] s t)) ∧
  (∀ s : State,
    (s.cvn.commit = none → Sys2Proof.Machine.exec .enumSwitch s = .next s) ∧
    (∀ at_ j tab, s.cvn.commit = some (at_, j, tab) →
      (s.now < at_ → Sys2Proof.Machine.exec .enumSwitch s = .next s) ∧
      (at_ ≤ s.now → ∃ t, Sys2Proof.Machine.exec .enumSwitch s = .next t ∧ t.cvn.cur = tab ∧
        t.cvn.prev = some (s.cvn.cur, s.now + 10000000) ∧ t.cvn.overrides = [] ∧ t.cvn.commit = none ∧
        t.now = s.now + j ∧ t.flag .cvn CVN_ID 31 = true ∧ t.fld .cvn CVN_ID 11 0 = tab.id % 4096 ∧
        t.fld .cvn CVN_GEN 15 0 = tab.gen % 65536 ∧
        (∀ p, p < 4 → t.fld .cvn (CVN_PORT_STATUS p) 31 30 = tab.role p % 4 ∧
          t.flag .cvn (CVN_PORT_STATUS p) 29 = (tab.role p != 0 && cvActive s p)) ∧
        t.flag .cvn CVN_STATUS 30 = true ∧ t.flag .cvn CVN_STATUS 29 = false ∧ t.flag .cvn CVN_STATUS 27 = false ∧
        (s.fld .cvn CVN_ID 11 0 ≠ tab.id → ∀ n, n < 96 → (t.objStream n).serial = s.now / 512 % 2 ^ 45 ∧
          (t.objStream n).epoch = tbit s.now 54) ∧
        (s.fld .cvn CVN_ID 11 0 = tab.id → t.obj = s.obj) ∧
        RegsKept .time [] s t ∧ Kept [.cvn, .obj, .time] s t))) ∧
  ∀ s : State,
    (s.cvn.prev = none → Sys2Proof.Machine.exec .routeTableExpire s = .next s) ∧
    (∀ old at_, s.cvn.prev = some (old, at_) →
      (s.now < at_ → Sys2Proof.Machine.exec .routeTableExpire s = .next s) ∧
      (at_ ≤ s.now → Sys2Proof.Machine.exec .routeTableExpire s =
        .next { s with cvn := { s.cvn with prev := none } }))

/-- A position is exported when its encoder is named and its period is over: its sequence number goes on modulo 65,536 and this
device takes the cell too.  A POS cell a port holds becomes the input of its device and encoder, with this instant as its arrival; one that is not newer only
counts.  An input without a good cell for 4 periods is no longer valid, and not earlier.  An event cell is published on its channel if that has SPAN
= 1.  The first part of a record starts its reassembly, the next in order joins it, and one out of order ends it and counts.  The head of the
handover queue leaves it and counts as received, or, when unreadable, as dropped. -/
def Obligations.SpanPositionsEventsAndHandover : Prop :=
  (∀ (n : Fin 8) (s : State),
    let last := Tab.get (fun _ => 0) s.cvn.posAt n
    let due := s.flag .cvn CVN_POS n = true ∧ last + s.fld .cvn CVN_POS 25 16 * 1000 ≤ s.now
    (¬ due → Sys2Proof.Machine.exec (.posExport n) s = .next s) ∧
    (due → ∃ t, Sys2Proof.Machine.exec (.posExport n) s = .next t ∧
      Tab.get (fun _ => 0) t.cvn.posAt n = s.now ∧
      Tab.get (fun _ => 0) t.cvn.posSeq n = (Tab.get (fun _ => 0) s.cvn.posSeq n + 1) % 65536 ∧
      (let key := s.cvn.cur.id * 8 + n
       (Tab.get (fun _ => SpanIn.init) s.mot.span key).seq = none →
         (Tab.get (fun _ => SpanIn.init) t.mot.span key).valid = true ∧
         (Tab.get (fun _ => SpanIn.init) t.mot.span key).seq =
           some (Tab.get (fun _ => 0) s.cvn.posSeq n % 65536) ∧
         (Tab.get (fun _ => SpanIn.init) t.mot.span key).arrived = s.now) ∧
      Kept [.cvn, .mot, .evt, .ejt] s t)) ∧
  (∀ (p : Fin 4) (s : State),
    let held := s.cvn.inbox.find? (fun e => e.port == p.val && e.cell.cls == 1)
    (held = none → Sys2Proof.Machine.exec (.posRx p) s = .next s) ∧
    ∀ e, held = some e →
      let c := e.cell
      let key := c.src * 8 + c.at 8 1 % 8
      let x := Tab.get (fun _ => SpanIn.init) s.mot.span key
      let late := x.seq.any (fun q => !genNewer (c.at 10 2) q)
      ∃ t, Sys2Proof.Machine.exec (.posRx p) s = .next t ∧ t.cvn.inbox = s.cvn.inbox.erase e ∧
        (late = true → t.rd .cvn CVN_CNT_POS_LATE = satAdd (s.rd .cvn CVN_CNT_POS_LATE) 1 ∧ t.mot = s.mot) ∧
        (late = false → let y := Tab.get (fun _ => SpanIn.init) t.mot.span key
          y.valid = true ∧ y.pos = BitVec.ofNat 48 (c.at 16 6) ∧ y.speed = sgn 32 (c.at 12 4) ∧
          y.seq = some (c.at 10 2) ∧ y.tb = c.at 24 8 ∧ y.arrived = s.now) ∧ Kept [.cvn, .mot, .evt, .ejt] s t) ∧
  (∀ (dev : Fin 4096) (n : Fin 8) (s : State),
    let key := dev.val * 8 + n
    let x := Tab.get (fun _ => SpanIn.init) s.mot.span key
    let due := x.valid = true ∧ x.arrived + 4 * x.period * 1000 ≤ s.now
    (¬ due → Sys2Proof.Machine.exec (.posInputTimeout dev n) s = .next s) ∧
    (due → ∃ t, Sys2Proof.Machine.exec (.posInputTimeout dev n) s = .next t ∧
      Tab.get (fun _ => SpanIn.init) t.mot.span key = { x with valid := false } ∧
      (∀ k, k ≠ key → Tab.get (fun _ => SpanIn.init) t.mot.span k = Tab.get (fun _ => SpanIn.init) s.mot.span k) ∧
      Kept [.mot, .evt, .ejt] s t)) ∧
  (∀ (p : Fin 4) (s : State),
    let held := s.cvn.inbox.find? (fun e => e.port == p.val && e.cell.cls == 3)
    (held = none → Sys2Proof.Machine.exec (.evtCellRx p) s = .next s) ∧
    ∀ e, held = some e → ∃ t, Sys2Proof.Machine.exec (.evtCellRx p) s = .next t ∧
      t.cvn.inbox = s.cvn.inbox.erase e ∧
      (let ch := e.cell.at 8 1
       let ev : EvtRec := ⟨0x2000, ch, BitVec.ofNat 32 (e.cell.at 12 4), e.cell.at 16 8, 0x3FD, s.now / 2⟩
       t.evt = { s.evt with bus := if s.flag .evt (EVT_CH_CTRL ch) 28 then s.evt.bus ++ [ev] else s.evt.bus }) ∧
      RegsKept .cvn [] s t ∧ Kept [.cvn, .evt] s t) ∧
  (∀ (p : Fin 4) (s : State),
    let held := s.cvn.inbox.find? (fun e => e.port == p.val && e.cell.cls == 2)
    (held = none → Sys2Proof.Machine.exec (.objCellRx p) s = .next s) ∧
    ∀ e, held = some e →
      let c := e.cell
      let k := c.at 8 1 % 8
      let data := (c.pay.drop 4).take 48
      let others := s.cvn.asm.filter (fun a => a.src != c.src)
      let mine := s.cvn.asm.find? (fun a => a.src == c.src)
      ∃ t, Sys2Proof.Machine.exec (.objCellRx p) s = .next t ∧ t.cvn.inbox = s.cvn.inbox.erase e ∧
        (mine = none → k = 0 →
          t.cvn.asm = ⟨c.src, c.at 10 2, c.at 9 1 % 128, data, false⟩ :: others ∧ RegsKept .cvn [] s t) ∧
        (mine = none → k ≠ 0 → t.rd .cvn CVN_CNT_HO_LOST = satAdd (s.rd .cvn CVN_CNT_HO_LOST) 1) ∧
        (∀ a, mine = some a → a.tag = c.at 10 2 → a.ended = false →
          (a.bytes.length = 48 * k → k ≠ 5 → t.cvn.asm = { a with bytes := a.bytes ++ data } :: others) ∧
          (a.bytes.length = 48 * k → k = 5 → t.cvn.asm = others) ∧
          (a.bytes.length ≠ 48 * k → t.cvn.asm = { a with ended := true } :: others ∧
            t.rd .cvn CVN_CNT_HO_LOST = satAdd (s.rd .cvn CVN_CNT_HO_LOST) 1)) ∧
        BlocksKept [.cvn, .erg, .obj, .host, .flt] s t) ∧
  ∀ s : State,
    ((s.ergQ qHandover).items = [] → Sys2Proof.Machine.exec .handoverEnter s = .next s) ∧
    (∀ it rest b st sts, (s.ergQ qHandover).items = it :: rest → itemBytes it = some b → s.cvn.hoStreams = st :: sts →
      st < 96 → ∃ t, Sys2Proof.Machine.exec .handoverEnter s = .next t ∧ (t.ergQ qHandover).items = rest ∧
      t.cvn.hoStreams = sts ∧
      (qHeadBad s qHandover = true →
        t.rd .cvn CVN_CNT_HO_DROP = satAdd (s.rd .cvn CVN_CNT_HO_DROP) 1 ∧ t.ejt = s.ejt) ∧
      (qHeadBad s qHandover = false → t.rd .cvn CVN_CNT_HO_RECV = satAdd (s.rd .cvn CVN_CNT_HO_RECV) 1) ∧
      BlocksKept [.cvn, .ejt, .erg, .obj, .host, .flt] s t)

/-- GO while an access is outstanding changes nothing; without GO only the target and the direction are stored.  An address beyond BAR0's remote part, or a target
without a route, ends at once with E_RANGE; else the access is outstanding since this TB.  At the target a request without response credit waits; one
that is not allowed is answered with E_OWNER, a far address with E_RANGE, and a write is carried out as a write of PF0.  A response ends the
outstanding access with its code and stores the data of a good read; without one for 1 ms it ends with the time-out code. -/
def Obligations.RemoteAccessesAreAnswered : Prop :=
  (∀ (v : Word) (s : State),
    let busy := s.flag .cvn CVN_RMT_STATUS 31
    let addr := s.fld .cvn CVN_RMT_ADDR 26 2 * 4
    let far := 0x1200000 ≤ addr ∨ cvRoute s s.cvn.cur (bits v 27 16) = none
    (busy = true → bit v 31 = true → Sys2Proof.Machine.exec (.rmtGo v) s = .next s) ∧
    (bit v 31 = false → ∃ t, Sys2Proof.Machine.exec (.rmtGo v) s = .next t ∧
      t.flag .cvn CVN_RMT_CMD 30 = bit v 30 ∧ t.fld .cvn CVN_RMT_CMD 27 16 = bits v 27 16 ∧
      t.cvn = { s.cvn with regs := t.cvn.regs } ∧ RegsKept .cvn [CVN_RMT_CMD] s t ∧ Kept [.cvn] s t) ∧
    (busy = false → bit v 31 = true → ∃ t, Sys2Proof.Machine.exec (.rmtGo v) s = .next t ∧
      (far → t.rd .cvn CVN_RMT_STATUS = BitVec.ofNat 32 (2 ^ 30 + 2) ∧ t.flag .cvn CVN_RMT_CMD 31 = false ∧
        t.cvn.rmtAt = none ∧ t.cvn.port = s.cvn.port) ∧
      (¬ far → t.flag .cvn CVN_RMT_STATUS 31 = true ∧ t.flag .cvn CVN_RMT_CMD 31 = true ∧ t.cvn.rmtAt = some s.now) ∧
      RegsKept .cvn [CVN_RMT_CMD, CVN_RMT_STATUS] s t ∧ Kept [.cvn] s t)) ∧
  (∀ (p : Fin 4) (s : State),
    let held := s.cvn.inbox.find? (fun e => e.port == p.val && e.cell.cls == 4 && !e.cell.resp && isAccess e.cell.msg)
    let rest (e : InCell) : State := { s with cvn := { s.cvn with inbox := s.cvn.inbox.erase e } }
    let answer (u : State) (e : InCell) (code : Nat) (d : Word) :=
      u.respond e (newCell u 4 true false e.cell.src [] (.response code d))
    (held = none → Sys2Proof.Machine.exec (.mgtRequestRx p) s = .next s) ∧
    (∀ e, held = some e → canRespond s e.cell = false → Sys2Proof.Machine.exec (.mgtRequestRx p) s = .next s) ∧
    (∀ e, held = some e → canRespond s e.cell = true → s.flag .cvn CVN_CTRL 31 = false →
      Sys2Proof.Machine.exec (.mgtRequestRx p) s = .next (answer (rest e) e 4 0#32)) ∧
    (∀ e a d, held = some e → canRespond s e.cell = true → s.flag .cvn CVN_CTRL 31 = true →
      e.cell.msg = .write a d →
      (0x1200000 ≤ a → Sys2Proof.Machine.exec (.mgtRequestRx p) s = .next (answer (rest e) e 2 0#32)) ∧
      (a < 0x1200000 → Sys2Proof.Machine.exec (.mgtRequestRx p) s = .next (answer ((rest e).busWrite a d) e 0 0#32))) ∧
    (∀ e a, held = some e → canRespond s e.cell = true → s.flag .cvn CVN_CTRL 31 = true → e.cell.msg = .read a →
      (0x1200000 ≤ a → Sys2Proof.Machine.exec (.mgtRequestRx p) s = .next (answer (rest e) e 2 0#32)) ∧
      (a < 0x1200000 → Sys2Proof.Machine.exec (.mgtRequestRx p) s =
        .next (answer ((rest e).remoteRead a) e 0 ((rest e).remoteRead a).readData)))) ∧
  (∀ (p : Fin 4) (s : State),
    let held := s.cvn.inbox.find? (fun e => e.port == p.val && (e.cell.cls == 4 && e.cell.resp))
    (held = none → Sys2Proof.Machine.exec (.mgtResponseRx p) s = .next s) ∧
    ∀ e code d, held = some e → e.cell.msg = .response code d → ∃ t,
      Sys2Proof.Machine.exec (.mgtResponseRx p) s = .next t ∧ t.cvn.inbox = s.cvn.inbox.erase e ∧
      (s.flag .cvn CVN_RMT_STATUS 31 = true → t.rd .cvn CVN_RMT_STATUS = BitVec.ofNat 32 (2 ^ 30 + code) ∧
        t.flag .cvn CVN_RMT_CMD 31 = false ∧ t.cvn.rmtAt = none ∧
        t.rd .cvn CVN_RMT_DATA = (if code = 0 ∧ s.flag .cvn CVN_RMT_CMD 30 = false then d else s.rd .cvn CVN_RMT_DATA)) ∧
      (s.flag .cvn CVN_RMT_STATUS 31 = false → RegsKept .cvn [] s t ∧ t.cvn.rmtAt = s.cvn.rmtAt) ∧
      RegsKept .cvn [CVN_RMT_STATUS, CVN_RMT_CMD, CVN_RMT_DATA] s t ∧ Kept [.cvn] s t) ∧
  ∀ s : State,
    (s.cvn.rmtAt = none → Sys2Proof.Machine.exec .rmtTimeout s = .next s) ∧
    (∀ at_, s.cvn.rmtAt = some at_ →
      (s.now < at_ + 1000000 → Sys2Proof.Machine.exec .rmtTimeout s = .next s) ∧
      (at_ + 1000000 ≤ s.now → ∃ t, Sys2Proof.Machine.exec .rmtTimeout s = .next t ∧
        t.rd .cvn CVN_RMT_STATUS = BitVec.ofNat 32 (2 ^ 30 + 0x0B) ∧ t.flag .cvn CVN_RMT_CMD 31 = false ∧
        t.cvn.rmtAt = none ∧ RegsKept .cvn [CVN_RMT_CMD, CVN_RMT_STATUS] s t ∧ Kept [.cvn] s t))

/-- At each microsecond of TB, and when its predicted event changes, in RUN a cluster whose work has ended reads IDLE, and NAP (counted) if no change runs and the deeper state pays; a port asks for QUIET if ready and it pays;
else a port is left alone.  Exits start when due, once, and end after 3 us for a cluster.  A write of a cluster's target takes it, but an operating point
below the image's is raised to it with the flag, and OFF of a cluster in use is refused with the flag; with no change running it starts.
A write of VCORE is a transfer of the controller, and its step ends with that transfer.  Each
step leads to the next of R368 or puts the target in effect; a cluster then at OFF has lost its table banks; a failed VCORE write of a rise sets its flag and is reported, and the point stays. -/
def Obligations.UnitsNapAndClustersChange : Prop :=
  (∀ (u : Fin 32) (s : State),
    let due := dstate s = 1 ∧ predictDue s u = true
    let noted := s.onUnit u (fun x => { x with event := unitEvent s u })
    (¬ due → Sys2Proof.Machine.exec (.pwrPredict u) s = .next s) ∧
    (due → u.val < 8 → 2 ≤ clPstate s u ∨ s.now < workEnd s u → Sys2Proof.Machine.exec (.pwrPredict u) s = .next noted) ∧
    (due → u.val < 8 → clPstate s u < 2 → workEnd s u ≤ s.now → ∃ t, Sys2Proof.Machine.exec (.pwrPredict u) s = .next t ∧
      (let nap := !s.flag .pwr (PWR_CL_CTRL u) 27 && deeperPays s u
       clPstate t u = (if nap then 2 else 1) ∧ t.fld .pwr (PWR_UNIT_LIM u) 5 4 = (if nap then 2 else 1) ∧
       t.rd .pwr PWR_CNT_NAP = satAdd (s.rd .pwr PWR_CNT_NAP) (b2n nap)) ∧
      (Tab.get (fun _ => PwrUnit.init) t.pwr.unit u).event = unitEvent s u ∧
      RegsKept .pwr [PWR_CL_CTRL u, PWR_UNIT_LIM u, PWR_CNT_NAP] s t ∧ Kept [.pwr] s t) ∧
    (due → 8 ≤ u.val →
      ((quietReady s (u - 8) && deeperPays s (u - 8 + 8)) = false →
        Sys2Proof.Machine.exec (.pwrPredict u) s = .next noted) ∧
      ((quietReady s (u - 8) && deeperPays s (u - 8 + 8)) = true → ∃ t,
        Sys2Proof.Machine.exec (.pwrPredict u) s = .next t ∧
        t.phyPort (u - 8) = { s.phyPort (u - 8) with quietReq := some s.now } ∧
        t.lnkPort (u - 8) = { s.lnkPort (u - 8) with lctl := (s.lnkPort (u - 8)).lctl ++ [1] } ∧
        t.pwr = noted.pwr ∧ RegsKept .phy [] s t ∧ RegsKept .lnk [] s t ∧ Kept [.phy, .lnk, .pwr] s t))) ∧
  (∀ (u : Fin 32) (s : State),
    let unit (x : State) := Tab.get (fun _ => PwrUnit.init) x.pwr.unit u
    (exitDue s u = false → Sys2Proof.Machine.exec (.pwrExitStart u) s = .next s) ∧
    (exitDue s u = true → u.val < 8 → clPstate s u = 2 → ∃ t, Sys2Proof.Machine.exec (.pwrExitStart u) s = .next t ∧
      unit t = { unit s with exitAt := some ((unit s).exitAt.getD s.now) } ∧ RegsKept .pwr [] s t ∧ Kept [.pwr] s t) ∧
    (exitDue s u = true → 8 ≤ u.val → portState s (u - 8) = phQuiet → (s.phyPort (u - 8)).quietExit = none → ∃ t,
      Sys2Proof.Machine.exec (.pwrExitStart u) s = .next t ∧
      t.phyPort (u - 8) = { s.phyPort (u - 8) with quietExit := some s.now } ∧
      t.lnkPort (u - 8) = { s.lnkPort (u - 8) with lctl := (s.lnkPort (u - 8)).lctl ++ [2] } ∧
      RegsKept .phy [] s t ∧ RegsKept .lnk [] s t ∧ Kept [.phy, .lnk] s t) ∧
    (∀ at_, u.val < 8 → (unit s).exitAt = some at_ → clPstate s u = 2 →
      (s.now < at_ + 3000 → Sys2Proof.Machine.exec (.pwrExitDone u) s = .next s) ∧
      (at_ + 3000 ≤ s.now → ∃ t, Sys2Proof.Machine.exec (.pwrExitDone u) s = .next t ∧ clPstate t u = 1 ∧
        unit t = { unit s with exitAt := none, missed := false } ∧
        RegsKept .pwr [PWR_CL_CTRL u, PWR_UNIT_LIM u] s t ∧ Kept [.pwr] s t)) ∧
    (u.val < 8 → (unit s).exitAt = none ∨ clPstate s u ≠ 2 → Sys2Proof.Machine.exec (.pwrExitDone u) s = .next s) ∧
    (8 ≤ u.val → portState s (u - 8) = phQuiet → (s.phyPort (u - 8)).quietExit ≠ none → isAligned s (u - 8) = true → ∃ t,
      Sys2Proof.Machine.exec (.pwrExitDone u) s = .next t ∧ portState t (u - 8) = phActive ∧ Kept [.phy] s t)) ∧
  (∀ (c : Fin 8) (v : Word) (s : State),
    let m := s.seq.active.map (fun i => i.map)
    let low := (m.map (fun m => atD m.clusterOp c 0)).getD 0
    let uses := (m.map (fun m => m.usesCluster c)).getD false
    let op := bits v 31 30
    let goal := if op < low then low % 4 else op
    ∃ t, Sys2Proof.Machine.exec (.clusterOpWrite c v) s = .next t ∧
      (op = 0 → uses = true → clOp t c = clOp s c ∧ t.flag .pwr (PWR_CL_CTRL c) 25 = true ∧
        t.pwr.change = s.pwr.change) ∧
      (op ≠ 0 ∨ uses = false → clOp t c = goal ∧ t.flag .pwr (PWR_CL_CTRL c) 25 =
          (decide (op < low) || s.flag .pwr (PWR_CL_CTRL c) 25 && !bit v 25) ∧
        (s.pwr.change ≠ none ∨ goal = clCur s c → t.pwr.change = s.pwr.change) ∧
        (s.pwr.change = none → goal ≠ clCur s c → t.flag .pwr (PWR_CL_CTRL c) 27 = true ∧ t.pwr.change =
          some ⟨c, goal, decide (clCur s c < goal), firstStep s c goal (decide (clCur s c < goal))⟩)) ∧
      (t.pwr.vcoreOut = s.pwr.vcoreOut ∨ s.pwr.change = none ∧ firstStep s c goal (decide (clCur s c < goal)) = 0 ∧
        t.pwr.vcoreOut = vcoreFor s c goal) ∧
      RegsKept .pwr [PWR_CL_CTRL c] s t ∧ BlocksKept [.pwr] s t) ∧
  ∀ (s : State) (ok : Bool),
    (s.pwr.change = none → Sys2Proof.Machine.exec (.clusterOpStep ok) s = .next s) ∧
    (s.pwr.change.any (fun x => x.step == 0) = true → s.pwr.job.any (fun j => j.kind == .vreg) = false →
      Sys2Proof.Machine.exec (.clusterOpStep ok) s = .next s) ∧
    (∀ x, s.pwr.change = some x → x.cl < 8 →
      let goes (n : Nat) := Sys2Proof.Machine.exec (.clusterOpStep ok) s =
        .next { s with pwr := { s.pwr with change := some { x with step := n } } }
      let sent := s.pwr.job.any (fun j => j.kind == .vreg) = true ∧ s.pwr.waiting = []
      let inEffect := ∃ t, Sys2Proof.Machine.exec (.clusterOpStep ok) s = .next t ∧ clCur t x.cl = x.target % 4 ∧
        (clOp s x.cl = x.target → t.flag .pwr (PWR_CL_CTRL x.cl) 27 = false) ∧
        (x.target ≠ 0 → t.pix = s.pix) ∧ (x.target = 0 → clPstate t x.cl = 3 ∧ ∀ k, k / 128 = x.cl → ∀ b, (k, b) ∉ t.pix.tile) ∧
        BlocksKept [.pwr, .pix] s t
      (x.step = 0 → sent → ok = true → ∃ t, Sys2Proof.Machine.exec (.clusterOpStep ok) s = .next t ∧
        t.pwr.vcore = s.pwr.vcoreOut ∧ t.pwr.change = some { x with step := 1 } ∧ t.pwr.job = none ∧ RegsKept .pwr [] s t ∧
        Kept [.pwr] s t) ∧
      (x.step = 0 → sent → ok = false → x.rising = true → ∃ t, Sys2Proof.Machine.exec (.clusterOpStep ok) s = .next t ∧
        t.flag .pwr (PWR_CL_CTRL x.cl) 26 = true ∧ clCur t x.cl = clCur s x.cl ∧ t.flag .flt FLT_STATUS 30 = true ∧
        t.pwr.vcore = s.pwr.vcore ∧ BlocksKept [.pwr, .flt] s t) ∧
      (x.step = 0 → sent → ok = false → x.rising = false → inEffect) ∧
      (x.step = 1 → x.rising = true → goes 2) ∧ (x.step = 1 → x.rising = false → inEffect) ∧
      (x.step = 2 → x.rising = true → goes 3) ∧
      (x.step = 2 → x.rising = false → vregOn s = true → vcoreFor s x.cl x.target < s.pwr.vcoreOut → s.pwr.job = none →
        ∃ t, Sys2Proof.Machine.exec (.clusterOpStep ok) s = .next t ∧ t.pwr.change = some { x with step := 0 } ∧
        t.pwr.vcoreOut = vcoreFor s x.cl x.target ∧ t.pwr.vcore = s.pwr.vcore ∧ t.pwr.job = some ⟨.vreg, 0⟩ ∧
        RegsKept .pwr [] s t ∧ BlocksKept [.pwr] s t) ∧
      (x.step = 2 → x.rising = false → vregOn s = false ∨ s.pwr.vcoreOut ≤ vcoreFor s x.cl x.target → inEffect) ∧
      (3 ≤ x.step → x.rising = true → inEffect) ∧ (3 ≤ x.step → x.rising = false → goes 2))

/-- With no entry running its end changes nothing.  STANDBY is entered with every lane OFF and every powered cluster without clock; a wake held meanwhile starts the exit.  DEEP takes the core down: TB starts anew, the supplies start to go, and RTC_KEEP says
whether the counter goes on.  The exit from STANDBY returns to RUN and lets each enabled port whose reference is present enter DETECT; in another
state, or without an exit under way, it does nothing.  A bus command while one runs or in BOOT is not acknowledged; a refused one stores its
code; an accepted one is over with DONE before the entry, or at once in the state asked for; a command for RUN in STANDBY runs until the exit.
STANDBY in STANDBY done without change, and WAKE_CAUSE.CMD at RUN, are the model's choices (log 59). -/
def Obligations.DeviceStatesEnterAndExit : Prop :=
  (∀ s : State,
    (s.pwr.devCmd = none ∨ dstate s ≠ 3 → Sys2Proof.Machine.exec .powerEntryDone s = .next s) ∧
    (∀ rtc bus, dstate s = 3 → s.pwr.devCmd = some (1, rtc, bus) → ∃ t, Sys2Proof.Machine.exec .powerEntryDone s = .next t ∧
      dstate t = 2 ∧ (∀ p, p < 28 → portState t p = phOff) ∧ t.pwr.devCmd = none ∧ t.pwr.wakeHeld = 0 ∧
      t.pwr.exitAt = (if s.pwr.wakeHeld &&& 0xB = 0 then none else some s.now) ∧
      (∀ c, c < 8 → clCur s c ≠ 0 → clPstate t c = 3) ∧ t.pwr.cmdStatus = s.pwr.cmdStatus ∧
      t.pwr.motA = s.pwr.motA ∧ t.pwr.motB = s.pwr.motB ∧ t.now = s.now ∧
      BlocksKept [.phy, .lnk, .cvn, .evt, .flt, .time, .pwm, .pwr] s t) ∧
    (∀ rtc bus, dstate s = 3 → s.pwr.devCmd = some (2, rtc, bus) → ∃ t, Sys2Proof.Machine.exec .powerEntryDone s = .next t ∧
      t.pwr.coreUp = false ∧ t.pwr.goingDown = true ∧ t.pwr.goingUp = false ∧ t.now = 0 ∧
      t.flag .pwr OAS_CTRL 27 = rtc ∧ t.flag .pwr OAS_STATUS 2 = rtc ∧ t.flag .pwr OAS_STATUS 1 = false ∧
      t.pwr.wakeHeld = s.pwr.wakeHeld ∧ t.host.mem = s.host.mem ∧ t.pending = s.pending) ∧
    (dstate s ≠ 2 ∨ s.pwr.exitAt = none → Sys2Proof.Machine.exec .standbyExit s = .next s) ∧
    (dstate s = 2 → s.pwr.exitAt ≠ none → ∃ t, Sys2Proof.Machine.exec .standbyExit s = .next t ∧ dstate t = 1 ∧
      t.pwr.exitAt = none ∧ t.pwr.devCmd = none ∧ (∀ c, c < 8 → clCur s c ≠ 0 → clPstate t c = 1) ∧
      (∀ rtc, s.pwr.devCmd = some (0, rtc, true) → t.pwr.cmdStatus = 0) ∧
      (∀ p, p < 28 → s.flag .phy (phyCtrl p) 31 = true → refOk s p = true → portState t p = phDetect) ∧
      (∀ p, p < 28 → s.flag .phy (phyCtrl p) 31 = false → portState t p = portState s p) ∧
      BlocksKept [.phy, .lnk, .pwr] s t)) ∧
  ∀ s : State,
    let refused : State := { s with pwr := { s.pwr with i2cAck := false } }
    let ends (target : Nat) (rtc : Bool) (t : State) : Prop :=
      t.pwr.i2cAck = true ∧
      (powerCode s target ≠ 0 → t.pwr.cmdStatus = powerCode s target ∧ t.pwr.devCmd = s.pwr.devCmd ∧
        tbit t.pwr.attnStatus 4 = true ∧ RegsKept .pwr [] s t) ∧
      (powerCode s target = 0 → 1 ≤ target → dstate s = 1 ∨ target = 2 → t.pwr.cmdStatus = 0 ∧ dstate t = 3 ∧
        tbit t.pwr.attnStatus 4 = true ∧ t.pwr.devCmd = some (target, rtc, true) ∧ t.pwr.wakeHeld = 0 ∧
        t.pwr.motA = 0 ∧ t.pwr.motB = 0 ∧ t.pwr.awake = false) ∧
      (powerCode s target = 0 → target = 0 → dstate s = 2 → t.pwr.cmdStatus = 0xFF ∧
        t.pwr.devCmd = some (0, false, true) ∧ t.pwr.exitAt = some (s.pwr.exitAt.getD s.now) ∧
        t.flag .pwr OAS_WAKE_CAUSE 5 = true) ∧
      (powerCode s target = 0 → target = 0 ∧ dstate s = 1 ∨ target = 1 ∧ dstate s = 2 →
        t.pwr.cmdStatus = 0 ∧ dstate t = dstate s ∧ tbit t.pwr.attnStatus 4 = true) ∧
      Kept [.pwr] s t
    (s.pwr.cmdStatus = 0xFF ∨ dstate s = 0 → Sys2Proof.Machine.exec .standby s = .next refused) ∧
    (s.pwr.cmdStatus = 0xFF ∨ dstate s = 0 → Sys2Proof.Machine.exec .deep s = .next refused) ∧
    (s.pwr.cmdStatus = 0xFF ∨ dstate s = 0 → Sys2Proof.Machine.exec .deepWithRtcKeep s = .next refused) ∧
    (s.pwr.cmdStatus = 0xFF ∨ dstate s = 0 → Sys2Proof.Machine.exec .run s = .next refused) ∧
    (s.pwr.cmdStatus ≠ 0xFF → dstate s ≠ 0 → ∃ t, Sys2Proof.Machine.exec .standby s = .next t ∧ ends 1 false t) ∧
    (s.pwr.cmdStatus ≠ 0xFF → dstate s ≠ 0 → ∃ t, Sys2Proof.Machine.exec .deep s = .next t ∧ ends 2 false t) ∧
    (s.pwr.cmdStatus ≠ 0xFF → dstate s ≠ 0 → ∃ t, Sys2Proof.Machine.exec .deepWithRtcKeep s = .next t ∧ ends 2 true t) ∧
    (s.pwr.cmdStatus ≠ 0xFF → dstate s ≠ 0 → ∃ t, Sys2Proof.Machine.exec .run s = .next t ∧ ends 0 false t)

/-- An enabled source that fires in DEEP records its cause and asserts PWR_EN0 (the alarm wakes at the count it holds); while powering up only the
same millisecond records it; during an entry it is held; in STANDBY every source but the bus starts the exit; else nothing changes.  A PG high in its
turn asserts the next output, the last one shows SUPPLY_UP, with PORST_N still holding the core.  A PG too late or lost sets PG_FAIL and powers down, a lost one with the core in reset and
TB at 0.  Each step down de-asserts the highest output; at the end a held wake powers up again.  A VAON power-on clears the Oasis. -/
def Obligations.OasisPowersUpAndDown : Prop :=
  (∀ (src : Fin 4) (same : Bool) (s : State),
    let cause := s.rd .pwr OAS_WAKE_CAUSE ||| BitVec.ofNat 32 (2 ^ src.val)
    let alarm := if src.val = 3 then [OAS_RTC_LO, OAS_RTC_HI] else []
    let going := s.pwr.goingUp || s.pwr.goingDown
    (wakeFires s src = false → Sys2Proof.Machine.exec (.oasWake src same) s = .next s) ∧
    (wakeFires s src = true → inDeep s = true → ∃ t, Sys2Proof.Machine.exec (.oasWake src same) s = .next t ∧ pwrEn t = 1 ∧ pgNow t = 0 ∧
      t.rd .pwr OAS_WAKE_CAUSE = cause ∧ t.flag .pwr OAS_STATUS 2 = true ∧
      t.pwr = { s.pwr with regs := t.pwr.regs, goingUp := true, goingDown := false, rtcHeld := false } ∧
      (src.val = 3 → t.rd .pwr OAS_RTC_LO = s.rd .pwr OAS_ALARM_LO ∧ t.rd .pwr OAS_RTC_HI = s.rd .pwr OAS_ALARM_HI) ∧
      RegsKept .pwr ([OAS_STATUS, OAS_WAKE_CAUSE] ++ alarm) s t ∧ Kept [.pwr] s t) ∧
    (wakeFires s src = true → s.pwr.goingUp = true →
      (same = true → ∃ t, Sys2Proof.Machine.exec (.oasWake src same) s = .next t ∧ t.rd .pwr OAS_WAKE_CAUSE = cause ∧
        t.pwr = { s.pwr with regs := t.pwr.regs } ∧ RegsKept .pwr [OAS_WAKE_CAUSE] s t ∧ Kept [.pwr] s t) ∧
      (same = false → Sys2Proof.Machine.exec (.oasWake src same) s = .next s)) ∧
    (wakeFires s src = true → inDeep s = false → s.pwr.goingUp = false → s.pwr.goingDown = true ∨ dstate s = 3 →
      Sys2Proof.Machine.exec (.oasWake src same) s =
        .next { s with pwr := { s.pwr with wakeHeld := s.pwr.wakeHeld ||| 2 ^ src.val } }) ∧
    (wakeFires s src = true → inDeep s = false → going = false → dstate s = 2 → src.val ≠ 2 → ∃ t,
      Sys2Proof.Machine.exec (.oasWake src same) s = .next t ∧ t.rd .pwr OAS_WAKE_CAUSE = cause ∧
      t.pwr = { s.pwr with regs := t.pwr.regs, exitAt := some (s.pwr.exitAt.getD s.now) } ∧
      RegsKept .pwr ([OAS_WAKE_CAUSE] ++ alarm) s t ∧ Kept [.pwr] s t) ∧
    (wakeFires s src = true → inDeep s = false → going = false → dstate s ≠ 3 → dstate s ≠ 2 ∨ src.val = 2 →
      Sys2Proof.Machine.exec (.oasWake src same) s = .next s)) ∧
  (∀ (i : Fin 4) (s : State),
    let turn := s.pwr.goingUp = true ∧ pwrEn s = 2 ^ (i.val + 1) - 1 ∧ pgNow s = 2 ^ i.val - 1
    (¬ turn → Sys2Proof.Machine.exec (.pgUp i) s = .next s) ∧
    (turn → ∃ t, Sys2Proof.Machine.exec (.pgUp i) s = .next t ∧ pgNow t = 2 ^ (i.val + 1) - 1 ∧
      pwrEn t = 2 ^ min 4 (i.val + 2) - 1 ∧ t.flag .pwr OAS_STATUS 1 = (decide (i.val = 3) || s.flag .pwr OAS_STATUS 1) ∧
      t.pwr = { s.pwr with regs := t.pwr.regs, goingUp := decide (i.val < 3) } ∧
      t.tap = (if i.val = 3 then { s.tap with coreHeld := true } else s.tap) ∧
      RegsKept .pwr [OAS_STATUS] s t ∧ Kept [.pwr] s { t with tap := s.tap }) ∧
    (s.pwr.coreUp = false → Sys2Proof.Machine.exec (.pgLost i) s = .next s) ∧
    (s.pwr.coreUp = true → ∃ t, Sys2Proof.Machine.exec (.pgLost i) s = .next t ∧ t.pwr.coreUp = false ∧
      t.pwr.goingUp = false ∧ t.pwr.goingDown = true ∧ t.flag .pwr OAS_STATUS 0 = true ∧ tbit (pgNow t) i = false ∧
      t.flag .pwr OAS_STATUS 2 = s.flag .pwr OAS_CTRL 27 ∧ t.pwr.motA = 0 ∧ t.pwr.motB = 0 ∧
      t.rd .pwr OAS_WAKE_CAUSE = s.rd .pwr OAS_WAKE_CAUSE ||| 0x40#32 ∧ t.now = 0 ∧ t.host.mem = s.host.mem ∧
      (∀ a, isOasis a = true → a ∉ [OAS_STATUS, OAS_WAKE_CAUSE] → t.rd .pwr a = s.rd .pwr a) ∧
      t.pending = s.pending)) ∧
  (∀ s : State,
    (s.pwr.goingUp = false → Sys2Proof.Machine.exec .pgTimeout s = .next s) ∧
    (s.pwr.goingUp = true → ∃ t, Sys2Proof.Machine.exec .pgTimeout s = .next t ∧ t.flag .pwr OAS_STATUS 0 = true ∧
      t.flag .pwr OAS_STATUS 1 = false ∧ t.flag .pwr OAS_STATUS 2 = s.flag .pwr OAS_CTRL 27 ∧ t.rd .pwr OAS_WAKE_CAUSE = s.rd .pwr OAS_WAKE_CAUSE ||| 0x40#32 ∧
      t.pwr = { s.pwr with regs := t.pwr.regs, goingUp := false, goingDown := true } ∧
      RegsKept .pwr [OAS_STATUS, OAS_WAKE_CAUSE] s t ∧ Kept [.pwr] s t) ∧
    (s.pwr.goingDown = false → Sys2Proof.Machine.exec .powerDownStep s = .next s) ∧
    (s.pwr.goingDown = true → 2 ≤ pwrEn s → ∃ t, Sys2Proof.Machine.exec .powerDownStep s = .next t ∧
      pwrEn t = pwrEn s % 2 ^ (pwrEn s).log2 ∧ tbit (pgNow t) (pwrEn s).log2 = false ∧
      t.pwr = { s.pwr with regs := t.pwr.regs } ∧ RegsKept .pwr [OAS_STATUS] s t ∧ Kept [.pwr] s t) ∧
    (s.pwr.goingDown = true → pwrEn s < 2 → s.pwr.wakeHeld = 0 → ∃ t, Sys2Proof.Machine.exec .powerDownStep s = .next t ∧
      pwrEn t = 0 ∧ t.pwr = { s.pwr with regs := t.pwr.regs, goingDown := false } ∧ RegsKept .pwr [OAS_STATUS] s t ∧
      Kept [.pwr] s t) ∧
    (s.pwr.goingDown = true → pwrEn s < 2 → s.pwr.wakeHeld ≠ 0 → ∃ t, Sys2Proof.Machine.exec .powerDownStep s = .next t ∧
      pwrEn t = 1 ∧ pgNow t = 0 ∧ t.pwr = { s.pwr with
        regs := t.pwr.regs, goingUp := true, goingDown := false, wakeHeld := 0, rtcHeld := false } ∧
      t.rd .pwr OAS_WAKE_CAUSE = s.rd .pwr OAS_WAKE_CAUSE ||| BitVec.ofNat 32 s.pwr.wakeHeld ∧
      RegsKept .pwr [OAS_STATUS, OAS_WAKE_CAUSE] s t ∧ Kept [.pwr] s t)) ∧
  ∀ (on : Bool) (s : State), ∃ t, Sys2Proof.Machine.exec (.vaonPor on) s = .next t ∧ t.pwr.coreUp = false ∧ t.now = 0 ∧
    t.pwr.goingUp = on ∧ t.pwr.goingDown = false ∧ t.pwr.vaonUp = on ∧ t.pwr.motA = 0 ∧ t.pwr.motB = 0 ∧ pwrEn t = b2n on ∧ pgNow t = 0 ∧
    t.rd .pwr OAS_WAKE_CAUSE = (if on then 0x10#32 else 0#32) ∧
    (∀ a, isOasis a = true → a ∉ [OAS_STATUS, OAS_WAKE_CAUSE] → t.rd .pwr a = regReset a) ∧
    t.host.mem = s.host.mem ∧ t.pending = s.pending

/-- A transfer to another address changes nothing.  In reset or before RUN the window does not acknowledge, but for firmware that recovery
awaits, nor while its logic sleeps in STANDBY.  A write sets the pointer; each further byte is the write of one byte at the pointer, which then
advances.  A byte of OAS_RET or MBOX_IN is stored (0xBF sets MBOX_NEW), CMD is the command unless one runs, WAKE and ATTN_STATUS clear by ones,
ATTN_MASK is stored, every other byte has no effect.  A read returns the window's bytes from the pointer on and advances it, wrapping.  A match in STANDBY
wakes the logic for one transfer, and is acknowledged if it was awake, or woke in time with I2C_COMPAT = 0.  MBOX_OUT_DONE sets the MBOX bit and owes attention where it is new and not masked. -/
def Obligations.WindowIsReadAndWritten : Prop :=
  (∀ (addr : BitVec 7) (data : List Byte) (n : Nat) (s : State),
    (addr.toNat ≠ ownAddr s → Sys2Proof.Machine.exec (.i2cTargetWrite addr data) s = .next s) ∧
    (addr.toNat ≠ ownAddr s → Sys2Proof.Machine.exec (.i2cTargetRead addr n) s = .next s) ∧
    (addr.toNat = ownAddr s → winReady s = false →
      Sys2Proof.Machine.exec (.i2cTargetWrite addr data) s = .next { s with pwr := { s.pwr with i2cAck := false } }) ∧
    (addr.toNat = ownAddr s → winReady s = false →
      Sys2Proof.Machine.exec (.i2cTargetRead addr n) s = .next { s with pwr := { s.pwr with i2cAck := false } })) ∧
  (∀ (addr : BitVec 7) (p : Byte) (s : State), addr.toNat = ownAddr s → winReady s = true →
    Sys2Proof.Machine.exec (.i2cTargetWrite addr [p]) s =
      .next { s with pwr := { s.pwr with i2cAck := true, ptr := p.toNat, awake := false } }) ∧
  (∀ (addr : BitVec 7) (p v : Byte) (vs : List Byte) (s t : State), addr.toNat = ownAddr s → winReady s = true →
    Sys2Proof.Machine.exec (.i2cTargetWrite addr [p, v]) s = .next t → t.pwr.i2cAck = true → winReady t = true →
    Sys2Proof.Machine.exec (.i2cTargetWrite addr (p :: v :: vs)) s =
      Sys2Proof.Machine.exec (.i2cTargetWrite addr ((p + 1#8) :: vs)) t) ∧
  (∀ (addr : BitVec 7) (p v : Byte) (s : State), addr.toNat = ownAddr s → winReady s = true →
    let next := { s.pwr with i2cAck := true, ptr := (p.toNat + 1) % 256, awake := false }
    let stores (a k : Nat) (also : List Nat) := ∃ t, Sys2Proof.Machine.exec (.i2cTargetWrite addr [p, v]) s = .next t ∧
      regByte t .pwr a k = v ∧ (∀ j, j < 4 → j ≠ k → regByte t .pwr a j = regByte s .pwr a j) ∧
      t.pwr = { next with regs := t.pwr.regs, fwPieces := s.pwr.fwPieces + b2n (decide (p.toNat = 0xBF) && fwWindow s) } ∧
      RegsKept .pwr (a :: also) s t ∧ Kept [.pwr] s t
    (0x40 ≤ p.toNat → p.toNat < 0x80 → stores (OAS_RET ((p.toNat - 0x40) / 4)) (p.toNat % 4) []) ∧
    (0x80 ≤ p.toNat → p.toNat < 0xBF → stores (MGT_MBOX_IN ((p.toNat - 0x80) / 4)) (p.toNat % 4) []) ∧
    (p.toNat = 0xBF → stores (MGT_MBOX_IN 15) 3 [MGT_MBOX_STATUS] ∧
      ∃ t, Sys2Proof.Machine.exec (.i2cTargetWrite addr [p, v]) s = .next t ∧ t.flag .pwr MGT_MBOX_STATUS 0 = true) ∧
    (p.toNat = 6 → ∃ t, Sys2Proof.Machine.exec (.i2cTargetWrite addr [p, v]) s = .next t ∧
      t.fld .pwr OAS_WAKE_CAUSE 6 0 = s.fld .pwr OAS_WAKE_CAUSE 6 0 &&& (127 - v.toNat % 128) ∧
      t.pwr = { next with regs := t.pwr.regs } ∧ RegsKept .pwr [OAS_WAKE_CAUSE] s t ∧ Kept [.pwr] s t) ∧
    (p.toNat = 12 → ∃ t, Sys2Proof.Machine.exec (.i2cTargetWrite addr [p, v]) s = .next t ∧
      (∀ k, tbit t.pwr.attnStatus k = (tbit s.pwr.attnStatus k && !tbit v.toNat k)) ∧
      t.pwr.attnMask = s.pwr.attnMask ∧ RegsKept .pwr [] s t ∧ Kept [.pwr] s t) ∧
    (p.toNat = 13 → ∃ t, Sys2Proof.Machine.exec (.i2cTargetWrite addr [p, v]) s = .next t ∧ t.pwr.attnMask = v.toNat ∧
      t.pwr.attnStatus = s.pwr.attnStatus ∧ RegsKept .pwr [] s t ∧ Kept [.pwr] s t) ∧
    (p.toNat ∉ [6, 8, 12, 13] → p.toNat < 0x40 ∨ 0xC0 ≤ p.toNat →
      Sys2Proof.Machine.exec (.i2cTargetWrite addr [p, v]) s = .next { s with pwr := next }) ∧
    (p.toNat = 8 → s.pwr.cmdStatus = 0xFF ∨ dstate s = 0 ∧ v ∈ [1#8, 2#8, 3#8, 4#8] →
      Sys2Proof.Machine.exec (.i2cTargetWrite addr [p, v]) s =
        .next { s with pwr := { s.pwr with i2cAck := false, ptr := 8, awake := false } }) ∧
    (p.toNat = 8 → s.pwr.cmdStatus ≠ 0xFF → v ∉ [1#8, 2#8, 3#8, 4#8] →
      Sys2Proof.Machine.exec (.i2cTargetWrite addr [p, v]) s = .next { s with pwr := next }) ∧
    ∀ (c : Instr) (u : State), (v, c) ∈ [(1#8, Instr.standby), (2#8, .deep), (3#8, .deepWithRtcKeep), (4#8, .run)] →
      p.toNat = 8 → s.pwr.cmdStatus ≠ 0xFF → dstate s ≠ 0 → Sys2Proof.Machine.exec c s = .next u →
      Sys2Proof.Machine.exec (.i2cTargetWrite addr [p, v]) s =
        .next { u with pwr := { u.pwr with ptr := 9, awake := false } }) ∧
  (∀ (addr : BitVec 7) (n : Nat) (s : State), addr.toNat = ownAddr s → winReady s = true → s.pwr.ptr < 256 →
    Sys2Proof.Machine.exec (.i2cTargetRead addr n) s = .next { s with pwr := { s.pwr with
      i2cAck := true, latch := none, ptr := (s.pwr.ptr + n) % 256, awake := false
      i2cOut := (List.range n).map (fun k => winByte s ((s.pwr.ptr + k) % 256)) } }) ∧
  (∀ (ready : Bool) (s : State),
    (dstate s ≠ 2 → Sys2Proof.Machine.exec (.i2cStandbyMatch ready) s = .next s) ∧
    (dstate s = 2 → Sys2Proof.Machine.exec (.i2cStandbyMatch ready) s =
      .next { s with pwr := { s.pwr with
        i2cAck := s.pwr.awake || (ready && !s.flag .pwr OAS_STRAPS 0), awake := s.pwr.awake || ready } })) ∧
  ∀ (v : Word) (s : State),
    (bit v 0 = false → Sys2Proof.Machine.exec (.mboxOutDone v) s = .next s) ∧
    (bit v 0 = true → ∃ t, Sys2Proof.Machine.exec (.mboxOutDone v) s = .next t ∧
      (∀ k, tbit t.pwr.attnStatus k = (tbit s.pwr.attnStatus k || decide (k = 3))) ∧
      (tbit s.pwr.attnMask 3 = true → tbit s.pwr.attnStatus 3 = false → t.pwr.attnOwed = true) ∧
      t.pwr = { s.pwr with attnStatus := t.pwr.attnStatus, attnOwed := t.pwr.attnOwed, attnAt := t.pwr.attnAt } ∧
      Kept [.pwr] s t)

/-- Attention owed is raised once: as a write, which goes before waiting PF0 transfers, as a write of VCORE does, or as a pulse; with attention off it is dropped.  A failed write is
tried again after 10 ms, a pulse that was cut off again at the next idle.  GO while BUSY is ignored with CFG_ERR; else it stores the command and the
transfer starts or waits.  Its end gives RESULT and DONE, and on success the bytes read; the next transfer starts.  STUCK is flagged and reported.
A lost arbitration is counted and retried up to 7 times, for every kind of transfer; the end of a write of VCORE is the end of that
step of a cluster's change.  SCL low for 25 ms ends the transfer with TIMEOUT or STUCK. -/
def Obligations.BusControllerAndAttention : Prop :=
  let begins (k : MgtKind) (s t : State) :=
    (s.pwr.job = none → t.pwr.job = some ⟨k, 0⟩ ∧ t.pwr.ctlOut = ctlBytes t k ∧ t.pwr.waiting = s.pwr.waiting) ∧
    (s.pwr.job ≠ none → t.pwr.job = s.pwr.job ∧
      t.pwr.waiting = if k = .pf0 then s.pwr.waiting ++ [.pf0] else
        s.pwr.waiting.filter (fun x => x != .pf0) ++ k :: s.pwr.waiting.filter (fun x => x == .pf0))
  let nextJob (s t : State) := t.pwr.job = s.pwr.waiting.head?.map (fun k => ⟨k, 0⟩) ∧ t.pwr.waiting = s.pwr.waiting.tail
  let ends (r : Nat) (s t : State) := t.fld .pwr MGT_CTL_STATUS 2 0 = r ∧ t.flag .pwr MGT_CTL_STATUS 31 = false ∧
    t.flag .pwr MGT_CTL_STATUS 30 = true ∧ t.flag .pwr MGT_CTL_CMD 31 = false ∧ nextJob s t ∧
    (r = 5 → t.flag .pwr MGT_CTL_STATUS 29 = true ∧ t.flag .flt FLT_STATUS 30 = true) ∧
    (r ≠ 5 → t.flag .pwr MGT_CTL_STATUS 29 = s.flag .pwr MGT_CTL_STATUS 29 ∧ t.flt = s.flt)
  (∀ s : State,
    (s.pwr.attnOwed = false ∨ s.pwr.attnAt ≠ none → Sys2Proof.Machine.exec .attnRaise s = .next s) ∧
    (s.pwr.attnOwed = true → s.pwr.attnAt = none →
      (attnMode s = 1 → ∃ t, Sys2Proof.Machine.exec .attnRaise s = .next t ∧ t.pwr.attnAt = some s.now ∧
        begins .attn s t ∧ RegsKept .pwr [] s t ∧ Kept [.pwr] s t) ∧
      (attnMode s = 2 → Sys2Proof.Machine.exec .attnRaise s = .next s) ∧
      (attnMode s ≠ 1 → attnMode s ≠ 2 → Sys2Proof.Machine.exec .attnRaise s =
        .next { s with pwr := { s.pwr with attnOwed := false } })) ∧
    let retries := s.pwr.attnOwed = true ∧ attnMode s = 1 ∧ attnRuns s = false ∧
      s.pwr.attnAt.any (fun x => decide (x + 10000000 ≤ s.now)) = true
    (¬ retries → Sys2Proof.Machine.exec .attnRetry s = .next s) ∧
    (retries → ∃ t, Sys2Proof.Machine.exec .attnRetry s = .next t ∧ t.pwr.attnAt = some s.now ∧ begins .attn s t ∧
      RegsKept .pwr [] s t ∧ Kept [.pwr] s t)) ∧
  (∀ (ok : Bool) (s : State),
    let pulses := s.pwr.attnOwed = true ∧ attnMode s = 2 ∧ ok = true
    (¬ pulses → Sys2Proof.Machine.exec (.attnPulse ok) s = .next s) ∧
    (pulses → Sys2Proof.Machine.exec (.attnPulse ok) s = .next { s with pwr := { s.pwr with attnOwed := false } })) ∧
  (∀ (v : Word) (s : State),
    (s.flag .pwr MGT_CTL_STATUS 31 = true → bit v 31 = false → Sys2Proof.Machine.exec (.i2cCtlGo v) s = .next s) ∧
    (s.flag .pwr MGT_CTL_STATUS 31 = true → bit v 31 = true → ∃ t, Sys2Proof.Machine.exec (.i2cCtlGo v) s = .next t ∧
      t.flag .pwr MGT_CTL_STATUS 28 = true ∧ t.pwr = { s.pwr with regs := t.pwr.regs } ∧
      RegsKept .pwr [MGT_CTL_STATUS] s t ∧ Kept [.pwr] s t) ∧
    (s.flag .pwr MGT_CTL_STATUS 31 = false → ∃ t, Sys2Proof.Machine.exec (.i2cCtlGo v) s = .next t ∧
      t.fld .pwr MGT_CTL_CMD 22 16 = bits v 22 16 ∧ t.fld .pwr MGT_CTL_CMD 11 8 = min 8 (bits v 11 8) ∧
      t.fld .pwr MGT_CTL_CMD 3 0 = min 8 (bits v 3 0) ∧ t.flag .pwr MGT_CTL_STATUS 31 = bit v 31 ∧
      (bit v 31 = true → t.flag .pwr MGT_CTL_CMD 31 = true ∧ begins .pf0 s t) ∧
      (bit v 31 = false → t.pwr.job = s.pwr.job ∧ t.pwr.waiting = s.pwr.waiting) ∧
      RegsKept .pwr [MGT_CTL_CMD, MGT_CTL_STATUS] s t ∧ Kept [.pwr] s t)) ∧
  (∀ (r : Fin 6) (data : List Byte) (s : State),
    (s.pwr.job = none → Sys2Proof.Machine.exec (.i2cCtlDone r data) s = .next s) ∧
    (∀ n, s.pwr.job = some ⟨.pf0, n⟩ → ∃ t, Sys2Proof.Machine.exec (.i2cCtlDone r data) s = .next t ∧ ends r.val s t ∧
      (r.val = 0 → s.fld .pwr MGT_CTL_CMD 3 0 ≤ 8 → ∀ k b, k < s.fld .pwr MGT_CTL_CMD 3 0 → data[k]? = some b →
        regByte t .pwr (if k < 4 then MGT_CTL_DATA0 else MGT_CTL_DATA1) (k % 4) = b) ∧
      (r.val ≠ 0 → RegsKept .pwr [MGT_CTL_STATUS, MGT_CTL_CMD] s t) ∧
      RegsKept .pwr [MGT_CTL_STATUS, MGT_CTL_CMD, MGT_CTL_DATA0, MGT_CTL_DATA1] s t ∧ BlocksKept [.pwr, .flt] s t) ∧
    (∀ n, s.pwr.job = some ⟨.attn, n⟩ → ∃ t, Sys2Proof.Machine.exec (.i2cCtlDone r data) s = .next t ∧ nextJob s t ∧
      (r.val = 0 → s.pwr.attnAt ≠ none → t.pwr.attnOwed = false) ∧
      (r.val ≠ 0 ∨ s.pwr.attnAt = none → t.pwr.attnOwed = s.pwr.attnOwed) ∧
      RegsKept .pwr (if r.val = 5 then [MGT_CTL_STATUS] else []) s t ∧ BlocksKept [.pwr, .flt] s t) ∧
    (∀ n, s.pwr.job = some ⟨.vreg, n⟩ → ∃ t, Sys2Proof.Machine.exec (.i2cCtlDone r data) s = .next t ∧
      (s.pwr.change.any (fun x => x.step == 0) = true → r.val ≠ 5 →
        Sys2Proof.Machine.exec (.clusterOpStep (decide (r.val = 0))) s = .next t) ∧
      (s.pwr.change = none → nextJob s t) ∧
      (s.pwr.waiting.contains .vreg = false → t.pwr.vcore = if r.val = 0 then s.pwr.vcoreOut else s.pwr.vcore) ∧
      (r.val = 5 → t.flag .pwr MGT_CTL_STATUS 29 = true ∧ t.flag .flt FLT_STATUS 30 = true) ∧
      BlocksKept [.pwr, .flt, .pix] s t)) ∧
  (∀ s : State,
    (s.pwr.job = none → Sys2Proof.Machine.exec .i2cArbLost s = .next s) ∧
    (∀ j, s.pwr.job = some j → ∃ t, Sys2Proof.Machine.exec .i2cArbLost s = .next t ∧
      t.rd .pwr MGT_CNT_ARB = satAttempt (s.rd .pwr MGT_CNT_ARB) ∧
      (j.tries < 7 → t.pwr.job = some { j with tries := j.tries + 1 } ∧
        t.pwr.waiting = s.pwr.waiting ∧ RegsKept .pwr [MGT_CNT_ARB] s t) ∧
      (j.kind = .pf0 → 7 ≤ j.tries → ends 3 s t) ∧
      (j.kind = .attn → 7 ≤ j.tries → nextJob s t ∧ t.pwr.attnOwed = s.pwr.attnOwed ∧ RegsKept .pwr [MGT_CNT_ARB] s t) ∧
      (j.kind = .vreg → t.pwr.vcore = s.pwr.vcore) ∧
      (j.kind ≠ .vreg → RegsKept .pwr [MGT_CNT_ARB, MGT_CTL_STATUS, MGT_CTL_CMD] s t ∧ BlocksKept [.pwr] s t) ∧
      BlocksKept [.pwr, .flt, .pix] s t)) ∧
  ∀ (stuck : Bool) (s : State),
    (s.pwr.job = none → Sys2Proof.Machine.exec (.i2cSclTimeout stuck) s =
      .next { s with pwr := { s.pwr with latch := none } }) ∧
    (∀ j, s.pwr.job = some j → ∃ t, Sys2Proof.Machine.exec (.i2cSclTimeout stuck) s = .next t ∧ t.pwr.latch = none ∧
      (j.kind = .pf0 → ends (if stuck then 5 else 4) s t) ∧
      (j.kind = .attn → nextJob s t ∧ t.pwr.attnOwed = s.pwr.attnOwed) ∧
      (j.kind = .vreg → t.pwr.vcore = s.pwr.vcore) ∧
      (stuck = true → t.flag .pwr MGT_CTL_STATUS 29 = true ∧ t.flag .flt FLT_STATUS 30 = true) ∧
      (j.kind ≠ .vreg → RegsKept .pwr [MGT_CTL_STATUS, MGT_CTL_CMD] s t) ∧ BlocksKept [.pwr, .flt, .pix] s t)

/-- A report of a contained code completes with FLT_STATUS.FIRST_VALID 1.  The first report of its cycle makes the record of R391 with the next SEQ.  With 2 slots free it goes to slot PROD mod 256 and PROD and SEQ go up by one;
without, FLT_COAL of its code and FLT_NOT_LOGGED count, COALESCING is 1, and the codes, the count and the TB of the first are kept.  An OVERFLOW record
owed goes first where 2 slots are free, with the number not logged, and the report follows it if 2 slots are still free.  FLT_FIRST takes the record only
while it is empty.  Two reports of one cycle leave the same log whichever command comes first, the lower DOMAIN, then
INST, in front.  Reserved codes are not reported.  An excess of VC 0 or VC 1 is such a report, with code 0x01. -/
def Obligations.ReportedFaultsAreLogged : Prop :=
  let alone (s : State) := s.flt.cyc.all (fun c => c.tb != s.now) = true
  (∀ (d : Fin 60) (code : Byte) (inst : BitVec 16) (detail : BitVec 64) (s : State),
    let n := code.toNat
    let r (seq : Word) := faultRecord 1 1 d n inst.toNat seq 0 s.now detail.toNat
    let ovf (o : Owed) := faultRecord 2 0 0 0 0 s.flt.nextSeq (min 0xFFFFFFFF o.count) o.tb (o.first + o.last * 2 ^ 16)
    let prod := s.rd .flt FLT_LOG_PROD
    let free := 256 - (prod - s.rd .flt FLT_LOG_CONS).toNat
    let inSlot (t : State) (p : Word) (l : List Word) :=
      ∀ w, w < 8 → t.rd .flt (FLT_LOG (p.toNat % 256 * 8 + w)) = atD l w 0#32
    let first (t : State) (l : List Word) := t.flag .flt FLT_STATUS 30 = true ∧
      ∀ w, w < 8 → t.rd .flt (FLT_FIRST w) = if s.flag .flt FLT_STATUS 30 then s.rd .flt (FLT_FIRST w) else atD l w 0#32
    let missed (t : State) (o : Owed) := t.rd .flt (FLT_COAL n) = satAdd (s.rd .flt (FLT_COAL n)) 1 ∧
      t.rd .flt FLT_NOT_LOGGED = satAdd (s.rd .flt FLT_NOT_LOGGED) 1 ∧ t.flt.owed = some o ∧ t.flag .flt FLT_STATUS 28 = true
    (isContained n = false → isFatal n = false → Sys2Proof.Machine.exec (.faultReport d code inst detail) s = .next s) ∧
    (isContained n = true → ∃ t, Sys2Proof.Machine.exec (.faultReport d code inst detail) s = .next t ∧
      t.flag .flt FLT_STATUS 30 = true ∧ Kept [.flt] s t) ∧
    (isContained n = true → alone s → ∃ t, Sys2Proof.Machine.exec (.faultReport d code inst detail) s = .next t ∧
      (s.flt.owed = none → 2 ≤ free → inSlot t prod (r s.flt.nextSeq) ∧ t.rd .flt FLT_LOG_PROD = prod + 1#32 ∧
        t.flt.nextSeq = s.flt.nextSeq + 1#32 ∧ t.flt.owed = none ∧ t.flag .flt FLT_STATUS 28 = false ∧
        t.flag .flt FLT_STATUS 29 = decide (free = 2) ∧ first t (r s.flt.nextSeq)) ∧
      (s.flt.owed = none → free < 2 → missed t ⟨1, n, n, s.now⟩ ∧ t.rd .flt FLT_LOG_PROD = prod ∧
        t.flt.nextSeq = s.flt.nextSeq ∧ t.flag .flt FLT_STATUS 29 = true ∧ first t (r s.flt.nextSeq)) ∧
      (∀ o, s.flt.owed = some o →
        (free < 2 → missed t { o with count := o.count + 1, last := n } ∧ t.rd .flt FLT_LOG_PROD = prod ∧
          first t (r s.flt.nextSeq)) ∧
        (free = 2 → inSlot t prod (ovf o) ∧ missed t ⟨1, n, n, s.now⟩ ∧ t.rd .flt FLT_LOG_PROD = prod + 1#32 ∧
          first t (r (s.flt.nextSeq + 1#32))) ∧
        (3 ≤ free → inSlot t prod (ovf o) ∧ inSlot t (prod + 1#32) (r (s.flt.nextSeq + 1#32)) ∧
          t.rd .flt FLT_LOG_PROD = prod + 2#32 ∧ t.flt.owed = none ∧ t.flag .flt FLT_STATUS 28 = false ∧
          first t (r (s.flt.nextSeq + 1#32)))) ∧
      RegsKept .flt ([FLT_STATUS, FLT_LOG_PROD, FLT_NOT_LOGGED, FLT_COAL n] ++ (List.range 8).map FLT_FIRST ++
        (List.range 2048).map FLT_LOG) s t ∧ Kept [.flt] s t)) ∧
  (∀ (d1 d2 : Fin 60) (c1 c2 : Byte) (i1 i2 : BitVec 16) (x1 x2 : BitVec 64) (s t1 t2 : State),
    isContained c1.toNat = true → isContained c2.toNat = true → alone s →
    d1.val < d2.val ∨ d1.val = d2.val ∧ i1.toNat < i2.toNat →
    Sys2Proof.Machine.exec (.faultReport d1 c1 i1 x1) s = .next t1 →
    Sys2Proof.Machine.exec (.faultReport d2 c2 i2 x2) s = .next t2 →
    Sys2Proof.Machine.exec (.faultReport d1 c1 i1 x1) t2 = Sys2Proof.Machine.exec (.faultReport d2 c2 i2 x2) t1) ∧
  ∀ (router : Fin 16) (vc : Fin 2) (s : State),
    (∃ t, Sys2Proof.Machine.exec (.nocPriorityOverrun router vc) s = .next t ∧ t.flag .flt FLT_STATUS 30 = true ∧
      Kept [.flt] s t) ∧
    Sys2Proof.Machine.exec (.nocPriorityOverrun router vc) s =
      Sys2Proof.Machine.exec (.faultReport 5 0x01#8 (BitVec.ofNat 16 router) (BitVec.ofNat 64 vc)) s

/-- A fatal fault of a core that runs ends in the safe state: DSTATE FAULT, every back-channel, Caravan port and the PCIe link down, ATTN_STATUS.FATAL set, and
its record in FLT_FATAL unless one is held (stated where the cycle had no other report), and no command or wake of the device under way.  A fault of no domain of its own has DOMAIN 55: the model's choice (log 13), R391 giving the field but no such source.  So act a report of a fatal code, the management watchdog 100 ms after firmware started (it notes when), the loss
of REFCLK_SYS (shown) and of the timebase PLL, an error in the verdict tables or on VC 0 or 1, a slot without a frame on an enabled bus in RUN, and Tj
above the trip point.  Without a running core none is reported.  A warning is a report once, until Tj has fallen 5 degrees below the maximum. -/
def Obligations.FatalFaultsStopTheDevice : Prop :=
  let alone (s : State) := s.flt.cyc.all (fun c => c.tb != s.now) = true
  let safe (domain code inst detail : Nat) (s t : State) := dstate t = 4 ∧ (∀ p, p < 28 → portState t p = phOff) ∧
    t.host.up = false ∧ tbit t.pwr.attnStatus 0 = true ∧ t.pwr.devCmd = none ∧ t.pwr.exitAt = none ∧ t.pwr.wakeHeld = 0 ∧ t.flag .flt FLT_STATUS 31 = true ∧
    t.flag .flt FLT_STATUS 30 = true ∧
    (alone s → s.flag .flt FLT_STATUS 31 = true → ∀ w, w < 8 → t.rd .flt (FLT_FATAL w) = s.rd .flt (FLT_FATAL w)) ∧
    (alone s → s.flag .flt FLT_STATUS 31 = false → s.flt.owed = none → ∀ w, w < 8 → t.rd .flt (FLT_FATAL w) =
      atD (faultRecord 1 2 domain code inst s.flt.nextSeq 0 s.now detail) w 0#32) ∧
    t.now = s.now ∧ BlocksKept [.cvn, .dma, .evt, .flt, .host, .lnk, .phy, .pix, .pwm, .pwr, .time] s t
  (∀ (d : Fin 60) (k : Byte) (i : BitVec 16) (x : BitVec 64) (s : State),
    (isFatal k.toNat = true → s.pwr.coreUp = false → Sys2Proof.Machine.exec (.faultReport d k i x) s = .next s) ∧
    (isFatal k.toNat = true → s.pwr.coreUp = true → ∃ t, Sys2Proof.Machine.exec (.faultReport d k i x) s = .next t ∧ safe d k.toNat i.toNat x.toNat s t)) ∧
  (∀ s : State,
    (s.pwr.coreUp = false → Sys2Proof.Machine.exec .tbPllLoss s = .next s) ∧
    (s.pwr.coreUp = true → ∃ t, Sys2Proof.Machine.exec .tbPllLoss s = .next t ∧ safe 3 0xF4 0 0 s t)) ∧
  (∀ (b : BitVec 16) (e : BitVec 64) (s : State),
    (s.pwr.coreUp = false → Sys2Proof.Machine.exec (.verdictEcc b e) s = .next s) ∧
    (s.pwr.coreUp = true → ∃ t, Sys2Proof.Machine.exec (.verdictEcc b e) s = .next t ∧ safe 53 0xF2 b.toNat e.toNat s t)) ∧
  (∀ (r : Fin 16) (vc : Fin 2) (s : State),
    (s.pwr.coreUp = false → Sys2Proof.Machine.exec (.nocEcc r vc) s = .next s) ∧
    (s.pwr.coreUp = true → ∃ t, Sys2Proof.Machine.exec (.nocEcc r vc) s = .next t ∧ safe 5 0xF3 r vc s t)) ∧
  (∀ (pc : BitVec 64) (s : State),
    let hung := s.pwr.coreUp = true ∧ s.pwr.fwRuns = true ∧ s.pwr.fwFrom + 100000000 ≤ s.now
    (¬ hung → Sys2Proof.Machine.exec (.mgmtWdog pc) s = .next s) ∧
    (hung → ∃ t, Sys2Proof.Machine.exec (.mgmtWdog pc) s = .next t ∧
      safe 55 0xF1 0 pc.toNat s t ∧ t.flt.wdogSafe = some s.now)) ∧
  (∀ s : State,
    (s.pwr.coreUp = false → Sys2Proof.Machine.exec .refclkSysLoss s =
      .next { s with time := { s.time with refSysOk := false } }) ∧
    (s.pwr.coreUp = true → ∃ t, Sys2Proof.Machine.exec .refclkSysLoss s = .next t ∧ safe 55 0xF0 0 0 s t ∧
      t.time.refSysOk = false)) ∧
  (∀ (n : Fin 8) (s : State),
    let k := (s.now + 3040) / 5000
    let misses := s.flag .ejt (EJT_BUS_CTRL n) 31 = true ∧ dstate s = 1 ∧ ∀ j, (ejBus s n).slot = some j → j < k
    (¬ misses ∨ s.pwr.coreUp = false → Sys2Proof.Machine.exec (.ejSlotMiss n) s = .next s) ∧
    (misses → s.pwr.coreUp = true → ∃ t, Sys2Proof.Machine.exec (.ejSlotMiss n) s = .next t ∧
      safe 49 0xF5 n (k % 2 ^ 32) s t)) ∧
  ∀ (tj : BitVec 16) (s : State),
    let top : Int := if s.time.part = .wap24_48C then 190 else 210
    let held : State := { s with pwr := { s.pwr with tj := tj.toNat } }
    (tj.toInt ≤ top + 30 ∨ s.pwr.coreUp = false → Sys2Proof.Machine.exec (.thermalTrip tj) s = .next held) ∧
    (top + 30 < tj.toInt → s.pwr.coreUp = true → ∃ t, Sys2Proof.Machine.exec (.thermalTrip tj) s = .next t ∧
      safe 55 0xF6 0 tj.toNat s t ∧ t.pwr.tj = tj.toNat) ∧
    (tj.toInt ≤ top - 10 → Sys2Proof.Machine.exec (.thermalWarn tj) s =
      .next { held with flt := { s.flt with warnArmed := true } }) ∧
    (top - 10 < tj.toInt → tj.toInt ≤ top ∨ s.flt.warnArmed = false →
      Sys2Proof.Machine.exec (.thermalWarn tj) s = .next held) ∧
    (top < tj.toInt → s.flt.warnArmed = true →
      let unarmed : State := { held with flt := { s.flt with warnArmed := false } }
      Sys2Proof.Machine.exec (.thermalWarn tj) s =
        Sys2Proof.Machine.exec (.faultReport 55 0x60#8 0#16 (tj.zeroExtend 64)) unarmed)

/-- FLT_LOG_CONS with the mirror on or beyond PROD is ignored with CFG_ERR; else it is stored, and an OVERFLOW record owed follows where 2 slots are
free.  With the mirror on the log's records go to staging in order while it has room, and from there, with the link up, to the ring's next entries while
the ring has room; nothing else in host memory changes; vector 1 is sent (pending while masked: log 106) at most every 10 us.  A doorbell beyond PROD is ignored with MIR_ERR.  The clears empty their
capture, but a report of the same cycle is captured all the same: each of these acts before the reports of its cycle, whichever command comes first.
A kick starts the period anew and clears HOST_SILENT; PERIOD ms without one set it, once, and report it, which a kick of the same cycle undoes. -/
def Obligations.LogMirrorAndHostWatchdog : Prop :=
  let alone (s : State) := s.flt.cyc.all (fun c => c.tb != s.now) = true
  let ovf (free : Nat) (s t : State) :=
    (s.flt.owed = none ∨ free < 2 → t.rd .flt FLT_LOG_PROD = s.rd .flt FLT_LOG_PROD ∧ t.flt.owed = s.flt.owed ∧
      t.flt.nextSeq = s.flt.nextSeq) ∧
    (∀ o, s.flt.owed = some o → 2 ≤ free → t.rd .flt FLT_LOG_PROD = s.rd .flt FLT_LOG_PROD + 1#32 ∧ t.flt.owed = none ∧
      t.flt.nextSeq = s.flt.nextSeq + 1#32 ∧ ∀ w, w < 8 → t.rd .flt (FLT_LOG ((s.rd .flt FLT_LOG_PROD).toNat % 256 * 8 + w)) =
        atD (faultRecord 2 0 0 0 0 s.flt.nextSeq (min 0xFFFFFFFF o.count) o.tb (o.first + o.last * 2 ^ 16)) w 0#32) ∧
    t.flag .flt FLT_STATUS 28 = t.flt.owed.isSome
  let cleared (reg : Nat → Nat) (i : Nat) (s t : State) := Kept [.flt] s t ∧
    (alone s → (∀ w, w < 8 → t.rd .flt (reg w) = 0#32) ∧ t.flag .flt FLT_STATUS i = false ∧
      RegsKept .flt (FLT_STATUS :: (List.range 8).map reg) s t)
  (∀ (v : Word) (s : State),
    let cons := s.rd .flt FLT_LOG_CONS
    let prod := s.rd .flt FLT_LOG_PROD
    let bad := s.flag .flt FLT_CTRL 31 = true ∨ (prod - cons).toNat < (v - cons).toNat
    ∃ t, Sys2Proof.Machine.exec (.fltLogConsWrite v) s = .next t ∧ Kept [.flt] s t ∧
      (alone s → (bad → t.flag .flt FLT_STATUS 0 = true ∧ RegsKept .flt [FLT_STATUS] s t) ∧
        (¬ bad → t.rd .flt FLT_LOG_CONS = v ∧ ovf (256 - (prod - v).toNat) s t))) ∧
  (∀ s : State,
    let used := (s.rd .flt FLT_LOG_PROD - s.rd .flt FLT_LOG_CONS).toNat
    let st := s.flt.staging.length
    let prod := s.rd .flt FLT_MIR_PROD
    let size := 2 ^ s.fld .flt FLT_MIR_SIZE 4 0
    let room := size - (prod - s.rd .flt FLT_MIR_CONS).toNat
    let out1 := if s.host.up then min st room else 0
    let moved := min used (65536 - (st - out1))
    let n := out1 + if s.host.up then min (st - out1 + moved) (room - out1) else 0
    let recs := (List.range moved).map (fun i => (List.range 8).map (fun w =>
      s.rd .flt (FLT_LOG (((s.rd .flt FLT_LOG_CONS).toNat + i) % 256 * 8 + w))))
    let all := s.flt.staging ++ recs
    let slot (j : Nat) := s.rd64 .flt FLT_MIR_BASE_LO FLT_MIR_BASE_HI + (prod.toNat + j) % size * 32
    let byte (t : State) (a : Nat) := Tab.get (fun _ => (0#8 : Byte)) t.host.mem a
    let owes := s.flt.mirOwed || (decide (0 < n) && s.flag .flt FLT_CTRL 30)
    let sends := owes = true ∧ s.host.up = true ∧ ∀ x, s.flt.mirInt = some x → x + 10000 ≤ s.now
    let w := fun i => msixWord s 0 1 i
    let msg := join32 (w 0) (w 1)
    let goes := sends ∧ bit (w 3) 0 = false
    let sent (t : State) := Tab.get (fun _ => 0) t.host.sent (vecKey 0 1)
    (s.flag .flt FLT_CTRL 31 = false → Sys2Proof.Machine.exec .fltMirrorMove s = .next s) ∧
    (s.flag .flt FLT_CTRL 31 = true → ∃ t, Sys2Proof.Machine.exec .fltMirrorMove s = .next t ∧ Kept [.flt, .host] s t) ∧
    (s.flag .flt FLT_CTRL 31 = true → alone s → (∀ r ∈ s.flt.staging, r.length = 8) → ∃ t,
      Sys2Proof.Machine.exec .fltMirrorMove s = .next t ∧ t.flt.staging = all.drop n ∧
      t.rd .flt FLT_STAGE_COUNT = BitVec.ofNat 32 (all.drop n).length ∧
      t.rd .flt FLT_LOG_CONS = s.rd .flt FLT_LOG_CONS + BitVec.ofNat 32 moved ∧
      t.rd .flt FLT_MIR_PROD = prod + BitVec.ofNat 32 n ∧ ovf (256 - (used - moved)) s t ∧
      (∀ j r, j < n → all[j]? = some r → ∀ k, k < 32 →
        (goes → slot j + k < msg ∨ msg + 4 ≤ slot j + k) →
        byte t (slot j + k) = atD (r.flatMap (fun w => leBytes 4 w.toNat)) k 0#8) ∧
      (∀ a, (∀ j, j < n → a < slot j ∨ slot j + 32 ≤ a) → (goes → a < msg ∨ msg + 4 ≤ a) → byte t a = byte s a) ∧
      (goes → sent t = sent s + 1 ∧ ∀ i, i < 4 → byte t (msg + i) = atD (leBytes 4 (w 2).toNat) i 0#8) ∧
      (¬ goes → t.host.sent = s.host.sent) ∧
      (sends → Tab.get (fun _ => false) t.host.vecPend (vecKey 0 1) = bit (w 3) 0) ∧
      (sends → t.flt.mirOwed = false ∧ t.flt.mirInt = some s.now) ∧
      (¬ sends → t.flt.mirOwed = owes ∧ t.flt.mirInt = s.flt.mirInt ∧ t.host.vecPend = s.host.vecPend) ∧
      Kept [.flt, .host] s t)) ∧
  (∀ (v : Word) (s : State),
    let cons := s.rd .flt FLT_MIR_CONS
    let bad := (s.rd .flt FLT_MIR_PROD - cons).toNat < (v - cons).toNat
    ∃ t, Sys2Proof.Machine.exec (.fltMirDoorbell v) s = .next t ∧ Kept [.flt] s t ∧
      (alone s → (bad → t.flag .flt FLT_STATUS 1 = true ∧ RegsKept .flt [FLT_STATUS] s t) ∧
        (¬ bad → t.rd .flt FLT_MIR_CONS = v ∧ RegsKept .flt [FLT_MIR_CONS] s t))) ∧
  (∀ (v : Word) (c : Instr) (d : Fin 60) (code : Byte) (inst : BitVec 16) (x : BitVec 64) (s t1 t2 : State),
    c ∈ [Instr.fltLogConsWrite v, .fltMirDoorbell v, .fltMirrorMove, .fltClearFirst, .fltClearFatal] →
    isContained code.toNat = true → alone s → Sys2Proof.Machine.exec (.faultReport d code inst x) s = .next t1 →
    Sys2Proof.Machine.exec c s = .next t2 →
    Sys2Proof.Machine.exec c t1 = Sys2Proof.Machine.exec (.faultReport d code inst x) t2) ∧
  (∀ s : State,
    (∃ t, Sys2Proof.Machine.exec .fltClearFirst s = .next t ∧ cleared FLT_FIRST 30 s t) ∧
    (∃ t, Sys2Proof.Machine.exec .fltClearFatal s = .next t ∧ cleared FLT_FATAL 31 s t) ∧
    (∀ c, s.flt.cyc = some c → c.tb = s.now → c.left = s.flt.regs → c.reps ≠ [] → ∃ t,
      Sys2Proof.Machine.exec .fltClearFirst s = .next t ∧ t.flag .flt FLT_STATUS 30 = true)) ∧
  ∀ s : State,
    let expires := s.flag .flt FLT_HOST_WDOG 31 = true ∧ s.flt.wdogDone = false ∧
      s.flt.wdogFrom + s.fld .flt FLT_HOST_WDOG 15 0 * 1000000 ≤ s.now
    let noCycle (t : State) : State := { t with flt := { t.flt with cyc := none } }
    (∃ t, Sys2Proof.Machine.exec .hostKick s = .next t ∧ t.flag .flt FLT_STATUS 27 = false ∧ t.flt.wdogFrom = s.now ∧
      t.flt.wdogDone = false ∧ Kept [.flt] s t ∧ (alone s → RegsKept .flt [FLT_STATUS] s t ∧
        t.flt = { s.flt with regs := t.flt.regs, wdogFrom := s.now, wdogDone := false })) ∧
    (∀ t, alone s → Sys2Proof.Machine.exec .hostSilent s = .next t → ∃ t1 t2,
      Sys2Proof.Machine.exec .hostKick t = .next t1 ∧ Sys2Proof.Machine.exec .hostKick s = .next t2 ∧
      noCycle t1 = noCycle t2) ∧
    (¬ expires → Sys2Proof.Machine.exec .hostSilent s = .next s) ∧
    (expires → ∃ t, Sys2Proof.Machine.exec .hostSilent s = .next t ∧ t.flag .flt FLT_STATUS 27 = true ∧ t.flt.wdogDone = true ∧
      t.flag .flt FLT_STATUS 30 = true ∧ Kept [.flt] s t)

/-- With every supply up and no power sequence under way the core starts: the straps are latched, SPAN_ROOT shows, the scan instruction lets the pins
go and a refusal it kept is reported; else nothing changes.  In BOOT, firmware starts if in flash mode the image or its copy passes and in recovery if
the image sent passes and some of it has been sent; flash mode with neither sets BOOT_FAIL, host download waits for the host.  With firmware running BOOT ends in RUN with
WAKE_DONE, and PG_FAIL where the Oasis holds it.
EXTEST, CLAMP, HIGHZ, EXTEST_PULSE and EXTEST_TRAIN take the pins while PORST_N holds the core with every supply up: the instruction is selected, HIGHZ
puts the pins in high impedance and the others hold them, the pulse and train tests run the AC test, and those with the boundary register update it from
the cell next to TDI on.  Else they act as BYPASS, and TEST_REJ shows if the core runs and is kept if not.  SAMPLE_PRELOAD updates the register
without the pins; IDCODE and the reset of the TAP select IDCODE; a code that R404 does not list, and 0xFF, is BYPASS.  A leg driven with both cells at 1
drives 0. -/
def Obligations.CoreStartsAndScanTakesPins : Prop :=
  ((∀ (straps : BitVec 6) (s : State),
     let ready := s.pwr.coreUp = false ∧ s.pwr.goingUp = false ∧ s.pwr.goingDown = false ∧ pgNow s = 15
     (¬ ready → Sys2Proof.Machine.exec (.coreResetRelease straps) s = .next s) ∧
     (ready → ∃ t, Sys2Proof.Machine.exec (.coreResetRelease straps) s = .next t ∧ t.pwr.coreUp = true ∧
       t.rd .pwr OAS_STRAPS = straps.zeroExtend 32 ∧ t.flag .cvn CVN_STATUS 31 = straps.getLsbD 1 ∧
       t.flag .flt FLT_STATUS 26 = (s.tap.testRej || s.flag .flt FLT_STATUS 26) ∧
       t.tap = { s.tap with coreHeld := false, pinsHeld := false, highz := false, acTest := false, testRej := false } ∧
       RegsKept .pwr [OAS_STRAPS] s t ∧ RegsKept .cvn [CVN_STATUS] s t ∧ RegsKept .flt [FLT_STATUS] s t ∧
       RegsKept .mot [] s t ∧ t.time = s.time.atCold ∧ t.now = 0 ∧ t.host = s.host ∧ t.erg = s.erg ∧ t.seq = s.seq ∧ t.pending = s.pending)) ∧
   (∀ (ok1 ok2 : Bool) (s : State),
     let boots := s.pwr.coreUp = true ∧ dstate s = 0 ∧ s.pwr.fwRuns = false
     let passes := bootMode s = 0 ∧ (ok1 = true ∨ ok2 = true) ∨ 2 ≤ bootMode s ∧ ok1 = true ∧ 0 < s.pwr.fwPieces
     (¬ boots → Sys2Proof.Machine.exec (.firmwareAuth ok1 ok2) s = .next s) ∧
     (boots → passes → Sys2Proof.Machine.exec (.firmwareAuth ok1 ok2) s =
       .next { s with pwr := { s.pwr with fwRuns := true, fwFrom := s.now } }) ∧
     (boots → ¬ passes → bootMode s = 0 → Sys2Proof.Machine.exec (.firmwareAuth ok1 ok2) s =
       .next { s with pwr := { s.pwr with bootFail := true } }) ∧
     (boots → ¬ passes → bootMode s ≠ 0 → Sys2Proof.Machine.exec (.firmwareAuth ok1 ok2) s = .next s)) ∧
   ∀ s : State,
     let starts := s.pwr.coreUp = true ∧ s.pwr.fwRuns = true ∧ dstate s = 0
     (¬ starts → Sys2Proof.Machine.exec .bootDone s = .next s) ∧
     (starts → ∃ t, Sys2Proof.Machine.exec .bootDone s = .next t ∧ dstate t = 1 ∧ tbit t.pwr.attnStatus 2 = true ∧
       tbit t.pwr.attnStatus 1 = (tbit s.pwr.attnStatus 1 || s.flag .pwr OAS_STATUS 0) ∧ RegsKept .pwr [PWR_STATUS] s t ∧
       Kept [.pwr] s t)) ∧
  let selected (s : State) (ir : Byte) (i : TapInstr) (pins hiz ac : Bool) (b : Tab Bool) := { s.tap with
    ir := ir, instr := i, pinsHeld := pins, highz := hiz, acTest := ac, bypassBit := false, boundary := b }
  let updated (s t : State) (cells : List Bool) := ∀ k, scanCell t k =
    if k < scanLength ∧ k < cells.length then atD cells k false else scanCell s k
  let rejected (ir : Byte) (s t : State) :=
    (s.pwr.coreUp = true → t.flag .flt FLT_STATUS 26 = true ∧
      t.tap = selected s ir .bypass false false false s.tap.boundary ∧
      (s.flt.cyc.all (fun c => c.tb != s.now) = true →
        RegsKept .flt [FLT_STATUS] s t ∧ t.flt = { s.flt with regs := t.flt.regs })) ∧
    (s.pwr.coreUp = false → t.flt = s.flt ∧
      t.tap = { selected s ir .bypass false false false s.tap.boundary with testRej := true }) ∧
    Kept [.flt] { s with tap := t.tap } t
  let taken (ir : Byte) (i : TapInstr) (ac : Bool) (cells : List Bool) (s t : State) :=
    t.tap = selected s ir i true false ac t.tap.boundary ∧ updated s t cells ∧ Kept [] { s with tap := t.tap } t
  (∀ (cells : List Bool) (s : State),
    (s.tap.coreHeld = false → ∃ t, Sys2Proof.Machine.exec (.extest cells) s = .next t ∧ rejected 0x00#8 s t) ∧
    (s.tap.coreHeld = true → ∃ t, Sys2Proof.Machine.exec (.extest cells) s = .next t ∧ taken 0x00#8 .extest false cells s t) ∧
    (s.tap.coreHeld = false → ∃ t, Sys2Proof.Machine.exec (.extestPulse cells) s = .next t ∧ rejected 0x06#8 s t) ∧
    (s.tap.coreHeld = true → ∃ t, Sys2Proof.Machine.exec (.extestPulse cells) s = .next t ∧ taken 0x06#8 .extestPulse true cells s t) ∧
    (s.tap.coreHeld = false → ∃ t, Sys2Proof.Machine.exec (.extestTrain cells) s = .next t ∧ rejected 0x07#8 s t) ∧
    (s.tap.coreHeld = true → ∃ t, Sys2Proof.Machine.exec (.extestTrain cells) s = .next t ∧ taken 0x07#8 .extestTrain true cells s t)) ∧
  (∀ s : State,
    (s.tap.coreHeld = false → ∃ t, Sys2Proof.Machine.exec .clamp s = .next t ∧ rejected 0x04#8 s t) ∧
    (s.tap.coreHeld = false → ∃ t, Sys2Proof.Machine.exec .highz s = .next t ∧ rejected 0x05#8 s t) ∧
    (s.tap.coreHeld = true → Sys2Proof.Machine.exec .clamp s =
      .next { s with tap := selected s 0x04#8 .clamp true false false s.tap.boundary }) ∧
    (s.tap.coreHeld = true → Sys2Proof.Machine.exec .highz s =
      .next { s with tap := selected s 0x05#8 .highz false true false s.tap.boundary })) ∧
  (∀ (cells : List Bool) (s : State), ∃ t, Sys2Proof.Machine.exec (.samplePreload cells) s = .next t ∧
    t.tap = selected s 0x01#8 .samplePreload false false false t.tap.boundary ∧ updated s t cells ∧
    Kept [] { s with tap := t.tap } t) ∧
  (∀ s : State,
    Sys2Proof.Machine.exec .idcode s =
      .next { s with tap := selected s 0xFE#8 .idcode false false false s.tap.boundary } ∧
    Sys2Proof.Machine.exec .tapReset s =
      .next { s with tap := selected s 0xFE#8 .idcode false false false s.tap.boundary }) ∧
  (∀ (code : Byte) (s : State),
    (code ∈ [0x00#8, 0x01#8, 0x04#8, 0x05#8, 0x06#8, 0x07#8, 0xFE#8] →
      Sys2Proof.Machine.exec (.bypass code) s = .next s) ∧
    (code ∉ [0x00#8, 0x01#8, 0x04#8, 0x05#8, 0x06#8, 0x07#8, 0xFE#8] → Sys2Proof.Machine.exec (.bypass code) s =
      .next { s with tap := selected s code .bypass false false false s.tap.boundary })) ∧
  ∀ (s : State) (n : Nat), n < 8 → scanCell s (cellPlace (49 + n) 1) = true →
    scanCell s (cellPlace (49 + n) 2) = true → scanLeg s n = (false, false)
end

