-- ==== Sys2Proof/Laws/Bits.lean ====
section
/-! SUPPORT. Laws of bit fields: what a field or a bit reads after a field or a bit was replaced. -/
namespace Sys2Proof.Machine

theorem getLsbD_maskOf (hi lo j : Nat) (hj : j < 32) :
    (maskOf hi lo).getLsbD j = (decide (lo ≤ j) && decide (j < hi + 1)) := by
  unfold maskOf
  rw [BitVec.getLsbD_ofNat]
  simp only [hj, decide_true, Bool.true_and, Nat.testBit_mul_two_pow]
  by_cases h : lo ≤ j
  · simp only [h, decide_true, Bool.true_and]
    rw [Nat.testBit_two_pow_sub_one]
    congr 1
    apply propext
    omega
  · simp [h]

/-- A bit of a value whose field was replaced. -/
theorem getLsbD_putBits (v : Word) (hi lo x j : Nat) (hj : j < 32) :
    (putBits v hi lo x).getLsbD j = if lo ≤ j ∧ j ≤ hi then x.testBit (j - lo) else v.getLsbD j := by
  unfold putBits
  simp only [BitVec.getLsbD_or, BitVec.getLsbD_and, BitVec.getLsbD_not, hj, decide_true, Bool.true_and,
    getLsbD_maskOf _ _ _ hj, BitVec.getLsbD_ofNat, Nat.testBit_mul_two_pow, Nat.testBit_mod_two_pow]
  by_cases h1 : lo ≤ j <;> by_cases h2 : j ≤ hi
  · have : j - lo < hi + 1 - lo := by omega
    simp [h1, h2, this, Nat.lt_succ_of_le h2]
  · have h3 : ¬ j < hi + 1 := by omega
    have h4 : ¬ j - lo < hi + 1 - lo := by omega
    simp [h1, h2, h3, h4]
  · simp [h1]
  · simp [h1]

/-- A replaced bit reads what was put. -/
@[simp] theorem bit_putBit_same (v : Word) (i : Nat) (x : Bool) (hi : i < 32) :
    bit (putBit v i x) i = x := by
  unfold bit putBit
  rw [getLsbD_putBits _ _ _ _ _ hi]
  cases x <;> simp

/-- Replacing a bit leaves the others. -/
theorem bit_putBit_ne (v : Word) (i j : Nat) (x : Bool) (h : j ≠ i) : bit (putBit v i x) j = bit v j := by
  unfold bit putBit
  by_cases hj : j < 32
  · rw [getLsbD_putBits _ _ _ _ _ hj, if_neg (by omega)]
  · rw [BitVec.getLsbD_of_ge _ _ (by omega), BitVec.getLsbD_of_ge _ _ (by omega)]

theorem bit_putBits_ne (v : Word) (hi lo x j : Nat) (h : j < lo ∨ hi < j) :
    bit (putBits v hi lo x) j = bit v j := by
  unfold bit
  by_cases hj : j < 32
  · rw [getLsbD_putBits _ _ _ _ _ hj, if_neg (by omega)]
  · rw [BitVec.getLsbD_of_ge _ _ (by omega), BitVec.getLsbD_of_ge _ _ (by omega)]

theorem testBit_bits (v : Word) (hi lo k : Nat) :
    (bits v hi lo).testBit k = (decide (k < hi + 1 - lo) && v.getLsbD (k + lo)) := by
  unfold bits nbits
  rw [Nat.testBit_mod_two_pow, Nat.testBit_div_two_pow]
  rfl

/-- A replaced field reads what was put, modulo the field's size. -/
@[simp] theorem bits_putBits_same (v : Word) (hi lo x : Nat) (h : hi < 32) (hl : lo ≤ hi) :
    bits (putBits v hi lo x) hi lo = x % 2 ^ (hi + 1 - lo) := by
  apply Nat.eq_of_testBit_eq
  intro k
  rw [testBit_bits, Nat.testBit_mod_two_pow]
  by_cases hk : k < hi + 1 - lo
  · rw [getLsbD_putBits _ _ _ _ _ (by omega), if_pos (by omega), Nat.add_sub_cancel]
  · simp [hk]

/-- Replacing a field leaves a field that does not overlap it. -/
theorem bits_putBits_ne (v : Word) (hi lo x hi' lo' : Nat) (h : hi' < lo ∨ hi < lo') :
    bits (putBits v hi lo x) hi' lo' = bits v hi' lo' := by
  apply Nat.eq_of_testBit_eq
  intro k
  rw [testBit_bits, testBit_bits]
  by_cases hk : k < hi' + 1 - lo'
  · congr 1
    exact bit_putBits_ne v hi lo x (k + lo') (by omega)
  · simp [hk]

theorem bits_putBit_ne (v : Word) (i : Nat) (x : Bool) (hi lo : Nat) (h : i < lo ∨ hi < i) :
    bits (putBit v i x) hi lo = bits v hi lo := bits_putBits_ne v i i _ hi lo (by omega)

/-- A field that holds a replaced field of x: the smaller field reads the same bits of x. -/
theorem bit_putBits_in (v : Word) (hi lo x j : Nat) (hj : j < 32) (h1 : lo ≤ j) (h2 : j ≤ hi) :
    bit (putBits v hi lo x) j = x.testBit (j - lo) := by
  unfold bit
  rw [getLsbD_putBits _ _ _ _ _ hj, if_pos ⟨h1, h2⟩]

/-- The two halves of a 64-bit value spell it. -/
@[simp] theorem join32_lo32_hi32 (x : Nat) (h : x < 2 ^ 64) : join32 (lo32 x) (hi32 x) = x := by
  unfold join32 lo32 hi32
  rw [BitVec.toNat_append, BitVec.toNat_ofNat, BitVec.toNat_ofNat, Nat.shiftLeft_eq,
    Nat.mod_eq_of_lt (show x / 2 ^ 32 < 2 ^ 32 by omega), Nat.mul_comm,
    ← Nat.two_pow_add_eq_or_of_lt (Nat.mod_lt _ (by decide))]
  exact Nat.div_add_mod x (2 ^ 32)

end Sys2Proof.Machine
end

