-- ==== Sys2Proof/Laws/Tab.lean ====
section
/-! SUPPORT. Laws of the sparse tables: a read after a write, and the canonical form. -/
namespace Sys2Proof.Machine

variable {α : Type} (d : Nat → α)

@[simp] theorem Tab.get_nil (k : Nat) : Tab.get d [] k = d k := rfl

@[simp] theorem Tab.get_put_same (m : Tab α) (k : Nat) (v : α) : Tab.get d (Tab.put k v m) k = v := by
  induction m with
  | nil => simp [Tab.put, Tab.get]
  | cons e m ih =>
    obtain ⟨j, w⟩ := e
    unfold Tab.put
    split
    · simp [Tab.get]
    · split
      · simp [Tab.get]
      · rename_i h1 h2
        have : j ≠ k := fun h => h2 h.symm
        simp [Tab.get, this, ih]

theorem Tab.get_put_ne (m : Tab α) {k k' : Nat} (v : α) (h : k' ≠ k) :
    Tab.get d (Tab.put k v m) k' = Tab.get d m k' := by
  induction m with
  | nil => simp [Tab.put, Tab.get, h.symm]
  | cons e m ih =>
    obtain ⟨j, w⟩ := e
    unfold Tab.put
    split
    · simp [Tab.get, h.symm]
    · split
      · rename_i h2; subst h2; simp [Tab.get, h.symm]
      · simp [Tab.get, ih]

@[simp] theorem Tab.get_del_same (m : Tab α) (k : Nat) : Tab.get d (Tab.del k m) k = d k := by
  induction m with
  | nil => rfl
  | cons e m ih =>
    obtain ⟨j, w⟩ := e
    by_cases h : j = k
    · subst h; simpa [Tab.del] using ih
    · simpa [Tab.del, h, Tab.get] using ih

theorem Tab.get_del_ne (m : Tab α) {k k' : Nat} (h : k' ≠ k) :
    Tab.get d (Tab.del k m) k' = Tab.get d m k' := by
  induction m with
  | nil => rfl
  | cons e m ih =>
    obtain ⟨j, w⟩ := e
    by_cases hj : j = k
    · subst hj; simpa [Tab.del, Tab.get, h.symm] using ih
    · simp only [Tab.del, bne_iff_ne, ne_eq, hj, not_false_eq_true, List.filter_cons_of_pos, Tab.get] at ih ⊢
      rw [ih]

variable [DecidableEq α]

/-- A read after a write gives the value written. -/
@[simp] theorem Tab.get_set_same (m : Tab α) (k : Nat) (v : α) : Tab.get d (Tab.set d m k v) k = v := by
  unfold Tab.set
  split
  · rename_i h; simp [h]
  · simp

/-- A write leaves every other key alone. -/
theorem Tab.get_set_ne (m : Tab α) {k k' : Nat} (v : α) (h : k' ≠ k) :
    Tab.get d (Tab.set d m k v) k' = Tab.get d m k' := by
  unfold Tab.set
  split
  · exact Tab.get_del_ne d m h
  · exact Tab.get_put_ne d m v h

theorem Tab.get_set (m : Tab α) (k k' : Nat) (v : α) :
    Tab.get d (Tab.set d m k v) k' = if k' = k then v else Tab.get d m k' := by
  split
  · rename_i h; rw [h]; exact Tab.get_set_same d m k v
  · rename_i h; exact Tab.get_set_ne d m v h

@[simp] theorem Tab.get_upd_same (m : Tab α) (k : Nat) (f : α → α) :
    Tab.get d (Tab.upd d m k f) k = f (Tab.get d m k) := Tab.get_set_same d m k _

theorem Tab.get_upd_ne (m : Tab α) {k k' : Nat} (f : α → α) (h : k' ≠ k) :
    Tab.get d (Tab.upd d m k f) k' = Tab.get d m k' := Tab.get_set_ne d m _ h

/-- Writing a list leaves every key before it alone. -/
theorem Tab.get_setList_lt (l : List α) : ∀ (m : Tab α) (k k' : Nat), k' < k →
    Tab.get d (Tab.setList d m k l) k' = Tab.get d m k' := by
  induction l with
  | nil => intros; rfl
  | cons v vs ih =>
    intro m k k' h
    rw [Tab.setList, ih _ _ _ (by omega), Tab.get_set_ne d m v (by omega)]

/-- Writing a list leaves every key behind it alone. -/
theorem Tab.get_setList_ge (l : List α) : ∀ (m : Tab α) (k k' : Nat), k + l.length ≤ k' →
    Tab.get d (Tab.setList d m k l) k' = Tab.get d m k' := by
  induction l with
  | nil => intros; rfl
  | cons v vs ih =>
    intro m k k' h
    simp only [List.length_cons] at h
    rw [Tab.setList, ih _ _ _ (by omega), Tab.get_set_ne d m v (by omega)]

/-- A list written is read back. -/
theorem Tab.get_setList_mid (l : List α) : ∀ (m : Tab α) (k i : Nat) (v : α), l[i]? = some v →
    Tab.get d (Tab.setList d m k l) (k + i) = v := by
  induction l with
  | nil => intro m k i v h; simp at h
  | cons w vs ih =>
    intro m k i v h
    cases i with
    | zero =>
      simp only [List.getElem?_cons_zero, Option.some.injEq] at h
      subst h
      rw [Tab.setList, Tab.get_setList_lt d vs _ _ _ (by omega)]
      exact Tab.get_set_same d m k w
    | succ n =>
      simp only [List.getElem?_cons_succ] at h
      rw [Tab.setList, show k + (n + 1) = k + 1 + n by omega]
      exact ih _ _ _ _ h

/-! ### The canonical form -/

omit [DecidableEq α] in
theorem Tab.rising_put (m : Tab α) : ∀ (b : Option Nat) (k : Nat) (v : α), Tab.rising b m = true →
    (∀ j, b = some j → j < k) → Tab.rising b (Tab.put k v m) = true := by
  induction m with
  | nil => intro b k v _ hb; cases b <;> simp_all [Tab.put, Tab.rising]
  | cons e m ih =>
    intro b k v hm hb
    obtain ⟨j, w⟩ := e
    simp only [Tab.rising, Bool.and_eq_true] at hm
    unfold Tab.put
    split
    · rename_i h; cases b <;> simp_all [Tab.rising]
    · split
      · rename_i h; subst h; cases b <;> simp_all [Tab.rising]
      · have := ih (some j) k v hm.2 (by intro i hi; injection hi; omega)
        simp [Tab.rising, hm.1, this]

omit [DecidableEq α] in
theorem Tab.rising_weaken (m : Tab α) : ∀ (b : Option Nat) (k : Nat), (∀ j, b = some j → j < k) →
    Tab.rising (some k) m = true → Tab.rising b m = true := by
  intro b k hb h
  cases m with
  | nil => rfl
  | cons e m =>
    obtain ⟨j, w⟩ := e
    simp only [Tab.rising, Bool.and_eq_true, decide_eq_true_eq] at h ⊢
    refine ⟨?_, h.2⟩
    cases b with
    | none => rfl
    | some i => have := hb i rfl; simp; omega

omit [DecidableEq α] in
theorem Tab.rising_del (m : Tab α) : ∀ (b : Option Nat) (k : Nat), Tab.rising b m = true →
    Tab.rising b (Tab.del k m) = true := by
  induction m with
  | nil => intros; rfl
  | cons e m ih =>
    intro b k hm
    obtain ⟨j, w⟩ := e
    simp only [Tab.rising, Bool.and_eq_true] at hm
    by_cases hj : j = k
    · have h1 := ih (some j) k hm.2
      have h2 : Tab.rising b (Tab.del k m) = true := by
        refine Tab.rising_weaken _ b j ?_ h1
        intro i hi; subst hi; simpa using hm.1
      simpa [Tab.del, hj] using h2
    · have h1 := ih (some j) k hm.2
      simp only [Tab.del] at h1
      simp [Tab.del, hj, Tab.rising, hm.1, h1]

omit [DecidableEq α] in
theorem Tab.mem_put (m : Tab α) (k : Nat) (v : α) (e : Nat × α) (h : e ∈ Tab.put k v m) :
    e = (k, v) ∨ e ∈ m := by
  induction m with
  | nil => simpa [Tab.put] using h
  | cons x m ih =>
    obtain ⟨j, w⟩ := x
    unfold Tab.put at h
    split at h
    · simpa using h
    · split at h
      · simp only [List.mem_cons] at h ⊢; tauto
      · simp only [List.mem_cons] at h ⊢
        rcases h with h | h
        · exact .inr (.inl h)
        · rcases ih h with h | h <;> tauto

/-- The empty table has the canonical form. -/
@[simp] theorem Tab.wf_nil : Tab.wf d ([] : Tab α) = true := rfl

theorem Tab.wf_del (m : Tab α) (k : Nat) (h : Tab.wf d m = true) : Tab.wf d (Tab.del k m) = true := by
  simp only [Tab.wf, Bool.and_eq_true, List.all_eq_true] at h ⊢
  refine ⟨Tab.rising_del m none k h.1, ?_⟩
  intro e he
  exact h.2 e (List.mem_of_mem_filter he)

/-- A write keeps the canonical form. -/
theorem Tab.wf_set (m : Tab α) (k : Nat) (v : α) (h : Tab.wf d m = true) :
    Tab.wf d (Tab.set d m k v) = true := by
  unfold Tab.set
  split
  · exact Tab.wf_del d m k h
  · rename_i hv
    simp only [Tab.wf, Bool.and_eq_true, List.all_eq_true] at h ⊢
    refine ⟨Tab.rising_put m none k v h.1 (by simp), ?_⟩
    intro e he
    rcases Tab.mem_put m k v e he with h1 | h1
    · subst h1; simpa using hv
    · exact h.2 e h1

theorem Tab.wf_upd (m : Tab α) (k : Nat) (f : α → α) (h : Tab.wf d m = true) :
    Tab.wf d (Tab.upd d m k f) = true := Tab.wf_set d m k _ h

theorem Tab.wf_setList (l : List α) : ∀ (m : Tab α) (k : Nat), Tab.wf d m = true →
    Tab.wf d (Tab.setList d m k l) = true := by
  induction l with
  | nil => intro m k h; exact h
  | cons v vs ih => intro m k h; exact ih _ _ (Tab.wf_set d m k v h)

omit [DecidableEq α] in
theorem Tab.get_rising (m : Tab α) : ∀ (b k : Nat), Tab.rising (some b) m = true → k ≤ b →
    Tab.get d m k = d k := by
  induction m with
  | nil => intros; rfl
  | cons e m ih =>
    intro b k h hk
    obtain ⟨j, w⟩ := e
    simp only [Tab.rising, Bool.and_eq_true, decide_eq_true_eq] at h
    rw [Tab.get, if_neg (by omega)]
    exact ih j k h.2 (by omega)

theorem Tab.ext_rising (m : Tab α) : ∀ (m' : Tab α) (b : Option Nat),
    Tab.rising b m = true → (m.all fun e => decide (e.2 ≠ d e.1)) = true →
    Tab.rising b m' = true → (m'.all fun e => decide (e.2 ≠ d e.1)) = true →
    (∀ k, Tab.get d m k = Tab.get d m' k) → m = m' := by
  induction m with
  | nil =>
    intro m' b _ _ h3 h4 hg
    cases m' with
    | nil => rfl
    | cons e m' =>
      obtain ⟨j, w⟩ := e
      have := hg j
      simp only [List.all_cons, Bool.and_eq_true, decide_eq_true_eq] at h4
      simp only [Tab.get, if_true] at this
      exact absurd this.symm h4.1
  | cons e m ih =>
    intro m' b h1 h2 h3 h4 hg
    obtain ⟨j, w⟩ := e
    simp only [List.all_cons, Bool.and_eq_true, decide_eq_true_eq] at h2
    cases m' with
    | nil =>
      have := hg j
      simp only [Tab.get, if_true] at this
      exact absurd this h2.1
    | cons e' m' =>
      obtain ⟨j', w'⟩ := e'
      simp only [List.all_cons, Bool.and_eq_true, decide_eq_true_eq] at h4
      simp only [Tab.rising, Bool.and_eq_true] at h1 h3
      have hj : j = j' := by
        rcases Nat.lt_trichotomy j j' with hlt | heq | hgt
        · exfalso
          have := hg j
          simp only [Tab.get, if_true] at this
          rw [if_neg (by omega), Tab.get_rising d m' j' j h3.2 (by omega)] at this
          exact h2.1 this
        · exact heq
        · exfalso
          have := hg j'
          simp only [Tab.get, if_true] at this
          rw [if_neg (by omega), Tab.get_rising d m j j' h1.2 (by omega)] at this
          exact h4.1 this.symm
      subst hj
      have hw : w = w' := by have := hg j; simpa [Tab.get] using this
      subst hw
      congr 1
      refine ih m' (some j) h1.2 h2.2 h3.2 h4.2 ?_
      intro k
      by_cases hk : j = k
      · subst hk
        rw [Tab.get_rising d m j j h1.2 (Nat.le_refl _), Tab.get_rising d m' j j h3.2 (Nat.le_refl _)]
      · have := hg k
        simpa [Tab.get, hk] using this

/-- Tables in canonical form that read alike are equal data. -/
theorem Tab.ext (m m' : Tab α) (h : Tab.wf d m = true) (h' : Tab.wf d m' = true)
    (hg : ∀ k, Tab.get d m k = Tab.get d m' k) : m = m' := by
  simp only [Tab.wf, Bool.and_eq_true] at h h'
  exact Tab.ext_rising d m m' none h.1 h.2 h'.1 h'.2 hg

end Sys2Proof.Machine
end

