-- ==== Sys2Proof/Laws/State.lean ====
section
/-! SUPPORT. Laws of the state: what each block holds after the registers of a block were replaced, one lemma per
field. -/
namespace Sys2Proof.Machine

/-! ### The register file -/

@[simp] theorem rget_rset_same (r : RegFile) (a : Nat) (v : Word) : rget (rset r a v) a = v :=
  Tab.get_set_same regReset r a v

theorem rget_rset_ne (r : RegFile) {a a' : Nat} (v : Word) (h : a' ≠ a) : rget (rset r a v) a' = rget r a' :=
  Tab.get_set_ne regReset r v h

theorem rget_rset (r : RegFile) (a a' : Nat) (v : Word) :
    rget (rset r a v) a' = if a' = a then v else rget r a' := Tab.get_set regReset r a a' v

/-! ### The registers of a block -/

@[simp] theorem State.regs_setRegs_same (s : State) (b : Blk) (r : RegFile) : (s.setRegs b r).regs b = r := by
  cases b <;> rfl

@[simp] theorem State.regs_setRegs_ne (s : State) (b b' : Blk) (r : RegFile) (h : b' ≠ b) :
    (s.setRegs b r).regs b' = s.regs b' := by
  cases b <;> cases b' <;> first | rfl | exact absurd rfl h

@[simp] theorem State.setRegs_tap (s : State) (b : Blk) (r : RegFile) :
    (s.setRegs b r).tap = s.tap := by cases b <;> rfl

@[simp] theorem State.setRegs_readData (s : State) (b : Blk) (r : RegFile) :
    (s.setRegs b r).readData = s.readData := by cases b <;> rfl

@[simp] theorem State.setRegs_readPoisoned (s : State) (b : Blk) (r : RegFile) :
    (s.setRegs b r).readPoisoned = s.readPoisoned := by cases b <;> rfl

@[simp] theorem State.setRegs_tally (s : State) (b : Blk) (r : RegFile) :
    (s.setRegs b r).tally = s.tally := by cases b <;> rfl

@[simp] theorem State.setRegs_free (s : State) (b : Blk) (r : RegFile) :
    (s.setRegs b r).free = s.free := by cases b <;> rfl

@[simp] theorem State.setRegs_pending (s : State) (b : Blk) (r : RegFile) :
    (s.setRegs b r).pending = s.pending := by cases b <;> rfl

@[simp] theorem State.setRegs_time (s : State) (b : Blk) (r : RegFile) (hb : b ≠ .time) :
    (s.setRegs b r).time = s.time := by cases b <;> first | rfl | exact absurd rfl hb

@[simp] theorem State.setRegs_mot (s : State) (b : Blk) (r : RegFile) (hb : b ≠ .mot) :
    (s.setRegs b r).mot = s.mot := by cases b <;> first | rfl | exact absurd rfl hb

@[simp] theorem State.setRegs_phy (s : State) (b : Blk) (r : RegFile) (hb : b ≠ .phy) :
    (s.setRegs b r).phy = s.phy := by cases b <;> first | rfl | exact absurd rfl hb

@[simp] theorem State.setRegs_lnk (s : State) (b : Blk) (r : RegFile) (hb : b ≠ .lnk) :
    (s.setRegs b r).lnk = s.lnk := by cases b <;> first | rfl | exact absurd rfl hb

@[simp] theorem State.setRegs_pix (s : State) (b : Blk) (r : RegFile) (hb : b ≠ .pix) :
    (s.setRegs b r).pix = s.pix := by cases b <;> first | rfl | exact absurd rfl hb

@[simp] theorem State.setRegs_obj (s : State) (b : Blk) (r : RegFile) (hb : b ≠ .obj) :
    (s.setRegs b r).obj = s.obj := by cases b <;> first | rfl | exact absurd rfl hb

@[simp] theorem State.setRegs_ejt (s : State) (b : Blk) (r : RegFile) (hb : b ≠ .ejt) :
    (s.setRegs b r).ejt = s.ejt := by cases b <;> first | rfl | exact absurd rfl hb

@[simp] theorem State.setRegs_pwm (s : State) (b : Blk) (r : RegFile) (hb : b ≠ .pwm) :
    (s.setRegs b r).pwm = s.pwm := by cases b <;> first | rfl | exact absurd rfl hb

@[simp] theorem State.setRegs_seq (s : State) (b : Blk) (r : RegFile) (hb : b ≠ .seq) :
    (s.setRegs b r).seq = s.seq := by cases b <;> first | rfl | exact absurd rfl hb

@[simp] theorem State.setRegs_host (s : State) (b : Blk) (r : RegFile) (hb : b ≠ .host) :
    (s.setRegs b r).host = s.host := by cases b <;> first | rfl | exact absurd rfl hb

@[simp] theorem State.setRegs_dma (s : State) (b : Blk) (r : RegFile) (hb : b ≠ .dma) :
    (s.setRegs b r).dma = s.dma := by cases b <;> first | rfl | exact absurd rfl hb

@[simp] theorem State.setRegs_erg (s : State) (b : Blk) (r : RegFile) (hb : b ≠ .erg) :
    (s.setRegs b r).erg = s.erg := by cases b <;> first | rfl | exact absurd rfl hb

@[simp] theorem State.setRegs_cmp (s : State) (b : Blk) (r : RegFile) (hb : b ≠ .cmp) :
    (s.setRegs b r).cmp = s.cmp := by cases b <;> first | rfl | exact absurd rfl hb

@[simp] theorem State.setRegs_evt (s : State) (b : Blk) (r : RegFile) (hb : b ≠ .evt) :
    (s.setRegs b r).evt = s.evt := by cases b <;> first | rfl | exact absurd rfl hb

@[simp] theorem State.setRegs_cvn (s : State) (b : Blk) (r : RegFile) (hb : b ≠ .cvn) :
    (s.setRegs b r).cvn = s.cvn := by cases b <;> first | rfl | exact absurd rfl hb

@[simp] theorem State.setRegs_pwr (s : State) (b : Blk) (r : RegFile) (hb : b ≠ .pwr) :
    (s.setRegs b r).pwr = s.pwr := by cases b <;> first | rfl | exact absurd rfl hb

@[simp] theorem State.setRegs_flt (s : State) (b : Blk) (r : RegFile) (hb : b ≠ .flt) :
    (s.setRegs b r).flt = s.flt := by cases b <;> first | rfl | exact absurd rfl hb

/-! ### The state behind the registers -/

@[simp] theorem State.setRegs_time_tb (s : State) (b : Blk) (r : RegFile) :
    (s.setRegs b r).time.tb = s.time.tb := by cases b <;> rfl

@[simp] theorem State.setRegs_time_frac (s : State) (b : Blk) (r : RegFile) :
    (s.setRegs b r).time.frac = s.time.frac := by cases b <;> rfl

@[simp] theorem State.setRegs_time_stepRem (s : State) (b : Blk) (r : RegFile) :
    (s.setRegs b r).time.stepRem = s.time.stepRem := by cases b <;> rfl

@[simp] theorem State.setRegs_time_held (s : State) (b : Blk) (r : RegFile) :
    (s.setRegs b r).time.held = s.time.held := by cases b <;> rfl

@[simp] theorem State.setRegs_time_ppsLast (s : State) (b : Blk) (r : RegFile) :
    (s.setRegs b r).time.ppsLast = s.time.ppsLast := by cases b <;> rfl

@[simp] theorem State.setRegs_time_refSysOk (s : State) (b : Blk) (r : RegFile) :
    (s.setRegs b r).time.refSysOk = s.time.refSysOk := by cases b <;> rfl

@[simp] theorem State.setRegs_time_warmWait (s : State) (b : Blk) (r : RegFile) :
    (s.setRegs b r).time.warmWait = s.time.warmWait := by cases b <;> rfl

@[simp] theorem State.setRegs_time_part (s : State) (b : Blk) (r : RegFile) :
    (s.setRegs b r).time.part = s.time.part := by cases b <;> rfl

@[simp] theorem State.setRegs_mot_enc (s : State) (b : Blk) (r : RegFile) :
    (s.setRegs b r).mot.enc = s.mot.enc := by cases b <;> rfl

@[simp] theorem State.setRegs_mot_span (s : State) (b : Blk) (r : RegFile) :
    (s.setRegs b r).mot.span = s.mot.span := by cases b <;> rfl

@[simp] theorem State.setRegs_mot_ms (s : State) (b : Blk) (r : RegFile) :
    (s.setRegs b r).mot.ms = s.mot.ms := by cases b <;> rfl

@[simp] theorem State.setRegs_mot_gen (s : State) (b : Blk) (r : RegFile) :
    (s.setRegs b r).mot.gen = s.mot.gen := by cases b <;> rfl

@[simp] theorem State.setRegs_mot_port (s : State) (b : Blk) (r : RegFile) :
    (s.setRegs b r).mot.port = s.mot.port := by cases b <;> rfl

@[simp] theorem State.setRegs_mot_pin (s : State) (b : Blk) (r : RegFile) :
    (s.setRegs b r).mot.pin = s.mot.pin := by cases b <;> rfl

@[simp] theorem State.setRegs_phy_port (s : State) (b : Blk) (r : RegFile) :
    (s.setRegs b r).phy.port = s.phy.port := by cases b <;> rfl

@[simp] theorem State.setRegs_lnk_port (s : State) (b : Blk) (r : RegFile) :
    (s.setRegs b r).lnk.port = s.lnk.port := by cases b <;> rfl

@[simp] theorem State.setRegs_pix_stream (s : State) (b : Blk) (r : RegFile) :
    (s.setRegs b r).pix.stream = s.pix.stream := by cases b <;> rfl

@[simp] theorem State.setRegs_pix_tile (s : State) (b : Blk) (r : RegFile) :
    (s.setRegs b r).pix.tile = s.pix.tile := by cases b <;> rfl

@[simp] theorem State.setRegs_obj_stream (s : State) (b : Blk) (r : RegFile) :
    (s.setRegs b r).obj.stream = s.obj.stream := by cases b <;> rfl

@[simp] theorem State.setRegs_obj_formed (s : State) (b : Blk) (r : RegFile) :
    (s.setRegs b r).obj.formed = s.obj.formed := by cases b <;> rfl

@[simp] theorem State.setRegs_obj_served (s : State) (b : Blk) (r : RegFile) :
    (s.setRegs b r).obj.served = s.obj.served := by cases b <;> rfl

@[simp] theorem State.setRegs_ejt_flight (s : State) (b : Blk) (r : RegFile) :
    (s.setRegs b r).ejt.flight = s.ejt.flight := by cases b <;> rfl

@[simp] theorem State.setRegs_ejt_rule (s : State) (b : Blk) (r : RegFile) :
    (s.setRegs b r).ejt.rule = s.ejt.rule := by cases b <;> rfl

@[simp] theorem State.setRegs_ejt_recs (s : State) (b : Blk) (r : RegFile) :
    (s.setRegs b r).ejt.recs = s.ejt.recs := by cases b <;> rfl

@[simp] theorem State.setRegs_ejt_valve (s : State) (b : Blk) (r : RegFile) :
    (s.setRegs b r).ejt.valve = s.ejt.valve := by cases b <;> rfl

@[simp] theorem State.setRegs_ejt_bus (s : State) (b : Blk) (r : RegFile) :
    (s.setRegs b r).ejt.bus = s.ejt.bus := by cases b <;> rfl

@[simp] theorem State.setRegs_ejt_load (s : State) (b : Blk) (r : RegFile) :
    (s.setRegs b r).ejt.load = s.ejt.load := by cases b <;> rfl

@[simp] theorem State.setRegs_pwm_leg (s : State) (b : Blk) (r : RegFile) :
    (s.setRegs b r).pwm.leg = s.pwm.leg := by cases b <;> rfl

@[simp] theorem State.setRegs_pwm_grpAt (s : State) (b : Blk) (r : RegFile) :
    (s.setRegs b r).pwm.grpAt = s.pwm.grpAt := by cases b <;> rfl

@[simp] theorem State.setRegs_seq_unit (s : State) (b : Blk) (r : RegFile) :
    (s.setRegs b r).seq.unit = s.seq.unit := by cases b <;> rfl

@[simp] theorem State.setRegs_seq_active (s : State) (b : Blk) (r : RegFile) :
    (s.setRegs b r).seq.active = s.seq.active := by cases b <;> rfl

@[simp] theorem State.setRegs_seq_staged (s : State) (b : Blk) (r : RegFile) :
    (s.setRegs b r).seq.staged = s.seq.staged := by cases b <;> rfl

@[simp] theorem State.setRegs_seq_swap (s : State) (b : Blk) (r : RegFile) :
    (s.setRegs b r).seq.swap = s.seq.swap := by cases b <;> rfl

@[simp] theorem State.setRegs_seq_trace (s : State) (b : Blk) (r : RegFile) :
    (s.setRegs b r).seq.trace = s.seq.trace := by cases b <;> rfl

@[simp] theorem State.setRegs_host_cfg (s : State) (b : Blk) (r : RegFile) :
    (s.setRegs b r).host.cfg = s.host.cfg := by cases b <;> rfl

@[simp] theorem State.setRegs_host_msix (s : State) (b : Blk) (r : RegFile) :
    (s.setRegs b r).host.msix = s.host.msix := by cases b <;> rfl

@[simp] theorem State.setRegs_host_vecPend (s : State) (b : Blk) (r : RegFile) :
    (s.setRegs b r).host.vecPend = s.host.vecPend := by cases b <;> rfl

@[simp] theorem State.setRegs_host_reqs (s : State) (b : Blk) (r : RegFile) :
    (s.setRegs b r).host.reqs = s.host.reqs := by cases b <;> rfl

@[simp] theorem State.setRegs_host_tlps (s : State) (b : Blk) (r : RegFile) :
    (s.setRegs b r).host.tlps = s.host.tlps := by cases b <;> rfl

@[simp] theorem State.setRegs_host_turn (s : State) (b : Blk) (r : RegFile) :
    (s.setRegs b r).host.turn = s.host.turn := by cases b <;> rfl

@[simp] theorem State.setRegs_host_up (s : State) (b : Blk) (r : RegFile) :
    (s.setRegs b r).host.up = s.host.up := by cases b <;> rfl

@[simp] theorem State.setRegs_host_ready (s : State) (b : Blk) (r : RegFile) :
    (s.setRegs b r).host.ready = s.host.ready := by cases b <;> rfl

@[simp] theorem State.setRegs_host_lossAt (s : State) (b : Blk) (r : RegFile) :
    (s.setRegs b r).host.lossAt = s.host.lossAt := by cases b <;> rfl

@[simp] theorem State.setRegs_host_refOk (s : State) (b : Blk) (r : RegFile) :
    (s.setRegs b r).host.refOk = s.host.refOk := by cases b <;> rfl

@[simp] theorem State.setRegs_host_refBack (s : State) (b : Blk) (r : RegFile) :
    (s.setRegs b r).host.refBack = s.host.refBack := by cases b <;> rfl

@[simp] theorem State.setRegs_host_client (s : State) (b : Blk) (r : RegFile) :
    (s.setRegs b r).host.client = s.host.client := by cases b <;> rfl

@[simp] theorem State.setRegs_host_mem (s : State) (b : Blk) (r : RegFile) :
    (s.setRegs b r).host.mem = s.host.mem := by cases b <;> rfl

@[simp] theorem State.setRegs_host_vecSize (s : State) (b : Blk) (r : RegFile) :
    (s.setRegs b r).host.vecSize = s.host.vecSize := by cases b <;> rfl

@[simp] theorem State.setRegs_host_sent (s : State) (b : Blk) (r : RegFile) :
    (s.setRegs b r).host.sent = s.host.sent := by cases b <;> rfl

@[simp] theorem State.setRegs_host_route (s : State) (b : Blk) (r : RegFile) :
    (s.setRegs b r).host.route = s.host.route := by cases b <;> rfl

@[simp] theorem State.setRegs_host_routeQ (s : State) (b : Blk) (r : RegFile) :
    (s.setRegs b r).host.routeQ = s.host.routeQ := by cases b <;> rfl

@[simp] theorem State.setRegs_host_mbx (s : State) (b : Blk) (r : RegFile) :
    (s.setRegs b r).host.mbx = s.host.mbx := by cases b <;> rfl

@[simp] theorem State.setRegs_host_flights (s : State) (b : Blk) (r : RegFile) :
    (s.setRegs b r).host.flights = s.host.flights := by cases b <;> rfl

@[simp] theorem State.setRegs_host_copies (s : State) (b : Blk) (r : RegFile) :
    (s.setRegs b r).host.copies = s.host.copies := by cases b <;> rfl

@[simp] theorem State.setRegs_host_keys (s : State) (b : Blk) (r : RegFile) :
    (s.setRegs b r).host.keys = s.host.keys := by cases b <;> rfl

@[simp] theorem State.setRegs_dma_ch (s : State) (b : Blk) (r : RegFile) :
    (s.setRegs b r).dma.ch = s.dma.ch := by cases b <;> rfl

@[simp] theorem State.setRegs_erg_mem (s : State) (b : Blk) (r : RegFile) :
    (s.setRegs b r).erg.mem = s.erg.mem := by cases b <;> rfl

@[simp] theorem State.setRegs_erg_poison (s : State) (b : Blk) (r : RegFile) :
    (s.setRegs b r).erg.poison = s.erg.poison := by cases b <;> rfl

@[simp] theorem State.setRegs_erg_soft (s : State) (b : Blk) (r : RegFile) :
    (s.setRegs b r).erg.soft = s.erg.soft := by cases b <;> rfl

@[simp] theorem State.setRegs_erg_seg (s : State) (b : Blk) (r : RegFile) :
    (s.setRegs b r).erg.seg = s.erg.seg := by cases b <;> rfl

@[simp] theorem State.setRegs_erg_allocs (s : State) (b : Blk) (r : RegFile) :
    (s.setRegs b r).erg.allocs = s.erg.allocs := by cases b <;> rfl

@[simp] theorem State.setRegs_erg_q (s : State) (b : Blk) (r : RegFile) :
    (s.setRegs b r).erg.q = s.erg.q := by cases b <;> rfl

@[simp] theorem State.setRegs_erg_lb (s : State) (b : Blk) (r : RegFile) :
    (s.setRegs b r).erg.lb = s.erg.lb := by cases b <;> rfl

@[simp] theorem State.setRegs_erg_ring (s : State) (b : Blk) (r : RegFile) :
    (s.setRegs b r).erg.ring = s.erg.ring := by cases b <;> rfl

@[simp] theorem State.setRegs_erg_unc0 (s : State) (b : Blk) (r : RegFile) :
    (s.setRegs b r).erg.unc0 = s.erg.unc0 := by cases b <;> rfl

@[simp] theorem State.setRegs_erg_unc1 (s : State) (b : Blk) (r : RegFile) :
    (s.setRegs b r).erg.unc1 = s.erg.unc1 := by cases b <;> rfl

@[simp] theorem State.setRegs_cmp_unit (s : State) (b : Blk) (r : RegFile) :
    (s.setRegs b r).cmp.unit = s.cmp.unit := by cases b <;> rfl

@[simp] theorem State.setRegs_evt_bus (s : State) (b : Blk) (r : RegFile) :
    (s.setRegs b r).evt.bus = s.evt.bus := by cases b <;> rfl

@[simp] theorem State.setRegs_evt_ch (s : State) (b : Blk) (r : RegFile) :
    (s.setRegs b r).evt.ch = s.evt.ch := by cases b <;> rfl

@[simp] theorem State.setRegs_evt_cell (s : State) (b : Blk) (r : RegFile) :
    (s.setRegs b r).evt.cell = s.evt.cell := by cases b <;> rfl

@[simp] theorem State.setRegs_evt_routeWas (s : State) (b : Blk) (r : RegFile) :
    (s.setRegs b r).evt.routeWas = s.evt.routeWas := by cases b <;> rfl

@[simp] theorem State.setRegs_cvn_port (s : State) (b : Blk) (r : RegFile) :
    (s.setRegs b r).cvn.port = s.cvn.port := by cases b <;> rfl

@[simp] theorem State.setRegs_cvn_cur (s : State) (b : Blk) (r : RegFile) :
    (s.setRegs b r).cvn.cur = s.cvn.cur := by cases b <;> rfl

@[simp] theorem State.setRegs_cvn_prev (s : State) (b : Blk) (r : RegFile) :
    (s.setRegs b r).cvn.prev = s.cvn.prev := by cases b <;> rfl

@[simp] theorem State.setRegs_cvn_overrides (s : State) (b : Blk) (r : RegFile) :
    (s.setRegs b r).cvn.overrides = s.cvn.overrides := by cases b <;> rfl

@[simp] theorem State.setRegs_cvn_pass (s : State) (b : Blk) (r : RegFile) :
    (s.setRegs b r).cvn.pass = s.cvn.pass := by cases b <;> rfl

@[simp] theorem State.setRegs_cvn_passes (s : State) (b : Blk) (r : RegFile) :
    (s.setRegs b r).cvn.passes = s.cvn.passes := by cases b <;> rfl

@[simp] theorem State.setRegs_cvn_commit (s : State) (b : Blk) (r : RegFile) :
    (s.setRegs b r).cvn.commit = s.cvn.commit := by cases b <;> rfl

@[simp] theorem State.setRegs_cvn_change (s : State) (b : Blk) (r : RegFile) :
    (s.setRegs b r).cvn.change = s.cvn.change := by cases b <;> rfl

@[simp] theorem State.setRegs_cvn_changeOwed (s : State) (b : Blk) (r : RegFile) :
    (s.setRegs b r).cvn.changeOwed = s.cvn.changeOwed := by cases b <;> rfl

@[simp] theorem State.setRegs_cvn_rates (s : State) (b : Blk) (r : RegFile) :
    (s.setRegs b r).cvn.rates = s.cvn.rates := by cases b <;> rfl

@[simp] theorem State.setRegs_cvn_good (s : State) (b : Blk) (r : RegFile) :
    (s.setRegs b r).cvn.good = s.cvn.good := by cases b <;> rfl

@[simp] theorem State.setRegs_cvn_theta (s : State) (b : Blk) (r : RegFile) :
    (s.setRegs b r).cvn.theta = s.cvn.theta := by cases b <;> rfl

@[simp] theorem State.setRegs_cvn_rmtAt (s : State) (b : Blk) (r : RegFile) :
    (s.setRegs b r).cvn.rmtAt = s.cvn.rmtAt := by cases b <;> rfl

@[simp] theorem State.setRegs_cvn_posSeq (s : State) (b : Blk) (r : RegFile) :
    (s.setRegs b r).cvn.posSeq = s.cvn.posSeq := by cases b <;> rfl

@[simp] theorem State.setRegs_cvn_posAt (s : State) (b : Blk) (r : RegFile) :
    (s.setRegs b r).cvn.posAt = s.cvn.posAt := by cases b <;> rfl

@[simp] theorem State.setRegs_cvn_evtWait (s : State) (b : Blk) (r : RegFile) :
    (s.setRegs b r).cvn.evtWait = s.cvn.evtWait := by cases b <;> rfl

@[simp] theorem State.setRegs_cvn_inbox (s : State) (b : Blk) (r : RegFile) :
    (s.setRegs b r).cvn.inbox = s.cvn.inbox := by cases b <;> rfl

@[simp] theorem State.setRegs_cvn_rxNo (s : State) (b : Blk) (r : RegFile) :
    (s.setRegs b r).cvn.rxNo = s.cvn.rxNo := by cases b <;> rfl

@[simp] theorem State.setRegs_cvn_hoTag (s : State) (b : Blk) (r : RegFile) :
    (s.setRegs b r).cvn.hoTag = s.cvn.hoTag := by cases b <;> rfl

@[simp] theorem State.setRegs_cvn_asm (s : State) (b : Blk) (r : RegFile) :
    (s.setRegs b r).cvn.asm = s.cvn.asm := by cases b <;> rfl

@[simp] theorem State.setRegs_cvn_hoStreams (s : State) (b : Blk) (r : RegFile) :
    (s.setRegs b r).cvn.hoStreams = s.cvn.hoStreams := by cases b <;> rfl

@[simp] theorem State.setRegs_pwr_unit (s : State) (b : Blk) (r : RegFile) :
    (s.setRegs b r).pwr.unit = s.pwr.unit := by cases b <;> rfl

@[simp] theorem State.setRegs_pwr_delays (s : State) (b : Blk) (r : RegFile) :
    (s.setRegs b r).pwr.delays = s.pwr.delays := by cases b <;> rfl

@[simp] theorem State.setRegs_pwr_awaited (s : State) (b : Blk) (r : RegFile) :
    (s.setRegs b r).pwr.awaited = s.pwr.awaited := by cases b <;> rfl

@[simp] theorem State.setRegs_pwr_change (s : State) (b : Blk) (r : RegFile) :
    (s.setRegs b r).pwr.change = s.pwr.change := by cases b <;> rfl

@[simp] theorem State.setRegs_pwr_vcore (s : State) (b : Blk) (r : RegFile) :
    (s.setRegs b r).pwr.vcore = s.pwr.vcore := by cases b <;> rfl

@[simp] theorem State.setRegs_pwr_vcoreOut (s : State) (b : Blk) (r : RegFile) :
    (s.setRegs b r).pwr.vcoreOut = s.pwr.vcoreOut := by cases b <;> rfl

@[simp] theorem State.setRegs_pwr_devCmd (s : State) (b : Blk) (r : RegFile) :
    (s.setRegs b r).pwr.devCmd = s.pwr.devCmd := by cases b <;> rfl

@[simp] theorem State.setRegs_pwr_wakeHeld (s : State) (b : Blk) (r : RegFile) :
    (s.setRegs b r).pwr.wakeHeld = s.pwr.wakeHeld := by cases b <;> rfl

@[simp] theorem State.setRegs_pwr_exitAt (s : State) (b : Blk) (r : RegFile) :
    (s.setRegs b r).pwr.exitAt = s.pwr.exitAt := by cases b <;> rfl

@[simp] theorem State.setRegs_pwr_goingUp (s : State) (b : Blk) (r : RegFile) :
    (s.setRegs b r).pwr.goingUp = s.pwr.goingUp := by cases b <;> rfl

@[simp] theorem State.setRegs_pwr_goingDown (s : State) (b : Blk) (r : RegFile) :
    (s.setRegs b r).pwr.goingDown = s.pwr.goingDown := by cases b <;> rfl

@[simp] theorem State.setRegs_pwr_motA (s : State) (b : Blk) (r : RegFile) :
    (s.setRegs b r).pwr.motA = s.pwr.motA := by cases b <;> rfl

@[simp] theorem State.setRegs_pwr_motB (s : State) (b : Blk) (r : RegFile) :
    (s.setRegs b r).pwr.motB = s.pwr.motB := by cases b <;> rfl

@[simp] theorem State.setRegs_pwr_coreUp (s : State) (b : Blk) (r : RegFile) :
    (s.setRegs b r).pwr.coreUp = s.pwr.coreUp := by cases b <;> rfl

@[simp] theorem State.setRegs_pwr_vaonUp (s : State) (b : Blk) (r : RegFile) :
    (s.setRegs b r).pwr.vaonUp = s.pwr.vaonUp := by cases b <;> rfl

@[simp] theorem State.setRegs_pwr_rtcHeld (s : State) (b : Blk) (r : RegFile) :
    (s.setRegs b r).pwr.rtcHeld = s.pwr.rtcHeld := by cases b <;> rfl

@[simp] theorem State.setRegs_pwr_ptr (s : State) (b : Blk) (r : RegFile) :
    (s.setRegs b r).pwr.ptr = s.pwr.ptr := by cases b <;> rfl

@[simp] theorem State.setRegs_pwr_latch (s : State) (b : Blk) (r : RegFile) :
    (s.setRegs b r).pwr.latch = s.pwr.latch := by cases b <;> rfl

@[simp] theorem State.setRegs_pwr_attnStatus (s : State) (b : Blk) (r : RegFile) :
    (s.setRegs b r).pwr.attnStatus = s.pwr.attnStatus := by cases b <;> rfl

@[simp] theorem State.setRegs_pwr_attnMask (s : State) (b : Blk) (r : RegFile) :
    (s.setRegs b r).pwr.attnMask = s.pwr.attnMask := by cases b <;> rfl

@[simp] theorem State.setRegs_pwr_cmdStatus (s : State) (b : Blk) (r : RegFile) :
    (s.setRegs b r).pwr.cmdStatus = s.pwr.cmdStatus := by cases b <;> rfl

@[simp] theorem State.setRegs_pwr_tj (s : State) (b : Blk) (r : RegFile) :
    (s.setRegs b r).pwr.tj = s.pwr.tj := by cases b <;> rfl

@[simp] theorem State.setRegs_pwr_bootFail (s : State) (b : Blk) (r : RegFile) :
    (s.setRegs b r).pwr.bootFail = s.pwr.bootFail := by cases b <;> rfl

@[simp] theorem State.setRegs_pwr_fwRuns (s : State) (b : Blk) (r : RegFile) :
    (s.setRegs b r).pwr.fwRuns = s.pwr.fwRuns := by cases b <;> rfl

@[simp] theorem State.setRegs_pwr_fwFrom (s : State) (b : Blk) (r : RegFile) :
    (s.setRegs b r).pwr.fwFrom = s.pwr.fwFrom := by cases b <;> rfl

@[simp] theorem State.setRegs_pwr_fwPieces (s : State) (b : Blk) (r : RegFile) :
    (s.setRegs b r).pwr.fwPieces = s.pwr.fwPieces := by cases b <;> rfl

@[simp] theorem State.setRegs_pwr_awake (s : State) (b : Blk) (r : RegFile) :
    (s.setRegs b r).pwr.awake = s.pwr.awake := by cases b <;> rfl

@[simp] theorem State.setRegs_pwr_attnOwed (s : State) (b : Blk) (r : RegFile) :
    (s.setRegs b r).pwr.attnOwed = s.pwr.attnOwed := by cases b <;> rfl

@[simp] theorem State.setRegs_pwr_attnAt (s : State) (b : Blk) (r : RegFile) :
    (s.setRegs b r).pwr.attnAt = s.pwr.attnAt := by cases b <;> rfl

@[simp] theorem State.setRegs_pwr_job (s : State) (b : Blk) (r : RegFile) :
    (s.setRegs b r).pwr.job = s.pwr.job := by cases b <;> rfl

@[simp] theorem State.setRegs_pwr_waiting (s : State) (b : Blk) (r : RegFile) :
    (s.setRegs b r).pwr.waiting = s.pwr.waiting := by cases b <;> rfl

@[simp] theorem State.setRegs_pwr_ctlOut (s : State) (b : Blk) (r : RegFile) :
    (s.setRegs b r).pwr.ctlOut = s.pwr.ctlOut := by cases b <;> rfl

@[simp] theorem State.setRegs_pwr_i2cAck (s : State) (b : Blk) (r : RegFile) :
    (s.setRegs b r).pwr.i2cAck = s.pwr.i2cAck := by cases b <;> rfl

@[simp] theorem State.setRegs_pwr_i2cOut (s : State) (b : Blk) (r : RegFile) :
    (s.setRegs b r).pwr.i2cOut = s.pwr.i2cOut := by cases b <;> rfl

@[simp] theorem State.setRegs_flt_staging (s : State) (b : Blk) (r : RegFile) :
    (s.setRegs b r).flt.staging = s.flt.staging := by cases b <;> rfl

@[simp] theorem State.setRegs_flt_nextSeq (s : State) (b : Blk) (r : RegFile) :
    (s.setRegs b r).flt.nextSeq = s.flt.nextSeq := by cases b <;> rfl

@[simp] theorem State.setRegs_flt_owed (s : State) (b : Blk) (r : RegFile) :
    (s.setRegs b r).flt.owed = s.flt.owed := by cases b <;> rfl

@[simp] theorem State.setRegs_flt_cyc (s : State) (b : Blk) (r : RegFile) :
    (s.setRegs b r).flt.cyc = s.flt.cyc := by cases b <;> rfl

@[simp] theorem State.setRegs_flt_wdogFrom (s : State) (b : Blk) (r : RegFile) :
    (s.setRegs b r).flt.wdogFrom = s.flt.wdogFrom := by cases b <;> rfl

@[simp] theorem State.setRegs_flt_wdogDone (s : State) (b : Blk) (r : RegFile) :
    (s.setRegs b r).flt.wdogDone = s.flt.wdogDone := by cases b <;> rfl

@[simp] theorem State.setRegs_flt_mirInt (s : State) (b : Blk) (r : RegFile) :
    (s.setRegs b r).flt.mirInt = s.flt.mirInt := by cases b <;> rfl

@[simp] theorem State.setRegs_flt_mirOwed (s : State) (b : Blk) (r : RegFile) :
    (s.setRegs b r).flt.mirOwed = s.flt.mirOwed := by cases b <;> rfl

@[simp] theorem State.setRegs_flt_warnArmed (s : State) (b : Blk) (r : RegFile) :
    (s.setRegs b r).flt.warnArmed = s.flt.warnArmed := by cases b <;> rfl

@[simp] theorem State.setRegs_flt_wdogSafe (s : State) (b : Blk) (r : RegFile) :
    (s.setRegs b r).flt.wdogSafe = s.flt.wdogSafe := by cases b <;> rfl

end Sys2Proof.Machine
end

