-- ==== Sys2Proof/Laws/Ops.lean ====
section
/-! SUPPORT. Laws of the named operations: what a register, a field or a bit reads after each of them. -/
namespace Sys2Proof.Machine

variable (s : State) (b b' : Blk) (a a' : Nat)

/-- The registers of the timebase block as its own functions read them. -/
theorem State.rd_time : s.rd .time a = rget s.time.regs a := rfl

theorem State.rd_setRegs (r : RegFile) : (s.setRegs b r).rd b a = rget r a := by
  simp [State.rd]

@[simp] theorem State.rd_setRegs_ne (r : RegFile) (h : b' ≠ b) : (s.setRegs b r).rd b' a = s.rd b' a := by
  simp [State.rd, h]

/-! ### Storing -/

@[simp] theorem State.rd_wr_same (v : Word) : (s.wr b a v).rd b a = v := by
  simp [State.rd, State.wr]

theorem State.rd_wr_ne (v : Word) (h : a' ≠ a) : (s.wr b a v).rd b a' = s.rd b a' := by
  simp [State.rd, State.wr, rget_rset_ne _ v h]

theorem State.rd_put (hi lo x : Nat) : (s.put b a hi lo x).rd b a = putBits (s.rd b a) hi lo x := by
  simp [State.rd, State.put, wrBits]

theorem State.rd_put_ne (hi lo x : Nat) (h : a' ≠ a) : (s.put b a hi lo x).rd b a' = s.rd b a' := by
  simp [State.rd, State.put, wrBits, rget_rset_ne _ _ h]

theorem State.rd_setb (i : Nat) (x : Bool) : (s.setb b a i x).rd b a = putBit (s.rd b a) i x := by
  simp [State.rd, State.setb, wrBit]

theorem State.rd_setb_ne (i : Nat) (x : Bool) (h : a' ≠ a) : (s.setb b a i x).rd b a' = s.rd b a' := by
  simp [State.rd, State.setb, wrBit, rget_rset_ne _ _ h]

/-- Counting changes the counter's register and, of the rest, only the note of the cycle's counts (R21). -/
theorem State.regs_countBy (n : Nat) : (s.countBy b a n).regs b' = (s.setRegs b (incBy (s.regs b) a n)).regs b' := by
  cases b' <;> rfl

/-- A write stores, counts what this cycle has counted after it (R21), and touches no other block. -/
theorem State.regs_store_ne (v : Word) (h : b' ≠ b) : (s.store b a v).regs b' = s.regs b' := by
  unfold State.store
  split
  · simp [h]
  · simp [State.regs_countBy, h]

/-- A counter that is counted stops at 0xFFFF_FFFF (R21). -/
theorem State.rd_countBy (n : Nat) : (s.countBy b a n).rd b a = satAdd (s.rd b a) n := by
  simp [State.rd, State.regs_countBy, incBy]

theorem State.rd_countBy_ne (n : Nat) (h : a' ≠ a) : (s.countBy b a n).rd b a' = s.rd b a' := by
  simp [State.rd, State.regs_countBy, incBy, rget_rset_ne _ _ h]

theorem State.rd_count : (s.count b a).rd b a = satAdd (s.rd b a) 1 := s.rd_countBy b a 1

theorem State.rd_count_ne (h : a' ≠ a) : (s.count b a).rd b a' = s.rd b a' := s.rd_countBy_ne b a a' 1 h

/-! ### The registers of another block -/

@[simp] theorem State.rd_wr_blk (v : Word) (h : b' ≠ b) : (s.wr b a v).rd b' a' = s.rd b' a' := by
  simp [State.wr, h]

@[simp] theorem State.rd_put_blk (hi lo x : Nat) (h : b' ≠ b) : (s.put b a hi lo x).rd b' a' = s.rd b' a' := by
  simp [State.put, h]

@[simp] theorem State.rd_setb_blk (i : Nat) (x : Bool) (h : b' ≠ b) :
    (s.setb b a i x).rd b' a' = s.rd b' a' := by
  simp [State.setb, h]

@[simp] theorem State.rd_countBy_blk (n : Nat) (h : b' ≠ b) : (s.countBy b a n).rd b' a' = s.rd b' a' := by
  simp [State.rd, State.regs_countBy, h]

@[simp] theorem State.rd_count_blk (h : b' ≠ b) : (s.count b a).rd b' a' = s.rd b' a' := by
  simp [State.count, h]

@[simp] theorem State.rd_store_blk (v : Word) (h : b' ≠ b) : (s.store b a v).rd b' a' = s.rd b' a' := by
  simp [State.rd, State.regs_store_ne, h]

/-! ### Bits -/

@[simp] theorem State.flag_setb_same (i : Nat) (x : Bool) (hi : i < 32) : (s.setb b a i x).flag b a i = x := by
  simp [State.flag, State.rd_setb, hi]

theorem State.flag_setb_bit (i j : Nat) (x : Bool) (h : j ≠ i) : (s.setb b a i x).flag b a j = s.flag b a j := by
  simp [State.flag, State.rd_setb, bit_putBit_ne _ i j x h]

theorem State.flag_setb_ne (i j : Nat) (x : Bool) (h : a' ≠ a) : (s.setb b a i x).flag b a' j = s.flag b a' j := by
  simp [State.flag, State.rd_setb_ne _ _ _ _ _ _ h]

@[simp] theorem State.flag_setb_blk (i j : Nat) (x : Bool) (h : b' ≠ b) :
    (s.setb b a i x).flag b' a' j = s.flag b' a' j := by simp [State.flag, h]

theorem State.fld_setb_bit (i : Nat) (x : Bool) (hi lo : Nat) (h : i < lo ∨ hi < i) :
    (s.setb b a i x).fld b a hi lo = s.fld b a hi lo := by
  simp [State.fld, State.rd_setb, bits_putBit_ne _ i x hi lo h]

theorem State.fld_setb_ne (i : Nat) (x : Bool) (hi lo : Nat) (h : a' ≠ a) :
    (s.setb b a i x).fld b a' hi lo = s.fld b a' hi lo := by
  simp [State.fld, State.rd_setb_ne _ _ _ _ _ _ h]

@[simp] theorem State.fld_setb_blk (i : Nat) (x : Bool) (hi lo : Nat) (h : b' ≠ b) :
    (s.setb b a i x).fld b' a' hi lo = s.fld b' a' hi lo := by simp [State.fld, h]

/-! ### Fields -/

@[simp] theorem State.fld_put_same (hi lo x : Nat) (h : hi < 32) (hl : lo ≤ hi) :
    (s.put b a hi lo x).fld b a hi lo = x % 2 ^ (hi + 1 - lo) := by
  simp [State.fld, State.rd_put, h, hl]

theorem State.fld_put_field (hi lo x hi' lo' : Nat) (h : hi' < lo ∨ hi < lo') :
    (s.put b a hi lo x).fld b a hi' lo' = s.fld b a hi' lo' := by
  simp [State.fld, State.rd_put, bits_putBits_ne _ _ _ _ _ _ h]

theorem State.fld_put_ne (hi lo x hi' lo' : Nat) (h : a' ≠ a) :
    (s.put b a hi lo x).fld b a' hi' lo' = s.fld b a' hi' lo' := by
  simp [State.fld, State.rd_put_ne _ _ _ _ _ _ _ h]

@[simp] theorem State.fld_put_blk (hi lo x hi' lo' : Nat) (h : b' ≠ b) :
    (s.put b a hi lo x).fld b' a' hi' lo' = s.fld b' a' hi' lo' := by simp [State.fld, h]

theorem State.flag_put_bit (hi lo x j : Nat) (h : j < lo ∨ hi < j) :
    (s.put b a hi lo x).flag b a j = s.flag b a j := by
  simp [State.flag, State.rd_put, bit_putBits_ne _ _ _ _ _ h]

theorem State.flag_put_ne (hi lo x j : Nat) (h : a' ≠ a) :
    (s.put b a hi lo x).flag b a' j = s.flag b a' j := by
  simp [State.flag, State.rd_put_ne _ _ _ _ _ _ _ h]

@[simp] theorem State.flag_put_blk (hi lo x j : Nat) (h : b' ≠ b) :
    (s.put b a hi lo x).flag b' a' j = s.flag b' a' j := by simp [State.flag, h]

end Sys2Proof.Machine
end

