-- ==== Sys2Proof/Laws/Hidden.lean ====
section
/-! SUPPORT. Laws of the indexed state behind the registers: what each entry is after an entry or a register changed, and
that the registers stay. -/
namespace Sys2Proof.Machine

variable (s : State) (b : Blk) (a : Nat)

@[simp] theorem State.setEnc_enc_same (n : Nat) (x : EncSt) : (s.setEnc n x).enc n = x := by
  simp [State.setEnc, State.enc]
theorem State.setEnc_enc_ne (n m : Nat) (x : EncSt) (h : m ≠ n) : (s.setEnc n x).enc m = (s).enc m := by
  simp [State.setEnc, State.enc, Tab.get_set_ne _ _ _ h]
@[simp] theorem State.rd_setEnc (n : Nat) (x : EncSt) : (s.setEnc n x).rd b a = s.rd b a := by cases b <;> rfl
@[simp] theorem State.setEnc_ms (n m : Nat) (x : EncSt) : (s.setEnc n x).ms m = (s).ms m := rfl
@[simp] theorem State.setEnc_gen (n m : Nat) (x : EncSt) : (s.setEnc n x).gen m = (s).gen m := rfl
@[simp] theorem State.setEnc_portTrg (n m : Nat) (x : EncSt) : (s.setEnc n x).portTrg m = (s).portTrg m := rfl
@[simp] theorem State.setEnc_phyPort (n m : Nat) (x : EncSt) : (s.setEnc n x).phyPort m = (s).phyPort m := rfl
@[simp] theorem State.setEnc_lnkPort (n m : Nat) (x : EncSt) : (s.setEnc n x).lnkPort m = (s).lnkPort m := rfl
@[simp] theorem State.setEnc_pixStream (n m : Nat) (x : EncSt) : (s.setEnc n x).pixStream m = (s).pixStream m := rfl
@[simp] theorem State.setEnc_objStream (n m : Nat) (x : EncSt) : (s.setEnc n x).objStream m = (s).objStream m := rfl
@[simp] theorem State.setEnc_ejBus (n m : Nat) (x : EncSt) : ejBus (s.setEnc n x) m = ejBus (s) m := rfl
@[simp] theorem State.setEnc_pwmLeg (n m : Nat) (x : EncSt) : pwmLeg (s.setEnc n x) m = pwmLeg (s) m := rfl
@[simp] theorem State.setEnc_seqU (n m : Nat) (x : EncSt) : (s.setEnc n x).seqU m = (s).seqU m := rfl
@[simp] theorem State.setEnc_client (n m : Nat) (x : EncSt) : (s.setEnc n x).client m = (s).client m := rfl
@[simp] theorem State.setEnc_dmaCh (n m : Nat) (x : EncSt) : (s.setEnc n x).dmaCh m = (s).dmaCh m := rfl
@[simp] theorem State.setEnc_segOf (n m : Nat) (x : EncSt) : segOf (s.setEnc n x) m = segOf (s) m := rfl
@[simp] theorem State.setEnc_evtCh (n m : Nat) (x : EncSt) : evtCh (s.setEnc n x) m = evtCh (s) m := rfl
@[simp] theorem State.setEnc_evtCell (n m : Nat) (x : EncSt) : evtCell (s.setEnc n x) m = evtCell (s) m := rfl
@[simp] theorem State.setEnc_cvPort (n m : Nat) (x : EncSt) : cvPort (s.setEnc n x) m = cvPort (s) m := rfl
@[simp] theorem State.setEnc_trigPin (n m : Nat) (x : EncSt) : (s.setEnc n x).trigPin m = (s).trigPin m := rfl
@[simp] theorem State.setEnc_ergQ (n m : Nat) (x : EncSt) : (s.setEnc n x).ergQ m = (s).ergQ m := rfl
@[simp] theorem State.setEnc_cmpU (n m : Nat) (x : EncSt) : (s.setEnc n x).cmpU m = (s).cmpU m := rfl

@[simp] theorem State.onEnc_enc_same (n : Nat) (f : EncSt → EncSt) : (s.onEnc n f).enc n = f ((s).enc n) := by
  simp [State.onEnc, State.enc, State.setEnc]
theorem State.onEnc_enc_ne (n m : Nat) (f : EncSt → EncSt) (h : m ≠ n) : (s.onEnc n f).enc m = (s).enc m := by
  simp [State.onEnc, State.enc, State.setEnc, Tab.get_set_ne _ _ _ h]
@[simp] theorem State.rd_onEnc (n : Nat) (f : EncSt → EncSt) : (s.onEnc n f).rd b a = s.rd b a := by cases b <;> rfl
@[simp] theorem State.onEnc_ms (n m : Nat) (f : EncSt → EncSt) : (s.onEnc n f).ms m = (s).ms m := rfl
@[simp] theorem State.onEnc_gen (n m : Nat) (f : EncSt → EncSt) : (s.onEnc n f).gen m = (s).gen m := rfl
@[simp] theorem State.onEnc_portTrg (n m : Nat) (f : EncSt → EncSt) : (s.onEnc n f).portTrg m = (s).portTrg m := rfl
@[simp] theorem State.onEnc_phyPort (n m : Nat) (f : EncSt → EncSt) : (s.onEnc n f).phyPort m = (s).phyPort m := rfl
@[simp] theorem State.onEnc_lnkPort (n m : Nat) (f : EncSt → EncSt) : (s.onEnc n f).lnkPort m = (s).lnkPort m := rfl
@[simp] theorem State.onEnc_pixStream (n m : Nat) (f : EncSt → EncSt) : (s.onEnc n f).pixStream m = (s).pixStream m := rfl
@[simp] theorem State.onEnc_objStream (n m : Nat) (f : EncSt → EncSt) : (s.onEnc n f).objStream m = (s).objStream m := rfl
@[simp] theorem State.onEnc_ejBus (n m : Nat) (f : EncSt → EncSt) : ejBus (s.onEnc n f) m = ejBus (s) m := rfl
@[simp] theorem State.onEnc_pwmLeg (n m : Nat) (f : EncSt → EncSt) : pwmLeg (s.onEnc n f) m = pwmLeg (s) m := rfl
@[simp] theorem State.onEnc_seqU (n m : Nat) (f : EncSt → EncSt) : (s.onEnc n f).seqU m = (s).seqU m := rfl
@[simp] theorem State.onEnc_client (n m : Nat) (f : EncSt → EncSt) : (s.onEnc n f).client m = (s).client m := rfl
@[simp] theorem State.onEnc_dmaCh (n m : Nat) (f : EncSt → EncSt) : (s.onEnc n f).dmaCh m = (s).dmaCh m := rfl
@[simp] theorem State.onEnc_segOf (n m : Nat) (f : EncSt → EncSt) : segOf (s.onEnc n f) m = segOf (s) m := rfl
@[simp] theorem State.onEnc_evtCh (n m : Nat) (f : EncSt → EncSt) : evtCh (s.onEnc n f) m = evtCh (s) m := rfl
@[simp] theorem State.onEnc_evtCell (n m : Nat) (f : EncSt → EncSt) : evtCell (s.onEnc n f) m = evtCell (s) m := rfl
@[simp] theorem State.onEnc_cvPort (n m : Nat) (f : EncSt → EncSt) : cvPort (s.onEnc n f) m = cvPort (s) m := rfl
@[simp] theorem State.onEnc_trigPin (n m : Nat) (f : EncSt → EncSt) : (s.onEnc n f).trigPin m = (s).trigPin m := rfl
@[simp] theorem State.onEnc_ergQ (n m : Nat) (f : EncSt → EncSt) : (s.onEnc n f).ergQ m = (s).ergQ m := rfl
@[simp] theorem State.onEnc_cmpU (n m : Nat) (f : EncSt → EncSt) : (s.onEnc n f).cmpU m = (s).cmpU m := rfl

@[simp] theorem State.setMs_ms_same (n : Nat) (x : MsSt) : (s.setMs n x).ms n = x := by
  simp [State.setMs, State.ms]
theorem State.setMs_ms_ne (n m : Nat) (x : MsSt) (h : m ≠ n) : (s.setMs n x).ms m = (s).ms m := by
  simp [State.setMs, State.ms, Tab.get_set_ne _ _ _ h]
@[simp] theorem State.rd_setMs (n : Nat) (x : MsSt) : (s.setMs n x).rd b a = s.rd b a := by cases b <;> rfl
@[simp] theorem State.setMs_enc (n m : Nat) (x : MsSt) : (s.setMs n x).enc m = (s).enc m := rfl
@[simp] theorem State.setMs_gen (n m : Nat) (x : MsSt) : (s.setMs n x).gen m = (s).gen m := rfl
@[simp] theorem State.setMs_portTrg (n m : Nat) (x : MsSt) : (s.setMs n x).portTrg m = (s).portTrg m := rfl
@[simp] theorem State.setMs_phyPort (n m : Nat) (x : MsSt) : (s.setMs n x).phyPort m = (s).phyPort m := rfl
@[simp] theorem State.setMs_lnkPort (n m : Nat) (x : MsSt) : (s.setMs n x).lnkPort m = (s).lnkPort m := rfl
@[simp] theorem State.setMs_pixStream (n m : Nat) (x : MsSt) : (s.setMs n x).pixStream m = (s).pixStream m := rfl
@[simp] theorem State.setMs_objStream (n m : Nat) (x : MsSt) : (s.setMs n x).objStream m = (s).objStream m := rfl
@[simp] theorem State.setMs_ejBus (n m : Nat) (x : MsSt) : ejBus (s.setMs n x) m = ejBus (s) m := rfl
@[simp] theorem State.setMs_pwmLeg (n m : Nat) (x : MsSt) : pwmLeg (s.setMs n x) m = pwmLeg (s) m := rfl
@[simp] theorem State.setMs_seqU (n m : Nat) (x : MsSt) : (s.setMs n x).seqU m = (s).seqU m := rfl
@[simp] theorem State.setMs_client (n m : Nat) (x : MsSt) : (s.setMs n x).client m = (s).client m := rfl
@[simp] theorem State.setMs_dmaCh (n m : Nat) (x : MsSt) : (s.setMs n x).dmaCh m = (s).dmaCh m := rfl
@[simp] theorem State.setMs_segOf (n m : Nat) (x : MsSt) : segOf (s.setMs n x) m = segOf (s) m := rfl
@[simp] theorem State.setMs_evtCh (n m : Nat) (x : MsSt) : evtCh (s.setMs n x) m = evtCh (s) m := rfl
@[simp] theorem State.setMs_evtCell (n m : Nat) (x : MsSt) : evtCell (s.setMs n x) m = evtCell (s) m := rfl
@[simp] theorem State.setMs_cvPort (n m : Nat) (x : MsSt) : cvPort (s.setMs n x) m = cvPort (s) m := rfl
@[simp] theorem State.setMs_trigPin (n m : Nat) (x : MsSt) : (s.setMs n x).trigPin m = (s).trigPin m := rfl
@[simp] theorem State.setMs_ergQ (n m : Nat) (x : MsSt) : (s.setMs n x).ergQ m = (s).ergQ m := rfl
@[simp] theorem State.setMs_cmpU (n m : Nat) (x : MsSt) : (s.setMs n x).cmpU m = (s).cmpU m := rfl

@[simp] theorem State.setGen_gen_same (n : Nat) (x : GenSt) : (s.setGen n x).gen n = x := by
  simp [State.setGen, State.gen]
theorem State.setGen_gen_ne (n m : Nat) (x : GenSt) (h : m ≠ n) : (s.setGen n x).gen m = (s).gen m := by
  simp [State.setGen, State.gen, Tab.get_set_ne _ _ _ h]
@[simp] theorem State.rd_setGen (n : Nat) (x : GenSt) : (s.setGen n x).rd b a = s.rd b a := by cases b <;> rfl
@[simp] theorem State.setGen_enc (n m : Nat) (x : GenSt) : (s.setGen n x).enc m = (s).enc m := rfl
@[simp] theorem State.setGen_ms (n m : Nat) (x : GenSt) : (s.setGen n x).ms m = (s).ms m := rfl
@[simp] theorem State.setGen_portTrg (n m : Nat) (x : GenSt) : (s.setGen n x).portTrg m = (s).portTrg m := rfl
@[simp] theorem State.setGen_phyPort (n m : Nat) (x : GenSt) : (s.setGen n x).phyPort m = (s).phyPort m := rfl
@[simp] theorem State.setGen_lnkPort (n m : Nat) (x : GenSt) : (s.setGen n x).lnkPort m = (s).lnkPort m := rfl
@[simp] theorem State.setGen_pixStream (n m : Nat) (x : GenSt) : (s.setGen n x).pixStream m = (s).pixStream m := rfl
@[simp] theorem State.setGen_objStream (n m : Nat) (x : GenSt) : (s.setGen n x).objStream m = (s).objStream m := rfl
@[simp] theorem State.setGen_ejBus (n m : Nat) (x : GenSt) : ejBus (s.setGen n x) m = ejBus (s) m := rfl
@[simp] theorem State.setGen_pwmLeg (n m : Nat) (x : GenSt) : pwmLeg (s.setGen n x) m = pwmLeg (s) m := rfl
@[simp] theorem State.setGen_seqU (n m : Nat) (x : GenSt) : (s.setGen n x).seqU m = (s).seqU m := rfl
@[simp] theorem State.setGen_client (n m : Nat) (x : GenSt) : (s.setGen n x).client m = (s).client m := rfl
@[simp] theorem State.setGen_dmaCh (n m : Nat) (x : GenSt) : (s.setGen n x).dmaCh m = (s).dmaCh m := rfl
@[simp] theorem State.setGen_segOf (n m : Nat) (x : GenSt) : segOf (s.setGen n x) m = segOf (s) m := rfl
@[simp] theorem State.setGen_evtCh (n m : Nat) (x : GenSt) : evtCh (s.setGen n x) m = evtCh (s) m := rfl
@[simp] theorem State.setGen_evtCell (n m : Nat) (x : GenSt) : evtCell (s.setGen n x) m = evtCell (s) m := rfl
@[simp] theorem State.setGen_cvPort (n m : Nat) (x : GenSt) : cvPort (s.setGen n x) m = cvPort (s) m := rfl
@[simp] theorem State.setGen_trigPin (n m : Nat) (x : GenSt) : (s.setGen n x).trigPin m = (s).trigPin m := rfl
@[simp] theorem State.setGen_ergQ (n m : Nat) (x : GenSt) : (s.setGen n x).ergQ m = (s).ergQ m := rfl
@[simp] theorem State.setGen_cmpU (n m : Nat) (x : GenSt) : (s.setGen n x).cmpU m = (s).cmpU m := rfl

@[simp] theorem State.onPortTrg_portTrg_same (n : Nat) (f : PortTrg → PortTrg) : (s.onPortTrg n f).portTrg n = f ((s).portTrg n) := by
  simp [State.onPortTrg, State.portTrg]
theorem State.onPortTrg_portTrg_ne (n m : Nat) (f : PortTrg → PortTrg) (h : m ≠ n) : (s.onPortTrg n f).portTrg m = (s).portTrg m := by
  simp [State.onPortTrg, State.portTrg, Tab.get_upd_ne _ _ _ h]
@[simp] theorem State.rd_onPortTrg (n : Nat) (f : PortTrg → PortTrg) : (s.onPortTrg n f).rd b a = s.rd b a := by cases b <;> rfl
@[simp] theorem State.onPortTrg_enc (n m : Nat) (f : PortTrg → PortTrg) : (s.onPortTrg n f).enc m = (s).enc m := rfl
@[simp] theorem State.onPortTrg_ms (n m : Nat) (f : PortTrg → PortTrg) : (s.onPortTrg n f).ms m = (s).ms m := rfl
@[simp] theorem State.onPortTrg_gen (n m : Nat) (f : PortTrg → PortTrg) : (s.onPortTrg n f).gen m = (s).gen m := rfl
@[simp] theorem State.onPortTrg_phyPort (n m : Nat) (f : PortTrg → PortTrg) : (s.onPortTrg n f).phyPort m = (s).phyPort m := rfl
@[simp] theorem State.onPortTrg_lnkPort (n m : Nat) (f : PortTrg → PortTrg) : (s.onPortTrg n f).lnkPort m = (s).lnkPort m := rfl
@[simp] theorem State.onPortTrg_pixStream (n m : Nat) (f : PortTrg → PortTrg) : (s.onPortTrg n f).pixStream m = (s).pixStream m := rfl
@[simp] theorem State.onPortTrg_objStream (n m : Nat) (f : PortTrg → PortTrg) : (s.onPortTrg n f).objStream m = (s).objStream m := rfl
@[simp] theorem State.onPortTrg_ejBus (n m : Nat) (f : PortTrg → PortTrg) : ejBus (s.onPortTrg n f) m = ejBus (s) m := rfl
@[simp] theorem State.onPortTrg_pwmLeg (n m : Nat) (f : PortTrg → PortTrg) : pwmLeg (s.onPortTrg n f) m = pwmLeg (s) m := rfl
@[simp] theorem State.onPortTrg_seqU (n m : Nat) (f : PortTrg → PortTrg) : (s.onPortTrg n f).seqU m = (s).seqU m := rfl
@[simp] theorem State.onPortTrg_client (n m : Nat) (f : PortTrg → PortTrg) : (s.onPortTrg n f).client m = (s).client m := rfl
@[simp] theorem State.onPortTrg_dmaCh (n m : Nat) (f : PortTrg → PortTrg) : (s.onPortTrg n f).dmaCh m = (s).dmaCh m := rfl
@[simp] theorem State.onPortTrg_segOf (n m : Nat) (f : PortTrg → PortTrg) : segOf (s.onPortTrg n f) m = segOf (s) m := rfl
@[simp] theorem State.onPortTrg_evtCh (n m : Nat) (f : PortTrg → PortTrg) : evtCh (s.onPortTrg n f) m = evtCh (s) m := rfl
@[simp] theorem State.onPortTrg_evtCell (n m : Nat) (f : PortTrg → PortTrg) : evtCell (s.onPortTrg n f) m = evtCell (s) m := rfl
@[simp] theorem State.onPortTrg_cvPort (n m : Nat) (f : PortTrg → PortTrg) : cvPort (s.onPortTrg n f) m = cvPort (s) m := rfl
@[simp] theorem State.onPortTrg_trigPin (n m : Nat) (f : PortTrg → PortTrg) : (s.onPortTrg n f).trigPin m = (s).trigPin m := rfl
@[simp] theorem State.onPortTrg_ergQ (n m : Nat) (f : PortTrg → PortTrg) : (s.onPortTrg n f).ergQ m = (s).ergQ m := rfl
@[simp] theorem State.onPortTrg_cmpU (n m : Nat) (f : PortTrg → PortTrg) : (s.onPortTrg n f).cmpU m = (s).cmpU m := rfl

@[simp] theorem State.onPhy_phyPort_same (n : Nat) (f : PhyPort → PhyPort) : (s.onPhy n f).phyPort n = f ((s).phyPort n) := by
  simp [State.onPhy, State.phyPort]
theorem State.onPhy_phyPort_ne (n m : Nat) (f : PhyPort → PhyPort) (h : m ≠ n) : (s.onPhy n f).phyPort m = (s).phyPort m := by
  simp [State.onPhy, State.phyPort, Tab.get_upd_ne _ _ _ h]
@[simp] theorem State.rd_onPhy (n : Nat) (f : PhyPort → PhyPort) : (s.onPhy n f).rd b a = s.rd b a := by cases b <;> rfl
@[simp] theorem State.onPhy_enc (n m : Nat) (f : PhyPort → PhyPort) : (s.onPhy n f).enc m = (s).enc m := rfl
@[simp] theorem State.onPhy_ms (n m : Nat) (f : PhyPort → PhyPort) : (s.onPhy n f).ms m = (s).ms m := rfl
@[simp] theorem State.onPhy_gen (n m : Nat) (f : PhyPort → PhyPort) : (s.onPhy n f).gen m = (s).gen m := rfl
@[simp] theorem State.onPhy_portTrg (n m : Nat) (f : PhyPort → PhyPort) : (s.onPhy n f).portTrg m = (s).portTrg m := rfl
@[simp] theorem State.onPhy_lnkPort (n m : Nat) (f : PhyPort → PhyPort) : (s.onPhy n f).lnkPort m = (s).lnkPort m := rfl
@[simp] theorem State.onPhy_pixStream (n m : Nat) (f : PhyPort → PhyPort) : (s.onPhy n f).pixStream m = (s).pixStream m := rfl
@[simp] theorem State.onPhy_objStream (n m : Nat) (f : PhyPort → PhyPort) : (s.onPhy n f).objStream m = (s).objStream m := rfl
@[simp] theorem State.onPhy_ejBus (n m : Nat) (f : PhyPort → PhyPort) : ejBus (s.onPhy n f) m = ejBus (s) m := rfl
@[simp] theorem State.onPhy_pwmLeg (n m : Nat) (f : PhyPort → PhyPort) : pwmLeg (s.onPhy n f) m = pwmLeg (s) m := rfl
@[simp] theorem State.onPhy_seqU (n m : Nat) (f : PhyPort → PhyPort) : (s.onPhy n f).seqU m = (s).seqU m := rfl
@[simp] theorem State.onPhy_client (n m : Nat) (f : PhyPort → PhyPort) : (s.onPhy n f).client m = (s).client m := rfl
@[simp] theorem State.onPhy_dmaCh (n m : Nat) (f : PhyPort → PhyPort) : (s.onPhy n f).dmaCh m = (s).dmaCh m := rfl
@[simp] theorem State.onPhy_segOf (n m : Nat) (f : PhyPort → PhyPort) : segOf (s.onPhy n f) m = segOf (s) m := rfl
@[simp] theorem State.onPhy_evtCh (n m : Nat) (f : PhyPort → PhyPort) : evtCh (s.onPhy n f) m = evtCh (s) m := rfl
@[simp] theorem State.onPhy_evtCell (n m : Nat) (f : PhyPort → PhyPort) : evtCell (s.onPhy n f) m = evtCell (s) m := rfl
@[simp] theorem State.onPhy_cvPort (n m : Nat) (f : PhyPort → PhyPort) : cvPort (s.onPhy n f) m = cvPort (s) m := rfl
@[simp] theorem State.onPhy_trigPin (n m : Nat) (f : PhyPort → PhyPort) : (s.onPhy n f).trigPin m = (s).trigPin m := rfl
@[simp] theorem State.onPhy_ergQ (n m : Nat) (f : PhyPort → PhyPort) : (s.onPhy n f).ergQ m = (s).ergQ m := rfl
@[simp] theorem State.onPhy_cmpU (n m : Nat) (f : PhyPort → PhyPort) : (s.onPhy n f).cmpU m = (s).cmpU m := rfl

@[simp] theorem State.setLnkPort_lnkPort_same (n : Nat) (x : LnkPort) : (s.setLnkPort n x).lnkPort n = x := by
  simp [State.setLnkPort, State.lnkPort]
theorem State.setLnkPort_lnkPort_ne (n m : Nat) (x : LnkPort) (h : m ≠ n) : (s.setLnkPort n x).lnkPort m = (s).lnkPort m := by
  simp [State.setLnkPort, State.lnkPort, Tab.get_set_ne _ _ _ h]
@[simp] theorem State.rd_setLnkPort (n : Nat) (x : LnkPort) : (s.setLnkPort n x).rd b a = s.rd b a := by cases b <;> rfl
@[simp] theorem State.setLnkPort_enc (n m : Nat) (x : LnkPort) : (s.setLnkPort n x).enc m = (s).enc m := rfl
@[simp] theorem State.setLnkPort_ms (n m : Nat) (x : LnkPort) : (s.setLnkPort n x).ms m = (s).ms m := rfl
@[simp] theorem State.setLnkPort_gen (n m : Nat) (x : LnkPort) : (s.setLnkPort n x).gen m = (s).gen m := rfl
@[simp] theorem State.setLnkPort_portTrg (n m : Nat) (x : LnkPort) : (s.setLnkPort n x).portTrg m = (s).portTrg m := rfl
@[simp] theorem State.setLnkPort_phyPort (n m : Nat) (x : LnkPort) : (s.setLnkPort n x).phyPort m = (s).phyPort m := rfl
@[simp] theorem State.setLnkPort_pixStream (n m : Nat) (x : LnkPort) : (s.setLnkPort n x).pixStream m = (s).pixStream m := rfl
@[simp] theorem State.setLnkPort_objStream (n m : Nat) (x : LnkPort) : (s.setLnkPort n x).objStream m = (s).objStream m := rfl
@[simp] theorem State.setLnkPort_ejBus (n m : Nat) (x : LnkPort) : ejBus (s.setLnkPort n x) m = ejBus (s) m := rfl
@[simp] theorem State.setLnkPort_pwmLeg (n m : Nat) (x : LnkPort) : pwmLeg (s.setLnkPort n x) m = pwmLeg (s) m := rfl
@[simp] theorem State.setLnkPort_seqU (n m : Nat) (x : LnkPort) : (s.setLnkPort n x).seqU m = (s).seqU m := rfl
@[simp] theorem State.setLnkPort_client (n m : Nat) (x : LnkPort) : (s.setLnkPort n x).client m = (s).client m := rfl
@[simp] theorem State.setLnkPort_dmaCh (n m : Nat) (x : LnkPort) : (s.setLnkPort n x).dmaCh m = (s).dmaCh m := rfl
@[simp] theorem State.setLnkPort_segOf (n m : Nat) (x : LnkPort) : segOf (s.setLnkPort n x) m = segOf (s) m := rfl
@[simp] theorem State.setLnkPort_evtCh (n m : Nat) (x : LnkPort) : evtCh (s.setLnkPort n x) m = evtCh (s) m := rfl
@[simp] theorem State.setLnkPort_evtCell (n m : Nat) (x : LnkPort) : evtCell (s.setLnkPort n x) m = evtCell (s) m := rfl
@[simp] theorem State.setLnkPort_cvPort (n m : Nat) (x : LnkPort) : cvPort (s.setLnkPort n x) m = cvPort (s) m := rfl
@[simp] theorem State.setLnkPort_trigPin (n m : Nat) (x : LnkPort) : (s.setLnkPort n x).trigPin m = (s).trigPin m := rfl
@[simp] theorem State.setLnkPort_ergQ (n m : Nat) (x : LnkPort) : (s.setLnkPort n x).ergQ m = (s).ergQ m := rfl
@[simp] theorem State.setLnkPort_cmpU (n m : Nat) (x : LnkPort) : (s.setLnkPort n x).cmpU m = (s).cmpU m := rfl

@[simp] theorem State.onLnk_lnkPort_same (n : Nat) (f : LnkPort → LnkPort) : (s.onLnk n f).lnkPort n = f ((s).lnkPort n) := by
  simp [State.onLnk, State.lnkPort, State.setLnkPort]
theorem State.onLnk_lnkPort_ne (n m : Nat) (f : LnkPort → LnkPort) (h : m ≠ n) : (s.onLnk n f).lnkPort m = (s).lnkPort m := by
  simp [State.onLnk, State.lnkPort, State.setLnkPort, Tab.get_set_ne _ _ _ h]
@[simp] theorem State.rd_onLnk (n : Nat) (f : LnkPort → LnkPort) : (s.onLnk n f).rd b a = s.rd b a := by cases b <;> rfl
@[simp] theorem State.onLnk_enc (n m : Nat) (f : LnkPort → LnkPort) : (s.onLnk n f).enc m = (s).enc m := rfl
@[simp] theorem State.onLnk_ms (n m : Nat) (f : LnkPort → LnkPort) : (s.onLnk n f).ms m = (s).ms m := rfl
@[simp] theorem State.onLnk_gen (n m : Nat) (f : LnkPort → LnkPort) : (s.onLnk n f).gen m = (s).gen m := rfl
@[simp] theorem State.onLnk_portTrg (n m : Nat) (f : LnkPort → LnkPort) : (s.onLnk n f).portTrg m = (s).portTrg m := rfl
@[simp] theorem State.onLnk_phyPort (n m : Nat) (f : LnkPort → LnkPort) : (s.onLnk n f).phyPort m = (s).phyPort m := rfl
@[simp] theorem State.onLnk_pixStream (n m : Nat) (f : LnkPort → LnkPort) : (s.onLnk n f).pixStream m = (s).pixStream m := rfl
@[simp] theorem State.onLnk_objStream (n m : Nat) (f : LnkPort → LnkPort) : (s.onLnk n f).objStream m = (s).objStream m := rfl
@[simp] theorem State.onLnk_ejBus (n m : Nat) (f : LnkPort → LnkPort) : ejBus (s.onLnk n f) m = ejBus (s) m := rfl
@[simp] theorem State.onLnk_pwmLeg (n m : Nat) (f : LnkPort → LnkPort) : pwmLeg (s.onLnk n f) m = pwmLeg (s) m := rfl
@[simp] theorem State.onLnk_seqU (n m : Nat) (f : LnkPort → LnkPort) : (s.onLnk n f).seqU m = (s).seqU m := rfl
@[simp] theorem State.onLnk_client (n m : Nat) (f : LnkPort → LnkPort) : (s.onLnk n f).client m = (s).client m := rfl
@[simp] theorem State.onLnk_dmaCh (n m : Nat) (f : LnkPort → LnkPort) : (s.onLnk n f).dmaCh m = (s).dmaCh m := rfl
@[simp] theorem State.onLnk_segOf (n m : Nat) (f : LnkPort → LnkPort) : segOf (s.onLnk n f) m = segOf (s) m := rfl
@[simp] theorem State.onLnk_evtCh (n m : Nat) (f : LnkPort → LnkPort) : evtCh (s.onLnk n f) m = evtCh (s) m := rfl
@[simp] theorem State.onLnk_evtCell (n m : Nat) (f : LnkPort → LnkPort) : evtCell (s.onLnk n f) m = evtCell (s) m := rfl
@[simp] theorem State.onLnk_cvPort (n m : Nat) (f : LnkPort → LnkPort) : cvPort (s.onLnk n f) m = cvPort (s) m := rfl
@[simp] theorem State.onLnk_trigPin (n m : Nat) (f : LnkPort → LnkPort) : (s.onLnk n f).trigPin m = (s).trigPin m := rfl
@[simp] theorem State.onLnk_ergQ (n m : Nat) (f : LnkPort → LnkPort) : (s.onLnk n f).ergQ m = (s).ergQ m := rfl
@[simp] theorem State.onLnk_cmpU (n m : Nat) (f : LnkPort → LnkPort) : (s.onLnk n f).cmpU m = (s).cmpU m := rfl

@[simp] theorem State.setPix_pixStream_same (n : Nat) (x : PixStream) : (s.setPix n x).pixStream n = x := by
  simp [State.setPix, State.pixStream]
theorem State.setPix_pixStream_ne (n m : Nat) (x : PixStream) (h : m ≠ n) : (s.setPix n x).pixStream m = (s).pixStream m := by
  simp [State.setPix, State.pixStream, Tab.get_set_ne _ _ _ h]
@[simp] theorem State.rd_setPix (n : Nat) (x : PixStream) : (s.setPix n x).rd b a = s.rd b a := by cases b <;> rfl
@[simp] theorem State.setPix_enc (n m : Nat) (x : PixStream) : (s.setPix n x).enc m = (s).enc m := rfl
@[simp] theorem State.setPix_ms (n m : Nat) (x : PixStream) : (s.setPix n x).ms m = (s).ms m := rfl
@[simp] theorem State.setPix_gen (n m : Nat) (x : PixStream) : (s.setPix n x).gen m = (s).gen m := rfl
@[simp] theorem State.setPix_portTrg (n m : Nat) (x : PixStream) : (s.setPix n x).portTrg m = (s).portTrg m := rfl
@[simp] theorem State.setPix_phyPort (n m : Nat) (x : PixStream) : (s.setPix n x).phyPort m = (s).phyPort m := rfl
@[simp] theorem State.setPix_lnkPort (n m : Nat) (x : PixStream) : (s.setPix n x).lnkPort m = (s).lnkPort m := rfl
@[simp] theorem State.setPix_objStream (n m : Nat) (x : PixStream) : (s.setPix n x).objStream m = (s).objStream m := rfl
@[simp] theorem State.setPix_ejBus (n m : Nat) (x : PixStream) : ejBus (s.setPix n x) m = ejBus (s) m := rfl
@[simp] theorem State.setPix_pwmLeg (n m : Nat) (x : PixStream) : pwmLeg (s.setPix n x) m = pwmLeg (s) m := rfl
@[simp] theorem State.setPix_seqU (n m : Nat) (x : PixStream) : (s.setPix n x).seqU m = (s).seqU m := rfl
@[simp] theorem State.setPix_client (n m : Nat) (x : PixStream) : (s.setPix n x).client m = (s).client m := rfl
@[simp] theorem State.setPix_dmaCh (n m : Nat) (x : PixStream) : (s.setPix n x).dmaCh m = (s).dmaCh m := rfl
@[simp] theorem State.setPix_segOf (n m : Nat) (x : PixStream) : segOf (s.setPix n x) m = segOf (s) m := rfl
@[simp] theorem State.setPix_evtCh (n m : Nat) (x : PixStream) : evtCh (s.setPix n x) m = evtCh (s) m := rfl
@[simp] theorem State.setPix_evtCell (n m : Nat) (x : PixStream) : evtCell (s.setPix n x) m = evtCell (s) m := rfl
@[simp] theorem State.setPix_cvPort (n m : Nat) (x : PixStream) : cvPort (s.setPix n x) m = cvPort (s) m := rfl
@[simp] theorem State.setPix_trigPin (n m : Nat) (x : PixStream) : (s.setPix n x).trigPin m = (s).trigPin m := rfl
@[simp] theorem State.setPix_ergQ (n m : Nat) (x : PixStream) : (s.setPix n x).ergQ m = (s).ergQ m := rfl
@[simp] theorem State.setPix_cmpU (n m : Nat) (x : PixStream) : (s.setPix n x).cmpU m = (s).cmpU m := rfl

@[simp] theorem State.onPix_pixStream_same (n : Nat) (f : PixStream → PixStream) : (s.onPix n f).pixStream n = f ((s).pixStream n) := by
  simp [State.onPix, State.pixStream, State.setPix]
theorem State.onPix_pixStream_ne (n m : Nat) (f : PixStream → PixStream) (h : m ≠ n) : (s.onPix n f).pixStream m = (s).pixStream m := by
  simp [State.onPix, State.pixStream, State.setPix, Tab.get_set_ne _ _ _ h]
@[simp] theorem State.rd_onPix (n : Nat) (f : PixStream → PixStream) : (s.onPix n f).rd b a = s.rd b a := by cases b <;> rfl
@[simp] theorem State.onPix_enc (n m : Nat) (f : PixStream → PixStream) : (s.onPix n f).enc m = (s).enc m := rfl
@[simp] theorem State.onPix_ms (n m : Nat) (f : PixStream → PixStream) : (s.onPix n f).ms m = (s).ms m := rfl
@[simp] theorem State.onPix_gen (n m : Nat) (f : PixStream → PixStream) : (s.onPix n f).gen m = (s).gen m := rfl
@[simp] theorem State.onPix_portTrg (n m : Nat) (f : PixStream → PixStream) : (s.onPix n f).portTrg m = (s).portTrg m := rfl
@[simp] theorem State.onPix_phyPort (n m : Nat) (f : PixStream → PixStream) : (s.onPix n f).phyPort m = (s).phyPort m := rfl
@[simp] theorem State.onPix_lnkPort (n m : Nat) (f : PixStream → PixStream) : (s.onPix n f).lnkPort m = (s).lnkPort m := rfl
@[simp] theorem State.onPix_objStream (n m : Nat) (f : PixStream → PixStream) : (s.onPix n f).objStream m = (s).objStream m := rfl
@[simp] theorem State.onPix_ejBus (n m : Nat) (f : PixStream → PixStream) : ejBus (s.onPix n f) m = ejBus (s) m := rfl
@[simp] theorem State.onPix_pwmLeg (n m : Nat) (f : PixStream → PixStream) : pwmLeg (s.onPix n f) m = pwmLeg (s) m := rfl
@[simp] theorem State.onPix_seqU (n m : Nat) (f : PixStream → PixStream) : (s.onPix n f).seqU m = (s).seqU m := rfl
@[simp] theorem State.onPix_client (n m : Nat) (f : PixStream → PixStream) : (s.onPix n f).client m = (s).client m := rfl
@[simp] theorem State.onPix_dmaCh (n m : Nat) (f : PixStream → PixStream) : (s.onPix n f).dmaCh m = (s).dmaCh m := rfl
@[simp] theorem State.onPix_segOf (n m : Nat) (f : PixStream → PixStream) : segOf (s.onPix n f) m = segOf (s) m := rfl
@[simp] theorem State.onPix_evtCh (n m : Nat) (f : PixStream → PixStream) : evtCh (s.onPix n f) m = evtCh (s) m := rfl
@[simp] theorem State.onPix_evtCell (n m : Nat) (f : PixStream → PixStream) : evtCell (s.onPix n f) m = evtCell (s) m := rfl
@[simp] theorem State.onPix_cvPort (n m : Nat) (f : PixStream → PixStream) : cvPort (s.onPix n f) m = cvPort (s) m := rfl
@[simp] theorem State.onPix_trigPin (n m : Nat) (f : PixStream → PixStream) : (s.onPix n f).trigPin m = (s).trigPin m := rfl
@[simp] theorem State.onPix_ergQ (n m : Nat) (f : PixStream → PixStream) : (s.onPix n f).ergQ m = (s).ergQ m := rfl
@[simp] theorem State.onPix_cmpU (n m : Nat) (f : PixStream → PixStream) : (s.onPix n f).cmpU m = (s).cmpU m := rfl

@[simp] theorem State.setObj_objStream_same (n : Nat) (x : ObjStream) : (s.setObj n x).objStream n = x := by
  simp [State.setObj, State.objStream]
theorem State.setObj_objStream_ne (n m : Nat) (x : ObjStream) (h : m ≠ n) : (s.setObj n x).objStream m = (s).objStream m := by
  simp [State.setObj, State.objStream, Tab.get_set_ne _ _ _ h]
@[simp] theorem State.rd_setObj (n : Nat) (x : ObjStream) : (s.setObj n x).rd b a = s.rd b a := by cases b <;> rfl
@[simp] theorem State.setObj_enc (n m : Nat) (x : ObjStream) : (s.setObj n x).enc m = (s).enc m := rfl
@[simp] theorem State.setObj_ms (n m : Nat) (x : ObjStream) : (s.setObj n x).ms m = (s).ms m := rfl
@[simp] theorem State.setObj_gen (n m : Nat) (x : ObjStream) : (s.setObj n x).gen m = (s).gen m := rfl
@[simp] theorem State.setObj_portTrg (n m : Nat) (x : ObjStream) : (s.setObj n x).portTrg m = (s).portTrg m := rfl
@[simp] theorem State.setObj_phyPort (n m : Nat) (x : ObjStream) : (s.setObj n x).phyPort m = (s).phyPort m := rfl
@[simp] theorem State.setObj_lnkPort (n m : Nat) (x : ObjStream) : (s.setObj n x).lnkPort m = (s).lnkPort m := rfl
@[simp] theorem State.setObj_pixStream (n m : Nat) (x : ObjStream) : (s.setObj n x).pixStream m = (s).pixStream m := rfl
@[simp] theorem State.setObj_ejBus (n m : Nat) (x : ObjStream) : ejBus (s.setObj n x) m = ejBus (s) m := rfl
@[simp] theorem State.setObj_pwmLeg (n m : Nat) (x : ObjStream) : pwmLeg (s.setObj n x) m = pwmLeg (s) m := rfl
@[simp] theorem State.setObj_seqU (n m : Nat) (x : ObjStream) : (s.setObj n x).seqU m = (s).seqU m := rfl
@[simp] theorem State.setObj_client (n m : Nat) (x : ObjStream) : (s.setObj n x).client m = (s).client m := rfl
@[simp] theorem State.setObj_dmaCh (n m : Nat) (x : ObjStream) : (s.setObj n x).dmaCh m = (s).dmaCh m := rfl
@[simp] theorem State.setObj_segOf (n m : Nat) (x : ObjStream) : segOf (s.setObj n x) m = segOf (s) m := rfl
@[simp] theorem State.setObj_evtCh (n m : Nat) (x : ObjStream) : evtCh (s.setObj n x) m = evtCh (s) m := rfl
@[simp] theorem State.setObj_evtCell (n m : Nat) (x : ObjStream) : evtCell (s.setObj n x) m = evtCell (s) m := rfl
@[simp] theorem State.setObj_cvPort (n m : Nat) (x : ObjStream) : cvPort (s.setObj n x) m = cvPort (s) m := rfl
@[simp] theorem State.setObj_trigPin (n m : Nat) (x : ObjStream) : (s.setObj n x).trigPin m = (s).trigPin m := rfl
@[simp] theorem State.setObj_ergQ (n m : Nat) (x : ObjStream) : (s.setObj n x).ergQ m = (s).ergQ m := rfl
@[simp] theorem State.setObj_cmpU (n m : Nat) (x : ObjStream) : (s.setObj n x).cmpU m = (s).cmpU m := rfl

@[simp] theorem State.onObj_objStream_same (n : Nat) (f : ObjStream → ObjStream) : (s.onObj n f).objStream n = f ((s).objStream n) := by
  simp [State.onObj, State.objStream, State.setObj]
theorem State.onObj_objStream_ne (n m : Nat) (f : ObjStream → ObjStream) (h : m ≠ n) : (s.onObj n f).objStream m = (s).objStream m := by
  simp [State.onObj, State.objStream, State.setObj, Tab.get_set_ne _ _ _ h]
@[simp] theorem State.rd_onObj (n : Nat) (f : ObjStream → ObjStream) : (s.onObj n f).rd b a = s.rd b a := by cases b <;> rfl
@[simp] theorem State.onObj_enc (n m : Nat) (f : ObjStream → ObjStream) : (s.onObj n f).enc m = (s).enc m := rfl
@[simp] theorem State.onObj_ms (n m : Nat) (f : ObjStream → ObjStream) : (s.onObj n f).ms m = (s).ms m := rfl
@[simp] theorem State.onObj_gen (n m : Nat) (f : ObjStream → ObjStream) : (s.onObj n f).gen m = (s).gen m := rfl
@[simp] theorem State.onObj_portTrg (n m : Nat) (f : ObjStream → ObjStream) : (s.onObj n f).portTrg m = (s).portTrg m := rfl
@[simp] theorem State.onObj_phyPort (n m : Nat) (f : ObjStream → ObjStream) : (s.onObj n f).phyPort m = (s).phyPort m := rfl
@[simp] theorem State.onObj_lnkPort (n m : Nat) (f : ObjStream → ObjStream) : (s.onObj n f).lnkPort m = (s).lnkPort m := rfl
@[simp] theorem State.onObj_pixStream (n m : Nat) (f : ObjStream → ObjStream) : (s.onObj n f).pixStream m = (s).pixStream m := rfl
@[simp] theorem State.onObj_ejBus (n m : Nat) (f : ObjStream → ObjStream) : ejBus (s.onObj n f) m = ejBus (s) m := rfl
@[simp] theorem State.onObj_pwmLeg (n m : Nat) (f : ObjStream → ObjStream) : pwmLeg (s.onObj n f) m = pwmLeg (s) m := rfl
@[simp] theorem State.onObj_seqU (n m : Nat) (f : ObjStream → ObjStream) : (s.onObj n f).seqU m = (s).seqU m := rfl
@[simp] theorem State.onObj_client (n m : Nat) (f : ObjStream → ObjStream) : (s.onObj n f).client m = (s).client m := rfl
@[simp] theorem State.onObj_dmaCh (n m : Nat) (f : ObjStream → ObjStream) : (s.onObj n f).dmaCh m = (s).dmaCh m := rfl
@[simp] theorem State.onObj_segOf (n m : Nat) (f : ObjStream → ObjStream) : segOf (s.onObj n f) m = segOf (s) m := rfl
@[simp] theorem State.onObj_evtCh (n m : Nat) (f : ObjStream → ObjStream) : evtCh (s.onObj n f) m = evtCh (s) m := rfl
@[simp] theorem State.onObj_evtCell (n m : Nat) (f : ObjStream → ObjStream) : evtCell (s.onObj n f) m = evtCell (s) m := rfl
@[simp] theorem State.onObj_cvPort (n m : Nat) (f : ObjStream → ObjStream) : cvPort (s.onObj n f) m = cvPort (s) m := rfl
@[simp] theorem State.onObj_trigPin (n m : Nat) (f : ObjStream → ObjStream) : (s.onObj n f).trigPin m = (s).trigPin m := rfl
@[simp] theorem State.onObj_ergQ (n m : Nat) (f : ObjStream → ObjStream) : (s.onObj n f).ergQ m = (s).ergQ m := rfl
@[simp] theorem State.onObj_cmpU (n m : Nat) (f : ObjStream → ObjStream) : (s.onObj n f).cmpU m = (s).cmpU m := rfl

@[simp] theorem State.setEjBus_ejBus_same (n : Nat) (x : EjBus) : ejBus (s.setEjBus n x) n = x := by
  simp [State.setEjBus, ejBus]
theorem State.setEjBus_ejBus_ne (n m : Nat) (x : EjBus) (h : m ≠ n) : ejBus (s.setEjBus n x) m = ejBus (s) m := by
  simp [State.setEjBus, ejBus, Tab.get_set_ne _ _ _ h]
@[simp] theorem State.rd_setEjBus (n : Nat) (x : EjBus) : (s.setEjBus n x).rd b a = s.rd b a := by cases b <;> rfl
@[simp] theorem State.setEjBus_enc (n m : Nat) (x : EjBus) : (s.setEjBus n x).enc m = (s).enc m := rfl
@[simp] theorem State.setEjBus_ms (n m : Nat) (x : EjBus) : (s.setEjBus n x).ms m = (s).ms m := rfl
@[simp] theorem State.setEjBus_gen (n m : Nat) (x : EjBus) : (s.setEjBus n x).gen m = (s).gen m := rfl
@[simp] theorem State.setEjBus_portTrg (n m : Nat) (x : EjBus) : (s.setEjBus n x).portTrg m = (s).portTrg m := rfl
@[simp] theorem State.setEjBus_phyPort (n m : Nat) (x : EjBus) : (s.setEjBus n x).phyPort m = (s).phyPort m := rfl
@[simp] theorem State.setEjBus_lnkPort (n m : Nat) (x : EjBus) : (s.setEjBus n x).lnkPort m = (s).lnkPort m := rfl
@[simp] theorem State.setEjBus_pixStream (n m : Nat) (x : EjBus) : (s.setEjBus n x).pixStream m = (s).pixStream m := rfl
@[simp] theorem State.setEjBus_objStream (n m : Nat) (x : EjBus) : (s.setEjBus n x).objStream m = (s).objStream m := rfl
@[simp] theorem State.setEjBus_pwmLeg (n m : Nat) (x : EjBus) : pwmLeg (s.setEjBus n x) m = pwmLeg (s) m := rfl
@[simp] theorem State.setEjBus_seqU (n m : Nat) (x : EjBus) : (s.setEjBus n x).seqU m = (s).seqU m := rfl
@[simp] theorem State.setEjBus_client (n m : Nat) (x : EjBus) : (s.setEjBus n x).client m = (s).client m := rfl
@[simp] theorem State.setEjBus_dmaCh (n m : Nat) (x : EjBus) : (s.setEjBus n x).dmaCh m = (s).dmaCh m := rfl
@[simp] theorem State.setEjBus_segOf (n m : Nat) (x : EjBus) : segOf (s.setEjBus n x) m = segOf (s) m := rfl
@[simp] theorem State.setEjBus_evtCh (n m : Nat) (x : EjBus) : evtCh (s.setEjBus n x) m = evtCh (s) m := rfl
@[simp] theorem State.setEjBus_evtCell (n m : Nat) (x : EjBus) : evtCell (s.setEjBus n x) m = evtCell (s) m := rfl
@[simp] theorem State.setEjBus_cvPort (n m : Nat) (x : EjBus) : cvPort (s.setEjBus n x) m = cvPort (s) m := rfl
@[simp] theorem State.setEjBus_trigPin (n m : Nat) (x : EjBus) : (s.setEjBus n x).trigPin m = (s).trigPin m := rfl
@[simp] theorem State.setEjBus_ergQ (n m : Nat) (x : EjBus) : (s.setEjBus n x).ergQ m = (s).ergQ m := rfl
@[simp] theorem State.setEjBus_cmpU (n m : Nat) (x : EjBus) : (s.setEjBus n x).cmpU m = (s).cmpU m := rfl

@[simp] theorem State.onPwm_pwmLeg_same (n : Nat) (f : LegSt → LegSt) : pwmLeg (s.onPwm n f) n = f (pwmLeg s n) := by
  simp [State.onPwm, pwmLeg]
theorem State.onPwm_pwmLeg_ne (n m : Nat) (f : LegSt → LegSt) (h : m ≠ n) : pwmLeg (s.onPwm n f) m = pwmLeg (s) m := by
  simp [State.onPwm, pwmLeg, Tab.get_upd_ne _ _ _ h]
@[simp] theorem State.rd_onPwm (n : Nat) (f : LegSt → LegSt) : (s.onPwm n f).rd b a = s.rd b a := by cases b <;> rfl
@[simp] theorem State.onPwm_enc (n m : Nat) (f : LegSt → LegSt) : (s.onPwm n f).enc m = (s).enc m := rfl
@[simp] theorem State.onPwm_ms (n m : Nat) (f : LegSt → LegSt) : (s.onPwm n f).ms m = (s).ms m := rfl
@[simp] theorem State.onPwm_gen (n m : Nat) (f : LegSt → LegSt) : (s.onPwm n f).gen m = (s).gen m := rfl
@[simp] theorem State.onPwm_portTrg (n m : Nat) (f : LegSt → LegSt) : (s.onPwm n f).portTrg m = (s).portTrg m := rfl
@[simp] theorem State.onPwm_phyPort (n m : Nat) (f : LegSt → LegSt) : (s.onPwm n f).phyPort m = (s).phyPort m := rfl
@[simp] theorem State.onPwm_lnkPort (n m : Nat) (f : LegSt → LegSt) : (s.onPwm n f).lnkPort m = (s).lnkPort m := rfl
@[simp] theorem State.onPwm_pixStream (n m : Nat) (f : LegSt → LegSt) : (s.onPwm n f).pixStream m = (s).pixStream m := rfl
@[simp] theorem State.onPwm_objStream (n m : Nat) (f : LegSt → LegSt) : (s.onPwm n f).objStream m = (s).objStream m := rfl
@[simp] theorem State.onPwm_ejBus (n m : Nat) (f : LegSt → LegSt) : ejBus (s.onPwm n f) m = ejBus (s) m := rfl
@[simp] theorem State.onPwm_seqU (n m : Nat) (f : LegSt → LegSt) : (s.onPwm n f).seqU m = (s).seqU m := rfl
@[simp] theorem State.onPwm_client (n m : Nat) (f : LegSt → LegSt) : (s.onPwm n f).client m = (s).client m := rfl
@[simp] theorem State.onPwm_dmaCh (n m : Nat) (f : LegSt → LegSt) : (s.onPwm n f).dmaCh m = (s).dmaCh m := rfl
@[simp] theorem State.onPwm_segOf (n m : Nat) (f : LegSt → LegSt) : segOf (s.onPwm n f) m = segOf (s) m := rfl
@[simp] theorem State.onPwm_evtCh (n m : Nat) (f : LegSt → LegSt) : evtCh (s.onPwm n f) m = evtCh (s) m := rfl
@[simp] theorem State.onPwm_evtCell (n m : Nat) (f : LegSt → LegSt) : evtCell (s.onPwm n f) m = evtCell (s) m := rfl
@[simp] theorem State.onPwm_cvPort (n m : Nat) (f : LegSt → LegSt) : cvPort (s.onPwm n f) m = cvPort (s) m := rfl
@[simp] theorem State.onPwm_trigPin (n m : Nat) (f : LegSt → LegSt) : (s.onPwm n f).trigPin m = (s).trigPin m := rfl
@[simp] theorem State.onPwm_ergQ (n m : Nat) (f : LegSt → LegSt) : (s.onPwm n f).ergQ m = (s).ergQ m := rfl
@[simp] theorem State.onPwm_cmpU (n m : Nat) (f : LegSt → LegSt) : (s.onPwm n f).cmpU m = (s).cmpU m := rfl

@[simp] theorem State.setSeqU_seqU_same (n : Nat) (x : SeqUnit) : (s.setSeqU n x).seqU n = x := by
  simp [State.setSeqU, State.seqU]
theorem State.setSeqU_seqU_ne (n m : Nat) (x : SeqUnit) (h : m ≠ n) : (s.setSeqU n x).seqU m = (s).seqU m := by
  simp [State.setSeqU, State.seqU, Tab.get_set_ne _ _ _ h]
@[simp] theorem State.rd_setSeqU (n : Nat) (x : SeqUnit) : (s.setSeqU n x).rd b a = s.rd b a := by cases b <;> rfl
@[simp] theorem State.setSeqU_enc (n m : Nat) (x : SeqUnit) : (s.setSeqU n x).enc m = (s).enc m := rfl
@[simp] theorem State.setSeqU_ms (n m : Nat) (x : SeqUnit) : (s.setSeqU n x).ms m = (s).ms m := rfl
@[simp] theorem State.setSeqU_gen (n m : Nat) (x : SeqUnit) : (s.setSeqU n x).gen m = (s).gen m := rfl
@[simp] theorem State.setSeqU_portTrg (n m : Nat) (x : SeqUnit) : (s.setSeqU n x).portTrg m = (s).portTrg m := rfl
@[simp] theorem State.setSeqU_phyPort (n m : Nat) (x : SeqUnit) : (s.setSeqU n x).phyPort m = (s).phyPort m := rfl
@[simp] theorem State.setSeqU_lnkPort (n m : Nat) (x : SeqUnit) : (s.setSeqU n x).lnkPort m = (s).lnkPort m := rfl
@[simp] theorem State.setSeqU_pixStream (n m : Nat) (x : SeqUnit) : (s.setSeqU n x).pixStream m = (s).pixStream m := rfl
@[simp] theorem State.setSeqU_objStream (n m : Nat) (x : SeqUnit) : (s.setSeqU n x).objStream m = (s).objStream m := rfl
@[simp] theorem State.setSeqU_ejBus (n m : Nat) (x : SeqUnit) : ejBus (s.setSeqU n x) m = ejBus (s) m := rfl
@[simp] theorem State.setSeqU_pwmLeg (n m : Nat) (x : SeqUnit) : pwmLeg (s.setSeqU n x) m = pwmLeg (s) m := rfl
@[simp] theorem State.setSeqU_client (n m : Nat) (x : SeqUnit) : (s.setSeqU n x).client m = (s).client m := rfl
@[simp] theorem State.setSeqU_dmaCh (n m : Nat) (x : SeqUnit) : (s.setSeqU n x).dmaCh m = (s).dmaCh m := rfl
@[simp] theorem State.setSeqU_segOf (n m : Nat) (x : SeqUnit) : segOf (s.setSeqU n x) m = segOf (s) m := rfl
@[simp] theorem State.setSeqU_evtCh (n m : Nat) (x : SeqUnit) : evtCh (s.setSeqU n x) m = evtCh (s) m := rfl
@[simp] theorem State.setSeqU_evtCell (n m : Nat) (x : SeqUnit) : evtCell (s.setSeqU n x) m = evtCell (s) m := rfl
@[simp] theorem State.setSeqU_cvPort (n m : Nat) (x : SeqUnit) : cvPort (s.setSeqU n x) m = cvPort (s) m := rfl
@[simp] theorem State.setSeqU_trigPin (n m : Nat) (x : SeqUnit) : (s.setSeqU n x).trigPin m = (s).trigPin m := rfl
@[simp] theorem State.setSeqU_ergQ (n m : Nat) (x : SeqUnit) : (s.setSeqU n x).ergQ m = (s).ergQ m := rfl
@[simp] theorem State.setSeqU_cmpU (n m : Nat) (x : SeqUnit) : (s.setSeqU n x).cmpU m = (s).cmpU m := rfl

@[simp] theorem State.onSeq_seqU_same (n : Nat) (f : SeqUnit → SeqUnit) : (s.onSeq n f).seqU n = f ((s).seqU n) := by
  simp [State.onSeq, State.seqU, State.setSeqU]
theorem State.onSeq_seqU_ne (n m : Nat) (f : SeqUnit → SeqUnit) (h : m ≠ n) : (s.onSeq n f).seqU m = (s).seqU m := by
  simp [State.onSeq, State.seqU, State.setSeqU, Tab.get_set_ne _ _ _ h]
@[simp] theorem State.rd_onSeq (n : Nat) (f : SeqUnit → SeqUnit) : (s.onSeq n f).rd b a = s.rd b a := by cases b <;> rfl
@[simp] theorem State.onSeq_enc (n m : Nat) (f : SeqUnit → SeqUnit) : (s.onSeq n f).enc m = (s).enc m := rfl
@[simp] theorem State.onSeq_ms (n m : Nat) (f : SeqUnit → SeqUnit) : (s.onSeq n f).ms m = (s).ms m := rfl
@[simp] theorem State.onSeq_gen (n m : Nat) (f : SeqUnit → SeqUnit) : (s.onSeq n f).gen m = (s).gen m := rfl
@[simp] theorem State.onSeq_portTrg (n m : Nat) (f : SeqUnit → SeqUnit) : (s.onSeq n f).portTrg m = (s).portTrg m := rfl
@[simp] theorem State.onSeq_phyPort (n m : Nat) (f : SeqUnit → SeqUnit) : (s.onSeq n f).phyPort m = (s).phyPort m := rfl
@[simp] theorem State.onSeq_lnkPort (n m : Nat) (f : SeqUnit → SeqUnit) : (s.onSeq n f).lnkPort m = (s).lnkPort m := rfl
@[simp] theorem State.onSeq_pixStream (n m : Nat) (f : SeqUnit → SeqUnit) : (s.onSeq n f).pixStream m = (s).pixStream m := rfl
@[simp] theorem State.onSeq_objStream (n m : Nat) (f : SeqUnit → SeqUnit) : (s.onSeq n f).objStream m = (s).objStream m := rfl
@[simp] theorem State.onSeq_ejBus (n m : Nat) (f : SeqUnit → SeqUnit) : ejBus (s.onSeq n f) m = ejBus (s) m := rfl
@[simp] theorem State.onSeq_pwmLeg (n m : Nat) (f : SeqUnit → SeqUnit) : pwmLeg (s.onSeq n f) m = pwmLeg (s) m := rfl
@[simp] theorem State.onSeq_client (n m : Nat) (f : SeqUnit → SeqUnit) : (s.onSeq n f).client m = (s).client m := rfl
@[simp] theorem State.onSeq_dmaCh (n m : Nat) (f : SeqUnit → SeqUnit) : (s.onSeq n f).dmaCh m = (s).dmaCh m := rfl
@[simp] theorem State.onSeq_segOf (n m : Nat) (f : SeqUnit → SeqUnit) : segOf (s.onSeq n f) m = segOf (s) m := rfl
@[simp] theorem State.onSeq_evtCh (n m : Nat) (f : SeqUnit → SeqUnit) : evtCh (s.onSeq n f) m = evtCh (s) m := rfl
@[simp] theorem State.onSeq_evtCell (n m : Nat) (f : SeqUnit → SeqUnit) : evtCell (s.onSeq n f) m = evtCell (s) m := rfl
@[simp] theorem State.onSeq_cvPort (n m : Nat) (f : SeqUnit → SeqUnit) : cvPort (s.onSeq n f) m = cvPort (s) m := rfl
@[simp] theorem State.onSeq_trigPin (n m : Nat) (f : SeqUnit → SeqUnit) : (s.onSeq n f).trigPin m = (s).trigPin m := rfl
@[simp] theorem State.onSeq_ergQ (n m : Nat) (f : SeqUnit → SeqUnit) : (s.onSeq n f).ergQ m = (s).ergQ m := rfl
@[simp] theorem State.onSeq_cmpU (n m : Nat) (f : SeqUnit → SeqUnit) : (s.onSeq n f).cmpU m = (s).cmpU m := rfl

@[simp] theorem State.onClient_client_same (n : Nat) (f : ClientSt → ClientSt) : (s.onClient n f).client n = f ((s).client n) := by
  simp [State.onClient, State.client]
theorem State.onClient_client_ne (n m : Nat) (f : ClientSt → ClientSt) (h : m ≠ n) : (s.onClient n f).client m = (s).client m := by
  simp [State.onClient, State.client, Tab.get_upd_ne _ _ _ h]
@[simp] theorem State.rd_onClient (n : Nat) (f : ClientSt → ClientSt) : (s.onClient n f).rd b a = s.rd b a := by cases b <;> rfl
@[simp] theorem State.onClient_enc (n m : Nat) (f : ClientSt → ClientSt) : (s.onClient n f).enc m = (s).enc m := rfl
@[simp] theorem State.onClient_ms (n m : Nat) (f : ClientSt → ClientSt) : (s.onClient n f).ms m = (s).ms m := rfl
@[simp] theorem State.onClient_gen (n m : Nat) (f : ClientSt → ClientSt) : (s.onClient n f).gen m = (s).gen m := rfl
@[simp] theorem State.onClient_portTrg (n m : Nat) (f : ClientSt → ClientSt) : (s.onClient n f).portTrg m = (s).portTrg m := rfl
@[simp] theorem State.onClient_phyPort (n m : Nat) (f : ClientSt → ClientSt) : (s.onClient n f).phyPort m = (s).phyPort m := rfl
@[simp] theorem State.onClient_lnkPort (n m : Nat) (f : ClientSt → ClientSt) : (s.onClient n f).lnkPort m = (s).lnkPort m := rfl
@[simp] theorem State.onClient_pixStream (n m : Nat) (f : ClientSt → ClientSt) : (s.onClient n f).pixStream m = (s).pixStream m := rfl
@[simp] theorem State.onClient_objStream (n m : Nat) (f : ClientSt → ClientSt) : (s.onClient n f).objStream m = (s).objStream m := rfl
@[simp] theorem State.onClient_ejBus (n m : Nat) (f : ClientSt → ClientSt) : ejBus (s.onClient n f) m = ejBus (s) m := rfl
@[simp] theorem State.onClient_pwmLeg (n m : Nat) (f : ClientSt → ClientSt) : pwmLeg (s.onClient n f) m = pwmLeg (s) m := rfl
@[simp] theorem State.onClient_seqU (n m : Nat) (f : ClientSt → ClientSt) : (s.onClient n f).seqU m = (s).seqU m := rfl
@[simp] theorem State.onClient_dmaCh (n m : Nat) (f : ClientSt → ClientSt) : (s.onClient n f).dmaCh m = (s).dmaCh m := rfl
@[simp] theorem State.onClient_segOf (n m : Nat) (f : ClientSt → ClientSt) : segOf (s.onClient n f) m = segOf (s) m := rfl
@[simp] theorem State.onClient_evtCh (n m : Nat) (f : ClientSt → ClientSt) : evtCh (s.onClient n f) m = evtCh (s) m := rfl
@[simp] theorem State.onClient_evtCell (n m : Nat) (f : ClientSt → ClientSt) : evtCell (s.onClient n f) m = evtCell (s) m := rfl
@[simp] theorem State.onClient_cvPort (n m : Nat) (f : ClientSt → ClientSt) : cvPort (s.onClient n f) m = cvPort (s) m := rfl
@[simp] theorem State.onClient_trigPin (n m : Nat) (f : ClientSt → ClientSt) : (s.onClient n f).trigPin m = (s).trigPin m := rfl
@[simp] theorem State.onClient_ergQ (n m : Nat) (f : ClientSt → ClientSt) : (s.onClient n f).ergQ m = (s).ergQ m := rfl
@[simp] theorem State.onClient_cmpU (n m : Nat) (f : ClientSt → ClientSt) : (s.onClient n f).cmpU m = (s).cmpU m := rfl

@[simp] theorem State.onDma_dmaCh_same (n : Nat) (f : DmaCh → DmaCh) : (s.onDma n f).dmaCh n = f ((s).dmaCh n) := by
  simp [State.onDma, State.dmaCh]
theorem State.onDma_dmaCh_ne (n m : Nat) (f : DmaCh → DmaCh) (h : m ≠ n) : (s.onDma n f).dmaCh m = (s).dmaCh m := by
  simp [State.onDma, State.dmaCh, Tab.get_upd_ne _ _ _ h]
@[simp] theorem State.rd_onDma (n : Nat) (f : DmaCh → DmaCh) : (s.onDma n f).rd b a = s.rd b a := by cases b <;> rfl
@[simp] theorem State.onDma_enc (n m : Nat) (f : DmaCh → DmaCh) : (s.onDma n f).enc m = (s).enc m := rfl
@[simp] theorem State.onDma_ms (n m : Nat) (f : DmaCh → DmaCh) : (s.onDma n f).ms m = (s).ms m := rfl
@[simp] theorem State.onDma_gen (n m : Nat) (f : DmaCh → DmaCh) : (s.onDma n f).gen m = (s).gen m := rfl
@[simp] theorem State.onDma_portTrg (n m : Nat) (f : DmaCh → DmaCh) : (s.onDma n f).portTrg m = (s).portTrg m := rfl
@[simp] theorem State.onDma_phyPort (n m : Nat) (f : DmaCh → DmaCh) : (s.onDma n f).phyPort m = (s).phyPort m := rfl
@[simp] theorem State.onDma_lnkPort (n m : Nat) (f : DmaCh → DmaCh) : (s.onDma n f).lnkPort m = (s).lnkPort m := rfl
@[simp] theorem State.onDma_pixStream (n m : Nat) (f : DmaCh → DmaCh) : (s.onDma n f).pixStream m = (s).pixStream m := rfl
@[simp] theorem State.onDma_objStream (n m : Nat) (f : DmaCh → DmaCh) : (s.onDma n f).objStream m = (s).objStream m := rfl
@[simp] theorem State.onDma_ejBus (n m : Nat) (f : DmaCh → DmaCh) : ejBus (s.onDma n f) m = ejBus (s) m := rfl
@[simp] theorem State.onDma_pwmLeg (n m : Nat) (f : DmaCh → DmaCh) : pwmLeg (s.onDma n f) m = pwmLeg (s) m := rfl
@[simp] theorem State.onDma_seqU (n m : Nat) (f : DmaCh → DmaCh) : (s.onDma n f).seqU m = (s).seqU m := rfl
@[simp] theorem State.onDma_client (n m : Nat) (f : DmaCh → DmaCh) : (s.onDma n f).client m = (s).client m := rfl
@[simp] theorem State.onDma_segOf (n m : Nat) (f : DmaCh → DmaCh) : segOf (s.onDma n f) m = segOf (s) m := rfl
@[simp] theorem State.onDma_evtCh (n m : Nat) (f : DmaCh → DmaCh) : evtCh (s.onDma n f) m = evtCh (s) m := rfl
@[simp] theorem State.onDma_evtCell (n m : Nat) (f : DmaCh → DmaCh) : evtCell (s.onDma n f) m = evtCell (s) m := rfl
@[simp] theorem State.onDma_cvPort (n m : Nat) (f : DmaCh → DmaCh) : cvPort (s.onDma n f) m = cvPort (s) m := rfl
@[simp] theorem State.onDma_trigPin (n m : Nat) (f : DmaCh → DmaCh) : (s.onDma n f).trigPin m = (s).trigPin m := rfl
@[simp] theorem State.onDma_ergQ (n m : Nat) (f : DmaCh → DmaCh) : (s.onDma n f).ergQ m = (s).ergQ m := rfl
@[simp] theorem State.onDma_cmpU (n m : Nat) (f : DmaCh → DmaCh) : (s.onDma n f).cmpU m = (s).cmpU m := rfl

@[simp] theorem State.setSeg_segOf_same (n : Nat) (x : Seg) : segOf (s.setSeg n x) n = x := by
  simp [State.setSeg, segOf]
theorem State.setSeg_segOf_ne (n m : Nat) (x : Seg) (h : m ≠ n) : segOf (s.setSeg n x) m = segOf (s) m := by
  simp [State.setSeg, segOf, Tab.get_set_ne _ _ _ h]
@[simp] theorem State.rd_setSeg (n : Nat) (x : Seg) : (s.setSeg n x).rd b a = s.rd b a := by cases b <;> rfl
@[simp] theorem State.setSeg_enc (n m : Nat) (x : Seg) : (s.setSeg n x).enc m = (s).enc m := rfl
@[simp] theorem State.setSeg_ms (n m : Nat) (x : Seg) : (s.setSeg n x).ms m = (s).ms m := rfl
@[simp] theorem State.setSeg_gen (n m : Nat) (x : Seg) : (s.setSeg n x).gen m = (s).gen m := rfl
@[simp] theorem State.setSeg_portTrg (n m : Nat) (x : Seg) : (s.setSeg n x).portTrg m = (s).portTrg m := rfl
@[simp] theorem State.setSeg_phyPort (n m : Nat) (x : Seg) : (s.setSeg n x).phyPort m = (s).phyPort m := rfl
@[simp] theorem State.setSeg_lnkPort (n m : Nat) (x : Seg) : (s.setSeg n x).lnkPort m = (s).lnkPort m := rfl
@[simp] theorem State.setSeg_pixStream (n m : Nat) (x : Seg) : (s.setSeg n x).pixStream m = (s).pixStream m := rfl
@[simp] theorem State.setSeg_objStream (n m : Nat) (x : Seg) : (s.setSeg n x).objStream m = (s).objStream m := rfl
@[simp] theorem State.setSeg_ejBus (n m : Nat) (x : Seg) : ejBus (s.setSeg n x) m = ejBus (s) m := rfl
@[simp] theorem State.setSeg_pwmLeg (n m : Nat) (x : Seg) : pwmLeg (s.setSeg n x) m = pwmLeg (s) m := rfl
@[simp] theorem State.setSeg_seqU (n m : Nat) (x : Seg) : (s.setSeg n x).seqU m = (s).seqU m := rfl
@[simp] theorem State.setSeg_client (n m : Nat) (x : Seg) : (s.setSeg n x).client m = (s).client m := rfl
@[simp] theorem State.setSeg_dmaCh (n m : Nat) (x : Seg) : (s.setSeg n x).dmaCh m = (s).dmaCh m := rfl
@[simp] theorem State.setSeg_evtCh (n m : Nat) (x : Seg) : evtCh (s.setSeg n x) m = evtCh (s) m := rfl
@[simp] theorem State.setSeg_evtCell (n m : Nat) (x : Seg) : evtCell (s.setSeg n x) m = evtCell (s) m := rfl
@[simp] theorem State.setSeg_cvPort (n m : Nat) (x : Seg) : cvPort (s.setSeg n x) m = cvPort (s) m := rfl
@[simp] theorem State.setSeg_trigPin (n m : Nat) (x : Seg) : (s.setSeg n x).trigPin m = (s).trigPin m := rfl
@[simp] theorem State.setSeg_ergQ (n m : Nat) (x : Seg) : (s.setSeg n x).ergQ m = (s).ergQ m := rfl
@[simp] theorem State.setSeg_cmpU (n m : Nat) (x : Seg) : (s.setSeg n x).cmpU m = (s).cmpU m := rfl

@[simp] theorem State.onCh_evtCh_same (n : Nat) (f : ChSt → ChSt) : evtCh (s.onCh n f) n = f (evtCh s n) := by
  simp [State.onCh, evtCh]
theorem State.onCh_evtCh_ne (n m : Nat) (f : ChSt → ChSt) (h : m ≠ n) : evtCh (s.onCh n f) m = evtCh (s) m := by
  simp [State.onCh, evtCh, Tab.get_upd_ne _ _ _ h]
@[simp] theorem State.rd_onCh (n : Nat) (f : ChSt → ChSt) : (s.onCh n f).rd b a = s.rd b a := by cases b <;> rfl
@[simp] theorem State.onCh_enc (n m : Nat) (f : ChSt → ChSt) : (s.onCh n f).enc m = (s).enc m := rfl
@[simp] theorem State.onCh_ms (n m : Nat) (f : ChSt → ChSt) : (s.onCh n f).ms m = (s).ms m := rfl
@[simp] theorem State.onCh_gen (n m : Nat) (f : ChSt → ChSt) : (s.onCh n f).gen m = (s).gen m := rfl
@[simp] theorem State.onCh_portTrg (n m : Nat) (f : ChSt → ChSt) : (s.onCh n f).portTrg m = (s).portTrg m := rfl
@[simp] theorem State.onCh_phyPort (n m : Nat) (f : ChSt → ChSt) : (s.onCh n f).phyPort m = (s).phyPort m := rfl
@[simp] theorem State.onCh_lnkPort (n m : Nat) (f : ChSt → ChSt) : (s.onCh n f).lnkPort m = (s).lnkPort m := rfl
@[simp] theorem State.onCh_pixStream (n m : Nat) (f : ChSt → ChSt) : (s.onCh n f).pixStream m = (s).pixStream m := rfl
@[simp] theorem State.onCh_objStream (n m : Nat) (f : ChSt → ChSt) : (s.onCh n f).objStream m = (s).objStream m := rfl
@[simp] theorem State.onCh_ejBus (n m : Nat) (f : ChSt → ChSt) : ejBus (s.onCh n f) m = ejBus (s) m := rfl
@[simp] theorem State.onCh_pwmLeg (n m : Nat) (f : ChSt → ChSt) : pwmLeg (s.onCh n f) m = pwmLeg (s) m := rfl
@[simp] theorem State.onCh_seqU (n m : Nat) (f : ChSt → ChSt) : (s.onCh n f).seqU m = (s).seqU m := rfl
@[simp] theorem State.onCh_client (n m : Nat) (f : ChSt → ChSt) : (s.onCh n f).client m = (s).client m := rfl
@[simp] theorem State.onCh_dmaCh (n m : Nat) (f : ChSt → ChSt) : (s.onCh n f).dmaCh m = (s).dmaCh m := rfl
@[simp] theorem State.onCh_segOf (n m : Nat) (f : ChSt → ChSt) : segOf (s.onCh n f) m = segOf (s) m := rfl
@[simp] theorem State.onCh_evtCell (n m : Nat) (f : ChSt → ChSt) : evtCell (s.onCh n f) m = evtCell (s) m := rfl
@[simp] theorem State.onCh_cvPort (n m : Nat) (f : ChSt → ChSt) : cvPort (s.onCh n f) m = cvPort (s) m := rfl
@[simp] theorem State.onCh_trigPin (n m : Nat) (f : ChSt → ChSt) : (s.onCh n f).trigPin m = (s).trigPin m := rfl
@[simp] theorem State.onCh_ergQ (n m : Nat) (f : ChSt → ChSt) : (s.onCh n f).ergQ m = (s).ergQ m := rfl
@[simp] theorem State.onCh_cmpU (n m : Nat) (f : ChSt → ChSt) : (s.onCh n f).cmpU m = (s).cmpU m := rfl

@[simp] theorem State.onCell_evtCell_same (n : Nat) (f : CellSt → CellSt) : evtCell (s.onCell n f) n = f (evtCell s n) := by
  simp [State.onCell, evtCell]
theorem State.onCell_evtCell_ne (n m : Nat) (f : CellSt → CellSt) (h : m ≠ n) : evtCell (s.onCell n f) m = evtCell (s) m := by
  simp [State.onCell, evtCell, Tab.get_upd_ne _ _ _ h]
@[simp] theorem State.rd_onCell (n : Nat) (f : CellSt → CellSt) : (s.onCell n f).rd b a = s.rd b a := by cases b <;> rfl
@[simp] theorem State.onCell_enc (n m : Nat) (f : CellSt → CellSt) : (s.onCell n f).enc m = (s).enc m := rfl
@[simp] theorem State.onCell_ms (n m : Nat) (f : CellSt → CellSt) : (s.onCell n f).ms m = (s).ms m := rfl
@[simp] theorem State.onCell_gen (n m : Nat) (f : CellSt → CellSt) : (s.onCell n f).gen m = (s).gen m := rfl
@[simp] theorem State.onCell_portTrg (n m : Nat) (f : CellSt → CellSt) : (s.onCell n f).portTrg m = (s).portTrg m := rfl
@[simp] theorem State.onCell_phyPort (n m : Nat) (f : CellSt → CellSt) : (s.onCell n f).phyPort m = (s).phyPort m := rfl
@[simp] theorem State.onCell_lnkPort (n m : Nat) (f : CellSt → CellSt) : (s.onCell n f).lnkPort m = (s).lnkPort m := rfl
@[simp] theorem State.onCell_pixStream (n m : Nat) (f : CellSt → CellSt) : (s.onCell n f).pixStream m = (s).pixStream m := rfl
@[simp] theorem State.onCell_objStream (n m : Nat) (f : CellSt → CellSt) : (s.onCell n f).objStream m = (s).objStream m := rfl
@[simp] theorem State.onCell_ejBus (n m : Nat) (f : CellSt → CellSt) : ejBus (s.onCell n f) m = ejBus (s) m := rfl
@[simp] theorem State.onCell_pwmLeg (n m : Nat) (f : CellSt → CellSt) : pwmLeg (s.onCell n f) m = pwmLeg (s) m := rfl
@[simp] theorem State.onCell_seqU (n m : Nat) (f : CellSt → CellSt) : (s.onCell n f).seqU m = (s).seqU m := rfl
@[simp] theorem State.onCell_client (n m : Nat) (f : CellSt → CellSt) : (s.onCell n f).client m = (s).client m := rfl
@[simp] theorem State.onCell_dmaCh (n m : Nat) (f : CellSt → CellSt) : (s.onCell n f).dmaCh m = (s).dmaCh m := rfl
@[simp] theorem State.onCell_segOf (n m : Nat) (f : CellSt → CellSt) : segOf (s.onCell n f) m = segOf (s) m := rfl
@[simp] theorem State.onCell_evtCh (n m : Nat) (f : CellSt → CellSt) : evtCh (s.onCell n f) m = evtCh (s) m := rfl
@[simp] theorem State.onCell_cvPort (n m : Nat) (f : CellSt → CellSt) : cvPort (s.onCell n f) m = cvPort (s) m := rfl
@[simp] theorem State.onCell_trigPin (n m : Nat) (f : CellSt → CellSt) : (s.onCell n f).trigPin m = (s).trigPin m := rfl
@[simp] theorem State.onCell_ergQ (n m : Nat) (f : CellSt → CellSt) : (s.onCell n f).ergQ m = (s).ergQ m := rfl
@[simp] theorem State.onCell_cmpU (n m : Nat) (f : CellSt → CellSt) : (s.onCell n f).cmpU m = (s).cmpU m := rfl

@[simp] theorem State.onCv_cvPort_same (n : Nat) (f : CvPort → CvPort) : cvPort (s.onCv n f) n = f (cvPort s n) := by
  simp [State.onCv, cvPort]
theorem State.onCv_cvPort_ne (n m : Nat) (f : CvPort → CvPort) (h : m ≠ n) : cvPort (s.onCv n f) m = cvPort (s) m := by
  simp [State.onCv, cvPort, Tab.get_upd_ne _ _ _ h]
@[simp] theorem State.rd_onCv (n : Nat) (f : CvPort → CvPort) : (s.onCv n f).rd b a = s.rd b a := by cases b <;> rfl
@[simp] theorem State.onCv_enc (n m : Nat) (f : CvPort → CvPort) : (s.onCv n f).enc m = (s).enc m := rfl
@[simp] theorem State.onCv_ms (n m : Nat) (f : CvPort → CvPort) : (s.onCv n f).ms m = (s).ms m := rfl
@[simp] theorem State.onCv_gen (n m : Nat) (f : CvPort → CvPort) : (s.onCv n f).gen m = (s).gen m := rfl
@[simp] theorem State.onCv_portTrg (n m : Nat) (f : CvPort → CvPort) : (s.onCv n f).portTrg m = (s).portTrg m := rfl
@[simp] theorem State.onCv_phyPort (n m : Nat) (f : CvPort → CvPort) : (s.onCv n f).phyPort m = (s).phyPort m := rfl
@[simp] theorem State.onCv_lnkPort (n m : Nat) (f : CvPort → CvPort) : (s.onCv n f).lnkPort m = (s).lnkPort m := rfl
@[simp] theorem State.onCv_pixStream (n m : Nat) (f : CvPort → CvPort) : (s.onCv n f).pixStream m = (s).pixStream m := rfl
@[simp] theorem State.onCv_objStream (n m : Nat) (f : CvPort → CvPort) : (s.onCv n f).objStream m = (s).objStream m := rfl
@[simp] theorem State.onCv_ejBus (n m : Nat) (f : CvPort → CvPort) : ejBus (s.onCv n f) m = ejBus (s) m := rfl
@[simp] theorem State.onCv_pwmLeg (n m : Nat) (f : CvPort → CvPort) : pwmLeg (s.onCv n f) m = pwmLeg (s) m := rfl
@[simp] theorem State.onCv_seqU (n m : Nat) (f : CvPort → CvPort) : (s.onCv n f).seqU m = (s).seqU m := rfl
@[simp] theorem State.onCv_client (n m : Nat) (f : CvPort → CvPort) : (s.onCv n f).client m = (s).client m := rfl
@[simp] theorem State.onCv_dmaCh (n m : Nat) (f : CvPort → CvPort) : (s.onCv n f).dmaCh m = (s).dmaCh m := rfl
@[simp] theorem State.onCv_segOf (n m : Nat) (f : CvPort → CvPort) : segOf (s.onCv n f) m = segOf (s) m := rfl
@[simp] theorem State.onCv_evtCh (n m : Nat) (f : CvPort → CvPort) : evtCh (s.onCv n f) m = evtCh (s) m := rfl
@[simp] theorem State.onCv_evtCell (n m : Nat) (f : CvPort → CvPort) : evtCell (s.onCv n f) m = evtCell (s) m := rfl
@[simp] theorem State.onCv_trigPin (n m : Nat) (f : CvPort → CvPort) : (s.onCv n f).trigPin m = (s).trigPin m := rfl
@[simp] theorem State.onCv_ergQ (n m : Nat) (f : CvPort → CvPort) : (s.onCv n f).ergQ m = (s).ergQ m := rfl
@[simp] theorem State.onCv_cmpU (n m : Nat) (f : CvPort → CvPort) : (s.onCv n f).cmpU m = (s).cmpU m := rfl

@[simp] theorem State.setRegs_enc (m : Nat) (r : RegFile) : (s.setRegs b r).enc m = (s).enc m := by
  cases b <;> rfl
@[simp] theorem State.wr_enc (m : Nat) (v : Word) : (s.wr b a v).enc m = (s).enc m := by
  cases b <;> rfl
@[simp] theorem State.put_enc (m : Nat) (hi lo x : Nat) : (s.put b a hi lo x).enc m = (s).enc m := by
  cases b <;> rfl
@[simp] theorem State.setb_enc (m : Nat) (i : Nat) (x : Bool) : (s.setb b a i x).enc m = (s).enc m := by
  cases b <;> rfl
@[simp] theorem State.count_enc (m : Nat)  : (s.count b a).enc m = (s).enc m := by
  cases b <;> rfl
@[simp] theorem State.countBy_enc (m : Nat) (n : Nat) : (s.countBy b a n).enc m = (s).enc m := by
  cases b <;> rfl
@[simp] theorem State.store_enc (m : Nat) (v : Word) : (s.store b a v).enc m = (s).enc m := by
  unfold State.store
  split
  · exact State.setRegs_enc s b m _
  · exact (State.countBy_enc _ b a m _).trans (State.setRegs_enc s b m _)

@[simp] theorem State.setRegs_ms (m : Nat) (r : RegFile) : (s.setRegs b r).ms m = (s).ms m := by
  cases b <;> rfl
@[simp] theorem State.wr_ms (m : Nat) (v : Word) : (s.wr b a v).ms m = (s).ms m := by
  cases b <;> rfl
@[simp] theorem State.put_ms (m : Nat) (hi lo x : Nat) : (s.put b a hi lo x).ms m = (s).ms m := by
  cases b <;> rfl
@[simp] theorem State.setb_ms (m : Nat) (i : Nat) (x : Bool) : (s.setb b a i x).ms m = (s).ms m := by
  cases b <;> rfl
@[simp] theorem State.count_ms (m : Nat)  : (s.count b a).ms m = (s).ms m := by
  cases b <;> rfl
@[simp] theorem State.countBy_ms (m : Nat) (n : Nat) : (s.countBy b a n).ms m = (s).ms m := by
  cases b <;> rfl
@[simp] theorem State.store_ms (m : Nat) (v : Word) : (s.store b a v).ms m = (s).ms m := by
  unfold State.store
  split
  · exact State.setRegs_ms s b m _
  · exact (State.countBy_ms _ b a m _).trans (State.setRegs_ms s b m _)

@[simp] theorem State.setRegs_gen (m : Nat) (r : RegFile) : (s.setRegs b r).gen m = (s).gen m := by
  cases b <;> rfl
@[simp] theorem State.wr_gen (m : Nat) (v : Word) : (s.wr b a v).gen m = (s).gen m := by
  cases b <;> rfl
@[simp] theorem State.put_gen (m : Nat) (hi lo x : Nat) : (s.put b a hi lo x).gen m = (s).gen m := by
  cases b <;> rfl
@[simp] theorem State.setb_gen (m : Nat) (i : Nat) (x : Bool) : (s.setb b a i x).gen m = (s).gen m := by
  cases b <;> rfl
@[simp] theorem State.count_gen (m : Nat)  : (s.count b a).gen m = (s).gen m := by
  cases b <;> rfl
@[simp] theorem State.countBy_gen (m : Nat) (n : Nat) : (s.countBy b a n).gen m = (s).gen m := by
  cases b <;> rfl
@[simp] theorem State.store_gen (m : Nat) (v : Word) : (s.store b a v).gen m = (s).gen m := by
  unfold State.store
  split
  · exact State.setRegs_gen s b m _
  · exact (State.countBy_gen _ b a m _).trans (State.setRegs_gen s b m _)

@[simp] theorem State.setRegs_portTrg (m : Nat) (r : RegFile) : (s.setRegs b r).portTrg m = (s).portTrg m := by
  cases b <;> rfl
@[simp] theorem State.wr_portTrg (m : Nat) (v : Word) : (s.wr b a v).portTrg m = (s).portTrg m := by
  cases b <;> rfl
@[simp] theorem State.put_portTrg (m : Nat) (hi lo x : Nat) : (s.put b a hi lo x).portTrg m = (s).portTrg m := by
  cases b <;> rfl
@[simp] theorem State.setb_portTrg (m : Nat) (i : Nat) (x : Bool) : (s.setb b a i x).portTrg m = (s).portTrg m := by
  cases b <;> rfl
@[simp] theorem State.count_portTrg (m : Nat)  : (s.count b a).portTrg m = (s).portTrg m := by
  cases b <;> rfl
@[simp] theorem State.countBy_portTrg (m : Nat) (n : Nat) : (s.countBy b a n).portTrg m = (s).portTrg m := by
  cases b <;> rfl
@[simp] theorem State.store_portTrg (m : Nat) (v : Word) : (s.store b a v).portTrg m = (s).portTrg m := by
  unfold State.store
  split
  · exact State.setRegs_portTrg s b m _
  · exact (State.countBy_portTrg _ b a m _).trans (State.setRegs_portTrg s b m _)

@[simp] theorem State.setRegs_phyPort (m : Nat) (r : RegFile) : (s.setRegs b r).phyPort m = (s).phyPort m := by
  cases b <;> rfl
@[simp] theorem State.wr_phyPort (m : Nat) (v : Word) : (s.wr b a v).phyPort m = (s).phyPort m := by
  cases b <;> rfl
@[simp] theorem State.put_phyPort (m : Nat) (hi lo x : Nat) : (s.put b a hi lo x).phyPort m = (s).phyPort m := by
  cases b <;> rfl
@[simp] theorem State.setb_phyPort (m : Nat) (i : Nat) (x : Bool) : (s.setb b a i x).phyPort m = (s).phyPort m := by
  cases b <;> rfl
@[simp] theorem State.count_phyPort (m : Nat)  : (s.count b a).phyPort m = (s).phyPort m := by
  cases b <;> rfl
@[simp] theorem State.countBy_phyPort (m : Nat) (n : Nat) : (s.countBy b a n).phyPort m = (s).phyPort m := by
  cases b <;> rfl
@[simp] theorem State.store_phyPort (m : Nat) (v : Word) : (s.store b a v).phyPort m = (s).phyPort m := by
  unfold State.store
  split
  · exact State.setRegs_phyPort s b m _
  · exact (State.countBy_phyPort _ b a m _).trans (State.setRegs_phyPort s b m _)

@[simp] theorem State.setRegs_lnkPort (m : Nat) (r : RegFile) : (s.setRegs b r).lnkPort m = (s).lnkPort m := by
  cases b <;> rfl
@[simp] theorem State.wr_lnkPort (m : Nat) (v : Word) : (s.wr b a v).lnkPort m = (s).lnkPort m := by
  cases b <;> rfl
@[simp] theorem State.put_lnkPort (m : Nat) (hi lo x : Nat) : (s.put b a hi lo x).lnkPort m = (s).lnkPort m := by
  cases b <;> rfl
@[simp] theorem State.setb_lnkPort (m : Nat) (i : Nat) (x : Bool) : (s.setb b a i x).lnkPort m = (s).lnkPort m := by
  cases b <;> rfl
@[simp] theorem State.count_lnkPort (m : Nat)  : (s.count b a).lnkPort m = (s).lnkPort m := by
  cases b <;> rfl
@[simp] theorem State.countBy_lnkPort (m : Nat) (n : Nat) : (s.countBy b a n).lnkPort m = (s).lnkPort m := by
  cases b <;> rfl
@[simp] theorem State.store_lnkPort (m : Nat) (v : Word) : (s.store b a v).lnkPort m = (s).lnkPort m := by
  unfold State.store
  split
  · exact State.setRegs_lnkPort s b m _
  · exact (State.countBy_lnkPort _ b a m _).trans (State.setRegs_lnkPort s b m _)

@[simp] theorem State.setRegs_pixStream (m : Nat) (r : RegFile) : (s.setRegs b r).pixStream m = (s).pixStream m := by
  cases b <;> rfl
@[simp] theorem State.wr_pixStream (m : Nat) (v : Word) : (s.wr b a v).pixStream m = (s).pixStream m := by
  cases b <;> rfl
@[simp] theorem State.put_pixStream (m : Nat) (hi lo x : Nat) : (s.put b a hi lo x).pixStream m = (s).pixStream m := by
  cases b <;> rfl
@[simp] theorem State.setb_pixStream (m : Nat) (i : Nat) (x : Bool) : (s.setb b a i x).pixStream m = (s).pixStream m := by
  cases b <;> rfl
@[simp] theorem State.count_pixStream (m : Nat)  : (s.count b a).pixStream m = (s).pixStream m := by
  cases b <;> rfl
@[simp] theorem State.countBy_pixStream (m : Nat) (n : Nat) : (s.countBy b a n).pixStream m = (s).pixStream m := by
  cases b <;> rfl
@[simp] theorem State.store_pixStream (m : Nat) (v : Word) : (s.store b a v).pixStream m = (s).pixStream m := by
  unfold State.store
  split
  · exact State.setRegs_pixStream s b m _
  · exact (State.countBy_pixStream _ b a m _).trans (State.setRegs_pixStream s b m _)

@[simp] theorem State.setRegs_objStream (m : Nat) (r : RegFile) : (s.setRegs b r).objStream m = (s).objStream m := by
  cases b <;> rfl
@[simp] theorem State.wr_objStream (m : Nat) (v : Word) : (s.wr b a v).objStream m = (s).objStream m := by
  cases b <;> rfl
@[simp] theorem State.put_objStream (m : Nat) (hi lo x : Nat) : (s.put b a hi lo x).objStream m = (s).objStream m := by
  cases b <;> rfl
@[simp] theorem State.setb_objStream (m : Nat) (i : Nat) (x : Bool) : (s.setb b a i x).objStream m = (s).objStream m := by
  cases b <;> rfl
@[simp] theorem State.count_objStream (m : Nat)  : (s.count b a).objStream m = (s).objStream m := by
  cases b <;> rfl
@[simp] theorem State.countBy_objStream (m : Nat) (n : Nat) : (s.countBy b a n).objStream m = (s).objStream m := by
  cases b <;> rfl
@[simp] theorem State.store_objStream (m : Nat) (v : Word) : (s.store b a v).objStream m = (s).objStream m := by
  unfold State.store
  split
  · exact State.setRegs_objStream s b m _
  · exact (State.countBy_objStream _ b a m _).trans (State.setRegs_objStream s b m _)

@[simp] theorem State.setRegs_ejBus (m : Nat) (r : RegFile) : ejBus (s.setRegs b r) m = ejBus (s) m := by
  cases b <;> rfl
@[simp] theorem State.wr_ejBus (m : Nat) (v : Word) : ejBus (s.wr b a v) m = ejBus (s) m := by
  cases b <;> rfl
@[simp] theorem State.put_ejBus (m : Nat) (hi lo x : Nat) : ejBus (s.put b a hi lo x) m = ejBus (s) m := by
  cases b <;> rfl
@[simp] theorem State.setb_ejBus (m : Nat) (i : Nat) (x : Bool) : ejBus (s.setb b a i x) m = ejBus (s) m := by
  cases b <;> rfl
@[simp] theorem State.count_ejBus (m : Nat)  : ejBus (s.count b a) m = ejBus (s) m := by
  cases b <;> rfl
@[simp] theorem State.countBy_ejBus (m : Nat) (n : Nat) : ejBus (s.countBy b a n) m = ejBus (s) m := by
  cases b <;> rfl
@[simp] theorem State.store_ejBus (m : Nat) (v : Word) : ejBus (s.store b a v) m = ejBus (s) m := by
  unfold State.store
  split
  · exact State.setRegs_ejBus s b m _
  · exact (State.countBy_ejBus _ b a m _).trans (State.setRegs_ejBus s b m _)

@[simp] theorem State.setRegs_pwmLeg (m : Nat) (r : RegFile) : pwmLeg (s.setRegs b r) m = pwmLeg (s) m := by
  cases b <;> rfl
@[simp] theorem State.wr_pwmLeg (m : Nat) (v : Word) : pwmLeg (s.wr b a v) m = pwmLeg (s) m := by
  cases b <;> rfl
@[simp] theorem State.put_pwmLeg (m : Nat) (hi lo x : Nat) : pwmLeg (s.put b a hi lo x) m = pwmLeg (s) m := by
  cases b <;> rfl
@[simp] theorem State.setb_pwmLeg (m : Nat) (i : Nat) (x : Bool) : pwmLeg (s.setb b a i x) m = pwmLeg (s) m := by
  cases b <;> rfl
@[simp] theorem State.count_pwmLeg (m : Nat)  : pwmLeg (s.count b a) m = pwmLeg (s) m := by
  cases b <;> rfl
@[simp] theorem State.countBy_pwmLeg (m : Nat) (n : Nat) : pwmLeg (s.countBy b a n) m = pwmLeg (s) m := by
  cases b <;> rfl
@[simp] theorem State.store_pwmLeg (m : Nat) (v : Word) : pwmLeg (s.store b a v) m = pwmLeg (s) m := by
  unfold State.store
  split
  · exact State.setRegs_pwmLeg s b m _
  · exact (State.countBy_pwmLeg _ b a m _).trans (State.setRegs_pwmLeg s b m _)

@[simp] theorem State.setRegs_seqU (m : Nat) (r : RegFile) : (s.setRegs b r).seqU m = (s).seqU m := by
  cases b <;> rfl
@[simp] theorem State.wr_seqU (m : Nat) (v : Word) : (s.wr b a v).seqU m = (s).seqU m := by
  cases b <;> rfl
@[simp] theorem State.put_seqU (m : Nat) (hi lo x : Nat) : (s.put b a hi lo x).seqU m = (s).seqU m := by
  cases b <;> rfl
@[simp] theorem State.setb_seqU (m : Nat) (i : Nat) (x : Bool) : (s.setb b a i x).seqU m = (s).seqU m := by
  cases b <;> rfl
@[simp] theorem State.count_seqU (m : Nat)  : (s.count b a).seqU m = (s).seqU m := by
  cases b <;> rfl
@[simp] theorem State.countBy_seqU (m : Nat) (n : Nat) : (s.countBy b a n).seqU m = (s).seqU m := by
  cases b <;> rfl
@[simp] theorem State.store_seqU (m : Nat) (v : Word) : (s.store b a v).seqU m = (s).seqU m := by
  unfold State.store
  split
  · exact State.setRegs_seqU s b m _
  · exact (State.countBy_seqU _ b a m _).trans (State.setRegs_seqU s b m _)

@[simp] theorem State.setRegs_client (m : Nat) (r : RegFile) : (s.setRegs b r).client m = (s).client m := by
  cases b <;> rfl
@[simp] theorem State.wr_client (m : Nat) (v : Word) : (s.wr b a v).client m = (s).client m := by
  cases b <;> rfl
@[simp] theorem State.put_client (m : Nat) (hi lo x : Nat) : (s.put b a hi lo x).client m = (s).client m := by
  cases b <;> rfl
@[simp] theorem State.setb_client (m : Nat) (i : Nat) (x : Bool) : (s.setb b a i x).client m = (s).client m := by
  cases b <;> rfl
@[simp] theorem State.count_client (m : Nat)  : (s.count b a).client m = (s).client m := by
  cases b <;> rfl
@[simp] theorem State.countBy_client (m : Nat) (n : Nat) : (s.countBy b a n).client m = (s).client m := by
  cases b <;> rfl
@[simp] theorem State.store_client (m : Nat) (v : Word) : (s.store b a v).client m = (s).client m := by
  unfold State.store
  split
  · exact State.setRegs_client s b m _
  · exact (State.countBy_client _ b a m _).trans (State.setRegs_client s b m _)

@[simp] theorem State.setRegs_dmaCh (m : Nat) (r : RegFile) : (s.setRegs b r).dmaCh m = (s).dmaCh m := by
  cases b <;> rfl
@[simp] theorem State.wr_dmaCh (m : Nat) (v : Word) : (s.wr b a v).dmaCh m = (s).dmaCh m := by
  cases b <;> rfl
@[simp] theorem State.put_dmaCh (m : Nat) (hi lo x : Nat) : (s.put b a hi lo x).dmaCh m = (s).dmaCh m := by
  cases b <;> rfl
@[simp] theorem State.setb_dmaCh (m : Nat) (i : Nat) (x : Bool) : (s.setb b a i x).dmaCh m = (s).dmaCh m := by
  cases b <;> rfl
@[simp] theorem State.count_dmaCh (m : Nat)  : (s.count b a).dmaCh m = (s).dmaCh m := by
  cases b <;> rfl
@[simp] theorem State.countBy_dmaCh (m : Nat) (n : Nat) : (s.countBy b a n).dmaCh m = (s).dmaCh m := by
  cases b <;> rfl
@[simp] theorem State.store_dmaCh (m : Nat) (v : Word) : (s.store b a v).dmaCh m = (s).dmaCh m := by
  unfold State.store
  split
  · exact State.setRegs_dmaCh s b m _
  · exact (State.countBy_dmaCh _ b a m _).trans (State.setRegs_dmaCh s b m _)

@[simp] theorem State.setRegs_segOf (m : Nat) (r : RegFile) : segOf (s.setRegs b r) m = segOf (s) m := by
  cases b <;> rfl
@[simp] theorem State.wr_segOf (m : Nat) (v : Word) : segOf (s.wr b a v) m = segOf (s) m := by
  cases b <;> rfl
@[simp] theorem State.put_segOf (m : Nat) (hi lo x : Nat) : segOf (s.put b a hi lo x) m = segOf (s) m := by
  cases b <;> rfl
@[simp] theorem State.setb_segOf (m : Nat) (i : Nat) (x : Bool) : segOf (s.setb b a i x) m = segOf (s) m := by
  cases b <;> rfl
@[simp] theorem State.count_segOf (m : Nat)  : segOf (s.count b a) m = segOf (s) m := by
  cases b <;> rfl
@[simp] theorem State.countBy_segOf (m : Nat) (n : Nat) : segOf (s.countBy b a n) m = segOf (s) m := by
  cases b <;> rfl
@[simp] theorem State.store_segOf (m : Nat) (v : Word) : segOf (s.store b a v) m = segOf (s) m := by
  unfold State.store
  split
  · exact State.setRegs_segOf s b m _
  · exact (State.countBy_segOf _ b a m _).trans (State.setRegs_segOf s b m _)

@[simp] theorem State.setRegs_evtCh (m : Nat) (r : RegFile) : evtCh (s.setRegs b r) m = evtCh (s) m := by
  cases b <;> rfl
@[simp] theorem State.wr_evtCh (m : Nat) (v : Word) : evtCh (s.wr b a v) m = evtCh (s) m := by
  cases b <;> rfl
@[simp] theorem State.put_evtCh (m : Nat) (hi lo x : Nat) : evtCh (s.put b a hi lo x) m = evtCh (s) m := by
  cases b <;> rfl
@[simp] theorem State.setb_evtCh (m : Nat) (i : Nat) (x : Bool) : evtCh (s.setb b a i x) m = evtCh (s) m := by
  cases b <;> rfl
@[simp] theorem State.count_evtCh (m : Nat)  : evtCh (s.count b a) m = evtCh (s) m := by
  cases b <;> rfl
@[simp] theorem State.countBy_evtCh (m : Nat) (n : Nat) : evtCh (s.countBy b a n) m = evtCh (s) m := by
  cases b <;> rfl
@[simp] theorem State.store_evtCh (m : Nat) (v : Word) : evtCh (s.store b a v) m = evtCh (s) m := by
  unfold State.store
  split
  · exact State.setRegs_evtCh s b m _
  · exact (State.countBy_evtCh _ b a m _).trans (State.setRegs_evtCh s b m _)

@[simp] theorem State.setRegs_evtCell (m : Nat) (r : RegFile) : evtCell (s.setRegs b r) m = evtCell (s) m := by
  cases b <;> rfl
@[simp] theorem State.wr_evtCell (m : Nat) (v : Word) : evtCell (s.wr b a v) m = evtCell (s) m := by
  cases b <;> rfl
@[simp] theorem State.put_evtCell (m : Nat) (hi lo x : Nat) : evtCell (s.put b a hi lo x) m = evtCell (s) m := by
  cases b <;> rfl
@[simp] theorem State.setb_evtCell (m : Nat) (i : Nat) (x : Bool) : evtCell (s.setb b a i x) m = evtCell (s) m := by
  cases b <;> rfl
@[simp] theorem State.count_evtCell (m : Nat)  : evtCell (s.count b a) m = evtCell (s) m := by
  cases b <;> rfl
@[simp] theorem State.countBy_evtCell (m : Nat) (n : Nat) : evtCell (s.countBy b a n) m = evtCell (s) m := by
  cases b <;> rfl
@[simp] theorem State.store_evtCell (m : Nat) (v : Word) : evtCell (s.store b a v) m = evtCell (s) m := by
  unfold State.store
  split
  · exact State.setRegs_evtCell s b m _
  · exact (State.countBy_evtCell _ b a m _).trans (State.setRegs_evtCell s b m _)

@[simp] theorem State.setRegs_cvPort (m : Nat) (r : RegFile) : cvPort (s.setRegs b r) m = cvPort (s) m := by
  cases b <;> rfl
@[simp] theorem State.wr_cvPort (m : Nat) (v : Word) : cvPort (s.wr b a v) m = cvPort (s) m := by
  cases b <;> rfl
@[simp] theorem State.put_cvPort (m : Nat) (hi lo x : Nat) : cvPort (s.put b a hi lo x) m = cvPort (s) m := by
  cases b <;> rfl
@[simp] theorem State.setb_cvPort (m : Nat) (i : Nat) (x : Bool) : cvPort (s.setb b a i x) m = cvPort (s) m := by
  cases b <;> rfl
@[simp] theorem State.count_cvPort (m : Nat)  : cvPort (s.count b a) m = cvPort (s) m := by
  cases b <;> rfl
@[simp] theorem State.countBy_cvPort (m : Nat) (n : Nat) : cvPort (s.countBy b a n) m = cvPort (s) m := by
  cases b <;> rfl
@[simp] theorem State.store_cvPort (m : Nat) (v : Word) : cvPort (s.store b a v) m = cvPort (s) m := by
  unfold State.store
  split
  · exact State.setRegs_cvPort s b m _
  · exact (State.countBy_cvPort _ b a m _).trans (State.setRegs_cvPort s b m _)

@[simp] theorem State.setRegs_trigPin (m : Nat) (r : RegFile) : (s.setRegs b r).trigPin m = (s).trigPin m := by
  cases b <;> rfl
@[simp] theorem State.wr_trigPin (m : Nat) (v : Word) : (s.wr b a v).trigPin m = (s).trigPin m := by
  cases b <;> rfl
@[simp] theorem State.put_trigPin (m : Nat) (hi lo x : Nat) : (s.put b a hi lo x).trigPin m = (s).trigPin m := by
  cases b <;> rfl
@[simp] theorem State.setb_trigPin (m : Nat) (i : Nat) (x : Bool) : (s.setb b a i x).trigPin m = (s).trigPin m := by
  cases b <;> rfl
@[simp] theorem State.count_trigPin (m : Nat)  : (s.count b a).trigPin m = (s).trigPin m := by
  cases b <;> rfl
@[simp] theorem State.countBy_trigPin (m : Nat) (n : Nat) : (s.countBy b a n).trigPin m = (s).trigPin m := by
  cases b <;> rfl
@[simp] theorem State.store_trigPin (m : Nat) (v : Word) : (s.store b a v).trigPin m = (s).trigPin m := by
  unfold State.store
  split
  · exact State.setRegs_trigPin s b m _
  · exact (State.countBy_trigPin _ b a m _).trans (State.setRegs_trigPin s b m _)

@[simp] theorem State.setRegs_ergQ (m : Nat) (r : RegFile) : (s.setRegs b r).ergQ m = (s).ergQ m := by
  cases b <;> rfl
@[simp] theorem State.wr_ergQ (m : Nat) (v : Word) : (s.wr b a v).ergQ m = (s).ergQ m := by
  cases b <;> rfl
@[simp] theorem State.put_ergQ (m : Nat) (hi lo x : Nat) : (s.put b a hi lo x).ergQ m = (s).ergQ m := by
  cases b <;> rfl
@[simp] theorem State.setb_ergQ (m : Nat) (i : Nat) (x : Bool) : (s.setb b a i x).ergQ m = (s).ergQ m := by
  cases b <;> rfl
@[simp] theorem State.count_ergQ (m : Nat)  : (s.count b a).ergQ m = (s).ergQ m := by
  cases b <;> rfl
@[simp] theorem State.countBy_ergQ (m : Nat) (n : Nat) : (s.countBy b a n).ergQ m = (s).ergQ m := by
  cases b <;> rfl
@[simp] theorem State.store_ergQ (m : Nat) (v : Word) : (s.store b a v).ergQ m = (s).ergQ m := by
  unfold State.store
  split
  · exact State.setRegs_ergQ s b m _
  · exact (State.countBy_ergQ _ b a m _).trans (State.setRegs_ergQ s b m _)

@[simp] theorem State.setRegs_cmpU (m : Nat) (r : RegFile) : (s.setRegs b r).cmpU m = (s).cmpU m := by
  cases b <;> rfl
@[simp] theorem State.wr_cmpU (m : Nat) (v : Word) : (s.wr b a v).cmpU m = (s).cmpU m := by
  cases b <;> rfl
@[simp] theorem State.put_cmpU (m : Nat) (hi lo x : Nat) : (s.put b a hi lo x).cmpU m = (s).cmpU m := by
  cases b <;> rfl
@[simp] theorem State.setb_cmpU (m : Nat) (i : Nat) (x : Bool) : (s.setb b a i x).cmpU m = (s).cmpU m := by
  cases b <;> rfl
@[simp] theorem State.count_cmpU (m : Nat)  : (s.count b a).cmpU m = (s).cmpU m := by
  cases b <;> rfl
@[simp] theorem State.countBy_cmpU (m : Nat) (n : Nat) : (s.countBy b a n).cmpU m = (s).cmpU m := by
  cases b <;> rfl
@[simp] theorem State.store_cmpU (m : Nat) (v : Word) : (s.store b a v).cmpU m = (s).cmpU m := by
  unfold State.store
  split
  · exact State.setRegs_cmpU s b m _
  · exact (State.countBy_cmpU _ b a m _).trans (State.setRegs_cmpU s b m _)

end Sys2Proof.Machine
end

