-- ==== Sys2Proof/Laws/Kept.lean ====
section
/-! SUPPORT. Laws of the frame: what keeps everything outside some blocks, and every register of a block but some. -/
namespace Sys2Proof.Machine

theorem Kept.refl (bs : List Blk) (s : State) : Kept bs s s := by simp [Kept]

theorem Kept.trans {bs : List Blk} {s t u : State} (h : Kept bs s t) (k : Kept bs t u) : Kept bs s u := by
  unfold Kept at *
  refine ⟨fun x => (k.1 x).trans (h.1 x), fun x => (k.2.1 x).trans (h.2.1 x), ?_⟩
  replace h := h.2.2
  replace k := k.2.2
  refine ⟨fun x => (k.1 x).trans (h.1 x), fun x => (k.2.1 x).trans (h.2.1 x), fun x => (k.2.2.1 x).trans (h.2.2.1 x), ?_⟩
  replace h := h.2.2.2
  replace k := k.2.2.2
  refine ⟨fun x => (k.1 x).trans (h.1 x), fun x => (k.2.1 x).trans (h.2.1 x), fun x => (k.2.2.1 x).trans (h.2.2.1 x), ?_⟩
  replace h := h.2.2.2
  replace k := k.2.2.2
  refine ⟨fun x => (k.1 x).trans (h.1 x), fun x => (k.2.1 x).trans (h.2.1 x), fun x => (k.2.2.1 x).trans (h.2.2.1 x), ?_⟩
  replace h := h.2.2.2
  replace k := k.2.2.2
  refine ⟨fun x => (k.1 x).trans (h.1 x), fun x => (k.2.1 x).trans (h.2.1 x), fun x => (k.2.2.1 x).trans (h.2.2.1 x), ?_⟩
  replace h := h.2.2.2
  replace k := k.2.2.2
  refine ⟨fun x => (k.1 x).trans (h.1 x), fun x => (k.2.1 x).trans (h.2.1 x), fun x => (k.2.2.1 x).trans (h.2.2.1 x), ?_⟩
  exact ⟨k.2.2.2.1.trans h.2.2.2.1, k.2.2.2.2.1.trans h.2.2.2.2.1, k.2.2.2.2.2.1.trans h.2.2.2.2.2.1,
    k.2.2.2.2.2.2.1.trans h.2.2.2.2.2.2.1, k.2.2.2.2.2.2.2.trans h.2.2.2.2.2.2.2⟩

/-- More blocks may change. -/
theorem Kept.mono {bs cs : List Blk} {s t : State} (h : Kept bs s t) (hs : ∀ b ∈ bs, b ∈ cs) : Kept cs s t := by
  have n : ∀ b, b ∉ cs → b ∉ bs := fun b hb hm => hb (hs b hm)
  unfold Kept at *
  obtain ⟨h1, h2, h3, h4, h5, h6, h7, h8, h9, h10, h11, h12, h13, h14, h15, h16, h17, h18⟩ := h
  exact ⟨fun x => h1 (n _ x), fun x => h2 (n _ x), fun x => h3 (n _ x), fun x => h4 (n _ x), fun x => h5 (n _ x),
    fun x => h6 (n _ x), fun x => h7 (n _ x), fun x => h8 (n _ x), fun x => h9 (n _ x), fun x => h10 (n _ x),
    fun x => h11 (n _ x), fun x => h12 (n _ x), fun x => h13 (n _ x), fun x => h14 (n _ x), fun x => h15 (n _ x),
    fun x => h16 (n _ x), fun x => h17 (n _ x), h18⟩

/-- The registers of a named block change. -/
theorem Kept.setRegs {bs : List Blk} (s : State) (b : Blk) (r : RegFile) (hb : b ∈ bs) : Kept bs s (s.setRegs b r) := by
  cases b <;> simp_all [Kept, State.setRegs]

theorem Kept.wr {bs : List Blk} (s : State) (b : Blk) (a : Nat) (v : Word) (hb : b ∈ bs) : Kept bs s (s.wr b a v) :=
  Kept.setRegs s b _ hb

theorem Kept.put {bs : List Blk} (s : State) (b : Blk) (a hi lo x : Nat) (hb : b ∈ bs) : Kept bs s (s.put b a hi lo x) :=
  Kept.setRegs s b _ hb

theorem Kept.setb {bs : List Blk} (s : State) (b : Blk) (a i : Nat) (x : Bool) (hb : b ∈ bs) : Kept bs s (s.setb b a i x) :=
  Kept.setRegs s b _ hb

theorem Kept.countBy {bs : List Blk} (s : State) (b : Blk) (a n : Nat) (hb : b ∈ bs) : Kept bs s (s.countBy b a n) := by
  have h := Kept.setRegs s b (incBy (s.regs b) a n) hb
  simpa [Kept, State.countBy] using h

theorem Kept.count {bs : List Blk} (s : State) (b : Blk) (a : Nat) (hb : b ∈ bs) : Kept bs s (s.count b a) :=
  Kept.countBy s b a 1 hb

theorem Kept.store {bs : List Blk} (s : State) (b : Blk) (a : Nat) (v : Word) (hb : b ∈ bs) : Kept bs s (s.store b a v) := by
  unfold State.store
  split
  · exact Kept.setRegs s b _ hb
  · exact (Kept.setRegs s b _ hb).trans (Kept.countBy _ b a _ hb)

/-- A fold of changes each of which keeps the rest keeps the rest. -/
theorem Kept.each {α : Type} {bs : List Blk} (f : State → α → State) (hf : ∀ s x, Kept bs s (f s x)) (l : List α) :
    ∀ s : State, Kept bs s (s.each l f) := by
  induction l with
  | nil => intro s; exact Kept.refl bs s
  | cons x l ih => intro s; exact (hf s x).trans (ih (f s x))

/-- An event that is published changes the event block alone (R323). -/
theorem Kept.pubOn {bs : List Blk} (s : State) (o c : Nat) (v : Word) (t r : Nat) (hb : Blk.evt ∈ bs) :
    Kept bs s (s.pubOn o c v t r) := by
  simp_all [Kept, State.pubOn]

theorem Kept.publishAt {bs : List Blk} (s : State) (i : Nat) (v : Word) (t : Nat) (hb : Blk.evt ∈ bs) :
    Kept bs s (s.publishAt i v t) := by
  unfold State.publishAt
  dsimp only
  split
  · exact Kept.pubOn _ _ _ _ _ _ hb
  · exact Kept.refl bs s

theorem Kept.publish {bs : List Blk} (s : State) (i : Nat) (v : Word) (hb : Blk.evt ∈ bs) : Kept bs s (s.publish i v) :=
  Kept.publishAt s i v s.now hb

theorem RegsKept.refl (b : Blk) (as : List Nat) (s : State) : RegsKept b as s s := fun _ _ => rfl

theorem RegsKept.trans {b : Blk} {as : List Nat} {s t u : State} (h : RegsKept b as s t) (k : RegsKept b as t u) :
    RegsKept b as s u := fun a ha => (k a ha).trans (h a ha)

theorem RegsKept.wr {b : Blk} {as : List Nat} (s : State) (a : Nat) (v : Word) (ha : a ∈ as) : RegsKept b as s (s.wr b a v) :=
  fun _ h => s.rd_wr_ne b a _ v (fun e => h (e ▸ ha))

theorem RegsKept.put {b : Blk} {as : List Nat} (s : State) (a hi lo x : Nat) (ha : a ∈ as) :
    RegsKept b as s (s.put b a hi lo x) :=
  fun _ h => s.rd_put_ne b a _ hi lo x (fun e => h (e ▸ ha))

theorem RegsKept.setb {b : Blk} {as : List Nat} (s : State) (a i : Nat) (x : Bool) (ha : a ∈ as) :
    RegsKept b as s (s.setb b a i x) :=
  fun _ h => s.rd_setb_ne b a _ i x (fun e => h (e ▸ ha))

theorem RegsKept.count {b : Blk} {as : List Nat} (s : State) (a : Nat) (ha : a ∈ as) : RegsKept b as s (s.count b a) :=
  fun _ h => s.rd_count_ne b a _ (fun e => h (e ▸ ha))

theorem Kept.setEnc {bs : List Blk} (s : State) (n : Nat) (x : EncSt) (hb : Blk.mot ∈ bs) : Kept bs s (s.setEnc n x) := by
  simp_all [Kept, State.setEnc]

theorem Kept.onEnc {bs : List Blk} (s : State) (n : Nat) (f : EncSt → EncSt) (hb : Blk.mot ∈ bs) : Kept bs s (s.onEnc n f) := by
  simp_all [Kept, State.onEnc, State.setEnc]

theorem Kept.setMs {bs : List Blk} (s : State) (n : Nat) (x : MsSt) (hb : Blk.mot ∈ bs) : Kept bs s (s.setMs n x) := by
  simp_all [Kept, State.setMs]

theorem Kept.setGen {bs : List Blk} (s : State) (n : Nat) (x : GenSt) (hb : Blk.mot ∈ bs) : Kept bs s (s.setGen n x) := by
  simp_all [Kept, State.setGen]

theorem Kept.onPortTrg {bs : List Blk} (s : State) (n : Nat) (f : PortTrg → PortTrg) (hb : Blk.mot ∈ bs) : Kept bs s (s.onPortTrg n f) := by
  simp_all [Kept, State.onPortTrg]

theorem Kept.onPhy {bs : List Blk} (s : State) (n : Nat) (f : PhyPort → PhyPort) (hb : Blk.phy ∈ bs) : Kept bs s (s.onPhy n f) := by
  simp_all [Kept, State.onPhy]

theorem Kept.setLnkPort {bs : List Blk} (s : State) (n : Nat) (x : LnkPort) (hb : Blk.lnk ∈ bs) : Kept bs s (s.setLnkPort n x) := by
  simp_all [Kept, State.setLnkPort]

theorem Kept.onLnk {bs : List Blk} (s : State) (n : Nat) (f : LnkPort → LnkPort) (hb : Blk.lnk ∈ bs) : Kept bs s (s.onLnk n f) := by
  simp_all [Kept, State.onLnk, State.setLnkPort]

theorem Kept.setPix {bs : List Blk} (s : State) (n : Nat) (x : PixStream) (hb : Blk.pix ∈ bs) : Kept bs s (s.setPix n x) := by
  simp_all [Kept, State.setPix]

theorem Kept.onPix {bs : List Blk} (s : State) (n : Nat) (f : PixStream → PixStream) (hb : Blk.pix ∈ bs) : Kept bs s (s.onPix n f) := by
  simp_all [Kept, State.onPix, State.setPix]

theorem Kept.setObj {bs : List Blk} (s : State) (n : Nat) (x : ObjStream) (hb : Blk.obj ∈ bs) : Kept bs s (s.setObj n x) := by
  simp_all [Kept, State.setObj]

theorem Kept.onObj {bs : List Blk} (s : State) (n : Nat) (f : ObjStream → ObjStream) (hb : Blk.obj ∈ bs) : Kept bs s (s.onObj n f) := by
  simp_all [Kept, State.onObj, State.setObj]

theorem Kept.setEjBus {bs : List Blk} (s : State) (n : Nat) (x : EjBus) (hb : Blk.ejt ∈ bs) : Kept bs s (s.setEjBus n x) := by
  simp_all [Kept, State.setEjBus]

theorem Kept.onPwm {bs : List Blk} (s : State) (n : Nat) (f : LegSt → LegSt) (hb : Blk.pwm ∈ bs) : Kept bs s (s.onPwm n f) := by
  simp_all [Kept, State.onPwm]

theorem Kept.setSeqU {bs : List Blk} (s : State) (n : Nat) (x : SeqUnit) (hb : Blk.seq ∈ bs) : Kept bs s (s.setSeqU n x) := by
  simp_all [Kept, State.setSeqU]

theorem Kept.onSeq {bs : List Blk} (s : State) (n : Nat) (f : SeqUnit → SeqUnit) (hb : Blk.seq ∈ bs) : Kept bs s (s.onSeq n f) := by
  simp_all [Kept, State.onSeq, State.setSeqU]

theorem Kept.onClient {bs : List Blk} (s : State) (n : Nat) (f : ClientSt → ClientSt) (hb : Blk.host ∈ bs) : Kept bs s (s.onClient n f) := by
  simp_all [Kept, State.onClient]

theorem Kept.onDma {bs : List Blk} (s : State) (n : Nat) (f : DmaCh → DmaCh) (hb : Blk.dma ∈ bs) : Kept bs s (s.onDma n f) := by
  simp_all [Kept, State.onDma]

theorem Kept.setSeg {bs : List Blk} (s : State) (n : Nat) (x : Seg) (hb : Blk.erg ∈ bs) : Kept bs s (s.setSeg n x) := by
  simp_all [Kept, State.setSeg]

theorem Kept.onCh {bs : List Blk} (s : State) (n : Nat) (f : ChSt → ChSt) (hb : Blk.evt ∈ bs) : Kept bs s (s.onCh n f) := by
  simp_all [Kept, State.onCh]

theorem Kept.onCell {bs : List Blk} (s : State) (n : Nat) (f : CellSt → CellSt) (hb : Blk.evt ∈ bs) : Kept bs s (s.onCell n f) := by
  simp_all [Kept, State.onCell]

theorem Kept.onCv {bs : List Blk} (s : State) (n : Nat) (f : CvPort → CvPort) (hb : Blk.cvn ∈ bs) : Kept bs s (s.onCv n f) := by
  simp_all [Kept, State.onCv]

end Sys2Proof.Machine
end

