-- ==== Sys2Proof/WellFormed.lean ====
section
/-! DEFINITION. Which commands are well formed: their operands name what the row is about.  Operands whose type
already bounds them need no check.  An ill-formed command changes nothing the row does not say. -/
namespace Sys2Proof

open Machine

/-- A 32-bit access lies in a window of a function (R256). -/
def inWindow (fn : Fin 64) (bar : Bar) (addr : Nat) : Bool :=
  decide (addr % 4 = 0) && (match bar with
    | .bar0 => decide (addr < if fn.val = 0 then bar0Size else 0x400000)
    | .bar2 => fn.val == 0 && decide (addr < 2 ^ 36)
    | .bar4 => decide (addr < 0x10000))

/-- The operands of a command lie where its row has a meaning. -/
def wellFormed (i : Instr) : Bool :=
  match i with
  | .coldReset => true
  | .warmReset _ _ => true
  | .functionLevelReset _ => true
  | .tbAdvance => true
  | .slewEnd => true
  | .tbRateWrite _ => true
  | .tbStepWrite _ => true
  | .ppsArm => true
  | .discWrite _ => true
  | .ppsCapture => true
  | .splitLoRead fn bar addr => inWindow fn bar addr
  | .counterWrite addr _ => addrKind addr == some .counter
  | .attemptCounterWrite addr _ => addrKind addr == some .attempts
  | .registerWrite fn bar addr _ =>
    inWindow fn bar addr && (fn.val != 0 || bar != .bar0 || addrKind addr == some .plain)
  | .badWidthAccess _ addr lanes => decide (addr < bar0Size) && lanes != 0xF#4
  | .unmappedWrite addr _ => decide (addr < bar0Size) && (addrKind addr).isNone
  | .accessErrClear _ => true
  | .offRead addr => addrStatus addr
  | .encModeWrite _ _ => true
  | .encTransition _ => true
  | .encRawEdge _ _ => true
  | .encWindowEnd _ => true
  | .encIndex _ => true
  | .encSnap _ => true
  | .encSet _ _ => true
  | .speedUpdate _ => true
  | .standstillTimeout _ => true
  | .ssiWordStart _ _ => true
  | .ssiWordEnd _ word _ _ => decide (word.length ≤ 57)
  | .msOffsetTrack _ => true
  | .msInputWrite _ _ _ => true
  | .msHoldEnd _ => true
  | .triggerDue _ => true
  | .trgCtrlWrite _ _ => true
  | .trgNextWrite _ _ => true
  | .trgPortWrite _ _ => true
  | .trigPinEdge _ _ _ => true
  | .trigPinPulseEnd _ => true
  | .stampQuery _ => true
  | .portEnWrite _ _ => true
  | .retrain _ => true
  | .bcTrainingFrame _ => true
  | .rxTrainingFrame _ _ _ _ _ _ => true
  | .sigDetected _ _ => true
  | .cdrLock _ _ => true
  | .coefTimeout _ => true
  | .tuneStepEnd _ eyes _ => decide (1 ≤ eyes.length ∧ eyes.length ≤ 2)
  | .deskewDone _ => true
  | .trainTimeout _ => true
  | .backoffEnd _ => true
  | .unplug _ _ => true
  | .adaptUpdate _ _ moves => moves.length == adaptMoves
  | .eqRegWrite _ _ _ _ => true
  | .linkRecover _ _ _ => true
  | .recoverDone _ => true
  | .dlRefclkLoss _ => true
  | .dlRefclkReturn _ => true
  | .quietAckTimeout _ => true
  | .quietExit _ _ => true
  | .quietExitDone _ => true
  | .escanStart _ _ _ => true
  | .escanAbort _ _ _ => true
  | .escanDone _ _ _ => true
  | .prbsCtrlWrite _ _ _ => true
  | .prbsLock _ _ _ => true
  | .prbsUnlock _ _ _ => true
  | .rxCodeword _ _ _ => true
  | .rxMarkerGroup _ _ _ _ _ _ => true
  | .fecCwClear _ _ => true
  | .rxBlock _ => true
  | .rxPacket _ => true
  | .rxLctl _ => true
  | .bcBlock _ => true
  | .regGo _ _ => true
  | .regTimeout _ => true
  | .pixSrcWrite _ _ => true
  | .streamLineJoin _ => true
  | .joinTimeout _ => true
  | .pipelineLine _ => true
  | .pixArm _ => true
  | .pixDisarm _ => true
  | .shadowWrite _ _ _ => true
  | .pixTblLoad _ _ => true
  | .pixTblLoadDone _ => true
  | .clsTblLoad _ _ => true
  | .clsTblLoadDone _ => true
  | .objOpenWrite _ => true
  | .viewForm _ _ => true
  | .pairWaitExpired _ => true
  | .cutoutWriteStart _ => true
  | .cutoutWriteDone _ => true
  | .cutoutLate _ => true
  | .recordRelease _ => true
  | .hostVerdict => true
  | .decisionPoint _ => true
  | .settledCopy _ => true
  | .pendingExpire _ => true
  | .ejtTblLoad _ => true
  | .ejtTblLoadDone => true
  | .ejtTblSwap _ => true
  | .ejtPendPeakWrite => true
  | .ejFrame _ => true
  | .ejSlotMiss _ => true
  | .ejReturnFrame _ _ => true
  | .ejRetLost _ => true
  | .pwmReload _ => true
  | .pwmStrobeEvent _ => true
  | .pwmCycleEnd _ => true
  | .pwmShadowWrite _ _ _ => true
  | .pwmOc _ _ _ => true
  | .pwmSc _ _ _ => true
  | .pwmClear _ => true
  | .pwmGrpClear _ => true
  | .stripSlot _ => true
  | .lineSlot _ => true
  | .eventSlot _ => true
  | .tickSlot _ => true
  | .slotBudgetExpired _ => true
  | .nop _ => true
  | .endSlot _ => true
  | .movi _ _ _ => true
  | .mov _ _ _ => true
  | .addi _ _ _ _ => true
  | .add _ _ _ _ => true
  | .sub _ _ _ _ => true
  | .adds _ _ _ _ => true
  | .and _ _ _ _ => true
  | .or _ _ _ _ => true
  | .xor _ _ _ _ => true
  | .shl _ _ _ _ => true
  | .shr _ _ _ _ => true
  | .andi _ _ _ _ => true
  | .lds _ _ _ _ _ => true
  | .stamp _ _ => true
  | .br _ _ => true
  | .bcmp _ _ _ _ _ _ _ => true
  | .bbs _ _ _ _ => true
  | .bbc _ _ _ _ => true
  | .bev _ _ _ _ => true
  | .loop _ _ _ => true
  | .waitev _ _ _ _ _ => true
  | .waitevTimeout _ _ _ _ _ => true
  | .trig _ _ _ => true
  | .arm _ _ _ => true
  | .ctx _ _ _ => true
  | .shw _ _ _ _ => true
  | .route _ _ _ _ => true
  | .dmaq _ _ _ _ _ _ _ => true
  | .pub _ _ _ => true
  | .trace _ _ _ => true
  | .seqIllegal _ => true
  | .seqEcc _ _ => true
  | .seqRestart _ _ => true
  | .seqInit _ _ => true
  | .seqPeakWrite _ _ => true
  | .imgLoad => true
  | .imgSwap => true
  | .swapTblCopyDone => true
  | .seqBankSwitch _ => true
  | .pcieReady _ => true
  | .pcieLinkDown => true
  | .pcieLinkUp _ => true
  | .pcieRefclkLoss => true
  | .pcieRefclkReturn => true
  | .bar2Write addr data => decide (addr + data.length ≤ bar2Size) && !data.isEmpty
  | .reset => true
  | .streamReset => true
  | .clientBind _ => true
  | .clientUnbind => true
  | .quotaSet => true
  | .chanBind => true
  | .funcVectors _ => true
  | .portCtrl => true
  | .power => true
  | .keyProgram => true
  | .fwLoad _ => true
  | .ergAlloc => true
  | .ergFree => true
  | .ergPin => true
  | .ergUnpin => true
  | .lookbackGet => true
  | .spanEnum => true
  | .mbxUnknownOpcode => true
  | .mbxBusyWrite => true
  | .mbxDone => true
  | .mbxTimeout => true
  | .clientCtrlWrite _ _ => true
  | .consDoorbell _ _ _ => true
  | .verdictDoorbell _ _ => true
  | .descDoorbell _ _ => true
  | .dmaPause _ => true
  | .dmaUnpause _ => true
  | .dmaResume _ => true
  | .dmaAbort _ => true
  | .dmaCmdReject _ _ => true
  | .heartbeat _ => true
  | .intTimeExpire _ => true
  | .recordDeliver _ => true
  | .gapWrite _ _ => true
  | .stagingHoldExpire _ => true
  | .dataCopyDone _ _ => true
  | .verdictFetch _ _ _ => true
  | .descFetch _ _ _ => true
  | .dmaBurst _ _ _ _ => true
  | .dmaRequestFail _ _ => true
  | .dmaComplete _ => true
  | .segmentZeroDone seg => decide (seg < ergSegs)
  | .ergScrubBlock addr _ => decide (addr < ergSize)
  | .ergWriteFail addr _ => decide (addr < ergSize)
  | .stackFail _ _ => true
  | .queueFlush q => qOk q
  | .queueHostpopWrite q _ => qOk q
  | .queuePop q _ => qOk q
  | .queuePopTimeout q => qOk q
  | .cmpSubmit _ _ => true
  | .cmpJobStart _ => true
  | .cmpJobEnd _ _ => true
  | .cmpFlush _ => true
  | .cmpAbort _ => true
  | .evtProdWrite _ _ => true
  | .evtPub _ => true
  | .evtChCtrlWrite _ _ => true
  | .evtLock _ => true
  | .evtRateWrite _ _ => true
  | .eventEnter _ => true
  | .eventDeliver _ => true
  | .evtWatchExpire _ => true
  | .cellEval _ => true
  | .cellStuck _ => true
  | .cvnCellTx _ _ => true
  | .cvnIdleSync _ => true
  | .cvnCellRx _ _ _ => true
  | .cvnLinkLost _ _ => true
  | .reroute _ => true
  | .cvRefclkLoss => true
  | .cvRefclkReturn => true
  | .enumAutoStart => true
  | .change => true
  | .probe _ => true
  | .probeTimeout => true
  | .token _ => true
  | .enumReturn _ => true
  | .progress => true
  | .enumBranchAbort => true
  | .commit _ => true
  | .enumSwitch => true
  | .routeTableExpire => true
  | .syncReqSend _ => true
  | .syncReqRx _ => true
  | .syncExchange _ => true
  | .tbHoldover => true
  | .posExport _ => true
  | .posRx _ => true
  | .posInputTimeout _ _ => true
  | .evtCellRx _ => true
  | .objCellRx _ => true
  | .handoverEnter => true
  | .rmtGo _ => true
  | .mgtRequestRx _ => true
  | .mgtResponseRx _ => true
  | .rmtTimeout => true
  | .pwrPredict _ => true
  | .pwrExitStart _ => true
  | .pwrExitDone _ => true
  | .clusterOpWrite _ _ => true
  | .clusterOpStep _ => true
  | .powerEntryDone => true
  | .standbyExit => true
  | .oasWake _ _ => true
  | .pgUp _ => true
  | .pgTimeout => true
  | .pgLost _ => true
  | .powerDownStep => true
  | .vaonPor _ => true
  | .coreResetRelease _ => true
  | .bootDone => true
  | .firmwareAuth _ _ => true
  | .i2cTargetWrite _ _ => true
  | .i2cTargetRead _ _ => true
  | .standby => true
  | .deep => true
  | .deepWithRtcKeep => true
  | .run => true
  | .i2cStandbyMatch _ => true
  | .attnRaise => true
  | .attnRetry => true
  | .mboxOutDone _ => true
  | .i2cCtlGo _ => true
  | .i2cCtlDone _ data => decide (data.length ≤ 8)
  | .i2cArbLost => true
  | .i2cSclTimeout _ => true
  | .faultReport _ _ _ _ => true
  | .fltLogConsWrite _ => true
  | .fltMirrorMove => true
  | .fltMirDoorbell _ => true
  | .fltClearFirst => true
  | .fltClearFatal => true
  | .hostKick => true
  | .hostSilent => true
  | .mgmtWdog _ => true
  | .wdogWarmReset => true
  | .refclkSysLoss => true
  | .tbPllLoss => true
  | .thermalWarn _ => true
  | .thermalTrip _ => true
  | .verdictEcc _ _ => true
  | .nocEcc _ _ => true
  | .nocPriorityOverrun _ _ => true
  | .extest _ => true
  | .samplePreload _ => true
  | .clamp => true
  | .highz => true
  | .extestPulse _ => true
  | .extestTrain _ => true
  | .idcode => true
  | .bypass _ => true
  | .tapReset => true
  | .quietExitTimeout _ => true
  | .indexInactive _ => true
  | .attnPulse _ => true

end Sys2Proof
end

