-- ==== Sys2Proof/Tests/Slice0.lean ====
section
/-! SUPPORT. Tests: an ill-formed command for every check of WellFormed, worked values the spec prints, one step of the
queue, and for every statement of Obligations.lean a state and operands that meet the hypotheses of each of its
clauses. -/
namespace Sys2Proof.Tests

open Sys2Proof Sys2Proof.Machine

set_option Elab.async false
set_option maxRecDepth 100000
set_option linter.unusedVariables false

/-! ### Ill-formed commands -/

theorem test_wf_refuses_misaligned_read : wellFormed (.splitLoRead 0 .bar0 2) = false := by decide +kernel
theorem test_wf_refuses_write_beyond_a_function : wellFormed (.registerWrite 5 .bar0 0x400000 0) = false := by
  decide +kernel
theorem test_wf_refuses_write_of_a_counter_as_plain : wellFormed (.registerWrite 0 .bar0 (DLK_FEC_UNCORR 0 0) 0) = false := by
  decide +kernel
theorem test_wf_refuses_bar2_of_a_vf : wellFormed (.splitLoRead 1 .bar2 0) = false := by decide +kernel
theorem test_wf_refuses_beyond_the_msix_table : wellFormed (.splitLoRead 1 .bar4 0x10000) = false := by decide +kernel
theorem test_wf_refuses_counter_write_elsewhere : wellFormed (.counterWrite HST_TB_CTRL 0) = false := by decide +kernel
theorem test_wf_refuses_attempts_write_elsewhere : wellFormed (.attemptCounterWrite HST_TB_CTRL 0) = false := by
  decide +kernel
theorem test_wf_refuses_bad_width_of_32_bits : wellFormed (.badWidthAccess true 0 15) = false := by decide +kernel
theorem test_wf_refuses_bad_width_beyond_bar0 : wellFormed (.badWidthAccess true bar0Size 1) = false := by decide +kernel
theorem test_wf_refuses_unmapped_write_to_a_register : wellFormed (.unmappedWrite HST_TB_CTRL 0) = false := by
  decide +kernel
theorem test_wf_refuses_off_read_of_no_status : wellFormed (.offRead HST_TB_CTRL) = false := by decide +kernel
theorem test_wf_refuses_long_serial_word : wellFormed (.ssiWordEnd 0 (List.replicate 58 true) 0 false) = false := by
  decide +kernel
theorem test_wf_refuses_a_step_without_eyes : wellFormed (.tuneStepEnd 0 [] true) = false := by decide +kernel
theorem test_wf_refuses_missing_moves : wellFormed (.adaptUpdate 0 0 []) = false := by decide +kernel
theorem test_wf_refuses_empty_bar2_write : wellFormed (.bar2Write 0 []) = false := by decide +kernel
theorem test_wf_refuses_write_beyond_bar2 : wellFormed (.bar2Write (2 ^ 36) [0]) = false := by decide +kernel
theorem test_wf_refuses_segment_beyond_erg : wellFormed (.segmentZeroDone 24576) = false := by decide +kernel
theorem test_wf_refuses_block_beyond_erg : wellFormed (.ergScrubBlock ergSize 0) = false := by decide +kernel
theorem test_wf_refuses_failed_write_beyond_erg : wellFormed (.ergWriteFail ergSize .handover) = false := by
  decide +kernel
theorem test_wf_refuses_flush_of_no_queue : wellFormed (.queueFlush 2) = false := by decide +kernel
theorem test_wf_refuses_hostpop_of_no_queue : wellFormed (.queueHostpopWrite 3 0) = false := by decide +kernel
theorem test_wf_refuses_pop_of_no_queue : wellFormed (.queuePop 2 0) = false := by decide +kernel
theorem test_wf_refuses_pop_timeout_of_no_queue : wellFormed (.queuePopTimeout 2) = false := by decide +kernel
theorem test_wf_refuses_nine_bytes_read : wellFormed (.i2cCtlDone 0 (List.replicate 9 0)) = false := by decide +kernel
theorem test_wf_accepts_a_register_write : wellFormed (.registerWrite 0 .bar0 HST_TB_CTRL 0) = true := by decide +kernel

/-! ### Values the spec prints -/

/-- "123456789" in ASCII. -/
def digits : List Byte := [0x31, 0x32, 0x33, 0x34, 0x35, 0x36, 0x37, 0x38, 0x39]
/-- 04_dunelink_packets.md: the check value of CRC-32C. -/
theorem test_crc32c_check : crc32c digits = 0xE3069283 := by decide +kernel
/-- 04_dunelink_packets.md: the check value of CRC-16. -/
theorem test_crc16_check : crc16 72 0x313233343536373839 = 0x29B1 := by decide +kernel
/-- 12_caravan.md: the check value of CRC-8. -/
theorem test_crc8_check : crc8 digits = 0xF4 := by decide +kernel
/-- 10_erg_queues_compression.md: the pre-filter's example, NCOMP 2 and ROW 0. -/
theorem test_delta_example : deltaFilter 2 0 ([1000, 2000, 1003, 1998, 0, 5].flatMap (leBytes 2)) =
    [1000, 2000, 3, 0xFFFE, 0xFC15, 0xF837].flatMap (leBytes 2) := by decide +kernel

/-! ### The queue of commands -/

theorem test_step_takes_the_front :
    step (State.reset.withPending [.ppsArm, .idcode]) = exec .ppsArm (State.reset.withPending [.idcode]) := rfl
theorem test_step_idles : step State.reset = .next State.reset := rfl

/-! ### States that meet the hypotheses of the statements -/

/-- A state with some registers of a block set. -/
def regsAt (s : State) (b : Blk) (l : List (Nat × Word)) : State := l.foldl (fun s e => s.wr b e.1 e.2) s
/-- A core that runs. -/
def run : State := State.reset.put .pwr PWR_STATUS 31 28 1
def at_ (s : State) (tb : Nat) : State := { s with time := { s.time with tb := tb } }
/-- A port in a training state. -/
def prt (s : State) (p st : Nat) : State := s.put .phy (phyStatus p) 31 28 st
/-- Both lanes of a port locked without skew. -/
def lockd (s : State) (p : Nat) : State := s.onLnk p (fun x => { x with lane0 := { x.lane0 with locked := true }, lane1 := { x.lane1 with locked := true }, skew := some 0 })
namespace W001
/-- States and operands that meet the hypotheses of StepRunsTheFrontCommand, clause by clause. -/
theorem test_stepRunsTheFrontCommand :
  ∃ (s : State), s.pending = [] :=
  ⟨State.reset, by decide +kernel⟩
/-- States and operands that meet the hypotheses of EveryStepKeepsTheTimebaseSound, clause by clause. -/
theorem test_everyStepKeepsTheTimebaseSound :
  ∃ (s t : State), s.time.ok ∧ Sys2Proof.Machine.step s = .next t :=
  ⟨State.reset, State.reset, by decide +kernel, rfl⟩
/-- States and operands that meet the hypotheses of TbNeverDecreases, clause by clause. -/
theorem test_tbNeverDecreases :
  ∃ (c : Instr) (s : State), s.time.ok ∧ startsTb c = false :=
  ⟨.tbAdvance, run, by decide +kernel⟩
end W001

namespace W002
def wT (s : State) (l : List (Nat × Word)) : State := regsAt s .time l
def runUp : State := { run with pwr := { run.pwr with coreUp := true } }
/-- States and operands that meet the hypotheses of TbRunsAtItsRate, clause by clause. -/
theorem test_tbRunsAtItsRate :
  (∃ (s : State), s.pwr.coreUp = false) ∧
  (∃ (s : State), s.time.ok ∧ s.pwr.coreUp = true) ∧
  (∃ (v : Word) (s : State), s.flag .time HST_TB_CTRL 0 = false) :=
  ⟨⟨{ State.reset with pwr := { State.reset.pwr with coreUp := false } }, by decide +kernel⟩,
    ⟨runUp, by decide +kernel⟩,
    ⟨0x80000000, runUp, by decide +kernel⟩⟩
/-- States and operands that meet the hypotheses of StepsJumpOrSlew, clause by clause. -/
theorem test_stepsJumpOrSlew :
  (∃ (v : Word) (s : State), s.flag .time HST_TB_CTRL 0 = false ∧ s.flag .time HST_TB_STATUS 3 = true) ∧
  (∃ (v : Word) (s : State), s.flag .time HST_TB_CTRL 0 = false ∧ s.flag .time HST_TB_STATUS 3 = false ∧ v = 0#32) ∧
  (∃ (v : Word) (s : State), s.flag .time HST_TB_CTRL 0 = false ∧ s.flag .time HST_TB_STATUS 3 = false ∧ v ≠ 0#32 ∧ 0
    < v.toInt ∧ s.flag .time HST_TB_CTRL 1 = true ∧ s.fld .time HST_TB_STATUS 1 0 ≠ 2) ∧
  (∃ (v : Word) (s : State), s.flag .time HST_TB_CTRL 0 = false ∧ s.flag .time HST_TB_STATUS 3 = false ∧ v ≠ 0#32 ∧
    (¬ (0 < v.toInt ∧ s.flag .time HST_TB_CTRL 1 = true ∧ s.fld .time HST_TB_STATUS 1 0 ≠ 2))) ∧
  (∃ (s : State), s.pwr.coreUp = true) :=
  ⟨⟨5, wT run [(HST_TB_STATUS, 8)], by decide +kernel⟩,
    ⟨0, run, by decide +kernel⟩,
    ⟨77, wT run [(HST_TB_CTRL, 2)], by decide +kernel⟩,
    ⟨77, run, by decide +kernel⟩,
    ⟨runUp, by decide +kernel⟩⟩
/-- States and operands that meet the hypotheses of DisciplineLocksRateAndStep, clause by clause. -/
theorem test_disciplineLocksRateAndStep :
  (∃ (s : State), ∃ (v : Word), s.flag .time HST_TB_CTRL 0 = true) ∧
  (∃ (s : State), ∃ (v : Word), s.flag .time HST_TB_CTRL 0 = true) ∧
  (∃ (s : State), s.flag .time HST_TB_CTRL 0 = true ∧ s.time.ppsDue = true) ∧
  (∃ (s : State), s.flag .time HST_TB_CTRL 0 = true) :=
  ⟨⟨wT run [(HST_TB_CTRL, 1)], 5, by decide +kernel⟩,
    ⟨wT run [(HST_TB_CTRL, 1)], 5, by decide +kernel⟩,
    ⟨at_ (wT run [(HST_TB_CTRL, 5)]) 2000000077, by decide +kernel⟩,
    ⟨wT run [(HST_TB_CTRL, 5)], by decide +kernel⟩⟩
/-- States and operands that meet the hypotheses of PpsAlignsToTheSecond, clause by clause. -/
theorem test_ppsAlignsToTheSecond :
  (∃ (s : State), (s.flag .time HST_TB_CTRL 2 = false ∨ s.time.ppsLast.any (fun p => decide (s.now - p < 500000000))
    = true)) ∧
  (∃ (s : State), s.flag .time HST_TB_CTRL 2 = true ∧ s.time.ppsLast.all (fun p => decide (500000000 ≤ s.now - p)) =
    true) :=
  ⟨⟨run, by decide +kernel⟩,
    ⟨at_ (wT run [(HST_TB_CTRL, 4)]) 700000100, by decide +kernel⟩⟩
end W002

namespace W003
def wOff : State := State.reset.put .pwr PWR_STATUS 31 28 2
def hUp : State := { run with pwr := { run.pwr with fwRuns := true } }
def hDown : State := { run with pwr := { run.pwr with bootFail := true, fwRuns := false } }
/-- States and operands that meet the hypotheses of DroppedAccessesSetAccessErr, clause by clause. -/
theorem test_droppedAccessesSetAccessErr :
  (∃ (addr : Nat) (v : Word) (s : State), regAt addr = none) ∧
  (∃ (addr : Nat) (lanes : BitVec 4) (s : State), (regAt addr).isSome = true ∧ lanes ≠ 0xF#4) ∧
  (∃ (addr : Nat) (u : UnitRow) (row : RegRow) (s : State), regAt addr = some (u, row) ∧ row.isStatus = true ∧
    poweredOff s u (u.index addr) = true) ∧
  (∃ (addr : Nat) (lanes : BitVec 4) (s : State), lanes ≠ 0xF#4) ∧
  (∃ (addr : Nat) (data : List Byte) (s : State), hostDownload s = true) ∧
  (∃ (addr : Nat) (data : List Byte) (s : State), addr + data.length ≤ bar2Size ∧ data ≠ [] ∧ hostDownload s = false
    ∧ spanIn (fun g => !bar2Barred s g) addr data.length = true ∧ stackOk s (stackOf addr) = false) ∧
  (∃ (addr : Nat) (data : List Byte) (s : State), addr + data.length ≤ bar2Size ∧ data ≠ [] ∧ hostDownload s = false
    ∧ spanIn (fun g => !bar2Barred s g) addr data.length = true ∧ stackOk s (stackOf addr) = true) ∧
  (∃ (addr : Nat) (data : List Byte) (s : State), addr + data.length ≤ bar2Size ∧ data ≠ [] ∧ hostDownload s = false
    ∧ spanIn (fun g => !bar2Barred s g) addr data.length = false) :=
  ⟨⟨0xFFFFFFF0, 5, run, by decide +kernel⟩,
    ⟨HST_TB_RATE, 3, run, by decide +kernel⟩,
    ⟨phyStatus 3, ((regAt (phyStatus 3)).get (by decide)).1, ((regAt (phyStatus 3)).get (by decide)).2, wOff,
      by decide +kernel⟩,
    ⟨HST_TB_RATE, 3, run, by decide +kernel⟩,
    ⟨4096, [1], hDown, by decide +kernel⟩,
    ⟨4096, [1, 2, 3], hUp.setb .erg (ERG_STK_STATUS 0) 1 true, by decide +kernel⟩,
    ⟨4096, [1, 2, 3], hUp, by decide +kernel⟩,
    ⟨4096, [1, 2, 3], hUp.setSeg 0 { segOf run 0 with st := 2, kind := 8 }, by decide +kernel⟩⟩
end W003

namespace W004
def mbxOn (s : State) (op : Nat) (args : List Word) : State :=
  { s with host := { s.host with mbx := some { op := op, since := 0, code := none, res := [] } } }
/-- States and operands that meet the hypotheses of ResetsClearWhatTheirKindClears, clause by clause. -/
theorem test_resetsClearWhatTheirKindClears :
  (∃ (wdog ref : Bool) (s : State), s.pwr.coreUp = true ∧ (s.time.refSysOk || ref) = true) ∧
  (∃ (s : State) (r : MbxRun), s.mbxWorks 3 r ∧ dstate s = 4) ∧
  (∃ (s : State) (r : MbxRun), s.pwr.coreUp = true ∧ s.time.refSysOk = true ∧ s.mbxWorks 3 r ∧ dstate s ≠ 4) ∧
  (∃ (s : State) (t0 : Nat), s.pwr.coreUp = true ∧ s.time.refSysOk = true ∧ s.flt.wdogSafe = some t0 ∧ t0 + 1000000 ≤
    s.now) ∧
  (∃ (wdog : Bool) (s : State), s.pwr.coreUp = true ∧ s.time.refSysOk = false) ∧
  (∃ (fn : Fin 64) (s : State), fn ≠ 0) ∧
  (∃ (s : State) (r : MbxRun), s.host.mbx = some r ∧ r.op = 4 ∧ r.code = none ∧ mbxArg s 0 < 96) ∧
  (∃ (s : State) (r : MbxRun), s.host.mbx = some r ∧ r.op = 4 ∧ r.code = none ∧ 96 ≤ mbxArg s 0) :=
  ⟨⟨false, false, run, by decide +kernel⟩,
    ⟨(mbxOn run 3 []).put .pwr PWR_STATUS 31 28 4, { op := 3, since := 0, code := none, res := [] },
      by decide +kernel⟩,
    ⟨mbxOn run 3 [], { op := 3, since := 0, code := none, res := [] }, by decide +kernel⟩,
    ⟨at_ {run with flt := { run.flt with wdogSafe := some 5 }} 1000005, 5, by decide +kernel⟩,
    ⟨true, {run with time := {run.time with refSysOk := false}}, by decide +kernel⟩,
    ⟨3, run, by decide +kernel⟩,
    ⟨mbxOn run 4 [], { op := 4, since := 0, code := none, res := [] }, by decide +kernel⟩,
    ⟨(mbxOn run 4 []).wr .host (HST_MBX_ARG 0) 96, { op := 4, since := 0, code := none, res := [] },
      by decide +kernel⟩⟩
end W004

namespace W005
def wE1 : State := (run.wr .mot (ENC_CTRL 2) 0x40000000#32).onEnc 2 (fun e => { e with rawA := true })
def wE2 : State := (run.wr .mot (ENC_CTRL 2) 0x44000000#32).onEnc 2 (fun e => { e with rawZ := true })
def wE3 : State := (run.wr .mot (ENC_CTRL 2) 0x44000000#32).onEnc 2 (fun e => { e with z := true })
/-- States and operands that meet the hypotheses of EncodersCountAndLatch, clause by clause. -/
theorem test_encodersCountAndLatch :
  (∃ (n : Fin 8) (v : Word) (s : State), bits v 31 30 = 1 ∧ encMode s n ≠ 1 ∧ s.now / 1000000 ≤ (s.enc n).winId) ∧
  (∃ (n : Fin 8) (v : Word) (s : State), bits v 31 30 = 3 ∧ s.now / 1000000 ≤ (s.enc n).winId) ∧
  (∃ (n : Fin 8) (u : Nat) (a b c d : Bool) (s : State), encMode s n = 1 ∧ s.now / 1000000 ≤ (s.enc n).winId ∧
    earlier (filtered (s.enc n).a (s.enc n).rawA (s.enc n).atA (s.fld .mot (ENC_CTRL n) 11 6) s.now) (filtered (s.enc
    n).b (s.enc n).rawB (s.enc n).atB (s.fld .mot (ENC_CTRL n) 11 6) s.now) = some u ∧ a = (if filtered (s.enc n).a
    (s.enc n).rawA (s.enc n).atA (s.fld .mot (ENC_CTRL n) 11 6) s.now = some u then (s.enc n).rawA else (s.enc n).a)
    ∧ b = (if filtered (s.enc n).b (s.enc n).rawB (s.enc n).atB (s.fld .mot (ENC_CTRL n) 11 6) s.now = some u then
    (s.enc n).rawB else (s.enc n).b) ∧ c = (if s.flag .mot (ENC_CTRL n) 28 then b else a) ∧ d = (if s.flag .mot
    (ENC_CTRL n) 28 then a else b)) ∧
  (∃ (n : Fin 8) (pin : EncPin) (s : State), s.pwr.coreUp = true ∧ s.fld .pwr PWR_STATUS 31 28 ≠ 2 ∧ s.fld .pwr
    PWR_STATUS 31 28 ≠ 3 ∧ ((encMode s n = 1 → pinCount pin (s.enc n).winRaw < pinCount pin (s.enc n).winAcc + (s.rd
    .mot (ENC_NOISE_LIM n)).toNat)) ∧ s.now / 1000000 ≤ (s.enc n).winId) ∧
  (∃ (n : Fin 8) (s : State), (s.enc n).winId < s.now / 1000000) ∧
  (∃ (n : Fin 8) (s : State), s.now / 1000000 ≤ (s.enc n).winId ∧ zAccepts s n (!s.flag .mot (ENC_CTRL n) 24) = true
    ∧ s.fld .mot (ENC_CTRL n) 27 26 = 1 ∧ s.flag .mot (ENC_CTRL n) 25 = false ∧ s.flag .mot (ENC_STATUS n) 5 = false
    ∧ (s.enc n).idxNoAB = false) ∧
  (∃ (n : Fin 8) (s : State), s.now / 1000000 ≤ (s.enc n).winId ∧ zAccepts s n (s.flag .mot (ENC_CTRL n) 24) = true)
    :=
  ⟨⟨2, 0x55000041#32, run.onEnc 2 (fun e => { e with rawA := true }), by decide +kernel⟩,
    ⟨2, 0xC0000041#32, run, by decide +kernel⟩,
    ⟨2, 0, true, false, true, false, wE1, by decide +kernel⟩,
    ⟨2, .z, run, by decide +kernel⟩,
    ⟨2, at_ run 1000000, by decide +kernel⟩,
    ⟨2, wE2, by decide +kernel⟩,
    ⟨2, wE3, by decide +kernel⟩⟩
end W005

namespace W006
def wS1 : State := ((run.put .mot (ENC_STATUS 3) 1 0 2).setb .mot (ENC_STATUS 3) 3 false).onEnc 3 (fun e =>
  { e with lastLegal := some 0, run := [(500,1),(400,1),(300,1),(200,1),(100,1)] })
def wSsi : State := (run.wr .mot (ENC_CTRL 3) 0x80000000#32)
def wMs : State := regsAt run .mot [(ENC_MS_PRIM 2, 0x80000001#32), (ENC_MS_SEC 2, 0x80000002#32), (ENC_STATUS 1, 0),
  (ENC_STATUS 2, 0), (ENC_CTRL 1, 0x40000000), (ENC_CTRL 2, 0x40000000)]
/-- States and operands that meet the hypotheses of SpeedSsiAndSourcesFollow, clause by clause. -/
theorem test_speedSsiAndSourcesFollow :
  (∃ (n : Fin 8) (s : State), s.now % 1000 ≠ 0) ∧
  (∃ (n : Fin 8) (s : State), s.now % 1000 = 0) ∧
  (∃ (n : Fin 8) (s : State), standstillDue s n = true ∧ s.flag .mot (ENC_STATUS n) 3 = false) ∧
  (∃ (n : Fin 8) (high : Bool) (s : State), encMode s n = 2 ∧ (s.enc n).ssiWord = none ∧ s.rd .mot (ENC_SSI_PERIOD n)
    ≠ 0#32 ∧ s.now % (s.rd .mot (ENC_SSI_PERIOD n)).toNat = 0) ∧
  (∃ (n : Fin 8) (word : List Bool) (delay : Nat) (back high : Bool) (t0 : Nat) (s : State), encMode s n = 2 ∧ (s.enc
    n).ssiWord = some (t0, high) ∧ s.now / 1000000 ≤ (s.enc n).winId ∧ ssiWordOk s n high word delay back = false ∧
    (s.enc n).ssiBad < 2) ∧
  (∃ (n : Fin 8) (word : List Bool) (delay : Nat) (back high : Bool) (t0 : Nat) (s : State), encMode s n = 2 ∧ (s.enc
    n).ssiWord = some (t0, high) ∧ s.now / 1000000 ≤ (s.enc n).winId ∧ ssiWordOk s n high word delay back = true ∧
    (s.enc n).ssiLast = none) ∧
  (∃ (m : Fin 8) (s : State), s.now % 1000 = 0 ∧ (primView s m).valid = true ∧ (secView s m).valid = true) ∧
  (∃ (m : Fin 8) (v : Word) (s : State), (s.ms m).inUse = some false ∧ (primView s m).valid = true ∧ msChanges (s.rd
    .mot (ENC_MS_SEC m)) v = true) ∧
  (∃ (m : Fin 8) (s : State) (h : HoldSt), (s.ms m).hold = some h ∧ h.ends ≤ s.now) :=
  ⟨⟨3, at_ run 999, by decide +kernel⟩,
    ⟨3, at_ wS1 1000, by decide +kernel⟩,
    ⟨3, at_ wS1 1000000000, by decide +kernel⟩,
    ⟨3, true, wSsi.wr .mot (ENC_SSI_PERIOD 3) 100, by decide +kernel⟩,
    ⟨3, [], 0, false, true, 0, wSsi.onEnc 3 (fun e => { e with ssiWord := some (0,true)}), by decide +kernel⟩,
    ⟨3, [true,false,true,true,true,true,true,true], 0, true, true, 0, ((wSsi.onEnc 3 (fun e =>
      { e with ssiWord := some (0,true)})).put .mot (ENC_SSI_CTRL 3) 15 10 8), by decide +kernel⟩,
    ⟨2, wMs, by decide +kernel⟩,
    ⟨2, 0x80000003#32, wMs.setMs 2 { wMs.ms 2 with inUse := some false }, by decide +kernel⟩,
    ⟨2, wMs.setMs 2 { wMs.ms 2 with hold := some ⟨0, 5, 3, 0, 0⟩ }, ⟨0, 5, 3, 0, 0⟩, by decide +kernel⟩⟩
end W006

namespace W007
def wT1 : State := (run.wr .mot (TRG_CTRL 5) 0xB0000000#32).setGen 5 { (run.gen 5) with due := [0] }
def wT2 : State := wT1.wr .mot (TRG_PORT 3) 0x80000005#32
def wT3 : State := (((wT2.wr .mot (TRG_PORT 7) 0x80000005#32).put .phy (phyStatus 7) 31 28 phActive).put .phy
  (phyStatus 3) 31 28 phQuiet)
/-- States and operands that meet the hypotheses of TriggersAreIssuedOrSkipped, clause by clause. -/
theorem test_triggersAreIssuedOrSkipped :
  (∃ (g : Fin 96) (s : State), genDue s g = none) ∧
  (∃ (g : Fin 96) (s : State) (d : Due), genDue s g = some d ∧ namingPorts s g = []) ∧
  (∃ (g : Fin 96) (s : State) (d : Due), genDue s g = some d ∧ namingPorts s g ≠ [] ∧ sendingPorts s g d.cam = []) ∧
  (∃ (g : Fin 96) (s : State) (d : Due) (p : Nat) (ps : List Nat), genDue s g = some d ∧ sendingPorts s g d.cam = p
    :: ps) ∧
  (∃ (g : Fin 96) (v : Word) (s : State), bit v 31 = false) ∧
  (∃ (g : Fin 96) (v : Word) (s : State), s.flag .mot (TRG_CTRL g) 31 = false) ∧
  (∃ (p : Fin 24) (v : Word) (s : State), 96 ≤ bits v 6 0) ∧
  (∃ (p : Fin 24) (v : Word) (s : State), bits v 6 0 < 96) ∧
  (∃ (k : Fin 16) (level : Bool) (first : BitVec 64) (s : State), s.flag .mot (TRG_PIN k) 31 = true) ∧
  (∃ (k : Fin 16) (level act : Bool) (first : BitVec 64) (s : State), s.flag .mot (TRG_PIN k) 31 = false ∧ act =
    (level != s.flag .mot (TRG_PIN k) 30) ∧ (s.trigPin k).level ≠ act ∧ first.toNat + 5 * s.fld .mot (TRG_PIN k) 11 6
    ≤ s.now) :=
  ⟨⟨5, run, by decide +kernel⟩,
    ⟨5, wT1, ⟨96000, false, true⟩, by decide +kernel⟩,
    ⟨5, wT2, ⟨96000, false, true⟩, by decide +kernel⟩,
    ⟨5, wT3, ⟨96000, false, true⟩, 3, [7], by decide +kernel⟩,
    ⟨5, 0x12000000, wT1, by decide +kernel⟩,
    ⟨5, 0x00123456, run.wr .mot (TRG_NEXT_LO 5) 77, by decide +kernel⟩,
    ⟨5, 96, run, by decide +kernel⟩,
    ⟨5, 0x8000005F, run, by decide +kernel⟩,
    ⟨5, true, 0, run.wr .mot (TRG_PIN 5) 0x80000000, by decide +kernel⟩,
    ⟨5, true, true, 10, (at_ run 25).wr .mot (TRG_PIN 5) 0xC0, by decide +kernel⟩⟩
end W007

namespace W008
def wTune : State := (prt run 3 5).onPhy 3 (fun x =>
  { x with tune := some ⟨.search [2, 4], 0, none, true, true, 0, some 0⟩ })
/-- States and operands that meet the hypotheses of PortsTrainByTheStateMachine, clause by clause. -/
theorem test_portsTrainByTheStateMachine :
  (∃ (p : Fin 28) (v : Word) (s : State), bit v 31 = false ∧ s.flag .phy (phyCtrl p) 31 = true) ∧
  (∃ (p : Fin 28) (v : Word) (s : State), bit v 31 = true ∧ bit v 30 = false ∧ s.flag .phy (phyCtrl p) 31 = false ∧
    refOk s p = true ∧ s.fld .pwr PWR_STATUS 31 28 ≠ 2 ∧ s.fld .pwr PWR_STATUS 31 28 ≠ 4) ∧
  (∃ (p : Fin 28) (s : State), portState s p = phOff) ∧
  (∃ (p : Fin 28) (s : State), 1 ≤ portState s p ∧ portState s p ≤ 6) ∧
  (∃ (p : Fin 28) (s : State), portUp s p = true) ∧
  (∃ (p : Fin 28) (s : State), s.outputsOn = false) ∧
  (∃ (p : Fin 28) (s : State), p.val < 24 ∧ inTraining s p = true ∧ bcAlive s p = true ∧ s.outputsOn = true ∧
    (s.phyPort p).frameAt ≤ s.now * 1000) ∧
  (∃ (p : Fin 28) (s : State), 24 ≤ p.val ∧ inTraining s p = true ∧ bcAlive s p = true ∧ s.outputsOn = true ∧
    (s.phyPort p).frameAt ≤ s.now * 1000 ∧ (s.phyPort p).dataOn = true) ∧
  (∃ (p : Fin 28) (s : State), 24 ≤ p.val ∧ inTraining s p = true ∧ bcAlive s p = true ∧ s.outputsOn = true ∧
    (s.phyPort p).frameAt ≤ s.now * 1000 ∧ (s.phyPort p).dataOn = false) ∧
  (∃ (p : Fin 28) (lane : Fin 2) (s : State), portState s p = phDetect ∧ inBackoff s p = false ∧ (cfgLanes s
    p).contains lane.val = true ∧ s.flag .phy (phyLane p lane 0) 4 = false) ∧
  (∃ (p : Fin 28) (lane : Fin 2) (s : State), portState s p = phDetect ∧ inBackoff s p = false ∧ (cfgLanes s
    p).contains lane.val = true ∧ bcAlive s p = true ∧ lanesShow s p 4 = true ∧ (s.phyPort p).sigFrom + 100000 ≤
    s.now) ∧
  (∃ (p : Fin 28) (lane : Fin 2) (s : State), portState s p = phAcquire ∧ (cfgLanes s p).contains lane.val = true) ∧
  (∃ (p : Fin 28) (s : State) (r : CoefReq) (since : Nat), (s.phyPort p).coef = some (r, since) ∧ s.now < since +
    1000000) ∧
  (∃ (p : Fin 28) (s : State) (r : CoefReq) (since : Nat), (s.phyPort p).coef = some (r, since) ∧ since + 1000000 ≤
    s.now) ∧
  (∃ (p : Fin 28) (eyes : List (Nat × Nat × Nat)) (up : Bool) (s : State) (ts : TuneSt) (a n : Nat) (rest : List
    Nat), (s.phyPort p).tune = some ts ∧ ts.adapting = some a ∧ ts.phase = .search (n :: rest) ∧ s.now < a + 1000000)
    ∧
  (∃ (p : Fin 28) (eyes : List (Nat × Nat × Nat)) (up : Bool) (s : State) (ts : TuneSt) (a n : Nat) (rest : List
    Nat), (s.phyPort p).tune = some ts ∧ ts.adapting = some a ∧ ts.phase = .search (n :: rest) ∧ a + 1000000 ≤ s.now
    ∧ eyes.length = (cfgLanes s p).length) ∧
  (∃ (p : Fin 28) (s : State), portState s p = phDeskew ∧ isAligned s p = false) ∧
  (∃ (p : Fin 28) (s : State), portState s p = phDeskew ∧ isAligned s p = true) ∧
  (∃ (p : Fin 28) (s : State) (ns cause : Nat), trainLimit (portState s p) = some (ns, cause) ∧ inBackoff s p = false
    ∧ s.now < (s.phyPort p).entered + ns) ∧
  (∃ (p : Fin 28) (s : State) (ns cause : Nat), trainLimit (portState s p) = some (ns, cause) ∧ inBackoff s p = false
    ∧ (s.phyPort p).entered + ns ≤ s.now) ∧
  (∃ (p : Fin 28) (s : State), inBackoff s p = true ∧ (s.phyPort p).backoffEnd ≤ s.now) ∧
  (∃ (p : Fin 28) (lane : Fin 2) (s : State), 2 ≤ portState s p ∧ portState s p ≤ 6 ∧ (cfgLanes s p).contains
    lane.val = true) ∧
  (∃ (p : Fin 28) (lane : Fin 2) (status : BitVec 48) (crc : BitVec 16) (inverted : Bool) (s : State), inBackoff s p
    = false ∧ (cfgLanes s p).contains lane.val = true ∧ 3 ≤ portState s p ∧ portState s p ≤ 6 ∧ ((crc16 48
    status.toNat ≠ crc.toNat ∨ (inverted = true ∧ (s.phyPort p).autoPol = false)))) ∧
  (∃ (p : Fin 28) (lane : Fin 2) (status : BitVec 48) (crc : BitVec 16) (inverted : Bool) (s : State), inBackoff s p
    = false ∧ (cfgLanes s p).contains lane.val = true ∧ crc16 48 status.toNat = crc.toNat ∧ inverted = false ∧
    portState s p = phLock ∧ framesLocked (s.onPhy p (fun x => x.goodFrame lane status.toNat)) p = false) ∧
  (∃ (p : Fin 28) (lane : Fin 2) (status : BitVec 48) (crc : BitVec 16) (inverted : Bool) (s : State), inBackoff s p
    = false ∧ (cfgLanes s p).contains lane.val = true ∧ crc16 48 status.toNat = crc.toNat ∧ inverted = false ∧
    portState s p = phDeskew ∧ tbit status.toNat 39 = true) :=
  ⟨⟨3, 0x10000000, (prt run 3 7).wr .phy (phyCtrl 3) 0x90000000, by decide +kernel⟩,
    ⟨3, 0xB8040000, run, by decide +kernel⟩,
    ⟨3, run, by decide +kernel⟩,
    ⟨3, prt run 3 6, by decide +kernel⟩,
    ⟨3, prt run 3 9, by decide +kernel⟩,
    ⟨3, State.reset, by decide +kernel⟩,
    ⟨3, prt run 3 1, by decide +kernel⟩,
    ⟨25, (prt run 25 3).onPhy 25 (fun x => {x with dataOn := true}), by decide +kernel⟩,
    ⟨25, (prt run 25 3).onPhy 25 (fun x => {x with dataReq := true}), by decide +kernel⟩,
    ⟨3, 0, prt run 3 1, by decide +kernel⟩,
    ⟨3, 0, ((at_ (prt run 3 1) 100000).setb .phy (phyLane 3 0 0) 4 true).setb .phy (phyLane 3 1 0) 4 true,
      by decide +kernel⟩,
    ⟨3, 0, prt run 3 2, by decide +kernel⟩,
    ⟨3, (prt run 3 5).onPhy 3 (fun x => { x with coef := some (.preset 1, 0) }), .preset 1, 0, by decide +kernel⟩,
    ⟨3, at_ ((prt run 3 5).onPhy 3 (fun x => { x with coef := some (.preset 1, 0) })) 1000000, .preset 1, 0,
      by decide +kernel⟩,
    ⟨3, [(1,2,3)], true, wTune, ⟨.search [2, 4], 0, none, true, true, 0, some 0⟩, 0, 2, [4], by decide +kernel⟩,
    ⟨3, [(1,2,3),(4,5,6)], true, at_ wTune 1000000, ⟨.search [2, 4], 0, none, true, true, 0, some 0⟩, 0, 2, [4],
      by decide +kernel⟩,
    ⟨3, prt run 3 6, by decide +kernel⟩,
    ⟨3, lockd (prt run 3 6) 3, by decide +kernel⟩,
    ⟨3, prt run 3 4, 500000, 3, by decide +kernel⟩,
    ⟨3, at_ (prt run 3 8) 1000000, 1000000, 13, by decide +kernel⟩,
    ⟨3, (prt run 3 1).setb .phy (phyStatus 3) 17 true, by decide +kernel⟩,
    ⟨3, 0, prt run 3 2, by decide +kernel⟩,
    ⟨3, 0, 5, 5, false, prt run 3 3, by decide +kernel⟩,
    ⟨3, 0, 0x400000000000, BitVec.ofNat 16 (crc16 48 0x400000000000), false, prt run 3 3, by decide +kernel⟩,
    ⟨3, 0, 0x408000000000, BitVec.ofNat 16 (crc16 48 0x408000000000), false, prt run 3 6, by decide +kernel⟩⟩
end W008

namespace W009
/-- States and operands that meet the hypotheses of PortsRecoverRestAndAdapt, clause by clause. -/
theorem test_portsRecoverRestAndAdapt :
  (∃ (p : Fin 28) (lane : Fin 2) (moves : List Move) (s : State), adapts s p lane = true ∧ moves.length = adaptMoves
    ∧ adaptDue s p lane ≤ s.now * 1000 ∧ ((∀ off ∈ [0x4, 0x8, 0xC, 0x10], eqWritten s p lane off = false))) ∧
  (∃ (p : Fin 28) (lane : Fin 2) (reg : EqReg) (v : Word) (s : State), (p.val < 24 ∨ lane = 0)) ∧
  (∃ (p : Fin 28) (lane : Fin 2) (loss : LinkLoss) (s : State), portState s p ≠ phActive) ∧
  (∃ (p : Fin 28) (lane : Fin 2) (loss : LinkLoss) (s : State), portState s p = phActive ∧ (cfgLanes s p).contains
    lane.val = true) ∧
  (∃ (p : Fin 28) (s : State), portState s p = phRecover ∧ isAligned s p = false) ∧
  (∃ (p : Fin 28) (s : State), portState s p = phRecover ∧ isAligned s p = true) ∧
  (∃ (r : Fin 3) (s : State), refOk s (r.val * 8) = true) ∧
  (∃ (r : Fin 3) (s : State), refOk s (r.val * 8) = false) ∧
  (∃ (p : Fin 24) (s : State) (t0 : Nat), (s.phyPort p).quietReq = some t0 ∧ s.now < t0 + 10000) ∧
  (∃ (p : Fin 24) (s : State) (t0 : Nat), (s.phyPort p).quietReq = some t0 ∧ t0 + 10000 ≤ s.now) ∧
  (∃ (p : Fin 24) (how : QuietExit) (s : State), portState s p ≠ phQuiet) ∧
  (∃ (p : Fin 24) (how : QuietExit) (s : State), portState s p = phQuiet ∧ (s.phyPort p).quietExit = none) ∧
  (∃ (p : Fin 24) (s : State) (t0 : Nat), portState s p = phQuiet ∧ (s.phyPort p).quietExit = some t0 ∧ isAligned s p
    = true) ∧
  (∃ (p : Fin 24) (s : State) (t0 : Nat), portState s p = phQuiet ∧ (s.phyPort p).quietExit = some t0 ∧ t0 + 100000 ≤
    s.now) :=
  ⟨⟨3, 1, List.replicate 16 .up, prt run 3 5, by decide +kernel⟩,
    ⟨3, 1, .ctle, 0x1F, run, by decide +kernel⟩,
    ⟨3, 0, .sig, run, by decide +kernel⟩,
    ⟨3, 0, .sig, prt run 3 7, by decide +kernel⟩,
    ⟨3, prt run 3 8, by decide +kernel⟩,
    ⟨3, lockd (prt run 3 8) 3, by decide +kernel⟩,
    ⟨1, prt run 9 7, by decide +kernel⟩,
    ⟨1, (List.range 8).foldl (fun s i => (s.setb .phy (phyStatus (8 + i)) 18 true).setb .phy (phyCtrl (8 + i)) 31 (i
      == 3)) run, by decide +kernel⟩,
    ⟨3, (prt run 3 7).onPhy 3 (fun x => { x with quietReq := some 0 }), 0, by decide +kernel⟩,
    ⟨3, at_ ((prt run 3 7).onPhy 3 (fun x => { x with quietReq := some 0 })) 10000, 0, by decide +kernel⟩,
    ⟨3, .wake, run, by decide +kernel⟩,
    ⟨3, .wake, prt run 3 9, by decide +kernel⟩,
    ⟨3, lockd ((prt run 3 9).onPhy 3 (fun x => { x with quietExit := some 0 })) 3, 0, by decide +kernel⟩,
    ⟨3, at_ ((prt run 3 9).onPhy 3 (fun x => { x with quietExit := some 0 })) 100000, 0, by decide +kernel⟩⟩
/-- States and operands that meet the hypotheses of EyeScansAndTestPatterns, clause by clause. -/
theorem test_eyeScansAndTestPatterns :
  (∃ (p : Fin 28) (lane : Fin 2) (v : Word) (s : State), (p.val < 24 ∨ lane = 0) ∧ (isPam4 s p = true ∨ bits v 29 28
    = 1) ∧ bit v 31 = true ∧ bit v 30 = false ∧ portState s p = phActive ∧ s.flag .phy (phyLane p lane 0x24) 0 =
    false) ∧
  (∃ (p : Fin 28) (lane : Fin 2) (v : Word) (s : State), (p.val < 24 ∨ lane = 0) ∧ (isPam4 s p = true ∨ bits v 29 28
    = 1) ∧ bit v 31 = true ∧ bit v 30 = false ∧ portState s p ≠ phActive) ∧
  (∃ (p : Fin 28) (lane : Fin 2) (samples : List (Fin 4 × Bool)) (s : State), s.flag .phy (phyLane p lane 0x24) 0 =
    false) ∧
  (∃ (p : Fin 28) (lane : Fin 2) (samples : List (Fin 4 × Bool)) (s : State), s.flag .phy (phyLane p lane 0x24) 0 =
    false) ∧
  (∃ (p : Fin 28) (lane : Fin 2) (samples : List (Fin 4 × Bool)) (seen : List Bool) (old : Nat) (s : State), s.flag
    .phy (phyLane p lane 0x24) 0 = true ∧ old = s.rd64 .phy (phyLane p lane 0x28) (phyLane p lane 0x2C) ∧ seen =
    (samples.filterMap (fun x => escanSample (isPam4 s p) (s.fld .phy (phyLane p lane 0x20) 29 28) x.1 x.2)).take (2
    ^ s.fld .phy (phyLane p lane 0x20) 27 22 - old) ∧ old + seen.length < 2 ^ 48) ∧
  (∃ (p : Fin 28) (lane : Fin 2) (samples : List (Fin 4 × Bool)) (seen : List Bool) (old : Nat) (s : State), s.flag
    .phy (phyLane p lane 0x24) 0 = true ∧ old = s.rd64 .phy (phyLane p lane 0x28) (phyLane p lane 0x2C) ∧ seen =
    (samples.filterMap (fun x => escanSample (isPam4 s p) (s.fld .phy (phyLane p lane 0x20) 29 28) x.1 x.2)).take (2
    ^ s.fld .phy (phyLane p lane 0x20) 27 22 - old) ∧ old + seen.length < 2 ^ 48) ∧
  (∃ (p : Fin 28) (lane : Fin 2) (v : Word) (s : State), (p.val < 24 ∨ lane = 0) ∧ bits v 30 28 < 6 ∧ s.flag .phy
    (phyCtrl p) 31 = false) ∧
  (∃ (p : Fin 28) (lane : Fin 2) (v : Word) (s : State), (p.val < 24 ∨ lane = 0) ∧ bits v 30 28 < 6 ∧ s.flag .phy
    (phyCtrl p) 31 = true) ∧
  (∃ (p : Fin 28) (lane : Fin 2) (decisions : List (Fin 4)) (s : State), s.flag .phy (phyLane p lane 0x40) 25 = true)
    ∧
  (∃ (p : Fin 28) (lane : Fin 2) (decisions : List (Fin 4)) (s : State), testing s p lane = false) ∧
  (∃ (p : Fin 28) (lane : Fin 2) (d : Fin 4) (b : Bool) (s : State), s.flag .phy (phyLane p lane 0x40) 25 = false ∧
    testing s p lane = true ∧ s.fld .phy (phyLane p lane 0x40) 30 28 < 5 ∧ testBits s p lane [d] = [b] ∧ prbsLength
    (s.fld .phy (phyLane p lane 0x40) 30 28) ≤ (s.chk p lane).held) ∧
  (∃ (p : Fin 28) (lane : Fin 2) (decisions : List (Fin 4)) (s : State), s.flag .phy (phyLane p lane 0x40) 25 =
    false) ∧
  (∃ (p : Fin 28) (lane : Fin 2) (d : Fin 4) (b wrong : Bool) (s : State), s.flag .phy (phyLane p lane 0x40) 25 =
    true ∧ testing s p lane = true ∧ s.fld .phy (phyLane p lane 0x40) 30 28 < 5 ∧ testBits s p lane [d] = [b] ∧ wrong
    = (prbsNext (s.fld .phy (phyLane p lane 0x40) 30 28) (s.chk p lane).hist != xor b (s.flag .phy (phyLane p lane
    0x40) 27))) :=
  ⟨⟨3, 1, 0x90000000, prt run 3 7, by decide +kernel⟩,
    ⟨3, 1, 0x90000000, prt run 3 6, by decide +kernel⟩,
    ⟨3, 1, [(0,true)], prt run 3 7, by decide +kernel⟩,
    ⟨3, 1, [(0,true)], prt run 3 7, by decide +kernel⟩,
    ⟨3, 1, [(2,true),(1,true),(0,false)], [false, true], 0, ((prt run 3 7).setb .phy (phyLane 3 1 0x24) 0 true).put
      .phy (phyLane 3 1 0x20) 27 22 1, by decide +kernel⟩,
    ⟨3, 1, [(2,true),(1,true),(0,false)], [false, true], 0, ((prt run 3 7).setb .phy (phyLane 3 1 0x24) 0 true).put
      .phy (phyLane 3 1 0x20) 27 22 1, by decide +kernel⟩,
    ⟨3, 0, 0x94000000, run, by decide +kernel⟩,
    ⟨3, 0, 0x94000000, run.setb .phy (phyCtrl 3) 31 true, by decide +kernel⟩,
    ⟨3, 0, [1], run.setb .phy (phyLane 3 0 0x40) 25 true, by decide +kernel⟩,
    ⟨3, 0, [1], run, by decide +kernel⟩,
    ⟨3, 0, 2, true, ((run.wr .phy (phyCtrl 3) 0).wr .phy (phyLane 3 0 0x40) 0x80000000).onPhy 3 (fun x =>
      { x with chk0 := ⟨1, 31, 63, []⟩ }), by decide +kernel⟩,
    ⟨3, 0, [1], run, by decide +kernel⟩,
    ⟨3, 0, 2, true, true, ((run.wr .phy (phyCtrl 3) 0).wr .phy (phyLane 3 0 0x40) 0x82000000).onPhy 3 (fun x =>
      { x with chk0 := ⟨1, 31, 63, List.replicate 15 true⟩ }), by decide +kernel⟩⟩
end W009

namespace W010
def onLane0 (s : State) (p : Nat) (f : LaneSt → LaneSt) : State := s.onLnk p (fun x => { x with lane0 := f x.lane0 })
/-- An NRZ port on one lane. -/
def nrz (s : State) (p st : Nat) : State := ((prt s p st).setb .phy (phyCtrl p) 31 true).onPhy p (fun x =>
  { x with rate := 0, lanes := 0 })
def wCw : State := onLane0 (nrz run 3 7) 3 (fun l => { l with cw := 5 })
def bitsHit : BitVec 5440 := BitVec.ofNat 5440 (ofLsb ((bitsLsb 64 markerPattern).reverse) * 2 ^ (5439 - 64))
def rawOf (s : State) (p l : Nat) (pv : Nat) (b : BitVec 5440) : List Bool := (lineMode s p l).bits pv (cwDecisions s
  p b)
def wG (st h m : Nat) (lk : Bool) : State := onLane0 (nrz run 3 st) 3 (fun l =>
  { l with place := some 100, hits := h, misses := m, locked := lk, fresh := true })
def wC (st : Nat) : State := onLane0 (nrz run 3 st) 3 (fun l =>
  { l with place := some 7, cands := [5, 100], fresh := true })
def hdrW : Nat := let top := (5 * 2 ^ 36 + 0x10 * 2 ^ 30 + 7 * 2 ^ 22 + 100 * 2 ^ 7 + 3 * 2 ^ 5) ; top * 2 ^ 24 +
  crc16 40 top * 2 ^ 8 + 0x4B
def wB (b : RxBlk) : State := (prt run 3 7).onLnk 3 (fun x => { x with rx := [b] })
def wSp (b : RxBlk) : State := (prt run 25 7).onLnk 25 (fun x => { x with rx := [b] })
def hp (dt len : Nat) : Packet :=
  { vc := 2, dt := dt, seq := 9, len := len, pos := 3, bytes := [], fec := false, cut := false, arrived := 4 }
def fullP (dt : Nat) : Packet := let pl : List Byte := [1,2,3,4,5,6,7,8,9,10,11,12];
  { hp dt 12 with bytes := pl ++ leBytes 4 (crc32c pl) }
def wPk (dt : Nat) : State := ((prt run 3 7).wr .pix (PIX_SRC 5) 0x83000800).onLnk 3 (fun x =>
  { x with committed := [.packet (fullP dt), .packet (hp 9 4)], vc := Tab.upd (fun _ => VcSt.init) x.vc 2 (fun v => { v with seq := some 9 }) })
def lctlW (m : Nat) : Dword := lctlBlock m
def wL (m : Nat) : State := ((prt run 3 7).onLnk 3 (fun x => { x with lctlIn := [lctlW m] })).onPhy 3 (fun x =>
  { x with quietReq := some 0 })
def rq : RegReq :=
  { write := true, addr := 4, data := 5, retries := 1, tries := 0, id := 3, toSend := false, dataToSend := false, launched := some 0 }
def wRq (r : RegReq) (st : Nat) : State := (prt run 3 st).onLnk 3 (fun x => { x with reg := some r })
/-- States and operands that meet the hypotheses of CodewordsAndMarkersKeepTheirCounts, clause by clause. -/
theorem test_codewordsAndMarkersKeepTheirCounts :
  (∃ (p : Fin 28) (lane : Fin 2) (bits : BitVec 5440) (s : State), ((laneSt s p (logicalLane s p lane)).cw = 0 ∨ 40 ≤
    (laneSt s p (logicalLane s p lane)).cw)) ∧
  (∃ (p : Fin 28) (lane : Fin 2) (bits : BitVec 5440) (ll : Nat) (d : List Bool × Option Nat) (s : State), p.val < 24
    ∧ ll = logicalLane s p lane ∧ 0 < (laneSt s p ll).cw ∧ (laneSt s p ll).cw < 40 ∧ d = decodeCodeword ((lineMode s
    p lane).bits (laneSt s p ll).prev (cwDecisions s p bits))) ∧
  (∃ (p : Fin 28) (lane : Fin 2) (bits : BitVec 5440) (s : State), 24 ≤ p.val ∧ 0 < (laneSt s p (logicalLane s p
    lane)).cw ∧ (laneSt s p (logicalLane s p lane)).cw < 40) ∧
  (∃ (p : Fin 28) (lane : Fin 2) (bits : BitVec 5440) (before : Fin 4) (place arrival ll prev : Nat) (raw : List
    Bool) (hit : Bool) (s : State), ll = logicalLane s p lane ∧ prev = (if groupsOn (laneSt s p ll) place = some 1 ∧
    (laneSt s p ll).cw = 40 then (laneSt s p ll).prev else if (laneSt s p ll).fresh then 0 else uninvert (lineMode s
    p lane).inv before) ∧ raw = (lineMode s p lane).bits prev (cwDecisions s p bits) ∧ hit = (markerMatches
    (groupBlock 0 raw) || markerMatches (groupBlock 1 raw)) ∧ groupsOn (laneSt s p ll) place = none ∧ ((laneSt s p
    ll).locked = true ∨ (hit = false ∧ (laneSt s p ll).cands.any (fun c => c + groupBits == place) = false))) ∧
  (∃ (p : Fin 28) (lane : Fin 2) (bits : BitVec 5440) (before : Fin 4) (place arrival ll prev : Nat) (raw : List
    Bool) (hit : Bool) (s : State), ll = logicalLane s p lane ∧ prev = (if groupsOn (laneSt s p ll) place = some 1 ∧
    (laneSt s p ll).cw = 40 then (laneSt s p ll).prev else if (laneSt s p ll).fresh then 0 else uninvert (lineMode s
    p lane).inv before) ∧ raw = (lineMode s p lane).bits prev (cwDecisions s p bits) ∧ hit = (markerMatches
    (groupBlock 0 raw) || markerMatches (groupBlock 1 raw)) ∧ hit = true ∧ ((groupsOn (laneSt s p ll) place = some 1
    ∧ ((laneSt s p ll).locked = false ∨ (laneSt s p ll).misses < 4)) ∨ ((laneSt s p ll).locked = false ∧ (laneSt s p
    ll).cands.any (fun c => c + groupBits == place) = true)) ∧ portState s p ≠ phDeskew ∧ portState s p ≠ phActive) ∧
  (∃ (p : Fin 28) (lane : Fin 2) (bits : BitVec 5440) (before : Fin 4) (place arrival ll prev : Nat) (raw : List
    Bool) (hit : Bool) (s : State), ll = logicalLane s p lane ∧ prev = (if groupsOn (laneSt s p ll) place = some 1 ∧
    (laneSt s p ll).cw = 40 then (laneSt s p ll).prev else if (laneSt s p ll).fresh then 0 else uninvert (lineMode s
    p lane).inv before) ∧ raw = (lineMode s p lane).bits prev (cwDecisions s p bits) ∧ hit = (markerMatches
    (groupBlock 0 raw) || markerMatches (groupBlock 1 raw)) ∧ groupsOn (laneSt s p ll) place = some 1 ∧ hit = false ∧
    (laneSt s p ll).locked = true ∧ (laneSt s p ll).misses < 3 ∧ portState s p ≠ phDeskew ∧ portState s p ≠ phActive)
    ∧
  (∃ (p : Fin 28) (lane : Fin 2) (bits : BitVec 5440) (before : Fin 4) (place arrival ll prev : Nat) (raw : List
    Bool) (hit : Bool) (s : State), ll = logicalLane s p lane ∧ prev = (if groupsOn (laneSt s p ll) place = some 1 ∧
    (laneSt s p ll).cw = 40 then (laneSt s p ll).prev else if (laneSt s p ll).fresh then 0 else uninvert (lineMode s
    p lane).inv before) ∧ raw = (lineMode s p lane).bits prev (cwDecisions s p bits) ∧ hit = (markerMatches
    (groupBlock 0 raw) || markerMatches (groupBlock 1 raw)) ∧ groupsOn (laneSt s p ll) place = some 1 ∧ hit = false ∧
    (laneSt s p ll).locked = true ∧ 3 ≤ (laneSt s p ll).misses ∧ portState s p = phActive ∧ (cfgLanes s p).contains
    lane.val = true) :=
  ⟨⟨3, 0, 0, nrz run 3 7, by decide +kernel⟩,
    ⟨3, 0, 0, logicalLane wCw 3 0, decodeCodeword ((lineMode wCw 3 0).bits (laneSt wCw 3 (logicalLane wCw 3 0)).prev
      (cwDecisions wCw 3 0)), wCw, by decide +kernel, rfl, by decide +kernel, by decide +kernel, rfl⟩,
    ⟨25, 0, 0, onLane0 (prt run 25 7) 25 (fun l => { l with cw := 5 }), by decide +kernel⟩,
    ⟨3, 0, 0, 0, 100, 5, 0, 0, rawOf (nrz run 3 6) 3 0 0 0, false, nrz run 3 6, by decide +kernel⟩,
    ⟨3, 0, bitsHit, 0, 217700, 5, 0, 0, rawOf (wC 8) 3 0 0 bitsHit, true, wC 8, by decide +kernel⟩,
    ⟨3, 0, 0, 0, 217700, 5, 0, 0, rawOf (wG 8 5 2 true) 3 0 0 0, false, wG 8 5 2 true, by decide +kernel⟩,
    ⟨3, 0, 0, 0, 217700, 5, 0, 0, rawOf (wG 7 5 3 true) 3 0 0 0, false, wG 7 5 3 true, by decide +kernel⟩⟩
/-- States and operands that meet the hypotheses of PacketsAndControlBlocks, clause by clause. -/
theorem test_packetsAndControlBlocks :
  (∃ (p : Fin 28) (s : State), (s.lnkPort p).rx = []) ∧
  (∃ (p : Fin 28) (b : RxBlk) (rest : List RxBlk) (x : LnkPort) (s : State), (s.lnkPort p).rx = b :: rest ∧ x =
    { s.lnkPort p with rx := rest } ∧ (portState s p ≠ phActive ∨ (b.control = true ∧ b.payload.toNat % 256 = 0x1E)))
    ∧
  (∃ (p : Fin 28) (b : RxBlk) (rest : List RxBlk) (x : LnkPort) (s : State), (s.lnkPort p).rx = b :: rest ∧ x =
    { s.lnkPort p with rx := rest } ∧ 24 ≤ p.val ∧ portState s p = phActive) ∧
  (∃ (p : Fin 28) (b : RxBlk) (rest : List RxBlk) (x : LnkPort) (s : State), (s.lnkPort p).rx = b :: rest ∧ x =
    { s.lnkPort p with rx := rest } ∧ p.val < 24 ∧ portState s p = phActive ∧ b.control = true ∧ b.payload.toNat %
    256 = 0x4B ∧ b.errored = false ∧ crc16 40 (b.payload.toNat / 2 ^ 24) = nbits b.payload.toNat 23 8 ∧ 0 <
    (headerPacket b.payload.toNat s.now).len ∧ (headerPacket b.payload.toNat s.now).len ≤ 16384 ∧ bufUsed x.cutPacket
    + 8 ≤ 65536) ∧
  (∃ (p : Fin 28) (b : RxBlk) (rest : List RxBlk) (x : LnkPort) (s : State), (s.lnkPort p).rx = b :: rest ∧ x =
    { s.lnkPort p with rx := rest } ∧ p.val < 24 ∧ portState s p = phActive ∧ b.control = true ∧ b.payload.toNat %
    256 = 0x4B ∧ (b.errored = true ∨ crc16 40 (b.payload.toNat / 2 ^ 24) ≠ nbits b.payload.toNat 23 8)) ∧
  (∃ (p : Fin 28) (b : RxBlk) (rest : List RxBlk) (x : LnkPort) (s : State), (s.lnkPort p).rx = b :: rest ∧ x =
    { s.lnkPort p with rx := rest } ∧ p.val < 24 ∧ portState s p = phActive ∧ b.control = true ∧ b.payload.toNat %
    256 = 0x5A) ∧
  (∃ (p : Fin 28) (b : RxBlk) (rest : List RxBlk) (x : LnkPort) (s : State), (s.lnkPort p).rx = b :: rest ∧ x =
    { s.lnkPort p with rx := rest } ∧ p.val < 24 ∧ portState s p = phActive ∧ b.control = true ∧ b.payload.toNat %
    256 ∉ [0x1E, 0x5A, 0x4B]) ∧
  (∃ (p : Fin 28) (b : RxBlk) (rest : List RxBlk) (x : LnkPort) (s : State), ∃ (q : Packet), (s.lnkPort p).rx = b ::
    rest ∧ x = { s.lnkPort p with rx := rest } ∧ p.val < 24 ∧ portState s p = phActive ∧ b.control = false ∧ x.skip =
    false ∧ x.asm = some q ∧ bufUsed x + 8 ≤ 65536) ∧
  (∃ (p : Fin 24) (s : State) (q : Packet) (rest : List Packet), (s.lnkPort p).committed = .packet q :: rest.map
    .packet ∧ q.cut = false ∧ payloadBad q = false ∧ (s.vcOf p q.vc).seq = some q.seq ∧ q.dt = 0x09) ∧
  (∃ (p : Fin 24) (s : State) (q : Packet) (rest : List Packet), (s.lnkPort p).committed = .packet q :: rest.map
    .packet ∧ q.cut = false ∧ payloadBad q = false ∧ (s.vcOf p q.vc).seq = some q.seq ∧ q.dt = 0x03 ∧ vcStreams s p
    q.vc ≠ [] ∧ (s.vcOf p q.vc).line = none) ∧
  (∃ (p : Fin 24) (s : State), (s.lnkPort p).lctlIn = []) ∧
  (∃ (p : Fin 24) (b : Dword) (rest : List Dword) (s : State), (s.lnkPort p).lctlIn = b :: rest ∧ (b.toNat % 256 ≠
    0x5A ∨ crc16 40 (b.toNat / 2 ^ 24) ≠ nbits b.toNat 23 8)) ∧
  (∃ (p : Fin 24) (b : Dword) (rest : List Dword) (s : State), ∃ (t0 : Nat), (s.lnkPort p).lctlIn = b :: rest ∧
    b.toNat % 256 = 0x5A ∧ crc16 40 (b.toNat / 2 ^ 24) = nbits b.toNat 23 8 ∧ (s.phyPort p).quietReq = some t0 ∧
    s.now ≤ t0 + 10000 ∧ nbits b.toNat 63 56 = 0x81 ∧ portState s p = phActive) ∧
  (∃ (p : Fin 24) (b : Dword) (rest : List Dword) (s : State), ∃ (t0 : Nat), (s.lnkPort p).lctlIn = b :: rest ∧
    b.toNat % 256 = 0x5A ∧ crc16 40 (b.toNat / 2 ^ 24) = nbits b.toNat 23 8 ∧ (s.phyPort p).quietReq = some t0 ∧
    s.now ≤ t0 + 10000 ∧ nbits b.toNat 63 56 = 0x82) ∧
  (∃ (p : Fin 24) (s : State), s.now * 1000 < (s.lnkPort p).boundary) ∧
  (∃ (p : Fin 24) (s : State), (s.lnkPort p).boundary ≤ s.now * 1000 ∧ portUp s p = true ∧ bcAlive s p = true) ∧
  (∃ (p : Fin 24) (v : Word) (s : State), bit v 31 = true ∧ s.flag .lnk (DLK_REG_STATUS p) 31 = true) ∧
  (∃ (p : Fin 24) (v : Word) (s : State), bit v 31 = true ∧ s.flag .lnk (DLK_REG_STATUS p) 31 = false ∧ portUp s p =
    false) ∧
  (∃ (p : Fin 24) (v : Word) (s : State), bit v 31 = true ∧ s.flag .lnk (DLK_REG_STATUS p) 31 = false ∧ portUp s p =
    true) ∧
  (∃ (p : Fin 24) (s : State) (r : RegReq) (t0 : Nat), (s.lnkPort p).reg = some r ∧ r.launched = some t0 ∧ s.now < t0
    + s.fld .lnk (DLK_REG_TIMEOUT p) 13 0 * 1000) ∧
  (∃ (p : Fin 24) (s : State) (r : RegReq) (t0 : Nat), (s.lnkPort p).reg = some r ∧ r.launched = some t0 ∧ t0 + s.fld
    .lnk (DLK_REG_TIMEOUT p) 13 0 * 1000 ≤ s.now) :=
  ⟨⟨3, run, by decide +kernel⟩,
    ⟨3, ⟨false, 5, false⟩, [], ((prt (wB ⟨false, 5, false⟩) 3 8).onLnk 3 (fun x => { x with rx := [] })).lnkPort 3,
      prt (wB ⟨false, 5, false⟩) 3 8, by decide +kernel⟩,
    ⟨25, ⟨true, 0x69, false⟩, [], ((wSp ⟨true, 0x69, false⟩).onLnk 25 (fun x => { x with rx := [] })).lnkPort 25, wSp
      ⟨true, 0x69, false⟩, by decide +kernel⟩,
    ⟨3, ⟨true, BitVec.ofNat 64 hdrW, false⟩, [], ((wB ⟨true, BitVec.ofNat 64 hdrW, false⟩).onLnk 3 (fun x =>
      { x with rx := [] })).lnkPort 3, wB ⟨true, BitVec.ofNat 64 hdrW, false⟩, by decide +kernel⟩,
    ⟨3, ⟨true, 0x4B, false⟩, [], ((wB ⟨true, 0x4B, false⟩).onLnk 3 (fun x => { x with rx := [] })).lnkPort 3, wB
      ⟨true, 0x4B, false⟩, by decide +kernel⟩,
    ⟨3, ⟨true, 0x5A, false⟩, [], ((wB ⟨true, 0x5A, false⟩).onLnk 3 (fun x => { x with rx := [] })).lnkPort 3, wB
      ⟨true, 0x5A, false⟩, by decide +kernel⟩,
    ⟨3, ⟨true, 0x2D, false⟩, [], ((wB ⟨true, 0x2D, false⟩).onLnk 3 (fun x => { x with rx := [] })).lnkPort 3, wB
      ⟨true, 0x2D, false⟩, by decide +kernel⟩,
    ⟨3, ⟨false, 77, false⟩, [], (((wB ⟨false, 77, false⟩).onLnk 3 (fun x =>
      { x with asm := some (hp 0x10 4) })).onLnk 3 (fun x => { x with rx := [] })).lnkPort 3, (wB ⟨false, 77,
      false⟩).onLnk 3 (fun x => { x with asm := some (hp 0x10 4) }), hp 0x10 4, by decide +kernel⟩,
    ⟨3, wPk 9, fullP 9, [hp 9 4], by decide +kernel⟩,
    ⟨3, wPk 3, fullP 3, [hp 9 4], by decide +kernel⟩,
    ⟨3, run, by decide +kernel⟩,
    ⟨3, 5, [], (prt run 3 7).onLnk 3 (fun x => { x with lctlIn := [5] }), by decide +kernel⟩,
    ⟨3, lctlW 0x81, [], wL 0x81, 0, by decide +kernel⟩,
    ⟨3, lctlW 0x82, [], wL 0x82, 0, by decide +kernel⟩,
    ⟨3, (prt run 3 7).onLnk 3 (fun x => { x with boundary := 1 }), by decide +kernel⟩,
    ⟨3, prt run 3 7, by decide +kernel⟩,
    ⟨3, 0x80000000, run.setb .lnk (DLK_REG_STATUS 3) 31 true, by decide +kernel⟩,
    ⟨3, 0x88000000, run, by decide +kernel⟩,
    ⟨3, 0xC8000000, prt run 3 9, by decide +kernel⟩,
    ⟨3, (wRq rq 7).wr .lnk (DLK_REG_TIMEOUT 3) 5, rq, 0, by decide +kernel⟩,
    ⟨3, at_ ((wRq rq 9).wr .lnk (DLK_REG_TIMEOUT 3) 5) 5000, rq, 0, by decide +kernel⟩⟩
end W010

namespace W012
def wImg : Image := ⟨1, 0, ⟨[0], [], [⟨5, 1, 4, 4, 1000⟩], [⟨5, 2, 100, 4⟩, ⟨5, 0, 200, 64⟩]⟩, []⟩
def mapped (s : State) : State := { s with seq := { s.seq with active := some wImg } }
def wOn : State := (((mapped run).wr .pix (PIX_SRC 5) 0x83000100).wr .pix (PIX_WIN 5) 64).wr .pwr (PWR_CL_CTRL 1) 0
def cam (tb at' : Nat) : CamLine :=
  { port := 3, vc := 0, dt := some 0x10, pixels := 64, col0 := 0, bytes := List.replicate 64 7#8, flags := 0, stamp := ⟨tb, 0#48, 0, 0⟩, phase := 0, frame := none, arrived := at' }
def sl : StrLine :=
  { samples := List.replicate 64 7, flags := 0, stamp := ⟨9, 0#48, 0, 0⟩, phase := 0, frame := none, ln := 3, ctx := 0 }
def q1h (s : State) : State := s.setPix 5 { s.pixStream 5 with q0 := [cam 5 7, cam 6 8] }
def wTwo : State := at_ (q1h ((mapped run).wr .pix (PIX_SRC 5) 0xA3000100 |>.wr .pix (PIX_WIN 5) 64 |>.wr .pix
  (PIX_CTRL 5) 0x2000)) 2000
def tq (s : State) (k : Nat) : State := s.setPix 5 { s.pixStream 5 with tileQ := List.replicate k sl }
def nap (s : State) : State := s.wr .pwr (PWR_CL_CTRL 1) 2
def armed (s : State) : State := s.setb .pix (PIX_ARM 5) 31 true
def flatB (s : State) : State := ((s.putBanks [4,5,6,7] 3 0 false (some [])).putBanks [4,5,6,7] 0 0 true (some
  (List.replicate 256 1#8))).wr .pix (PIX_TBL_SEL 5) 1
def ldg (s : State) (k : Nat) (b : Bool) : State := s.setPix 5
  { s.pixStream 5 with load := some ⟨k, 0, 4096, 256, b, [4,5,6,7]⟩ }
def big : State := wOn.wr .pix (PIX_TBL_LEN 5) 256
/-- States and operands that meet the hypotheses of PixelStreamsJoinTheirLines, clause by clause. -/
theorem test_pixelStreamsJoinTheirLines :
  (∃ (n : Fin 96) (v : Word) (s : State), streamOn s n = true ∧ bit v 31 = true ∧ bits v 30 0 = bits (s.rd .pix
    (PIX_SRC n)) 30 0) ∧
  (∃ (n : Fin 96) (v : Word) (s : State), streamOn s n = true ∧ bit v 31 = true ∧ bits v 30 0 ≠ bits (s.rd .pix
    (PIX_SRC n)) 30 0) ∧
  (∃ (n : Fin 96) (v : Word) (s : State), streamOn s n = true ∧ bit v 31 = false) ∧
  (∃ (n : Fin 96) (v : Word) (s : State), streamOn s n = false ∧ bit v 31 = true ∧ mapStream s n = none) ∧
  (∃ (n : Fin 96) (v : Word) (s : State), streamOn s n = false ∧ bit v 31 = true ∧ mapStream s n ≠ none) ∧
  (∃ (n : Fin 96) (s : State), olderHeads (heads s n) = [] ∧ (heads s n).all Option.isSome = true ∧ streamOn s n =
    true ∧ hasTiles s n = true) ∧
  (∃ (n : Fin 96) (s : State) (a : Nat) (as : List Nat), (heads s n).filterMap (fun h => h.map (fun l => l.arrived))
    = a :: as ∧ olderHeads (heads s n) = [] ∧ s.now < as.foldl min a + 1000 * s.fld .pix (PIX_CTRL n) 19 13) ∧
  (∃ (n : Fin 96) (s : State) (a : Nat) (as : List Nat), (heads s n).filterMap (fun h => h.map (fun l => l.arrived))
    = a :: as ∧ olderHeads (heads s n) = [] ∧ as.foldl min a + 1000 * s.fld .pix (PIX_CTRL n) 19 13 ≤ s.now ∧
    streamOn s n = true ∧ (heads s n).any Option.isNone = true ∧ hasTiles s n = true ∧ (s.pixStream n).tileQ.length <
    4) ∧
  (∃ (n : Fin 96) (s : State) (l : StrLine) (rest : List StrLine), (s.pixStream n).tileQ = l :: rest ∧ streamOn s n =
    true ∧ ((∀ c ∈ streamClusters s n, clPstate s c < 2))) ∧
  (∃ (n : Fin 96) (s : State) (l : StrLine) (rest : List StrLine), ∃ c, (s.pixStream n).tileQ = l :: rest ∧ streamOn
    s n = true ∧ streamClusters s n = [c] ∧ clPstate s c = 2 ∧ (Tab.get (fun _ => PwrUnit.init) s.pwr.unit c).missed
    = false) :=
  ⟨⟨5, 0x83000100, wOn, by decide +kernel⟩,
    ⟨5, 0x83000201, wOn, by decide +kernel⟩,
    ⟨5, 0x0, tq (q1h wOn) 2, by decide +kernel⟩,
    ⟨5, 0x83000100, run, by decide +kernel⟩,
    ⟨5, 0x83000100, mapped run, by decide +kernel⟩,
    ⟨5, q1h wOn, by decide +kernel⟩,
    ⟨5, at_ wTwo 100, 7, [], by decide +kernel⟩,
    ⟨5, wTwo, 7, [], by decide +kernel⟩,
    ⟨5, tq wOn 2, sl, [sl], by decide +kernel⟩,
    ⟨5, nap (tq wOn 2), sl, [sl], 1, by decide +kernel⟩⟩
/-- States and operands that meet the hypotheses of ShadowSetsArmAndTablesLoad, clause by clause. -/
theorem test_shadowSetsArmAndTablesLoad :
  (∃ (n : Fin 96) (s : State), s.flag .pix (PIX_ARM n) 31 = true) ∧
  (∃ (n : Fin 96) (s : State), s.flag .pix (PIX_ARM n) 31 = false ∧ armGood s n = false) ∧
  (∃ (n : Fin 96) (s : State), s.flag .pix (PIX_ARM n) 31 = false ∧ armGood s n = true) ∧
  (∃ (n : Fin 96) (s : State), s.flag .pix (PIX_ARM n) 31 = false) ∧
  (∃ (n : Fin 96) (s : State), s.flag .pix (PIX_ARM n) 31 = true) ∧
  (∃ (n : Fin 96) (k : Fin 128) (v : Word) (s : State), s.flag .pix (PIX_ARM n) 31 = true) ∧
  (∃ (n : Fin 96) (k : Fin 128) (v : Word) (s : State), ∃ u row, s.flag .pix (PIX_ARM n) 31 = false ∧ regAt (PIX_SRC
    n + (0x100 + 4 * k.val)) = some (u, row)) ∧
  (∃ (n : Fin 96) (v : Word) (s : State), bit v 31 = true ∧ s.flag .pix (PIX_ARM n) 31 = true) ∧
  (∃ (n : Fin 96) (v : Word) (s : State), bit v 31 = true ∧ s.flag .pix (PIX_ARM n) 31 = false ∧ s.flag .pix
    (PIX_STATUS n) 2 = true) ∧
  (∃ (n : Fin 96) (v : Word) (s : State), bit v 31 = true ∧ s.flag .pix (PIX_ARM n) 31 = false ∧ s.flag .pix
    (PIX_STATUS n) 2 = false ∧ swapHolds s n = false ∧ bits v 30 28 < 2 ∧ tableSizeOk s n (bits v 30 28) (s.rd .pix
    (PIX_TBL_LEN n)).toNat = false) ∧
  (∃ (n : Fin 96) (v : Word) (s : State), bit v 31 = true ∧ s.flag .pix (PIX_ARM n) 31 = false ∧ s.flag .pix
    (PIX_STATUS n) 2 = false ∧ swapHolds s n = false ∧ bits v 30 28 < 2 ∧ tableSizeOk s n (bits v 30 28) (s.rd .pix
    (PIX_TBL_LEN n)).toNat = true ∧ hasTiles s n = true) ∧
  (∃ (n : Fin 96) (s : State) (l : LoadSt), (s.pixStream n).load = some l ∧ (s.pixStream n).inUse l = false) :=
  ⟨⟨5, armed wOn, by decide +kernel⟩,
    ⟨5, wOn.wr .pix (PIX_TBL_SEL 5) 1, by decide +kernel⟩,
    ⟨5, flatB wOn, by decide +kernel⟩,
    ⟨5, wOn, by decide +kernel⟩,
    ⟨5, armed wOn, by decide +kernel⟩,
    ⟨5, 3, 77, armed wOn, by decide +kernel⟩,
    ⟨5, 3, 77, wOn, ((regAt (PIX_SRC 5 + 0x10C)).get (by decide +kernel)).1, ((regAt (PIX_SRC 5 + 0x10C)).get
      (by decide +kernel)).2, by decide +kernel⟩,
    ⟨5, 0x80000000, armed wOn, by decide +kernel⟩,
    ⟨5, 0x80000000, wOn.setb .pix (PIX_STATUS 5) 2 true, by decide +kernel⟩,
    ⟨5, 0x80000000, wOn, by decide +kernel⟩,
    ⟨5, 0x80000000, big, by decide +kernel⟩,
    ⟨5, ldg wOn 0 true, ⟨0, 0, 4096, 256, true, [4,5,6,7]⟩, by decide +kernel⟩⟩
end W012

namespace W013
def wImg : Image := ⟨1, 0, ⟨[0], [], [⟨5, 1, 4, 4, 1000⟩], [⟨5, 2, 100, 4⟩, ⟨5, 0, 200, 64⟩]⟩, []⟩
def mapped (s : State) : State := { s with seq := { s.seq with active := some wImg } }
def wOn : State := (((mapped run).wr .pix (PIX_SRC 5) 0x83000100).wr .pix (PIX_WIN 5) 64).wr .pwr (PWR_CL_CTRL 1) 0
def st0 : Stamp := ⟨9, 0#48, 0, 0⟩
def wObj : Obj :=
  { y0 := 2, x0 := 3, yLast := 4, runs := [], xMin := 3, xMax := 9, area := 12, perim := 10, sx := 60, sy := 30, sxx := 400, syy := 100, sxy := 90, csum := [100], cmin := [1], cmax := [20], cls := [0, 12], pend := [], incomplete := false, continued := false, forced := false, frameEdge := false, byReset := false, lineFlags := 0, first := st0, last := st0, strip := 0, sline := 0, ln := 2, frame := none, closedAt := 5, par := ⟨0, 0xA8000001, 64, 0, 0, none⟩ }
def vw (tb : Nat) (b : Bool) : ObjView :=
  { obj := wObj, stream := 5, serial := 7, epoch := false, handle := 7, width := 64, ncomp := 1, arrived := 3, leaveAt := tb, isB := b }
def onO (f : ObjStream → ObjStream) (s : State) : State := s.onObj 5 f
def cj (st : CutSt) : CutJob :=
  { view := vw 0 false, st := st, addr := 100 * 1048576, size := 256, widthCut := false, heightCut := false, col0 := 3, col1 := 9, row0 := 2, row1 := 4 }
def qd (s : State) : State := onO (fun x => { x with closeQ := [wObj, wObj], y := 9 }) s
def wt (b : Bool) (s : State) : State := onO (fun x => { x with wait := [vw 50 b, vw 60 b] }) s
def ct (st : CutSt) (s : State) : State := onO (fun x => { x with cuts := [cj .written, cj st].drop 1, y := 20 }) s
def rj : RecJob := ⟨some (vw 0 false), none, false, false⟩
def rdy (s : State) : State := onO (fun x => { x with ready := [rj] }) s
/-- States and operands that meet the hypotheses of ObjectsFormPairAndReleaseRecords, clause by clause. -/
theorem test_objectsFormPairAndReleaseRecords :
  (∃ (n : Fin 96) (v : Word) (s : State), bit v 31 = true ∧ s.flag .obj (OBJ_STATUS n) 6 = true) ∧
  (∃ (n : Fin 96) (v : Word) (s : State), bit v 31 = true ∧ s.flag .obj (OBJ_STATUS n) 6 = false ∧ s.flag .pix
    (PIX_ARM n) 31 = false ∧ hasTiles s n = true ∧ s.rd64 .obj (OBJ_TBL_ADDR_LO n) (OBJ_TBL_ADDR_HI n) % 64 = 0 ∧
    swapHolds s n = false) ∧
  (∃ (n : Fin 96) (s : State), (s.objStream n).load = none) ∧
  (∃ (n : Fin 96) (a : Nat) (tiles : List Nat) (s : State), (s.objStream n).load = some (a, tiles)) ∧
  (∃ (n : Fin 96) (err : Fin 3) (s : State), viewDue s n = false) ∧
  (∃ (n : Fin 96) (err : Fin 3) (s : State), ∃ o rest, viewDue s n = true ∧ (s.objStream n).closeQ = o :: rest ∧ err
    = 2) ∧
  (∃ (n : Fin 96) (err : Fin 3) (s : State), ∃ o rest, viewDue s n = true ∧ (s.objStream n).closeQ = o :: rest ∧ err
    ≠ 2) ∧
  (∃ (n : Fin 96) (s : State) (w : ObjView) (ws : List ObjView), (s.objStream n).wait = w :: ws ∧ w.stream = n.val ∧
    s.now ≤ w.leaveAt) ∧
  (∃ (n : Fin 96) (s : State) (w : ObjView) (ws : List ObjView), (s.objStream n).wait = w :: ws ∧ w.stream = n.val ∧
    w.leaveAt < s.now) ∧
  (∃ (n : Fin 96) (s : State) (j : CutJob), (s.objStream n).cuts.find? (fun j => j.st == .waiting) = some j ∧
    cutCanStart s n j = false) ∧
  (∃ (n : Fin 96) (s : State) (j : CutJob), ∃ (g : RegEnt) (r : CutJob) (size : Nat), (s.objStream n).cuts.find? (fun
    j => j.st == .waiting) = some j ∧ cutCanStart s n j = true ∧ mapRegion s n 2 = some g ∧ r = clipRows s n j ∧ size
    = (cutShape (r.col1 + 1 - r.col0) (r.row1 + 1 - r.row0) (2 ^ bits j.view.obj.par.cut 28 27) j.view.ncomp (bit
    j.view.obj.par.cut 30)).2.2.2.2) ∧
  (∃ (n : Fin 96) (s : State) (j : CutJob), (s.objStream n).cuts.find? (fun j => j.st == .writing) = some j) ∧
  (∃ (n : Fin 96) (s : State) (j : CutJob), (s.objStream n).cuts.find? (fun j => (j.st == .writing || j.st ==
    .waiting) && decide (j.view.obj.closedAt + 1000 * bits j.view.obj.par.cut 9 0 ≤ s.now)) = some j) ∧
  (∃ (n : Fin 96) (s : State), ∃ j, (s.objStream n).ready.find? (fun j => cutsOver s j) = some j) ∧
  (∃ (n : Fin 96) (s : State), (s.objStream n).ready.find? (fun j => cutsOver s j) = none) :=
  ⟨⟨5, 0x80000000, wOn.setb .obj (OBJ_STATUS 5) 6 true, by decide +kernel⟩,
    ⟨5, 0x80000000, wOn, by decide +kernel⟩,
    ⟨5, wOn, by decide +kernel⟩,
    ⟨5, 4096, [4,5,6,7], onO (fun x => { x with load := some (4096, [4,5,6,7]) }) wOn, by decide +kernel⟩,
    ⟨5, 0, wOn, by decide +kernel⟩,
    ⟨5, 2, qd wOn, wObj, [wObj], by decide +kernel⟩,
    ⟨5, 1, qd wOn, wObj, [wObj], by decide +kernel⟩,
    ⟨5, at_ (wt false wOn) 50, vw 50 false, [vw 60 false], by decide +kernel⟩,
    ⟨5, at_ (wt false wOn) 51, vw 50 false, [vw 60 false], by decide +kernel⟩,
    ⟨5, onO (fun x => { x with y := 3 }) (ct .waiting wOn), cj .waiting, by decide +kernel⟩,
    ⟨5, ct .waiting wOn, cj .waiting, ⟨5, 2, 100, 4⟩, clipRows (ct .waiting wOn) 5 (cj .waiting), (cutShape
      ((clipRows (ct .waiting wOn) 5 (cj .waiting)).col1 + 1 - (clipRows (ct .waiting wOn) 5 (cj .waiting)).col0)
      ((clipRows (ct .waiting wOn) 5 (cj .waiting)).row1 + 1 - (clipRows (ct .waiting wOn) 5 (cj .waiting)).row0) (2
      ^ bits (cj .waiting).view.obj.par.cut 28 27) (cj .waiting).view.ncomp (bit (cj .waiting).view.obj.par.cut
      30)).2.2.2.2, by decide +kernel⟩,
    ⟨5, ct .writing wOn, cj .writing, by decide +kernel⟩,
    ⟨5, at_ (ct .writing wOn) 2000, cj .writing, by decide +kernel⟩,
    ⟨5, rdy wOn, rj, by decide +kernel⟩,
    ⟨5, onO (fun x => { x with ready := [rj] }) (ct .writing wOn), by decide +kernel⟩⟩
end W013

namespace W014
def vr : VRec :=
  { handle := 7, bytes := List.replicate 128 0#8, queue := 5, stream := 5, msrc := 0, deadline := some 900000, ts := 800000, te := 1000000, decideAt := 700000, vFirst := 3, vLast := 4, rule := some 1, dflt := 0, ruleIdx := 2, settled := none, hostTaken := false, late := false, limited := false, override := none, valves := none, started := false, cancelled := false, inTable := true, isLost := false, copied := false }
def rcs (v : List VRec) : State := ({ run with ejt := { run.ejt with recs := v } } : State).wr .ejt (EJT_STR_CTRL 5)
  0x81000003
def ent (h a c : Nat) : BitVec 128 := BitVec.ofNat 128 (h + a * 2 ^ 64 + c * 2 ^ 112)
def fly (s : State) (h a b : Nat) : State :=
  { s with host := { s.host with flights := [⟨3, 0, ent h a 3, b⟩, ⟨3, 1, ent 9 1 3, 900⟩] } }
def rest : List Flight := [⟨3, 1, ent 9 1 3, 900⟩]
def stl : VRec := { vr with settled := some (.host, 1), valves := some (3, 4), hostTaken := true }
def busOn (s : State) : State := (((s.wr .ejt (EJT_BUS_CTRL 0) 0xC0000000).wr .ejt (EJT_BUS_PROT 0)
  0xFF00A005).setEjBus 0 ⟨some 100, [], 10, 0#304⟩)
def loading (b : Bool) : State := { run with ejt := { run.ejt with load := some (b, 2, 4096) } }
def frm : BitVec 64 := BitVec.ofNat 64 (0x4C70 * 2 ^ 48 + 0x1234 * 2 ^ 32 + 0x55 * 2 ^ 16 + crc16 32 (0x1234 * 2 ^ 16
  + 0x55))
def fresh1 : State :=
  { run with ejt := { run.ejt with flight := Tab.set (fun _ => VTable.init) [] 1 ⟨none, some [1#8], false, true⟩ } }
/-- States and operands that meet the hypotheses of VerdictsSettleOnce, clause by clause. -/
theorem test_verdictsSettleOnce :
  (∃ (s : State), s.host.flights = []) ∧
  (∃ (s : State) (f : Flight) (rest : List Flight), s.host.flights = f :: rest ∧ s.now < f.back) ∧
  (∃ (s : State) (c : Nat) (k : Word) (e : BitVec 128) (h action back : Nat) (rest : List Flight), s.host.flights =
    ⟨c, k, e, back⟩ :: rest ∧ back ≤ s.now ∧ h = e.toNat % 2 ^ 64 ∧ action = nbits e.toNat 71 64 ∧ pendingRec s h =
    none) ∧
  (∃ (s : State) (c : Nat) (k : Word) (e : BitVec 128) (h action back : Nat) (rest : List Flight), ∃ v,
    s.host.flights = ⟨c, k, e, back⟩ :: rest ∧ back ≤ s.now ∧ h = e.toNat % 2 ^ 64 ∧ action = nbits e.toNat 71 64 ∧
    pendingRec s h = some v ∧ nbits e.toNat 121 112 = c ∧ ((s.flag .ejt (EJT_STR_CTRL v.stream) 24 = true ∨ s.fld
    .ejt (EJT_STR_CTRL v.stream) 9 0 = c)) ∧ action ≤ 2 ∧ v.hostTaken = false ∧ (s.now : Int) < v.decideAt ∧ tbit
    e.toNat 72 = false) ∧
  (∃ (s : State) (c : Nat) (k : Word) (e : BitVec 128) (h action back : Nat) (rest : List Flight), ∃ v,
    s.host.flights = ⟨c, k, e, back⟩ :: rest ∧ back ≤ s.now ∧ h = e.toNat % 2 ^ 64 ∧ action = nbits e.toNat 71 64 ∧
    pendingRec s h = some v ∧ nbits e.toNat 121 112 = c ∧ ((s.flag .ejt (EJT_STR_CTRL v.stream) 24 = true ∨ s.fld
    .ejt (EJT_STR_CTRL v.stream) 9 0 = c)) ∧ action ≤ 3 ∧ v.hostTaken = true) ∧
  (∃ (s : State) (c : Nat) (k : Word) (e : BitVec 128) (h action back : Nat) (rest : List Flight), ∃ v,
    s.host.flights = ⟨c, k, e, back⟩ :: rest ∧ back ≤ s.now ∧ h = e.toNat % 2 ^ 64 ∧ action = nbits e.toNat 71 64 ∧
    pendingRec s h = some v ∧ nbits e.toNat 121 112 = c ∧ ((s.flag .ejt (EJT_STR_CTRL v.stream) 24 = true ∨ s.fld
    .ejt (EJT_STR_CTRL v.stream) 9 0 = c)) ∧ action ≤ 3 ∧ v.hostTaken = false ∧ v.decideAt ≤ (s.now : Int)) ∧
  (∃ (h : BitVec 64) (s : State) (v : VRec), pendingRec s h.toNat = some v ∧ v.settled = none ∧ (s.now : Int) <
    v.decideAt) ∧
  (∃ (h : BitVec 64) (s : State) (v : VRec), pendingRec s h.toNat = some v ∧ v.settled = none ∧ v.decideAt ≤ (s.now :
    Int)) ∧
  (∃ (h : BitVec 64) (s : State) (v : VRec), s.ejt.recs.find? (fun v => v.handle == h.toNat && !v.isLost &&
    !v.copied) = some v ∧ (s.now : Int) < v.te) ∧
  (∃ (h : BitVec 64) (s : State) (v : VRec), s.ejt.recs.find? (fun v => v.handle == h.toNat && !v.isLost &&
    !v.copied) = some v ∧ v.settled ≠ none ∧ v.te ≤ (s.now : Int)) :=
  ⟨⟨run, by decide +kernel⟩,
    ⟨fly (rcs [vr]) 7 1 50, ⟨3, 0, ent 7 1 3, 50⟩, rest, by decide +kernel⟩,
    ⟨at_ (fly (rcs [vr]) 8 1 50) 60, 3, 0, ent 8 1 3, 8, 1, 50, rest, by decide +kernel⟩,
    ⟨at_ (fly (rcs [vr]) 7 1 50) 60, 3, 0, ent 7 1 3, 7, 1, 50, rest, vr, by decide +kernel⟩,
    ⟨at_ (fly (rcs [stl]) 7 1 50) 60, 3, 0, ent 7 1 3, 7, 1, 50, rest, stl, by decide +kernel⟩,
    ⟨at_ (fly (rcs [vr]) 7 1 50) 700000, 3, 0, ent 7 1 3, 7, 1, 50, rest, vr, by decide +kernel⟩,
    ⟨7, rcs [vr], vr, by decide +kernel⟩,
    ⟨7, at_ (rcs [vr]) 700000, vr, by decide +kernel⟩,
    ⟨7, rcs [stl], stl, by decide +kernel⟩,
    ⟨7, at_ (rcs [stl]) 1000000, stl, by decide +kernel⟩⟩
/-- States and operands that meet the hypotheses of EjectorsDriveTheirValves, clause by clause. -/
theorem test_ejectorsDriveTheirValves :
  (∃ (v : Word) (s : State), bit v 31 = true ∧ s.flag .ejt EJT_STATUS 3 = true) ∧
  (∃ (v : Word) (s : State), bit v 31 = true ∧ s.flag .ejt EJT_STATUS 3 = false) ∧
  (∃ (s : State) (k a : Nat), s.ejt.load = none) ∧
  (∃ (s : State) (k a : Nat), s.ejt.load = some (true, k, a)) ∧
  (∃ (s : State) (k a : Nat), s.ejt.load = some (false, k, a)) ∧
  (∃ (v : Word) (s : State), bit v 0 = false) ∧
  (∃ (v : Word) (s : State), bit v 0 = true) ∧
  (∃ (n : Fin 8) (s : State) (j : Nat), (ejBus s n).slot = some j ∧ frameSlot s.now ≤ j) ∧
  (∃ (n : Fin 8) (s : State) (j : Nat), (ejBus s n).slot = some j ∧ s.flag .ejt (EJT_BUS_CTRL n) 31 = false) ∧
  (∃ (n : Fin 8) (s : State) (j : Nat), (ejBus s n).slot = some j ∧ j < frameSlot s.now ∧ s.flag .ejt (EJT_BUS_CTRL
    n) 31 = true ∧ s.outputsOn = true) ∧
  (∃ (n : Fin 8) (frame : BitVec 64) (s : State), s.flag .ejt (EJT_BUS_CTRL n) 30 = false) ∧
  (∃ (n : Fin 8) (frame : BitVec 64) (s : State), s.flag .ejt (EJT_BUS_CTRL n) 30 = true ∧ nbits frame.toNat 63 48 =
    0x4C70 ∧ crc16 32 (nbits frame.toNat 47 16) = nbits frame.toNat 15 0) ∧
  (∃ (n : Fin 8) (frame : BitVec 64) (s : State), s.flag .ejt (EJT_BUS_CTRL n) 30 = true ∧ nbits frame.toNat 63 48 ≠
    0x4C70) ∧
  (∃ (n : Fin 8) (s : State), s.now / 5000 < (ejBus s n).retSlot + 9) ∧
  (∃ (n : Fin 8) (s : State), (ejBus s n).retSlot + 9 ≤ s.now / 5000 ∧ s.flag .ejt (EJT_BUS_CTRL n) 30 = true ∧
    s.flag .ejt (EJT_BUS_STATUS n) 17 = false) :=
  ⟨⟨0xD0000000, run.setb .ejt EJT_STATUS 3 true, by decide +kernel⟩,
    ⟨0xD0000000, run, by decide +kernel⟩,
    ⟨run, 0, 0, by decide +kernel⟩,
    ⟨loading true, 2, 4096, by decide +kernel⟩,
    ⟨loading false, 2, 4096, by decide +kernel⟩,
    ⟨0, fresh1, by decide +kernel⟩,
    ⟨1, fresh1, by decide +kernel⟩,
    ⟨0, at_ (busOn (rcs [stl])) 500000, 100, by decide +kernel⟩,
    ⟨0, at_ ((busOn (rcs [stl])).wr .ejt (EJT_BUS_CTRL 0) 0) 900000, 100, by decide +kernel⟩,
    ⟨0, at_ (busOn (rcs [stl])) 900000, 100, by decide +kernel⟩,
    ⟨0, frm, run, by decide +kernel⟩,
    ⟨0, frm, at_ (busOn run) 900000, by decide +kernel⟩,
    ⟨0, 77, busOn run, by decide +kernel⟩,
    ⟨0, at_ (busOn run) 94000, by decide +kernel⟩,
    ⟨0, at_ (busOn run) 95000, by decide +kernel⟩⟩
end W014

namespace W016
def st1 : LegSet := { period := 1000, duty := 400, deadLh := 10, deadHl := 10, blank := 20, delay := 5 }
def leg (f : LegSt → LegSt) : State := ((({ run with time := { run.time with tb := 1000 } } : State).wr .pwm
  (PWM_CTRL 2) 0x80000000).onPwm 2 (fun l => f { l with act := st1, shadow := st1 }))
def strobe (s : State) : State := s.wr .pwm (PWM_CTRL 2) 0xC0000000
def rel (r : Nat) : State := leg (fun l => { l with starts := [(r, 1)] })
def cyc (c : Nat) : State := leg (fun l => { l with cycle := some c })
def oc (s : State) : State := s.setb .pwm (PWM_STATUS 2) 2 true
def grp (s : State) : State := let s := (s.setb .pwm (PWM_GRP_STATUS 0) 0 true).setb .pwm (PWM_STATUS 2) 1 true;
  { s with pwm := { s.pwm with grpAt := Tab.set (fun _ => none) s.pwm.grpAt 0 (some 7) } }
/-- States and operands that meet the hypotheses of LegsReloadStrobeAndTrip, clause by clause. -/
theorem test_legsReloadStrobeAndTrip :
  (∃ (n : Fin 8) (s u : State) (r : Nat), u = s.pwmSettle n (halfNow s) ∧ pwmNextReload u n = some r ∧ (halfNow s < r
    ∨ pwmRuns u n = false)) ∧
  (∃ (n : Fin 8) (s u : State) (r : Nat), u = s.pwmSettle n (halfNow s) ∧ pwmNextReload u n = some r ∧ r ≤ halfNow s
    ∧ pwmRuns u n = true) ∧
  (∃ (n : Fin 8) (s u : State) (x : Nat × Nat) (es : List (Nat × Nat)), (pwmLeg s n).events = x :: es ∧ u = (s.onPwm
    n (fun l => { l with events := es })).pwmSettle n (halfNow s) ∧ (pwmLeg s n).busy (halfNow s) = false) ∧
  (∃ (n : Fin 8) (s u : State) (x : Nat × Nat) (es : List (Nat × Nat)), (pwmLeg s n).events = x :: es ∧ u = (s.onPwm
    n (fun l => { l with events := es })).pwmSettle n (halfNow s) ∧ (pwmLeg s n).busy (halfNow s) = true ∧ (pwmLeg u
    n).pending = none) ∧
  (∃ (n : Fin 8) (s u : State) (x : Nat × Nat) (es : List (Nat × Nat)), (pwmLeg s n).events = x :: es ∧ u = (s.onPwm
    n (fun l => { l with events := es })).pwmSettle n (halfNow s) ∧ (pwmLeg s n).busy (halfNow s) = true ∧ (pwmLeg u
    n).pending ≠ none) ∧
  (∃ (n : Fin 8) (s u : State) (c : Nat), (pwmLeg s n).cycle = some c ∧ u = s.pwmSettle n (halfNow s) ∧ halfNow s < c
    + 5 * (pwmLeg s n).act.period) ∧
  (∃ (n : Fin 8) (s u : State) (c : Nat), (pwmLeg s n).cycle = some c ∧ u = s.pwmSettle n (halfNow s) ∧ c + 5 *
    (pwmLeg s n).act.period ≤ halfNow s ∧ pwmStrobe u n = true) ∧
  (∃ (n : Fin 8) (k : Fin 5) (v : Word) (s u : State), u = s.pwmSettle n (halfNow s) ∧ (pwmLeg u n).next = none) ∧
  (∃ (n : Fin 8) (level : Bool) (first : BitVec 64) (s : State) (a : Nat), a = first.toNat * 2 + 5 * s.fld .pwm
    (PWM_CTRL n) 26 23 ∧ level = s.flag .pwm (PWM_CTRL n) 28 ∧ a ≤ halfNow s) ∧
  (∃ (n : Fin 8) (level : Bool) (first : BitVec 64) (s : State) (a : Nat), a = first.toNat * 2 + 5 * s.fld .pwm
    (PWM_CTRL n) 26 23 ∧ halfNow s < a ∧ s.flag .pwm (PWM_STATUS n) 2 = false) ∧
  (∃ (n : Fin 8) (level : Bool) (first : BitVec 64) (s : State) (a : Nat), ∃ c e, a = first.toNat * 2 + 5 * s.fld
    .pwm (PWM_CTRL n) 26 23 ∧ level ≠ s.flag .pwm (PWM_CTRL n) 28 ∧ s.flag .pwm (PWM_STATUS n) 2 = false ∧ a ≤
    halfNow s ∧ (pwmLeg s n).cycle = some c ∧ (pwmLeg s n).ocAt = none ∧ pwmRuns s n = true ∧ e = max a (c + 5 *
    ((pwmLeg s n).act.deadLh + (pwmLeg s n).act.blank)) ∧ e < c + 5 * ((pwmLeg s n).act.deadLh + (pwmLeg s
    n).act.high) ∧ e ≤ halfNow s) ∧
  (∃ (n : Fin 8) (level : Bool) (first : BitVec 64) (s : State), level ≠ s.flag .pwm (PWM_CTRL n) 27 ∧ first.toNat *
    2 + 5 ≤ halfNow s ∧ s.flag .pwm (PWM_STATUS n) 0 = false) ∧
  (∃ (n : Fin 8) (s : State), s.flag .pwm (PWM_STATUS n) 3 = true) ∧
  (∃ (n : Fin 8) (s : State), s.flag .pwm (PWM_STATUS n) 3 = false ∧ s.flag .pwm (PWM_STATUS n) 1 = false ∧ s.flag
    .pwm (PWM_STATUS n) 0 = true) ∧
  (∃ (g : Fin 2) (s : State), s.flag .pwm (PWM_GRP_STATUS g) 0 = false) ∧
  (∃ (g : Fin 2) (s : State), ∃ t0, s.flag .pwm (PWM_GRP_STATUS g) 0 = true ∧ Tab.get (fun _ => none) s.pwm.grpAt g =
    some t0 ∧ t0 + 10000000 ≤ s.now ∧ groupSc s g = false) :=
  ⟨⟨2, rel 3000, (rel 3000).pwmSettle 2 (halfNow (rel 3000)), 3000, by decide +kernel⟩,
    ⟨2, rel 1999, (rel 1999).pwmSettle 2 (halfNow (rel 1999)), 1999, by decide +kernel⟩,
    ⟨2, strobe (leg (fun l => { l with events := [(7, 1), (8, 1)] })), ((strobe (leg (fun l =>
      { l with events := [(7, 1), (8, 1)] }))).onPwm 2 (fun l => { l with events := [(8, 1)] })).pwmSettle 2 (halfNow
      (strobe (leg (fun l => { l with events := [(7, 1), (8, 1)] })))), (7, 1), [(8, 1)], by decide +kernel⟩,
    ⟨2, strobe (leg (fun l => { l with events := [(7, 1), (8, 1)], cycle := some 5 })), ((strobe (leg (fun l =>
      { l with events := [(7, 1), (8, 1)], cycle := some 5 }))).onPwm 2 (fun l =>
      { l with events := [(8, 1)] })).pwmSettle 2 (halfNow (strobe (leg (fun l =>
      { l with events := [(7, 1), (8, 1)], cycle := some 5 })))), (7, 1), [(8, 1)], by decide +kernel⟩,
    ⟨2, strobe (leg (fun l => { l with events := [(7, 1), (8, 1)], cycle := some 5, pending := some (6, 1) })),
      ((strobe (leg (fun l => { l with events := [(7, 1), (8, 1)], cycle := some 5, pending := some (6, 1) }))).onPwm
      2 (fun l => { l with events := [(8, 1)] })).pwmSettle 2 (halfNow (strobe (leg (fun l =>
      { l with events := [(7, 1), (8, 1)], cycle := some 5, pending := some (6, 1) })))), (7, 1), [(8, 1)],
      by decide +kernel⟩,
    ⟨2, strobe (oc (cyc 1000)), (strobe (oc (cyc 1000))).pwmSettle 2 (halfNow (strobe (oc (cyc 1000)))), 1000,
      by decide +kernel⟩,
    ⟨2, at_ (strobe (oc (cyc 1000))) 3000, (at_ (strobe (oc (cyc 1000))) 3000).pwmSettle 2 (halfNow (at_ (strobe (oc
      (cyc 1000))) 3000)), 1000, by decide +kernel⟩,
    ⟨2, 1, 100, cyc 1000, (cyc 1000).pwmSettle 2 (halfNow (cyc 1000)), by decide +kernel⟩,
    ⟨2, false, 900, oc (cyc 1700), 1800, by decide +kernel⟩,
    ⟨2, true, 1001, cyc 1700, 2002, by decide +kernel⟩,
    ⟨2, true, 950, cyc 1700, 1900, 1700, 1900, by decide +kernel⟩,
    ⟨2, true, 900, cyc 1700, by decide +kernel⟩,
    ⟨2, run.setb .pwm (PWM_STATUS 2) 3 true, by decide +kernel⟩,
    ⟨2, (cyc 1700).setb .pwm (PWM_STATUS 2) 0 true, by decide +kernel⟩,
    ⟨0, run, by decide +kernel⟩,
    ⟨0, at_ (grp (cyc 5)) 10000007, 7, by decide +kernel⟩⟩
end W016

namespace W017
def wTmpl : List Byte := padTo 64 ([0#8, 0x11#8, 0#8, 0#8] ++ leBytes 2 3 ++ leBytes 2 0 ++ leBytes 8 (200 * 2097152)
  ++ leBytes 8 (210 * 2097152) ++ leBytes 4 64 ++ leBytes 4 1)
def wImg : Image := ⟨1, 0, ⟨[0], [], [⟨5, 1, 4, 4, 1000⟩], [⟨5, 2, 100, 4⟩, ⟨5, 0, 200, 64⟩]⟩, [⟨3, 1, wTmpl⟩]⟩
def mapped (s : State) : State := { s with seq := { s.seq with active := some wImg } }
def prog (ws : List Dword) : Program :=
  { stream := 5, initOnSwap := false, entry := [0,0,0,0], budget := [5000,5000,5000,5000], minLine := 0, minEvent := 0, tickPeriod := 1000, tickPhase := 0, subs := List.replicate 8 0xC000, xInit := (List.range 16).map (fun i => BitVec.ofNat 32 (i + 3)), code := ws }
def unit4 (f : SeqUnit → SeqUnit) (s : State) : State := s.onSeq 4 f
def idleS (ws : List Dword) : State := (unit4 (fun u => { u with bank0 := some (prog ws), bank1 := some (prog ws) })
  (mapped ((run.wr .pix (PIX_SRC 5) 0x83000100).wr .seq (SEQ_CTRL 4) 0))).seqGo 4 1
def slot0 : SlotSt :=
  { kind := 0, pc := 0, start := 100, used := 3, loops := [(0, 1, 3)], x := (List.range 16).map (fun i => BitVec.ofNat 32 (i * 77 + 5)), motion := [], evArg := 0#32, waiting := none }
def withSlot (sl : SlotSt) (s : State) : State := (unit4 (fun u => { u with slot := some sl }) s).seqGo 4 2
def runs (ws : List Dword) : State := withSlot slot0 (idleS ws)
def cause (k : Nat) (s : State) : State := unit4 (fun u => { u with causes := [(k, 9#32), (k, 8#32)] }) s
def nopW : Dword := instrWord 0 0 0 0 0 0#32
def pendK (k : Nat) (s : State) : State := s.setb .seq (SEQ_STATUS 4) (8 + k) true
def halted : State := (idleS [nopW]).seqGo 4 3
def swp : State :=
  { (idleS [nopW]) with seq := { (idleS [nopW]).seq with staged := some wImg, swap := some ⟨[4, 5, 32], some 7⟩ } }
  |>.setb .pix (PIX_SRC 5) 31 false
def A (op d a b t : Nat) (imm : Word) : State := runs [instrWord op d a b t imm]
def evp (s : State) : State := s.setb .seq (SEQ_EVPEND 4) 3 true
def wslot (k : Nat) : SlotSt := { slot0 with waiting := some k }
def ww : Dword := waitWord 9 50 false 3
def dmaOwn (s : State) : State := (s.wr .dma (DMA_CH_OWNER 7) 0x80010000)
def fullQ (s : State) : State :=
  { s with dma := { s.dma with ch := Tab.set (fun _ => DmaCh.init) [] 7 { DmaCh.init with queue := List.replicate 64 (Desc.ofBytes wTmpl 0 0 true) } } }
def dq : BitVec 32 := BitVec.ofNat 32 7
/-- States and operands that meet the hypotheses of SlotsStartWaitAndEnd, clause by clause. -/
theorem test_slotsStartWaitAndEnd :
  (∃ (q : Fin 33) (s : State) (p : Program) (e : Nat) (arg : Word), activeProg s q = some p ∧ p.entryOf 1 = some e ∧
    seqState s q = 1 ∧ (s.seqU q).causes.find? (fun c => c.1 == 1) = some (1, arg)) ∧
  (∃ (q : Fin 33) (s : State) (p : Program) (e : Nat) (arg : Word), activeProg s q = some p ∧ p.entryOf 0 = some e ∧
    seqState s q = 1 ∧ (s.seqU q).causes.find? (fun c => c.1 == 0) = some (0, arg) ∧ (s.seqU q).causes.any (fun c =>
    c.1 == 1) = false) ∧
  (∃ (q : Fin 33) (s : State) (p : Program) (e : Nat) (arg : Word), activeProg s q = some p ∧ p.entryOf 2 = some e ∧
    seqState s q = 1 ∧ (s.seqU q).causes.find? (fun c => c.1 == 2) = some (2, arg)) ∧
  (∃ (q : Fin 33) (s : State) (p : Program) (k e : Nat) (arg : Word) (c : Instr), (c, k) ∈ [(Instr.stripSlot q, 1),
    (Instr.lineSlot q, 0), (Instr.eventSlot q, 2)] ∧ activeProg s q = some p ∧ (s.seqU q).causes.find? (fun c => c.1
    == k) = some (k, arg) ∧ ((k = 0 → (s.seqU q).causes.any (fun c => c.1 == 1) = false ∧ (s.seqU q).lastLine =
    none)) ∧ ((k = 2 → (s.seqU q).lastEvent = none)) ∧ seqState s q = 1 ∧ p.entryOf k = some e) ∧
  (∃ (q : Fin 33) (s : State) (p : Program) (k e : Nat) (arg : Word) (c : Instr), (c, k) ∈ [(Instr.stripSlot q, 1),
    (Instr.lineSlot q, 0), (Instr.eventSlot q, 2)] ∧ activeProg s q = some p ∧ (s.seqU q).causes.find? (fun c => c.1
    == k) = some (k, arg) ∧ ((k = 0 → (s.seqU q).causes.any (fun c => c.1 == 1) = false ∧ (s.seqU q).lastLine =
    none)) ∧ ((k = 2 → (s.seqU q).lastEvent = none)) ∧ seqState s q = 2 ∧ slotPending s q k = false) ∧
  (∃ (q : Fin 33) (s : State) (p : Program) (k e : Nat) (arg : Word) (c : Instr), (c, k) ∈ [(Instr.stripSlot q, 1),
    (Instr.lineSlot q, 0), (Instr.eventSlot q, 2)] ∧ activeProg s q = some p ∧ (s.seqU q).causes.find? (fun c => c.1
    == k) = some (k, arg) ∧ ((k = 0 → (s.seqU q).causes.any (fun c => c.1 == 1) = false ∧ (s.seqU q).lastLine =
    none)) ∧ ((k = 2 → (s.seqU q).lastEvent = none)) ∧ seqState s q = 2 ∧ slotPending s q k = true ∧ s.flag .seq
    (SEQ_CTRL q) 0 = false) ∧
  (∃ (q : Fin 33) (s : State) (p : Program) (e : Nat), activeProg s q = some p ∧ p.entryOf 3 = some e ∧ seqState s q
    = 1 ∧ s.seq.swap = none ∧ tickDue p ((s.seqU q).lastTick.getD 0) s.now = false) ∧
  (∃ (q : Fin 33) (s : State) (p : Program) (e : Nat), activeProg s q = some p ∧ p.entryOf 3 = some e ∧ seqState s q
    = 1 ∧ s.seq.swap = none ∧ tickDue p ((s.seqU q).lastTick.getD 0) s.now = true) ∧
  (∃ (q : Fin 33) (s : State) (sl : SlotSt), slotAt s q (instrWord 0x01 0 0 0 0 0#32) 1 = some sl ∧ sl.x.length = 16
    ∧ s.fld .seq (SEQ_STATUS q) 11 8 = 0) ∧
  (∃ (q : Fin 33) (s : State) (p : Program) (sl : SlotSt), runningSlot s q = some (p, sl) ∧ s.flag .seq (SEQ_CTRL q)
    0 = false ∧ s.fld .seq (SEQ_STATUS q) 11 8 = 0 ∧ budgetOver s q = false) ∧
  (∃ (q : Fin 33) (s : State) (p : Program) (sl : SlotSt), runningSlot s q = some (p, sl) ∧ s.flag .seq (SEQ_CTRL q)
    0 = false ∧ s.fld .seq (SEQ_STATUS q) 11 8 = 0 ∧ budgetOver s q = true) ∧
  (∃ (q : Fin 33) (s : State) (p : Program) (sl : SlotSt), ∃ w, runningSlot s q = some (p, sl) ∧ s.flag .seq
    (SEQ_CTRL q) 0 = false ∧ s.fld .seq (SEQ_STATUS q) 11 8 = 0 ∧ p.code[sl.pc]? = some w ∧ opCycles (wordOp w) =
    none) ∧
  (∃ (q : Fin 33) (s : State) (p : Program) (sl : SlotSt), runningSlot s q = some (p, sl) ∧ s.flag .seq (SEQ_CTRL q)
    0 = false ∧ s.fld .seq (SEQ_STATUS q) 11 8 = 0) ∧
  (∃ (q : Fin 33) (s : State) (p : Program) (sl : SlotSt), runningSlot s q = some (p, sl) ∧ s.flag .seq (SEQ_CTRL q)
    0 = false ∧ s.fld .seq (SEQ_STATUS q) 11 8 = 0) ∧
  (∃ (q : Fin 33) (hof : Bool) (s : State), s.fld .seq (SEQ_STATUS q) 11 8 = 0 ∧ seqState s q = 3) ∧
  (∃ (q : Fin 33) (hof : Bool) (s : State), ∃ p, s.fld .seq (SEQ_STATUS q) 11 8 = 0 ∧ seqState s q = 3 ∧ activeProg s
    q = some p ∧ p.xInit.length = 16) ∧
  (∃ (q : Fin 33) (hof : Bool) (s : State), s.fld .seq (SEQ_STATUS q) 11 8 = 0 ∧ seqState s q ≠ 3) ∧
  (∃ (q : Fin 33) (s : State), switchAtOnce s q = false) ∧
  (∃ (q : Fin 33) (s : State), ∃ w i p, switchAtOnce s q = true ∧ s.seq.swap = some w ∧ s.seq.staged = some i ∧
    w.left.contains q.val = true ∧ q.val < 32 ∧ w.left.erase q.val ≠ [32] ∧ (s.seqU q).prog (!s.flag .seq (SEQ_STATUS
    q) 29) = some p) :=
  ⟨⟨4, cause 1 (idleS [nopW]), prog [nopW], 0, 9, by decide +kernel⟩,
    ⟨4, cause 0 (idleS [nopW]), prog [nopW], 0, 9, by decide +kernel⟩,
    ⟨4, cause 2 (idleS [nopW]), prog [nopW], 0, 9, by decide +kernel⟩,
    ⟨4, cause 1 (idleS [nopW]), prog [nopW], 1, 0, 9, .stripSlot 4, by decide +kernel⟩,
    ⟨4, cause 0 (runs [nopW]), prog [nopW], 0, 0, 9, .lineSlot 4, by decide +kernel⟩,
    ⟨4, pendK 2 (cause 2 (runs [nopW])), prog [nopW], 2, 0, 9, .eventSlot 4, by decide +kernel⟩,
    ⟨4, unit4 (fun u => { u with lastTick := some 3000 }) (at_ (idleS [nopW]) 3001), prog [nopW], 0,
      by decide +kernel⟩,
    ⟨4, unit4 (fun u => { u with lastTick := some 2999 }) (at_ (idleS [nopW]) 3001), prog [nopW], 0,
      by decide +kernel⟩,
    ⟨4, A 1 0 0 0 0 0, slot0, by decide +kernel⟩,
    ⟨4, runs [nopW], prog [nopW], slot0, by decide +kernel⟩,
    ⟨4, withSlot { slot0 with used := 5000 } (runs [nopW]), prog [nopW], { slot0 with used := 5000 },
      by decide +kernel⟩,
    ⟨4, A 0xFF 0 0 0 0 0, prog [instrWord 0xFF 0 0 0 0 0], slot0, instrWord 0xFF 0 0 0 0 0, by decide +kernel⟩,
    ⟨4, runs [nopW], prog [nopW], slot0, by decide +kernel⟩,
    ⟨4, runs [nopW], prog [nopW], slot0, by decide +kernel⟩,
    ⟨4, true, halted, by decide +kernel⟩,
    ⟨4, true, halted, prog [nopW], by decide +kernel⟩,
    ⟨4, true, idleS [nopW], by decide +kernel⟩,
    ⟨4, idleS [nopW], by decide +kernel⟩,
    ⟨4, swp, ⟨[4, 5, 32], some 7⟩, wImg, prog [nopW], by decide +kernel⟩⟩
/-- States and operands that meet the hypotheses of SequencerArithmetic, clause by clause. -/
theorem test_sequencerArithmetic :
  (∃ (q : Fin 33) (d a b : Fin 16) (imm : Word) (n : Fin 32) (sl : SlotSt) (s : State), slotAt s q (instrWord 0x00 0
    0 0 0 0#32) 1 = some sl) ∧
  (∃ (q : Fin 33) (d a b : Fin 16) (imm : Word) (n : Fin 32) (sl : SlotSt) (s : State), slotAt s q (instrWord 0x02 d
    0 0 0 imm) 1 = some sl) ∧
  (∃ (q : Fin 33) (d a b : Fin 16) (imm : Word) (n : Fin 32) (sl : SlotSt) (s : State), slotAt s q (instrWord 0x03 d
    a 0 0 0#32) 1 = some sl) ∧
  (∃ (q : Fin 33) (d a b : Fin 16) (imm : Word) (n : Fin 32) (sl : SlotSt) (s : State), slotAt s q (instrWord 0x04 d
    a 0 0 imm) 1 = some sl) ∧
  (∃ (q : Fin 33) (d a b : Fin 16) (imm : Word) (n : Fin 32) (sl : SlotSt) (s : State), slotAt s q (instrWord 0x05 d
    a b 0 0#32) 1 = some sl) ∧
  (∃ (q : Fin 33) (d a b : Fin 16) (imm : Word) (n : Fin 32) (sl : SlotSt) (s : State), slotAt s q (instrWord 0x06 d
    a b 0 0#32) 1 = some sl) ∧
  (∃ (q : Fin 33) (d a b : Fin 16) (imm : Word) (n : Fin 32) (sl : SlotSt) (s : State), slotAt s q (instrWord 0x07 d
    a 0 0 imm) 1 = some sl) ∧
  (∃ (q : Fin 33) (d a b : Fin 16) (imm : Word) (n : Fin 32) (sl : SlotSt) (s : State), slotAt s q (instrWord 0x08 d
    a b 0 0#32) 1 = some sl) ∧
  (∃ (q : Fin 33) (d a b : Fin 16) (imm : Word) (n : Fin 32) (sl : SlotSt) (s : State), slotAt s q (instrWord 0x09 d
    a b 0 0#32) 1 = some sl) ∧
  (∃ (q : Fin 33) (d a b : Fin 16) (imm : Word) (n : Fin 32) (sl : SlotSt) (s : State), slotAt s q (instrWord 0x0A d
    a b 0 0#32) 1 = some sl) ∧
  (∃ (q : Fin 33) (d a b : Fin 16) (imm : Word) (n : Fin 32) (sl : SlotSt) (s : State), slotAt s q (instrWord 0x0B d
    a 0 0 (BitVec.ofNat 32 n)) 1 = some sl) ∧
  (∃ (q : Fin 33) (d a b : Fin 16) (imm : Word) (n : Fin 32) (sl : SlotSt) (s : State), slotAt s q (instrWord 0x0C d
    a 0 0 (BitVec.ofNat 32 n)) 1 = some sl) ∧
  (∃ (q : Fin 33) (d a b : Fin 16) (imm : Word) (n : Fin 32) (sl : SlotSt) (s : State), slotAt s q (instrWord 0x0D d
    a 0 0 imm) 1 = some sl) ∧
  (∃ (q : Fin 33) (d a b : Fin 16) (imm : Word) (n : Fin 32) (sl : SlotSt) (s : State), ∃ (u : Fin 128) (sel : Fin
    15) (arg : Byte), slotAt s q (instrWord 0x10 d 0 0 u (BitVec.ofNat 32 (sel * 256 + arg.toNat))) 4 = some sl) ∧
  (∃ (q : Fin 33) (d a b : Fin 16) (imm : Word) (n : Fin 32) (sl : SlotSt) (s : State), slotAt s q (instrWord 0x11 d
    0 0 0 0#32) 2 = some sl) ∧
  (∃ (q : Fin 33) (d a b : Fin 16) (imm : Word) (n : Fin 32) (sl : SlotSt) (s : State), ∃ (u : Fin 128) (sel : Fin
    15) (arg : Byte) (c : Instr) (w : Dword) (k : Nat), (c, w, k) ∈ [(Instr.nop q, instrWord 0x00 0 0 0 0 0#32, 1),
    (Instr.movi q d imm, instrWord 0x02 d 0 0 0 imm, 1), (Instr.mov q d a, instrWord 0x03 d a 0 0 0#32, 1),
    (Instr.addi q d a imm, instrWord 0x04 d a 0 0 imm, 1), (Instr.add q d a b, instrWord 0x05 d a b 0 0#32, 1),
    (Instr.sub q d a b, instrWord 0x06 d a b 0 0#32, 1), (Instr.adds q d a imm, instrWord 0x07 d a 0 0 imm, 1),
    (Instr.and q d a b, instrWord 0x08 d a b 0 0#32, 1), (Instr.or q d a b, instrWord 0x09 d a b 0 0#32, 1),
    (Instr.xor q d a b, instrWord 0x0A d a b 0 0#32, 1), (Instr.shl q d a n, instrWord 0x0B d a 0 0 (BitVec.ofNat 32
    n), 1), (Instr.shr q d a n, instrWord 0x0C d a 0 0 (BitVec.ofNat 32 n), 1), (Instr.andi q d a imm, instrWord 0x0D
    d a 0 0 imm, 1), (Instr.lds q d u sel arg, instrWord 0x10 d 0 0 u (BitVec.ofNat 32 (sel * 256 + arg.toNat)), 4),
    (Instr.stamp q d, instrWord 0x11 d 0 0 0 0#32, 2)] ∧ slotAt s q w k = none) :=
  ⟨⟨4, 1, 2, 3, 0x1234, 5, slot0, A 0 0 0 0 0 0, by decide +kernel⟩,
    ⟨4, 1, 2, 3, 0x1234, 5, slot0, A 2 1 0 0 0 0x1234, by decide +kernel⟩,
    ⟨4, 1, 2, 3, 0x1234, 5, slot0, A 3 1 2 0 0 0, by decide +kernel⟩,
    ⟨4, 1, 2, 3, 0x1234, 5, slot0, A 4 1 2 0 0 0x1234, by decide +kernel⟩,
    ⟨4, 1, 2, 3, 0x1234, 5, slot0, A 5 1 2 3 0 0, by decide +kernel⟩,
    ⟨4, 1, 2, 3, 0x1234, 5, slot0, A 6 1 2 3 0 0, by decide +kernel⟩,
    ⟨4, 1, 2, 3, 0xFFFFFF65, 5, slot0, A 7 1 2 0 0 0xFFFFFF65, by decide +kernel⟩,
    ⟨4, 1, 2, 3, 0x1234, 5, slot0, A 8 1 2 3 0 0, by decide +kernel⟩,
    ⟨4, 1, 2, 3, 0x1234, 5, slot0, A 9 1 2 3 0 0, by decide +kernel⟩,
    ⟨4, 1, 2, 3, 0x1234, 5, slot0, A 10 1 2 3 0 0, by decide +kernel⟩,
    ⟨4, 1, 2, 3, 0x1234, 5, slot0, A 11 1 2 0 0 5, by decide +kernel⟩,
    ⟨4, 1, 2, 3, 0x1234, 5, slot0, A 12 1 2 0 0 5, by decide +kernel⟩,
    ⟨4, 1, 2, 3, 0x1234, 5, slot0, A 13 1 2 0 0 0x1234, by decide +kernel⟩,
    ⟨4, 1, 2, 3, 0x1234, 5, slot0, A 0x10 1 0 0 5 0x803, 5, 8, 3, by decide +kernel⟩,
    ⟨4, 1, 2, 3, 0x1234, 5, slot0, A 0x11 1 0 0 0 0, by decide +kernel⟩,
    ⟨4, 1, 2, 3, 0x1234, 5, slot0, A 0x11 2 0 0 0 0, 1, 2, 3, Instr.stamp 4 1, instrWord 0x11 1 0 0 0 0#32, 2,
      by decide +kernel⟩⟩
/-- States and operands that meet the hypotheses of SequencerControlFlow, clause by clause. -/
theorem test_sequencerControlFlow :
  (∃ (q : Fin 33) (a b : Fin 16) (g : Fin 4096) (n : Fin 32) (sl : SlotSt) (s : State), slotAt s q (instrWord 0x20 0
    0 0 g 0#32) 2 = some sl) ∧
  (∃ (q : Fin 33) (a b : Fin 16) (g : Fin 4096) (n : Fin 32) (sl : SlotSt) (s : State), ∃ (cond : Fin 6) (k : Bool)
    (imm : BitVec 27), slotAt s q (instrWord 0x21 0 a b g (BitVec.ofNat 32 (cond * 2 ^ 28 + b2n k * 2 ^ 27 +
    imm.toNat))) 2 = some sl) ∧
  (∃ (q : Fin 33) (a b : Fin 16) (g : Fin 4096) (n : Fin 32) (sl : SlotSt) (s : State), slotAt s q (instrWord 0x22 0
    a 0 g (BitVec.ofNat 32 n)) 2 = some sl) ∧
  (∃ (q : Fin 33) (a b : Fin 16) (g : Fin 4096) (n : Fin 32) (sl : SlotSt) (s : State), slotAt s q (instrWord 0x23 0
    a 0 g (BitVec.ofNat 32 n)) 2 = some sl) ∧
  (∃ (q : Fin 33) (g : Fin 4096) (consume : Bool) (i : Fin 8) (sl : SlotSt) (s : State), slotAt s q (instrWord 0x24 0
    0 0 g (BitVec.ofNat 32 (8 * b2n consume + i))) 2 = some sl ∧ (s.flag .seq (SEQ_EVPEND q) i = false ∨ consume =
    false)) ∧
  (∃ (q : Fin 33) (g : Fin 4096) (consume : Bool) (i : Fin 8) (sl : SlotSt) (s : State), slotAt s q (instrWord 0x24 0
    0 0 g (BitVec.ofNat 32 (8 * b2n consume + i))) 2 = some sl ∧ s.flag .seq (SEQ_EVPEND q) i = true ∧ consume = true
    ∧ Tab.get (fun _ => none) (s.seqU q).held i.val = none) ∧
  (∃ (q : Fin 33) (g : Fin 4096) (n : Fin 512) (sl : SlotSt) (s : State), slotAt s q (instrWord 0x25 0 0 0 g
    (BitVec.ofNat 32 n)) 2 = some sl) ∧
  (∃ (q : Fin 33) (g : Fin 4096) (limit : BitVec 20) (consume : Bool) (i : Fin 8) (sl : SlotSt) (s : State), slotAt s
    q (waitWord g limit consume i) 2 = some sl ∧ s.flag .seq (SEQ_EVPEND q) i = false) ∧
  (∃ (q : Fin 33) (g : Fin 4096) (limit : BitVec 20) (consume : Bool) (i : Fin 8) (sl : SlotSt) (s : State), slotAt s
    q (waitWord g limit consume i) 2 = some sl ∧ slotAt s q (waitWord g limit consume i) (2 + sl.waited s.now) = some
    sl ∧ s.flag .seq (SEQ_EVPEND q) i = true ∧ consume = false) ∧
  (∃ (q : Fin 33) (g : Fin 4096) (limit : BitVec 20) (consume : Bool) (i : Fin 8) (sl : SlotSt) (s : State), ∃ w,
    slotAt s q (waitWord g limit consume i) (2 + limit.toNat) = some sl ∧ sl.waiting = some w ∧ s.now - w <
    limit.toNat) ∧
  (∃ (q : Fin 33) (g : Fin 4096) (limit : BitVec 20) (consume : Bool) (i : Fin 8) (sl : SlotSt) (s : State), ∃ w,
    slotAt s q (waitWord g limit consume i) (2 + limit.toNat) = some sl ∧ sl.waiting = some w ∧ limit.toNat ≤ s.now -
    w ∧ s.flag .seq (SEQ_EVPEND q) i = false) :=
  ⟨⟨4, 2, 3, 9, 2, slot0, A 0x20 0 0 0 9 0, by decide +kernel⟩,
    ⟨4, 2, 3, 9, 2, slot0, A 0x21 0 2 3 9 0x20000000, 2, false, 0, by decide +kernel⟩,
    ⟨4, 2, 3, 9, 2, slot0, A 0x22 0 2 0 9 2, by decide +kernel⟩,
    ⟨4, 2, 3, 9, 2, slot0, A 0x23 0 2 0 9 2, by decide +kernel⟩,
    ⟨4, 9, true, 3, slot0, A 0x24 0 0 0 9 11, by decide +kernel⟩,
    ⟨4, 9, true, 3, slot0, evp (A 0x24 0 0 0 9 11), by decide +kernel⟩,
    ⟨4, 9, 7, slot0, A 0x25 0 0 0 9 7, by decide +kernel⟩,
    ⟨4, 9, 50, false, 3, slot0, runs [ww], by decide +kernel⟩,
    ⟨4, 9, 50, false, 3, wslot 100, evp (at_ (withSlot (wslot 100) (runs [ww])) 120), by decide +kernel⟩,
    ⟨4, 9, 50, false, 3, wslot 100, at_ (withSlot (wslot 100) (runs [ww])) 149, 100, by decide +kernel⟩,
    ⟨4, 9, 50, false, 3, wslot 100, at_ (withSlot (wslot 100) (runs [ww])) 150, 100, by decide +kernel⟩⟩
/-- States and operands that meet the hypotheses of SequencerActions, clause by clause. -/
theorem test_sequencerActions :
  (∃ (q : Fin 33) (n : Fin 96) (delay : BitVec 20) (sl : SlotSt) (s : State), slotAt s q (instrWord 0x30 0 0 0 n
    (delay.setWidth 32)) 1 = some sl ∧ s.flag .mot (TRG_CTRL n) 31 = true ∧ genMode s n = 5 ∧ (s.gen n).due.any (fun
    d => decide (s.now * 1000 < d)) = false) ∧
  (∃ (q : Fin 33) (n : Fin 96) (delay : BitVec 20) (sl : SlotSt) (s : State), slotAt s q (instrWord 0x30 0 0 0 n
    (delay.setWidth 32)) 1 = some sl ∧ s.flag .mot (TRG_CTRL n) 31 = true ∧ genMode s n = 5 ∧ (s.gen n).due.any (fun
    d => decide (s.now * 1000 < d)) = true) ∧
  (∃ (q : Fin 33) (n : Fin 96) (delay : BitVec 20) (sl : SlotSt) (s : State), slotAt s q (instrWord 0x30 0 0 0 n
    (delay.setWidth 32)) 1 = some sl ∧ (s.flag .mot (TRG_CTRL n) 31 = false ∨ genMode s n ≠ 5)) ∧
  (∃ (q : Fin 33) (n : Fin 96) (disarm : Bool) (sl : SlotSt) (s : State), slotAt s q (instrWord 0x31 0 0 0 n
    (BitVec.ofNat 32 (b2n disarm))) 1 = some sl) ∧
  (∃ (q : Fin 33) (n : Fin 96) (c : Fin 4) (sl : SlotSt) (s : State), slotAt s q (instrWord 0x32 0 0 0 n
    (BitVec.ofNat 32 c)) 1 = some sl) ∧
  (∃ (q : Fin 33) (n : Fin 96) (a : Fin 16) (k : Fin 128) (sl : SlotSt) (s : State), slotAt s q (instrWord 0x33 0 a 0
    n (BitVec.ofNat 32 k)) 12 = some sl) ∧
  (∃ (q : Fin 33) (n : Fin 96) (index : Fin 16) (kind : Fin 3) (sl : SlotSt) (s : State), slotAt s q (instrWord 0x34
    0 0 0 n (BitVec.ofNat 32 (index * 16 + kind))) 1 = some sl) ∧
  (∃ (q : Fin 33) (a b : Fin 16) (psrc pdst : Bool) (tmpl : Fin 1024) (ch : Fin 64) (sl : SlotSt) (s : State) (i :
    Image) (act : Nat) (bs : List Byte), slotAt s q (instrWord 0x35 0 a b 0 (BitVec.ofNat 32 (b2n psrc * 2 ^ 31 + b2n
    pdst * 2 ^ 30 + tmpl * 2 ^ 8 + ch))) 4 = some sl ∧ seqImage s q = some i ∧ seqActivity s i q = some act ∧
    template i act tmpl (if psrc then some (sl.getX a) else none) (if pdst then some (sl.getX b) else none) = some bs
    ∧ 64 ≤ (s.dmaCh ch).queue.length) ∧
  (∃ (q : Fin 33) (a b : Fin 16) (psrc pdst : Bool) (tmpl : Fin 1024) (ch : Fin 64) (sl : SlotSt) (s : State) (i :
    Image) (act : Nat) (bs : List Byte), slotAt s q (instrWord 0x35 0 a b 0 (BitVec.ofNat 32 (b2n psrc * 2 ^ 31 + b2n
    pdst * 2 ^ 30 + tmpl * 2 ^ 8 + ch))) 4 = some sl ∧ seqImage s q = some i ∧ seqActivity s i q = some act ∧
    template i act tmpl (if psrc then some (sl.getX a) else none) (if pdst then some (sl.getX b) else none) = some bs
    ∧ (s.dmaCh ch).queue.length < 64 ∧ descStatus s ch bs (Desc.ofBytes bs (leAt bs 4 2) 0 true) 0 (some act) = 0) ∧
  (∃ (q : Fin 33) (a : Fin 16) (ch : Fin 256) (sl : SlotSt) (s : State), slotAt s q (instrWord 0x36 0 a 0 0
    (BitVec.ofNat 32 ch)) 1 = some sl) ∧
  (∃ (q : Fin 33) (a : Fin 16) (imm : BitVec 16) (sl : SlotSt) (s : State), slotAt s q (instrWord 0x37 0 a 0 0
    (imm.setWidth 32)) 2 = some sl) :=
  ⟨⟨4, 5, 300, slot0, (A 0x30 0 0 0 5 300).wr .mot (TRG_CTRL 5) 0xD0000000, by decide +kernel⟩,
    ⟨4, 5, 300, slot0, ((A 0x30 0 0 0 5 300).wr .mot (TRG_CTRL 5) 0xD0000000).setGen 5
      { GenSt.init with due := [10^12] }, by decide +kernel⟩,
    ⟨4, 5, 300, slot0, A 0x30 0 0 0 5 300, by decide +kernel⟩,
    ⟨4, 5, false, slot0, A 0x31 0 0 0 5 0, by decide +kernel⟩,
    ⟨4, 5, 2, slot0, A 0x32 0 0 0 5 2, by decide +kernel⟩,
    ⟨4, 5, 2, 3, slot0, A 0x33 0 2 0 5 3, by decide +kernel⟩,
    ⟨4, 5, 3, 1, slot0, A 0x34 0 0 0 5 0x31, by decide +kernel⟩,
    ⟨4, 0, 0, false, false, 0, 7, slot0, fullQ (dmaOwn (A 0x35 0 0 0 0 7)), wImg, 1, wTmpl, by decide +kernel⟩,
    ⟨4, 0, 0, false, false, 0, 7, slot0, dmaOwn (A 0x35 0 0 0 0 7), wImg, 1, wTmpl, by decide +kernel⟩,
    ⟨4, 2, 9, slot0, A 0x36 0 2 0 0 9, by decide +kernel⟩,
    ⟨4, 2, 9, slot0, A 0x37 0 2 0 0 9, by decide +kernel⟩⟩
end W017

namespace W018
def cfgW : PcieCfg := ⟨5, 4, true, true, 2, 3, 0, 0, false, ⟨false, false, .default, false, false, false, false,
  false, false, 0, 0, 0⟩⟩
def hst (f : HostSt → HostSt) (s : State) : State := { s with host := f s.host }
def upS : State := hst (fun h =>
  { h with ready := true, up := true, reqs := [⟨none, 50⟩], flights := [⟨3, 0, 7, 0⟩, ⟨3, 1, 8, 50⟩] }) run
def dHost : Desc := Desc.ofBytes (padTo 64 ([0#8, 0x10#8])) 3 0 false
def bnd (s : State) : State := ((s.setb .host (HST_CLI_ID 3) 31 true).setb .host (HST_CLI_ID 7) 31 true).onDma 5 (fun
  c => { c with queue := [dHost, dHost], copied := 64 })
def mapB : List Byte := padTo 80 ([1#8] ++ List.replicate 15 0#8 ++ [1#8])
def body (c : Nat) : List Byte := leBytes 4 0x44484353 ++ leBytes 4 1 ++ leBytes 4 400 ++ leBytes 4 1 ++ leBytes 8 7
  ++ leBytes 4 c ++ leBytes 4 0xB1 ++ List.replicate 32 0#8 ++ leBytes 2 2 ++ leBytes 2 0 ++ leBytes 4 128 ++ leBytes
  4 80 ++ leBytes 4 c ++ List.replicate 48 0#8 ++ mapB
def imgB : List Byte := let b := body (crc32c mapB); padTo 400 (b ++ leBytes 4 (crc32c b))
def mbxS (op : Nat) (s : State) : State := hst (fun h => { h with mbx := some ⟨op, 5, none, []⟩ }) s
def mr (op : Nat) : MbxRun := ⟨op, 5, none, []⟩
def args (a r : Nat) (s : State) : State := ((s.wr .host (HST_MBX_ARG 0) (BitVec.ofNat 32 a)).wr .host (HST_MBX_ARG
  1) 0).wr .host (HST_MBX_ARG 2) (BitVec.ofNat 32 r)
def ldS (s : State) : State := (mbxS 1 (args 314572800 400 (s.ergWrite 314572800 imgB))).setb .seq SEQ_IMG_STATUS 26
  true
def imgOf (s : State) : Image := Image.ofBytes (ergRead s 314572800 (ofLe (ergRead s (314572800 + 8) 4)))
def on5 (s : State) : State := s.setb .pix (PIX_SRC 5) 31 true
def stg (i : Image) (s : State) : State := { s with seq := { s.seq with staged := some i } }
def sw (w : SwapSt) (s : State) : State := { s with seq := { s.seq with swap := some w } }
def wImg : Image := ⟨1, 0, ⟨[0], [], [⟨5, 1, 4, 4, 1000⟩], [⟨5, 2, 100, 4⟩]⟩, [⟨0x11, 5, [1#8, 2#8]⟩, ⟨0x14, 1,
  [3#8]⟩]⟩
/-- States and operands that meet the hypotheses of PcieLinkComesAndGoes, clause by clause. -/
theorem test_pcieLinkComesAndGoes :
  (∃ (s : State) (cfg : PcieCfg), s.host.ready = false ∧ s.host.refOk = true) ∧
  (∃ (s : State) (cfg : PcieCfg), (s.host.ready = true ∨ s.host.refOk = false)) ∧
  (∃ (s : State) (cfg : PcieCfg), s.host.up = false) ∧
  (∃ (s : State) (cfg : PcieCfg), s.host.up = true) ∧
  (∃ (s : State) (cfg : PcieCfg), s.host.refOk = false) ∧
  (∃ (s : State) (cfg : PcieCfg), s.host.refOk = true) ∧
  (∃ (s : State) (cfg : PcieCfg), s.host.refOk = true) ∧
  (∃ (s : State) (cfg : PcieCfg), s.host.refOk = false) ∧
  (∃ (s : State) (cfg : PcieCfg), (s.host.up = true ∨ s.host.ready = false ∨ s.host.refOk = false)) ∧
  (∃ (s : State) (cfg : PcieCfg), s.host.up = false ∧ s.host.ready = true ∧ s.host.refOk = true) :=
  ⟨⟨hst (fun h => { h with refOk := true }) run, cfgW, by decide +kernel⟩,
    ⟨upS, cfgW, by decide +kernel⟩,
    ⟨run, cfgW, by decide +kernel⟩,
    ⟨bnd (at_ upS 20), cfgW, by decide +kernel⟩,
    ⟨hst (fun h => { h with refOk := false }) run, cfgW, by decide +kernel⟩,
    ⟨bnd (at_ upS 20), cfgW, by decide +kernel⟩,
    ⟨upS, cfgW, by decide +kernel⟩,
    ⟨hst (fun h => { h with refOk := false }) run, cfgW, by decide +kernel⟩,
    ⟨upS, cfgW, by decide +kernel⟩,
    ⟨((bnd (at_ upS 20)).linkDown), cfgW, by decide +kernel⟩⟩
/-- States and operands that meet the hypotheses of ImagesLoadAndSwap, clause by clause. -/
theorem test_imagesLoadAndSwap :
  (∃ (s : State) (r : MbxRun) (a : Nat) (img : Image), s.mbxWorks 0x01 r ∧ a = mbxArg64 s 0 ∧ img = Image.ofBytes
    (ergRead s a (ofLe (ergRead s (a + 8) 4))) ∧ imageStatus s a (mbxArg s 2) ≠ 0) ∧
  (∃ (s : State) (r : MbxRun) (a : Nat) (img : Image), s.mbxWorks 0x01 r ∧ a = mbxArg64 s 0 ∧ img = Image.ofBytes
    (ergRead s a (ofLe (ergRead s (a + 8) 4))) ∧ imageStatus s a (mbxArg s 2) = 0 ∧ (List.range 96).any (fun t =>
    streamOn s t) = true) ∧
  (∃ (s : State) (r : MbxRun) (a : Nat) (img : Image), s.mbxWorks 0x01 r ∧ a = mbxArg64 s 0 ∧ img = Image.ofBytes
    (ergRead s a (ofLe (ergRead s (a + 8) 4))) ∧ imageStatus s a (mbxArg s 2) = 0 ∧ (List.range 96).any (fun t =>
    streamOn s t) = false) ∧
  (∃ (s : State) (r : MbxRun), s.mbxWorks 0x02 r ∧ s.seq.staged = none) ∧
  (∃ (s : State) (r : MbxRun), ∃ i, s.mbxWorks 0x02 r ∧ s.seq.staged = some i ∧ (s.seq.swap.isSome || swapBlocked s
    i) = true) ∧
  (∃ (s : State) (r : MbxRun), ∃ i, s.mbxWorks 0x02 r ∧ s.seq.staged = some i ∧ s.seq.swap = none ∧ swapBlocked s i =
    false) ∧
  (∃ (s : State), (s.seq.swap = none ∨ s.seq.staged = none)) ∧
  (∃ (s : State), ∃ w i, s.seq.swap = some w ∧ s.seq.staged = some i ∧ w.copied ≠ none) ∧
  (∃ (s : State), ∃ w i, s.seq.swap = some w ∧ s.seq.staged = some i ∧ w.copied = none ∧ w.left ≠ [32]) :=
  ⟨⟨mbxS 1 run, mr 1, 0, Image.ofBytes (ergRead (mbxS 1 run) 0 (ofLe (ergRead (mbxS 1 run) 8 4))),
      by decide +kernel⟩,
    ⟨ldS (on5 run), mr 1, 314572800, imgOf (ldS (on5 run)), by decide +kernel⟩,
    ⟨ldS run, mr 1, 314572800, imgOf (ldS run), by decide +kernel⟩,
    ⟨mbxS 2 run, mr 2, by decide +kernel⟩,
    ⟨mbxS 2 (sw ⟨[4], none⟩ (stg wImg run)), mr 2, wImg, by decide +kernel⟩,
    ⟨mbxS 2 (stg wImg run), mr 2, wImg, by decide +kernel⟩,
    ⟨run, by decide +kernel⟩,
    ⟨sw ⟨[4, 32], some 6⟩ (stg wImg run), ⟨[4, 32], some 6⟩, wImg, by decide +kernel⟩,
    ⟨sw ⟨[4, 32], none⟩ (stg wImg run), ⟨[4, 32], none⟩, wImg, by decide +kernel⟩⟩
end W018

namespace W019
def hst (f : HostSt → HostSt) (s : State) : State := { s with host := f s.host }
def mbxS (op : Nat) (s : State) : State := hst (fun h => { h with mbx := some ⟨op, 5, none, []⟩ }) s
def mr (op : Nat) : MbxRun := ⟨op, 5, none, []⟩
def ag (l : List Nat) (s : State) : State := l.zipIdx.foldl (fun s e => s.wr .host (HST_MBX_ARG e.2) (BitVec.ofNat 32
  e.1)) s
def M (op : Nat) (l : List Nat) : State := mbxS op (ag l run)
def dne : MbxRun := ⟨0x13, 5, some 3, [7#32, 8#32]⟩
def stby (s : State) : State := s.put .pwr PWR_STATUS 31 28 2
def bnd (s : State) : State := s.setb .host (HST_CLI_ID 3) 31 true
def ib (s : State) : State :=
  { s with seq := { s.seq with staged := some ⟨1, 0, ⟨[0], [⟨1, 0, 0, 0, 0x80, 0, 0, 0⟩], [], []⟩, []⟩ } }
def dEm : Desc := Desc.ofBytes (padTo 64 ([0#8, 0x10#8])) 3 0 false
/-- States and operands that meet the hypotheses of MailboxCommandsStartAndEnd, clause by clause. -/
theorem test_mailboxCommandsStartAndEnd :
  (∃ (s : State) (r : MbxRun), s.host.mbx = some r ∧ r.code = none ∧ mbxKnown.contains r.op = true) ∧
  (∃ (s : State) (r : MbxRun), s.host.mbx = some r ∧ r.code = none ∧ mbxKnown.contains r.op = false) ∧
  (∃ (s : State) (r : MbxRun), s.host.mbx = some r ∧ r.code = none ∧ s.now < r.since + mbxLimit s r.op) ∧
  (∃ (s : State) (r : MbxRun), s.host.mbx = some r ∧ r.code = none ∧ r.since + mbxLimit s r.op ≤ s.now) ∧
  (∃ (s : State) (r : MbxRun), s.host.mbx = some r ∧ r.code = none) ∧
  (∃ (s : State) (r : MbxRun) (code : Nat), s.host.mbx = some r ∧ r.code = some code) ∧
  (∃ (s : State), s.host.mbx = none) ∧
  (∃ (s : State) (r : MbxRun), s.mbxWorks 0x0A r) ∧
  (∃ (s : State) (r : MbxRun),
  let k := mbxArg s 0
  s.mbxWorks 0x0C r ∧ 4 ≤ k) ∧
  (∃ (s : State) (r : MbxRun),
  let k := mbxArg s 0
  let free := Tab.get (fun _ => 0) s.host.keys k = 0
  s.mbxWorks 0x0C r ∧ k < 4 ∧ (¬ free)) ∧
  (∃ (s : State) (r : MbxRun),
  let k := mbxArg s 0
  let free := Tab.get (fun _ => 0) s.host.keys k = 0
  s.mbxWorks 0x0C r ∧ k < 4 ∧ free) ∧
  (∃ (s : State) (r : MbxRun), s.mbxWorks 0x0D r) ∧
  (∃ (s : State) (r : MbxRun),
  let target := mbxArg s 0 % 4
  s.mbxWorks 0x0B r ∧ powerCode s target ≠ 0) ∧
  (∃ (s : State) (r : MbxRun),
  let target := mbxArg s 0 % 4
  s.mbxWorks 0x0B r ∧ powerCode s target = 0 ∧ (dstate s = 2 ∧ target = 1 ∨ dstate s = 1 ∧ target = 0)) ∧
  (∃ (s : State) (r : MbxRun),
  let target := mbxArg s 0 % 4
  s.mbxWorks 0x0B r ∧ powerCode s target = 0 ∧ dstate s = 2 ∧ target = 0) ∧
  (∃ (s : State) (r : MbxRun),
  let target := mbxArg s 0 % 4
  s.mbxWorks 0x0B r ∧ powerCode s target = 0 ∧ 1 ≤ target ∧ (dstate s = 1 ∨ target = 2)) ∧
  (∃ (s : State) (op : Nat) (c : Instr), s.host.mbx.all (fun r => r.op != op || r.code.isSome) = true ∧ (op, c) ∈
    [(0x01, Instr.imgLoad), (0x02, .imgSwap), (0x03, .reset), (0x04, .streamReset), (0x06, .clientUnbind), (0x07,
    .quotaSet), (0x08, .chanBind), (0x0A, .portCtrl), (0x0B, .power), (0x0C, .keyProgram), (0x0D, .fwLoad false),
    (0x0D, .fwLoad true), (0x10, .ergAlloc), (0x11, .ergFree), (0x12, .ergPin), (0x13, .ergUnpin), (0x14,
    .lookbackGet), (0x20, .spanEnum)]) ∧
  (∃ (vfs : Fin 64) (s : State), s.host.mbx.all (fun r => r.op != 0x05 || r.code.isSome) = true) ∧
  (∃ (en : Bool) (s : State), s.host.mbx.all (fun r => r.op != 0x09 || r.code.isSome) = true) :=
  ⟨⟨M 5 [1], mr 5, by decide +kernel⟩,
    ⟨M 0x77 [1], mr 0x77, by decide +kernel⟩,
    ⟨at_ (M 5 [1]) 10000004, mr 5, by decide +kernel⟩,
    ⟨at_ (M 5 [1]) 10000005, mr 5, by decide +kernel⟩,
    ⟨M 5 [1], mr 5, by decide +kernel⟩,
    ⟨hst (fun h => { h with mbx := some dne }) run, dne, 3, by decide +kernel⟩,
    ⟨run, by decide +kernel⟩,
    ⟨M 0x0A [0xF0, 1], mr 0x0A, by decide +kernel⟩,
    ⟨M 0x0C [4], mr 0x0C, by decide +kernel⟩,
    ⟨hst (fun h => { h with keys := Tab.set (fun _ => 0) [] 3 9 }) (M 0x0C [3, 1, 2]), mr 0x0C, by decide +kernel⟩,
    ⟨M 0x0C [3, 1, 2], mr 0x0C, by decide +kernel⟩,
    ⟨M 0x0D [], mr 0x0D, by decide +kernel⟩,
    ⟨M 0x0B [3], mr 0x0B, by decide +kernel⟩,
    ⟨M 0x0B [0], mr 0x0B, by decide +kernel⟩,
    ⟨stby (M 0x0B [0]), mr 0x0B, by decide +kernel⟩,
    ⟨M 0x0B [1], mr 0x0B, by decide +kernel⟩,
    ⟨M 5 [], 0x03, .reset, by decide +kernel⟩,
    ⟨7, M 4 [], by decide +kernel⟩,
    ⟨true, M 4 [], by decide +kernel⟩⟩
/-- States and operands that meet the hypotheses of ClientsQuotasAndVectors, clause by clause. -/
theorem test_clientsQuotasAndVectors :
  (∃ (vfs : Fin 64) (s : State) (r : MbxRun),
  let c := mbxArg s 0
  let fn := mbxArg s 1
  s.mbxWorks 0x05 r ∧ (1024 ≤ c ∨ vfs.val < fn)) ∧
  (∃ (vfs : Fin 64) (s : State) (r : MbxRun),
  let c := mbxArg s 0
  let fn := mbxArg s 1
  s.mbxWorks 0x05 r ∧ c < 1024 ∧ fn ≤ vfs.val ∧ bound s c = true) ∧
  (∃ (vfs : Fin 64) (s : State) (r : MbxRun),
  let c := mbxArg s 0
  let fn := mbxArg s 1
  s.mbxWorks 0x05 r ∧ c < 1024 ∧ fn ≤ vfs.val ∧ bound s c = false) ∧
  (∃ (s : State) (r : MbxRun),
  let c := mbxArg s 0
  s.mbxWorks 0x06 r ∧ 1024 ≤ c) ∧
  (∃ (s : State) (r : MbxRun),
  let c := mbxArg s 0
  s.mbxWorks 0x06 r ∧ c < 1024 ∧ (bound s c = false ∨ clientHolds s c = true)) ∧
  (∃ (s : State) (r : MbxRun),
  let c := mbxArg s 0
  s.mbxWorks 0x06 r ∧ c < 1024 ∧ bound s c = true ∧ clientHolds s c = false) ∧
  (∃ (s : State) (r : MbxRun),
  let c := mbxArg s 0
  s.mbxWorks 0x07 r ∧ 1024 ≤ c) ∧
  (∃ (s : State) (r : MbxRun),
  let c := mbxArg s 0
  s.mbxWorks 0x07 r ∧ c < 1024 ∧ bound s c = false) ∧
  (∃ (s : State) (r : MbxRun),
  let c := mbxArg s 0
  let kind := mbxArg s 1
  s.mbxWorks 0x07 r ∧ c < 1024 ∧ bound s c = true ∧ 4 ≤ kind) ∧
  (∃ (s : State) (r : MbxRun),
  let c := mbxArg s 0
  let kind := mbxArg s 1
  let v := mbxArg s 2
  s.mbxWorks 0x07 r ∧ c < 1024 ∧ bound s c = true ∧ kind < 4 ∧ quotaMax s kind < v) ∧
  (∃ (s : State) (r : MbxRun),
  let c := mbxArg s 0
  let kind := mbxArg s 1
  let v := mbxArg s 2
  s.mbxWorks 0x07 r ∧ c < 1024 ∧ bound s c = true ∧ kind < 4 ∧ v ≤ quotaMax s kind) ∧
  (∃ (s : State) (r : MbxRun),
  let n := mbxArg s 0
  let c := mbxArg s 1
  s.mbxWorks 0x08 r ∧ (64 ≤ n ∨ c ≠ 0xFFFF ∧ 1024 ≤ c)) ∧
  (∃ (s : State) (r : MbxRun),
  let n := mbxArg s 0
  let c := mbxArg s 1
  let claimed := (imageDmaAct s.seq.active n).isSome = true ∨ (imageDmaAct s.seq.staged n).isSome = true
  s.mbxWorks 0x08 r ∧ n < 64 ∧ (c = 0xFFFF ∨ c < 1024) ∧ claimed) ∧
  (∃ (s : State) (r : MbxRun),
  let n := mbxArg s 0
  let c := mbxArg s 1
  let claimed := (imageDmaAct s.seq.active n).isSome = true ∨ (imageDmaAct s.seq.staged n).isSome = true
  s.mbxWorks 0x08 r ∧ n < 64 ∧ (c = 0xFFFF ∨ c < 1024) ∧ (¬ claimed) ∧ (s.dmaCh n).queue ≠ []) ∧
  (∃ (s : State) (r : MbxRun),
  let n := mbxArg s 0
  let c := mbxArg s 1
  let claimed := (imageDmaAct s.seq.active n).isSome = true ∨ (imageDmaAct s.seq.staged n).isSome = true
  s.mbxWorks 0x08 r ∧ n < 64 ∧ (c = 0xFFFF ∨ c < 1024) ∧ (¬ claimed) ∧ (s.dmaCh n).queue = [] ∧ (chState s n ≠ 0 ∨ c
    ≠ 0xFFFF ∧ bound s c = false)) ∧
  (∃ (s : State) (r : MbxRun),
  let n := mbxArg s 0
  let c := mbxArg s 1
  let claimed := (imageDmaAct s.seq.active n).isSome = true ∨ (imageDmaAct s.seq.staged n).isSome = true
  s.mbxWorks 0x08 r ∧ n < 64 ∧ (c = 0xFFFF ∨ c < 1024) ∧ (¬ claimed) ∧ (s.dmaCh n).queue = [] ∧ chState s n = 0 ∧ (c
    = 0xFFFF ∨ bound s c = true)) ∧
  (∃ (en : Bool) (s : State) (r : MbxRun),
  let vf := mbxArg s 0
  let n := mbxArg s 1
  s.mbxWorks 0x09 r ∧ (vf = 0 ∨ 64 ≤ vf ∨ n = 0 ∨ 2048 < n)) ∧
  (∃ (en : Bool) (s : State) (r : MbxRun),
  let vf := mbxArg s 0
  let n := mbxArg s 1
  s.mbxWorks 0x09 r ∧ 1 ≤ vf ∧ vf < 64 ∧ 1 ≤ n ∧ n ≤ 2048 ∧ en = true) ∧
  (∃ (en : Bool) (s : State) (r : MbxRun),
  let vf := mbxArg s 0
  let n := mbxArg s 1
  let sum := ((List.range 64).map (fun f => if f = vf then n else vecEntries s f)).sum
  s.mbxWorks 0x09 r ∧ 1 ≤ vf ∧ vf < 64 ∧ 1 ≤ n ∧ n ≤ 2048 ∧ en = false ∧ 2048 < sum) ∧
  (∃ (en : Bool) (s : State) (r : MbxRun),
  let vf := mbxArg s 0
  let n := mbxArg s 1
  let sum := ((List.range 64).map (fun f => if f = vf then n else vecEntries s f)).sum
  s.mbxWorks 0x09 r ∧ 1 ≤ vf ∧ vf < 64 ∧ 1 ≤ n ∧ n ≤ 2048 ∧ en = false ∧ sum ≤ 2048) :=
  ⟨⟨2, M 5 [1024, 1], mr 5, by decide +kernel⟩,
    ⟨2, bnd (M 5 [3, 1]), mr 5, by decide +kernel⟩,
    ⟨2, M 5 [3, 1], mr 5, by decide +kernel⟩,
    ⟨M 6 [1024], mr 6, by decide +kernel⟩,
    ⟨M 6 [3], mr 6, by decide +kernel⟩,
    ⟨bnd (M 6 [3]), mr 6, by decide +kernel⟩,
    ⟨M 7 [1024], mr 7, by decide +kernel⟩,
    ⟨M 7 [3], mr 7, by decide +kernel⟩,
    ⟨bnd (M 7 [3, 4]), mr 7, by decide +kernel⟩,
    ⟨bnd (M 7 [3, 2, 4097]), mr 7, by decide +kernel⟩,
    ⟨bnd (M 7 [3, 2, 4096]), mr 7, by decide +kernel⟩,
    ⟨M 8 [64, 3], mr 8, by decide +kernel⟩,
    ⟨ib (M 8 [7, 3]), mr 8, by decide +kernel⟩,
    ⟨(M 8 [7, 3]).onDma 7 (fun c => { c with queue := [dEm] }), mr 8, by decide +kernel⟩,
    ⟨M 8 [7, 3], mr 8, by decide +kernel⟩,
    ⟨bnd (M 8 [7, 3]), mr 8, by decide +kernel⟩,
    ⟨false, M 9 [64, 3], mr 9, by decide +kernel⟩,
    ⟨true, M 9 [63, 2048], mr 9, by decide +kernel⟩,
    ⟨false, M 9 [63, 2048], mr 9, by decide +kernel⟩,
    ⟨false, M 9 [1, 45], mr 9, by decide +kernel⟩⟩
end W019

namespace W020
def hst (f : HostSt → HostSt) (s : State) : State := { s with host := f s.host }
def mbxS (op : Nat) (s : State) : State := hst (fun h => { h with mbx := some ⟨op, 5, none, []⟩ }) s
def mr (op : Nat) : MbxRun := ⟨op, 5, none, []⟩
def ag (l : List Nat) (s : State) : State := l.zipIdx.foldl (fun s e => s.wr .host (HST_MBX_ARG e.2) (BitVec.ofNat 32
  e.1)) s
def bnd (s : State) : State := (s.setb .host (HST_CLI_ID 3) 31 true).wr .host (HST_CLI_Q_ERG 3) 100
def M (op : Nat) (l : List Nat) : State := mbxS op (ag l (bnd run))
def own (s : State) : State := s.allocSegs 3 100 4
def pin (n : Nat) (s : State) : State := s.setSeg n { segOf s n with pinned := true }
def dma3 (s : State) : State := s.onDma 7 (fun c =>
  { c with queue := [Desc.ofBytes (padTo 64 ([0#8, 0x11#8, 0#8, 0#8] ++ leBytes 4 3 ++ leBytes 8 (101 * segBytes) ++ leBytes 8 (102 * segBytes) ++ leBytes 4 64 ++ leBytes 4 1)) 3 0 false] })
def scr (s : State) : State := s.setb .erg ERG_SCRUB 31 true
def ring : LbSt := ⟨200 * segBytes, 0x10, 64, 64, 1024⟩
def hdl : Nat := 5 * 2 ^ 45 + 9
def withRing (s : State) : State := { s with erg := { s.erg with lb := [(5, ring)] } }
def crc (b : List Byte) : List Byte := b ++ leBytes 4 (crc32c b)
def dirE : List Byte := crc (leBytes 8 hdl ++ leBytes 8 20 ++ leBytes 2 2 ++ leBytes 10 0)
def idxE (ln : Nat) : List Byte := crc (leBytes 8 ln ++ List.replicate 15 0#8 ++ [1#8] ++ leBytes 4 0)
def gotten : State := own (withRing (M 0x14 [hdl % 2 ^ 32, hdl / 2 ^ 32, 0x10001, 3, (100 * segBytes) % 2 ^ 32, (100
  * segBytes) / 2 ^ 32, 4096]))
def held : State := (gotten.ergWrite (ring.base + 4096 + 9 * 32) dirE).ergWrite (lbIndex ring + 20 * 32) (idxE 20)
def gone : State := gotten.ergWrite (ring.base + 4096 + 9 * 32) dirE
def itm : List Dword := [itemHeader 1 2 0, 5, 6]
def qd (q : Nat) : State := run.setQ q { ErgQ.init with items := [[itemHeader 1 0 0], itm], wr := 9 }
def unc : State := { at_ run 5000 with erg := { run.erg with unc0 := List.replicate 64 4500 } }
def full : State := ((M 0x10 [3, 4096, 0]).wr .host (HST_CLI_Q_ERG 3) 5000 |>.setSeg 4095 ⟨2, false, 0, 5, 0, 0,
  false⟩ |>.setSeg 8191 ⟨2, false, 0, 5, 0, 0, false⟩ |>.setSeg 12287 ⟨2, false, 0, 5, 0, 0, false⟩)
def imgQ : Image := ⟨0, 0, ⟨[], [], [], [⟨5, 7, 300, 1⟩, ⟨5, 6, 301, 1⟩, ⟨127, 9, 302, 1⟩]⟩, []⟩
def mapd : State := { run with seq := { run.seq with active := some imgQ } }
/-- A run of 4,096 segments meets segment 4,095, 8,191 or 12,287. -/
theorem full_has_no_run : freeRuns full (mbxArg full 1) (mbxArg full 2 % 4) = [] := by
  have h1 : mbxArg full 1 = 4096 := by decide +kernel
  have h2 : mbxArg full 2 % 4 = 0 := by decide +kernel
  have a : segFree full 4095 = false := by decide +kernel
  have b : segFree full 8191 = false := by decide +kernel
  have c : segFree full 12287 = false := by decide +kernel
  rw [h1, h2]
  simp only [freeRuns, idxs, Nat.zero_add, if_true, Nat.zero_ne_one, if_false, List.append_nil, List.map_eq_nil_iff,
    List.filter_eq_nil_iff, List.mem_range, List.all_eq_true, not_forall]
  intro i hi
  by_cases h : i ≤ 4095
  · exact ⟨4095 - i, by omega, by rw [show i + (4095 - i) = 4095 by omega, a]; simp⟩
  · by_cases h' : i ≤ 8191
    · exact ⟨8191 - i, by omega, by rw [show i + (8191 - i) = 8191 by omega, b]; simp⟩
    · exact ⟨12287 - i, by omega, by rw [show i + (12287 - i) = 12287 by omega, c]; simp⟩
/-- States and operands that meet the hypotheses of ErgSegmentsAreAllocatedAndFreed, clause by clause. -/
theorem test_ergSegmentsAreAllocatedAndFreed :
  (∃ (s : State) (r : MbxRun),
  let c := mbxArg s 0
  s.mbxWorks 0x10 r ∧ 1024 ≤ c) ∧
  (∃ (s : State) (r : MbxRun),
  let c := mbxArg s 0
  s.mbxWorks 0x10 r ∧ c < 1024 ∧ bound s c = false) ∧
  (∃ (s : State) (r : MbxRun),
  let c := mbxArg s 0
  let n := mbxArg s 1
  let stack := mbxArg s 2 % 4
  let wrong := n = 0 ∨ 4096 < n ∨ stack = 3 ∨ stack = 1 ∧ stackPresent s 1 = false
  s.mbxWorks 0x10 r ∧ c < 1024 ∧ bound s c = true ∧ wrong) ∧
  (∃ (s : State) (r : MbxRun),
  let c := mbxArg s 0
  let n := mbxArg s 1
  let stack := mbxArg s 2 % 4
  let wrong := n = 0 ∨ 4096 < n ∨ stack = 3 ∨ stack = 1 ∧ stackPresent s 1 = false
  let tooMany := (s.rd .host (HST_CLI_Q_ERG c)).toNat < (clientSegs s c).length + n
  s.mbxWorks 0x10 r ∧ c < 1024 ∧ bound s c = true ∧ (¬ wrong) ∧ tooMany) ∧
  (∃ (s : State) (r : MbxRun),
  let c := mbxArg s 0
  let n := mbxArg s 1
  let stack := mbxArg s 2 % 4
  let wrong := n = 0 ∨ 4096 < n ∨ stack = 3 ∨ stack = 1 ∧ stackPresent s 1 = false
  let tooMany := (s.rd .host (HST_CLI_Q_ERG c)).toNat < (clientSegs s c).length + n
  s.mbxWorks 0x10 r ∧ c < 1024 ∧ bound s c = true ∧ (¬ wrong) ∧ (¬ tooMany) ∧ freeRuns s n stack = []) ∧
  (∃ (s : State) (r : MbxRun),
  let c := mbxArg s 0
  let n := mbxArg s 1
  let stack := mbxArg s 2 % 4
  let wrong := n = 0 ∨ 4096 < n ∨ stack = 3 ∨ stack = 1 ∧ stackPresent s 1 = false
  let tooMany := (s.rd .host (HST_CLI_Q_ERG c)).toNat < (clientSegs s c).length + n
  s.mbxWorks 0x10 r ∧ c < 1024 ∧ bound s c = true ∧ (¬ wrong) ∧ (¬ tooMany) ∧ freeRuns s n stack ≠ []) ∧
  (∃ (s : State) (op : Nat) (c : Instr) (r : MbxRun), s.mbxWorks op r ∧ (op, c) ∈ [(0x11, Instr.ergFree), (0x12,
    .ergPin), (0x13, .ergUnpin)] ∧ ownsSegs s (mbxArg s 0) (namedSegs s) = false) ∧
  (∃ (s : State) (r : MbxRun),
  let l := namedSegs s
  s.mbxWorks 0x11 r ∧ ownsSegs s (mbxArg s 0) (namedSegs s) = true ∧ l.any (fun n => (segOf s n).pinned) = true) ∧
  (∃ (s : State) (r : MbxRun),
  let l := namedSegs s
  s.mbxWorks 0x11 r ∧ ownsSegs s (mbxArg s 0) (namedSegs s) = true ∧ l.any (fun n => (segOf s n).pinned) = false ∧
    l.any (segWorks s) = true) ∧
  (∃ (s : State) (r : MbxRun),
  let l := namedSegs s
  s.mbxWorks 0x11 r ∧ ownsSegs s (mbxArg s 0) (namedSegs s) = true ∧ l.any (fun n => (segOf s n).pinned) = false ∧
    l.any (segWorks s) = false) ∧
  (∃ (s : State) (r : MbxRun), s.mbxWorks 0x12 r ∧ ownsSegs s (mbxArg s 0) (namedSegs s) = true) ∧
  (∃ (s : State) (r : MbxRun), s.mbxWorks 0x13 r ∧ ownsSegs s (mbxArg s 0) (namedSegs s) = true) ∧
  (∃ (n : Nat) (s : State), segState s n ≠ 1) ∧
  (∃ (n : Nat) (s : State), segState s n = 1) :=
  ⟨⟨M 0x10 [1024], mr 0x10, by decide +kernel⟩,
    ⟨M 0x10 [4], mr 0x10, by decide +kernel⟩,
    ⟨M 0x10 [3, 4097, 0], mr 0x10, by decide +kernel⟩,
    ⟨M 0x10 [3, 101, 0], mr 0x10, by decide +kernel⟩,
    ⟨full, mr 0x10, by decide +kernel, by decide +kernel, by decide +kernel, by decide +kernel, by decide +kernel,
      full_has_no_run⟩,
    ⟨M 0x10 [3, 2, 0], mr 0x10, by decide +kernel⟩,
    ⟨M 0x12 [3, 100, 4], 0x12, .ergPin, mr 0x12, by decide +kernel⟩,
    ⟨pin 101 (own (M 0x11 [3, 100, 4])), mr 0x11, by decide +kernel⟩,
    ⟨dma3 (own (M 0x11 [3, 100, 4])), mr 0x11, by decide +kernel⟩,
    ⟨own (M 0x11 [3, 100, 4]), mr 0x11, by decide +kernel⟩,
    ⟨own (M 0x12 [3, 100, 4]), mr 0x12, by decide +kernel⟩,
    ⟨pin 101 (own (M 0x13 [3, 100, 4])), mr 0x13, by decide +kernel⟩,
    ⟨100, own run, by decide +kernel⟩,
    ⟨100, (own run).dirtySeg 100, by decide +kernel⟩⟩
/-- States and operands that meet the hypotheses of ErgErrorsAndLookback, clause by clause. -/
theorem test_ergErrorsAndLookback :
  (∃ (addr : Nat) (s : State),
  let k := stackOf addr
  ∃ (err : Fin 3), (stackOk s k = false ∨ 0xC00000000 ≤ addr)) ∧
  (∃ (addr : Nat) (s : State),
  let k := stackOf addr
  stackOk s k = true ∧ addr < 0xC00000000 ∧ s.flag .erg ERG_SCRUB 31 = false) ∧
  (∃ (addr : Nat) (s : State),
  let k := stackOf addr
  stackOk s k = true ∧ addr < 0xC00000000 ∧ s.flag .erg ERG_SCRUB 31 = true ∧ errWords s.erg.soft (addr / 64 * 64) 64
    = [] ∧ errWords s.erg.poison (addr / 64 * 64) 64 = []) ∧
  (∃ (addr : Nat) (s : State), ∃ (t' : Fin 96) (ln : Nat) (b : LbSt), s.lbOf t'.val = some b) ∧
  (∃ (addr : Nat) (s : State), ∃ (q : Nat) (w : ErgWriter), ((w = .handover ∧ q = qHandover ∨ ∃ q' : Fin 384, w =
    .queue q' ∧ q = q'.val)) ∧ qRegion s q = none) ∧
  (∃ (addr : Nat) (s : State), ∃ (q : Nat) (w : ErgWriter), ((w = .handover ∧ q = qHandover ∨ ∃ q' : Fin 384, w =
    .queue q' ∧ q = q'.val)) ∧ qRegion s q ≠ none) ∧
  (∃ (k : Fin 2) (training : Bool) (s : State), (stackOk s k = false ∨ training = false ∧ stackErrors s k = false)) ∧
  (∃ (k : Fin 2) (training : Bool) (s : State), stackOk s k = true ∧ (training = true ∨ stackErrors s k = true)) ∧
  (∃ (s : State) (r : MbxRun),
  let h := mbxArg64 s 0
  s.mbxWorks 0x14 r ∧ lookbackRing s h = none) ∧
  (∃ (s : State) (r : MbxRun),
  let h := mbxArg64 s 0
  let dst := mbxArg64 s 4
  let before := s.fld .host (HST_MBX_ARG 2) 15 0
  ∃ b,
  let da := b.base + 4096 + nbits h 44 0 % 65536 * 32
  let dir := ergRead s da 32
  let l := lookbackLines before (s.fld .host (HST_MBX_ARG 2) 31 16) dir
  let code := lookbackCode s b h (mbxArg s 3) da dst (mbxArg s 6) l dir
  s.mbxWorks 0x14 r ∧ lookbackRing s h = some b ∧ code ≠ 0) ∧
  (∃ (s : State) (r : MbxRun),
  let h := mbxArg64 s 0
  let dst := mbxArg64 s 4
  let before := s.fld .host (HST_MBX_ARG 2) 15 0
  ∃ b,
  let da := b.base + 4096 + nbits h 44 0 % 65536 * 32
  let dir := ergRead s da 32
  let l := lookbackLines before (s.fld .host (HST_MBX_ARG 2) 31 16) dir
  let code := lookbackCode s b h (mbxArg s 3) da dst (mbxArg s 6) l dir
  let out := lookbackOut s b (nbits h 51 45) h dir ((leAt dir 8 8 : Int) - before) l
  s.mbxWorks 0x14 r ∧ lookbackRing s h = some b ∧ code = 0 ∧ out.2 = l) ∧
  (∃ (s : State) (r : MbxRun),
  let h := mbxArg64 s 0
  let dst := mbxArg64 s 4
  let before := s.fld .host (HST_MBX_ARG 2) 15 0
  ∃ b,
  let da := b.base + 4096 + nbits h 44 0 % 65536 * 32
  let dir := ergRead s da 32
  let l := lookbackLines before (s.fld .host (HST_MBX_ARG 2) 31 16) dir
  let code := lookbackCode s b h (mbxArg s 3) da dst (mbxArg s 6) l dir
  let out := lookbackOut s b (nbits h 51 45) h dir ((leAt dir 8 8 : Int) - before) l
  s.mbxWorks 0x14 r ∧ lookbackRing s h = some b ∧ code = 0 ∧ out.2 ≠ l) :=
  ⟨⟨4099, run.setb .erg (ERG_STK_STATUS 0) 1 true, 2, by decide +kernel⟩,
    ⟨4099, run.setb .erg ERG_SCRUB 31 false, by decide +kernel⟩,
    ⟨4099, scr run, by decide +kernel⟩,
    ⟨4099, withRing run, 5, 7, ring, by decide +kernel⟩,
    ⟨4099, run, 20, .queue 20, by decide +kernel⟩,
    ⟨4099, mapd, 20, .queue 20, by decide +kernel⟩,
    ⟨0, false, run, by decide +kernel⟩,
    ⟨0, false, unc, by decide +kernel⟩,
    ⟨M 0x14 [9], mr 0x14, by decide +kernel⟩,
    ⟨withRing (M 0x14 [hdl % 2 ^ 32, hdl / 2 ^ 32]), mr 0x14, ring, by decide +kernel⟩,
    ⟨gone, mr 0x14, ring, by decide +kernel⟩,
    ⟨held, mr 0x14, ring, by decide +kernel⟩⟩
end W020

namespace W021
def imgQ : Image := ⟨0, 0, ⟨[], [], [], [⟨5, 7, 300, 1⟩, ⟨5, 6, 301, 1⟩]⟩, []⟩
def act : State := { run with seq := { run.seq with active := some imgQ } }
def sh (s : State) : State := s.setb .erg (ERG_Q_CTRL 20) 30 true
def qs (q : ErgQ) (s : State) : State := s.setQ 20 q
def it : List Dword := [itemHeader 1 2 0, 5, 6]
def half : State := sh (qs { ErgQ.init with items := [it], part := [7, 8], wr := 9 } act)
def whole : State := sh (qs { ErgQ.init with items := [it, [itemHeader 2 1 0, 3]], wr := 9 } act)
def wait_ (tb : Nat) : State := at_ (sh (qs { ErgQ.init with readAt := some 5000 } act)) tb
def ok_ (o : Host.Outcome State Fault Refusal) : State := match o with | .next t => t | _ => run
/-- States and operands that meet the hypotheses of QueuesAreReadByTheHost, clause by clause. -/
theorem test_queuesAreReadByTheHost :
  (∃ (q : Fin 384) (s : State), qOk q = false) ∧
  (∃ (q : Fin 384) (s : State), qOk q = true ∧ qRegion s q = none) ∧
  (∃ (q : Fin 384) (s : State), qOk q = true ∧ qRegion s q ≠ none ∧ (s.ergQ q).readAt = none) ∧
  (∃ (q : Fin 384) (v : Word) (s : State), qOk q = true ∧ bit v 31 = false) ∧
  (∃ (q : Fin 384) (v : Word) (s : State), ∃ t, qOk q = true ∧ bit v 31 = true ∧ Sys2Proof.Machine.exec
    (.queueHostpopWrite q (putBit v 31 false)) s = .next t) ∧
  (∃ (q : Fin 384) (e : Fin 3) (s : State), qOk q = true ∧ qRegion s q = none) ∧
  (∃ (q : Fin 384) (e : Fin 3) (s : State), qOk q = true ∧ qRegion s q ≠ none ∧ s.flag .erg (ERG_Q_CTRL q) 30 =
    false) ∧
  (∃ (q : Fin 384) (e : Fin 3) (s : State), ∃ w ws, qOk q = true ∧ qRegion s q ≠ none ∧ s.flag .erg (ERG_Q_CTRL q) 30
    = true ∧ (s.ergQ q).part = w :: ws ∧ ergPoisoned s (qWordAt s q 0) 8 = false ∧ errWords s.erg.soft (qWordAt s q
    0) 8 = []) ∧
  (∃ (q : Fin 384) (e : Fin 3) (s : State), ∃ w ws rest, qOk q = true ∧ qRegion s q ≠ none ∧ s.flag .erg (ERG_Q_CTRL
    q) 30 = true ∧ (s.ergQ q).part = [] ∧ (s.ergQ q).items = (w :: ws) :: rest ∧ ergPoisoned s (qWordAt s q 0) 8 =
    false ∧ errWords s.erg.soft (qWordAt s q 0) 8 = []) ∧
  (∃ (q : Fin 384) (e : Fin 3) (s : State), qOk q = true ∧ qRegion s q ≠ none ∧ s.flag .erg (ERG_Q_CTRL q) 30 = true
    ∧ (s.ergQ q).part = [] ∧ (s.ergQ q).items = []) ∧
  (∃ (q : Fin 384) (s : State), (s.ergQ q).readAt = none) ∧
  (∃ (q : Fin 384) (s : State), ∃ at_, (s.ergQ q).readAt = some at_ ∧ s.now < at_ + 1000) ∧
  (∃ (q : Fin 384) (s : State), ∃ at_, (s.ergQ q).readAt = some at_ ∧ at_ + 1000 ≤ s.now) :=
  ⟨⟨22, half, by decide +kernel⟩,
    ⟨20, run, by decide +kernel⟩,
    ⟨20, half, by decide +kernel⟩,
    ⟨20, 0, half, by decide +kernel⟩,
    ⟨20, 0xC0000000, half, ok_ (Sys2Proof.Machine.exec (.queueHostpopWrite 20 0x40000000) half), by decide +kernel,
      by decide +kernel, rfl⟩,
    ⟨20, 0, sh run, by decide +kernel⟩,
    ⟨20, 0, act, by decide +kernel⟩,
    ⟨20, 0, half, 7, [8], by decide +kernel⟩,
    ⟨20, 0, whole, itemHeader 1 2 0, [5, 6], [[itemHeader 2 1 0, 3]], by decide +kernel⟩,
    ⟨20, 0, sh act, by decide +kernel⟩,
    ⟨20, half, by decide +kernel⟩,
    ⟨20, wait_ 5999, 5000, by decide +kernel⟩,
    ⟨20, wait_ 6000, 5000, by decide +kernel⟩⟩
end W021

namespace W022
def hst (f : HostSt → HostSt) (s : State) : State := { s with host := f s.host }
def up (s : State) : State := hst (fun h => { h with up := true }) s
def bnd (s : State) : State := s.setb .host (HST_CLI_ID 3) 31 true
def cp : Desc := Desc.ofBytes (padTo 64 ([0#8, 0x11#8, 0#8, 2#8] ++ leBytes 4 3 ++ leBytes 8 (101 * segBytes) ++
  leBytes 8 (102 * segBytes) ++ leBytes 4 64 ++ leBytes 4 1)) 3 0 false
def inn : Desc := { cp with srcErg := false }
def out : Desc := { cp with dstErg := false, retries := 0, notify := true }
def chq (st : Nat) (x : DmaCh) (s : State) : State := (s.onDma 7 (fun _ => x)).put .dma (DMA_CH_STATUS 7) 31 30 st
  |>.wr .dma (DMA_CH_RATE 7) 0x1000000
def ergB (s : State) : State := s.ergWrite (101 * segBytes) (leBytes 64 0x123456789)
def R (q : List Desc) (c : Nat) (st : Bool) : State := chq 1
  { DmaCh.init with queue := q, copied := c, started := st } (ergB (up (bnd run)))
def hlt : State := chq 3 { DmaCh.init with queue := [cp] } (up (bnd run))
def mine (s : State) : State := s.wr .dma (DMA_CH_OWNER 7) 0x40000004
def fnc : Desc := { out with fence := true }
def failed : State := R [cp, out] 32 true |>.onDma 7 (fun x => { x with retrying := true, failedAt := some (0, 4) })
def abrt : State := (R [] 0 false).onDma 7 (fun x => { x with aborted := some ⟨0, cp, 0, false, false, some 3#32⟩ })
/-- States and operands that meet the hypotheses of DmaChannelsRunTheirDescriptors, clause by clause. -/
theorem test_dmaChannelsRunTheirDescriptors :
  (∃ (ch : Fin 64) (s : State), chState s ch ≠ 3) ∧
  (∃ (ch : Fin 64) (s : State), chState s ch = 3) ∧
  (∃ (c : Fin 1024) (v : Word) (s : State), (chBound s (bits v 5 0) c = true ∨ bound s c = false)) ∧
  (∃ (c : Fin 1024) (v : Word) (s : State), chBound s (bits v 5 0) c = false ∧ bound s c = true) ∧
  (∃ (ch : Fin 64) (len : Nat) (data : List Byte) (late : Nat) (s : State), ((s.dmaCh ch).queue = [] ∨ chWorks s ch =
    false)) ∧
  (∃ (ch : Fin 64) (len : Nat) (data : List Byte) (late : Nat) (s : State), ((s.dmaCh ch).queue = [] ∨ chEnds s ch =
    false)) ∧
  (∃ (ch : Fin 64) (len : Nat) (data : List Byte) (late : Nat) (s : State), ∃ (d : Desc) (ds : List Desc),
  let b := nextBurst s d (s.dmaCh ch).copied len
  let n := b.2.2
  (s.dmaCh ch).queue = d :: ds ∧ chWorks s ch = true ∧ (d.taken && !(s.dmaCh ch).started) = false ∧ (d.width * d.rows
    ≤ (s.dmaCh ch).copied ∨ n = 0 ∨ burstAllowed s ch d.hostSide n = false ∨ (d.srcErg = false ∧ tagFree s (some
    ch.val) = false))) ∧
  (∃ (ch : Fin 64) (len : Nat) (data : List Byte) (late : Nat) (s : State), ∃ (d : Desc) (ds : List Desc),
  let b := nextBurst s d (s.dmaCh ch).copied len
  let n := b.2.2
  (s.dmaCh ch).queue = d :: ds ∧ chWorks s ch = true ∧ (d.taken && !(s.dmaCh ch).started) = false ∧ (s.dmaCh
    ch).copied < d.width * d.rows ∧ n ≠ 0 ∧ burstAllowed s ch d.hostSide n = true ∧ (d.srcErg = true ∨ tagFree s
    (some ch.val) = true) ∧ (d.srcErg && ergPoisoned s b.1 n) = false) ∧
  (∃ (ch : Fin 64) (cause : Fin 6) (s : State) (a : AbortedDesc), (s.dmaCh ch).aborted = some a ∧ a.tb = s.now ∧
    cause = 0) ∧
  (∃ (ch : Fin 64) (cause : Fin 6) (s : State) (a : AbortedDesc), (s.dmaCh ch).aborted = some a ∧ a.tb = s.now ∧
    cause ≠ 0) ∧
  (∃ (ch : Fin 64) (s : State) (d : Desc) (ds : List Desc), ∃ (cause : Fin 6), (s.dmaCh ch).queue = d :: ds ∧ chEnds
    s ch = true ∧ (s.dmaCh ch).aborted.all (fun a => a.tb != s.now) = true ∧ cause = 0) ∧
  (∃ (ch : Fin 64) (s : State) (d : Desc) (ds : List Desc), ∃ (cause : Fin 6),
  let tries := if (s.dmaCh ch).retrying then (s.dmaCh ch).tries + 1 else 1
  let again := (cause.val = 1 ∨ cause.val = 4 ∨ cause.val = 5) ∧ tries ≤ d.retries
  (s.dmaCh ch).queue = d :: ds ∧ chEnds s ch = true ∧ (s.dmaCh ch).aborted.all (fun a => a.tb != s.now) = true ∧
    again) ∧
  (∃ (ch : Fin 64) (s : State) (d : Desc) (ds : List Desc), ∃ (cause : Fin 6),
  let tries := if (s.dmaCh ch).retrying then (s.dmaCh ch).tries + 1 else 1
  let again := (cause.val = 1 ∨ cause.val = 4 ∨ cause.val = 5) ∧ tries ≤ d.retries
  (s.dmaCh ch).queue = d :: ds ∧ chEnds s ch = true ∧ (s.dmaCh ch).aborted.all (fun a => a.tb != s.now) = true ∧
    cause ≠ 0 ∧ (¬ again)) ∧
  (∃ (ch : Fin 64) (s : State) (d : Desc) (ds : List Desc), ∃ (len : Nat) (data : List Byte) (late : Nat), (s.dmaCh
    ch).queue = d :: ds ∧ chEnds s ch = true ∧ d.taken = true ∧ (s.dmaCh ch).started = false ∧ chWorks s ch = true) ∧
  (∃ (ch : Fin 64) (s : State) (d : Desc) (ds : List Desc), (s.dmaCh ch).queue = d :: ds ∧ chEnds s ch = true ∧
    (d.taken && !(s.dmaCh ch).started) = false ∧ ((s.dmaCh ch).copied < d.width * d.rows ∨ chReads s ch = true)) ∧
  (∃ (ch : Fin 64) (s : State) (d : Desc) (ds : List Desc), (s.dmaCh ch).queue = d :: ds ∧ chEnds s ch = true ∧
    (d.taken && !(s.dmaCh ch).started) = false ∧ d.width * d.rows ≤ (s.dmaCh ch).copied ∧ chReads s ch = false ∧
    (d.fence && !d.dstErg && !(s.dmaCh ch).fenceOut) = true) ∧
  (∃ (ch : Fin 64) (s : State) (d : Desc) (ds : List Desc), (s.dmaCh ch).queue = d :: ds ∧ chEnds s ch = true ∧
    (d.taken && !(s.dmaCh ch).started) = false ∧ d.width * d.rows ≤ (s.dmaCh ch).copied ∧ chReads s ch = false ∧
    (d.fence && !d.dstErg && !(s.dmaCh ch).fenceOut) = false) :=
  ⟨⟨7, R [cp] 0 false, by decide +kernel⟩,
    ⟨7, hlt, by decide +kernel⟩,
    ⟨4, 0x40000007, mine run, by decide +kernel⟩,
    ⟨3, 0x40000007, mine (bnd run), by decide +kernel⟩,
    ⟨7, 64, [], 0, run, by decide +kernel⟩,
    ⟨7, 64, [], 0, run, by decide +kernel⟩,
    ⟨7, 64, [], 0, R [cp] 64 true, cp, [], by decide +kernel⟩,
    ⟨7, 40, [], 0, R [cp] 0 false, cp, [], by decide +kernel⟩,
    ⟨7, 0, abrt, ⟨0, cp, 0, false, false, some 3#32⟩, by decide +kernel⟩,
    ⟨7, 4, abrt, ⟨0, cp, 0, false, false, some 3#32⟩, by decide +kernel⟩,
    ⟨7, R [cp, out] 0 true, cp, [out], 0, by decide +kernel⟩,
    ⟨7, R [cp, out] 0 true, cp, [out], 4, by decide +kernel⟩,
    ⟨7, R [cp, out] 0 true, cp, [out], 2, by decide +kernel⟩,
    ⟨7, R [{cp with taken := true}, out] 0 false, {cp with taken := true}, [out], 4, [], 0, by decide +kernel⟩,
    ⟨7, R [cp, out] 63 true, cp, [out], by decide +kernel⟩,
    ⟨7, R [fnc] 64 true, fnc, [], by decide +kernel⟩,
    ⟨7, chq 2 { DmaCh.init with queue := [cp], copied := 64, started := true } (up (bnd run)), cp, [],
      by decide +kernel⟩⟩
end W022

namespace W023
def hst (f : HostSt → HostSt) (s : State) : State := { s with host := f s.host }
def cli (f : ClientSt → ClientSt) (s : State) : State := s.onClient 3 f
def up : State := hst (fun h => { h with up := true, ready := true }) run
def bnd (s : State) : State := regsAt s .host [(HST_CLI_ID 3, 0x80000003), (HST_CLI_CTRL 3, 0xFC000002),
  (HST_CLI_Q_REC 3, 100), (HST_CLI_Q_CPL 3, 100), (HST_CLI_SIZE 3 0, 4), (HST_CLI_SIZE 3 2, 4), (HST_CLI_SIZE 3 4,
  4), (HST_CLI_SIZE 3 1, 4), (HST_CLI_WB_LO 3, 0x1000), (HST_CLI_PROD 3 0, 5), (HST_CLI_INTMOD 3, 0x00020001)]
def msk (s : State) (m : Word) : State := hst (fun h => { h with msix := [(8, 0x4000), (10, 0xABCD), (11, m)] }) s
def tim (tb : Nat) : State := at_ (cli (fun c => { c with fresh := 1, firstNew := some 100 }) (bnd up)) tb
/-- States and operands that meet the hypotheses of ClientPagesRingAndInterrupt, clause by clause. -/
theorem test_clientPagesRingAndInterrupt :
  (∃ (c : Fin 1024) (v : Word) (s : State), bound s c = false) ∧
  (∃ (c : Fin 1024) (v : Word) (s : State), bound s c = true) ∧
  (∃ (c : Fin 1024) (r : Fin 5) (v : Word) (s : State), (r.val = 1 ∨ r.val = 4 ∨ ringOn s c r = false)) ∧
  (∃ (c : Fin 1024) (r : Fin 5) (v : Word) (s : State), r.val ≠ 1 ∧ r.val ≠ 4 ∧ ringOn s c r = true ∧ ringSize s c r
    < (s.rd .host (HST_CLI_PROD c r) - v).toNat) ∧
  (∃ (c : Fin 1024) (r : Fin 5) (v : Word) (s : State), r.val ≠ 1 ∧ r.val ≠ 4 ∧ ringOn s c r = true ∧ (s.rd .host
    (HST_CLI_PROD c r) - v).toNat ≤ ringSize s c r) ∧
  (∃ (c : Fin 1024) (v : Word) (s : State), ringOn s c 1 = false) ∧
  (∃ (c : Fin 1024) (v : Word) (s : State), ringOn s c 1 = true ∧ ringSize s c 1 < (v - s.rd .host (HST_CLI_CONS c
    1)).toNat) ∧
  (∃ (c : Fin 1024) (v : Word) (s : State), ringOn s c 1 = true ∧ (v - s.rd .host (HST_CLI_CONS c 1)).toNat ≤
    ringSize s c 1) ∧
  (∃ (c : Fin 1024) (v : Word) (s : State), ringOn s c 4 = false) ∧
  (∃ (c : Fin 1024) (v : Word) (s : State), ringOn s c 4 = true ∧ ringSize s c 4 < (v - s.rd .host (HST_CLI_CONS c
    4)).toNat) ∧
  (∃ (c : Fin 1024) (v : Word) (s : State), ringOn s c 4 = true ∧ (v - s.rd .host (HST_CLI_CONS c 4)).toNat ≤
    ringSize s c 4) ∧
  (∃ (c : Fin 1024) (s : State), (ringOn s c 0 = false ∨ s.host.up = false)) ∧
  (∃ (c : Fin 1024) (s : State), ringOn s c 0 = true ∧ s.host.up = true) ∧
  (∃ (c : Fin 1024) (s : State),
  let due (at_ : Nat) := s.flag .host (HST_CLI_CTRL c) 26 = true ∧ s.host.up = true ∧ at_ + s.fld .host (HST_CLI_INTMOD c) 31 16 * 1000 ≤ s.now
  ((∀ at_, (s.client c).firstNew = some at_ → ¬ due at_))) ∧
  (∃ (c : Fin 1024) (s : State),
  let due (at_ : Nat) := s.flag .host (HST_CLI_CTRL c) 26 = true ∧ s.host.up = true ∧ at_ + s.fld .host (HST_CLI_INTMOD c) 31 16 * 1000 ≤ s.now
  ∃ at_, (s.client c).firstNew = some at_ ∧ due at_) :=
  ⟨⟨3, 7, run, by decide +kernel⟩,
    ⟨3, 0xFC000002, (bnd up).wr .host (HST_CLI_CTRL 3) 0x40000001, by decide +kernel⟩,
    ⟨3, 1, 0, bnd up, by decide +kernel⟩,
    ⟨3, 0, 6, bnd up, by decide +kernel⟩,
    ⟨3, 0, 5, bnd up, by decide +kernel⟩,
    ⟨3, 0, up, by decide +kernel⟩,
    ⟨3, 17, bnd up, by decide +kernel⟩,
    ⟨3, 16, bnd up, by decide +kernel⟩,
    ⟨3, 0, up, by decide +kernel⟩,
    ⟨3, 17, bnd up, by decide +kernel⟩,
    ⟨3, 16, bnd up, by decide +kernel⟩,
    ⟨3, bnd run, by decide +kernel⟩,
    ⟨3, bnd up, by decide +kernel⟩,
    ⟨3, tim 2099, by decide +kernel⟩,
    ⟨3, msk (tim 2100) 0, 100, by decide +kernel⟩⟩
end W023

namespace W024
def hst (f : HostSt → HostSt) (s : State) : State := { s with host := f s.host }
def cli (f : ClientSt → ClientSt) (s : State) : State := s.onClient 3 f
def rt (k : Nat) (fl : Nat) : List Byte := padTo 32 (leBytes 1 k ++ leBytes 1 1 ++ leBytes 2 7 ++ leBytes 2 (3 + 4096
  + fl) ++ List.replicate 10 0#8 ++ leBytes 4 4096 ++ leBytes 4 4)
def img (fl : Nat) : Image := ⟨0, 0, ⟨[], [], [], [⟨5, 7, 300, 1⟩, ⟨5, 6, 301, 1⟩]⟩, [⟨4, 5, rt 0 fl ++ rt 2 0⟩]⟩
def act (fl : Nat) (s : State) : State := { s with seq := { s.seq with active := some (img fl) } }
def up : State := at_ (hst (fun h => { h with up := true, ready := true }) run) 1000
def bnd (s : State) : State := regsAt s .host [(HST_CLI_ID 3, 0x80000003), (HST_CLI_CTRL 3, 0xFC000002),
  (HST_CLI_Q_REC 3, 100), (HST_CLI_Q_CPL 3, 100), (HST_CLI_Q_DESC 3, 100), (HST_CLI_SIZE 3 0, 4), (HST_CLI_SIZE 3 2,
  4), (HST_CLI_SIZE 3 3, 4), (HST_CLI_SIZE 3 4, 4), (HST_CLI_SIZE 3 1, 4), (HST_CLI_WB_LO 3, 0x1000), (HST_CLI_PROD 3
  0, 5), (HST_CLI_INTMOD 3, 0x00020001), (HST_CLI_DATA_SIZE 3, 64), (HST_CLI_BASE_LO 3 0, 0x20000)]
def recB : List Byte := padTo 256 (leBytes 1 1 ++ List.replicate 7 0#8 ++ leBytes 8 77 ++ List.replicate 40 0#8 ++
  leBytes 5 (400 * segBytes) ++ leBytes 3 128)
def it : List Dword := itemHeader 1 256 0 :: bytesToWords recB
def withQ (q : Nat) (s : State) : State := s.setQ q { ErgQ.init with items := [it, [itemHeader 3 0 2]], wr := 40 }
def S (fl : Nat) : State := withQ 20 (act fl (bnd up))
def slow (s : State) : State := s.wr .dma (DMA_CH_RATE 7) 0
def hurt (s : State) : State := s.ergStrike (300 * segBytes + 64) true
def st (f : Option Nat) (s : State) : State := s.onObj 5 (fun x =>
  { x with staging := [⟨0, 64, 77, true, 0, some 900, []⟩, ⟨64, 64, 78, true, 0, f, []⟩] })
def job : DataCopy := ⟨1, 5, 2, 9, 500 * segBytes, 64, 7, [3], 4096, 4, 0, some 1⟩
def copying (s : State) : State := hst (fun h => { h with copies := [job] }) s
def verd (n : Word) (s : State) : State := s.wr .host (HST_CLI_PROD 3 1) n
def dsc (n : Word) (s : State) : State := (s.wr .host (HST_CLI_PROD 3 4) n).wr .dma (DMA_CH_OWNER 7) 0x40000003
def d1 : BitVec 512 := BitVec.ofNat 512 (ofLe (padTo 64 ([0#8, 0x10#8, 7#8, 0#8] ++ leBytes 2 3 ++ leBytes 2 0 ++
  leBytes 8 0 ++ leBytes 8 (102 * segBytes) ++ leBytes 4 64 ++ leBytes 4 1)))
def ownd (s : State) : State := s.allocSegs 3 100 4
/-- States and operands that meet the hypotheses of RecordsAreDelivered, clause by clause. -/
theorem test_recordsAreDelivered :
  (∃ (n : Fin 96) (s : State),
  let q := qOf n 0
  (delivers s q = false ∨ (s.ergQ q).items = [])) ∧
  (∃ (n : Fin 96) (s : State),
  let q := qOf n 0
  ∃ it rest, delivers s q = true ∧ (s.ergQ q).items = it :: rest ∧ qHeadBad s q = true) ∧
  (∃ (n : Fin 96) (s : State),
  let q := qOf n 0
  ∃ it rest,
  let r := routeAt s n 0 (routeIdx s n 0)
  let waits : Bool := match itemBytes it with | some b => !copyFree s (leAt (r.getD []) 2 1) (cutsDue s (r.getD []) b ((r.map routeClients).getD [])) | none => false
  delivers s q = true ∧ (s.ergQ q).items = it :: rest ∧ qHeadBad s q = false ∧ waits = true) ∧
  (∃ (n : Fin 96) (s : State),
  let q := qOf n 0
  ∃ it rest,
  let r := routeAt s n 0 (routeIdx s n 0)
  let waits : Bool := match itemBytes it with | some b => !copyFree s (leAt (r.getD []) 2 1) (cutsDue s (r.getD []) b ((r.map routeClients).getD [])) | none => false
  delivers s q = true ∧ (s.ergQ q).items = it :: rest ∧ qHeadBad s q = false ∧ waits = false) ∧
  (∃ (n : Fin 96) (s : State),
  let q := qOf n 0
  ∃ it rest, ∃ route b cli, delivers s q = true ∧ (s.ergQ q).items = it :: rest ∧ qHeadBad s q = false ∧ itemBytes it
    = some b ∧ routeAt s n 0 (routeIdx s n 0) = some route ∧ routeClients route = [cli] ∧ takesCopy (leAt b 0 1) cli
    = true ∧ tbit cli 14 = false ∧ bound s (cli % 1024) = true ∧ (s.client (cli % 1024)).recGap = none) ∧
  (∃ (c : Fin 1024) (r : Fin 5) (s : State), (r.val = 1 ∨ r.val = 4 ∨ ringOn s c r = false ∨ s.host.up = false ∨
    ringRoom s c r = false)) ∧
  (∃ (c : Fin 1024) (r : Fin 5) (s : State), r.val = 0 ∧ (s.client c).recGap = none) ∧
  (∃ (c : Fin 1024) (r : Fin 5) (s : State), r.val = 2 ∧ (s.client c).cplGap = none) ∧
  (∃ (c : Fin 1024) (r : Fin 5) (s : State), r.val = 3 ∧ (s.client c).errGap = 0) ∧
  (∃ (c : Fin 1024) (r : Fin 5) (s : State), ringOn s c r = true ∧ s.host.up = true ∧ ringRoom s c r = true ∧ ((r.val
    = 0 ∧ (s.client c).recGap ≠ none ∨ r.val = 2 ∧ (s.client c).cplGap ≠ none ∨ r.val = 3 ∧ (s.client c).errGap ≠
    0))) :=
  ⟨⟨5, act 0 (bnd up), by decide +kernel⟩,
    ⟨5, hurt (S 0), it, [[itemHeader 3 0 2]], by decide +kernel⟩,
    ⟨5, slow (S 16384), it, [[itemHeader 3 0 2]], by decide +kernel⟩,
    ⟨5, S 16384, it, [[itemHeader 3 0 2]], by decide +kernel⟩,
    ⟨5, S 0, it, [[itemHeader 3 0 2]], rt 0 0, recB, 4099, by decide +kernel⟩,
    ⟨3, 1, bnd up, by decide +kernel⟩,
    ⟨3, 0, bnd up, by decide +kernel⟩,
    ⟨3, 2, bnd up, by decide +kernel⟩,
    ⟨3, 3, bnd up, by decide +kernel⟩,
    ⟨3, 0, cli (fun c => { c with recGap := some ⟨4, 5, 6⟩ }) (bnd up), by decide +kernel⟩⟩
/-- States and operands that meet the hypotheses of DataVerdictsAndDescriptorsCross, clause by clause. -/
theorem test_dataVerdictsAndDescriptorsCross :
  (∃ (n : Fin 96) (s : State), ∃ (st : Bool), s.host.up = false) ∧
  (∃ (n : Fin 96) (s : State), s.host.up = true ∧ s.host.copies.find? (fun j => j.stream == n.val && j.kind == 1 &&
    dataFree s j j.size) = none) ∧
  (∃ (n : Fin 96) (s : State), ∃ j, s.host.up = true ∧ s.host.copies.find? (fun j => j.stream == n.val && j.kind == 1
    && dataFree s j j.size) = some j) ∧
  (∃ (n : Fin 96) (s : State), s.host.up = true ∧ ((s.ergQ (qOf n 1)).items = [] ∨ delivers s (qOf n 1) = false)) ∧
  (∃ (n : Fin 96) (s : State), ∃ it rest,
  let job := (itemBytes it).bind (fun b => match s.host.copies.find? (fun j => j.stream == n.val && j.kind == 2 && j.strip == leAt b 0 4) with | some j => some j | none => (routeAt s n 2 (routeIdx s n 2)).map (fun r => DataCopy.ofRoute r 2 n (leAt b 0 4) 0 b.length none))
  let free := job.all (fun j => dataFree s j ((itemBytes it).getD []).length)
  s.host.up = true ∧ (s.ergQ (qOf n 1)).items = it :: rest ∧ delivers s (qOf n 1) = true ∧ qHeadBad s (qOf n 1) =
    false ∧ free = false) ∧
  (∃ (n : Fin 96) (s : State), ∃ it rest,
  let job := (itemBytes it).bind (fun b => match s.host.copies.find? (fun j => j.stream == n.val && j.kind == 2 && j.strip == leAt b 0 4) with | some j => some j | none => (routeAt s n 2 (routeIdx s n 2)).map (fun r => DataCopy.ofRoute r 2 n (leAt b 0 4) 0 b.length none))
  let free := job.all (fun j => dataFree s j ((itemBytes it).getD []).length)
  s.host.up = true ∧ (s.ergQ (qOf n 1)).items = it :: rest ∧ delivers s (qOf n 1) = true ∧ (qHeadBad s (qOf n 1) =
    true ∨ free = true)) ∧
  (∃ (c : Fin 1024) (es : List (BitVec 128)) (late : Nat) (s : State),
  let k := verdictsFlying s c
  let n := min 16 (min (ringUsed s c 1 - k) es.length)
  (verdictTurn s c = false ∨ s.host.up = false ∨ n = 0 ∨ tagFree s none = false)) ∧
  (∃ (c : Fin 1024) (es : List (BitVec 128)) (late : Nat) (s : State),
  let k := verdictsFlying s c
  let n := min 16 (min (ringUsed s c 1 - k) es.length)
  verdictTurn s c = true ∧ s.host.up = true ∧ n ≠ 0 ∧ tagFree s none = true) ∧
  (∃ (c : Fin 1024) (desc : BitVec 512) (late : Nat) (s : State),
  let bs := leBytes 64 desc.toNat
  let ch := leAt bs 2 1
  let waits := ch < 64 ∧ 64 ≤ (s.dmaCh ch).queue.length ∨ (s.rd .host (HST_CLI_Q_DESC c)).toNat ≤ (s.rd .host (HST_CLI_USE_DESC c)).toNat ∨ tagFree s none = false
  (waits ∨ ringOn s c 4 = false ∨ s.host.up = false ∨ ringUsed s c 4 = 0)) ∧
  (∃ (c : Fin 1024) (desc : BitVec 512) (late : Nat) (s : State),
  let bs := leBytes 64 desc.toNat
  let ch := leAt bs 2 1
  let waits := ch < 64 ∧ 64 ≤ (s.dmaCh ch).queue.length ∨ (s.rd .host (HST_CLI_Q_DESC c)).toNat ≤ (s.rd .host (HST_CLI_USE_DESC c)).toNat ∨ tagFree s none = false
  (¬ waits) ∧ ringOn s c 4 = true ∧ s.host.up = true ∧ ringUsed s c 4 ≠ 0) :=
  ⟨⟨5, run, true, by decide +kernel⟩,
    ⟨5, slow (copying (S 0)), by decide +kernel⟩,
    ⟨5, copying (S 0), job, by decide +kernel⟩,
    ⟨5, S 0, by decide +kernel⟩,
    ⟨5, slow (withQ 21 (act 0 (bnd up))), it, [[itemHeader 3 0 2]], by decide +kernel⟩,
    ⟨5, withQ 21 (act 0 (bnd up)), it, [[itemHeader 3 0 2]], by decide +kernel⟩,
    ⟨3, [7], 5, bnd up, by decide +kernel⟩,
    ⟨3, [7, 8, 9], 5, verd 2 (bnd up), by decide +kernel⟩,
    ⟨3, d1, 5, bnd up, by decide +kernel⟩,
    ⟨3, d1, 5, ownd (dsc 2 (bnd up)), by decide +kernel⟩⟩
end W024

namespace W025
def jobB (op fl : Nat) (wadi : Nat) : List Byte := padTo 64 (leBytes 1 op ++ leBytes 1 fl ++ List.replicate 6 0#8 ++
  leBytes 8 (100 * segBytes) ++ leBytes 4 10 ++ leBytes 2 3 ++ leBytes 2 0 ++ leBytes 8 (101 * segBytes) ++ leBytes 4
  64 ++ leBytes 4 0 ++ leBytes 8 wadi ++ leBytes 8 (102 * segBytes))
def J (op fl : Nat) : CmpJob := CmpJob.ofBytes (jobB op fl 0)
def own : State := run.allocSegs 3 100 4
def sub_ (b : List Byte) : State := (own.ergWrite (103 * segBytes) b).wr64 .cmp (CMP_SUBMIT_LO 1) (CMP_SUBMIT_HI 1)
  (103 * segBytes)
def un (f : CmpUnit → CmpUnit) (s : State) : State := s.setCmp 1 (f (s.cmpU 1))
def hurt (s : State) : State := s.ergStrike (100 * segBytes) true
def dat (b : List Byte) (s : State) : State := s.ergWrite (100 * segBytes) b
def rn (op fl : Nat) (s : State) : State := un (fun u =>
  { u with running := some (J op fl), queue := [J 1 0, J 64 0] }) s
def stored : List Byte := [1#8, 5#8, 0#8, 0xFA#8, 0xFF#8, 1#8, 2#8, 3#8, 4#8, 5#8]
/-- States and operands that meet the hypotheses of CompressionJobsRunInOrder, clause by clause. -/
theorem test_compressionJobsRunInOrder :
  (∃ (e : Fin 4) (s : State),
  let u := s.cmpU e
  (u.running ≠ none ∨ u.queue = [])) ∧
  (∃ (e : Fin 4) (s : State),
  let u := s.cmpU e
  let sync := u.opened.any (fun o => o.1)
  ∃ j rest, u.running = none ∧ u.queue = j :: rest ∧ (j.cont = false ∨ j.mode ≠ 1 ∧ sync = true)) ∧
  (∃ (e : Fin 4) (s : State),
  let u := s.cmpU e
  let sync := u.opened.any (fun o => o.1)
  ∃ j rest, u.running = none ∧ u.queue = j :: rest ∧ j.cont = true ∧ (j.mode = 1 ∨ sync = false)) ∧
  (∃ (e : Fin 4) (raw : List Byte) (s : State),
  let u := s.cmpU e
  u.running = none) ∧
  (∃ (e : Fin 4) (raw : List Byte) (s : State),
  let u := s.cmpU e
  ∃ j, u.running = some j) ∧
  (∃ (e : Fin 4) (s : State), ∃ j, (s.cmpU e).running = some j ∧ j.mode = 0) ∧
  (∃ (e : Fin 4) (s : State), ((∀ j, (s.cmpU e).running = some j → j.mode ≠ 0))) :=
  ⟨⟨1, own, by decide +kernel⟩,
    ⟨1, un (fun u => { u with queue := [J 64 0, J 1 0] }) own, J 64 0, [J 1 0], by decide +kernel⟩,
    ⟨1, un (fun u => { u with queue := [J 64 1, J 1 0], opened := some (false, 0, [7#8]) }) own, J 64 1, [J 1 0],
      by decide +kernel⟩,
    ⟨1, [], own, by decide +kernel⟩,
    ⟨1, [], dat stored (rn 1 0 own), J 1 0, by decide +kernel⟩,
    ⟨1, rn 64 0 own, J 64 0, by decide +kernel⟩,
    ⟨1, rn 1 0 own, by decide +kernel⟩⟩
end W025

namespace W026
def t0 : State := at_ run 5000
def lk (c : Nat) (s : State) : State := s.setb .evt (EVT_CH_CTRL c) 30 true
def pr (id : Nat) (v : Word) (s : State) : State := s.wr .evt (EVT_PROD id) v
def ch (f : ChSt → ChSt) (s : State) : State := s.onCh 7 f
def ev (o c : Nat) : EvtRec := ⟨o, c, 9, 4990, 0x232, 2400⟩
def bus (n : Nat) (s : State) : State :=
  { s with evt := { s.evt with bus := ev 3 8 :: (List.range n).map (fun i => ev (20 - i) 7) } }
def ent (s : State) : State := ch (fun x => { x with entered := [ev 1 7, ev 2 7], window := 0, inWindow := 2 }) s
def wat (tb : Nat) : State := at_ (pr 0x237 0x80000004 ((ch (fun x => { x with watchFrom := 100 }) run).wr .evt
  (EVT_CH_RATE 7) 3)) tb
def cl (f : CellSt → CellSt) (s : State) : State := s.onCell 3 f
def on3 (v : Word) (s : State) : State := regsAt s .evt [(EVT_CELL_CTRL 3, v), (EVT_CELL_INA 3, 0x807),
  (EVT_CELL_STUCK 3, 1)]
/-- States and operands that meet the hypotheses of EventsEnterAndReachConsumers, clause by clause. -/
theorem test_eventsEnterAndReachConsumers :
  (∃ (id : Fin 640) (v : Word) (s : State), prodIs id = false) ∧
  (∃ (id : Fin 640) (v : Word) (s : State),
  let old := s.rd .evt (EVT_PROD id)
  prodIs id = true ∧ (bit old 31 && chLocked s (bits old 7 0)) = false ∧ (bit v 31 && chLocked s (bits v 7 0)) =
    false) ∧
  (∃ (id : Fin 640) (v : Word) (s : State),
  let old := s.rd .evt (EVT_PROD id)
  let locked (w : Word) (c : Nat) := bit w 31 = true ∧ bits w 7 0 = c ∧ chLocked s c = true
  ∃ (c : Nat), prodIs id = true ∧ (locked old c ∨ locked v c)) ∧
  (∃ (v : Word) (s : State),
  let c := bits v 7 0
  let refused := (s.flag .evt (EVT_CH_CTRL c) 31 && !s.flag .evt (EVT_CH_CTRL c) 29) || chLocked s c
  refused = true) ∧
  (∃ (v : Word) (s : State),
  let c := bits v 7 0
  let refused := (s.flag .evt (EVT_CH_CTRL c) 31 && !s.flag .evt (EVT_CH_CTRL c) 29) || chLocked s c
  refused = false) ∧
  (∃ (c : Fin 256) (v : Word) (s : State), chLocked s c = true ∧ s.fld .evt (EVT_CH_CTRL c) 29 28 ≠ bits v 29 28) ∧
  (∃ (c : Fin 256) (v : Word) (s : State), (chLocked s c = false ∨ s.fld .evt (EVT_CH_CTRL c) 29 28 = bits v 29 28))
    ∧
  (∃ (c : Fin 256) (s : State), (enterCycle s c).all (fun k => decide (fabricNow s ≤ k)) = true) ∧
  (∃ (c : Fin 256) (s : State), ∃ k, enterCycle s c = some k ∧ k < fabricNow s) ∧
  (∃ (c : Fin 256) (s : State), (evtCh s c).entered = []) ∧
  (∃ (c : Fin 256) (s : State), ∃ e es,
  let w := s.now / 1000000
  let n := if (evtCh s c).window = w then (evtCh s c).inWindow else 0
  let limit := s.fld .evt (EVT_CH_RATE c) 31 16
  (evtCh s c).entered = e :: es ∧ e.ch = c ∧ 0 < limit ∧ limit ≤ n) ∧
  (∃ (c : Fin 256) (s : State), ∃ e es,
  let w := s.now / 1000000
  let n := if (evtCh s c).window = w then (evtCh s c).inWindow else 0
  let limit := s.fld .evt (EVT_CH_RATE c) 31 16
  (evtCh s c).entered = e :: es ∧ e.ch = c ∧ (limit = 0 ∨ n < limit)) ∧
  (∃ (c : Fin 256) (s : State),
  let w := s.fld .evt (EVT_CH_RATE c) 15 0
  let due := 0 < w ∧ s.flag .evt (EVT_CH_STATUS c) 1 = false ∧ (evtCh s c).watchFrom + w * 1000 ≤ s.now
  (¬ due)) ∧
  (∃ (c : Fin 256) (s : State),
  let w := s.fld .evt (EVT_CH_RATE c) 15 0
  let due := 0 < w ∧ s.flag .evt (EVT_CH_STATUS c) 1 = false ∧ (evtCh s c).watchFrom + w * 1000 ≤ s.now
  due) :=
  ⟨⟨0x239, 5, t0, by decide +kernel⟩,
    ⟨0x232, 0x80000007, lk 8 t0, by decide +kernel⟩,
    ⟨0x232, 0x80000007, lk 7 t0, 7, by decide +kernel⟩,
    ⟨7, lk 7 t0, by decide +kernel⟩,
    ⟨7, lk 8 t0, by decide +kernel⟩,
    ⟨7, 0x20000000, lk 7 t0, by decide +kernel⟩,
    ⟨7, 0xFFFFFFFF, t0, by decide +kernel⟩,
    ⟨7, t0, by decide +kernel⟩,
    ⟨7, bus 12 t0, 2400, by decide +kernel⟩,
    ⟨7, t0, by decide +kernel⟩,
    ⟨7, (ent t0).wr .evt (EVT_CH_RATE 7) 0x20000, ev 1 7, [ev 2 7], by decide +kernel⟩,
    ⟨7, (ent t0).wr .evt (EVT_CH_RATE 7) 0x30000, ev 1 7, [ev 2 7], by decide +kernel⟩,
    ⟨7, wat 3099, by decide +kernel⟩,
    ⟨7, wat 3100, by decide +kernel⟩⟩
/-- States and operands that meet the hypotheses of LogicCellsEvaluate, clause by clause. -/
theorem test_logicCellsEvaluate :
  (∃ (k : Fin 32) (s : State),
  let cyc := fabricNow s
  let e := evtCell s k
  let c := (cellRegs s k cyc).2.2
  (bit c 31 = false ∨ cyc ≤ e.cyc)) ∧
  (∃ (k : Fin 32) (s : State),
  let cyc := fabricNow s
  let e := evtCell s k
  let c := (cellRegs s k cyc).2.2
  bit c 31 = true ∧ e.cyc < cyc) ∧
  (∃ (k : Fin 32) (s : State),
  let cyc := fabricNow s
  let e := evtCell s k
  let ms := s.fld .evt (EVT_CELL_STUCK k) 7 0
  let due := !e.cleared cyc && e.since.any (fun at_ => decide (0 < ms ∧ at_ + ms * 1000000 < s.now))
  due = true) ∧
  (∃ (k : Fin 32) (s : State),
  let cyc := fabricNow s
  let e := evtCell s k
  let ms := s.fld .evt (EVT_CELL_STUCK k) 7 0
  let due := !e.cleared cyc && e.since.any (fun at_ => decide (0 < ms ∧ at_ + ms * 1000000 < s.now))
  due = false) :=
  ⟨⟨3, t0, by decide +kernel⟩,
    ⟨3, on3 0x80000002 (t0.wr .evt (EVT_CH_ARG 7) 1), by decide +kernel⟩,
    ⟨3, on3 0 (at_ (cl (fun x => { x with out := true, since := some 5 }) run) 1000006), by decide +kernel⟩,
    ⟨3, on3 0 (at_ (cl (fun x => { x with out := true, since := some 5 }) run) 1000005), by decide +kernel⟩⟩
end W026

namespace W027
def tab : RouteTab := ⟨9, 5, 2, [1, 2, 0, 3], [0, 20, 0, 0], [0, 30, 0, 0]⟩
def link (p : Nat) (s : State) : State := (prt s (24 + p) phActive).setb .cvn (CVN_PORT_STATUS p) 29 true
def cv : State := let s := link 0 (link 1 (link 3 (at_ run 10000000))); { s with cvn := { s.cvn with cur := tab } }
def put (p : Nat) (c : Cell) (s : State) : State := s.cvPut p c none
def mc (cls dst : Nat) (resp : Bool) : Cell := newCell cv cls resp false dst [1#8, 2#8] .plain
def oc (cls dst : Nat) (resp : Bool) : OutCell := ⟨mc cls dst resp, none⟩
def q3 : State := put 0 (mc 0 0 false) (put 0 (mc 2 7 false) (put 0 (mc 4 7 true) cv))
def raw (c : Cell) : List Byte := c.bytes 3 4
def wire (cls dst hops : Nat) : List Byte := raw { mc cls dst false with hops := hops, gen0 := true }
def pt (f : CvPort → CvPort) (s : State) : State := s.onCv 0 f
def sy (s : State) : State := s.wr .cvn CVN_SYNC 1000
def rsp (d : Nat) (s : State) : State := sy (pt (fun x =>
  { x with rsp := some (1000000, 1000000 + d + 25600, 2000000, 2000000 + 25600), t1 := some 1000000 }) s)
def disc (st : Nat) (s : State) : State := ((s.setb .time HST_TB_CTRL 0 true).put .time HST_TB_STATUS 1 0 st).wr
  .time HST_TB_RATE 77
def bad (b : List Byte) : List Byte := patch b 12 [0xAA#8]
def rcv (p : Nat) (b : List Byte) (s : State) : State := s.onLnk (24 + p) (fun x => { x with cells := [b, [1#8]] })
/-- States and operands that meet the hypotheses of CaravanCellsLeaveAndArrive, clause by clause. -/
theorem test_caravanCellsLeaveAndArrive :
  (∃ (p : Fin 4) (fine : Byte) (s : State), cvActive s p = false) ∧
  (∃ (p : Fin 4) (fine : Byte) (s : State), cvActive s p = true ∧ txNext s p = none) ∧
  (∃ (p : Fin 4) (fine : Byte) (s : State), ∃ e, cvActive s p = true ∧ txNext s p = some e ∧ s.cvn.evtWait = none) ∧
  (∃ (p : Fin 4) (s : State),
  let x := cvPort s p
  let due := cvActive s p = true ∧ x.lastTx + 500 ≤ s.now ∧ x.out.any (fun e => e.cell.cls == 0) = false
  (¬ due)) ∧
  (∃ (p : Fin 4) (s : State),
  let x := cvPort s p
  let due := cvActive s p = true ∧ x.lastTx + 500 ≤ s.now ∧ x.out.any (fun e => e.cell.cls == 0) = false
  due) ∧
  (∃ (p : Fin 4) (msg : CvnMsg) (fine : Byte) (s : State), (cvActive s p = false ∨ (s.lnkPort (24 + p)).cells = []))
    ∧
  (∃ (p : Fin 4) (msg : CvnMsg) (fine : Byte) (s : State) (bs : List Byte) (rest : List (List Byte)), cvActive s p =
    true ∧ (s.lnkPort (24 + p)).cells = bs :: rest ∧ crc8 (bs.take 7) ≠ leAt bs 7 1) ∧
  (∃ (p : Fin 4) (msg : CvnMsg) (fine : Byte) (s : State) (bs : List Byte) (rest : List (List Byte)),
  let c := Cell.ofBytes bs msg
  cvActive s p = true ∧ (s.lnkPort (24 + p)).cells = bs :: rest ∧ crc8 (bs.take 7) = leAt bs 7 1 ∧ 6 ≤ c.cls) ∧
  (∃ (p : Fin 4) (msg : CvnMsg) (fine : Byte) (s : State) (bs : List Byte) (rest : List (List Byte)),
  let c := Cell.ofBytes bs msg
  let goodHead := crc8 (bs.take 7) = leAt bs 7 1 ∧ c.cls < 6
  let goodCrc := crc32c (bs.take 60) = leAt bs 60 4
  cvActive s p = true ∧ (s.lnkPort (24 + p)).cells = bs :: rest ∧ goodHead ∧ s.cvn.evtWait = none ∧ (¬ goodCrc)) ∧
  (∃ (p : Fin 4) (msg : CvnMsg) (fine : Byte) (s : State) (bs : List Byte) (rest : List (List Byte)),
  let c := Cell.ofBytes bs msg
  let goodHead := crc8 (bs.take 7) = leAt bs 7 1 ∧ c.cls < 6
  let goodCrc := crc32c (bs.take 60) = leAt bs 60 4
  cvActive s p = true ∧ (s.lnkPort (24 + p)).cells = bs :: rest ∧ goodHead ∧ s.cvn.evtWait = none ∧ goodCrc ∧ 48 ≤
    c.hops) ∧
  (∃ (p : Fin 4) (msg : CvnMsg) (fine : Byte) (s : State) (bs : List Byte) (rest : List (List Byte)),
  let c := Cell.ofBytes bs msg
  let goodHead := crc8 (bs.take 7) = leAt bs 7 1 ∧ c.cls < 6
  let goodCrc := crc32c (bs.take 60) = leAt bs 60 4
  let route := (tableFor s c.gen0).bind (fun t => cvRoute s t c.dst)
  cvActive s p = true ∧ (s.lnkPort (24 + p)).cells = bs :: rest ∧ goodHead ∧ s.cvn.evtWait = none ∧ goodCrc ∧ c.hops
    < 48 ∧ (c.cls = 2 ∨ c.cls = 4) ∧ route = some none) ∧
  (∃ (p : Fin 4) (msg : CvnMsg) (fine : Byte) (s : State) (bs : List Byte) (rest : List (List Byte)),
  let c := Cell.ofBytes bs msg
  let goodHead := crc8 (bs.take 7) = leAt bs 7 1 ∧ c.cls < 6
  let goodCrc := crc32c (bs.take 60) = leAt bs 60 4
  let route := (tableFor s c.gen0).bind (fun t => cvRoute s t c.dst)
  ∃ q, cvActive s p = true ∧ (s.lnkPort (24 + p)).cells = bs :: rest ∧ goodHead ∧ s.cvn.evtWait = none ∧ goodCrc ∧
    c.hops < 48 ∧ (c.cls = 2 ∨ c.cls = 4) ∧ route = some (some q)) ∧
  (∃ (p : Fin 4) (msg : CvnMsg) (fine : Byte) (s : State) (bs : List Byte) (rest : List (List Byte)),
  let c := Cell.ofBytes bs msg
  let goodHead := crc8 (bs.take 7) = leAt bs 7 1 ∧ c.cls < 6
  let goodCrc := crc32c (bs.take 60) = leAt bs 60 4
  let route := (tableFor s c.gen0).bind (fun t => cvRoute s t c.dst)
  cvActive s p = true ∧ (s.lnkPort (24 + p)).cells = bs :: rest ∧ goodHead ∧ s.cvn.evtWait = none ∧ goodCrc ∧ c.hops
    < 48 ∧ (c.cls = 2 ∨ c.cls = 4) ∧ route = none ∧ bufHeld s (p, c.resp, s.cvn.rxNo) = false) :=
  ⟨⟨0, 5, run, by decide +kernel⟩,
    ⟨0, 5, cv, by decide +kernel⟩,
    ⟨0, 5, q3, oc 0 0 false, by decide +kernel⟩,
    ⟨0, q3, by decide +kernel⟩,
    ⟨0, cv, by decide +kernel⟩,
    ⟨0, .plain, 0, cv, by decide +kernel⟩,
    ⟨0, .plain, 0, rcv 0 ([1#8]) (cv), [1#8], [[1#8]], by decide +kernel⟩,
    ⟨0, .plain, 0, rcv 0 ((wire 6 25 0)) (cv), (wire 6 25 0), [[1#8]], by decide +kernel⟩,
    ⟨0, .plain, 0, rcv 0 (bad (wire 2 25 0)) (cv), bad (wire 2 25 0), [[1#8]], by decide +kernel⟩,
    ⟨0, .plain, 0, rcv 0 ((wire 2 25 48)) (cv), (wire 2 25 48), [[1#8]], by decide +kernel⟩,
    ⟨0, .plain, 0, rcv 0 ((wire 2 5 47)) (cv), (wire 2 5 47), [[1#8]], by decide +kernel⟩,
    ⟨0, .plain, 0, rcv 0 ((wire 4 25 47)) (cv), (wire 4 25 47), [[1#8]], 1, by decide +kernel⟩,
    ⟨1, .plain, 0, rcv 1 ((wire 2 25 0)) (cv.setb .cvn (CVN_PORT_STATUS 1) 29 false), (wire 2 25 0), [[1#8]],
      by decide +kernel⟩⟩
/-- States and operands that meet the hypotheses of TimeTransferDisciplinesTb, clause by clause. -/
theorem test_timeTransferDisciplinesTb :
  (∃ (p : Fin 4) (s : State),
  let x := cvPort s p
  let due := (uplinks s).contains p.val = true ∧ cvLink s p = true ∧ x.reqAt.all (fun at_ => decide (at_ + s.fld .cvn CVN_SYNC 15 0 * 1000 ≤ s.now)) = true
  (¬ due)) ∧
  (∃ (p : Fin 4) (s : State),
  let x := cvPort s p
  let due := (uplinks s).contains p.val = true ∧ cvLink s p = true ∧ x.reqAt.all (fun at_ => decide (at_ + s.fld .cvn CVN_SYNC 15 0 * 1000 ≤ s.now)) = true
  due) ∧
  (∃ (p : Fin 4) (s : State),
  let x := cvPort s p
  x.answer = none) ∧
  (∃ (p : Fin 4) (s : State),
  let x := cvPort s p
  ∃ t1 t2, x.answer = some (t1, t2)) ∧
  (∃ (p : Fin 4) (s : State), (cvPort s p).rsp = none) ∧
  (∃ (p : Fin 4) (s : State), ∃ t1 t2 t3 t4, (cvPort s p).rsp = some (t1, t2, t3, t4)) ∧
  (∃ (s : State),
  let on := s.flag .time HST_TB_CTRL 0 = true ∧ (s.fld .time HST_TB_STATUS 1 0 = 1 ∨ s.fld .time HST_TB_STATUS 1 0 = 2)
  ((uplinks s).any (fun p => syncFresh s p) = true ∨ ¬ on)) ∧
  (∃ (s : State),
  let on := s.flag .time HST_TB_CTRL 0 = true ∧ (s.fld .time HST_TB_STATUS 1 0 = 1 ∨ s.fld .time HST_TB_STATUS 1 0 = 2)
  (uplinks s).any (fun p => syncFresh s p) = false ∧ on) :=
  ⟨⟨1, cv, by decide +kernel⟩,
    ⟨0, cv, by decide +kernel⟩,
    ⟨0, cv, by decide +kernel⟩,
    ⟨0, pt (fun x => { x with answer := some (5, 6) }) cv, 5, 6, by decide +kernel⟩,
    ⟨0, cv, by decide +kernel⟩,
    ⟨0, rsp 0 (disc 2 cv), 1000000, 1025600, 2000000, 2025600, by decide +kernel⟩,
    ⟨cv, by decide +kernel⟩,
    ⟨disc 2 (sy cv), by decide +kernel⟩⟩
end W027

namespace W028
def tab : RouteTab := ⟨9, 5, 2, [1, 2, 0, 3], [0, 20, 0, 0], [0, 30, 0, 0]⟩
def link (p : Nat) (s : State) : State := (prt (s.setb .phy (phyCtrl (24 + p)) 31 true) (24 + p) phActive).setb .cvn
  (CVN_PORT_STATUS p) 29 true
def cv : State := let s := link 0 (link 1 (link 3 (at_ run 10000000))); { s with cvn := { s.cvn with cur := tab } }
def heard (p : Nat) (tb : Nat) (s : State) : State := s.onCv p (fun x =>
  { x with synced := true, lastGood := tb, sentReq := 4, nbrGen := 3, t1 := some 4 })
def up2 (s : State) : State := (s.setb .cvn CVN_STATUS 26 true).put .cvn CVN_STATUS 25 24 3
def disc (s : State) : State := ((s.setb .time HST_TB_CTRL 0 true).put .time HST_TB_STATUS 1 0 2)
def noRef : State := match Sys2Proof.Machine.exec .cvRefclkLoss cv with | .next t => t | _ => run
def rr (b : Bool) (lo : Nat) (s : State) : State :=
  { s with cvn := { s.cvn with inbox := [⟨1, newCell s 5 false b 0 [] (.reroute lo 29), none⟩] } }
def ic (b : Bool) (lo : Nat) : InCell := ⟨1, newCell cv 5 false b 0 [] (.reroute lo 29), none⟩
def many (s : State) : State :=
  { s with cvn := { s.cvn with overrides := (List.range 16).map (fun i => (i + 12, 29, 0)) } }
/-- States and operands that meet the hypotheses of SpanLinksFailAndReroute, clause by clause. -/
theorem test_spanLinksFailAndReroute :
  (∃ (p : Fin 4) (how : SpanLoss) (s : State),
  let quiet := max (cvPort s p).lastGood (s.phyPort (24 + p)).entered + 1500 ≤ s.now
  (cvActive s p = false ∨ how = .silence ∧ ¬ quiet)) ∧
  (∃ (p : Fin 4) (how : SpanLoss) (s : State),
  let quiet := max (cvPort s p).lastGood (s.phyPort (24 + p)).entered + 1500 ≤ s.now
  cvActive s p = true ∧ (how ≠ .silence ∨ quiet)) ∧
  (∃ (s : State), refOk s 24 = false) ∧
  (∃ (s : State), refOk s 24 = true) ∧
  (∃ (s : State), refOk s 24 = true) ∧
  (∃ (s : State), refOk s 24 = false) ∧
  (∃ (p : Fin 4) (s : State),
  let held := s.oldest p (fun m => match m with | .reroute _ _ => true | _ => false)
  held = none) ∧
  (∃ (p : Fin 4) (s : State),
  let held := s.oldest p (fun m => match m with | .reroute _ _ => true | _ => false)
  ∃ e lo hi, held = some e ∧ e.cell.msg = .reroute lo hi) :=
  ⟨⟨0, .sig, run, by decide +kernel⟩,
    ⟨0, .silence, heard 0 9998500 cv, by decide +kernel⟩,
    ⟨noRef, by decide +kernel⟩,
    ⟨disc (heard 0 9998501 cv), by decide +kernel⟩,
    ⟨cv, by decide +kernel⟩,
    ⟨noRef, by decide +kernel⟩,
    ⟨1, cv, by decide +kernel⟩,
    ⟨1, rr false 20 cv, ic false 20, 20, 29, by decide +kernel⟩⟩
end W028

namespace W029
def hst (f : HostSt → HostSt) (s : State) : State := { s with host := f s.host }
def cvn (f : CvnSt → CvnSt) (s : State) : State := { s with cvn := f s.cvn }
def mr : MbxRun := ⟨0x20, 5, none, []⟩
def mbxS (a : Word) (s : State) : State := hst (fun h => { h with mbx := some mr }) (s.wr .host (HST_MBX_ARG 0) a)
def tab : RouteTab := ⟨9, 5, 2, [1, 2, 0, 3], [0, 20, 0, 0], [0, 30, 0, 0]⟩
def link (p : Nat) (s : State) : State := (prt s (24 + p) phActive).setb .cvn (CVN_PORT_STATUS p) 29 true
def cv : State := cvn (fun c => { c with cur := tab }) (link 0 (link 1 (link 3 (at_ run 1000000000))))
def root (s : State) : State := s.setb .cvn CVN_STATUS 31 true
def busy (s : State) : State := s.setb .cvn CVN_STATUS 28 true
def pass (w : EnumWait) (par : Option Nat) (port : Nat) (d : Bool) : EnumSt :=
  ⟨{ RouteTab.init with gen := 10, id := 6, depth := 3 }, 77, par, port, w, 12, 4, true, false, 3, d, 900000000⟩
def wp (e : EnumSt) (s : State) : State := cvn (fun c => { c with pass := some e }) s
def ic (p : Nat) (m : CvnMsg) : InCell := ⟨p, newCell cv 5 false false 0 [] m, some (p, false, 3)⟩
def inn (p : Nat) (m : CvnMsg) (s : State) : State := cvn (fun c => { c with inbox := [ic p m] }) s
def auto (n : Nat) : State := cvn (fun c => { c with change := some 990000000 }) ((root cv).wr .cvn CVN_CTRL
  (BitVec.ofNat 32 (2 ^ 30 + n * 2 ^ 16)))
def dead (p : Nat) (s : State) : State := prt s (24 + p) phDetect
def com (i : Nat) : RouteTab := ⟨10, i, 3, [2, 1, 0, 3], [7, 0, 0, 0], [12, 0, 0, 0]⟩
def swi (i tb : Nat) : State := at_ (cvn (fun c =>
  { c with commit := some (1000, 50, com i), overrides := [(1, 2, 3)] }) (cv.put .cvn CVN_ID 11 0 5)) tb
def exp_ (tb : Nat) : State := at_ (cvn (fun c => { c with prev := some (tab, 1000) }) cv) tb
def poor (s : State) : State := s.onCv 1 (fun x => { x with sentRsp := 20, ackRsp := 4 })
def rsv (p : Nat) (s : State) : State := s.onCv p (fun x => { x with resv := 8 })
/-- States and operands that meet the hypotheses of EnumerationStartsAndWalks, clause by clause. -/
theorem test_enumerationStartsAndWalks :
  (∃ (s : State) (r : MbxRun), s.mbxWorks 0x20 r ∧ isRoot s = false) ∧
  (∃ (s : State) (r : MbxRun), s.mbxWorks 0x20 r ∧ isRoot s = true ∧ s.flag .cvn CVN_STATUS 28 = true) ∧
  (∃ (s : State) (r : MbxRun), s.mbxWorks 0x20 r ∧ isRoot s = true ∧ s.flag .cvn CVN_STATUS 28 = false ∧ tbit (mbxArg
    s 0) 0 = false) ∧
  (∃ (s : State) (r : MbxRun), s.mbxWorks 0x20 r ∧ isRoot s = true ∧ s.flag .cvn CVN_STATUS 28 = false ∧ tbit (mbxArg
    s 0) 0 = true) ∧
  (∃ (s : State),
  let due := isRoot s = true ∧ s.flag .cvn CVN_CTRL 30 = true ∧ s.flag .cvn CVN_STATUS 28 = false ∧ s.cvn.change.any (fun c => decide (c + s.fld .cvn CVN_CTRL 23 16 * 1000000 ≤ s.now)) = true
  (¬ due)) ∧
  (∃ (s : State),
  let due := isRoot s = true ∧ s.flag .cvn CVN_CTRL 30 = true ∧ s.flag .cvn CVN_STATUS 28 = false ∧ s.cvn.change.any (fun c => decide (c + s.fld .cvn CVN_CTRL 23 16 * 1000000 ≤ s.now)) = true
  due) ∧
  (∃ (s : State), s.cvn.changeOwed = false) ∧
  (∃ (s : State), s.cvn.changeOwed = true) ∧
  (∃ (p : Fin 4) (s : State),
  let held := s.oldest p (fun m => match m with | .probe _ _ => true | _ => false)
  (held = none ∨ rspCredit s p = false)) ∧
  (∃ (p : Fin 4) (s : State),
  let held := s.oldest p (fun m => match m with | .probe _ _ => true | _ => false)
  ∃ c g n, held = some c ∧ rspCredit s p = true ∧ c.cell.msg = .probe g n) ∧
  (∃ (p : Fin 4) (s : State),
  let held := s.oldest p (fun m => match m with | .token _ _ _ _ _ => true | _ => false)
  (held = none ∨ rspCredit s p = false)) ∧
  (∃ (p : Fin 4) (s : State),
  let held := s.oldest p (fun m => match m with | .token _ _ _ _ _ => true | _ => false)
  ∃ c g n i d rn, held = some c ∧ rspCredit s p = true ∧ c.cell.msg = .token g n i d rn) ∧
  (∃ (p : Fin 4) (s : State),
  let held := s.oldest p (fun m => match m with | .ret _ _ _ _ _ => true | _ => false)
  held = none) ∧
  (∃ (p : Fin 4) (s : State),
  let held := s.oldest p (fun m => match m with | .ret _ _ _ _ _ => true | _ => false)
  ∃ c no n k cl x, held = some c ∧ c.cell.msg = .ret no n k cl x) ∧
  (∃ (s : State), s.cvn.pass = none) ∧
  (∃ (s : State), s.cvn.pass = none) ∧
  (∃ (s : State), s.cvn.pass = none) ∧
  (∃ (s : State), ∃ e,
  let late : Bool := match e.wait with | .probe at_ => decide (at_ + 100000 ≤ s.now) | _ => false
  s.cvn.pass = some e ∧ e.port < 4 ∧ late = false) ∧
  (∃ (s : State), ∃ e,
  let late : Bool := match e.wait with | .probe at_ => decide (at_ + 100000 ≤ s.now) | _ => false
  s.cvn.pass = some e ∧ e.port < 4 ∧ late = true) ∧
  (∃ (s : State), ∃ e,
  let waits : Bool := match e.wait with | .token _ => decide (e.progAt + 100000000 ≤ s.now) | _ => false
  s.cvn.pass = some e ∧ e.port < 4 ∧ (waits = false ∨ e.parent = none)) ∧
  (∃ (s : State), ∃ e,
  let waits : Bool := match e.wait with | .token _ => decide (e.progAt + 100000000 ≤ s.now) | _ => false
  ∃ p, s.cvn.pass = some e ∧ e.port < 4 ∧ waits = true ∧ e.parent = some p) ∧
  (∃ (s : State), ∃ e,
  let gone : Bool := match e.wait with | .token at_ => !cvActive s e.port || decide (at_ + 500000000 ≤ s.now) | .probe _ => !cvActive s e.port | .idle => false
  s.cvn.pass = some e ∧ e.port < 4 ∧ gone = false) ∧
  (∃ (s : State), ∃ e,
  let gone : Bool := match e.wait with | .token at_ => !cvActive s e.port || decide (at_ + 500000000 ≤ s.now) | .probe _ => !cvActive s e.port | .idle => false
  s.cvn.pass = some e ∧ e.port < 4 ∧ gone = true) :=
  ⟨⟨mbxS 1 cv, mr, by decide +kernel⟩,
    ⟨mbxS 1 (busy (root cv)), mr, by decide +kernel⟩,
    ⟨mbxS 0 (root cv), mr, by decide +kernel⟩,
    ⟨mbxS 3 (root cv), mr, by decide +kernel⟩,
    ⟨auto 11, by decide +kernel⟩,
    ⟨auto 10, by decide +kernel⟩,
    ⟨cv, by decide +kernel⟩,
    ⟨cvn (fun c => { c with changeOwed := true }) cv, by decide +kernel⟩,
    ⟨1, cv, by decide +kernel⟩,
    ⟨1, inn 1 (.probe 10 77) cv, ic 1 (.probe 10 77), 10, 77, by decide +kernel⟩,
    ⟨1, poor (inn 1 (.token 10 77 6 3 true) cv), by decide +kernel⟩,
    ⟨1, inn 1 (.token 10 77 6 3 true) cv, ic 1 (.token 10 77 6 3 true), 10, 77, 6, 3, true, by decide +kernel⟩,
    ⟨1, cv, by decide +kernel⟩,
    ⟨1, wp (pass (.token 5) (some 0) 1 false) (inn 1 (.ret 77 20 4 false 9) cv), ic 1 (.ret 77 20 4 false 9), 77, 20,
      4, false, 9, by decide +kernel⟩,
    ⟨cv, by decide +kernel⟩,
    ⟨cv, by decide +kernel⟩,
    ⟨cv, by decide +kernel⟩,
    ⟨wp (pass (.probe 999900001) (some 0) 1 false) cv, pass (.probe 999900001) (some 0) 1 false, by decide +kernel⟩,
    ⟨rsv 1 (rsv 2 (wp (pass (.probe 999900000) (some 0) 1 false) cv)), pass (.probe 999900000) (some 0) 1 false,
      by decide +kernel⟩,
    ⟨wp (pass (.token 5) none 1 false) cv, pass (.token 5) none 1 false, by decide +kernel⟩,
    ⟨wp (pass (.token 5) (some 0) 1 false) cv, pass (.token 5) (some 0) 1 false, 0, by decide +kernel⟩,
    ⟨wp (pass (.token 500000001) (some 0) 1 false) cv, pass (.token 500000001) (some 0) 1 false, by decide +kernel⟩,
    ⟨wp (pass (.token 500000000) (some 0) 1 false) cv, pass (.token 500000000) (some 0) 1 false, by decide +kernel⟩⟩
/-- States and operands that meet the hypotheses of TablesCommitAndSwitch, clause by clause. -/
theorem test_tablesCommitAndSwitch :
  (∃ (p : Fin 4) (s : State),
  let held := s.oldest p (fun m => match m with | .commit _ _ _ => true | _ => false)
  held = none) ∧
  (∃ (p : Fin 4) (s : State),
  let held := s.oldest p (fun m => match m with | .commit _ _ _ => true | _ => false)
  ∃ c g n at_, held = some c ∧ c.cell.msg = .commit g n at_) ∧
  (∃ (s : State), s.cvn.commit = none) ∧
  (∃ (s : State), ∃ at_ j tab, s.cvn.commit = some (at_, j, tab) ∧ s.now < at_) ∧
  (∃ (s : State), ∃ at_ j tab, s.cvn.commit = some (at_, j, tab) ∧ at_ ≤ s.now) ∧
  (∃ (s : State), s.cvn.prev = none) ∧
  (∃ (s : State), ∃ old at_, s.cvn.prev = some (old, at_) ∧ s.now < at_) ∧
  (∃ (s : State), ∃ old at_, s.cvn.prev = some (old, at_) ∧ at_ ≤ s.now) :=
  ⟨⟨1, cv, by decide +kernel⟩,
    ⟨0, wp (pass .idle (some 0) 4 true) (inn 0 (.commit 10 77 5000) cv), ic 0 (.commit 10 77 5000), 10, 77, 5000,
      by decide +kernel⟩,
    ⟨cv, by decide +kernel⟩,
    ⟨swi 6 999, 1000, 50, com 6, by decide +kernel⟩,
    ⟨swi 6 1000, 1000, 50, com 6, by decide +kernel⟩,
    ⟨cv, by decide +kernel⟩,
    ⟨exp_ 999, tab, 1000, by decide +kernel⟩,
    ⟨exp_ 1000, tab, 1000, by decide +kernel⟩⟩
end W029

namespace W030
def cvn (f : CvnSt → CvnSt) (s : State) : State := { s with cvn := f s.cvn }
def tab : RouteTab := ⟨9, 5, 2, [1, 2, 0, 3], [0, 20, 0, 0], [0, 30, 0, 0]⟩
def link (p : Nat) (s : State) : State := (prt s (24 + p) phActive).setb .cvn (CVN_PORT_STATUS p) 29 true
def cv : State := cvn (fun c => { c with cur := tab }) (link 0 (link 1 (link 3 (at_ run 10000000))))
def pos (n : Nat) : State := cv.wr .cvn CVN_POS (BitVec.ofNat 32 (n * 65536 + 4))
def ic (p : Nat) (c : Cell) : InCell := ⟨p, c, some (p, c.resp, 3)⟩
def inn (p : Nat) (c : Cell) (s : State) : State := cvn (fun x => { x with inbox := [ic p c] }) s
def from' (src : Nat) (c : Cell) : Cell := { c with src := src }
def posC (seq : Nat) : Cell := from' 25 (newCell cv 1 false true 0 (leBytes 1 2 ++ leBytes 1 7 ++ leBytes 2 seq ++
  leBytes 4 99 ++ leBytes 6 12345 ++ leBytes 2 10 ++ leBytes 8 9999000) .plain)
def evtC : Cell := from' 25 (newCell cv 3 false true 0 (leBytes 1 7 ++ leBytes 3 0 ++ leBytes 4 0xABC ++ leBytes 8
  9998000) .plain)
def objC (k : Nat) : Cell := from' 25 (newCell cv 2 false false 5 (leBytes 1 k ++ leBytes 1 9 ++ leBytes 2 77 ++
  List.replicate 48 3#8) .plain)
def span (x : SpanIn) (s : State) : State :=
  { s with mot := { s.mot with span := Tab.set (fun _ => SpanIn.init) s.mot.span 202 x } }
def asm (a : HoAsm) (s : State) : State := cvn (fun c => { c with asm := [⟨4, 1, 2, [], false⟩, a] }) s
def A (n : Nat) : HoAsm := ⟨25, 77, 9, List.replicate n 5#8, false⟩
def recB : List Byte := padTo 256 (leBytes 1 1 ++ List.replicate 7 0#8 ++ leBytes 8 77)
def it : List Dword := itemHeader 1 256 0 :: bytesToWords recB
def imgH : Image := ⟨0, 0, ⟨[], [], [], [⟨127, 9, 300, 1⟩]⟩, []⟩
def hq (s : State) : State := cvn (fun c => { c with hoStreams := [9, 10] })
  (({ s with seq := { s.seq with active := some imgH } } : State).setQ qHandover
  { ErgQ.init with items := [it, it], wr := 66 })
def hurt (s : State) : State := s.ergStrike (300 * segBytes + 64) true
def addr (a : Word) (s : State) : State := s.wr .cvn CVN_RMT_ADDR a
def acc (m : CvnMsg) : Cell := from' 25 (newCell cv 4 false false 5 [] m)
def ans (c : Nat) : Cell := from' 25 (newCell cv 4 true false 5 [] (.response c 0x1234))
def allow (s : State) : State := s.setb .cvn CVN_CTRL 31 true
def busy (tb : Nat) : State := at_ (cvn (fun c => { c with rmtAt := some 1000 }) (regsAt cv .cvn [(CVN_RMT_STATUS,
  0x80000000), (CVN_RMT_CMD, 0x80190000)])) tb
def nocred (s : State) : State := s.onCv 1 (fun x => { x with sentRsp := 16 })
/-- States and operands that meet the hypotheses of SpanPositionsEventsAndHandover, clause by clause. -/
theorem test_spanPositionsEventsAndHandover :
  (∃ (n : Fin 8) (s : State),
  let last := Tab.get (fun _ => 0) s.cvn.posAt n
  let due := s.flag .cvn CVN_POS n = true ∧ last + s.fld .cvn CVN_POS 25 16 * 1000 ≤ s.now
  (¬ due)) ∧
  (∃ (n : Fin 8) (s : State),
  let last := Tab.get (fun _ => 0) s.cvn.posAt n
  let due := s.flag .cvn CVN_POS n = true ∧ last + s.fld .cvn CVN_POS 25 16 * 1000 ≤ s.now
  due) ∧
  (∃ (p : Fin 4) (s : State),
  let held := s.cvn.inbox.find? (fun e => e.port == p.val && e.cell.cls == 1)
  held = none) ∧
  (∃ (p : Fin 4) (s : State),
  let held := s.cvn.inbox.find? (fun e => e.port == p.val && e.cell.cls == 1)
  ∃ e, held = some e) ∧
  (∃ (dev : Fin 4096) (n : Fin 8) (s : State),
  let key := dev.val * 8 + n
  let x := Tab.get (fun _ => SpanIn.init) s.mot.span key
  let due := x.valid = true ∧ x.arrived + 4 * x.period * 1000 ≤ s.now
  (¬ due)) ∧
  (∃ (dev : Fin 4096) (n : Fin 8) (s : State),
  let key := dev.val * 8 + n
  let x := Tab.get (fun _ => SpanIn.init) s.mot.span key
  let due := x.valid = true ∧ x.arrived + 4 * x.period * 1000 ≤ s.now
  due) ∧
  (∃ (p : Fin 4) (s : State),
  let held := s.cvn.inbox.find? (fun e => e.port == p.val && e.cell.cls == 3)
  held = none) ∧
  (∃ (p : Fin 4) (s : State),
  let held := s.cvn.inbox.find? (fun e => e.port == p.val && e.cell.cls == 3)
  ∃ e, held = some e) ∧
  (∃ (p : Fin 4) (s : State),
  let held := s.cvn.inbox.find? (fun e => e.port == p.val && e.cell.cls == 2)
  held = none) ∧
  (∃ (p : Fin 4) (s : State),
  let held := s.cvn.inbox.find? (fun e => e.port == p.val && e.cell.cls == 2)
  ∃ e, held = some e) ∧
  (∃ (s : State), (s.ergQ qHandover).items = []) ∧
  (∃ (s : State), ∃ it rest b st sts, (s.ergQ qHandover).items = it :: rest ∧ itemBytes it = some b ∧ s.cvn.hoStreams
    = st :: sts ∧ st < 96) :=
  ⟨⟨2, cv, by decide +kernel⟩,
    ⟨2, pos 100, by decide +kernel⟩,
    ⟨1, cv, by decide +kernel⟩,
    ⟨1, inn 1 (posC 4) cv, ic 1 (posC 4), by decide +kernel⟩,
    ⟨25, 2, span { SpanIn.init with valid := true, period := 10, arrived := 9960001 } cv, by decide +kernel⟩,
    ⟨25, 2, span { SpanIn.init with valid := true, period := 10, arrived := 9960000 } cv, by decide +kernel⟩,
    ⟨1, cv, by decide +kernel⟩,
    ⟨1, inn 1 evtC (cv.setb .evt (EVT_CH_CTRL 7) 28 true), ic 1 evtC, by decide +kernel⟩,
    ⟨1, cv, by decide +kernel⟩,
    ⟨1, inn 1 (objC 0) cv, ic 1 (objC 0), by decide +kernel⟩,
    ⟨cv, by decide +kernel⟩,
    ⟨hq cv, it, [it], recB, 9, [10], by decide +kernel⟩⟩
/-- States and operands that meet the hypotheses of RemoteAccessesAreAnswered, clause by clause. -/
theorem test_remoteAccessesAreAnswered :
  (∃ (v : Word) (s : State),
  let busy := s.flag .cvn CVN_RMT_STATUS 31
  busy = true ∧ bit v 31 = true) ∧
  (∃ (v : Word) (s : State), bit v 31 = false) ∧
  (∃ (v : Word) (s : State),
  let busy := s.flag .cvn CVN_RMT_STATUS 31
  busy = false ∧ bit v 31 = true) ∧
  (∃ (p : Fin 4) (s : State),
  let held := s.cvn.inbox.find? (fun e => e.port == p.val && e.cell.cls == 4 && !e.cell.resp && isAccess e.cell.msg)
  held = none) ∧
  (∃ (p : Fin 4) (s : State),
  let held := s.cvn.inbox.find? (fun e => e.port == p.val && e.cell.cls == 4 && !e.cell.resp && isAccess e.cell.msg)
  ∃ e, held = some e ∧ canRespond s e.cell = false) ∧
  (∃ (p : Fin 4) (s : State),
  let held := s.cvn.inbox.find? (fun e => e.port == p.val && e.cell.cls == 4 && !e.cell.resp && isAccess e.cell.msg)
  ∃ e, held = some e ∧ canRespond s e.cell = true ∧ s.flag .cvn CVN_CTRL 31 = false) ∧
  (∃ (p : Fin 4) (s : State),
  let held := s.cvn.inbox.find? (fun e => e.port == p.val && e.cell.cls == 4 && !e.cell.resp && isAccess e.cell.msg)
  ∃ e a d, held = some e ∧ canRespond s e.cell = true ∧ s.flag .cvn CVN_CTRL 31 = true ∧ e.cell.msg = .write a d ∧
    0x1200000 ≤ a) ∧
  (∃ (p : Fin 4) (s : State),
  let held := s.cvn.inbox.find? (fun e => e.port == p.val && e.cell.cls == 4 && !e.cell.resp && isAccess e.cell.msg)
  ∃ e a d, held = some e ∧ canRespond s e.cell = true ∧ s.flag .cvn CVN_CTRL 31 = true ∧ e.cell.msg = .write a d ∧ a
    < 0x1200000) ∧
  (∃ (p : Fin 4) (s : State),
  let held := s.cvn.inbox.find? (fun e => e.port == p.val && e.cell.cls == 4 && !e.cell.resp && isAccess e.cell.msg)
  ∃ e a, held = some e ∧ canRespond s e.cell = true ∧ s.flag .cvn CVN_CTRL 31 = true ∧ e.cell.msg = .read a ∧
    0x1200000 ≤ a) ∧
  (∃ (p : Fin 4) (s : State),
  let held := s.cvn.inbox.find? (fun e => e.port == p.val && e.cell.cls == 4 && !e.cell.resp && isAccess e.cell.msg)
  ∃ e a, held = some e ∧ canRespond s e.cell = true ∧ s.flag .cvn CVN_CTRL 31 = true ∧ e.cell.msg = .read a ∧ a <
    0x1200000) ∧
  (∃ (p : Fin 4) (s : State),
  let held := s.cvn.inbox.find? (fun e => e.port == p.val && (e.cell.cls == 4 && e.cell.resp))
  held = none) ∧
  (∃ (p : Fin 4) (s : State),
  let held := s.cvn.inbox.find? (fun e => e.port == p.val && (e.cell.cls == 4 && e.cell.resp))
  ∃ e code d, held = some e ∧ e.cell.msg = .response code d) ∧
  (∃ (s : State), s.cvn.rmtAt = none) ∧
  (∃ (s : State), ∃ at_, s.cvn.rmtAt = some at_ ∧ s.now < at_ + 1000000) ∧
  (∃ (s : State), ∃ at_, s.cvn.rmtAt = some at_ ∧ at_ + 1000000 ≤ s.now) :=
  ⟨⟨0x80190000, busy 2000, by decide +kernel⟩,
    ⟨0x40190000, busy 2000, by decide +kernel⟩,
    ⟨0x80190000, addr 0x1200000 cv, by decide +kernel⟩,
    ⟨1, cv, by decide +kernel⟩,
    ⟨1, nocred (inn 1 (acc (.read 0)) cv), ic 1 (acc (.read 0)), by decide +kernel⟩,
    ⟨1, inn 1 (acc (.read 0)) cv, ic 1 (acc (.read 0)), by decide +kernel⟩,
    ⟨1, allow (inn 1 (acc (.write 0x1200000 5)) cv), ic 1 (acc (.write 0x1200000 5)), 0x1200000, 5,
      by decide +kernel⟩,
    ⟨1, allow (inn 1 (acc (.write (EVT_CH_RATE 3) 5)) cv), ic 1 (acc (.write (EVT_CH_RATE 3) 5)), EVT_CH_RATE 3, 5,
      by decide +kernel⟩,
    ⟨1, allow (inn 1 (acc (.read 0x1200000)) cv), ic 1 (acc (.read 0x1200000)), 0x1200000, by decide +kernel⟩,
    ⟨1, allow (inn 1 (acc (.read CVN_GEN)) cv), ic 1 (acc (.read CVN_GEN)), CVN_GEN, by decide +kernel⟩,
    ⟨1, cv, by decide +kernel⟩,
    ⟨1, inn 1 (ans 0) (busy 2000), ic 1 (ans 0), 0, 0x1234, by decide +kernel⟩,
    ⟨cv, by decide +kernel⟩,
    ⟨busy 1000999, 1000, by decide +kernel⟩,
    ⟨busy 1001000, 1000, by decide +kernel⟩⟩
end W030

namespace W031
def pw (f : PwrSt → PwrSt) (s : State) : State := { s with pwr := f s.pwr }
def R : State := at_ run 1000000
def lim (u : Nat) (v : Word) (s : State) : State := s.wr .pwr (PWR_UNIT_LIM u) v
def quiet (p : Nat) (s : State) : State := (prt s p phQuiet).setb .phy (phyCtrl p) 24 true
def actv (p : Nat) (s : State) : State := (prt (s.setb .phy (phyCtrl p) 31 true) p phActive).setb .phy (phyCtrl p) 24
  true
def evt (p : Nat) (s : State) : State := s.onLnk p (fun x => { x with trig := [(1, 2, 3)] })
def cl (c op cur ps : Nat) (s : State) : State := s.wr .pwr (PWR_CL_CTRL c) (BitVec.ofNat 32 (op * 2 ^ 30 + cur * 2 ^
  28 + ps))
def un (c : Nat) (f : PwrUnit → PwrUnit) (s : State) : State := s.onUnit c f
def chg (x : OpChange) (s : State) : State := pw (fun p => { p with change := some x }) s
def img : Image := ⟨0, 0, ⟨[0, 2], [], [⟨3, 0, 4, 1, 0⟩], []⟩, []⟩
def act (s : State) : State := { s with seq := { s.seq with active := some img } }
def cmd (n : Nat) (s : State) : State := (pw (fun p => { p with devCmd := some (n, true, true), wakeHeld := 12 })
  s).put .pwr PWR_STATUS 31 28 3
def jb (s : State) : State := pw (fun p => { p with job := some ⟨.vreg, 0⟩, vcoreOut := 820 }) s
def hs (s : State) : State := pw (fun p => { p with devCmd := some (0, false, true), cmdStatus := 0xFF }) s
def sb : State := pw (fun p => { p with exitAt := some 5 }) (R.put .pwr PWR_STATUS 31 28 2)
def swp (s : State) : State := { s with seq := { s.seq with swap := some ⟨[], none⟩ } }
def brd (s : State) : State := s.wr .pwr PWR_VREG 0x80000000
def tiles (s : State) : State := s.putBanks [4, 5, 20] 1 0 false (some [1#8])
/-- States and operands that meet the hypotheses of UnitsNapAndClustersChange, clause by clause. -/
theorem test_unitsNapAndClustersChange :
  (∃ (u : Fin 32) (s : State),
  let due := dstate s = 1 ∧ predictDue s u = true
  (¬ due)) ∧
  (∃ (u : Fin 32) (s : State),
  let due := dstate s = 1 ∧ predictDue s u = true
  due ∧ u.val < 8 ∧ (2 ≤ clPstate s u ∨ s.now < workEnd s u)) ∧
  (∃ (u : Fin 32) (s : State),
  let due := dstate s = 1 ∧ predictDue s u = true
  due ∧ u.val < 8 ∧ clPstate s u < 2 ∧ workEnd s u ≤ s.now) ∧
  (∃ (u : Fin 32) (s : State),
  let due := dstate s = 1 ∧ predictDue s u = true
  due ∧ 8 ≤ u.val ∧ (quietReady s (u - 8) && deeperPays s (u - 8 + 8)) = false) ∧
  (∃ (u : Fin 32) (s : State),
  let due := dstate s = 1 ∧ predictDue s u = true
  due ∧ 8 ≤ u.val ∧ (quietReady s (u - 8) && deeperPays s (u - 8 + 8)) = true) ∧
  (∃ (u : Fin 32) (s : State), exitDue s u = false) ∧
  (∃ (u : Fin 32) (s : State), exitDue s u = true ∧ u.val < 8 ∧ clPstate s u = 2) ∧
  (∃ (u : Fin 32) (s : State), exitDue s u = true ∧ 8 ≤ u.val ∧ portState s (u - 8) = phQuiet ∧ (s.phyPort (u -
    8)).quietExit = none) ∧
  (∃ (u : Fin 32) (s : State),
  let unit (x : State) := Tab.get (fun _ => PwrUnit.init) x.pwr.unit u
  ∃ at_, u.val < 8 ∧ (unit s).exitAt = some at_ ∧ clPstate s u = 2 ∧ s.now < at_ + 3000) ∧
  (∃ (u : Fin 32) (s : State),
  let unit (x : State) := Tab.get (fun _ => PwrUnit.init) x.pwr.unit u
  ∃ at_, u.val < 8 ∧ (unit s).exitAt = some at_ ∧ clPstate s u = 2 ∧ at_ + 3000 ≤ s.now) ∧
  (∃ (u : Fin 32) (s : State),
  let unit (x : State) := Tab.get (fun _ => PwrUnit.init) x.pwr.unit u
  u.val < 8 ∧ ((unit s).exitAt = none ∨ clPstate s u ≠ 2)) ∧
  (∃ (u : Fin 32) (s : State), 8 ≤ u.val ∧ portState s (u - 8) = phQuiet ∧ (s.phyPort (u - 8)).quietExit ≠ none ∧
    isAligned s (u - 8) = true) ∧
  (∃ (s : State) (ok : Bool), s.pwr.change = none) ∧
  (∃ (s : State) (ok : Bool), s.pwr.change.any (fun x => x.step == 0) = true ∧ s.pwr.job.any (fun j => j.kind ==
    .vreg) = false) ∧
  (∃ (s : State) (ok : Bool), ∃ x,
  let sent := s.pwr.job.any (fun j => j.kind == .vreg) = true ∧ s.pwr.waiting = []
  s.pwr.change = some x ∧ x.cl < 8 ∧ x.step = 0 ∧ sent ∧ ok = true) ∧
  (∃ (s : State) (ok : Bool), ∃ x,
  let sent := s.pwr.job.any (fun j => j.kind == .vreg) = true ∧ s.pwr.waiting = []
  s.pwr.change = some x ∧ x.cl < 8 ∧ x.step = 0 ∧ sent ∧ ok = false ∧ x.rising = true) ∧
  (∃ (s : State) (ok : Bool), ∃ x,
  let sent := s.pwr.job.any (fun j => j.kind == .vreg) = true ∧ s.pwr.waiting = []
  s.pwr.change = some x ∧ x.cl < 8 ∧ x.step = 0 ∧ sent ∧ ok = false ∧ x.rising = false) ∧
  (∃ (s : State) (ok : Bool), ∃ x, s.pwr.change = some x ∧ x.cl < 8 ∧ x.step = 1 ∧ x.rising = true) ∧
  (∃ (s : State) (ok : Bool), ∃ x, s.pwr.change = some x ∧ x.cl < 8 ∧ x.step = 1 ∧ x.rising = false) ∧
  (∃ (s : State) (ok : Bool), ∃ x, s.pwr.change = some x ∧ x.cl < 8 ∧ x.step = 2 ∧ x.rising = true) ∧
  (∃ (s : State) (ok : Bool), ∃ x, s.pwr.change = some x ∧ x.cl < 8 ∧ x.step = 2 ∧ x.rising = false ∧ vregOn s = true
    ∧ vcoreFor s x.cl x.target < s.pwr.vcoreOut ∧ s.pwr.job = none) ∧
  (∃ (s : State) (ok : Bool), ∃ x, s.pwr.change = some x ∧ x.cl < 8 ∧ x.step = 2 ∧ x.rising = false ∧ (vregOn s =
    false ∨ s.pwr.vcoreOut ≤ vcoreFor s x.cl x.target)) ∧
  (∃ (s : State) (ok : Bool), ∃ x, s.pwr.change = some x ∧ x.cl < 8 ∧ 3 ≤ x.step ∧ x.rising = true) ∧
  (∃ (s : State) (ok : Bool), ∃ x, s.pwr.change = some x ∧ x.cl < 8 ∧ 3 ≤ x.step ∧ x.rising = false) :=
  ⟨⟨3, State.reset, by decide +kernel⟩,
    ⟨3, un 3 (fun x => { x with workEnd := 1000001 }) (cl 3 1 1 0 R), by decide +kernel⟩,
    ⟨3, un 3 (fun x => { x with workEnd := 1000000 }) (lim 3 8 (cl 3 1 1 0 R)), by decide +kernel⟩,
    ⟨10, R, by decide +kernel⟩,
    ⟨10, lim 10 8 (actv 2 R), by decide +kernel⟩,
    ⟨10, R, by decide +kernel⟩,
    ⟨3, swp (cl 3 1 1 2 R), by decide +kernel⟩,
    ⟨10, evt 2 (quiet 2 R), by decide +kernel⟩,
    ⟨3, un 3 (fun x => { x with exitAt := some 997001 }) (cl 3 1 1 2 R), 997001, by decide +kernel⟩,
    ⟨3, un 3 (fun x => { x with exitAt := some 997000 }) (cl 3 1 1 2 R), 997000, by decide +kernel⟩,
    ⟨3, cl 3 1 1 2 R, by decide +kernel⟩,
    ⟨10, lockd ((quiet 2 R).onPhy 2 (fun x => { x with quietExit := some 5 })) 2, by decide +kernel⟩,
    ⟨R, true, by decide +kernel⟩,
    ⟨chg ⟨1, 2, true, 0⟩ (cl 1 2 1 0 R), true, rfl, by decide +kernel⟩,
    ⟨jb (chg ⟨1, 2, true, 0⟩ (cl 1 2 1 0 R)), true, ⟨1, 2, true, 0⟩, by decide +kernel, by decide +kernel, rfl,
      by decide +kernel, by decide +kernel⟩,
    ⟨jb (chg ⟨1, 2, true, 0⟩ (cl 1 2 1 0 R)), false, ⟨1, 2, true, 0⟩, by decide +kernel, by decide +kernel, rfl,
      by decide +kernel, by decide +kernel, by decide +kernel⟩,
    ⟨jb (chg ⟨1, 1, false, 0⟩ (cl 1 1 2 0 R)), false, ⟨1, 1, false, 0⟩, by decide +kernel, by decide +kernel, rfl,
      by decide +kernel, by decide +kernel, by decide +kernel⟩,
    ⟨chg ⟨1, 2, true, 1⟩ (cl 1 2 1 0 R), true, ⟨1, 2, true, 1⟩, by decide +kernel, by decide +kernel, rfl,
      by decide +kernel⟩,
    ⟨tiles (chg ⟨1, 0, false, 1⟩ (cl 1 0 2 0 R)), true, ⟨1, 0, false, 1⟩, by decide +kernel, by decide +kernel, rfl,
      by decide +kernel⟩,
    ⟨chg ⟨1, 2, true, 2⟩ (cl 1 2 1 0 R), true, ⟨1, 2, true, 2⟩, by decide +kernel, by decide +kernel, rfl,
      by decide +kernel⟩,
    ⟨brd (chg ⟨1, 1, false, 2⟩ (pw (fun p => { p with vcore := 950, vcoreOut := 950 }) (cl 1 1 2 0 R))), true, ⟨1, 1,
      false, 2⟩, by decide +kernel, by decide +kernel, rfl, by decide +kernel, by decide +kernel, by decide +kernel,
      by decide +kernel⟩,
    ⟨chg ⟨1, 1, false, 2⟩ (cl 1 1 2 0 R), true, ⟨1, 1, false, 2⟩, by decide +kernel, by decide +kernel, rfl,
      by decide +kernel, by decide +kernel⟩,
    ⟨chg ⟨1, 2, true, 3⟩ (cl 1 2 1 3 R), true, ⟨1, 2, true, 3⟩, by decide +kernel⟩,
    ⟨chg ⟨1, 2, false, 3⟩ (cl 1 2 3 3 R), true, ⟨1, 2, false, 3⟩, by decide +kernel⟩⟩
/-- States and operands that meet the hypotheses of DeviceStatesEnterAndExit, clause by clause. -/
theorem test_deviceStatesEnterAndExit :
  (∃ (s : State), (s.pwr.devCmd = none ∨ dstate s ≠ 3)) ∧
  (∃ (s : State), ∃ rtc bus, dstate s = 3 ∧ s.pwr.devCmd = some (1, rtc, bus)) ∧
  (∃ (s : State), ∃ rtc bus, dstate s = 3 ∧ s.pwr.devCmd = some (2, rtc, bus)) ∧
  (∃ (s : State), (dstate s ≠ 2 ∨ s.pwr.exitAt = none)) ∧
  (∃ (s : State), dstate s = 2 ∧ s.pwr.exitAt ≠ none) ∧
  (∃ (s : State), (s.pwr.cmdStatus = 0xFF ∨ dstate s = 0)) ∧
  (∃ (s : State), (s.pwr.cmdStatus = 0xFF ∨ dstate s = 0)) ∧
  (∃ (s : State), (s.pwr.cmdStatus = 0xFF ∨ dstate s = 0)) ∧
  (∃ (s : State), (s.pwr.cmdStatus = 0xFF ∨ dstate s = 0)) ∧
  (∃ (s : State), s.pwr.cmdStatus ≠ 0xFF ∧ dstate s ≠ 0) ∧
  (∃ (s : State), s.pwr.cmdStatus ≠ 0xFF ∧ dstate s ≠ 0) ∧
  (∃ (s : State), s.pwr.cmdStatus ≠ 0xFF ∧ dstate s ≠ 0) ∧
  (∃ (s : State), s.pwr.cmdStatus ≠ 0xFF ∧ dstate s ≠ 0) :=
  ⟨⟨R, by decide +kernel⟩,
    ⟨cmd 1 (actv 2 (actv 24 (cl 1 2 3 0 R))), true, true, by decide +kernel⟩,
    ⟨cmd 2 (actv 2 (actv 24 (cl 1 2 3 0 R))), true, true, by decide +kernel⟩,
    ⟨R, by decide +kernel⟩,
    ⟨hs sb, by decide +kernel⟩,
    ⟨State.reset, by decide +kernel⟩,
    ⟨State.reset, by decide +kernel⟩,
    ⟨State.reset, by decide +kernel⟩,
    ⟨State.reset, by decide +kernel⟩,
    ⟨R, by decide +kernel⟩,
    ⟨R, by decide +kernel⟩,
    ⟨R, by decide +kernel⟩,
    ⟨R, by decide +kernel⟩⟩
end W031

namespace W032
def pw (f : PwrSt → PwrSt) (s : State) : State := { s with pwr := f s.pwr }
def ctl (v : Word) (s : State) : State := s.wr .pwr OAS_CTRL v
def deep (s : State) : State := pw (fun p => { p with coreUp := false, goingUp := false, goingDown := false }) (s.put
  .pwr OAS_STATUS 31 24 0)
def up (en pg : Nat) (s : State) : State := pw (fun p => { p with goingUp := true }) (((deep s).put .pwr OAS_STATUS
  27 24 en).put .pwr OAS_STATUS 31 28 pg)
def down (en h : Nat) (s : State) : State := pw (fun p => { p with goingDown := true, wakeHeld := h }) (((deep s).put
  .pwr OAS_STATUS 27 24 en).put .pwr OAS_STATUS 31 28 en)
def all_ (s : State) : State := (ctl 0xF0000000 s).setb .pwr OAS_STATUS 2 true
def alm (s : State) : State := s.wr .pwr OAS_ALARM_LO 77
def full (s : State) : State := (pw (fun p => { p with coreUp := true, goingUp := false, goingDown := false }) (s.put
  .pwr OAS_STATUS 31 24 255))
/-- States and operands that meet the hypotheses of OasisPowersUpAndDown, clause by clause. -/
theorem test_oasisPowersUpAndDown :
  (∃ (src : Fin 4) (same : Bool) (s : State), wakeFires s src = false) ∧
  (∃ (src : Fin 4) (same : Bool) (s : State), wakeFires s src = true ∧ inDeep s = true) ∧
  (∃ (src : Fin 4) (same : Bool) (s : State), wakeFires s src = true ∧ s.pwr.goingUp = true ∧ same = true) ∧
  (∃ (src : Fin 4) (same : Bool) (s : State), wakeFires s src = true ∧ s.pwr.goingUp = true ∧ same = false) ∧
  (∃ (src : Fin 4) (same : Bool) (s : State), wakeFires s src = true ∧ inDeep s = false ∧ s.pwr.goingUp = false ∧
    (s.pwr.goingDown = true ∨ dstate s = 3)) ∧
  (∃ (src : Fin 4) (same : Bool) (s : State),
  let going := s.pwr.goingUp || s.pwr.goingDown
  wakeFires s src = true ∧ inDeep s = false ∧ going = false ∧ dstate s = 2 ∧ src.val ≠ 2) ∧
  (∃ (src : Fin 4) (same : Bool) (s : State),
  let going := s.pwr.goingUp || s.pwr.goingDown
  wakeFires s src = true ∧ inDeep s = false ∧ going = false ∧ dstate s ≠ 3 ∧ (dstate s ≠ 2 ∨ src.val = 2)) ∧
  (∃ (i : Fin 4) (s : State),
  let turn := s.pwr.goingUp = true ∧ pwrEn s = 2 ^ (i.val + 1) - 1 ∧ pgNow s = 2 ^ i.val - 1
  (¬ turn)) ∧
  (∃ (i : Fin 4) (s : State),
  let turn := s.pwr.goingUp = true ∧ pwrEn s = 2 ^ (i.val + 1) - 1 ∧ pgNow s = 2 ^ i.val - 1
  turn) ∧
  (∃ (i : Fin 4) (s : State), s.pwr.coreUp = false) ∧
  (∃ (i : Fin 4) (s : State), s.pwr.coreUp = true) ∧
  (∃ (s : State), s.pwr.goingUp = false) ∧
  (∃ (s : State), s.pwr.goingUp = true) ∧
  (∃ (s : State), s.pwr.goingDown = false) ∧
  (∃ (s : State), s.pwr.goingDown = true ∧ 2 ≤ pwrEn s) ∧
  (∃ (s : State), s.pwr.goingDown = true ∧ pwrEn s < 2 ∧ s.pwr.wakeHeld = 0) ∧
  (∃ (s : State), s.pwr.goingDown = true ∧ pwrEn s < 2 ∧ s.pwr.wakeHeld ≠ 0) :=
  ⟨⟨0, false, ctl 0 (deep run), by decide +kernel⟩,
    ⟨0, false, all_ (deep run), by decide +kernel⟩,
    ⟨3, true, alm (all_ (up 3 1 run)), by decide +kernel⟩,
    ⟨0, false, all_ (up 3 1 run), by decide +kernel⟩,
    ⟨0, false, all_ (down 3 4 run), by decide +kernel⟩,
    ⟨3, false, alm (all_ (full (run.put .pwr PWR_STATUS 31 28 2))), by decide +kernel⟩,
    ⟨2, false, all_ (full (run.put .pwr PWR_STATUS 31 28 2)), by decide +kernel⟩,
    ⟨0, run, by decide +kernel⟩,
    ⟨0, up 1 0 run, by decide +kernel⟩,
    ⟨1, up 15 7 run, by decide +kernel⟩,
    ⟨2, at_ (ctl 0x08000000 (full run)) 55, by decide +kernel⟩,
    ⟨run, by decide +kernel⟩,
    ⟨up 3 1 run, by decide +kernel⟩,
    ⟨run, by decide +kernel⟩,
    ⟨down 15 0 run, by decide +kernel⟩,
    ⟨down 1 0 run, by decide +kernel⟩,
    ⟨down 1 5 run, by decide +kernel⟩⟩
end W032

namespace W033
def pw (f : PwrSt → PwrSt) (s : State) : State := { s with pwr := f s.pwr }
def R : State := at_ run 20000000
def mode (n : Nat) (s : State) : State := s.put .pwr MGT_CTRL 29 28 n
def owed (s : State) : State := pw (fun p => { p with attnOwed := true }) s
def jobP (n : Nat) (w : List MgtKind) (s : State) : State := pw (fun p =>
  { p with job := some ⟨.pf0, n⟩, waiting := w }) ((s.setb .pwr MGT_CTL_STATUS 31 true).wr .pwr MGT_CTL_CMD
  0x80000005)
def jobA (n : Nat) (w : List MgtKind) (s : State) : State := pw (fun p =>
  { p with job := some ⟨.attn, n⟩, waiting := w, attnAt := some 5, attnOwed := true }) s
def att (a m : Nat) (s : State) : State := pw (fun p => { p with attnStatus := a, attnMask := m }) s
def jobV (n : Nat) (w : List MgtKind) (s : State) : State := pw (fun p =>
  { p with job := some ⟨.vreg, n⟩, waiting := w, vcoreOut := 900 }) s
def chg0 (s : State) : State := (pw (fun p => { p with change := some ⟨1, 2, true, 0⟩ }) s).wr .pwr (PWR_CL_CTRL 1)
  0x90000000
def fwb : State := pw (fun p => { p with coreUp := true }) ((State.reset.put .pwr OAS_STRAPS 7 6 2).put .pwr
  OAS_STRAPS 5 4 2)
def slp (a : Bool) : State := pw (fun p => { p with awake := a }) (R.put .pwr PWR_STATUS 31 28 2)
/-- States and operands that meet the hypotheses of WindowIsReadAndWritten, clause by clause. -/
theorem test_windowIsReadAndWritten :
  (∃ (addr : BitVec 7) (data : List Byte) (n : Nat) (s : State), addr.toNat ≠ ownAddr s) ∧
  (∃ (addr : BitVec 7) (data : List Byte) (n : Nat) (s : State), addr.toNat ≠ ownAddr s) ∧
  (∃ (addr : BitVec 7) (data : List Byte) (n : Nat) (s : State), addr.toNat = ownAddr s ∧ winReady s = false) ∧
  (∃ (addr : BitVec 7) (data : List Byte) (n : Nat) (s : State), addr.toNat = ownAddr s ∧ winReady s = false) ∧
  (∃ (addr : BitVec 7) (p : Byte) (s : State), addr.toNat = ownAddr s ∧ winReady s = true) ∧
  (∃ (addr : BitVec 7) (p v : Byte) (vs : List Byte) (s t : State), addr.toNat = ownAddr s ∧ winReady s = true ∧
    Sys2Proof.Machine.exec (.i2cTargetWrite addr [p, v]) s = .next t ∧ t.pwr.i2cAck = true ∧ winReady t = true) ∧
  (∃ (addr : BitVec 7) (p v : Byte) (s : State), addr.toNat = ownAddr s ∧ winReady s = true ∧ 0x40 ≤ p.toNat ∧
    p.toNat < 0x80) ∧
  (∃ (addr : BitVec 7) (p v : Byte) (s : State), addr.toNat = ownAddr s ∧ winReady s = true ∧ 0x80 ≤ p.toNat ∧
    p.toNat < 0xBF) ∧
  (∃ (addr : BitVec 7) (p v : Byte) (s : State), addr.toNat = ownAddr s ∧ winReady s = true ∧ p.toNat = 0xBF) ∧
  (∃ (addr : BitVec 7) (p v : Byte) (s : State), addr.toNat = ownAddr s ∧ winReady s = true ∧ p.toNat = 6) ∧
  (∃ (addr : BitVec 7) (p v : Byte) (s : State), addr.toNat = ownAddr s ∧ winReady s = true ∧ p.toNat = 12) ∧
  (∃ (addr : BitVec 7) (p v : Byte) (s : State), addr.toNat = ownAddr s ∧ winReady s = true ∧ p.toNat = 13) ∧
  (∃ (addr : BitVec 7) (p v : Byte) (s : State), addr.toNat = ownAddr s ∧ winReady s = true ∧ p.toNat ∉ [6, 8, 12,
    13] ∧ (p.toNat < 0x40 ∨ 0xC0 ≤ p.toNat)) ∧
  (∃ (addr : BitVec 7) (p v : Byte) (s : State), addr.toNat = ownAddr s ∧ winReady s = true ∧ p.toNat = 8 ∧
    (s.pwr.cmdStatus = 0xFF ∨ dstate s = 0 ∧ v ∈ [1#8, 2#8, 3#8, 4#8])) ∧
  (∃ (addr : BitVec 7) (p v : Byte) (s : State), addr.toNat = ownAddr s ∧ winReady s = true ∧ p.toNat = 8 ∧
    s.pwr.cmdStatus ≠ 0xFF ∧ v ∉ [1#8, 2#8, 3#8, 4#8]) ∧
  (∃ (addr : BitVec 7) (p v : Byte) (s : State),
  let next := { s.pwr with i2cAck := true, ptr := (p.toNat + 1) % 256, awake := false }
  ∃ (c : Instr) (u : State), addr.toNat = ownAddr s ∧ winReady s = true ∧ (v, c) ∈ [(1#8, Instr.standby), (2#8,
    .deep), (3#8, .deepWithRtcKeep), (4#8, .run)] ∧ p.toNat = 8 ∧ s.pwr.cmdStatus ≠ 0xFF ∧ dstate s ≠ 0 ∧
    Sys2Proof.Machine.exec c s = .next u) ∧
  (∃ (addr : BitVec 7) (n : Nat) (s : State), addr.toNat = ownAddr s ∧ winReady s = true ∧ s.pwr.ptr < 256) ∧
  (∃ (ready : Bool) (s : State), dstate s ≠ 2) ∧
  (∃ (ready : Bool) (s : State), dstate s = 2) ∧
  (∃ (v : Word) (s : State), bit v 0 = false) ∧
  (∃ (v : Word) (s : State), bit v 0 = true) :=
  ⟨⟨0x59, [1#8], 1, R, by decide +kernel⟩,
    ⟨0x59, [1#8], 1, R, by decide +kernel⟩,
    ⟨0x58, [1#8, 2#8], 3, State.reset, by decide +kernel⟩,
    ⟨0x58, [1#8, 2#8], 3, R.put .pwr PWR_STATUS 31 28 2, by decide +kernel⟩,
    ⟨0x58, 0x41, R, by decide +kernel⟩,
    ⟨0x58, 0x41, 7, [9#8, 8#8], R, (R.putByte .pwr (OAS_RET 0) 1 7) |> pw (fun p =>
      { p with ptr := 0x42, i2cAck := true }), by decide +kernel, by decide +kernel, rfl, by decide +kernel,
      by decide +kernel⟩,
    ⟨0x58, 0x40, 7, R, by decide +kernel⟩,
    ⟨0x58, 0x80, 7, R, by decide +kernel⟩,
    ⟨0x58, 0xBF, 7, R, by decide +kernel⟩,
    ⟨0x58, 6, 0xF5, R.wr .pwr OAS_WAKE_CAUSE 0x7F, by decide +kernel⟩,
    ⟨0x58, 12, 0x0F, att 0x3C 0xFF R, by decide +kernel⟩,
    ⟨0x58, 13, 0x0F, att 0x3C 0xF0 R, by decide +kernel⟩,
    ⟨0x58, 7, 0x0F, R, by decide +kernel⟩,
    ⟨0x58, 8, 1, pw (fun p => { p with cmdStatus := 0xFF }) R, by decide +kernel⟩,
    ⟨0x58, 8, 5, R, by decide +kernel⟩,
    ⟨0x58, 8, 1, R, .standby, R.busCmd 1 false, by decide +kernel, by decide +kernel, by decide +kernel,
      by decide +kernel, by decide +kernel, by decide +kernel, rfl⟩,
    ⟨0x58, 7, pw (fun p => { p with ptr := 253, latch := some (252, 99) }) R, by decide +kernel⟩,
    ⟨true, R, by decide +kernel⟩,
    ⟨true, slp false, by decide +kernel⟩,
    ⟨2, R, by decide +kernel⟩,
    ⟨1, att 0 8 R, by decide +kernel⟩⟩
/-- States and operands that meet the hypotheses of BusControllerAndAttention, clause by clause. -/
theorem test_busControllerAndAttention :
  (∃ (s : State), (s.pwr.attnOwed = false ∨ s.pwr.attnAt ≠ none)) ∧
  (∃ (s : State), s.pwr.attnOwed = true ∧ s.pwr.attnAt = none ∧ attnMode s = 1) ∧
  (∃ (s : State), s.pwr.attnOwed = true ∧ s.pwr.attnAt = none ∧ attnMode s = 2) ∧
  (∃ (s : State), s.pwr.attnOwed = true ∧ s.pwr.attnAt = none ∧ attnMode s ≠ 1 ∧ attnMode s ≠ 2) ∧
  (∃ (s : State),
  let retries := s.pwr.attnOwed = true ∧ attnMode s = 1 ∧ attnRuns s = false ∧ s.pwr.attnAt.any (fun x => decide (x + 10000000 ≤ s.now)) = true
  (¬ retries)) ∧
  (∃ (s : State),
  let retries := s.pwr.attnOwed = true ∧ attnMode s = 1 ∧ attnRuns s = false ∧ s.pwr.attnAt.any (fun x => decide (x + 10000000 ≤ s.now)) = true
  retries) ∧
  (∃ (ok : Bool) (s : State),
  let pulses := s.pwr.attnOwed = true ∧ attnMode s = 2 ∧ ok = true
  (¬ pulses)) ∧
  (∃ (ok : Bool) (s : State),
  let pulses := s.pwr.attnOwed = true ∧ attnMode s = 2 ∧ ok = true
  pulses) ∧
  (∃ (v : Word) (s : State), s.flag .pwr MGT_CTL_STATUS 31 = true ∧ bit v 31 = false) ∧
  (∃ (v : Word) (s : State), s.flag .pwr MGT_CTL_STATUS 31 = true ∧ bit v 31 = true) ∧
  (∃ (v : Word) (s : State), s.flag .pwr MGT_CTL_STATUS 31 = false) ∧
  (∃ (r : Fin 6) (data : List Byte) (s : State), s.pwr.job = none) ∧
  (∃ (r : Fin 6) (data : List Byte) (s : State), ∃ n, s.pwr.job = some ⟨.pf0, n⟩) ∧
  (∃ (r : Fin 6) (data : List Byte) (s : State), ∃ n, s.pwr.job = some ⟨.attn, n⟩) ∧
  (∃ (r : Fin 6) (data : List Byte) (s : State), ∃ n, s.pwr.job = some ⟨.vreg, n⟩) ∧
  (∃ (s : State), s.pwr.job = none) ∧
  (∃ (s : State), ∃ j, s.pwr.job = some j) ∧
  (∃ (stuck : Bool) (s : State), s.pwr.job = none) ∧
  (∃ (stuck : Bool) (s : State), ∃ j, s.pwr.job = some j) :=
  ⟨⟨R, by decide +kernel⟩,
    ⟨mode 1 (owed R), by decide +kernel⟩,
    ⟨mode 2 (owed R), by decide +kernel⟩,
    ⟨mode 3 (owed R), by decide +kernel⟩,
    ⟨mode 1 (jobA 0 [] R), by decide +kernel⟩,
    ⟨pw (fun p => { p with attnAt := some 10000000 }) (mode 1 (owed (jobP 0 [] R))), by decide +kernel⟩,
    ⟨false, mode 2 (owed R), by decide +kernel⟩,
    ⟨true, mode 2 (owed R), by decide +kernel⟩,
    ⟨5, jobP 0 [] R, by decide +kernel⟩,
    ⟨0x80000000, jobP 0 [] R, by decide +kernel⟩,
    ⟨0x80550F0F, R, by decide +kernel⟩,
    ⟨0, [], R, by decide +kernel⟩,
    ⟨0, [1#8, 2#8, 3#8, 4#8, 5#8, 6#8], jobP 1 [.attn] R, 1, by decide +kernel⟩,
    ⟨0, [], jobA 1 [.pf0] R, 1, by decide +kernel⟩,
    ⟨0, [], jobV 1 [.attn] R, 1, by decide +kernel⟩,
    ⟨R, by decide +kernel⟩,
    ⟨jobP 6 [.attn] R, ⟨.pf0, 6⟩, by decide +kernel⟩,
    ⟨true, pw (fun p => { p with latch := some (4, 4) }) R, by decide +kernel⟩,
    ⟨true, chg0 (jobV 2 [] R), ⟨.vreg, 2⟩, by decide +kernel⟩⟩
end W033

namespace W034
def R : State := at_ run 20000000
def U : State := { R with host := { R.host with up := true, ready := true } }
def used (n : Nat) (s : State) : State := (s.wr .flt FLT_LOG_PROD (BitVec.ofNat 32 (n + 300))).wr .flt FLT_LOG_CONS
  300
def ow (o : Owed) (s : State) : State := { s with flt := { s.flt with owed := some o, nextSeq := 77 } }
def fst (s : State) : State := (s.setb .flt FLT_STATUS 30 true).wr .flt (FLT_FIRST 3) 9
def ftl (s : State) : State := (s.setb .flt FLT_STATUS 31 true).wr .flt (FLT_FATAL 3) 9
def same (s : State) : State := s.contained 7 0x40 1 1
def bus (n k : Nat) (s : State) : State :=
  { s.setb .ejt (EJT_BUS_CTRL n) 31 true with ejt := { (s.setb .ejt (EJT_BUS_CTRL n) 31 true).ejt with bus := Tab.upd (fun _ => EjBus.init) s.ejt.bus n (fun b => { b with slot := some k }) } }
def armed (s : State) : State := { s with flt := { s.flt with warnArmed := true } }
def mir (s : State) : State := ((((s.setb .flt FLT_CTRL 31 true).setb .flt FLT_CTRL 30 true).put .flt FLT_MIR_SIZE 4
  0 1).wr .flt FLT_MIR_BASE_LO 0x1000)
def stg (n : Nat) (s : State) : State :=
  { s with flt := { s.flt with staging := List.replicate n [1, 2, 3, 4, 5, 6, 7, 8] } }
def wdg (s : State) : State :=
  { s.wr .flt FLT_HOST_WDOG 0x80000013 with flt := { (s.wr .flt FLT_HOST_WDOG 0x80000013).flt with wdogFrom := 1000000 } }
def UM : State :=
  { U with host := { U.host with msix := (Tab.set msixReset (Tab.set msixReset U.host.msix (vecKey 0 1 * 4 + 3) 0) (vecKey 0 1 * 4) 0x4000) } }
def ok_ (o : Host.Outcome State Fault Refusal) : State := match o with | .next t => t | _ => run
/-- States and operands that meet the hypotheses of ReportedFaultsAreLogged, clause by clause. -/
theorem test_reportedFaultsAreLogged :
  (∃ (d : Fin 60) (code : Byte) (inst : BitVec 16) (detail : BitVec 64) (s : State),
  let n := code.toNat
  isContained n = false ∧ isFatal n = false) ∧
  (∃ (d : Fin 60) (code : Byte) (inst : BitVec 16) (detail : BitVec 64) (s : State),
  let n := code.toNat
  isContained n = true) ∧
  (
  let alone (s : State) := s.flt.cyc.all (fun c => c.tb != s.now) = true
  ∃ (d : Fin 60) (code : Byte) (inst : BitVec 16) (detail : BitVec 64) (s : State),
  let n := code.toNat
  isContained n = true ∧ alone s) ∧
  (
  let alone (s : State) := s.flt.cyc.all (fun c => c.tb != s.now) = true
  ∃ (d1 d2 : Fin 60) (c1 c2 : Byte) (i1 i2 : BitVec 16) (x1 x2 : BitVec 64) (s t1 t2 : State), isContained c1.toNat =
    true ∧ isContained c2.toNat = true ∧ alone s ∧ (d1.val < d2.val ∨ d1.val = d2.val ∧ i1.toNat < i2.toNat) ∧
    Sys2Proof.Machine.exec (.faultReport d1 c1 i1 x1) s = .next t1 ∧ Sys2Proof.Machine.exec (.faultReport d2 c2 i2
    x2) s = .next t2) :=
  ⟨⟨3, 0x02, 0, 0, R, by decide +kernel⟩,
    ⟨3, 0x40, 0, 0, same R, by decide +kernel⟩,
    ⟨3, 0x40, 5, 6, R, by decide +kernel⟩,
    ⟨3, 4, 0x40, 0x41, 5, 6, 7, 8, used 254 R, (used 254 R).contained 3 0x40 5 7, (used 254 R).contained 4 0x41 6 8,
      by decide +kernel, by decide +kernel, by decide +kernel, by decide +kernel, rfl, rfl⟩⟩
/-- States and operands that meet the hypotheses of FatalFaultsStopTheDevice, clause by clause. -/
theorem test_fatalFaultsStopTheDevice :
  (∃ (d : Fin 60) (k : Byte) (i : BitVec 16) (x : BitVec 64) (s : State), isFatal k.toNat = true ∧ s.pwr.coreUp =
    false) ∧
  (∃ (d : Fin 60) (k : Byte) (i : BitVec 16) (x : BitVec 64) (s : State), isFatal k.toNat = true ∧ s.pwr.coreUp =
    true) ∧
  (∃ (s : State), s.pwr.coreUp = false) ∧
  (∃ (s : State), s.pwr.coreUp = true) ∧
  (∃ (b : BitVec 16) (e : BitVec 64) (s : State), s.pwr.coreUp = false) ∧
  (∃ (b : BitVec 16) (e : BitVec 64) (s : State), s.pwr.coreUp = true) ∧
  (∃ (r : Fin 16) (vc : Fin 2) (s : State), s.pwr.coreUp = false) ∧
  (∃ (r : Fin 16) (vc : Fin 2) (s : State), s.pwr.coreUp = true) ∧
  (∃ (pc : BitVec 64) (s : State),
  let hung := s.pwr.coreUp = true ∧ s.pwr.fwRuns = true ∧ s.pwr.fwFrom + 100000000 ≤ s.now
  (¬ hung)) ∧
  (∃ (pc : BitVec 64) (s : State),
  let hung := s.pwr.coreUp = true ∧ s.pwr.fwRuns = true ∧ s.pwr.fwFrom + 100000000 ≤ s.now
  hung) ∧
  (∃ (s : State), s.pwr.coreUp = false) ∧
  (∃ (s : State), s.pwr.coreUp = true) ∧
  (∃ (n : Fin 8) (s : State),
  let k := (s.now + 3040) / 5000
  let misses := s.flag .ejt (EJT_BUS_CTRL n) 31 = true ∧ dstate s = 1 ∧ ∀ j, (ejBus s n).slot = some j → j < k
  (¬ misses ∨ s.pwr.coreUp = false)) ∧
  (∃ (n : Fin 8) (s : State),
  let k := (s.now + 3040) / 5000
  let misses := s.flag .ejt (EJT_BUS_CTRL n) 31 = true ∧ dstate s = 1 ∧ ∀ j, (ejBus s n).slot = some j → j < k
  misses ∧ s.pwr.coreUp = true) ∧
  (∃ (tj : BitVec 16) (s : State),
  let top : Int := if s.time.part = .wap24_48C then 190 else 210
  (tj.toInt ≤ top + 30 ∨ s.pwr.coreUp = false)) ∧
  (∃ (tj : BitVec 16) (s : State),
  let top : Int := if s.time.part = .wap24_48C then 190 else 210
  top + 30 < tj.toInt ∧ s.pwr.coreUp = true) ∧
  (∃ (tj : BitVec 16) (s : State),
  let top : Int := if s.time.part = .wap24_48C then 190 else 210
  tj.toInt ≤ top - 10) ∧
  (∃ (tj : BitVec 16) (s : State),
  let top : Int := if s.time.part = .wap24_48C then 190 else 210
  top - 10 < tj.toInt ∧ (tj.toInt ≤ top ∨ s.flt.warnArmed = false)) ∧
  (∃ (tj : BitVec 16) (s : State),
  let top : Int := if s.time.part = .wap24_48C then 190 else 210
  top < tj.toInt ∧ s.flt.warnArmed = true) :=
  ⟨⟨3, 0xF0, 4, 5, { R with pwr := { R.pwr with coreUp := false } }, by decide +kernel⟩,
    ⟨3, 0xF6, 4, 5, U, by decide +kernel⟩,
    ⟨{ R with pwr := { R.pwr with coreUp := false } }, by decide +kernel⟩,
    ⟨same U, by decide +kernel⟩,
    ⟨3, 4, { R with pwr := { R.pwr with coreUp := false } }, by decide +kernel⟩,
    ⟨3, 4, U, by decide +kernel⟩,
    ⟨3, 1, { R with pwr := { R.pwr with coreUp := false } }, by decide +kernel⟩,
    ⟨3, 1, U, by decide +kernel⟩,
    ⟨3, { R with pwr := { R.pwr with fwRuns := false } }, by decide +kernel⟩,
    ⟨3, { at_ U 150000000 with pwr := { U.pwr with fwRuns := true, fwFrom := 50000000 } }, by decide +kernel⟩,
    ⟨{ R with pwr := { R.pwr with coreUp := false } }, by decide +kernel⟩,
    ⟨U, by decide +kernel⟩,
    ⟨1, R, by decide +kernel⟩,
    ⟨1, bus 1 3999 R, by decide +kernel⟩,
    ⟨220, R, by decide +kernel⟩,
    ⟨221, U, by decide +kernel⟩,
    ⟨180, R, by decide +kernel⟩,
    ⟨181, armed R, by decide +kernel⟩,
    ⟨191, armed R, by decide +kernel⟩⟩
/-- States and operands that meet the hypotheses of LogMirrorAndHostWatchdog, clause by clause. -/
theorem test_logMirrorAndHostWatchdog :
  (∃ (s : State), s.flag .flt FLT_CTRL 31 = false) ∧
  (∃ (s : State), s.flag .flt FLT_CTRL 31 = true) ∧
  (
  let alone (s : State) := s.flt.cyc.all (fun c => c.tb != s.now) = true
  ∃ (s : State),
  let all := s.flt.staging ++ recs
  s.flag .flt FLT_CTRL 31 = true ∧ alone s ∧ ((∀ r ∈ s.flt.staging, r.length = 8))) ∧
  (
  let alone (s : State) := s.flt.cyc.all (fun c => c.tb != s.now) = true
  ∃ (v : Word) (c : Instr) (d : Fin 60) (code : Byte) (inst : BitVec 16) (x : BitVec 64) (s t1 t2 : State), c ∈
    [Instr.fltLogConsWrite v, .fltMirDoorbell v, .fltMirrorMove, .fltClearFirst, .fltClearFatal] ∧ isContained
    code.toNat = true ∧ alone s ∧ Sys2Proof.Machine.exec (.faultReport d code inst x) s = .next t1 ∧
    Sys2Proof.Machine.exec c s = .next t2) ∧
  (∃ (s : State), ∃ c, s.flt.cyc = some c ∧ c.tb = s.now ∧ c.left = s.flt.regs ∧ c.reps ≠ []) ∧
  (
  let alone (s : State) := s.flt.cyc.all (fun c => c.tb != s.now) = true
  ∃ (s : State), ∃ t, alone s ∧ Sys2Proof.Machine.exec .hostSilent s = .next t) ∧
  (∃ (s : State),
  let expires := s.flag .flt FLT_HOST_WDOG 31 = true ∧ s.flt.wdogDone = false ∧ s.flt.wdogFrom + s.fld .flt FLT_HOST_WDOG 15 0 * 1000000 ≤ s.now
  (¬ expires)) ∧
  (∃ (s : State),
  let expires := s.flag .flt FLT_HOST_WDOG 31 = true ∧ s.flt.wdogDone = false ∧ s.flt.wdogFrom + s.fld .flt FLT_HOST_WDOG 15 0 * 1000000 ≤ s.now
  expires) :=
  ⟨⟨R, by decide +kernel⟩,
    ⟨mir (used 2 (same R)), by decide +kernel⟩,
    ⟨mir (used 2 R), by decide +kernel⟩,
    ⟨301, .fltLogConsWrite 301, 3, 0x40, 5, 6, ow ⟨3, 1, 2, 50⟩ (used 255 R), (ow ⟨3, 1, 2, 50⟩ (used 255
      R)).contained 3 0x40 5 6, (ow ⟨3, 1, 2, 50⟩ (used 255 R)).logConsWrite 301, by decide +kernel,
      by decide +kernel, by decide +kernel, rfl, rfl⟩,
    ⟨same R, (same R).flt.cyc.getD ⟨0, [], [], 0, none, []⟩, by decide +kernel⟩,
    ⟨wdg R, ok_ (exec .hostSilent (wdg R)), by decide +kernel, rfl⟩,
    ⟨R, by decide +kernel⟩,
    ⟨wdg R, by decide +kernel⟩⟩
end W034

namespace W035
def pw (f : PwrSt → PwrSt) (s : State) : State := { s with pwr := f s.pwr }
def R : State := at_ run 20000000
def off (s : State) : State :=
  { pw (fun p => { p with coreUp := false, goingUp := false, goingDown := false }) (s.put .pwr OAS_STATUS 31 24 255) with tap := { s.tap with testRej := true } }
def boot (m : Nat) : State := pw (fun p => { p with coreUp := true, fwRuns := false }) ((R.put .pwr PWR_STATUS 31 28
  0).put .pwr OAS_STRAPS 5 4 m)
def held (b : Bool) (s : State) : State := { s with tap := { s.tap with coreHeld := b } }
/-- States and operands that meet the hypotheses of CoreStartsAndScanTakesPins, clause by clause. -/
theorem test_coreStartsAndScanTakesPins :
  (∃ (straps : BitVec 6) (s : State),
  let ready := s.pwr.coreUp = false ∧ s.pwr.goingUp = false ∧ s.pwr.goingDown = false ∧ pgNow s = 15
  (¬ ready)) ∧
  (∃ (straps : BitVec 6) (s : State),
  let ready := s.pwr.coreUp = false ∧ s.pwr.goingUp = false ∧ s.pwr.goingDown = false ∧ pgNow s = 15
  ready) ∧
  (∃ (ok1 ok2 : Bool) (s : State),
  let boots := s.pwr.coreUp = true ∧ dstate s = 0 ∧ s.pwr.fwRuns = false
  (¬ boots)) ∧
  (∃ (ok1 ok2 : Bool) (s : State),
  let boots := s.pwr.coreUp = true ∧ dstate s = 0 ∧ s.pwr.fwRuns = false
  let passes := bootMode s = 0 ∧ (ok1 = true ∨ ok2 = true) ∨ 2 ≤ bootMode s ∧ ok1 = true ∧ 0 < s.pwr.fwPieces
  boots ∧ passes) ∧
  (∃ (ok1 ok2 : Bool) (s : State),
  let boots := s.pwr.coreUp = true ∧ dstate s = 0 ∧ s.pwr.fwRuns = false
  let passes := bootMode s = 0 ∧ (ok1 = true ∨ ok2 = true) ∨ 2 ≤ bootMode s ∧ ok1 = true ∧ 0 < s.pwr.fwPieces
  boots ∧ (¬ passes) ∧ bootMode s = 0) ∧
  (∃ (ok1 ok2 : Bool) (s : State),
  let boots := s.pwr.coreUp = true ∧ dstate s = 0 ∧ s.pwr.fwRuns = false
  let passes := bootMode s = 0 ∧ (ok1 = true ∨ ok2 = true) ∨ 2 ≤ bootMode s ∧ ok1 = true ∧ 0 < s.pwr.fwPieces
  boots ∧ (¬ passes) ∧ bootMode s ≠ 0) ∧
  (∃ (s : State),
  let starts := s.pwr.coreUp = true ∧ s.pwr.fwRuns = true ∧ dstate s = 0
  (¬ starts)) ∧
  (∃ (s : State),
  let starts := s.pwr.coreUp = true ∧ s.pwr.fwRuns = true ∧ dstate s = 0
  starts) ∧
  (∃ (cells : List Bool) (s : State), s.tap.coreHeld = false) ∧
  (∃ (cells : List Bool) (s : State), s.tap.coreHeld = true) ∧
  (∃ (cells : List Bool) (s : State), s.tap.coreHeld = false) ∧
  (∃ (cells : List Bool) (s : State), s.tap.coreHeld = true) ∧
  (∃ (cells : List Bool) (s : State), s.tap.coreHeld = false) ∧
  (∃ (cells : List Bool) (s : State), s.tap.coreHeld = true) ∧
  (∃ (s : State), s.tap.coreHeld = false) ∧
  (∃ (s : State), s.tap.coreHeld = false) ∧
  (∃ (s : State), s.tap.coreHeld = true) ∧
  (∃ (s : State), s.tap.coreHeld = true) ∧
  (∃ (code : Byte) (s : State), code ∈ [0x00#8, 0x01#8, 0x04#8, 0x05#8, 0x06#8, 0x07#8, 0xFE#8]) ∧
  (∃ (code : Byte) (s : State), code ∉ [0x00#8, 0x01#8, 0x04#8, 0x05#8, 0x06#8, 0x07#8, 0xFE#8]) ∧
  (∃ (s : State) (n : Nat), n < 8 ∧ scanCell s (cellPlace (49 + n) 1) = true ∧ scanCell s (cellPlace (49 + n) 2) =
    true) :=
  ⟨⟨0x12, R, by decide +kernel⟩,
    ⟨0x12, off R, by decide +kernel⟩,
    ⟨true, true, R, by decide +kernel⟩,
    ⟨false, true, boot 0, by decide +kernel⟩,
    ⟨false, false, boot 0, by decide +kernel⟩,
    ⟨true, true, boot 1, by decide +kernel⟩,
    ⟨R, by decide +kernel⟩,
    ⟨pw (fun p => { p with fwRuns := true }) ((boot 0).setb .pwr OAS_STATUS 0 true), by decide +kernel⟩,
    ⟨[true], held false (R.contained 3 0x40 1 2), by decide +kernel⟩,
    ⟨[true, false, true], held true (off R), by decide +kernel⟩,
    ⟨[true], held false R, by decide +kernel⟩,
    ⟨[true, false, true], held true (off R), by decide +kernel⟩,
    ⟨[true], held false R, by decide +kernel⟩,
    ⟨[true, false, true], held true (off R), by decide +kernel⟩,
    ⟨held false R, by decide +kernel⟩,
    ⟨held false R, by decide +kernel⟩,
    ⟨held true R, by decide +kernel⟩,
    ⟨held true R, by decide +kernel⟩,
    ⟨5, R, by decide +kernel⟩,
    ⟨0xFF, R, by decide +kernel⟩,
    ⟨{ R with tap := { R.tap with boundary := [(249, true), (251, true)] } }, 3, by decide +kernel⟩⟩
end W035
end Sys2Proof.Tests
end

/-! ## What each operation outside the timebase leaves alone: the timebase and the queue of commands -/

section

namespace Sys2Proof.Machine

/-- What the operations outside the timebase leave alone: the timebase and the queue of commands. -/
def State.clock (s : State) : TimeSt × List Instr := (s.time, s.pending)

theorem State.time_eq_of_clock {s t : State} (h : t.clock = s.clock) : t.time = s.time := congrArg Prod.fst h

theorem State.pending_eq_of_clock {s t : State} (h : t.clock = s.clock) : t.pending = s.pending := congrArg Prod.snd h

@[simp] theorem State.clock_with (s : State) (mot : MotSt) (phy : PhySt) (lnk : LnkSt) (pix : PixSt) (obj : ObjSt)
    (ejt : EjtSt) (pwm : PwmSt) (seq : SeqSt) (host : HostSt) (dma : DmaSt) (erg : ErgSt) (cmp : CmpSt) (evt : EvtSt)
    (cvn : CvnSt) (pwr : PwrSt) (flt : FltSt) (tap : TapSt) (readData : Word) (poisoned : Bool) (tally : Tally) (free : Nat) :
    ({ s with mot := mot, phy := phy, lnk := lnk, pix := pix, obj := obj, ejt := ejt, pwm := pwm, seq := seq, host := host,
              dma := dma, erg := erg, cmp := cmp, evt := evt, cvn := cvn, pwr := pwr, flt := flt, tap := tap,
              readData := readData, readPoisoned := poisoned, tally := tally, free := free } : State).clock = s.clock := (rfl)

@[simp] theorem State.clock_ite (c : Prop) [Decidable c] (s t : State) :
    (if c then s else t).clock = if c then s.clock else t.clock := apply_ite State.clock c s t

@[simp] theorem State.clock_setRegs (s : State) (b : Blk) (r : RegFile) (hb : b ≠ .time) :
    (s.setRegs b r).clock = s.clock := by simp [State.clock, hb]

@[simp] theorem State.clock_wr (s : State) (b : Blk) (a : Nat) (v : Word) (hb : b ≠ .time) :
    (s.wr b a v).clock = s.clock := s.clock_setRegs b _ hb

@[simp] theorem State.clock_put (s : State) (b : Blk) (a hi lo x : Nat) (hb : b ≠ .time) :
    (s.put b a hi lo x).clock = s.clock := s.clock_setRegs b _ hb

@[simp] theorem State.clock_setb (s : State) (b : Blk) (a i : Nat) (x : Bool) (hb : b ≠ .time) :
    (s.setb b a i x).clock = s.clock := s.clock_setRegs b _ hb

@[simp] theorem State.clock_countBy (s : State) (b : Blk) (a n : Nat) (hb : b ≠ .time) :
    (s.countBy b a n).clock = s.clock := by
  simpa [State.countBy, State.clock] using s.clock_setRegs b _ hb

@[simp] theorem State.clock_count (s : State) (b : Blk) (a : Nat) (hb : b ≠ .time) :
    (s.count b a).clock = s.clock := s.clock_countBy b a 1 hb

@[simp] theorem State.clock_store (s : State) (b : Blk) (a : Nat) (v : Word) (hb : b ≠ .time) :
    (s.store b a v).clock = s.clock := by
  unfold State.store
  split <;> simp [hb]

@[simp] theorem State.clock_wr64 (s : State) (b : Blk) (aLo aHi x : Nat) (hb : b ≠ .time) :
    (s.wr64 b aLo aHi x).clock = s.clock := by simp [State.wr64, hb]

@[simp] theorem State.clock_wr48 (s : State) (b : Blk) (aLo aHi x : Nat) (hb : b ≠ .time) :
    (s.wr48 b aLo aHi x).clock = s.clock := by simp [State.wr48, hb]

@[simp] theorem State.clock_wrList (b : Blk) (hb : b ≠ .time) (ws : List Word) :
    ∀ (s : State) (a : Nat), (s.wrList b a ws).clock = s.clock := by
  induction ws with
  | nil => intros; rfl
  | cons w ws ih => intro s a; simp [State.wrList, ih, hb]

@[simp] theorem State.clock_putByte (s : State) (b : Blk) (a k : Nat) (v : Byte) (hb : b ≠ .time) :
    (s.putByte b a k v).clock = s.clock := by simp [State.putByte, hb]

/-- A fold of changes that leave the timebase and the queue alone leaves them alone. -/
@[simp] theorem State.clock_each {α : Type} (l : List α) (f : State → α → State) (hf : ∀ s x, (f s x).clock = s.clock) :
    ∀ s : State, (s.each l f).clock = s.clock := by
  induction l with
  | nil => intro s; rfl
  | cons x l ih => intro s; exact (ih (f s x)).trans (hf s x)

@[simp] theorem State.clock_warmRest (s : State) (perst : Bool) : (s.warmRest perst).clock = s.clock := by
  simp [State.warmRest]

@[simp] theorem State.clock_warmSorting (s : State) : s.warmSorting.clock = s.clock := by simp [State.warmSorting]

@[simp] theorem State.clock_setObj (s : State) (t : Nat) (x : ObjStream) : (s.setObj t x).clock = s.clock := by
  simp [State.setObj]

@[simp] theorem State.clock_onObj (s : State) (t : Nat) (f : ObjStream → ObjStream) :
    (s.onObj t f).clock = s.clock := by simp [State.onObj]

@[simp] theorem State.clock_loadSerials (s : State) : s.loadSerials.clock = s.clock := by simp [State.loadSerials]

@[simp] theorem State.clock_onDma (s : State) (n : Nat) (f : DmaCh → DmaCh) : (s.onDma n f).clock = s.clock := by
  simp [State.onDma]

@[simp] theorem State.clock_creditSettle (s : State) (n : Nat) (host : Bool) :
    (s.creditSettle n host).clock = s.clock := by simp [State.creditSettle]

@[simp] theorem State.clock_chSettle (s : State) (n : Nat) : (s.chSettle n).clock = s.clock := by
  simp [State.chSettle]

@[simp] theorem State.clock_setSeg (s : State) (n : Nat) (x : Seg) : (s.setSeg n x).clock = s.clock := by
  simp [State.setSeg]

@[simp] theorem State.clock_dirtySeg (s : State) (n : Nat) : (s.dirtySeg n).clock = s.clock := by
  simp [State.dirtySeg]

@[simp] theorem State.clock_reapSegs (s : State) : s.reapSegs.clock = s.clock := by simp [State.reapSegs]

@[simp] theorem State.clock_useDesc (s : State) (d : Desc) (more : Bool) :
    (s.useDesc d more).clock = s.clock := by simp [State.useDesc]

@[simp] theorem State.clock_onClient (s : State) (c : Nat) (f : ClientSt → ClientSt) :
    (s.onClient c f).clock = s.clock := by simp [State.onClient]

@[simp] theorem State.clock_hostPut (s : State) (a : Nat) (bs : List Byte) (strict : Bool) (tph : Option (Nat × Nat)) :
    (s.hostPut a bs strict tph).clock = s.clock := by simp [State.hostPut]

@[simp] theorem State.clock_ringPut (s : State) (c r : Nat) (bs : List Byte) :
    (s.ringPut c r bs).clock = s.clock := by simp [State.ringPut]

@[simp] theorem State.clock_gapPut (s : State) (c r : Nat) : (s.gapPut c r).1.clock = s.clock := by
  unfold State.gapPut
  dsimp only
  repeat' split
  all_goals simp

@[simp] theorem State.clock_cliSync (s : State) (c : Nat) : (s.cliSync c).clock = s.clock := by simp [State.cliSync]

@[simp] theorem State.clock_writeBack (s : State) (c : Nat) : (s.writeBack c).clock = s.clock := by
  simp [State.writeBack]

@[simp] theorem State.clock_vectorSend (s : State) (fn v : Nat) : (s.vectorSend fn v).clock = s.clock := by
  simp [State.vectorSend]

@[simp] theorem State.clock_vector (s : State) (fn v : Nat) : (s.vector fn v).clock = s.clock := by
  simp [State.vector]

@[simp] theorem State.clock_interrupt (s : State) (c : Nat) : (s.interrupt c).clock = s.clock := by
  simp [State.interrupt]

@[simp] theorem State.clock_cliWrote (s : State) (c n : Nat) (err : Bool) :
    (s.cliWrote c n err).clock = s.clock := by simp [State.cliWrote]

@[simp] theorem State.clock_completionPut (s : State) (c : Nat) (bs : List Byte) :
    (s.completionPut c bs).clock = s.clock := by simp [State.completionPut]

@[simp] theorem State.clock_descEnds (s : State) (n : Nat) (d : Desc) (status cause tries : Nat) (retried : Bool) :
    (s.descEnds n d status cause tries retried).clock = s.clock := by simp [State.descEnds]

@[simp] theorem State.clock_dmaEndSome (s : State) (n cause : Nat) (ends : Desc → Bool) :
    (s.dmaEndSome n cause ends).clock = s.clock := by simp [State.dmaEndSome]

@[simp] theorem State.clock_chGo (s : State) (n st : Nat) : (s.chGo n st).clock = s.clock := by simp [State.chGo]

@[simp] theorem State.clock_chSync (s : State) (n : Nat) : (s.chSync n).clock = s.clock := by simp [State.chSync]

@[simp] theorem State.clock_dmaFlr (s : State) (n : Nat) (of : Nat → Bool) : (s.dmaFlr n of).clock = s.clock := by
  unfold State.dmaFlr
  split <;> simp

@[simp] theorem State.clock_msixFlr (s : State) (fn : Nat) : (s.msixFlr fn).clock = s.clock := by simp [State.msixFlr]

@[simp] theorem State.clock_pageReset (s : State) (c : Nat) : (s.pageReset c).clock = s.clock := by
  simp [State.pageReset]

@[simp] theorem State.clock_pageFlr (s : State) (c : Nat) : (s.pageFlr c).clock = s.clock := by simp [State.pageFlr]

@[simp] theorem State.clock_cfgFlr (s : State) : s.cfgFlr.clock = s.clock := by simp [State.cfgFlr]

@[simp] theorem State.clock_mailboxReset (s : State) : s.mailboxReset.clock = s.clock := by simp [State.mailboxReset]

@[simp] theorem State.clock_answer (s : State) (v : Word) : (s.answer v).clock = s.clock := by simp [State.answer]

@[simp] theorem State.clock_onPwm (s : State) (n : Nat) (f : LegSt → LegSt) : (s.onPwm n f).clock = s.clock := by
  simp [State.onPwm]

@[simp] theorem State.clock_pwmOverrun (s : State) (n ch : Nat) : (s.pwmOverrun n ch).clock = s.clock := by
  simp [State.pwmOverrun]

@[simp] theorem State.clock_pwmHold (s : State) (n : Nat) (x : Nat × Nat) : (s.pwmHold n x).clock = s.clock := by
  simp [State.pwmHold]

@[simp] theorem State.clock_startSettle (s : State) (n upTo : Nat) : (s.startSettle n upTo).clock = s.clock := by
  unfold State.startSettle
  split <;> simp

@[simp] theorem State.clock_ocSettle (s : State) (n upTo : Nat) : (s.ocSettle n upTo).clock = s.clock := by
  unfold State.ocSettle
  dsimp only
  repeat' split
  all_goals simp

@[simp] theorem State.clock_pwmSettle (s : State) (n upTo : Nat) : (s.pwmSettle n upTo).clock = s.clock := by
  simp [State.pwmSettle]

@[simp] theorem State.clock_setQ (s : State) (q : Nat) (x : ErgQ) : (s.setQ q x).clock = s.clock := by
  simp [State.setQ]

@[simp] theorem State.clock_ergStrike (s : State) (a : Nat) (double : Bool) :
    (s.ergStrike a double).clock = s.clock := by simp [State.ergStrike]

@[simp] theorem State.clock_logAppend (s : State) (rec : List Word) : (s.logAppend rec).clock = s.clock := by
  simp [State.logAppend]

@[simp] theorem State.clock_logOverflow (s : State) : s.logOverflow.clock = s.clock := by
  unfold State.logOverflow
  split <;> simp

@[simp] theorem State.clock_fltFlags (s : State) : s.fltFlags.clock = s.clock := by simp [State.fltFlags]

@[simp] theorem State.clock_reportOne (s : State) (e : FltRep) : (s.reportOne e).clock = s.clock := by
  simp [State.reportOne]

@[simp] theorem State.clock_inCycle (s : State) (reps : List FltRep) (f : State → State)
    (hf : ∀ s, (f s).clock = s.clock) : (s.inCycle reps f).clock = s.clock := by simp [State.inCycle, hf]

@[simp] theorem State.clock_reportAt (s : State) (tb sev domain code inst detail : Nat) :
    (s.reportAt tb sev domain code inst detail).clock = s.clock := by simp [State.reportAt]

@[simp] theorem State.clock_contained (s : State) (domain code inst detail : Nat) :
    (s.contained domain code inst detail).clock = s.clock := by simp [State.contained]

@[simp] theorem State.clock_ergUncorr (s : State) (a : Nat) : (s.ergUncorr a).clock = s.clock := by
  simp [State.ergUncorr]

@[simp] theorem State.clock_ergMeet (s : State) (a n : Nat) : (s.ergMeet a n).clock = s.clock := by
  simp [State.ergMeet]

@[simp] theorem State.clock_qMeet (s : State) (q n : Nat) : (s.qMeet q n).clock = s.clock := by simp [State.qMeet]

@[simp] theorem State.clock_draw (s : State) : s.draw.clock = s.clock := by simp [State.draw]

@[simp] theorem State.clock_onStaged (s : State) (rec : List Byte) (f : Staged → Staged) :
    (s.onStaged rec f).clock = s.clock := by simp [State.onStaged]

@[simp] theorem State.clock_copyOver (s : State) (t : Nat) (rec : List Byte) :
    (s.copyOver t rec).clock = s.clock := by simp [State.copyOver]

@[simp] theorem State.clock_itemGone (s : State) (q : Nat) (it : List Dword) :
    (s.itemGone q it).clock = s.clock := by
  unfold State.itemGone
  split <;> simp

@[simp] theorem State.clock_itemLeft (s : State) (q : Nat) (it : List Dword) :
    (s.itemLeft q it).clock = s.clock := by
  unfold State.itemLeft
  dsimp only
  repeat' split
  all_goals simp

@[simp] theorem State.clock_qPop (s : State) (q err : Nat) : (s.qPop q err).clock = s.clock := by
  unfold State.qPop
  dsimp only
  repeat' split
  all_goals simp

@[simp] theorem State.clock_rtcCount (s : State) : s.rtcCount.clock = s.clock := by simp [State.rtcCount]

@[simp] theorem State.clock_bar2Read (s : State) (a : Nat) : (s.bar2Read a).clock = s.clock := by
  simp [State.bar2Read]

@[simp] theorem State.clock_mbxGo (s : State) : s.mbxGo.clock = s.clock := by simp [State.mbxGo]

@[simp] theorem State.clock_mbxCmdWrite (s : State) (v : Word) : (s.mbxCmdWrite v).clock = s.clock := by
  simp [State.mbxCmdWrite]

@[simp] theorem State.clock_mbxArgWrite (s : State) (i : Nat) (v : Word) :
    (s.mbxArgWrite i v).clock = s.clock := by simp [State.mbxArgWrite]

@[simp] theorem State.clock_onCv (s : State) (p : Nat) (f : CvPort → CvPort) : (s.onCv p f).clock = s.clock := by
  simp [State.onCv]

@[simp] theorem State.clock_bufFree (s : State) (p : Nat) (resp : Bool) : (s.bufFree p resp).clock = s.clock := by
  simp [State.bufFree]

@[simp] theorem State.clock_bufDone (s : State) (k : Option (Nat × Bool × Nat)) :
    (s.bufDone k).clock = s.clock := by
  unfold State.bufDone
  split <;> simp

@[simp] theorem State.clock_cvPut (s : State) (p : Nat) (c : Cell) (holds : Option (Nat × Bool × Nat)) :
    (s.cvPut p c holds).clock = s.clock := by simp [State.cvPut]

@[simp] theorem State.clock_pubOn (s : State) (order ch : Nat) (arg : Word) (stamp src : Nat) :
    (s.pubOn order ch arg stamp src).clock = s.clock := by simp [State.pubOn]

@[simp] theorem State.clock_publishAt (s : State) (id : Nat) (arg : Word) (stamp : Nat) :
    (s.publishAt id arg stamp).clock = s.clock := by simp [State.publishAt]

@[simp] theorem State.clock_publish (s : State) (id : Nat) (arg : Word) : (s.publish id arg).clock = s.clock := by
  simp [State.publish]

@[simp] theorem State.clock_commitDown (s : State) (e : EnumSt) (c : Cell) (k : Option (Nat × Bool × Nat)) :
    (s.commitDown e c k).clock = s.clock := by simp [State.commitDown]

@[simp] theorem State.clock_rootEnds (s : State) (e : EnumSt) : (s.rootEnds e).clock = s.clock := by
  simp [State.rootEnds]

@[simp] theorem State.clock_walkOn (s : State) (e : EnumSt) (from' : Nat) :
    (s.walkOn e from').clock = s.clock := by
  unfold State.walkOn
  dsimp only
  repeat' split
  all_goals simp

@[simp] theorem State.clock_walkPort (s : State) (e : EnumSt) (role lo hi : Nat) :
    (s.walkPort e role lo hi).clock = s.clock := by simp [State.walkPort]

@[simp] theorem State.clock_branchAbort (s : State) (e : EnumSt) : (s.branchAbort e).clock = s.clock := by
  simp [State.branchAbort]

@[simp] theorem State.clock_passLost (s : State) (p : Nat) : (s.passLost p).clock = s.clock := by
  unfold State.passLost
  split <;> simp

@[simp] theorem State.clock_oweChange (s : State) : s.oweChange.clock = s.clock := by simp [State.oweChange]

@[simp] theorem State.clock_up2Sync (s : State) : s.up2Sync.clock = s.clock := by
  unfold State.up2Sync
  split <;> simp

@[simp] theorem State.clock_tabRegs (s : State) : s.tabRegs.clock = s.clock := by simp [State.tabRegs]

@[simp] theorem State.clock_cvUp (s : State) (c : Cell) (k : Option (Nat × Bool × Nat)) :
    (s.cvUp c k).clock = s.clock := by
  unfold State.cvUp
  split <;> simp

@[simp] theorem State.clock_onPhy (s : State) (p : Nat) (f : PhyPort → PhyPort) :
    (s.onPhy p f).clock = s.clock := by simp [State.onPhy]

@[simp] theorem State.clock_phyGo (s : State) (p st : Nat) : (s.phyGo p st).clock = s.clock := by simp [State.phyGo]

@[simp] theorem State.clock_setLnkPort (s : State) (p : Nat) (x : LnkPort) :
    (s.setLnkPort p x).clock = s.clock := by simp [State.setLnkPort]

@[simp] theorem State.clock_onLnk (s : State) (p : Nat) (f : LnkPort → LnkPort) :
    (s.onLnk p f).clock = s.clock := by simp [State.onLnk]

@[simp] theorem State.clock_freshLanes (s : State) (p : Nat) : (s.freshLanes p).clock = s.clock := by
  simp [State.freshLanes]

@[simp] theorem State.clock_setLock (s : State) (p lane : Nat) (b : Bool) :
    (s.setLock p lane b).clock = s.clock := by simp [State.setLock]

@[simp] theorem State.clock_dropLocks (s : State) (p : Nat) : (s.dropLocks p).clock = s.clock := by
  simp [State.dropLocks]

@[simp] theorem State.clock_lanesDark (s : State) (p : Nat) : (s.lanesDark p).clock = s.clock := by
  simp [State.lanesDark]

@[simp] theorem State.clock_phyDetect (s : State) (p : Nat) : (s.phyDetect p).clock = s.clock := by
  simp [State.phyDetect]

@[simp] theorem State.clock_phyStart (s : State) (p : Nat) : (s.phyStart p).clock = s.clock := by
  simp [State.phyStart]

@[simp] theorem State.clock_endReg (s : State) (p result : Nat) : (s.endReg p result).clock = s.clock := by
  simp [State.endReg]

@[simp] theorem State.clock_regLinkDown (s : State) (p : Nat) : (s.regLinkDown p).clock = s.clock := by
  simp [State.regLinkDown]

@[simp] theorem State.clock_onVc (s : State) (p v : Nat) (f : VcSt → VcSt) : (s.onVc p v f).clock = s.clock := by
  simp [State.onVc]

@[simp] theorem State.clock_countMarks (s : State) (p flags : Nat) : (s.countMarks p flags).clock = s.clock := by
  simp [State.countMarks]

@[simp] theorem State.clock_setPix (s : State) (t : Nat) (x : PixStream) : (s.setPix t x).clock = s.clock := by
  simp [State.setPix]

@[simp] theorem State.clock_onPix (s : State) (t : Nat) (f : PixStream → PixStream) :
    (s.onPix t f).clock = s.clock := by simp [State.onPix]

@[simp] theorem State.clock_deliver (s : State) (l : CamLine) (ts : List Nat) :
    (s.deliver l ts).clock = s.clock := by simp [State.deliver]

@[simp] theorem State.clock_lineTo (s : State) (l : CamLine) (found : Option Stamp) (lineStart : Option Nat) (ts : List Nat) :
    (s.lineTo l found lineStart ts).clock = s.clock := by simp [State.lineTo]

@[simp] theorem State.clock_insertMissing (s : State) (p vc pixels : Nat) (dt : Option Nat) (tags : List (Option Nat))
    (area : Bool) :
    (s.insertMissing p vc pixels dt tags area).clock = s.clock := by simp [State.insertMissing]

@[simp] theorem State.clock_deliverStamped (s : State) (l : CamLine) (found : Option Stamp) (lineStart : Option Nat) :
    (s.deliverStamped l found lineStart).clock = s.clock := by simp [State.deliverStamped]

@[simp] theorem State.clock_noteDelay (s : State) (p arrived : Nat) (found : Option Stamp) :
    (s.noteDelay p arrived found).clock = s.clock := by
  unfold State.noteDelay
  split <;> simp

@[simp] theorem State.clock_closeLine (s : State) (p vc : Nat) (extra : Nat) :
    (s.closeLine p vc extra).clock = s.clock := by
  unfold State.closeLine
  split <;> simp

@[simp] theorem State.clock_closeShort (s : State) (p vc : Nat) : (s.closeShort p vc).clock = s.clock := by
  simp [State.closeShort]

@[simp] theorem State.clock_markDo (s : State) (p : Nat) (e : RxItem) : (s.markDo p e).clock = s.clock := by
  cases e <;> simp [State.markDo]

@[simp] theorem State.clock_mark (s : State) (p : Nat) (e : RxItem) : (s.mark p e).clock = s.clock := by
  simp [State.mark]

@[simp] theorem State.clock_closePort (s : State) (p : Nat) : (s.closePort p).clock = s.clock := by
  simp [State.closePort]

@[simp] theorem State.clock_dlDown (s : State) (p : Nat) : (s.dlDown p).clock = s.clock := by simp [State.dlDown]

@[simp] theorem State.clock_escanEnd (s : State) (p lane flag : Nat) :
    (s.escanEnd p lane flag).clock = s.clock := by simp [State.escanEnd]

@[simp] theorem State.clock_escanStop (s : State) (p lane : Nat) : (s.escanStop p lane).clock = s.clock := by
  simp [State.escanStop]

@[simp] theorem State.clock_leaveActive (s : State) (p : Nat) : (s.leaveActive p).clock = s.clock := by
  simp [State.leaveActive]

@[simp] theorem State.clock_phyOffNow (s : State) (p : Nat) : (s.phyOffNow p).clock = s.clock := by
  simp [State.phyOffNow]

@[simp] theorem State.clock_phyBackoffFor (s : State) (p ns : Nat) : (s.phyBackoffFor p ns).clock = s.clock := by
  simp [State.phyBackoffFor]

@[simp] theorem State.clock_retrain (s : State) (p : Nat) : (s.retrain p).clock = s.clock := by simp [State.retrain]

@[simp] theorem State.clock_phyCtrlWrite (s : State) (p : Nat) (v : Word) :
    (s.phyCtrlWrite p v).clock = s.clock := by simp [State.phyCtrlWrite]

@[simp] theorem State.clock_escanWrite (s : State) (p lane : Nat) (v : Word) :
    (s.escanWrite p lane v).clock = s.clock := by simp [State.escanWrite]

@[simp] theorem State.clock_setChk (s : State) (p lane : Nat) (c : Checker) :
    (s.setChk p lane c).clock = s.clock := by simp [State.setChk]

@[simp] theorem State.clock_prbsWrite (s : State) (p lane : Nat) (v : Word) :
    (s.prbsWrite p lane v).clock = s.clock := by simp [State.prbsWrite]

@[simp] theorem State.clock_eqWrite (s : State) (p lane off : Nat) (v : Word) :
    (s.eqWrite p lane off v).clock = s.clock := by simp [State.eqWrite]

@[simp] theorem State.clock_onReg (s : State) (p : Nat) (f : RegReq → RegReq) :
    (s.onReg p f).clock = s.clock := by simp [State.onReg]

@[simp] theorem State.clock_sendLctl (s : State) (p msg : Nat) : (s.sendLctl p msg).clock = s.clock := by
  simp [State.sendLctl]

@[simp] theorem State.clock_quietExitStart (s : State) (p : Nat) : (s.quietExitStart p).clock = s.clock := by
  simp [State.quietExitStart]

@[simp] theorem State.clock_wakePort (s : State) (p : Nat) : (s.wakePort p).clock = s.clock := by
  simp [State.wakePort]

@[simp] theorem State.clock_regAttempt (s : State) (p : Nat) : (s.regAttempt p).clock = s.clock := by
  simp [State.regAttempt]

@[simp] theorem State.clock_regGo (s : State) (p : Nat) (v : Word) : (s.regGo p v).clock = s.clock := by
  simp [State.regGo]

@[simp] theorem State.clock_lnkWrite (s : State) (p o a : Nat) (v : Word) :
    (s.lnkWrite p o a v).clock = s.clock := by simp [State.lnkWrite]

@[simp] theorem State.clock_openSync (s : State) (t : Nat) : (s.openSync t).clock = s.clock := by
  simp [State.openSync]

@[simp] theorem State.clock_loseObj (s : State) (t : Nat) (o : Obj) : (s.loseObj t o).clock = s.clock := by
  simp [State.loseObj]

@[simp] theorem State.clock_closeObj (s : State) (t : Nat) (o : Obj) : (s.closeObj t o).clock = s.clock := by
  simp [State.closeObj]

@[simp] theorem State.clock_ergWrite (s : State) (a : Nat) (bs : List Byte) :
    (s.ergWrite a bs).clock = s.clock := by simp [State.ergWrite]

@[simp] theorem State.clock_startCopy (s : State) (t kind : Nat) (r : List Byte) (src strip addr size : Nat) (slot : Option Nat) :
    (s.startCopy t kind r src strip addr size slot).clock = s.clock := by simp [State.startCopy]

@[simp] theorem State.clock_setOutRing (s : State) (t src : Nat) (r : OutRing) :
    (s.setOutRing t src r).clock = s.clock := by simp [State.setOutRing]

@[simp] theorem State.clock_writeOut (s p : State) (t : Nat) (x : StripSt) (early : Bool) (src : Nat) :
    (s.writeOut p t x early src).clock = s.clock := by
  unfold State.writeOut
  dsimp only
  repeat' split
  all_goals simp

@[simp] theorem State.clock_qDrop (s : State) (q : Nat) (it : List Dword) : (s.qDrop q it).clock = s.clock := by
  unfold State.qDrop
  split <;> simp

@[simp] theorem State.clock_qWrite (s : State) (q : Nat) (it : List Dword) : (s.qWrite q it).clock = s.clock := by
  simp [State.qWrite]

@[simp] theorem State.clock_qRewind (s : State) (q : Nat) (it : List Dword) :
    (s.qRewind q it).clock = s.clock := by
  unfold State.qRewind
  split <;> simp

@[simp] theorem State.clock_qServe (s : State) (q : Nat) : (s.qServe q).clock = s.clock := by simp [State.qServe]

@[simp] theorem State.clock_qPush (s : State) (q : Nat) (payload : List Dword) :
    (s.qPush q payload).clock = s.clock := by simp [State.qPush]

@[simp] theorem State.clock_statistics (s p : State) (t : Nat) (x : StripSt) (early : Bool) :
    (s.statistics p t x early).clock = s.clock := by
  unfold State.statistics
  dsimp only
  repeat' split
  all_goals simp

@[simp] theorem State.clock_endStrip (s p : State) (t : Nat) (early : Bool) :
    (s.endStrip p t early).clock = s.clock := by
  unfold State.endStrip
  split <;> simp

@[simp] theorem State.clock_leaveAlone (s : State) (v : ObjView) (unpaired : Bool) :
    (s.leaveAlone v unpaired).clock = s.clock := by simp [State.leaveAlone]

@[simp] theorem State.clock_pairFlush (s : State) (t : Nat) : (s.pairFlush t).clock = s.clock := by
  simp [State.pairFlush]

@[simp] theorem State.clock_handover (s : State) (t : Nat) (rec : List Byte) :
    (s.handover t rec).1.clock = s.clock := by
  unfold State.handover
  dsimp only
  repeat' split
  all_goals simp

@[simp] theorem clock_releaseDeadline (s : State) (r : Release) (vs : Option (Nat × Nat)) :
    (releaseDeadline s r vs).2.clock = s.clock := by
  unfold releaseDeadline
  split
  · simp
  · split <;> simp

@[simp] theorem State.clock_pendSync (s : State) : s.pendSync.clock = s.clock := by simp [State.pendSync]

@[simp] theorem State.clock_addRec (s : State) (v : VRec) : (s.addRec v).clock = s.clock := by simp [State.addRec]

@[simp] theorem State.clock_lostRelease (s : State) (r : Release) : (s.lostRelease r).clock = s.clock := by
  unfold State.lostRelease
  dsimp only
  repeat' split
  all_goals simp

@[simp] theorem State.clock_lostOut (s : State) (t : Nat) : (s.lostOut t).clock = s.clock := by
  unfold State.lostOut
  split <;> simp

@[simp] theorem State.clock_streamEnd (s : State) (t : Nat) : (s.streamEnd t).clock = s.clock := by
  simp [State.streamEnd]

@[simp] theorem State.clock_setSeqU (s : State) (q : Nat) (x : SeqUnit) : (s.setSeqU q x).clock = s.clock := by
  simp [State.setSeqU]

@[simp] theorem State.clock_onSeq (s : State) (q : Nat) (f : SeqUnit → SeqUnit) :
    (s.onSeq q f).clock = s.clock := by simp [State.onSeq]

@[simp] theorem State.clock_leadStop (s : State) (t : Nat) : (s.leadStop t).clock = s.clock := by
  unfold State.leadStop
  split <;> simp

@[simp] theorem State.clock_setPair (s : State) (t : Nat) (b : Option Nat) : (s.setPair t b).clock = s.clock := by
  simp [State.setPair]

@[simp] theorem State.clock_pairCheck (s : State) (t : Nat) : (s.pairCheck t).clock = s.clock := by
  simp [State.pairCheck]

@[simp] theorem State.clock_streamBegin (s : State) (t : Nat) : (s.streamBegin t).clock = s.clock := by
  simp [State.streamBegin]

@[simp] theorem State.clock_pixSrcWrite (s : State) (t : Nat) (v : Word) :
    (s.pixSrcWrite t v).clock = s.clock := by simp [State.pixSrcWrite]

@[simp] theorem State.clock_pixLockedWrite (s : State) (t a : Nat) (v : Word) :
    (s.pixLockedWrite t a v).clock = s.clock := by simp [State.pixLockedWrite]

@[simp] theorem State.clock_arm (s : State) (t : Nat) : (s.arm t).clock = s.clock := by simp [State.arm]

@[simp] theorem State.clock_disarm (s : State) (t : Nat) : (s.disarm t).clock = s.clock := by simp [State.disarm]

@[simp] theorem State.clock_pixArmWrite (s : State) (t : Nat) (v : Word) :
    (s.pixArmWrite t v).clock = s.clock := by simp [State.pixArmWrite]

@[simp] theorem State.clock_pixLoad (s : State) (t : Nat) (v : Word) : (s.pixLoad t v).clock = s.clock := by
  simp [State.pixLoad]

@[simp] theorem State.clock_shadowWrite (s : State) (t off : Nat) (v : Word) :
    (s.shadowWrite t off v).clock = s.clock := by simp [State.shadowWrite]

@[simp] theorem State.clock_pixWrite (s : State) (t o a : Nat) (v : Word) :
    (s.pixWrite t o a v).clock = s.clock := by simp [State.pixWrite]

@[simp] theorem State.clock_objLockedWrite (s : State) (t a : Nat) (v : Word) :
    (s.objLockedWrite t a v).clock = s.clock := by simp [State.objLockedWrite]

@[simp] theorem State.clock_putBanks (s : State) (tiles : List Nat) (kind ctx : Nat) (b : Bool) (v : Bank) :
    (s.putBanks tiles kind ctx b v).clock = s.clock := by simp [State.putBanks]

@[simp] theorem State.clock_putOtherBank (s : State) (t : Nat) (tiles : List Nat) (v : Bank) :
    (s.putOtherBank t tiles v).clock = s.clock := by simp [State.putOtherBank]

@[simp] theorem State.clock_clsLoad (s : State) (t : Nat) (v : Word) : (s.clsLoad t v).clock = s.clock := by
  simp [State.clsLoad]

@[simp] theorem State.clock_objWrite (s : State) (t o a : Nat) (v : Word) :
    (s.objWrite t o a v).clock = s.clock := by simp [State.objWrite]

@[simp] theorem State.clock_setVTable (s : State) (rule : Bool) (k : Nat) (t : VTable) :
    (s.setVTable rule k t).clock = s.clock := by simp [State.setVTable]

@[simp] theorem State.clock_ejtLoad (s : State) (v : Word) : (s.ejtLoad v).clock = s.clock := by simp [State.ejtLoad]

@[simp] theorem State.clock_ejtSwap (s : State) : s.ejtSwap.clock = s.clock := by simp [State.ejtSwap]

@[simp] theorem State.clock_ejtWrite (s : State) (o a : Nat) (v : Word) : (s.ejtWrite o a v).clock = s.clock := by
  simp [State.ejtWrite]

@[simp] theorem State.clock_setEjBus (s : State) (n : Nat) (b : EjBus) : (s.setEjBus n b).clock = s.clock := by
  simp [State.setEjBus]

@[simp] theorem State.clock_busIdle (s : State) (n : Nat) : (s.busIdle n).clock = s.clock := by simp [State.busIdle]

@[simp] theorem State.clock_busCtrlWrite (s : State) (n : Nat) (v : Word) :
    (s.busCtrlWrite n v).clock = s.clock := by simp [State.busCtrlWrite]

@[simp] theorem State.clock_widenWrite (s : State) (t : Nat) (v : Word) : (s.widenWrite t v).clock = s.clock := by
  simp [State.widenWrite]

@[simp] theorem State.clock_vrangeWrite (s : State) (t : Nat) (v : Word) :
    (s.vrangeWrite t v).clock = s.clock := by simp [State.vrangeWrite]

@[simp] theorem State.clock_pwmRestart (s : State) (n : Nat) : (s.pwmRestart n).clock = s.clock := by
  simp [State.pwmRestart]

@[simp] theorem State.clock_pwmClear (s : State) (n : Nat) : (s.pwmClear n).clock = s.clock := by
  simp [State.pwmClear]

@[simp] theorem State.clock_pwmCtrlWrite (s : State) (n : Nat) (v : Word) :
    (s.pwmCtrlWrite n v).clock = s.clock := by simp [State.pwmCtrlWrite]

@[simp] theorem State.clock_pwmShadowWrite (s : State) (n k : Nat) (v : Word) :
    (s.pwmShadowWrite n k v).clock = s.clock := by simp [State.pwmShadowWrite]

@[simp] theorem State.clock_pwmWrite (s : State) (n o a : Nat) (v : Word) :
    (s.pwmWrite n o a v).clock = s.clock := by simp [State.pwmWrite]

@[simp] theorem State.clock_pwmGrpClear (s : State) (g : Nat) : (s.pwmGrpClear g).clock = s.clock := by
  simp [State.pwmGrpClear]

@[simp] theorem State.clock_setMs (s : State) (m : Nat) (x : MsSt) : (s.setMs m x).clock = s.clock := by
  simp [State.setMs]

@[simp] theorem State.clock_emuAll (s before : State) : (s.emuAll before).clock = s.clock := by simp [State.emuAll]

@[simp] theorem State.clock_setEnc (s : State) (n : Nat) (e : EncSt) : (s.setEnc n e).clock = s.clock := by
  simp [State.setEnc]

@[simp] theorem State.clock_onEnc (s : State) (n : Nat) (f : EncSt → EncSt) : (s.onEnc n f).clock = s.clock := by
  simp [State.onEnc]

@[simp] theorem State.clock_encEvent (s : State) (n k : Nat) (arg : Word) :
    (s.encEvent n k arg).clock = s.clock := by simp [State.encEvent]

@[simp] theorem State.clock_putEncState (s : State) (n st : Nat) (dec : Bool) :
    (s.putEncState n st dec).clock = s.clock := by simp [State.putEncState]

@[simp] theorem State.clock_setGen (s : State) (g : Nat) (x : GenSt) : (s.setGen g x).clock = s.clock := by
  simp [State.setGen]

@[simp] theorem State.clock_skipGen (s : State) (g : Nat) : (s.skipGen g).clock = s.clock := by simp [State.skipGen]

@[simp] theorem State.clock_skipSource (s : State) (m : Nat) : (s.skipSource m).clock = s.clock := by
  simp [State.skipSource]

@[simp] theorem State.clock_msTake (s : State) (m : Nat) (sec switch : Bool) :
    (s.msTake m sec switch).clock = s.clock := by simp [State.msTake]

@[simp] theorem State.clock_cancelEjections (s : State) (m : Nat) : (s.cancelEjections m).clock = s.clock := by
  simp [State.cancelEjections]

@[simp] theorem State.clock_msEnd (s : State) (m : Nat) (pos : Fix) : (s.msEnd m pos).clock = s.clock := by
  simp [State.msEnd]

@[simp] theorem State.clock_msLose (s : State) (m : Nat) (before : View) :
    (s.msLose m before).clock = s.clock := by simp [State.msLose]

@[simp] theorem State.clock_msEval (s : State) (m : Nat) (before : View) :
    (s.msEval m before).clock = s.clock := by
  unfold State.msEval
  split <;> simp

@[simp] theorem State.clock_msEvalAll (s : State) (before : State) : (s.msEvalAll before).clock = s.clock := by
  simp [State.msEvalAll]

@[simp] theorem State.clock_encFound (s : State) (n : Nat) : (s.encFound n).clock = s.clock := by
  simp [State.encFound]

@[simp] theorem State.clock_encRoll (s : State) (n : Nat) : (s.encRoll n).clock = s.clock := by simp [State.encRoll]

@[simp] theorem State.clock_encSpeed (s : State) (n : Nat) : (s.encSpeed n).clock = s.clock := by
  simp [State.encSpeed]

@[simp] theorem State.clock_encLost (s : State) (n : Nat) : (s.encLost n).clock = s.clock := by simp [State.encLost]

@[simp] theorem State.clock_encCtrlWrite (s : State) (n : Nat) (v : Word) :
    (s.encCtrlWrite n v).clock = s.clock := by simp [State.encCtrlWrite]

@[simp] theorem State.clock_portJump (s : State) (n : Nat) : (s.portJump n).clock = s.clock := by
  simp [State.portJump]

@[simp] theorem State.clock_encLoad (s : State) (n : Nat) (p : Pos) : (s.encLoad n p).clock = s.clock := by
  simp [State.encLoad]

@[simp] theorem State.clock_encSetWrite (s : State) (n : Nat) (v : Word) :
    (s.encSetWrite n v).clock = s.clock := by simp [State.encSetWrite]

@[simp] theorem State.clock_ssiPeriodWrite (s : State) (n : Nat) (v : Word) :
    (s.ssiPeriodWrite n v).clock = s.clock := by simp [State.ssiPeriodWrite]

@[simp] theorem State.clock_encWrite (s : State) (n o a : Nat) (v : Word) :
    (s.encWrite n o a v).clock = s.clock := by simp [State.encWrite]

@[simp] theorem State.clock_encSnap (s : State) (n : Nat) : (s.encSnap n).clock = s.clock := by simp [State.encSnap]

@[simp] theorem State.clock_msInputWrite (s : State) (m : Nat) (sec : Bool) (v : Word) :
    (s.msInputWrite m sec v).clock = s.clock := by simp [State.msInputWrite]

@[simp] theorem State.clock_stampQuery (s : State) (v : Word) : (s.stampQuery v).clock = s.clock := by
  simp [State.stampQuery]

@[simp] theorem State.clock_trgCtrlWrite (s : State) (g : Nat) (v : Word) :
    (s.trgCtrlWrite g v).clock = s.clock := by
  unfold State.trgCtrlWrite
  dsimp only
  repeat' split
  all_goals simp

@[simp] theorem State.clock_trgNextWrite (s : State) (g : Nat) (v : Word) :
    (s.trgNextWrite g v).clock = s.clock := by simp [State.trgNextWrite]

@[simp] theorem State.clock_tgWrite (s : State) (g o a : Nat) (v : Word) :
    (s.tgWrite g o a v).clock = s.clock := by simp [State.tgWrite]

@[simp] theorem State.clock_loadX (s : State) (q : Nat) (xs : List Word) : (s.loadX q xs).clock = s.clock := by
  simp [State.loadX]

@[simp] theorem State.clock_seqGo (s : State) (q st : Nat) : (s.seqGo q st).clock = s.clock := by simp [State.seqGo]

@[simp] theorem State.clock_slotOver (s : State) (q st : Nat) : (s.slotOver q st).clock = s.clock := by
  unfold State.slotOver
  split <;> simp

@[simp] theorem State.clock_seqSwitch (s : State) (q : Nat) (init : Bool) :
    (s.seqSwitch q init).clock = s.clock := by
  unfold State.seqSwitch
  dsimp only
  split <;> simp

@[simp] theorem State.clock_mgtStart (s : State) (k : MgtKind) : (s.mgtStart k).clock = s.clock := by
  simp [State.mgtStart]

@[simp] theorem State.clock_mgtQueue (s : State) (k : MgtKind) : (s.mgtQueue k).clock = s.clock := by
  unfold State.mgtQueue
  split <;> simp

@[simp] theorem State.clock_vcoreWrite (s : State) (mv : Nat) : (s.vcoreWrite mv).clock = s.clock := by
  simp [State.vcoreWrite]

@[simp] theorem State.clock_opGo (s : State) (x : OpChange) (step : Nat) : (s.opGo x step).clock = s.clock := by
  simp [State.opGo]

@[simp] theorem State.clock_opStart (s : State) (c : Nat) : (s.opStart c).clock = s.clock := by simp [State.opStart]

@[simp] theorem State.clock_opFailed (s : State) (c : Nat) (b : Bool) : (s.opFailed c b).clock = s.clock := by
  simp [State.opFailed]

@[simp] theorem State.clock_opTarget (s : State) (c op : Nat) : (s.opTarget c op).clock = s.clock := by
  simp [State.opTarget]

@[simp] theorem State.clock_imageOps (s : State) (m : ResMap) : (s.imageOps m).clock = s.clock := by
  simp [State.imageOps]

@[simp] theorem State.clock_imageRegs (s : State) (i : Image) : (s.imageRegs i).clock = s.clock := by
  simp [State.imageRegs]

@[simp] theorem State.clock_swapLeft (s : State) : s.swapLeft.clock = s.clock := by simp [State.swapLeft]

@[simp] theorem State.clock_swapFinish (s : State) : s.swapFinish.clock = s.clock := by
  unfold State.swapFinish
  split <;> simp

@[simp] theorem State.clock_startSlot (s : State) (q kind : Nat) (arg : Word) :
    (s.startSlot q kind arg).clock = s.clock := by
  unfold State.startSlot
  dsimp only
  split <;> simp

@[simp] theorem State.clock_nextSlot (s : State) (q : Nat) : (s.nextSlot q).clock = s.clock := by
  unfold State.nextSlot
  split
  · rfl
  · split <;> simp

@[simp] theorem State.clock_seqCtrlWrite (s : State) (q : Nat) (v : Word) :
    (s.seqCtrlWrite q v).clock = s.clock := by
  unfold State.seqCtrlWrite
  dsimp only
  repeat' split
  all_goals simp

@[simp] theorem State.clock_seqWrite (s : State) (q o a : Nat) (v : Word) :
    (s.seqWrite q o a v).clock = s.clock := by simp [State.seqWrite]

@[simp] theorem State.clock_dmaPause (s : State) (n : Nat) : (s.dmaPause n).clock = s.clock := by
  simp [State.dmaPause]

@[simp] theorem State.clock_chRun (s : State) (n : Nat) : (s.chRun n).clock = s.clock := by simp [State.chRun]

@[simp] theorem State.clock_dmaUnpause (s : State) (n : Nat) : (s.dmaUnpause n).clock = s.clock := by
  simp [State.dmaUnpause]

@[simp] theorem State.clock_dmaResume (s : State) (n : Nat) : (s.dmaResume n).clock = s.clock := by
  simp [State.dmaResume]

@[simp] theorem State.clock_chNext (s : State) (n : Nat) : (s.chNext n).clock = s.clock := by simp [State.chNext]

@[simp] theorem State.clock_chHalt (s : State) (n cause : Nat) : (s.chHalt n cause).clock = s.clock := by
  unfold State.chHalt
  dsimp only
  split <;> simp

@[simp] theorem State.clock_dmaAbort (s : State) (n : Nat) : (s.dmaAbort n).clock = s.clock := by
  unfold State.dmaAbort
  split <;> simp

@[simp] theorem State.clock_chCtrlWrite (s : State) (n : Nat) (v : Word) :
    (s.chCtrlWrite n v).clock = s.clock := by simp [State.chCtrlWrite]

@[simp] theorem State.clock_chRateWrite (s : State) (n : Nat) (v : Word) :
    (s.chRateWrite n v).clock = s.clock := by simp [State.chRateWrite]

@[simp] theorem State.clock_qFlush (s : State) (q : Nat) : (s.qFlush q).clock = s.clock := by simp [State.qFlush]

@[simp] theorem State.clock_qCtrlWrite (s : State) (q : Nat) (v : Word) : (s.qCtrlWrite q v).clock = s.clock := by
  simp [State.qCtrlWrite]

@[simp] theorem State.clock_setCmp (s : State) (e : Nat) (x : CmpUnit) : (s.setCmp e x).clock = s.clock := by
  simp [State.setCmp]

@[simp] theorem State.clock_fillBuffers (l : List (Nat × Nat)) :
    ∀ (s : State) (bs : List Byte), (s.fillBuffers l bs).1.clock = s.clock := by
  induction l with
  | nil => intro s bs; cases bs <;> rfl
  | cons x l ih => intro s bs; cases bs <;> simp [State.fillBuffers, ih]

@[simp] theorem State.clock_cmpEnds (s : State) (e : Nat) (j : CmpJob) (x : CmpEnd) (flushes : Nat) (keep bad : OpenStream) :
    (s.cmpEnds e j x flushes keep bad).clock = s.clock := by simp [State.cmpEnds]

@[simp] theorem State.clock_cmpAbort (s : State) (e : Nat) : (s.cmpAbort e).clock = s.clock := by
  simp [State.cmpAbort]

@[simp] theorem State.clock_cmpFlush (s : State) (e : Nat) : (s.cmpFlush e).clock = s.clock := by
  unfold State.cmpFlush
  dsimp only
  split <;> simp

@[simp] theorem State.clock_cmpCtrlWrite (s : State) (e : Nat) (v : Word) :
    (s.cmpCtrlWrite e v).clock = s.clock := by simp [State.cmpCtrlWrite]

@[simp] theorem State.clock_meetSpans (s : State) (l : List (Nat × Nat)) : (s.meetSpans l).1.clock = s.clock := by
  simp [State.meetSpans]

@[simp] theorem State.clock_cmpSubmit (s : State) (e : Nat) (v : Word) : (s.cmpSubmit e v).clock = s.clock := by
  unfold State.cmpSubmit
  dsimp only
  split <;> simp

@[simp] theorem State.clock_chWrite (s : State) (c : Nat) (v : Word) : (s.chWrite c v).clock = s.clock := by
  simp [State.chWrite]

@[simp] theorem State.clock_onCh (s : State) (c : Nat) (f : ChSt → ChSt) : (s.onCh c f).clock = s.clock := by
  simp [State.onCh]

@[simp] theorem State.clock_rateWrite (s : State) (c : Nat) (v : Word) : (s.rateWrite c v).clock = s.clock := by
  simp [State.rateWrite]

@[simp] theorem State.clock_onCell (s : State) (k : Nat) (f : CellSt → CellSt) :
    (s.onCell k f).clock = s.clock := by simp [State.onCell]

@[simp] theorem State.clock_cellKeep (s : State) (k : Nat) : (s.cellKeep k).clock = s.clock := by
  simp [State.cellKeep]

@[simp] theorem State.clock_cellInWrite (s : State) (k a : Nat) (v : Word) :
    (s.cellInWrite k a v).clock = s.clock := by simp [State.cellInWrite]

@[simp] theorem State.clock_cellCtrlWrite (s : State) (k : Nat) (v : Word) :
    (s.cellCtrlWrite k v).clock = s.clock := by simp [State.cellCtrlWrite]

@[simp] theorem State.clock_hostPub (s : State) (v : Word) : (s.hostPub v).clock = s.clock := by simp [State.hostPub]

@[simp] theorem State.clock_rmtEnd (s : State) (code : Nat) : (s.rmtEnd code).clock = s.clock := by
  simp [State.rmtEnd]

theorem State.clock_cvSend (s t : State) (c : Cell) (h : s.cvSend c = some t) : t.clock = s.clock := by
  unfold State.cvSend at h
  split at h <;> cases h <;> simp

@[simp] theorem State.clock_rmtWrite (s : State) (v : Word) : (s.rmtWrite v).clock = s.clock := by
  unfold State.rmtWrite
  dsimp only
  repeat' split
  any_goals simp
  next hsend => simpa using State.clock_cvSend _ _ _ hsend

@[simp] theorem State.clock_clCtrlWrite (s : State) (c : Nat) (v : Word) :
    (s.clCtrlWrite c v).clock = s.clock := by simp [State.clCtrlWrite]

@[simp] theorem State.clock_limWrite (s : State) (a : Nat) (v : Word) : (s.limWrite a v).clock = s.clock := by
  simp [State.limWrite]

@[simp] theorem State.clock_vregWrite (s : State) (v : Word) : (s.vregWrite v).clock = s.clock := by
  simp [State.vregWrite]

@[simp] theorem State.clock_ctlWrite (s : State) (v : Word) : (s.ctlWrite v).clock = s.clock := by
  simp [State.ctlWrite]

@[simp] theorem State.clock_attnPut (s : State) (status mask : Nat) :
    (s.attnPut status mask).clock = s.clock := by simp [State.attnPut]

@[simp] theorem State.clock_attnSet (s : State) (bit : Nat) : (s.attnSet bit).clock = s.clock := by
  simp [State.attnSet]

@[simp] theorem State.clock_hostKick (s : State) : s.hostKick.clock = s.clock := by simp [State.hostKick]

@[simp] theorem State.clock_fltDo (s : State) (f : State → State) (hf : ∀ s, (f s).clock = s.clock) :
    (s.fltDo f).clock = s.clock := by simp [State.fltDo, hf]

@[simp] theorem State.clock_fltCtrlWrite (s : State) (v : Word) : (s.fltCtrlWrite v).clock = s.clock := by
  simp [State.fltCtrlWrite]

@[simp] theorem State.clock_logConsWrite (s : State) (v : Word) : (s.logConsWrite v).clock = s.clock := by
  simp [State.logConsWrite]

@[simp] theorem State.clock_mirBaseWrite (s : State) (a : Nat) (v : Word) :
    (s.mirBaseWrite a v).clock = s.clock := by simp [State.mirBaseWrite]

@[simp] theorem State.clock_mirDoorbell (s : State) (v : Word) : (s.mirDoorbell v).clock = s.clock := by
  simp [State.mirDoorbell]

@[simp] theorem State.clock_wdogWrite (s : State) (v : Word) : (s.wdogWrite v).clock = s.clock := by
  simp [State.wdogWrite]

@[simp] theorem State.clock_clearFirst (s : State) : s.clearFirst.clock = s.clock := by simp [State.clearFirst]

@[simp] theorem State.clock_clearFatal (s : State) : s.clearFatal.clock = s.clock := by simp [State.clearFatal]

@[simp] theorem State.clock_fltWrite (s : State) (o a : Nat) (v : Word) : (s.fltWrite o a v).clock = s.clock := by
  simp [State.fltWrite]

@[simp] theorem State.clock_cliCtrlWrite (s : State) (c : Nat) (v : Word) :
    (s.cliCtrlWrite c v).clock = s.clock := by simp [State.cliCtrlWrite]

@[simp] theorem State.clock_intmodWrite (s : State) (c : Nat) (v : Word) :
    (s.intmodWrite c v).clock = s.clock := by simp [State.intmodWrite]

@[simp] theorem State.clock_cliDmaWrite (s : State) (c : Nat) (v : Word) :
    (s.cliDmaWrite c v).clock = s.clock := by simp [State.cliDmaWrite]

@[simp] theorem State.clock_doorbell (s : State) (c r : Nat) (v : Word) : (s.doorbell c r v).clock = s.clock := by
  simp [State.doorbell]

@[simp] theorem State.clock_cliWrite (s : State) (c o a : Nat) (v : Word) :
    (s.cliWrite c o a v).clock = s.clock := by simp [State.cliWrite]

@[simp] theorem State.clock_vectorsDue (s : State) : s.vectorsDue.clock = s.clock := by simp [State.vectorsDue]

@[simp] theorem State.clock_bar4Write (s : State) (fn a : Nat) (v : Word) :
    (s.bar4Write fn a v).clock = s.clock := by simp [State.bar4Write]

@[simp] theorem State.clock_encAdd (s : State) (n : Nat) (d : Int) : (s.encAdd n d).clock = s.clock := by
  simp [State.encAdd]

@[simp] theorem State.clock_encStep (s : State) (n : Nat) (dec : Bool) (p q : Pos) (second : Bool) :
    (s.encStep n dec p q second).clock = s.clock := by
  unfold State.encStep
  split <;> simp

@[simp] theorem State.clock_encCount (s : State) (n : Nat) (dec : Bool) (t : Nat) :
    (s.encCount n dec t).clock = s.clock := by simp [State.encCount]

@[simp] theorem State.clock_encIllegal (s : State) (n : Nat) : (s.encIllegal n).clock = s.clock := by
  simp [State.encIllegal]

@[simp] theorem State.clock_encTransition (s : State) (n : Nat) (a b : Bool) (t : Nat) :
    (s.encTransition n a b t).clock = s.clock := by
  unfold State.encTransition
  dsimp only
  split <;> simp

@[simp] theorem State.clock_motionSeen (s : State) (n : Nat) (pin : EncPin) :
    (s.motionSeen n pin).clock = s.clock := by
  unfold State.motionSeen
  dsimp only
  repeat' split
  all_goals simp

@[simp] theorem State.clock_encRaw (s : State) (n : Nat) (pin : EncPin) : (s.encRaw n pin).clock = s.clock := by
  simp [State.encRaw]

@[simp] theorem State.clock_encIndex (s : State) (n : Nat) : (s.encIndex n).clock = s.clock := by
  simp [State.encIndex]

@[simp] theorem State.clock_ssiSteps (n : Nat) (dec : Bool) (k : Nat) :
    ∀ (s : State) (p : Pos), (s.ssiSteps n dec p k).clock = s.clock := by
  induction k with
  | zero => intros; rfl
  | succ k ih => intro s p; simp [State.ssiSteps, ih]

@[simp] theorem State.clock_ssiMove (s : State) (n : Nat) (d : Int) (t prev : Nat) :
    (s.ssiMove n d t prev).clock = s.clock := by simp [State.ssiMove]

@[simp] theorem State.clock_ssiGoodWord (s : State) (n : Nat) (v t delay : Nat) :
    (s.ssiGoodWord n v t delay).clock = s.clock := by
  unfold State.ssiGoodWord
  dsimp only
  split <;> simp

@[simp] theorem State.clock_ssiBadWord (s : State) (n : Nat) : (s.ssiBadWord n).clock = s.clock := by
  simp [State.ssiBadWord]

@[simp] theorem State.clock_msTrack (s : State) (m : Nat) : (s.msTrack m).clock = s.clock := by simp [State.msTrack]

@[simp] theorem State.clock_genAdvance (s : State) (g : Nat) : (s.genAdvance g).clock = s.clock := by
  unfold State.genAdvance
  dsimp only
  repeat' split
  all_goals simp

@[simp] theorem State.clock_onPin (s : State) (k : Nat) (f : TrigPin → TrigPin) :
    (s.onPin k f).clock = s.clock := by simp [State.onPin]

@[simp] theorem State.clock_pinPulse (s : State) (k cam : Nat) : (s.pinPulse k cam).clock = s.clock := by
  simp [State.pinPulse]

@[simp] theorem State.clock_issued (s : State) (g : Nat) (arg : Word) (d : Due) :
    (s.issued g arg d).clock = s.clock := by simp [State.issued]

@[simp] theorem State.clock_onPortTrg (s : State) (p : Nat) (f : PortTrg → PortTrg) :
    (s.onPortTrg p f).clock = s.clock := by simp [State.onPortTrg]

@[simp] theorem State.clock_awaitLine (s : State) (p tb : Nat) : (s.awaitLine p tb).clock = s.clock := by
  simp [State.awaitLine]

@[simp] theorem State.clock_sendTrigger (s : State) (g p : Nat) (d : Due) :
    (s.sendTrigger g p d).clock = s.clock := by
  unfold State.sendTrigger
  dsimp only
  repeat' split
  all_goals simp

@[simp] theorem State.clock_trigger (s : State) (g : Nat) (d : Due) : (s.trigger g d).clock = s.clock := by
  unfold State.trigger
  split <;> simp

@[simp] theorem State.clock_queueTriggerAt (s : State) (g tb : Nat) :
    (s.queueTriggerAt g tb).clock = s.clock := by simp [State.queueTriggerAt]

@[simp] theorem State.clock_txRequest (s : State) (p : Nat) (bits64 : BitVec 64) :
    (s.txRequest p bits64).clock = s.clock := by simp [State.txRequest]

@[simp] theorem State.clock_phyFail (s : State) (p cause : Nat) : (s.phyFail p cause).clock = s.clock := by
  simp [State.phyFail]

@[simp] theorem State.clock_askPreset (s : State) (p n : Nat) : (s.askPreset p n).clock = s.clock := by
  simp [State.askPreset]

@[simp] theorem State.clock_enterTune (s : State) (p : Nat) : (s.enterTune p).clock = s.clock := by
  simp [State.enterTune]

@[simp] theorem State.clock_orient (s : State) (p : Nat) : (s.orient p).clock = s.clock := by
  unfold State.orient
  dsimp only
  repeat' split
  all_goals simp

@[simp] theorem State.clock_tuneFinish (s : State) (p fom : Nat) : (s.tuneFinish p fom).clock = s.clock := by
  simp [State.tuneFinish]

@[simp] theorem State.clock_askStep (s : State) (p coef : Nat) (up : Bool) :
    (s.askStep p coef up).clock = s.clock := by simp [State.askStep]

@[simp] theorem State.clock_fineFrom (s : State) (p coef : Nat) (up : Bool) :
    (s.fineFrom p coef up).clock = s.clock := by
  unfold State.fineFrom
  split <;> simp

@[simp] theorem State.clock_tuneKept (s : State) (p : Nat) (up : Bool) : (s.tuneKept p up).clock = s.clock := by
  unfold State.tuneKept
  split
  · simp
  · split <;> simp

@[simp] theorem State.clock_tuneAnswer (s : State) (p status : Nat) :
    (s.tuneAnswer p status).clock = s.clock := by
  unfold State.tuneAnswer
  dsimp only
  repeat' split
  all_goals simp

@[simp] theorem State.clock_tuneMeasured (s : State) (p fom : Nat) (t : TuneSt) (up : Bool) :
    (s.tuneMeasured p fom t up).clock = s.clock := by
  unfold State.tuneMeasured
  dsimp only
  repeat' split
  all_goals simp

@[simp] theorem State.clock_putFoms (s : State) (p : Nat) (eyes : List (Nat × Nat × Nat)) :
    (s.putFoms p eyes).clock = s.clock := by simp [State.putFoms]

@[simp] theorem State.clock_awaitNone (s : State) (p : Nat) : (s.awaitNone p).clock = s.clock := by
  simp [State.awaitNone]

@[simp] theorem State.clock_enterActive (s : State) (p : Nat) : (s.enterActive p).clock = s.clock := by
  simp [State.enterActive]

@[simp] theorem State.clock_adaptCtle (s : State) (p lane : Nat) (m : Move) :
    (s.adaptCtle p lane m).clock = s.clock := by simp [State.adaptCtle]

@[simp] theorem State.clock_adaptTap (s : State) (p lane i : Nat) (m : Move) :
    (s.adaptTap p lane i m).clock = s.clock := by simp [State.adaptTap]

@[simp] theorem State.clock_adaptThr (s : State) (p lane : Nat) (u m l : Move) :
    (s.adaptThr p lane u m l).clock = s.clock := by simp [State.adaptThr]

@[simp] theorem State.clock_enterRecover (s : State) (p : Nat) : (s.enterRecover p).clock = s.clock := by
  simp [State.enterRecover]

@[simp] theorem State.clock_linkRecover (s : State) (p lane : Nat) (loss : LinkLoss) :
    (s.linkRecover p lane loss).clock = s.clock := by
  unfold State.linkRecover
  dsimp only
  repeat' split
  all_goals simp

@[simp] theorem State.clock_backToActive (s : State) (p : Nat) : (s.backToActive p).clock = s.clock := by
  simp [State.backToActive]

@[simp] theorem State.clock_loseRef (s : State) (p : Nat) : (s.loseRef p).clock = s.clock := by simp [State.loseRef]

@[simp] theorem State.clock_gainRef (s : State) (p : Nat) : (s.gainRef p).clock = s.clock := by simp [State.gainRef]

@[simp] theorem State.clock_quietNak (s : State) (p : Nat) : (s.quietNak p).clock = s.clock := by
  simp [State.quietNak]

@[simp] theorem State.clock_escanTake (s : State) (p lane : Nat) (samples : List (Fin 4 × Bool)) :
    (s.escanTake p lane samples).clock = s.clock := by simp [State.escanTake]

@[simp] theorem State.clock_prbsCount (s : State) (p lane checked errors : Nat) :
    (s.prbsCount p lane checked errors).clock = s.clock := by simp [State.prbsCount]

@[simp] theorem State.clock_checkBit (s : State) (p lane : Nat) (b : Bool) :
    (s.checkBit p lane b).clock = s.clock := by simp [State.checkBit]

@[simp] theorem State.clock_checkAll (s : State) (p lane : Nat) (decisions : List (Fin 4)) :
    (s.checkAll p lane decisions).clock = s.clock := by simp [State.checkAll]

@[simp] theorem State.clock_onLane (s : State) (p lane : Nat) (f : LaneSt → LaneSt) :
    (s.onLane p lane f).clock = s.clock := by simp [State.onLane]

@[simp] theorem State.clock_passBlocks (s : State) (p lane k : Nat) (msg : List Bool) (errored : Bool) :
    (s.passBlocks p lane k msg errored).clock = s.clock := by simp [State.passBlocks]

@[simp] theorem State.clock_countCw (s : State) (p lane : Nat) : (s.countCw p lane).clock = s.clock := by
  simp [State.countCw]

@[simp] theorem State.clock_fecWindow (s : State) (p lane k : Nat) : (s.fecWindow p lane k).clock = s.clock := by
  simp [State.fecWindow]

@[simp] theorem State.clock_countCodeword (s : State) (p lane : Nat) (corrected : Option Nat) :
    (s.countCodeword p lane corrected).clock = s.clock := by
  unfold State.countCodeword
  dsimp only
  repeat' split
  all_goals simp

@[simp] theorem State.clock_judgeSkew (s : State) (p : Nat) : (s.judgeSkew p).clock = s.clock := by
  unfold State.judgeSkew
  dsimp only
  split <;> simp

@[simp] theorem State.clock_measureSkew (s : State) (p c : Nat) : (s.measureSkew p c).clock = s.clock := by
  unfold State.measureSkew
  split <;> simp

@[simp] theorem State.clock_takeCount (s : State) (p lane m arrival : Nat) :
    (s.takeCount p lane m arrival).clock = s.clock := by simp [State.takeCount]

@[simp] theorem State.clock_statusBlock (s : State) (p b : Nat) : (s.statusBlock p b).clock = s.clock := by
  simp [State.statusBlock]

@[simp] theorem State.clock_groupCodeword (s : State) (p lane arrival : Nat) (msg : List Bool) (corrected : Option Nat) :
    (s.groupCodeword p lane arrival msg corrected).clock = s.clock := by
  unfold State.groupCodeword
  split <;> simp

@[simp] theorem State.clock_markerGroup (s : State) (p lane : Nat) (decisions : BitVec 5440) (before place arrival : Nat) :
    (s.markerGroup p lane decisions before place arrival).clock = s.clock := by
  unfold State.markerGroup
  dsimp only
  split <;> simp

@[simp] theorem State.clock_rxOverflow (s : State) (p : Nat) (q : Packet) :
    (s.rxOverflow p q).clock = s.clock := by simp [State.rxOverflow]

@[simp] theorem State.clock_rxData (s : State) (p w : Nat) (errored : Bool) :
    (s.rxData p w errored).clock = s.clock := by
  unfold State.rxData
  dsimp only
  split <;> simp

@[simp] theorem State.clock_rxHeader (s : State) (p w : Nat) (errored : Bool) :
    (s.rxHeader p w errored).clock = s.clock := by simp [State.rxHeader]

@[simp] theorem State.clock_rxTake (s : State) (p : Nat) (b : RxBlk) : (s.rxTake p b).clock = s.clock := by
  simp [State.rxTake]

@[simp] theorem State.clock_checkSeq (s : State) (p : Nat) (q : Packet) : (s.checkSeq p q).clock = s.clock := by
  simp [State.checkSeq]

@[simp] theorem State.clock_drainMarks (p : Nat) (l : List RxItem) :
    ∀ s : State, (s.drainMarks p l).clock = s.clock := by
  induction l with
  | nil => intro s; simp [State.drainMarks]
  | cons e l ih => intro s; cases e <;> simp [State.drainMarks, ih]

@[simp] theorem State.clock_pixelPacket (s : State) (p : Nat) (q : Packet) :
    (s.pixelPacket p q).clock = s.clock := by
  unfold State.pixelPacket
  split <;> simp

@[simp] theorem State.clock_endFrame (s : State) (p vc : Nat) : (s.endFrame p vc).clock = s.clock := by
  unfold State.endFrame
  split <;> simp

@[simp] theorem State.clock_frameStart (s : State) (p : Nat) (q : Packet) :
    (s.frameStart p q).clock = s.clock := by simp [State.frameStart]

@[simp] theorem State.clock_lineStart (s : State) (p : Nat) (q : Packet) : (s.lineStart p q).clock = s.clock := by
  simp [State.lineStart]

@[simp] theorem State.clock_regRetry (s : State) (p result : Nat) : (s.regRetry p result).clock = s.clock := by
  unfold State.regRetry
  split <;> simp

@[simp] theorem State.clock_regResp (s : State) (p : Nat) (bs : List Byte) :
    (s.regResp p bs).clock = s.clock := by
  unfold State.regResp
  dsimp only
  repeat' split
  all_goals simp

@[simp] theorem State.clock_packetByDt (s : State) (p : Nat) (q : Packet) :
    (s.packetByDt p q).clock = s.clock := by
  unfold State.packetByDt
  dsimp only
  repeat' split
  all_goals simp

@[simp] theorem State.clock_sigAll (s : State) (p : Nat) (b : Bool) : (s.sigAll p b).clock = s.clock := by
  simp [State.sigAll]

@[simp] theorem State.clock_enterQuiet (s : State) (p : Nat) : (s.enterQuiet p).clock = s.clock := by
  simp [State.enterQuiet]

@[simp] theorem State.clock_lctlTake (s : State) (p : Nat) (payload : Dword) :
    (s.lctlTake p payload).clock = s.clock := by simp [State.lctlTake]

@[simp] theorem State.clock_bcSend (s : State) (p : Nat) : (s.bcSend p).clock = s.clock := by
  unfold State.bcSend
  dsimp only
  split <;> simp

@[simp] theorem State.clock_joinDiscard (t n : Nat) : ∀ s : State, (s.joinDiscard t n).clock = s.clock := by
  induction n with
  | zero => intro s; rfl
  | succ n ih =>
    intro s
    unfold State.joinDiscard
    split <;> simp [ih]

@[simp] theorem State.clock_lbWrite (s : State) (t ln strip : Nat) (l : StrLine) :
    (s.lbWrite t ln strip l).clock = s.clock := by
  unfold State.lbWrite
  split <;> simp

@[simp] theorem State.clock_noTableSync (s : State) (t : Nat) : (s.noTableSync t).clock = s.clock := by
  simp [State.noTableSync]

@[simp] theorem State.clock_clsArm (s : State) (t : Nat) : (s.clsArm t).clock = s.clock := by simp [State.clsArm]

@[simp] theorem State.clock_applyArm (s : State) (t num : Nat) : (s.applyArm t num).clock = s.clock := by
  simp [State.applyArm]

@[simp] theorem State.clock_boundary (s : State) (t : Nat) : (s.boundary t).clock = s.clock := by
  simp [State.boundary]

@[simp] theorem State.clock_openStrip (s : State) (t num lines : Nat) :
    (s.openStrip t num lines).clock = s.clock := by simp [State.openStrip]

@[simp] theorem State.clock_seqCause (s : State) (q kind : Nat) (arg : Word) :
    (s.seqCause q kind arg).clock = s.clock := by
  unfold State.seqCause
  split <;> simp

@[simp] theorem State.clock_seqLineStart (s : State) (t : Nat) : (s.seqLineStart t).clock = s.clock := by
  unfold State.seqLineStart
  split <;> simp

@[simp] theorem State.clock_lineStart' (s : State) (t place : Nat) : (s.lineStart' t place).clock = s.clock := by
  simp [State.lineStart']

@[simp] theorem State.clock_ingestLine (s : State) (t : Nat) (l : StrLine) :
    (s.ingestLine t l).clock = s.clock := by
  unfold State.ingestLine
  dsimp only
  split <;> simp

@[simp] theorem State.clock_lineIn (s : State) (t : Nat) (l : StrLine) : (s.lineIn t l).clock = s.clock := by
  simp [State.lineIn]

@[simp] theorem State.clock_joinNow (s : State) (t : Nat) : (s.joinNow t).clock = s.clock := by simp [State.joinNow]

@[simp] theorem State.clock_onUnit (s : State) (u : Nat) (f : PwrUnit → PwrUnit) :
    (s.onUnit u f).clock = s.clock := by simp [State.onUnit]

@[simp] theorem State.clock_mispredict (s : State) (u : Nat) : (s.mispredict u).clock = s.clock := by
  simp [State.mispredict]

@[simp] theorem State.clock_tablesUse (s : State) (t : Nat) (i : Image) : (s.tablesUse t i).clock = s.clock := by
  simp [State.tablesUse]

@[simp] theorem State.clock_bankSwitch (s : State) (q : Nat) : (s.bankSwitch q).clock = s.clock := by
  unfold State.bankSwitch
  split <;> simp

@[simp] theorem State.clock_seqBoundary (s : State) (t : Nat) : (s.seqBoundary t).clock = s.clock := by
  unfold State.seqBoundary
  split <;> simp

@[simp] theorem State.clock_cutSource (s : State) (t y : Nat) (l : ClsLine) (mask : List Bool) (cls : List Nat) :
    (s.cutSource t y l mask cls).clock = s.clock := by simp [State.cutSource]

@[simp] theorem State.clock_labelOne (s : State) (t : Nat) (l : ClsLine) (mask : List Bool) :
    (s.labelOne t l mask).clock = s.clock := by simp [State.labelOne]

@[simp] theorem State.clock_objLine (s : State) (t : Nat) (l : ClsLine) : (s.objLine t l).clock = s.clock := by
  simp [State.objLine]

@[simp] theorem State.clock_emitLine (s p : State) (t : Nat) (l : PlaneLine) :
    (s.emitLine p t l).clock = s.clock := by
  unfold State.emitLine
  dsimp only
  split <;> simp

@[simp] theorem State.clock_mosaicFinish (s p : State) (t : Nat) (d : PlaneLine) :
    (s.mosaicFinish p t d).clock = s.clock := by
  unfold State.mosaicFinish
  split <;> simp

@[simp] theorem State.clock_seqStrip (s : State) (t : Nat) (cause : Bool) :
    (s.seqStrip t cause).clock = s.clock := by
  unfold State.seqStrip
  split <;> simp

@[simp] theorem State.clock_mosaicTake (s p : State) (t : Nat) (l : PlaneLine) :
    (s.mosaicTake p t l).clock = s.clock := by simp [State.mosaicTake]

@[simp] theorem State.clock_tileLine (s : State) (t : Nat) (l : StrLine) : (s.tileLine t l).clock = s.clock := by
  unfold State.tileLine
  dsimp only
  repeat' split
  all_goals simp

@[simp] theorem State.clock_clustersWork (s : State) (t : Nat) : (s.clustersWork t).clock = s.clock := by
  simp [State.clustersWork]

@[simp] theorem State.clock_formLost (s : State) (t : Nat) : (s.formLost t).clock = s.clock := by
  unfold State.formLost
  split <;> simp

@[simp] theorem State.clock_lbDirectory (s : State) (t serial handle lnFirst height xMin xMax vflags : Nat) :
    (s.lbDirectory t serial handle lnFirst height xMin xMax vflags).clock = s.clock := by
  unfold State.lbDirectory
  split <;> simp

@[simp] theorem State.clock_pairWait (s : State) (v : ObjView) : (s.pairWait v).clock = s.clock := by
  unfold State.pairWait
  split <;> simp

@[simp] theorem State.clock_pairArrive (s : State) (v : ObjView) : (s.pairArrive v).clock = s.clock := by
  unfold State.pairArrive
  dsimp only
  repeat' split
  all_goals simp

@[simp] theorem State.clock_cutForm (s : State) (t : Nat) (v : ObjView) : (s.cutForm t v).clock = s.clock := by
  simp [State.cutForm]

@[simp] theorem State.clock_formView (s : State) (t : Nat) : (s.formView t).clock = s.clock := by
  unfold State.formView
  dsimp only
  split <;> simp

@[simp] theorem State.clock_onCut (s : State) (t serial : Nat) (f : CutJob → CutJob) :
    (s.onCut t serial f).clock = s.clock := by simp [State.onCut]

@[simp] theorem State.clock_cutDrop (s : State) (t serial counter : Nat) :
    (s.cutDrop t serial counter).clock = s.clock := by simp [State.cutDrop]

@[simp] theorem State.clock_cutStart (s : State) (t : Nat) (j : CutJob) : (s.cutStart t j).clock = s.clock := by
  unfold State.cutStart
  dsimp only
  split <;> simp

@[simp] theorem State.clock_cutMeet (s : State) (t : Nat) (j : CutJob) : (s.cutMeet t j).clock = s.clock := by
  simp [State.cutMeet]

@[simp] theorem State.clock_cutDone (s : State) (t : Nat) (j : CutJob) : (s.cutDone t j).clock = s.clock := by
  simp [State.cutDone]

@[simp] theorem State.clock_linkCuts (s : State) (r : RecJob) : (s.linkCuts r).clock = s.clock := by
  unfold State.linkCuts
  split <;> simp

@[simp] theorem State.clock_settleRec (s : State) (v : VRec) (src : VSource) (action : Nat) :
    (s.settleRec v src action).1.clock = s.clock := by simp [State.settleRec]

@[simp] theorem State.clock_settleByRule (s : State) (v : VRec) : (s.settleByRule v).1.clock = s.clock := by
  unfold State.settleByRule
  split <;> simp

@[simp] theorem State.clock_pushSettled (s : State) (v : VRec) : (s.pushSettled v).1.clock = s.clock := by
  simp [State.pushSettled]

@[simp] theorem State.clock_verdictRelease (s : State) (r : Release) : (s.verdictRelease r).clock = s.clock := by
  simp [State.verdictRelease]

@[simp] theorem State.clock_dropCuts (s : State) (v : Option ObjView) (handle : Nat) (free : Bool) :
    (s.dropCuts v handle free).clock = s.clock := by
  unfold State.dropCuts
  split <;> simp

@[simp] theorem State.clock_recordOut (s : State) (t : Nat) (j : RecJob) : (s.recordOut t j).clock = s.clock := by
  simp [State.recordOut]

@[simp] theorem State.clock_refuseVerdict (s : State) (counter code : Nat) :
    (s.refuseVerdict counter code).1.clock = s.clock := by simp [State.refuseVerdict]

@[simp] theorem State.clock_onRec (s : State) (h : Nat) (f : VRec → VRec) : (s.onRec h f).clock = s.clock := by
  simp [State.onRec]

@[simp] theorem State.clock_decideRec (s : State) (h : Nat) : (s.decideRec h).clock = s.clock := by
  unfold State.decideRec
  split <;> simp

@[simp] theorem State.clock_verdictArrive (s : State) (client : Nat) (e : BitVec 128) :
    (s.verdictArrive client e).1.clock = s.clock := by
  unfold State.verdictArrive
  dsimp only
  repeat' split
  all_goals simp

@[simp] theorem State.clock_verdictFetched (s : State) (f : Flight) : (s.verdictFetched f).clock = s.clock := by
  simp [State.verdictFetched]

@[simp] theorem State.clock_errorPut (s : State) (c type status : Nat) (detail : List Byte) :
    (s.errorPut c type status detail).clock = s.clock := by simp [State.errorPut]

@[simp] theorem State.clock_ejSend (s : State) (n k : Nat) : (s.ejSend n k).clock = s.clock := by simp [State.ejSend]

@[simp] theorem State.clock_linkDown (s : State) : s.linkDown.clock = s.clock := by simp [State.linkDown]

@[simp] theorem State.clock_groupTrip (s : State) (g : Nat) : (s.groupTrip g).clock = s.clock := by
  simp [State.groupTrip]

@[simp] theorem State.clock_legTrip (s : State) (n : Nat) : (s.legTrip n).clock = s.clock := by simp [State.legTrip]

@[simp] theorem State.clock_earlyCheck (s : State) (q : Nat) (last : Option Nat) (least : Nat) :
    (s.earlyCheck q last least).clock = s.clock := by
  unfold State.earlyCheck
  split <;> simp

@[simp] theorem State.clock_endSlot (s : State) (q : Nat) : (s.endSlot q).clock = s.clock := by simp [State.endSlot]

@[simp] theorem State.clock_seqFault (s : State) (q fault code detail : Nat) (ends : Bool) :
    (s.seqFault q fault code detail ends).clock = s.clock := by
  unfold State.seqFault
  dsimp only
  repeat' split
  all_goals simp

@[simp] theorem State.clock_takeCause (s : State) (q kind : Nat) (arg : Word) :
    (s.takeCause q kind arg).clock = s.clock := by simp [State.takeCause]

@[simp] theorem State.clock_slotCommand (s : State) (q kind : Nat) : (s.slotCommand q kind).clock = s.clock := by
  unfold State.slotCommand
  dsimp only
  repeat' split
  all_goals simp

@[simp] theorem State.clock_putSlot (s : State) (q : Nat) (sl : SlotSt) : (s.putSlot q sl).clock = s.clock := by
  simp [State.putSlot]

@[simp] theorem State.clock_seqPure (s : State) (q : Nat) (w : Dword) (f : SlotSt → List Word × Nat) :
    (s.seqPure q w f).clock = s.clock := by
  unfold State.seqPure
  dsimp only
  split <;> simp

@[simp] theorem State.clock_seqAlu (s : State) (q : Nat) (w : Dword) (d : Nat) (f : SlotSt → Word) :
    (s.seqAlu q w d f).clock = s.clock := by simp [State.seqAlu]

@[simp] theorem State.clock_seqBranch (s : State) (q : Nat) (w : Dword) (t : Nat) (f : SlotSt → Bool) :
    (s.seqBranch q w t f).clock = s.clock := by simp [State.seqBranch]

@[simp] theorem State.clock_subAct (s : State) (q i : Nat) (arg : Word) : (s.subAct q i arg).clock = s.clock := by
  unfold State.subAct
  dsimp only
  split <;> simp

@[simp] theorem State.clock_subConsume (s : State) (q i : Nat) : (s.subConsume q i).clock = s.clock := by
  unfold State.subConsume
  dsimp only
  split <;> simp

@[simp] theorem State.clock_seqAct (s : State) (q : Nat) (w : Dword) (f : State → SlotSt → State)
    (hf : ∀ s sl, (f s sl).clock = s.clock) : (s.seqAct q w f).clock = s.clock := by
  unfold State.seqAct
  dsimp only
  split <;> simp [hf]

@[simp] theorem State.clock_seqTrig (s : State) (q t : Nat) (ps : Nat) : (s.seqTrig q t ps).clock = s.clock := by
  simp [State.seqTrig]

@[simp] theorem State.clock_seqArm (s : State) (q t : Nat) (disarm : Bool) :
    (s.seqArm q t disarm).clock = s.clock := by simp [State.seqArm]

@[simp] theorem State.clock_seqCtx (s : State) (q t ctx : Nat) : (s.seqCtx q t ctx).clock = s.clock := by
  simp [State.seqCtx]

@[simp] theorem State.clock_seqRoute (s : State) (t kind index : Nat) :
    (s.seqRoute t kind index).clock = s.clock := by simp [State.seqRoute]

@[simp] theorem State.clock_dmaEnqueue (s : State) (n : Nat) (d : Desc) : (s.dmaEnqueue n d).clock = s.clock := by
  simp [State.dmaEnqueue]

@[simp] theorem State.clock_dmaTemplate (s : State) (i : Image) (act ch tmpl : Nat) (psrc pdst : Option Word) :
    (s.dmaTemplate i act ch tmpl psrc pdst).1.clock = s.clock := by
  unfold State.dmaTemplate
  dsimp only
  repeat' split
  all_goals simp

@[simp] theorem State.clock_seqDma (s : State) (q ch tmpl : Nat) (psrc pdst : Option Word) :
    (s.seqDma q ch tmpl psrc pdst).clock = s.clock := by
  unfold State.seqDma
  dsimp only
  repeat' split
  all_goals simp

@[simp] theorem State.clock_mbxRun (s : State) (op : Nat) (f : State → State × Nat × List Word)
    (hf : ∀ s, (f s).1.clock = s.clock) : (s.mbxRun op f).clock = s.clock := by
  unfold State.mbxRun
  split <;> simp [hf]

@[simp] theorem State.clock_loadPrograms (s : State) (i : Image) : (s.loadPrograms i).clock = s.clock := by
  simp [State.loadPrograms]

/-- A fold over a pair whose every step leaves the timebase and the queue of its state alone. -/
theorem State.clock_foldl_fst {α β : Type} (f : State × β → α → State × β) (hf : ∀ p x, (f p x).1.clock = p.1.clock)
    (l : List α) : ∀ p : State × β, (l.foldl f p).1.clock = p.1.clock := by
  induction l with
  | nil => intro p; rfl
  | cons x l ih => intro p; exact (ih (f p x)).trans (hf p x)

@[simp] theorem State.clock_copyTables (s : State) (r : RegEnt) (l : List Sect) :
    (s.copyTables r l).clock = s.clock := by
  unfold State.copyTables
  rw [State.clock_foldl_fst]
  intro p x
  split <;> simp

@[simp] theorem State.clock_tableRegions (s : State) (i : Image) : (s.tableRegions i).clock = s.clock := by
  simp [State.tableRegions]

@[simp] theorem State.clock_claimRegions (s : State) (i : Image) : (s.claimRegions i).clock = s.clock := by
  simp [State.claimRegions]

@[simp] theorem State.clock_tablesCopy (s : State) (t : Nat) (i : Image) : (s.tablesCopy t i).clock = s.clock := by
  unfold State.tablesCopy
  extract_lets tiles s₁ x s₂ s₃
  have h₁ : s₁.clock = s.clock := by unfold s₁; split <;> simp
  have h₂ : s₂.clock = s₁.clock := by unfold s₂; split <;> simp
  have h₃ : s₃.clock = s₂.clock := by unfold s₃; split <;> simp
  rw [State.clock_each, h₃, h₂, h₁]
  intro s c
  split <;> simp

@[simp] theorem State.clock_verdictTables (s : State) (i : Image) : (s.verdictTables i).clock = s.clock := by
  unfold State.verdictTables
  rw [State.clock_each]
  intro s k
  dsimp only
  repeat' split
  all_goals simp

@[simp] theorem State.clock_queueFresh (s old : State) (t k : Nat) : (s.queueFresh old t k).clock = s.clock := by
  simp [State.queueFresh]

@[simp] theorem State.clock_ringFresh (s old : State) (t k : Nat) : (s.ringFresh old t k).clock = s.clock := by
  simp [State.ringFresh]

@[simp] theorem State.clock_streamFresh (s old : State) (t : Nat) : (s.streamFresh old t).clock = s.clock := by
  simp [State.streamFresh]

@[simp] theorem State.clock_queueRegions (s old : State) : (s.queueRegions old).clock = s.clock := by
  simp [State.queueRegions]

@[simp] theorem State.clock_dropRegions (s : State) (i : Option Image) : (s.dropRegions i).clock = s.clock := by
  simp [State.dropRegions]

@[simp] theorem State.clock_lbRestart (s : State) (t : Nat) : (s.lbRestart t).clock = s.clock := by
  simp [State.lbRestart]

@[simp] theorem State.clock_lbClear (s : State) : s.lbClear.clock = s.clock := by simp [State.lbClear]

@[simp] theorem State.clock_layLookback (s : State) (r : RegEnt) : (s.layLookback r).clock = s.clock := by
  simp [State.layLookback]

@[simp] theorem State.clock_claimChannels (s : State) : s.claimChannels.clock = s.clock := by
  simp [State.claimChannels]

@[simp] theorem State.clock_activate (s : State) (i : Image) : (s.activate i).clock = s.clock := by
  simp [State.activate]

@[simp] theorem State.clock_imageStage (s : State) (i : Image) : (s.imageStage i).clock = s.clock := by
  simp [State.imageStage]

@[simp] theorem State.clock_chRestart (s : State) (n : Nat) : (s.chRestart n).clock = s.clock := by
  simp [State.chRestart]

@[simp] theorem State.clock_linkUp (s : State) (cfg : PcieCfg) : (s.linkUp cfg).clock = s.clock := by
  simp [State.linkUp]

@[simp] theorem State.clock_leadReset (s : State) (t : Nat) : (s.leadReset t).clock = s.clock := by
  unfold State.leadReset
  split <;> simp

@[simp] theorem State.clock_settleStream (s : State) (t : Nat) : (s.settleStream t).clock = s.clock := by
  simp [State.settleStream]

@[simp] theorem State.clock_formAll (t n : Nat) : ∀ s : State, (s.formAll t n).clock = s.clock := by
  induction n with
  | zero => intro s; rfl
  | succ n ih => intro s; simp [State.formAll, ih]

@[simp] theorem State.clock_cutFinish (s : State) (t serial : Nat) : (s.cutFinish t serial).clock = s.clock := by
  unfold State.cutFinish
  dsimp only
  repeat' split
  all_goals simp

@[simp] theorem State.clock_releaseAll (t n : Nat) : ∀ s : State, (s.releaseAll t n).clock = s.clock := by
  induction n with
  | zero => intro s; rfl
  | succ n ih =>
    intro s
    unfold State.releaseAll
    split <;> simp [ih]

@[simp] theorem State.clock_emitAll (s : State) (t : Nat) : (s.emitAll t).clock = s.clock := by simp [State.emitAll]

@[simp] theorem State.clock_streamPages (s : State) (t : Nat) : (s.streamPages t).clock = s.clock := by
  simp [State.streamPages, State.each]

@[simp] theorem State.clock_streamReset (s : State) (t : Nat) : (s.streamReset t).clock = s.clock := by
  simp [State.streamReset]

@[simp] theorem State.clock_vfsSet (s : State) (n : Fin 64) : (s.vfsSet n).clock = s.clock := by simp [State.vfsSet]

@[simp] theorem State.clock_clientBind (s : State) (c fn : Nat) : (s.clientBind c fn).clock = s.clock := by
  simp [State.clientBind]

@[simp] theorem State.clock_quotaEntry (s : State) (c kind value use taken : Nat) :
    (s.quotaEntry c kind value use taken).clock = s.clock := by simp [State.quotaEntry]

@[simp] theorem State.clock_takeSeg (s : State) (n : Nat) : (s.takeSeg n).clock = s.clock := by simp [State.takeSeg]

@[simp] theorem State.clock_quotaSet (s : State) (c kind value : Nat) :
    (s.quotaSet c kind value).clock = s.clock := by simp [State.quotaSet]

@[simp] theorem State.clock_vfeSet (s : State) (on : Bool) : (s.vfeSet on).clock = s.clock := by simp [State.vfeSet]

@[simp] theorem State.clock_powerStart (s : State) (target : Nat) (rtc bus : Bool) :
    (s.powerStart target rtc bus).clock = s.clock := by simp [State.powerStart]

@[simp] theorem State.clock_fwStart (s : State) : s.fwStart.clock = s.clock := by simp [State.fwStart]

@[simp] theorem State.clock_zeroSeg (s : State) (n : Nat) : (s.zeroSeg n).clock = s.clock := by simp [State.zeroSeg]

@[simp] theorem State.clock_allocSegs (s : State) (c first n : Nat) :
    (s.allocSegs c first n).clock = s.clock := by simp [State.allocSegs]

@[simp] theorem State.clock_unpinSegs (s : State) (c : Nat) (reclaim : Bool) (l : List Nat) :
    (s.unpinSegs c reclaim l).1.clock = s.clock := by
  unfold State.unpinSegs
  rw [State.clock_foldl_fst]
  intro p n
  dsimp only
  split <;> simp

@[simp] theorem State.clock_lookbackPut (s : State) (dst l : Nat) (out : List Byte × Nat) :
    (s.lookbackPut dst l out).1.clock = s.clock := by
  unfold State.lookbackPut
  split <;> simp

@[simp] theorem State.clock_lookbackMeet (s : State) (b : LbSt) (da : Nat) (ln : Int) (l : Nat) :
    (s.lookbackMeet b da ln l).clock = s.clock := by simp [State.lookbackMeet]

@[simp] theorem State.clock_lookbackFrom (s : State) (b : LbSt) (t h c dst len before after' : Nat) :
    (s.lookbackFrom b t h c dst len before after').1.clock = s.clock := by
  unfold State.lookbackFrom
  extract_lets da dir l code ln
  repeat' split
  all_goals simp

@[simp] theorem State.clock_lookbackGet (s : State) : s.lookbackGet.1.clock = s.clock := by
  unfold State.lookbackGet
  split <;> simp

@[simp] theorem State.clock_forgetResv (s : State) (renumber : Bool) :
    (s.forgetResv renumber).clock = s.clock := by simp [State.forgetResv]

@[simp] theorem State.clock_passStart (s : State) (renumber : Bool) : (s.passStart renumber).clock = s.clock := by
  simp [State.passStart]

@[simp] theorem State.clock_qTake (s : State) (q : Nat) : (s.qTake q).clock = s.clock := by
  unfold State.qTake
  dsimp only
  split <;> simp

@[simp] theorem State.clock_qRead (s : State) (q : Nat) : (s.qRead q).clock = s.clock := by
  unfold State.qRead
  split <;> simp

@[simp] theorem State.clock_qDiscard (s : State) (q : Nat) : (s.qDiscard q).clock = s.clock := by
  simp [State.qDiscard]

@[simp] theorem State.clock_recordPut (s : State) (c : Nat) (mk : State → Nat → State × List Byte)
    (hmk : ∀ s n, (mk s n).1.clock = s.clock) : (s.recordPut c mk).clock = s.clock := by
  simp [State.recordPut, hmk]

@[simp] theorem State.clock_copyTake (s : State) (ch n : Nat) : (s.copyTake ch n).clock = s.clock := by
  simp [State.copyTake]

@[simp] theorem State.clock_hostWrite (s : State) (a : Nat) (bs : List Byte) :
    (s.hostWrite a bs).clock = s.clock := by simp [State.hostWrite]

@[simp] theorem State.clock_dataPut (s : State) (c off : Nat) (bs : List Byte) :
    (s.dataPut c off bs).1.clock = s.clock := by
  unfold State.dataPut
  dsimp only
  split <;> simp

@[simp] theorem State.clock_copyCuts (s : State) (c : Nat) (route rec : List Byte) (seq : Nat) :
    (s.copyCuts c route rec seq).clock = s.clock := by simp [State.copyCuts]

@[simp] theorem State.clock_deliverTo (s : State) (route rec : List Byte) (cli : Nat) :
    (s.deliverTo route rec cli).clock = s.clock := by simp [State.deliverTo]

@[simp] theorem State.clock_recordDeliver (s : State) (t : Nat) : (s.recordDeliver t).clock = s.clock := by
  unfold State.recordDeliver
  dsimp only
  repeat' split
  all_goals simp

@[simp] theorem State.clock_dataCopied (s : State) (j : DataCopy) (data : List Byte) (bad : Bool) :
    (s.dataCopied j data bad).clock = s.clock := by
  unfold State.dataCopied
  dsimp only
  repeat' split
  all_goals simp

@[simp] theorem State.clock_statCopied (s : State) (t : Nat) : (s.statCopied t).clock = s.clock := by
  unfold State.statCopied
  dsimp only
  repeat' split
  all_goals simp

@[simp] theorem State.clock_stripCopied (s : State) (t : Nat) : (s.stripCopied t).clock = s.clock := by
  unfold State.stripCopied
  split <;> simp

@[simp] theorem State.clock_request (s : State) (ch : Option Nat) (late : Nat) :
    (s.request ch late).clock = s.clock := by simp [State.request]

@[simp] theorem State.clock_fetchVerdicts (s : State) (c : Nat) (es : List (BitVec 128)) (late : Nat) :
    (s.fetchVerdicts c es late).clock = s.clock := by simp [State.fetchVerdicts]

@[simp] theorem State.clock_fetchDesc (s : State) (c : Nat) (bs : List Byte) (late : Nat) :
    (s.fetchDesc c bs late).clock = s.clock := by simp [State.fetchDesc]

@[simp] theorem State.clock_burstTake (s : State) (ch : Nat) (host : Bool) (n : Nat) :
    (s.burstTake ch host n).clock = s.clock := by simp [State.burstTake]

@[simp] theorem State.clock_dmaFail (s : State) (n cause : Nat) : (s.dmaFail n cause).clock = s.clock := by
  unfold State.dmaFail
  dsimp only
  split <;> simp

@[simp] theorem State.clock_dmaBurst (s : State) (ch len : Nat) (data : List Byte) (late : Nat) :
    (s.dmaBurst ch len data late).clock = s.clock := by
  unfold State.dmaBurst
  dsimp only
  split <;> simp

@[simp] theorem State.clock_abortFail (s : State) (n cause : Nat) (a : AbortedDesc) :
    (s.abortFail n cause a).clock = s.clock := by
  unfold State.abortFail
  dsimp only
  split <;> simp

@[simp] theorem State.clock_dmaComplete (s : State) (ch : Nat) : (s.dmaComplete ch).clock = s.clock := by
  unfold State.dmaComplete
  dsimp only
  split <;> simp

@[simp] theorem State.clock_lbFails (s : State) (t ln : Nat) : (s.lbFails t ln).clock = s.clock := by
  unfold State.lbFails
  split <;> simp

@[simp] theorem State.clock_qFails (s : State) (q : Nat) : (s.qFails q).clock = s.clock := by simp [State.qFails]

@[simp] theorem State.clock_cmpJobEnd (s : State) (e : Nat) (raw : List Byte) :
    (s.cmpJobEnd e raw).clock = s.clock := by
  unfold State.cmpJobEnd
  dsimp only
  repeat' split
  all_goals simp

@[simp] theorem State.clock_evtEnter (s : State) (c cyc : Nat) : (s.evtEnter c cyc).clock = s.clock := by
  simp [State.evtEnter]

@[simp] theorem State.clock_queueTrigger (s : State) (g : Nat) : (s.queueTrigger g).clock = s.clock := by
  simp [State.queueTrigger]

@[simp] theorem State.clock_genEvent (s : State) (g c : Nat) : (s.genEvent g c).clock = s.clock := by
  simp [State.genEvent]

@[simp] theorem State.clock_pwmArrive (s : State) (n : Nat) (e : EvtRec) : (s.pwmArrive n e).clock = s.clock := by
  simp [State.pwmArrive]

@[simp] theorem State.clock_subEvent (s : State) (q i c : Nat) (arg : Word) :
    (s.subEvent q i c arg).clock = s.clock := by simp [State.subEvent]

@[simp] theorem State.clock_cvBroadcast (s : State) (c : Cell) : (s.cvBroadcast c).clock = s.clock := by
  simp [State.cvBroadcast]

@[simp] theorem State.clock_evtExport (s : State) (e : EvtRec) : (s.evtExport e).clock = s.clock := by
  simp [State.evtExport]

@[simp] theorem State.clock_consumers (s : State) (e : EvtRec) : (s.consumers e).clock = s.clock := by
  simp [State.consumers]

@[simp] theorem State.clock_chShow (s : State) (e : EvtRec) : (s.chShow e).clock = s.clock := by simp [State.chShow]

@[simp] theorem State.clock_evtDeliver (s : State) (c : Nat) (e : EvtRec) :
    (s.evtDeliver c e).clock = s.clock := by simp [State.evtDeliver]

@[simp] theorem State.clock_cellStep (s : State) (k : Nat) : (s.cellStep k).clock = s.clock := by
  simp [State.cellStep]

@[simp] theorem State.clock_evtPump (s : State) : s.evtPump.clock = s.clock := by
  unfold State.evtPump
  split <;> simp

@[simp] theorem State.clock_spanBlocks (s : State) (p : Nat) (bs : List (Bool × Dword)) :
    (s.spanBlocks p bs).clock = s.clock := by simp [State.spanBlocks]

@[simp] theorem State.clock_cellSend (s : State) (p : Nat) (e : OutCell) (fine : Byte) :
    (s.cellSend p e fine).clock = s.clock := by simp [State.cellSend]

@[simp] theorem State.clock_syncRx (s : State) (p : Nat) (c : Cell) (t : Nat) :
    (s.syncRx p c t).clock = s.clock := by simp [State.syncRx]

@[simp] theorem State.clock_tellPending (s : State) (p : Nat) (k : Option (Nat × Bool × Nat)) :
    (s.tellPending p k).clock = s.clock := by simp [State.tellPending]

@[simp] theorem State.clock_changeSend (s : State) (c : Cell) (k : Option (Nat × Bool × Nat)) :
    (s.changeSend c k).clock = s.clock := by
  unfold State.changeSend
  dsimp only
  repeat' split
  all_goals simp

@[simp] theorem State.clock_walkPast (s : State) (e : EnumSt) : (s.walkPast e).clock = s.clock := by
  simp [State.walkPast]

@[simp] theorem State.clock_probeAnswer (s : State) (p : Nat) (m : CvnMsg) :
    (s.probeAnswer p m).clock = s.clock := by
  unfold State.probeAnswer
  dsimp only
  repeat' split
  all_goals simp

@[simp] theorem State.clock_cvKeep (s : State) (p : Nat) (c : Cell) (k : Option (Nat × Bool × Nat)) :
    (s.cvKeep p c k).clock = s.clock := by simp [State.cvKeep]

@[simp] theorem State.clock_commitRx (s : State) (p n : Nat) (c : Cell) (k : Option (Nat × Bool × Nat)) :
    (s.commitRx p n c k).clock = s.clock := by
  unfold State.commitRx
  split <;> simp

@[simp] theorem State.clock_bcastRx (s : State) (p : Nat) (c : Cell) (k : Option (Nat × Bool × Nat)) :
    (s.bcastRx p c k).clock = s.clock := by
  unfold State.bcastRx
  split <;> simp

@[simp] theorem State.clock_enumTake (s : State) (p : Nat) (c : Cell) (k : Option (Nat × Bool × Nat)) :
    (s.enumTake p c k).clock = s.clock := by
  unfold State.enumTake
  dsimp only
  repeat' split
  all_goals simp

@[simp] theorem State.clock_enumRx (s : State) (p : Nat) (c : Cell) (k : Option (Nat × Bool × Nat)) :
    (s.enumRx p c k).clock = s.clock := by simp [State.enumRx]

@[simp] theorem State.clock_unicastRx (s : State) (p : Nat) (c : Cell) (k : Option (Nat × Bool × Nat)) :
    (s.unicastRx p c k).clock = s.clock := by
  unfold State.unicastRx
  split <;> simp

@[simp] theorem State.clock_cellRx (s : State) (p : Nat) (bs : List Byte) (msg : CvnMsg) (t : Nat) :
    (s.cellRx p bs msg t).clock = s.clock := by simp [State.cellRx]

theorem State.clock_cvTake (s : State) (p : Nat) (f : Cell → Bool) (r : Cell × State) (h : s.cvTake p f = some r) :
    r.2.clock = s.clock := by
  unfold State.cvTake at h
  split at h <;> cases h
  simp

@[simp] theorem State.clock_putOverride (s : State) (lo hi p : Nat) :
    (s.putOverride lo hi p).clock = s.clock := by simp [State.putOverride]

@[simp] theorem State.clock_takeTable (s : State) (t : RouteTab) : (s.takeTable t).clock = s.clock := by
  simp [State.takeTable]

@[simp] theorem State.clock_noteRate (s : State) (r : Option Int) : (s.noteRate r).clock = s.clock := by
  simp [State.noteRate]

@[simp] theorem State.clock_posTake (s : State) (c : Cell) : (s.posTake c).clock = s.clock := by simp [State.posTake]

@[simp] theorem State.clock_putAsm (s : State) (src : Nat) (a : Option HoAsm) :
    (s.putAsm src a).clock = s.clock := by simp [State.putAsm]

@[simp] theorem State.clock_hoEnter (s : State) (stream : Nat) (rec : List Byte) :
    (s.hoEnter stream rec).clock = s.clock := by simp [State.hoEnter]

@[simp] theorem State.clock_hoPart (s : State) (c : Cell) : (s.hoPart c).clock = s.clock := by
  unfold State.hoPart
  dsimp only
  split <;> simp

@[simp] theorem State.clock_respond (s : State) (e : InCell) (c : Cell) : (s.respond e c).clock = s.clock := by
  unfold State.respond
  split <;> simp

@[simp] theorem State.clock_napEnter (s : State) (c : Nat) : (s.napEnter c).clock = s.clock := by
  simp [State.napEnter]

@[simp] theorem State.clock_clusterChoose (s : State) (c : Nat) : (s.clusterChoose c).clock = s.clock := by
  simp [State.clusterChoose]

@[simp] theorem State.clock_portChoose (s : State) (p : Nat) : (s.portChoose p).clock = s.clock := by
  simp [State.portChoose]

@[simp] theorem State.clock_tilesLost (s : State) (c : Nat) : (s.tilesLost c).clock = s.clock := by
  simp [State.tilesLost]

@[simp] theorem State.clock_opKick (s : State) : s.opKick.clock = s.clock := by
  unfold State.opKick
  split <;> simp

@[simp] theorem State.clock_opEnd (s : State) (x : OpChange) (done : Bool) :
    (s.opEnd x done).clock = s.clock := by simp [State.opEnd]

@[simp] theorem State.clock_opStep (s : State) (ok : Bool) : (s.opStep ok).clock = s.clock := by
  unfold State.opStep
  dsimp only
  repeat' split
  all_goals simp

@[simp] theorem State.clock_mgtNext (s : State) : s.mgtNext.clock = s.clock := by
  unfold State.mgtNext
  split <;> simp

@[simp] theorem State.clock_vcoreEnd (s : State) (ok : Bool) : (s.vcoreEnd ok).clock = s.clock := by
  simp [State.vcoreEnd]

@[simp] theorem State.clock_clustersPower (s : State) (on : Bool) : (s.clustersPower on).clock = s.clock := by
  simp [State.clustersPower]

@[simp] theorem State.clock_busEnd (s : State) (code : Nat) : (s.busEnd code).clock = s.clock := by
  simp [State.busEnd]

@[simp] theorem State.clock_devEnd (s : State) : s.devEnd.clock = s.clock := by simp [State.devEnd]

@[simp] theorem State.clock_portWake (s : State) (p : Nat) : (s.portWake p).clock = s.clock := by
  simp [State.portWake]

@[simp] theorem State.clock_powerUp (s : State) : s.powerUp.clock = s.clock := by simp [State.powerUp]

@[simp] theorem State.clock_rtcAtAlarm (s : State) (src : Nat) : (s.rtcAtAlarm src).clock = s.clock := by
  simp [State.rtcAtAlarm]

@[simp] theorem State.clock_wakeCause (s : State) (bits : Nat) : (s.wakeCause bits).clock = s.clock := by
  simp [State.wakeCause]

@[simp] theorem State.clock_powerFail (s : State) : s.powerFail.clock = s.clock := by simp [State.powerFail]

@[simp] theorem State.clock_powerIsDown (s : State) : s.powerIsDown.clock = s.clock := by simp [State.powerIsDown]

@[simp] theorem State.clock_winTransfer (s : State) (addr : Nat) (f : State → State)
    (hf : ∀ s, (f s).clock = s.clock) : (s.winTransfer addr f).clock = s.clock := by simp [State.winTransfer, hf]

@[simp] theorem State.clock_busCmd (s : State) (target : Nat) (rtc : Bool) :
    (s.busCmd target rtc).clock = s.clock := by simp [State.busCmd]

@[simp] theorem State.clock_winWrite (s : State) (o : Nat) (v : Byte) : (s.winWrite o v).clock = s.clock := by
  unfold State.winWrite
  dsimp only
  repeat' split
  all_goals simp

@[simp] theorem State.clock_winWriteAll (l : List Byte) : ∀ s : State, (s.winWriteAll l).clock = s.clock := by
  induction l with
  | nil => intro s; rfl
  | cons v l ih => intro s; simp [State.winWriteAll, ih]

@[simp] theorem State.clock_winReadAll (n : Nat) : ∀ s : State, (s.winReadAll n).clock = s.clock := by
  induction n with
  | zero => intro s; rfl
  | succ n ih => intro s; simp [State.winReadAll, ih]

@[simp] theorem State.clock_attnWrite (s : State) : s.attnWrite.clock = s.clock := by simp [State.attnWrite]

@[simp] theorem State.clock_ctlData (s : State) (n : Nat) (data : List Byte) :
    (s.ctlData n data).clock = s.clock := by simp [State.ctlData]

@[simp] theorem State.clock_ctlEnd (s : State) (result : Nat) (data : List Byte) :
    (s.ctlEnd result data).clock = s.clock := by
  unfold State.ctlEnd
  dsimp only
  repeat' split
  all_goals simp

@[simp] theorem State.clock_mirrorInt (s : State) : s.mirrorInt.clock = s.clock := by simp [State.mirrorInt]

@[simp] theorem State.clock_putStaging (s : State) (l : List (List Word)) : (s.putStaging l).clock = s.clock := by
  simp [State.putStaging]

@[simp] theorem State.clock_mirrorOut (s : State) : s.mirrorOut.clock = s.clock := by simp [State.mirrorOut]

@[simp] theorem State.clock_mirrorIn (s : State) : s.mirrorIn.clock = s.clock := by simp [State.mirrorIn]

@[simp] theorem State.clock_tapSelect (s : State) (ir : Byte) (i : TapInstr) (pins hiz ac : Bool) :
    (s.tapSelect ir i pins hiz ac).clock = s.clock := by simp [State.tapSelect]

@[simp] theorem State.clock_scanUpdate (s : State) (cells : List Bool) :
    (s.scanUpdate cells).clock = s.clock := by simp [State.scanUpdate]

@[simp] theorem State.clock_tapTake (s : State) (ir : Byte) (i : TapInstr) (hiz ac : Bool) (cells : Option (List Bool)) :
    (s.tapTake ir i hiz ac cells).clock = s.clock := by
  unfold State.tapTake
  dsimp only
  repeat' split
  all_goals simp

end Sys2Proof.Machine

end

/-! ## The timebase: each of its operations keeps it sound and its count rising (R11 to R17, R350) -/

section

namespace Sys2Proof.Machine

/-! ### Registers of a file after one of them was written -/

@[simp] theorem rget_wrBit_same (r : RegFile) (a i : Nat) (x : Bool) : rget (wrBit r a i x) a = putBit (rget r a) i x :=
  rget_rset_same r a _

theorem rget_wrBit_ne (r : RegFile) {a a' : Nat} (i : Nat) (x : Bool) (h : a' ≠ a) :
    rget (wrBit r a i x) a' = rget r a' := rget_rset_ne r _ h

@[simp] theorem rget_wrBits_same (r : RegFile) (a hi lo x : Nat) :
    rget (wrBits r a hi lo x) a = putBits (rget r a) hi lo x := rget_rset_same r a _

theorem rget_wrBits_ne (r : RegFile) {a a' : Nat} (hi lo x : Nat) (h : a' ≠ a) :
    rget (wrBits r a hi lo x) a' = rget r a' := rget_rset_ne r _ h

/-! ### The timebase goes on -/

/-- TB has not gone back, and a sound timebase has stayed sound. -/
structure TimeSt.Leads (t u : TimeSt) : Prop where
  tb_le : t.tb ≤ u.tb
  ok : t.ok → u.ok

theorem TimeSt.Leads.refl (t : TimeSt) : t.Leads t := ⟨Nat.le_refl _, id⟩

theorem TimeSt.Leads.trans {t u v : TimeSt} (h : t.Leads u) (k : u.Leads v) : t.Leads v :=
  ⟨Nat.le_trans h.tb_le k.tb_le, fun x => k.ok (h.ok x)⟩

/-- The fields that soundness does not name are free, and so are the registers but for HST_TB_RATE and SLEW_BUSY. -/
theorem TimeSt.leads_of_eq {t u : TimeSt} (htb : t.tb ≤ u.tb) (hfrac : u.frac = t.frac) (hrem : u.stepRem = t.stepRem)
    (hrate : rget u.regs HST_TB_RATE = rget t.regs HST_TB_RATE)
    (hbusy : bit (rget u.regs HST_TB_STATUS) 3 = bit (rget t.regs HST_TB_STATUS) 3) : t.Leads u :=
  ⟨htb, fun h => by simpa only [TimeSt.ok, hfrac, hrem, hrate, hbusy] using h⟩

/-- A bit of another register than HST_TB_RATE, not SLEW_BUSY, is written. -/
theorem TimeSt.leads_wrBit (t : TimeSt) (a i : Nat) (x : Bool) (ha : a ≠ HST_TB_RATE) (hi : a = HST_TB_STATUS → i ≠ 3) :
    t.Leads { t with regs := wrBit t.regs a i x } := by
  refine TimeSt.leads_of_eq (Nat.le_refl _) rfl rfl (rget_wrBit_ne _ _ _ ha.symm) ?_
  by_cases h : HST_TB_STATUS = a
  · subst h
    simp [bit_putBit_ne _ _ _ _ (hi rfl).symm]
  · simp only [rget_wrBit_ne _ _ _ h]

/-- STATE of HST_TB_STATUS is written. -/
theorem TimeSt.leads_putState (t : TimeSt) (x : Nat) : t.Leads { t with regs := wrBits t.regs HST_TB_STATUS 1 0 x } :=
  TimeSt.leads_of_eq (Nat.le_refl _) rfl rfl (rget_wrBits_ne _ _ _ _ (by decide))
    (by simp [bit_putBits_ne])

/-- A register other than HST_TB_RATE and HST_TB_STATUS is stored. -/
theorem TimeSt.leads_rset (t : TimeSt) (a : Nat) (v : Word) (hr : a ≠ HST_TB_RATE) (hs : a ≠ HST_TB_STATUS) :
    t.Leads { t with regs := rset t.regs a v } :=
  TimeSt.leads_of_eq (Nat.le_refl _) rfl rfl (rget_rset_ne _ _ hr.symm) (by simp only [rget_rset_ne _ _ hs.symm])

theorem clampInt_mem {lo hi : Int} (h : lo ≤ hi) (x : Int) : lo ≤ clampInt lo hi x ∧ clampInt lo hi x ≤ hi := by
  unfold clampInt
  split
  · omega
  · split <;> omega

/-- A clipped rate reads as the value clipped to the limits of R13. -/
theorem toInt_clipRate (v : Word) : (clipRate v).1.toInt = clampInt (-rateLimit) rateLimit v.toInt := by
  obtain ⟨h₁, h₂⟩ := clampInt_mem (show -rateLimit ≤ rateLimit by decide) v.toInt
  simp only [rateLimit] at h₁ h₂
  simp only [clipRate, rateLimit, BitVec.toInt_ofInt]
  exact Int.bmod_eq_of_le (by omega) (by omega)

/-- HST_TB_RATE takes a clipped value. -/
theorem TimeSt.leads_putRate (t : TimeSt) (v : Word) : t.Leads { t with regs := rset t.regs HST_TB_RATE (clipRate v).1 } := by
  refine ⟨Nat.le_refl _, ?_⟩
  rintro ⟨hfrac, -, -, hbusy, hrem⟩
  obtain ⟨h₁, h₂⟩ := clampInt_mem (show -rateLimit ≤ rateLimit by decide) v.toInt
  refine ⟨hfrac, ?_, ?_, ?_, hrem⟩
  · simpa [toInt_clipRate] using h₁
  · simpa [toInt_clipRate] using h₂
  · simpa [rget_rset_ne _ _ (show HST_TB_STATUS ≠ HST_TB_RATE by decide)] using hbusy

theorem TimeSt.leads_jump (t : TimeSt) (n : Nat) : t.Leads (t.jump n) :=
  TimeSt.leads_of_eq (Nat.le_add_right _ _) rfl rfl rfl rfl

/-- The remaining step and SLEW_BUSY are put together. -/
theorem TimeSt.leads_withRem (t : TimeSt) (rem : Int) (h : rem.natAbs ≤ 2 ^ 31 * 1024) : t.Leads (t.withRem rem) := by
  refine ⟨Nat.le_refl _, ?_⟩
  rintro ⟨hfrac, hlo, hhi, -, -⟩
  have hr : rget (t.withRem rem).regs HST_TB_RATE = rget t.regs HST_TB_RATE := rget_wrBit_ne _ _ _ (by decide)
  refine ⟨hfrac, hr ▸ hlo, hr ▸ hhi, ?_, h⟩
  simp [TimeSt.withRem]

theorem natAbs_remAfter_le (rem : Int) : (remAfter rem).natAbs ≤ rem.natAbs := by
  unfold remAfter
  split
  · omega
  · split <;> omega

/-- One cycle: TB gains a whole number of nanoseconds, the remaining step shrinks (R12, R14). -/
theorem TimeSt.leads_cycle (t : TimeSt) : t.Leads t.cycle := by
  refine ⟨Nat.le_add_right _ _, fun h => ?_⟩
  obtain ⟨-, hlo, hhi, hbusy, hrem⟩ := h
  have hr : rget t.cycle.regs HST_TB_RATE = rget t.regs HST_TB_RATE := rget_wrBit_ne _ _ _ (by decide)
  refine ⟨Nat.mod_lt _ (by decide), hr ▸ hlo, hr ▸ hhi, ?_, (natAbs_remAfter_le _).trans hrem⟩
  simp [TimeSt.cycle, TimeSt.withRem]

theorem TimeSt.leads_stepRej (t : TimeSt) : t.Leads t.stepRej := t.leads_wrBit _ _ _ (by decide) (by decide)

/-- A requested step jumps forward, slews or is rejected (R14). -/
theorem TimeSt.leads_requestStep (t : TimeSt) (step : Int) (h : step.natAbs ≤ 2 ^ 31) : t.Leads (t.requestStep step) := by
  unfold TimeSt.requestStep
  split
  · exact t.leads_stepRej
  · split
    · exact .refl t
    · split
      · exact t.leads_jump _
      · exact t.leads_withRem _ (by omega)

theorem TimeSt.leads_rateWrite (t : TimeSt) (v : Word) : t.Leads (t.rateWrite v) := by
  unfold TimeSt.rateWrite
  split
  · exact t.leads_stepRej
  · have h := t.leads_putRate v
    dsimp only
    split
    · exact h.trans (TimeSt.leads_wrBit _ _ _ _ (by decide) (by decide))
    · exact h

theorem natAbs_toInt_le (v : Word) : v.toInt.natAbs ≤ 2 ^ 31 := by
  have h₁ := BitVec.toInt_lt (x := v)
  have h₂ := BitVec.le_toInt (x := v)
  omega

theorem TimeSt.leads_stepWrite (t : TimeSt) (v : Word) : t.Leads (t.stepWrite v) := by
  unfold TimeSt.stepWrite
  split
  · exact t.leads_stepRej
  · exact t.leads_requestStep _ (natAbs_toInt_le v)

theorem TimeSt.leads_putDisc (t : TimeSt) (disc : Bool) : t.Leads (t.putDisc disc) := by
  have h := t.leads_wrBit HST_TB_CTRL 0 disc (by decide) (by decide)
  unfold TimeSt.putDisc
  dsimp only
  split
  · exact h.trans (TimeSt.leads_putState _ _)
  · exact h

theorem TimeSt.leads_ppsArm (t : TimeSt) : t.Leads t.ppsArm := t.leads_wrBit _ _ _ (by decide) (by decide)

theorem TimeSt.leads_ctrlWrite (t : TimeSt) (v : Word) : t.Leads (t.ctrlWrite v) := by
  have h := (t.leads_wrBit HST_TB_CTRL 1 (bit v 1) (by decide) (by decide)).trans (TimeSt.leads_putDisc _ (bit v 0))
  unfold TimeSt.ctrlWrite
  dsimp only
  split
  · exact h.trans (TimeSt.leads_ppsArm _)
  · exact h

/-- The smallest step to a whole second is at most half a second either way (R17). -/
theorem alignStep_mem (n : Nat) : -500000000 < alignStep n ∧ alignStep n ≤ 500000000 := by
  unfold alignStep
  dsimp only
  split <;> omega

/-- The timebase with a PPS_IN edge captured, before the step it may request (R17). -/
def TimeSt.captured (t : TimeSt) : TimeSt :=
  { t with
    regs := wrBit (wrBit (rset (rset t.regs HST_PPS_LO (lo32 t.tb)) HST_PPS_HI (hi32 t.tb)) HST_TB_STATUS 6 true)
      HST_TB_CTRL 2 false
    ppsLast := some t.tb }

theorem TimeSt.ppsCapture_eq (t : TimeSt) : t.ppsCapture =
    if bit (rget t.captured.regs HST_TB_CTRL) 0 then t.captured.stepRej else t.captured.requestStep (alignStep t.tb) :=
  rfl

theorem TimeSt.leads_captured (t : TimeSt) : t.Leads t.captured := by
  refine TimeSt.leads_of_eq (Nat.le_refl _) rfl rfl ?_ ?_
  · simp [TimeSt.captured, rget_wrBit_ne, rget_rset_ne]
  · simp [TimeSt.captured, rget_wrBit_ne, rget_rset_ne, bit_putBit_ne]

theorem TimeSt.leads_ppsCapture (t : TimeSt) : t.Leads t.ppsCapture := by
  obtain ⟨h₁, h₂⟩ := alignStep_mem t.tb
  rw [TimeSt.ppsCapture_eq]
  split
  · exact t.leads_captured.trans (TimeSt.leads_stepRej _)
  · exact t.leads_captured.trans (TimeSt.leads_requestStep _ _ (by omega))

/-! ### Warm reset -/

theorem warmValue_regReset (a : Nat) : warmValue a (regReset a) = regReset a := by
  unfold warmValue
  ext i hi
  simp
  cases (regReset a)[i] <;> simp

theorem rget_of_not_mem (r : RegFile) (a : Nat) (h : a ∉ r.map Prod.fst) : rget r a = regReset a := by
  induction r with
  | nil => rfl
  | cons e r ih =>
    obtain ⟨k, v⟩ := e
    simp only [List.map_cons, List.mem_cons, not_or] at h
    rw [rget, Tab.get, if_neg (Ne.symm h.1)]
    exact ih h.2

/-- A register file rebuilt from its own entries by a rule reads as the rule says where the file lists the register. -/
theorem rget_foldl_rset (f : Nat → Word) (l : RegFile) (a : Nat) :
    ∀ m : RegFile, rget (l.foldl (fun m e => rset m e.1 (f e.1)) m) a = if a ∈ l.map Prod.fst then f a else rget m a := by
  induction l with
  | nil => intro m; simp
  | cons e l ih =>
    intro m
    rw [List.foldl_cons, ih, rget_rset]
    by_cases h : a ∈ l.map Prod.fst
    · simp [h]
    · by_cases k : a = e.1 <;> simp [h, k]

/-- A register that a warm reset takes over by the rule f, with f of the reset value the reset value. -/
theorem rget_rebuilt (f : Nat → Word → Word) (r : RegFile) (a : Nat) (h : f a (regReset a) = regReset a) :
    rget (r.foldl (fun m e => rset m e.1 (f e.1 (rget r e.1))) []) a = f a (rget r a) := by
  rw [rget_foldl_rset (fun k => f k (rget r k))]
  split
  · rfl
  · next hm => rw [rget_of_not_mem r a hm, h]; rfl

/-- After warm reset every register holds what its RWS bits and its reset value give (R24, R31). -/
@[simp] theorem rget_warmRegs (r : RegFile) (a : Nat) : rget (warmRegs r) a = warmValue a (rget r a) :=
  rget_rebuilt warmValue r a (warmValue_regReset a)

theorem bit_warmValue (a i : Nat) (v : Word) :
    bit (warmValue a v) i = if bit (keepMask a) i then bit v i else bit (regReset a) i := by
  unfold bit warmValue
  by_cases hi : i < 32
  · simp only [BitVec.getLsbD_or, BitVec.getLsbD_and, BitVec.getLsbD_not, hi, decide_true, Bool.true_and]
    cases (keepMask a).getLsbD i <;> simp
  · simp [BitVec.getLsbD_of_ge _ _ (Nat.le_of_not_lt hi)]

theorem warmValue_tbRate (v : Word) : warmValue HST_TB_RATE v = v := by
  have h : keepMask HST_TB_RATE = BitVec.allOnes 32 := by decide
  rw [warmValue, h, BitVec.and_allOnes, BitVec.not_allOnes, BitVec.and_zero, BitVec.or_zero]

/-- A fold that sets bits of one register leaves the others. -/
theorem rget_foldl_wrBit_ne (a a' : Nat) (x : Bool) (h : a' ≠ a) (l : List Nat) :
    ∀ r : RegFile, rget (l.foldl (fun r c => wrBit r a c x) r) a' = rget r a' := by
  induction l with
  | nil => intro r; rfl
  | cons c l ih => intro r; rw [List.foldl_cons, ih, rget_wrBit_ne r c x h]

theorem TimeSt.leads_afterWarm (t : TimeSt) (causes : List Nat) : t.Leads (t.afterWarm causes) := by
  refine ⟨Nat.le_refl _, ?_⟩
  rintro ⟨hfrac, hlo, hhi, -, -⟩
  have hrate : rget (t.afterWarm causes).regs HST_TB_RATE = rget t.regs HST_TB_RATE := by
    simp only [TimeSt.afterWarm]
    rw [rget_foldl_wrBit_ne _ _ _ (by decide), rget_wrBits_ne _ _ _ _ (by decide), rget_warmRegs, warmValue_tbRate]
  have hbusy : bit (rget (t.afterWarm causes).regs HST_TB_STATUS) 3 = false := by
    simp only [TimeSt.afterWarm]
    rw [rget_foldl_wrBit_ne _ _ _ (by decide), rget_wrBits_same, bit_putBits_ne _ _ _ _ _ (by decide), rget_warmRegs,
      bit_warmValue, show bit (keepMask HST_TB_STATUS) 3 = false by decide,
      show bit (regReset HST_TB_STATUS) 3 = false by decide]
    rfl
  exact ⟨hfrac, hrate ▸ hlo, hrate ▸ hhi, by rw [hbusy]; rfl, Nat.zero_le _⟩

/-- The timebase is sound when TB starts (R11). -/
theorem TimeSt.ok_atCold (t : TimeSt) : t.atCold.ok := (by decide : TimeSt.init.ok)

end Sys2Proof.Machine

end

/-! ## The register map, and the operations of other units that reach the timebase -/

section

namespace Sys2Proof.Machine

/-! ### The register map -/

/-- What a register address names: a unit of the map that has it, and one of the unit's rows. -/
theorem regAt_eq_some {a : Nat} {u : UnitRow} {row : RegRow} (h : regAt a = some (u, row)) :
    u ∈ units ∧ u.has a = true ∧ row ∈ u.regs ∧ row.has ((a - u.base) % u.stride) = true := by
  unfold regAt at h
  split at h
  · cases h
  · next u' hu =>
    split at h
    · cases h
    · next row' hrow =>
      cases h
      exact ⟨List.mem_of_find?_eq_some hu, List.find?_some (p := fun u : UnitRow => u.has a) hu,
        List.mem_of_find?_eq_some hrow, List.find?_some (p := fun r : RegRow => r.has _) hrow⟩

/-- No two units stand at one place: the timebase's unit is known by its base. -/
theorem eq_unitHst_of_base : ∀ u ∈ units, u.base = unitHst.base → u = unitHst := by decide

/-- No other unit keeps its registers in the timebase block. -/
theorem blk_ne_time_of_base : ∀ u ∈ units, u.base ≠ unitHst.base → u.blk ≠ .time := by decide

/-- The timebase block has no counters. -/
theorem kind_of_mem_unitHst : ∀ row ∈ unitHst.regs, row.kind = .plain := by decide

/-! ### A write by access types (R24), bit by bit -/

/-- What a bit of a field holds after a write of x over o. -/
def Acc.bitAfter (acc : Acc) (o x : Bool) : Bool :=
  match acc with
  | .ro => o
  | .wo => false
  | .w1c | .w1cs => o && !x
  | .w1s => o || x
  | .rw | .rws => x

/-- A field that takes every value: no range, no reserved encodings (R36). -/
def FieldRow.free (f : FieldRow) : Bool := f.range.isNone && f.reserved.isEmpty

@[simp] theorem bit_zero (j : Nat) : bit 0#32 j = false := by simp [bit]

theorem bit_putBits_zero (hi lo x j : Nat) (hj : j < 32) :
    bit (putBits 0#32 hi lo x) j = (decide (lo ≤ j ∧ j ≤ hi) && x.testBit (j - lo)) := by
  unfold bit
  rw [getLsbD_putBits _ _ _ _ _ hj]
  split <;> simp_all

theorem testBit_bits_in (v : Word) {hi lo j : Nat} (h : lo ≤ j ∧ j ≤ hi) : (bits v hi lo).testBit (j - lo) = bit v j := by
  rw [testBit_bits, Nat.sub_add_cancel h.1]
  simp [bit]
  omega

theorem FieldRow.snd_write_of_free {f : FieldRow} (hf : f.free = true) (old v : Word) : (f.write old v).2 = false := by
  obtain ⟨hrange, hres⟩ : f.range = none ∧ f.reserved = [] := by simpa [FieldRow.free] using hf
  unfold FieldRow.write
  cases f.acc <;> simp [hrange, hres]

/-- A field that takes every value, bit by bit: outside the field 0, inside what the access type gives. -/
theorem FieldRow.bit_write {f : FieldRow} (hf : f.free = true) (old v : Word) (j : Nat) (hj : j < 32) :
    bit (f.write old v).1 j = (decide (f.lo ≤ j ∧ j ≤ f.hi) && f.acc.bitAfter (bit old j) (bit v j)) := by
  obtain ⟨hrange, hres⟩ : f.range = none ∧ f.reserved = [] := by simpa [FieldRow.free] using hf
  unfold FieldRow.write
  by_cases h : f.lo ≤ j ∧ j ≤ f.hi
  · cases f.acc <;> simp [hrange, hres, bit_putBits_zero, hj, h, testBit_bits_in, Acc.bitAfter]
    all_goals cases bit old j <;> simp
  · cases f.acc <;> simp [hrange, hres, bit_putBits_zero, hj, h]

theorem bit_foldl_or (l : List (Word × Bool)) (j : Nat) :
    ∀ m : Word, bit (l.foldl (fun m p => m ||| p.1) m) j = (bit m j || l.any (fun p => bit p.1 j)) := by
  induction l with
  | nil => intro m; simp
  | cons p l ih => intro m; rw [List.foldl_cons, ih]; simp [bit, Bool.or_assoc]

/-- A plain register all of whose fields take every value, bit by bit. -/
theorem RegRow.bit_write {r : RegRow} (hk : r.kind = .plain) (hf : ∀ f ∈ r.fields, f.free = true) (ignore : Bool)
    (old v : Word) (j : Nat) (hj : j < 32) :
    bit (r.write ignore old v).1 j =
      r.fields.any (fun f => decide (f.lo ≤ j ∧ j ≤ f.hi) && f.acc.bitAfter (bit old j) (bit v j)) := by
  have hbad : (r.fields.map (fun f => f.write old v)).any (fun p => p.2) = false := by
    simpa using fun f h => FieldRow.snd_write_of_free (hf f h) old v
  unfold RegRow.write
  simp only [hk, hbad, Bool.and_false, Bool.false_eq_true, if_false, bit_foldl_or, List.any_map, Function.comp_def]
  rw [bit_zero, Bool.false_or]
  rw [Bool.eq_iff_iff, List.any_eq_true, List.any_eq_true]
  exact exists_congr fun f => and_congr_right fun h => by rw [FieldRow.bit_write (hf f h) old v j hj]

/-! ### Writes to the timebase block -/

/-- In the timebase block a write stores what the access types give; the block has no CFG_ERR. -/
theorem writeReg_hst {a : Nat} {row : RegRow} (h : regAt a = some (unitHst, row)) (r : RegFile) (v : Word) :
    writeReg r a v = rset r a (row.write false (rget r a) v).1 := by
  simp [writeReg, h, UnitRow.cfgErrAt, unitHst]

/-- In the timebase block a write has no counts to come after it. -/
theorem State.store_hst {a : Nat} {row : RegRow} (h : regAt a = some (unitHst, row)) (s : State) (v : Word) :
    s.store .time a v = s.wr .time a (row.write false (s.rd .time a) v).1 := by
  have hk : row.kind = .plain := kind_of_mem_unitHst row (regAt_eq_some h).2.2.1
  have hc : countedNow s .time a = none := by simp [countedNow, isCounter, h, hk]
  simp [State.store, hc, writeReg_hst h, State.wr, State.rd]

/-- HST_TB_STATUS in the register map (R29). -/
theorem regAt_tbStatus : regAt HST_TB_STATUS = some (unitHst, ⟨0x24, 0, 1, .plain, 0,
    [fRow 6 6 .w1c, fRow 5 5 .w1c, fRow 4 4 .w1c, fRow 3 3 .ro, fRow 1 0 .ro]⟩) := rfl

theorem TimeSt.leads_writeReg (t : TimeSt) {a : Nat} {row : RegRow} (h : regAt a = some (unitHst, row))
    (ha : a ≠ HST_TB_RATE) (v : Word) : t.Leads { t with regs := rset t.regs a (row.write false (rget t.regs a) v).1 } := by
  by_cases hs : a = HST_TB_STATUS
  · subst hs
    obtain ⟨-, rfl⟩ : unitHst = unitHst ∧ _ = row := by simpa [regAt_tbStatus] using h
    refine TimeSt.leads_of_eq (Nat.le_refl _) rfl rfl (rget_rset_ne _ _ (by decide)) ?_
    rw [rget_rset_same, RegRow.bit_write rfl (by decide) false _ _ _ (by decide)]
    simp [fRow, Acc.bitAfter]
  · exact t.leads_rset a _ ha hs

/-! ### States whose timebase goes on -/

/-- The timebase has gone on from s to t, and the queue of commands is the one before. -/
structure State.Leads (s t : State) : Prop where
  time : s.time.Leads t.time
  pending : t.pending = s.pending

theorem State.Leads.of_clock {s t : State} (h : t.clock = s.clock) : s.Leads t :=
  ⟨State.time_eq_of_clock h ▸ .refl _, State.pending_eq_of_clock h⟩

theorem State.Leads.refl (s : State) : s.Leads s := .of_clock rfl

theorem State.Leads.trans {s t u : State} (h : s.Leads t) (k : t.Leads u) : s.Leads u :=
  ⟨h.time.trans k.time, k.pending.trans h.pending⟩

/-- What comes after may leave the timebase and the queue alone. -/
theorem State.Leads.then {s t u : State} (h : s.Leads t) (k : u.clock = t.clock) : s.Leads u := h.trans (.of_clock k)

/-- What comes before may leave the timebase and the queue alone. -/
theorem State.Leads.after {s t u : State} (h : t.Leads u) (k : t.clock = s.clock) : s.Leads u :=
  (State.Leads.of_clock k).trans h

theorem State.Leads.ite {c : Prop} [Decidable c] {s t u : State} (h : s.Leads t) (k : s.Leads u) :
    s.Leads (if c then t else u) := by
  split
  · exact h
  · exact k

theorem State.Leads.each {α : Type} (f : State → α → State) (hf : ∀ (s : State) (x : α), s.Leads (f s x)) (l : List α) :
    ∀ s : State, s.Leads (s.each l f) := by
  induction l with
  | nil => exact .refl
  | cons x l ih => exact fun s => (hf s x).trans (ih _)

theorem State.leads_onTime (s : State) (f : TimeSt → TimeSt) (h : s.time.Leads (f s.time)) : s.Leads (s.onTime f) :=
  ⟨h, rfl⟩

theorem State.leads_setb_time (s : State) (a i : Nat) (x : Bool) (ha : a ≠ HST_TB_RATE) (hi : a = HST_TB_STATUS → i ≠ 3) :
    s.Leads (s.setb .time a i x) := ⟨s.time.leads_wrBit a i x ha hi, rfl⟩

theorem State.leads_wr_time (s : State) (a : Nat) (v : Word) (hr : a ≠ HST_TB_RATE) (hs : a ≠ HST_TB_STATUS) :
    s.Leads (s.wr .time a v) := ⟨s.time.leads_rset a v hr hs, rfl⟩

theorem State.leads_putState (s : State) (x : Nat) : s.Leads (s.put .time HST_TB_STATUS 1 0 x) :=
  ⟨s.time.leads_putState x, rfl⟩

theorem State.leads_putRate (s : State) (v : Word) : s.Leads (s.wr .time HST_TB_RATE (clipRate v).1) :=
  ⟨s.time.leads_putRate v, rfl⟩

theorem State.leads_store_time (s : State) {a : Nat} {row : RegRow} (h : regAt a = some (unitHst, row))
    (ha : a ≠ HST_TB_RATE) (v : Word) : s.Leads (s.store .time a v) := by
  rw [s.store_hst h]
  exact ⟨s.time.leads_writeReg h ha v, rfl⟩

theorem State.leads_latch (s : State) (fn a : Nat) (hi : Word) : s.Leads (s.latch fn a hi) :=
  ⟨TimeSt.leads_of_eq (Nat.le_refl _) rfl rfl rfl rfl, rfl⟩

theorem State.leads_accessErr (s : State) (i : Nat) (lo hi : Word) : s.Leads (s.accessErr i lo hi) := by
  have h := (s.leads_setb_time HST_ACCESS_ERR i true (by decide) (fun h => absurd h (by decide))).trans
    (State.leads_setb_time _ HST_ACCESS_ERR 0 true (by decide) (by decide))
  exact .ite h ((h.trans (State.leads_wr_time _ _ lo (by decide) (by decide))).trans
    (State.leads_wr_time _ _ hi (by decide) (by decide)))

/-! ### Register accesses -/

theorem State.leads_prodWrite (s : State) (id : Nat) (v : Word) : s.Leads (s.prodWrite id v) := by
  unfold State.prodWrite
  split
  · exact s.leads_accessErr _ _ _
  · exact .of_clock (by simp)

/-- While TB is disciplined a loss of the reference moves STATE and takes the mean rate, clipped (R350). -/
theorem State.leads_tbHold (s : State) : s.Leads s.tbHold := by
  unfold State.tbHold
  dsimp only
  split
  · exact ((s.leads_putState 3).then (State.clock_wr _ .cvn _ _ (by decide))).trans (State.leads_putRate _ _)
  · exact .refl s

theorem State.leads_failover (s : State) (old : Nat) : s.Leads (s.failover old) := by
  unfold State.failover
  dsimp only
  repeat' with_reducible refine .ite ?_ ?_
  · exact .refl s
  · exact .of_clock (by simp)
  · exact (State.leads_tbHold _).after (by simp)

theorem State.leads_spanLost (s : State) (p : Nat) : s.Leads (s.spanLost p) := by
  unfold State.spanLost
  dsimp only
  refine State.Leads.then (.ite ?_ ?_) (State.clock_oweChange _)
  · exact (State.leads_failover _ p).after (by simp)
  · exact .of_clock (by simp)

theorem State.leads_linkCheck (s s₀ : State) (p : Nat) : s.Leads (s.linkCheck s₀ p) :=
  .ite (s.leads_spanLost _) (.refl s)

theorem State.leads_ctrlWrite (s : State) (p : Nat) (v : Word) : s.Leads (s.ctrlWrite p v) :=
  (State.leads_linkCheck _ s p).after (s.clock_phyCtrlWrite p v)

theorem State.leads_phyWrite (s : State) (p o a : Nat) (v : Word) : s.Leads (s.phyWrite p o a v) :=
  .ite (s.leads_ctrlWrite p v) (.of_clock (by simp))

theorem State.leads_highWrite (s : State) (u : UnitRow) (n o a : Nat) (v : Word) (hu : u.blk ≠ .time) :
    s.Leads (s.highWrite u n o a v) := by
  unfold State.highWrite
  repeat' with_reducible refine .ite ?_ ?_
  any_goals (refine .of_clock ?_; simp [hu])
  · exact s.leads_accessErr _ _ _
  · exact s.leads_prodWrite n v
  · exact s.leads_phyWrite _ _ _ _

/-- A write to a register of a unit keeps the timebase going: the rate is clipped, a step is bounded, the status bits
other than SLEW_BUSY are the software's to clear. -/
theorem State.leads_unitWrite (s : State) {a : Nat} {u : UnitRow} {row : RegRow} (h : regAt a = some (u, row)) (v : Word) :
    s.Leads (s.unitWrite u (u.index a) ((a - u.base) % u.stride) a v) := by
  obtain ⟨hmem, hhas, -, -⟩ := regAt_eq_some h
  by_cases hbase : u.base = unitHst.base
  · obtain rfl := eq_unitHst_of_base u hmem hbase
    have hoff : (a - unitHst.base) % unitHst.stride = a := by
      simp [UnitRow.has, unitHst] at hhas ⊢
      omega
    simp only [State.unitWrite, hoff, if_true]
    by_cases ha : a = 0x18
    · rw [if_pos ha]
      exact s.leads_onTime _ (s.time.leads_rateWrite v)
    · rw [if_neg ha]
      refine .ite ?_ (.ite ?_ (s.leads_store_time h ha v))
      · exact s.leads_onTime _ (s.time.leads_stepWrite v)
      · exact s.leads_onTime _ (s.time.leads_ctrlWrite v)
  · have hblk := blk_ne_time_of_base u hmem hbase
    unfold State.unitWrite
    rw [if_neg hbase]
    repeat' with_reducible refine .ite ?_ ?_
    any_goals (refine .of_clock ?_; simp)
    · exact s.leads_phyWrite _ _ _ _
    · exact s.leads_highWrite u _ _ a v hblk

theorem State.leads_busWrite (s : State) (a : Nat) (v : Word) : s.Leads (s.busWrite a v) := by
  unfold State.busWrite
  split
  · exact s.leads_accessErr _ _ _
  · next h => exact s.leads_unitWrite h v

theorem State.leads_bar2Put (s : State) (a : Nat) (bs : List Byte) : s.Leads (s.bar2Put a bs) :=
  .ite (.refl s) (.ite (.of_clock (s.clock_ergWrite a bs)) (s.leads_accessErr _ _ _))

theorem State.leads_busRead (s : State) (fn a : Nat) : s.Leads (s.busRead fn a) := by
  unfold State.busRead
  split
  · exact .of_clock (by simp)
  · next u row _ =>
    extract_lets n o s₁
    have h : s.Leads s₁ := .ite (.of_clock (by simp)) (.refl s)
    refine h.trans ?_
    split
    · exact (s₁.leads_accessErr _ _ _).then (State.clock_answer _ _)
    · split
      · exact .of_clock (by simp)
      · split
        · exact ((State.leads_latch _ fn a _).then (State.clock_answer _ _)).after s₁.clock_rtcCount
        · split
          · exact (s₁.leads_latch fn a _).then (State.clock_answer _ _)
          · exact .of_clock (by simp)

theorem State.leads_remoteRead (s : State) (a : Nat) : s.Leads (s.remoteRead a) := by
  have h := s.leads_busRead 0 a
  unfold State.remoteRead
  dsimp only
  split
  · exact h.then (by simp)
  · exact h

theorem State.leads_remoteRun (s : State) (msg : CvnMsg) : s.Leads (s.remoteRun msg).1 := by
  unfold State.remoteRun
  extract_lets addr
  split
  · exact .refl s
  · split
    · exact .refl s
    · split
      · exact s.leads_busWrite _ _
      · exact s.leads_remoteRead _

/-! ### Time transfer (R350) -/

theorem State.leads_rateLaw (s : State) (e : Int) : s.Leads (s.rateLaw e) :=
  (s.leads_putRate _).then (State.clock_noteRate _ _)

/-- The step that LOCKING slews is below 1 ms behind and 1 us ahead, so it has a reading (R350). -/
theorem natAbs_idivRound_le {th : Int} (h₁ : th < 1000 * 512000) (h₂ : -1000000 * 512000 < th) :
    (idivRound th 512000 * 1024).natAbs ≤ 2 ^ 31 * 1024 := by
  unfold idivRound divRound
  split <;> omega

theorem State.leads_lockStep (s : State) (th e : Int) : s.Leads (s.lockStep th e) := by
  unfold State.lockStep
  dsimp only
  split
  · refine .ite (.of_clock (by simp)) (.ite (s.leads_rateLaw e) (.of_clock (by simp)))
  · split
    · exact (s.leads_onTime (fun t => t.jump _) (s.time.leads_jump _)).then (State.clock_noteRate _ _)
    · next hahead =>
      split
      · exact .of_clock (by simp)
      · next hbehind =>
        refine State.Leads.trans (.ite (.refl s) ?_) (State.leads_rateLaw _ e)
        exact s.leads_onTime _ (s.time.leads_withRem _ (natAbs_idivRound_le (by omega) (by omega)))

theorem State.leads_discipline (s : State) (th : Int) : s.Leads (s.discipline th) := by
  unfold State.discipline
  extract_lets st e relock s₁ n s₂ cvn s₃
  have h : s.Leads s₁ := .ite (.of_clock (by simp)) (.refl s)
  refine h.trans ?_
  split
  · exact s₁.leads_rateLaw e
  · have h₂ : s₂.Leads s₃ := .of_clock (by simp [s₃])
    exact ((s₁.leads_lockStep th e).trans h₂).trans (s₃.leads_putState _)

/-! ### Losses, faults and resets -/

theorem State.leads_lanesOff (s : State) : s.Leads s.lanesOff := by
  unfold State.lanesOff
  extract_lets s₁ s₂
  have h₁ : s.Leads s₁ := .of_clock (by simp [s₁])
  have h₂ : s₁.Leads s₂ := State.Leads.each _ (fun s p => (State.leads_linkCheck _ s _).after (by simp)) _ _
  exact (h₁.trans h₂).trans (.ite s₂.leads_tbHold (.refl s₂))

theorem State.leads_allSafe (s : State) : s.Leads s.allSafe :=
  .then (.after (State.leads_lanesOff _) (by simp)) (State.clock_attnSet _ 0)

theorem State.leads_fatal (s : State) (domain code inst detail : Nat) : s.Leads (s.fatal domain code inst detail) :=
  .ite (.after (State.leads_allSafe _) (State.clock_reportAt s _ _ _ _ _ _)) (.refl s)

theorem State.leads_standbyEnter (s : State) : s.Leads s.standbyEnter := by
  have h : s.Leads (s.each (List.range 8) (fun s n => s.pwmSettle n (halfNow s))).lanesOff :=
    .after (State.leads_lanesOff _) (by simp)
  exact h.then (by simp [State.standbyEnter])

theorem State.leads_warmNow (s : State) (causes : List Nat) : s.Leads (s.warmNow causes) := by
  have h : s.Leads { (s.warmSorting).warmRest (causes.contains 1) with time := s.time.afterWarm causes } :=
    ⟨s.time.leads_afterWarm causes, rfl⟩
  exact h.then (State.clock_loadSerials _)

theorem State.leads_warmReset (s : State) (cause : Nat) : s.Leads (s.warmReset cause) :=
  .ite (.refl s) (.ite (s.leads_onTime _ (TimeSt.leads_of_eq (Nat.le_refl _) rfl rfl rfl rfl)) (s.leads_warmNow _))

theorem State.leads_tbCycle (s : State) : s.Leads s.tbCycle :=
  .ite (s.leads_onTime _ s.time.leads_cycle) (.refl s)

end Sys2Proof.Machine

end

/-! ## The commands that leave the timebase and the queue alone -/

section

namespace Sys2Proof.Machine

/-- A command that answers a next state with the timebase and the queue of commands as they were. -/
def Steady (s : State) (o : Host.Outcome State Fault Refusal) : Prop := ∃ t, o = .next t ∧ t.clock = s.clock

theorem Steady.next {s t : State} (h : t.clock = s.clock) : Steady s (.next t) := ⟨t, rfl, h⟩

theorem steady_execFunctionLevelReset (fn : Fin 64) (s : State) : Steady s (execFunctionLevelReset fn s) :=
  .next (by simp)

theorem steady_execEncModeWrite (n : Fin 8) (v : Word) (s : State) : Steady s (execEncModeWrite n v s) :=
  .next (by simp)

theorem steady_execEncTransition (n : Fin 8) (s : State) : Steady s (execEncTransition n s) := by
  refine .next ?_
  dsimp only
  split <;> simp

theorem steady_execEncRawEdge (n : Fin 8) (pin : EncPin) (s : State) : Steady s (execEncRawEdge n pin s) :=
  .next (by simp)

theorem steady_execEncWindowEnd (n : Fin 8) (s : State) : Steady s (execEncWindowEnd n s) :=
  .next (by simp)

theorem steady_execEncIndex (n : Fin 8) (s : State) : Steady s (execEncIndex n s) :=
  .next (by simp)

theorem steady_execEncSnap (v : Word) (s : State) : Steady s (execEncSnap v s) :=
  .next (by simp)

theorem steady_execEncSet (n : Fin 8) (v : Word) (s : State) : Steady s (execEncSet n v s) :=
  .next (by simp)

theorem steady_execSpeedUpdate (n : Fin 8) (s : State) : Steady s (execSpeedUpdate n s) :=
  .next (by simp)

theorem steady_execStandstillTimeout (n : Fin 8) (s : State) : Steady s (execStandstillTimeout n s) :=
  .next (by simp)

theorem steady_execSsiWordStart (n : Fin 8) (dataHigh : Bool) (s : State) :
    Steady s (execSsiWordStart n dataHigh s) :=
  .next (by simp)

theorem steady_execSsiWordEnd (n : Fin 8) (word : List Bool) (delay : Nat) (returnedHigh : Bool) (s : State) :
    Steady s (execSsiWordEnd n word delay returnedHigh s) := by
  refine .next ?_
  dsimp only
  split <;> simp

theorem steady_execMsOffsetTrack (m : Fin 8) (s : State) : Steady s (execMsOffsetTrack m s) :=
  .next (by simp)

theorem steady_execMsInputWrite (m : Fin 8) (sec : Bool) (v : Word) (s : State) :
    Steady s (execMsInputWrite m sec v s) :=
  .next (by simp)

theorem steady_execMsHoldEnd (m : Fin 8) (s : State) : Steady s (execMsHoldEnd m s) := by
  refine .next ?_
  split <;> simp

theorem steady_execTriggerDue (g : Fin 96) (s : State) : Steady s (execTriggerDue g s) := by
  refine .next ?_
  split <;> simp

theorem steady_execTrgCtrlWrite (g : Fin 96) (v : Word) (s : State) : Steady s (execTrgCtrlWrite g v s) :=
  .next (by simp)

theorem steady_execTrgNextWrite (g : Fin 96) (v : Word) (s : State) : Steady s (execTrgNextWrite g v s) :=
  .next (by simp)

theorem steady_execTrgPortWrite (p : Fin 24) (v : Word) (s : State) : Steady s (execTrgPortWrite p v s) :=
  .next (by simp)

theorem steady_execTrigPinEdge (k : Fin 16) (level : Bool) (first : BitVec 64) (s : State) :
    Steady s (execTrigPinEdge k level first s) :=
  .next (by simp)

theorem steady_execTrigPinPulseEnd (k : Fin 16) (s : State) : Steady s (execTrigPinPulseEnd k s) :=
  .next (by simp)

theorem steady_execStampQuery (v : Word) (s : State) : Steady s (execStampQuery v s) :=
  .next (by simp)

theorem steady_execBcTrainingFrame (p : Fin 28) (s : State) : Steady s (execBcTrainingFrame p s) :=
  .next (by simp)

theorem steady_execRxTrainingFrame (p : Fin 28) (lane : Fin 2) (status : BitVec 48) (crc : BitVec 16) (inverted : Bool)
    (request : Option (BitVec 64)) (s : State) :
    Steady s (execRxTrainingFrame p lane status crc inverted request s) := by
  refine .next ?_
  cases request <;> simp

theorem steady_execSigDetected (p : Fin 28) (lane : Fin 2) (s : State) : Steady s (execSigDetected p lane s) :=
  .next (by simp)

theorem steady_execCdrLock (p : Fin 28) (lane : Fin 2) (s : State) : Steady s (execCdrLock p lane s) :=
  .next (by simp)

theorem steady_execCoefTimeout (p : Fin 28) (s : State) : Steady s (execCoefTimeout p s) := by
  refine .next ?_
  split <;> simp

theorem steady_execTuneStepEnd (p : Fin 28) (eyes : List (Nat × Nat × Nat)) (up : Bool) (s : State) :
    Steady s (execTuneStepEnd p eyes up s) := by
  refine .next ?_
  repeat' split
  all_goals simp

theorem steady_execDeskewDone (p : Fin 28) (s : State) : Steady s (execDeskewDone p s) :=
  .next (by simp)

theorem steady_execTrainTimeout (p : Fin 28) (s : State) : Steady s (execTrainTimeout p s) := by
  refine .next ?_
  split <;> simp

theorem steady_execBackoffEnd (p : Fin 28) (s : State) : Steady s (execBackoffEnd p s) :=
  .next (by simp)

theorem steady_execUnplug (p : Fin 28) (lane : Fin 2) (s : State) : Steady s (execUnplug p lane s) :=
  .next (by simp)

theorem steady_execAdaptUpdate (p : Fin 28) (lane : Fin 2) (moves : List Move) (s : State) :
    Steady s (execAdaptUpdate p lane moves s) :=
  .next (by simp)

theorem steady_execEqRegWrite (p : Fin 28) (lane : Fin 2) (reg : EqReg) (v : Word) (s : State) :
    Steady s (execEqRegWrite p lane reg v s) :=
  .next (by simp)

theorem steady_execRecoverDone (p : Fin 28) (s : State) : Steady s (execRecoverDone p s) :=
  .next (by simp)

theorem steady_execDlRefclkLoss (r : Fin 3) (s : State) : Steady s (execDlRefclkLoss r s) :=
  .next (by simp)

theorem steady_execDlRefclkReturn (r : Fin 3) (s : State) : Steady s (execDlRefclkReturn r s) :=
  .next (by simp)

theorem steady_execQuietAckTimeout (p : Fin 24) (s : State) : Steady s (execQuietAckTimeout p s) := by
  refine .next ?_
  split <;> simp

theorem steady_execQuietExit (p : Fin 24) (how : QuietExit) (s : State) : Steady s (execQuietExit p how s) := by
  refine .next ?_
  repeat' split
  all_goals simp

theorem steady_execQuietExitDone (p : Fin 24) (s : State) : Steady s (execQuietExitDone p s) :=
  .next (by simp)

theorem steady_execEscanStart (p : Fin 28) (lane : Fin 2) (v : Word) (s : State) :
    Steady s (execEscanStart p lane v s) :=
  .next (by simp)

theorem steady_execEscanAbort (p : Fin 28) (lane : Fin 2) (samples : List (Fin 4 × Bool)) (s : State) :
    Steady s (execEscanAbort p lane samples s) :=
  .next (by simp)

theorem steady_execEscanDone (p : Fin 28) (lane : Fin 2) (samples : List (Fin 4 × Bool)) (s : State) :
    Steady s (execEscanDone p lane samples s) :=
  .next (by simp)

theorem steady_execPrbsCtrlWrite (p : Fin 28) (lane : Fin 2) (v : Word) (s : State) :
    Steady s (execPrbsCtrlWrite p lane v s) :=
  .next (by simp)

theorem steady_execPrbsLock (p : Fin 28) (lane : Fin 2) (decisions : List (Fin 4)) (s : State) :
    Steady s (execPrbsLock p lane decisions s) :=
  .next (by simp)

theorem steady_execPrbsUnlock (p : Fin 28) (lane : Fin 2) (decisions : List (Fin 4)) (s : State) :
    Steady s (execPrbsUnlock p lane decisions s) :=
  .next (by simp)

theorem steady_execRxCodeword (p : Fin 28) (lane : Fin 2) (decisions : BitVec 5440) (s : State) :
    Steady s (execRxCodeword p lane decisions s) :=
  .next (by simp)

theorem steady_execFecCwClear (p : Fin 24) (lane : Fin 2) (s : State) : Steady s (execFecCwClear p lane s) :=
  .next (by simp)

theorem steady_execRxBlock (p : Fin 28) (s : State) : Steady s (execRxBlock p s) := by
  refine .next ?_
  split <;> simp

theorem steady_execRxPacket (p : Fin 24) (s : State) : Steady s (execRxPacket p s) := by
  refine .next ?_
  split <;> simp

theorem steady_execRxLctl (p : Fin 24) (s : State) : Steady s (execRxLctl p s) := by
  refine .next ?_
  split <;> simp

theorem steady_execBcBlock (p : Fin 24) (s : State) : Steady s (execBcBlock p s) :=
  .next (by simp)

theorem steady_execRegGo (p : Fin 24) (v : Word) (s : State) : Steady s (execRegGo p v s) :=
  .next (by simp)

theorem steady_execRegTimeout (p : Fin 24) (s : State) : Steady s (execRegTimeout p s) := by
  refine .next ?_
  split <;> simp

theorem steady_execPixSrcWrite (t : Fin 96) (v : Word) (s : State) : Steady s (execPixSrcWrite t v s) :=
  .next (by simp)

theorem steady_execStreamLineJoin (t : Fin 96) (s : State) : Steady s (execStreamLineJoin t s) :=
  .next (by simp)

theorem steady_execJoinTimeout (t : Fin 96) (s : State) : Steady s (execJoinTimeout t s) := by
  refine .next ?_
  dsimp only
  repeat' split
  all_goals simp

theorem steady_execPipelineLine (t : Fin 96) (s : State) : Steady s (execPipelineLine t s) := by
  refine .next ?_
  split <;> simp

theorem steady_execPixArm (t : Fin 96) (s : State) : Steady s (execPixArm t s) :=
  .next (by simp)

theorem steady_execPixDisarm (t : Fin 96) (s : State) : Steady s (execPixDisarm t s) :=
  .next (by simp)

theorem steady_execShadowWrite (t : Fin 96) (k : Fin 128) (v : Word) (s : State) :
    Steady s (execShadowWrite t k v s) :=
  .next (by simp)

theorem steady_execPixTblLoad (t : Fin 96) (v : Word) (s : State) : Steady s (execPixTblLoad t v s) :=
  .next (by simp)

theorem steady_execPixTblLoadDone (t : Fin 96) (s : State) : Steady s (execPixTblLoadDone t s) := by
  refine .next ?_
  split <;> simp

theorem steady_execClsTblLoad (t : Fin 96) (v : Word) (s : State) : Steady s (execClsTblLoad t v s) :=
  .next (by simp)

theorem steady_execClsTblLoadDone (t : Fin 96) (s : State) : Steady s (execClsTblLoadDone t s) := by
  refine .next ?_
  split <;> simp

theorem steady_execObjOpenWrite (t : Fin 96) (s : State) : Steady s (execObjOpenWrite t s) :=
  .next (by simp)

theorem steady_execViewForm (t : Fin 96) (err : Fin 3) (s : State) : Steady s (execViewForm t err s) :=
  .next (by simp)

theorem steady_execPairWaitExpired (t : Fin 96) (s : State) : Steady s (execPairWaitExpired t s) := by
  refine .next ?_
  split <;> simp

theorem steady_execCutoutWriteStart (t : Fin 96) (s : State) : Steady s (execCutoutWriteStart t s) := by
  refine .next ?_
  split <;> simp

theorem steady_execCutoutWriteDone (t : Fin 96) (s : State) : Steady s (execCutoutWriteDone t s) := by
  refine .next ?_
  split <;> simp

theorem steady_execCutoutLate (t : Fin 96) (s : State) : Steady s (execCutoutLate t s) := by
  refine .next ?_
  split <;> simp

theorem steady_execRecordRelease (t : Fin 96) (s : State) : Steady s (execRecordRelease t s) := by
  refine .next ?_
  split <;> simp

theorem steady_execHostVerdict (s : State) : Steady s (execHostVerdict s) := by
  refine .next ?_
  dsimp only
  repeat' split
  all_goals simp

theorem steady_execDecisionPoint (h : BitVec 64) (s : State) : Steady s (execDecisionPoint h s) := by
  refine .next ?_
  split <;> simp

theorem steady_execSettledCopy (h : BitVec 64) (s : State) : Steady s (execSettledCopy h s) := by
  refine .next ?_
  split <;> simp

theorem steady_execPendingExpire (h : BitVec 64) (s : State) : Steady s (execPendingExpire h s) :=
  .next (by simp)

theorem steady_execEjtTblLoad (v : Word) (s : State) : Steady s (execEjtTblLoad v s) :=
  .next (by simp)

theorem steady_execEjtTblLoadDone (s : State) : Steady s (execEjtTblLoadDone s) := by
  refine .next ?_
  split <;> simp

theorem steady_execEjtTblSwap (v : Word) (s : State) : Steady s (execEjtTblSwap v s) :=
  .next (by simp)

theorem steady_execEjtPendPeakWrite (s : State) : Steady s (execEjtPendPeakWrite s) :=
  .next (by simp)

theorem steady_execEjFrame (n : Fin 8) (s : State) : Steady s (execEjFrame n s) :=
  .next (by simp)

theorem steady_execEjReturnFrame (n : Fin 8) (frame : BitVec 64) (s : State) :
    Steady s (execEjReturnFrame n frame s) :=
  .next (by simp)

theorem steady_execEjRetLost (n : Fin 8) (s : State) : Steady s (execEjRetLost n s) :=
  .next (by simp)

theorem steady_execPwmReload (n : Fin 8) (s : State) : Steady s (execPwmReload n s) := by
  refine .next ?_
  dsimp only
  split <;> simp

theorem steady_execPwmStrobeEvent (n : Fin 8) (s : State) : Steady s (execPwmStrobeEvent n s) := by
  refine .next ?_
  split <;> simp

theorem steady_execPwmCycleEnd (n : Fin 8) (s : State) : Steady s (execPwmCycleEnd n s) := by
  refine .next ?_
  split <;> simp

theorem steady_execPwmShadowWrite (n : Fin 8) (k : Fin 5) (v : Word) (s : State) :
    Steady s (execPwmShadowWrite n k v s) :=
  .next (by simp)

theorem steady_execPwmOc (n : Fin 8) (level : Bool) (first : BitVec 64) (s : State) :
    Steady s (execPwmOc n level first s) :=
  .next (by simp)

theorem steady_execPwmSc (n : Fin 8) (level : Bool) (first : BitVec 64) (s : State) :
    Steady s (execPwmSc n level first s) :=
  .next (by simp)

theorem steady_execPwmClear (n : Fin 8) (s : State) : Steady s (execPwmClear n s) :=
  .next (by simp)

theorem steady_execPwmGrpClear (g : Fin 2) (s : State) : Steady s (execPwmGrpClear g s) :=
  .next (by simp)

theorem steady_execStripSlot (q : Fin 33) (s : State) : Steady s (execStripSlot q s) :=
  .next (by simp)

theorem steady_execLineSlot (q : Fin 33) (s : State) : Steady s (execLineSlot q s) :=
  .next (by simp)

theorem steady_execEventSlot (q : Fin 33) (s : State) : Steady s (execEventSlot q s) :=
  .next (by simp)

theorem steady_execTickSlot (q : Fin 33) (s : State) : Steady s (execTickSlot q s) := by
  refine .next ?_
  split <;> simp

theorem steady_execSlotBudgetExpired (q : Fin 33) (s : State) : Steady s (execSlotBudgetExpired q s) := by
  refine .next ?_
  split <;> simp

theorem steady_execNop (q : Fin 33) (s : State) : Steady s (execNop q s) :=
  .next (by simp)

theorem steady_execEndSlot (q : Fin 33) (s : State) : Steady s (execEndSlot q s) := by
  refine .next ?_
  split <;> simp

theorem steady_execMovi (q : Fin 33) (d : Fin 16) (imm : Word) (s : State) : Steady s (execMovi q d imm s) :=
  .next (by simp)

theorem steady_execMov (q : Fin 33) (d a : Fin 16) (s : State) : Steady s (execMov q d a s) :=
  .next (by simp)

theorem steady_execAddi (q : Fin 33) (d a : Fin 16) (imm : Word) (s : State) : Steady s (execAddi q d a imm s) :=
  .next (by simp)

theorem steady_execAdd (q : Fin 33) (d a b : Fin 16) (s : State) : Steady s (execAdd q d a b s) :=
  .next (by simp)

theorem steady_execSub (q : Fin 33) (d a b : Fin 16) (s : State) : Steady s (execSub q d a b s) :=
  .next (by simp)

theorem steady_execAdds (q : Fin 33) (d a : Fin 16) (imm : Word) (s : State) : Steady s (execAdds q d a imm s) :=
  .next (by simp)

theorem steady_execAnd (q : Fin 33) (d a b : Fin 16) (s : State) : Steady s (execAnd q d a b s) :=
  .next (by simp)

theorem steady_execOr (q : Fin 33) (d a b : Fin 16) (s : State) : Steady s (execOr q d a b s) :=
  .next (by simp)

theorem steady_execXor (q : Fin 33) (d a b : Fin 16) (s : State) : Steady s (execXor q d a b s) :=
  .next (by simp)

theorem steady_execShl (q : Fin 33) (d a : Fin 16) (n : Fin 32) (s : State) : Steady s (execShl q d a n s) :=
  .next (by simp)

theorem steady_execShr (q : Fin 33) (d a : Fin 16) (n : Fin 32) (s : State) : Steady s (execShr q d a n s) :=
  .next (by simp)

theorem steady_execAndi (q : Fin 33) (d a : Fin 16) (imm : Word) (s : State) : Steady s (execAndi q d a imm s) :=
  .next (by simp)

theorem steady_execLds (q : Fin 33) (d : Fin 16) (t : Fin 128) (sel : Fin 15) (arg : Byte) (s : State) :
    Steady s (execLds q d t sel arg s) :=
  .next (by simp)

theorem steady_execStamp (q : Fin 33) (d : Fin 16) (s : State) : Steady s (execStamp q d s) :=
  .next (by simp)

theorem steady_execBr (q : Fin 33) (t : Fin 4096) (s : State) : Steady s (execBr q t s) :=
  .next (by simp)

theorem steady_execBcmp (q : Fin 33) (a b : Fin 16) (t : Fin 4096) (cond : Fin 6) (i : Bool) (imm : BitVec 27) (s : State) :
    Steady s (execBcmp q a b t cond i imm s) :=
  .next (by simp)

theorem steady_execBbs (q : Fin 33) (a : Fin 16) (t : Fin 4096) (n : Fin 32) (s : State) :
    Steady s (execBbs q a t n s) :=
  .next (by simp)

theorem steady_execBbc (q : Fin 33) (a : Fin 16) (t : Fin 4096) (n : Fin 32) (s : State) :
    Steady s (execBbc q a t n s) :=
  .next (by simp)

theorem steady_execBev (q : Fin 33) (t : Fin 4096) (consume : Bool) (i : Fin 8) (s : State) :
    Steady s (execBev q t consume i s) := by
  refine .next ?_
  split <;> simp

theorem steady_execLoop (q : Fin 33) (t : Fin 4096) (n : Fin 512) (s : State) : Steady s (execLoop q t n s) := by
  refine .next ?_
  split <;> simp

theorem steady_execWaitev (q : Fin 33) (t : Fin 4096) (limit : BitVec 20) (consume : Bool) (i : Fin 8) (s : State) :
    Steady s (execWaitev q t limit consume i s) := by
  refine .next ?_
  split <;> simp

theorem steady_execWaitevTimeout (q : Fin 33) (t : Fin 4096) (limit : BitVec 20) (consume : Bool) (i : Fin 8) (s : State) :
    Steady s (execWaitevTimeout q t limit consume i s) := by
  refine .next ?_
  split <;> simp

theorem steady_execTrig (q : Fin 33) (t : Fin 96) (delay : BitVec 20) (s : State) : Steady s (execTrig q t delay s) :=
  .next (by simp)

theorem steady_execArm (q : Fin 33) (t : Fin 96) (disarm : Bool) (s : State) : Steady s (execArm q t disarm s) :=
  .next (by simp)

theorem steady_execCtx (q : Fin 33) (t : Fin 96) (ctx : Fin 4) (s : State) : Steady s (execCtx q t ctx s) :=
  .next (by simp)

theorem steady_execShw (q : Fin 33) (t : Fin 96) (a : Fin 16) (k : Fin 128) (s : State) :
    Steady s (execShw q t a k s) :=
  .next (by simp)

theorem steady_execRoute (q : Fin 33) (t : Fin 96) (index : Fin 16) (kind : Fin 3) (s : State) :
    Steady s (execRoute q t index kind s) :=
  .next (by simp)

theorem steady_execDmaq (q : Fin 33) (a b : Fin 16) (psrc pdst : Bool) (tmpl : Fin 1024) (ch : Fin 64) (s : State) :
    Steady s (execDmaq q a b psrc pdst tmpl ch s) :=
  .next (by simp)

theorem steady_execPub (q : Fin 33) (a : Fin 16) (ch : Fin 256) (s : State) : Steady s (execPub q a ch s) :=
  .next (by simp)

theorem steady_execTrace (q : Fin 33) (a : Fin 16) (imm : BitVec 16) (s : State) : Steady s (execTrace q a imm s) :=
  .next (by simp)

theorem steady_execSeqIllegal (q : Fin 33) (s : State) : Steady s (execSeqIllegal q s) := by
  refine .next ?_
  repeat' split
  all_goals simp

theorem steady_execSeqEcc (q : Fin 33) (double : Bool) (s : State) : Steady s (execSeqEcc q double s) := by
  refine .next ?_
  split <;> simp

theorem steady_execSeqRestart (q : Fin 33) (hof : Bool) (s : State) : Steady s (execSeqRestart q hof s) :=
  .next (by simp)

theorem steady_execSeqInit (q : Fin 33) (hof : Bool) (s : State) : Steady s (execSeqInit q hof s) :=
  .next (by simp)

theorem steady_execSeqPeakWrite (q : Fin 33) (kind : Fin 4) (s : State) : Steady s (execSeqPeakWrite q kind s) :=
  .next (by simp)

theorem steady_execImgLoad (s : State) : Steady s (execImgLoad s) := by
  refine .next (State.clock_mbxRun _ _ _ fun s => ?_)
  dsimp only
  split <;> simp

theorem steady_execImgSwap (s : State) : Steady s (execImgSwap s) := by
  refine .next (State.clock_mbxRun _ _ _ fun s => ?_)
  dsimp only
  repeat' split
  all_goals simp

theorem steady_execSwapTblCopyDone (s : State) : Steady s (execSwapTblCopyDone s) := by
  refine .next ?_
  split <;> simp

theorem steady_execSeqBankSwitch (q : Fin 33) (s : State) : Steady s (execSeqBankSwitch q s) :=
  .next (by simp)

theorem steady_execPcieReady (cfg : PcieCfg) (s : State) : Steady s (execPcieReady cfg s) :=
  .next (by simp)

theorem steady_execPcieLinkDown (s : State) : Steady s (execPcieLinkDown s) :=
  .next (by simp)

theorem steady_execPcieLinkUp (cfg : PcieCfg) (s : State) : Steady s (execPcieLinkUp cfg s) :=
  .next (by simp)

theorem steady_execPcieRefclkLoss (s : State) : Steady s (execPcieRefclkLoss s) :=
  .next (by simp)

theorem steady_execPcieRefclkReturn (s : State) : Steady s (execPcieRefclkReturn s) :=
  .next (by simp)

theorem steady_execStreamReset (s : State) : Steady s (execStreamReset s) := by
  refine .next (State.clock_mbxRun _ _ _ fun s => ?_)
  repeat' split
  all_goals simp

theorem steady_execClientBind (numVfs : Fin 64) (s : State) : Steady s (execClientBind numVfs s) := by
  refine .next ((State.clock_mbxRun _ _ _ fun s => ?_).trans (by simp))
  dsimp only
  repeat' split
  all_goals simp

theorem steady_execClientUnbind (s : State) : Steady s (execClientUnbind s) := by
  refine .next (State.clock_mbxRun _ _ _ fun s => ?_)
  dsimp only
  repeat' split
  all_goals simp

theorem steady_execQuotaSet (s : State) : Steady s (execQuotaSet s) := by
  refine .next (State.clock_mbxRun _ _ _ fun s => ?_)
  dsimp only
  repeat' split
  all_goals simp

theorem steady_execChanBind (s : State) : Steady s (execChanBind s) := by
  refine .next (State.clock_mbxRun _ _ _ fun s => ?_)
  dsimp only
  repeat' split
  all_goals simp

theorem steady_execFuncVectors (vfEnable : Bool) (s : State) : Steady s (execFuncVectors vfEnable s) := by
  refine .next ((State.clock_mbxRun _ _ _ fun s => ?_).trans (by simp))
  dsimp only
  repeat' split
  all_goals simp

theorem steady_execPortCtrl (s : State) : Steady s (execPortCtrl s) :=
  .next (by simp)

theorem steady_execPower (s : State) : Steady s (execPower s) :=
  .next (by simp)

theorem steady_execKeyProgram (s : State) : Steady s (execKeyProgram s) := by
  refine .next (State.clock_mbxRun _ _ _ fun s => ?_)
  dsimp only
  repeat' split
  all_goals simp

theorem steady_execFwLoad (authentic : Bool) (s : State) : Steady s (execFwLoad authentic s) := by
  refine .next ?_
  split <;> simp

theorem steady_execErgAlloc (s : State) : Steady s (execErgAlloc s) := by
  refine .next (State.clock_mbxRun _ _ _ fun s => ?_)
  dsimp only
  repeat' split
  all_goals simp

theorem steady_execErgFree (s : State) : Steady s (execErgFree s) := by
  refine .next (State.clock_mbxRun _ _ _ fun s => ?_)
  dsimp only
  repeat' split
  all_goals simp

theorem steady_execErgPin (s : State) : Steady s (execErgPin s) := by
  refine .next (State.clock_mbxRun _ _ _ fun s => ?_)
  dsimp only
  split <;> simp

theorem steady_execErgUnpin (s : State) : Steady s (execErgUnpin s) := by
  refine .next (State.clock_mbxRun _ _ _ fun s => ?_)
  dsimp only
  split <;> simp

theorem steady_execLookbackGet (s : State) : Steady s (execLookbackGet s) :=
  .next (by simp)

theorem steady_execSpanEnum (s : State) : Steady s (execSpanEnum s) := by
  refine .next (State.clock_mbxRun _ _ _ fun s => ?_)
  dsimp only
  repeat' split
  all_goals simp

theorem steady_execMbxUnknownOpcode (s : State) : Steady s (execMbxUnknownOpcode s) := by
  refine .next ?_
  split <;> simp

theorem steady_execMbxBusyWrite (s : State) : Steady s (execMbxBusyWrite s) :=
  .next (by simp)

theorem steady_execMbxDone (s : State) : Steady s (execMbxDone s) := by
  refine .next ?_
  dsimp only
  repeat' split
  all_goals simp

theorem steady_execMbxTimeout (s : State) : Steady s (execMbxTimeout s) := by
  refine .next ?_
  split <;> simp

theorem steady_execClientCtrlWrite (c : Fin 1024) (v : Word) (s : State) : Steady s (execClientCtrlWrite c v s) :=
  .next (by simp)

theorem steady_execConsDoorbell (c : Fin 1024) (r : Fin 5) (v : Word) (s : State) :
    Steady s (execConsDoorbell c r v s) :=
  .next (by simp)

theorem steady_execVerdictDoorbell (c : Fin 1024) (v : Word) (s : State) : Steady s (execVerdictDoorbell c v s) :=
  .next (by simp)

theorem steady_execDescDoorbell (c : Fin 1024) (v : Word) (s : State) : Steady s (execDescDoorbell c v s) :=
  .next (by simp)

theorem steady_execDmaPause (ch : Fin 64) (s : State) : Steady s (execDmaPause ch s) :=
  .next (by simp)

theorem steady_execDmaUnpause (ch : Fin 64) (s : State) : Steady s (execDmaUnpause ch s) :=
  .next (by simp)

theorem steady_execDmaResume (ch : Fin 64) (s : State) : Steady s (execDmaResume ch s) :=
  .next (by simp)

theorem steady_execDmaAbort (ch : Fin 64) (s : State) : Steady s (execDmaAbort ch s) :=
  .next (by simp)

theorem steady_execDmaCmdReject (c : Fin 1024) (v : Word) (s : State) : Steady s (execDmaCmdReject c v s) :=
  .next (by simp)

theorem steady_execHeartbeat (c : Fin 1024) (s : State) : Steady s (execHeartbeat c s) :=
  .next (by simp)

theorem steady_execIntTimeExpire (c : Fin 1024) (s : State) : Steady s (execIntTimeExpire c s) := by
  refine .next ?_
  split <;> simp

theorem steady_execRecordDeliver (t : Fin 96) (s : State) : Steady s (execRecordDeliver t s) :=
  .next (by simp)

theorem steady_execGapWrite (c : Fin 1024) (r : Fin 5) (s : State) : Steady s (execGapWrite c r s) :=
  .next (by simp)

theorem steady_execStagingHoldExpire (t : Fin 96) (s : State) : Steady s (execStagingHoldExpire t s) :=
  .next (by simp)

theorem steady_execDataCopyDone (t : Fin 96) (stat : Bool) (s : State) : Steady s (execDataCopyDone t stat s) :=
  .next (by simp)

theorem steady_execVerdictFetch (c : Fin 1024) (entries : List (BitVec 128)) (late : Nat) (s : State) :
    Steady s (execVerdictFetch c entries late s) :=
  .next (by simp)

theorem steady_execDescFetch (c : Fin 1024) (desc : BitVec 512) (late : Nat) (s : State) :
    Steady s (execDescFetch c desc late s) :=
  .next (by simp)

theorem steady_execDmaBurst (ch : Fin 64) (len : Nat) (data : List Byte) (late : Nat) (s : State) :
    Steady s (execDmaBurst ch len data late s) :=
  .next (by simp)

theorem steady_execDmaRequestFail (ch : Fin 64) (cause : Fin 6) (s : State) :
    Steady s (execDmaRequestFail ch cause s) := by
  refine .next ?_
  repeat' split
  all_goals simp

theorem steady_execDmaComplete (ch : Fin 64) (s : State) : Steady s (execDmaComplete ch s) :=
  .next (by simp)

theorem steady_execSegmentZeroDone (seg : Nat) (s : State) : Steady s (execSegmentZeroDone seg s) :=
  .next (by simp)

theorem steady_execErgScrubBlock (addr : Nat) (err : Fin 3) (s : State) : Steady s (execErgScrubBlock addr err s) :=
  .next (by simp)

theorem steady_execErgWriteFail (addr : Nat) (w : ErgWriter) (s : State) : Steady s (execErgWriteFail addr w s) := by
  refine .next ?_
  repeat' split
  all_goals simp

theorem steady_execStackFail (k : Fin 2) (training : Bool) (s : State) : Steady s (execStackFail k training s) :=
  .next (by simp)

theorem steady_execQueueFlush (q : Fin 384) (s : State) : Steady s (execQueueFlush q s) :=
  .next (by simp)

theorem steady_execQueueHostpopWrite (q : Fin 384) (v : Word) (s : State) : Steady s (execQueueHostpopWrite q v s) :=
  .next (by simp)

theorem steady_execQueuePop (q : Fin 384) (err : Fin 3) (s : State) : Steady s (execQueuePop q err s) :=
  .next (by simp)

theorem steady_execQueuePopTimeout (q : Fin 384) (s : State) : Steady s (execQueuePopTimeout q s) := by
  refine .next ?_
  split <;> simp

theorem steady_execCmpSubmit (e : Fin 4) (v : Word) (s : State) : Steady s (execCmpSubmit e v s) :=
  .next (by simp)

theorem steady_execCmpJobStart (e : Fin 4) (s : State) : Steady s (execCmpJobStart e s) := by
  refine .next ?_
  split <;> simp

theorem steady_execCmpJobEnd (e : Fin 4) (raw : List Byte) (s : State) : Steady s (execCmpJobEnd e raw s) :=
  .next (by simp)

theorem steady_execCmpFlush (e : Fin 4) (s : State) : Steady s (execCmpFlush e s) :=
  .next (by simp)

theorem steady_execCmpAbort (e : Fin 4) (s : State) : Steady s (execCmpAbort e s) :=
  .next (by simp)

theorem steady_execEvtPub (v : Word) (s : State) : Steady s (execEvtPub v s) :=
  .next (by simp)

theorem steady_execEvtChCtrlWrite (c : Fin 256) (v : Word) (s : State) : Steady s (execEvtChCtrlWrite c v s) :=
  .next (by simp)

theorem steady_execEvtLock (c : Fin 256) (s : State) : Steady s (execEvtLock c s) :=
  .next (by simp)

theorem steady_execEvtRateWrite (c : Fin 256) (v : Word) (s : State) : Steady s (execEvtRateWrite c v s) :=
  .next (by simp)

theorem steady_execEventEnter (c : Fin 256) (s : State) : Steady s (execEventEnter c s) := by
  refine .next ?_
  split <;> simp

theorem steady_execEventDeliver (c : Fin 256) (s : State) : Steady s (execEventDeliver c s) := by
  refine .next ?_
  split <;> simp

theorem steady_execEvtWatchExpire (c : Fin 256) (s : State) : Steady s (execEvtWatchExpire c s) :=
  .next (by simp)

theorem steady_execCellEval (k : Fin 32) (s : State) : Steady s (execCellEval k s) :=
  .next (by simp)

theorem steady_execCellStuck (k : Fin 32) (s : State) : Steady s (execCellStuck k s) := by
  refine .next ?_
  split <;> simp

theorem steady_execCvnCellTx (p : Fin 4) (fine : Byte) (s : State) : Steady s (execCvnCellTx p fine s) := by
  refine .next ?_
  repeat' split
  all_goals simp

theorem steady_execCvnIdleSync (p : Fin 4) (s : State) : Steady s (execCvnIdleSync p s) :=
  .next (by simp)

theorem steady_execCvnCellRx (p : Fin 4) (msg : CvnMsg) (fine : Byte) (s : State) :
    Steady s (execCvnCellRx p msg fine s) := by
  refine .next ?_
  repeat' split
  all_goals simp

theorem steady_execReroute (p : Fin 4) (s : State) : Steady s (execReroute p s) := by
  refine .next ?_
  split
  · next h =>
    have ht := State.clock_cvTake _ _ _ _ h
    dsimp only
    repeat' split
    all_goals simpa using ht
  · next h => exact State.clock_cvTake _ _ _ _ h
  · rfl

theorem steady_execCvRefclkReturn (s : State) : Steady s (execCvRefclkReturn s) :=
  .next (by simp)

theorem steady_execEnumAutoStart (s : State) : Steady s (execEnumAutoStart s) := by
  refine .next ?_
  split <;> simp

theorem steady_execChange (s : State) : Steady s (execChange s) :=
  .next (by simp)

theorem steady_execProbe (p : Fin 4) (s : State) : Steady s (execProbe p s) := by
  refine .next ?_
  split
  · rfl
  split
  · next h =>
    have ht := State.clock_cvTake _ _ _ _ h
    split <;> simpa using ht
  · next h => exact State.clock_cvTake _ _ _ _ h
  · rfl

theorem steady_execProbeTimeout (s : State) : Steady s (execProbeTimeout s) := by
  refine .next ?_
  repeat' split
  all_goals simp

theorem steady_execToken (p : Fin 4) (s : State) : Steady s (execToken p s) := by
  refine .next ?_
  split
  · rfl
  split
  · next h =>
    have ht := State.clock_cvTake _ _ _ _ h
    simpa using ht
  · next h => exact State.clock_cvTake _ _ _ _ h
  · rfl

theorem steady_execEnumReturn (p : Fin 4) (s : State) : Steady s (execEnumReturn p s) := by
  refine .next ?_
  split
  · next h =>
    have ht := State.clock_cvTake _ _ _ _ h
    dsimp only
    repeat' split
    all_goals simpa using ht
  · next h => exact State.clock_cvTake _ _ _ _ h
  · rfl

theorem steady_execProgress (s : State) : Steady s (execProgress s) := by
  refine .next ?_
  dsimp only
  repeat' split
  all_goals simp

theorem steady_execEnumBranchAbort (s : State) : Steady s (execEnumBranchAbort s) := by
  refine .next ?_
  repeat' split
  all_goals simp

theorem steady_execCommit (p : Fin 4) (s : State) : Steady s (execCommit p s) := by
  refine .next ?_
  split
  · next h =>
    have ht := State.clock_cvTake _ _ _ _ h
    split <;> simpa using ht
  · next h => exact State.clock_cvTake _ _ _ _ h
  · rfl

theorem steady_execRouteTableExpire (s : State) : Steady s (execRouteTableExpire s) := by
  refine .next ?_
  split <;> simp

theorem steady_execSyncReqSend (p : Fin 4) (s : State) : Steady s (execSyncReqSend p s) :=
  .next (by simp)

theorem steady_execSyncReqRx (p : Fin 4) (s : State) : Steady s (execSyncReqRx p s) := by
  refine .next ?_
  split <;> simp

theorem steady_execPosExport (n : Fin 8) (s : State) : Steady s (execPosExport n s) :=
  .next (by simp)

theorem steady_execPosRx (p : Fin 4) (s : State) : Steady s (execPosRx p s) := by
  refine .next ?_
  split
  · next h => simp [State.clock_cvTake _ _ _ _ h]
  · rfl

theorem steady_execPosInputTimeout (dev : Fin 4096) (n : Fin 8) (s : State) :
    Steady s (execPosInputTimeout dev n s) :=
  .next (by simp)

theorem steady_execEvtCellRx (p : Fin 4) (s : State) : Steady s (execEvtCellRx p s) := by
  refine .next ?_
  split
  · next h => simp [State.clock_cvTake _ _ _ _ h]
  · rfl

theorem steady_execObjCellRx (p : Fin 4) (s : State) : Steady s (execObjCellRx p s) := by
  refine .next ?_
  split
  · next h => simp [State.clock_cvTake _ _ _ _ h]
  · rfl

theorem steady_execHandoverEnter (s : State) : Steady s (execHandoverEnter s) := by
  refine .next ?_
  dsimp only
  repeat' split
  all_goals simp

theorem steady_execRmtGo (v : Word) (s : State) : Steady s (execRmtGo v s) :=
  .next (by simp)

theorem steady_execMgtResponseRx (p : Fin 4) (s : State) : Steady s (execMgtResponseRx p s) := by
  refine .next ?_
  split
  · next h =>
    have ht := State.clock_cvTake _ _ _ _ h
    simpa using ht
  · next h => exact State.clock_cvTake _ _ _ _ h
  · rfl

theorem steady_execRmtTimeout (s : State) : Steady s (execRmtTimeout s) := by
  refine .next ?_
  split <;> simp

theorem steady_execPwrPredict (u : Fin 32) (s : State) : Steady s (execPwrPredict u s) :=
  .next (by simp)

theorem steady_execPwrExitStart (u : Fin 32) (s : State) : Steady s (execPwrExitStart u s) :=
  .next (by simp)

theorem steady_execPwrExitDone (u : Fin 32) (s : State) : Steady s (execPwrExitDone u s) := by
  refine .next ?_
  repeat' split
  all_goals simp

theorem steady_execClusterOpWrite (c : Fin 8) (v : Word) (s : State) : Steady s (execClusterOpWrite c v s) :=
  .next (by simp)

theorem steady_execClusterOpStep (ok : Bool) (s : State) : Steady s (execClusterOpStep ok s) := by
  refine .next ?_
  split <;> simp

theorem steady_execStandbyExit (s : State) : Steady s (execStandbyExit s) :=
  .next (by simp)

theorem steady_execOasWake (src : Fin 4) (sameMs : Bool) (s : State) : Steady s (execOasWake src sameMs s) :=
  .next (by simp)

theorem steady_execPgUp (i : Fin 4) (s : State) : Steady s (execPgUp i s) :=
  .next (by simp)

theorem steady_execPgTimeout (s : State) : Steady s (execPgTimeout s) :=
  .next (by simp)

theorem steady_execPowerDownStep (s : State) : Steady s (execPowerDownStep s) := by
  refine .next ?_
  dsimp only
  repeat' split
  all_goals simp

theorem steady_execBootDone (s : State) : Steady s (execBootDone s) :=
  .next (by simp)

theorem steady_execFirmwareAuth (ok1 ok2 : Bool) (s : State) : Steady s (execFirmwareAuth ok1 ok2 s) :=
  .next (by simp)

theorem steady_execI2cTargetWrite (addr : BitVec 7) (data : List Byte) (s : State) :
    Steady s (execI2cTargetWrite addr data s) := by
  refine .next ?_
  split <;> simp

theorem steady_execI2cTargetRead (addr : BitVec 7) (n : Nat) (s : State) : Steady s (execI2cTargetRead addr n s) :=
  .next (by simp)

theorem steady_execStandby (s : State) : Steady s (execStandby s) :=
  .next (by simp)

theorem steady_execDeep (s : State) : Steady s (execDeep s) :=
  .next (by simp)

theorem steady_execDeepWithRtcKeep (s : State) : Steady s (execDeepWithRtcKeep s) :=
  .next (by simp)

theorem steady_execRun (s : State) : Steady s (execRun s) :=
  .next (by simp)

theorem steady_execI2cStandbyMatch (ready : Bool) (s : State) : Steady s (execI2cStandbyMatch ready s) :=
  .next (by simp)

theorem steady_execAttnRaise (s : State) : Steady s (execAttnRaise s) := by
  refine .next ?_
  dsimp only
  repeat' split
  all_goals simp

theorem steady_execAttnRetry (s : State) : Steady s (execAttnRetry s) := by
  refine .next ?_
  split <;> simp

theorem steady_execMboxOutDone (v : Word) (s : State) : Steady s (execMboxOutDone v s) :=
  .next (by simp)

theorem steady_execI2cCtlGo (v : Word) (s : State) : Steady s (execI2cCtlGo v s) :=
  .next (by simp)

theorem steady_execI2cCtlDone (result : Fin 6) (data : List Byte) (s : State) :
    Steady s (execI2cCtlDone result data s) :=
  .next (by simp)

theorem steady_execI2cArbLost (s : State) : Steady s (execI2cArbLost s) := by
  refine .next ?_
  split <;> simp

theorem steady_execI2cSclTimeout (stuck : Bool) (s : State) : Steady s (execI2cSclTimeout stuck s) :=
  .next (by simp)

theorem steady_execFltLogConsWrite (v : Word) (s : State) : Steady s (execFltLogConsWrite v s) :=
  .next (by simp)

theorem steady_execFltMirrorMove (s : State) : Steady s (execFltMirrorMove s) :=
  .next (by simp)

theorem steady_execFltMirDoorbell (v : Word) (s : State) : Steady s (execFltMirDoorbell v s) :=
  .next (by simp)

theorem steady_execFltClearFirst (s : State) : Steady s (execFltClearFirst s) :=
  .next (by simp)

theorem steady_execFltClearFatal (s : State) : Steady s (execFltClearFatal s) :=
  .next (by simp)

theorem steady_execHostKick (s : State) : Steady s (execHostKick s) :=
  .next (by simp)

theorem steady_execHostSilent (s : State) : Steady s (execHostSilent s) :=
  .next (by simp)

theorem steady_execThermalWarn (tj : BitVec 16) (s : State) : Steady s (execThermalWarn tj s) :=
  .next (by simp)

theorem steady_execNocPriorityOverrun (router : Fin 16) (vc : Fin 2) (s : State) :
    Steady s (execNocPriorityOverrun router vc s) :=
  .next (by simp)

theorem steady_execExtest (cells : List Bool) (s : State) : Steady s (execExtest cells s) :=
  .next (by simp)

theorem steady_execSamplePreload (cells : List Bool) (s : State) : Steady s (execSamplePreload cells s) :=
  .next (by simp)

theorem steady_execClamp (s : State) : Steady s (execClamp s) :=
  .next (by simp)

theorem steady_execHighz (s : State) : Steady s (execHighz s) :=
  .next (by simp)

theorem steady_execExtestPulse (cells : List Bool) (s : State) : Steady s (execExtestPulse cells s) :=
  .next (by simp)

theorem steady_execExtestTrain (cells : List Bool) (s : State) : Steady s (execExtestTrain cells s) :=
  .next (by simp)

theorem steady_execIdcode (s : State) : Steady s (execIdcode s) :=
  .next (by simp)

theorem steady_execBypass (code : Byte) (s : State) : Steady s (execBypass code s) :=
  .next (by simp)

theorem steady_execTapReset (s : State) : Steady s (execTapReset s) :=
  .next (by simp)

theorem steady_execQuietExitTimeout (p : Fin 24) (s : State) : Steady s (execQuietExitTimeout p s) := by
  refine .next ?_
  split <;> simp

theorem steady_execIndexInactive (n : Fin 8) (s : State) : Steady s (execIndexInactive n s) :=
  .next (by simp)

theorem steady_execAttnPulse (ok : Bool) (s : State) : Steady s (execAttnPulse ok s) :=
  .next (by simp)

end Sys2Proof.Machine

end

/-! ## Every command and the timebase: O3, O4, O5 -/

section

namespace Sys2Proof.Machine

/-- A command that answers a next state in which the timebase has gone on and the queue is as it was. -/
def Goes (s : State) (o : Host.Outcome State Fault Refusal) : Prop := ∃ t, o = .next t ∧ s.Leads t

theorem Goes.next {s t : State} (h : s.Leads t) : Goes s (.next t) := ⟨t, rfl, h⟩

theorem Steady.goes {s : State} {o : Host.Outcome State Fault Refusal} (h : Steady s o) : Goes s o := by
  obtain ⟨t, rfl, ht⟩ := h
  exact .next (.of_clock ht)

/-! ### The commands of the timebase -/

theorem goes_execTbAdvance (s : State) : Goes s (execTbAdvance s) := .next s.leads_tbCycle

theorem goes_execSlewEnd (s : State) : Goes s (execSlewEnd s) := .next (.ite s.leads_tbCycle (.refl s))

theorem goes_execTbRateWrite (v : Word) (s : State) : Goes s (execTbRateWrite v s) :=
  .next (s.leads_onTime _ (s.time.leads_rateWrite v))

theorem goes_execTbStepWrite (v : Word) (s : State) : Goes s (execTbStepWrite v s) :=
  .next (s.leads_onTime _ (s.time.leads_stepWrite v))

theorem goes_execPpsArm (s : State) : Goes s (execPpsArm s) := .next (s.leads_onTime _ s.time.leads_ppsArm)

theorem goes_execDiscWrite (disc : Bool) (s : State) : Goes s (execDiscWrite disc s) :=
  .next (s.leads_onTime _ (s.time.leads_putDisc disc))

theorem goes_execPpsCapture (s : State) : Goes s (execPpsCapture s) :=
  .next (.ite (s.leads_onTime _ s.time.leads_ppsCapture) (.refl s))

theorem goes_execEnumSwitch (s : State) : Goes s (execEnumSwitch s) := by
  refine .next ?_
  split
  · next t j tab _ =>
    exact .ite (((s.takeTable tab).leads_onTime _ (TimeSt.leads_jump _ j)).after (s.clock_takeTable tab)) (.refl s)
  · exact .refl s

theorem goes_execSyncExchange (p : Fin 4) (s : State) : Goes s (execSyncExchange p s) := by
  refine .next ?_
  split
  · dsimp only
    refine .ite (.of_clock (by simp)) (.ite (.after (State.leads_discipline _ _) (by simp)) (.of_clock (by simp)))
  · exact .refl s

theorem goes_execTbHoldover (s : State) : Goes s (execTbHoldover s) := .next (.ite s.leads_tbHold (.refl s))

/-! ### Register accesses -/

theorem goes_execSplitLoRead (fn : Fin 64) (bar : Bar) (addr : Nat) (s : State) :
    Goes s (execSplitLoRead fn bar addr s) := by
  refine .next ?_
  cases bar with
  | bar0 =>
    dsimp only
    split
    · exact s.leads_busRead _ _
    · exact .of_clock (s.clock_answer _)
  | bar2 => exact .ite (.of_clock (s.clock_bar2Read addr)) (.refl s)
  | bar4 => exact .ite (.refl s) (.of_clock (s.clock_answer _))

theorem goes_execCounterWrite (addr : Nat) (v : Word) (s : State) : Goes s (execCounterWrite addr v s) := by
  refine .next ?_
  split
  · exact .ite (s.leads_busWrite addr v) (.refl s)
  · exact .refl s

theorem goes_execAttemptCounterWrite (addr : Nat) (v : Word) (s : State) :
    Goes s (execAttemptCounterWrite addr v s) := by
  refine .next ?_
  split
  · exact .ite (s.leads_busWrite addr v) (.refl s)
  · exact .refl s

theorem goes_execRegisterWrite (fn : Fin 64) (bar : Bar) (addr : Nat) (v : Word) (s : State) :
    Goes s (execRegisterWrite fn bar addr v s) := by
  refine .next ?_
  cases bar with
  | bar0 =>
    dsimp only
    split
    · exact s.leads_busWrite _ v
    · exact s.leads_accessErr _ _ _
  | bar2 => exact .ite (s.leads_bar2Put _ _) (.refl s)
  | bar4 => exact .ite (.refl s) (.of_clock (s.clock_bar4Write _ addr v))

theorem goes_execBadWidthAccess (write : Bool) (addr : Nat) (lanes : BitVec 4) (s : State) :
    Goes s (execBadWidthAccess write addr lanes s) := by
  have h := s.leads_accessErr 1 (lo32 addr) 0#32
  refine .next (.ite (.refl s) (h.trans (.ite ?_ ?_)))
  · exact .ite (State.leads_accessErr _ _ _ _) (.refl _)
  · exact (State.leads_busRead _ 0 addr).then (State.clock_answer _ _)

theorem goes_execUnmappedWrite (addr : Nat) (v : Word) (s : State) : Goes s (execUnmappedWrite addr v s) :=
  .next (.ite (s.leads_accessErr _ _ _) (.refl s))

theorem goes_execAccessErrClear (v : Word) (s : State) : Goes s (execAccessErrClear v s) :=
  .next (s.leads_store_time (a := HST_ACCESS_ERR) rfl (by decide) v)

theorem goes_execOffRead (addr : Nat) (s : State) : Goes s (execOffRead addr s) := by
  refine .next ?_
  split
  · exact .ite ((s.leads_accessErr _ _ _).then (State.clock_answer _ _)) (.refl s)
  · exact .refl s

theorem goes_execBar2Write (addr : Nat) (data : List Byte) (s : State) : Goes s (execBar2Write addr data s) :=
  .next (s.leads_bar2Put addr data)

theorem goes_execEvtProdWrite (id : Fin 640) (v : Word) (s : State) : Goes s (execEvtProdWrite id v s) :=
  .next (s.leads_prodWrite id v)

theorem goes_execMgtRequestRx (p : Fin 4) (s : State) : Goes s (execMgtRequestRx p s) := by
  refine .next ?_
  split
  · exact .ite (.refl s) (.then (.after (State.leads_remoteRun _ _) (by simp)) (State.clock_respond _ _ _))
  · exact .refl s

/-! ### Lanes: a span link that goes down may put TB to HOLDOVER -/

theorem goes_execPortEnWrite (p : Fin 28) (v : Word) (s : State) : Goes s (execPortEnWrite p v s) :=
  .next (s.leads_ctrlWrite p v)

theorem goes_execRetrain (p : Fin 28) (s : State) : Goes s (execRetrain p s) :=
  .next (.after (State.leads_linkCheck _ s p) (s.clock_retrain p))

theorem goes_execLinkRecover (p : Fin 28) (lane : Fin 2) (loss : LinkLoss) (s : State) :
    Goes s (execLinkRecover p lane loss s) :=
  .next (.after (State.leads_linkCheck _ s p) (s.clock_linkRecover p lane loss))

theorem goes_execRxMarkerGroup (p : Fin 28) (lane : Fin 2) (decisions : BitVec 5440) (before : Fin 4)
    (place arrival : Nat) (s : State) : Goes s (execRxMarkerGroup p lane decisions before place arrival s) :=
  .next (.after (State.leads_linkCheck _ s p) (s.clock_markerGroup p lane decisions before place arrival))

theorem goes_execCvnLinkLost (p : Fin 4) (how : SpanLoss) (s : State) : Goes s (execCvnLinkLost p how s) :=
  .next (.ite (.refl s) (.after (State.leads_linkCheck _ s _) (s.clock_linkRecover _ _ _)))

theorem goes_execCvRefclkLoss (s : State) : Goes s (execCvRefclkLoss s) := by
  refine .next (.ite (.refl s) ?_)
  have h : s.Leads (s.each cvPorts (fun s p => (s.loseRef (24 + p)).linkCheck s (24 + p))) :=
    State.Leads.each _ (fun s p => .after (State.leads_linkCheck _ s _) (s.clock_loseRef _)) _ _
  exact (h.then (State.clock_contained _ _ _ _ _)).trans (State.leads_tbHold _)

/-! ### Faults and warm resets -/

theorem goes_execEjSlotMiss (n : Fin 8) (s : State) : Goes s (execEjSlotMiss n s) :=
  .next (.ite (s.leads_fatal _ _ _ _) (.refl s))

theorem goes_execFaultReport (domain : Fin 60) (code : Byte) (inst : BitVec 16) (detail : BitVec 64) (s : State) :
    Goes s (execFaultReport domain code inst detail s) :=
  .next (.ite (.of_clock (s.clock_contained _ _ _ _)) (.ite (s.leads_fatal _ _ _ _) (.refl s)))

theorem goes_execMgmtWdog (pc : BitVec 64) (s : State) : Goes s (execMgmtWdog pc s) :=
  .next (.ite ((s.leads_fatal _ _ _ _).then (State.clock_with _ _ _ _ _ _ _ _ _ _ _ _ _ _ _ _ _ _ _ _ _ _)) (.refl s))

theorem goes_execRefclkSysLoss (s : State) : Goes s (execRefclkSysLoss s) :=
  .next ((s.leads_onTime _ (TimeSt.leads_of_eq (Nat.le_refl _) rfl rfl rfl rfl)).trans (State.leads_fatal _ _ _ _ _))

theorem goes_execTbPllLoss (s : State) : Goes s (execTbPllLoss s) := .next (s.leads_fatal _ _ _ _)

theorem goes_execThermalTrip (tj : BitVec 16) (s : State) : Goes s (execThermalTrip tj s) :=
  .next (.ite (.after (State.leads_fatal _ _ _ _ _) (by simp)) (.of_clock (by simp)))

theorem goes_execVerdictEcc (table : BitVec 16) (entry : BitVec 64) (s : State) : Goes s (execVerdictEcc table entry s) :=
  .next (s.leads_fatal _ _ _ _)

theorem goes_execNocEcc (router : Fin 16) (vc : Fin 2) (s : State) : Goes s (execNocEcc router vc s) :=
  .next (s.leads_fatal _ _ _ _)

theorem goes_execWarmReset (wdog ref : Bool) (s : State) : Goes s (execWarmReset wdog ref s) := by
  have h : s.Leads (if ref then s.onTime (fun t => { t with refSysOk := true }) else s) :=
    .ite (s.leads_onTime _ (TimeSt.leads_of_eq (Nat.le_refl _) rfl rfl rfl rfl)) (.refl s)
  exact .next (h.trans (State.leads_warmReset _ _))

theorem goes_execReset (s : State) : Goes s (execReset s) := by
  refine .next ?_
  split
  · exact .ite (s.leads_warmReset 2) (.refl s)
  · exact .refl s

theorem goes_execWdogWarmReset (s : State) : Goes s (execWdogWarmReset s) := by
  refine .next ?_
  split
  · exact .ite (s.leads_warmReset 3) (.refl s)
  · exact .refl s

/-! ### The commands that start TB anew -/

/-- TB has started anew, and the queue of commands is the one before. -/
theorem State.clock_coldNow (s : State) : s.coldNow.clock = (s.time.atCold, s.pending) := rfl

/-- A command that keeps a sound timebase sound and the queue as it was. -/
def Sound (s : State) (o : Host.Outcome State Fault Refusal) : Prop :=
  ∃ t, o = .next t ∧ (s.time.ok → t.time.ok) ∧ t.pending = s.pending

theorem Sound.of_leads {s t : State} (h : s.Leads t) : Sound s (.next t) := ⟨t, rfl, h.time.ok, h.pending⟩

theorem Sound.of_cold {s t : State} (h : t.clock = (s.time.atCold, s.pending)) : Sound s (.next t) := by
  have ht : t.time = s.time.atCold := congrArg Prod.fst h
  exact ⟨t, rfl, fun _ => ht ▸ TimeSt.ok_atCold s.time, congrArg Prod.snd h⟩

theorem State.clock_coreDown (s : State) : s.coreDown.clock = (s.time.atCold, s.pending) := by
  simp [State.coreDown, State.clock_coldNow]

theorem State.clock_deepEnter (s : State) (rtc : Bool) : (s.deepEnter rtc).clock = (s.time.atCold, s.pending) := by
  simp [State.deepEnter, State.clock_coreDown]

theorem sound_execColdReset (s : State) : Sound s (execColdReset s) := .of_cold rfl

theorem sound_execPowerEntryDone (s : State) : Sound s (execPowerEntryDone s) := by
  unfold execPowerEntryDone
  split
  · exact .of_leads (.refl s)
  · split
    · exact .of_leads s.leads_standbyEnter
    · exact .of_cold (s.clock_deepEnter _)
    · exact .of_leads (.refl s)

theorem sound_execPgLost (i : Fin 4) (s : State) : Sound s (execPgLost i s) := by
  unfold execPgLost
  split
  · exact .of_cold (by simp [State.clock_coreDown])
  · exact .of_leads (.refl s)

theorem sound_execVaonPor (on : Bool) (s : State) : Sound s (execVaonPor on s) := by
  refine .of_cold ?_
  dsimp only
  cases on <;> simp [State.clock_coldNow]

theorem sound_execCoreResetRelease (straps : BitVec 6) (s : State) : Sound s (execCoreResetRelease straps s) := by
  unfold execCoreResetRelease
  split
  · exact .of_leads (.refl s)
  · extract_lets s₁ s₂
    have h : s₂.clock = s.clock := by simp [s₂, s₁]
    exact .of_cold (by simp [State.clock, State.time_eq_of_clock h, State.pending_eq_of_clock h])

/-! ### Every command -/

/-- Every command but those that start TB anew answers a next state in which the timebase has gone on. -/
theorem exec_goes (c : Instr) (s : State) (h : startsTb c = false) : Goes s (exec c s) := by
  match c with
  | .coldReset => cases h
  | .warmReset wdog ref => exact goes_execWarmReset wdog ref s
  | .functionLevelReset fn => exact (steady_execFunctionLevelReset fn s).goes
  | .tbAdvance => exact goes_execTbAdvance s
  | .slewEnd => exact goes_execSlewEnd s
  | .tbRateWrite v => exact goes_execTbRateWrite v s
  | .tbStepWrite v => exact goes_execTbStepWrite v s
  | .ppsArm => exact goes_execPpsArm s
  | .discWrite disc => exact goes_execDiscWrite disc s
  | .ppsCapture => exact goes_execPpsCapture s
  | .splitLoRead fn bar addr => exact goes_execSplitLoRead fn bar addr s
  | .counterWrite addr v => exact goes_execCounterWrite addr v s
  | .attemptCounterWrite addr v => exact goes_execAttemptCounterWrite addr v s
  | .registerWrite fn bar addr v => exact goes_execRegisterWrite fn bar addr v s
  | .badWidthAccess write addr lanes => exact goes_execBadWidthAccess write addr lanes s
  | .unmappedWrite addr v => exact goes_execUnmappedWrite addr v s
  | .accessErrClear v => exact goes_execAccessErrClear v s
  | .offRead addr => exact goes_execOffRead addr s
  | .encModeWrite n v => exact (steady_execEncModeWrite n v s).goes
  | .encTransition n => exact (steady_execEncTransition n s).goes
  | .encRawEdge n pin => exact (steady_execEncRawEdge n pin s).goes
  | .encWindowEnd n => exact (steady_execEncWindowEnd n s).goes
  | .encIndex n => exact (steady_execEncIndex n s).goes
  | .encSnap v => exact (steady_execEncSnap v s).goes
  | .encSet n v => exact (steady_execEncSet n v s).goes
  | .speedUpdate n => exact (steady_execSpeedUpdate n s).goes
  | .standstillTimeout n => exact (steady_execStandstillTimeout n s).goes
  | .ssiWordStart n dataHigh => exact (steady_execSsiWordStart n dataHigh s).goes
  | .ssiWordEnd n word delay returnedHigh => exact (steady_execSsiWordEnd n word delay returnedHigh s).goes
  | .msOffsetTrack m => exact (steady_execMsOffsetTrack m s).goes
  | .msInputWrite m sec v => exact (steady_execMsInputWrite m sec v s).goes
  | .msHoldEnd m => exact (steady_execMsHoldEnd m s).goes
  | .triggerDue g => exact (steady_execTriggerDue g s).goes
  | .trgCtrlWrite g v => exact (steady_execTrgCtrlWrite g v s).goes
  | .trgNextWrite g v => exact (steady_execTrgNextWrite g v s).goes
  | .trgPortWrite p v => exact (steady_execTrgPortWrite p v s).goes
  | .trigPinEdge k level first => exact (steady_execTrigPinEdge k level first s).goes
  | .trigPinPulseEnd k => exact (steady_execTrigPinPulseEnd k s).goes
  | .stampQuery v => exact (steady_execStampQuery v s).goes
  | .portEnWrite p v => exact goes_execPortEnWrite p v s
  | .retrain p => exact goes_execRetrain p s
  | .bcTrainingFrame p => exact (steady_execBcTrainingFrame p s).goes
  | .rxTrainingFrame p lane status crc inverted request =>
    exact (steady_execRxTrainingFrame p lane status crc inverted request s).goes
  | .sigDetected p lane => exact (steady_execSigDetected p lane s).goes
  | .cdrLock p lane => exact (steady_execCdrLock p lane s).goes
  | .coefTimeout p => exact (steady_execCoefTimeout p s).goes
  | .tuneStepEnd p eyes up => exact (steady_execTuneStepEnd p eyes up s).goes
  | .deskewDone p => exact (steady_execDeskewDone p s).goes
  | .trainTimeout p => exact (steady_execTrainTimeout p s).goes
  | .backoffEnd p => exact (steady_execBackoffEnd p s).goes
  | .unplug p lane => exact (steady_execUnplug p lane s).goes
  | .adaptUpdate p lane moves => exact (steady_execAdaptUpdate p lane moves s).goes
  | .eqRegWrite p lane reg v => exact (steady_execEqRegWrite p lane reg v s).goes
  | .linkRecover p lane loss => exact goes_execLinkRecover p lane loss s
  | .recoverDone p => exact (steady_execRecoverDone p s).goes
  | .dlRefclkLoss r => exact (steady_execDlRefclkLoss r s).goes
  | .dlRefclkReturn r => exact (steady_execDlRefclkReturn r s).goes
  | .quietAckTimeout p => exact (steady_execQuietAckTimeout p s).goes
  | .quietExit p how => exact (steady_execQuietExit p how s).goes
  | .quietExitDone p => exact (steady_execQuietExitDone p s).goes
  | .escanStart p lane v => exact (steady_execEscanStart p lane v s).goes
  | .escanAbort p lane samples => exact (steady_execEscanAbort p lane samples s).goes
  | .escanDone p lane samples => exact (steady_execEscanDone p lane samples s).goes
  | .prbsCtrlWrite p lane v => exact (steady_execPrbsCtrlWrite p lane v s).goes
  | .prbsLock p lane decisions => exact (steady_execPrbsLock p lane decisions s).goes
  | .prbsUnlock p lane decisions => exact (steady_execPrbsUnlock p lane decisions s).goes
  | .rxCodeword p lane decisions => exact (steady_execRxCodeword p lane decisions s).goes
  | .rxMarkerGroup p lane decisions before place arrival => exact goes_execRxMarkerGroup p lane decisions before place arrival s
  | .fecCwClear p lane => exact (steady_execFecCwClear p lane s).goes
  | .rxBlock p => exact (steady_execRxBlock p s).goes
  | .rxPacket p => exact (steady_execRxPacket p s).goes
  | .rxLctl p => exact (steady_execRxLctl p s).goes
  | .bcBlock p => exact (steady_execBcBlock p s).goes
  | .regGo p v => exact (steady_execRegGo p v s).goes
  | .regTimeout p => exact (steady_execRegTimeout p s).goes
  | .pixSrcWrite t v => exact (steady_execPixSrcWrite t v s).goes
  | .streamLineJoin t => exact (steady_execStreamLineJoin t s).goes
  | .joinTimeout t => exact (steady_execJoinTimeout t s).goes
  | .pipelineLine t => exact (steady_execPipelineLine t s).goes
  | .pixArm t => exact (steady_execPixArm t s).goes
  | .pixDisarm t => exact (steady_execPixDisarm t s).goes
  | .shadowWrite t k v => exact (steady_execShadowWrite t k v s).goes
  | .pixTblLoad t v => exact (steady_execPixTblLoad t v s).goes
  | .pixTblLoadDone t => exact (steady_execPixTblLoadDone t s).goes
  | .clsTblLoad t v => exact (steady_execClsTblLoad t v s).goes
  | .clsTblLoadDone t => exact (steady_execClsTblLoadDone t s).goes
  | .objOpenWrite t => exact (steady_execObjOpenWrite t s).goes
  | .viewForm t err => exact (steady_execViewForm t err s).goes
  | .pairWaitExpired t => exact (steady_execPairWaitExpired t s).goes
  | .cutoutWriteStart t => exact (steady_execCutoutWriteStart t s).goes
  | .cutoutWriteDone t => exact (steady_execCutoutWriteDone t s).goes
  | .cutoutLate t => exact (steady_execCutoutLate t s).goes
  | .recordRelease t => exact (steady_execRecordRelease t s).goes
  | .hostVerdict => exact (steady_execHostVerdict s).goes
  | .decisionPoint h => exact (steady_execDecisionPoint h s).goes
  | .settledCopy h => exact (steady_execSettledCopy h s).goes
  | .pendingExpire h => exact (steady_execPendingExpire h s).goes
  | .ejtTblLoad v => exact (steady_execEjtTblLoad v s).goes
  | .ejtTblLoadDone => exact (steady_execEjtTblLoadDone s).goes
  | .ejtTblSwap v => exact (steady_execEjtTblSwap v s).goes
  | .ejtPendPeakWrite => exact (steady_execEjtPendPeakWrite s).goes
  | .ejFrame n => exact (steady_execEjFrame n s).goes
  | .ejSlotMiss n => exact goes_execEjSlotMiss n s
  | .ejReturnFrame n frame => exact (steady_execEjReturnFrame n frame s).goes
  | .ejRetLost n => exact (steady_execEjRetLost n s).goes
  | .pwmReload n => exact (steady_execPwmReload n s).goes
  | .pwmStrobeEvent n => exact (steady_execPwmStrobeEvent n s).goes
  | .pwmCycleEnd n => exact (steady_execPwmCycleEnd n s).goes
  | .pwmShadowWrite n k v => exact (steady_execPwmShadowWrite n k v s).goes
  | .pwmOc n level first => exact (steady_execPwmOc n level first s).goes
  | .pwmSc n level first => exact (steady_execPwmSc n level first s).goes
  | .pwmClear n => exact (steady_execPwmClear n s).goes
  | .pwmGrpClear g => exact (steady_execPwmGrpClear g s).goes
  | .stripSlot q => exact (steady_execStripSlot q s).goes
  | .lineSlot q => exact (steady_execLineSlot q s).goes
  | .eventSlot q => exact (steady_execEventSlot q s).goes
  | .tickSlot q => exact (steady_execTickSlot q s).goes
  | .slotBudgetExpired q => exact (steady_execSlotBudgetExpired q s).goes
  | .nop q => exact (steady_execNop q s).goes
  | .endSlot q => exact (steady_execEndSlot q s).goes
  | .movi q d imm => exact (steady_execMovi q d imm s).goes
  | .mov q d a => exact (steady_execMov q d a s).goes
  | .addi q d a imm => exact (steady_execAddi q d a imm s).goes
  | .add q d a b => exact (steady_execAdd q d a b s).goes
  | .sub q d a b => exact (steady_execSub q d a b s).goes
  | .adds q d a imm => exact (steady_execAdds q d a imm s).goes
  | .and q d a b => exact (steady_execAnd q d a b s).goes
  | .or q d a b => exact (steady_execOr q d a b s).goes
  | .xor q d a b => exact (steady_execXor q d a b s).goes
  | .shl q d a n => exact (steady_execShl q d a n s).goes
  | .shr q d a n => exact (steady_execShr q d a n s).goes
  | .andi q d a imm => exact (steady_execAndi q d a imm s).goes
  | .lds q d t sel arg => exact (steady_execLds q d t sel arg s).goes
  | .stamp q d => exact (steady_execStamp q d s).goes
  | .br q t => exact (steady_execBr q t s).goes
  | .bcmp q a b t cond k imm => exact (steady_execBcmp q a b t cond k imm s).goes
  | .bbs q a t n => exact (steady_execBbs q a t n s).goes
  | .bbc q a t n => exact (steady_execBbc q a t n s).goes
  | .bev q t consume k => exact (steady_execBev q t consume k s).goes
  | .loop q t n => exact (steady_execLoop q t n s).goes
  | .waitev q t limit consume k => exact (steady_execWaitev q t limit consume k s).goes
  | .waitevTimeout q t limit consume k => exact (steady_execWaitevTimeout q t limit consume k s).goes
  | .trig q t delay => exact (steady_execTrig q t delay s).goes
  | .arm q t disarm => exact (steady_execArm q t disarm s).goes
  | .ctx q t ctxNo => exact (steady_execCtx q t ctxNo s).goes
  | .shw q t a k => exact (steady_execShw q t a k s).goes
  | .route q t index kind => exact (steady_execRoute q t index kind s).goes
  | .dmaq q a b psrc pdst tmpl ch => exact (steady_execDmaq q a b psrc pdst tmpl ch s).goes
  | .pub q a ch => exact (steady_execPub q a ch s).goes
  | .trace q a imm => exact (steady_execTrace q a imm s).goes
  | .seqIllegal q => exact (steady_execSeqIllegal q s).goes
  | .seqEcc q double => exact (steady_execSeqEcc q double s).goes
  | .seqRestart q hof => exact (steady_execSeqRestart q hof s).goes
  | .seqInit q hof => exact (steady_execSeqInit q hof s).goes
  | .seqPeakWrite q kind => exact (steady_execSeqPeakWrite q kind s).goes
  | .imgLoad => exact (steady_execImgLoad s).goes
  | .imgSwap => exact (steady_execImgSwap s).goes
  | .swapTblCopyDone => exact (steady_execSwapTblCopyDone s).goes
  | .seqBankSwitch q => exact (steady_execSeqBankSwitch q s).goes
  | .pcieReady cfg => exact (steady_execPcieReady cfg s).goes
  | .pcieLinkDown => exact (steady_execPcieLinkDown s).goes
  | .pcieLinkUp cfg => exact (steady_execPcieLinkUp cfg s).goes
  | .pcieRefclkLoss => exact (steady_execPcieRefclkLoss s).goes
  | .pcieRefclkReturn => exact (steady_execPcieRefclkReturn s).goes
  | .bar2Write addr data => exact goes_execBar2Write addr data s
  | .reset => exact goes_execReset s
  | .streamReset => exact (steady_execStreamReset s).goes
  | .clientBind numVfs => exact (steady_execClientBind numVfs s).goes
  | .clientUnbind => exact (steady_execClientUnbind s).goes
  | .quotaSet => exact (steady_execQuotaSet s).goes
  | .chanBind => exact (steady_execChanBind s).goes
  | .funcVectors vfEnable => exact (steady_execFuncVectors vfEnable s).goes
  | .portCtrl => exact (steady_execPortCtrl s).goes
  | .power => exact (steady_execPower s).goes
  | .keyProgram => exact (steady_execKeyProgram s).goes
  | .fwLoad authentic => exact (steady_execFwLoad authentic s).goes
  | .ergAlloc => exact (steady_execErgAlloc s).goes
  | .ergFree => exact (steady_execErgFree s).goes
  | .ergPin => exact (steady_execErgPin s).goes
  | .ergUnpin => exact (steady_execErgUnpin s).goes
  | .lookbackGet => exact (steady_execLookbackGet s).goes
  | .spanEnum => exact (steady_execSpanEnum s).goes
  | .mbxUnknownOpcode => exact (steady_execMbxUnknownOpcode s).goes
  | .mbxBusyWrite => exact (steady_execMbxBusyWrite s).goes
  | .mbxDone => exact (steady_execMbxDone s).goes
  | .mbxTimeout => exact (steady_execMbxTimeout s).goes
  | .clientCtrlWrite c v => exact (steady_execClientCtrlWrite c v s).goes
  | .consDoorbell c r v => exact (steady_execConsDoorbell c r v s).goes
  | .verdictDoorbell c v => exact (steady_execVerdictDoorbell c v s).goes
  | .descDoorbell c v => exact (steady_execDescDoorbell c v s).goes
  | .dmaPause ch => exact (steady_execDmaPause ch s).goes
  | .dmaUnpause ch => exact (steady_execDmaUnpause ch s).goes
  | .dmaResume ch => exact (steady_execDmaResume ch s).goes
  | .dmaAbort ch => exact (steady_execDmaAbort ch s).goes
  | .dmaCmdReject c v => exact (steady_execDmaCmdReject c v s).goes
  | .heartbeat c => exact (steady_execHeartbeat c s).goes
  | .intTimeExpire c => exact (steady_execIntTimeExpire c s).goes
  | .recordDeliver t => exact (steady_execRecordDeliver t s).goes
  | .gapWrite c r => exact (steady_execGapWrite c r s).goes
  | .stagingHoldExpire t => exact (steady_execStagingHoldExpire t s).goes
  | .dataCopyDone t stat => exact (steady_execDataCopyDone t stat s).goes
  | .verdictFetch c entries late => exact (steady_execVerdictFetch c entries late s).goes
  | .descFetch c desc late => exact (steady_execDescFetch c desc late s).goes
  | .dmaBurst ch len data late => exact (steady_execDmaBurst ch len data late s).goes
  | .dmaRequestFail ch cause => exact (steady_execDmaRequestFail ch cause s).goes
  | .dmaComplete ch => exact (steady_execDmaComplete ch s).goes
  | .segmentZeroDone seg => exact (steady_execSegmentZeroDone seg s).goes
  | .ergScrubBlock addr err => exact (steady_execErgScrubBlock addr err s).goes
  | .ergWriteFail addr w => exact (steady_execErgWriteFail addr w s).goes
  | .stackFail k training => exact (steady_execStackFail k training s).goes
  | .queueFlush q => exact (steady_execQueueFlush q s).goes
  | .queueHostpopWrite q v => exact (steady_execQueueHostpopWrite q v s).goes
  | .queuePop q err => exact (steady_execQueuePop q err s).goes
  | .queuePopTimeout q => exact (steady_execQueuePopTimeout q s).goes
  | .cmpSubmit e v => exact (steady_execCmpSubmit e v s).goes
  | .cmpJobStart e => exact (steady_execCmpJobStart e s).goes
  | .cmpJobEnd e raw => exact (steady_execCmpJobEnd e raw s).goes
  | .cmpFlush e => exact (steady_execCmpFlush e s).goes
  | .cmpAbort e => exact (steady_execCmpAbort e s).goes
  | .evtProdWrite id v => exact goes_execEvtProdWrite id v s
  | .evtPub v => exact (steady_execEvtPub v s).goes
  | .evtChCtrlWrite c v => exact (steady_execEvtChCtrlWrite c v s).goes
  | .evtLock c => exact (steady_execEvtLock c s).goes
  | .evtRateWrite c v => exact (steady_execEvtRateWrite c v s).goes
  | .eventEnter c => exact (steady_execEventEnter c s).goes
  | .eventDeliver c => exact (steady_execEventDeliver c s).goes
  | .evtWatchExpire c => exact (steady_execEvtWatchExpire c s).goes
  | .cellEval k => exact (steady_execCellEval k s).goes
  | .cellStuck k => exact (steady_execCellStuck k s).goes
  | .cvnCellTx p fine => exact (steady_execCvnCellTx p fine s).goes
  | .cvnIdleSync p => exact (steady_execCvnIdleSync p s).goes
  | .cvnCellRx p msg fine => exact (steady_execCvnCellRx p msg fine s).goes
  | .cvnLinkLost p how => exact goes_execCvnLinkLost p how s
  | .reroute p => exact (steady_execReroute p s).goes
  | .cvRefclkLoss => exact goes_execCvRefclkLoss s
  | .cvRefclkReturn => exact (steady_execCvRefclkReturn s).goes
  | .enumAutoStart => exact (steady_execEnumAutoStart s).goes
  | .change => exact (steady_execChange s).goes
  | .probe p => exact (steady_execProbe p s).goes
  | .probeTimeout => exact (steady_execProbeTimeout s).goes
  | .token p => exact (steady_execToken p s).goes
  | .enumReturn p => exact (steady_execEnumReturn p s).goes
  | .progress => exact (steady_execProgress s).goes
  | .enumBranchAbort => exact (steady_execEnumBranchAbort s).goes
  | .commit p => exact (steady_execCommit p s).goes
  | .enumSwitch => exact goes_execEnumSwitch s
  | .routeTableExpire => exact (steady_execRouteTableExpire s).goes
  | .syncReqSend p => exact (steady_execSyncReqSend p s).goes
  | .syncReqRx p => exact (steady_execSyncReqRx p s).goes
  | .syncExchange p => exact goes_execSyncExchange p s
  | .tbHoldover => exact goes_execTbHoldover s
  | .posExport n => exact (steady_execPosExport n s).goes
  | .posRx p => exact (steady_execPosRx p s).goes
  | .posInputTimeout dev n => exact (steady_execPosInputTimeout dev n s).goes
  | .evtCellRx p => exact (steady_execEvtCellRx p s).goes
  | .objCellRx p => exact (steady_execObjCellRx p s).goes
  | .handoverEnter => exact (steady_execHandoverEnter s).goes
  | .rmtGo v => exact (steady_execRmtGo v s).goes
  | .mgtRequestRx p => exact goes_execMgtRequestRx p s
  | .mgtResponseRx p => exact (steady_execMgtResponseRx p s).goes
  | .rmtTimeout => exact (steady_execRmtTimeout s).goes
  | .pwrPredict u => exact (steady_execPwrPredict u s).goes
  | .pwrExitStart u => exact (steady_execPwrExitStart u s).goes
  | .pwrExitDone u => exact (steady_execPwrExitDone u s).goes
  | .clusterOpWrite c v => exact (steady_execClusterOpWrite c v s).goes
  | .clusterOpStep ok => exact (steady_execClusterOpStep ok s).goes
  | .powerEntryDone => cases h
  | .standbyExit => exact (steady_execStandbyExit s).goes
  | .oasWake src sameMs => exact (steady_execOasWake src sameMs s).goes
  | .pgUp k => exact (steady_execPgUp k s).goes
  | .pgTimeout => exact (steady_execPgTimeout s).goes
  | .pgLost k => cases h
  | .powerDownStep => exact (steady_execPowerDownStep s).goes
  | .vaonPor on => cases h
  | .coreResetRelease straps => cases h
  | .bootDone => exact (steady_execBootDone s).goes
  | .firmwareAuth ok1 ok2 => exact (steady_execFirmwareAuth ok1 ok2 s).goes
  | .i2cTargetWrite addr data => exact (steady_execI2cTargetWrite addr data s).goes
  | .i2cTargetRead addr n => exact (steady_execI2cTargetRead addr n s).goes
  | .standby => exact (steady_execStandby s).goes
  | .deep => exact (steady_execDeep s).goes
  | .deepWithRtcKeep => exact (steady_execDeepWithRtcKeep s).goes
  | .run => exact (steady_execRun s).goes
  | .i2cStandbyMatch ready => exact (steady_execI2cStandbyMatch ready s).goes
  | .attnRaise => exact (steady_execAttnRaise s).goes
  | .attnRetry => exact (steady_execAttnRetry s).goes
  | .mboxOutDone v => exact (steady_execMboxOutDone v s).goes
  | .i2cCtlGo v => exact (steady_execI2cCtlGo v s).goes
  | .i2cCtlDone result data => exact (steady_execI2cCtlDone result data s).goes
  | .i2cArbLost => exact (steady_execI2cArbLost s).goes
  | .i2cSclTimeout stuck => exact (steady_execI2cSclTimeout stuck s).goes
  | .faultReport domain code inst detail => exact goes_execFaultReport domain code inst detail s
  | .fltLogConsWrite v => exact (steady_execFltLogConsWrite v s).goes
  | .fltMirrorMove => exact (steady_execFltMirrorMove s).goes
  | .fltMirDoorbell v => exact (steady_execFltMirDoorbell v s).goes
  | .fltClearFirst => exact (steady_execFltClearFirst s).goes
  | .fltClearFatal => exact (steady_execFltClearFatal s).goes
  | .hostKick => exact (steady_execHostKick s).goes
  | .hostSilent => exact (steady_execHostSilent s).goes
  | .mgmtWdog pc => exact goes_execMgmtWdog pc s
  | .wdogWarmReset => exact goes_execWdogWarmReset s
  | .refclkSysLoss => exact goes_execRefclkSysLoss s
  | .tbPllLoss => exact goes_execTbPllLoss s
  | .thermalWarn tj => exact (steady_execThermalWarn tj s).goes
  | .thermalTrip tj => exact goes_execThermalTrip tj s
  | .verdictEcc table entry => exact goes_execVerdictEcc table entry s
  | .nocEcc router vc => exact goes_execNocEcc router vc s
  | .nocPriorityOverrun router vc => exact (steady_execNocPriorityOverrun router vc s).goes
  | .extest cells => exact (steady_execExtest cells s).goes
  | .samplePreload cells => exact (steady_execSamplePreload cells s).goes
  | .clamp => exact (steady_execClamp s).goes
  | .highz => exact (steady_execHighz s).goes
  | .extestPulse cells => exact (steady_execExtestPulse cells s).goes
  | .extestTrain cells => exact (steady_execExtestTrain cells s).goes
  | .idcode => exact (steady_execIdcode s).goes
  | .bypass code => exact (steady_execBypass code s).goes
  | .tapReset => exact (steady_execTapReset s).goes
  | .quietExitTimeout p => exact (steady_execQuietExitTimeout p s).goes
  | .indexInactive n => exact (steady_execIndexInactive n s).goes
  | .attnPulse ok => exact (steady_execAttnPulse ok s).goes

/-- The commands that start TB anew leave it sound. -/
theorem exec_sound_of_startsTb (c : Instr) (s : State) (h : startsTb c = true) : Sound s (exec c s) := by
  cases c
  case coldReset => exact sound_execColdReset s
  case powerEntryDone => exact sound_execPowerEntryDone s
  case pgLost k => exact sound_execPgLost k s
  case vaonPor on => exact sound_execVaonPor on s
  case coreResetRelease straps => exact sound_execCoreResetRelease straps s
  all_goals cases h

/-- Every command answers a next state, keeps a sound timebase sound and leaves the queue of commands alone. -/
theorem exec_sound (c : Instr) (s : State) : Sound s (exec c s) := by
  cases h : startsTb c with
  | true => exact exec_sound_of_startsTb c s h
  | false =>
    obtain ⟨t, ht, hl⟩ := exec_goes c s h
    rw [ht]
    exact .of_leads hl

/-- A command that answers a next state leaves a sound timebase sound. -/
theorem ok_of_exec {c : Instr} {s t : State} (hs : s.time.ok) (h : exec c s = .next t) : t.time.ok := by
  obtain ⟨t', ht', hok, -⟩ := exec_sound c s
  rw [ht'] at h
  cases h
  exact hok hs

end Sys2Proof.Machine

open Sys2Proof Sys2Proof.Machine

/-- Settles O4: an empty queue changes nothing, and every command keeps a sound timebase sound. -/
theorem everyStepKeepsTheTimebaseSound : Obligations.EveryStepKeepsTheTimebaseSound := by
  intro s t hs h
  unfold step at h
  split at h
  · cases h
    exact hs
  · next c rest _ => exact ok_of_exec (s := s.withPending rest) hs h

/-- Settles O5: outside the commands that start TB anew, TB goes on. -/
theorem tbNeverDecreases : Obligations.TbNeverDecreases := by
  intro c s _ hc
  obtain ⟨t, ht, hl⟩ := exec_goes c s hc
  exact ⟨t, ht, hl.time.tb_le⟩

/-- Settles O3: the reset values, evaluated. -/
theorem resetHasASoundTimebase : Obligations.ResetHasASoundTimebase := by
  unfold Obligations.ResetHasASoundTimebase
  decide

end

/-! ## The timebase runs, steps, is disciplined and aligns: O6 to O9 -/

section

namespace Sys2Proof.Machine

/-! ### A change of the timebase block alone -/

theorem Kept.onTime (s : State) (f : TimeSt → TimeSt) : Kept [.time] s (s.onTime f) := by simp [Kept, State.onTime]

theorem State.rd_onTime (s : State) (f : TimeSt → TimeSt) (a : Nat) :
    (s.onTime f).rd .time a = rget (f s.time).regs a := rfl

theorem State.flag_onTime (s : State) (f : TimeSt → TimeSt) (a i : Nat) :
    (s.onTime f).flag .time a i = bit (rget (f s.time).regs a) i := rfl

theorem State.next_onTime {s : State} {f : TimeSt → TimeSt} {u : TimeSt} (h : f s.time = u) :
    (.next (s.onTime f) : Host.Outcome State Fault Refusal) = .next { s with time := u } := by
  rw [State.onTime, h]

theorem RegsKept.onTime {as : List Nat} (s : State) (f : TimeSt → TimeSt)
    (h : ∀ a, a ∉ as → rget (f s.time).regs a = rget s.time.regs a) : RegsKept .time as s (s.onTime f) := h

/-! ### Which registers each operation of the timebase leaves -/

theorem TimeSt.rget_withRem_ne (t : TimeSt) (rem : Int) {a : Nat} (h : a ≠ HST_TB_STATUS) :
    rget (t.withRem rem).regs a = rget t.regs a := rget_wrBit_ne _ _ _ h

@[simp] theorem TimeSt.rget_withRem_status (t : TimeSt) (rem : Int) :
    rget (t.withRem rem).regs HST_TB_STATUS = putBit (rget t.regs HST_TB_STATUS) 3 (decide (rem ≠ 0)) :=
  rget_wrBit_same _ _ _ _

theorem TimeSt.rget_requestStep_ne (t : TimeSt) (step : Int) {a : Nat} (h : a ≠ HST_TB_STATUS) :
    rget (t.requestStep step).regs a = rget t.regs a := by
  unfold TimeSt.requestStep
  split
  · exact rget_wrBit_ne _ _ _ h
  · split
    · rfl
    · split
      · rfl
      · exact t.rget_withRem_ne _ h

/-! ### One cycle of TB -/

/-- In units of 2^-32 ns TB gains one nanosecond, the rate and the slew, as long as that is no step back. -/
theorem TimeSt.cycle_sum (t : TimeSt)
    (h : 0 ≤ (t.frac : Int) + 4294967296 + (rget t.regs HST_TB_RATE).toInt + slewOf t.stepRem) :
    (t.cycle.tb : Int) * 4294967296 + t.cycle.frac =
      t.tb * 4294967296 + t.frac + 4294967296 + (rget t.regs HST_TB_RATE).toInt + slewOf t.stepRem := by
  simp only [TimeSt.cycle, TimeSt.withRem, tbAfter]
  omega

theorem slewOf_eq (rem : Int) : slewOf rem = if rem = 0 then 0 else if 0 < rem then 4194304 else -4194304 := by
  unfold slewOf
  repeat' split
  all_goals omega

theorem remAfter_eq (rem : Int) : remAfter rem = if rem = 0 then 0 else if 0 < rem then rem - 1 else rem + 1 := by
  unfold remAfter
  repeat' split
  all_goals omega

theorem slewOf_mem (rem : Int) : -4194304 ≤ slewOf rem ∧ slewOf rem ≤ 4194304 := by
  unfold slewOf
  repeat' split
  all_goals omega

theorem TimeSt.slewBusy_cycle (t : TimeSt) : bit (rget t.cycle.regs HST_TB_STATUS) 3 = decide (remAfter t.stepRem ≠ 0) := by
  simp [TimeSt.cycle]

theorem State.tbCycle_of_up {s : State} (h : s.pwr.coreUp = true) : s.tbCycle = s.onTime TimeSt.cycle := if_pos h

/-! ### Rate writes -/

theorem TimeSt.rateWrite_of_free {t : TimeSt} (h : bit (rget t.regs HST_TB_CTRL) 0 = false) (v : Word) :
    t.rateWrite v = { t with
      regs :=
        if (clipRate v).2 then wrBit (rset t.regs HST_TB_RATE (clipRate v).1) HST_TB_STATUS 5 true
        else rset t.regs HST_TB_RATE (clipRate v).1 } := by
  simp [TimeSt.rateWrite, h]

/-- A value is clipped exactly when it stands outside the limits. -/
theorem clipRate_clipped (v : Word) : (clipRate v).2 = (decide (v.toInt < -4294967) || decide (4294967 < v.toInt)) := by
  simp only [clipRate, clampInt, rateLimit]
  by_cases h₁ : v.toInt < -4294967
  · simp only [h₁, if_true, decide_true, Bool.true_or, decide_eq_true_eq]
    omega
  · by_cases h₂ : 4294967 < v.toInt
    · simp only [h₁, h₂, if_true, if_false, decide_true, Bool.or_true, decide_eq_true_eq]
      omega
    · simp [h₁, h₂]

/-- The registers after a rate write while DISC is 0: the clipped rate, and RATE_CLIP if it was clipped. -/
theorem TimeSt.rget_rateWrite {t : TimeSt} (h : bit (rget t.regs HST_TB_CTRL) 0 = false) (v : Word) (a : Nat) :
    rget (t.rateWrite v).regs a =
      if a = HST_TB_RATE then (clipRate v).1
      else if a = HST_TB_STATUS ∧ (clipRate v).2 = true then putBit (rget t.regs HST_TB_STATUS) 5 true
      else rget t.regs a := by
  have hne : HST_TB_RATE ≠ HST_TB_STATUS := by decide
  rw [rateWrite_of_free h]
  dsimp only
  split
  · next hc =>
    by_cases ha : a = HST_TB_STATUS
    · subst ha
      simp [hne.symm, hc, rget_rset_ne]
    · simp [ha, rget_wrBit_ne, rget_rset]
  · next hc => simp [hc, rget_rset]

theorem exec_tbRateWrite_of_free (v : Word) {s : State} (h : s.flag .time HST_TB_CTRL 0 = false) :
    ∃ t, exec (.tbRateWrite v) s = .next t ∧
      (t.rd .time HST_TB_RATE).toInt = clampInt (-4294967) 4294967 v.toInt ∧
      t.flag .time HST_TB_STATUS 5 =
        (s.flag .time HST_TB_STATUS 5 || decide (v.toInt < -4294967) || decide (4294967 < v.toInt)) ∧
      (∀ i, i ≠ 5 → t.flag .time HST_TB_STATUS i = s.flag .time HST_TB_STATUS i) ∧
      RegsKept .time [HST_TB_RATE, HST_TB_STATUS] s t ∧ t.time = { s.time with regs := t.time.regs } ∧ Kept [.time] s t := by
  have hne : HST_TB_STATUS ≠ HST_TB_RATE := by decide
  have hget := TimeSt.rget_rateWrite (t := s.time) h v
  refine ⟨s.onTime (fun t => t.rateWrite v), rfl, ?_, ?_, ?_, .onTime s _ ?_, ?_, .onTime s _⟩
  · rw [State.rd_onTime, hget, if_pos rfl, toInt_clipRate]
    rfl
  · rw [State.flag_onTime, hget, if_neg hne, Bool.or_assoc, ← clipRate_clipped]
    cases hc : (clipRate v).2 <;> simp [State.flag, State.rd_time]
  · intro i hi
    rw [State.flag_onTime, hget, if_neg hne]
    split
    · exact bit_putBit_ne _ _ _ _ hi
    · rfl
  · intro a ha
    simp only [List.mem_cons, List.not_mem_nil, or_false, not_or] at ha
    simp [hget, ha.1, ha.2]
  · simp only [State.onTime]
    rw [TimeSt.rateWrite_of_free h]

/-! ### Step writes and the slew -/

theorem TimeSt.requestStep_of_busy {t : TimeSt} (h : bit (rget t.regs HST_TB_STATUS) 3 = true) (step : Int) :
    t.requestStep step = t.stepRej := by
  simp [TimeSt.requestStep, TimeSt.stepRej, h]

theorem TimeSt.requestStep_zero {t : TimeSt} (h : bit (rget t.regs HST_TB_STATUS) 3 = false) : t.requestStep 0 = t := by
  simp [TimeSt.requestStep, h]

/-- A step of this many ns jumps (R14). -/
def TimeSt.jumps (t : TimeSt) (step : Int) : Prop :=
  0 < step ∧ bit (rget t.regs HST_TB_CTRL) 1 = true ∧ bits (rget t.regs HST_TB_STATUS) 1 0 ≠ 2

theorem TimeSt.requestStep_of_jumps {t : TimeSt} (h : bit (rget t.regs HST_TB_STATUS) 3 = false) {step : Int}
    (hj : t.jumps step) : t.requestStep step = t.jump step.toNat := by
  obtain ⟨hpos, hctrl, hstate⟩ := hj
  simp [TimeSt.requestStep, h, hctrl, hstate, hpos, hpos.ne']

theorem TimeSt.requestStep_of_slews {t : TimeSt} (h : bit (rget t.regs HST_TB_STATUS) 3 = false) {step : Int}
    (h0 : step ≠ 0) (hj : ¬ t.jumps step) : t.requestStep step = t.withRem (step * 1024) := by
  rw [TimeSt.requestStep, if_neg (by simp [h]), if_neg h0]
  exact if_neg hj

theorem TimeSt.stepWrite_of_free {t : TimeSt} (h : bit (rget t.regs HST_TB_CTRL) 0 = false) (v : Word) :
    t.stepWrite v = t.requestStep v.toInt := by
  simp [TimeSt.stepWrite, h]

theorem toNat_toInt_of_pos {v : Word} (h : 0 < v.toInt) : v.toInt.toNat = v.toNat := by
  have := BitVec.toInt_eq_toNat_cond v
  split at this <;> omega

theorem exec_tbStepWrite_of_free (v : Word) {s : State} (h : s.flag .time HST_TB_CTRL 0 = false) :
    exec (.tbStepWrite v) s = .next (s.onTime (fun t => t.requestStep v.toInt)) :=
  State.next_onTime (TimeSt.stepWrite_of_free h v)

/-- Each cycle takes one unit off the remaining step, so it is 0 after as many cycles as it has units. -/
theorem iterate_remAfter (n : Nat) : ∀ rem : Int, rem.natAbs = n → remAfter^[n] rem = 0 := by
  induction n with
  | zero => intro rem h; exact Int.natAbs_eq_zero.mp h
  | succ n ih =>
    intro rem h
    rw [Function.iterate_succ_apply]
    refine ih _ ?_
    unfold remAfter
    repeat' split
    all_goals omega

/-- The reading is the magnitude, rounded up, with the sign of the remaining step. -/
theorem stepReading_eq (rem : Int) :
    stepReading rem = BitVec.ofInt 32 (rem.sign * ((rem.natAbs + 1023) / 1024 : Nat)) := by
  unfold stepReading
  dsimp only
  congr 1
  rcases lt_trichotomy rem 0 with h | rfl | h
  · simp [h, Int.sign_eq_neg_one_of_neg h]
  · simp
  · simp [Int.not_lt.mpr h.le, Int.sign_eq_one_of_pos h]

/-- A remaining step that has a reading reads 0 exactly when there is none. -/
theorem stepReading_eq_zero {rem : Int} (h : rem.natAbs ≤ 2 ^ 31 * 1024) : stepReading rem = 0#32 ↔ rem = 0 := by
  constructor
  · intro hz
    have hi : (stepReading rem).toInt = 0 := by rw [hz]; rfl
    unfold stepReading at hi
    rw [BitVec.toInt_ofInt] at hi
    have hd := Int.dvd_of_bmod_eq_zero hi
    split at hd <;> omega
  · rintro rfl
    rfl

/-! ### The capture of a PPS edge -/

theorem TimeSt.bit_requestStep_status (t : TimeSt) (step : Int) {i : Nat} (h3 : i ≠ 3) (h4 : i ≠ 4) :
    bit (rget (t.requestStep step).regs HST_TB_STATUS) i = bit (rget t.regs HST_TB_STATUS) i := by
  unfold TimeSt.requestStep
  split
  · simp [bit_putBit_ne _ _ _ _ h4]
  · split
    · rfl
    · split
      · rfl
      · simp [bit_putBit_ne _ _ _ _ h3]

/-- The latest captured edge keeps its distance from TB over a requested step (R17). -/
theorem TimeSt.ppsLast_requestStep {t : TimeSt} (h : t.ppsLast = some t.tb) (step : Int) :
    (t.requestStep step).ppsLast = some (t.requestStep step).tb := by
  unfold TimeSt.requestStep
  split
  · exact h
  · split
    · exact h
    · split
      · simp [TimeSt.jump, h]
      · exact h

theorem TimeSt.ppsDue_eq (t : TimeSt) :
    t.ppsDue = (bit (rget t.regs HST_TB_CTRL) 2 && t.ppsLast.all (fun p => decide (500000000 ≤ t.tb - p))) := by
  unfold TimeSt.ppsDue
  cases t.ppsLast <;> rfl

@[simp] theorem TimeSt.rget_captured_lo (t : TimeSt) : rget t.captured.regs HST_PPS_LO = lo32 t.tb := by
  simp [TimeSt.captured, rget_wrBit_ne, rget_rset_ne]

@[simp] theorem TimeSt.rget_captured_hi (t : TimeSt) : rget t.captured.regs HST_PPS_HI = hi32 t.tb := by
  simp [TimeSt.captured, rget_wrBit_ne]

@[simp] theorem TimeSt.rget_captured_status (t : TimeSt) :
    rget t.captured.regs HST_TB_STATUS = putBit (rget t.regs HST_TB_STATUS) 6 true := by
  simp [TimeSt.captured, rget_wrBit_ne, rget_rset_ne]

@[simp] theorem TimeSt.rget_captured_ctrl (t : TimeSt) :
    rget t.captured.regs HST_TB_CTRL = putBit (rget t.regs HST_TB_CTRL) 2 false := by
  simp [TimeSt.captured, rget_wrBit_ne, rget_rset_ne]

theorem TimeSt.rget_captured_ne (t : TimeSt) {a : Nat} (h : a ∉ [HST_PPS_LO, HST_PPS_HI, HST_TB_STATUS, HST_TB_CTRL]) :
    rget t.captured.regs a = rget t.regs a := by
  simp only [List.mem_cons, List.not_mem_nil, or_false, not_or] at h
  obtain ⟨hlo, hhi, hstatus, hctrl⟩ := h
  simp [TimeSt.captured, rget_wrBit_ne, rget_rset_ne, hlo, hhi, hstatus, hctrl]

/-- While DISC is 1 a captured edge requests nothing (R15). -/
theorem TimeSt.ppsCapture_of_disc {t : TimeSt} (h : bit (rget t.regs HST_TB_CTRL) 0 = true) :
    t.ppsCapture = t.captured.stepRej := by
  simp [TimeSt.ppsCapture_eq, bit_putBit_ne, h]

theorem TimeSt.ppsCapture_of_free {t : TimeSt} (h : bit (rget t.regs HST_TB_CTRL) 0 = false) :
    t.ppsCapture = t.captured.requestStep (alignStep t.tb) := by
  simp [TimeSt.ppsCapture_eq, bit_putBit_ne, h]

/-- What the capture may request changes HST_TB_STATUS alone, and there SLEW_BUSY and STEP_REJ. -/
theorem TimeSt.rget_ppsCapture_ne (t : TimeSt) {a : Nat} (h : a ≠ HST_TB_STATUS) :
    rget t.ppsCapture.regs a = rget t.captured.regs a := by
  rw [TimeSt.ppsCapture_eq]
  split
  · exact rget_wrBit_ne _ _ _ h
  · exact t.captured.rget_requestStep_ne _ h

theorem TimeSt.bit_ppsCapture_status (t : TimeSt) {i : Nat} (h3 : i ≠ 3) (h4 : i ≠ 4) :
    bit (rget t.ppsCapture.regs HST_TB_STATUS) i = bit (rget t.captured.regs HST_TB_STATUS) i := by
  rw [TimeSt.ppsCapture_eq]
  split
  · simp [TimeSt.stepRej, bit_putBit_ne _ _ _ _ h4]
  · exact t.captured.bit_requestStep_status _ h3 h4

theorem TimeSt.ppsLast_ppsCapture (t : TimeSt) : t.ppsCapture.ppsLast = some t.ppsCapture.tb := by
  rw [TimeSt.ppsCapture_eq]
  split
  · rfl
  · exact TimeSt.ppsLast_requestStep rfl _

theorem exec_ppsCapture_of_due {s : State} (h : s.time.ppsDue = true) :
    exec .ppsCapture s = .next (s.onTime TimeSt.ppsCapture) := congrArg _ (if_pos h)

/-- What every capture leaves in the registers: the time of the edge, PPS_SEEN, PPS_ARM at 0. -/
theorem State.ppsCapture_regs (s : State) :
    (s.onTime TimeSt.ppsCapture).rd .time HST_PPS_LO = lo32 s.now ∧
    (s.onTime TimeSt.ppsCapture).rd .time HST_PPS_HI = hi32 s.now ∧
    (s.onTime TimeSt.ppsCapture).flag .time HST_TB_STATUS 6 = true ∧
    (s.onTime TimeSt.ppsCapture).flag .time HST_TB_CTRL 2 = false := by
  refine ⟨?_, ?_, ?_, ?_⟩
  · rw [State.rd_onTime, TimeSt.rget_ppsCapture_ne _ (by decide), TimeSt.rget_captured_lo]
  · rw [State.rd_onTime, TimeSt.rget_ppsCapture_ne _ (by decide), TimeSt.rget_captured_hi]
  · rw [State.flag_onTime, TimeSt.bit_ppsCapture_status _ (by decide) (by decide)]
    simp
  · rw [State.flag_onTime, TimeSt.rget_ppsCapture_ne _ (by decide)]
    simp

theorem State.ppsCapture_regsKept (s : State) :
    RegsKept .time [HST_PPS_LO, HST_PPS_HI, HST_TB_STATUS, HST_TB_CTRL] s (s.onTime TimeSt.ppsCapture) := by
  refine .onTime s _ fun a ha => ?_
  rw [TimeSt.rget_ppsCapture_ne _ (by rintro rfl; exact ha (by simp)), TimeSt.rget_captured_ne _ ha]

/-- The step makes TB a whole multiple of a second. -/
theorem dvd_add_alignStep (n : Nat) : (1000000000 : Int) ∣ n + alignStep n := by
  unfold alignStep
  dsimp only
  split <;> omega

theorem alignStep_halfway {n : Nat} (h : n % 1000000000 = 500000000) : alignStep n = 500000000 := by
  simp [alignStep, h]

/-! ### Discipline -/

theorem TimeSt.putDisc_false {t : TimeSt} (h : bit (rget t.regs HST_TB_CTRL) 0 = true) :
    t.putDisc false = { t with regs := wrBits (wrBit t.regs HST_TB_CTRL 0 false) HST_TB_STATUS 1 0 0 } := by
  simp [TimeSt.putDisc, h]

theorem TimeSt.rateWrite_of_disc {t : TimeSt} (h : bit (rget t.regs HST_TB_CTRL) 0 = true) (v : Word) :
    t.rateWrite v = t.stepRej := if_pos h

theorem TimeSt.stepWrite_of_disc {t : TimeSt} (h : bit (rget t.regs HST_TB_CTRL) 0 = true) (v : Word) :
    t.stepWrite v = t.stepRej := if_pos h

theorem exec_tbRateWrite_of_disc (v : Word) {s : State} (h : s.flag .time HST_TB_CTRL 0 = true) :
    exec (.tbRateWrite v) s = .next (s.setb .time HST_TB_STATUS 4 true) :=
  State.next_onTime (TimeSt.rateWrite_of_disc h v)

theorem exec_tbStepWrite_of_disc (v : Word) {s : State} (h : s.flag .time HST_TB_CTRL 0 = true) :
    exec (.tbStepWrite v) s = .next (s.setb .time HST_TB_STATUS 4 true) :=
  State.next_onTime (TimeSt.stepWrite_of_disc h v)

end Sys2Proof.Machine

section
open Sys2Proof Sys2Proof.Machine

/-- Settles O6: the sum of the cycle, split at 32 bits, and the clipped rate. -/
theorem tbRunsAtItsRate : Obligations.TbRunsAtItsRate := by
  unfold Obligations.TbRunsAtItsRate
  refine ⟨fun s h => ?_, fun s hok hup => ?_, fun v s h => exec_tbRateWrite_of_free v h⟩
  · change Host.Outcome.next s.tbCycle = _
    rw [State.tbCycle, if_neg (by simp [h])]
  · obtain ⟨hfrac, hlo, hhi, -, -⟩ := hok
    obtain ⟨hs₁, hs₂⟩ := slewOf_mem s.time.stepRem
    simp only [rateLimit] at hlo hhi
    have hsum := s.time.cycle_sum (by omega)
    have hlt : s.time.cycle.frac < 4294967296 := Nat.mod_lt _ (by decide)
    refine ⟨s.onTime TimeSt.cycle, congrArg _ (State.tbCycle_of_up hup), hsum, hlt, ?_, ?_, rfl, rfl, rfl, .onTime s _ ?_,
      .onTime s _⟩
    · change s.time.tb ≤ s.time.cycle.tb
      omega
    · change s.time.cycle.tb ≤ s.time.tb + 2
      omega
    · intro a ha
      exact TimeSt.rget_withRem_ne _ _ (by simpa using ha)

/-- Settles O7: the cases of R14, and the slew by induction on the units that remain. -/
theorem stepsJumpOrSlew : Obligations.StepsJumpOrSlew := by
  unfold Obligations.StepsJumpOrSlew
  refine ⟨fun v s h => ?_, fun s hup => ?_, fun rem => iterate_remAfter _ rem rfl, by decide, fun s hup h1 => ?_,
    fun s hok => ?_⟩
  · rw [exec_tbStepWrite_of_free v h]
    refine ⟨fun hb => ?_, fun hb hv => ?_, fun hb hv => ⟨fun hj => ?_, fun hj => ?_⟩⟩
    · exact State.next_onTime (TimeSt.requestStep_of_busy hb _)
    · subst hv
      exact State.next_onTime (TimeSt.requestStep_zero hb)
    · rw [State.next_onTime (TimeSt.requestStep_of_jumps hb hj), toNat_toInt_of_pos hj.1]
      rfl
    · have h0 : v.toInt ≠ 0 := fun e => hv (BitVec.toInt_inj.mp e)
      have hrem : v.toInt * 1024 ≠ 0 := by omega
      rw [State.next_onTime (TimeSt.requestStep_of_slews hb h0 hj), TimeSt.withRem, decide_eq_true hrem]
      rfl
  · exact ⟨s.onTime TimeSt.cycle, congrArg _ (State.tbCycle_of_up hup), remAfter_eq _, slewOf_eq _,
      s.time.slewBusy_cycle⟩
  · have hrem : remAfter s.time.stepRem = 0 := iterate_remAfter 1 _ h1
    refine ⟨s.onTime TimeSt.cycle, ?_, hrem, ?_, congrArg _ (State.tbCycle_of_up hup)⟩
    · change Host.Outcome.next (if s.time.stepRem.natAbs = 1 then s.tbCycle else s) = _
      rw [if_pos h1, State.tbCycle_of_up hup]
    · exact (s.time.slewBusy_cycle).trans (by simp [hrem])
  · obtain ⟨-, -, -, hbusy, hrem⟩ := hok
    refine ⟨stepReading_eq _, (stepReading_eq_zero hrem).trans ?_⟩
    rw [State.flag, State.rd_time, hbusy]
    simp

/-- Settles O8: DISC turns each request into STEP_REJ alone. -/
theorem disciplineLocksRateAndStep : Obligations.DisciplineLocksRateAndStep := by
  unfold Obligations.DisciplineLocksRateAndStep
  intro s hdisc
  refine ⟨fun v => exec_tbRateWrite_of_disc v hdisc, fun v => exec_tbStepWrite_of_disc v hdisc, fun hdue => ?_, ?_⟩
  · obtain ⟨hlo, hhi, hseen, harm⟩ := s.ppsCapture_regs
    have he : (s.onTime TimeSt.ppsCapture).time = s.time.captured.stepRej := TimeSt.ppsCapture_of_disc hdisc
    refine ⟨_, exec_ppsCapture_of_due hdue, hlo, hhi, hseen, ?_, harm, ?_, ?_, ?_, ?_, s.ppsCapture_regsKept, .onTime s _⟩
    · rw [State.flag, State.rd_time, he]
      simp [TimeSt.stepRej]
    · rw [State.now, he]
      rfl
    · rw [he]
      rfl
    · rw [he]
      rfl
    · rw [State.flag, State.rd_time, he]
      simp [TimeSt.stepRej, bit_putBit_ne, State.flag, State.rd_time]
  · have he : (s.onTime (fun t => t.putDisc false)).time =
        { s.time with regs := wrBits (wrBit s.time.regs HST_TB_CTRL 0 false) HST_TB_STATUS 1 0 0 } :=
      TimeSt.putDisc_false hdisc
    refine ⟨s.onTime (fun t => t.putDisc false), rfl, ?_, ?_, ?_, ?_, ?_, ?_, .onTime s _ fun a ha => ?_, .onTime s _⟩
    · simp [State.flag, State.rd_time, he, rget_wrBits_ne]
    · simp [State.fld, State.rd_time, he]
    · simp [State.rd_time, he, rget_wrBits_ne, rget_wrBit_ne]
    · rw [State.now, he]
    · rw [he]
    · simp [State.flag, State.rd_time, he, rget_wrBit_ne, bit_putBits_ne]
    · simp only [List.mem_cons, List.not_mem_nil, or_false, not_or] at ha
      rw [TimeSt.putDisc_false hdisc]
      simp [rget_wrBits_ne, rget_wrBit_ne, ha.1, ha.2]

/-- Settles O9: the captured registers, then the step request of R14 by its cases. -/
theorem ppsAlignsToTheSecond : Obligations.PpsAlignsToTheSecond := by
  unfold Obligations.PpsAlignsToTheSecond
  refine ⟨fun s => rfl, fun s h => ?_, fun s harm hlast => ?_, fun n => ?_⟩
  · have hdue : s.time.ppsDue = false := by
      rw [TimeSt.ppsDue_eq]
      rcases h with h | h
      · rw [show bit (rget s.time.regs HST_TB_CTRL) 2 = false from h, Bool.false_and]
      · cases hl : s.time.ppsLast with
        | none => simp [hl] at h
        | some p =>
          simp only [hl, Option.any_some, decide_eq_true_eq] at h
          simp [h]
    exact congrArg _ (if_neg (by simp [hdue]))
  · have hdue : s.time.ppsDue = true := by
      rw [TimeSt.ppsDue_eq, hlast, Bool.and_true]
      exact harm
    obtain ⟨hlo, hhi, hseen, hoff⟩ := s.ppsCapture_regs
    have hbusy : bit (rget s.time.captured.regs HST_TB_STATUS) 3 = s.flag .time HST_TB_STATUS 3 := by
      simp [bit_putBit_ne, State.flag, State.rd_time]
    have hjump : s.time.captured.jumps (alignStep s.now) ↔
        0 < alignStep s.now ∧ s.flag .time HST_TB_CTRL 1 = true ∧ s.fld .time HST_TB_STATUS 1 0 ≠ 2 := by
      simp [TimeSt.jumps, bit_putBit_ne, bits_putBit_ne, State.flag, State.fld, State.rd_time]
    refine ⟨_, exec_ppsCapture_of_due hdue, hlo, hhi, hseen, hoff, s.time.ppsLast_ppsCapture, fun hdisc hb => ?_,
      fun hdisc hb => ⟨fun h0 => ?_, fun h0 => ⟨fun hj => ?_, fun hj => ?_⟩⟩, fun hdisc => ?_, s.ppsCapture_regsKept,
      .onTime s _⟩
    · have he : (s.onTime TimeSt.ppsCapture).time = s.time.captured.stepRej :=
        (TimeSt.ppsCapture_of_free hdisc).trans (TimeSt.requestStep_of_busy (hbusy.trans hb) _)
      refine ⟨?_, by rw [State.now, he]; rfl, by rw [he]; rfl⟩
      simp [State.flag, State.rd_time, he, TimeSt.stepRej]
    · have he : (s.onTime TimeSt.ppsCapture).time = s.time.captured := by
        refine (TimeSt.ppsCapture_of_free hdisc).trans ?_
        rw [h0]
        exact TimeSt.requestStep_zero (hbusy.trans hb)
      exact ⟨by rw [State.now, he]; rfl, by rw [he]; rfl⟩
    · have he : (s.onTime TimeSt.ppsCapture).time = s.time.captured.jump (alignStep s.now).toNat :=
        (TimeSt.ppsCapture_of_free hdisc).trans (TimeSt.requestStep_of_jumps (hbusy.trans hb) (hjump.mpr hj))
      exact ⟨by rw [State.now, he]; rfl, by rw [he]; rfl⟩
    · have he : (s.onTime TimeSt.ppsCapture).time = s.time.captured.withRem (alignStep s.now * 1024) :=
        (TimeSt.ppsCapture_of_free hdisc).trans
          (TimeSt.requestStep_of_slews (hbusy.trans hb) h0 (fun hx => hj (hjump.mp hx)))
      refine ⟨by rw [State.now, he]; rfl, by rw [he]; rfl, ?_⟩
      simp [State.flag, State.rd_time, he, h0]
    · have he : (s.onTime TimeSt.ppsCapture).time = s.time.captured.stepRej := TimeSt.ppsCapture_of_disc hdisc
      refine ⟨?_, by rw [State.now, he]; rfl, by rw [he]; rfl⟩
      simp [State.flag, State.rd_time, he, TimeSt.stepRej]
  · obtain ⟨hlo, hhi⟩ := alignStep_mem n
    exact ⟨dvd_add_alignStep n, hlo, hhi, alignStep_halfway⟩

end

end

/-! ## Accesses to registers and their errors: O10, O11 -/

section

namespace Sys2Proof.Machine

/-! ### An access error and its capture (R25) -/

theorem State.rd_accessErr_err (s : State) (i : Nat) (lo hi : Word) :
    (s.accessErr i lo hi).rd .time HST_ACCESS_ERR = putBit (putBit (s.rd .time HST_ACCESS_ERR) i true) 0 true := by
  unfold State.accessErr
  dsimp only
  split
  · rw [State.rd_setb, State.rd_setb]
  · rw [State.rd_wr_ne _ _ _ _ _ (by decide), State.rd_wr_ne _ _ _ _ _ (by decide), State.rd_setb, State.rd_setb]

theorem State.flag_accessErr_same (s : State) {i : Nat} (hi : i < 32) (lo hi' : Word) :
    (s.accessErr i lo hi').flag .time HST_ACCESS_ERR i = true := by
  rw [State.flag, State.rd_accessErr_err]
  by_cases h : i = 0
  · subst h
    simp
  · rw [bit_putBit_ne _ _ _ _ h, bit_putBit_same _ _ _ hi]

theorem State.flag_accessErr_any (s : State) (i : Nat) (lo hi : Word) :
    (s.accessErr i lo hi).flag .time HST_ACCESS_ERR 0 = true := by
  rw [State.flag, State.rd_accessErr_err, bit_putBit_same _ _ _ (by decide)]

theorem State.flag_accessErr_ne (s : State) {i j : Nat} (h0 : j ≠ 0) (h : j ≠ i) (lo hi : Word) :
    (s.accessErr i lo hi).flag .time HST_ACCESS_ERR j = s.flag .time HST_ACCESS_ERR j := by
  rw [State.flag, State.rd_accessErr_err, bit_putBit_ne _ _ _ _ h0, bit_putBit_ne _ _ _ _ h, State.flag]

theorem State.rd_accessErr_addr (s : State) (i : Nat) (lo hi : Word) :
    (s.accessErr i lo hi).rd .time HST_ACCESS_ADDR =
      if s.flag .time HST_ACCESS_ERR 0 then s.rd .time HST_ACCESS_ADDR else lo := by
  unfold State.accessErr
  dsimp only
  split
  · rw [State.rd_setb_ne _ _ _ _ _ _ (by decide), State.rd_setb_ne _ _ _ _ _ _ (by decide)]
  · rw [State.rd_wr_ne _ _ _ _ _ (by decide), State.rd_wr_same]

theorem State.rd_accessErr_addrHi (s : State) (i : Nat) (lo hi : Word) :
    (s.accessErr i lo hi).rd .time HST_ACCESS_ADDR_HI =
      if s.flag .time HST_ACCESS_ERR 0 then s.rd .time HST_ACCESS_ADDR_HI else hi := by
  unfold State.accessErr
  dsimp only
  split
  · rw [State.rd_setb_ne _ _ _ _ _ _ (by decide), State.rd_setb_ne _ _ _ _ _ _ (by decide)]
  · rw [State.rd_wr_same]

theorem RegsKept.accessErr (s : State) (i : Nat) (lo hi : Word) :
    RegsKept .time [HST_ACCESS_ERR, HST_ACCESS_ADDR, HST_ACCESS_ADDR_HI] s (s.accessErr i lo hi) := by
  have h := (RegsKept.setb (as := [HST_ACCESS_ERR, HST_ACCESS_ADDR, HST_ACCESS_ADDR_HI]) (b := .time) s
    HST_ACCESS_ERR i true (by simp)).trans (RegsKept.setb _ HST_ACCESS_ERR 0 true (by simp))
  unfold State.accessErr
  dsimp only
  split
  · exact h
  · exact (h.trans (RegsKept.wr _ _ lo (by simp))).trans (RegsKept.wr _ _ hi (by simp))

theorem Kept.accessErr (s : State) (i : Nat) (lo hi : Word) : Kept [.time] s (s.accessErr i lo hi) := by
  have hb : Blk.time ∈ [Blk.time] := by simp
  have h := (Kept.setb s .time HST_ACCESS_ERR i true hb).trans (Kept.setb _ .time HST_ACCESS_ERR 0 true hb)
  unfold State.accessErr
  dsimp only
  split
  · exact h
  · exact (h.trans (Kept.wr _ _ _ lo hb)).trans (Kept.wr _ _ _ hi hb)

theorem State.time_accessErr (s : State) (i : Nat) (lo hi : Word) :
    (s.accessErr i lo hi).time = { s.time with regs := (s.accessErr i lo hi).time.regs } := by
  unfold State.accessErr
  dsimp only
  split <;> rfl

/-- What a read answered is not told. -/
theorem Kept.answered {bs : List Blk} {s u t : State} (h : Kept bs s u) {v : Word} {p : Bool}
    (ht : t = { u with readData := v, readPoisoned := p }) :
    Kept bs s { t with readData := s.readData, readPoisoned := s.readPoisoned } := by
  subst ht
  unfold Kept at *
  obtain ⟨h1, h2, h3, h4, h5, h6, h7, h8, h9, h10, h11, h12, h13, h14, h15, h16, h17, h18, -, -, h19⟩ := h
  exact ⟨h1, h2, h3, h4, h5, h6, h7, h8, h9, h10, h11, h12, h13, h14, h15, h16, h17, h18, rfl, rfl, h19⟩

/-! ### A read keeps the errors it finds -/

theorem State.flag_of_clock {s t : State} (h : t.clock = s.clock) (a i : Nat) : t.flag .time a i = s.flag .time a i := by
  rw [State.flag, State.flag, State.rd_time, State.rd_time, State.time_eq_of_clock h]

/-- Errors of HST_ACCESS_ERR that stand stay. -/
def State.ErrsStay (s t : State) : Prop :=
  ∀ i, s.flag .time HST_ACCESS_ERR i = true → t.flag .time HST_ACCESS_ERR i = true

theorem State.ErrsStay.of_clock {s t : State} (h : t.clock = s.clock) : s.ErrsStay t :=
  fun i hi => (State.flag_of_clock h _ i).trans hi

theorem State.ErrsStay.trans {s t u : State} (h : s.ErrsStay t) (k : t.ErrsStay u) : s.ErrsStay u :=
  fun i hi => k i (h i hi)

theorem State.errsStay_accessErr (s : State) {i : Nat} (hi : i < 32) (lo hi' : Word) : s.ErrsStay (s.accessErr i lo hi') := by
  intro j hj
  by_cases h0 : j = 0
  · exact h0 ▸ s.flag_accessErr_any i lo hi'
  · by_cases h : j = i
    · exact h ▸ s.flag_accessErr_same hi lo hi'
    · rw [s.flag_accessErr_ne h0 h, hj]

theorem State.errsStay_latch (s : State) (fn a : Nat) (hi : Word) : s.ErrsStay (s.latch fn a hi) := fun _ h => h

theorem State.errsStay_busRead (s : State) (fn a : Nat) : s.ErrsStay (s.busRead fn a) := by
  unfold State.busRead
  split
  · exact .of_clock (by simp)
  · next u row _ =>
    extract_lets n o s₁
    have h : s.ErrsStay s₁ := .of_clock (by unfold s₁; split <;> simp)
    refine h.trans ?_
    split
    · exact (s₁.errsStay_accessErr (by decide) _ _).trans (.of_clock (State.clock_answer _ _))
    · split
      · exact .of_clock (by simp)
      · split
        · have hc : s₁.ErrsStay s₁.rtcCount := .of_clock s₁.clock_rtcCount
          exact (hc.trans (State.errsStay_latch _ fn a _)).trans (.of_clock (State.clock_answer _ _))
        · split
          · exact (s₁.errsStay_latch fn a _).trans (.of_clock (State.clock_answer _ _))
          · exact .of_clock (by simp)

/-! ### Clearing access errors -/

theorem regAt_accessErr : regAt HST_ACCESS_ERR = some (unitHst, ⟨0x30, 0, 1, .plain, 0,
    [fRow 3 3 .w1c, fRow 2 2 .w1c, fRow 1 1 .w1c, fRow 0 0 .w1c]⟩) := rfl

/-- Writing HST_ACCESS_ERR clears each of its bits written as 1. -/
theorem State.flag_store_accessErr (s : State) (v : Word) {i : Nat} (hi : i < 4) :
    (s.store .time HST_ACCESS_ERR v).flag .time HST_ACCESS_ERR i = (s.flag .time HST_ACCESS_ERR i && !bit v i) := by
  rw [State.store_hst regAt_accessErr, State.flag, State.rd_wr_same,
    RegRow.bit_write rfl (by decide) false _ _ _ (by omega)]
  have hany : i = 0 ∨ i = 1 ∨ i = 2 ∨ i = 3 := by omega
  rcases hany with rfl | rfl | rfl | rfl <;> simp [fRow, Acc.bitAfter, State.flag]

/-! ### Writes through BAR2 (R257) -/

theorem State.ergWrite_of_ok {s : State} {a : Nat} (h : stackOk s (stackOf a) = true) (bs : List Byte) :
    s.ergWrite a bs = { s with erg := { s.erg with
      mem := Tab.setList (fun _ => 0#8) s.erg.mem a bs
      poison := errKept s.erg.poison a bs.length
      soft := errKept s.erg.soft a bs.length } } := if_pos h

theorem State.ergWrite_of_failed {s : State} {a : Nat} (h : stackOk s (stackOf a) = false) (bs : List Byte) :
    s.ergWrite a bs = s := if_neg (by simp [h])

theorem Kept.ergWrite (s : State) (a : Nat) (bs : List Byte) : Kept [.erg] s (s.ergWrite a bs) := by
  unfold State.ergWrite
  split
  · simp [Kept]
  · exact Kept.refl _ s

theorem ergByte_ergWrite_in {s : State} {a : Nat} (h : stackOk s (stackOf a) = true) {bs : List Byte} {i : Nat} {b : Byte}
    (hb : bs[i]? = some b) : ergByte (s.ergWrite a bs) (a + i) = b := by
  rw [State.ergWrite_of_ok h]
  exact Tab.get_setList_mid _ bs _ _ _ _ hb

theorem ergByte_ergWrite_out (s : State) {a : Nat} {bs : List Byte} {a' : Nat} (h : a' < a ∨ a + bs.length ≤ a') :
    ergByte (s.ergWrite a bs) a' = ergByte s a' := by
  unfold State.ergWrite
  split
  · rcases h with h | h
    · exact Tab.get_setList_lt _ bs _ _ _ h
    · exact Tab.get_setList_ge _ bs _ _ _ h
  · rfl

theorem State.bar2Put_of_download {s : State} (h : hostDownload s = true) (a : Nat) (bs : List Byte) : s.bar2Put a bs = s := by
  simp [State.bar2Put, h]

/-- Inside the window a write stores its bytes, or is dropped as an error where a segment bars it. -/
theorem State.bar2Put_of_inside {s : State} {a : Nat} {bs : List Byte} (hin : a + bs.length ≤ bar2Size) (hne : bs ≠ [])
    (h : hostDownload s = false) : s.bar2Put a bs =
      if spanIn (fun g => !bar2Barred s g) a bs.length then s.ergWrite a bs
      else s.accessErr 2 (lo32 a) (BitVec.ofNat 32 (2 ^ 31 + a / 2 ^ 32 % 16)) := by
  simp [State.bar2Put, h, Nat.not_lt.mpr hin, hne]

/-- The high word captured for an address of BAR2: bit 31, and the address above bit 31. -/
theorem bar2_high {a : Nat} (h : a < 2 ^ 36) :
    bit (BitVec.ofNat 32 (2 ^ 31 + a / 2 ^ 32 % 16)) 31 = true ∧
      bits (BitVec.ofNat 32 (2 ^ 31 + a / 2 ^ 32 % 16)) 3 0 = a / 2 ^ 32 := by
  constructor
  · rw [bit, BitVec.getLsbD_ofNat, Nat.testBit_eq_decide_div_mod_eq]
    simp
    omega
  · rw [bits, nbits, BitVec.toNat_ofNat]
    omega

/-! ### Writes by access types (R24) -/

/-- A plain register all of whose fields take every value needs no clip, so its unit's rule for bad writes is idle. -/
theorem RegRow.write_of_free {r : RegRow} (hk : r.kind = .plain) (hf : ∀ f ∈ r.fields, f.free = true) (ignore : Bool)
    (old v : Word) : r.write ignore old v = ((r.write false old v).1, false) := by
  have hbad : (r.fields.map (fun f => f.write old v)).any (fun p => p.2) = false := by
    simpa using fun f h => FieldRow.snd_write_of_free (hf f h) old v
  simp only [RegRow.write, hk, hbad, Bool.and_false, Bool.false_eq_true, if_false]

/-- A register that is no counter has no counts to come after a write. -/
theorem State.store_of_write {a : Nat} {u : UnitRow} {row : RegRow} (h : regAt a = some (u, row))
    (hk : row.kind ≠ .counter) (s : State) (b : Blk) {v x : Word} (hw : row.write u.ignore (s.rd b a) v = (x, false)) :
    s.store b a v = s.wr b a x := by
  have hc : countedNow s b a = none := by simp [countedNow, isCounter, h, hk]
  have hx : row.write u.ignore (rget (s.regs b) a) v = (x, false) := hw
  simp [State.store, hc, writeReg, h, hx, State.wr]

theorem State.store_of_free {a : Nat} {u : UnitRow} {row : RegRow} (h : regAt a = some (u, row))
    (hk : row.kind = .plain) (hf : ∀ f ∈ row.fields, f.free = true) (s : State) (b : Blk) (v : Word) :
    s.store b a v = s.wr b a (row.write false (s.rd b a) v).1 :=
  State.store_of_write h (by simp [hk]) s b (RegRow.write_of_free hk hf _ _ v)

/-- A write of any value clears an attempt counter (R22). -/
theorem State.store_attempts {a : Nat} {u : UnitRow} {row : RegRow} (h : regAt a = some (u, row))
    (hk : row.kind = .attempts) (s : State) (b : Blk) (v : Word) : s.store b a v = s.wr b a 0#32 :=
  State.store_of_write h (by simp [hk]) s b (by simp [RegRow.write, hk])

/-- A register of one field from bit 0 that software writes takes the field's bits. -/
theorem write_low_rw {r : RegRow} (hk : r.kind = .plain) {hi : Nat} (hf : r.fields = [fRow hi 0 .rw]) (old v : Word) :
    (r.write false old v).1 = BitVec.ofNat 32 (bits v hi 0) := by
  apply BitVec.eq_of_getLsbD_eq
  intro j hj
  have hb := RegRow.bit_write hk (by simp [hf, fRow, FieldRow.free]) false old v j hj
  rw [hf] at hb
  rw [BitVec.getLsbD_ofNat, testBit_bits]
  simpa [bit, fRow, Acc.bitAfter, hj, Nat.lt_succ_iff] using hb

/-- A read-only register keeps what it holds. -/
theorem write_whole_ro {r : RegRow} (hk : r.kind = .plain) (hf : r.fields = [fRow 31 0 .ro]) (old v : Word) :
    (r.write false old v).1 = old := by
  apply BitVec.eq_of_getLsbD_eq
  intro j hj
  have hb := RegRow.bit_write hk (by simp [hf, fRow, FieldRow.free]) false old v j hj
  rw [hf] at hb
  simpa [bit, fRow, Acc.bitAfter, Nat.le_of_lt_succ hj] using hb

/-! ### Counter writes (R21) -/

theorem counterWrite_eq (old v : Word) : counterWrite old v =
    if v = 0xFFFFFFFF#32 then 0#32 else if old = 0xFFFFFFFF#32 then 0xFFFFFFFF#32 else old &&& ~~~ v := by
  unfold counterWrite counterSat
  by_cases h : old = 0xFFFFFFFF#32
  · simp [h]
  · simp [h]

theorem writeReg_counter {a : Nat} {u : UnitRow} {row : RegRow} (h : regAt a = some (u, row)) (hk : row.kind = .counter)
    (r : RegFile) (v : Word) : writeReg r a v = rset r a (counterWrite (rget r a) v) := by
  simp [writeReg, h, RegRow.write, hk]

theorem State.rd_store_counter {a : Nat} {u : UnitRow} {row : RegRow} (h : regAt a = some (u, row))
    (hk : row.kind = .counter) {s : State} {b : Blk} (hc : countedNow s b a = none) (v : Word) :
    (s.store b a v).rd b a = counterWrite (s.rd b a) v := by
  rw [State.store, hc]
  simp [writeReg_counter h hk, State.rd]

/-- What a counter has counted in the cycle of the write comes after it. -/
theorem State.rd_store_counted {a : Nat} {u : UnitRow} {row : RegRow} (h : regAt a = some (u, row))
    (hk : row.kind = .counter) {s : State} {b : Blk} {e : Word × Nat} (hc : countedNow s b a = some e) (v : Word) :
    (s.store b a v).rd b a = satAdd (counterWrite e.1 v) e.2 := by
  rw [State.store, hc]
  dsimp only
  rw [State.rd_countBy, State.rd_setRegs, writeReg_counter h hk, rget_rset_same, rget_rset_same]

theorem RegsKept.store_counter {a : Nat} {u : UnitRow} {row : RegRow} (h : regAt a = some (u, row))
    (hk : row.kind = .counter) (s : State) (b : Blk) (v : Word) : RegsKept b [a] s (s.store b a v) := by
  intro a' ha
  have hne : a' ≠ a := by simpa using ha
  unfold State.store
  split
  · simp [State.rd, writeReg_counter h hk, rget_rset_ne _ _ hne]
  · rw [State.rd_countBy_ne _ _ _ _ _ hne]
    simp [State.rd, writeReg_counter h hk, rget_rset_ne _ _ hne]

/-! ### Writes to an encoder port and to a lane page -/

theorem State.unitWrite_enc (s : State) (n o a : Nat) (v : Word) : s.unitWrite unitEnc n o a v = s.encWrite n o a v := by
  simp [State.unitWrite, unitEnc, unitHst, unitMbx, unitDlp, unitDlk, unitPix, unitObj, unitEjt, unitEjb, unitEjs, unitPwm,
    unitPwg]

theorem State.unitWrite_dlp (s : State) (n o a : Nat) (v : Word) : s.unitWrite unitDlp n o a v = s.phyWrite n o a v := by
  simp [State.unitWrite, unitHst, unitMbx, unitDlp]

/-- The registers of an encoder port without behaviour of their own. -/
theorem State.busWrite_enc {a : Nat} {row : RegRow} (h : regAt a = some (unitEnc, row))
    (ho : (a - unitEnc.base) % unitEnc.stride ∉ [0, 0x1C, 0x108]) (s : State) (v : Word) :
    s.busWrite a v = s.store .mot a v := by
  simp only [List.mem_cons, List.not_mem_nil, or_false, not_or] at ho
  obtain ⟨h0, h1, h2⟩ := ho
  unfold State.busWrite
  rw [h]
  dsimp only
  rw [State.unitWrite_enc, State.encWrite, if_neg h0, if_neg h1, if_neg h2]

theorem State.busWrite_attempt {a : Nat} {row : RegRow} (h : regAt a = some (unitDlp, row))
    (ho : (a - unitDlp.base) % unitDlp.stride = 0x10) (s : State) (v : Word) : s.busWrite a v = s.store .phy a v := by
  unfold State.busWrite
  rw [h]
  dsimp only
  rw [State.unitWrite_dlp, ho]
  rfl

theorem regAt_encNoiseLim : ∀ n : Fin 8,
    regAt (ENC_NOISE_LIM n) = some (unitEnc, ⟨0x48, 0, 1, .plain, 0x40, [fRow 15 0 .rw]⟩) := by
  decide

theorem regAt_encSpeed : ∀ n : Fin 8, regAt (ENC_SPEED n) = some (unitEnc, ⟨0x10, 0, 1, .plain, 0, [fRow 31 0 .ro]⟩) := by
  decide

theorem regAt_encStatus : ∀ n : Fin 8, regAt (ENC_STATUS n) = some (unitEnc, ⟨0x14, 0, 1, .plain, 0x8,
    [fRow 13 13 .w1c, fRow 12 12 .w1c, fRow 11 11 .w1c, fRow 10 10 .w1c, fRow 9 9 .w1c, fRow 8 8 .w1c, fRow 7 7 .w1c,
     fRow 6 6 .w1c, fRow 5 5 .ro, fRow 4 4 .ro, fRow 3 3 .ro, fRow 2 2 .ro, fRow 1 0 .ro]⟩) := by
  decide +kernel

theorem regAt_encCntIllegal : ∀ n : Fin 8, regAt (ENC_CNT_ILLEGAL n) = some (unitEnc, cRow 0x80) := by
  decide +kernel

theorem regAt_phyAttempt : ∀ p : Fin 24, regAt (phyAttempt p) = some (unitDlp, ⟨0x10, 0, 1, .attempts, 0, []⟩) := by
  decide +kernel

theorem State.flag_store_encStatus (s : State) (n : Fin 8) (v : Word) {i : Nat} (hi : i ≤ 13) :
    (s.store .mot (ENC_STATUS n) v).flag .mot (ENC_STATUS n) i =
      (s.flag .mot (ENC_STATUS n) i && !(decide (6 ≤ i) && bit v i)) := by
  rw [State.store_of_free (regAt_encStatus n) rfl (by decide), State.flag, State.rd_wr_same,
    RegRow.bit_write rfl (by decide) false _ _ _ (by omega), State.flag]
  interval_cases i <;> simp [fRow, Acc.bitAfter]

/-! ### Split values (R16) -/

theorem regAt_tbLo : regAt HST_TB_LO = some (unitHst, ⟨0x10, 0, 1, .plain, 0, [fRow 31 0 .ro]⟩) := rfl

theorem regAt_tbHi : regAt HST_TB_HI = some (unitHst, ⟨0x14, 0, 1, .plain, 0, [fRow 31 0 .ro]⟩) := rfl

theorem regReading_tbLo (s : State) : regReading s HST_TB_LO = lo32 s.now := by
  rw [regReading, regAt_tbLo]
  exact BitVec.and_allOnes

theorem regReading_tbHi (s : State) : regReading s HST_TB_HI = hi32 s.now := by
  rw [regReading, regAt_tbHi]
  exact BitVec.and_allOnes

theorem poweredOff_hst (s : State) (n : Nat) : poweredOff s unitHst n = false := by
  simp [poweredOff, unitHst, unitPix, unitDlp, unitCvy, unitEjt, unitEjb, unitEjs, unitPwm, unitPwg]

theorem State.busRead_tbLo (s : State) (fn : Nat) :
    s.busRead fn HST_TB_LO = (s.latch fn HST_TB_LO (hi32 s.now)).answer (lo32 s.now) := by
  rw [← regReading_tbLo s, ← regReading_tbHi s, State.busRead, regAt_tbLo]
  dsimp only
  rw [poweredOff_hst, Bool.and_false]
  rfl

theorem State.busRead_tbHi (s : State) (fn : Nat) :
    s.busRead fn HST_TB_HI = s.answer (Tab.get (fun _ => 0#32) s.time.held (heldKey fn HST_TB_LO)) := by
  rw [State.busRead, regAt_tbHi]
  dsimp only
  rw [poweredOff_hst, Bool.and_false]
  rfl

end Sys2Proof.Machine

section
open Sys2Proof Sys2Proof.Machine

/-- Settles O10: each dropped access is the model's one access error, with its bit and its capture. -/
theorem droppedAccessesSetAccessErr : Obligations.DroppedAccessesSetAccessErr := by
  unfold Obligations.DroppedAccessesSetAccessErr
  refine ⟨fun addr v s h => ?_, fun addr lanes s h hl => ?_, fun addr u row s h hst hoff => ?_, fun v s => ?_,
    fun addr lanes s hl => ?_, fun addr data s h => ?_, fun addr data s hin hne hd => ⟨fun hsp hok => ?_, fun hsp hok => ?_,
      fun hsp => ?_⟩⟩
  · refine ⟨s.accessErr 2 (lo32 addr) 0#32, ?_, s.flag_accessErr_same (by decide) _ _, s.flag_accessErr_any _ _ _,
      s.rd_accessErr_addr _ _ _, s.rd_accessErr_addrHi _ _ _, fun i h0 h2 => s.flag_accessErr_ne h0 h2 _ _,
      .accessErr s _ _ _, s.time_accessErr _ _ _, .accessErr s _ _ _⟩
    exact congrArg _ (if_pos (by simp [h]))
  · refine ⟨s.accessErr 1 (lo32 addr) 0#32, ?_, s.flag_accessErr_same (by decide) _ _, s.flag_accessErr_any _ _ _,
      s.rd_accessErr_addr _ _ _, fun i h0 h1 => s.flag_accessErr_ne h0 h1 _ _,
      .accessErr s _ _ _, s.time_accessErr _ _ _, .accessErr s _ _ _⟩
    have hreg : ¬ (regAt addr).isNone = true := by simpa [Option.isSome_iff_ne_none] using h
    exact congrArg Host.Outcome.next ((if_neg hl).trans (if_neg hreg))
  · refine ⟨(s.accessErr 3 (lo32 addr) 0#32).answer 0#32, ?_, rfl, s.flag_accessErr_same (by decide) _ _,
      s.flag_accessErr_any _ _ _, s.rd_accessErr_addr _ _ _, fun i h0 h3 => s.flag_accessErr_ne h0 h3 _ _,
      .accessErr s _ _ _, ?_⟩
    · change execOffRead addr s = _
      simp [execOffRead, h, hst, hoff]
    · exact (Kept.accessErr s 3 _ _).answered rfl
  · exact ⟨s.store .time HST_ACCESS_ERR v, rfl, fun i hi => s.flag_store_accessErr v hi, by
      rw [State.store_hst regAt_accessErr]
      exact .wr s _ _ (by simp), by rw [State.store_hst regAt_accessErr]; rfl, .store s _ _ v (by simp)⟩
  · have hstay := (s.accessErr 1 (lo32 addr) 0#32).errsStay_busRead 0 addr
    refine ⟨((s.accessErr 1 (lo32 addr) 0#32).busRead 0 addr).answer
      (((s.accessErr 1 (lo32 addr) 0#32).busRead 0 addr).readData &&& laneMask lanes), ?_,
      hstay 1 (s.flag_accessErr_same (by decide) _ _),
      hstay 0 (s.flag_accessErr_any _ _ _), rfl⟩
    exact congrArg Host.Outcome.next (if_neg hl)
  · exact congrArg _ (State.bar2Put_of_download h addr data)
  · refine congrArg Host.Outcome.next ((State.bar2Put_of_inside hin hne hd).trans ?_)
    rw [if_pos hsp, State.ergWrite_of_failed hok]
  · refine ⟨s.ergWrite addr data, congrArg Host.Outcome.next ((State.bar2Put_of_inside hin hne hd).trans (if_pos hsp)),
      fun i b hb => ergByte_ergWrite_in hok hb, fun a ha => ergByte_ergWrite_out s ha, ?_, .ergWrite s _ _⟩
    rw [State.ergWrite_of_ok hok]
  · have hlt : addr < 2 ^ 36 := by
      have := List.length_pos_of_ne_nil hne
      rw [bar2Size] at hin
      omega
    obtain ⟨h31, h30⟩ := bar2_high hlt
    refine ⟨_, congrArg Host.Outcome.next ((State.bar2Put_of_inside hin hne hd).trans (if_neg (by simp [hsp]))),
      s.flag_accessErr_same (by decide) _ _, s.flag_accessErr_any _ _ _, fun h0 => ?_, .accessErr s _ _ _,
      .accessErr s _ _ _⟩
    rw [State.flag, State.fld, s.rd_accessErr_addr, s.rd_accessErr_addrHi, h0]
    exact ⟨rfl, h31, h30⟩

/-- Settles O11: each register's row of the map says what its write does, and the holding register what the high half reads. -/
theorem registerAccessesFollowTheirTypes : Obligations.RegisterAccessesFollowTheirTypes := by
  unfold Obligations.RegisterAccessesFollowTheirTypes
  have hmot : Blk.mot ∈ [Blk.mot] := by simp
  refine ⟨fun n v s => ⟨?_, ?_, ?_, ?_⟩, fun p v s => ?_, fun s => ?_⟩
  · have hoff : ∀ n : Fin 8, (ENC_NOISE_LIM n - unitEnc.base) % unitEnc.stride ∉ [0, 0x1C, 0x108] := by decide
    refine ⟨_, congrArg Host.Outcome.next (State.busWrite_enc (regAt_encNoiseLim n) (hoff n) s v), ?_, ?_,
      .store s _ _ v hmot⟩
    · rw [State.store_of_free (regAt_encNoiseLim n) rfl (by decide), State.rd_wr_same, write_low_rw rfl rfl]
    · rw [State.store_of_free (regAt_encNoiseLim n) rfl (by decide)]
      exact .wr s _ _ (by simp)
  · have hoff : ∀ n : Fin 8, (ENC_SPEED n - unitEnc.base) % unitEnc.stride ∉ [0, 0x1C, 0x108] := by decide
    have hsame : RegsKept .mot [] s (s.store .mot (ENC_SPEED n) v) := by
      rw [State.store_of_free (regAt_encSpeed n) rfl (by decide), write_whole_ro rfl rfl]
      intro a _
      by_cases ha : a = ENC_SPEED n
      · rw [ha, State.rd_wr_same]
      · exact State.rd_wr_ne _ _ _ _ _ ha
    exact ⟨_, congrArg Host.Outcome.next (State.busWrite_enc (regAt_encSpeed n) (hoff n) s v), hsame _ (by simp), hsame,
      .store s _ _ v hmot⟩
  · have hoff : ∀ n : Fin 8, (ENC_STATUS n - unitEnc.base) % unitEnc.stride ∉ [0, 0x1C, 0x108] := by decide
    refine ⟨_, congrArg Host.Outcome.next (State.busWrite_enc (regAt_encStatus n) (hoff n) s v), fun i h6 h13 => ?_,
      fun i h6 => ?_, ?_, .store s _ _ v hmot⟩
    · rw [s.flag_store_encStatus n v h13, decide_eq_true h6, Bool.true_and]
    · rw [s.flag_store_encStatus n v (by omega), decide_eq_false (by omega), Bool.false_and, Bool.not_false, Bool.and_true]
    · rw [State.store_of_free (regAt_encStatus n) rfl (by decide)]
      exact .wr s _ _ (by simp)
  · have hoff : ∀ n : Fin 8, (ENC_CNT_ILLEGAL n - unitEnc.base) % unitEnc.stride ∉ [0, 0x1C, 0x108] := by decide
    refine ⟨s.store .mot (ENC_CNT_ILLEGAL n) v, ?_, fun hc => ?_, fun e hc => ?_,
      .store_counter (regAt_encCntIllegal n) rfl s _ v, .store s _ _ v hmot⟩
    · change execCounterWrite _ v s = _
      rw [execCounterWrite, regAt_encCntIllegal n]
      exact congrArg Host.Outcome.next (State.busWrite_enc (regAt_encCntIllegal n) (hoff n) s v)
    · rw [State.rd_store_counter (regAt_encCntIllegal n) rfl hc, counterWrite_eq]
    · rw [State.rd_store_counted (regAt_encCntIllegal n) rfl hc, counterWrite_eq]
  · have hoff : ∀ p : Fin 24, (phyAttempt p - unitDlp.base) % unitDlp.stride = 0x10 := by decide
    have hst := State.store_attempts (regAt_phyAttempt p) rfl s .phy v
    refine ⟨s.store .phy (phyAttempt p) v, ?_, ?_, ?_, .store s _ _ v (by simp)⟩
    · change execAttemptCounterWrite _ v s = _
      rw [execAttemptCounterWrite, regAt_phyAttempt p]
      exact congrArg Host.Outcome.next (State.busWrite_attempt (regAt_phyAttempt p) (hoff p) s v)
    · rw [hst, State.rd_wr_same]
    · rw [hst]
      exact .wr s _ _ (by simp)
  · refine ⟨_, congrArg Host.Outcome.next (s.busRead_tbLo 0), rfl, rfl, ?_, fun t' hheld => ?_⟩
    · have hl : Kept [.time] s (s.latch 0 HST_TB_LO (hi32 s.now)) := by simp [Kept, State.latch]
      exact hl.answered rfl
    · refine ⟨_, congrArg Host.Outcome.next (t'.busRead_tbHi 0), hheld.trans ?_, rfl⟩
      exact Tab.get_set_same _ _ _ _

end

end

/-! ## Cold and warm reset -/

section

namespace Sys2Proof.Machine

/-! ### The timebase after a warm reset (R30, R31) -/

/-- Setting bits of one register: each bit named in the list is set, the others stay. -/
theorem bit_foldl_wrBit (a : Nat) {i : Nat} (hi : i < 32) (l : List Nat) :
    ∀ r : RegFile, bit (rget (l.foldl (fun r c => wrBit r a c true) r) a) i = (bit (rget r a) i || l.contains i) := by
  induction l with
  | nil => intro r; simp
  | cons c l ih =>
    intro r
    rw [List.foldl_cons, ih, rget_wrBit_same, List.contains_cons]
    by_cases h : i = c
    · subst h
      simp [hi]
    · simp [bit_putBit_ne _ _ _ _ h, beq_eq_false_iff_ne.mpr h]

/-- Registers other than HST_RESET_CAUSE and HST_TB_STATUS keep their RWS bits over a warm reset. -/
theorem TimeSt.rget_afterWarm_ne (t : TimeSt) (causes : List Nat) {a : Nat} (h₁ : a ≠ HST_RESET_CAUSE)
    (h₂ : a ≠ HST_TB_STATUS) : rget (t.afterWarm causes).regs a = warmValue a (rget t.regs a) := by
  simp only [TimeSt.afterWarm]
  rw [rget_foldl_wrBit_ne _ _ _ h₁, rget_wrBits_ne _ _ _ _ h₂, rget_warmRegs]

/-- STATE after a warm reset follows DISC, the rest of HST_TB_STATUS is as after reset. -/
theorem TimeSt.rget_afterWarm_status (t : TimeSt) (causes : List Nat) :
    rget (t.afterWarm causes).regs HST_TB_STATUS =
      putBits (warmValue HST_TB_STATUS (rget t.regs HST_TB_STATUS)) 1 0
        (if bit (rget t.regs HST_TB_CTRL) 0 then 3 else 0) := by
  have hdisc : bit (rget (warmRegs t.regs) HST_TB_CTRL) 0 = bit (rget t.regs HST_TB_CTRL) 0 := by
    rw [rget_warmRegs, bit_warmValue, if_pos (by decide)]
  simp only [TimeSt.afterWarm]
  rw [rget_foldl_wrBit_ne _ _ _ (by decide), rget_wrBits_same, rget_warmRegs, hdisc]

theorem TimeSt.bit_afterWarm_cause (t : TimeSt) (causes : List Nat) {i : Nat} (hi : i < 4) :
    bit (rget (t.afterWarm causes).regs HST_RESET_CAUSE) i = (bit (rget t.regs HST_RESET_CAUSE) i || causes.contains i) := by
  have hkeep : ∀ i, i < 4 → bit (keepMask HST_RESET_CAUSE) i = true := by decide
  simp only [TimeSt.afterWarm]
  rw [bit_foldl_wrBit _ (by omega), rget_wrBits_ne _ _ _ _ (by decide), rget_warmRegs, bit_warmValue, if_pos (hkeep i hi)]

/-! ### Warm reset (R31, R32, R400) -/

/-- A fold of changes of the object block alone changes the object block alone. -/
theorem State.each_obj {α : Type} (f : State → α → State) (hf : ∀ s x, ∃ o, f s x = { s with obj := o }) (l : List α) :
    ∀ s : State, ∃ o, s.each l f = { s with obj := o } := by
  induction l with
  | nil => exact fun s => ⟨s.obj, rfl⟩
  | cons x l ih =>
    intro s
    obtain ⟨o₁, h₁⟩ := hf s x
    obtain ⟨o₂, h₂⟩ := ih (f s x)
    exact ⟨o₂, by rw [State.each, List.foldl_cons, ← State.each, h₂, h₁]⟩

theorem State.loadSerials_eq (s : State) : ∃ o, s.loadSerials = { s with obj := o } :=
  State.each_obj _ (fun _ _ => ⟨_, rfl⟩) _ s

theorem HostSt.mbx_afterReset (h : HostSt) (regs : RegFile) (cfgToo : Bool) : (h.afterReset regs cfgToo).mbx = none := by
  cases cfgToo <;> rfl

theorem HostSt.mem_afterReset (h : HostSt) (regs : RegFile) (cfgToo : Bool) : (h.afterReset regs cfgToo).mem = h.mem := by
  cases cfgToo <;> rfl

theorem State.warmlyReset_warmNow (s : State) (cause : Nat) :
    WarmlyReset cause s (s.warmNow (cause :: s.time.warmWait)) := by
  obtain ⟨o, ho⟩ := State.loadSerials_eq
    { (s.warmSorting).warmRest ((cause :: s.time.warmWait).contains 1) with time := s.time.afterWarm (cause :: s.time.warmWait) }
  have hw : s.warmNow (cause :: s.time.warmWait) = _ := ho
  rw [hw]
  have hctrl := s.time.rget_afterWarm_ne (cause :: s.time.warmWait) (a := HST_TB_CTRL) (by decide) (by decide)
  have hkeep : ∀ i, i < 2 → bit (keepMask HST_TB_CTRL) i = true := by decide
  have hstatus := s.time.rget_afterWarm_status (cause :: s.time.warmWait)
  refine ⟨rfl, rfl, rfl, ?_, fun i hi => ?_, ?_, ?_, ?_, fun i hi => ?_, rfl, rfl, rfl, rfl, rfl, rfl, rfl, rfl, rfl,
    HostSt.mem_afterReset _ _ _, HostSt.mbx_afterReset _ _ _, rfl⟩
  · exact (s.time.rget_afterWarm_ne _ (by decide) (by decide)).trans (warmValue_tbRate _)
  · rw [State.flag, State.rd_time, hctrl, bit_warmValue, if_pos (hkeep i hi), State.flag, State.rd_time]
  · rw [State.flag, State.rd_time, hctrl, bit_warmValue]
    exact (if_neg (by decide)).trans (by decide)
  · rw [State.fld, State.rd_time, hstatus, bits_putBits_same _ _ _ _ (by decide) (by decide), State.flag, State.rd_time]
    split <;> rfl
  · rw [State.flag, State.rd_time, hstatus, bit_putBits_ne _ _ _ _ _ (by decide), bit_warmValue]
    exact (if_neg (by decide)).trans (by decide)
  · have hc := s.time.bit_afterWarm_cause (cause :: s.time.warmWait) hi
    rw [List.contains_cons, ← Bool.or_assoc] at hc
    exact hc

theorem State.warmReset_of_up {s : State} (hup : s.pwr.coreUp = true) (href : s.time.refSysOk = true) (cause : Nat) :
    s.warmReset cause = s.warmNow (cause :: s.time.warmWait) := by
  simp [State.warmReset, hup, href]

theorem State.warmlyReset_warmReset {s : State} (hup : s.pwr.coreUp = true) (href : s.time.refSysOk = true) (cause : Nat) :
    WarmlyReset cause s (s.warmReset cause) := by
  rw [State.warmReset_of_up hup href]
  exact s.warmlyReset_warmNow cause

/-- Without its reference clock a warm reset waits. -/
theorem State.warmReset_of_noRef {s : State} (hup : s.pwr.coreUp = true) (href : s.time.refSysOk = false) (cause : Nat) :
    s.warmReset cause = s.onTime (fun t => { t with warmWait := cause :: t.warmWait }) := by
  simp [State.warmReset, hup, href]

/-- The reference clock is back (R400). -/
def State.withRef (s : State) (ref : Bool) : State := if ref then s.onTime (fun t => { t with refSysOk := true }) else s

theorem State.refSysOk_withRef (s : State) (ref : Bool) : (s.withRef ref).time.refSysOk = (s.time.refSysOk || ref) := by
  cases ref <;> simp [State.withRef, State.onTime]

/-- A reset that the return of the clock starts counts from the state before. -/
theorem warmlyReset_of_withRef {s t : State} {ref : Bool} {cause : Nat} (h : WarmlyReset cause (s.withRef ref) t) :
    WarmlyReset cause s t := by
  cases ref <;> exact h

theorem warmlyReset_exec_warmReset (wdog : Bool) {ref : Bool} {s : State} (hup : s.pwr.coreUp = true)
    (href : (s.time.refSysOk || ref) = true) :
    ∃ t, exec (.warmReset wdog ref) s = .next t ∧ WarmlyReset (if wdog then 3 else 1) s t := by
  have hup' : (s.withRef ref).pwr.coreUp = true := by cases ref <;> exact hup
  exact ⟨(s.withRef ref).warmReset (if wdog then 3 else 1), rfl,
    warmlyReset_of_withRef (State.warmlyReset_warmReset hup' ((s.refSysOk_withRef ref).trans href) _)⟩

/-! ### Cold reset (R11, R31) -/

theorem rget_filter_keep {p : Nat → Bool} (r : RegFile) {a : Nat} (h : p a = true) :
    rget (r.filter (fun e => p e.1)) a = rget r a := by
  induction r with
  | nil => rfl
  | cons e r ih =>
    obtain ⟨k, v⟩ := e
    unfold rget at *
    by_cases hk : p k = true
    · simp [hk, Tab.get, ih]
    · have hne : k ≠ a := by rintro rfl; exact hk h
      simp [hk, Tab.get, hne, ih]

theorem rget_filter_drop {p : Nat → Bool} (r : RegFile) {a : Nat} (h : p a = false) :
    rget (r.filter (fun e => p e.1)) a = regReset a := by
  refine rget_of_not_mem _ a fun hm => ?_
  obtain ⟨e, he, rfl⟩ := List.mem_map.mp hm
  rw [List.mem_filter, h] at he
  exact absurd he.2 (by simp)

theorem State.rd_coldNow_oasis (s : State) {a : Nat} (h : isOasis a = true) : s.coldNow.rd .pwr a = s.rd .pwr a :=
  rget_filter_keep _ h

end Sys2Proof.Machine

end

/-! ## Function-level reset -/

section

namespace Sys2Proof.Machine

/-! ### Who owns what: client IDs, the queues of the channels, the PCIe configuration -/

/-- What a function-level reset goes by: every client's ID register, every channel's queue, the configuration. -/
def State.owned (s : State) : (Nat → Word) × (Nat → List Desc) × PcieCfg :=
  (fun c => s.rd .host (HST_CLI_ID c), fun n => (s.dmaCh n).queue, s.host.cfg)

theorem State.queue_of_owned {s t : State} (h : t.owned = s.owned) (n : Nat) : (t.dmaCh n).queue = (s.dmaCh n).queue :=
  congrFun (congrArg (fun p => p.2.1) h) n

@[simp] theorem State.owned_ite (c : Prop) [Decidable c] (s t : State) :
    (if c then s else t).owned = if c then s.owned else t.owned := apply_ite State.owned c s t

theorem State.owned_setRegs (s : State) {b : Blk} (r : RegFile) (h : b ≠ .host) : (s.setRegs b r).owned = s.owned := by
  cases b with
  | host => exact absurd rfl h
  | _ => rfl

@[simp] theorem State.owned_wr (s : State) {b : Blk} (a : Nat) (v : Word) (h : b ≠ .host) : (s.wr b a v).owned = s.owned :=
  s.owned_setRegs _ h

@[simp] theorem State.owned_put (s : State) {b : Blk} (a hi lo x : Nat) (h : b ≠ .host) :
    (s.put b a hi lo x).owned = s.owned := s.owned_setRegs _ h

@[simp] theorem State.owned_setb (s : State) {b : Blk} (a i : Nat) (x : Bool) (h : b ≠ .host) :
    (s.setb b a i x).owned = s.owned := s.owned_setRegs _ h

@[simp] theorem State.owned_count (s : State) {b : Blk} (a : Nat) (h : b ≠ .host) : (s.count b a).owned = s.owned :=
  s.owned_setRegs _ h

/-- A register of a client page other than its first is stored. -/
theorem State.owned_rset_host (s : State) {a : Nat} (v : Word) (h : a % 0x1000 ≠ 0) :
    (s.setRegs .host (rset s.host.regs a v)).owned = s.owned := by
  have hid : ∀ c, (s.setRegs .host (rset s.host.regs a v)).rd .host (HST_CLI_ID c) = s.rd .host (HST_CLI_ID c) :=
    fun c => s.rd_wr_ne .host a _ v (by rintro rfl; simp at h)
  simp only [State.owned, hid]
  rfl

@[simp] theorem State.owned_wr_host (s : State) {a : Nat} (v : Word) (h : a % 0x1000 ≠ 0) :
    (s.wr .host a v).owned = s.owned := s.owned_rset_host v h

@[simp] theorem State.owned_setb_host (s : State) {a : Nat} (i : Nat) (x : Bool) (h : a % 0x1000 ≠ 0) :
    (s.setb .host a i x).owned = s.owned := s.owned_rset_host _ h

@[simp] theorem State.owned_count_host (s : State) {a : Nat} (h : a % 0x1000 ≠ 0) :
    (s.count .host a).owned = s.owned := s.owned_rset_host _ h

@[simp] theorem State.owned_onClient (s : State) (c : Nat) (f : ClientSt → ClientSt) : (s.onClient c f).owned = s.owned := (rfl)

@[simp] theorem State.owned_hostPut (s : State) (a : Nat) (bs : List Byte) (strict : Bool) (tph : Option (Nat × Nat)) :
    (s.hostPut a bs strict tph).owned = s.owned := (rfl)

@[simp] theorem State.owned_dirtySeg (s : State) (n : Nat) : (s.dirtySeg n).owned = s.owned := (rfl)

@[simp] theorem State.owned_vectorSend (s : State) (fn v : Nat) : (s.vectorSend fn v).owned = s.owned := (rfl)

@[simp] theorem State.owned_vector (s : State) (fn v : Nat) : (s.vector fn v).owned = s.owned := by
  unfold State.vector
  split
  · rfl
  · simp

theorem State.owned_each {α : Type} (f : State → α → State) (hf : ∀ s x, (f s x).owned = s.owned) (l : List α) :
    ∀ s : State, (s.each l f).owned = s.owned := by
  induction l with
  | nil => exact fun _ => rfl
  | cons x l ih => exact fun s => (ih (f s x)).trans (hf s x)

/-- A change of a channel that leaves its queue. -/
theorem State.owned_onDma (s : State) (n : Nat) (f : DmaCh → DmaCh) (hf : (f (s.dmaCh n)).queue = (s.dmaCh n).queue) :
    (s.onDma n f).owned = s.owned := by
  have hq : ∀ m, ((s.onDma n f).dmaCh m).queue = (s.dmaCh m).queue := by
    intro m
    by_cases h : m = n
    · subst h
      simpa using hf
    · rw [State.onDma_dmaCh_ne _ _ _ _ h]
  simp only [State.owned, hq]
  rfl

/-! ### What the end of a descriptor leaves -/

@[simp] theorem State.owned_cliSync (s : State) (c : Nat) : (s.cliSync c).owned = s.owned := by
  unfold State.cliSync
  dsimp only
  split
  · rfl
  · simp

@[simp] theorem State.owned_ringPut (s : State) (c : Nat) (bs : List Byte) : (s.ringPut c 2 bs).owned = s.owned := by
  unfold State.ringPut
  have hprod : (0x400004C + c * 0x1000 + 2 * 0x20) % 0x1000 ≠ 0 := by omega
  exact (State.owned_wr_host _ _ hprod).trans (State.owned_hostPut _ _ _ _ _)

@[simp] theorem State.owned_gapPut (s : State) (c : Nat) : (s.gapPut c 2).1.owned = s.owned := by
  unfold State.gapPut
  cases hg : (s.client c).cplGap <;> simp [apply_ite Prod.fst, hg]

@[simp] theorem State.owned_writeBack (s : State) (c : Nat) : (s.writeBack c).owned = s.owned := by
  unfold State.writeBack
  simp

@[simp] theorem State.owned_interrupt (s : State) (c : Nat) : (s.interrupt c).owned = s.owned := by
  simp [State.interrupt]

@[simp] theorem State.owned_cliWrote (s : State) (c n : Nat) (err : Bool) : (s.cliWrote c n err).owned = s.owned := by
  simp [State.cliWrote]

@[simp] theorem State.owned_completionPut (s : State) (c : Nat) (bs : List Byte) :
    (s.completionPut c bs).owned = s.owned := by
  simp [State.completionPut]

@[simp] theorem State.owned_useDesc (s : State) (d : Desc) (more : Bool) : (s.useDesc d more).owned = s.owned := by
  simp [State.useDesc]

@[simp] theorem State.owned_descEnds (s : State) (n : Nat) (d : Desc) (status cause tries : Nat) (retried : Bool) :
    (s.descEnds n d status cause tries retried).owned = s.owned := by
  simp [State.descEnds]

@[simp] theorem State.owned_reapSegs (s : State) : s.reapSegs.owned = s.owned :=
  State.owned_each _ (fun _ _ => by simp) _ s

@[simp] theorem State.owned_chSettle (s : State) (n : Nat) : (s.chSettle n).owned = s.owned :=
  s.owned_onDma n _ rfl

@[simp] theorem State.owned_chGo (s : State) (n st : Nat) : (s.chGo n st).owned = s.owned := by simp [State.chGo]

@[simp] theorem State.owned_chSync (s : State) (n : Nat) : (s.chSync n).owned = s.owned := by
  simp [State.chSync]

/-! ### The descriptors of a function end (R31, R284) -/

/-- Ending some of a channel's descriptors leaves the others of its queue, and the other channels. -/
theorem State.owned_dmaEndSome (s : State) (n cause : Nat) (ends : Desc → Bool) :
    (s.dmaEndSome n cause ends).owned =
      (s.owned.1, fun m => if m = n then (s.dmaCh n).queue.filter (fun d => !ends d) else (s.dmaCh m).queue, s.owned.2.2) := by
  unfold State.dmaEndSome
  extract_lets x first s₁
  have h₁ : s₁.owned = (s.owned.1, fun m => if m = n then x.queue.filter (fun d => !ends d) else (s.dmaCh m).queue,
      s.owned.2.2) := by
    have hq : ∀ m, (s₁.dmaCh m).queue = if m = n then x.queue.filter (fun d => !ends d) else (s.dmaCh m).queue := by
      intro m
      split
      · next h =>
        subst h
        simp [s₁]
      · next h => rw [State.onDma_dmaCh_ne _ _ _ _ h, State.queue_of_owned (s.owned_chSettle n)]
    simp only [State.owned, hq]
    rfl
  exact ((State.owned_each _ (fun _ _ => by simp) _ _).trans s₁.owned_reapSegs).trans h₁

theorem State.owned_dmaFlr (s : State) (n : Nat) (of : Nat → Bool) :
    (s.dmaFlr n of).owned = (s.owned.1,
      fun m => if m = n then (s.dmaCh n).queue.filter (fun d => !of d.client) else (s.dmaCh m).queue, s.owned.2.2) := by
  unfold State.dmaFlr
  split
  · next h =>
    have hall : (s.dmaCh n).queue.filter (fun d => !of d.client) = (s.dmaCh n).queue :=
      List.filter_eq_self.mpr (by simpa using h)
    have hq : ∀ m, (if m = n then (s.dmaCh n).queue.filter (fun d => !of d.client) else (s.dmaCh m).queue) =
        (s.dmaCh m).queue := by
      intro m
      split
      · next hm => rw [hall, hm]
      · rfl
    simp only [hq]
    rfl
  · simp [State.owned_dmaEndSome]

/-- Channels that a function-level reset has gone through: none holds a descriptor of the function. -/
theorem State.dmaFlr_each (of : Nat → Bool) (l : List Nat) : ∀ s : State,
    (∀ c, (s.each l (fun s n => s.dmaFlr n of)).rd .host (HST_CLI_ID c) = s.rd .host (HST_CLI_ID c)) ∧
    (s.each l (fun s n => s.dmaFlr n of)).host.cfg = s.host.cfg ∧
    (∀ m, ∀ d ∈ ((s.each l (fun s n => s.dmaFlr n of)).dmaCh m).queue, d ∈ (s.dmaCh m).queue) ∧
    ∀ m ∈ l, ∀ d ∈ ((s.each l (fun s n => s.dmaFlr n of)).dmaCh m).queue, of d.client = false := by
  induction l with
  | nil => exact fun s => ⟨fun _ => rfl, rfl, fun _ _ h => h, by simp⟩
  | cons n l ih =>
    intro s
    obtain ⟨hid, hcfg, hsub, hout⟩ := ih (s.dmaFlr n of)
    have ho := s.owned_dmaFlr n of
    have hq : ∀ m, ((s.dmaFlr n of).dmaCh m).queue =
        if m = n then (s.dmaCh n).queue.filter (fun d => !of d.client) else (s.dmaCh m).queue :=
      congrFun (congrArg (fun p => p.2.1) ho)
    refine ⟨fun c => (hid c).trans (congrFun (congrArg Prod.fst ho) c), hcfg.trans (congrArg (fun p => p.2.2) ho),
      fun m d hd => ?_, fun m hm d hd => ?_⟩
    · have hd' := hsub m d hd
      rw [hq m] at hd'
      split at hd'
      · next h => exact h ▸ List.mem_of_mem_filter hd'
      · exact hd'
    · by_cases h : m = n
      · have hd' := hsub m d hd
        rw [hq m, if_pos h, List.mem_filter] at hd'
        simpa using hd'.2
      · exact hout m ((List.mem_cons.mp hm).resolve_left h) d hd

/-! ### The page of a client after a function-level reset (R31) -/

/-- The registers that follow a client's rings and segments. -/
def syncRegs (c : Nat) : List Nat := [HST_CLI_USE_REC c, HST_CLI_USE_CPL c, HST_CLI_USE_ERG c, HST_CLI_STATUS c]

theorem RegsKept.cliSync (s : State) (c : Nat) : RegsKept .host (syncRegs c) s (s.cliSync c) := by
  unfold State.cliSync
  extract_lets rec0 cpl segs quota s₁ s₂ s₃ ov s₄
  have h₁ : RegsKept .host (syncRegs c) s s₁ := .wr s _ _ (by simp [syncRegs])
  have h₂ : RegsKept .host (syncRegs c) s s₂ := h₁.trans (.wr s₁ _ _ (by simp [syncRegs]))
  have h₃ : RegsKept .host (syncRegs c) s s₃ := h₂.trans (.wr s₂ _ _ (by simp [syncRegs]))
  have h₄ : RegsKept .host (syncRegs c) s s₄ := h₃.trans (.setb s₃ _ _ _ (by simp [syncRegs]))
  split
  · exact .refl _ _ s
  · split
    · exact h₄.trans (.setb s₄ _ _ _ (by simp [syncRegs]))
    · split
      · exact h₄.trans (.setb s₄ _ _ _ (by simp [syncRegs]))
      · exact h₄

/-- Only the registers of a block have changed. -/
def RegsOnly (b : Blk) (s t : State) : Prop := ∃ r, t = s.setRegs b r

theorem RegsOnly.refl (b : Blk) (s : State) : RegsOnly b s s := ⟨s.regs b, by cases b <;> rfl⟩

theorem RegsOnly.trans {b : Blk} {s t u : State} (h : RegsOnly b s t) (k : RegsOnly b t u) : RegsOnly b s u := by
  obtain ⟨r, rfl⟩ := h
  obtain ⟨r', rfl⟩ := k
  exact ⟨r', by cases b <;> rfl⟩

theorem RegsOnly.wr (b : Blk) (s : State) (a : Nat) (v : Word) : RegsOnly b s (s.wr b a v) := ⟨_, rfl⟩

theorem RegsOnly.setb (b : Blk) (s : State) (a i : Nat) (x : Bool) : RegsOnly b s (s.setb b a i x) := ⟨_, rfl⟩

theorem RegsOnly.cliSync (s : State) (c : Nat) : RegsOnly .host s (s.cliSync c) := by
  unfold State.cliSync
  extract_lets rec0 cpl segs quota s₁ s₂ s₃ ov s₄
  have h₂ : RegsOnly .host s s₂ := (RegsOnly.wr .host s _ _).trans (.wr .host s₁ _ _)
  have h₄ : RegsOnly .host s s₄ := (h₂.trans (.wr .host s₂ _ _)).trans (.setb .host s₃ _ _ _)
  split
  · exact .refl .host s
  · split
    · exact h₄.trans (.setb .host s₄ _ _ _)
    · split
      · exact h₄.trans (.setb .host s₄ _ _ _)
      · exact h₄

/-- A function-level reset of a client changes its registers and its rings alone. -/
theorem State.pageFlr_eq (s : State) (c : Nat) :
    ∃ regs client, s.pageFlr c = { s with host := { s.host with regs := regs, client := client } } := by
  unfold State.pageFlr
  dsimp only
  generalize hs : State.setb _ _ _ _ _ = u
  obtain ⟨r, hr⟩ := RegsOnly.cliSync u c
  rw [hr, ← hs]
  exact ⟨_, _, rfl⟩

/-- An address outside the page of a client. -/
def offPage (c a : Nat) : Bool := decide (a < HST_CLI_ID c ∨ HST_CLI_ID c + 0x1000 ≤ a)

theorem not_mem_keys_filter {α : Type} (p : Nat → Bool) (t : Tab α) {a : Nat} (h : a ∉ t.map Prod.fst) :
    a ∉ (t.filter (fun e => p e.1)).map Prod.fst := by
  intro hm
  obtain ⟨e, he, rfl⟩ := List.mem_map.mp hm
  exact h (List.mem_map_of_mem (List.mem_of_mem_filter he))

/-- Putting back the entries that a test keeps: what the test keeps reads as in the file they come from. -/
theorem rget_putBack (keeps : Nat → Bool) (r base : RegFile) (a : Nat)
    (hbase : keeps a = true → a ∉ r.map Prod.fst → rget base a = regReset a) :
    rget ((r.filter (fun e => keeps e.1)).foldl (fun m e => rset m e.1 (rget (r.filter (fun e => keeps e.1)) e.1)) base) a =
      if keeps a then rget r a else rget base a := by
  rw [rget_foldl_rset (rget _)]
  have hmem : a ∈ (r.filter (fun e => keeps e.1)).map Prod.fst ↔ keeps a = true ∧ a ∈ r.map Prod.fst := by
    simp only [List.mem_map, List.mem_filter]
    constructor
    · rintro ⟨e, ⟨he, hk⟩, rfl⟩
      exact ⟨hk, e, he, rfl⟩
    · rintro ⟨hk, e, he, rfl⟩
      exact ⟨e, ⟨he, hk⟩, rfl⟩
  by_cases hk : keeps a = true
  · rw [if_pos hk]
    split
    · exact rget_filter_keep r hk
    · next hm =>
      have hnot : a ∉ r.map Prod.fst := fun h => hm (hmem.mpr ⟨hk, h⟩)
      rw [hbase hk hnot, rget_of_not_mem r a hnot]
  · rw [if_neg hk, if_neg (fun h => hk (hmem.mp h).1)]

/-- The page takes its reset values, but for who owns it, its quotas and the registers that follow its state. -/
theorem State.rd_pageFlr (s : State) (c : Nat) {a : Nat} (ha : a ∉ syncRegs c) :
    (s.pageFlr c).rd .host a = if keepsFlr c a || offPage c a then s.rd .host a else regReset a := by
  have hstatus : a ≠ HST_CLI_STATUS c := by rintro rfl; exact ha (by simp [syncRegs])
  unfold State.pageFlr
  rw [RegsKept.cliSync _ c a ha, State.rd_setb_ne _ _ _ _ _ _ hstatus]
  refine (rget_putBack (keepsFlr c) s.host.regs (s.host.regs.filter (fun e => offPage c e.1)) a fun _ hnot =>
    rget_of_not_mem _ a (not_mem_keys_filter (offPage c) _ hnot)).trans ?_
  cases hk : keepsFlr c a with
  | true => rfl
  | false =>
    cases hp : offPage c a with
    | true => exact rget_filter_keep (p := offPage c) _ hp
    | false => exact rget_filter_drop (p := offPage c) _ hp

/-- Every client stays bound to its function. -/
theorem State.rd_pageFlr_id (s : State) (c c' : Nat) : (s.pageFlr c).rd .host (HST_CLI_ID c') = s.rd .host (HST_CLI_ID c') := by
  have hsync : HST_CLI_ID c' ∉ syncRegs c := by
    simp [syncRegs, HST_CLI_ID, HST_CLI_USE_REC, HST_CLI_USE_CPL, HST_CLI_USE_ERG, HST_CLI_STATUS]
    omega
  have hkept : (keepsFlr c (HST_CLI_ID c') || offPage c (HST_CLI_ID c')) = true := by
    simp [keepsFlr, offPage, HST_CLI_ID]
    omega
  rw [s.rd_pageFlr c hsync, if_pos hkept]

/-- The rings of the client are off, those of other clients as before. -/
theorem State.rd_pageFlr_ctrl (s : State) (c c' : Nat) : (s.pageFlr c).rd .host (HST_CLI_CTRL c') =
    if c' = c then regReset (HST_CLI_CTRL c') else s.rd .host (HST_CLI_CTRL c') := by
  have hsync : HST_CLI_CTRL c' ∉ syncRegs c := by
    simp [syncRegs, HST_CLI_CTRL, HST_CLI_USE_REC, HST_CLI_USE_CPL, HST_CLI_USE_ERG, HST_CLI_STATUS]
    omega
  have hkept : (keepsFlr c (HST_CLI_CTRL c') || offPage c (HST_CLI_CTRL c')) = true ↔ c' ≠ c := by
    simp [keepsFlr, offPage, HST_CLI_CTRL, HST_CLI_ID, HST_CLI_Q_REC]
    omega
  rw [s.rd_pageFlr c hsync]
  by_cases h : c' = c
  · rw [if_neg (fun hk => hkept.mp hk h), if_pos h]
  · rw [if_pos (hkept.mpr h), if_neg h]

/-- The pages of a list of clients after their reset. -/
theorem State.pageFlr_each (l : List Nat) : ∀ s : State,
    (∃ regs client, s.each l (fun s c => s.pageFlr c) = { s with host := { s.host with regs := regs, client := client } }) ∧
    (∀ c, (s.each l (fun s c => s.pageFlr c)).rd .host (HST_CLI_ID c) = s.rd .host (HST_CLI_ID c)) ∧
    ∀ c, (s.each l (fun s c => s.pageFlr c)).rd .host (HST_CLI_CTRL c) =
      if c ∈ l then regReset (HST_CLI_CTRL c) else s.rd .host (HST_CLI_CTRL c) := by
  induction l with
  | nil => exact fun s => ⟨⟨_, _, rfl⟩, fun _ => rfl, fun _ => rfl⟩
  | cons x l ih =>
    intro s
    obtain ⟨⟨regs, client, heq⟩, hid, hctrl⟩ := ih (s.pageFlr x)
    obtain ⟨regs', client', hx⟩ := s.pageFlr_eq x
    refine ⟨⟨regs, client, heq.trans (by rw [hx])⟩, fun c => (hid c).trans (s.rd_pageFlr_id x c), fun c => ?_⟩
    refine (hctrl c).trans ?_
    rw [s.rd_pageFlr_ctrl]
    by_cases h : c ∈ l <;> by_cases hx : c = x <;> simp [h, hx]

/-- The client pages lie above every other unit's. -/
theorem le_of_unit_ne_cli : ∀ u ∈ units, u ≠ unitCli → u.base + u.stride * u.count ≤ unitCli.base := by decide

theorem UnitRow.has_iff (u : UnitRow) (a : Nat) : u.has a = true ↔ u.base ≤ a ∧ a < u.base + u.stride * u.count := by
  simp [UnitRow.has]

/-- An address on a client page belongs to the unit of the client pages. -/
theorem find_unit_cli {a : Nat} (hlo : unitCli.base ≤ a) (hhi : a < unitCli.base + unitCli.stride * unitCli.count) :
    units.find? (fun u => u.has a) = some unitCli := by
  have hmem : unitCli ∈ units := by decide
  obtain ⟨u, hu⟩ := Option.isSome_iff_exists.mp
    (List.find?_isSome (p := fun u : UnitRow => u.has a) |>.mpr ⟨unitCli, hmem, (unitCli.has_iff a).mpr ⟨hlo, hhi⟩⟩)
  have heq : u = unitCli := by
    by_contra hne
    have hle := le_of_unit_ne_cli u (List.mem_of_find?_eq_some hu) hne
    have hlt := (u.has_iff a).mp (List.find?_some (p := fun u : UnitRow => u.has a) hu)
    omega
  rw [hu, heq]

theorem offset_cli (c : Nat) {o : Nat} (ho : o < 0x1000) : (HST_CLI_ID c + o - unitCli.base) % unitCli.stride = o := by
  rw [show unitCli.base = 0x4000000 from rfl, show unitCli.stride = 0x1000 from rfl,
    show HST_CLI_ID c = 0x4000000 + c * 0x1000 from rfl]
  omega

theorem find_unit_cliId {c : Nat} (hc : c < 1024) {o : Nat} (ho : o < 0x1000) :
    units.find? (fun u => u.has (HST_CLI_ID c + o)) = some unitCli := by
  apply find_unit_cli <;> simp only [unitCli, HST_CLI_ID] <;> omega

theorem regAt_of_find {a : Nat} {u : UnitRow} (h : units.find? (fun u => u.has a) = some u) :
    regAt a = (u.regs.find? (fun r => r.has ((a - u.base) % u.stride))).map (fun r => (u, r)) := by
  unfold regAt
  rw [h]
  dsimp only
  cases u.regs.find? (fun r => r.has ((a - u.base) % u.stride)) <;> rfl

/-- The register at an offset of a client's page. -/
theorem regAt_cli {c : Nat} (hc : c < 1024) {o : Nat} (ho : o < 0x1000) :
    regAt (HST_CLI_ID c + o) = (unitCli.regs.find? (fun r => r.has o)).map (fun r => (unitCli, r)) := by
  rw [regAt_of_find (find_unit_cliId hc ho), offset_cli c ho]

theorem regReset_cliCtrl {c : Nat} (hc : c < 1024) : regReset (HST_CLI_CTRL c) = 0#32 := by
  have ha : HST_CLI_CTRL c = HST_CLI_ID c + 4 := Nat.add_right_comm 0x4000000 4 (c * 0x1000)
  rw [regReset, ha, regAt_cli hc (by decide)]
  rfl

theorem bound_of_id {s t : State} {c : Nat} (h : t.rd .host (HST_CLI_ID c) = s.rd .host (HST_CLI_ID c)) :
    bound t c = bound s c := by
  rw [bound, bound, State.flag, State.flag, h]

theorem cliFn_of_id {s t : State} {c : Nat} (h : t.rd .host (HST_CLI_ID c) = s.rd .host (HST_CLI_ID c)) :
    cliFn t c = cliFn s c := by
  rw [cliFn, cliFn, State.fld, State.fld, h]

/-! ### Function-level reset -/

/-- A client belongs to a function. -/
def clientOf (s : State) (fn c : Nat) : Bool := bound s c && cliFn s c == fn

/-- What a function-level reset does to the clients of its function, before PF0's own part. -/
def State.flrClients (s : State) (fn : Nat) : State :=
  ((s.each (List.range 64) (fun u n => u.dmaFlr n (clientOf s fn))).msixFlr fn).each
    ((boundClients s).filter (fun c => cliFn s c == fn)) (fun s c => s.pageFlr c)

end Sys2Proof.Machine

end

/-! ## Stream reset, and the resets together: O12 -/

section

namespace Sys2Proof.Machine

/-! ### Function-level reset (R31, R32) -/

theorem execFunctionLevelReset_eq (fn : Fin 64) (s : State) : execFunctionLevelReset fn s =
    .next (if fn.val = 0 then (s.flrClients fn).mailboxReset.cfgFlr else s.flrClients fn) := by
  unfold execFunctionLevelReset State.flrClients
  rfl

/-- What the reset of a function's vectors and its clients' pages leaves as the state before has it. -/
theorem State.pages_after_msixFlr (u : State) (fn : Nat) (l : List Nat) :
    (∀ c, ((u.msixFlr fn).each l (fun s c => s.pageFlr c)).rd .host (HST_CLI_ID c) = u.rd .host (HST_CLI_ID c)) ∧
    ((u.msixFlr fn).each l (fun s c => s.pageFlr c)).host.cfg = u.host.cfg ∧
    (∀ ch, ((u.msixFlr fn).each l (fun s c => s.pageFlr c)).dmaCh ch = u.dmaCh ch) ∧
    ((u.msixFlr fn).each l (fun s c => s.pageFlr c)).host.msix = u.host.msix.filter (fun e => e.1 / 16384 != fn) ∧
    ((u.msixFlr fn).each l (fun s c => s.pageFlr c)).host.vecPend = u.host.vecPend.filter (fun e => e.1 / 4096 != fn) := by
  obtain ⟨⟨regs, client, heq⟩, hid, -⟩ := State.pageFlr_each l (u.msixFlr fn)
  refine ⟨hid, ?_⟩
  rw [heq]
  exact ⟨rfl, fun _ => rfl, rfl, rfl⟩

/-- The channels of a function-level reset of a function, and what becomes of its clients' descriptors. -/
theorem State.flrClients_dma (s : State) (fn : Nat) :
    (∀ c, (s.flrClients fn).rd .host (HST_CLI_ID c) = s.rd .host (HST_CLI_ID c)) ∧
    (s.flrClients fn).host.cfg = s.host.cfg ∧
    ∀ ch, ch < 64 → ∀ d ∈ ((s.flrClients fn).dmaCh ch).queue, clientOf s fn d.client = false := by
  obtain ⟨hid, hcfg, -, hout⟩ := State.dmaFlr_each (clientOf s fn) (List.range 64) s
  obtain ⟨hid', hcfg', hch, -, -⟩ := State.pages_after_msixFlr
    (s.each (List.range 64) (fun u n => u.dmaFlr n (clientOf s fn))) fn ((boundClients s).filter (fun c => cliFn s c == fn))
  unfold State.flrClients
  refine ⟨fun c => (hid' c).trans (hid c), hcfg'.trans hcfg, fun ch hlt d hd => hout ch (List.mem_range.mpr hlt) d ?_⟩
  rw [hch] at hd
  exact hd

theorem lt_of_bound {s : State} {c : Nat} (h : bound s c = true) : c < 1024 := by
  rw [bound, Bool.and_eq_true, decide_eq_true_eq] at h
  exact h.1

theorem mem_flrClients {s : State} {fn c : Nat} (hb : bound s c = true) (hf : cliFn s c = fn) :
    c ∈ (boundClients s).filter (fun c => cliFn s c == fn) := by
  simp [boundClients, idxs, hb, hf, lt_of_bound hb]

/-- A client of the function has no ring left. -/
theorem State.ringOn_flrClients {s : State} {fn c : Nat} (hb : bound s c = true) (hf : cliFn s c = fn) (r : Nat) :
    ringOn (s.flrClients fn) c r = false := by
  obtain ⟨-, -, hctrl⟩ := State.pageFlr_each ((boundClients s).filter (fun c => cliFn s c == fn))
    ((s.each (List.range 64) (fun u n => u.dmaFlr n (clientOf s fn))).msixFlr fn)
  have hzero : (s.flrClients fn).rd .host (HST_CLI_CTRL c) = 0#32 := by
    refine (hctrl c).trans ?_
    rw [if_pos (mem_flrClients hb hf), regReset_cliCtrl (lt_of_bound hb)]
  rw [ringOn, State.flag, hzero, bit_zero, Bool.and_false]

theorem Tab.get_filter_drop {α : Type} (d : Nat → α) {p : Nat → Bool} (t : Tab α) {k : Nat} (h : p k = false) :
    Tab.get d (t.filter (fun e => p e.1)) k = d k := by
  induction t with
  | nil => rfl
  | cons e t ih =>
    obtain ⟨k', v⟩ := e
    by_cases hk : p k' = true
    · have hne : k' ≠ k := by rintro rfl; simp [h] at hk
      simp [hk, Tab.get, hne, ih]
    · simp [hk, ih]

/-- The MSI-X table of the function is as before anything was written, and nothing is pending (R256). -/
theorem State.msix_flrClients (s : State) (fn v : Nat) (hv : v < 4096) :
    Tab.get (fun _ => false) (s.flrClients fn).host.vecPend (vecKey fn v) = false ∧
      msixWord (s.flrClients fn) fn v 3 = 1#32 := by
  obtain ⟨-, -, -, hmsix, hpend⟩ := State.pages_after_msixFlr
    (s.each (List.range 64) (fun u n => u.dmaFlr n (clientOf s fn))) fn ((boundClients s).filter (fun c => cliFn s c == fn))
  have hkey : vecKey fn v / 4096 = fn := by simp only [vecKey]; omega
  have hword : (vecKey fn v * 4 + 3) / 16384 = fn := by simp only [vecKey]; omega
  have hlast : (vecKey fn v * 4 + 3) % 4 = 3 := by omega
  rw [State.flrClients, msixWord, hmsix, hpend]
  constructor
  · exact Tab.get_filter_drop _ (p := fun k => k / 4096 != fn) _ (by simp [hkey])
  · refine (Tab.get_filter_drop _ (p := fun k => k / 16384 != fn) _ (by simp [hword])).trans ?_
    rw [msixReset, if_pos hlast]

/-- With no client of the function bound, its vectors alone are reset. -/
theorem State.flrClients_of_none {s : State} {fn : Nat} (h : ∀ c, clientOf s fn c = false) :
    s.flrClients fn = s.msixFlr fn := by
  have hdma : ∀ n, s.dmaFlr n (clientOf s fn) = s := by
    intro n
    unfold State.dmaFlr
    rw [List.find?_eq_none.mpr (fun d _ => by simp [h])]
  have heach : ∀ l : List Nat, s.each l (fun s' n => s'.dmaFlr n (clientOf s fn)) = s := by
    intro l
    induction l with
    | nil => rfl
    | cons n l ih => rw [State.each, List.foldl_cons, hdma]; exact ih
  have hnone : (boundClients s).filter (fun c => cliFn s c == fn) = [] := by
    rw [List.filter_eq_nil_iff]
    intro c hc
    have hb : bound s c = true := (List.mem_filter.mp hc).2
    have hc' := h c
    rw [clientOf, hb, Bool.true_and] at hc'
    simp [hc']
  rw [State.flrClients, heach, hnone]
  rfl

/-- The mailbox of PF0 is cleared (R32), and the function's own part of the configuration (R251). -/
theorem State.rd_mailboxReset (s : State) {a : Nat} (h : HST_MBX_CMD ≤ a ∧ a < HST_MBX_CMD + 0x100000) :
    s.mailboxReset.cfgFlr.rd .host a = regReset a :=
  rget_filter_drop (p := fun a => decide (a < HST_MBX_CMD ∨ HST_MBX_CMD + 0x100000 ≤ a)) _ (by simp; omega)


/-- What belongs to the link stays, the rest of the configuration takes its reset values (log 133). -/
theorem State.cfg_cfgFlr (s : State) : s.mailboxReset.cfgFlr.host.cfg = { pcieCfg0 with
    speed := s.host.cfg.speed, width := s.host.cfg.width, flit := s.host.cfg.flit, mps := s.host.cfg.mps
    l0p := s.host.cfg.l0p } := rfl

/-! ### Stream reset (R33) -/

/-- The blocks that hold registers of a stream. -/
def streamBlks : List Blk := [.pix, .obj, .ejt, .cvn, .mot, .erg]

theorem State.regs_each_filter (p : Nat → Bool) (l : List Blk) (hl : l.Nodup) (b : Blk) : ∀ s : State,
    (s.each l (fun s b => s.setRegs b ((s.regs b).filter (fun e => p e.1)))).regs b =
      if b ∈ l then (s.regs b).filter (fun e => p e.1) else s.regs b := by
  induction l with
  | nil => exact fun _ => rfl
  | cons x l ih =>
    intro s
    obtain ⟨hx, hl'⟩ := List.nodup_cons.mp hl
    refine (ih hl' _).trans ?_
    by_cases h : b = x
    · subst h
      simp [hx]
    · simp [h]

/-- The registers of the stream in its blocks, once those are cleared. -/
theorem State.rd_cleared (s : State) {t : Nat} {b : Blk} (hb : b ∈ streamBlks) {a : Nat} (ha : ofStream t a = true) :
    (s.each streamBlks (fun s b => s.setRegs b ((s.regs b).filter (fun e => !ofStream t e.1)))).rd b a = regReset a := by
  rw [State.rd, State.regs_each_filter (fun a => !ofStream t a) streamBlks (by decide), if_pos hb]
  exact rget_filter_drop (p := fun a => !ofStream t a) _ (by simp [ha])

/-- The registers of the stream are at their reset values, ACT_BANK and NO_TABLE apart (R31). -/
theorem State.rd_streamPages (s : State) (t : Nat) {b : Blk} (hb : b ∈ streamBlks) {a : Nat} (ha : ofStream t a = true)
    (hne : ¬ (b = .obj ∧ a = OBJ_STATUS t)) : (s.streamPages t).rd b a = regReset a := by
  refine Eq.trans ?_ (s.rd_cleared hb ha)
  by_cases h : b = .obj
  · subst h
    exact State.rd_put_ne _ _ _ _ _ _ _ (fun e => hne ⟨rfl, e⟩)
  · exact State.rd_put_blk _ _ _ _ _ _ _ _ h

theorem ofStream_objStatus (t : Nat) : ofStream t (OBJ_STATUS t) = true := by
  simp only [ofStream, OBJ_STATUS, OBJ_CTRL, Bool.or_eq_true, decide_eq_true_eq]
  omega

theorem State.flag_streamPages_status (s : State) (t : Nat) {i : Nat} (hi : i < 8 ∨ 9 < i) :
    (s.streamPages t).flag .obj (OBJ_STATUS t) i = bit (regReset (OBJ_STATUS t)) i := by
  refine Eq.trans ?_ (congrArg (fun w => bit w i) (s.rd_cleared (b := .obj) (by decide) (ofStream_objStatus t)))
  change bit (State.rd (State.put _ .obj (OBJ_STATUS t) 9 8 _) .obj (OBJ_STATUS t)) i = _
  rw [State.rd_put, bit_putBits_ne _ _ _ _ _ hi]
  rfl

/-- The line index lies outside what log 104 counts as the stream's registers. -/
theorem ofStream_lineIndex {t : Nat} (ht : t < 96) {a : Nat} (ha : ofStream t a = true) :
    a ∉ [ERG_LB_NEXT_LO t, ERG_LB_NEXT_HI t, ERG_LB_OLDEST_LO t, ERG_LB_OLDEST_HI t] := by
  simp only [ofStream, PIX_SRC, OBJ_CTRL, EJT_STR_CTRL, CVN_HO, TRG_CTRL, TRG_LIST, ERG_LB_CNT_WRERR, Bool.or_eq_true,
    decide_eq_true_eq] at ha
  simp only [List.mem_cons, List.not_mem_nil, or_false, ERG_LB_NEXT_LO, ERG_LB_NEXT_HI, ERG_LB_OLDEST_LO, ERG_LB_OLDEST_HI]
  omega

theorem State.rd_lbRestart (s : State) (t : Nat) {b : Blk} {a : Nat}
    (h : b = .erg → a ∉ [ERG_LB_NEXT_LO t, ERG_LB_NEXT_HI t, ERG_LB_OLDEST_LO t, ERG_LB_OLDEST_HI t]) :
    (s.lbRestart t).rd b a = s.rd b a := by
  unfold State.lbRestart State.wr64
  dsimp only
  by_cases hb : b = .erg
  · subst hb
    have ha := h rfl
    simp only [List.mem_cons, List.not_mem_nil, or_false, not_or] at ha
    obtain ⟨h₁, h₂, h₃, h₄⟩ := ha
    rw [State.rd_wr_ne _ _ _ _ _ h₄, State.rd_wr_ne _ _ _ _ _ h₃, State.rd_wr_ne _ _ _ _ _ h₂,
      State.rd_wr_ne _ _ _ _ _ h₁, State.rd_onPix]
  · simp [hb]

theorem State.objStream_lbRestart (s : State) (t n : Nat) : (s.lbRestart t).objStream n = s.objStream n := by
  simp [State.lbRestart, State.wr64, State.wr]

/-- A stream reset ends with the stream's registers at their reset values and its object stage without open objects. -/
theorem State.streamReset_spec (s : State) {t : Nat} (ht : t < 96) :
    (∀ (b : Blk) (a : Nat), b ∈ streamBlks → ofStream t a = true → ¬ (b = .obj ∧ a = OBJ_STATUS t) →
      (s.streamReset t).rd b a = regReset a) ∧
    (∀ i, i < 8 ∨ 9 < i → (s.streamReset t).flag .obj (OBJ_STATUS t) i = bit (regReset (OBJ_STATUS t)) i) ∧
    ((s.streamReset t).objStream t).opened = [] := by
  unfold State.streamReset
  extract_lets s₁ s₂ s₃ s₄ s₅
  refine ⟨fun b a hb ha hne => ?_, fun i hi => ?_, ?_⟩
  · rw [State.rd_lbRestart _ _ (fun _ => ofStream_lineIndex ht ha), State.rd_onObj, State.rd_onPix, State.rd_setGen,
      State.rd_streamPages _ _ hb ha hne]
  · rw [State.flag, State.rd_lbRestart _ _ (fun h => absurd h (by decide)), State.rd_onObj, State.rd_onPix, State.rd_setGen]
    exact State.flag_streamPages_status _ t hi
  · rw [State.objStream_lbRestart, State.onObj_objStream_same]

/-- The mailbox command whose work is running ends with the code and results of its work (R275). -/
theorem State.mbxRun_of_works {s : State} {op : Nat} {r : MbxRun} (h : s.mbxWorks op r) (hop : op ≠ 1)
    (f : State → State × Nat × List Word) :
    s.mbxRun op f = (f s).1.mbxEnded r (f s).2.1 (if (f s).2.1 = 0 then (f s).2.2 else []) := by
  obtain ⟨hm, hr, hc⟩ := h
  simp [State.mbxRun, hm, hr, hc, hop, State.mbxEnded]

theorem State.rd_mbxEnded (s : State) (r : MbxRun) (code : Nat) (res : List Word) (b : Blk) (a : Nat) :
    (s.mbxEnded r code res).rd b a = s.rd b a := by cases b <;> rfl

theorem State.objStream_mbxEnded (s : State) (r : MbxRun) (code : Nat) (res : List Word) (n : Nat) :
    (s.mbxEnded r code res).objStream n = s.objStream n := rfl

theorem exec_streamReset_of_range {s : State} {r : MbxRun} (h : s.mbxWorks 4 r) (hn : mbxArg s 0 < 96) :
    exec .streamReset s = .next ((s.streamReset (mbxArg s 0)).mbxEnded r 0 []) := by
  change Host.Outcome.next (s.mbxRun 4 _) = _
  rw [State.mbxRun_of_works h (by decide), if_neg (Nat.not_le.mpr hn)]
  rfl

theorem exec_streamReset_out_of_range {s : State} {r : MbxRun} (h : s.mbxWorks 4 r) (hn : 96 ≤ mbxArg s 0) :
    exec .streamReset s = .next (s.mbxEnded r 2 []) := by
  change Host.Outcome.next (s.mbxRun 4 _) = _
  rw [State.mbxRun_of_works h (by decide), if_pos hn]
  rfl

end Sys2Proof.Machine

section
open Sys2Proof Sys2Proof.Machine

/-- Settles O12: each kind of reset by the lemma that says what it leaves. -/
theorem resetsClearWhatTheirKindClears : Obligations.ResetsClearWhatTheirKindClears := by
  unfold Obligations.ResetsClearWhatTheirKindClears
  refine ⟨fun s => ?_, fun wdog ref s hup href => warmlyReset_exec_warmReset wdog hup href, fun s r hw hd => ?_,
    fun s r hup href hw hd => ?_, fun s t0 hup href hw ht => ?_, fun wdog s hup href => ?_, fun s => ?_, fun fn s hfn => ?_,
    fun s r hm hop hc => ⟨fun hn => ?_, fun hn => exec_streamReset_out_of_range ⟨hm, hop, hc⟩ hn⟩⟩
  · exact ⟨{ s.coldNow with tap := { s.tap with coreHeld := suppliesUp s } }, rfl, rfl, rfl, rfl, rfl, rfl, rfl, rfl, rfl, rfl,
      rfl, rfl, rfl, rfl, rfl, rfl, rfl, rfl, rfl, fun a ha => s.rd_coldNow_oasis ha, rfl⟩
  · obtain ⟨hm, -, -⟩ := hw
    change execReset s = _
    simp [execReset, hm, hd]
  · obtain ⟨hm, hop, hc⟩ := hw
    refine ⟨s.warmReset 2, ?_, State.warmlyReset_warmReset hup href 2⟩
    change execReset s = _
    simp [execReset, hm, hop, hc, hd]
  · refine ⟨s.warmReset 3, ?_, State.warmlyReset_warmReset hup href 3⟩
    change execWdogWarmReset s = _
    simp [execWdogWarmReset, hw, ht]
  · exact ⟨_, congrArg Host.Outcome.next (State.warmReset_of_noRef hup href _), rfl, .onTime s _⟩
  · obtain ⟨t, ht, hclock⟩ := steady_execFunctionLevelReset 0 s
    have heq : (s.flrClients 0).mailboxReset.cfgFlr = t := by
      rw [execFunctionLevelReset_eq, if_pos (show (0 : Fin 64).val = 0 from rfl)] at ht
      exact Host.Outcome.next.inj ht
    obtain ⟨-, hcfg, -⟩ := s.flrClients_dma 0
    refine ⟨t, ht, ?_⟩
    rw [← heq] at hclock ⊢
    refine ⟨rfl, ?_, ?_, ?_, State.time_eq_of_clock hclock, State.pending_eq_of_clock hclock⟩
    · rw [State.rd_mailboxReset _ (by decide)]
      decide
    · rw [State.rd_mailboxReset _ (by decide)]
      decide
    · rw [State.cfg_cfgFlr, hcfg]
      exact ⟨rfl, rfl, rfl, rfl, rfl, rfl⟩
  · obtain ⟨t, ht, hclock⟩ := steady_execFunctionLevelReset fn s
    have hne : fn.val ≠ 0 := fun h => hfn (Fin.ext h)
    have heq : s.flrClients fn = t := by
      rw [execFunctionLevelReset_eq, if_neg hne] at ht
      exact Host.Outcome.next.inj ht
    obtain ⟨hid, -, hdesc⟩ := s.flrClients_dma fn
    refine ⟨t, ht, ?_⟩
    rw [← heq] at hclock ⊢
    refine ⟨fun v => s.msix_flrClients fn v (by omega), fun c hb hf => ⟨?_, ?_, fun r _ => State.ringOn_flrClients hb hf r⟩,
      fun ch d hd hof => ?_, State.time_eq_of_clock hclock, State.pending_eq_of_clock hclock, fun hnone => ?_⟩
    · rw [bound_of_id (hid c), hb]
    · rw [cliFn_of_id (hid c), hf]
    · have hno := hdesc ch ch.isLt d hd
      rw [clientOf, hof.1, hof.2] at hno
      simp at hno
    · exact State.flrClients_of_none hnone
  · obtain ⟨t, ht, hclock⟩ := steady_execStreamReset s
    have hex := exec_streamReset_of_range ⟨hm, hop, hc⟩ hn
    have heq : (s.streamReset (mbxArg s 0)).mbxEnded r 0 [] = t := Host.Outcome.next.inj (hex.symm.trans ht)
    obtain ⟨hregs, hflags, hopen⟩ := s.streamReset_spec hn
    refine ⟨t, ht, ?_⟩
    rw [← heq] at hclock ⊢
    refine ⟨rfl, fun b a hb ha hne => ?_, fun i hi => ?_, ?_, State.time_eq_of_clock hclock,
      State.pending_eq_of_clock hclock⟩
    · rw [State.rd_mbxEnded, hregs b a hb ha hne]
    · rw [State.flag, State.rd_mbxEnded]
      exact hflags i hi
    · rw [State.objStream_mbxEnded, hopen]

end

end

/-! ## Motion and triggers: frames, register writes, and the emulated output -/

section

namespace Sys2Proof.Machine

/-! ### Frames over branches and folds -/

theorem Kept.ite {bs : List Blk} {s t u : State} {c : Prop} [Decidable c] (ht : Kept bs s t) (hu : Kept bs s u) :
    Kept bs s (if c then t else u) := by
  split
  · exact ht
  · exact hu

theorem RegsKept.ite {b : Blk} {as : List Nat} {s t u : State} {c : Prop} [Decidable c] (ht : RegsKept b as s t)
    (hu : RegsKept b as s u) : RegsKept b as s (if c then t else u) := by
  split
  · exact ht
  · exact hu

/-- Every step of a fold is in a relation that is reflexive and transitive: so is the fold. -/
theorem State.each_rel {α : Type} {R : State → State → Prop} (hr : ∀ s, R s s) (ht : ∀ s t u, R s t → R t u → R s u)
    {f : State → α → State} {l : List α} : ∀ {s : State}, (∀ t, ∀ x ∈ l, R t (f t x)) → R s (s.each l f) := by
  induction l with
  | nil => exact fun _ => hr _
  | cons x l ih =>
    intro s hf
    exact ht _ _ _ (hf s x (List.mem_cons_self ..)) (ih fun t y hy => hf t y (List.mem_cons_of_mem _ hy))

theorem RegsKept.each {α : Type} {b : Blk} {as : List Nat} {f : State → α → State} {l : List α} {s : State}
    (hf : ∀ t, ∀ x ∈ l, RegsKept b as t (f t x)) : RegsKept b as s (s.each l f) :=
  State.each_rel (RegsKept.refl b as) (fun _ _ _ => RegsKept.trans) hf

theorem RegsKept.mono {b : Blk} {as cs : List Nat} {s t : State} (h : RegsKept b as s t) (hs : ∀ a ∈ as, a ∈ cs) :
    RegsKept b cs s t := fun a ha => h a fun hm => ha (hs a hm)

theorem RegsOnly.kept {b : Blk} {bs : List Blk} {s t : State} (h : RegsOnly b s t) (hb : b ∈ bs) : Kept bs s t := by
  obtain ⟨r, rfl⟩ := h
  exact .setRegs s b r hb

/-- A block that stays keeps its registers. -/
theorem Kept.regs {bs : List Blk} {s t : State} (h : Kept bs s t) {b : Blk} (hb : b ∉ bs) : t.regs b = s.regs b := by
  unfold Kept at h
  obtain ⟨h1, h2, h3, h4, h5, h6, h7, h8, h9, h10, h11, h12, h13, h14, h15, h16, h17, -⟩ := h
  cases b <;> simp only [State.regs]
  · rw [h1 hb]
  · rw [h2 hb]
  · rw [h3 hb]
  · rw [h4 hb]
  · rw [h5 hb]
  · rw [h6 hb]
  · rw [h7 hb]
  · rw [h8 hb]
  · rw [h9 hb]
  · rw [h10 hb]
  · rw [h11 hb]
  · rw [h12 hb]
  · rw [h13 hb]
  · rw [h14 hb]
  · rw [h15 hb]
  · rw [h16 hb]
  · rw [h17 hb]

theorem Kept.regsKept {bs : List Blk} {s t : State} (h : Kept bs s t) {b : Blk} (hb : b ∉ bs) (as : List Nat) :
    RegsKept b as s t := fun a _ => congrArg (fun r => rget r a) (h.regs hb)

section
variable {bs : List Blk} {s t : State} (h : Kept bs s t)
include h

theorem Kept.time_eq (hb : Blk.time ∉ bs) : t.time = s.time := h.1 hb

theorem Kept.mot_eq (hb : Blk.mot ∉ bs) : t.mot = s.mot := h.2.1 hb

theorem Kept.lnk_eq (hb : Blk.lnk ∉ bs) : t.lnk = s.lnk := by
  obtain ⟨-, -, -, hlnk, -⟩ := h
  exact hlnk hb

theorem Kept.pix_eq (hb : Blk.pix ∉ bs) : t.pix = s.pix := by
  obtain ⟨-, -, -, -, hpix, -⟩ := h
  exact hpix hb

theorem Kept.seq_eq (hb : Blk.seq ∉ bs) : t.seq = s.seq := by
  obtain ⟨-, -, -, -, -, -, -, -, hseq, -⟩ := h
  exact hseq hb

theorem Kept.erg_eq (hb : Blk.erg ∉ bs) : t.erg = s.erg := by
  obtain ⟨-, -, -, -, -, -, -, -, -, -, -, herg, -⟩ := h
  exact herg hb

end

/-- Of a fold over different things, one thing's step stands between steps of the others. -/
theorem State.each_at {α : Type} {R : State → State → Prop} (hr : ∀ s, R s s) (ht : ∀ s t u, R s t → R t u → R s u)
    {f : State → α → State} {l : List α} (hl : l.Nodup) {x : α} (hx : x ∈ l)
    (hf : ∀ t, ∀ y ∈ l, y ≠ x → R t (f t y)) (s : State) : ∃ u, R s u ∧ R (f u x) (s.each l f) := by
  obtain ⟨l₁, l₂, rfl⟩ := List.append_of_mem hx
  have hsplit : s.each (l₁ ++ x :: l₂) f = (f (s.each l₁ f) x).each l₂ f := List.foldl_append
  obtain ⟨-, hn₂, hd⟩ := List.nodup_append.mp hl
  rw [hsplit]
  refine ⟨s.each l₁ f, State.each_rel hr ht fun t y hy => ?_, State.each_rel hr ht fun t y hy => ?_⟩
  · exact hf t y (by simp [hy]) (hd y hy x (by simp))
  · exact hf t y (by simp [hy]) (by rintro rfl; exact (List.nodup_cons.mp hn₂).1 hy)

theorem mem_idxs {n i : Nat} {p : Nat → Bool} : i ∈ idxs n p ↔ i < n ∧ p i = true := by simp [idxs]

theorem idxs_nodup (n : Nat) (p : Nat → Bool) : (idxs n p).Nodup := List.nodup_range.filter p

/-! ### Pairs of registers (R16) -/

theorem join32_eq (lo hi : Word) : join32 lo hi = lo.toNat + hi.toNat * 2 ^ 32 := by
  rw [join32, BitVec.toNat_append, Nat.shiftLeft_eq, Nat.mul_comm, ← Nat.two_pow_add_eq_or_of_lt lo.isLt]
  omega

theorem State.wr48_eq_wr64 (s : State) (b : Blk) (aLo aHi : Nat) {x : Nat} (h : x < 2 ^ 48) :
    s.wr48 b aLo aHi x = s.wr64 b aLo aHi x := by
  rw [State.wr48, State.wr64, hi32, Nat.mod_eq_of_lt (show x / 2 ^ 32 < 2 ^ 16 by omega)]

theorem State.rd64_wr64 (s : State) (b : Blk) {aLo aHi x : Nat} (hne : aLo ≠ aHi) (h : x < 2 ^ 64) :
    (s.wr64 b aLo aHi x).rd64 b aLo aHi = x := by
  rw [State.rd64, State.wr64, State.rd_wr_ne _ _ _ _ _ hne, State.rd_wr_same, State.rd_wr_same, join32_lo32_hi32 x h]

theorem State.rd_wr64_lo (s : State) (b : Blk) {aLo aHi x : Nat} (hne : aLo ≠ aHi) :
    (s.wr64 b aLo aHi x).rd b aLo = lo32 x := by rw [State.wr64, State.rd_wr_ne _ _ _ _ _ hne, State.rd_wr_same]

theorem State.rd_wr64_hi (s : State) (b : Blk) {aLo aHi x : Nat} : (s.wr64 b aLo aHi x).rd b aHi = hi32 x :=
  State.rd_wr_same _ _ _ _

theorem RegsOnly.wr64 (b : Blk) (s : State) (aLo aHi x : Nat) : RegsOnly b s (s.wr64 b aLo aHi x) :=
  (RegsOnly.wr b s _ _).trans (.wr b _ _ _)

theorem RegsKept.wr64 {b : Blk} {as : List Nat} (s : State) {aLo aHi : Nat} (x : Nat) (hlo : aLo ∈ as) (hhi : aHi ∈ as) :
    RegsKept b as s (s.wr64 b aLo aHi x) := (RegsKept.wr s _ _ hlo).trans (.wr _ _ _ hhi)

/-! ### Writes to plain registers (R24, R36) -/

/-- A write to a plain register stores what its fields take; a bad one sets CFG_ERR of the unit. -/
theorem State.store_of_plain {a e i : Nat} {u : UnitRow} {row : RegRow} (h : regAt a = some (u, row))
    (hk : row.kind = .plain) (he : u.cfgErrAt a = some (e, i)) (s : State) (b : Blk) (v : Word) :
    s.store b a v = if (row.write u.ignore (s.rd b a) v).2 = true
      then (s.wr b a (row.write u.ignore (s.rd b a) v).1).setb b e i true
      else s.wr b a (row.write u.ignore (s.rd b a) v).1 := by
  have hc : countedNow s b a = none := by simp [countedNow, isCounter, h, hk]
  unfold State.store
  rw [hc]
  have hw : writeReg (s.regs b) a v = if (row.write u.ignore (s.rd b a) v).2 = true
      then wrBit (rset (s.regs b) a (row.write u.ignore (s.rd b a) v).1) e i true
      else rset (s.regs b) a (row.write u.ignore (s.rd b a) v).1 := by
    simp only [writeReg, h, he]
    rfl
  rw [hw]
  dsimp only
  split
  · cases b <;> rfl
  · rfl

section plain
variable {a e i : Nat} {u : UnitRow} {row : RegRow} (h : regAt a = some (u, row)) (hk : row.kind = .plain)
  (he : u.cfgErrAt a = some (e, i)) (s : State) (b : Blk) (v : Word)
include h hk he

theorem RegsOnly.store_plain : RegsOnly b s (s.store b a v) := by
  rw [State.store_of_plain h hk he]
  split
  · exact (RegsOnly.wr b s _ _).trans (.setb b _ _ _ _)
  · exact .wr b s _ _

theorem State.rd_store_plain (hne : a ≠ e) : (s.store b a v).rd b a = (row.write u.ignore (s.rd b a) v).1 := by
  rw [State.store_of_plain h hk he]
  split
  · rw [State.rd_setb_ne _ _ _ _ _ _ hne, State.rd_wr_same]
  · rw [State.rd_wr_same]

theorem RegsKept.store_plain {as : List Nat} (ha : a ∈ as) (hm : e ∈ as) : RegsKept b as s (s.store b a v) := by
  rw [State.store_of_plain h hk he]
  exact .ite ((RegsKept.wr s _ _ ha).trans (.setb _ _ _ _ hm)) (.wr s _ _ ha)

theorem State.flag_store_bad (hi : i < 32) (hbad : (row.write u.ignore (s.rd b a) v).2 = true) :
    (s.store b a v).flag b e i = true := by
  rw [State.store_of_plain h hk he, if_pos hbad, State.flag_setb_same _ _ _ _ _ hi]

end plain

/-! ### One field of a written register -/

@[simp] theorem bits_mod (v : Word) (hi lo : Nat) : bits v hi lo % 2 ^ (hi + 1 - lo) = bits v hi lo := Nat.mod_mod _ _

/-- Outside its own bits a field writes nothing. -/
theorem FieldRow.bit_write_out (f : FieldRow) (old v : Word) {j : Nat} (h : j < f.lo ∨ f.hi < j) :
    bit (f.write old v).1 j = false := by
  have hput : ∀ x, bit (putBits 0#32 f.hi f.lo x) j = false := fun x => by
    rw [bit_putBits_ne _ _ _ _ _ h, bit_zero]
  unfold FieldRow.write
  cases f.acc <;> dsimp only
  case wo => exact bit_zero j
  case rw | rws =>
    split
    · exact hput _
    · split <;> exact hput _
  all_goals exact hput _

/-- A bit that one field alone covers is what that field writes. -/
theorem RegRow.bit_write_field {r : RegRow} (hk : r.kind = .plain) {f : FieldRow} (hf : f ∈ r.fields) {j : Nat}
    (hd : ∀ g ∈ r.fields, g = f ∨ j < g.lo ∨ g.hi < j) (old v : Word) :
    bit (r.write false old v).1 j = bit (f.write old v).1 j := by
  simp only [RegRow.write, hk, Bool.false_and, Bool.false_eq_true, if_false, bit_foldl_or, List.any_map, Function.comp_def]
  rw [bit_zero, Bool.false_or, Bool.eq_iff_iff, List.any_eq_true]
  constructor
  · rintro ⟨g, hg, hb⟩
    rcases hd g hg with rfl | hout
    · exact hb
    · rw [g.bit_write_out old v hout] at hb
      exact absurd hb (by simp)
  · exact fun hb => ⟨f, hf, hb⟩

/-- A field apart from the others reads what it writes. -/
theorem RegRow.bits_write_field {r : RegRow} (hk : r.kind = .plain) {f : FieldRow} (hf : f ∈ r.fields)
    (hd : ∀ g ∈ r.fields, g = f ∨ f.hi < g.lo ∨ g.hi < f.lo) (old v : Word) :
    bits (r.write false old v).1 f.hi f.lo = bits (f.write old v).1 f.hi f.lo := by
  apply Nat.eq_of_testBit_eq
  intro k
  rw [testBit_bits, testBit_bits]
  by_cases hk' : k < f.hi + 1 - f.lo
  · congr 1
    refine RegRow.bit_write_field hk hf (j := k + f.lo) (fun g hg => ?_) old v
    rcases hd g hg with h | h | h
    · exact .inl h
    · exact .inr (.inl (by omega))
    · exact .inr (.inr (by omega))
  · simp [hk']

theorem FieldRow.write_taken {f : FieldRow} (ha : f.acc = .rw) (hr : f.range = none) (old : Word) {v : Word}
    (hx : f.reserved.contains (bits v f.hi f.lo) = false) :
    f.write old v = (putBits 0#32 f.hi f.lo (bits v f.hi f.lo), false) := by
  simp only [FieldRow.write, ha, hr, hx, Bool.false_eq_true, if_false]

theorem FieldRow.write_reserved {f : FieldRow} (ha : f.acc = .rw) (old : Word) {v : Word}
    (hx : f.reserved.contains (bits v f.hi f.lo) = true) :
    f.write old v = (putBits 0#32 f.hi f.lo (bits old f.hi f.lo), true) := by
  simp only [FieldRow.write, ha, hx, if_true]

/-- A written field whose value is not reserved takes it. -/
theorem RegRow.bits_write_taken {r : RegRow} (hk : r.kind = .plain) {f : FieldRow} (hf : f ∈ r.fields)
    (hl : f.lo ≤ f.hi ∧ f.hi < 32) (ha : f.acc = .rw) (hr : f.range = none)
    (hd : ∀ g ∈ r.fields, g = f ∨ f.hi < g.lo ∨ g.hi < f.lo) (old : Word) {v : Word}
    (hx : f.reserved.contains (bits v f.hi f.lo) = false) :
    bits (r.write false old v).1 f.hi f.lo = bits v f.hi f.lo := by
  rw [RegRow.bits_write_field hk hf hd, FieldRow.write_taken ha hr old hx, bits_putBits_same _ _ _ _ hl.2 hl.1, bits_mod]

/-- A reserved value leaves the field as it was, and the write is bad. -/
theorem RegRow.bits_write_reserved {r : RegRow} (hk : r.kind = .plain) {f : FieldRow} (hf : f ∈ r.fields)
    (hl : f.lo ≤ f.hi ∧ f.hi < 32) (ha : f.acc = .rw)
    (hd : ∀ g ∈ r.fields, g = f ∨ f.hi < g.lo ∨ g.hi < f.lo) (old : Word) {v : Word}
    (hx : f.reserved.contains (bits v f.hi f.lo) = true) :
    bits (r.write false old v).1 f.hi f.lo = bits old f.hi f.lo ∧ (r.write false old v).2 = true := by
  constructor
  · rw [RegRow.bits_write_field hk hf hd, FieldRow.write_reserved ha old hx, bits_putBits_same _ _ _ _ hl.2 hl.1, bits_mod]
  · simp only [RegRow.write, hk, Bool.false_and, Bool.false_eq_true, if_false, List.any_map, Function.comp_def,
      List.any_eq_true]
    exact ⟨f, hf, by rw [FieldRow.write_reserved ha old hx]⟩

/-- A one-bit field that software writes takes the bit. -/
theorem RegRow.bit_write_rw {r : RegRow} (hk : r.kind = .plain) {j : Nat} (hf : fRow j j .rw ∈ r.fields) (hj : j < 32)
    (hd : ∀ g ∈ r.fields, g = fRow j j .rw ∨ j < g.lo ∨ g.hi < j) (old v : Word) :
    bit (r.write false old v).1 j = bit v j := by
  rw [RegRow.bit_write_field hk hf hd, FieldRow.bit_write rfl old v j hj]
  simp [fRow, Acc.bitAfter]

/-! ### The emulated output changes the sources alone (R54) -/

/-- Only the hidden state of motion sources has changed. -/
def OnlyMs (s t : State) : Prop := ∃ m, t = { s with mot := { s.mot with ms := m } }

theorem OnlyMs.refl (s : State) : OnlyMs s s := ⟨_, rfl⟩

theorem OnlyMs.trans {s t u : State} (h : OnlyMs s t) (k : OnlyMs t u) : OnlyMs s u := by
  obtain ⟨m, rfl⟩ := h
  obtain ⟨m', rfl⟩ := k
  exact ⟨m', rfl⟩

theorem OnlyMs.setMs (s : State) (m : Nat) (x : MsSt) : OnlyMs s (s.setMs m x) := ⟨_, rfl⟩

/-- One source moves its emulated output by what its position differs from that before. -/
def State.emuOne (before s : State) (m : Nat) : State :=
  let d := (fixPos (sourcePos s m) - fixPos (sourcePos before m)).toInt
  if d = 0 then s else s.setMs m ((s.ms m).emuShift s.now d)

theorem State.emuAll_eq (s before : State) : s.emuAll before = s.each (List.range 8) before.emuOne := rfl

theorem State.emuAll_onlyMs (s before : State) : OnlyMs s (s.emuAll before) := by
  rw [State.emuAll_eq]
  refine State.each_rel OnlyMs.refl (fun _ _ _ => OnlyMs.trans) fun t m _ => ?_
  unfold State.emuOne
  dsimp only
  split
  · exact .refl t
  · exact .setMs t m _

@[simp] theorem State.rd_emuAll (s before : State) (b : Blk) (a : Nat) : (s.emuAll before).rd b a = s.rd b a := by
  obtain ⟨m, hm⟩ := s.emuAll_onlyMs before
  rw [hm]
  cases b <;> rfl

@[simp] theorem State.flag_emuAll (s before : State) (b : Blk) (a i : Nat) :
    (s.emuAll before).flag b a i = s.flag b a i := by rw [State.flag, State.rd_emuAll, State.flag]

@[simp] theorem State.fld_emuAll (s before : State) (b : Blk) (a hi lo : Nat) :
    (s.emuAll before).fld b a hi lo = s.fld b a hi lo := by rw [State.fld, State.rd_emuAll, State.fld]

@[simp] theorem State.rd64_emuAll (s before : State) (b : Blk) (lo hi : Nat) :
    (s.emuAll before).rd64 b lo hi = s.rd64 b lo hi := by rw [State.rd64, State.rd_emuAll, State.rd_emuAll, State.rd64]

@[simp] theorem encMode_emuAll (s before : State) (n : Nat) : encMode (s.emuAll before) n = encMode s n :=
  s.fld_emuAll before _ _ _ _

@[simp] theorem State.enc_emuAll (s before : State) (n : Nat) : (s.emuAll before).enc n = s.enc n := by
  obtain ⟨m, hm⟩ := s.emuAll_onlyMs before
  rw [hm]
  rfl

theorem Kept.emuAll {bs : List Blk} (s before : State) (hb : Blk.mot ∈ bs) : Kept bs s (s.emuAll before) := by
  obtain ⟨m, hm⟩ := s.emuAll_onlyMs before
  rw [hm]
  simp [Kept, hb]

theorem RegsKept.emuAll {b : Blk} {as : List Nat} (s before : State) : RegsKept b as s (s.emuAll before) :=
  fun a _ => s.rd_emuAll before b a

/-- A source's position is its own: a change of another source leaves it. -/
theorem sourcePos_setMs_ne (s : State) {m k : Nat} (x : MsSt) (h : k ≠ m) : sourcePos (s.setMs m x) k = sourcePos s k := by
  unfold sourcePos sourceView
  rw [State.setMs_ms_ne _ _ _ _ h]
  rfl

/-- What the emulated output changes of a source. -/
theorem State.ms_emuAll (s before : State) (k : Nat) :
    ∃ lag at', (s.emuAll before).ms k = { s.ms k with emuLag := lag, emuAt := at' } := by
  rw [State.emuAll_eq]
  refine State.each_rel (R := fun s t => ∃ lag at', t.ms k = { s.ms k with emuLag := lag, emuAt := at' })
    (fun s => ⟨_, _, rfl⟩) ?_ fun t m _ => ?_
  · rintro s t u ⟨l, a, h⟩ ⟨l', a', h'⟩
    exact ⟨l', a', by rw [h', h]⟩
  · unfold State.emuOne
    dsimp only
    split
    · exact ⟨_, _, rfl⟩
    · by_cases hk : k = m
      · subst hk
        rw [State.setMs_ms_same]
        exact ⟨_, _, rfl⟩
      · rw [State.setMs_ms_ne _ _ _ _ hk]
        exact ⟨_, _, rfl⟩

/-- A source whose position has not changed keeps its emulated output. -/
theorem State.ms_emuAll_of_still {s before : State} {k : Nat} (h : sourcePos s k = sourcePos before k) :
    (s.emuAll before).ms k = s.ms k := by
  rw [State.emuAll_eq]
  refine (State.each_rel (R := fun s t => sourcePos s k = sourcePos before k →
    sourcePos t k = sourcePos before k ∧ t.ms k = s.ms k) (fun s hs => ⟨hs, rfl⟩) ?_ (fun t m _ ht => ?_) h).2
  · exact fun s t u hst htu hs => ⟨(htu (hst hs).1).1, (htu (hst hs).1).2.trans (hst hs).2⟩
  · unfold State.emuOne
    dsimp only
    split
    · exact ⟨ht, rfl⟩
    · next hd =>
      have hk : k ≠ m := by
        rintro rfl
        exact hd (by simp [ht])
      exact ⟨(sourcePos_setMs_ne t _ hk).trans ht, t.setMs_ms_ne _ _ _ hk⟩

end Sys2Proof.Machine

end

/-! ## Encoder ports: what the shared operations leave of them -/

section

namespace Sys2Proof.Machine

theorem State.enc_of_mot {s t : State} (h : t.mot.enc = s.mot.enc) (k : Nat) : t.enc k = s.enc k :=
  congrArg (fun e => Tab.get (fun _ => EncSt.init) e k) h

variable (s : State) (k : Nat)

/-! ### The hidden state of every port stays -/

@[simp] theorem State.mot_publishAt (id : Nat) (arg : Word) (tb : Nat) : (s.publishAt id arg tb).mot = s.mot :=
  (Kept.publishAt (bs := [.evt]) s id arg tb (by simp)).mot_eq (by simp)

@[simp] theorem State.mot_publish (id : Nat) (arg : Word) : (s.publish id arg).mot = s.mot := s.mot_publishAt id arg _

@[simp] theorem State.enc_publish (id : Nat) (arg : Word) : (s.publish id arg).enc k = s.enc k :=
  State.enc_of_mot (by simp) k

@[simp] theorem State.enc_encEvent (n j : Nat) (arg : Word) : (s.encEvent n j arg).enc k = s.enc k := s.enc_publish k _ arg

@[simp] theorem State.enc_each {α : Type} (l : List α) (f : State → α → State) (hf : ∀ s x, (f s x).enc k = s.enc k) :
    (s.each l f).enc k = s.enc k :=
  State.each_rel (R := fun s t => t.enc k = s.enc k) (fun _ => rfl) (fun _ _ _ h h' => h'.trans h) (fun t x _ => hf t x)

@[simp] theorem State.enc_putEncState (n st : Nat) (dec : Bool) : (s.putEncState n st dec).enc k = s.enc k := by
  unfold State.putEncState
  dsimp only
  split <;> simp

@[simp] theorem State.enc_encSpeed (n : Nat) : (s.encSpeed n).enc k = s.enc k := by
  unfold State.encSpeed
  dsimp only
  split
  · split <;> simp
  · simp

@[simp] theorem State.enc_skipGen (g : Nat) : (s.skipGen g).enc k = s.enc k := by
  unfold State.skipGen
  dsimp only
  split <;> simp

@[simp] theorem State.enc_skipSource (m : Nat) : (s.skipSource m).enc k = s.enc k := by simp [State.skipSource]

@[simp] theorem State.mot_cancelEjections (m : Nat) : (s.cancelEjections m).mot = s.mot := by
  unfold State.cancelEjections
  dsimp only
  split <;> rfl

@[simp] theorem State.enc_cancelEjections (m : Nat) : (s.cancelEjections m).enc k = s.enc k :=
  State.enc_of_mot (by simp) k

@[simp] theorem State.enc_msTake (m : Nat) (sec switch : Bool) : (s.msTake m sec switch).enc k = s.enc k := by
  unfold State.msTake
  dsimp only
  split <;> simp

@[simp] theorem State.enc_msEnd (m : Nat) (pos : Fix) : (s.msEnd m pos).enc k = s.enc k := by simp [State.msEnd]

@[simp] theorem State.enc_msLose (m : Nat) (before : View) : (s.msLose m before).enc k = s.enc k := by
  unfold State.msLose
  dsimp only
  split <;> simp

@[simp] theorem State.enc_msEval (m : Nat) (before : View) : (s.msEval m before).enc k = s.enc k := by
  unfold State.msEval
  dsimp only
  repeat' split
  all_goals simp

@[simp] theorem State.enc_msEvalAll (before : State) : (s.msEvalAll before).enc k = s.enc k := by simp [State.msEvalAll]

@[simp] theorem State.enc_portJump (n : Nat) : (s.portJump n).enc k = s.enc k := by simp [State.portJump]

/-! ### Registers and blocks behind an event -/

variable (b : Blk) (a : Nat)

@[simp] theorem State.rd_publishAt (id : Nat) (arg : Word) (tb : Nat) (hb : b ≠ .evt) :
    (s.publishAt id arg tb).rd b a = s.rd b a :=
  (Kept.publishAt (bs := [.evt]) s id arg tb (by simp)).regsKept (by simpa using hb) [] a (by simp)

@[simp] theorem State.rd_publish (id : Nat) (arg : Word) (hb : b ≠ .evt) : (s.publish id arg).rd b a = s.rd b a :=
  s.rd_publishAt b a id arg _ hb

@[simp] theorem State.rd_encEvent (n j : Nat) (arg : Word) (hb : b ≠ .evt) : (s.encEvent n j arg).rd b a = s.rd b a :=
  s.rd_publish b a _ arg hb

@[simp] theorem State.flag_encEvent (n j i : Nat) (arg : Word) (hb : b ≠ .evt) :
    (s.encEvent n j arg).flag b a i = s.flag b a i := by simp [State.flag, hb]

@[simp] theorem State.fld_encEvent (n j hi lo : Nat) (arg : Word) (hb : b ≠ .evt) :
    (s.encEvent n j arg).fld b a hi lo = s.fld b a hi lo := by simp [State.fld, hb]

theorem Kept.encEvent {bs : List Blk} (n j : Nat) (arg : Word) (hb : Blk.evt ∈ bs) : Kept bs s (s.encEvent n j arg) :=
  .publish s _ arg hb

@[simp] theorem State.flag_onEnc (n i : Nat) (f : EncSt → EncSt) : (s.onEnc n f).flag b a i = s.flag b a i := by
  simp [State.flag]

@[simp] theorem State.fld_onEnc (n hi lo : Nat) (f : EncSt → EncSt) : (s.onEnc n f).fld b a hi lo = s.fld b a hi lo := by
  simp [State.fld]

theorem RegsKept.onEnc (as : List Nat) (n : Nat) (f : EncSt → EncSt) : RegsKept b as s (s.onEnc n f) :=
  fun a _ => s.rd_onEnc b a n f

/-! ### A port's window (R423) -/

/-- While the window counted is the present one, nothing is judged. -/
theorem State.encRoll_of_current {s : State} {n : Nat} (h : s.now / 1000000 ≤ (s.enc n).winId) : s.encRoll n = s :=
  if_neg (by omega)

end Sys2Proof.Machine

end

/-! ## Encoder ports: ENC_CTRL and transitions -/

section

namespace Sys2Proof.Machine

/-! ### ENC_CTRL (R36, R424) -/

/-- The register map's row of ENC_CTRL. -/
def rowEncCtrl : RegRow := ⟨0x0, 0x0, 1, .plain, 0x8001C7,
  [⟨31, 30, .rw, none, false, [3]⟩, fRow 29 29 .rw, fRow 28 28 .rw, fRow 27 26 .rw, fRow 25 25 .rw, fRow 24 24 .rw,
   fRow 23 21 .rw, fRow 15 14 .rw, ⟨13, 12, .rw, none, false, [3]⟩, fRow 11 6 .rw, fRow 5 0 .rw]⟩

theorem regAt_encCtrl : ∀ n : Fin 8, regAt (ENC_CTRL n) = some (unitEnc, rowEncCtrl) := by decide

theorem cfgErrAt_encCtrl : ∀ n : Fin 8, unitEnc.cfgErrAt (ENC_CTRL n) = some (ENC_STATUS n, 13) := by decide

/-- MODE takes every value but the reserved one. -/
theorem mode_write_encCtrl (old : Word) {v : Word} (hv : bits v 31 30 ≠ 3) :
    bits (rowEncCtrl.write false old v).1 31 30 = bits v 31 30 :=
  RegRow.bits_write_taken (r := rowEncCtrl) (f := ⟨31, 30, .rw, none, false, [3]⟩) rfl (by decide) (by decide) rfl rfl
    (by decide) old (by simpa using hv)

theorem mode_write_encCtrl_reserved (old : Word) {v : Word} (hv : bits v 31 30 = 3) :
    bits (rowEncCtrl.write false old v).1 31 30 = bits old 31 30 ∧ (rowEncCtrl.write false old v).2 = true :=
  RegRow.bits_write_reserved (r := rowEncCtrl) (f := ⟨31, 30, .rw, none, false, [3]⟩) rfl (by decide) (by decide) rfl
    (by decide) old (by simp [hv])

theorem swap_write_encCtrl (old v : Word) : bit (rowEncCtrl.write false old v).1 28 = bit v 28 :=
  RegRow.bit_write_rw (r := rowEncCtrl) rfl (by decide) (by decide) (by decide) old v

/-- The end of a write to ENC_CTRL: an index that is not active has gone inactive, and Z_MODE arms the next load (R41). -/
def State.ctrlIndex (s : State) (n : Nat) (new : Word) : State :=
  (if bits new 31 30 = 1 ∧ (s.enc n).z = bit new 24 then
      (s.onEnc n (fun e => { e with zRun := 0 })).setb .mot (ENC_STATUS n) 5 false
    else s).onEnc n (fun e => { e with zArm := decide (bits new 27 26 = 2) })

theorem State.enc_ctrlIndex (s : State) (n : Nat) (new : Word) :
    ∃ r z, (s.ctrlIndex n new).enc n = { s.enc n with zRun := r, zArm := z } := by
  unfold State.ctrlIndex
  rw [State.onEnc_enc_same]
  split
  · rw [State.setb_enc, State.onEnc_enc_same]
    exact ⟨_, _, rfl⟩
  · exact ⟨_, _, rfl⟩

theorem RegsKept.ctrlIndex (s : State) (n : Nat) (new : Word) : RegsKept .mot [ENC_STATUS n] s (s.ctrlIndex n new) :=
  (RegsKept.ite ((RegsKept.onEnc s .mot _ n _).trans (.setb _ _ 5 false (by simp))) (.refl _ _ s)).trans (.onEnc _ _ _ n _)

theorem Kept.ctrlIndex (s : State) (n : Nat) (new : Word) : Kept [.mot] s (s.ctrlIndex n new) :=
  (Kept.ite ((Kept.onEnc s n _ (by simp)).trans (.setb _ .mot _ 5 false (by simp))) (.refl _ s)).trans (.onEnc _ n _ (by simp))

theorem State.flag_ctrlIndex_cfgErr (s : State) (n : Nat) (new : Word) :
    (s.ctrlIndex n new).flag .mot (ENC_STATUS n) 13 = s.flag .mot (ENC_STATUS n) 13 := by
  unfold State.ctrlIndex
  rw [State.flag_onEnc]
  split
  · rw [State.flag_setb_bit _ _ _ _ _ _ (by decide), State.flag_onEnc]
  · rfl

/-- The value a write leaves in ENC_CTRL. -/
def newCtrl (s : State) (n : Nat) (v : Word) : Word := (rowEncCtrl.write false (s.rd .mot (ENC_CTRL n)) v).1

theorem newCtrl_eq (s : State) (n : Fin 8) (v : Word) :
    ((regAt (ENC_CTRL n)).map (fun u => (u.2.write false (s.rd .mot (ENC_CTRL n)) v).1)).getD (s.rd .mot (ENC_CTRL n)) =
      newCtrl s n v := by
  rw [regAt_encCtrl n]
  rfl

theorem State.rd_store_encCtrl (s : State) (n : Fin 8) (v : Word) :
    (s.store .mot (ENC_CTRL n) v).rd .mot (ENC_CTRL n) = newCtrl s n v :=
  State.rd_store_plain (regAt_encCtrl n) rfl (cfgErrAt_encCtrl n) s .mot v (by simp [ENC_CTRL, ENC_STATUS])

theorem RegsKept.store_encCtrl (s : State) (n : Fin 8) (v : Word) :
    RegsKept .mot [ENC_CTRL n, ENC_STATUS n] s (s.store .mot (ENC_CTRL n) v) :=
  .store_plain (regAt_encCtrl n) rfl (cfgErrAt_encCtrl n) s .mot v (by simp) (by simp)

/-- The raw levels become the accepted ones (log 55). -/
def EncSt.takeRaw (e : EncSt) : EncSt := { e with a := e.rawA, b := e.rawB, z := e.rawZ, idxNoAB := false }

/-- The accepted levels become the reference, after SWAP_AB (R424). -/
def EncSt.refer (swap : Bool) (e : EncSt) : EncSt :=
  { e with refA := if swap then e.b else e.a, refB := if swap then e.a else e.b }

/-- What a change of MODE starts anew (R43, R53). -/
def EncSt.modeChanged (e : EncSt) : EncSt := { e with winWhole := false, ssiLast := none, ssiBad := 0, ssiWord := none }

section ctrl
variable {s : State} {n : Fin 8} {v : Word} (hwin : s.now / 1000000 ≤ (s.enc n).winId)
include hwin

/-- MODE becomes QUAD: the raw levels are the accepted ones and, after SWAP_AB, the reference (R424, log 55). -/
theorem State.encCtrlWrite_toQuad (hv : bits v 31 30 = 1) (hm : encMode s n ≠ 1) : s.encCtrlWrite n v =
    ((((s.store .mot (ENC_CTRL n) v).onEnc n EncSt.takeRaw).onEnc n (EncSt.refer (bit v 28))).onEnc n
      EncSt.modeChanged).ctrlIndex n (newCtrl s n v) := by
  have hnew : bits (newCtrl s n v) 31 30 = 1 := (mode_write_encCtrl _ (by omega)).trans hv
  have hold : bits (s.rd .mot (ENC_CTRL n)) 31 30 ≠ 1 := hm
  have hswap : bit (newCtrl s n v) 28 = bit v 28 := swap_write_encCtrl _ _
  unfold State.encCtrlWrite State.ctrlIndex
  rw [State.encRoll_of_current hwin]
  simp only [newCtrl_eq, hnew, hold, hswap, ne_eq, not_false_eq_true, and_self, true_or, true_and, if_true, if_false,
    Nat.one_ne_zero, false_and, Ne.symm hold]
  rfl

/-- A reserved MODE keeps the old one (R36). -/
theorem State.encCtrlWrite_reserved (hv : bits v 31 30 = 3) : s.encCtrlWrite n v =
    (if bits (s.rd .mot (ENC_CTRL n)) 31 30 = 1 ∧ bit (s.rd .mot (ENC_CTRL n)) 28 ≠ bit v 28 then
        (s.store .mot (ENC_CTRL n) v).onEnc n (EncSt.refer (bit v 28))
      else s.store .mot (ENC_CTRL n) v).ctrlIndex n (newCtrl s n v) := by
  have hnew : bits (newCtrl s n v) 31 30 = bits (s.rd .mot (ENC_CTRL n)) 31 30 := (mode_write_encCtrl_reserved _ hv).1
  have hswap : bit (newCtrl s n v) 28 = bit v 28 := swap_write_encCtrl _ _
  unfold State.encCtrlWrite State.ctrlIndex
  rw [State.encRoll_of_current hwin]
  simp only [newCtrl_eq, hnew, hswap, ne_eq, and_not_self, false_or, if_false, not_true_eq_false]
  rfl

end ctrl

/-! ### A transition (R37, R38, R49) -/

/-- What a transition's decoding reads of a port and puts there: the position, the accepted levels, the reference. -/
def EncSt.place (e : EncSt) : Pos × Bool × Bool × Bool × Bool := (e.pos, e.a, e.b, e.refA, e.refB)

theorem EncSt.place_inj {e : EncSt} {p : Pos} {a b c d : Bool} (h : e.place = (p, a, b, c, d)) :
    e.pos = p ∧ e.a = a ∧ e.b = b ∧ e.refA = c ∧ e.refB = d := by
  simpa [EncSt.place] using h

/-- The accepted levels are taken over, before the table of R37 decides what they mean. -/
def State.taken (s : State) (n : Nat) (a b : Bool) (t : Nat) : State :=
  let e := s.enc n
  let ctrl := s.rd .mot (ENC_CTRL n)
  let s := s.onEnc n (fun e => { e with
    a := a, b := b, refA := if bit ctrl 28 then b else a, refB := if bit ctrl 28 then a else b, lastAcc := some t,
    idxNoAB := false, winAcc := (e.winAcc.1 + b2n (e.a != a), e.winAcc.2.1 + b2n (e.b != b), e.winAcc.2.2) })
  let s := s.setb .mot (ENC_STATUS n) 4 false
  let fast := match e.lastAcc with
    | some u => decide (t < u + 25)
    | none => false
  if fast then (s.setb .mot (ENC_STATUS n) 9 true).count .mot (ENC_CNT_OVERSPEED n) else s

theorem State.encTransition_eq (s : State) (n : Nat) (a b : Bool) (t : Nat) :
    s.encTransition n a b t =
      match decodeStep (s.enc n).refA (s.enc n).refB (if s.flag .mot (ENC_CTRL n) 28 then b else a)
        (if s.flag .mot (ENC_CTRL n) 28 then a else b) with
      | .none => s.taken n a b t
      | .plus => (s.taken n a b t).encCount n (s.flag .mot (ENC_CTRL n) 29) t
      | .minus => (s.taken n a b t).encCount n (!s.flag .mot (ENC_CTRL n) 29) t
      | .illegal => (s.taken n a b t).encIllegal n := rfl

theorem State.enc_taken (s : State) (n : Nat) (a b : Bool) (t : Nat) :
    ((s.taken n a b t).enc n).place = ((s.enc n).pos, a, b, (if s.flag .mot (ENC_CTRL n) 28 then b else a),
      (if s.flag .mot (ENC_CTRL n) 28 then a else b)) ∧
    ((s.taken n a b t).enc n).winIllegal = (s.enc n).winIllegal := by
  unfold State.taken
  extract_lets e ctrl s₁ s₂ fast
  have h₂ : s₂.enc n = s₁.enc n := s₁.setb_enc .mot _ n _ _
  have ht : (if fast = true then (s₂.setb .mot (ENC_STATUS n) 9 true).count .mot (ENC_CNT_OVERSPEED n) else s₂).enc n =
      s₁.enc n := by
    split
    · rw [State.count_enc, State.setb_enc, h₂]
    · exact h₂
  rw [ht, State.onEnc_enc_same]
  exact ⟨rfl, rfl⟩

theorem Kept.taken (s : State) (n : Nat) (a b : Bool) (t : Nat) : Kept [.mot] s (s.taken n a b t) := by
  have hm : Blk.mot ∈ [Blk.mot] := by simp
  unfold State.taken
  extract_lets e ctrl s₁ s₂ fast
  have h₂ : Kept [.mot] s s₂ := (Kept.onEnc s n _ hm).trans (.setb _ .mot _ 4 false hm)
  exact h₂.trans (.ite ((Kept.setb _ .mot _ 9 true hm).trans (.count _ .mot _ hm)) (.refl _ _))

theorem State.rd_taken_illegal (s : State) (n : Nat) (a b : Bool) (t : Nat) :
    (s.taken n a b t).rd .mot (ENC_CNT_ILLEGAL n) = s.rd .mot (ENC_CNT_ILLEGAL n) := by
  have h₁ : ENC_CNT_ILLEGAL n ≠ ENC_CNT_OVERSPEED n := by simp [ENC_CNT_ILLEGAL, ENC_CNT_OVERSPEED]
  have h₂ : ENC_CNT_ILLEGAL n ≠ ENC_STATUS n := by simp [ENC_CNT_ILLEGAL, ENC_STATUS]
  unfold State.taken
  extract_lets e ctrl s₁ s₂ fast
  have hs : s₂.rd .mot (ENC_CNT_ILLEGAL n) = s.rd .mot (ENC_CNT_ILLEGAL n) := by
    rw [State.rd_setb_ne _ _ _ _ _ _ h₂, State.rd_onEnc]
  split
  · rw [State.rd_count_ne _ _ _ _ h₁, State.rd_setb_ne _ _ _ _ _ _ h₂, hs]
  · exact hs

@[simp] theorem State.place_encLost (s : State) (n : Nat) : ((s.encLost n).enc n).place = (s.enc n).place := by
  unfold State.encLost
  split
  · rfl
  · simp [EncSt.place]

@[simp] theorem State.place_encStep (s : State) (n : Nat) (dec : Bool) (p q : Pos) (second : Bool) :
    ((s.encStep n dec p q second).enc n).place = (s.enc n).place := by
  unfold State.encStep
  dsimp only
  repeat' split
  all_goals simp [EncSt.place]

theorem EncSt.place_pushRun (e : EncSt) (dec : Bool) (t c : Nat) : (pushRun e dec t c).place = e.place := by
  unfold pushRun
  split <;> rfl

/-- Adding to the position changes the position alone (R44). -/
theorem State.enc_encAdd (s : State) (n : Nat) (d : Int) :
    (s.encAdd n d).enc n = { s.enc n with pos := (s.enc n).pos + BitVec.ofInt 48 d } := by
  unfold State.encAdd
  dsimp only
  split <;> simp

/-- A legal step moves the position by one (R37). -/
theorem State.place_encCount (s : State) (n : Nat) (dec : Bool) (t : Nat) :
    ((s.encCount n dec t).enc n).place =
      { (s.enc n) with pos := (s.enc n).pos + BitVec.ofInt 48 (if dec then -1 else 1) }.place := by
  unfold State.encCount
  extract_lets d p s₁ q s₂ active s₃ s₄ same s₅
  have h₂ : (s₂.enc n).place = { (s.enc n) with pos := p + BitVec.ofInt 48 d }.place := by
    simp [s₂, s₁, State.enc_encAdd, EncSt.place, p]
  have h₃ : (s₃.enc n).place = (s₂.enc n).place := by
    unfold s₃
    split <;> simp [EncSt.place]
  have h₄ : (s₄.enc n).place = (s₃.enc n).place := by
    unfold s₄
    split <;> simp
  have h₅ : (s₅.enc n).place = (s₄.enc n).place := by
    simp [s₅, EncSt.place_pushRun]
  split
  · rw [h₄, h₃, h₂]
  · rw [State.enc_encSpeed, State.place_encStep, h₅, h₄, h₃, h₂]

theorem State.place_encIllegal (s : State) (n : Nat) : ((s.encIllegal n).enc n).place = (s.enc n).place := by
  unfold State.encIllegal
  extract_lets s₁ s₂
  have h₂ : (s₂.enc n).place = (s.enc n).place := by simp [s₂, s₁, EncSt.place]
  split
  · rw [State.place_encLost, h₂]
  · exact h₂

/-- Fewer than 8 illegal transitions in the window count, and do nothing else (R38, R43). -/
theorem State.encIllegal_of_few {s : State} {n : Nat} (h : (s.enc n).winIllegal < 7) : s.encIllegal n =
    ((s.setb .mot (ENC_STATUS n) 8 true).count .mot (ENC_CNT_ILLEGAL n)).onEnc n
      (fun e => { e with winIllegal := e.winIllegal + 1 }) := by
  unfold State.encIllegal
  dsimp only
  rw [if_neg]
  simp
  omega

theorem execEncTransition_of_accepted {n : Fin 8} {u : Nat} {s : State} (hm : encMode s n = 1)
    (hwin : s.now / 1000000 ≤ (s.enc n).winId)
    (hu : earlier (filtered (s.enc n).a (s.enc n).rawA (s.enc n).atA (s.fld .mot (ENC_CTRL n) 11 6) s.now)
      (filtered (s.enc n).b (s.enc n).rawB (s.enc n).atB (s.fld .mot (ENC_CTRL n) 11 6) s.now) = some u) :
    execEncTransition n s = .next ((s.encTransition n
      (if filtered (s.enc n).a (s.enc n).rawA (s.enc n).atA (s.fld .mot (ENC_CTRL n) 11 6) s.now = some u
        then (s.enc n).rawA else (s.enc n).a)
      (if filtered (s.enc n).b (s.enc n).rawB (s.enc n).atB (s.fld .mot (ENC_CTRL n) 11 6) s.now = some u
        then (s.enc n).rawB else (s.enc n).b) u).emuAll s) := by
  unfold execEncTransition
  rw [State.encRoll_of_current hwin]
  dsimp only
  rw [hu]
  dsimp only
  rw [if_pos hm]

end Sys2Proof.Machine

end

/-! ## Encoder ports: what their steps do -/

section

namespace Sys2Proof.Machine

/-! ### MODE (R36, R424) -/

section
variable {n : Fin 8} {v : Word} {s : State} (hwin : s.now / 1000000 ≤ (s.enc n).winId)
include hwin

theorem encModeWrite_toQuad (hv : bits v 31 30 = 1) (hm : encMode s n ≠ 1) :
    ∃ t, exec (.encModeWrite n v) s = .next t ∧ encMode t n = 1 ∧
      (t.enc n).a = (s.enc n).rawA ∧ (t.enc n).b = (s.enc n).rawB ∧ (t.enc n).z = (s.enc n).rawZ ∧
      (t.enc n).refA = (if bit v 28 then (s.enc n).rawB else (s.enc n).rawA) ∧
      (t.enc n).refB = (if bit v 28 then (s.enc n).rawA else (s.enc n).rawB) ∧
      (t.enc n).pos = (s.enc n).pos ∧ RegsKept .mot [ENC_CTRL n, ENC_STATUS n] s t ∧ Kept [.mot] s t := by
  refine ⟨(s.encCtrlWrite n v).emuAll s, rfl, ?_⟩
  rw [State.enc_emuAll, encMode_emuAll, State.encCtrlWrite_toQuad hwin hv hm]
  let p := (((s.store .mot (ENC_CTRL n) v).onEnc n EncSt.takeRaw).onEnc n (EncSt.refer (bit v 28))).onEnc n EncSt.modeChanged
  have hpe : p.enc n = ((s.enc n).takeRaw.refer (bit v 28)).modeChanged := by simp [p]
  have hpr : RegsKept .mot [ENC_CTRL n, ENC_STATUS n] s p :=
    (((RegsKept.store_encCtrl s n v).trans (.onEnc _ _ _ n _)).trans (.onEnc _ _ _ n _)).trans (.onEnc _ _ _ n _)
  have hpk : Kept [.mot] s p := by
    have hs : Kept [.mot] s (s.store .mot (ENC_CTRL n) v) := .store s .mot _ v (by simp)
    exact ((hs.trans (.onEnc _ n _ (by simp))).trans (.onEnc _ n _ (by simp))).trans (.onEnc _ n _ (by simp))
  have hmode : encMode (p.ctrlIndex n (newCtrl s n v)) n = 1 := by
    have hc : (p.ctrlIndex n (newCtrl s n v)).rd .mot (ENC_CTRL n) = newCtrl s n v := by
      rw [RegsKept.ctrlIndex p n _ _ (by simp [ENC_CTRL, ENC_STATUS]), State.rd_onEnc, State.rd_onEnc,
        State.rd_onEnc, State.rd_store_encCtrl]
    rw [encMode, State.fld, hc]
    exact (mode_write_encCtrl _ (by omega)).trans hv
  obtain ⟨r, z, he⟩ := p.enc_ctrlIndex n (newCtrl s n v)
  change encMode (p.ctrlIndex n (newCtrl s n v)) n = 1 ∧ ((p.ctrlIndex n (newCtrl s n v)).enc n).a = _ ∧ _
  rw [he, hpe]
  refine ⟨hmode, rfl, rfl, rfl, rfl, rfl, rfl, ?_, ?_⟩
  · exact (hpr.trans ((RegsKept.ctrlIndex p n _).mono (by simp))).trans (.emuAll _ _)
  · exact (hpk.trans (.ctrlIndex p n _)).trans (.emuAll _ _ (by simp))

theorem encModeWrite_reserved (hv : bits v 31 30 = 3) :
    ∃ t, exec (.encModeWrite n v) s = .next t ∧ encMode t n = encMode s n ∧
      t.flag .mot (ENC_STATUS n) 13 = true ∧ (t.enc n).pos = (s.enc n).pos ∧ Kept [.mot] s t := by
  refine ⟨(s.encCtrlWrite n v).emuAll s, rfl, ?_⟩
  rw [State.enc_emuAll, encMode_emuAll, State.flag_emuAll, State.encCtrlWrite_reserved hwin hv]
  obtain ⟨hkeep, hbad⟩ := mode_write_encCtrl_reserved (s.rd .mot (ENC_CTRL n)) hv
  generalize hp : (if bits (s.rd .mot (ENC_CTRL n)) 31 30 = 1 ∧ bit (s.rd .mot (ENC_CTRL n)) 28 ≠ bit v 28 then
    (s.store .mot (ENC_CTRL n) v).onEnc n (EncSt.refer (bit v 28)) else s.store .mot (ENC_CTRL n) v) = p
  have hstored : ∀ a, p.rd .mot a = (s.store .mot (ENC_CTRL n) v).rd .mot a := by
    intro a
    rw [← hp]
    split
    · exact State.rd_onEnc _ _ _ _ _
    · rfl
  have hpos : (p.enc n).pos = (s.enc n).pos := by
    rw [← hp]
    split
    · rw [State.onEnc_enc_same, State.store_enc]
      rfl
    · rw [State.store_enc]
  have hpk : Kept [.mot] s p := by
    have hs : Kept [.mot] s (s.store .mot (ENC_CTRL n) v) := .store s .mot _ v (by simp)
    exact hp ▸ .ite (hs.trans (.onEnc _ n _ (by simp))) hs
  obtain ⟨r, z, he⟩ := p.enc_ctrlIndex n (newCtrl s n v)
  refine ⟨?_, ?_, ?_, (hpk.trans (.ctrlIndex p n _)).trans (.emuAll _ _ (by simp))⟩
  · rw [encMode, State.fld, RegsKept.ctrlIndex p n _ _ (by simp [ENC_CTRL, ENC_STATUS]), hstored, State.rd_store_encCtrl]
    exact hkeep
  · rw [State.flag_ctrlIndex_cfgErr, State.flag, hstored]
    exact State.flag_store_bad (regAt_encCtrl n) rfl (cfgErrAt_encCtrl n) s .mot v (by decide) hbad
  · rw [he, hpos]

end

/-! ### A transition (R37, R38, R44) -/

theorem State.place_encTransition (s : State) (n : Nat) (a b : Bool) (t : Nat) {c d : Bool}
    (hc : c = if s.flag .mot (ENC_CTRL n) 28 then b else a) (hd : d = if s.flag .mot (ENC_CTRL n) 28 then a else b) :
    ((s.encTransition n a b t).enc n).place =
      (match decodeStep (s.enc n).refA (s.enc n).refB c d with
        | .plus => (s.enc n).pos + BitVec.ofInt 48 (if s.flag .mot (ENC_CTRL n) 29 then -1 else 1)
        | .minus => (s.enc n).pos + BitVec.ofInt 48 (if !s.flag .mot (ENC_CTRL n) 29 then -1 else 1)
        | .none | .illegal => (s.enc n).pos, a, b, c, d) := by
  obtain ⟨ht, -⟩ := s.enc_taken n a b t
  rw [← hc, ← hd] at ht
  obtain ⟨hp, ha, hb, hra, hrb⟩ := EncSt.place_inj ht
  rw [State.encTransition_eq, ← hc, ← hd]
  cases decodeStep (s.enc n).refA (s.enc n).refB c d
  case none => exact ht
  case illegal => exact (State.place_encIllegal _ n).trans ht
  case plus | minus =>
    refine (State.place_encCount _ n _ t).trans ?_
    simp only [EncSt.place, hp, ha, hb, hra, hrb]

/-- A count of one, up or down. -/
theorem pos_add_step (p : Pos) (dec : Bool) :
    p + BitVec.ofInt 48 (if dec then -1 else 1) = if dec then p - 1#48 else p + 1#48 := by
  have hneg : BitVec.ofInt 48 (-1) = -1#48 := by decide
  cases dec
  · rfl
  · rw [if_pos rfl, if_pos rfl, hneg, BitVec.sub_eq_add_neg]

theorem encTransition_counts {n : Fin 8} {u : Nat} {a b c d : Bool} {s : State} (hm : encMode s n = 1)
    (hwin : s.now / 1000000 ≤ (s.enc n).winId)
    (hu : earlier (filtered (s.enc n).a (s.enc n).rawA (s.enc n).atA (s.fld .mot (ENC_CTRL n) 11 6) s.now)
      (filtered (s.enc n).b (s.enc n).rawB (s.enc n).atB (s.fld .mot (ENC_CTRL n) 11 6) s.now) = some u)
    (ha : a = (if filtered (s.enc n).a (s.enc n).rawA (s.enc n).atA (s.fld .mot (ENC_CTRL n) 11 6) s.now = some u
      then (s.enc n).rawA else (s.enc n).a))
    (hb : b = (if filtered (s.enc n).b (s.enc n).rawB (s.enc n).atB (s.fld .mot (ENC_CTRL n) 11 6) s.now = some u
      then (s.enc n).rawB else (s.enc n).b))
    (hc : c = (if s.flag .mot (ENC_CTRL n) 28 then b else a)) (hd : d = (if s.flag .mot (ENC_CTRL n) 28 then a else b)) :
    ∃ t, exec (.encTransition n) s = .next t ∧
      (t.enc n).a = a ∧ (t.enc n).b = b ∧ (t.enc n).refA = c ∧ (t.enc n).refB = d ∧
      (decodeStep (s.enc n).refA (s.enc n).refB c d = .plus →
        (t.enc n).pos = if s.flag .mot (ENC_CTRL n) 29 then (s.enc n).pos - 1#48 else (s.enc n).pos + 1#48) ∧
      (decodeStep (s.enc n).refA (s.enc n).refB c d = .minus →
        (t.enc n).pos = if s.flag .mot (ENC_CTRL n) 29 then (s.enc n).pos + 1#48 else (s.enc n).pos - 1#48) ∧
      (decodeStep (s.enc n).refA (s.enc n).refB c d = .illegal → (s.enc n).winIllegal < 7 →
        (t.enc n).pos = (s.enc n).pos ∧ t.flag .mot (ENC_STATUS n) 8 = true ∧
        t.rd .mot (ENC_CNT_ILLEGAL n) = satAdd (s.rd .mot (ENC_CNT_ILLEGAL n)) 1 ∧ Kept [.mot] s t) ∧
      t.time = s.time ∧ t.pending = s.pending := by
  have hexec := execEncTransition_of_accepted hm hwin hu
  rw [← ha, ← hb] at hexec
  have hclock : ((s.encTransition n a b u).emuAll s).clock = s.clock := by simp
  obtain ⟨hpos, hpa, hpb, hra, hrb⟩ := EncSt.place_inj (s.place_encTransition n a b u hc hd)
  refine ⟨(s.encTransition n a b u).emuAll s, hexec, ?_⟩
  rw [State.enc_emuAll]
  refine ⟨hpa, hpb, hra, hrb, fun h => ?_, fun h => ?_, fun h hfew => ?_, State.time_eq_of_clock hclock,
    State.pending_eq_of_clock hclock⟩
  · rw [hpos, h]
    exact pos_add_step _ _
  · rw [hpos, h]
    refine (pos_add_step _ _).trans ?_
    cases s.flag .mot (ENC_CTRL n) 29 <;> rfl
  · obtain ⟨-, hwi⟩ := s.enc_taken n a b u
    have heq : s.encTransition n a b u = (((s.taken n a b u).setb .mot (ENC_STATUS n) 8 true).count .mot
        (ENC_CNT_ILLEGAL n)).onEnc n (fun e => { e with winIllegal := e.winIllegal + 1 }) := by
      rw [State.encTransition_eq, ← hc, ← hd, h]
      exact State.encIllegal_of_few (hwi.symm ▸ hfew)
    have hne : ENC_STATUS n ≠ ENC_CNT_ILLEGAL n := by simp [ENC_STATUS, ENC_CNT_ILLEGAL]
    have hmot : Blk.mot ∈ [Blk.mot] := by simp
    refine ⟨by rw [hpos, h], ?_, ?_, ?_⟩
    · rw [State.flag_emuAll, heq, State.flag_onEnc, State.flag, State.rd_count_ne _ _ _ _ hne, ← State.flag,
        State.flag_setb_same _ _ _ _ _ (by decide)]
    · rw [State.rd_emuAll, heq, State.rd_onEnc, State.rd_count, State.rd_setb_ne _ _ _ _ _ _ hne.symm,
        State.rd_taken_illegal]
    · rw [heq]
      exact ((((Kept.taken s n a b u).trans (.setb _ .mot _ 8 true hmot)).trans (.count _ .mot _ hmot)).trans
        (.onEnc _ n _ hmot)).trans (.emuAll _ _ hmot)

/-! ### A raw edge (R40) -/

theorem State.motionSeen_of_awake {s : State} (hup : s.pwr.coreUp = true) (h₂ : s.fld .pwr PWR_STATUS 31 28 ≠ 2)
    (h₃ : s.fld .pwr PWR_STATUS 31 28 ≠ 3) (n : Nat) (pin : EncPin) : s.motionSeen n pin = s :=
  if_neg (by simp [hup, h₂, h₃])

theorem rawCounter_ne_noiseLim (n : Nat) (pin : EncPin) : ENC_NOISE_LIM n ≠ rawCounter n pin := by
  cases pin <;> simp [rawCounter, ENC_NOISE_LIM, ENC_CNT_RAW_A, ENC_CNT_RAW_B, ENC_CNT_RAW_Z]

theorem rawCounter_ne_ctrl (n : Nat) (pin : EncPin) : ENC_CTRL n ≠ rawCounter n pin := by
  cases pin <;> simp [rawCounter, ENC_CTRL, ENC_CNT_RAW_A, ENC_CNT_RAW_B, ENC_CNT_RAW_Z]

/-- An edge counts in its window and leaves the accepted edges. -/
theorem EncSt.rawEdge_counts (e : EncSt) (now : Nat) (pin : EncPin) :
    pinCount pin (e.rawEdge now pin).winRaw = pinCount pin e.winRaw + 1 ∧
      pinCount pin (e.rawEdge now pin).winAcc = pinCount pin e.winAcc := by
  cases pin <;> exact ⟨rfl, rfl⟩

/-- Up to the window's noise limit an edge counts, and does nothing else of the port (R40). -/
theorem State.encRaw_of_quiet {s : State} {n : Nat} {pin : EncPin} (h : encMode s n = 1 →
    pinCount pin (s.enc n).winRaw ≤ pinCount pin (s.enc n).winAcc + (s.rd .mot (ENC_NOISE_LIM n)).toNat) :
    s.encRaw n pin = s.count .mot (rawCounter n pin) := by
  unfold State.encRaw
  refine if_neg ?_
  rintro ⟨hm, hlt⟩
  rw [State.count_enc, State.rd_count_ne _ _ _ _ (rawCounter_ne_noiseLim n pin)] at hlt
  rw [encMode, State.fld, State.rd_count_ne _ _ _ _ (rawCounter_ne_ctrl n pin)] at hm
  exact absurd (h hm) (by omega)

theorem encRawEdge_counts {n : Fin 8} {pin : EncPin} {s : State} (hup : s.pwr.coreUp = true)
    (h₂ : s.fld .pwr PWR_STATUS 31 28 ≠ 2) (h₃ : s.fld .pwr PWR_STATUS 31 28 ≠ 3)
    (hq : encMode s n = 1 → pinCount pin (s.enc n).winRaw < pinCount pin (s.enc n).winAcc +
      (s.rd .mot (ENC_NOISE_LIM n)).toNat) (hwin : s.now / 1000000 ≤ (s.enc n).winId) :
    ∃ t, exec (.encRawEdge n pin) s = .next t ∧
      t.rd .mot (rawCounter n pin) = satAdd (s.rd .mot (rawCounter n pin)) 1 ∧ t.enc n = (s.enc n).rawEdge s.now pin ∧
      RegsKept .mot [rawCounter n pin] s t ∧ Kept [.mot] s t := by
  have hmot : Blk.mot ∈ [Blk.mot] := by simp
  let u := s.onEnc n (fun e => e.rawEdge s.now pin)
  have hue : u.enc n = (s.enc n).rawEdge s.now pin := State.onEnc_enc_same _ _ _
  obtain ⟨hraw, hacc⟩ := (s.enc n).rawEdge_counts s.now pin
  have hquiet : u.encRaw n pin = u.count .mot (rawCounter n pin) := by
    refine State.encRaw_of_quiet fun hm => ?_
    have hlt := hq ((s.fld_onEnc .mot _ n _ _ _).symm.trans hm)
    rw [hue, hraw, hacc, State.rd_onEnc]
    omega
  refine ⟨(u.count .mot (rawCounter n pin)).emuAll s, ?_, ?_, ?_, ?_, ?_⟩
  · change execEncRawEdge n pin s = _
    simp only [execEncRawEdge, if_pos hup, State.encRoll_of_current hwin, State.motionSeen_of_awake hup h₂ h₃]
    exact congrArg (fun x => Host.Outcome.next (State.emuAll x s)) ((if_pos hup).trans hquiet)
  · rw [State.rd_emuAll, State.rd_count, State.rd_onEnc]
  · rw [State.enc_emuAll, State.count_enc, hue]
  · exact ((RegsKept.onEnc s .mot _ n _).trans (.count _ _ (by simp))).trans (.emuAll _ _)
  · exact ((Kept.onEnc s n _ hmot).trans (.count _ .mot _ hmot)).trans (.emuAll _ _ hmot)

/-! ### A window's end (R43, R423) -/

theorem encWindowEnd_starts {n : Fin 8} {s : State} (h : (s.enc n).winId < s.now / 1000000) :
    ∃ t, exec (.encWindowEnd n) s = .next t ∧ (t.enc n).winId = s.now / 1000000 ∧
      (t.enc n).winIllegal = 0 ∧ (t.enc n).winLegal = 0 ∧ (t.enc n).winRaw = (0, 0, 0) ∧
      (clearsLost s n = false → (t.enc n).pos = (s.enc n).pos ∧ RegsKept .mot [] s t ∧ Kept [.mot] s t) := by
  have hroll : s.encRoll n = (if clearsLost s n then s.encFound n else s).onEnc n
      (fun e => e.newWindow (s.now / 1000000)) := if_pos h
  refine ⟨(s.encRoll n).emuAll s, rfl, ?_⟩
  rw [State.enc_emuAll, hroll, State.onEnc_enc_same]
  refine ⟨rfl, rfl, rfl, rfl, fun hc => ?_⟩
  rw [hc, if_neg Bool.false_ne_true]
  exact ⟨rfl, (RegsKept.onEnc s .mot _ n _).trans (.emuAll _ _),
    (Kept.onEnc s n _ (by simp)).trans (.emuAll _ _ (by simp))⟩

end Sys2Proof.Machine

end

/-! ## Encoder ports: index, snapshots and loads -/

section

namespace Sys2Proof.Machine

/-! ### Index (R41) -/

/-- An index that neither loads nor is one too many latches the position, and says so. -/
theorem State.encIndex_of_latch {s : State} {n : Nat} (hz : s.fld .mot (ENC_CTRL n) 27 26 = 1)
    (ha : (s.enc n).idxNoAB = false) : s.encIndex n =
      (((s.wr64 .mot (ENC_ZLATCH_LO n) (ENC_ZLATCH_HI n) (s.enc n).pos.toNat).setb .mot (ENC_STATUS n) 6 true).encEvent n 2
        (lo32 (s.enc n).pos.toNat)).onEnc n (fun e => { e with idxNoAB := true, zArm := e.zArm && decide (1 ≠ 2) }) := by
  rw [← State.wr48_eq_wr64 _ _ _ _ (s.enc n).pos.isLt]
  unfold State.encIndex
  simp only [hz, ha, OfNat.one_ne_ofNat, false_and, or_self, if_false, Bool.false_eq_true]

section
variable {n : Fin 8} {s : State} (hwin : s.now / 1000000 ≤ (s.enc n).winId)
include hwin

theorem encIndex_latches (hz : zAccepts s n (!s.flag .mot (ENC_CTRL n) 24) = true) (hmode : s.fld .mot (ENC_CTRL n) 27 26 = 1)
    (hgate : s.flag .mot (ENC_CTRL n) 25 = false) (hstuck : s.flag .mot (ENC_STATUS n) 5 = false)
    (hfirst : (s.enc n).idxNoAB = false) : ∃ t, exec (.encIndex n) s = .next t ∧
      t.rd64 .mot (ENC_ZLATCH_LO n) (ENC_ZLATCH_HI n) = (s.enc n).pos.toNat ∧ t.flag .mot (ENC_STATUS n) 6 = true ∧
      (t.enc n).pos = (s.enc n).pos ∧ (t.enc n).z = (!s.flag .mot (ENC_CTRL n) 24) ∧
      RegsKept .mot [ENC_ZLATCH_LO n, ENC_ZLATCH_HI n, ENC_STATUS n] s t ∧ Kept [.mot, .evt] s t := by
  let level := !s.flag .mot (ENC_CTRL n) 24
  let u := s.onEnc n (fun e => e.zEdge level)
  have hue : u.enc n = (s.enc n).zEdge level := State.onEnc_enc_same _ _ _
  have hexec : exec (.encIndex n) s = .next ((u.encIndex n).emuAll s) := by
    change execEncIndex n s = _
    have hidx : ¬ (bits (s.rd .mot (ENC_CTRL n)) 27 26 = 0 ∨ (bit (s.rd .mot (ENC_CTRL n)) 25 = true ∧
        ¬ ((s.enc n).a = true ∧ (s.enc n).b = true)) ∨ u.flag .mot (ENC_STATUS n) 5 = true) := by
      have hm : bits (s.rd .mot (ENC_CTRL n)) 27 26 = 1 := hmode
      have hg : bit (s.rd .mot (ENC_CTRL n)) 25 = false := hgate
      simp [hm, hg, u, hstuck]
    unfold execEncIndex
    rw [State.encRoll_of_current hwin]
    exact congrArg (fun x => Host.Outcome.next (State.emuAll x s)) ((if_pos hz).trans (if_neg hidx))
  have hlatch := State.encIndex_of_latch (s := u) (n := n) ((s.fld_onEnc _ _ _ _ _ _).trans hmode) (by rw [hue]; exact hfirst)
  rw [hue] at hlatch
  have hmot : Blk.mot ∈ [Blk.mot, Blk.evt] := by simp
  have hlo : ENC_ZLATCH_LO n ≠ ENC_STATUS n := by simp [ENC_ZLATCH_LO, ENC_STATUS]
  have hhi : ENC_ZLATCH_HI n ≠ ENC_STATUS n := by simp [ENC_ZLATCH_HI, ENC_STATUS]
  have hpair : ENC_ZLATCH_LO n ≠ ENC_ZLATCH_HI n := by simp [ENC_ZLATCH_LO, ENC_ZLATCH_HI]
  have hpos := (s.enc n).pos.isLt
  refine ⟨_, hexec, ?_⟩
  rw [hlatch, State.rd64_emuAll, State.flag_emuAll, State.enc_emuAll, State.onEnc_enc_same]
  refine ⟨?_, ?_, ?_, ?_, ?_, ?_⟩
  · rw [State.rd64, State.rd_onEnc, State.rd_onEnc, State.rd_encEvent _ _ _ _ _ _ (by decide),
      State.rd_encEvent _ _ _ _ _ _ (by decide), State.rd_setb_ne _ _ _ _ _ _ hlo, State.rd_setb_ne _ _ _ _ _ _ hhi]
    exact State.rd64_wr64 u .mot hpair (lt_trans hpos (by decide))
  · rw [State.flag_onEnc, State.flag_encEvent _ _ _ _ _ _ _ (by decide), State.flag_setb_same _ _ _ _ _ (by decide)]
  · rw [State.enc_encEvent, State.setb_enc, State.wr64, State.wr_enc, State.wr_enc, hue]
    rfl
  · rw [State.enc_encEvent, State.setb_enc, State.wr64, State.wr_enc, State.wr_enc, hue]
    rfl
  · have hlatched : RegsKept .mot [ENC_ZLATCH_LO n, ENC_ZLATCH_HI n, ENC_STATUS n] u
        (u.wr64 .mot (ENC_ZLATCH_LO n) (ENC_ZLATCH_HI n) (s.enc n).pos.toNat) := .wr64 u _ (by simp) (by simp)
    have hevent : ∀ t : State, ∀ w, RegsKept .mot [ENC_ZLATCH_LO n, ENC_ZLATCH_HI n, ENC_STATUS n] t (t.encEvent n 2 w) :=
      fun t w a _ => t.rd_encEvent _ _ _ _ _ (by decide)
    exact ((((RegsKept.onEnc s .mot _ n _).trans hlatched).trans (.setb _ _ 6 true (by simp))).trans (hevent _ _)).trans
      ((RegsKept.onEnc _ _ _ n _).trans (.emuAll _ _))
  · exact ((((Kept.onEnc s n _ hmot).trans ((RegsOnly.wr64 .mot u _ _ _).kept hmot)).trans (.setb _ .mot _ 6 true hmot)).trans
      (.encEvent _ _ _ _ (by simp))).trans ((Kept.onEnc _ n _ hmot).trans (.emuAll _ _ hmot))

theorem indexInactive_clears (hz : zAccepts s n (s.flag .mot (ENC_CTRL n) 24) = true) : ∃ t,
    exec (.indexInactive n) s = .next t ∧ (t.enc n).z = s.flag .mot (ENC_CTRL n) 24 ∧
      (t.enc n).pos = (s.enc n).pos ∧ t.flag .mot (ENC_STATUS n) 5 = false ∧ RegsKept .mot [ENC_STATUS n] s t ∧
      Kept [.mot] s t := by
  let u := (s.onEnc n (fun e => e.zEdge (s.flag .mot (ENC_CTRL n) 24))).setb .mot (ENC_STATUS n) 5 false
  have hmot : Blk.mot ∈ [Blk.mot] := by simp
  have hexec : exec (.indexInactive n) s = .next (u.emuAll s) := by
    change execIndexInactive n s = _
    unfold execIndexInactive
    rw [State.encRoll_of_current hwin]
    exact congrArg (fun x => Host.Outcome.next (State.emuAll x s)) (if_pos hz)
  have hue : u.enc n = (s.enc n).zEdge (s.flag .mot (ENC_CTRL n) 24) := by
    rw [State.setb_enc, State.onEnc_enc_same]
  refine ⟨_, hexec, ?_⟩
  rw [State.enc_emuAll, hue, State.flag_emuAll, State.flag_setb_same _ _ _ _ _ (by decide)]
  exact ⟨rfl, rfl, rfl, ((RegsKept.onEnc s .mot _ n _).trans (.setb _ _ 5 false (by simp))).trans (.emuAll _ _),
    ((Kept.onEnc s n _ hmot).trans (.setb _ .mot _ 5 false hmot)).trans (.emuAll _ _ hmot)⟩

end

/-! ### Snapshots (R45) -/

theorem RegsOnly.encSnap (s : State) (n : Nat) : RegsOnly .mot s (s.encSnap n) := by
  unfold State.encSnap
  exact (((RegsOnly.wr .mot s _ _).trans (.wr .mot _ _ _)).trans (.wr64 .mot _ _ _ _)).trans
    ((RegsOnly.wr .mot _ _ _).trans (.wr .mot _ _ _))

/-- The six registers a snapshot writes. -/
def snapRegs (n : Nat) : List Nat :=
  [ENC_SNAP_POS_LO n, ENC_SNAP_POS_HI n, ENC_SNAP_TB_LO n, ENC_SNAP_TB_HI n, ENC_SNAP_SPEED n, ENC_SNAP_STATE n]

theorem RegsKept.encSnap (s : State) (n : Nat) : RegsKept .mot (snapRegs n) s (s.encSnap n) := by
  unfold State.encSnap snapRegs
  rw [State.wr48_eq_wr64 _ _ _ _ (s.enc n).pos.isLt]
  exact (((RegsKept.wr64 s _ (by simp) (by simp)).trans (.wr64 _ _ (by simp) (by simp))).trans (.wr _ _ _ (by simp))).trans
    (.wr _ _ _ (by simp))

/-- The port whose page an address of the encoder ports lies in. -/
def encPage (a : Nat) : Nat := (a - 0x900000) / 0x400

theorem encPage_snapRegs {a n : Nat} (h : a ∈ snapRegs n) : encPage a = n := by
  simp only [snapRegs, ENC_SNAP_POS_LO, ENC_SNAP_POS_HI, ENC_SNAP_TB_LO, ENC_SNAP_TB_HI, ENC_SNAP_SPEED, ENC_SNAP_STATE,
    List.mem_cons, List.not_mem_nil, or_false] at h
  unfold encPage
  omega

theorem encPage_status (n : Nat) : encPage (ENC_STATUS n) = n := by
  simp only [encPage, ENC_STATUS]
  omega

theorem encPage_speed (n : Nat) : encPage (ENC_SPEED n) = n := by
  simp only [encPage, ENC_SPEED]
  omega

/-- What the snapshot of another port leaves: the hidden state, the time, and every register of this port's page. -/
def SnapKeeps (n : Nat) (s t : State) : Prop :=
  t.mot.enc = s.mot.enc ∧ t.time = s.time ∧ ∀ a, encPage a = n → t.rd .mot a = s.rd .mot a

theorem snapKeeps_encSnap (s : State) {n m : Nat} (h : m ≠ n) : SnapKeeps n s (s.encSnap m) := by
  obtain ⟨r, hr⟩ := RegsOnly.encSnap s m
  exact ⟨hr ▸ s.setRegs_mot_enc .mot r, hr ▸ rfl,
    fun a ha => RegsKept.encSnap s m a fun hm => h ((encPage_snapRegs hm).symm.trans ha)⟩

theorem SnapKeeps.trans {n : Nat} {s t u : State} (h : SnapKeeps n s t) (k : SnapKeeps n t u) : SnapKeeps n s u :=
  ⟨k.1.trans h.1, k.2.1.trans h.2.1, fun a ha => (k.2.2 a ha).trans (h.2.2 a ha)⟩

/-- What the six registers hold after a snapshot of the port. -/
theorem State.encSnap_holds (s : State) (n : Nat) :
    (s.encSnap n).rd64 .mot (ENC_SNAP_POS_LO n) (ENC_SNAP_POS_HI n) = (s.enc n).pos.toNat ∧
      (s.encSnap n).rd .mot (ENC_SNAP_TB_LO n) = lo32 s.now ∧ (s.encSnap n).rd .mot (ENC_SNAP_TB_HI n) = hi32 s.now ∧
      (s.encSnap n).rd .mot (ENC_SNAP_SPEED n) = s.rd .mot (ENC_SPEED n) ∧
      (s.encSnap n).rd .mot (ENC_SNAP_STATE n) = BitVec.ofNat 32 (s.fld .mot (ENC_STATUS n) 3 0) := by
  have hpos := (s.enc n).pos.isLt
  unfold State.encSnap
  rw [State.wr48_eq_wr64 _ _ _ _ hpos]
  extract_lets s₁ s₂ s₃
  have h₁ : RegsKept .mot [ENC_SNAP_POS_LO n, ENC_SNAP_POS_HI n] s s₁ := .wr64 s _ (by simp) (by simp)
  have h₂ : RegsKept .mot [ENC_SNAP_TB_LO n, ENC_SNAP_TB_HI n] s₁ s₂ := .wr64 s₁ _ (by simp) (by simp)
  have h₃ : RegsKept .mot [ENC_SNAP_SPEED n] s₂ s₃ := .wr s₂ _ _ (by simp)
  have hlast : ∀ v, RegsKept .mot [ENC_SNAP_STATE n] s₃ (s₃.wr .mot (ENC_SNAP_STATE n) v) := fun v => .wr s₃ _ v (by simp)
  have hnow : s₁.now = s.now := rfl
  refine ⟨?_, ?_, ?_, ?_, ?_⟩
  · rw [State.rd64, hlast _ _ (by simp), hlast _ _ (by simp), h₃ _ (by simp), h₃ _ (by simp), h₂ _ (by simp),
      h₂ _ (by simp)]
    exact State.rd64_wr64 s .mot (by simp) (lt_trans hpos (by decide))
  · rw [hlast _ _ (by simp), h₃ _ (by simp)]
    exact State.rd_wr64_lo s₁ .mot (by simp)
  · rw [hlast _ _ (by simp), h₃ _ (by simp)]
    exact State.rd_wr64_hi s₁ .mot
  · rw [hlast _ _ (by simp), State.rd_wr_same, h₂ _ (by simp), h₁ _ (by simp)]
  · rw [State.rd_wr_same, State.fld, h₃ _ (by simp), h₂ _ (by simp), h₁ _ (by simp), State.fld]

theorem encSnap_captures (v : Word) (s : State) : ∃ t, exec (.encSnap v) s = .next t ∧ t.mot.enc = s.mot.enc ∧
    Kept [.mot] s t ∧ ∀ n : Fin 8, bit v n = true →
      t.rd64 .mot (ENC_SNAP_POS_LO n) (ENC_SNAP_POS_HI n) = (s.enc n).pos.toNat ∧
      t.rd .mot (ENC_SNAP_TB_LO n) = lo32 s.now ∧ t.rd .mot (ENC_SNAP_TB_HI n) = hi32 s.now ∧
      t.rd .mot (ENC_SNAP_SPEED n) = s.rd .mot (ENC_SPEED n) ∧
      t.rd .mot (ENC_SNAP_STATE n) = BitVec.ofNat 32 (s.fld .mot (ENC_STATUS n) 3 0) := by
  have hall : RegsOnly .mot s (s.each (idxs 8 (fun n => bit v n)) State.encSnap) :=
    State.each_rel (.refl .mot) (fun _ _ _ => .trans) fun t n _ => .encSnap t n
  refine ⟨_, rfl, ?_, hall.kept (by simp), fun n hn => ?_⟩
  · obtain ⟨r, hr⟩ := hall
    exact hr ▸ s.setRegs_mot_enc .mot r
  · obtain ⟨u, ⟨henc, htime, hregs⟩, hmot, -, hkeep⟩ := State.each_at (R := SnapKeeps n) (fun s => ⟨rfl, rfl, fun _ _ => rfl⟩)
      (fun _ _ _ => .trans) (idxs_nodup 8 _) (mem_idxs.mpr ⟨n.isLt, hn⟩) (fun t m _ hm => snapKeeps_encSnap t hm) s
    obtain ⟨hpos, hlo, hhi, hspeed, hstate⟩ := u.encSnap_holds n
    have hnow : u.now = s.now := congrArg TimeSt.tb htime
    have hsnap := fun a (ha : a ∈ snapRegs n) => hkeep a (encPage_snapRegs ha)
    simp only [snapRegs] at hsnap
    refine ⟨?_, ?_, ?_, ?_, ?_⟩
    · rw [State.rd64, hsnap _ (by simp), hsnap _ (by simp)]
      exact hpos.trans (by rw [State.enc_of_mot henc])
    · rw [hsnap _ (by simp), hlo, hnow]
    · rw [hsnap _ (by simp), hhi, hnow]
    · rw [hsnap _ (by simp), hspeed, hregs _ (encPage_speed n)]
    · rw [hsnap _ (by simp), hstate, State.fld, hregs _ (encPage_status n), State.fld]

/-! ### A load of the position (R46) -/

theorem State.rd_skipGen (s : State) (g : Nat) {a : Nat} (h : a ≠ TRG_CNT_SKIP g) :
    (s.skipGen g).rd .mot a = s.rd .mot a := by
  unfold State.skipGen
  dsimp only
  split
  · rfl
  · rw [State.rd_countBy_ne _ _ _ _ _ h]
    rfl

/-- Of the registers, the skip rule counts in the generators' alone (R60). -/
theorem State.rd_skipSource (s : State) (m : Nat) {a : Nat} (h : a < 0x910000) :
    (s.skipSource m).rd .mot a = s.rd .mot a :=
  State.each_rel (R := fun s t => t.rd .mot a = s.rd .mot a) (fun _ => rfl) (fun _ _ _ h h' => h'.trans h)
    fun t g _ => t.rd_skipGen g (by simp only [TRG_CNT_SKIP]; omega)

theorem State.rd_portJump (s : State) (n : Nat) {a : Nat} (h : a < 0x910000) : (s.portJump n).rd .mot a = s.rd .mot a :=
  State.each_rel (R := fun s t => t.rd .mot a = s.rd .mot a) (fun _ => rfl) (fun _ _ _ h h' => h'.trans h)
    fun t m _ => t.rd_skipSource m h

@[simp] theorem State.enc_encLoad (s : State) (n : Nat) (p : Pos) :
    (s.encLoad n p).enc n = { s.enc n with pos := p } := by
  rw [State.encLoad, State.enc_portJump, State.onEnc_enc_same]

theorem State.rd_encLoad (s : State) (n : Nat) (p : Pos) {a : Nat} (h : a < 0x910000) :
    (s.encLoad n p).rd .mot a = s.rd .mot a := by
  rw [State.encLoad, State.rd_portJump _ _ h, State.rd_onEnc]

theorem regAt_encSetHi : ∀ n : Fin 8,
    regAt (ENC_SET_HI n) = some (unitEnc, ⟨0x1C, 0, 1, .plain, 0, [fRow 15 0 .rw]⟩) := by decide

theorem encSet_loads (n : Fin 8) (v : Word) (s : State) : ∃ t, exec (.encSet n v) s = .next t ∧
    (t.enc n).pos = BitVec.ofNat 48 ((s.rd .mot (ENC_SET_LO n)).toNat + bits v 15 0 * 2 ^ 32) ∧
    t.rd .mot (ENC_SET_HI n) = BitVec.ofNat 32 (bits v 15 0) ∧ t.time = s.time ∧ t.pending = s.pending := by
  have hstore : s.store .mot (ENC_SET_HI n) v = s.wr .mot (ENC_SET_HI n) (BitVec.ofNat 32 (bits v 15 0)) := by
    rw [State.store_of_free (regAt_encSetHi n) rfl (by decide), write_low_rw rfl rfl]
  have hne : ENC_SET_LO n ≠ ENC_SET_HI n := by simp
  have hlow : ENC_SET_HI n < 0x910000 := by
    have := n.isLt
    simp only [ENC_SET_HI]
    omega
  have hsmall : bits v 15 0 < 2 ^ 32 := lt_trans (Nat.mod_lt _ (by decide) : bits v 15 0 < 2 ^ 16) (by decide)
  have hclock : ((s.encSetWrite n v).emuAll s).clock = s.clock := by simp
  refine ⟨(s.encSetWrite n v).emuAll s, rfl, ?_, ?_, State.time_eq_of_clock hclock, State.pending_eq_of_clock hclock⟩
  · rw [State.enc_emuAll, State.encSetWrite, State.enc_encLoad, hstore, State.rd64, State.rd_wr_ne _ _ _ _ _ hne,
      State.rd_wr_same, join32_eq, BitVec.toNat_ofNat, Nat.mod_eq_of_lt hsmall]
  · rw [State.rd_emuAll, State.encSetWrite, State.rd_encLoad _ _ _ hlow, hstore, State.rd_wr_same]

end Sys2Proof.Machine

section
open Sys2Proof Sys2Proof.Machine

/-- Settles O13: each form of a port's step is what its named parts do to the position, the reference and the registers. -/
theorem encodersCountAndLatch : Obligations.EncodersCountAndLatch := by
  unfold Obligations.EncodersCountAndLatch
  exact ⟨fun n v s hv hm hwin => encModeWrite_toQuad hwin hv hm,
    fun n v s hv hwin => encModeWrite_reserved hwin hv,
    fun n u a b c d s hm hwin hu ha hb hc hd => encTransition_counts hm hwin hu ha hb hc hd,
    fun n pin s hup h₂ h₃ hq hwin => encRawEdge_counts hup h₂ h₃ hq hwin,
    fun n s h => encWindowEnd_starts h,
    fun n s hwin hz hmode hgate hstuck hfirst => encIndex_latches hwin hz hmode hgate hstuck hfirst,
    fun n s hwin hz => indexInactive_clears hwin hz,
    encSnap_captures, encSet_loads⟩

end

end

/-! ## Speed, standstill, SSI words and motion sources -/

section

namespace Sys2Proof.Machine

/-! ### Speed and state of a port (R47 to R49) -/

section
variable (s : State) (n : Nat)

theorem State.encSpeed_of_not_valid (h : s.fld .mot (ENC_STATUS n) 1 0 ≠ 2) : s.encSpeed n = s.wr .mot (ENC_SPEED n) 0#32 :=
  if_neg h

theorem RegsOnly.encSpeed : RegsOnly .mot s (s.encSpeed n) := by
  unfold State.encSpeed
  extract_lets m v s₁
  split
  · split
    · exact (RegsOnly.wr .mot s _ _).trans (.setb .mot _ _ _ _)
    · exact .wr .mot s _ _
  · exact .wr .mot s _ _

theorem RegsKept.encSpeed : RegsKept .mot [ENC_SPEED n, ENC_STATUS n] s (s.encSpeed n) := by
  unfold State.encSpeed
  extract_lets m v s₁
  have h₁ : RegsKept .mot [ENC_SPEED n, ENC_STATUS n] s s₁ := .wr s _ _ (by simp)
  exact .ite (.ite (h₁.trans (.setb _ _ 12 true (by simp))) h₁) (.wr s _ _ (by simp))

/-- In VALID the speed is the run's, clipped, and a clip sets SPEED_SAT. -/
theorem State.encSpeed_of_valid (h : s.fld .mot (ENC_STATUS n) 1 0 = 2) {m : Nat}
    (hm : m = speedMag (s.enc n).run (avgIntervals (s.rd .mot (ENC_CTRL n))) s.now) :
    (s.encSpeed n).rd .mot (ENC_SPEED n) = BitVec.ofInt 32 (if encDir s n then -((capNat 0x7FFFFFFF m : Nat) : Int)
        else ((capNat 0x7FFFFFFF m : Nat) : Int)) ∧
      (s.encSpeed n).flag .mot (ENC_STATUS n) 12 = (s.flag .mot (ENC_STATUS n) 12 || decide (0x7FFFFFFF < m)) := by
  have hne : ENC_STATUS n ≠ ENC_SPEED n := by simp
  unfold State.encSpeed
  rw [if_pos h]
  extract_lets m' v s₁
  have hm' : m' = m := hm.symm
  have hspeed : s₁.rd .mot (ENC_SPEED n) = BitVec.ofInt 32 v := State.rd_wr_same _ _ _ _
  split
  case isTrue hcap =>
    rw [State.rd_setb_ne _ _ _ _ _ _ hne.symm, hspeed, State.flag_setb_same _ _ _ _ _ (by decide), ← hm',
      decide_eq_true hcap, Bool.or_true]
    exact ⟨rfl, rfl⟩
  case isFalse hcap =>
    rw [hspeed, State.flag, State.rd_wr_ne _ _ _ _ _ hne, ← hm', decide_eq_false hcap, Bool.or_false]
    exact ⟨rfl, rfl⟩

theorem State.fld_putEncState (st : Nat) (dec : Bool) :
    (s.putEncState n st dec).fld .mot (ENC_STATUS n) 1 0 = st % 4 := by
  unfold State.putEncState
  extract_lets old s₁
  have h₁ : s₁.fld .mot (ENC_STATUS n) 1 0 = st % 4 := by
    rw [State.fld_setb_bit _ _ _ _ _ _ _ (by decide), State.fld_put_same _ _ _ _ _ _ (by decide) (by decide)]
    rfl
  split
  · exact h₁
  · rw [State.fld_encEvent _ _ _ _ _ _ _ _ (by decide), h₁]

theorem encDir_putEncState (st : Nat) (dec : Bool) : encDir (s.putEncState n st dec) n = dec := by
  unfold State.putEncState
  extract_lets old s₁
  have h₁ : encDir s₁ n = dec := State.flag_setb_same _ _ _ _ _ (by decide)
  split
  · exact h₁
  · exact (State.flag_encEvent _ _ _ _ _ _ _ (by decide)).trans h₁

theorem RegsKept.putEncState (st : Nat) (dec : Bool) : RegsKept .mot [ENC_STATUS n] s (s.putEncState n st dec) := by
  unfold State.putEncState
  extract_lets old s₁
  have h₁ : RegsKept .mot [ENC_STATUS n] s s₁ := (RegsKept.put s _ 1 0 st (by simp)).trans (.setb _ _ 2 dec (by simp))
  exact .ite h₁ (h₁.trans fun a _ => State.rd_encEvent _ _ _ _ _ _ (by decide))

theorem Kept.putEncState (st : Nat) (dec : Bool) : Kept [.mot, .evt] s (s.putEncState n st dec) := by
  unfold State.putEncState
  extract_lets old s₁
  have h₁ : Kept [.mot, .evt] s s₁ := (Kept.put s .mot _ 1 0 st (by simp)).trans (.setb _ .mot _ 2 dec (by simp))
  exact .ite h₁ (h₁.trans (.encEvent _ _ _ _ (by simp)))

end

/-- A magnitude of at most 0x7FFF_FFFF, signed, is what its register reads back. -/
theorem toInt_ofInt_clipped (m : Nat) (dec : Bool) :
    (BitVec.ofInt 32 (if dec then -((capNat 0x7FFFFFFF m : Nat) : Int) else ((capNat 0x7FFFFFFF m : Nat) : Int))).toInt =
      if dec then -((capNat 0x7FFFFFFF m : Nat) : Int) else ((capNat 0x7FFFFFFF m : Nat) : Int) := by
  have hcap : capNat 0x7FFFFFFF m ≤ 0x7FFFFFFF := by
    unfold capNat
    split <;> omega
  rw [BitVec.toInt_ofInt]
  apply Int.bmod_eq_of_le <;> split <;> omega

theorem speedUpdate_stores {n : Fin 8} {s : State} (h : s.now % 1000 = 0) :
    ∃ t, exec (.speedUpdate n) s = .next t ∧
      (s.fld .mot (ENC_STATUS n) 1 0 ≠ 2 → t.rd .mot (ENC_SPEED n) = 0#32) ∧
      (s.fld .mot (ENC_STATUS n) 1 0 = 2 →
        let m := speedMag (s.enc n).run (avgIntervals (s.rd .mot (ENC_CTRL n))) s.now
        (t.rd .mot (ENC_SPEED n)).toInt = (if encDir s n then -((capNat 0x7FFFFFFF m : Nat) : Int)
          else ((capNat 0x7FFFFFFF m : Nat) : Int)) ∧
        t.flag .mot (ENC_STATUS n) 12 = (s.flag .mot (ENC_STATUS n) 12 || decide (0x7FFFFFFF < m))) ∧
      RegsKept .mot [ENC_SPEED n, ENC_STATUS n] s t ∧ t.mot = { s.mot with regs := t.mot.regs, ms := t.mot.ms } ∧
      Kept [.mot] s t := by
  refine ⟨(s.encSpeed n).emuAll s, congrArg Host.Outcome.next (if_pos h), fun hv => ?_, fun hv => ?_,
    (RegsKept.encSpeed s n).trans (.emuAll _ _), ?_, ((RegsOnly.encSpeed s n).kept (by simp)).trans (.emuAll _ _ (by simp))⟩
  · rw [State.rd_emuAll, State.encSpeed_of_not_valid s n hv, State.rd_wr_same]
  · obtain ⟨hspeed, hsat⟩ := State.encSpeed_of_valid s n hv rfl
    rw [State.rd_emuAll, State.flag_emuAll, hspeed, hsat]
    exact ⟨toInt_ofInt_clipped _ _, rfl⟩
  · obtain ⟨r, hr⟩ := RegsOnly.encSpeed s n
    obtain ⟨ms, hms⟩ := (s.encSpeed n).emuAll_onlyMs s
    rw [hms, hr]
    rfl

theorem standstillTimeout_stops {n : Fin 8} {s : State} (hdue : standstillDue s n = true)
    (hlost : s.flag .mot (ENC_STATUS n) 3 = false) : ∃ t,
    exec (.standstillTimeout n) s = .next t ∧ t.fld .mot (ENC_STATUS n) 1 0 = 0 ∧
      t.rd .mot (ENC_SPEED n) = 0#32 ∧ (t.enc n).pos = (s.enc n).pos ∧ encDir t n = encDir s n ∧
      RegsKept .mot [ENC_SPEED n, ENC_STATUS n] s t ∧ Kept [.mot, .evt] s t := by
  let u := (s.onEnc n (fun e => { e with run := [] })).putEncState n 0 (encDir s n)
  have hst : u.fld .mot (ENC_STATUS n) 1 0 = 0 := State.fld_putEncState _ _ 0 _
  have hstop : u.encSpeed n = u.wr .mot (ENC_SPEED n) 0#32 := State.encSpeed_of_not_valid _ _ (by rw [hst]; decide)
  have hne : ENC_STATUS n ≠ ENC_SPEED n := by simp
  have hmot : Blk.mot ∈ [Blk.mot, Blk.evt] := by simp
  have hexec : exec (.standstillTimeout n) s = .next ((u.encSpeed n).emuAll s) :=
    congrArg Host.Outcome.next (if_pos ⟨hdue, by simp [hlost]⟩)
  refine ⟨_, hexec, ?_, ?_, ?_, ?_, ?_, ?_⟩
  · rw [State.fld_emuAll, hstop, State.fld, State.rd_wr_ne _ _ _ _ _ hne]
    exact hst
  · rw [State.rd_emuAll, hstop, State.rd_wr_same]
  · rw [State.enc_emuAll, State.enc_encSpeed, State.enc_putEncState, State.onEnc_enc_same]
  · rw [encDir, State.flag_emuAll, hstop, State.flag, State.rd_wr_ne _ _ _ _ _ hne]
    exact encDir_putEncState _ _ _ _
  · exact (((RegsKept.onEnc s .mot _ n _).trans ((RegsKept.putEncState _ n 0 _).mono (by simp))).trans
      (.encSpeed u n)).trans (.emuAll _ _)
  · exact (((Kept.onEnc s n _ hmot).trans (.putEncState _ n 0 _)).trans ((RegsOnly.encSpeed u n).kept hmot)).trans
      (.emuAll _ _ hmot)

/-! ### SSI words (R50 to R53) -/

theorem ssiWordStart_latches {n : Fin 8} {high : Bool} {s : State} (hm : encMode s n = 2) (hw : (s.enc n).ssiWord = none)
    (hp : s.rd .mot (ENC_SSI_PERIOD n) ≠ 0#32) (hd : s.now % (s.rd .mot (ENC_SSI_PERIOD n)).toNat = 0) : ∃ t,
    exec (.ssiWordStart n high) s = .next t ∧
      t.enc n = { s.enc n with ssiWord := some (s.now, high) } ∧ RegsKept .mot [] s t ∧ Kept [.mot] s t := by
  have hp' : (s.rd .mot (ENC_SSI_PERIOD n)).toNat ≠ 0 := fun h => hp (BitVec.eq_of_toNat_eq h)
  exact ⟨s.onEnc n (fun e => { e with ssiWord := some (s.now, high) }),
    congrArg Host.Outcome.next (if_pos ⟨hm, hw, hp', hd⟩), State.onEnc_enc_same _ _ _, .onEnc s .mot _ n _,
    .onEnc s n _ (by simp)⟩

/-- A bad word before the third in succession counts, and does nothing else of the port (R52). -/
theorem State.ssiBadWord_of_few {s : State} {n : Nat} (h : (s.enc n).ssiBad < 2) : s.ssiBadWord n =
    ((s.count .mot (ENC_CNT_SSI_BAD n)).setb .mot (ENC_STATUS n) 11 true).onEnc n
      (fun e => { e with ssiBad := e.ssiBad + 1, ssiWord := none }) := by
  unfold State.ssiBadWord
  dsimp only
  rw [if_neg]
  rw [State.onEnc_enc_same, State.setb_enc, State.count_enc]
  exact Nat.not_le.mpr (Nat.succ_lt_succ h)

section
variable {n : Fin 8} {word : List Bool} {delay : Nat} {back high : Bool} {t0 : Nat} {s : State} (hm : encMode s n = 2)
  (hword : (s.enc n).ssiWord = some (t0, high)) (hwin : s.now / 1000000 ≤ (s.enc n).winId)
include hm hword hwin

theorem execSsiWordEnd_of_bad (hbad : ssiWordOk s n high word delay back = false) :
    exec (.ssiWordEnd n word delay back) s = .next ((s.ssiBadWord n).emuAll s) := by
  change execSsiWordEnd n word delay back s = _
  unfold execSsiWordEnd
  rw [State.encRoll_of_current hwin]
  dsimp only
  rw [hword]
  dsimp only
  rw [if_neg (by simp [hm]), hbad, Bool.false_and, if_neg Bool.false_ne_true]

theorem execSsiWordEnd_of_first (hok : ssiWordOk s n high word delay back = true) (hlast : (s.enc n).ssiLast = none) :
    exec (.ssiWordEnd n word delay back) s =
      .next ((s.ssiGoodWord n (ssiValue (s.rd .mot (ENC_SSI_CTRL n)) word) t0 delay).emuAll s) := by
  change execSsiWordEnd n word delay back s = _
  unfold execSsiWordEnd
  rw [State.encRoll_of_current hwin]
  dsimp only
  rw [hword]
  dsimp only
  rw [if_neg (by simp [hm]), hok, hlast]
  rfl

theorem ssiWordEnd_bad (hbad : ssiWordOk s n high word delay back = false) (hfew : (s.enc n).ssiBad < 2) : ∃ t,
    exec (.ssiWordEnd n word delay back) s = .next t ∧ (t.enc n).pos = (s.enc n).pos ∧
      t.flag .mot (ENC_STATUS n) 11 = true ∧ t.rd .mot (ENC_CNT_SSI_BAD n) = satAdd (s.rd .mot (ENC_CNT_SSI_BAD n)) 1 ∧
      (t.enc n).ssiBad = (s.enc n).ssiBad + 1 ∧ (t.enc n).ssiWord = none ∧
      RegsKept .mot [ENC_STATUS n, ENC_CNT_SSI_BAD n] s t ∧ Kept [.mot] s t := by
  have hmot : Blk.mot ∈ [Blk.mot] := by simp
  have hne : ENC_CNT_SSI_BAD n ≠ ENC_STATUS n := by simp
  refine ⟨_, execSsiWordEnd_of_bad hm hword hwin hbad, ?_⟩
  rw [State.ssiBadWord_of_few hfew, State.enc_emuAll, State.flag_emuAll, State.rd_emuAll, State.onEnc_enc_same,
    State.flag_onEnc, State.rd_onEnc, State.setb_enc, State.count_enc]
  refine ⟨rfl, State.flag_setb_same _ _ _ _ _ (by decide), ?_, rfl, rfl, ?_, ?_⟩
  · rw [State.rd_setb_ne _ _ _ _ _ _ hne, State.rd_count]
  · exact (((RegsKept.count s _ (by simp)).trans (.setb _ _ 11 true (by simp))).trans (.onEnc _ _ _ n _)).trans
      (.emuAll _ _)
  · exact (((Kept.count s .mot _ hmot).trans (.setb _ .mot _ 11 true hmot)).trans (.onEnc _ n _ hmot)).trans
      (.emuAll _ _ hmot)

theorem ssiWordEnd_first (hok : ssiWordOk s n high word delay back = true) (hlast : (s.enc n).ssiLast = none) : ∃ t,
    exec (.ssiWordEnd n word delay back) s = .next t ∧
      (t.enc n).pos = BitVec.ofNat 48 (ssiValue (s.rd .mot (ENC_SSI_CTRL n)) word) ∧
      (t.enc n).ssiLast = some (ssiValue (s.rd .mot (ENC_SSI_CTRL n)) word) ∧ (t.enc n).ssiBad = 0 ∧
      (t.enc n).ssiStamp = t0 ∧ t.time = s.time ∧ t.pending = s.pending := by
  let v := ssiValue (s.rd .mot (ENC_SSI_CTRL n)) word
  have hclock : ((s.ssiGoodWord n v t0 delay).emuAll s).clock = s.clock := by simp
  have henc : (s.ssiGoodWord n v t0 delay).enc n = { s.enc n with
      pos := BitVec.ofNat 48 v, ssiLast := some v, ssiBad := 0, ssiStamp := t0, ssiWord := none } := by
    unfold State.ssiGoodWord
    extract_lets e c s₁ s₂
    have h₁ : s₁.enc n = s.enc n := by
      unfold s₁
      split
      · exact State.wr_enc _ _ _ _ _
      · rfl
    have he : e.ssiLast = none := hlast
    rw [he]
    dsimp only
    rw [State.enc_encLoad, State.onEnc_enc_same, h₁]
  refine ⟨_, execSsiWordEnd_of_first hm hword hwin hok hlast, ?_⟩
  rw [State.enc_emuAll, henc]
  exact ⟨rfl, rfl, rfl, rfl, State.time_eq_of_clock hclock, State.pending_eq_of_clock hclock⟩

end

/-! ### Motion sources (R55 to R57, R425) -/

theorem msOffsetTrack_records {m : Fin 8} {s : State} (h : s.now % 1000 = 0) (hp : (primView s m).valid = true)
    (hs : (secView s m).valid = true) : ∃ t, exec (.msOffsetTrack m) s = .next t ∧
      (let d := fixPos ((primView s m).posAt (s.now * 1000) - (secView s m).posAt (s.now * 1000))
       t.ms m = { s.ms m with offset := some d }) ∧ RegsKept .mot [] s t ∧ Kept [.mot] s t := by
  have htrack : s.msTrack m = s.setMs m { s.ms m with
      offset := some (fixPos ((primView s m).posAt (s.now * 1000) - (secView s m).posAt (s.now * 1000))) } :=
    if_pos (by rw [hp, hs]; rfl)
  refine ⟨s.msTrack m, congrArg Host.Outcome.next (if_pos h), ?_⟩
  rw [htrack]
  exact ⟨State.setMs_ms_same _ _ _, fun a _ => State.rd_setMs _ _ _ _ _, .setMs s m _ (by simp)⟩

/-- A port's view reads its page, its hidden state and the time. -/
theorem encView_congr {s t : State} {n : Nat} (hn : n < 8) (hr : ∀ a < 0x902000, t.rd .mot a = s.rd .mot a)
    (he : t.enc n = s.enc n) (hnow : t.now = s.now) : encView t n = encView s n := by
  have h₁ : t.rd .mot (ENC_STATUS n) = s.rd .mot (ENC_STATUS n) := hr _ (by simp only [ENC_STATUS]; omega)
  have h₂ : t.rd .mot (ENC_CTRL n) = s.rd .mot (ENC_CTRL n) := hr _ (by simp only [ENC_CTRL]; omega)
  have h₃ : t.rd .mot (ENC_SPEED n) = s.rd .mot (ENC_SPEED n) := hr _ (by simp only [ENC_SPEED]; omega)
  have h₄ : t.rd .mot (ENC_SSI_PERIOD n) = s.rd .mot (ENC_SSI_PERIOD n) := hr _ (by simp only [ENC_SSI_PERIOD]; omega)
  simp only [encView, h₁, h₂, h₃, h₄, he, hnow]

/-- An input's view does not read the motion sources or their registers. -/
theorem inputView_congr {s t : State} (hr : ∀ a < 0x902000, t.rd .mot a = s.rd .mot a) (he : t.mot.enc = s.mot.enc)
    (hsp : t.mot.span = s.mot.span) (hnow : t.now = s.now) (v : Word) : inputView t v = inputView s v := by
  have hport : bits v 2 0 < 8 := Nat.mod_lt _ (by decide)
  unfold inputView spanView
  rw [encView_congr hport hr (State.enc_of_mot he _) hnow, hsp]

theorem regAt_msSec : ∀ m : Fin 8, regAt (ENC_MS_SEC m) = some (unitMs, ⟨0x4, 0x0, 1, .plain, 0x0,
    [fRow 31 31 .rw, fRow 30 30 .rw, fRow 26 15 .rw, fRow 2 0 .rw]⟩) := by decide

/-- The secondary input is named anew: the offset tracked is void. -/
def State.nameSec (s : State) (m : Nat) (v : Word) : State :=
  (s.wr .mot (ENC_MS_SEC m) v).setMs m { s.ms m with offset := none }

theorem RegsKept.nameSec (s : State) (m : Nat) (v : Word) : RegsKept .mot [ENC_MS_SEC m] s (s.nameSec m v) :=
  (RegsKept.wr s _ v (by simp)).trans fun _ _ => State.rd_setMs _ _ _ _ _

theorem Kept.nameSec (s : State) (m : Nat) (v : Word) : Kept [.mot] s (s.nameSec m v) :=
  (Kept.wr s .mot _ v (by simp)).trans (.setMs _ m _ (by simp))

theorem State.ms_nameSec (s : State) (m : Nat) (v : Word) : (s.nameSec m v).ms m = { s.ms m with offset := none } :=
  State.setMs_ms_same _ _ _

theorem primView_nameSec (s : State) (m : Nat) (v : Word) : primView (s.nameSec m v) m = primView s m := by
  have hreg : (s.nameSec m v).rd .mot (ENC_MS_PRIM m) = s.rd .mot (ENC_MS_PRIM m) := RegsKept.nameSec s m v _ (by simp)
  rw [primView, hreg, primView]
  refine inputView_congr (fun a ha => RegsKept.nameSec s m v a ?_) rfl rfl rfl _
  simp only [ENC_MS_SEC, List.mem_cons, List.not_mem_nil, or_false]
  omega

/-- A source that reads its primary input stays where it is. -/
theorem sourcePos_nameSec {s : State} {m : Nat} (huse : (s.ms m).inUse = some false) (v : Word) :
    sourcePos (s.nameSec m v) m = sourcePos s m := by
  have hview : sourceView (s.nameSec m v) m = sourceView s m := by
    simp only [sourceView, State.ms_nameSec, huse, primView_nameSec]
  have hnow : (s.nameSec m v).now = s.now := rfl
  rw [sourcePos, hview, hnow, sourcePos]

theorem State.msEval_of_primary {s : State} {m : Nat} (huse : (s.ms m).inUse = some false)
    (hvalid : (primView s m).valid = true) (before : View) : s.msEval m before = s := by
  unfold State.msEval
  simp only [huse, hvalid, if_true]

/-- A write that names another secondary input while the valid primary is in use (R425). -/
theorem State.msInputWrite_sec {s : State} {m : Fin 8} {v : Word} (huse : (s.ms m).inUse = some false)
    (hvalid : (primView s m).valid = true) (hch : msChanges (s.rd .mot (ENC_MS_SEC m)) v = true) :
    ∃ w, s.msInputWrite m true v = s.nameSec m w := by
  have hstore := State.store_of_free (regAt_msSec m) rfl (by decide) s .mot v
  generalize hw : (RegRow.write _ false (s.rd .mot (ENC_MS_SEC m)) v).1 = w at hstore
  have hother : ¬ (s.ms m).inUse = some true := by simp [huse]
  refine ⟨w, ?_⟩
  unfold State.msInputWrite
  simp only [if_true, hch, Bool.not_true, Bool.false_eq_true, if_false, hother, hstore, State.wr_ms]
  exact State.msEval_of_primary ((congrArg MsSt.inUse (s.ms_nameSec m w)).trans huse)
    ((congrArg View.valid (primView_nameSec s m w)).trans hvalid) _

theorem msInputWrite_drops {m : Fin 8} {v : Word} {s : State} (huse : (s.ms m).inUse = some false)
    (hvalid : (primView s m).valid = true) (hch : msChanges (s.rd .mot (ENC_MS_SEC m)) v = true) :
    ∃ t, exec (.msInputWrite m true v) s = .next t ∧
      t.ms m = { s.ms m with offset := none } ∧ RegsKept .mot [ENC_MS_SEC m] s t ∧ Kept [.mot] s t := by
  obtain ⟨w, hw⟩ := State.msInputWrite_sec huse hvalid hch
  refine ⟨(s.msInputWrite m true v).emuAll s, rfl, ?_⟩
  rw [hw, State.ms_emuAll_of_still (sourcePos_nameSec huse w), State.ms_nameSec]
  exact ⟨rfl, (RegsKept.nameSec s m w).trans (.emuAll _ _), (Kept.nameSec s m w).trans (.emuAll _ _ (by simp))⟩

theorem Kept.cancelEjections {bs : List Blk} (s : State) (m : Nat) (hb : Blk.ejt ∈ bs) :
    Kept bs s (s.cancelEjections m) := by
  unfold State.cancelEjections
  extract_lets k ejt recs s₁
  have h₁ : Kept bs s s₁ := by simp [Kept, s₁, hb]
  exact .ite h₁ (h₁.trans (.countBy s₁ .ejt _ k hb))

/-- The end of holdover changes the source, publishes it and cancels ejections. -/
theorem State.mot_msEnd (s : State) (m : Nat) (pos : Fix) : (s.msEnd m pos).mot =
    (s.setMs m { s.ms m with inUse := none, hold := none, frozen := pos, lost := true }).mot := by
  rw [State.msEnd, State.mot_cancelEjections, State.mot_publish]

theorem Kept.msEnd (s : State) (m : Nat) (pos : Fix) : Kept [.mot, .evt, .ejt] s (s.msEnd m pos) := by
  unfold State.msEnd
  exact ((Kept.setMs s m _ (by simp)).trans (.publish _ _ _ (by simp))).trans (.cancelEjections _ m (by simp))

theorem msHoldEnd_loses {m : Fin 8} {s : State} {h : HoldSt} (hh : (s.ms m).hold = some h) (he : h.ends ≤ s.now) : ∃ t,
    exec (.msHoldEnd m) s = .next t ∧ (t.ms m).lost = true ∧ (t.ms m).hold = none ∧
      (t.ms m).inUse = none ∧ (t.ms m).frozen = (sourceView s m).posAt (h.ends * 1000) ∧ RegsKept .mot [] s t ∧
      Kept [.mot, .evt, .ejt] s t := by
  let p := (sourceView s m).posAt (h.ends * 1000)
  have hexec : exec (.msHoldEnd m) s = .next ((s.msEnd m p).emuAll s) := by
    change execMsHoldEnd m s = _
    unfold execMsHoldEnd
    rw [hh]
    exact congrArg Host.Outcome.next (if_pos he)
  have hms : (s.msEnd m p).ms m = { s.ms m with inUse := none, hold := none, frozen := p, lost := true } := by
    rw [State.ms, State.mot_msEnd]
    exact State.setMs_ms_same _ _ _
  have hregs : RegsKept .mot [] s (s.msEnd m p) := fun a _ => by
    have hmot := congrArg (fun x : MotSt => rget x.regs a) (s.mot_msEnd m p)
    exact hmot.trans (s.rd_setMs .mot a m _)
  obtain ⟨lag, at', hemu⟩ := (s.msEnd m p).ms_emuAll s m
  refine ⟨_, hexec, ?_⟩
  rw [hemu, hms]
  exact ⟨rfl, rfl, rfl, rfl, hregs.trans (.emuAll _ _), (Kept.msEnd s m p).trans (.emuAll _ _ (by simp))⟩

end Sys2Proof.Machine

section
open Sys2Proof Sys2Proof.Machine

/-- Settles O14: the speed law, the standstill, the ends of SSI words and the sources' changes, each on its step's form. -/
theorem speedSsiAndSourcesFollow : Obligations.SpeedSsiAndSourcesFollow := by
  unfold Obligations.SpeedSsiAndSourcesFollow
  exact ⟨fun n s => ⟨fun h => congrArg Host.Outcome.next (if_neg h), speedUpdate_stores⟩,
    fun n s => standstillTimeout_stops,
    fun n high s => ssiWordStart_latches,
    fun n word delay back high t0 s hm hword hwin => ⟨ssiWordEnd_bad hm hword hwin, ssiWordEnd_first hm hword hwin⟩,
    fun m s => msOffsetTrack_records,
    fun m v s => msInputWrite_drops,
    fun m s h => msHoldEnd_loses⟩

end

end

/-! ## Trigger generators: what a trigger changes -/

section

namespace Sys2Proof.Machine

/-! ### The generator (R59, R61, R329) -/

/-- The generator that moves past its trigger keeps the instant of its last one; nothing else changes. -/
theorem State.genAdvance_eq (s : State) (g : Nat) : ∃ x, x.last = (s.gen g).last ∧ s.genAdvance g = s.setGen g x := by
  unfold State.genAdvance
  dsimp only
  split
  case h_1 | h_2 | h_3 => exact ⟨_, by rfl, rfl⟩
  case h_4 => split <;> exact ⟨_, by rfl, rfl⟩

/-- Only the pulses and levels of trigger pins have changed. -/
def OnlyPins (s t : State) : Prop := ∃ m, t = { s with mot := { s.mot with pin := m } }

theorem OnlyPins.refl (s : State) : OnlyPins s s := ⟨_, rfl⟩

theorem OnlyPins.trans {s t u : State} (h : OnlyPins s t) (k : OnlyPins t u) : OnlyPins s u := by
  obtain ⟨m, rfl⟩ := h
  obtain ⟨m', rfl⟩ := k
  exact ⟨m', rfl⟩

theorem OnlyPins.onPin (s : State) (k : Nat) (f : TrigPin → TrigPin) : OnlyPins s (s.onPin k f) := ⟨_, rfl⟩

theorem OnlyPins.rd {s t : State} (h : OnlyPins s t) (b : Blk) (a : Nat) : t.rd b a = s.rd b a := by
  obtain ⟨m, rfl⟩ := h
  cases b <;> rfl

theorem OnlyPins.kept {s t : State} (h : OnlyPins s t) {bs : List Blk} (hb : Blk.mot ∈ bs) : Kept bs s t := by
  obtain ⟨m, rfl⟩ := h
  simp [Kept, hb]

/-- The pulses of the output pins that take a generator (R63). -/
theorem OnlyPins.pulses (s : State) (g cam : Nat) : OnlyPins s (s.each (genPins s g) (fun s k => s.pinPulse k cam)) :=
  State.each_rel .refl (fun _ _ _ => .trans) fun t k _ => .onPin t k _

/-- A trigger that is issued: what is published of it and what the pins show leave the rest. -/
theorem State.issued_eq (s : State) (g : Nat) (arg : Word) (d : Due) : ∃ u,
    OnlyPins ((s.count .mot (TRG_CNT_ISSUED g)).setGen g { s.gen g with last := some d.cam }) u ∧
      s.issued g arg d = u.publishAt g arg (roundNs d.cam) := by
  refine ⟨_, OnlyPins.pulses _ g d.cam, ?_⟩
  unfold State.issued
  dsimp only
  rw [State.count_gen]

section
variable (s : State) (g : Nat) (arg : Word) (d : Due)

theorem State.rd_issued (a : Nat) : (s.issued g arg d).rd .mot a = (s.count .mot (TRG_CNT_ISSUED g)).rd .mot a := by
  obtain ⟨u, hu, heq⟩ := s.issued_eq g arg d
  rw [heq, State.rd_publishAt _ _ _ _ _ _ (by decide), hu.rd, State.rd_setGen]

theorem State.gen_issued : (s.issued g arg d).gen g = { s.gen g with last := some d.cam } := by
  obtain ⟨u, ⟨m, rfl⟩, heq⟩ := s.issued_eq g arg d
  rw [heq, State.gen, State.mot_publishAt]
  exact State.setGen_gen_same _ _ _

theorem State.portTrg_issued (q : Nat) : (s.issued g arg d).portTrg q = s.portTrg q := by
  obtain ⟨u, ⟨m, rfl⟩, heq⟩ := s.issued_eq g arg d
  rw [heq, State.portTrg, State.mot_publishAt]
  rfl

theorem Kept.issued : Kept [.mot, .evt] s (s.issued g arg d) := by
  obtain ⟨u, hu, heq⟩ := s.issued_eq g arg d
  rw [heq]
  exact (((Kept.count s .mot _ (by simp)).trans (.setGen _ g _ (by simp))).trans (hu.kept (by simp))).trans
    (.publishAt u g arg _ (by simp))

theorem State.lnkPort_issued (q : Nat) : (s.issued g arg d).lnkPort q = s.lnkPort q := by
  have hl : (s.issued g arg d).lnk = s.lnk := (Kept.issued s g arg d).lnk_eq (by simp)
  rw [State.lnkPort, hl, State.lnkPort]

end

/-- Issuing counts once, in its own counter. -/
theorem State.issued_counts (s : State) (g : Nat) (arg : Word) (d : Due) :
    (s.issued g arg d).rd .mot (TRG_CNT_ISSUED g) = satAdd (s.rd .mot (TRG_CNT_ISSUED g)) 1 ∧
      (s.issued g arg d).rd .mot (TRG_CNT_SKIP g) = s.rd .mot (TRG_CNT_SKIP g) := by
  have hne : TRG_CNT_SKIP g ≠ TRG_CNT_ISSUED g := by simp
  exact ⟨(s.rd_issued g arg d _).trans (State.rd_count _ _ _), (s.rd_issued g arg d _).trans (State.rd_count_ne _ _ _ _ hne)⟩

/-! ### A generator that no port names, and one whose ports cannot send (R61, R426) -/

section
variable {g : Fin 96} {s : State} {d : Due} (hdue : genDue s g = some d)
include hdue

theorem execTriggerDue_of_due : exec (.triggerDue g) s = .next ((s.trigger g d).genAdvance g) := by
  change execTriggerDue g s = _
  unfold execTriggerDue
  rw [hdue]

theorem triggerDue_alone (hnone : namingPorts s g = []) : ∃ t, exec (.triggerDue g) s = .next t ∧
      (tooClose (s.gen g).last d.cam = false → (t.gen g).last = some d.cam ∧
        t.rd .mot (TRG_CNT_ISSUED g) = satAdd (s.rd .mot (TRG_CNT_ISSUED g)) 1 ∧
        t.rd .mot (TRG_CNT_SKIP g) = s.rd .mot (TRG_CNT_SKIP g)) ∧
      (tooClose (s.gen g).last d.cam = true → (t.gen g).last = (s.gen g).last ∧
        t.rd .mot (TRG_CNT_SKIP g) = satAdd (s.rd .mot (TRG_CNT_SKIP g)) 1 ∧
        t.rd .mot (TRG_CNT_ISSUED g) = s.rd .mot (TRG_CNT_ISSUED g)) ∧ Kept [.mot, .evt] s t := by
  have htrig : s.trigger g d = if tooClose (s.gen g).last d.cam then s.count .mot (TRG_CNT_SKIP g)
      else s.issued g (BitVec.ofNat 32 (2 ^ 31)) d := by
    unfold State.trigger
    rw [hnone]
  have hne : TRG_CNT_ISSUED g ≠ TRG_CNT_SKIP g := by simp
  obtain ⟨x, hlast, hadv⟩ := (s.trigger g d).genAdvance_eq g
  refine ⟨_, execTriggerDue_of_due hdue, fun h => ?_, fun h => ?_, ?_⟩
  · obtain ⟨hissued, hskip⟩ := s.issued_counts g (BitVec.ofNat 32 (2 ^ 31)) d
    rw [hadv, State.setGen_gen_same, hlast, State.rd_setGen, State.rd_setGen, htrig, h, if_neg Bool.false_ne_true,
      State.gen_issued]
    exact ⟨rfl, hissued, hskip⟩
  · rw [hadv, State.setGen_gen_same, hlast, State.rd_setGen, State.rd_setGen, htrig, if_pos h, State.count_gen,
      State.rd_count, State.rd_count_ne _ _ _ _ hne]
    exact ⟨rfl, rfl, rfl⟩
  · have hkeep : Kept [.mot, .evt] s (s.trigger g d) := by
      rw [htrig]
      exact .ite (.count s .mot _ (by simp)) (.issued s g _ d)
    rw [hadv]
    exact hkeep.trans (.setGen _ g x (by simp))

theorem triggerDue_unsent (hnamed : namingPorts s g ≠ []) (hnone : sendingPorts s g d.cam = []) : ∃ t,
    exec (.triggerDue g) s = .next t ∧ (t.gen g).last = (s.gen g).last ∧
      t.rd .mot (TRG_CNT_SKIP g) = satAdd (s.rd .mot (TRG_CNT_SKIP g)) 1 ∧ t.mot.port = s.mot.port ∧
      RegsKept .mot [TRG_CNT_SKIP g] s t ∧ Kept [.mot] s t := by
  have htrig : s.trigger g d = s.count .mot (TRG_CNT_SKIP g) := by
    unfold State.trigger
    rw [hnone]
    cases hn : namingPorts s g with
    | nil => exact absurd hn hnamed
    | cons p ps => rfl
  obtain ⟨x, hlast, hadv⟩ := (s.trigger g d).genAdvance_eq g
  refine ⟨_, execTriggerDue_of_due hdue, ?_⟩
  rw [hadv, State.setGen_gen_same, hlast, State.rd_setGen, htrig, State.count_gen, State.rd_count]
  exact ⟨rfl, rfl, rfl, (RegsKept.count s _ (by simp)).trans fun _ _ => State.rd_setGen _ _ _ _ _,
    (Kept.count s .mot _ (by simp)).trans (.setGen _ g x (by simp))⟩

end

/-! ### Sending on a port (R64, R66, R113) -/

/-- A port's tags after a trigger: the next tag, the instant, the stamp entry. -/
def PortTrg.sent (x : PortTrg) (e : StampEnt) (cam : Nat) : PortTrg :=
  { tag := (x.tag + 1) % 2 ^ 16, last := some cam, stamps := Tab.set (fun _ => none) x.stamps (x.tag % 4096) (some e) }

/-- A trigger block: boundary, tag, offset; a boundary before the port's next one is that one, with OFFSET 0 (R113, log 12). -/
def blockAt (next chanUi tag cam : Nat) : Nat × Nat × Nat :=
  let b := trigBoundary (next % 21120) chanUi cam
  if b.1 < next then (next, tag, 0) else (b.1, tag, b.2)

theorem blockAt_eq (next tag : Nat) (b : Nat × Nat) {chanUi cam : Nat} (hb : b = trigBoundary (next % 21120) chanUi cam) :
    ((if b.1 < next then (next, 0) else b).1, tag, (if b.1 < next then (next, 0) else b).2) = blockAt next chanUi tag cam := by
  subst hb
  unfold blockAt
  dsimp only
  split <;> rfl

/-- The trigger block a port queues. -/
def queuedTrigger (s : State) (p cam : Nat) : Nat × Nat × Nat :=
  blockAt (s.lnkPort p).boundary (s.fld .lnk (DLK_TRG_CTRL p) 5 0) (s.portTrg p).tag cam

/-- What a trigger on a port writes, before the exit from QUIET. -/
def State.stamped (s : State) (g p : Nat) (d : Due) : State :=
  (s.onPortTrg p (fun x => x.sent (trigStamp s g x.tag d) d.cam)).onLnk p
    (fun x => { x with trig := x.trig ++ [queuedTrigger s p d.cam] })

theorem Kept.awaitLine {bs : List Blk} (s : State) (p tb : Nat) (hb : Blk.pwr ∈ bs) : Kept bs s (s.awaitLine p tb) := by
  simp [Kept, State.awaitLine, hb]

theorem Kept.quietExitStart {bs : List Blk} (s : State) (p : Nat) (hb : Blk.phy ∈ bs) :
    Kept bs s (s.quietExitStart p) := by
  unfold State.quietExitStart
  exact .ite (.onPhy s p _ hb) (.refl bs s)

/-- Of the motion and link blocks a trigger on a port writes the tags and the queued block. -/
theorem Kept.sendTrigger_stamped (s : State) (g p : Nat) (d : Due) :
    Kept [.phy, .pwr] (s.stamped g p d) (s.sendTrigger g p d) := by
  unfold State.sendTrigger
  extract_lets tag e s₁ next b b' s₂
  have hb : b = trigBoundary (next % 21120) (s₁.fld .lnk (DLK_TRG_CTRL p) 5 0) d.cam := rfl
  -- the boundary stays opaque: its arithmetic is not to be unfolded when the block is compared
  clear_value b
  have h₂ : Kept [.phy, .pwr] (s.stamped g p d) s₂ := by
    have hnext : next = (s.lnkPort p).boundary := congrArg LnkPort.boundary (State.onPortTrg_lnkPort ..)
    have hui : s₁.fld .lnk (DLK_TRG_CTRL p) 5 0 = s.fld .lnk (DLK_TRG_CTRL p) 5 0 := by
      rw [State.fld, State.rd_onPortTrg, State.fld]
    have hblock : (b'.1, tag, b'.2) = queuedTrigger s p d.cam := by
      rw [queuedTrigger, ← hnext, ← hui]
      exact blockAt_eq next tag b hb
    have hs : s.stamped g p d = s₁.onLnk p (fun x => { x with trig := x.trig ++ [(b'.1, tag, b'.2)] }) := by
      rw [hblock]
      rfl
    rw [hs]
    exact .awaitLine _ p e.tb (by simp)
  exact .ite (h₂.trans ((Kept.quietExitStart s₂ p (by simp)).trans (.count _ .pwr _ (by simp)))) h₂

theorem Kept.sendTrigger (s : State) (g p : Nat) (d : Due) : Kept [.mot, .lnk, .phy, .pwr] s (s.sendTrigger g p d) :=
  ((Kept.onPortTrg s p _ (by simp)).trans (.onLnk _ p _ (by simp))).trans ((Kept.sendTrigger_stamped s g p d).mono (by simp))

theorem State.mot_sendTrigger (s : State) (g p : Nat) (d : Due) : (s.sendTrigger g p d).mot = (s.stamped g p d).mot :=
  (Kept.sendTrigger_stamped s g p d).mot_eq (by simp)

theorem State.lnk_sendTrigger (s : State) (g p : Nat) (d : Due) : (s.sendTrigger g p d).lnk = (s.stamped g p d).lnk :=
  (Kept.sendTrigger_stamped s g p d).lnk_eq (by simp)

theorem State.time_sendTrigger (s : State) (g p : Nat) (d : Due) : (s.sendTrigger g p d).time = s.time :=
  State.time_eq_of_clock (by simp)

/-! ### What a send leaves of the others (R426) -/

/-- What sending on other ports leaves: the ports' own tags and blocks aside, all that a stamp and a boundary are made of. -/
def SendKeeps (s t : State) : Prop :=
  t.mot = { s.mot with port := t.mot.port } ∧ t.lnk = { s.lnk with port := t.lnk.port } ∧ t.time = s.time

theorem SendKeeps.trans {s t u : State} (h : SendKeeps s t) (k : SendKeeps t u) : SendKeeps s u := by
  obtain ⟨hm, hl, ht⟩ := h
  obtain ⟨km, kl, kt⟩ := k
  exact ⟨km.trans (by rw [hm]), kl.trans (by rw [hl]), kt.trans ht⟩

theorem SendKeeps.sendTrigger (s : State) (g p : Nat) (d : Due) : SendKeeps s (s.sendTrigger g p d) := by
  refine ⟨?_, ?_, s.time_sendTrigger g p d⟩
  · rw [State.mot_sendTrigger]
    rfl
  · rw [State.lnk_sendTrigger]
    rfl

theorem SendKeeps.rd_mot {s t : State} (h : SendKeeps s t) (a : Nat) : t.rd .mot a = s.rd .mot a := by
  have hregs := congrArg (fun m : MotSt => rget m.regs a) h.1
  exact hregs

theorem SendKeeps.rd_lnk {s t : State} (h : SendKeeps s t) (a : Nat) : t.rd .lnk a = s.rd .lnk a := by
  have hregs := congrArg (fun m : LnkSt => rget m.regs a) h.2.1
  exact hregs

/-- A source's view reads neither tags nor link state. -/
theorem SendKeeps.sourceView {s t : State} (h : SendKeeps s t) (m : Nat) : sourceView t m = sourceView s m := by
  have hnow : t.now = s.now := congrArg TimeSt.tb h.2.2
  have hms : t.ms m = s.ms m := by rw [State.ms, h.1, State.ms]
  have henc : t.mot.enc = s.mot.enc := by rw [h.1]
  have hspan : t.mot.span = s.mot.span := by rw [h.1]
  have hin : ∀ v, inputView t v = inputView s v := inputView_congr (fun a _ => h.rd_mot a) henc hspan hnow
  unfold Machine.sourceView primView secView
  rw [hms, h.rd_mot, h.rd_mot, hin, hin, hnow]

theorem SendKeeps.trigStamp {s t : State} (h : SendKeeps s t) (g tag : Nat) (d : Due) :
    trigStamp t g tag d = trigStamp s g tag d := by
  unfold Machine.trigStamp
  rw [State.fld, h.rd_mot, ← State.fld, h.sourceView]

/-- Sending on other ports leaves a port's tags and blocks. -/
def SendStays (q : Nat) (s t : State) : Prop := SendKeeps s t ∧ t.portTrg q = s.portTrg q ∧ t.lnkPort q = s.lnkPort q

theorem SendStays.refl (q : Nat) (s : State) : SendStays q s s := ⟨⟨rfl, rfl, rfl⟩, rfl, rfl⟩

theorem SendStays.trans {q : Nat} {s t u : State} (h : SendStays q s t) (k : SendStays q t u) : SendStays q s u :=
  ⟨h.1.trans k.1, k.2.1.trans h.2.1, k.2.2.trans h.2.2⟩

theorem sendStays_sendTrigger (s : State) (g : Nat) (d : Due) {p q : Nat} (hne : p ≠ q) :
    SendStays q s (s.sendTrigger g p d) := by
  refine ⟨.sendTrigger s g p d, ?_, ?_⟩
  · rw [State.portTrg, State.mot_sendTrigger]
    exact State.onPortTrg_portTrg_ne s p q _ hne.symm
  · rw [State.lnkPort, State.lnk_sendTrigger]
    exact State.onLnk_lnkPort_ne _ p q _ hne.symm

theorem State.portTrg_sendTrigger (s : State) (g p : Nat) (d : Due) :
    (s.sendTrigger g p d).portTrg p = (s.portTrg p).sent (trigStamp s g (s.portTrg p).tag d) d.cam := by
  rw [State.portTrg, State.mot_sendTrigger]
  exact State.onPortTrg_portTrg_same s p _

theorem State.trig_sendTrigger (s : State) (g p : Nat) (d : Due) :
    ((s.sendTrigger g p d).lnkPort p).trig = (s.lnkPort p).trig ++ [queuedTrigger s p d.cam] := by
  rw [State.lnkPort, State.lnk_sendTrigger]
  exact congrArg LnkPort.trig (State.onLnk_lnkPort_same _ p _)

/-- A port's block is made of what the sends on other ports leave. -/
theorem SendStays.queued_eq {q : Nat} {s t : State} (h : SendStays q s t) (cam : Nat) :
    queuedTrigger t q cam = queuedTrigger s q cam := by
  obtain ⟨hk, hp, hl⟩ := h
  rw [queuedTrigger, hp, hl, State.fld, hk.rd_lnk, ← State.fld, queuedTrigger]

/-! ### A trigger that ports send -/

theorem sendingPorts_nodup (s : State) (g cam : Nat) : (sendingPorts s g cam).Nodup := (idxs_nodup 24 _).filter _

section
variable {l : List Nat} (hl : l.Nodup) (s : State) (g : Nat) (d : Due)

theorem SendKeeps.each : SendKeeps s (s.each l (fun s q => s.sendTrigger g q d)) :=
  State.each_rel (fun _ => ⟨rfl, rfl, rfl⟩) (fun _ _ _ => .trans) fun t p _ => .sendTrigger t g p d

include hl in
/-- Each port of the list sends once: its own tag, stamp and boundary. -/
theorem State.each_sendTrigger_in {q : Nat} (hq : q ∈ l) :
    (s.each l (fun s q => s.sendTrigger g q d)).portTrg q =
        (s.portTrg q).sent (trigStamp s g (s.portTrg q).tag d) d.cam ∧
      ((s.each l (fun s q => s.sendTrigger g q d)).lnkPort q).trig = (s.lnkPort q).trig ++ [queuedTrigger s q d.cam] := by
  obtain ⟨u, hsu, -, hp, hlnk⟩ := State.each_at (R := SendStays q) (.refl q) (fun _ _ _ => .trans) hl hq
    (fun t p _ hne => sendStays_sendTrigger t g d hne) s
  rw [hp, hlnk, State.portTrg_sendTrigger, State.trig_sendTrigger, hsu.queued_eq, hsu.1.trigStamp, hsu.2.1, hsu.2.2]
  exact ⟨rfl, rfl⟩

theorem State.each_sendTrigger_out {q : Nat} (hq : q ∉ l) :
    (s.each l (fun s q => s.sendTrigger g q d)).portTrg q = s.portTrg q ∧
      (s.each l (fun s q => s.sendTrigger g q d)).lnkPort q = s.lnkPort q :=
  (State.each_rel (.refl q) (fun _ _ _ => .trans) fun t _ hp =>
    sendStays_sendTrigger t g d (fun he => hq (he ▸ hp))).2

end

theorem triggerDue_sent {g : Fin 96} {s : State} {d : Due} {p : Nat} {ps : List Nat} (hdue : genDue s g = some d)
    (hsend : sendingPorts s g d.cam = p :: ps) : ∃ t, exec (.triggerDue g) s = .next t ∧ (t.gen g).last = some d.cam ∧
      t.rd .mot (TRG_CNT_ISSUED g) = satAdd (s.rd .mot (TRG_CNT_ISSUED g)) 1 ∧
      t.rd .mot (TRG_CNT_SKIP g) = s.rd .mot (TRG_CNT_SKIP g) ∧
      (∀ q : Fin 24, (p :: ps).contains q.val = true →
        (let e := trigStamp s g (s.portTrg q).tag d
         t.portTrg q = {
           tag := ((s.portTrg q).tag + 1) % 2 ^ 16, last := some d.cam,
           stamps := Tab.set (fun _ => none) (s.portTrg q).stamps ((s.portTrg q).tag % 4096) (some e) }) ∧
        (let b := trigBoundary ((s.lnkPort q).boundary % 21120) (s.fld .lnk (DLK_TRG_CTRL q) 5 0) d.cam
         (t.lnkPort q).trig = (s.lnkPort q).trig ++ [if b.1 < (s.lnkPort q).boundary
           then ((s.lnkPort q).boundary, (s.portTrg q).tag, 0) else (b.1, (s.portTrg q).tag, b.2)])) ∧
      (∀ q : Fin 24, (p :: ps).contains q.val = false → t.portTrg q = s.portTrg q ∧ t.lnkPort q = s.lnkPort q) ∧
      Kept [.mot, .lnk, .phy, .pwr, .evt] s t := by
  let u := s.each (p :: ps) (fun s q => s.sendTrigger g q d)
  have hnodup : (p :: ps).Nodup := hsend ▸ sendingPorts_nodup s g d.cam
  have hkeeps : SendKeeps s u := .each s g d
  obtain ⟨arg, htrig⟩ : ∃ arg, s.trigger g d = u.issued g arg d := by
    unfold State.trigger
    rw [hsend]
    cases hn : namingPorts s g with
    | nil => rw [sendingPorts, hn] at hsend; exact absurd hsend (by simp)
    | cons q qs => exact ⟨_, rfl⟩
  obtain ⟨hissued, hskip⟩ := u.issued_counts g arg d
  obtain ⟨x, hlast, hadv⟩ := (s.trigger g d).genAdvance_eq g
  rw [htrig] at hlast hadv
  have hport : ∀ q, ((u.issued g arg d).setGen g x).portTrg q = u.portTrg q := fun q =>
    (State.setGen_portTrg _ _ _ _).trans (u.portTrg_issued g arg d q)
  have hlnk : ∀ q, ((u.issued g arg d).setGen g x).lnkPort q = u.lnkPort q := fun q =>
    (State.setGen_lnkPort _ _ _ _).trans (u.lnkPort_issued g arg d q)
  refine ⟨_, execTriggerDue_of_due hdue, ?_⟩
  rw [htrig, hadv, State.setGen_gen_same, hlast, State.gen_issued, State.rd_setGen, State.rd_setGen, hissued, hskip,
    hkeeps.rd_mot, hkeeps.rd_mot]
  refine ⟨rfl, rfl, rfl, fun q hq => ?_, fun q hq => ?_, ?_⟩
  · have hmem : q.val ∈ p :: ps := by simpa using hq
    obtain ⟨htag, hblock⟩ := State.each_sendTrigger_in hnodup s g d hmem
    rw [hport, hlnk]
    exact ⟨htag, hblock⟩
  · have hmem : q.val ∉ p :: ps := by simpa using hq
    rw [hport, hlnk]
    exact State.each_sendTrigger_out s g d hmem
  · have hsent : Kept [.mot, .lnk, .phy, .pwr] s u := Kept.each _ (fun t q => .sendTrigger t g q d) _ s
    exact ((hsent.mono (by simp)).trans ((Kept.issued u g arg d).mono (by simp))).trans (.setGen _ g x (by simp))

end Sys2Proof.Machine

end

/-! ## Trigger generators: their registers, the trigger pins, the stamp query -/

section

namespace Sys2Proof.Machine

/-! ### Writes to TRG_CTRL, TRG_NEXT_HI and TRG_PORT (R58 to R62) -/

/-- The register map's row of TRG_CTRL. -/
def rowTrgCtrl : RegRow := ⟨0x0, 0x0, 1, .plain, 0x0,
  [fRow 31 31 .rw, ⟨30, 28, .rw, none, false, [6, 7]⟩, fRow 27 25 .rw, fRow 24 24 .rw, fRow 23 20 .rw,
   ⟨19, 18, .rw, none, false, [3]⟩, fRow 15 8 .rw]⟩

theorem regAt_trgCtrl : ∀ g : Fin 96, regAt (TRG_CTRL g) = some (unitTg, rowTrgCtrl) := by decide +kernel

theorem cfgErrAt_trgCtrl : ∀ g : Fin 96, unitTg.cfgErrAt (TRG_CTRL g) = some (TRG_STATUS g, 0) := by decide +kernel

theorem regAt_trgNextHi : ∀ g : Fin 96, regAt (TRG_NEXT_HI g) = some (unitTg, ⟨0x10, 0x0, 1, .plain, 0x0, [fRow 23 0 .rw]⟩) := by
  decide +kernel

theorem regAt_trgPort : ∀ p : Fin 24,
    regAt (TRG_PORT p) = some (unitTport, ⟨0x0, 0x0, 1, .plain, 0x0, [fRow 31 31 .rw, fRow 6 0 .rw]⟩) := by decide +kernel

section
variable {g : Fin 96} {v : Word} {s : State}

theorem State.flag_store_trgCtrl_enable (s : State) (g : Fin 96) (v : Word) :
    (s.store .mot (TRG_CTRL g) v).flag .mot (TRG_CTRL g) 31 = bit v 31 := by
  rw [State.flag, State.rd_store_plain (regAt_trgCtrl g) rfl (cfgErrAt_trgCtrl g) s .mot v (by simp)]
  exact RegRow.bit_write_rw (r := rowTrgCtrl) rfl (by decide) (by decide) (by decide) _ v

/-- ENABLE cleared: the triggers held are dropped, and nothing starts (R61, R329). -/
theorem State.trgCtrlWrite_of_off (h : bit v 31 = false) : s.trgCtrlWrite g v =
    (s.store .mot (TRG_CTRL g) v).setGen g { s.gen g with due := [], pendingEvt := none, timeNext := none } := by
  have hoff : bit ((s.store .mot (TRG_CTRL g) v).rd .mot (TRG_CTRL g)) 31 = false :=
    (s.flag_store_trgCtrl_enable g v).trans h
  unfold State.trgCtrlWrite
  simp only [hoff, Bool.false_and, Bool.not_false, Bool.true_or, if_true, Bool.or_self, Bool.false_eq_true, if_false,
    State.store_gen]

theorem trgCtrlWrite_drops (h : bit v 31 = false) : ∃ t,
    exec (.trgCtrlWrite g v) s = .next t ∧ t.flag .mot (TRG_CTRL g) 31 = false ∧
      t.gen g = { s.gen g with due := [], pendingEvt := none, timeNext := none } ∧
      RegsKept .mot [TRG_CTRL g, TRG_STATUS g] s t ∧ Kept [.mot] s t := by
  have hregs : RegsKept .mot [TRG_CTRL g, TRG_STATUS g] s (s.store .mot (TRG_CTRL g) v) :=
    .store_plain (regAt_trgCtrl g) rfl (cfgErrAt_trgCtrl g) s .mot v (by simp) (by simp)
  refine ⟨s.trgCtrlWrite g v, rfl, ?_⟩
  rw [State.trgCtrlWrite_of_off h]
  refine ⟨?_, State.setGen_gen_same _ _ _, hregs.trans fun _ _ => State.rd_setGen _ _ _ _ _,
    (Kept.store s .mot _ v (by simp)).trans (.setGen _ g _ (by simp))⟩
  rw [State.flag, State.rd_setGen, ← State.flag, State.flag_store_trgCtrl_enable, h]

theorem trgNextWrite_applies (hoff : s.flag .mot (TRG_CTRL g) 31 = false) : ∃ t,
    exec (.trgNextWrite g v) s = .next t ∧
      (let x := bits v 23 8 * 2 ^ 64 + (s.rd .mot (TRG_NEXT_LO g)).toNat * 2 ^ 32 + bits v 7 0 * 2 ^ 24
       t.gen g = { s.gen g with next := BitVec.ofNat 80 x }) ∧
      RegsKept .mot [TRG_NEXT_HI g] s t ∧ Kept [.mot] s t := by
  have hstore := State.store_of_free (regAt_trgNextHi g) rfl (by decide) s .mot v
  have hregs : RegsKept .mot [TRG_NEXT_HI g] s (s.store .mot (TRG_NEXT_HI g) v) := hstore ▸ .wr s _ _ (by simp)
  have hctrl : (s.store .mot (TRG_NEXT_HI g) v).flag .mot (TRG_CTRL g) 31 = false := by
    rw [State.flag, hregs _ (by simp)]
    exact hoff
  have hwrite : s.trgNextWrite g v = (s.store .mot (TRG_NEXT_HI g) v).setGen g
      { s.gen g with next := nextTarget (s.rd .mot (TRG_NEXT_LO g)) v } := by
    have hlo : (s.store .mot (TRG_NEXT_HI g) v).rd .mot (TRG_NEXT_LO g) = s.rd .mot (TRG_NEXT_LO g) := hregs _ (by simp)
    unfold State.trgNextWrite
    extract_lets s₁ x s₂
    have hoff₂ : s₂.flag .mot (TRG_CTRL g) 31 = false := by
      rw [State.flag, State.rd_setGen]
      exact hctrl
    rw [hoff₂, Bool.false_and, if_neg Bool.false_ne_true]
    unfold s₂ x s₁
    rw [hlo, State.store_gen]
  refine ⟨s.trgNextWrite g v, rfl, ?_⟩
  rw [hwrite]
  exact ⟨State.setGen_gen_same _ _ _, hregs.trans fun _ _ => State.rd_setGen _ _ _ _ _,
    (Kept.store s .mot _ v (by simp)).trans (.setGen _ g _ (by simp))⟩

end

theorem trgPortWrite_stores {p : Fin 24} {v : Word} {s : State} (h : bits v 6 0 < 96) : ∃ t,
    exec (.trgPortWrite p v) s = .next t ∧
      t.flag .mot (TRG_PORT p) 31 = bit v 31 ∧ t.fld .mot (TRG_PORT p) 6 0 = bits v 6 0 ∧
      RegsKept .mot [TRG_PORT p] s t ∧ t.mot = { s.mot with regs := t.mot.regs } ∧ Kept [.mot] s t := by
  have hstore := State.store_of_free (regAt_trgPort p) rfl (by decide) s .mot v
  refine ⟨s.store .mot (TRG_PORT p) v, congrArg Host.Outcome.next (if_neg (by omega)), ?_⟩
  rw [hstore]
  refine ⟨?_, ?_, .wr s _ _ (by simp), rfl, .wr s .mot _ _ (by simp)⟩
  · rw [State.flag, State.rd_wr_same]
    exact RegRow.bit_write_rw rfl (by decide) (by decide) (by decide) _ v
  · rw [State.fld, State.rd_wr_same]
    exact RegRow.bits_write_taken (f := fRow 6 0 .rw) rfl (by decide) (by decide) rfl rfl (by decide) _ (by rfl)

/-! ### Trigger pins (R61, R63) -/

theorem State.trigPin_onPin (s : State) (k : Nat) (f : TrigPin → TrigPin) : (s.onPin k f).trigPin k = f (s.trigPin k) :=
  Tab.get_upd_same _ _ _ _

/-- Queueing a trigger changes its generator alone. -/
theorem State.gen_queueTriggerAt_ne (s : State) {g k : Nat} (tb : Nat) (h : k ≠ g) : (s.queueTriggerAt g tb).gen k = s.gen k :=
  State.setGen_gen_ne _ _ _ _ h

theorem State.due_queueTriggerAt (s : State) (g tb : Nat) : ((s.queueTriggerAt g tb).gen g).due = (s.gen g).due ++ [tb * 1000] := by
  rw [State.queueTriggerAt, State.setGen_gen_same]

/-- A trigger queued on different generators stands last on each of them, and nowhere else. -/
theorem State.due_each_queueTriggerAt {l : List Nat} (hl : l.Nodup) (s : State) (tb g : Nat) :
    ((s.each l (fun s g => s.queueTriggerAt g tb)).gen g).due =
      if l.contains g then (s.gen g).due ++ [tb * 1000] else (s.gen g).due := by
  have hr : ∀ s : State, s.gen g = s.gen g := fun _ => rfl
  have ht : ∀ s t u : State, t.gen g = s.gen g → u.gen g = t.gen g → u.gen g = s.gen g := fun _ _ _ h k => k.trans h
  by_cases hg : g ∈ l
  · obtain ⟨u, hu, heach⟩ := State.each_at (R := fun s t => t.gen g = s.gen g) hr ht hl hg
      (fun t k _ hk => t.gen_queueTriggerAt_ne tb hk.symm) s
    rw [heach, State.due_queueTriggerAt, hu, if_pos (by simpa using hg)]
  · have heach := State.each_rel (R := fun s t => t.gen g = s.gen g) hr ht (l := l) (s := s)
      fun t k hk => t.gen_queueTriggerAt_ne tb (fun he => hg (he ▸ hk))
    rw [heach, if_neg (by simpa using hg)]

theorem Kept.queueTriggerAt (s : State) (g tb : Nat) : Kept [.mot] s (s.queueTriggerAt g tb) := .setGen s g _ (by simp)

theorem trigPinEdge_output {k : Fin 16} {level : Bool} {first : BitVec 64} {s : State}
    (h : s.flag .mot (TRG_PIN k) 31 = true) : exec (.trigPinEdge k level first) s = .next s :=
  congrArg Host.Outcome.next (if_pos (.inl h))

theorem trigPinEdge_queues {k : Fin 16} {level act : Bool} {first : BitVec 64} {s : State}
    (hin : s.flag .mot (TRG_PIN k) 31 = false) (hact : act = (level != s.flag .mot (TRG_PIN k) 30))
    (hnew : (s.trigPin k).level ≠ act) (hfilt : first.toNat + 5 * s.fld .mot (TRG_PIN k) 11 6 ≤ s.now) : ∃ t,
      exec (.trigPinEdge k level first) s = .next t ∧ (t.trigPin k).level = act ∧
      (∀ g : Fin 96, (t.gen g).due =
        if (pinGens s k act).contains g.val
        then (s.gen g).due ++ [(first.toNat + 5 * s.fld .mot (TRG_PIN k) 11 6) * 1000] else (s.gen g).due) ∧
      RegsKept .mot [] s t ∧ Kept [.mot, .evt] s t := by
  let accepted := first.toNat + 5 * s.fld .mot (TRG_PIN k) 11 6
  let s₁ := s.onPin k (fun x => { x with level := act })
  let s₂ := s₁.each (pinGens s k act) (fun s g => s.queueTriggerAt g accepted)
  have hgens : pinGens s₁ k act = pinGens s k act := rfl
  have hexec : exec (.trigPinEdge k level first) s = .next (s₂.publish (0x210 + k) (BitVec.ofNat 32 (b2n act))) := by
    subst hact
    refine congrArg Host.Outcome.next (if_neg ?_)
    rintro (h | h | h)
    · exact absurd (hin.symm.trans h) Bool.false_ne_true
    · exact hnew h
    · exact absurd h (Nat.not_lt.mpr hfilt)
  have hpin : s₂.trigPin k = s₁.trigPin k := State.each_rel (R := fun s t => t.trigPin k = s.trigPin k) (fun _ => rfl)
    (fun _ _ _ h h' => h'.trans h) fun _ _ _ => rfl
  have hregs : RegsKept .mot [] s s₂ := RegsKept.trans (t := s₁) (fun a _ => (OnlyPins.onPin s k _).rd .mot a)
    (.each fun _ _ _ _ _ => State.rd_setGen _ _ _ _ _)
  have hkept : Kept [.mot] s s₂ := ((OnlyPins.onPin s k _).kept (by simp)).trans
    (.each _ (fun t g => .queueTriggerAt t g accepted) _ s₁)
  refine ⟨_, hexec, ?_, fun g => ?_, ?_, ?_⟩
  · rw [State.trigPin, State.mot_publish, ← State.trigPin, hpin, State.trigPin_onPin]
  · rw [State.gen, State.mot_publish, ← State.gen]
    exact State.due_each_queueTriggerAt (idxs_nodup 96 _) s₁ accepted g
  · exact hregs.trans fun a _ => State.rd_publish _ _ _ _ _ (by decide)
  · exact (hkept.mono (by simp)).trans (.publish s₂ _ _ (by simp))

theorem trigPinPulseEnd_ends (k : Fin 16) (s : State) : ∃ t, exec (.trigPinPulseEnd k) s = .next t ∧
    t.trigPin k = { s.trigPin k with pulses := (s.trigPin k).pulses.filter (fun p => decide (s.now * 1000 < p.2)) } ∧
      RegsKept .mot [] s t ∧ Kept [.mot] s t :=
  ⟨_, rfl, s.trigPin_onPin k _, fun a _ => (OnlyPins.onPin s k _).rd .mot a, (OnlyPins.onPin s k _).kept (by simp)⟩

/-! ### The stamp query (R68) -/

theorem regAt_trgStampQ : regAt TRG_STAMP_Q = some (unitStq, ⟨0x0, 0x0, 1, .plain, 0x0, [fRow 28 24 .rw, fRow 15 0 .rw]⟩) := by
  decide +kernel

/-- The low half of a stamp entry's second pair is the position's. -/
theorem lo32_stampPair (frac flags pos : Nat) : lo32 (frac * 2 ^ 56 + flags * 2 ^ 48 + pos) = lo32 pos := by
  apply BitVec.eq_of_toNat_eq
  simp only [lo32, BitVec.toNat_ofNat]
  omega

theorem tagStamp_wr (s : State) (b : Blk) (a : Nat) (w : Word) (p tag : Nat) :
    tagStamp (s.wr b a w) p tag = tagStamp s p tag := by rw [tagStamp, State.wr_portTrg, tagStamp]

theorem tagStamp_wr64 (s : State) (b : Blk) (lo hi x p tag : Nat) : tagStamp (s.wr64 b lo hi x) p tag = tagStamp s p tag := by
  rw [State.wr64, tagStamp_wr, tagStamp_wr]

theorem bit_ofNat_b2n (x : Bool) : bit (BitVec.ofNat 32 (b2n x)) 0 = x := by cases x <;> rfl

theorem stampQuery_shows (v : Word) (s : State) : ∃ t, exec (.stampQuery v) s = .next t ∧
    (let e := (Tab.get (fun _ => none) (s.portTrg (bits v 28 24)).stamps (bits v 15 0 % 4096)).getD StampEnt.init
     t.rd .mot TRG_STAMP_TB_LO = lo32 e.tb ∧ t.rd .mot TRG_STAMP_TB_HI = hi32 e.tb ∧
     t.rd .mot TRG_STAMP_POS_LO = lo32 e.pos.toNat) ∧
    t.flag .mot TRG_STAMP_VALID 0 = (tagStamp s (bits v 28 24) (bits v 15 0)).isSome ∧
    t.mot = { s.mot with regs := t.mot.regs } ∧ Kept [.mot] s t := by
  let e := (Tab.get (fun _ => none) (s.portTrg (bits v 28 24)).stamps (bits v 15 0 % 4096)).getD StampEnt.init
  let valid := (tagStamp s (bits v 28 24) (bits v 15 0)).isSome
  obtain ⟨w, hw⟩ : ∃ w, s.store .mot TRG_STAMP_Q v = s.wr .mot TRG_STAMP_Q w :=
    ⟨_, State.store_of_free regAt_trgStampQ rfl (by decide) s .mot v⟩
  let s₁ := s.wr .mot TRG_STAMP_Q w
  let s₂ := s₁.wr64 .mot TRG_STAMP_TB_LO TRG_STAMP_TB_HI e.tb
  let s₃ := s₂.wr64 .mot TRG_STAMP_POS_LO TRG_STAMP_POS_HI (e.frac * 2 ^ 56 + e.flags * 2 ^ 48 + e.pos.toNat)
  let t := s₃.wr .mot TRG_STAMP_VALID (BitVec.ofNat 32 (b2n valid))
  have hquery : s.stampQuery v = t := by
    unfold State.stampQuery
    simp only [hw, tagStamp_wr, tagStamp_wr64]
    rfl
  have h₃ : RegsKept .mot [TRG_STAMP_POS_LO, TRG_STAMP_POS_HI] s₂ s₃ := .wr64 s₂ _ (by simp) (by simp)
  have hlast : RegsKept .mot [TRG_STAMP_VALID] s₃ t := .wr s₃ _ _ (by simp)
  have honly : RegsOnly .mot s t :=
    (((RegsOnly.wr .mot s _ w).trans (.wr64 .mot s₁ _ _ _)).trans (.wr64 .mot s₂ _ _ _)).trans (.wr .mot s₃ _ _)
  refine ⟨t, congrArg Host.Outcome.next hquery, ⟨?_, ?_, ?_⟩, ?_, ?_, honly.kept (by simp)⟩
  · rw [hlast _ (by simp), h₃ _ (by simp)]
    exact State.rd_wr64_lo s₁ .mot (by decide)
  · rw [hlast _ (by simp), h₃ _ (by simp)]
    exact State.rd_wr64_hi s₁ .mot
  · rw [hlast _ (by simp)]
    exact (State.rd_wr64_lo s₂ .mot (by decide)).trans (lo32_stampPair _ _ _)
  · rw [State.flag, State.rd_wr_same, bit_ofNat_b2n]
  · obtain ⟨r, hr⟩ := honly
    rw [hr]
    rfl

end Sys2Proof.Machine

section
open Sys2Proof Sys2Proof.Machine

/-- Settles O15: a trigger's step by its naming ports, then the registers, the pins and the stamp query. -/
theorem triggersAreIssuedOrSkipped : Obligations.TriggersAreIssuedOrSkipped := by
  unfold Obligations.TriggersAreIssuedOrSkipped
  refine ⟨fun g s h => ?_, fun g s d => triggerDue_alone, fun g s d => triggerDue_unsent, fun g s d p ps => triggerDue_sent,
    fun g v s => trgCtrlWrite_drops, fun g v s => trgNextWrite_applies,
    fun p v s => ⟨fun h => congrArg Host.Outcome.next (if_pos h), trgPortWrite_stores⟩,
    fun k level first s => trigPinEdge_output, fun k level act first s => trigPinEdge_queues, trigPinPulseEnd_ends,
    stampQuery_shows⟩
  change execTriggerDue g s = _
  unfold execTriggerDue
  rw [h]

end

end

/-! ## Shadow sets and table loads of a stream -/

section

namespace Sys2Proof.Machine

/-! ### A stream's page of the register map (R36, R154) -/

/-- The streams' pages are one unit's alone. -/
theorem eq_unitPix_of_base : ∀ u ∈ units, u.base + u.stride * u.count ≤ 0x400000 ∨ 0x580000 ≤ u.base ∨ u = unitPix := by
  decide +kernel

/-- The counters of a stream stand at 0x80 to 0xFF. -/
theorem kind_of_mem_unitPix : ∀ r ∈ unitPix.regs, r.kind = .plain ∨ (r.reps ≤ 1 ∧ 0x80 ≤ r.off ∧ r.off < 0x100) := by
  decide +kernel

section
variable {n o : Nat} (hn : n < 96) (ho : o < 0x4000)
include hn ho

theorem regAt_pixPage {u : UnitRow} {row : RegRow} (h : regAt (PIX_SRC n + o) = some (u, row)) :
    u = unitPix ∧ row ∈ unitPix.regs ∧ row.has o = true := by
  obtain ⟨hu, hhas, hrow, hat⟩ := regAt_eq_some h
  obtain ⟨hlo, hhi⟩ := (u.has_iff _).mp hhas
  have hpix : u = unitPix := by
    rcases eq_unitPix_of_base u hu with hbelow | habove | heq
    · simp only [PIX_SRC] at hhi
      omega
    · simp only [PIX_SRC] at hlo
      omega
    · exact heq
  subst hpix
  have hoff : (PIX_SRC n + o - unitPix.base) % unitPix.stride = o := by
    rw [show unitPix.base = 0x400000 from rfl, show unitPix.stride = 0x4000 from rfl]
    simp only [PIX_SRC]
    omega
  exact ⟨rfl, hrow, hoff ▸ hat⟩

theorem cfgErrAt_pixPage : unitPix.cfgErrAt (PIX_SRC n + o) = some (PIX_STATUS n, 7) := by
  have hidx : unitPix.index (PIX_SRC n + o) = n := by
    rw [UnitRow.index, show unitPix.base = 0x400000 from rfl, show unitPix.stride = 0x4000 from rfl]
    simp only [PIX_SRC]
    omega
  have hdef : unitPix.cfgErrAt (PIX_SRC n + o) = some (0x40002C + 0x4000 * unitPix.index (PIX_SRC n + o), 7) := rfl
  rw [hdef, hidx, Nat.mul_comm]

theorem kind_of_pixPage (hout : o < 0x80 ∨ 0x100 ≤ o) {u : UnitRow} {row : RegRow}
    (h : regAt (PIX_SRC n + o) = some (u, row)) : row.kind = .plain := by
  obtain ⟨-, hrow, hat⟩ := regAt_pixPage hn ho h
  rcases kind_of_mem_unitPix row hrow with hk | ⟨hreps, hlo, hhi⟩
  · exact hk
  · have hoff : row.off = o := by simpa [RegRow.has, hreps] using hat
    omega

end

theorem regAt_pixTblCmd : ∀ n : Fin 96, regAt (PIX_TBL_CMD n) = some (unitPix, ⟨0x40, 0x0, 1, .plain, 0x0,
    [fRow 31 31 .w1s, ⟨30, 28, .rw, none, false, [3, 4, 5, 6, 7]⟩, fRow 27 26 .rw]⟩) := by decide +kernel

theorem cfgErrAt_pixTblCmd : ∀ n : Fin 96, unitPix.cfgErrAt (PIX_TBL_CMD n) = some (PIX_STATUS n, 7) := by decide +kernel

theorem RegsKept.store_pixTblCmd (s : State) (n : Fin 96) (v : Word) :
    RegsKept .pix [PIX_TBL_CMD n, PIX_STATUS n] s (s.store .pix (PIX_TBL_CMD n) v) :=
  .store_plain (regAt_pixTblCmd n) rfl (cfgErrAt_pixTblCmd n) s .pix v (by simp) (by simp)

/-- Changed registers leave a block's other state. -/
theorem RegsOnly.pix_eq {s t : State} (h : RegsOnly .pix s t) : t.pix = { s.pix with regs := t.pix.regs } := by
  obtain ⟨r, rfl⟩ := h
  rfl

/-! ### ARM and DISARM (R154, R155) -/

section
variable {n : Fin 96} {s : State}

theorem pixArm_accepted (hoff : s.flag .pix (PIX_ARM n) 31 = false) (hgood : armGood s n = true) : ∃ t,
    exec (.pixArm n) s = .next t ∧ t.flag .pix (PIX_ARM n) 31 = true ∧
      t.pixStream n = { s.pixStream n with armStarts := 0 } ∧ RegsKept .pix [PIX_ARM n] s t ∧ Kept [.pix] s t := by
  have harm : s.arm n = (s.setb .pix (PIX_ARM n) 31 true).onPix n (fun x => { x with armStarts := 0 }) :=
    (if_neg (by simp [hoff])).trans (if_pos hgood)
  refine ⟨s.arm n, rfl, ?_⟩
  rw [harm]
  refine ⟨?_, ?_, ?_, (Kept.setb s .pix _ 31 true (by simp)).trans (.onPix _ n _ (by simp))⟩
  · rw [State.flag, State.rd_onPix]
    exact State.flag_setb_same _ _ _ _ _ (by decide)
  · rw [State.onPix_pixStream_same, State.setb_pixStream]
  · exact (RegsKept.setb s _ 31 true (by simp)).trans fun _ _ => State.rd_onPix _ _ _ _ _

theorem pixArm_refused (hoff : s.flag .pix (PIX_ARM n) 31 = false) (hbad : armGood s n = false) :
    exec (.pixArm n) s = .next (s.setb .pix (PIX_STATUS n) 3 true) :=
  congrArg Host.Outcome.next ((if_neg (by simp [hoff])).trans (if_neg (by simp [hbad])))

theorem pixDisarm_withdraws (hon : s.flag .pix (PIX_ARM n) 31 = true) : ∃ t, exec (.pixDisarm n) s = .next t ∧
      t.flag .pix (PIX_ARM n) 31 = false ∧ t.flag .pix (PIX_ARM_STATUS n) 30 = true ∧
      RegsKept .pix [PIX_ARM n, PIX_ARM_STATUS n] s t ∧ t.pix = { s.pix with regs := t.pix.regs } ∧ Kept [.pix] s t := by
  have honly : RegsOnly .pix s ((s.setb .pix (PIX_ARM n) 31 false).setb .pix (PIX_ARM_STATUS n) 30 true) :=
    (RegsOnly.setb .pix s _ 31 false).trans (.setb .pix _ _ 30 true)
  refine ⟨_, congrArg Host.Outcome.next (if_pos hon), ?_, State.flag_setb_same _ _ _ _ _ (by decide), ?_, honly.pix_eq,
    honly.kept (by simp)⟩
  · rw [State.flag_setb_ne _ _ _ _ _ _ _ (by simp), State.flag_setb_same _ _ _ _ _ (by decide)]
  · exact (RegsKept.setb s _ 31 false (by simp)).trans (.setb _ _ 30 true (by simp))

/-! ### Shadow registers -/

theorem shadowWrite_stores {k : Fin 128} {v : Word} {u : UnitRow} {row : RegRow} (hoff : s.flag .pix (PIX_ARM n) 31 = false)
    (hreg : regAt (PIX_SRC n + (0x100 + 4 * k.val)) = some (u, row)) : ∃ t, exec (.shadowWrite n k v) s = .next t ∧
        t.rd .pix (PIX_SRC n + (0x100 + 4 * k.val)) =
          (row.write u.ignore (s.rd .pix (PIX_SRC n + (0x100 + 4 * k.val))) v).1 ∧
        RegsKept .pix [PIX_SRC n + (0x100 + 4 * k.val), PIX_STATUS n] s t ∧
        t.pix = { s.pix with regs := t.pix.regs } ∧ Kept [.pix] s t := by
  have ho : 0x100 + 4 * k.val < 0x4000 := by omega
  obtain ⟨rfl, -, -⟩ := regAt_pixPage n.isLt ho hreg
  have hplain := kind_of_pixPage n.isLt ho (by omega) hreg
  have herr := cfgErrAt_pixPage n.isLt ho
  have hne : PIX_SRC n + (0x100 + 4 * k.val) ≠ PIX_STATUS n := by
    simp only [PIX_SRC, PIX_STATUS]
    omega
  have honly := RegsOnly.store_plain hreg hplain herr s .pix v
  exact ⟨_, congrArg Host.Outcome.next (if_neg (by simp [hoff])), State.rd_store_plain hreg hplain herr s .pix v hne,
    .store_plain hreg hplain herr s .pix v (by simp) (by simp), honly.pix_eq, honly.kept (by simp)⟩

/-! ### Table loads (R156) -/

theorem streamTiles_congr {s t : State} (h : t.seq = s.seq) (n : Nat) : streamTiles t n = streamTiles s n := by
  rw [streamTiles, mapStream, h, streamTiles, mapStream]

section
variable {v : Word} (hgo : bit v 31 = true) (hoff : s.flag .pix (PIX_ARM n) 31 = false)
include hgo hoff

theorem pixTblLoad_busy (hbusy : s.flag .pix (PIX_STATUS n) 2 = true) :
    exec (.pixTblLoad n v) s = .next (s.setb .pix (PIX_STATUS n) 7 true) := by
  change Host.Outcome.next (s.pixLoad n v) = _
  rw [State.pixLoad, if_neg (by simp [hoff]), if_neg (by simp [hgo]), if_pos hbusy]

variable (hidle : s.flag .pix (PIX_STATUS n) 2 = false) (hfree : swapHolds s n = false) (hkind : bits v 30 28 < 2)
include hidle hfree hkind

/-- A load of a flat field or a defect map that may start is judged by its length and the stream's tiles. -/
theorem State.pixLoad_of_free : s.pixLoad n v =
    if !tableSizeOk s n (bits v 30 28) (s.rd .pix (PIX_TBL_LEN n)).toNat || !hasTiles s n then
      (s.store .pix (PIX_TBL_CMD n) (putBit v 31 false)).setb .pix (PIX_STATUS n) 7 true
    else ((s.store .pix (PIX_TBL_CMD n) v).setb .pix (PIX_STATUS n) 2 true).onPix n (fun x => { x with
      load := some ⟨bits v 30 28, 0, s.rd64 .pix (PIX_TBL_ADDR_LO n) (PIX_TBL_ADDR_HI n),
        (s.rd .pix (PIX_TBL_LEN n)).toNat, !(s.pixStream n).sel (bits v 30 28), streamTiles s n⟩ }) := by
  have hctx : ¬ bits v 30 28 = 2 := by omega
  have hkept : Kept [.pix] s ((s.store .pix (PIX_TBL_CMD n) v).setb .pix (PIX_STATUS n) 2 true) :=
    (Kept.store s .pix _ v (by simp)).trans (.setb _ .pix _ 2 true (by simp))
  have htiles := streamTiles_congr (hkept.seq_eq (by simp)) n
  unfold State.pixLoad
  simp only [hoff, hgo, hidle, hfree, hctx, htiles, Bool.false_eq_true, Bool.not_true, if_false, bne_self_eq_false,
    Bool.false_and, Bool.or_false]

theorem pixTblLoad_badSize (hsize : tableSizeOk s n (bits v 30 28) (s.rd .pix (PIX_TBL_LEN n)).toNat = false) : ∃ t,
    exec (.pixTblLoad n v) s = .next t ∧ t.flag .pix (PIX_STATUS n) 7 = true ∧
      t.pixStream n = s.pixStream n ∧ RegsKept .pix [PIX_TBL_CMD n, PIX_STATUS n] s t ∧ Kept [.pix] s t := by
  refine ⟨s.pixLoad n v, rfl, ?_⟩
  rw [State.pixLoad_of_free hgo hoff hidle hfree hkind, hsize, if_pos (by simp)]
  refine ⟨State.flag_setb_same _ _ _ _ _ (by decide), ?_, ?_, ?_⟩
  · rw [State.setb_pixStream, State.store_pixStream]
  · exact (RegsKept.store_pixTblCmd s n _).trans (.setb _ _ 7 true (by simp))
  · exact (Kept.store s .pix _ _ (by simp)).trans (.setb _ .pix _ 7 true (by simp))

theorem pixTblLoad_starts (hsize : tableSizeOk s n (bits v 30 28) (s.rd .pix (PIX_TBL_LEN n)).toNat = true)
    (htiles : hasTiles s n = true) : ∃ t, exec (.pixTblLoad n v) s = .next t ∧ t.flag .pix (PIX_STATUS n) 2 = true ∧
      (t.pixStream n).load = some ⟨bits v 30 28, 0, s.rd64 .pix (PIX_TBL_ADDR_LO n) (PIX_TBL_ADDR_HI n),
        (s.rd .pix (PIX_TBL_LEN n)).toNat,
        if bits v 30 28 = 0 then !(s.pixStream n).flatSel else !(s.pixStream n).defectSel, streamTiles s n⟩ ∧
      RegsKept .pix [PIX_TBL_CMD n, PIX_STATUS n] s t ∧ Kept [.pix] s t := by
  have hsel : (!(s.pixStream n).sel (bits v 30 28)) =
      if bits v 30 28 = 0 then !(s.pixStream n).flatSel else !(s.pixStream n).defectSel := by
    unfold PixStream.sel
    split
    · rfl
    · rw [if_pos (by omega)]
  refine ⟨s.pixLoad n v, rfl, ?_⟩
  rw [State.pixLoad_of_free hgo hoff hidle hfree hkind, hsize, htiles, if_neg (by simp), hsel]
  refine ⟨?_, ?_, ?_, ?_⟩
  · rw [State.flag, State.rd_onPix]
    exact State.flag_setb_same _ _ _ _ _ (by decide)
  · rw [State.onPix_pixStream_same]
  · exact ((RegsKept.store_pixTblCmd s n v).trans (.setb _ _ 2 true (by simp))).trans fun _ _ => State.rd_onPix _ _ _ _ _
  · exact ((Kept.store s .pix _ v (by simp)).trans (.setb _ .pix _ 2 true (by simp))).trans (.onPix _ n _ (by simp))

end

end

/-! ### Fault reports and reads of the Erg: what they change (R304, R390 to R396) -/

section
variable (s : State)

theorem Kept.withFlt {bs : List Blk} (x : FltSt) (hb : Blk.flt ∈ bs) : Kept bs s { s with flt := x } := by simp [Kept, hb]

theorem Kept.wrList {bs : List Blk} {b : Blk} (hb : b ∈ bs) (ws : List Word) :
    ∀ (s : State) (a : Nat), Kept bs s (s.wrList b a ws) := by
  induction ws with
  | nil => exact fun s _ => .refl bs s
  | cons w ws ih => exact fun s a => (Kept.wr s b a w hb).trans (ih _ _)

theorem Kept.fltFlags : Kept [.flt] s s.fltFlags :=
  (Kept.setb s .flt _ 29 _ (by simp)).trans (.setb _ .flt _ 28 _ (by simp))

theorem Kept.logAppend (rec : List Word) : Kept [.flt] s (s.logAppend rec) := by
  unfold State.logAppend
  extract_lets p s₁ s₂
  have h₁ : Kept [.flt] s s₁ := .wrList (by simp) _ _ _
  exact (h₁.trans (.wr s₁ .flt _ _ (by simp))).trans (.withFlt s₂ _ (by simp))

theorem Kept.logOverflow : Kept [.flt] s s.logOverflow := by
  unfold State.logOverflow
  split
  · exact .refl _ s
  · exact .ite (.refl _ s) ((Kept.logAppend s _).trans (.withFlt _ _ (by simp)))

theorem Kept.reportOne (e : FltRep) : Kept [.flt] s (s.reportOne e) := by
  unfold State.reportOne
  extract_lets s₁ fits r s₂ s₃ o s₄ flt s₅
  have hflt : Blk.flt ∈ [Blk.flt] := by simp
  have h₁ : Kept [.flt] s s₁ := .logOverflow s
  have h₂ : Kept [.flt] s s₂ := .ite h₁ ((h₁.trans (.wrList hflt _ _ _)).trans (.setb _ .flt _ 30 true hflt))
  have h₃ : Kept [.flt] s s₃ := .ite ((h₂.trans (.wrList hflt _ _ _)).trans (.setb _ .flt _ 31 true hflt)) h₂
  have h₄ : Kept [.flt] s s₄ := (h₃.trans (.count s₃ .flt _ hflt)).trans (.count _ .flt _ hflt)
  have h₅ : Kept [.flt] s s₅ := .ite (h₃.trans (.logAppend s₃ r)) (h₄.trans (.withFlt s₄ _ hflt))
  exact h₅.trans (.fltFlags s₅)

theorem Kept.reportAt (tb sev domain code inst detail : Nat) :
    Kept [.flt] s (s.reportAt tb sev domain code inst detail) := by
  have hflt : Blk.flt ∈ [Blk.flt] := by simp
  unfold State.reportAt State.inCycle
  exact ((Kept.withFlt s _ hflt).trans (.each _ (fun t e => .reportOne t e) _ _)).trans (.withFlt _ _ hflt)

theorem Kept.contained (domain code inst detail : Nat) : Kept [.flt] s (s.contained domain code inst detail) :=
  .reportAt s _ _ _ _ _ _

theorem Kept.withErg {bs : List Blk} (x : ErgSt) (hb : Blk.erg ∈ bs) : Kept bs s { s with erg := x } := by simp [Kept, hb]

theorem Kept.ergUncorr (a : Nat) : Kept [.erg, .flt] s (s.ergUncorr a) := by
  unfold State.ergUncorr
  extract_lets t s₁ s₂ keep
  have herg : Blk.erg ∈ [Blk.erg, Blk.flt] := by simp
  have h₁ : Kept [.erg, .flt] s s₁ := .ite ((RegsOnly.wr64 .erg s _ _ _).kept herg) (.refl _ s)
  have h₂ : Kept [.erg, .flt] s s₂ :=
    (h₁.trans (.count s₁ .erg _ herg)).trans ((Kept.contained _ _ _ _ _).mono (by simp))
  exact .ite (h₂.trans (.withErg s₂ _ herg)) (h₂.trans (.withErg s₂ _ herg))

/-- A reader that meets errors counts, corrects and reports them. -/
theorem Kept.ergMeet (a n : Nat) : Kept [.erg, .flt] s (s.ergMeet a n) := by
  unfold State.ergMeet
  extract_lets soft s₁ s₂
  have herg : Blk.erg ∈ [Blk.erg, Blk.flt] := by simp
  have h₁ : Kept [.erg, .flt] s s₁ := .each _ (fun t w => .ergUncorr t _) _ s
  exact .ite (.refl _ s) (.ite h₁ ((h₁.trans (.countBy s₁ .erg _ _ herg)).trans (.withErg s₂ _ herg)))

end

/-! ### The end of a load (R156, R304) -/

theorem ergRead_congr {s t : State} (h : t.erg = s.erg) (a n : Nat) : ergRead t a n = ergRead s a n := by
  unfold ergRead ergByte
  rw [h]

theorem ergPoisoned_congr {s t : State} (h : t.erg = s.erg) (ht : t.time = s.time) (a n : Nat) :
    ergPoisoned t a n = ergPoisoned s a n := by
  have hrd : ∀ a, t.rd .erg a = s.rd .erg a := fun a => congrArg (fun e : ErgSt => rget e.regs a) h
  simp only [ergPoisoned, stackOk, stackPresent, State.flag, hrd, h, ht]

/-- The registers and the stream as the end of a load leaves them, before the table goes to its bank. -/
def State.loadEnded (s : State) (n : Nat) : State :=
  ((s.setb .pix (PIX_TBL_CMD n) 31 false).setb .pix (PIX_STATUS n) 2 false).onPix n (fun x => { x with load := none })

theorem Kept.loadEnded (s : State) (n : Nat) : Kept [.pix] s (s.loadEnded n) :=
  ((Kept.setb s .pix _ 31 false (by simp)).trans (.setb _ .pix _ 2 false (by simp))).trans (.onPix _ n _ (by simp))

theorem RegsKept.loadEnded (s : State) (n : Nat) : RegsKept .pix [PIX_TBL_CMD n, PIX_STATUS n] s (s.loadEnded n) :=
  ((RegsKept.setb s _ 31 false (by simp)).trans (.setb _ _ 2 false (by simp))).trans fun _ _ => State.rd_onPix _ _ _ _ _

theorem State.flag_loadEnded (s : State) (n : Nat) :
    (s.loadEnded n).flag .pix (PIX_TBL_CMD n) 31 = false ∧ (s.loadEnded n).flag .pix (PIX_STATUS n) 2 = false := by
  have hne : PIX_TBL_CMD n ≠ PIX_STATUS n := by simp
  unfold State.loadEnded
  constructor
  · rw [State.flag, State.rd_onPix, State.rd_setb_ne _ _ _ _ _ _ hne, ← State.flag,
      State.flag_setb_same _ _ _ _ _ (by decide)]
  · rw [State.flag, State.rd_onPix, ← State.flag, State.flag_setb_same _ _ _ _ _ (by decide)]

theorem State.pixStream_loadEnded (s : State) (n : Nat) :
    (s.loadEnded n).pixStream n = { s.pixStream n with load := none } := by
  rw [State.loadEnded, State.onPix_pixStream_same, State.setb_pixStream, State.setb_pixStream]

theorem RegsOnly.tile_eq {s t : State} (h : RegsOnly .pix s t) : t.pix.tile = s.pix.tile := by
  rw [h.pix_eq]

theorem State.tile_loadEnded (s : State) (n : Nat) : (s.loadEnded n).pix.tile = s.pix.tile := by
  have hregs := (RegsOnly.setb .pix s (PIX_TBL_CMD n) 31 false).trans (.setb .pix _ (PIX_STATUS n) 2 false)
  have hstream : ∀ (u : State) f, (u.onPix n f).pix.tile = u.pix.tile := fun _ _ => rfl
  rw [State.loadEnded, hstream, hregs.tile_eq]

/-- A table put into banks changes the tiles alone. -/
theorem Kept.putBanks (s : State) (ts : List Nat) (kind ctx : Nat) (b : Bool) (v : Bank) :
    Kept [.pix] s (s.putBanks ts kind ctx b v) := by simp [Kept, State.putBanks]

/-- The banks after a load are those before with the table put in. -/
theorem State.tile_putBanks_congr {s t : State} (h : t.pix.tile = s.pix.tile) (ts : List Nat) (kind ctx : Nat) (b : Bool)
    (v : Bank) : (t.putBanks ts kind ctx b v).pix.tile = (s.putBanks ts kind ctx b v).pix.tile := by
  unfold State.putBanks
  dsimp only
  rw [h]

section
variable {n : Fin 96} {s : State} {l : LoadSt} (hload : (s.pixStream n).load = some l) (huse : (s.pixStream n).inUse l = false)
include hload huse

/-- A load ends in the banks it began with: with the Erg's bytes, or emptied where they cannot be used. -/
theorem execPixTblLoadDone_of_load : exec (.pixTblLoadDone n) s = .next (
    if ergPoisoned s l.addr l.len || (l.kind == 1 && !defectOrdered (ergRead s l.addr l.len)) then
      ((((s.loadEnded n).ergMeet l.addr l.len).putBanks l.tiles l.kind l.ctx l.bank none).setb .pix (PIX_STATUS n) 7 true)
    else ((s.loadEnded n).ergMeet l.addr l.len).putBanks l.tiles l.kind l.ctx l.bank (some (ergRead s l.addr l.len))) := by
  have hkeep := Kept.loadEnded s n
  have hread := ergRead_congr (hkeep.erg_eq (by simp)) l.addr l.len
  have hbad := ergPoisoned_congr (hkeep.erg_eq (by simp)) (hkeep.time_eq (by simp)) l.addr l.len
  have hidle : ¬ ((s.loadEnded n).pixStream n).inUse l = true := by
    have hsame : ((s.loadEnded n).pixStream n).inUse l = (s.pixStream n).inUse l := by
      rw [State.pixStream_loadEnded]
      rfl
    rw [hsame, huse]
    exact Bool.false_ne_true
  rw [← hread, ← hbad]
  change execPixTblLoadDone n s = _
  unfold execPixTblLoadDone
  rw [hload]
  exact congrArg Host.Outcome.next (if_neg hidle)

theorem pixTblLoadDone_ends : ∃ t, exec (.pixTblLoadDone n) s = .next t ∧ t.flag .pix (PIX_TBL_CMD n) 31 = false ∧
      t.flag .pix (PIX_STATUS n) 2 = false ∧
      (ergPoisoned s l.addr l.len = false → (l.kind = 1 → defectOrdered (ergRead s l.addr l.len) = true) →
        t.pix.tile = (s.putBanks l.tiles l.kind l.ctx l.bank (some (ergRead s l.addr l.len))).pix.tile) ∧
      (ergPoisoned s l.addr l.len = true →
        t.pix.tile = (s.putBanks l.tiles l.kind l.ctx l.bank none).pix.tile ∧ t.flag .pix (PIX_STATUS n) 7 = true) ∧
      t.pixStream n = { s.pixStream n with load := none } ∧
      RegsKept .pix [PIX_TBL_CMD n, PIX_STATUS n] s t ∧ Kept [.pix, .erg, .flt] s t := by
  let u := (s.loadEnded n).ergMeet l.addr l.len
  have hmeet : Kept [.erg, .flt] (s.loadEnded n) u := .ergMeet _ _ _
  have hpix : u.pix = (s.loadEnded n).pix := hmeet.pix_eq (by simp)
  have hrd : ∀ a, u.rd .pix a = (s.loadEnded n).rd .pix a := fun a => hmeet.regsKept (by simp) [] a (by simp)
  have hregs : RegsKept .pix [PIX_TBL_CMD n, PIX_STATUS n] s u := (RegsKept.loadEnded s n).trans fun a _ => hrd a
  have hkept : Kept [.pix, .erg, .flt] s u := ((Kept.loadEnded s n).mono (by simp)).trans (hmeet.mono (by simp))
  have htile : u.pix.tile = s.pix.tile := congrArg PixSt.tile hpix |>.trans (s.tile_loadEnded n)
  have hstream : u.pixStream n = { s.pixStream n with load := none } := by
    rw [State.pixStream, hpix]
    exact s.pixStream_loadEnded n
  obtain ⟨hcmd, hbusy⟩ := s.flag_loadEnded n
  have hcmd' : u.flag .pix (PIX_TBL_CMD n) 31 = false := (congrArg (bit · 31) (hrd _)).trans hcmd
  have hbusy' : u.flag .pix (PIX_STATUS n) 2 = false := (congrArg (bit · 2) (hrd _)).trans hbusy
  have hne : PIX_TBL_CMD n ≠ PIX_STATUS n := by simp
  refine ⟨_, execPixTblLoadDone_of_load hload huse, ?_⟩
  split
  case isTrue hbad =>
    let w := u.putBanks l.tiles l.kind l.ctx l.bank none
    refine ⟨?_, ?_, fun hgood hord => ?_, fun _ => ⟨?_, State.flag_setb_same _ _ _ _ _ (by decide)⟩, ?_, ?_, ?_⟩
    · exact (State.flag_setb_ne _ _ _ _ _ _ _ hne).trans hcmd'
    · exact (State.flag_setb_bit _ _ _ _ _ _ (by decide)).trans hbusy'
    · rw [hgood, Bool.false_or, Bool.and_eq_true, beq_iff_eq] at hbad
      obtain ⟨hkind, hnot⟩ := hbad
      rw [hord hkind] at hnot
      exact absurd hnot (by decide)
    · exact (RegsOnly.setb .pix w _ 7 true).tile_eq.trans (State.tile_putBanks_congr htile _ _ _ _ _)
    · rw [State.setb_pixStream]
      exact hstream
    · exact hregs.trans (RegsKept.setb w _ 7 true (by simp))
    · exact (hkept.trans ((Kept.putBanks _ _ _ _ _ _).mono (by simp))).trans (.setb w .pix _ 7 true (by simp))
  case isFalse hok =>
    refine ⟨hcmd', hbusy', fun _ _ => State.tile_putBanks_congr htile _ _ _ _ _, fun hbad => ?_, hstream, hregs,
      hkept.trans ((Kept.putBanks _ _ _ _ _ _).mono (by simp))⟩
    rw [hbad] at hok
    exact absurd rfl hok

end

end Sys2Proof.Machine

section
open Sys2Proof Sys2Proof.Machine

/-- Settles O22: ARM by the checks of R155, the shadow set by its page of the register map, loads by their start and end. -/
theorem shadowSetsArmAndTablesLoad : Obligations.ShadowSetsArmAndTablesLoad := by
  unfold Obligations.ShadowSetsArmAndTablesLoad
  refine ⟨fun n s => ⟨fun h => congrArg Host.Outcome.next (if_pos h), fun hoff => ⟨pixArm_refused hoff, pixArm_accepted hoff⟩⟩,
    fun n s => ⟨fun h => congrArg Host.Outcome.next (if_neg (by simp [h])), pixDisarm_withdraws⟩,
    fun n k v s => ⟨fun h => congrArg Host.Outcome.next (if_pos h), fun u row => shadowWrite_stores⟩,
    fun n v s hgo => ⟨fun h => congrArg Host.Outcome.next (if_pos h), pixTblLoad_busy hgo, fun hoff hidle hfree hkind => ?_⟩,
    fun n s l => pixTblLoadDone_ends⟩
  exact ⟨pixTblLoad_badSize hgo hoff hidle hfree hkind, pixTblLoad_starts hgo hoff hidle hfree hkind⟩

end

end

/-! ## Ports: frames of what their lines and their loss touch -/

section

namespace Sys2Proof.Machine

/-! ### Frames that let free values be drawn -/

/-- A change that keeps everything outside some blocks keeps those blocks. -/
theorem Kept.blocks {bs : List Blk} {s t : State} (h : Kept bs s t) : BlocksKept bs s t := by
  obtain ⟨h1, h2, h3, h4, h5, h6, h7, h8, h9, h10, h11, h12, h13, h14, h15, h16, h17, htap, -, -, -, hpend⟩ := h
  exact ⟨h1, h2, h3, h4, h5, h6, h7, h8, h9, h10, h11, h12, h13, h14, h15, h16, h17, htap, hpend⟩

theorem BlocksKept.trans {bs : List Blk} {s t u : State} (h : BlocksKept bs s t) (k : BlocksKept bs t u) :
    BlocksKept bs s u := by
  obtain ⟨h1, h2, h3, h4, h5, h6, h7, h8, h9, h10, h11, h12, h13, h14, h15, h16, h17, htap, hpend⟩ := h
  obtain ⟨k1, k2, k3, k4, k5, k6, k7, k8, k9, k10, k11, k12, k13, k14, k15, k16, k17, ktap, kpend⟩ := k
  exact ⟨fun x => (k1 x).trans (h1 x), fun x => (k2 x).trans (h2 x), fun x => (k3 x).trans (h3 x),
    fun x => (k4 x).trans (h4 x), fun x => (k5 x).trans (h5 x), fun x => (k6 x).trans (h6 x),
    fun x => (k7 x).trans (h7 x), fun x => (k8 x).trans (h8 x), fun x => (k9 x).trans (h9 x),
    fun x => (k10 x).trans (h10 x), fun x => (k11 x).trans (h11 x), fun x => (k12 x).trans (h12 x),
    fun x => (k13 x).trans (h13 x), fun x => (k14 x).trans (h14 x), fun x => (k15 x).trans (h15 x),
    fun x => (k16 x).trans (h16 x), fun x => (k17 x).trans (h17 x), ktap.trans htap, kpend.trans hpend⟩

/-- Drawing a free value changes no block. -/
theorem BlocksKept.draw (bs : List Blk) (s : State) : BlocksKept bs s s.draw := by simp [BlocksKept, State.draw]

theorem Kept.phy_eq {bs : List Blk} {s t : State} (h : Kept bs s t) (hb : Blk.phy ∉ bs) : t.phy = s.phy := by
  obtain ⟨-, -, hphy, -⟩ := h
  exact hphy hb

/-! ### Lines that close (R122 to R125) -/

/-- The blocks that a line's way to the streams touches. -/
abbrev lineBlks : List Blk := [.lnk, .pix, .pwr]

section
variable (s : State)

theorem Kept.onVc (p v : Nat) (f : VcSt → VcSt) : Kept lineBlks s (s.onVc p v f) := .onLnk s p _ (by simp)

theorem Kept.deliver (l : CamLine) (ts : List Nat) : Kept lineBlks s (s.deliver l ts) :=
  (Kept.each _ (fun s t => .onPix s t _ (by simp)) ts s).trans (.onVc _ _ _ _)

theorem Kept.countMarks (p flags : Nat) : Kept lineBlks s (s.countMarks p flags) :=
  (Kept.ite (.count s .lnk _ (by simp)) (.refl _ s)).trans (.ite (.count _ .lnk _ (by simp)) (.refl _ _))

theorem Kept.lineTo (l : CamLine) (found : Option Stamp) (lineStart : Option Nat) (ts : List Nat) :
    Kept lineBlks s (s.lineTo l found lineStart ts) := by
  unfold State.lineTo
  extract_lets v drop s₁ r late fl s₂
  have hdrop : Kept lineBlks s s₁ := Kept.each _ (fun s t => .count s .pix _ (by simp)) drop s
  refine hdrop.trans (.ite (.refl _ s₁) ?_)
  exact ((Kept.deliver s₁ _ _).trans (.countMarks _ _ _)).trans (.onVc _ _ _ _)

theorem Kept.insertMissing (p vc pixels : Nat) (dt : Option Nat) (tags : List (Option Nat)) (area : Bool) :
    Kept lineBlks s (s.insertMissing p vc pixels dt tags area) :=
  Kept.each _ (fun s _ => (Kept.lineTo s _ _ _ _).trans (.count _ .lnk _ (by simp))) tags s

theorem Kept.noteDelay (p arrived : Nat) (found : Option Stamp) : Kept lineBlks s (s.noteDelay p arrived found) := by
  cases found with
  | none => exact .refl _ s
  | some st => simp [Kept, State.noteDelay]

theorem Kept.closeLine (p vc extra : Nat) : Kept lineBlks s (s.closeLine p vc extra) := by
  unfold State.closeLine
  split
  · exact .refl _ s
  · next o _ =>
    extract_lets s₁ need short v c n missing tags s₂ s₃ s₄ fl l found
    have hopen : Kept lineBlks s s₁ := .onVc s p vc _
    refine hopen.trans (.ite ((Kept.onVc s₁ p vc _).trans (.count _ .lnk _ (by simp))) ?_)
    have hgap : Kept lineBlks s₁ s₂ := .insertMissing s₁ _ _ _ _ _ _
    have hresync : Kept lineBlks s₂ s₃ := .ite (.count s₂ .lnk _ (by simp)) (.refl _ s₂)
    have href : Kept lineBlks s₃ s₄ := .onVc s₃ p vc _
    exact (hgap.trans (hresync.trans href)).trans ((Kept.noteDelay s₄ _ _ _).trans (.lineTo _ _ _ _ _))

theorem Kept.closeShort (p vc : Nat) : Kept lineBlks s (s.closeShort p vc) :=
  .ite ((Kept.closeLine s p vc _).trans (.count _ .lnk _ (by simp))) (.refl _ s)

theorem Kept.markDo (p : Nat) (e : RxItem) : Kept lineBlks s (s.markDo p e) := by
  cases e with
  | packet q => exact .refl _ s
  | lost vc => exact .closeLine s p vc _
  | left => exact Kept.each _ (fun s v => .closeShort s p v) _ s
  | fresh => exact .onLnk s p _ (by simp)

theorem Kept.mark (p : Nat) (e : RxItem) : Kept lineBlks s (s.mark p e) :=
  .ite (.markDo s p e) (.onLnk s p _ (by simp))

theorem Kept.closePort (p : Nat) : Kept lineBlks s (s.closePort p) :=
  (Kept.onLnk s p _ (by simp)).trans (.mark _ p _)

theorem Kept.regLinkDown (p : Nat) : Kept [.lnk] s (s.regLinkDown p) := by
  refine .ite ?_ (.refl _ s)
  exact (Kept.onLnk s p _ (by simp)).trans ((Kept.put _ .lnk _ _ _ _ (by simp)).trans ((Kept.setb _ .lnk _ _ _ (by simp)).trans
    ((Kept.setb _ .lnk _ _ _ (by simp)).trans (.setb _ .lnk _ _ _ (by simp)))))

/-! ### A span's loss (R335, R348, R353) -/

/-- The blocks that the loss of a span touches. -/
abbrev spanBlks : List Blk := [.time, .evt, .cvn, .flt]

theorem Kept.withCvn (x : CvnSt) : Kept spanBlks s { s with cvn := x } := by simp [Kept]

theorem Kept.cvPut (p : Nat) (c : Cell) (k : Option (Nat × Bool × Nat)) : Kept spanBlks s (s.cvPut p c k) :=
  .onCv s p _ (by simp)

theorem Kept.bufDone (k : Option (Nat × Bool × Nat)) : Kept spanBlks s (s.bufDone k) := by
  cases k with
  | none => exact .refl _ s
  | some k => exact .ite (.refl _ s) (.onCv s _ _ (by simp))

theorem Kept.cvUp (c : Cell) (k : Option (Nat × Bool × Nat)) : Kept spanBlks s (s.cvUp c k) := by
  unfold State.cvUp
  split
  · exact .ite (.cvPut s _ _ _) (.count s .cvn _ (by simp))
  · exact .count s .cvn _ (by simp)

theorem Kept.rootEnds (e : EnumSt) : Kept spanBlks s (s.rootEnds e) := by
  unfold State.rootEnds
  extract_lets w s₁ s₂ cvn s₃ jump s₄ add s₅
  have hshown : Kept spanBlks s s₁ := (Kept.setb s .cvn _ _ _ (by simp)).trans (.wr _ .cvn _ _ (by simp))
  have hpub : Kept spanBlks s₁ s₂ := .publish s₁ _ _ (by simp)
  have hdone : Kept spanBlks s s₃ := hshown.trans (hpub.trans (.withCvn s₂ _))
  refine hdone.trans (.ite ?_ (.count s₃ .cvn _ (by simp)))
  have hstep : Kept spanBlks s₃ s₄ := .ite (.setb s₃ .cvn _ _ _ (by simp)) (.refl _ s₃)
  have hsent : Kept spanBlks s₄ s₅ := Kept.each _ (fun s _ => .cvPut s _ _ _) _ s₄
  exact (hstep.trans hsent).trans (.withCvn s₅ _)

theorem Kept.walkOn (e : EnumSt) (n : Nat) : Kept spanBlks s (s.walkOn e n) := by
  unfold State.walkOn
  extract_lets found passed e' e''
  cases found with
  | some p => exact (Kept.cvPut s _ _ _).trans (.withCvn _ _)
  | none =>
    dsimp only
    split
    · exact (Kept.cvPut s _ _ _).trans (.withCvn _ _)
    · exact .rootEnds s _

theorem Kept.passLost (p : Nat) : Kept spanBlks s (s.passLost p) := by
  unfold State.passLost
  split
  · exact .ite (.withCvn s _) (.ite (.walkOn s _ _) (.refl _ s))
  · exact .refl _ s

theorem Kept.up2Sync : Kept spanBlks s s.up2Sync := by
  unfold State.up2Sync
  split <;> exact (Kept.setb s .cvn _ _ _ (by simp)).trans (.put _ .cvn _ _ _ _ (by simp))

theorem Kept.putCvn (a hi lo x : Nat) : Kept spanBlks s (s.put .cvn a hi lo x) := .put s .cvn a hi lo x (by simp)

theorem Kept.tabRegs : Kept spanBlks s s.tabRegs := by
  unfold State.tabRegs
  extract_lets t s₁ s₂ s₃
  have hports : Kept spanBlks s s₁ := Kept.each _ (fun s _ =>
    ((Kept.putCvn s _ _ _ _).trans (.putCvn _ _ _ _ _)).trans (.putCvn _ _ _ _ _)) _ s
  have hid : Kept spanBlks s₁ s₂ := (Kept.putCvn s₁ _ _ _ _).trans (.putCvn _ _ _ _ _)
  have hgen : Kept spanBlks s₂ s₃ := (Kept.putCvn s₂ _ _ _ _).trans (.putCvn _ _ _ _ _)
  exact (hports.trans (hid.trans hgen)).trans (.up2Sync s₃)

theorem Kept.tbHold : Kept spanBlks s s.tbHold :=
  .ite ((Kept.put s .time _ _ _ _ (by simp)).trans ((Kept.wr _ .cvn _ _ (by simp)).trans (.wr _ .time _ _ (by simp))))
    (.refl _ s)

theorem Kept.failover (old : Nat) : Kept spanBlks s (s.failover old) := by
  unfold State.failover
  refine .ite (.refl _ s) ?_
  extract_lets p t u t' cvn s₁ s₂ s₃
  have htab : Kept spanBlks s s₁ := (Kept.withCvn s _).trans (.tabRegs _)
  have hcount : Kept spanBlks s₁ s₂ := (Kept.count s₁ .cvn _ (by simp)).trans (.setb _ .cvn _ _ _ (by simp))
  have hsent : Kept spanBlks s₂ s₃ := .cvUp s₂ _ _
  exact (htab.trans (hcount.trans hsent)).trans (.ite (.refl _ s₃) (.tbHold s₃))

theorem Kept.spanLost (p : Nat) : Kept spanBlks s (s.spanLost p) := by
  unfold State.spanLost
  extract_lets st gone s₁ s₂ other cvn s₃ s₄ s₅ s₆
  have hport : Kept spanBlks s s₂ :=
    ((Kept.setb s .cvn _ _ _ (by simp)).trans (.setb _ .cvn _ _ _ (by simp))).trans (.onCv s₁ p _ (by simp))
  have hheld : Kept spanBlks s₂ s₄ := (Kept.withCvn s₂ _).trans (Kept.each _ (fun s _ => .onCv s _ _ (by simp)) _ s₃)
  have hfreed : Kept spanBlks s₄ s₅ := Kept.each _ (fun s _ => .bufDone s _) _ s₄
  have hpass : Kept spanBlks s₅ s₆ := ((Kept.contained s₅ _ _ _ _).mono (by simp)).trans (.passLost _ p)
  exact ((hport.trans hheld).trans (hfreed.trans hpass)).trans
    ((Kept.ite (.failover s₆ p) (.up2Sync s₆)).trans (.withCvn _ _))

theorem Kept.linkCheck (s₀ : State) (p : Nat) : Kept spanBlks s (s.linkCheck s₀ p) := .ite (.spanLost s _) (.refl _ s)

end

end Sys2Proof.Machine

end

/-! ## Lane pages: what the moves of a port change of them -/

section

namespace Sys2Proof.Machine

/-! ### Addresses of a physical page (R82, R333) -/

@[simp] theorem phyAt_inj {p o o' : Nat} : phyAt p o = phyAt p o' ↔ o = o' := by
  unfold phyAt
  split <;> simp [DLP_CTRL, CVY_CTRL]

/-- The pages of two ports share no register. -/
theorem phyAt_eq_iff {p q o o' : Nat} (ho : o < 0x1000) (ho' : o' < 0x1000) : phyAt p o = phyAt q o' ↔ p = q ∧ o = o' := by
  unfold phyAt DLP_CTRL CVY_CTRL
  split <;> split <;> omega

/-! ### Registers of one page -/

section
variable (s : State) {p o o' : Nat} (h : o' ≠ o)
include h

@[simp] theorem State.rd_wr_phyAt (v : Word) : (s.wr .phy (phyAt p o) v).rd .phy (phyAt p o') = s.rd .phy (phyAt p o') :=
  s.rd_wr_ne _ _ _ v (by simpa using h)

@[simp] theorem State.rd_put_phyAt (hi lo x : Nat) :
    (s.put .phy (phyAt p o) hi lo x).rd .phy (phyAt p o') = s.rd .phy (phyAt p o') :=
  s.rd_put_ne _ _ _ hi lo x (by simpa using h)

@[simp] theorem State.rd_setb_phyAt (i : Nat) (x : Bool) :
    (s.setb .phy (phyAt p o) i x).rd .phy (phyAt p o') = s.rd .phy (phyAt p o') :=
  s.rd_setb_ne _ _ _ i x (by simpa using h)

@[simp] theorem State.rd_countBy_phyAt (n : Nat) :
    (s.countBy .phy (phyAt p o) n).rd .phy (phyAt p o') = s.rd .phy (phyAt p o') :=
  s.rd_countBy_ne _ _ _ n (by simpa using h)

@[simp] theorem State.rd_count_phyAt : (s.count .phy (phyAt p o)).rd .phy (phyAt p o') = s.rd .phy (phyAt p o') :=
  s.rd_countBy_phyAt h 1

@[simp] theorem State.fld_put_phyAt (hi lo x hi' lo' : Nat) :
    (s.put .phy (phyAt p o) hi lo x).fld .phy (phyAt p o') hi' lo' = s.fld .phy (phyAt p o') hi' lo' :=
  congrArg (bits · hi' lo') (s.rd_put_phyAt h hi lo x)

@[simp] theorem State.flag_put_phyAt (hi lo x j : Nat) :
    (s.put .phy (phyAt p o) hi lo x).flag .phy (phyAt p o') j = s.flag .phy (phyAt p o') j :=
  congrArg (bit · j) (s.rd_put_phyAt h hi lo x)

@[simp] theorem State.fld_setb_phyAt (i : Nat) (x : Bool) (hi lo : Nat) :
    (s.setb .phy (phyAt p o) i x).fld .phy (phyAt p o') hi lo = s.fld .phy (phyAt p o') hi lo :=
  congrArg (bits · hi lo) (s.rd_setb_phyAt h i x)

@[simp] theorem State.flag_setb_phyAt (i : Nat) (x : Bool) (j : Nat) :
    (s.setb .phy (phyAt p o) i x).flag .phy (phyAt p o') j = s.flag .phy (phyAt p o') j :=
  congrArg (bit · j) (s.rd_setb_phyAt h i x)

end

section
variable (s : State) (b : Blk) (a i hi lo n : Nat)

@[simp] theorem State.flag_onPhy (f : PhyPort → PhyPort) : (s.onPhy n f).flag b a i = s.flag b a i :=
  congrArg (bit · i) (s.rd_onPhy b a n f)

@[simp] theorem State.fld_onPhy (f : PhyPort → PhyPort) : (s.onPhy n f).fld b a hi lo = s.fld b a hi lo :=
  congrArg (bits · hi lo) (s.rd_onPhy b a n f)

end

theorem RegsKept.onPhy {b : Blk} {as : List Nat} (s : State) (p : Nat) (f : PhyPort → PhyPort) :
    RegsKept b as s (s.onPhy p f) := fun a _ => s.rd_onPhy b a p f

theorem RegsKept.onLnk {b : Blk} {as : List Nat} (s : State) (p : Nat) (f : LnkPort → LnkPort) :
    RegsKept b as s (s.onLnk p f) := fun a _ => s.rd_onLnk b a p f

/-! ### What the status register tells -/

section
variable {s t : State} {p : Nat} (h : t.rd .phy (phyStatus p) = s.rd .phy (phyStatus p))
include h

theorem portState_congr : portState t p = portState s p := congrArg (bits · 31 28) h

theorem portUp_congr : portUp t p = portUp s p := by rw [portUp, portState_congr h, portUp]

theorem inBackoff_congr : inBackoff t p = inBackoff s p := congrArg (bit · 17) h

theorem refOk_congr : refOk t p = refOk s p := congrArg (fun v => !bit v 18) h

theorem logicalLane_congr (lane : Nat) : logicalLane t p lane = logicalLane s p lane := by
  rw [logicalLane, State.flag, h, logicalLane, State.flag]

end

/-- STATE after a bit of DLP_STATUS below it was replaced. -/
@[simp] theorem portState_setb_status (s : State) (p : Nat) {i : Nat} (x : Bool) (h : i < 28) :
    portState (s.setb .phy (phyStatus p) i x) p = portState s p := s.fld_setb_bit _ _ i x 31 28 (.inl h)

/-! ### A move of the state machine -/

section
variable (s : State) (p st : Nat)

@[simp] theorem portState_phyGo : portState (s.phyGo p st) p = st % 16 := by
  simp [portState, State.phyGo]

theorem State.flag_phyGo_status {i : Nat} (h : i < 28) :
    (s.phyGo p st).flag .phy (phyStatus p) i = s.flag .phy (phyStatus p) i := by
  simp [State.phyGo, State.flag_put_bit, h]

@[simp] theorem State.phyPort_phyGo : (s.phyGo p st).phyPort p = { s.phyPort p with entered := s.now } := by
  simp only [State.phyGo, State.onPhy_phyPort_same, State.put_phyPort]

theorem RegsKept.phyGo {as : List Nat} (h : phyStatus p ∈ as) : RegsKept .phy as s (s.phyGo p st) :=
  (RegsKept.put s _ 31 28 st h).trans (.onPhy _ p _)

theorem Kept.phyGo : Kept [.phy] s (s.phyGo p st) := (Kept.put s .phy _ 31 28 st (by simp)).trans (.onPhy _ p _ (by simp))

end

/-! ### Marker locks, SIG, CDR and FRAME of the lanes -/

/-- The DLP_LANE_STATUS registers of a port. -/
abbrev laneRegs (p : Nat) : List Nat := [phyLane p 0 0, phyLane p 1 0]

theorem phyLane_mem_laneRegs {p l : Nat} (h : l < 2) : phyLane p l 0 ∈ laneRegs p := by
  obtain rfl | rfl : l = 0 ∨ l = 1 := by omega
  all_goals simp

theorem logicalLane_lt (s : State) (p : Nat) {lane : Nat} (h : lane < 2) : logicalLane s p lane < 2 := by
  unfold logicalLane
  split <;> omega

section
variable (s : State) (p : Nat)

theorem RegsKept.lanesDark : RegsKept .phy (laneRegs p) s (s.lanesDark p) :=
  (RegsKept.put s _ 3 2 0 (by simp)).trans (.put _ _ 3 2 0 (by simp))

theorem Kept.lanesDark : Kept [.phy] s (s.lanesDark p) :=
  (Kept.put s .phy _ 3 2 0 (by simp)).trans (.put _ .phy _ 3 2 0 (by simp))

@[simp] theorem State.phyPort_lanesDark (q : Nat) : (s.lanesDark p).phyPort q = s.phyPort q := by simp [State.lanesDark]

theorem Kept.freshLanes : Kept [.lnk] s (s.freshLanes p) := .onLnk s p _ (by simp)

/-- FRAME of a lane as its lock stands, behind DESKEW (R82). -/
def State.showLock (lane : Nat) (b : Bool) : State :=
  if portUp s p then s.setb .phy (phyLane p (logicalLane s p lane) 0) 2 b else s

/-- Of the physical layer a lock changes FRAME alone. -/
theorem State.phy_setLock (lane : Nat) (b : Bool) : (s.setLock p lane b).phy = (s.showLock p lane b).phy := by
  unfold State.setLock
  extract_lets s₁ s₂
  have hfirst : s₂.phy = (s.showLock p lane b).phy := by
    have hrd : s₁.rd .phy (phyStatus p) = s.rd .phy (phyStatus p) := State.rd_onLnk _ _ _ _ _
    have hs₂ : s₂ = if portUp s₁ p then s₁.setb .phy (phyLane p (logicalLane s₁ p lane) 0) 2 b else s₁ := rfl
    rw [hs₂, portUp_congr hrd, logicalLane_congr hrd, State.showLock]
    split <;> rfl
  split
  · exact ((Kept.setb (bs := [.lnk]) s₂ .lnk _ _ _ (by simp)).phy_eq (by simp)).trans hfirst
  · exact hfirst

theorem State.rd_setLock (lane : Nat) (b : Bool) (a : Nat) :
    (s.setLock p lane b).rd .phy a = (s.showLock p lane b).rd .phy a :=
  congrArg (fun x : PhySt => rget x.regs a) (s.phy_setLock p lane b)

@[simp] theorem State.phyPort_setLock (lane q : Nat) (b : Bool) : (s.setLock p lane b).phyPort q = s.phyPort q := by
  have h : (s.showLock p lane b).phyPort q = s.phyPort q := by
    unfold State.showLock
    split <;> simp
  exact (congrArg (fun x : PhySt => Tab.get (fun _ => PhyPort.init) x.port q) (s.phy_setLock p lane b)).trans h

theorem RegsKept.setLock {lane : Nat} (h : lane < 2) (b : Bool) : RegsKept .phy (laneRegs p) s (s.setLock p lane b) := by
  intro a ha
  rw [State.rd_setLock]
  exact RegsKept.ite (.setb s _ 2 b (phyLane_mem_laneRegs (logicalLane_lt s p h))) (.refl _ _ s) a ha

theorem Kept.setLock (lane : Nat) (b : Bool) : Kept [.phy, .lnk] s (s.setLock p lane b) := by
  unfold State.setLock
  extract_lets s₁ s₂
  have hlock : Kept [.phy, .lnk] s s₁ := .onLnk s p _ (by simp)
  have hframe : Kept [.phy, .lnk] s₁ s₂ := .ite (.setb s₁ .phy _ 2 b (by simp)) (.refl _ s₁)
  exact (hlock.trans hframe).trans (.ite (.setb s₂ .lnk _ lane b (by simp)) (.refl _ s₂))

/-- The lanes forget their markers in three steps: their data layer, the locks, LANES_UP. -/
theorem State.phy_dropLocks : ∃ u : State, Kept [.lnk] s u ∧ Kept [.lnk] ((u.setLock p 0 false).setLock p 1 false) (s.dropLocks p) :=
  ⟨s.onLnk p _, .onLnk s p _ (by simp), .ite (.setb _ .lnk _ 3 false (by simp)) (.refl _ _)⟩

theorem RegsKept.dropLocks : RegsKept .phy (laneRegs p) s (s.dropLocks p) := by
  obtain ⟨u, hu, hd⟩ := s.phy_dropLocks p
  exact (hu.regsKept (by simp) _).trans (((RegsKept.setLock u p (by decide) false).trans (.setLock _ p (by decide) false)).trans
    (hd.regsKept (by simp) _))

theorem Kept.dropLocks : Kept [.phy, .lnk] s (s.dropLocks p) := by
  obtain ⟨u, hu, hd⟩ := s.phy_dropLocks p
  exact (hu.mono (by simp)).trans (((Kept.setLock u p 0 false).trans (.setLock _ p 1 false)).trans (hd.mono (by simp)))

theorem Kept.phyPort {bs : List Blk} {s t : State} (h : Kept bs s t) (hb : Blk.phy ∉ bs) (q : Nat) : t.phyPort q = s.phyPort q :=
  congrArg (fun x : PhySt => Tab.get (fun _ => PhyPort.init) x.port q) (h.phy_eq hb)

@[simp] theorem State.phyPort_dropLocks (q : Nat) : (s.dropLocks p).phyPort q = s.phyPort q := by
  obtain ⟨u, hu, hd⟩ := s.phy_dropLocks p
  rw [hd.phyPort (by simp), State.phyPort_setLock, State.phyPort_setLock, hu.phyPort (by simp)]

end

/-! ### Eye scans stop, and a link goes down (R91, R97) -/

/-- The registers of the eye scans that stop. -/
abbrev scanRegs (p : Nat) : List Nat := [phyLane p 0 0x20, phyLane p 0 0x24, phyLane p 1 0x20, phyLane p 1 0x24]

/-- The blocks that a port's loss of its link touches. -/
abbrev portBlks : List Blk := [.phy, .lnk, .pix, .evt, .pwr]

section
variable (s : State) (p : Nat)

theorem RegsKept.escanEnd (lane flag : Nat) :
    RegsKept .phy [phyLane p lane 0x20, phyLane p lane 0x24] s (s.escanEnd p lane flag) :=
  ((RegsKept.setb s _ 0 false (by simp)).trans (.setb _ _ flag true (by simp))).trans (.put _ _ 31 30 0 (by simp))

theorem RegsOnly.escanEnd (lane flag : Nat) : RegsOnly .phy s (s.escanEnd p lane flag) :=
  ((RegsOnly.setb .phy s _ 0 false).trans (.setb .phy _ _ flag true)).trans ⟨_, rfl⟩

theorem RegsOnly.ite {b : Blk} {s t u : State} {c : Prop} [Decidable c] (ht : RegsOnly b s t) (hu : RegsOnly b s u) :
    RegsOnly b s (if c then t else u) := by
  split
  · exact ht
  · exact hu

theorem RegsKept.escanStop (lane : Nat) : RegsKept .phy [phyLane p lane 0x20, phyLane p lane 0x24] s (s.escanStop p lane) :=
  .ite (.escanEnd s p lane 1) (.refl _ _ s)

theorem RegsOnly.escanStop (lane : Nat) : RegsOnly .phy s (s.escanStop p lane) :=
  .ite (.escanEnd s p lane 1) (.refl _ s)

theorem RegsKept.leaveActive : RegsKept .phy (scanRegs p) s (s.leaveActive p) :=
  .ite (((RegsKept.escanStop s p 0).mono (by simp)).trans ((RegsKept.escanStop _ p 1).mono (by simp))) (.refl _ _ s)

theorem RegsOnly.leaveActive : RegsOnly .phy s (s.leaveActive p) :=
  .ite ((RegsOnly.escanStop s p 0).trans (.escanStop _ p 1)) (.refl _ s)

theorem Kept.dlDown_rest (u : State) : Kept [.lnk, .pix, .evt, .pwr] u
    (if p < 24 then ((u.publish (0x1B0 + 4 * p + 1) 0#32).closePort p).regLinkDown p else u) :=
  .ite ((Kept.publish u _ _ (by simp)).trans (((Kept.closePort _ p).mono (by simp)).trans
    ((Kept.regLinkDown _ p).mono (by simp)))) (.refl _ u)

theorem RegsKept.dlDown : RegsKept .phy [phyDown p, phyStatus p] s (s.dlDown p) := by
  refine .ite (.refl _ _ s) ?_
  exact ((RegsKept.count s _ (by simp)).trans (.setb _ _ 3 true (by simp))).trans ((Kept.dlDown_rest p _).regsKept (by simp) _)

theorem Kept.dlDown : Kept portBlks s (s.dlDown p) := by
  refine .ite (.refl _ s) ?_
  exact ((Kept.count s .phy _ (by simp)).trans (.setb _ .phy _ 3 true (by simp))).trans ((Kept.dlDown_rest p _).mono (by simp))

end

end Sys2Proof.Machine

end

/-! ## Moves of a port: OFF, DETECT, back-off, failure, RECOVER -/

section

namespace Sys2Proof.Machine

/-- The registers of a page that a move to OFF or to back-off touches. -/
abbrev downRegs (p : Nat) : List Nat := laneRegs p ++ scanRegs p ++ [phyDown p, phyStatus p]

/-- The state whose link has gone down, before STATE moves. -/
def State.goneDown (s : State) (p : Nat) : State := (s.leaveActive p).dlDown p

/-- The lanes are dark and their markers forgotten. -/
def State.lanesLost (s : State) (p : Nat) : State := (s.lanesDark p).dropLocks p

section
variable (s : State) (p : Nat)

theorem RegsKept.goneDown : RegsKept .phy (scanRegs p ++ [phyDown p, phyStatus p]) s (s.goneDown p) :=
  ((RegsKept.leaveActive s p).mono (by simp)).trans ((RegsKept.dlDown _ p).mono (by simp))

theorem Kept.goneDown : Kept portBlks s (s.goneDown p) :=
  ((RegsOnly.leaveActive s p).kept (by simp)).trans (.dlDown _ p)

theorem RegsKept.lanesLost : RegsKept .phy (laneRegs p) s (s.lanesLost p) :=
  (RegsKept.lanesDark s p).trans (.dropLocks _ p)

theorem Kept.lanesLost : Kept [.phy, .lnk] s (s.lanesLost p) :=
  ((Kept.lanesDark s p).mono (by simp)).trans (.dropLocks _ p)

theorem State.phyPort_lanesLost (q : Nat) : (s.lanesLost p).phyPort q = s.phyPort q := by simp [State.lanesLost]

theorem State.rd_lanesLost_status : (s.lanesLost p).rd .phy (phyStatus p) = s.rd .phy (phyStatus p) :=
  RegsKept.lanesLost s p _ (by simp)

/-! ### OFF (R84) -/

theorem State.phyOffNow_eq : s.phyOffNow p =
    ((((s.goneDown p).phyGo p phOff).setb .phy (phyStatus p) 17 false).onPhy p PhyPort.idle).lanesLost p := rfl

theorem RegsKept.phyOffNow : RegsKept .phy (downRegs p) s (s.phyOffNow p) := by
  rw [State.phyOffNow_eq]
  exact ((RegsKept.goneDown s p).mono (by simp +contextual)).trans (((RegsKept.phyGo _ p phOff (by simp)).trans
    (.setb _ _ 17 false (by simp))).trans ((RegsKept.onPhy _ p _).trans ((RegsKept.lanesLost _ p).mono (by simp))))

theorem Kept.phyOffNow : Kept portBlks s (s.phyOffNow p) := by
  rw [State.phyOffNow_eq]
  exact (Kept.goneDown s p).trans (((Kept.phyGo _ p phOff).mono (by simp)).trans ((Kept.setb _ .phy _ 17 false (by simp)).trans
    ((Kept.onPhy _ p _ (by simp)).trans ((Kept.lanesLost _ p).mono (by simp)))))

theorem portState_phyOffNow : portState (s.phyOffNow p) p = phOff := by
  rw [State.phyOffNow_eq, portState_congr (State.rd_lanesLost_status _ p), portState_congr (State.rd_onPhy _ _ _ _ _)]
  simp

theorem inBackoff_phyOffNow : inBackoff (s.phyOffNow p) p = false := by
  rw [State.phyOffNow_eq, inBackoff_congr (State.rd_lanesLost_status _ p), inBackoff_congr (State.rd_onPhy _ _ _ _ _)]
  exact State.flag_setb_same _ _ _ _ _ (by decide)

/-! ### DETECT (R83, R84) -/

/-- DETECT is entered with the stored settings; what the lanes hold is not told off yet. -/
def State.detectNow : State :=
  let c := s.rd .phy (phyCtrl p)
  let s := ((s.phyGo p phDetect).setb .phy (phyStatus p) 17 false).setb .phy (phyStatus p) 20 false
  s.onPhy p (fun x => { x.idle with
    rate := bits c 29 28, lanes := bits c 27 27, precode := bits c 26 25,
    autoPol := bit c 18, autoSwap := bit c 17, sigFrom := s.now, frameAt := nextOn (portFramePs p) x.phase (s.now * 1000)
    dataReq := false, dataOn := false })

theorem Kept.phyDetect_lanesLost : Kept [.lnk] ((s.detectNow p).lanesLost p) (s.phyDetect p) :=
  .ite ((Kept.freshLanes _ p).trans (.put _ .lnk _ 15 0 0 (by simp))) (.freshLanes _ p)

theorem RegsKept.detectNow : RegsKept .phy [phyStatus p] s (s.detectNow p) :=
  ((RegsKept.phyGo s p phDetect (by simp)).trans ((RegsKept.setb _ _ 17 false (by simp)).trans
    (.setb _ _ 20 false (by simp)))).trans (.onPhy _ p _)

theorem Kept.detectNow : Kept [.phy] s (s.detectNow p) :=
  ((Kept.phyGo s p phDetect).trans ((Kept.setb _ .phy _ 17 false (by simp)).trans
    (.setb _ .phy _ 20 false (by simp)))).trans (.onPhy _ p _ (by simp))

theorem RegsKept.phyDetect : RegsKept .phy (laneRegs p ++ [phyStatus p]) s (s.phyDetect p) :=
  ((RegsKept.detectNow s p).mono (by simp)).trans (((RegsKept.lanesLost _ p).mono (by simp)).trans
    ((Kept.phyDetect_lanesLost s p).regsKept (by simp) _))

theorem Kept.phyDetect : Kept [.phy, .lnk] s (s.phyDetect p) :=
  ((Kept.detectNow s p).mono (by simp)).trans ((Kept.lanesLost _ p).trans ((Kept.phyDetect_lanesLost s p).mono (by simp)))

theorem State.rd_phyDetect_status : (s.phyDetect p).rd .phy (phyStatus p) = (s.detectNow p).rd .phy (phyStatus p) :=
  ((Kept.phyDetect_lanesLost s p).regsKept (by simp) [] _ (by simp)).trans (State.rd_lanesLost_status _ p)

theorem State.phyPort_phyDetect : (s.phyDetect p).phyPort p = (s.detectNow p).phyPort p :=
  ((Kept.phyDetect_lanesLost s p).phyPort (by simp) p).trans (State.phyPort_lanesLost _ p p)

theorem portState_phyDetect : portState (s.phyDetect p) p = phDetect := by
  rw [portState_congr (State.rd_phyDetect_status s p), State.detectNow, portState_congr (State.rd_onPhy _ _ _ _ _)]
  simp

theorem inBackoff_phyDetect : inBackoff (s.phyDetect p) p = false := by
  rw [inBackoff_congr (State.rd_phyDetect_status s p), State.detectNow, inBackoff_congr (State.rd_onPhy _ _ _ _ _), inBackoff,
    State.flag_setb_bit _ _ _ _ _ _ (by decide), State.flag_setb_same _ _ _ _ _ (by decide)]

/-- The settings that a port takes at DETECT (R83). -/
theorem State.settings_phyDetect : ((s.phyDetect p).phyPort p).entered = s.now ∧
    ((s.phyDetect p).phyPort p).rate = s.fld .phy (phyCtrl p) 29 28 ∧
    ((s.phyDetect p).phyPort p).lanes = s.fld .phy (phyCtrl p) 27 27 ∧
    ((s.phyDetect p).phyPort p).autoPol = s.flag .phy (phyCtrl p) 18 := by
  rw [State.phyPort_phyDetect, State.detectNow]
  simp [PhyPort.idle, State.fld, State.flag]

/-! ### The start of a port (R83, R89) -/

/-- The transmitter has started: its phase and its generators hold free values. -/
theorem State.phyStart_of_powered (h₂ : s.fld .pwr PWR_STATUS 31 28 ≠ 2) (h₄ : s.fld .pwr PWR_STATUS 31 28 ≠ 4) :
    ∃ u : State, (BlocksKept [.phy, .lnk] s u ∧ RegsKept .phy [] s u) ∧ s.phyStart p = u.phyDetect p := by
  let d := s.draw.draw.draw.draw
  have hdrawn : BlocksKept [.phy, .lnk] s d :=
    ((BlocksKept.draw _ s).trans (.draw _ _)).trans ((BlocksKept.draw _ _).trans (.draw _ _))
  refine ⟨_, ⟨hdrawn.trans ((Kept.onPhy d p _ (by simp)).trans (.onLnk _ p _ (by simp))).blocks, ?_⟩,
    if_neg (by simp [h₂, h₄])⟩
  exact (RegsKept.onPhy d p _).trans (.onLnk _ p _)

/-! ### Back-off and failure (R85) -/

theorem State.phyBackoffFor_eq (ns : Nat) : s.phyBackoffFor p ns =
    (((((s.goneDown p).phyGo p phDetect).setb .phy (phyStatus p) 17 true)).onPhy p
      (fun x => { x.idle with backoffEnd := (s.goneDown p).now + ns })).lanesLost p := rfl

theorem RegsKept.phyBackoffFor (ns : Nat) : RegsKept .phy (downRegs p) s (s.phyBackoffFor p ns) := by
  rw [State.phyBackoffFor_eq]
  exact ((RegsKept.goneDown s p).mono (by simp +contextual)).trans (((RegsKept.phyGo _ p phDetect (by simp)).trans
    (.setb _ _ 17 true (by simp))).trans ((RegsKept.onPhy _ p _).trans ((RegsKept.lanesLost _ p).mono (by simp))))

theorem Kept.phyBackoffFor (ns : Nat) : Kept portBlks s (s.phyBackoffFor p ns) := by
  rw [State.phyBackoffFor_eq]
  exact (Kept.goneDown s p).trans (((Kept.phyGo _ p phDetect).mono (by simp)).trans ((Kept.setb _ .phy _ 17 true (by simp)).trans
    ((Kept.onPhy _ p _ (by simp)).trans ((Kept.lanesLost _ p).mono (by simp)))))

theorem portState_phyBackoffFor (ns : Nat) : portState (s.phyBackoffFor p ns) p = phDetect := by
  rw [State.phyBackoffFor_eq, portState_congr (State.rd_lanesLost_status _ p), portState_congr (State.rd_onPhy _ _ _ _ _)]
  simp

theorem inBackoff_phyBackoffFor (ns : Nat) : inBackoff (s.phyBackoffFor p ns) p = true := by
  rw [State.phyBackoffFor_eq, inBackoff_congr (State.rd_lanesLost_status _ p), inBackoff_congr (State.rd_onPhy _ _ _ _ _)]
  exact State.flag_setb_same _ _ _ _ _ (by decide)

theorem State.backoffEnd_phyBackoffFor (ns : Nat) : ((s.phyBackoffFor p ns).phyPort p).backoffEnd = s.now + ns := by
  rw [State.phyBackoffFor_eq, State.phyPort_lanesLost, State.onPhy_phyPort_same, State.now,
    (Kept.goneDown s p).time_eq (by simp)]

/-- Behind the back-off a failure writes CAUSE, k and the attempt counter. -/
def State.failNoted (cause k : Nat) : State :=
  let u := (s.put .phy (phyStatus p) 27 24 cause).put .phy (phyBackoff p) 3 0 k
  u.wr .phy (phyAttempt p) (satAttempt (u.rd .phy (phyAttempt p)))

theorem State.phyFail_eq (cause : Nat) : s.phyFail p cause =
    (s.phyBackoffFor p (backoffNs (capNat 15 (s.fld .phy (phyBackoff p) 3 0 + 1)))).failNoted p cause
      (capNat 15 (s.fld .phy (phyBackoff p) 3 0 + 1)) := rfl

theorem State.rd_failNoted_status (cause k : Nat) :
    (s.failNoted p cause k).rd .phy (phyStatus p) = putBits (s.rd .phy (phyStatus p)) 27 24 cause := by
  simp [State.failNoted, State.rd_put]

theorem State.fld_failNoted_backoff (cause : Nat) {k : Nat} (hk : k < 16) :
    (s.failNoted p cause k).fld .phy (phyBackoff p) 3 0 = k := by
  simp [State.failNoted, State.fld, State.rd_put, Nat.mod_eq_of_lt hk]

theorem Kept.failNoted (cause k : Nat) : Kept [.phy] s (s.failNoted p cause k) :=
  ((Kept.put s .phy _ 27 24 cause (by simp)).trans (.put _ .phy _ 3 0 k (by simp))).trans (.wr _ .phy _ _ (by simp))

theorem State.phyPort_failNoted (cause k : Nat) : (s.failNoted p cause k).phyPort p = s.phyPort p := by
  simp [State.failNoted]

theorem Kept.phyFail (cause : Nat) : Kept portBlks s (s.phyFail p cause) :=
  (Kept.phyBackoffFor s p _).trans ((Kept.failNoted _ p cause _).mono (by simp))

theorem failedTraining_phyFail {cause : Nat} (hc : cause < 16) : FailedTraining p cause s (s.phyFail p cause) := by
  have hk : capNat 15 (s.fld .phy (phyBackoff p) 3 0 + 1) < 16 := by
    unfold capNat
    split <;> omega
  rw [State.phyFail_eq]
  refine ⟨?_, ?_, ?_, State.fld_failNoted_backoff _ p cause hk, ?_⟩
  · rw [portState, State.fld, State.rd_failNoted_status, bits_putBits_ne _ _ _ _ _ _ (by decide)]
    exact portState_phyBackoffFor s p _
  · rw [inBackoff, State.flag, State.rd_failNoted_status, bit_putBits_ne _ _ _ _ _ (by decide)]
    exact inBackoff_phyBackoffFor s p _
  · rw [State.fld, State.rd_failNoted_status]
    exact (bits_putBits_same _ _ _ _ (by decide) (by decide)).trans (Nat.mod_eq_of_lt hc)
  · rw [State.phyPort_failNoted, State.backoffEnd_phyBackoffFor]

/-! ### RETRAIN (R82, R91) -/

theorem State.retrain_of_off (h : portState s p = phOff) : s.retrain p = s := if_pos h

theorem State.retrain_of_training (hlo : 1 ≤ portState s p) (hhi : portState s p ≤ 6) :
    s.retrain p = (s.put .phy (phyBackoff p) 3 0 0).phyDetect p := by
  have hup : portUp (s.put .phy (phyBackoff p) 3 0 0) p = false := by
    rw [portUp_congr (State.rd_put_phyAt s (by decide) 3 0 0), portUp]
    exact decide_eq_false (by omega)
  rw [State.retrain, if_neg (fun h => by simp [h] at hlo), if_neg (by simp [hup])]

theorem State.retrain_of_up (h : portUp s p = true) :
    s.retrain p = (s.put .phy (phyBackoff p) 3 0 0).phyBackoffFor p 16000000 := by
  have hne : ¬ portState s p = phOff := fun h0 => by simp [portUp, h0] at h
  rw [State.retrain, if_neg hne, if_pos ((portUp_congr (State.rd_put_phyAt s (by decide) 3 0 0)).trans h)]

/-! ### RECOVER (R84, R91) -/

/-- RECOVER is entered and counted; the markers are not forgotten yet. -/
def State.recoverNow : State :=
  let s := s.leaveActive p
  let s := if p < 24 then s.closePort p else s
  let s := (s.phyGo p phRecover).count .phy (phyRecover p)
  s.onPhy p (fun x => { x with quietReq := none, quietExit := none })

/-- The lines of a camera port that leaves ACTIVE for RECOVER close. -/
theorem Kept.closed (u : State) : Kept [.lnk, .pix, .pwr] u (if p < 24 then u.closePort p else u) :=
  .ite (.closePort u p) (.refl _ u)

theorem State.enterRecover_eq : s.enterRecover p =
    ((s.recoverNow p).dropLocks p).onLnk p (fun x => { x with await := true }) := rfl

theorem RegsKept.recoverNow : RegsKept .phy (scanRegs p ++ [phyStatus p, phyRecover p]) s (s.recoverNow p) := by
  unfold State.recoverNow
  exact ((RegsKept.leaveActive s p).mono (by simp)).trans (((Kept.closed p _).regsKept (by simp) _).trans
    (((RegsKept.phyGo _ p phRecover (by simp)).trans (.count _ _ (by simp))).trans (.onPhy _ p _)))

theorem Kept.recoverNow : Kept [.phy, .lnk, .pix, .pwr] s (s.recoverNow p) := by
  unfold State.recoverNow
  exact ((RegsOnly.leaveActive s p).kept (by simp)).trans (((Kept.closed p _).mono (by simp)).trans
    ((((Kept.phyGo _ p phRecover).mono (by simp)).trans (.count _ .phy _ (by simp))).trans (.onPhy _ p _ (by simp))))

theorem portState_recoverNow : portState (s.recoverNow p) p = phRecover := by
  unfold State.recoverNow
  rw [portState_congr (State.rd_onPhy _ _ _ _ _), portState_congr (State.rd_count_phyAt _ (by decide)), portState_phyGo]
  rfl

theorem State.rd_recoverNow_count : (s.recoverNow p).rd .phy (phyRecover p) = satAdd (s.rd .phy (phyRecover p)) 1 := by
  unfold State.recoverNow
  extract_lets u v w
  have hu : u.rd .phy (phyRecover p) = s.rd .phy (phyRecover p) := RegsKept.leaveActive s p _ (by simp)
  have hv : v.rd .phy (phyRecover p) = u.rd .phy (phyRecover p) := (Kept.closed p u).regsKept (by simp) [] _ (by simp)
  have hw : (v.phyGo p phRecover).rd .phy (phyRecover p) = v.rd .phy (phyRecover p) :=
    RegsKept.phyGo v p phRecover (as := [phyStatus p]) (by simp) _ (by simp)
  rw [State.rd_onPhy, State.rd_count, hw, hv, hu]

theorem State.entered_recoverNow : ((s.recoverNow p).phyPort p).entered = s.now := by
  unfold State.recoverNow
  extract_lets u v w
  have htime : v.time = s.time :=
    ((Kept.closed p u).time_eq (by simp)).trans (((RegsOnly.leaveActive s p).kept (bs := [.phy]) (by simp)).time_eq (by simp))
  rw [State.onPhy_phyPort_same, State.count_phyPort, State.phyPort_phyGo, State.now, htime]

theorem Kept.enterRecover : Kept [.phy, .lnk, .pix, .pwr] s (s.enterRecover p) := by
  rw [State.enterRecover_eq]
  exact (Kept.recoverNow s p).trans (((Kept.dropLocks _ p).mono (by simp)).trans (.onLnk _ p _ (by simp)))

theorem State.rd_enterRecover {a : Nat} (h : a ∉ laneRegs p) : (s.enterRecover p).rd .phy a = (s.recoverNow p).rd .phy a := by
  rw [State.enterRecover_eq, State.rd_onLnk]
  exact RegsKept.dropLocks _ p a h

theorem portState_enterRecover : portState (s.enterRecover p) p = phRecover := by
  rw [portState_congr (State.rd_enterRecover s p (by simp)), portState_recoverNow]

theorem State.rd_enterRecover_count : (s.enterRecover p).rd .phy (phyRecover p) = satAdd (s.rd .phy (phyRecover p)) 1 := by
  rw [State.rd_enterRecover s p (by simp), State.rd_recoverNow_count]

theorem State.entered_enterRecover : ((s.enterRecover p).phyPort p).entered = s.now := by
  rw [State.enterRecover_eq, State.onLnk_phyPort, State.phyPort_dropLocks, State.entered_recoverNow]

theorem State.await_enterRecover : ((s.enterRecover p).lnkPort p).await = true := by
  rw [State.enterRecover_eq, State.onLnk_lnkPort_same]

end

end Sys2Proof.Machine

end

/-! ## Writes to a physical page -/

section

namespace Sys2Proof.Machine

theorem Kept.rd_eq {bs : List Blk} {s t : State} (h : Kept bs s t) {b : Blk} (hb : b ∉ bs) (a : Nat) : t.rd b a = s.rd b a :=
  h.regsKept hb [] a (by simp)

/-- DLP_STATUS has changed in its CFG_ERR at most. -/
def StatusStays (p : Nat) (s t : State) : Prop :=
  t.rd .phy (phyStatus p) = s.rd .phy (phyStatus p) ∨ t.rd .phy (phyStatus p) = putBit (s.rd .phy (phyStatus p)) 7 true

section
variable {p : Nat} {s t : State} (h : StatusStays p s t)
include h

theorem StatusStays.portState : portState t p = portState s p := by
  rcases h with h | h
  · exact portState_congr h
  · rw [Machine.portState, State.fld, h]
    exact bits_putBit_ne _ _ _ _ _ (by decide)

theorem StatusStays.flag {i : Nat} (hi : i ≠ 7) : t.flag .phy (phyStatus p) i = s.flag .phy (phyStatus p) i := by
  rcases h with h | h
  · rw [State.flag, h, State.flag]
  · rw [State.flag, h]
    exact bit_putBit_ne _ _ _ _ hi

theorem StatusStays.refOk : refOk t p = refOk s p := by rw [Machine.refOk, h.flag (by decide), Machine.refOk]

theorem StatusStays.setb : StatusStays p s (t.setb .phy (phyStatus p) 7 true) := by
  have htwice : ∀ v : Word, putBit (putBit v 7 true) 7 true = putBit v 7 true := by
    intro v
    apply BitVec.eq_of_getLsbD_eq
    intro i hi
    by_cases h7 : i = 7
    · subst h7
      exact (bit_putBit_same _ 7 true hi).trans (bit_putBit_same _ 7 true hi).symm
    · exact bit_putBit_ne _ 7 i true h7
  right
  rw [State.rd_setb]
  rcases h with h | h <;> rw [h]
  exact htwice _

end

/-- The unit whose page a port's physical registers stand in (R82, R333). -/
def phyUnit (p : Nat) : UnitRow := if p < 24 then unitDlp else unitCvy

theorem ignore_phyUnit (p : Nat) : (phyUnit p).ignore = false := by
  unfold phyUnit
  split <;> rfl

/-- Every register of a physical page has its CFG_ERR in DLP_STATUS. -/
theorem cfgErrAt_phyUnit (p : Nat) {o : Nat} (ho : o < 0x1000) : (phyUnit p).cfgErrAt (phyAt p o) = some (phyStatus p, 7) := by
  unfold phyUnit
  split
  case isTrue hp =>
    have hidx : unitDlp.index (phyAt p o) = p := by
      rw [UnitRow.index, show unitDlp.base = 0x200000 from rfl, show unitDlp.stride = 0x1000 from rfl, phyAt, if_pos hp]
      simp only [DLP_CTRL]
      omega
    have hdef : unitDlp.cfgErrAt (phyAt p o) = some (0x200004 + 0x1000 * unitDlp.index (phyAt p o), 7) := rfl
    rw [hdef, hidx, phyStatus, phyAt, if_pos hp, DLP_CTRL]
    congr 2
    omega
  case isFalse hp =>
    have hidx : unitCvy.index (phyAt p o) = p - 24 := by
      rw [UnitRow.index, show unitCvy.base = 0xF10000 from rfl, show unitCvy.stride = 0x1000 from rfl, phyAt, if_neg hp]
      simp only [CVY_CTRL]
      omega
    have hdef : unitCvy.cfgErrAt (phyAt p o) = some (0xF10004 + 0x1000 * unitCvy.index (phyAt p o), 7) := rfl
    rw [hdef, hidx, phyStatus, phyAt, if_neg hp, CVY_CTRL]
    congr 2
    omega

section
variable {p o : Nat} {row : RegRow} (h : regAt (phyAt p o) = some (phyUnit p, row)) (hk : row.kind = .plain) (ho : o < 0x1000)
  (s : State) (v : Word)
include h hk ho

theorem RegsKept.store_phy : RegsKept .phy [phyAt p o, phyStatus p] s (s.store .phy (phyAt p o) v) :=
  .store_plain h hk (cfgErrAt_phyUnit p ho) s .phy v (by simp) (by simp)

theorem State.store_phy : s.store .phy (phyAt p o) v = if (row.write false (s.rd .phy (phyAt p o)) v).2 = true
    then (s.wr .phy (phyAt p o) (row.write false (s.rd .phy (phyAt p o)) v).1).setb .phy (phyStatus p) 7 true
    else s.wr .phy (phyAt p o) (row.write false (s.rd .phy (phyAt p o)) v).1 := by
  rw [State.store_of_plain h hk (cfgErrAt_phyUnit p ho), ignore_phyUnit]

theorem State.rd_store_phy (hne : o ≠ 4) :
    (s.store .phy (phyAt p o) v).rd .phy (phyAt p o) = (row.write false (s.rd .phy (phyAt p o)) v).1 := by
  rw [State.rd_store_plain h hk (cfgErrAt_phyUnit p ho) s .phy v (by simpa using hne), ignore_phyUnit]

theorem StatusStays.store (hne : o ≠ 4) : StatusStays p s (s.store .phy (phyAt p o) v) := by
  rw [State.store_phy h hk ho]
  split
  · right
    rw [State.rd_setb, State.rd_wr_phyAt _ (Ne.symm hne)]
  · left
    exact State.rd_wr_phyAt _ (Ne.symm hne) _

end

/-! ### DLP_CTRL (R82, R83, R84, R98) -/

/-- DLP_CTRL and CVN_PHY_CTRL. -/
def rowPhyCtrl (p : Nat) : RegRow := ⟨0x0, 0x0, 1, .plain, if p < 24 then 0x3A560000 else 0x32560000,
  [fRow 31 31 .rw, fRow 30 30 .wo, fRow 29 28 .rw, fRow 27 27 .rw, ⟨26, 25, .rw, none, false, [3]⟩, fRow 24 24 .rw,
    fRow 23 23 .rw, fRow 22 22 .rw, fRow 21 19 .rw, fRow 18 18 .rw, fRow 17 17 .rw]⟩

theorem regAt_phyCtrl : ∀ p : Fin 28, regAt (phyCtrl p) = some (phyUnit p, rowPhyCtrl p) := by decide +kernel

section
variable (s : State) (p : Nat) (v : Word)

/-- A write to DLP_CTRL is stored; the fixed fields of a span port stay, with CFG_ERR (R333). -/
def State.ctrlStored : State :=
  let old := s.rd .phy (phyCtrl p)
  let fixed : Word := maskOf 29 24
  let w := if p < 24 then v else (v &&& ~~~ fixed) ||| (old &&& fixed)
  let s := s.store .phy (phyCtrl p) w
  if 24 ≤ p ∧ (v ^^^ old) &&& fixed ≠ 0#32 then s.setb .phy (phyStatus p) 7 true else s

/-- A port that starts has no test pattern on its lanes (R98). -/
def State.prbsOff : State :=
  let s := (s.put .phy (phyLane p 0 0x40) 31 31 0).put .phy (phyLane p 1 0x40) 31 31 0
  let s := (s.setb .phy (phyLane p 0 0x40) 26 false).setb .phy (phyLane p 0 0x40) 25 false
  (s.setb .phy (phyLane p 1 0x40) 26 false).setb .phy (phyLane p 1 0x40) 25 false

theorem Kept.ctrlStored : Kept [.phy] s (s.ctrlStored p v) :=
  .ite ((Kept.store s .phy _ _ (by simp)).trans (.setb _ .phy _ 7 true (by simp))) (.store s .phy _ _ (by simp))

theorem StatusStays.ctrlStored (p : Fin 28) : StatusStays p s (s.ctrlStored p v) := by
  have hstore : ∀ w, StatusStays p s (s.store .phy (phyCtrl p) w) := fun w =>
    .store (regAt_phyCtrl p) rfl (by decide) s w (by decide)
  unfold State.ctrlStored
  extract_lets old fixed w u
  split
  · exact (hstore w).setb
  · exact hstore w

theorem Kept.prbsOff : Kept [.phy] s (s.prbsOff p) :=
  ((Kept.put s .phy _ 31 31 0 (by simp)).trans (.put _ .phy _ 31 31 0 (by simp))).trans
    (((Kept.setb _ .phy _ 26 false (by simp)).trans (.setb _ .phy _ 25 false (by simp))).trans
      ((Kept.setb _ .phy _ 26 false (by simp)).trans (.setb _ .phy _ 25 false (by simp))))

theorem RegsKept.prbsOff : RegsKept .phy [phyLane p 0 0x40, phyLane p 1 0x40] s (s.prbsOff p) :=
  ((RegsKept.put s _ 31 31 0 (by simp)).trans (.put _ _ 31 31 0 (by simp))).trans
    (((RegsKept.setb _ _ 26 false (by simp)).trans (.setb _ _ 25 false (by simp))).trans
      ((RegsKept.setb _ _ 26 false (by simp)).trans (.setb _ _ 25 false (by simp))))

/-- Clearing EN stops the port; RETRAIN in the same write finds it in OFF. -/
theorem State.phyCtrlWrite_of_clear (hv : bit v 31 = false) (hon : s.flag .phy (phyCtrl p) 31 = true) :
    s.phyCtrlWrite p v = (s.ctrlStored p v).phyOffNow p := by
  have hold : bit (s.rd .phy (phyCtrl p)) 31 = true := hon
  have hstop : s.phyCtrlWrite p v =
      if bit v 30 then ((s.ctrlStored p v).phyOffNow p).retrain p else (s.ctrlStored p v).phyOffNow p := by
    simp only [State.phyCtrlWrite, hv, hold, Bool.false_and, Bool.not_false, Bool.and_self, Bool.false_eq_true, if_false, if_true]
    rfl
  rw [hstop, State.retrain_of_off _ _ (portState_phyOffNow _ p), ite_self]

/-- Setting EN with the reference present starts the port. -/
theorem State.phyCtrlWrite_of_set {p : Fin 28} (hv : bit v 31 = true) (hre : bit v 30 = false) (hoff : s.flag .phy (phyCtrl p) 31 = false)
    (href : refOk s p = true) : s.phyCtrlWrite p v = ((s.ctrlStored p v).prbsOff p).phyStart p := by
  have hold : bit (s.rd .phy (phyCtrl p)) 31 = false := hoff
  have hok : refOk ((s.ctrlStored p v).prbsOff p) p = true :=
    (refOk_congr (RegsKept.prbsOff _ p _ (by simp))).trans ((StatusStays.ctrlStored s v p).refOk.trans href)
  have hstart : s.phyCtrlWrite p v = if refOk ((s.ctrlStored p v).prbsOff p) p then ((s.ctrlStored p v).prbsOff p).phyStart p
      else (s.ctrlStored p v).prbsOff p := by
    simp only [State.phyCtrlWrite, hv, hre, hold, Bool.not_false, Bool.and_self, Bool.false_eq_true, if_false, if_true]
    rfl
  rw [hstart, if_pos hok]

end

/-! ### Links of spans (R335) -/

section
variable (s s₀ : State) (p : Nat)

theorem State.linkCheck_of_camera {p : Nat} {s₀ : State} (h : p < 24 ∨ portState s₀ p ≠ phActive) : s.linkCheck s₀ p = s :=
  if_neg fun ⟨hp, hact, _⟩ => h.elim (fun hlt => absurd hp (by omega)) (fun hne => hne hact)

theorem State.rd_linkCheck (a : Nat) : (s.linkCheck s₀ p).rd .phy a = s.rd .phy a :=
  (Kept.linkCheck s s₀ p).rd_eq (by simp) a

theorem State.phyPort_linkCheck (q : Nat) : (s.linkCheck s₀ p).phyPort q = s.phyPort q :=
  (Kept.linkCheck s s₀ p).phyPort (by simp) q

theorem portState_linkCheck (q : Nat) : portState (s.linkCheck s₀ p) q = portState s q := portState_congr (s.rd_linkCheck s₀ p _)

theorem inBackoff_linkCheck (q : Nat) : inBackoff (s.linkCheck s₀ p) q = inBackoff s q := inBackoff_congr (s.rd_linkCheck s₀ p _)

end

end Sys2Proof.Machine

end

/-! ## Training: each event of the state machine -/

section

namespace Sys2Proof.Machine

/-! ### EN and RETRAIN (R82, R84) -/

section
variable {p : Fin 28} {v : Word} {s : State}

theorem portEnWrite_stops (hv : bit v 31 = false) (hon : s.flag .phy (phyCtrl p) 31 = true) : ∃ t,
    exec (.portEnWrite p v) s = .next t ∧ portState t p = phOff ∧ inBackoff t p = false ∧
      (p.val < 24 ∨ portState s p ≠ phActive → BlocksKept portBlks s t) := by
  have hrun : exec (.portEnWrite p v) s = .next (((s.ctrlStored p v).phyOffNow p).linkCheck s p) :=
    congrArg (fun u : State => Host.Outcome.next (u.linkCheck s p)) (s.phyCtrlWrite_of_clear p v hv hon)
  refine ⟨_, hrun, ?_, ?_, fun h => ?_⟩
  · rw [portState_linkCheck, portState_phyOffNow]
  · rw [inBackoff_linkCheck, inBackoff_phyOffNow]
  · rw [State.linkCheck_of_camera _ h]
    exact (((Kept.ctrlStored s p v).mono (by simp)).trans (.phyOffNow _ p)).blocks

theorem portEnWrite_starts (hv : bit v 31 = true) (hre : bit v 30 = false) (hoff : s.flag .phy (phyCtrl p) 31 = false)
    (href : refOk s p = true) (h₂ : s.fld .pwr PWR_STATUS 31 28 ≠ 2) (h₄ : s.fld .pwr PWR_STATUS 31 28 ≠ 4) : ∃ t,
    exec (.portEnWrite p v) s = .next t ∧ portState t p = phDetect ∧ inBackoff t p = false ∧
      (t.phyPort p).entered = s.now ∧ (t.phyPort p).rate = t.fld .phy (phyCtrl p) 29 28 ∧
      (t.phyPort p).lanes = t.fld .phy (phyCtrl p) 27 27 ∧ (t.phyPort p).autoPol = t.flag .phy (phyCtrl p) 18 ∧
      (p.val < 24 ∨ portState s p ≠ phActive → BlocksKept [.phy, .lnk] s t) := by
  have hset : Kept [.phy] s ((s.ctrlStored p v).prbsOff p) := (Kept.ctrlStored s p v).trans (.prbsOff _ p)
  have hpwr : ((s.ctrlStored p v).prbsOff p).fld .pwr PWR_STATUS 31 28 = s.fld .pwr PWR_STATUS 31 28 :=
    congrArg (bits · 31 28) (hset.rd_eq (by simp) _)
  obtain ⟨u, ⟨hu, -⟩, hstart⟩ := State.phyStart_of_powered ((s.ctrlStored p v).prbsOff p) p (hpwr ▸ h₂) (hpwr ▸ h₄)
  have hblocks : BlocksKept [.phy, .lnk] s u := (hset.mono (by simp)).blocks.trans hu
  have hrun : exec (.portEnWrite p v) s = .next ((u.phyDetect p).linkCheck s p) :=
    congrArg (fun u : State => Host.Outcome.next (u.linkCheck s p)) ((s.phyCtrlWrite_of_set v hv hre hoff href).trans hstart)
  have hctrl : ((u.phyDetect p).linkCheck s p).rd .phy (phyCtrl p) = u.rd .phy (phyCtrl p) :=
    (State.rd_linkCheck _ _ _ _).trans (RegsKept.phyDetect u p _ (by simp))
  obtain ⟨hent, hrate, hlanes, hpol⟩ := u.settings_phyDetect p
  refine ⟨_, hrun, ?_, ?_, ?_, ?_, ?_, ?_, fun h => ?_⟩
  · rw [portState_linkCheck, portState_phyDetect]
  · rw [inBackoff_linkCheck, inBackoff_phyDetect]
  · rw [State.phyPort_linkCheck, hent, State.now, hblocks.1 (by simp)]
  · rw [State.phyPort_linkCheck, hrate, State.fld, State.fld, hctrl]
  · rw [State.phyPort_linkCheck, hlanes, State.fld, State.fld, hctrl]
  · rw [State.phyPort_linkCheck, hpol, State.flag, State.flag, hctrl]
  · rw [State.linkCheck_of_camera _ h]
    exact hblocks.trans (Kept.phyDetect u p).blocks

theorem retrain_off (h : portState s p = phOff) : exec (.retrain p) s = .next s := by
  have hrun : exec (.retrain p) s = .next (s.linkCheck s p) :=
    congrArg (fun u : State => Host.Outcome.next (u.linkCheck s p)) (s.retrain_of_off p h)
  rw [hrun, State.linkCheck_of_camera s (.inr (by rw [h]; decide))]

theorem retrain_restarts (hlo : 1 ≤ portState s p) (hhi : portState s p ≤ 6) : ∃ t, exec (.retrain p) s = .next t ∧
    portState t p = phDetect ∧ inBackoff t p = false ∧ t.fld .phy (phyBackoff p) 3 0 = 0 ∧ Kept [.phy, .lnk] s t := by
  have hrun : exec (.retrain p) s = .next (((s.put .phy (phyBackoff p) 3 0 0).phyDetect p).linkCheck s p) :=
    congrArg (fun u : State => Host.Outcome.next (u.linkCheck s p)) (s.retrain_of_training p hlo hhi)
  rw [State.linkCheck_of_camera _ (.inr fun h => absurd (h ▸ hhi) (by decide))] at hrun
  refine ⟨_, hrun, portState_phyDetect _ p, inBackoff_phyDetect _ p, ?_, (Kept.put s .phy _ 3 0 0 (by simp)).trans (.phyDetect _ p)⟩
  rw [State.fld, RegsKept.phyDetect _ p _ (by simp), ← State.fld]
  exact State.fld_put_same _ _ _ _ _ _ (by decide) (by decide)

theorem retrain_backsOff (hup : portUp s p = true) : ∃ t, exec (.retrain p) s = .next t ∧
    portState t p = phDetect ∧ inBackoff t p = true ∧ t.fld .phy (phyBackoff p) 3 0 = 0 ∧
      (t.phyPort p).backoffEnd = s.now + 16000000 ∧
      (p.val < 24 ∨ portState s p ≠ phActive → BlocksKept portBlks s t) := by
  have hrun : exec (.retrain p) s = .next (((s.put .phy (phyBackoff p) 3 0 0).phyBackoffFor p 16000000).linkCheck s p) :=
    congrArg (fun u : State => Host.Outcome.next (u.linkCheck s p)) (s.retrain_of_up p hup)
  refine ⟨_, hrun, ?_, ?_, ?_, ?_, fun h => ?_⟩
  · rw [portState_linkCheck, portState_phyBackoffFor]
  · rw [inBackoff_linkCheck, inBackoff_phyBackoffFor]
  · rw [State.fld, State.rd_linkCheck, RegsKept.phyBackoffFor _ p _ _ (by simp), ← State.fld]
    exact State.fld_put_same _ _ _ _ _ _ (by decide) (by decide)
  · rw [State.phyPort_linkCheck, State.backoffEnd_phyBackoffFor]
    rfl
  · rw [State.linkCheck_of_camera _ h]
    exact ((Kept.put s .phy _ 3 0 0 (by simp)).trans (.phyBackoffFor _ p _)).blocks

end

/-! ### Training frames that Apnik sends (R80, R81, R333) -/

theorem PhyPort.seq_send (x : PhyPort) (f : Nat) : (x.send f).seq = if x.sent = f then x.seq else (x.seq + 1) % 256 := by
  unfold PhyPort.send
  split <;> rfl

theorem PhyPort.sent_send (x : PhyPort) (f : Nat) : (x.send f).sent = f := by
  unfold PhyPort.send
  split
  case isTrue h => exact h
  case isFalse => rfl

theorem PhyPort.dataReq_send (x : PhyPort) (f : Nat) : (x.send f).dataReq = x.dataReq := by
  unfold PhyPort.send
  split <;> rfl

theorem PhyPort.frameAt_send (x : PhyPort) (f : Nat) : (x.send f).frameAt = x.frameAt := by
  unfold PhyPort.send
  split <;> rfl

section
variable {p : Fin 28} {s : State} (hin : inTraining s p = true) (hbc : bcAlive s p = true) (hon : s.outputsOn = true)
  (hdue : (s.phyPort p).frameAt ≤ s.now * 1000)
include hin hbc hon hdue

theorem execBcTrainingFrame_of_due : exec (.bcTrainingFrame p) s = .next
    (if p.val < 24 then s.onPhy p (fun x => (x.send (requestField s p)).sendFrame)
      else if (s.phyPort p).dataOn then s
      else
        let s := s.onPhy p (fun x => (x.send (requestField s p)).sendRxFrame)
        if (s.phyPort p).dataOn then s.onLnk p LnkPort.startData else s) :=
  congrArg Host.Outcome.next (if_pos (by simp [hin, hbc, hon, hdue]))

theorem bcTrainingFrame_sends (hp : p.val < 24) : ∃ t, exec (.bcTrainingFrame p) s = .next t ∧
    (t.phyPort p).sent = requestField s p ∧ (t.phyPort p).frameAt = (s.phyPort p).frameAt + 327680 ∧
      (t.phyPort p).seq = (if (s.phyPort p).sent = requestField s p then (s.phyPort p).seq
        else ((s.phyPort p).seq + 1) % 256) ∧
      RegsKept .phy [] s t ∧ Kept [.phy] s t := by
  rw [execBcTrainingFrame_of_due hin hbc hon hdue, if_pos hp]
  refine ⟨_, rfl, ?_, ?_, ?_, .onPhy s p _, .onPhy s p _ (by simp)⟩ <;> rw [State.onPhy_phyPort_same]
  · exact PhyPort.sent_send _ _
  · exact congrArg (· + framePs) (PhyPort.frameAt_send _ _)
  · exact PhyPort.seq_send _ _

theorem bcTrainingFrame_silent (hp : 24 ≤ p.val) (hdata : (s.phyPort p).dataOn = true) :
    exec (.bcTrainingFrame p) s = .next s := by
  rw [execBcTrainingFrame_of_due hin hbc hon hdue, if_neg (by omega), if_pos hdata]

theorem bcTrainingFrame_spans (hp : 24 ≤ p.val) (hdata : (s.phyPort p).dataOn = false) : ∃ t,
    exec (.bcTrainingFrame p) s = .next t ∧ t.phyPort p = ((s.phyPort p).send (requestField s p)).sendRxFrame ∧
      (t.phyPort p).dataOn = (s.phyPort p).dataReq ∧
      RegsKept .phy [] s t ∧ RegsKept .lnk [] s t ∧ Kept [.phy, .lnk] s t := by
  rw [execBcTrainingFrame_of_due hin hbc hon hdue, if_neg (by omega), if_neg (by simp [hdata])]
  extract_lets u
  have hu : u.phyPort p = ((s.phyPort p).send (requestField s p)).sendRxFrame := State.onPhy_phyPort_same _ _ _
  have hport : (if (u.phyPort p).dataOn then u.onLnk p LnkPort.startData else u).phyPort p = u.phyPort p := by split <;> rfl
  have hsend : Kept [.phy, .lnk] s u := .onPhy s p _ (by simp)
  refine ⟨_, rfl, hport.trans hu, ?_, ?_, ?_, hsend.trans (.ite (.onLnk u p _ (by simp)) (.refl _ u))⟩
  · rw [hport, hu]
    exact PhyPort.dataReq_send _ _
  · exact (RegsKept.onPhy s p _).trans (.ite (.onLnk u p _) (.refl _ _ u))
  · exact (RegsKept.onPhy s p _).trans (.ite (.onLnk u p _) (.refl _ _ u))

end

/-! ### SIG and CDR of the lanes (R82, R84, R86) -/

theorem cfgLanes_lt {s : State} {p l : Nat} (h : l ∈ cfgLanes s p) : l < 2 := by
  unfold cfgLanes at h
  split at h <;> simp at h <;> omega

theorem cfgLanes_congr {s t : State} {p : Nat} (h : t.phyPort p = s.phyPort p) : cfgLanes t p = cfgLanes s p := by
  rw [cfgLanes, h, cfgLanes]

/-- A bit of a lane's status after it was set on one lane. -/
theorem State.flag_setb_lane (s : State) (p lane l i : Nat) (hi : i < 32) :
    (s.setb .phy (phyLane p lane 0) i true).flag .phy (phyLane p l 0) i =
      if l = lane then true else s.flag .phy (phyLane p l 0) i := by
  split
  case isTrue h => rw [h, State.flag_setb_same _ _ _ _ _ hi]
  case isFalse h => exact State.flag_setb_phyAt _ (by omega) _ _ _

/-- A lane's bit completes what the configured lanes show. -/
theorem lanesShow_setb (s : State) (p lane i : Nat) (hi : i < 32) : lanesShow (s.setb .phy (phyLane p lane 0) i true) p i = true ↔
    ∀ l ∈ cfgLanes s p, l = lane ∨ s.flag .phy (phyLane p l 0) i = true := by
  have hlanes : cfgLanes (s.setb .phy (phyLane p lane 0) i true) p = cfgLanes s p := cfgLanes_congr (by simp)
  unfold lanesShow
  rw [hlanes, List.all_eq_true]
  refine forall₂_congr fun l _ => ?_
  rw [State.flag_setb_lane _ _ _ _ _ hi]
  split <;> simp [*]

section
variable {p : Fin 28} {lane : Fin 2} {s : State}

theorem bcAlive_setb_lane (i : Nat) (x : Bool) : bcAlive (s.setb .phy (phyLane p lane 0) i x) p = bcAlive s p := by
  have hother : ∀ q : Nat, refOk (s.setb .phy (phyLane p lane 0) i x) q = refOk s q := fun q =>
    refOk_congr (s.rd_setb_ne .phy _ _ i x fun h => by
      have := (phyAt_eq_iff (by decide) (by omega)).mp h
      omega)
  rw [bcAlive, hother, hother, bcAlive]

section
variable (hst : portState s p = phDetect) (hback : inBackoff s p = false) (hconf : (cfgLanes s p).contains lane.val = true)
include hst hback hconf

theorem execSigDetected_of_detect : exec (.sigDetected p lane) s = .next
    (let s₁ := s.setb .phy (phyLane p lane 0) 4 true
     let s₂ := if !s.flag .phy (phyLane p lane 0) 4 then s₁.onPhy p (fun x => { x with sigFrom := s₁.now }) else s₁
     if bcAlive s₂ p ∧ lanesShow s₂ p 4 ∧ (s₂.phyPort p).sigFrom + 100000 ≤ s₂.now then s₂.phyGo p phAcquire else s₂) := by
  have hback' : inBackoff (s.setb .phy (phyLane p lane 0) 4 true) p = false :=
    (inBackoff_congr (s.rd_setb_phyAt (by omega) 4 true)).trans hback
  refine congrArg Host.Outcome.next ((if_neg (by simpa using hconf)).trans (if_pos ⟨hst, by simp [hback']⟩))

/-- The first sign of a signal starts the 100 us. -/
theorem sigDetected_first (hfirst : s.flag .phy (phyLane p lane 0) 4 = false) : ∃ t,
    exec (.sigDetected p lane) s = .next t ∧ portState t p = phDetect ∧ t.flag .phy (phyLane p lane 0) 4 = true ∧
      t.phyPort p = { s.phyPort p with sigFrom := s.now } ∧ RegsKept .phy [phyLane p lane 0] s t ∧ Kept [.phy] s t := by
  rw [execSigDetected_of_detect hst hback hconf]
  simp only [hfirst, Bool.not_false, if_true]
  rw [if_neg fun ⟨_, _, hlong⟩ => by
    rw [State.onPhy_phyPort_same] at hlong
    change s.now + 100000 ≤ s.now at hlong
    omega]
  refine ⟨_, rfl, ?_, ?_, ?_, (RegsKept.setb s _ 4 true (by simp)).trans (.onPhy _ p _),
    (Kept.setb s .phy _ 4 true (by simp)).trans (.onPhy _ p _ (by simp))⟩
  · rw [portState_congr (State.rd_onPhy _ _ _ _ _), portState_congr (s.rd_setb_phyAt (by omega) 4 true), hst]
  · rw [State.flag_onPhy, State.flag_setb_same _ _ _ _ _ (by decide)]
  · rw [State.onPhy_phyPort_same, State.setb_phyPort]
    rfl

theorem sigDetected_acquires (hbc : bcAlive s p = true) (hshow : lanesShow s p 4 = true)
    (hlong : (s.phyPort p).sigFrom + 100000 ≤ s.now) : ∃ t, exec (.sigDetected p lane) s = .next t ∧
      portState t p = phAcquire ∧ (t.phyPort p).entered = s.now ∧ RegsKept .phy [phyStatus p, phyLane p lane 0] s t ∧
      Kept [.phy] s t := by
  have hmem : lane.val ∈ cfgLanes s p := by simpa using hconf
  have hsig : s.flag .phy (phyLane p lane 0) 4 = true := by
    have hall := List.all_eq_true.mp hshow _ hmem
    exact hall
  have hshow' : lanesShow (s.setb .phy (phyLane p lane 0) 4 true) p 4 = true :=
    (lanesShow_setb s p lane 4 (by decide)).mpr fun l hl => .inr (List.all_eq_true.mp hshow l hl)
  rw [execSigDetected_of_detect hst hback hconf]
  simp only [hsig, Bool.not_true, Bool.false_eq_true, if_false]
  rw [if_pos ⟨(bcAlive_setb_lane 4 true).trans hbc, hshow', by rwa [State.setb_phyPort]⟩]
  refine ⟨_, rfl, portState_phyGo _ p phAcquire, ?_, (RegsKept.setb s _ 4 true (by simp)).trans (.phyGo _ p _ (by simp)),
    (Kept.setb s .phy _ 4 true (by simp)).trans (.phyGo _ p _)⟩
  rw [State.phyPort_phyGo]
  rfl

end

end

end Sys2Proof.Machine

end

/-! ## Training: requests, moves and frames received -/

section

namespace Sys2Proof.Machine

section
variable {p : Fin 28} {s : State}

theorem bcTrainingFrame_off (hoff : s.outputsOn = false) : exec (.bcTrainingFrame p) s = .next s :=
  congrArg Host.Outcome.next (if_neg (by simp [hoff]))

/-! ### CDR lock (R84) -/

theorem cdrLock_acquiring {lane : Fin 2} (hst : portState s p = phAcquire) (hconf : (cfgLanes s p).contains lane.val = true) : ∃ t,
    exec (.cdrLock p lane) s = .next t ∧ t.flag .phy (phyLane p lane 0) 3 = true ∧
      ((∀ l ∈ cfgLanes s p, l = lane.val ∨ s.flag .phy (phyLane p l 0) 3 = true) →
        portState t p = phLock ∧ (t.phyPort p).entered = s.now) ∧
      ((∃ l ∈ cfgLanes s p, l ≠ lane.val ∧ s.flag .phy (phyLane p l 0) 3 = false) → portState t p = phAcquire) ∧
      RegsKept .phy [phyStatus p, phyLane p lane 0] s t ∧ Kept [.phy] s t := by
  let u := s.setb .phy (phyLane p lane 0) 3 true
  have hrun : exec (.cdrLock p lane) s = .next (if lanesShow u p 3 then u.phyGo p phLock else u) :=
    congrArg Host.Outcome.next (if_pos ⟨hst, hconf⟩)
  have hshow : lanesShow u p 3 = true ↔ _ := lanesShow_setb s p lane 3 (by decide)
  have hreg : RegsKept .phy [phyStatus p, phyLane p lane 0] s u := .setb s _ 3 true (by simp)
  have hkept : Kept [.phy] s u := .setb s .phy _ 3 true (by simp)
  have hflag : u.flag .phy (phyLane p lane 0) 3 = true := State.flag_setb_same _ _ _ _ _ (by decide)
  by_cases hall : ∀ l ∈ cfgLanes s p, l = lane.val ∨ s.flag .phy (phyLane p l 0) 3 = true
  · rw [if_pos (hshow.mpr hall)] at hrun
    refine ⟨_, hrun, ?_, fun _ => ⟨portState_phyGo u p phLock, ?_⟩, ?_,
      hreg.trans (.phyGo u p _ (by simp)), hkept.trans (.phyGo u p _)⟩
    · rw [State.flag, RegsKept.phyGo u p (as := [phyStatus p]) _ (by simp) _ (by simp; omega)]
      exact hflag
    · rw [State.phyPort_phyGo]
      rfl
    · rintro ⟨l, hl, hne, hdark⟩
      rcases hall l hl with h | h
      · exact absurd h hne
      · exact absurd (hdark.symm.trans h) Bool.false_ne_true
  · rw [if_neg fun h => hall (hshow.mp h)] at hrun
    refine ⟨_, hrun, hflag, fun h => absurd h hall, fun _ => ?_, hreg, hkept⟩
    rw [portState_congr (State.rd_setb_phyAt s (by omega) 3 true), hst]

/-! ### Failures (R79, R84, R85) -/

/-- A failure whose CAUSE fits its field is noted, and leaves the blocks a port does not reach. -/
theorem failed_phyFail (s : State) (p : Nat) {cause : Nat} (hc : cause < 16) :
    FailedTraining p cause s (s.phyFail p cause) ∧ BlocksKept portBlks s (s.phyFail p cause) :=
  ⟨failedTraining_phyFail s p hc, (Kept.phyFail s p cause).blocks⟩

theorem coefTimeout_early {r : CoefReq} {since : Nat} (hreq : (s.phyPort p).coef = some (r, since)) (h : s.now < since + 1000000) :
    exec (.coefTimeout p) s = .next s := by
  have hrun : exec (.coefTimeout p) s = .next (match (s.phyPort p).coef with
    | some (_, since) => if since + 1000000 ≤ s.now then s.phyFail p 7 else s
    | none => s) := rfl
  rw [hrun, hreq]
  exact congrArg Host.Outcome.next (if_neg (by omega))

theorem coefTimeout_due {r : CoefReq} {since : Nat} (hreq : (s.phyPort p).coef = some (r, since)) (h : since + 1000000 ≤ s.now) :
    exec (.coefTimeout p) s = .next (s.phyFail p 7) := by
  have hrun : exec (.coefTimeout p) s = .next (match (s.phyPort p).coef with
    | some (_, since) => if since + 1000000 ≤ s.now then s.phyFail p 7 else s
    | none => s) := rfl
  rw [hrun, hreq]
  exact congrArg Host.Outcome.next (if_pos h)

theorem trainLimit_cause {st ns cause : Nat} (h : trainLimit st = some (ns, cause)) : cause < 16 := by
  unfold trainLimit at h
  split at h <;> simp at h <;> omega

theorem execTrainTimeout_of_limit {ns cause : Nat} (hlim : trainLimit (portState s p) = some (ns, cause))
    (hback : inBackoff s p = false) :
    exec (.trainTimeout p) s = .next (if (s.phyPort p).entered + ns ≤ s.now then s.phyFail p cause else s) := by
  have hrun : exec (.trainTimeout p) s = .next (match trainLimit (portState s p) with
    | some (ns, cause) =>
      if ¬ inBackoff s p ∧ (s.phyPort p).entered + ns ≤ s.now then s.phyFail p cause else s
    | none => s) := rfl
  simp [hrun, hlim, hback]

theorem unplug_training {lane : Fin 2} (hlo : 2 ≤ portState s p) (hhi : portState s p ≤ 6)
    (hconf : (cfgLanes s p).contains lane.val = true) : ∃ t, exec (.unplug p lane) s = .next t ∧
      FailedTraining p 12 s t ∧ t.flag .phy (phyStatus p) 4 = true ∧ BlocksKept portBlks s t := by
  let u := s.setb .phy (phyLane p lane 0) 4 false
  have hlanes : cfgLanes u p = cfgLanes s p := cfgLanes_congr (by simp [u])
  have hrun : exec (.unplug p lane) s = .next ((u.phyFail p 12).setb .phy (phyStatus p) 4 true) :=
    congrArg Host.Outcome.next (if_pos ⟨.inl ⟨hlo, hhi⟩, hlanes ▸ hconf⟩)
  obtain ⟨hst, hback, hcause, hk, hend⟩ := failedTraining_phyFail u p (cause := 12) (by decide)
  have hbackoff : u.fld .phy (phyBackoff p) 3 0 = s.fld .phy (phyBackoff p) 3 0 := State.fld_setb_phyAt s (by omega) 4 false 3 0
  have hkept : Kept portBlks s ((u.phyFail p 12).setb .phy (phyStatus p) 4 true) :=
    (Kept.setb s .phy _ 4 false (by simp)).trans ((Kept.phyFail u p 12).trans (.setb _ .phy _ 4 true (by simp)))
  refine ⟨_, hrun, ⟨?_, ?_, ?_, ?_, ?_⟩, State.flag_setb_same _ _ _ _ _ (by decide), hkept.blocks⟩
  · rw [portState_setb_status _ _ _ (by decide), hst]
  · rw [inBackoff, State.flag_setb_bit _ _ _ 4 17 true (by decide)]
    exact hback
  · rw [State.fld_setb_bit _ _ _ 4 true 27 24 (by decide), hcause]
  · rw [State.fld_setb_phyAt _ (by decide), hk, hbackoff]
  · rw [State.setb_phyPort, hend, hbackoff]
    rfl

/-! ### The end of back-off (R85) -/

theorem backoffEnd_detects (hback : inBackoff s p = true) (hend : (s.phyPort p).backoffEnd ≤ s.now) : ∃ t,
    exec (.backoffEnd p) s = .next t ∧ portState t p = phDetect ∧ inBackoff t p = false ∧
      (t.phyPort p).entered = s.now ∧ (t.phyPort p).rate = s.fld .phy (phyCtrl p) 29 28 ∧ Kept [.phy, .lnk] s t := by
  obtain ⟨hent, hrate, -, -⟩ := s.settings_phyDetect p
  exact ⟨_, congrArg Host.Outcome.next (if_pos ⟨hback, hend⟩), portState_phyDetect s p, inBackoff_phyDetect s p, hent, hrate,
    .phyDetect s p⟩

end

end Sys2Proof.Machine

end

/-! ## Training: presets, the entry to ACTIVE and frames received -/

section

namespace Sys2Proof.Machine

section
variable {p : Fin 28} {s : State}

/-! ### Presets (R84) -/

section
variable (s : State) (p : Nat) (eyes : List (Nat × Nat × Nat))

theorem RegsKept.putFoms : RegsKept .phy [phyLane p 0 0x18, phyLane p 1 0x18] s (s.putFoms p eyes) :=
  .each fun u l hl => .wr u _ _ (by
    have := cfgLanes_lt hl
    interval_cases l <;> simp)

theorem Kept.putFoms : Kept [.phy] s (s.putFoms p eyes) := Kept.each _ (fun t _ => .wr t .phy _ _ (by simp)) _ s

end

/-- The best preset so far, with a new FOM of the current one (R84). -/
theorem State.tuneMeasured_search {n : Nat} {rest : List Nat} {ts : TuneSt} (hphase : ts.phase = .search (n :: rest))
    (fom : Nat) (up : Bool) (s : State) (p : Nat) : s.tuneMeasured p fom ts up =
      (s.onPhy p (fun x => { x with tune := some { ts with
        phase := .search rest
        next := up
        adapting := none
        best := some (match ts.best with
          | none => (fom, ts.cur)
          | some b => if b.1 < fom then (fom, ts.cur) else b) } })).askPreset p n := by
  obtain ⟨phase, cur, best, up', next, steps, adapting⟩ := ts
  obtain rfl : phase = .search (n :: rest) := hphase
  rfl

section
variable {eyes : List (Nat × Nat × Nat)} {up : Bool} {ts : TuneSt} {a n : Nat} {rest : List Nat}
  (htune : (s.phyPort p).tune = some ts) (had : ts.adapting = some a) (hphase : ts.phase = .search (n :: rest))
include htune had hphase

theorem execTuneStepEnd_of_search : exec (.tuneStepEnd p eyes up) s = .next
    (if a + 1000000 ≤ s.now ∧ eyes.length = (cfgLanes s p).length then
      (s.putFoms p eyes).tuneMeasured p (portFom (isPam4 s p) eyes) ts up
    else s) := by
  have hrun : exec (.tuneStepEnd p eyes up) s = .next (match (s.phyPort p).tune with
    | none => s
    | some t =>
      match t.adapting with
      | none => s
      | some a =>
        if a + adaptNs t.phase ≤ s.now ∧ eyes.length = (cfgLanes s p).length then
          (s.putFoms p eyes).tuneMeasured p (portFom (isPam4 s p) eyes) t up
        else s) := rfl
  simp only [hrun, htune, had, hphase, adaptNs]

theorem tuneStepEnd_measures (hlong : a + 1000000 ≤ s.now) (hlen : eyes.length = (cfgLanes s p).length) : ∃ t,
    exec (.tuneStepEnd p eyes up) s = .next t ∧ (t.phyPort p).coef = some (.preset n, s.now) ∧
      (t.phyPort p).tune = some { ts with
        phase := .search rest
        cur := n
        next := up
        adapting := none
        best := some (match ts.best with
          | none => (portFom (isPam4 s p) eyes, ts.cur)
          | some b => if b.1 < portFom (isPam4 s p) eyes then (portFom (isPam4 s p) eyes, ts.cur) else b) } ∧
      RegsKept .phy [phyLane p 0 0x18, phyLane p 1 0x18] s t ∧ Kept [.phy] s t := by
  have hfoms : Kept [.phy] s (s.putFoms p eyes) := .putFoms s p eyes
  have hnow : (s.putFoms p eyes).now = s.now := by rw [State.now, hfoms.time_eq (by simp), State.now]
  rw [execTuneStepEnd_of_search htune had hphase, if_pos ⟨hlong, hlen⟩, State.tuneMeasured_search hphase]
  refine ⟨_, rfl, ?_, ?_, (RegsKept.putFoms s p eyes).trans ((RegsKept.onPhy _ p _).trans (.onPhy _ p _)),
    hfoms.trans ((Kept.onPhy _ p _ (by simp)).trans (.onPhy _ p _ (by simp)))⟩ <;>
  rw [State.askPreset, State.onPhy_phyPort_same]
  · exact congrArg (fun x : Nat => some (CoefReq.preset n, x)) hnow
  · rw [State.onPhy_phyPort_same]
    rfl

end

/-! ### The entry to ACTIVE (R64, R84, R91) -/

/-- A port that enters ACTIVE: STATE, k, DL_UP and what the training left behind. -/
def State.activeShown (s : State) (p : Nat) : State :=
  (((s.phyGo p phActive).put .phy (phyBackoff p) 3 0 0).setb .phy (phyStatus p) 2 true).onPhy p PhyPort.idle

/-- The link layer of a camera's port that enters ACTIVE. -/
def State.linkFresh (s : State) (p : Nat) : State :=
  s.onLnk p (fun x => { x with
    asm := none, skip := false, await := false, rx := [], lctlIn := [], trig := [], lctl := [],
    boundary := nextOn framePs (s.phyPort p).phase (s.now * 1000)
    sinceFill := 0 })

/-- Nothing before a port's entry to ACTIVE waits, and its tag counter restarts. -/
def State.tagsFresh (s : State) (p : Nat) : State :=
  (s.awaitNone p).onPortTrg p (fun x => { x with tag := 0 })

section
variable (s : State) (p : Nat)

theorem State.enterActive_camera (hp : p < 24) : s.enterActive p =
    (((s.activeShown p).linkFresh p).mark p .fresh |>.tagsFresh p).publish (0x1B0 + 4 * p) 0#32 := if_pos hp

theorem State.enterActive_span (hp : 24 ≤ p) : s.enterActive p =
    (s.activeShown p).onLnk p (fun x => { x with await := false, rx := [], cellIn := none, cells := [] }) :=
  if_neg (by omega)

theorem Kept.mark_fresh : Kept [.lnk] s (s.mark p .fresh) := .ite (.onLnk s p _ (by simp)) (.onLnk s p _ (by simp))

theorem Kept.awaitNone : Kept [.pwr] s (s.awaitNone p) := by simp [Kept, State.awaitNone]

theorem Kept.tagsFresh : Kept [.mot, .pwr] s (s.tagsFresh p) :=
  ((Kept.awaitNone s p).mono (by simp)).trans (.onPortTrg _ p _ (by simp))

theorem Kept.activeShown : Kept [.phy] s (s.activeShown p) :=
  (Kept.phyGo s p _).trans ((Kept.put _ .phy _ 3 0 0 (by simp)).trans ((Kept.setb _ .phy _ 2 true (by simp)).trans
    (.onPhy _ p _ (by simp))))

theorem RegsKept.activeShown : RegsKept .phy [phyStatus p, phyBackoff p] s (s.activeShown p) :=
  (RegsKept.phyGo s p _ (by simp)).trans ((RegsKept.put _ _ 3 0 0 (by simp)).trans ((RegsKept.setb _ _ 2 true (by simp)).trans
    (.onPhy _ p _)))

theorem portState_activeShown : portState (s.activeShown p) p = phActive := by
  rw [State.activeShown, portState_congr (State.rd_onPhy ..), portState_setb_status _ _ _ (by decide),
    portState_congr (State.rd_put_phyAt _ (by decide) 3 0 0)]
  exact portState_phyGo s p phActive

theorem State.entered_activeShown : ((s.activeShown p).phyPort p).entered = s.now := by
  rw [State.activeShown, State.onPhy_phyPort_same, PhyPort.idle]
  simp

theorem State.fld_activeShown_backoff : (s.activeShown p).fld .phy (phyBackoff p) 3 0 = 0 := by
  rw [State.activeShown, State.fld_onPhy, State.fld_setb_phyAt _ (by decide)]
  exact State.fld_put_same _ _ _ _ _ _ (by decide) (by decide)

theorem State.flag_activeShown_up : (s.activeShown p).flag .phy (phyStatus p) 2 = true := by
  rw [State.activeShown, State.flag_onPhy, State.flag_setb_same _ _ _ _ _ (by decide)]

/-- Behind the page the entry touches the link, the triggers, the event bus and power alone. -/
theorem Kept.enterActive : Kept [.lnk, .mot, .evt, .pwr] (s.activeShown p) (s.enterActive p) := by
  by_cases hp : p < 24
  · rw [State.enterActive_camera s p hp]
    refine Kept.trans ?_ (.publish _ _ _ (by simp))
    refine Kept.trans ?_ ((Kept.tagsFresh _ p).mono (by simp))
    exact (Kept.onLnk _ p _ (by simp)).trans ((Kept.mark_fresh _ p).mono (by simp))
  · rw [State.enterActive_span s p (by omega)]
    exact .onLnk _ p _ (by simp)

theorem State.tag_enterActive (hp : p < 24) : ((s.enterActive p).portTrg p).tag = 0 := by
  rw [State.enterActive_camera s p hp]
  have hpub : ∀ u : State, (u.publish (0x1B0 + 4 * p) 0#32).mot = u.mot := fun u =>
    (Kept.publish (bs := [.evt]) u _ _ (by simp)).mot_eq (by simp)
  simp only [State.portTrg, hpub]
  exact congrArg PortTrg.tag (State.onPortTrg_portTrg_same _ p _)

end

theorem deskewDone_unaligned (hno : isAligned s p = false) : exec (.deskewDone p) s = .next s :=
  congrArg Host.Outcome.next (if_neg (by simp [hno]))

theorem deskewDone_aligned (hst : portState s p = phDeskew) (hal : isAligned s p = true) : ∃ t,
    exec (.deskewDone p) s = .next t ∧ portState t p = phActive ∧ (t.phyPort p).entered = s.now ∧
      t.fld .phy (phyBackoff p) 3 0 = 0 ∧ t.flag .phy (phyStatus p) 2 = true ∧ (p.val < 24 → (t.portTrg p).tag = 0) ∧
      RegsKept .phy [phyStatus p, phyBackoff p] s t ∧ Kept [.phy, .lnk, .mot, .evt, .pwr] s t := by
  have hrest := Kept.enterActive s p
  have hrd : ∀ a, (s.enterActive p).rd .phy a = (s.activeShown p).rd .phy a := hrest.rd_eq (by simp)
  refine ⟨_, congrArg Host.Outcome.next (if_pos ⟨hst, hal⟩), ?_, ?_, ?_, ?_, s.tag_enterActive p,
    (RegsKept.activeShown s p).trans fun a _ => hrd a, ((Kept.activeShown s p).mono (by simp)).trans (hrest.mono (by simp))⟩
  · rw [portState_congr (hrd _), portState_activeShown]
  · rw [hrest.phyPort (by simp), State.entered_activeShown]
  · rw [State.fld, hrd, ← State.fld, State.fld_activeShown_backoff]
  · rw [State.flag, hrd, ← State.flag, State.flag_activeShown_up]

/-! ### Training frames received (R81, R84) -/

/-- A good frame is taken from a lane; until TUNE its polarity shows. -/
def State.frameTaken (s : State) (p lane status : Nat) (inverted : Bool) : State :=
  let u := s.onPhy p (fun x => x.goodFrame lane status)
  if portState s p ≤ phOrient then u.setb .phy (phyLane p lane 0) 1 inverted else u

/-- In LOCK, FRAME of a lane shows its third good frame in succession. -/
def State.frameCounted (s : State) (p lane : Nat) : State :=
  if 3 ≤ (if lane = 0 then (s.phyPort p).good0 else (s.phyPort p).good1) then s.setb .phy (phyLane p lane 0) 2 true else s

section
variable (s : State) (p lane status : Nat) (inverted : Bool)

theorem State.phyPort_frameTaken : (s.frameTaken p lane status inverted).phyPort p = (s.phyPort p).goodFrame lane status := by
  unfold State.frameTaken
  extract_lets u
  have hu : u.phyPort p = (s.phyPort p).goodFrame lane status := State.onPhy_phyPort_same s p _
  split
  · rw [State.setb_phyPort, hu]
  · exact hu

theorem State.phyPort_frameCounted : (s.frameCounted p lane).phyPort p = s.phyPort p := by
  rw [State.frameCounted, apply_ite (fun t : State => t.phyPort p), State.setb_phyPort, ite_self]

theorem RegsKept.frameTaken : RegsKept .phy [phyLane p lane 0] s (s.frameTaken p lane status inverted) :=
  (RegsKept.onPhy s p _).trans (.ite (.setb _ _ 1 inverted (by simp)) (.refl _ _ _))

theorem RegsKept.frameCounted : RegsKept .phy [phyLane p lane 0] s (s.frameCounted p lane) :=
  .ite (.setb s _ 2 true (by simp)) (.refl _ _ s)

theorem Kept.frameTaken : Kept [.phy] s (s.frameTaken p lane status inverted) :=
  (Kept.onPhy s p _ (by simp)).trans (.ite (.setb _ .phy _ 1 inverted (by simp)) (.refl _ _))

theorem Kept.frameCounted : Kept [.phy] s (s.frameCounted p lane) := .ite (.setb s .phy _ 2 true (by simp)) (.refl _ s)

end

theorem framesLocked_congr {s t : State} {p : Nat} (h : t.phyPort p = s.phyPort p) : framesLocked t p = framesLocked s p := by
  rw [framesLocked, h, cfgLanes_congr h, framesLocked]

section
variable {lane : Fin 2} {status : BitVec 48} {crc : BitVec 16} {inverted : Bool}
  (hback : inBackoff s p = false) (hconf : (cfgLanes s p).contains lane.val = true)
include hback hconf

theorem rxTrainingFrame_bad (hlo : 3 ≤ portState s p) (hhi : portState s p ≤ 6)
    (hbad : crc16 48 status.toNat ≠ crc.toNat ∨ (inverted = true ∧ (s.phyPort p).autoPol = false)) :
    exec (.rxTrainingFrame p lane status crc inverted none) s = .next (s.onPhy p (fun x => x.badFrame lane)) := by
  have hnot : (!(crc16 48 status.toNat == crc.toNat && (!inverted || (s.phyPort p).autoPol))) = true := by
    rcases hbad with h | ⟨h, h'⟩ <;> simp [*]
  exact congrArg Host.Outcome.next ((if_neg (by simp [hlo, hhi, hback, List.contains_iff_mem.mp hconf])).trans (if_pos hnot))

section
variable (hcrc : crc16 48 status.toNat = crc.toNat) (hpol : inverted = false)
include hcrc hpol

theorem execRxTrainingFrame_good (hlo : 3 ≤ portState s p) (hhi : portState s p ≤ 6) :
    exec (.rxTrainingFrame p lane status crc inverted none) s = .next
      (let u := s.frameTaken p lane status.toNat inverted
       if portState s p = phLock then
         if framesLocked (u.frameCounted p lane) p then ((u.frameCounted p lane).phyGo p phOrient).orient p
         else u.frameCounted p lane
       else if portState s p = phOrient then u.orient p
       else if portState s p = phTune then u.tuneAnswer p status.toNat
       else if tbit status.toNat 39 then u.onPhy p (fun x => { x with dataReady := true }) else u) :=
  congrArg Host.Outcome.next ((if_neg (by simp [hlo, hhi, hback, List.contains_iff_mem.mp hconf])).trans (if_neg (by simp [hcrc, hpol])))

theorem rxTrainingFrame_locking (hst : portState s p = phLock)
    (hfew : framesLocked (s.onPhy p (fun x => x.goodFrame lane status.toNat)) p = false) : ∃ t,
    exec (.rxTrainingFrame p lane status crc inverted none) s = .next t ∧
      t.phyPort p = (s.phyPort p).goodFrame lane status.toNat ∧ portState t p = phLock ∧
      RegsKept .phy [phyLane p lane 0] s t ∧ Kept [.phy] s t := by
  rw [execRxTrainingFrame_good hback hconf hcrc hpol (by rw [hst]) (by rw [hst]; decide)]
  extract_lets u
  have hport : (u.frameCounted p lane).phyPort p = (s.phyPort p).goodFrame lane status.toNat :=
    (u.phyPort_frameCounted p lane).trans (s.phyPort_frameTaken p lane _ _)
  have hlocked : framesLocked (u.frameCounted p lane) p = false :=
    (framesLocked_congr (by rw [hport, State.onPhy_phyPort_same])).trans hfew
  have hreg : RegsKept .phy [phyLane p lane 0] s (u.frameCounted p lane) :=
    (RegsKept.frameTaken s p lane _ _).trans (.frameCounted u p lane)
  refine ⟨u.frameCounted p lane, congrArg Host.Outcome.next ((if_pos hst).trans (if_neg (by simp [hlocked]))), hport, ?_, hreg,
    (Kept.frameTaken s p lane _ _).trans (.frameCounted u p lane)⟩
  rw [portState_congr (hreg _ (by simp; omega)), hst]

theorem rxTrainingFrame_ready (hst : portState s p = phDeskew) (hready : tbit status.toNat 39 = true) : ∃ t,
    exec (.rxTrainingFrame p lane status crc inverted none) s = .next t ∧
      t.phyPort p = { (s.phyPort p).goodFrame lane status.toNat with dataReady := true } ∧
      RegsKept .phy [] s t ∧ Kept [.phy] s t := by
  have htaken : s.frameTaken p lane status.toNat inverted = s.onPhy p (fun x => x.goodFrame lane status.toNat) :=
    if_neg (by rw [hst]; decide)
  rw [execRxTrainingFrame_good hback hconf hcrc hpol (by rw [hst]; decide) (by rw [hst])]
  rw [htaken, hst]
  refine ⟨_, congrArg Host.Outcome.next (if_pos hready), ?_, (RegsKept.onPhy s p _).trans (.onPhy _ p _),
    (Kept.onPhy s p _ (by simp)).trans (.onPhy _ p _ (by simp))⟩
  rw [State.onPhy_phyPort_same, State.onPhy_phyPort_same]

end

end

end

end Sys2Proof.Machine

end

/-! ## The training obligation -/

section

open Sys2Proof Sys2Proof.Machine

/-- Settles O16: each clause is the lemma of its instruction. -/
theorem portsTrainByTheStateMachine : Obligations.PortsTrainByTheStateMachine := by
  unfold Obligations.PortsTrainByTheStateMachine
  refine ⟨fun p v s => portEnWrite_stops, fun p v s => portEnWrite_starts,
    fun p s => ⟨retrain_off, retrain_restarts, retrain_backsOff⟩, fun p s => bcTrainingFrame_off,
    fun p s hp hin hbc hon hdue => bcTrainingFrame_sends hin hbc hon hdue hp,
    fun p s hp hin hbc hon hdue => ⟨bcTrainingFrame_silent hin hbc hon hdue hp, bcTrainingFrame_spans hin hbc hon hdue hp⟩,
    fun p lane s hst hback hconf => ⟨sigDetected_first hst hback hconf, sigDetected_acquires hst hback hconf⟩,
    fun p lane s => cdrLock_acquiring, fun p s r since hreq => ⟨coefTimeout_early hreq, fun h => ?coef⟩,
    fun p eyes up s ts a n rest htune had hphase => ⟨fun h => ?tooEarly, tuneStepEnd_measures htune had hphase⟩,
    fun p s hst => ⟨deskewDone_unaligned, deskewDone_aligned hst⟩,
    fun p s ns cause hlim hback => ⟨fun h => ?waits, fun h => ?times⟩, fun p s => backoffEnd_detects,
    fun p lane s => unplug_training, fun p lane status crc inverted s hback hconf => ⟨fun hlo hhi hbad => ?bad, fun hcrc hpol =>
      ⟨rxTrainingFrame_locking hback hconf hcrc hpol, rxTrainingFrame_ready hback hconf hcrc hpol⟩⟩⟩
  case coef => exact ⟨_, coefTimeout_due hreq h, failed_phyFail s p (by decide)⟩
  case tooEarly => exact (execTuneStepEnd_of_search htune had hphase).trans (congrArg Host.Outcome.next (if_neg (by omega)))
  case waits => exact (execTrainTimeout_of_limit hlim hback).trans (congrArg Host.Outcome.next (if_neg (by omega)))
  case times =>
    exact ⟨_, (execTrainTimeout_of_limit hlim hback).trans (congrArg Host.Outcome.next (if_pos h)),
      failed_phyFail s p (trainLimit_cause hlim)⟩
  case bad =>
    exact ⟨_, rxTrainingFrame_bad hback hconf hlo hhi hbad, State.onPhy_phyPort_same s p _, .onPhy s p _, .onPhy s p _ (by simp)⟩

end

/-! ## Adaptation (R75, R76) -/

section

namespace Sys2Proof.Machine

/-! ### Codes -/

theorem sgn_bounds (w x : Nat) : -((2 ^ (w - 1) : Nat) : Int) ≤ sgn w x ∧ sgn w x ≤ ((2 ^ (w - 1) - 1 : Nat) : Int) := by
  have hlo := BitVec.le_toInt (BitVec.ofNat w x)
  have hhi := BitVec.toInt_lt (x := BitVec.ofNat w x)
  have hpos : 1 ≤ 2 ^ (w - 1) := Nat.one_le_two_pow
  unfold sgn
  push_cast [hpos]
  omega

/-- A code inside its range is what its encoding reads. -/
theorem sgn_unsgn (w : Nat) (x : Int) (hw : 0 < w) (hlo : -((2 ^ (w - 1) : Nat) : Int) ≤ x)
    (hhi : x ≤ ((2 ^ (w - 1) - 1 : Nat) : Int)) : sgn w (unsgn w x % 2 ^ w) = x := by
  have hpos : 1 ≤ 2 ^ (w - 1) := Nat.one_le_two_pow
  push_cast [hpos] at hlo hhi
  unfold sgn unsgn
  rw [Nat.mod_eq_of_lt (BitVec.isLt _), BitVec.ofNat_toNat, BitVec.setWidth_eq]
  exact BitVec.toInt_ofInt_eq_self hw hlo (by omega)

theorem moveIn_bounds {lo hi x : Int} (m : Move) (hr : lo ≤ hi) (hlo : lo ≤ x) (hhi : x ≤ hi) :
    lo ≤ moveIn lo hi m x ∧ moveIn lo hi m x ≤ hi := by
  cases m <;> unfold moveIn <;> dsimp only <;> omega

/-! ### Where the taps sit (R82) -/

/-- The bits of tap i. -/
def tapWidth (i : Nat) : Nat := (tapField i).2.1 + 1 - (tapField i).2.2

/-- The code of tap i of a lane. -/
def tapCode (s : State) (p lane i : Nat) : Int :=
  sgn (tapWidth i) (s.fld .phy (phyLane p lane (tapField i).1) (tapField i).2.1 (tapField i).2.2)

/-- A code of tap i moved by at most one inside its range. -/
def tapMoved (i : Nat) (m : Move) (x : Int) : Int :=
  moveIn (-(2 ^ (tapWidth i - 1) : Nat)) ((2 ^ (tapWidth i - 1) - 1 : Nat)) m x

theorem tapField_bounds : ∀ i < 12, (tapField (i + 1)).2.2 ≤ (tapField (i + 1)).2.1 ∧ (tapField (i + 1)).2.1 < 32 := by decide

theorem tapField_off : ∀ i < 12, (tapField (i + 1)).1 = 0x8 ∨ (tapField (i + 1)).1 = 0xC ∨ (tapField (i + 1)).1 = 0x10 := by decide

/-- Two taps share no bit. -/
theorem tapField_apart : ∀ i < 12, ∀ j < 12, i ≠ j → (tapField (i + 1)).1 ≠ (tapField (j + 1)).1 ∨
    (tapField (i + 1)).2.1 < (tapField (j + 1)).2.2 ∨ (tapField (j + 1)).2.1 < (tapField (i + 1)).2.2 := by decide

theorem tapWidth_pos {i : Nat} (hi : i < 12) : 0 < tapWidth (i + 1) := by
  have := tapField_bounds i hi
  unfold tapWidth
  omega

section
variable (s : State) (p lane : Nat)

/-! ### One tap -/

/-- What the update of a tap reads stays: its code, the freeze bits, and which registers were written. -/
def TapStays (i : Nat) (s t : State) : Prop :=
  tapCode t p lane i = tapCode s p lane i ∧ t.rd .phy (phyLane p lane 0x14) = s.rd .phy (phyLane p lane 0x14) ∧
    (t.phyPort p).eqAt = (s.phyPort p).eqAt ∧ t.now = s.now

theorem TapStays.refl (i : Nat) : TapStays p lane i s s := ⟨rfl, rfl, rfl, rfl⟩

variable {s p lane} in
theorem TapStays.trans {i : Nat} {t u : State} (h : TapStays p lane i s t) (k : TapStays p lane i t u) : TapStays p lane i s u := by
  obtain ⟨h₁, h₂, h₃, h₄⟩ := h
  obtain ⟨k₁, k₂, k₃, k₄⟩ := k
  exact ⟨k₁.trans h₁, k₂.trans h₂, k₃.trans h₃, k₄.trans h₄⟩

variable {s p lane} in
theorem TapStays.frozen {i : Nat} {t : State} (h : TapStays p lane i s t) (k : Nat) : frozen t p lane k = frozen s p lane k :=
  congrArg (bit · k) h.2.1

variable {s p lane} in
theorem TapStays.eqWritten {i : Nat} {t : State} (h : TapStays p lane i s t) (off : Nat) :
    eqWritten t p lane off = eqWritten s p lane off := by
  obtain ⟨-, -, heq, hnow⟩ := h
  rw [Machine.eqWritten, heq, hnow, Machine.eqWritten]

/-- A tap's field is written, and TAP_LIM set if it ends at a limit. -/
def State.tapPut (i : Nat) (x : Int) : State :=
  let t := s.put .phy (phyLane p lane (tapField i).1) (tapField i).2.1 (tapField i).2.2 (unsgn (tapWidth i) x)
  if x = -(2 ^ (tapWidth i - 1) : Nat) ∨ x = (2 ^ (tapWidth i - 1) - 1 : Nat) then t.setb .phy (phyStatus p) 6 true else t

theorem State.adaptTap_eq (i : Nat) (m : Move) : s.adaptTap p lane i m =
    if frozen s p lane (i - 1) || eqWritten s p lane (tapField i).1 then s
    else s.tapPut p lane i (tapMoved i m (tapCode s p lane i)) := rfl

theorem Kept.tapPut (i : Nat) (x : Int) : Kept [.phy] s (s.tapPut p lane i x) :=
  (Kept.put s .phy _ _ _ _ (by simp)).trans (.ite (.setb _ .phy _ 6 true (by simp)) (.refl _ _))

theorem RegsKept.tapPut (i : Nat) (x : Int) :
    RegsKept .phy [phyLane p lane (tapField i).1, phyStatus p] s (s.tapPut p lane i x) :=
  (RegsKept.put s _ _ _ _ (by simp)).trans (.ite (.setb _ _ 6 true (by simp)) (.refl _ _ _))

theorem State.phyPort_tapPut (i : Nat) (x : Int) : (s.tapPut p lane i x).phyPort p = s.phyPort p := by
  unfold State.tapPut
  extract_lets t
  rw [apply_ite (fun t : State => t.phyPort p), State.setb_phyPort, ite_self, State.put_phyPort]

/-- A field of a lane's register behind the write of a tap. -/
theorem State.fld_tapPut (i off hi lo : Nat) (x : Int) : (s.tapPut p lane i x).fld .phy (phyLane p lane off) hi lo =
    (s.put .phy (phyLane p lane (tapField i).1) (tapField i).2.1 (tapField i).2.2 (unsgn (tapWidth i) x)).fld .phy
      (phyLane p lane off) hi lo := by
  unfold State.tapPut
  extract_lets t
  rw [apply_ite (fun t : State => t.fld .phy (phyLane p lane off) hi lo), State.fld_setb_phyAt t (by omega) 6 true hi lo, ite_self]

theorem tapCode_tapPut {i : Nat} (hi : i < 12) (x : Int) (hlo : -((2 ^ (tapWidth (i + 1) - 1) : Nat) : Int) ≤ x)
    (hhi : x ≤ ((2 ^ (tapWidth (i + 1) - 1) - 1 : Nat) : Int)) : tapCode (s.tapPut p lane (i + 1) x) p lane (i + 1) = x := by
  obtain ⟨hle, hlt⟩ := tapField_bounds i hi
  rw [tapCode, State.fld_tapPut, State.fld_put_same _ _ _ _ _ _ hlt hle]
  exact sgn_unsgn _ x (tapWidth_pos hi) hlo hhi

theorem tapStays_tapPut {i j : Nat} (hi : i < 12) (hj : j < 12) (hne : j ≠ i) (x : Int) :
    TapStays p lane (i + 1) s (s.tapPut p lane (j + 1) x) := by
  refine ⟨congrArg (sgn _) ?_, ?_, by rw [State.phyPort_tapPut], ?_⟩
  · rw [State.fld_tapPut]
    rcases tapField_apart i hi j hj (Ne.symm hne) with h | h
    · exact State.fld_put_phyAt s (by omega) _ _ _ _ _
    · by_cases hreg : (tapField (i + 1)).1 = (tapField (j + 1)).1
      · rw [hreg]
        exact State.fld_put_field _ _ _ _ _ _ _ _ h
      · exact State.fld_put_phyAt s (by omega) _ _ _ _ _
  · refine RegsKept.tapPut s p lane (j + 1) x _ ?_
    have := tapField_off j hj
    simp
    omega
  · rw [State.now, (Kept.tapPut s p lane (j + 1) x).time_eq (by simp), State.now]

theorem tapStays_adaptTap {i j : Nat} (hi : i < 12) (hj : j < 12) (hne : j ≠ i) (m : Move) :
    TapStays p lane (i + 1) s (s.adaptTap p lane (j + 1) m) := by
  rw [State.adaptTap_eq]
  split
  · exact .refl s p lane _
  · exact tapStays_tapPut s p lane hi hj hne _

theorem tapCode_adaptTap {i : Nat} (hi : i < 12) (m : Move) (hfree : eqWritten s p lane (tapField (i + 1)).1 = false) :
    tapCode (s.adaptTap p lane (i + 1) m) p lane (i + 1) =
      if frozen s p lane i then tapCode s p lane (i + 1) else tapMoved (i + 1) m (tapCode s p lane (i + 1)) := by
  rw [State.adaptTap_eq, hfree, Bool.or_false, Nat.add_sub_cancel]
  obtain ⟨hlo, hhi⟩ := sgn_bounds (tapWidth (i + 1)) (s.fld .phy (phyLane p lane (tapField (i + 1)).1) (tapField (i + 1)).2.1
    (tapField (i + 1)).2.2)
  obtain ⟨hlo', hhi'⟩ := moveIn_bounds m (by omega) hlo hhi
  split
  · rfl
  · exact tapCode_tapPut s p lane hi _ hlo' hhi'

/-! ### The taps of a lane -/

/-- The moves of the twelve taps. -/
def State.adaptTaps (m : Nat → Move) : State := s.each (List.range 12) (fun s i => s.adaptTap p lane (i + 1) (m (i + 1)))

/-- The registers the taps sit in. -/
abbrev tapRegs : List Nat := [phyLane p lane 0x8, phyLane p lane 0xC, phyLane p lane 0x10, phyStatus p]

theorem RegsKept.adaptTaps (m : Nat → Move) : RegsKept .phy (tapRegs p lane) s (s.adaptTaps p lane m) :=
  .each fun t i hi => by
    rw [State.adaptTap_eq]
    refine .ite (.refl _ _ t) ((RegsKept.tapPut t p lane (i + 1) _).mono fun a ha => ?_)
    rcases tapField_off i (List.mem_range.mp hi) with h | h | h <;> rw [h] at ha <;> simp at ha <;> rcases ha with rfl | rfl <;> simp

theorem Kept.adaptTaps (m : Nat → Move) : Kept [.phy] s (s.adaptTaps p lane m) :=
  Kept.each _ (fun t i => .ite (.refl _ t) (.tapPut t p lane (i + 1) _)) _ s

/-- Each tap takes its own move. -/
theorem tapCode_adaptTaps (m : Nat → Move) {i : Nat} (hi : i < 12) (hfree : eqWritten s p lane (tapField (i + 1)).1 = false) :
    tapCode (s.adaptTaps p lane m) p lane (i + 1) =
      if frozen s p lane i then tapCode s p lane (i + 1) else tapMoved (i + 1) (m (i + 1)) (tapCode s p lane (i + 1)) := by
  obtain ⟨u, hu, hrest⟩ := State.each_at (R := TapStays p lane (i + 1)) (fun t => .refl t p lane _) (fun _ _ _ => .trans)
    List.nodup_range (List.mem_range.mpr hi) (f := fun s i => s.adaptTap p lane (i + 1) (m (i + 1)))
    (fun t j hj hne => tapStays_adaptTap t p lane hi (List.mem_range.mp hj) hne _) s
  rw [State.adaptTaps, hrest.1, tapCode_adaptTap u p lane hi _ ((hu.eqWritten _).trans hfree), hu.frozen, hu.1]

/-! ### The CTLE and the thresholds -/

theorem RegsKept.adaptCtle (m : Move) : RegsKept .phy [phyLane p lane 0x4] s (s.adaptCtle p lane m) := by
  unfold State.adaptCtle
  extract_lets active last wait old x
  exact .ite (.refl _ _ s) (.ite (.refl _ _ s) ((RegsKept.put s _ 4 0 x (by simp)).trans (.onPhy _ p _)))

theorem Kept.adaptCtle (m : Move) : Kept [.phy] s (s.adaptCtle p lane m) := by
  unfold State.adaptCtle
  extract_lets active last wait old x
  exact .ite (.refl _ s) (.ite (.refl _ s) ((Kept.put s .phy _ 4 0 x (by simp)).trans (.onPhy _ p _ (by simp))))

theorem State.eqAt_adaptCtle (m : Move) : ((s.adaptCtle p lane m).phyPort p).eqAt = (s.phyPort p).eqAt := by
  unfold State.adaptCtle
  extract_lets active last wait old x
  split
  · rfl
  split
  · rfl
  · rw [State.onPhy_phyPort_same, State.put_phyPort]

theorem tapStays_adaptCtle {i : Nat} (hi : i < 12) (m : Move) : TapStays p lane (i + 1) s (s.adaptCtle p lane m) := by
  have hreg := RegsKept.adaptCtle s p lane m
  refine ⟨congrArg (fun v => sgn _ (bits v _ _)) (hreg _ ?_), hreg _ (by simp), s.eqAt_adaptCtle p lane m, ?_⟩
  · have := tapField_off i hi
    simp
    omega
  · rw [State.now, (Kept.adaptCtle s p lane m).time_eq (by simp), State.now]

/-- A CTLE code that moves in 0 to 24 fits its field, also one that stands above. -/
theorem moveIn_ctle (m : Move) {x : Nat} (hx : x < 32) : 0 ≤ moveIn 0 24 m x ∧ moveIn 0 24 m x < 32 := by
  cases m <;> unfold moveIn <;> dsimp only <;> omega

theorem State.fld_adaptCtle (m : Move) (hst : portState s p = phTune) (hfrozen : frozen s p lane 15 = false)
    (hfree : eqWritten s p lane 4 = false) : ((s.adaptCtle p lane m).fld .phy (phyLane p lane 4) 4 0 : Int) =
      moveIn 0 24 m (s.fld .phy (phyLane p lane 4) 4 0) := by
  obtain ⟨hlo, hhi⟩ := moveIn_ctle m (x := s.fld .phy (phyLane p lane 4) 4 0) (Nat.mod_lt _ (by decide))
  unfold State.adaptCtle
  extract_lets active last wait old x
  have hactive : active = false := by simp [active, hst]
  have hx : (x : Int) = moveIn 0 24 m old := Int.toNat_of_nonneg hlo
  rw [if_neg (by simp [hfrozen, hfree, hactive, wait])]
  split
  case isTrue h => exact (congrArg (Nat.cast : Nat → Int) h.symm).trans hx
  case isFalse h =>
    have hlt : x < 32 := by
      have : (x : Int) < 32 := hx ▸ hhi
      omega
    rw [State.fld_onPhy, State.fld_put_same _ _ _ _ _ _ (by decide) (by decide)]
    exact (congrArg Nat.cast (Nat.mod_eq_of_lt (b := 2 ^ 5) hlt)).trans hx

theorem RegsKept.adaptThr (u m l : Move) : RegsKept .phy [] s (s.adaptThr p lane u m l) := .onPhy s p _

theorem Kept.adaptThr (u m l : Move) : Kept [.phy] s (s.adaptThr p lane u m l) := .onPhy s p _ (by simp)

/-! ### The update -/

/-- The CTLE, the taps and the thresholds of a lane move. -/
def State.adapted (m : Nat → Move) : State :=
  ((s.adaptCtle p lane (m 0)).adaptTaps p lane m).adaptThr p lane (m 13) (m 14) (m 15)

/-- The equaliser registers of a lane that adaptation moves. -/
abbrev adaptRegs : List Nat :=
  [phyLane p lane 0x4, phyLane p lane 0x8, phyLane p lane 0xC, phyLane p lane 0x10, phyStatus p]

theorem RegsKept.adapted (m : Nat → Move) : RegsKept .phy (adaptRegs p lane) s (s.adapted p lane m) :=
  ((RegsKept.adaptCtle s p lane _).mono (by simp)).trans (((RegsKept.adaptTaps _ p lane m).mono (by simp)).trans
    ((RegsKept.adaptThr _ p lane _ _ _).mono (by simp)))

theorem Kept.adapted (m : Nat → Move) : Kept [.phy] s (s.adapted p lane m) :=
  (Kept.adaptCtle s p lane _).trans ((Kept.adaptTaps _ p lane m).trans (.adaptThr _ p lane _ _ _))

theorem tapCode_adapted (m : Nat → Move) {i : Nat} (hi : i < 12) (hfree : eqWritten s p lane (tapField (i + 1)).1 = false) :
    tapCode (s.adapted p lane m) p lane (i + 1) =
      if frozen s p lane i then tapCode s p lane (i + 1) else tapMoved (i + 1) (m (i + 1)) (tapCode s p lane (i + 1)) := by
  have hctle := tapStays_adaptCtle s p lane hi (m 0)
  have hthr : tapCode (s.adapted p lane m) p lane (i + 1) =
      tapCode ((s.adaptCtle p lane (m 0)).adaptTaps p lane m) p lane (i + 1) :=
    congrArg (fun v => sgn _ (bits v _ _)) (RegsKept.adaptThr _ p lane _ _ _ _ (by simp))
  rw [hthr, tapCode_adaptTaps _ p lane m hi ((hctle.eqWritten _).trans hfree), hctle.frozen, hctle.1]

theorem State.fld_adapted_ctle (m : Nat → Move) (hst : portState s p = phTune) (hfrozen : frozen s p lane 15 = false)
    (hfree : eqWritten s p lane 4 = false) : ((s.adapted p lane m).fld .phy (phyLane p lane 4) 4 0 : Int) =
      moveIn 0 24 (m 0) (s.fld .phy (phyLane p lane 4) 4 0) := by
  have hrest : (s.adapted p lane m).rd .phy (phyLane p lane 4) = (s.adaptCtle p lane (m 0)).rd .phy (phyLane p lane 4) :=
    (RegsKept.adaptThr _ p lane _ _ _ _ (by simp)).trans (RegsKept.adaptTaps _ p lane m _ (by simp))
  rw [State.fld, hrest, ← State.fld, s.fld_adaptCtle p lane _ hst hfrozen hfree]

end

theorem adaptUpdate_moves {p : Fin 28} {lane : Fin 2} {moves : List Move} {s : State} (had : adapts s p lane = true)
    (hlen : moves.length = adaptMoves) (hdue : adaptDue s p lane ≤ s.now * 1000)
    (hfree : ∀ off ∈ [0x4, 0x8, 0xC, 0x10], eqWritten s p lane off = false) : ∃ t,
    exec (.adaptUpdate p lane moves) s = .next t ∧
      (∀ i, 1 ≤ i → i ≤ 12 → tapCode t p lane i = if frozen s p lane (i - 1) then tapCode s p lane i
        else tapMoved i (atD moves i .stay) (tapCode s p lane i)) ∧
      (portState s p = phTune → frozen s p lane 15 = false →
        (t.fld .phy (phyLane p lane 4) 4 0 : Int) = moveIn 0 24 (atD moves 0 .stay) (s.fld .phy (phyLane p lane 4) 4 0)) ∧
      RegsKept .phy (adaptRegs p lane) s t ∧ Kept [.phy] s t := by
  let m (i : Nat) : Move := atD moves i .stay
  have hrun : exec (.adaptUpdate p lane moves) s = .next ((s.adapted p lane m).onPhy p (fun x => { x with
      adaptAt := Tab.set (fun _ => 0) x.adaptAt lane (max (adaptDue s p lane) (s.now * 1000) + adaptEvery s p) })) :=
    congrArg Host.Outcome.next (if_pos ⟨had, hlen, by omega⟩)
  refine ⟨_, hrun, fun i hlo hhi => ?_, fun hst hfrozen => ?_, (RegsKept.adapted s p lane m).trans (.onPhy _ p _),
    (Kept.adapted s p lane m).trans (.onPhy _ p _ (by simp))⟩
  · obtain ⟨j, rfl⟩ := Nat.exists_eq_add_of_le' hlo
    have hoff : (tapField (j + 1)).1 ∈ [0x4, 0x8, 0xC, 0x10] := by
      have := tapField_off j (by omega)
      simp
      omega
    rw [tapCode, State.fld_onPhy, ← tapCode]
    exact tapCode_adapted s p lane m (by omega) (hfree _ hoff)
  · rw [State.fld_onPhy]
    exact s.fld_adapted_ctle p lane m hst hfrozen (hfree 4 (by simp))

end Sys2Proof.Machine

end

/-! ## Lane registers that software writes (R77, R82) -/

section

namespace Sys2Proof.Machine

/-- The fields of the lane registers that software writes, by offset (R82). -/
def laneFields : Nat → List FieldRow
  | 0x4 => [⟨4, 0, .rw, some (0, 24), false, []⟩]
  | 0x8 => [fRow 31 24 .rw, fRow 21 16 .rw, fRow 13 8 .rw, fRow 5 0 .rw]
  | 0xC => [fRow 29 25 .rw, fRow 24 20 .rw, fRow 19 15 .rw, fRow 14 10 .rw, fRow 9 5 .rw, fRow 4 0 .rw]
  | 0x10 => [fRow 9 5 .rw, fRow 4 0 .rw]
  | 0x14 => [fRow 15 15 .rw, fRow 14 12 .rw, fRow 11 0 .rw]
  | 0x20 => [fRow 31 31 .w1s, fRow 30 30 .w1s, ⟨29, 28, .rw, none, false, [3]⟩, ⟨27, 22, .rw, some (10, 40), false, []⟩,
      fRow 15 9 .rw, fRow 8 0 .rw]
  | _ => [fRow 31 31 .rw, ⟨30, 28, .rw, none, false, [6, 7]⟩, fRow 27 27 .rw, fRow 26 26 .rw, fRow 25 25 .ro]

/-- The values of these registers after reset. -/
def laneReset : Nat → Nat
  | 0x4 => 0xC
  | 0x20 => 0x15008000
  | _ => 0

/-- A lane register that software writes; a span's page holds one lane (R82, R333). -/
def rowLane (p off : Nat) : RegRow :=
  ⟨0x100 + off, if p < 24 then 0x100 else 0, if p < 24 then 2 else 1, .plain, laneReset off, laneFields off⟩

theorem regAt_lane : ∀ off ∈ [0x4, 0x8, 0xC, 0x10, 0x14, 0x20, 0x40], ∀ (p : Fin 28) (lane : Fin 2), p.val < 24 ∨ lane = 0 →
    regAt (phyLane p lane off) = some (phyUnit p, rowLane p off) := by decide +kernel

section
variable {p : Fin 28} {lane : Fin 2} {off : Nat} (hl : p.val < 24 ∨ lane = 0) (hoff : off ∈ [0x4, 0x8, 0xC, 0x10, 0x14, 0x20, 0x40])
  (s : State) (v : Word)
include hl hoff

theorem State.rd_store_lane : (s.store .phy (phyLane p lane off) v).rd .phy (phyLane p lane off) =
    ((rowLane p off).write false (s.rd .phy (phyLane p lane off)) v).1 :=
  State.rd_store_phy (regAt_lane off hoff p lane hl) rfl (by simp at hoff; omega) s v (by omega)

theorem RegsKept.store_lane : RegsKept .phy [phyLane p lane off, phyStatus p] s (s.store .phy (phyLane p lane off) v) :=
  .store_phy (regAt_lane off hoff p lane hl) rfl (by simp at hoff; omega) s v

theorem StatusStays.store_lane : StatusStays p s (s.store .phy (phyLane p lane off) v) :=
  .store (regAt_lane off hoff p lane hl) rfl (by simp at hoff; omega) s v (by omega)

end

/-! ### Equaliser registers (R77) -/

theorem eqOff_mem (reg : EqReg) : eqOff reg ∈ [0x4, 0x8, 0xC, 0x10, 0x14, 0x20, 0x40] := by cases reg <;> decide

/-- The field of each tap stands in its register, apart from the others. -/
theorem tapField_mem : ∀ i < 12, fRow (tapField (i + 1)).2.1 (tapField (i + 1)).2.2 .rw ∈ laneFields (tapField (i + 1)).1 ∧
    ∀ g ∈ laneFields (tapField (i + 1)).1, g = fRow (tapField (i + 1)).2.1 (tapField (i + 1)).2.2 .rw ∨
      (tapField (i + 1)).2.1 < g.lo ∨ g.hi < (tapField (i + 1)).2.2 := by decide

theorem bits_write_tap (p : Nat) {i : Nat} (hi : i < 12) (old v : Word) :
    bits ((rowLane p (tapField (i + 1)).1).write false old v).1 (tapField (i + 1)).2.1 (tapField (i + 1)).2.2 =
      bits v (tapField (i + 1)).2.1 (tapField (i + 1)).2.2 := by
  obtain ⟨hmem, hapart⟩ := tapField_mem i hi
  exact RegRow.bits_write_taken (r := rowLane p (tapField (i + 1)).1) rfl hmem (tapField_bounds i hi) rfl rfl hapart old rfl

/-- A code that fits five bits, clipped to the range of the CTLE. -/
theorem unsgn_clamp_ctle : ∀ x : Nat, x < 32 → unsgn 5 (clampInt 0 24 x) % 2 ^ 5 = min 24 x := by decide

theorem bits_write_ctle (p : Nat) (old v : Word) : bits ((rowLane p 0x4).write false old v).1 4 0 = min 24 (bits v 4 0) := by
  rw [RegRow.bits_write_field (r := rowLane p 0x4) rfl (f := ⟨4, 0, .rw, some (0, 24), false, []⟩)
    (List.mem_singleton_self _) (fun g hg => .inl (List.mem_singleton.mp hg))]
  exact (bits_putBits_same _ _ _ _ (by decide) (by decide)).trans (unsgn_clamp_ctle (bits v 4 0) (Nat.mod_lt _ (by decide)))

theorem write_freeze (p : Nat) (old v : Word) : ((rowLane p 0x14).write false old v).1 = BitVec.ofNat 32 (bits v 15 0) := by
  apply BitVec.eq_of_getLsbD_eq
  intro j hj
  have hw := RegRow.bit_write (r := rowLane p 0x14) rfl (show ∀ f ∈ laneFields 0x14, f.free = true by decide) false old v j hj
  rw [bit] at hw
  rw [hw, BitVec.getLsbD_ofNat, testBit_bits]
  simp only [rowLane, laneFields, List.any_cons, List.any_nil, fRow, Acc.bitAfter, bit]
  rw [Nat.add_zero]
  cases v.getLsbD j
  · simp
  · rw [Bool.eq_iff_iff]
    simp only [Bool.or_eq_true, Bool.and_eq_true, decide_eq_true_eq, Bool.false_eq_true, and_true, or_false]
    omega

theorem eqRegWrite_stores {p : Fin 28} {lane : Fin 2} {reg : EqReg} {v : Word} {s : State} (hl : p.val < 24 ∨ lane = 0) : ∃ t,
    exec (.eqRegWrite p lane reg v) s = .next t ∧
      (reg = .ctle → t.fld .phy (phyLane p lane 4) 4 0 = min 24 (bits v 4 0)) ∧
      (reg = .freeze → t.rd .phy (phyLane p lane 0x14) = BitVec.ofNat 32 (bits v 15 0)) ∧
      (∀ i, 1 ≤ i → i ≤ 12 → (tapField i).1 = eqOff reg →
        t.fld .phy (phyLane p lane (eqOff reg)) (tapField i).2.1 (tapField i).2.2 =
          bits v (tapField i).2.1 (tapField i).2.2) ∧
      RegsKept .phy [phyLane p lane (eqOff reg), phyStatus p] s t ∧
      t.phyPort p = { s.phyPort p with eqAt := (t.phyPort p).eqAt } ∧ Kept [.phy] s t := by
  have hrd : (s.eqWrite p lane (eqOff reg) v).rd .phy (phyLane p lane (eqOff reg)) = _ :=
    (State.rd_onPhy ..).trans (State.rd_store_lane hl (eqOff_mem reg) s v)
  refine ⟨s.eqWrite p lane (eqOff reg) v, rfl, ?_, ?_, fun i hlo hhi hreg => ?_, ?_, ?_,
    (Kept.store s .phy _ v (by simp)).trans (.onPhy _ p _ (by simp))⟩
  · rintro rfl
    exact (congrArg (bits · 4 0) hrd).trans (bits_write_ctle p _ v)
  · rintro rfl
    exact hrd.trans (write_freeze p _ v)
  · obtain ⟨j, rfl⟩ := Nat.exists_eq_add_of_le' hlo
    rw [State.fld, hrd, ← hreg]
    exact bits_write_tap p (by omega) _ v
  · exact (RegsKept.store_lane hl (eqOff_mem reg) s v).trans (.onPhy _ p _)
  · rw [State.eqWrite, State.onPhy_phyPort_same, State.store_phyPort]

end Sys2Proof.Machine

end

/-! ## RECOVER and QUIET (R84, R91 to R95) -/

section

namespace Sys2Proof.Machine

/-! ### A loss in ACTIVE (R84) -/

/-- What a loss shows on the lane it was met on. -/
def State.lossShown (s : State) (p lane : Nat) : LinkLoss → State
  | .sig => s.put .phy (phyLane p lane 0) 4 2 0
  | .cdr => s.put .phy (phyLane p lane 0) 3 2 0
  | .alignment => s.setb .phy (phyLane p lane 0) 2 false

section
variable (s : State) (p lane : Nat) (loss : LinkLoss)

theorem RegsKept.lossShown : RegsKept .phy [phyLane p lane 0] s (s.lossShown p lane loss) := by
  cases loss
  case sig | cdr => exact .put s _ _ _ _ (by simp)
  case alignment => exact .setb s _ _ _ (by simp)

theorem Kept.lossShown : Kept [.phy] s (s.lossShown p lane loss) := by
  cases loss
  case sig | cdr => exact .put s .phy _ _ _ _ (by simp)
  case alignment => exact .setb s .phy _ _ _ (by simp)

theorem State.phyPort_lossShown : (s.lossShown p lane loss).phyPort p = s.phyPort p := by
  cases loss
  case sig | cdr => exact State.put_phyPort ..
  case alignment => exact State.setb_phyPort ..

theorem State.flag_lossShown_frame : (s.lossShown p lane loss).flag .phy (phyLane p lane 0) 2 = false := by
  cases loss
  case sig | cdr =>
    rw [State.lossShown, State.flag, State.rd_put]
    exact (getLsbD_putBits _ _ _ _ _ (by decide)).trans (by simp)
  case alignment => exact State.flag_setb_same s .phy _ 2 false (by decide)

theorem State.linkRecover_of_active (hst : portState s p = phActive) (hconf : (cfgLanes s p).contains lane = true) :
    s.linkRecover p lane loss = (s.enterRecover p).lossShown p lane loss := by
  rw [State.linkRecover, if_pos ⟨hst, hconf⟩]
  cases loss <;> rfl

end

section
variable {p : Fin 28} {lane : Fin 2} {loss : LinkLoss} {s : State}

theorem linkRecover_idle (hst : portState s p ≠ phActive) : exec (.linkRecover p lane loss) s = .next s := by
  have hidle : s.linkRecover p lane loss = s := if_neg fun ⟨h, _⟩ => hst h
  have hrun : exec (.linkRecover p lane loss) s = .next ((s.linkRecover p lane loss).linkCheck s p) := rfl
  rw [hrun, hidle, State.linkCheck_of_camera s (.inr hst)]

theorem linkRecover_recovers (hst : portState s p = phActive) (hconf : (cfgLanes s p).contains lane.val = true) : ∃ t,
    exec (.linkRecover p lane loss) s = .next t ∧ portState t p = phRecover ∧
      (t.phyPort p).entered = s.now ∧ t.rd .phy (phyRecover p) = satAdd (s.rd .phy (phyRecover p)) 1 ∧
      (t.lnkPort p).await = true ∧ t.flag .phy (phyLane p lane 0) 2 = false ∧
      (loss = .sig → t.fld .phy (phyLane p lane 0) 4 2 = 0) ∧
      (p.val < 24 → BlocksKept [.phy, .lnk, .pix, .pwr] s t) := by
  let r := s.enterRecover p
  let u := r.lossShown p lane loss
  have hrun : exec (.linkRecover p lane loss) s = .next (u.linkCheck s p) :=
    congrArg (fun t : State => Host.Outcome.next (t.linkCheck s p)) (s.linkRecover_of_active p lane loss hst hconf)
  have hrest : ∀ a, a ≠ phyLane p lane 0 → (u.linkCheck s p).rd .phy a = r.rd .phy a := fun a ha =>
    (State.rd_linkCheck ..).trans (RegsKept.lossShown r p lane loss a (by simpa using ha))
  refine ⟨_, hrun, ?_, ?_, ?_, ?_, ?_, ?_, fun hp => ?_⟩
  · rw [portState_congr (hrest _ (by simp; omega)), portState_enterRecover]
  · rw [State.phyPort_linkCheck, State.phyPort_lossShown, State.entered_enterRecover]
  · rw [hrest _ (by simp; omega), State.rd_enterRecover_count]
  · have hlnk : (u.linkCheck s p).lnk = r.lnk :=
      ((Kept.linkCheck u s p).lnk_eq (by simp)).trans ((Kept.lossShown r p lane loss).lnk_eq (by simp))
    rw [State.lnkPort, hlnk]
    exact State.await_enterRecover s p
  · rw [State.flag, State.rd_linkCheck]
    exact State.flag_lossShown_frame r p lane loss
  · rintro rfl
    rw [State.fld, State.rd_linkCheck]
    exact State.fld_put_same r .phy _ 4 2 0 (by decide) (by decide)
  · rw [State.linkCheck_of_camera u (.inl hp)]
    exact ((Kept.enterRecover s p).trans ((Kept.lossShown r p lane loss).mono (by simp))).blocks

end

/-! ### The return to ACTIVE (R84, R95) -/

/-- Every configured lane shows SIG, CDR and FRAME. -/
def State.lanesShown (s : State) (p : Nat) : State :=
  s.each (cfgLanes s p) (fun s l => s.put .phy (phyLane p l 0) 4 2 7)

section
variable (s : State) (p : Nat)

theorem RegsKept.lanesShown : RegsKept .phy (laneRegs p) s (s.lanesShown p) :=
  .each fun u _ hl => .put u _ _ _ _ (phyLane_mem_laneRegs (cfgLanes_lt hl))

theorem Kept.lanesShown : Kept [.phy] s (s.lanesShown p) := Kept.each _ (fun u _ => .put u .phy _ 4 2 7 (by simp)) _ s

theorem State.phyPort_lanesShown : (s.lanesShown p).phyPort p = s.phyPort p :=
  State.each_rel (R := fun s t => t.phyPort p = s.phyPort p) (fun _ => rfl) (fun _ _ _ h k => k.trans h) fun _ _ _ =>
    State.put_phyPort ..

theorem cfgLanes_nodup : (cfgLanes s p).Nodup := by
  unfold cfgLanes
  split <;> simp

theorem State.fld_lanesShown {l : Nat} (hl : l ∈ cfgLanes s p) : (s.lanesShown p).fld .phy (phyLane p l 0) 4 2 = 7 := by
  obtain ⟨u, -, hrest⟩ := State.each_at (R := fun s t : State => t.fld .phy (phyLane p l 0) 4 2 = s.fld .phy (phyLane p l 0) 4 2)
    (fun _ => rfl) (fun _ _ _ h k => k.trans h) (cfgLanes_nodup s p) hl (f := fun s l => s.put .phy (phyLane p l 0) 4 2 7)
    (fun t l' _ hne => State.fld_put_phyAt t (by omega) 4 2 7 4 2) s
  exact hrest.trans (State.fld_put_same u .phy _ 4 2 7 (by decide) (by decide))

theorem State.backToActive_eq : s.backToActive p =
    ((s.lanesShown p).phyGo p phActive).onPhy p (fun x => { x with quietExit := none, quietReq := none }) := rfl

theorem RegsKept.backToActive : RegsKept .phy [phyStatus p, phyLane p 0 0, phyLane p 1 0] s (s.backToActive p) :=
  ((RegsKept.lanesShown s p).mono (by simp)).trans ((RegsKept.phyGo _ p _ (by simp)).trans (.onPhy _ p _))

theorem Kept.backToActive : Kept [.phy] s (s.backToActive p) :=
  (Kept.lanesShown s p).trans ((Kept.phyGo _ p _).trans (.onPhy _ p _ (by simp)))

theorem portState_backToActive : portState (s.backToActive p) p = phActive := by
  rw [State.backToActive_eq, portState_congr (State.rd_onPhy ..)]
  exact portState_phyGo _ p phActive

theorem State.phyPort_backToActive :
    (s.backToActive p).phyPort p = { s.phyPort p with entered := s.now, quietExit := none, quietReq := none } := by
  have hnow : (s.lanesShown p).now = s.now := by rw [State.now, (Kept.lanesShown s p).time_eq (by simp), State.now]
  rw [State.backToActive_eq, State.onPhy_phyPort_same, State.phyPort_phyGo, State.phyPort_lanesShown, hnow]

theorem State.fld_backToActive {l : Nat} (hl : l ∈ cfgLanes s p) : (s.backToActive p).fld .phy (phyLane p l 0) 4 2 = 7 := by
  rw [State.backToActive_eq, State.fld_onPhy, State.fld, RegsKept.phyGo _ p phActive (as := [phyStatus p]) (by simp) _ (by simp; omega)]
  exact s.fld_lanesShown p hl

end

theorem recoverDone_unaligned {p : Fin 28} {s : State} (hno : isAligned s p = false) : exec (.recoverDone p) s = .next s :=
  congrArg Host.Outcome.next (if_neg (by simp [hno]))

theorem recoverDone_aligned {p : Fin 28} {s : State} (hst : portState s p = phRecover) (hal : isAligned s p = true) : ∃ t,
    exec (.recoverDone p) s = .next t ∧ portState t p = phActive ∧
      (t.phyPort p).entered = s.now ∧ (∀ l ∈ cfgLanes s p, t.fld .phy (phyLane p l 0) 4 2 = 7) ∧
      RegsKept .phy [phyStatus p, phyLane p 0 0, phyLane p 1 0] s t ∧ Kept [.phy] s t := by
  refine ⟨_, congrArg Host.Outcome.next (if_pos ⟨hst, hal⟩), portState_backToActive s p, ?_, fun l => s.fld_backToActive p,
    .backToActive s p, .backToActive s p⟩
  rw [State.phyPort_backToActive]

/-! ### QUIET (R92 to R95) -/

section
variable {p : Fin 24} {s : State} {t0 : Nat}

theorem execQuietAckTimeout_of_req (hreq : (s.phyPort p).quietReq = some t0) :
    exec (.quietAckTimeout p) s = .next (if t0 + 10000 ≤ s.now then s.quietNak p else s) := by
  have hrun : exec (.quietAckTimeout p) s = .next (match (s.phyPort p).quietReq with
    | some t => if t + 10000 ≤ s.now then s.quietNak p else s
    | none => s) := rfl
  rw [hrun, hreq]

theorem quietAckTimeout_due (hreq : (s.phyPort p).quietReq = some t0) (hdue : t0 + 10000 ≤ s.now) : ∃ t,
    exec (.quietAckTimeout p) s = .next t ∧ t.flag .phy (phyStatus p) 5 = true ∧
      t.phyPort p = { s.phyPort p with quietReq := none, quietHold := s.now + 1000000 } ∧
      RegsKept .phy [phyStatus p] s t ∧ Kept [.phy] s t := by
  refine ⟨s.quietNak p, ?_, ?_, ?_, (RegsKept.setb s _ 5 true (by simp)).trans (.onPhy _ p _),
    (Kept.setb s .phy _ 5 true (by simp)).trans (.onPhy _ p _ (by simp))⟩
  · rw [execQuietAckTimeout_of_req hreq, if_pos hdue]
  · rw [State.quietNak, State.flag_onPhy, State.flag_setb_same _ _ _ _ _ (by decide)]
  · rw [State.quietNak, State.onPhy_phyPort_same, State.setb_phyPort]

theorem quietExit_awake {how : QuietExit} (hst : portState s p ≠ phQuiet) : exec (.quietExit p how) s = .next s :=
  congrArg Host.Outcome.next (if_neg fun ⟨h, _⟩ => hst h)

section
variable (hst : portState s p = phQuiet)
include hst

theorem State.quietExitStart_of_quiet (hnone : (s.phyPort p).quietExit = none) :
    s.quietExitStart p = s.onPhy p (fun x => { x with quietExit := some s.now }) :=
  if_pos ⟨hst, by simp [hnone]⟩

theorem quietExit_starts {how : QuietExit} (hnone : (s.phyPort p).quietExit = none) : ∃ t,
    exec (.quietExit p how) s = .next t ∧ portState t p = phQuiet ∧
      t.phyPort p = { s.phyPort p with quietExit := some s.now } ∧
      (how = .wake → (t.lnkPort p).lctl = (s.lnkPort p).lctl ++ [2]) ∧ (how ≠ .wake → t.lnk = s.lnk) ∧
      RegsKept .phy [phyLane p 0 0, phyLane p 1 0] s t ∧ Kept [.phy, .lnk] s t := by
  let u := s.onPhy p (fun x => { x with quietExit := some s.now })
  have hstart : s.quietExitStart p = u := State.quietExitStart_of_quiet hst hnone
  have hport : u.phyPort p = { s.phyPort p with quietExit := some s.now } := State.onPhy_phyPort_same _ _ _
  have hstu : portState u p = phQuiet := hst
  have hreg : RegsKept .phy [phyLane p 0 0, phyLane p 1 0] s u := .onPhy s p _
  have hkept : Kept [.phy, .lnk] s u := .onPhy s p _ (by simp)
  have hrun : exec (.quietExit p how) s = .next (match how with
      | .wake => s.wakePort p
      | .trigger => s.quietExitStart p
      | .signal => (s.quietExitStart p).each (cfgLanes s p) (fun s l => s.setb .phy (phyLane p l 0) 4 true)) :=
    congrArg Host.Outcome.next (if_pos ⟨hst, by simp [hnone]⟩)
  rw [hstart] at hrun
  cases how with
  | wake =>
    have hwake : s.wakePort p = u.sendLctl p 2 := by
      rw [State.wakePort, if_pos ⟨hst, by simp [hnone]⟩, hstart]
    refine ⟨u.sendLctl p 2, hrun.trans (congrArg Host.Outcome.next hwake), hstu, hport, fun _ => ?_, fun h => absurd rfl h,
      hreg.trans (.onLnk u p _), hkept.trans (.onLnk u p _ (by simp))⟩
    rw [State.sendLctl, State.onLnk_lnkPort_same]
    rfl
  | trigger => exact ⟨u, hrun, hstu, hport, fun h => by simp at h, fun _ => rfl, hreg, hkept⟩
  | signal =>
    let t := u.each (cfgLanes s p) (fun s l => s.setb .phy (phyLane p l 0) 4 true)
    have hregs : RegsKept .phy [phyLane p 0 0, phyLane p 1 0] u t :=
      .each fun v _ hl => .setb v _ 4 true (phyLane_mem_laneRegs (cfgLanes_lt hl))
    have hrest : Kept [.phy] u t := Kept.each _ (fun v _ => .setb v .phy _ 4 true (by simp)) _ u
    have hsame : t.phyPort p = u.phyPort p :=
      State.each_rel (R := fun s t => t.phyPort p = s.phyPort p) (fun _ => rfl) (fun _ _ _ h k => k.trans h) fun _ _ _ =>
        State.setb_phyPort ..
    exact ⟨t, hrun, (portState_congr (hregs _ (by simp))).trans hstu, hsame.trans hport, fun h => by simp at h,
      fun _ => hrest.lnk_eq (by simp), hreg.trans hregs, hkept.trans (hrest.mono (by simp))⟩

section
variable (hexit : (s.phyPort p).quietExit = some t0)
include hexit

theorem quietExitDone_aligned (hal : isAligned s p = true) : ∃ t,
    exec (.quietExitDone p) s = .next t ∧ portState t p = phActive ∧ (t.phyPort p).quietExit = none ∧
      RegsKept .phy [phyStatus p, phyLane p 0 0, phyLane p 1 0] s t ∧ Kept [.phy] s t := by
  refine ⟨_, congrArg Host.Outcome.next (if_pos ⟨hst, by simp [hexit], hal⟩), portState_backToActive s p, ?_, .backToActive s p,
    .backToActive s p⟩
  rw [State.phyPort_backToActive]

theorem quietExitTimeout_recovers (hdue : t0 + 100000 ≤ s.now) : ∃ t,
    exec (.quietExitTimeout p) s = .next t ∧ portState t p = phRecover ∧
      t.rd .phy (phyRecover p) = satAdd (s.rd .phy (phyRecover p)) 1 ∧ BlocksKept [.phy, .lnk, .pix, .pwr] s t := by
  have hrun : exec (.quietExitTimeout p) s = .next (match (s.phyPort p).quietExit with
    | some t => if portState s p = phQuiet ∧ t + 100000 ≤ s.now then s.enterRecover p else s
    | none => s) := rfl
  rw [hexit] at hrun
  exact ⟨_, hrun.trans (congrArg Host.Outcome.next (if_pos ⟨hst, hdue⟩)), portState_enterRecover s p,
    s.rd_enterRecover_count p, (Kept.enterRecover s p).blocks⟩

end

end

end

end Sys2Proof.Machine

end

/-! ## Lost reference clocks (R89, R390) -/

section

namespace Sys2Proof.Machine

/-! ### A report raises the first-fault flag (R396) -/

section
variable (s : State)

theorem State.rd_wrList_below {b : Blk} {a' : Nat} (ws : List Word) :
    ∀ (s : State) (a : Nat), a' < a → (s.wrList b a ws).rd b a' = s.rd b a' := by
  induction ws with
  | nil => exact fun _ _ _ => rfl
  | cons w ws ih => exact fun s a h => (ih _ _ (by omega)).trans (s.rd_wr_ne b a a' w (by omega))

theorem State.rd_logAppend_status (rec : List Word) : (s.logAppend rec).rd .flt FLT_STATUS = s.rd .flt FLT_STATUS := by
  have hprod : (s.logAppend rec).rd .flt FLT_STATUS = (s.wrList .flt (FLT_LOG ((s.rd .flt FLT_LOG_PROD).toNat % 256 * 8)) rec).rd
      .flt FLT_STATUS := State.rd_wr_ne _ .flt FLT_LOG_PROD FLT_STATUS _ (by decide)
  exact hprod.trans (State.rd_wrList_below rec s _ (by simp [FLT_LOG, FLT_STATUS]; omega))

theorem State.flag_fltFlags_first : s.fltFlags.flag .flt FLT_STATUS 30 = s.flag .flt FLT_STATUS 30 := by
  rw [State.fltFlags, State.flag_setb_bit _ _ _ 28 30 _ (by decide), State.flag_setb_bit _ _ _ 29 30 _ (by decide)]

theorem State.flag_reportOne_first (e : FltRep) : (s.reportOne e).flag .flt FLT_STATUS 30 = true := by
  unfold State.reportOne
  extract_lets s₁ fits r s₂ s₃ o s₄ flt s₅
  have h₂ : s₂.flag .flt FLT_STATUS 30 = true := by
    unfold s₂
    split
    · assumption
    · exact State.flag_setb_same _ _ _ _ _ (by decide)
  have h₃ : s₃.flag .flt FLT_STATUS 30 = true := by
    unfold s₃
    split
    · rw [State.flag_setb_bit _ _ _ 31 30 _ (by decide), State.flag,
        State.rd_wrList_below r s₂ (FLT_FATAL 0) (by decide), ← State.flag, h₂]
    · exact h₂
  have h₅ : s₅.flag .flt FLT_STATUS 30 = true := by
    unfold s₅
    split
    · rw [State.flag, State.rd_logAppend_status, ← State.flag, h₃]
    · have h₄ : s₄.rd .flt FLT_STATUS = s₃.rd .flt FLT_STATUS :=
        (State.rd_count_ne _ .flt FLT_NOT_LOGGED FLT_STATUS (by decide)).trans
          (State.rd_count_ne _ .flt (FLT_COAL e.code) FLT_STATUS (by simp [FLT_COAL, FLT_STATUS]; omega))
      clear_value s₄
      exact (congrArg (bit · 30) h₄).trans h₃
  rw [State.flag_fltFlags_first, h₅]

theorem insertRep_ne_nil (e : FltRep) (l : List FltRep) : insertRep e l ≠ [] := by
  cases l with
  | nil => simp [insertRep]
  | cons x xs =>
    unfold insertRep
    split <;> simp

theorem State.flag_reports_first {l : List FltRep} (hl : l ≠ []) : (s.each l State.reportOne).flag .flt FLT_STATUS 30 = true := by
  obtain ⟨init, e, rfl⟩ := List.eq_nil_or_concat' l |>.resolve_left hl
  have hlast : s.each (init ++ [e]) State.reportOne = (s.each init State.reportOne).reportOne e := List.foldl_append
  rw [hlast, State.flag_reportOne_first]

theorem State.flag_contained_first (domain code inst detail : Nat) :
    (s.contained domain code inst detail).flag .flt FLT_STATUS 30 = true :=
  State.flag_reports_first _ (insertRep_ne_nil _ _)

end

/-! ### Ports apart (R19, R82) -/

theorem refPorts_nodup (r : Nat) : (refPorts r).Nodup :=
  List.nodup_range.map fun i j h => by simpa using h

/-! ### A port that loses its reference -/

section
variable (s : State) (p : Nat)

theorem RegsKept.loseRef : RegsKept .phy (downRegs p) s (s.loseRef p) :=
  (RegsKept.phyOffNow s p).trans ((RegsKept.put _ _ 27 24 14 (by simp)).trans (.setb _ _ 18 true (by simp)))

theorem Kept.loseRef : Kept portBlks s (s.loseRef p) :=
  (Kept.phyOffNow s p).trans ((Kept.put _ .phy _ 27 24 14 (by simp)).trans (.setb _ .phy _ 18 true (by simp)))

theorem portState_loseRef : portState (s.loseRef p) p = phOff := by
  rw [State.loseRef, portState_setb_status _ _ _ (by decide), portState, State.fld_put_field _ _ _ 27 24 14 31 28 (by decide)]
  exact portState_phyOffNow s p

theorem State.cause_loseRef : (s.loseRef p).fld .phy (phyStatus p) 27 24 = 14 := by
  rw [State.loseRef, State.fld_setb_bit _ _ _ 18 true 27 24 (by decide)]
  exact State.fld_put_same _ _ _ _ _ _ (by decide) (by decide)

theorem refOk_loseRef : refOk (s.loseRef p) p = false := by
  rw [State.loseRef, refOk, State.flag_setb_same _ _ _ _ _ (by decide), Bool.not_true]

/-- A port's loss leaves the status of every other. -/
theorem State.rd_loseRef_other {q : Nat} (hne : q ≠ p) : (s.loseRef q).rd .phy (phyStatus p) = s.rd .phy (phyStatus p) :=
  RegsKept.loseRef s q _ (by simp [phyAt_eq_iff, hne.symm])

end

theorem dlRefclkLoss_stops {r : Fin 3} {s : State} (href : refOk s (r.val * 8) = true) : ∃ t,
    exec (.dlRefclkLoss r) s = .next t ∧
      (∀ p ∈ refPorts r.val, portState t p = phOff ∧ t.fld .phy (phyStatus p) 27 24 = 14 ∧ refOk t p = false) ∧
      (∀ q, q < 28 → q ∉ refPorts r.val → portState t q = portState s q) ∧ t.flag .flt FLT_STATUS 30 = true ∧
      BlocksKept [.phy, .lnk, .pix, .evt, .pwr, .flt] s t := by
  let u := s.each (refPorts r) State.loseRef
  have hrep := Kept.contained u 42 0x30 r 0
  have hstatus : ∀ p, (u.contained 42 0x30 r 0).rd .phy (phyStatus p) = u.rd .phy (phyStatus p) := fun p => hrep.rd_eq (by simp) _
  refine ⟨u.contained 42 0x30 r 0, congrArg Host.Outcome.next (if_pos href), fun p hp => ?_, fun q _ hq => ?_,
    u.flag_contained_first _ _ _ _, ((Kept.each _ (fun t q => (Kept.loseRef t q).mono (by simp +contextual)) _ s).trans
      (hrep.mono (by simp))).blocks⟩
  · obtain ⟨v, -, hrest⟩ := State.each_at (R := fun s t : State => t.rd .phy (phyStatus p) = s.rd .phy (phyStatus p))
      (fun _ => rfl) (fun _ _ _ h k => k.trans h) (refPorts_nodup r) hp (f := State.loseRef)
      (fun t q _ hne => t.rd_loseRef_other p hne) s
    have hsame := (hstatus p).trans hrest
    refine ⟨(portState_congr hsame).trans (portState_loseRef v p), ?_, (refOk_congr hsame).trans (refOk_loseRef v p)⟩
    exact (congrArg (bits · 27 24) hsame).trans (v.cause_loseRef p)
  · refine portState_congr ((hstatus q).trans ?_)
    exact State.each_rel (R := fun s t : State => t.rd .phy (phyStatus q) = s.rd .phy (phyStatus q)) (fun _ => rfl)
      (fun _ _ _ h k => k.trans h) fun t p hp => t.rd_loseRef_other q fun he => hq (he ▸ hp)

/-! ### A port whose reference returns -/

section
variable (s : State) (p : Nat)

theorem BlocksKept.refl (bs : List Blk) : BlocksKept bs s s := (Kept.refl bs s).blocks

variable {s} in
theorem BlocksKept.pwr_eq {bs : List Blk} {t : State} (h : BlocksKept bs s t) (hb : Blk.pwr ∉ bs) : t.pwr = s.pwr := by
  obtain ⟨-, -, -, -, -, -, -, -, -, -, -, -, -, -, -, hpwr, -⟩ := h
  exact hpwr hb

theorem State.phyStart_kept : BlocksKept [.phy, .lnk] s (s.phyStart p) ∧
    RegsKept .phy (laneRegs p ++ [phyStatus p]) s (s.phyStart p) := by
  by_cases hpwr : s.fld .pwr PWR_STATUS 31 28 = 2 ∨ s.fld .pwr PWR_STATUS 31 28 = 4
  · rw [State.phyStart, if_pos hpwr]
    exact ⟨.refl s _, .refl _ _ s⟩
  · obtain ⟨h₂, h₄⟩ := not_or.mp hpwr
    obtain ⟨u, ⟨hu, hregs⟩, hstart⟩ := s.phyStart_of_powered p h₂ h₄
    rw [hstart]
    exact ⟨hu.trans (Kept.phyDetect u p).blocks, (hregs.mono (by simp)).trans (.phyDetect u p)⟩

/-- REFCLK_LOST is clear. -/
def State.refBack : State := s.setb .phy (phyStatus p) 18 false

theorem State.gainRef_eq : s.gainRef p =
    if (s.refBack p).flag .phy (phyCtrl p) 31 && portState (s.refBack p) p == phOff then
      ((s.refBack p).put .phy (phyBackoff p) 3 0 0).phyStart p
    else s.refBack p := rfl

theorem portState_refBack : portState (s.refBack p) p = portState s p := portState_setb_status s p false (by decide)

theorem State.enabled_refBack : (s.refBack p).flag .phy (phyCtrl p) 31 = s.flag .phy (phyCtrl p) 31 :=
  State.flag_setb_phyAt s (by decide) 18 false 31

theorem refOk_refBack : refOk (s.refBack p) p = true := by
  rw [State.refBack, refOk, State.flag_setb_same _ _ _ _ _ (by decide), Bool.not_false]

theorem BlocksKept.gainRef : BlocksKept [.phy, .lnk] s (s.gainRef p) := by
  have hback : BlocksKept [.phy, .lnk] s (s.refBack p) := (Kept.setb s .phy _ 18 false (by simp)).blocks
  rw [State.gainRef_eq]
  split
  · exact hback.trans ((Kept.put _ .phy _ 3 0 0 (by simp)).blocks.trans (State.phyStart_kept _ p).1)
  · exact hback

theorem RegsKept.gainRef : RegsKept .phy (laneRegs p ++ [phyStatus p, phyBackoff p]) s (s.gainRef p) := by
  have hback : RegsKept .phy (laneRegs p ++ [phyStatus p, phyBackoff p]) s (s.refBack p) := .setb s _ 18 false (by simp)
  rw [State.gainRef_eq]
  split
  · exact hback.trans ((RegsKept.put _ _ 3 0 0 (by simp)).trans ((State.phyStart_kept _ p).2.mono (by simp +contextual)))
  · exact hback

theorem State.gainRef_of_off (hoff : s.flag .phy (phyCtrl p) 31 = false) : s.gainRef p = s.refBack p := by
  rw [State.gainRef_eq, State.enabled_refBack, hoff, Bool.false_and, if_neg Bool.false_ne_true]

theorem refOk_phyDetect : refOk (s.phyDetect p) p = refOk s p := by
  rw [refOk_congr (s.rd_phyDetect_status p), State.detectNow, refOk_congr (State.rd_onPhy ..), refOk,
    State.flag_setb_bit _ _ _ 20 18 _ (by decide), State.flag_setb_bit _ _ _ 17 18 _ (by decide),
    State.flag_phyGo_status s p _ (by decide), refOk]

theorem refOk_phyStart : refOk (s.phyStart p) p = refOk s p := by
  by_cases hpwr : s.fld .pwr PWR_STATUS 31 28 = 2 ∨ s.fld .pwr PWR_STATUS 31 28 = 4
  · rw [State.phyStart, if_pos hpwr]
  · obtain ⟨h₂, h₄⟩ := not_or.mp hpwr
    obtain ⟨u, ⟨-, hregs⟩, hstart⟩ := s.phyStart_of_powered p h₂ h₄
    rw [hstart, refOk_phyDetect, refOk_congr (hregs (phyStatus p) (by simp))]

theorem refOk_gainRef : refOk (s.gainRef p) p = true := by
  rw [State.gainRef_eq]
  split
  · rw [refOk_phyStart, refOk_congr (State.rd_put_phyAt _ (by decide) 3 0 0), refOk_refBack]
  · exact refOk_refBack s p

/-- An enabled port in OFF trains anew, with k = 0. -/
theorem State.gainRef_trains (hon : s.flag .phy (phyCtrl p) 31 = true) (hoff : portState s p = phOff)
    (h₂ : s.fld .pwr PWR_STATUS 31 28 ≠ 2) (h₄ : s.fld .pwr PWR_STATUS 31 28 ≠ 4) :
    portState (s.gainRef p) p = phDetect ∧ (s.gainRef p).fld .phy (phyBackoff p) 3 0 = 0 := by
  let v := (s.refBack p).put .phy (phyBackoff p) 3 0 0
  have hrun : s.gainRef p = v.phyStart p := by
    rw [State.gainRef_eq, State.enabled_refBack, portState_refBack, hon, hoff]
    rfl
  obtain ⟨u, ⟨-, hregs⟩, hstart⟩ := v.phyStart_of_powered p h₂ h₄
  rw [hrun, hstart]
  refine ⟨portState_phyDetect u p, ?_⟩
  rw [State.fld, RegsKept.phyDetect u p _ (by simp), hregs _ (by simp), ← State.fld]
  exact State.fld_put_same _ _ _ _ _ _ (by decide) (by decide)

/-- What a port's return reads of its page and of power. -/
def PortStays (p : Nat) (s t : State) : Prop :=
  t.rd .phy (phyStatus p) = s.rd .phy (phyStatus p) ∧ t.rd .phy (phyCtrl p) = s.rd .phy (phyCtrl p) ∧
    t.rd .phy (phyBackoff p) = s.rd .phy (phyBackoff p) ∧ t.pwr = s.pwr

theorem PortStays.refl : PortStays p s s := ⟨rfl, rfl, rfl, rfl⟩

variable {s p} in
theorem PortStays.trans {t u : State} (h : PortStays p s t) (k : PortStays p t u) : PortStays p s u := by
  obtain ⟨h₁, h₂, h₃, h₄⟩ := h
  obtain ⟨k₁, k₂, k₃, k₄⟩ := k
  exact ⟨k₁.trans h₁, k₂.trans h₂, k₃.trans h₃, k₄.trans h₄⟩

theorem portStays_gainRef {q : Nat} (hne : q ≠ p) : PortStays p s (s.gainRef q) := by
  have hrd : ∀ o ∈ [0x0, 0x4, 0xC], (s.gainRef q).rd .phy (phyAt p o) = s.rd .phy (phyAt p o) := fun o ho =>
    RegsKept.gainRef s q _ (by
      have : o < 0x1000 := by simp at ho; omega
      simp [phyAt_eq_iff, hne.symm, this])
  exact ⟨hrd 0x4 (by simp), hrd 0x0 (by simp), hrd 0xC (by simp), (BlocksKept.gainRef s q).pwr_eq (by simp)⟩

end

theorem dlRefclkReturn_starts {r : Fin 3} {s : State} (href : refOk s (r.val * 8) = false) : ∃ t,
    exec (.dlRefclkReturn r) s = .next t ∧
      (∀ p ∈ refPorts r.val, refOk t p = true ∧
        (s.flag .phy (phyCtrl p) 31 = true → portState s p = phOff → s.fld .pwr PWR_STATUS 31 28 ≠ 2 →
          s.fld .pwr PWR_STATUS 31 28 ≠ 4 → portState t p = phDetect ∧ t.fld .phy (phyBackoff p) 3 0 = 0) ∧
        (s.flag .phy (phyCtrl p) 31 = false → portState t p = portState s p)) ∧
      BlocksKept [.phy, .lnk] s t := by
  refine ⟨s.each (refPorts r) State.gainRef, congrArg Host.Outcome.next (if_neg (by simp [href])), fun p hp => ?_,
    State.each_rel (fun s => .refl s _) (fun _ _ _ => .trans) fun t q _ => .gainRef t q⟩
  obtain ⟨u, ⟨hst, hctrl, -, hpwr⟩, hst', -, hback', -⟩ := State.each_at (R := PortStays p) (fun t => .refl t p)
    (fun _ _ _ => .trans) (refPorts_nodup r) hp (f := State.gainRef) (fun t q _ hne => portStays_gainRef t p hne) s
  have hpower : u.fld .pwr PWR_STATUS 31 28 = s.fld .pwr PWR_STATUS 31 28 :=
    congrArg (fun x : PwrSt => bits (rget x.regs PWR_STATUS) 31 28) hpwr
  have hen : u.flag .phy (phyCtrl p) 31 = s.flag .phy (phyCtrl p) 31 := congrArg (bit · 31) hctrl
  refine ⟨(refOk_congr hst').trans (refOk_gainRef u p), fun hon hoff h₂ h₄ => ?_, fun hdis => ?_⟩
  · obtain ⟨hdet, hk⟩ := u.gainRef_trains p (hen.trans hon) ((portState_congr hst).trans hoff) (hpower ▸ h₂) (hpower ▸ h₄)
    exact ⟨(portState_congr hst').trans hdet, (congrArg (bits · 3 0) hback').trans hk⟩
  · rw [portState_congr hst', u.gainRef_of_off p (hen.trans hdis), portState_refBack, portState_congr hst]

end Sys2Proof.Machine

end

/-! ## The obligation on adaptation, RECOVER, reference clocks and QUIET -/

section

open Sys2Proof Sys2Proof.Machine

/-- Settles O17: each clause is the lemma of its instruction. -/
theorem portsRecoverRestAndAdapt : Obligations.PortsRecoverRestAndAdapt := by
  unfold Obligations.PortsRecoverRestAndAdapt
  refine ⟨fun p lane moves s => adaptUpdate_moves, fun p lane reg v s => eqRegWrite_stores,
    fun p lane loss s => ⟨linkRecover_idle, linkRecover_recovers⟩,
    fun p s hst => ⟨recoverDone_unaligned, recoverDone_aligned hst⟩, fun r s => dlRefclkLoss_stops,
    fun r s => dlRefclkReturn_starts, fun p s t0 hreq => ⟨fun h => ?waits, quietAckTimeout_due hreq⟩,
    fun p how s => ⟨quietExit_awake, fun hst => quietExit_starts hst⟩,
    fun p s t0 hst hexit => ⟨quietExitDone_aligned hst hexit, quietExitTimeout_recovers hst hexit⟩⟩
  case waits => exact (execQuietAckTimeout_of_req hreq).trans (congrArg Host.Outcome.next (if_neg (by omega)))

end

/-! ## Eye scans (R96, R97) -/

section

namespace Sys2Proof.Machine

theorem RegsKept.rd64_eq {b : Blk} {as : List Nat} {s t : State} (h : RegsKept b as s t) {lo hi : Nat} (hlo : lo ∉ as)
    (hhi : hi ∉ as) : t.rd64 b lo hi = s.rd64 b lo hi := by rw [State.rd64, h lo hlo, h hi hhi, State.rd64]

theorem RegsKept.flag_eq {b : Blk} {as : List Nat} {s t : State} (h : RegsKept b as s t) {a : Nat} (ha : a ∉ as) (i : Nat) :
    t.flag b a i = s.flag b a i := congrArg (bit · i) (h a ha)

theorem RegsKept.fld_eq {b : Blk} {as : List Nat} {s t : State} (h : RegsKept b as s t) {a : Nat} (ha : a ∉ as) (hi lo : Nat) :
    t.fld b a hi lo = s.fld b a hi lo := congrArg (bits · hi lo) (h a ha)

theorem RegsKept.countBy {b : Blk} {as : List Nat} (s : State) {a : Nat} (n : Nat) (ha : a ∈ as) : RegsKept b as s (s.countBy b a n) :=
  fun _ h => s.rd_countBy_ne b a _ n fun e => h (e ▸ ha)

theorem Kept.wr64 {bs : List Blk} (s : State) (b : Blk) (lo hi x : Nat) (hb : b ∈ bs) : Kept bs s (s.wr64 b lo hi x) :=
  (Kept.wr s b lo _ hb).trans (.wr _ b hi _ hb)

/-! ### START (R96) -/

/-- The fields of a write to DLP_ESCAN_CTRL are stored, START and ABORT left out. -/
def State.escanStored (s : State) (p lane : Nat) (v : Word) : State :=
  s.store .phy (phyLane p lane 0x20) (v &&& ~~~ maskOf 31 30)

/-- A measurement begins: its counts are cleared, START and BUSY set. -/
def State.escanBegun (s : State) (p lane : Nat) : State :=
  let u := (s.wr48 .phy (phyLane p lane 0x28) (phyLane p lane 0x2C) 0).wr .phy (phyLane p lane 0x30) 0#32
  (u.setb .phy (phyLane p lane 0x20) 31 true).setb .phy (phyLane p lane 0x24) 0 true

section
variable (s : State) (p lane : Nat)

/-- A START with an EYE that the modulation has. -/
theorem State.escanWrite_of_start {v : Word} (heye : isPam4 s p = true ∨ bits v 29 28 = 1) (hgo : bit v 31 = true)
    (hno : bit v 30 = false) : s.escanWrite p lane v =
      if portState (s.escanStored p lane v) p = phActive ∧ ¬ (s.escanStored p lane v).flag .phy (phyLane p lane 0x24) 0 then
        (s.escanStored p lane v).escanBegun p lane
      else (s.escanStored p lane v).setb .phy (phyLane p lane 0x24) 1 true := by
  have hgood : (!isPam4 s p && bits v 29 28 != 1) = false := by rcases heye with h | h <;> simp [h]
  simp only [State.escanWrite, hgood, hgo, hno, Bool.false_eq_true, Bool.not_true, if_false]
  rfl

theorem State.flag_escanBegun_busy : (s.escanBegun p lane).flag .phy (phyLane p lane 0x24) 0 = true :=
  State.flag_setb_same _ _ _ _ _ (by decide)

theorem State.flag_escanBegun_start : (s.escanBegun p lane).flag .phy (phyLane p lane 0x20) 31 = true := by
  rw [State.escanBegun, State.flag_setb_phyAt _ (by omega), State.flag_setb_same _ _ _ _ _ (by decide)]

/-- START and BUSY are set behind the counts. -/
theorem RegsKept.escanBegun_counts : RegsKept .phy [phyLane p lane 0x20, phyLane p lane 0x24]
    ((s.wr48 .phy (phyLane p lane 0x28) (phyLane p lane 0x2C) 0).wr .phy (phyLane p lane 0x30) 0#32) (s.escanBegun p lane) :=
  (RegsKept.setb _ _ 31 true (by simp)).trans (.setb _ _ 0 true (by simp))

theorem State.rd_escanBegun_errors : (s.escanBegun p lane).rd .phy (phyLane p lane 0x30) = 0#32 := by
  rw [RegsKept.escanBegun_counts s p lane _ (by simp), State.rd_wr_same]

theorem State.rd64_escanBegun : (s.escanBegun p lane).rd64 .phy (phyLane p lane 0x28) (phyLane p lane 0x2C) = 0 := by
  have herr : RegsKept .phy [phyLane p lane 0x30] (s.wr48 .phy (phyLane p lane 0x28) (phyLane p lane 0x2C) 0)
      ((s.wr48 .phy (phyLane p lane 0x28) (phyLane p lane 0x2C) 0).wr .phy (phyLane p lane 0x30) 0#32) := .wr _ _ _ (by simp)
  rw [(RegsKept.escanBegun_counts s p lane).rd64_eq (by simp) (by simp), herr.rd64_eq (by simp) (by simp),
    State.wr48_eq_wr64 _ _ _ _ (by decide), State.rd64_wr64 _ _ (by simp) (by decide)]

theorem RegsKept.escanBegun : RegsKept .phy [phyLane p lane 0x20, phyLane p lane 0x24, phyLane p lane 0x28, phyLane p lane 0x2C,
    phyLane p lane 0x30] s (s.escanBegun p lane) := by
  rw [State.escanBegun, State.wr48_eq_wr64 _ _ _ _ (by decide)]
  exact ((RegsKept.wr64 s 0 (by simp) (by simp)).trans (.wr _ _ _ (by simp))).trans
    ((RegsKept.setb _ _ 31 true (by simp)).trans (.setb _ _ 0 true (by simp)))

theorem Kept.escanBegun : Kept [.phy] s (s.escanBegun p lane) := by
  rw [State.escanBegun, State.wr48_eq_wr64 _ _ _ _ (by decide)]
  exact ((Kept.wr64 s .phy _ _ 0 (by simp)).trans (.wr _ .phy _ _ (by simp))).trans
    ((Kept.setb _ .phy _ 31 true (by simp)).trans (.setb _ .phy _ 0 true (by simp)))

end

section
variable {p : Fin 28} {lane : Fin 2} {v : Word} {s : State} (hl : p.val < 24 ∨ lane = 0)
  (heye : isPam4 s p = true ∨ bits v 29 28 = 1) (hgo : bit v 31 = true) (hno : bit v 30 = false)
include hl

theorem RegsKept.escanStored : RegsKept .phy [phyLane p lane 0x20, phyStatus p] s (s.escanStored p lane v) :=
  .store_lane hl (by simp) s _

theorem portState_escanStored : portState (s.escanStored p lane v) p = portState s p :=
  (StatusStays.store_lane hl (off := 0x20) (by simp) s _).portState

include heye hgo hno

theorem escanStart_begins (hst : portState s p = phActive) (hidle : s.flag .phy (phyLane p lane 0x24) 0 = false) : ∃ t,
    exec (.escanStart p lane v) s = .next t ∧ t.flag .phy (phyLane p lane 0x24) 0 = true ∧
      t.flag .phy (phyLane p lane 0x20) 31 = true ∧ t.rd .phy (phyLane p lane 0x30) = 0#32 ∧
      t.rd64 .phy (phyLane p lane 0x28) (phyLane p lane 0x2C) = 0 ∧
      RegsKept .phy [phyLane p lane 0x20, phyLane p lane 0x24, phyLane p lane 0x28, phyLane p lane 0x2C,
        phyLane p lane 0x30, phyStatus p] s t ∧ Kept [.phy] s t := by
  let u := s.escanStored p lane v
  have hstored : RegsKept .phy [phyLane p lane 0x20, phyStatus p] s u := .escanStored hl
  have hidle' : u.flag .phy (phyLane p lane 0x24) 0 = false := (hstored.flag_eq (by simp) 0).trans hidle
  have hrun : exec (.escanStart p lane v) s = .next (u.escanBegun p lane) :=
    congrArg Host.Outcome.next ((s.escanWrite_of_start p lane heye hgo hno).trans
      (if_pos ⟨(portState_escanStored hl).trans hst, fun h => Bool.false_ne_true (hidle'.symm.trans h)⟩))
  exact ⟨_, hrun, u.flag_escanBegun_busy p lane, u.flag_escanBegun_start p lane, u.rd_escanBegun_errors p lane,
    u.rd64_escanBegun p lane, (hstored.mono (by simp)).trans ((RegsKept.escanBegun u p lane).mono (by simp)),
    (Kept.store s .phy _ _ (by simp)).trans (.escanBegun u p lane)⟩

theorem escanStart_refused (hst : portState s p ≠ phActive) : ∃ t,
    exec (.escanStart p lane v) s = .next t ∧ t.flag .phy (phyLane p lane 0x24) 1 = true ∧
      t.flag .phy (phyLane p lane 0x24) 0 = s.flag .phy (phyLane p lane 0x24) 0 ∧
      RegsKept .phy [phyLane p lane 0x20, phyLane p lane 0x24, phyStatus p] s t ∧ Kept [.phy] s t := by
  let u := s.escanStored p lane v
  have hstored : RegsKept .phy [phyLane p lane 0x20, phyStatus p] s u := .escanStored hl
  have hrun : exec (.escanStart p lane v) s = .next (u.setb .phy (phyLane p lane 0x24) 1 true) :=
    congrArg Host.Outcome.next ((s.escanWrite_of_start p lane heye hgo hno).trans
      (if_neg fun h => hst ((portState_escanStored hl).symm.trans h.1)))
  refine ⟨_, hrun, State.flag_setb_same _ _ _ _ _ (by decide), ?_, (hstored.mono (by simp)).trans (.setb u _ 1 true (by simp)),
    (Kept.store s .phy _ _ (by simp)).trans (.setb u .phy _ 1 true (by simp))⟩
  rw [State.flag_setb_bit _ _ _ 1 0 true (by decide), hstored.flag_eq (by simp)]

end

/-! ### Symbols that are compared, and the end (R96, R97) -/

/-- The symbols of a scan that count, up to the measurement's end. -/
def escanSeen (s : State) (p lane : Nat) (samples : List (Fin 4 × Bool)) : List Bool :=
  (samples.filterMap (fun x => escanSample (isPam4 s p) (s.fld .phy (phyLane p lane 0x20) 29 28) x.1 x.2)).take
    (2 ^ s.fld .phy (phyLane p lane 0x20) 27 22 - s.rd64 .phy (phyLane p lane 0x28) (phyLane p lane 0x2C))

section
variable {s : State} {p lane : Nat} {samples : List (Fin 4 × Bool)}

theorem State.escanTake_of_idle (hidle : s.flag .phy (phyLane p lane 0x24) 0 = false) : s.escanTake p lane samples = s :=
  if_pos (by simp [hidle])

theorem State.escanStop_of_idle (hidle : s.flag .phy (phyLane p lane 0x24) 0 = false) : s.escanStop p lane = s :=
  if_neg (by simp [hidle])

section
variable (hbusy : s.flag .phy (phyLane p lane 0x24) 0 = true)
  (hfit : s.rd64 .phy (phyLane p lane 0x28) (phyLane p lane 0x2C) + (escanSeen s p lane samples).length < 2 ^ 48)
include hbusy hfit

theorem State.escanTake_of_busy : s.escanTake p lane samples =
    (s.wr64 .phy (phyLane p lane 0x28) (phyLane p lane 0x2C)
      (s.rd64 .phy (phyLane p lane 0x28) (phyLane p lane 0x2C) + (escanSeen s p lane samples).length)).countBy .phy
        (phyLane p lane 0x30) ((escanSeen s p lane samples).filter id).length := by
  have hrun : s.escanTake p lane samples = (s.wr48 .phy (phyLane p lane 0x28) (phyLane p lane 0x2C)
      (s.rd64 .phy (phyLane p lane 0x28) (phyLane p lane 0x2C) + (escanSeen s p lane samples).length)).countBy .phy
        (phyLane p lane 0x30) ((escanSeen s p lane samples).filter id).length := if_neg (by simp [hbusy])
  rw [hrun, State.wr48_eq_wr64 _ _ _ _ hfit]

theorem RegsKept.escanTake : RegsKept .phy [phyLane p lane 0x28, phyLane p lane 0x2C, phyLane p lane 0x30] s
    (s.escanTake p lane samples) := by
  rw [State.escanTake_of_busy hbusy hfit]
  exact (RegsKept.wr64 s _ (by simp) (by simp)).trans (.countBy _ _ (by simp))

theorem Kept.escanTake : Kept [.phy] s (s.escanTake p lane samples) := by
  rw [State.escanTake_of_busy hbusy hfit]
  exact (Kept.wr64 s .phy _ _ _ (by simp)).trans (.countBy _ .phy _ _ (by simp))

theorem State.rd64_escanTake : (s.escanTake p lane samples).rd64 .phy (phyLane p lane 0x28) (phyLane p lane 0x2C) =
    s.rd64 .phy (phyLane p lane 0x28) (phyLane p lane 0x2C) + (escanSeen s p lane samples).length := by
  have hcount := RegsKept.countBy (b := .phy) (as := [phyLane p lane 0x30]) (s.wr64 .phy (phyLane p lane 0x28)
    (phyLane p lane 0x2C) (s.rd64 .phy (phyLane p lane 0x28) (phyLane p lane 0x2C) + (escanSeen s p lane samples).length))
    ((escanSeen s p lane samples).filter id).length (List.mem_singleton_self _)
  rw [State.escanTake_of_busy hbusy hfit, hcount.rd64_eq (by simp) (by simp), State.rd64_wr64 _ _ (by simp) (by omega)]

theorem State.rd_escanTake_errors : (s.escanTake p lane samples).rd .phy (phyLane p lane 0x30) =
    satAdd (s.rd .phy (phyLane p lane 0x30)) ((escanSeen s p lane samples).filter id).length := by
  rw [State.escanTake_of_busy hbusy hfit, State.rd_countBy,
    RegsKept.wr64 (as := [phyLane p lane 0x28, phyLane p lane 0x2C]) s _ (by simp) (by simp) _ (by simp)]

end

theorem State.flag_escanEnd_busy (flag : Nat) (hf : flag ≠ 0) : (s.escanEnd p lane flag).flag .phy (phyLane p lane 0x24) 0 = false := by
  rw [State.escanEnd, State.flag_put_phyAt _ (by omega), State.flag_setb_bit _ _ _ flag 0 true hf.symm,
    State.flag_setb_same _ _ _ _ _ (by decide)]

theorem State.flag_escanEnd (flag : Nat) (hf : flag < 32) : (s.escanEnd p lane flag).flag .phy (phyLane p lane 0x24) flag = true := by
  rw [State.escanEnd, State.flag_put_phyAt _ (by omega), State.flag_setb_same _ _ _ _ _ hf]

theorem State.fld_escanEnd (flag : Nat) : (s.escanEnd p lane flag).fld .phy (phyLane p lane 0x20) 31 30 = 0 :=
  State.fld_put_same _ _ _ 31 30 0 (by decide) (by decide)

theorem Kept.escanEnd (flag : Nat) : Kept [.phy] s (s.escanEnd p lane flag) := (RegsOnly.escanEnd s p lane flag).kept (by simp)

end

section
variable {p : Fin 28} {lane : Fin 2} {samples : List (Fin 4 × Bool)} {s : State}

theorem escanAbort_idle (hidle : s.flag .phy (phyLane p lane 0x24) 0 = false) : exec (.escanAbort p lane samples) s = .next s := by
  have hrun : exec (.escanAbort p lane samples) s = .next ((s.escanTake p lane samples).escanStop p lane) := rfl
  rw [hrun, State.escanTake_of_idle hidle, State.escanStop_of_idle hidle]

theorem escanDone_idle (hidle : s.flag .phy (phyLane p lane 0x24) 0 = false) : exec (.escanDone p lane samples) s = .next s := by
  have htake : s.escanTake p lane samples = s := State.escanTake_of_idle hidle
  exact congrArg Host.Outcome.next ((if_neg (by simp [htake, hidle])).trans htake)

section
variable {seen : List Bool} {old : Nat} (hbusy : s.flag .phy (phyLane p lane 0x24) 0 = true)
  (hold : old = s.rd64 .phy (phyLane p lane 0x28) (phyLane p lane 0x2C))
  (hseen : seen = (samples.filterMap (fun x => escanSample (isPam4 s p) (s.fld .phy (phyLane p lane 0x20) 29 28) x.1 x.2)).take
    (2 ^ s.fld .phy (phyLane p lane 0x20) 27 22 - old)) (hfit : old + seen.length < 2 ^ 48)
include hbusy hold hseen hfit

theorem escanAbort_stops : ∃ t, exec (.escanAbort p lane samples) s = .next t ∧
    t.rd64 .phy (phyLane p lane 0x28) (phyLane p lane 0x2C) = old + seen.length ∧
    t.rd .phy (phyLane p lane 0x30) = satAdd (s.rd .phy (phyLane p lane 0x30)) (seen.filter id).length ∧
    t.flag .phy (phyLane p lane 0x24) 0 = false ∧ t.flag .phy (phyLane p lane 0x24) 1 = true ∧
    t.fld .phy (phyLane p lane 0x20) 31 30 = 0 ∧ Kept [.phy] s t := by
  subst hold
  obtain rfl : seen = escanSeen s p lane samples := hseen
  let u := s.escanTake p lane samples
  have htake : RegsKept .phy _ s u := .escanTake hbusy hfit
  have hend := RegsKept.escanEnd u p lane 1
  have hrun : exec (.escanAbort p lane samples) s = .next (u.escanEnd p lane 1) :=
    congrArg Host.Outcome.next (if_pos ((htake.flag_eq (by simp) 0).trans hbusy))
  refine ⟨_, hrun, ?_, ?_, State.flag_escanEnd_busy 1 (by decide), State.flag_escanEnd 1 (by decide), State.fld_escanEnd 1,
    (Kept.escanTake hbusy hfit).trans (.escanEnd 1)⟩
  · rw [hend.rd64_eq (by simp) (by simp), State.rd64_escanTake hbusy hfit]
  · rw [hend _ (by simp), State.rd_escanTake_errors hbusy hfit]

theorem escanDone_ends : ∃ t, exec (.escanDone p lane samples) s = .next t ∧
    t.rd64 .phy (phyLane p lane 0x28) (phyLane p lane 0x2C) = old + seen.length ∧
    t.rd .phy (phyLane p lane 0x30) = satAdd (s.rd .phy (phyLane p lane 0x30)) (seen.filter id).length ∧
    (t.flag .phy (phyLane p lane 0x24) 0 = decide (old + seen.length < 2 ^ s.fld .phy (phyLane p lane 0x20) 27 22)) ∧
    (2 ^ s.fld .phy (phyLane p lane 0x20) 27 22 ≤ old + seen.length →
      t.flag .phy (phyLane p lane 0x24) 2 = true ∧ t.fld .phy (phyLane p lane 0x20) 31 30 = 0) ∧ Kept [.phy] s t := by
  subst hold
  obtain rfl : seen = escanSeen s p lane samples := hseen
  let u := s.escanTake p lane samples
  have htake : RegsKept .phy _ s u := .escanTake hbusy hfit
  have hflag : u.flag .phy (phyLane p lane 0x24) 0 = true := (htake.flag_eq (by simp) 0).trans hbusy
  have hcount := State.rd64_escanTake hbusy hfit
  have hdwell : u.fld .phy (phyLane p lane 0x20) 27 22 = s.fld .phy (phyLane p lane 0x20) 27 22 := htake.fld_eq (by simp) _ _
  have hrun : exec (.escanDone p lane samples) s = .next (if u.flag .phy (phyLane p lane 0x24) 0 ∧
      2 ^ u.fld .phy (phyLane p lane 0x20) 27 22 ≤ u.rd64 .phy (phyLane p lane 0x28) (phyLane p lane 0x2C) then
        u.escanEnd p lane 2 else u) := rfl
  rw [hdwell, hcount] at hrun
  by_cases hfull : 2 ^ s.fld .phy (phyLane p lane 0x20) 27 22 ≤
      s.rd64 .phy (phyLane p lane 0x28) (phyLane p lane 0x2C) + (escanSeen s p lane samples).length
  · have hend := RegsKept.escanEnd u p lane 2
    refine ⟨_, hrun.trans (congrArg Host.Outcome.next (if_pos ⟨hflag, hfull⟩)), ?_, ?_, ?_,
      fun _ => ⟨State.flag_escanEnd 2 (by decide), State.fld_escanEnd 2⟩, (Kept.escanTake hbusy hfit).trans (.escanEnd 2)⟩
    · rw [hend.rd64_eq (by simp) (by simp), hcount]
    · rw [hend _ (by simp), State.rd_escanTake_errors hbusy hfit]
    · rw [State.flag_escanEnd_busy 2 (by decide), decide_eq_false (by omega)]
  · refine ⟨_, hrun.trans (congrArg Host.Outcome.next (if_neg fun h => hfull h.2)), hcount, State.rd_escanTake_errors hbusy hfit,
      ?_, fun h => absurd h hfull, .escanTake hbusy hfit⟩
    rw [hflag, decide_eq_true (by omega)]

end

end

end Sys2Proof.Machine

end

/-! ## Test patterns (R98, R99) -/

section

namespace Sys2Proof.Machine

/-! ### Writes to DLP_PRBS_CTRL (R98) -/

section
variable (s : State) (p lane : Nat) (v : Word)

/-- TX exists on lane 0 alone. -/
def prbsAsked : Word := if lane = 0 then v else putBit v 26 false

/-- What a write leaves: while DLP_CTRL.EN is 1, EN and TX as they were. -/
def prbsValue : Word :=
  let old := s.rd .phy (phyLane p lane 0x40)
  if s.flag .phy (phyCtrl p) 31 then putBit (putBit (prbsAsked lane v) 31 (bit old 31)) 26 (bit old 26) else prbsAsked lane v

/-- The value is stored, with CFG_ERR where EN or TX were asked for in vain. -/
def State.prbsStored : State :=
  let u := s.store .phy (phyLane p lane 0x40) (prbsValue s p lane v)
  if s.flag .phy (phyCtrl p) 31 && (bit (prbsAsked lane v) 31 || bit (prbsAsked lane v) 26) then u.setb .phy (phyStatus p) 7 true
  else u

/-- A pattern that is sent starts at a free value. -/
def State.prbsSeeded : State :=
  s.draw.onPhy p (fun x => { x with
    txSeed := (s.drawn 31).toNat % (2 ^ prbsLength (s.fld .phy (phyLane p lane 0x40) 30 28) - 1) + 1 })

/-- A checker that is off shows no lock; one that was off before seeds itself anew. -/
def State.prbsChecker (was : Bool) : State :=
  if !s.flag .phy (phyLane p lane 0x40) 31 then s.setb .phy (phyLane p lane 0x40) 25 false
  else if was then s else s.setChk p lane .init

theorem State.prbsWrite_eq : s.prbsWrite p lane v =
    (if (s.prbsStored p lane v).flag .phy (phyLane p lane 0x40) 26 && !s.flag .phy (phyLane p lane 0x40) 26
      then (s.prbsStored p lane v).prbsSeeded p lane
      else s.prbsStored p lane v).prbsChecker p lane (s.flag .phy (phyLane p lane 0x40) 31) := rfl

theorem RegsKept.prbsSeeded : RegsKept .phy [] s (s.prbsSeeded p lane) := RegsKept.onPhy s.draw p _

theorem BlocksKept.prbsSeeded : BlocksKept [.phy] s (s.prbsSeeded p lane) :=
  (BlocksKept.draw _ s).trans (Kept.onPhy s.draw p _ (by simp)).blocks

theorem RegsKept.setChk (c : Checker) : RegsKept .phy [] s (s.setChk p lane c) := .onPhy s p _

theorem Kept.setChk (c : Checker) : Kept [.phy] s (s.setChk p lane c) := .onPhy s p _ (by simp)

theorem RegsKept.prbsChecker (was : Bool) : RegsKept .phy [phyLane p lane 0x40] s (s.prbsChecker p lane was) :=
  .ite (.setb s _ 25 false (by simp)) (.ite (.refl _ _ s) ((RegsKept.setChk s p lane _).mono (by simp)))

theorem Kept.prbsChecker (was : Bool) : Kept [.phy] s (s.prbsChecker p lane was) :=
  .ite (.setb s .phy _ 25 false (by simp)) (.ite (.refl _ s) (.setChk s p lane _))

/-- Of DLP_PRBS_CTRL the checker's state shows in LOCKED alone. -/
theorem State.rd_prbsChecker (was : Bool) :
    (s.prbsChecker p lane was).rd .phy (phyLane p lane 0x40) = s.rd .phy (phyLane p lane 0x40) ∨
      (s.prbsChecker p lane was).rd .phy (phyLane p lane 0x40) = putBit (s.rd .phy (phyLane p lane 0x40)) 25 false := by
  unfold State.prbsChecker
  split
  · exact .inr (State.rd_setb ..)
  · split
    · exact .inl rfl
    · exact .inl (RegsKept.setChk s p lane _ _ (by simp))

theorem State.flag_prbsChecker (was : Bool) {i : Nat} (hi : i ≠ 25) :
    (s.prbsChecker p lane was).flag .phy (phyLane p lane 0x40) i = s.flag .phy (phyLane p lane 0x40) i := by
  rcases s.rd_prbsChecker p lane was with h | h
  · exact congrArg (bit · i) h
  · exact (congrArg (bit · i) h).trans (bit_putBit_ne _ 25 i false hi)

theorem State.fld_prbsChecker (was : Bool) :
    (s.prbsChecker p lane was).fld .phy (phyLane p lane 0x40) 30 28 = s.fld .phy (phyLane p lane 0x40) 30 28 := by
  rcases s.rd_prbsChecker p lane was with h | h
  · exact congrArg (bits · 30 28) h
  · exact (congrArg (bits · 30 28) h).trans (bits_putBit_ne _ 25 false 30 28 (by decide))

variable {v} in
theorem bits_prbsAsked : bits (prbsAsked lane v) 30 28 = bits v 30 28 := by
  unfold prbsAsked
  split
  · rfl
  · exact bits_putBit_ne _ _ _ _ _ (by decide)

theorem bits_prbsValue : bits (prbsValue s p lane v) 30 28 = bits v 30 28 := by
  unfold prbsValue
  extract_lets old
  split
  · rw [bits_putBit_ne _ _ _ _ _ (by decide), bits_putBit_ne _ _ _ _ _ (by decide), bits_prbsAsked]
  · exact bits_prbsAsked lane

/-- A write is bad where one of its fields is. -/
theorem RegRow.snd_write {r : RegRow} (hk : r.kind = .plain) (old v : Word) :
    (r.write false old v).2 = r.fields.any (fun f => (f.write old v).2) := by
  simp only [RegRow.write, hk, Bool.false_and, Bool.false_eq_true, if_false, List.any_map, Function.comp_def]

/-- The field of a pattern; 6 and 7 are reserved (R98). -/
def patternField : FieldRow := ⟨30, 28, .rw, none, false, [6, 7]⟩

theorem mem_prbsFields : ∀ g ∈ laneFields 0x40, g = patternField ∨ g.free = true := by decide

/-- A pattern that is not reserved is stored with the other fields. -/
theorem write_prbs (old : Word) {w : Word} (hpat : bits w 30 28 < 6) :
    bit ((rowLane p 0x40).write false old w).1 31 = bit w 31 ∧ bits ((rowLane p 0x40).write false old w).1 30 28 = bits w 30 28 ∧
      bit ((rowLane p 0x40).write false old w).1 26 = bit w 26 ∧ ((rowLane p 0x40).write false old w).2 = false := by
  have hfree : patternField.reserved.contains (bits w 30 28) = false := by
    generalize bits w 30 28 = x at hpat
    interval_cases x <;> rfl
  refine ⟨RegRow.bit_write_rw (r := rowLane p 0x40) rfl (show _ ∈ laneFields 0x40 by decide) (by decide)
      (show ∀ g ∈ laneFields 0x40, _ by decide) old w,
    RegRow.bits_write_taken (r := rowLane p 0x40) rfl (f := patternField) (show _ ∈ laneFields 0x40 by decide) (by decide) rfl rfl
      (show ∀ g ∈ laneFields 0x40, _ by decide) old hfree,
    RegRow.bit_write_rw (r := rowLane p 0x40) rfl (show _ ∈ laneFields 0x40 by decide) (by decide)
      (show ∀ g ∈ laneFields 0x40, _ by decide) old w, ?_⟩
  rw [RegRow.snd_write rfl, List.any_eq_false]
  intro g hg
  rcases mem_prbsFields g hg with rfl | hg
  · rw [FieldRow.write_taken (f := patternField) rfl rfl old hfree]
    exact Bool.false_ne_true
  · rw [FieldRow.snd_write_of_free hg]
    exact Bool.false_ne_true

end

section
variable {p : Fin 28} {lane : Fin 2} {v : Word} {s : State} (hl : p.val < 24 ∨ lane = 0) (hpat : bits v 30 28 < 6)
include hl hpat

/-- What the stored register shows. -/
theorem State.prbsStored_shows :
    (s.prbsStored p lane v).flag .phy (phyLane p lane 0x40) 31 = bit (prbsValue s p lane v) 31 ∧
      (s.prbsStored p lane v).fld .phy (phyLane p lane 0x40) 30 28 = bits v 30 28 ∧
      (s.prbsStored p lane v).flag .phy (phyLane p lane 0x40) 26 = bit (prbsValue s p lane v) 26 := by
  obtain ⟨hen, hfld, htx, -⟩ := write_prbs p (s.rd .phy (phyLane p lane 0x40)) (w := prbsValue s p lane v)
    (by rwa [bits_prbsValue])
  have hrd : (s.prbsStored p lane v).rd .phy (phyLane p lane 0x40) =
      ((rowLane p 0x40).write false (s.rd .phy (phyLane p lane 0x40)) (prbsValue s p lane v)).1 := by
    rw [← State.rd_store_lane hl (off := 0x40) (by simp), State.prbsStored,
      apply_ite (fun t : State => t.rd .phy (phyLane p lane 0x40)),
      State.rd_setb_phyAt _ (by omega), ite_self]
  exact ⟨(congrArg (bit · 31) hrd).trans hen, ((congrArg (bits · 30 28) hrd).trans hfld).trans (bits_prbsValue s p lane v),
    (congrArg (bit · 26) hrd).trans htx⟩

theorem State.store_prbs : s.store .phy (phyLane p lane 0x40) (prbsValue s p lane v) =
    s.wr .phy (phyLane p lane 0x40) ((rowLane p 0x40).write false (s.rd .phy (phyLane p lane 0x40)) (prbsValue s p lane v)).1 := by
  obtain ⟨-, -, -, hgood⟩ := write_prbs p (s.rd .phy (phyLane p lane 0x40)) (w := prbsValue s p lane v) (by rwa [bits_prbsValue])
  rw [State.store_phy (regAt_lane 0x40 (by simp) p lane hl) rfl (by omega), hgood, if_neg Bool.false_ne_true]

theorem prbsCtrlWrite_stores (hoff : s.flag .phy (phyCtrl p) 31 = false) : ∃ t, exec (.prbsCtrlWrite p lane v) s = .next t ∧
    t.flag .phy (phyLane p lane 0x40) 31 = bit v 31 ∧ t.fld .phy (phyLane p lane 0x40) 30 28 = bits v 30 28 ∧
    t.flag .phy (phyLane p lane 0x40) 26 = (bit v 26 && decide (lane = 0)) ∧
    RegsKept .phy [phyLane p lane 0x40] s t ∧ BlocksKept [.phy] s t := by
  obtain ⟨hen, hfld, htx⟩ := State.prbsStored_shows (s := s) hl hpat
  have hvalue : prbsValue s p lane v = prbsAsked lane v := if_neg (by simp [hoff])
  have hasked : bit (prbsAsked lane v) 31 = bit v 31 ∧ bit (prbsAsked lane v) 26 = (bit v 26 && decide (lane = 0)) := by
    unfold prbsAsked
    by_cases h0 : lane = 0
    · simp [h0]
    · rw [if_neg fun h : lane.val = 0 => h0 (Fin.ext h)]
      exact ⟨bit_putBit_ne _ _ _ _ (by decide), by simp [h0]⟩
  have hstored : s.prbsStored p lane v = s.wr .phy (phyLane p lane 0x40)
      ((rowLane p 0x40).write false (s.rd .phy (phyLane p lane 0x40)) (prbsValue s p lane v)).1 := by
    rw [← State.store_prbs hl hpat, State.prbsStored, hoff, Bool.false_and, if_neg Bool.false_ne_true]
  have hregs : RegsKept .phy [phyLane p lane 0x40] s (s.prbsStored p lane v) := hstored ▸ .wr s _ _ (by simp)
  have hkept : BlocksKept [.phy] s (s.prbsStored p lane v) := hstored ▸ (Kept.wr s .phy _ _ (by simp)).blocks
  let u := if (s.prbsStored p lane v).flag .phy (phyLane p lane 0x40) 26 && !s.flag .phy (phyLane p lane 0x40) 26
      then (s.prbsStored p lane v).prbsSeeded p lane else s.prbsStored p lane v
  have hseed : RegsKept .phy [] (s.prbsStored p lane v) u := .ite (.prbsSeeded _ p lane) (.refl _ _ _)
  have hseed' : BlocksKept [.phy] (s.prbsStored p lane v) u := by
    unfold u
    split
    · exact .prbsSeeded _ p lane
    · exact .refl _ _
  refine ⟨u.prbsChecker p lane _, congrArg Host.Outcome.next (s.prbsWrite_eq p lane v), ?_, ?_, ?_,
    hregs.trans ((hseed.mono (by simp)).trans (.prbsChecker u p lane _)),
    hkept.trans (hseed'.trans (Kept.prbsChecker u p lane _).blocks)⟩
  · rw [State.flag_prbsChecker _ _ _ _ (by decide), hseed.flag_eq (by simp), hen, hvalue, hasked.1]
  · rw [State.fld_prbsChecker, hseed.fld_eq (by simp), hfld]
  · rw [State.flag_prbsChecker _ _ _ _ (by decide), hseed.flag_eq (by simp), htx, hvalue, hasked.2]

theorem prbsCtrlWrite_keeps (hon : s.flag .phy (phyCtrl p) 31 = true) : ∃ t, exec (.prbsCtrlWrite p lane v) s = .next t ∧
    t.flag .phy (phyLane p lane 0x40) 31 = s.flag .phy (phyLane p lane 0x40) 31 ∧
    t.flag .phy (phyLane p lane 0x40) 26 = s.flag .phy (phyLane p lane 0x40) 26 ∧
    (bit v 31 = true → t.flag .phy (phyStatus p) 7 = true) ∧
    RegsKept .phy [phyLane p lane 0x40, phyStatus p] s t ∧ Kept [.phy] s t := by
  obtain ⟨hen, -, htx⟩ := State.prbsStored_shows (s := s) hl hpat
  have hvalue : prbsValue s p lane v = putBit (putBit (prbsAsked lane v) 31 (s.flag .phy (phyLane p lane 0x40) 31)) 26
      (s.flag .phy (phyLane p lane 0x40) 26) := if_pos hon
  have hen' : bit (prbsValue s p lane v) 31 = s.flag .phy (phyLane p lane 0x40) 31 := by
    rw [hvalue, bit_putBit_ne _ _ _ _ (by decide), bit_putBit_same _ _ _ (by decide)]
  have htx' : bit (prbsValue s p lane v) 26 = s.flag .phy (phyLane p lane 0x40) 26 := by
    rw [hvalue, bit_putBit_same _ _ _ (by decide)]
  have hrun : s.prbsWrite p lane v = (s.prbsStored p lane v).prbsChecker p lane (s.flag .phy (phyLane p lane 0x40) 31) := by
    rw [State.prbsWrite_eq, htx, htx', Bool.and_not_self, if_neg Bool.false_ne_true]
  have hstore := RegsKept.store_lane hl (off := 0x40) (by simp) s (prbsValue s p lane v)
  have hregs : RegsKept .phy [phyLane p lane 0x40, phyStatus p] s (s.prbsStored p lane v) :=
    .ite (hstore.trans (.setb _ _ 7 true (by simp))) hstore
  have hkept : Kept [.phy] s (s.prbsStored p lane v) :=
    .ite ((Kept.store s .phy _ _ (by simp)).trans (.setb _ .phy _ 7 true (by simp))) (.store s .phy _ _ (by simp))
  refine ⟨_, congrArg Host.Outcome.next hrun, ?_, ?_, fun hv => ?_,
    hregs.trans ((RegsKept.prbsChecker _ p lane _).mono (by simp)), hkept.trans (.prbsChecker _ p lane _)⟩
  · rw [State.flag_prbsChecker _ _ _ _ (by decide), hen, hen']
  · rw [State.flag_prbsChecker _ _ _ _ (by decide), htx, htx']
  · have hasked : bit (prbsAsked lane v) 31 = true := by
      unfold prbsAsked
      split
      · exact hv
      · rw [bit_putBit_ne _ _ _ _ (by decide), hv]
    rw [(RegsKept.prbsChecker _ p lane _).flag_eq (by simp), State.prbsStored, if_pos (by simp [hon, hasked])]
    exact State.flag_setb_same _ _ _ _ _ (by decide)

end

/-! ### The checker (R99) -/

section
variable (s : State) (p lane : Nat)

theorem State.chk_setChk (c : Checker) : (s.setChk p lane c).chk p lane = c := by
  unfold State.setChk State.chk
  rw [State.onPhy_phyPort_same]
  split <;> rfl

/-- Outside a test mode nothing is checked. -/
theorem State.checkAll_of_idle (decisions : List (Fin 4)) (h : testing s p lane = false) : s.checkAll p lane decisions = s :=
  if_neg (by simp [h])

variable {s p lane} in
theorem State.checkAll_single {d : Fin 4} {b : Bool} (ht : testing s p lane = true)
    (hpat : s.fld .phy (phyLane p lane 0x40) 30 28 < 5) (hbits : testBits s p lane [d] = [b]) :
    s.checkAll p lane [d] = s.checkBit p lane b := by
  rw [State.checkAll, if_pos ⟨ht, hpat⟩, hbits]
  rfl

/-- A seeded checker counts matches in succession. -/
theorem Checker.run_seek {c : Checker} {pat : Nat} (hheld : prbsLength pat ≤ c.held) (b : Bool) :
    (c.seek pat b).run = if prbsNext pat c.hist = b then c.run + 1 else 0 := by
  unfold Checker.seek
  extract_lets w hist
  rw [if_neg (by omega)]

theorem State.checkBit_of_seeking (b : Bool) (hlock : s.flag .phy (phyLane p lane 0x40) 25 = false) : s.checkBit p lane b =
    (let c := (s.chk p lane).seek (s.fld .phy (phyLane p lane 0x40) 30 28) (xor b (s.flag .phy (phyLane p lane 0x40) 27))
     if 64 ≤ c.run then (s.setb .phy (phyLane p lane 0x40) 25 true).setChk p lane { c with run := 0, recent := [] }
     else s.setChk p lane c) := if_neg (by simp [hlock])

theorem State.checkBit_of_locked (b : Bool) (hlock : s.flag .phy (phyLane p lane 0x40) 25 = true) : s.checkBit p lane b =
    (let r := (s.chk p lane).check (s.fld .phy (phyLane p lane 0x40) 30 28) (xor b (s.flag .phy (phyLane p lane 0x40) 27))
     let u := s.prbsCount p lane 1 (b2n r.2)
     if unlockAt ≤ (r.1.recent.filter id).length then (u.setb .phy (phyLane p lane 0x40) 25 false).setChk p lane .init
     else u.setChk p lane r.1) := if_pos hlock

/-- The counts of checked bits and of mismatches. -/
theorem State.prbsCount_eq (checked errors : Nat) : s.prbsCount p lane checked errors =
    (s.wr64 .phy (phyLane p lane 0x48) (phyLane p lane 0x4C)
      (capNat (2 ^ 48 - 1) (s.rd64 .phy (phyLane p lane 0x48) (phyLane p lane 0x4C) + checked))).countBy .phy
        (phyLane p lane 0x44) errors := by
  have hcap : ∀ n, capNat (2 ^ 48 - 1) n < 2 ^ 48 := fun n => by
    unfold capNat
    split <;> omega
  rw [State.prbsCount, State.wr48_eq_wr64 _ _ _ _ (hcap _)]

theorem RegsKept.prbsCount (checked errors : Nat) :
    RegsKept .phy [phyLane p lane 0x44, phyLane p lane 0x48, phyLane p lane 0x4C] s (s.prbsCount p lane checked errors) := by
  rw [State.prbsCount_eq]
  exact (RegsKept.wr64 s _ (by simp) (by simp)).trans (.countBy _ _ (by simp))

theorem Kept.prbsCount (checked errors : Nat) : Kept [.phy] s (s.prbsCount p lane checked errors) := by
  rw [State.prbsCount_eq]
  exact (Kept.wr64 s .phy _ _ _ (by simp)).trans (.countBy _ .phy _ _ (by simp))

theorem State.rd64_prbsCount (checked errors : Nat) :
    (s.prbsCount p lane checked errors).rd64 .phy (phyLane p lane 0x48) (phyLane p lane 0x4C) =
      capNat (2 ^ 48 - 1) (s.rd64 .phy (phyLane p lane 0x48) (phyLane p lane 0x4C) + checked) := by
  rw [State.prbsCount_eq, (RegsKept.countBy (as := [phyLane p lane 0x44]) _ errors (by simp)).rd64_eq (by simp) (by simp),
    State.rd64_wr64 _ _ (by simp)]
  unfold capNat
  split <;> omega

theorem State.rd_prbsCount_errors (checked errors : Nat) : (s.prbsCount p lane checked errors).rd .phy (phyLane p lane 0x44) =
    satAdd (s.rd .phy (phyLane p lane 0x44)) errors := by
  rw [State.prbsCount_eq, State.rd_countBy,
    RegsKept.wr64 (as := [phyLane p lane 0x48, phyLane p lane 0x4C]) s _ (by simp) (by simp) _ (by simp)]

end

section
variable {p : Fin 28} {lane : Fin 2} {s : State}

theorem prbsLock_locked {decisions : List (Fin 4)} (h : s.flag .phy (phyLane p lane 0x40) 25 = true) :
    exec (.prbsLock p lane decisions) s = .next s := congrArg Host.Outcome.next (if_pos h)

theorem prbsLock_untested {decisions : List (Fin 4)} (h : testing s p lane = false) :
    exec (.prbsLock p lane decisions) s = .next s :=
  congrArg Host.Outcome.next (by rw [State.checkAll_of_idle s p lane decisions h, ite_self])

theorem prbsUnlock_unlocked {decisions : List (Fin 4)} (h : s.flag .phy (phyLane p lane 0x40) 25 = false) :
    exec (.prbsUnlock p lane decisions) s = .next s := congrArg Host.Outcome.next (if_neg (by simp [h]))

section
variable {d : Fin 4} {b : Bool}

theorem prbsLock_single (hlock : s.flag .phy (phyLane p lane 0x40) 25 = false) (ht : testing s p lane = true)
    (hpat : s.fld .phy (phyLane p lane 0x40) 30 28 < 5) (hbits : testBits s p lane [d] = [b])
    (hheld : prbsLength (s.fld .phy (phyLane p lane 0x40) 30 28) ≤ (s.chk p lane).held) : ∃ t,
    exec (.prbsLock p lane [d]) s = .next t ∧
      t.flag .phy (phyLane p lane 0x40) 25 =
        (decide (63 ≤ (s.chk p lane).run) && prbsNext (s.fld .phy (phyLane p lane 0x40) 30 28) (s.chk p lane).hist ==
          xor b (s.flag .phy (phyLane p lane 0x40) 27)) ∧
      (prbsNext (s.fld .phy (phyLane p lane 0x40) 30 28) (s.chk p lane).hist ≠ xor b (s.flag .phy (phyLane p lane 0x40) 27) →
        (t.chk p lane).run = 0) ∧
      RegsKept .phy [phyLane p lane 0x40] s t ∧ Kept [.phy] s t := by
  let pat := s.fld .phy (phyLane p lane 0x40) 30 28
  let c := (s.chk p lane).seek pat (xor b (s.flag .phy (phyLane p lane 0x40) 27))
  have hc : c.run = if prbsNext pat (s.chk p lane).hist = xor b (s.flag .phy (phyLane p lane 0x40) 27)
      then (s.chk p lane).run + 1 else 0 := Checker.run_seek hheld _
  have hrun : exec (.prbsLock p lane [d]) s = .next
      (if 64 ≤ c.run then (s.setb .phy (phyLane p lane 0x40) 25 true).setChk p lane { c with run := 0, recent := [] }
       else s.setChk p lane c) := congrArg Host.Outcome.next
    ((if_neg (by simp [hlock])).trans ((State.checkAll_single ht hpat hbits).trans (s.checkBit_of_seeking p lane b hlock)))
  by_cases hmatch : prbsNext pat (s.chk p lane).hist = xor b (s.flag .phy (phyLane p lane 0x40) 27)
  · rw [if_pos hmatch] at hc
    rw [beq_iff_eq.mpr hmatch, Bool.and_true]
    by_cases hlong : 63 ≤ (s.chk p lane).run
    · let u := s.setb .phy (phyLane p lane 0x40) 25 true
      refine ⟨_, hrun.trans (congrArg Host.Outcome.next (if_pos (by omega))), ?_, fun h => absurd hmatch h,
        (RegsKept.setb s _ 25 true (by simp)).trans ((RegsKept.setChk u p lane _).mono (by simp)),
        (Kept.setb s .phy _ 25 true (by simp)).trans (.setChk u p lane _)⟩
      rw [(RegsKept.setChk u p lane _).flag_eq (by simp), State.flag_setb_same _ _ _ _ _ (by decide), decide_eq_true hlong]
    · refine ⟨_, hrun.trans (congrArg Host.Outcome.next (if_neg (by omega))), ?_, fun h => absurd hmatch h,
        (RegsKept.setChk s p lane _).mono (by simp), .setChk s p lane _⟩
      rw [(RegsKept.setChk s p lane _).flag_eq (by simp), hlock, decide_eq_false hlong]
  · rw [if_neg hmatch] at hc
    refine ⟨_, hrun.trans (congrArg Host.Outcome.next (if_neg (by omega))), ?_, fun _ => by rw [State.chk_setChk, hc],
      (RegsKept.setChk s p lane _).mono (by simp), .setChk s p lane _⟩
    rw [(RegsKept.setChk s p lane _).flag_eq (by simp), hlock, beq_eq_false_iff_ne.mpr hmatch, Bool.and_false]

theorem prbsUnlock_single {wrong : Bool} (hlock : s.flag .phy (phyLane p lane 0x40) 25 = true) (ht : testing s p lane = true)
    (hpat : s.fld .phy (phyLane p lane 0x40) 30 28 < 5) (hbits : testBits s p lane [d] = [b])
    (hwrong : wrong = (prbsNext (s.fld .phy (phyLane p lane 0x40) 30 28) (s.chk p lane).hist !=
      xor b (s.flag .phy (phyLane p lane 0x40) 27))) : ∃ t,
    exec (.prbsUnlock p lane [d]) s = .next t ∧
      t.flag .phy (phyLane p lane 0x40) 25 =
        decide ((((wrong :: (s.chk p lane).recent).take 256).filter id).length < 16) ∧
      t.rd64 .phy (phyLane p lane 0x48) (phyLane p lane 0x4C) =
        capNat (2 ^ 48 - 1) (s.rd64 .phy (phyLane p lane 0x48) (phyLane p lane 0x4C) + 1) ∧
      t.rd .phy (phyLane p lane 0x44) = satAdd (s.rd .phy (phyLane p lane 0x44)) (b2n wrong) ∧
      RegsKept .phy [phyLane p lane 0x40, phyLane p lane 0x44, phyLane p lane 0x48, phyLane p lane 0x4C] s t ∧
      Kept [.phy] s t := by
  let r := (s.chk p lane).check (s.fld .phy (phyLane p lane 0x40) 30 28) (xor b (s.flag .phy (phyLane p lane 0x40) 27))
  let u := s.prbsCount p lane 1 (b2n r.2)
  have hrecent : r.1.recent = (wrong :: (s.chk p lane).recent).take 256 := by rw [hwrong]; rfl
  have hmiss : r.2 = wrong := hwrong.symm
  have hcount : RegsKept .phy [phyLane p lane 0x44, phyLane p lane 0x48, phyLane p lane 0x4C] s u := .prbsCount s p lane 1 _
  have hbits64 : u.rd64 .phy (phyLane p lane 0x48) (phyLane p lane 0x4C) = _ := s.rd64_prbsCount p lane 1 _
  have herrs : u.rd .phy (phyLane p lane 0x44) = satAdd (s.rd .phy (phyLane p lane 0x44)) (b2n wrong) := by
    rw [← hmiss]
    exact s.rd_prbsCount_errors p lane 1 _
  have hrun : exec (.prbsUnlock p lane [d]) s = .next
      (if unlockAt ≤ (r.1.recent.filter id).length then (u.setb .phy (phyLane p lane 0x40) 25 false).setChk p lane .init
       else u.setChk p lane r.1) :=
    congrArg Host.Outcome.next ((if_pos hlock).trans ((State.checkAll_single ht hpat hbits).trans (s.checkBit_of_locked p lane b hlock)))
  rw [hrecent] at hrun
  by_cases hmany : unlockAt ≤ (((wrong :: (s.chk p lane).recent).take 256).filter id).length
  · let w := u.setb .phy (phyLane p lane 0x40) 25 false
    have hset : RegsKept .phy [phyLane p lane 0x40] u (w.setChk p lane .init) :=
      (RegsKept.setb u _ 25 false (by simp)).trans ((RegsKept.setChk w p lane _).mono (by simp))
    refine ⟨_, hrun.trans (congrArg Host.Outcome.next (if_pos hmany)), ?_, ?_, ?_,
      (hcount.mono (by simp +contextual)).trans (hset.mono (by simp)),
      (Kept.prbsCount s p lane 1 _).trans ((Kept.setb u .phy _ 25 false (by simp)).trans (.setChk w p lane _))⟩
    · rw [(RegsKept.setChk w p lane _).flag_eq (by simp), State.flag_setb_same _ _ _ _ _ (by decide), decide_eq_false (by
        unfold unlockAt at hmany
        omega)]
    · rw [hset.rd64_eq (by simp) (by simp), hbits64]
    · rw [hset _ (by simp), herrs]
  · have hset := RegsKept.setChk u p lane r.1
    refine ⟨_, hrun.trans (congrArg Host.Outcome.next (if_neg hmany)), ?_, ?_, ?_,
      (hcount.mono (by simp +contextual)).trans (hset.mono (by simp)),
      (Kept.prbsCount s p lane 1 _).trans (.setChk u p lane _)⟩
    · rw [hset.flag_eq (by simp), hcount.flag_eq (by simp), hlock, decide_eq_true (by
        unfold unlockAt at hmany
        omega)]
    · rw [hset.rd64_eq (by simp) (by simp), hbits64]
    · rw [hset _ (by simp), herrs]

end

end

end Sys2Proof.Machine

end

/-! ## The obligation on eye scans and test patterns -/

section

open Sys2Proof Sys2Proof.Machine

/-- Settles O18: each clause is the lemma of its instruction. -/
theorem eyeScansAndTestPatterns : Obligations.EyeScansAndTestPatterns := by
  unfold Obligations.EyeScansAndTestPatterns
  exact ⟨fun p lane v s hl heye hgo hno => ⟨escanStart_begins hl heye hgo hno, escanStart_refused hl heye hgo hno⟩,
    fun p lane samples s => escanAbort_idle, fun p lane samples s => escanDone_idle,
    fun p lane samples seen old s hbusy hold hseen hfit =>
      ⟨escanAbort_stops hbusy hold hseen hfit, escanDone_ends hbusy hold hseen hfit⟩,
    fun p lane v s hl hpat => ⟨prbsCtrlWrite_stores hl hpat, prbsCtrlWrite_keeps hl hpat⟩,
    fun p lane decisions s => prbsLock_locked, fun p lane decisions s => prbsLock_untested, fun p lane d b s => prbsLock_single,
    fun p lane decisions s => prbsUnlock_unlocked, fun p lane d b wrong s => prbsUnlock_single⟩

end

/-! ## Lanes and codewords of a port (R104 to R108) -/

section

namespace Sys2Proof.Machine

/-! ### A lane's state -/

section
variable (s : State) (p lane : Nat)

theorem Kept.onLane (f : LaneSt → LaneSt) : Kept [.lnk] s (s.onLane p lane f) := .onLnk s p _ (by simp)

theorem RegsKept.onLane {b : Blk} {as : List Nat} (f : LaneSt → LaneSt) : RegsKept b as s (s.onLane p lane f) := .onLnk s p _

@[simp] theorem laneSt_onLane_same (f : LaneSt → LaneSt) : laneSt (s.onLane p lane f) p lane = f (laneSt s p lane) := by
  unfold laneSt State.onLane
  rw [State.onLnk_lnkPort_same]
  split <;> rfl

theorem laneSt_congr {s t : State} {p : Nat} (h : t.lnkPort p = s.lnkPort p) (lane : Nat) : laneSt t p lane = laneSt s p lane := by
  rw [laneSt, h, laneSt]

theorem RegsOnly.lnkPort {b : Blk} {s t : State} (h : RegsOnly b s t) (q : Nat) : t.lnkPort q = s.lnkPort q := by
  obtain ⟨r, rfl⟩ := h
  exact State.setRegs_lnkPort ..

/-- What waits on the lanes goes on to the port; of a lane the queue alone changes. -/
theorem laneSt_deal (two : Bool) : ∃ q, laneSt (s.onLnk p (fun x => x.deal two)) p lane = { laneSt s p lane with queue := q } := by
  unfold laneSt
  rw [State.onLnk_lnkPort_same]
  cases two
  · split
    · exact ⟨[], rfl⟩
    · exact ⟨(s.lnkPort p).lane1.queue, rfl⟩
  · split <;> exact ⟨_, rfl⟩

/-! ### Blocks that a codeword passes on (R102, R107) -/

variable (k : Nat) (msg : List Bool) (errored : Bool)

theorem laneSt_passBlocks : ∃ scr queue, laneSt (s.passBlocks p lane k msg errored) p lane =
    { laneSt s p lane with scr := scr, queue := queue } := by
  unfold State.passBlocks
  extract_lets l r s₁ c
  have h₁ : laneSt s₁ p lane = { laneSt s p lane with scr := r.2 } := laneSt_onLane_same ..
  split
  · obtain ⟨q, hq⟩ := laneSt_deal (s₁.onLane p lane (fun l => { l with queue := l.queue ++ [c] })) p lane
      (decide (cfgLanes s₁ p = [0, 1]))
    exact ⟨r.2, q, by rw [hq, laneSt_onLane_same, h₁]⟩
  · exact ⟨r.2, _, h₁⟩

theorem Kept.passBlocks : Kept [.lnk] s (s.passBlocks p lane k msg errored) :=
  (Kept.onLane s p lane _).trans (.ite ((Kept.onLane _ p lane _).trans (.onLnk _ p _ (by simp))) (.refl _ _))

theorem RegsKept.passBlocks {b : Blk} : RegsKept b [] s (s.passBlocks p lane k msg errored) :=
  (RegsKept.onLane s p lane _).trans (.ite ((RegsKept.onLane _ p lane _).trans (.onLnk _ p _)) (.refl _ _ _))

end

/-! ### The counts of a codeword (R107) -/

theorem capNat_le (m n : Nat) : capNat m n ≤ m := by
  unfold capNat
  split <;> omega

section
variable (s : State) (p lane : Nat)

theorem State.countCw_eq : s.countCw p lane = s.wr64 .lnk (DLK_FEC_CW_LO p lane) (DLK_FEC_CW_HI p lane)
    (capNat (2 ^ 48 - 1) (s.rd64 .lnk (DLK_FEC_CW_LO p lane) (DLK_FEC_CW_HI p lane) + 1)) :=
  State.wr48_eq_wr64 _ _ _ _ (Nat.lt_of_le_of_lt (capNat_le _ _) (by decide))

theorem RegsOnly.countCw : RegsOnly .lnk s (s.countCw p lane) := by
  rw [State.countCw_eq]
  exact .wr64 .lnk s _ _ _

theorem RegsKept.countCw : RegsKept .lnk [DLK_FEC_CW_LO p lane, DLK_FEC_CW_HI p lane] s (s.countCw p lane) := by
  rw [State.countCw_eq]
  exact .wr64 s _ (by simp) (by simp)

theorem State.rd64_countCw : (s.countCw p lane).rd64 .lnk (DLK_FEC_CW_LO p lane) (DLK_FEC_CW_HI p lane) =
    capNat (2 ^ 48 - 1) (s.rd64 .lnk (DLK_FEC_CW_LO p lane) (DLK_FEC_CW_HI p lane) + 1) := by
  rw [State.countCw_eq, State.rd64_wr64 _ _ (by simp) (Nat.lt_of_le_of_lt (capNat_le _ _) (by decide))]

/-! ### The window of corrected symbols (R108) -/

variable (k : Nat)

/-- The corrected symbols added to the lane's window. -/
def State.fecAdded : State :=
  s.onLane p lane (fun l =>
    if l.window = s.now / 1000000 then { l with corrected := l.corrected + k }
    else { l with window := s.now / 1000000, corrected := k, warned := false })

/-- The FEC warning. -/
def State.fecWarns : State :=
  ((s.onLane p lane (fun l => { l with warned := true })).setb .lnk (DLK_STATUS p) 5 true).publish
    (0x1B0 + 4 * p + 2) (BitVec.ofNat 32 lane)

theorem State.fecWindow_eq : s.fecWindow p lane k =
    if ((s.fecAdded p lane k).rd .lnk (DLK_FEC_WARN p)).toNat ≠ 0 ∧
      ((s.fecAdded p lane k).rd .lnk (DLK_FEC_WARN p)).toNat < (laneSt (s.fecAdded p lane k) p lane).corrected ∧
      ¬ (laneSt (s.fecAdded p lane k) p lane).warned then (s.fecAdded p lane k).fecWarns p lane
    else s.fecAdded p lane k := rfl

theorem laneSt_fecAdded : ∃ w c b, laneSt (s.fecAdded p lane k) p lane =
    { laneSt s p lane with window := w, corrected := c, warned := b } := by
  rw [State.fecAdded, laneSt_onLane_same]
  split <;> exact ⟨_, _, _, rfl⟩

theorem laneSt_fecWarns : laneSt (s.fecWarns p lane) p lane = { laneSt s p lane with warned := true } := by
  have hport : (s.fecWarns p lane).lnkPort p = (s.onLane p lane (fun l => { l with warned := true })).lnkPort p := by
    have hpub := (Kept.publish (bs := [.evt]) ((s.onLane p lane (fun l => { l with warned := true })).setb .lnk (DLK_STATUS p) 5 true)
      (0x1B0 + 4 * p + 2) (BitVec.ofNat 32 lane) (by simp)).lnk_eq (by simp)
    rw [State.lnkPort, State.fecWarns, hpub]
    exact State.setb_lnkPort ..
  rw [laneSt_congr hport, laneSt_onLane_same]

theorem Kept.fecWarns : Kept [.lnk, .evt] s (s.fecWarns p lane) :=
  ((Kept.onLane s p lane _).mono (by simp)).trans ((Kept.setb _ .lnk _ 5 true (by simp)).trans (.publish _ _ _ (by simp)))

theorem RegsKept.fecWarns : RegsKept .lnk [DLK_STATUS p] s (s.fecWarns p lane) :=
  (RegsKept.onLane s p lane _).trans ((RegsKept.setb _ _ 5 true (by simp)).trans
    ((Kept.publish (bs := [.evt]) _ _ _ (by simp)).regsKept (by simp) _))

theorem State.flag_fecWarns : (s.fecWarns p lane).flag .lnk (DLK_STATUS p) 5 = true := by
  rw [State.fecWarns, State.flag, State.rd_publish _ _ _ _ _ (by simp)]
  exact State.flag_setb_same _ _ _ _ _ (by decide)

theorem laneSt_fecWindow : ∃ w c b, laneSt (s.fecWindow p lane k) p lane =
    { laneSt s p lane with window := w, corrected := c, warned := b } := by
  obtain ⟨w, c, b, h⟩ := laneSt_fecAdded s p lane k
  rw [State.fecWindow_eq]
  split
  · exact ⟨w, c, true, by rw [laneSt_fecWarns, h]⟩
  · exact ⟨w, c, b, h⟩

theorem Kept.fecAdded : Kept [.lnk] s (s.fecAdded p lane k) := .onLane s p lane _

theorem RegsKept.fecAdded {b : Blk} {as : List Nat} : RegsKept b as s (s.fecAdded p lane k) := .onLane s p lane _

theorem Kept.fecWindow : Kept [.lnk, .evt] s (s.fecWindow p lane k) := by
  rw [State.fecWindow_eq]
  exact .ite (((Kept.fecAdded s p lane k).mono (by simp)).trans (.fecWarns _ p lane)) ((Kept.fecAdded s p lane k).mono (by simp))

theorem RegsKept.fecWindow : RegsKept .lnk [DLK_STATUS p] s (s.fecWindow p lane k) := by
  rw [State.fecWindow_eq]
  exact .ite ((RegsKept.fecAdded s p lane k).trans (.fecWarns _ p lane)) (.fecAdded s p lane k)

variable {s p lane k} in
/-- Without a threshold nothing warns. -/
theorem State.fecWindow_of_off (h : s.rd .lnk (DLK_FEC_WARN p) = 0#32) : s.fecWindow p lane k = s.fecAdded p lane k := by
  have hrd : (s.fecAdded p lane k).rd .lnk (DLK_FEC_WARN p) = 0#32 :=
    (RegsKept.fecAdded (as := []) s p lane k _ (by simp)).trans h
  rw [State.fecWindow_eq, if_neg (by simp [hrd])]

variable {s p lane k} in
/-- The first passing of the threshold in a window warns. -/
theorem State.fecWindow_of_passing (hwin : (laneSt s p lane).window = s.now / 1000000) (hfirst : (laneSt s p lane).warned = false)
    (hon : s.rd .lnk (DLK_FEC_WARN p) ≠ 0#32)
    (hpass : (s.rd .lnk (DLK_FEC_WARN p)).toNat < (laneSt s p lane).corrected + k) :
    s.fecWindow p lane k = (s.fecAdded p lane k).fecWarns p lane := by
  have hrd : (s.fecAdded p lane k).rd .lnk (DLK_FEC_WARN p) = s.rd .lnk (DLK_FEC_WARN p) :=
    RegsKept.fecAdded (as := []) s p lane k _ (by simp)
  have hlane : laneSt (s.fecAdded p lane k) p lane = { laneSt s p lane with corrected := (laneSt s p lane).corrected + k } := by
    rw [State.fecAdded, laneSt_onLane_same, if_pos hwin]
  have hne : (s.rd .lnk (DLK_FEC_WARN p)).toNat ≠ 0 := fun h => hon (BitVec.eq_of_toNat_eq h)
  rw [State.fecWindow_eq, hrd, hlane, if_pos ⟨hne, hpass, by simp [hfirst]⟩]

/-! ### A decoded codeword (R107, R108) -/

/-- A codeword with k corrected symbols is counted; the window of R108 is not told yet. -/
def State.symCounted : State :=
  ((s.countCw p lane).count .lnk (DLK_FEC_CORR_CW p lane)).countBy .lnk (DLK_FEC_CORR_SYM p lane) k

theorem State.countCodeword_of_span {p : Nat} (h : 24 ≤ p) (d : Option Nat) : s.countCodeword p lane d = s := if_pos h

section
variable {p : Nat} (h : p < 24)
include h

theorem State.countCodeword_none : s.countCodeword p lane none = (s.countCw p lane).count .lnk (DLK_FEC_UNCORR p lane) :=
  if_neg (by omega)

theorem State.countCodeword_zero : s.countCodeword p lane (some 0) = s.countCw p lane := if_neg (by omega)

theorem State.countCodeword_some {k : Nat} (hk : 0 < k) : s.countCodeword p lane (some k) =
    (s.symCounted p lane k).fecWindow p lane k := by
  obtain ⟨k, rfl⟩ := Nat.exists_eq_add_of_lt hk
  exact if_neg (by omega)

end

end

end Sys2Proof.Machine

end

/-! ## Codewords of a group (R104, R107, R108) -/

section

namespace Sys2Proof.Machine

section
variable (s : State) (p lane : Nat)

/-! ### What a codeword's counts leave -/

theorem Kept.evt_eq {bs : List Blk} {s t : State} (h : Kept bs s t) (hb : Blk.evt ∉ bs) : t.evt = s.evt := by
  obtain ⟨-, -, -, -, -, -, -, -, -, -, -, -, -, hevt, -⟩ := h
  exact hevt hb

section
variable (k : Nat)

theorem Kept.countCw : Kept [.lnk] s (s.countCw p lane) := (RegsOnly.countCw s p lane).kept (by simp)

theorem Kept.symCounted : Kept [.lnk] s (s.symCounted p lane k) :=
  (Kept.countCw s p lane).trans ((Kept.count _ .lnk _ (by simp)).trans (.countBy _ .lnk _ k (by simp)))

theorem State.lnkPort_symCounted : (s.symCounted p lane k).lnkPort p = s.lnkPort p := by
  rw [State.symCounted, State.countBy_lnkPort, State.count_lnkPort, (RegsOnly.countCw s p lane).lnkPort]

/-- The 48-bit counter apart, a corrected codeword counts in two registers. -/
theorem RegsKept.symCounted_countCw :
    RegsKept .lnk [DLK_FEC_CORR_CW p lane, DLK_FEC_CORR_SYM p lane] (s.countCw p lane) (s.symCounted p lane k) :=
  (RegsKept.count _ _ (by simp)).trans (.countBy _ k (by simp))

theorem RegsKept.symCounted : RegsKept .lnk [DLK_FEC_CW_LO p lane, DLK_FEC_CW_HI p lane, DLK_FEC_CORR_CW p lane,
    DLK_FEC_CORR_SYM p lane] s (s.symCounted p lane k) :=
  ((RegsKept.countCw s p lane).mono (by simp +contextual)).trans ((RegsKept.symCounted_countCw s p lane k).mono (by simp +contextual))

/-- The registers of the port itself are not touched. -/
theorem State.rd_symCounted_port {a : Nat} (h : a < 0x300100 + p * 0x1000) : (s.symCounted p lane k).rd .lnk a = s.rd .lnk a :=
  RegsKept.symCounted s p lane k a (by simp [DLK_FEC_CW_LO, DLK_FEC_CW_HI, DLK_FEC_CORR_CW, DLK_FEC_CORR_SYM]; omega)

theorem State.rd_symCounted_words : (s.symCounted p lane k).rd .lnk (DLK_FEC_CORR_CW p lane) =
    satAdd (s.rd .lnk (DLK_FEC_CORR_CW p lane)) 1 := by
  rw [State.symCounted, State.rd_countBy_ne _ _ _ _ _ (by simp), State.rd_count, RegsKept.countCw s p lane _ (by simp)]

theorem State.rd_symCounted_symbols : (s.symCounted p lane k).rd .lnk (DLK_FEC_CORR_SYM p lane) =
    satAdd (s.rd .lnk (DLK_FEC_CORR_SYM p lane)) k := by
  rw [State.symCounted, State.rd_countBy, State.rd_count_ne _ _ _ _ (by simp), RegsKept.countCw s p lane _ (by simp)]

end

/-- The counts of a codeword by its cases: on a span port, uncorrectable, without errors, corrected. -/
theorem State.countCodeword_cases (d : Option Nat) : s.countCodeword p lane d = s ∨
    s.countCodeword p lane d = (s.countCw p lane).count .lnk (DLK_FEC_UNCORR p lane) ∨
    s.countCodeword p lane d = s.countCw p lane ∨
    ∃ k, s.countCodeword p lane d = (s.symCounted p lane k).fecWindow p lane k := by
  by_cases h : 24 ≤ p
  · exact .inl (s.countCodeword_of_span lane h d)
  · have hp : p < 24 := by omega
    match d with
    | none => exact .inr (.inl (s.countCodeword_none lane hp))
    | some 0 => exact .inr (.inr (.inl (s.countCodeword_zero lane hp)))
    | some (k + 1) => exact .inr (.inr (.inr ⟨k + 1, s.countCodeword_some lane hp k.succ_pos⟩))

variable (d : Option Nat)

theorem Kept.countCodeword : Kept [.lnk, .evt] s (s.countCodeword p lane d) := by
  have hcw : Kept [.lnk, .evt] s (s.countCw p lane) := (Kept.countCw s p lane).mono (by simp)
  rcases s.countCodeword_cases p lane d with h | h | h | ⟨k, h⟩ <;> rw [h]
  · exact .refl _ s
  · exact hcw.trans (.count _ .lnk _ (by simp))
  · exact hcw
  · exact ((Kept.symCounted s p lane k).mono (by simp)).trans (.fecWindow _ p lane k)

theorem laneSt_countCodeword : ∃ w c b, laneSt (s.countCodeword p lane d) p lane =
    { laneSt s p lane with window := w, corrected := c, warned := b } := by
  have hcw : laneSt (s.countCw p lane) p lane = laneSt s p lane := laneSt_congr ((RegsOnly.countCw s p lane).lnkPort p) lane
  rcases s.countCodeword_cases p lane d with h | h | h | ⟨k, h⟩ <;> rw [h]
  · exact ⟨_, _, _, rfl⟩
  · exact ⟨_, _, _, (laneSt_congr (State.count_lnkPort ..) lane).trans hcw⟩
  · exact ⟨_, _, _, hcw⟩
  · obtain ⟨w, c, b, hw⟩ := laneSt_fecWindow (s.symCounted p lane k) p lane k
    exact ⟨w, c, b, by rw [hw, laneSt_congr (s.lnkPort_symCounted p lane k)]⟩

/-! ### The counts by the codeword's outcome -/

section
variable {p : Nat} (hp : p < 24)
include hp

theorem State.rd64_countCodeword : (s.countCodeword p lane d).rd64 .lnk (DLK_FEC_CW_LO p lane) (DLK_FEC_CW_HI p lane) =
    capNat (2 ^ 48 - 1) (s.rd64 .lnk (DLK_FEC_CW_LO p lane) (DLK_FEC_CW_HI p lane) + 1) := by
  rw [← State.rd64_countCw]
  match d with
  | none =>
    rw [s.countCodeword_none lane hp]
    exact (RegsKept.count (as := [DLK_FEC_UNCORR p lane]) _ _ (by simp)).rd64_eq (by simp) (by simp)
  | some 0 => rw [s.countCodeword_zero lane hp]
  | some (k + 1) =>
    rw [s.countCodeword_some lane hp k.succ_pos]
    have hwin : RegsKept .lnk [DLK_STATUS p] (s.symCounted p lane (k + 1)) _ := .fecWindow _ p lane (k + 1)
    exact (hwin.rd64_eq (by simp [DLK_FEC_CW_LO, DLK_STATUS]; omega) (by simp [DLK_FEC_CW_HI, DLK_STATUS]; omega)).trans
      ((RegsKept.symCounted_countCw s p lane _).rd64_eq (by simp) (by simp))

theorem State.rd_countCodeword_uncorr : (s.countCodeword p lane none).rd .lnk (DLK_FEC_UNCORR p lane) =
    satAdd (s.rd .lnk (DLK_FEC_UNCORR p lane)) 1 := by
  rw [s.countCodeword_none lane hp, State.rd_count, RegsKept.countCw s p lane _ (by simp)]

theorem RegsKept.countCodeword_uncorr : RegsKept .lnk [DLK_FEC_CW_LO p lane, DLK_FEC_CW_HI p lane, DLK_FEC_UNCORR p lane] s
    (s.countCodeword p lane none) := by
  rw [s.countCodeword_none lane hp]
  exact ((RegsKept.countCw s p lane).mono (by simp +contextual)).trans (.count _ _ (by simp))

theorem RegsKept.countCodeword_zero : RegsKept .lnk [DLK_FEC_CW_LO p lane, DLK_FEC_CW_HI p lane] s
    (s.countCodeword p lane (some 0)) := by
  rw [s.countCodeword_zero lane hp]
  exact .countCw s p lane

variable {k : Nat} (hk : 0 < k)
include hk

theorem State.rd_countCodeword_words : (s.countCodeword p lane (some k)).rd .lnk (DLK_FEC_CORR_CW p lane) =
    satAdd (s.rd .lnk (DLK_FEC_CORR_CW p lane)) 1 := by
  rw [s.countCodeword_some lane hp hk]
  exact (RegsKept.fecWindow _ p lane k _ (by simp [DLK_FEC_CORR_CW, DLK_STATUS]; omega)).trans (s.rd_symCounted_words p lane k)

theorem State.rd_countCodeword_symbols : (s.countCodeword p lane (some k)).rd .lnk (DLK_FEC_CORR_SYM p lane) =
    satAdd (s.rd .lnk (DLK_FEC_CORR_SYM p lane)) k := by
  rw [s.countCodeword_some lane hp hk]
  exact (RegsKept.fecWindow _ p lane k _ (by simp [DLK_FEC_CORR_SYM, DLK_STATUS]; omega)).trans (s.rd_symCounted_symbols p lane k)

theorem State.countCodeword_of_off (hoff : s.rd .lnk (DLK_FEC_WARN p) = 0#32) :
    (s.countCodeword p lane (some k)).rd .lnk (DLK_STATUS p) = s.rd .lnk (DLK_STATUS p) ∧
      (s.countCodeword p lane (some k)).evt = s.evt := by
  rw [s.countCodeword_some lane hp hk, State.fecWindow_of_off ((s.rd_symCounted_port p lane k (by simp)).trans hoff)]
  exact ⟨(RegsKept.fecAdded (as := []) _ p lane k _ (by simp)).trans (s.rd_symCounted_port p lane k (by simp)),
    ((Kept.symCounted s p lane k).trans (.fecAdded _ p lane k)).evt_eq (by simp)⟩

theorem State.countCodeword_of_passing (hwin : (laneSt s p lane).window = s.now / 1000000)
    (hfirst : (laneSt s p lane).warned = false) (hon : s.rd .lnk (DLK_FEC_WARN p) ≠ 0#32)
    (hpass : (s.rd .lnk (DLK_FEC_WARN p)).toNat < (laneSt s p lane).corrected + k) :
    (s.countCodeword p lane (some k)).flag .lnk (DLK_STATUS p) 5 = true ∧
      (laneSt (s.countCodeword p lane (some k)) p lane).warned = true := by
  have hlane : laneSt (s.symCounted p lane k) p lane = laneSt s p lane := laneSt_congr (s.lnkPort_symCounted p lane k) lane
  have hnow : (s.symCounted p lane k).now = s.now := congrArg TimeSt.tb ((Kept.symCounted s p lane k).time_eq (by simp))
  have hrd := s.rd_symCounted_port p lane k (a := DLK_FEC_WARN p) (by simp)
  rw [s.countCodeword_some lane hp hk, State.fecWindow_of_passing (by rw [hlane, hnow, hwin]) (by rw [hlane, hfirst])
    (by rwa [hrd]) (by rwa [hlane, hrd]), laneSt_fecWarns]
  exact ⟨State.flag_fecWarns _ p lane, rfl⟩

end

end

/-! ### RX_CODEWORD and FEC_CW_CLEAR (R104, R107) -/

/-- The next codeword of a group has come: the codewords of the group and the last decision. -/
def LaneSt.nextCw (l : LaneSt) (m : LineMode) (vs : List Nat) : LaneSt := { l with cw := l.cw + 1, prev := m.last l.prev vs }

section
variable {p : Fin 28} {lane : Fin 2} {bits : BitVec 5440} {s : State}

theorem rxCodeword_outside (h : (laneSt s p (logicalLane s p lane)).cw = 0 ∨ 40 ≤ (laneSt s p (logicalLane s p lane)).cw) :
    exec (.rxCodeword p lane bits) s = .next s := congrArg Host.Outcome.next (if_pos h)

section
variable {ll : Nat} {d : List Bool × Option Nat} (hll : ll = logicalLane s p lane) (hlo : 0 < (laneSt s p ll).cw)
  (hhi : (laneSt s p ll).cw < 40)
  (hd : d = decodeCodeword ((lineMode s p lane).bits (laneSt s p ll).prev (cwDecisions s p bits)))
include hll hlo hhi hd

theorem rxCodeword_of_group : exec (.rxCodeword p lane bits) s = .next
    (((s.onLane p ll (fun l => l.nextCw (lineMode s p lane) (cwDecisions s p bits))).countCodeword p ll d.2).passBlocks p ll 0 d.1
      d.2.isNone) := by
  rw [hd]
  subst hll
  have hrun : exec (.rxCodeword p lane bits) s = execRxCodeword p lane bits s := rfl
  rw [hrun, execRxCodeword, if_neg (by unfold groupCws; omega)]
  rfl

theorem rxCodeword_counts (hp : p.val < 24) : ∃ t, exec (.rxCodeword p lane bits) s = .next t ∧
    t.rd64 .lnk (DLK_FEC_CW_LO p ll) (DLK_FEC_CW_HI p ll) =
      capNat (2 ^ 48 - 1) (s.rd64 .lnk (DLK_FEC_CW_LO p ll) (DLK_FEC_CW_HI p ll) + 1) ∧
    (laneSt t p ll).cw = (laneSt s p ll).cw + 1 ∧
    (d.2 = none → t.rd .lnk (DLK_FEC_UNCORR p ll) = satAdd (s.rd .lnk (DLK_FEC_UNCORR p ll)) 1 ∧
      RegsKept .lnk [DLK_FEC_CW_LO p ll, DLK_FEC_CW_HI p ll, DLK_FEC_UNCORR p ll] s t) ∧
    (d.2 = some 0 → RegsKept .lnk [DLK_FEC_CW_LO p ll, DLK_FEC_CW_HI p ll] s t) ∧
    (∀ k, 0 < k → d.2 = some k →
      t.rd .lnk (DLK_FEC_CORR_CW p ll) = satAdd (s.rd .lnk (DLK_FEC_CORR_CW p ll)) 1 ∧
      t.rd .lnk (DLK_FEC_CORR_SYM p ll) = satAdd (s.rd .lnk (DLK_FEC_CORR_SYM p ll)) k ∧
      (s.rd .lnk (DLK_FEC_WARN p) = 0#32 → t.rd .lnk (DLK_STATUS p) = s.rd .lnk (DLK_STATUS p) ∧ t.evt = s.evt) ∧
      ((laneSt s p ll).window = s.now / 1000000 → (laneSt s p ll).warned = false →
        s.rd .lnk (DLK_FEC_WARN p) ≠ 0#32 → (s.rd .lnk (DLK_FEC_WARN p)).toNat < (laneSt s p ll).corrected + k →
        t.flag .lnk (DLK_STATUS p) 5 = true ∧ (laneSt t p ll).warned = true)) ∧
    Kept [.lnk, .evt] s t := by
  let u := s.onLane p ll (fun l => l.nextCw (lineMode s p lane) (cwDecisions s p bits))
  let v := u.countCodeword p ll d.2
  let t := v.passBlocks p ll 0 d.1 d.2.isNone
  have hsu : RegsKept .lnk [] s u := .onLane s p ll _
  have hvt : RegsKept .lnk [] v t := .passBlocks v p ll 0 _ _
  have hu : laneSt u p ll = (laneSt s p ll).nextCw (lineMode s p lane) (cwDecisions s p bits) := laneSt_onLane_same ..
  obtain ⟨w, c, b, hv⟩ := laneSt_countCodeword u p ll d.2
  obtain ⟨scr, queue, ht⟩ := laneSt_passBlocks v p ll 0 d.1 d.2.isNone
  have hfull : Kept [.lnk, .evt] s t := ((Kept.onLane s p ll _).mono (by simp)).trans ((Kept.countCodeword u p ll d.2).trans
    ((Kept.passBlocks v p ll 0 d.1 _).mono (by simp)))
  refine ⟨t, rxCodeword_of_group hll hlo hhi hd, ?_, ?_, fun hnone => ?_, fun hzero => ?_, fun k hk hsome => ?_, hfull⟩
  · rw [hvt.rd64_eq (by simp) (by simp), State.rd64_countCodeword u ll d.2 hp, hsu.rd64_eq (by simp) (by simp)]
  · rw [ht, hv, hu]
    rfl
  · have hcount : v = u.countCodeword p ll none := congrArg (u.countCodeword p ll) hnone
    rw [hvt _ (by simp), hcount, State.rd_countCodeword_uncorr u ll hp, hsu _ (by simp)]
    exact ⟨rfl, (hsu.mono (by simp)).trans ((hcount ▸ RegsKept.countCodeword_uncorr u ll hp).trans (hvt.mono (by simp)))⟩
  · have hcount : v = u.countCodeword p ll (some 0) := congrArg (u.countCodeword p ll) hzero
    exact (hsu.mono (by simp)).trans ((hcount ▸ RegsKept.countCodeword_zero u ll hp).trans (hvt.mono (by simp)))
  · have hcount : v = u.countCodeword p ll (some k) := congrArg (u.countCodeword p ll) hsome
    refine ⟨?_, ?_, fun hoff => ?_, fun hwin hfirst hon hpass => ?_⟩
    · rw [hvt _ (by simp), hcount, State.rd_countCodeword_words u ll hp hk, hsu _ (by simp)]
    · rw [hvt _ (by simp), hcount, State.rd_countCodeword_symbols u ll hp hk, hsu _ (by simp)]
    · obtain ⟨hst, hevt⟩ := u.countCodeword_of_off ll hp hk ((hsu _ (by simp)).trans hoff)
      rw [hvt _ (by simp), (Kept.passBlocks v p ll 0 d.1 _).evt_eq (by simp), hcount, hst, hevt, hsu _ (by simp)]
      exact ⟨rfl, (Kept.onLane s p ll _).evt_eq (by simp)⟩
    · have hrd := hsu (DLK_FEC_WARN p) (by simp)
      obtain ⟨hst, hwarned⟩ := u.countCodeword_of_passing ll hp hk (by rw [hu]; exact hwin) (by rw [hu]; exact hfirst)
        (by rwa [hrd]) (by rw [hu, hrd]; exact hpass)
      rw [hvt.flag_eq (by simp), ht, hcount]
      exact ⟨hst, hwarned⟩

end

theorem rxCodeword_of_span (hp : 24 ≤ p.val) (hlo : 0 < (laneSt s p (logicalLane s p lane)).cw)
    (hhi : (laneSt s p (logicalLane s p lane)).cw < 40) : ∃ t, exec (.rxCodeword p lane bits) s = .next t ∧
      (laneSt t p (logicalLane s p lane)).cw = (laneSt s p (logicalLane s p lane)).cw + 1 ∧
      RegsKept .lnk [] s t ∧ Kept [.lnk] s t := by
  let u := s.onLane p (logicalLane s p lane) (fun l => l.nextCw (lineMode s p lane) (cwDecisions s p bits))
  have hrun := rxCodeword_of_group (bits := bits) rfl hlo hhi (Eq.refl _)
  rw [State.countCodeword_of_span _ _ hp] at hrun
  refine ⟨_, hrun, ?_, (RegsKept.onLane s p _ _).trans (.passBlocks u p _ 0 _ _), (Kept.onLane s p _ _).trans (.passBlocks u p _ 0 _ _)⟩
  obtain ⟨scr, queue, ht⟩ := laneSt_passBlocks u p (logicalLane s p lane) 0 _ _
  rw [ht, laneSt_onLane_same]
  rfl

theorem fecCwClear_clears {p : Fin 24} : ∃ t, exec (.fecCwClear p lane) s = .next t ∧
    t.rd64 .lnk (DLK_FEC_CW_LO p lane) (DLK_FEC_CW_HI p lane) = 0 ∧
    RegsKept .lnk [DLK_FEC_CW_LO p lane, DLK_FEC_CW_HI p lane] s t ∧ t.lnk = { s.lnk with regs := t.lnk.regs } ∧
    Kept [.lnk] s t := by
  refine ⟨s.wr64 .lnk (DLK_FEC_CW_LO p lane) (DLK_FEC_CW_HI p lane) 0, congrArg Host.Outcome.next (State.wr48_eq_wr64 _ _ _ _ (by decide)),
    State.rd64_wr64 _ _ (by simp) (by decide), .wr64 s _ (by simp) (by simp), rfl, .wr64 s .lnk _ _ _ (by simp)⟩

end

end Sys2Proof.Machine

end

/-! ## Marker groups: what a group leaves of its lane (R104 to R106) -/

section

namespace Sys2Proof.Machine

/-! ### COUNT, LANE and status of a group (R105) -/

/-- What the hits and misses of a lane's groups have made of it (R105). -/
def LaneSt.align (l : LaneSt) : Nat × Nat × Bool × Option Nat × Nat := (l.hits, l.misses, l.locked, l.place, l.cw)

/-- COUNT and LANE last taken (R105). -/
def LaneSt.named (l : LaneSt) : Option Nat × Option Nat := (l.count, l.laneId)

section
variable (s : State) (p lane : Nat)

section
variable (m arrival : Nat)

theorem laneSt_takeCount : ∃ as, laneSt (s.takeCount p lane m arrival) p lane = { laneSt s p lane with
    count := some (markerCount m), laneId := some (nbits m 65 65), grp := markerCount m, arrivals := as } := by
  unfold State.takeCount
  extract_lets c gap s₁
  have hport : s₁.lnkPort p = s.lnkPort p := by
    unfold s₁
    split
    · exact State.count_lnkPort ..
    · rfl
  exact ⟨_, by rw [laneSt_onLane_same, laneSt_congr hport]⟩

theorem Kept.takeCount : Kept [.lnk] s (s.takeCount p lane m arrival) :=
  (Kept.ite (.count s .lnk _ (by simp)) (.refl _ s)).trans (.onLane _ p lane _)

end

theorem laneSt_measureSkew (c : Nat) : laneSt (s.measureSkew p c) p lane = laneSt s p lane := by
  unfold State.measureSkew
  split
  · unfold laneSt
    rw [State.onLnk_lnkPort_same]
  · rfl

theorem Kept.measureSkew (c : Nat) : Kept [.lnk] s (s.measureSkew p c) := by
  unfold State.measureSkew
  split
  · exact .onLnk s p _ (by simp)
  · exact .refl _ s

theorem State.lnkPort_statusBlock (b : Nat) : (s.statusBlock p b).lnkPort p = s.lnkPort p := by
  unfold State.statusBlock
  split
  · rw [State.countBy_lnkPort, State.countBy_lnkPort]
  · rfl

theorem Kept.statusBlock (b : Nat) : Kept [.lnk] s (s.statusBlock p b) :=
  .ite ((Kept.countBy s .lnk _ _ (by simp)).trans (.countBy _ .lnk _ _ (by simp))) (.refl _ s)

/-! ### The first codeword of a group (R104 to R107) -/

variable (arrival : Nat) (msg : List Bool)

/-- COUNT and LANE of a good marker are taken, and the skew measured. -/
def State.markerTaken (good : Bool) : State :=
  match goodMarker msg good with
  | some m => (s.takeCount p lane m arrival).measureSkew p (markerCount m)
  | none => s

theorem align_markerTaken (good : Bool) : (laneSt (s.markerTaken p lane arrival msg good) p lane).align = (laneSt s p lane).align := by
  unfold State.markerTaken
  split
  · next m _ =>
    obtain ⟨as, h⟩ := laneSt_takeCount s p lane m arrival
    rw [laneSt_measureSkew, h]
    rfl
  · rfl

theorem named_markerTaken {good : Bool} {m : Nat} (h : goodMarker msg good = some m) :
    (laneSt (s.markerTaken p lane arrival msg good) p lane).named = (some (markerCount m), some (nbits m 65 65)) := by
  obtain ⟨as, hl⟩ := laneSt_takeCount s p lane m arrival
  unfold State.markerTaken
  rw [h]
  dsimp only
  rw [laneSt_measureSkew, hl]
  rfl

theorem Kept.markerTaken (good : Bool) : Kept [.lnk] s (s.markerTaken p lane arrival msg good) := by
  unfold State.markerTaken
  split
  · exact (Kept.takeCount s p lane _ arrival).trans (.measureSkew _ p _)
  · exact .refl _ s

variable (corrected : Option Nat)

/-- The camera's status block of a codeword that decodes. -/
def State.statusTaken : State := if corrected.isSome ∧ lane = 0 ∧ p < 24 then s.statusBlock p (groupBlock 2 msg) else s

theorem laneSt_statusTaken : laneSt (s.statusTaken p lane msg corrected) p lane = laneSt s p lane := by
  unfold State.statusTaken
  split
  · exact laneSt_congr (s.lnkPort_statusBlock p _) lane
  · rfl

theorem Kept.statusTaken : Kept [.lnk] s (s.statusTaken p lane msg corrected) := .ite (.statusBlock s p _) (.refl _ s)

/-- The group has begun, and its first codeword is counted. -/
def State.groupCounted : State :=
  (s.onLane p lane (fun l => { l with grp := (l.grp + 1) % 2 ^ 16 })).countCodeword p lane corrected

theorem State.groupCodeword_eq : s.groupCodeword p lane arrival msg corrected =
    (((s.groupCounted p lane corrected).markerTaken p lane arrival msg corrected.isSome).statusTaken p lane msg
      corrected).passBlocks p lane 3 msg corrected.isNone := rfl

theorem align_groupCodeword :
    (laneSt (s.groupCodeword p lane arrival msg corrected) p lane).align = (laneSt s p lane).align := by
  let u := s.onLane p lane (fun l => { l with grp := (l.grp + 1) % 2 ^ 16 })
  let v := (s.groupCounted p lane corrected).markerTaken p lane arrival msg corrected.isSome
  obtain ⟨scr, queue, hpass⟩ := laneSt_passBlocks (v.statusTaken p lane msg corrected) p lane 3 msg corrected.isNone
  obtain ⟨w, c, b, hcount⟩ := laneSt_countCodeword u p lane corrected
  calc (laneSt (s.groupCodeword p lane arrival msg corrected) p lane).align
      = (laneSt v p lane).align := by rw [State.groupCodeword_eq, hpass, laneSt_statusTaken]; rfl
    _ = (laneSt (u.countCodeword p lane corrected) p lane).align := align_markerTaken ..
    _ = (laneSt s p lane).align := by rw [hcount, laneSt_onLane_same]; rfl

theorem named_groupCodeword {m : Nat} (h : goodMarker msg corrected.isSome = some m) :
    (laneSt (s.groupCodeword p lane arrival msg corrected) p lane).named = (some (markerCount m), some (nbits m 65 65)) := by
  let v := (s.groupCounted p lane corrected).markerTaken p lane arrival msg corrected.isSome
  obtain ⟨scr, queue, hpass⟩ := laneSt_passBlocks (v.statusTaken p lane msg corrected) p lane 3 msg corrected.isNone
  rw [State.groupCodeword_eq, hpass, laneSt_statusTaken]
  exact named_markerTaken _ p lane arrival msg h

theorem Kept.groupCodeword : Kept [.lnk, .evt] s (s.groupCodeword p lane arrival msg corrected) := by
  rw [State.groupCodeword_eq]
  exact ((((Kept.onLane s p lane _).mono (by simp)).trans (.countCodeword _ p lane _)).trans
    ((Kept.markerTaken _ p lane arrival msg _).mono (by simp))).trans
    (((Kept.statusTaken _ p lane msg corrected).mono (by simp)).trans ((Kept.passBlocks _ p lane 3 msg _).mono (by simp)))

end

/-! ### Skew (R106) -/

/-- Outside DESKEW and ACTIVE the skew only shows. -/
theorem RegsOnly.judgeSkew {s : State} {p : Nat} (hd : portState s p ≠ phDeskew) (ha : portState s p ≠ phActive) :
    RegsOnly .lnk s (s.judgeSkew p) := by
  unfold State.judgeSkew
  extract_lets s₁
  have h₁ : RegsOnly .lnk s s₁ := .ite (.setb .lnk s _ 3 _) (.refl _ s)
  split
  · exact h₁
  · next k _ =>
    extract_lets s₂
    have h₂ : RegsOnly .lnk s s₂ := h₁.trans (.ite ⟨_, rfl⟩ (.refl _ s₁))
    have hst : portState s₂ p = portState s p :=
      portState_congr ((h₂.kept (bs := [.lnk]) (by simp)).rd_eq (by simp) _)
    rw [hst, if_neg hd, if_neg ha, ite_self]
    exact h₂

end Sys2Proof.Machine

end

/-! ## Marker groups: a place of a lane's line bits (R105) -/

section

namespace Sys2Proof.Machine

/-! ### What a place does to its lane -/

section
variable (s : State) (p lane ll place : Nat)

/-- A place of the lane's line bits has come: the lane has received, and a match joins the candidates while it is not locked. -/
def State.groupSeen (hit : Bool) : State :=
  let t := s.onLane p ll (fun l => { l with fresh := false })
  if hit ∧ ¬ (laneSt s p ll).locked then t.onLane p ll (fun l => l.candidate place) else t

/-- A group position has come: its hits and misses, its place, and its first codeword. -/
def State.groupTaken (last hits misses : Nat) : State :=
  s.onLane p ll (fun l => { l with hits := hits, misses := misses, place := some place, cw := 1, prev := last })

/-- The second hit in succession locks a lane that was not locked. -/
def State.groupLocked (was : Bool) : State :=
  if was then s else (s.setLock p ll true).setb .phy (phyLane p lane 0) 2 true

/-- After RECOVER a port in ACTIVE delivers from the first marker on, and discards up to the next packet (R91). -/
def State.awaitOver : State :=
  if portState s p = phActive ∧ (s.lnkPort p).await then s.onLnk p (fun x => { x with await := false, skip := true }) else s

/-- The lane forgets its groups and its lock. -/
def State.laneLost : State := ((s.onLane p ll LaneSt.lose).setLock p ll false).setb .phy (phyLane p lane 0) 2 false

end

/-! ### The place by its cases: off the grid, a match, a miss -/

section
variable {p lane place arrival : Nat} {bits : BitVec 5440} {before ll prev : Nat} {raw : List Bool}
  {hit : Bool} {s : State} (hll : ll = logicalLane s p lane)
  (hprev : prev = (if groupsOn (laneSt s p ll) place = some 1 ∧ (laneSt s p ll).cw = 40 then (laneSt s p ll).prev
      else if (laneSt s p ll).fresh then 0 else uninvert (lineMode s p lane).inv before))
  (hraw : raw = (lineMode s p lane).bits prev (cwDecisions s p bits))
  (hhit : hit = (markerMatches (groupBlock 0 raw) || markerMatches (groupBlock 1 raw)))
include hll hprev hraw hhit

theorem State.markerGroup_off (hon : groupsOn (laneSt s p ll) place = none) (h : (laneSt s p ll).locked = true ∨
    (hit = false ∧ (laneSt s p ll).cands.any (fun c => c + groupBits == place) = false)) :
    s.markerGroup p lane bits before place arrival = s.onLane p ll (fun l => { l with fresh := false }) := by
  unfold State.markerGroup
  rw [← hll]
  extract_lets ll' l on m vs prev' raw' hit' d taken lost s₁ s₂
  have hp : prev' = prev := hprev.symm
  have hr : raw' = raw := by rw [hraw, ← hp]
  have hh : hit' = hit := by rw [hhit, ← hr]
  have hunmatched : l.locked = true ∨ l.locked = false ∧ hit' = false := by
    rw [hh]
    cases hl : l.locked
    · exact .inr ⟨rfl, h.elim (fun hl' => absurd (hl'.symm.trans hl) (by simp)) And.left⟩
    · exact .inl rfl
  have hon' : on = none := by
    refine (if_neg ?_).trans hon
    rcases h with hl | ⟨-, hc⟩
    · simp [l, ll', hl]
    · simp only [l, ll', hc, Bool.and_false, Bool.false_eq_true, not_false_eq_true]
  have hs₂ : s₂ = s₁ := if_neg fun ⟨hyes, hl⟩ => by
    rcases hunmatched with hl' | ⟨-, hno⟩
    · exact hl hl'
    · exact Bool.false_ne_true (hno.symm.trans hyes)
  rw [hon']
  rcases hunmatched with hl | ⟨hl, hno⟩
  · rw [hl]
    exact hs₂
  · rw [hl, hno]
    exact hs₂

theorem State.markerGroup_hit (hit_eq : hit = true) (hon : (groupsOn (laneSt s p ll) place = some 1 ∧
      ((laneSt s p ll).locked = false ∨ (laneSt s p ll).misses < 4)) ∨
      ((laneSt s p ll).locked = false ∧ (laneSt s p ll).cands.any (fun c => c + groupBits == place) = true)) :
    s.markerGroup p lane bits before place arrival =
      ((((((s.groupSeen p ll place true).groupTaken p ll place ((lineMode s p lane).last prev (cwDecisions s p bits))
        (max 1 (laneSt s p ll).hits + 1) 0).groupLocked p lane ll (laneSt s p ll).locked).awaitOver p).groupCodeword p ll
        arrival (decodeCodeword raw).1 (decodeCodeword raw).2).judgeSkew p) := by
  unfold State.markerGroup
  rw [← hll]
  extract_lets ll' l on m vs prev' raw' hit' d taken lost s₁ s₂
  have hp : prev' = prev := hprev.symm
  have hr : raw' = raw := by rw [hraw, ← hp]
  have hh : hit' = true := by rw [← hit_eq, hhit, ← hr]
  have hon' : on = some 1 := by
    unfold on
    split
    · rfl
    · next hno =>
      rcases hon with ⟨h1, -⟩ | ⟨hl, hc⟩
      · exact h1
      · exact absurd (by simp [l, ll', hl, hc]) hno
  have hfew : ¬ (l.locked = true ∧ 4 ≤ l.misses + (1 - 1)) := by
    rintro ⟨hl, h4⟩
    rcases hon with ⟨-, hl' | hlt⟩ | ⟨hl', -⟩
    · exact absurd (hl.symm.trans hl') (by simp)
    · exact absurd hlt (by simpa [l, ll'] using h4)
    · exact absurd (hl.symm.trans hl') (by simp)
  have hs₂ : s₂ = s.groupSeen p ll place true := by
    unfold s₂
    rw [hh]
    rfl
  have hd : d = decodeCodeword raw := congrArg decodeCodeword hr
  have htaken : taken s₂ (max 1 l.hits + 1) 0 = (s.groupSeen p ll place true).groupTaken p ll place
      ((lineMode s p lane).last prev (cwDecisions s p bits)) (max 1 (laneSt s p ll).hits + 1) 0 := by
    rw [← hs₂, ← hp]
    rfl
  rw [hon', hh, ← htaken, ← hd]
  have hlocks : 2 ≤ max 1 l.hits + 1 := by omega
  cases hl : l.locked
  · simp only [Bool.false_eq_true, false_and, if_false, if_true, not_false_eq_true, and_true, hlocks]
    rfl
  · have hfew' : ¬ 4 ≤ l.misses + (1 - 1) := fun h4 => hfew ⟨hl, h4⟩
    simp only [true_and, if_neg hfew', not_true_eq_false, and_false, if_false]
    rfl

theorem State.markerGroup_miss (hit_eq : hit = false) (hon : groupsOn (laneSt s p ll) place = some 1)
    (hlock : (laneSt s p ll).locked = true) : s.markerGroup p lane bits before place arrival =
      (let t := ((s.groupSeen p ll place false).groupTaken p ll place ((lineMode s p lane).last prev (cwDecisions s p bits)) 0
        ((laneSt s p ll).misses + 1)).groupCodeword p ll arrival (decodeCodeword raw).1 (decodeCodeword raw).2
       if 4 ≤ (laneSt s p ll).misses + 1 then
         if portState (t.laneLost p lane ll) p = phActive ∧ (cfgLanes (t.laneLost p lane ll) p).contains lane
         then (t.laneLost p lane ll).enterRecover p else (t.laneLost p lane ll).judgeSkew p
       else t.judgeSkew p) := by
  unfold State.markerGroup
  rw [← hll]
  extract_lets ll' l on m vs prev' raw' hit' d taken lost s₁ s₂ u
  have hp : prev' = prev := hprev.symm
  have hr : raw' = raw := by rw [hraw, ← hp]
  have hh : hit' = false := by rw [← hit_eq, hhit, ← hr]
  have hl : l.locked = true := hlock
  have hon' : on = some 1 := (if_neg (by simp [hl])).trans hon
  have hs₂ : s₂ = s.groupSeen p ll place false := by
    unfold s₂
    rw [hh]
    rfl
  have htaken : taken s₂ 0 (l.misses + 1) = (s.groupSeen p ll place false).groupTaken p ll place
      ((lineMode s p lane).last prev (cwDecisions s p bits)) 0 ((laneSt s p ll).misses + 1) := by
    rw [← hs₂, ← hp]
    rfl
  have hd : d = decodeCodeword raw := congrArg decodeCodeword hr
  have hu : u = (taken s₂ 0 (l.misses + 1)).groupCodeword p ll arrival d.1 d.2 := by
    unfold u
    rw [htaken, hd]
  rw [hon', hh, hl]
  dsimp only
  rw [hu]
  rfl

end

end Sys2Proof.Machine

end

/-! ## Marker groups: hits, misses and locks (R105, R106) -/

section

namespace Sys2Proof.Machine

/-! ### Marker locks of the lanes -/

section
variable (s : State) (p lane : Nat)

theorem State.lnkPort_setLock (b : Bool) : (s.setLock p lane b).lnkPort p =
    if lane = 0 then { s.lnkPort p with lane0 := { (s.lnkPort p).lane0 with locked := b } }
    else { s.lnkPort p with lane1 := { (s.lnkPort p).lane1 with locked := b } } := by
  unfold State.setLock
  extract_lets s₁ s₂
  have h₁ : s₂.lnkPort p = s₁.lnkPort p := by
    unfold s₂
    split
    · exact State.setb_lnkPort ..
    · rfl
  have h₂ : (if p < 24 then s₂.setb .lnk (DLK_STATUS p) lane b else s₂).lnkPort p = s₂.lnkPort p := by
    split
    · exact State.setb_lnkPort ..
    · rfl
  rw [h₂, h₁, State.onLnk_lnkPort_same]

theorem laneSt_setLock (b : Bool) : laneSt (s.setLock p lane b) p lane = { laneSt s p lane with locked := b } := by
  unfold laneSt
  rw [State.lnkPort_setLock]
  split <;> rfl

variable {s p} in
/-- A lock that is dropped locks no other lane. -/
theorem locked_setLock_false {l : Nat} (h : (laneSt s p l).locked = false ∨ (l = 0 ↔ lane = 0)) :
    (laneSt (s.setLock p lane false) p l).locked = false := by
  unfold laneSt at h ⊢
  rw [State.lnkPort_setLock]
  by_cases h0 : lane = 0 <;> by_cases hl : l = 0 <;> simp_all

theorem locked_dropLocks (l : Nat) : (laneSt (s.dropLocks p) p l).locked = false := by
  unfold State.dropLocks
  extract_lets s₁ s₂
  have hrest : (if p < 24 then s₂.setb .lnk (DLK_STATUS p) 3 false else s₂).lnkPort p = s₂.lnkPort p := by
    split
    · exact State.setb_lnkPort ..
    · rfl
  rw [laneSt_congr hrest]
  by_cases hl : l = 0
  · exact locked_setLock_false 1 (.inl (locked_setLock_false 0 (.inr (by simpa using hl))))
  · exact locked_setLock_false 1 (.inr (by simpa using hl))

variable {s p} in
/-- FRAME that a lane does not show stays so when a lock is dropped. -/
theorem State.flag_setLock_false {l : Nat} (h : s.flag .phy (phyLane p l 0) 2 = false) :
    (s.setLock p lane false).flag .phy (phyLane p l 0) 2 = false := by
  rw [State.flag, State.rd_setLock, State.showLock]
  split
  · by_cases hl : phyLane p l 0 = phyLane p (logicalLane s p lane) 0
    · rw [hl]
      exact State.flag_setb_same _ _ _ _ _ (by decide)
    · exact (State.flag_setb_ne _ _ _ _ _ _ _ hl).trans h
  · exact h

variable {s p} in
theorem State.flag_dropLocks {l : Nat} (h : s.flag .phy (phyLane p l 0) 2 = false) :
    (s.dropLocks p).flag .phy (phyLane p l 0) 2 = false := by
  obtain ⟨u, hu, hd⟩ := s.phy_dropLocks p
  have hu' : u.flag .phy (phyLane p l 0) 2 = false := (congrArg (bit · 2) (hu.rd_eq (by simp) _)).trans h
  exact (congrArg (bit · 2) (hd.rd_eq (by simp) _)).trans (State.flag_setLock_false 1 (State.flag_setLock_false 0 hu'))

theorem locked_enterRecover (l : Nat) : (laneSt (s.enterRecover p) p l).locked = false := by
  have hport : laneSt (s.enterRecover p) p l = laneSt ((s.recoverNow p).dropLocks p) p l := by
    unfold laneSt
    rw [State.enterRecover_eq, State.onLnk_lnkPort_same]
  rw [hport, locked_dropLocks]

variable {s p} in
theorem State.flag_enterRecover_frame {l : Nat} (h : s.flag .phy (phyLane p l 0) 2 = false) :
    (s.enterRecover p).flag .phy (phyLane p l 0) 2 = false := by
  rw [State.enterRecover_eq, State.flag, State.rd_onLnk]
  exact State.flag_dropLocks (((RegsKept.recoverNow s p).flag_eq (by simp; omega) 2).trans h)

end

/-! ### What a group's place leaves -/

section
variable (s : State) (p lane ll place : Nat)

theorem locked_groupSeen (hit : Bool) : (laneSt (s.groupSeen p ll place hit) p ll).locked = (laneSt s p ll).locked := by
  unfold State.groupSeen
  split
  · rw [laneSt_onLane_same, laneSt_onLane_same]
    rfl
  · rw [laneSt_onLane_same]

theorem Kept.groupSeen (hit : Bool) : Kept [.lnk] s (s.groupSeen p ll place hit) := by
  unfold State.groupSeen
  exact .ite ((Kept.onLane s p ll _).trans (.onLane _ p ll _)) (.onLane s p ll _)

section
variable (hit : Bool) (last hits misses : Nat)

/-- A group's place as its lane is left by it. -/
theorem align_groupTaken : (laneSt ((s.groupSeen p ll place hit).groupTaken p ll place last hits misses) p ll).align =
    (hits, misses, (laneSt s p ll).locked, some place, 1) := by
  rw [State.groupTaken, laneSt_onLane_same, ← locked_groupSeen s p ll place hit]
  rfl

theorem Kept.groupTaken : Kept [.lnk] s ((s.groupSeen p ll place hit).groupTaken p ll place last hits misses) :=
  (Kept.groupSeen s p ll place hit).trans (.onLane _ p ll _)

end

theorem align_groupLocked {h m : Nat} {was : Bool} {at' : Option Nat} {c : Nat} (ha : (laneSt s p ll).align = (h, m, was, at', c)) :
    (laneSt (s.groupLocked p lane ll was) p ll).align = (h, m, true, at', c) := by
  unfold State.groupLocked
  cases was
  · rw [if_neg Bool.false_ne_true, laneSt_congr (State.setb_lnkPort ..), laneSt_setLock]
    simp only [LaneSt.align, Prod.mk.injEq] at ha ⊢
    tauto
  · exact ha

theorem Kept.groupLocked (was : Bool) : Kept [.phy, .lnk] s (s.groupLocked p lane ll was) :=
  .ite (.refl _ s) ((Kept.setLock s p ll true).trans (.setb _ .phy _ 2 true (by simp)))

variable {ll} in
theorem portState_groupLocked (hll : ll < 2) (was : Bool) : portState (s.groupLocked p lane ll was) p = portState s p := by
  unfold State.groupLocked
  split
  · rfl
  · rw [portState_congr (State.rd_setb_phyAt _ (by omega) 2 true), portState_congr (RegsKept.setLock s p hll true _ (by simp))]

theorem Kept.laneLost : Kept [.phy, .lnk] s (s.laneLost p lane ll) :=
  ((Kept.onLane s p ll _).mono (by simp)).trans ((Kept.setLock _ p ll false).trans (.setb _ .phy _ 2 false (by simp)))

variable {ll} in
theorem portState_laneLost (hll : ll < 2) : portState (s.laneLost p lane ll) p = portState s p := by
  rw [State.laneLost, portState_congr (State.rd_setb_phyAt _ (by omega) 2 false),
    portState_congr (RegsKept.setLock _ p hll false _ (by simp)), portState_congr (RegsKept.onLane (as := []) s p ll _ _ (by simp))]

theorem State.phyPort_laneLost : (s.laneLost p lane ll).phyPort p = s.phyPort p := by
  rw [State.laneLost, State.setb_phyPort, State.phyPort_setLock]
  rfl

variable {s p} in
theorem State.awaitOver_of_idle (h : portState s p ≠ phActive) : s.awaitOver p = s := if_neg fun ⟨ha, _⟩ => h ha

theorem portState_of_kept {bs : List Blk} {s t : State} {p : Nat} (h : Kept bs s t) (hb : Blk.phy ∉ bs) :
    portState t p = portState s p := portState_congr (h.rd_eq hb _)

end

/-! ### RX_MARKER_GROUP -/

section
variable {p : Fin 28} {lane : Fin 2} {place arrival : Nat} {bits : BitVec 5440} {before : Fin 4} {ll prev : Nat}
  {raw : List Bool} {hit : Bool} {s : State} (hll : ll = logicalLane s p lane)
  (hprev : prev = (if groupsOn (laneSt s p ll) place = some 1 ∧ (laneSt s p ll).cw = 40 then (laneSt s p ll).prev
      else if (laneSt s p ll).fresh then 0 else uninvert (lineMode s p lane).inv before))
  (hraw : raw = (lineMode s p lane).bits prev (cwDecisions s p bits))
  (hhit : hit = (markerMatches (groupBlock 0 raw) || markerMatches (groupBlock 1 raw)))
include hll hprev hraw hhit

theorem rxMarkerGroup_off (hon : groupsOn (laneSt s p ll) place = none) (h : (laneSt s p ll).locked = true ∨
    (hit = false ∧ (laneSt s p ll).cands.any (fun c => c + groupBits == place) = false)) :
    exec (.rxMarkerGroup p lane bits before place arrival) s = .next (s.onLane p ll (fun l => { l with fresh := false })) := by
  have hrun : exec (.rxMarkerGroup p lane bits before place arrival) s =
      .next ((s.markerGroup p lane bits before place arrival).linkCheck s p) := rfl
  rw [hrun, State.markerGroup_off hll hprev hraw hhit hon h]
  exact congrArg Host.Outcome.next (if_neg fun ⟨_, ha, hno⟩ => hno ha)

theorem rxMarkerGroup_hit (hyes : hit = true) (hon : (groupsOn (laneSt s p ll) place = some 1 ∧
      ((laneSt s p ll).locked = false ∨ (laneSt s p ll).misses < 4)) ∨
      ((laneSt s p ll).locked = false ∧ (laneSt s p ll).cands.any (fun c => c + groupBits == place) = true))
    (hdesk : portState s p ≠ phDeskew) (hact : portState s p ≠ phActive) : ∃ t,
    exec (.rxMarkerGroup p lane bits before place arrival) s = .next t ∧
      (laneSt t p ll).hits = max 1 (laneSt s p ll).hits + 1 ∧ (laneSt t p ll).misses = 0 ∧ (laneSt t p ll).locked = true ∧
      (laneSt t p ll).place = some place ∧
      (∀ m, goodMarker (decodeCodeword raw).1 (decodeCodeword raw).2.isSome = some m →
        (laneSt t p ll).count = some (markerCount m) ∧ (laneSt t p ll).laneId = some (nbits m 65 65)) ∧
      portState t p = portState s p ∧ Kept [.phy, .lnk, .evt] s t := by
  let last := (lineMode s p lane).last prev (cwDecisions s p bits)
  let u := (s.groupSeen p ll place true).groupTaken p ll place last (max 1 (laneSt s p ll).hits + 1) 0
  let v := u.groupLocked p lane ll (laneSt s p ll).locked
  let w := v.groupCodeword p ll arrival (decodeCodeword raw).1 (decodeCodeword raw).2
  have hlt : ll < 2 := hll ▸ logicalLane_lt s p lane.isLt
  have hu : Kept [.lnk] s u := .groupTaken s p ll place true last _ _
  have hv : Kept [.phy, .lnk] u v := .groupLocked u p lane ll _
  have hw : Kept [.lnk, .evt] v w := .groupCodeword v p ll arrival _ _
  have hstv : portState v p = portState s p := (portState_groupLocked u p lane hlt _).trans (portState_of_kept hu (by simp))
  have hstw : portState w p = portState s p := (portState_of_kept hw (by simp)).trans hstv
  have hskew : RegsOnly .lnk w (w.judgeSkew p) := .judgeSkew (by rwa [hstw]) (by rwa [hstw])
  have hrun : exec (.rxMarkerGroup p lane bits before place arrival) s = .next (w.judgeSkew p) := by
    refine (congrArg (fun t : State => Host.Outcome.next (t.linkCheck s p)) ?_).trans
      (congrArg Host.Outcome.next (State.linkCheck_of_camera _ (.inr hact)))
    rw [State.markerGroup_hit hll hprev hraw hhit hyes hon, State.awaitOver_of_idle (by rwa [hstv])]
  have hlane : laneSt (w.judgeSkew p) p ll = laneSt w p ll := laneSt_congr (hskew.lnkPort p) ll
  have halign : (laneSt w p ll).align = (max 1 (laneSt s p ll).hits + 1, 0, true, some place, 1) :=
    (align_groupCodeword v p ll arrival _ _).trans (align_groupLocked u p lane ll (align_groupTaken s p ll place true last _ _))
  simp only [LaneSt.align, Prod.mk.injEq] at halign
  obtain ⟨hhits, hmisses, hlocked, hplace, -⟩ := halign
  refine ⟨_, hrun, ?_⟩
  rw [hlane]
  refine ⟨hhits, hmisses, hlocked, hplace, fun m hm => ?_, (portState_of_kept (hskew.kept (bs := [.lnk]) (by simp)) (by simp)).trans hstw,
    ((hu.mono (by simp)).trans (hv.mono (by simp))).trans ((hw.mono (by simp)).trans (hskew.kept (by simp)))⟩
  have hnamed := named_groupCodeword v p ll arrival _ _ hm
  simp only [LaneSt.named, Prod.mk.injEq] at hnamed
  exact hnamed

section
variable (hno : hit = false) (hon : groupsOn (laneSt s p ll) place = some 1) (hlock : (laneSt s p ll).locked = true)
include hno hon hlock

theorem rxMarkerGroup_misses (hfew : (laneSt s p ll).misses < 3)
    (hdesk : portState s p ≠ phDeskew) (hact : portState s p ≠ phActive) : ∃ t,
    exec (.rxMarkerGroup p lane bits before place arrival) s = .next t ∧
      (laneSt t p ll).hits = 0 ∧ (laneSt t p ll).misses = (laneSt s p ll).misses + 1 ∧ (laneSt t p ll).locked = true ∧
      Kept [.phy, .lnk, .evt] s t := by
  let last := (lineMode s p lane).last prev (cwDecisions s p bits)
  let u := (s.groupSeen p ll place false).groupTaken p ll place last 0 ((laneSt s p ll).misses + 1)
  let w := u.groupCodeword p ll arrival (decodeCodeword raw).1 (decodeCodeword raw).2
  have hu : Kept [.lnk] s u := .groupTaken s p ll place false last _ _
  have hw : Kept [.lnk, .evt] u w := .groupCodeword u p ll arrival _ _
  have hstw : portState w p = portState s p := (portState_of_kept hw (by simp)).trans (portState_of_kept hu (by simp))
  have hskew : RegsOnly .lnk w (w.judgeSkew p) := .judgeSkew (by rwa [hstw]) (by rwa [hstw])
  have hrun : exec (.rxMarkerGroup p lane bits before place arrival) s = .next (w.judgeSkew p) := by
    refine (congrArg (fun t : State => Host.Outcome.next (t.linkCheck s p)) ?_).trans
      (congrArg Host.Outcome.next (State.linkCheck_of_camera _ (.inr hact)))
    exact (State.markerGroup_miss hll hprev hraw hhit hno hon hlock).trans (if_neg (by omega))
  have halign : (laneSt w p ll).align = (0, (laneSt s p ll).misses + 1, (laneSt s p ll).locked, some place, 1) :=
    (align_groupCodeword u p ll arrival _ _).trans (align_groupTaken s p ll place false last _ _)
  simp only [LaneSt.align, Prod.mk.injEq] at halign
  obtain ⟨hhits, hmisses, hlocked, -, -⟩ := halign
  refine ⟨_, hrun, ?_⟩
  rw [laneSt_congr (hskew.lnkPort p) ll]
  exact ⟨hhits, hmisses, hlocked.trans hlock, (hu.mono (by simp)).trans ((hw.mono (by simp)).trans (hskew.kept (by simp)))⟩

theorem rxMarkerGroup_unlocks (hmany : 3 ≤ (laneSt s p ll).misses) (hact : portState s p = phActive)
    (hconf : (cfgLanes s p).contains lane.val = true) : ∃ t,
    exec (.rxMarkerGroup p lane bits before place arrival) s = .next t ∧
      portState t p = phRecover ∧ (laneSt t p ll).locked = false ∧ t.flag .phy (phyLane p lane 0) 2 = false ∧
      (p.val < 24 → BlocksKept [.phy, .lnk, .pix, .evt, .pwr] s t) := by
  let last := (lineMode s p lane).last prev (cwDecisions s p bits)
  let u := (s.groupSeen p ll place false).groupTaken p ll place last 0 ((laneSt s p ll).misses + 1)
  let w := u.groupCodeword p ll arrival (decodeCodeword raw).1 (decodeCodeword raw).2
  let x := w.laneLost p lane ll
  have hlt : ll < 2 := hll ▸ logicalLane_lt s p lane.isLt
  have hw : Kept [.lnk, .evt] s w := ((Kept.groupTaken s p ll place false last _ _).mono (by simp)).trans
    (.groupCodeword u p ll arrival _ _)
  have hstx : portState x p = phActive := (portState_laneLost w p lane hlt).trans ((portState_of_kept hw (by simp)).trans hact)
  have hconfx : cfgLanes x p = cfgLanes s p := cfgLanes_congr ((w.phyPort_laneLost p lane ll).trans (hw.phyPort (by simp) p))
  have hrun : exec (.rxMarkerGroup p lane bits before place arrival) s = .next ((x.enterRecover p).linkCheck s p) := by
    refine congrArg (fun t : State => Host.Outcome.next (t.linkCheck s p)) ?_
    exact (State.markerGroup_miss hll hprev hraw hhit hno hon hlock).trans
      ((if_pos (by omega)).trans (if_pos ⟨hstx, by rwa [hconfx]⟩))
  have hframe : x.flag .phy (phyLane p lane 0) 2 = false := State.flag_setb_same _ _ _ _ _ (by decide)
  have hlnk : ((x.enterRecover p).linkCheck s p).lnk = (x.enterRecover p).lnk := (Kept.linkCheck _ s p).lnk_eq (by simp)
  refine ⟨_, hrun, ?_, ?_, ?_, fun hp => ?_⟩
  · rw [portState_linkCheck, portState_enterRecover]
  · rw [laneSt_congr (s := x.enterRecover p) (by rw [State.lnkPort, hlnk, State.lnkPort]), locked_enterRecover]
  · rw [State.flag, State.rd_linkCheck]
    exact State.flag_enterRecover_frame hframe
  · rw [State.linkCheck_of_camera _ (.inl hp)]
    exact ((hw.mono (by simp)).trans (((Kept.laneLost w p lane ll).mono (by simp)).trans
      ((Kept.enterRecover x p).mono (by simp)))).blocks

end

end

end Sys2Proof.Machine

end

/-! ## The obligation on codewords and markers -/

section

open Sys2Proof Sys2Proof.Machine

/-- Settles O19: each clause is the lemma of its instruction. -/
theorem codewordsAndMarkersKeepTheirCounts : Obligations.CodewordsAndMarkersKeepTheirCounts := by
  unfold Obligations.CodewordsAndMarkersKeepTheirCounts
  refine ⟨fun p lane bits s => rxCodeword_outside, fun p lane bits ll d s hp hll hlo hhi hd => rxCodeword_counts hll hlo hhi hd hp,
    fun p lane bits s => rxCodeword_of_span, fun p lane s => fecCwClear_clears,
    fun p lane bits before place arrival ll prev raw hit s hll hprev hraw hhit => ⟨rxMarkerGroup_off hll hprev hraw hhit,
      rxMarkerGroup_hit hll hprev hraw hhit, fun hon hno => rxMarkerGroup_misses hll hprev hraw hhit hno hon,
      fun hon hno => rxMarkerGroup_unlocks hll hprev hraw hhit hno hon⟩⟩

end

/-! ## Blocks after deskew (R101, R109, R116, R123, R334) -/

section

namespace Sys2Proof.Machine

@[simp] theorem length_leBytes (n x : Nat) : (leBytes n x).length = n := by
  induction n generalizing x with
  | zero => rfl
  | succ n ih => rw [leBytes, List.length_cons, ih]

/-! ### One change of a port's packet side -/

section
variable (s : State) (p a : Nat) (f : LnkPort → LnkPort)

/-- A change of the port and one count. -/
def State.onLnkCount : State := (s.onLnk p f).count .lnk a

theorem State.lnkPort_onLnkCount : (s.onLnkCount p a f).lnkPort p = f (s.lnkPort p) := by
  rw [State.onLnkCount, State.count_lnkPort, State.onLnk_lnkPort_same]

theorem State.rd_onLnkCount : (s.onLnkCount p a f).rd .lnk a = satAdd (s.rd .lnk a) 1 := by
  rw [State.onLnkCount, State.rd_count, State.rd_onLnk]

theorem RegsKept.onLnkCount : RegsKept .lnk [a] s (s.onLnkCount p a f) := (RegsKept.onLnk s p f).trans (.count _ _ (by simp))

theorem Kept.onLnkCount : Kept [.lnk] s (s.onLnkCount p a f) := (Kept.onLnk s p f (by simp)).trans (.count _ .lnk _ (by simp))

end

/-! ### The block by its kind -/

section
variable (s : State) (p w : Nat) (b : RxBlk) (errored : Bool)

theorem State.rxTake_lctl (hc : b.control = true) (ht : b.payload.toNat % 256 = 0x5A) :
    s.rxTake p b = s.onLnk p (fun x => { x with lctlIn := x.lctlIn ++ [b.payload] }) := by
  simp [State.rxTake, hc, ht]

theorem State.rxTake_pkt (hc : b.control = true) (ht : b.payload.toNat % 256 = 0x4B) :
    s.rxTake p b = s.rxHeader p b.payload.toNat b.errored := by
  simp [State.rxTake, hc, ht]

theorem State.rxTake_fill (hc : b.control = true) (ht : b.payload.toNat % 256 = 0x1E) : s.rxTake p b = s := by
  simp [State.rxTake, hc, ht]

theorem State.rxTake_bad (hc : b.control = true) (ht : b.payload.toNat % 256 ∉ [0x1E, 0x5A, 0x4B]) :
    s.rxTake p b = s.onLnkCount p (DLK_CNT_BADBLK p) LnkPort.cutPacket := by
  simp only [List.mem_cons, List.not_mem_nil, or_false, not_or] at ht
  obtain ⟨hfill, hlctl, hpkt⟩ := ht
  simp [State.rxTake, hc, hfill, hlctl, hpkt, State.onLnkCount]

theorem State.rxTake_data (hc : b.control = false) (hskip : (s.lnkPort p).skip = false) :
    s.rxTake p b = s.rxData p b.payload.toNat b.errored := by
  simp [State.rxTake, hc, hskip]

/-- The port after a packet whose header is bad: its blocks are discarded. -/
def LnkPort.discard (x : LnkPort) : LnkPort := { x.cutPacket with asm := none, skip := true }

variable {s p w errored}

theorem State.rxHeader_bad (hbad : errored = true ∨ crc16 40 (w / 2 ^ 24) ≠ nbits w 23 8) :
    (s.rxHeader p w errored).lnkPort p = (s.lnkPort p).discard ∧
      (s.rxHeader p w errored).rd .lnk (DLK_CNT_HDR_CRC p) = satAdd (s.rd .lnk (DLK_CNT_HDR_CRC p)) 1 ∧
      RegsKept .lnk [DLK_CNT_HDR_CRC p] s (s.rxHeader p w errored) ∧ Kept [.lnk] s (s.rxHeader p w errored) := by
  let u := s.onLnk p LnkPort.cutPacket
  have heq : s.rxHeader p w errored = u.onLnkCount p (DLK_CNT_HDR_CRC p) (fun x => { x with asm := none, skip := true }) :=
    if_pos hbad
  rw [heq, State.lnkPort_onLnkCount, State.onLnk_lnkPort_same, State.rd_onLnkCount, State.rd_onLnk]
  exact ⟨rfl, rfl, (RegsKept.onLnk s p _).trans (.onLnkCount u p _ _), (Kept.onLnk s p _ (by simp)).trans (.onLnkCount u p _ _)⟩

theorem State.rxHeader_good (hgood : errored = false) (hcrc : crc16 40 (w / 2 ^ 24) = nbits w 23 8)
    (hlo : 0 < (headerPacket w s.now).len) (hhi : (headerPacket w s.now).len ≤ 16384)
    (hroom : bufUsed (s.lnkPort p).cutPacket + 8 ≤ 65536) :
    (s.rxHeader p w errored).lnkPort p = { (s.lnkPort p).cutPacket with asm := some (headerPacket w s.now), skip := false } ∧
      RegsKept .lnk [] s (s.rxHeader p w errored) ∧ Kept [.lnk] s (s.rxHeader p w errored) := by
  let u := s.onLnk p LnkPort.cutPacket
  have hport : u.lnkPort p = (s.lnkPort p).cutPacket := State.onLnk_lnkPort_same ..
  have heq : s.rxHeader p w errored = u.onLnk p (fun x => { x with asm := some (headerPacket w s.now), skip := false }) :=
    (if_neg (not_or.mpr ⟨by simp [hgood], fun h => h hcrc⟩)).trans ((if_neg (show ¬ ((headerPacket w s.now).len = 0 ∨
      16384 < (headerPacket w s.now).len) by omega)).trans (if_neg (by rw [hport]; omega)))
  rw [heq, State.onLnk_lnkPort_same, hport]
  exact ⟨rfl, (RegsKept.onLnk s p _).trans (.onLnk u p _), (Kept.onLnk s p _ (by simp)).trans (.onLnk u p _ (by simp))⟩

theorem State.rxData_of_asm {q : Packet} (hasm : (s.lnkPort p).asm = some q) (hroom : bufUsed (s.lnkPort p) + 8 ≤ 65536) :
    s.rxData p w errored = s.onLnk p (fun x =>
      if q.bytes.length + 8 = 8 * payloadBlocks q.len then { x with
        asm := none
        committed := x.committed ++ [.packet { q with bytes := q.bytes ++ leBytes 8 w, fec := q.fec || errored }] }
      else { x with asm := some { q with bytes := q.bytes ++ leBytes 8 w, fec := q.fec || errored } }) := by
  unfold State.rxData
  extract_lets x
  simp only [x, hasm]
  rw [if_neg (by omega)]
  simp only [List.length_append, length_leBytes]
  split <;> rfl

end

/-! ### Cells of a span port (R334) -/

theorem LnkPort.spanTake_cell (x : LnkPort) (b : RxBlk) (hc : b.control = true) (ht : b.payload.toNat % 256 = 0x69) :
    x.spanTake b = { x with cellIn := some [] } := by
  simp [LnkPort.spanTake, hc, ht]

theorem LnkPort.spanTake_data (x : LnkPort) (b : RxBlk) {bs : List Byte} (hc : b.control = false) (hin : x.cellIn = some bs) :
    x.spanTake b = if bs.length = 56 then { x with cellIn := none, cells := x.cells ++ [bs ++ leBytes 8 b.payload.toNat] }
      else { x with cellIn := some (bs ++ leBytes 8 b.payload.toNat) } := by
  simp [LnkPort.spanTake, hc, hin]

/-! ### RX_BLOCK -/

/-- The oldest block has left the queue behind deskew. -/
def State.rxLeft (s : State) (p : Nat) (rest : List RxBlk) : State := s.onLnk p (fun x => { x with rx := rest })

section
variable {p : Fin 28} {b : RxBlk} {rest : List RxBlk} {x : LnkPort} {s : State}

theorem rxBlock_of_none (h : (s.lnkPort p).rx = []) : exec (.rxBlock p) s = .next s := by
  have hrun : exec (.rxBlock p) s = execRxBlock p s := rfl
  rw [hrun, execRxBlock, h]

variable (hrx : (s.lnkPort p).rx = b :: rest)
include hrx

theorem rxBlock_of_cons : exec (.rxBlock p) s = .next (if portState s p ≠ phActive then s.rxLeft p rest
    else if 24 ≤ p.val then (s.rxLeft p rest).onLnk p (fun x => x.spanTake b) else (s.rxLeft p rest).rxTake p b) := by
  have hrun : exec (.rxBlock p) s = execRxBlock p s := rfl
  rw [hrun, execRxBlock, hrx]
  exact congrArg Host.Outcome.next (by rw [← portState_congr (s.rd_onLnk .phy _ p (fun x => { x with rx := rest }))]; rfl)

theorem rxBlock_of_camera (hp : p.val < 24) (hact : portState s p = phActive) :
    exec (.rxBlock p) s = .next ((s.rxLeft p rest).rxTake p b) := by
  rw [rxBlock_of_cons hrx, if_neg (by simp [hact]), if_neg (by omega)]

variable (hx : x = { s.lnkPort p with rx := rest })
include hx

omit hrx in
theorem State.lnkPort_rxLeft : (s.rxLeft p rest).lnkPort p = x := hx ▸ State.onLnk_lnkPort_same ..

omit hrx in
/-- The oldest block has left, and the port has changed by a function. -/
theorem rxBlock_onLnk {f : LnkPort → LnkPort} (h : exec (.rxBlock p) s = .next ((s.rxLeft p rest).onLnk p f)) : ∃ t,
    exec (.rxBlock p) s = .next t ∧ t.lnkPort p = f x ∧ RegsKept .lnk [] s t ∧ Kept [.lnk] s t := by
  refine ⟨_, h, ?_, (RegsKept.onLnk s p _).trans (.onLnk _ p _), (Kept.onLnk s p _ (by simp)).trans (.onLnk _ p _ (by simp))⟩
  rw [State.onLnk_lnkPort_same, State.lnkPort_rxLeft hx]

theorem rxBlock_deaf (h : portState s p ≠ phActive ∨ (b.control = true ∧ b.payload.toNat % 256 = 0x1E)) : ∃ t,
    exec (.rxBlock p) s = .next t ∧ t.lnkPort p = x ∧ RegsKept .lnk [] s t ∧ Kept [.lnk] s t := by
  by_cases hact : portState s p = phActive
  · obtain ⟨hc, ht⟩ := h.resolve_left (by simp [hact])
    by_cases hp : p.val < 24
    · refine ⟨s.rxLeft p rest, ?_, State.lnkPort_rxLeft hx, .onLnk s p _, .onLnk s p _ (by simp)⟩
      rw [rxBlock_of_camera hrx hp hact, State.rxTake_fill _ _ b hc ht]
    · obtain ⟨t, hrun, hport, hrest⟩ := rxBlock_onLnk hx (f := fun x => x.spanTake b)
        (by rw [rxBlock_of_cons hrx, if_neg (by simp [hact]), if_pos (by omega)])
      exact ⟨t, hrun, hport.trans (by simp [LnkPort.spanTake, hc, ht]), hrest⟩
  · exact ⟨s.rxLeft p rest, by rw [rxBlock_of_cons hrx, if_pos hact], State.lnkPort_rxLeft hx, .onLnk s p _,
      .onLnk s p _ (by simp)⟩

variable (hact : portState s p = phActive)
include hact

theorem rxBlock_span (hp : 24 ≤ p.val) : ∃ t, exec (.rxBlock p) s = .next t ∧
    (b.control = true → b.payload.toNat % 256 = 0x69 → t.lnkPort p = { x with cellIn := some [] }) ∧
    (∀ bs, b.control = false → x.cellIn = some bs → t.lnkPort p = if bs.length = 56
      then { x with cellIn := none, cells := x.cells ++ [bs ++ leBytes 8 b.payload.toNat] }
      else { x with cellIn := some (bs ++ leBytes 8 b.payload.toNat) }) ∧ RegsKept .lnk [] s t ∧ Kept [.lnk] s t := by
  obtain ⟨t, hrun, hport, hregs, hkept⟩ := rxBlock_onLnk hx (f := fun x => x.spanTake b)
    (by rw [rxBlock_of_cons hrx, if_neg (by simp [hact]), if_pos hp])
  exact ⟨t, hrun, fun hc ht => hport.trans (x.spanTake_cell b hc ht), fun bs hc hin => hport.trans (x.spanTake_data b hc hin),
    hregs, hkept⟩

variable (hp : p.val < 24)
include hp

theorem rxBlock_lctl (hc : b.control = true) (ht : b.payload.toNat % 256 = 0x5A) : ∃ t,
    exec (.rxBlock p) s = .next t ∧ t.lnkPort p = { x with lctlIn := x.lctlIn ++ [b.payload] } ∧
      RegsKept .lnk [] s t ∧ Kept [.lnk] s t :=
  rxBlock_onLnk hx ((rxBlock_of_camera hrx hp hact).trans (congrArg _ (State.rxTake_lctl _ _ b hc ht)))

theorem rxBlock_badType (hc : b.control = true) (ht : b.payload.toNat % 256 ∉ [0x1E, 0x5A, 0x4B]) : ∃ t,
    exec (.rxBlock p) s = .next t ∧ t.lnkPort p = x.cutPacket ∧
      t.rd .lnk (DLK_CNT_BADBLK p) = satAdd (s.rd .lnk (DLK_CNT_BADBLK p)) 1 ∧
      RegsKept .lnk [DLK_CNT_BADBLK p] s t ∧ Kept [.lnk] s t := by
  refine ⟨_, (rxBlock_of_camera hrx hp hact).trans (congrArg _ (State.rxTake_bad _ _ b hc ht)), ?_, ?_,
    (RegsKept.onLnk s p _).trans (.onLnkCount _ p _ _), (Kept.onLnk s p _ (by simp)).trans (.onLnkCount _ p _ _)⟩
  · rw [State.lnkPort_onLnkCount, State.lnkPort_rxLeft hx]
  · rw [State.rd_onLnkCount, State.rxLeft, State.rd_onLnk]

theorem rxBlock_badHeader (hc : b.control = true) (ht : b.payload.toNat % 256 = 0x4B)
    (hbad : b.errored = true ∨ crc16 40 (b.payload.toNat / 2 ^ 24) ≠ nbits b.payload.toNat 23 8) : ∃ t,
    exec (.rxBlock p) s = .next t ∧ t.lnkPort p = { x.cutPacket with asm := none, skip := true } ∧
      t.rd .lnk (DLK_CNT_HDR_CRC p) = satAdd (s.rd .lnk (DLK_CNT_HDR_CRC p)) 1 ∧
      RegsKept .lnk [DLK_CNT_HDR_CRC p] s t ∧ Kept [.lnk] s t := by
  obtain ⟨hport, hcount, hregs, hkept⟩ := State.rxHeader_bad (s := s.rxLeft p rest) (p := p) hbad
  refine ⟨_, (rxBlock_of_camera hrx hp hact).trans (congrArg _ (State.rxTake_pkt _ _ b hc ht)), ?_, ?_,
    (RegsKept.onLnk s p _).trans hregs, (Kept.onLnk s p _ (by simp)).trans hkept⟩
  · rw [hport, State.lnkPort_rxLeft hx]
    rfl
  · rw [hcount, State.rxLeft, State.rd_onLnk]

theorem rxBlock_header (hc : b.control = true) (ht : b.payload.toNat % 256 = 0x4B) (hgood : b.errored = false)
    (hcrc : crc16 40 (b.payload.toNat / 2 ^ 24) = nbits b.payload.toNat 23 8)
    (hlo : 0 < (headerPacket b.payload.toNat s.now).len) (hhi : (headerPacket b.payload.toNat s.now).len ≤ 16384)
    (hroom : bufUsed x.cutPacket + 8 ≤ 65536) : ∃ t, exec (.rxBlock p) s = .next t ∧
      t.lnkPort p = { x.cutPacket with asm := some (headerPacket b.payload.toNat s.now), skip := false } ∧
      RegsKept .lnk [] s t ∧ Kept [.lnk] s t := by
  have hleft := State.lnkPort_rxLeft (s := s) (p := p) hx
  obtain ⟨hport, hregs, hkept⟩ := State.rxHeader_good (s := s.rxLeft p rest) (p := p) hgood hcrc hlo hhi (by rwa [hleft])
  refine ⟨_, (rxBlock_of_camera hrx hp hact).trans (congrArg _ (State.rxTake_pkt _ _ b hc ht)), ?_,
    (RegsKept.onLnk s p _).trans hregs, (Kept.onLnk s p _ (by simp)).trans hkept⟩
  rw [hport, hleft]
  rfl

theorem rxBlock_data (q : Packet) (hc : b.control = false) (hskip : x.skip = false) (hasm : x.asm = some q)
    (hroom : bufUsed x + 8 ≤ 65536) : ∃ t, exec (.rxBlock p) s = .next t ∧
      (let q' : Packet := { q with bytes := q.bytes ++ leBytes 8 b.payload.toNat, fec := q.fec || b.errored }
       t.lnkPort p = if q.bytes.length + 8 = 8 * payloadBlocks q.len
         then { x with asm := none, committed := x.committed ++ [.packet q'] } else { x with asm := some q' }) ∧
      RegsKept .lnk [] s t ∧ Kept [.lnk] s t := by
  have hleft := State.lnkPort_rxLeft (s := s) (p := p) hx
  exact rxBlock_onLnk hx ((rxBlock_of_camera hrx hp hact).trans (congrArg _
    ((State.rxTake_data _ _ b hc (by rwa [hleft])).trans (State.rxData_of_asm (by rwa [hleft]) (by rwa [hleft])))))

end

end Sys2Proof.Machine

end

/-! ## Packets and link-control messages (R92, R115 to R121) -/

section

namespace Sys2Proof.Machine

/-! ### Virtual channels -/

section
variable (s : State) (p v : Nat)

@[simp] theorem State.vcOf_onVc_same (f : VcSt → VcSt) : (s.onVc p v f).vcOf p v = f (s.vcOf p v) := by
  rw [State.vcOf, State.onVc, State.onLnk_lnkPort_same, Tab.get_upd_same]
  rfl

theorem State.vcOf_congr {s t : State} {p : Nat} (h : (t.lnkPort p).vc = (s.lnkPort p).vc) (v : Nat) : t.vcOf p v = s.vcOf p v := by
  rw [State.vcOf, h, State.vcOf]

theorem RegsKept.onVc {b : Blk} {as : List Nat} (f : VcSt → VcSt) : RegsKept b as s (s.onVc p v f) := .onLnk s p _

end

/-! ### A packet in order (R123) -/

section
variable (s : State) (p : Nat) (q : Packet)

/-- The VC's sequence after a packet. -/
def State.seqNoted : State := s.onVc p q.vc (fun v => { v with seq := some ((q.seq + 1) % 256) })

variable {s p q} in
theorem State.checkSeq_of_next (h : (s.vcOf p q.vc).seq = some q.seq) : s.checkSeq p q = s.seqNoted p q := by
  have hgap : (q.seq + 256 - q.seq) % 256 = 0 := by omega
  simp only [State.checkSeq, h, Option.getD_some, hgap, if_pos]
  rfl

/-- The packets that are left wait in the buffer. -/
def State.packetsLeft (rest : List Packet) : State := s.onLnk p (fun x => { x with committed := rest.map .packet })

theorem State.drainMarks_packets (rest : List Packet) : s.drainMarks p (rest.map .packet) = s.packetsLeft p rest := by
  cases rest <;> rfl

theorem State.committed_packetsLeft (rest : List Packet) :
    ((s.packetsLeft p rest).lnkPort p).committed = rest.map .packet := by
  rw [State.packetsLeft, State.onLnk_lnkPort_same]

theorem State.vcOf_packetsLeft (rest : List Packet) (v : Nat) : (s.packetsLeft p rest).vcOf p v = s.vcOf p v :=
  State.vcOf_congr (by rw [State.packetsLeft, State.onLnk_lnkPort_same]) v

variable {s p q} in
theorem State.closeShort_of_closed {vc : Nat} (h : (s.vcOf p vc).line = none) : s.closeShort p vc = s := if_neg (by simp [h])

/-- The event word a camera sends (R121). -/
def Packet.event : Word := BitVec.ofNat 32 (leAt q.bytes 0 4)

theorem State.packetByDt_event (hdt : q.dt = 0x09) (hcut : q.cut = false) : s.packetByDt p q =
    ((s.wr .lnk (DLK_CAM_EVT p) q.event).count .lnk (DLK_CNT_CAM_EVT p)).publish (0x1B0 + 4 * p + 3) q.event := by
  simp [State.packetByDt, isPixelDt, hdt, hcut, Packet.event]

/-- The line that a LINE_START opens (R121, R122). -/
def Packet.line : OpenLine :=
  { tag := leAt q.bytes 0 2, tagValid := tbit (leAt q.bytes 2 1) 0, held := tbit (leAt q.bytes 2 1) 3
    phase := nbits (leAt q.bytes 2 1) 2 1, number := leAt q.bytes 4 4, pixels := leAt q.bytes 8 2, col0 := leAt q.bytes 10 2
    dt := none, bytes := [], flags := packetFlags q, arrived := q.arrived }

/-- The line of a LINE_START stands open. -/
def State.lineOpened : State := s.onVc p q.vc (fun v => { v with line := some q.line })

theorem State.packetByDt_lineStart (hdt : q.dt = 0x03) (hcut : q.cut = false) (hclaim : vcStreams s p q.vc ≠ [])
    (hclosed : (s.vcOf p q.vc).line = none) : s.packetByDt p q = s.lineOpened p q := by
  have hstart : s.packetByDt p q = s.lineStart p q := by simp [State.packetByDt, isPixelDt, hdt, hcut, hclaim]
  rw [hstart, State.lineStart, State.closeShort_of_closed hclosed]
  rfl

end

/-! ### RX_PACKET -/

section
variable {p : Fin 24} {s : State} {q : Packet} {rest : List Packet}
  (hhead : (s.lnkPort p).committed = .packet q :: rest.map .packet)
  (hcut : q.cut = false) (hpay : payloadBad q = false) (hseq : (s.vcOf p q.vc).seq = some q.seq)

include hhead hpay hseq in
theorem rxPacket_inOrder {w : State} (hact : (s.seqNoted p q).packetByDt p q = w) :
    exec (.rxPacket p) s = .next (w.packetsLeft p rest) := by
  rw [← hact]
  have hrun : exec (.rxPacket p) s = execRxPacket p s := rfl
  rw [hrun, execRxPacket, hhead]
  simp only [State.checkSeq_of_next hseq, hpay, Bool.false_eq_true, if_false, State.drainMarks_packets]

include hhead hcut hpay hseq

theorem rxPacket_event (hdt : q.dt = 0x09) : ∃ t, exec (.rxPacket p) s = .next t ∧ (t.lnkPort p).committed = rest.map .packet ∧
    (t.vcOf p q.vc).seq = some ((q.seq + 1) % 256) ∧ t.rd .lnk (DLK_CAM_EVT p) = BitVec.ofNat 32 (leAt q.bytes 0 4) ∧
    t.rd .lnk (DLK_CNT_CAM_EVT p) = satAdd (s.rd .lnk (DLK_CNT_CAM_EVT p)) 1 ∧
    RegsKept .lnk [DLK_CAM_EVT p, DLK_CNT_CAM_EVT p] s t ∧ Kept [.lnk, .evt] s t := by
  let u := s.seqNoted p q
  let v := (u.wr .lnk (DLK_CAM_EVT p) q.event).count .lnk (DLK_CNT_CAM_EVT p)
  let w := v.publish (0x1B0 + 4 * p + 3) q.event
  have hw : Kept [.evt] v w := .publish v _ _ (by simp)
  have hport : w.lnkPort p = u.lnkPort p := by
    rw [State.lnkPort, hw.lnk_eq (by simp)]
    exact (State.count_lnkPort ..).trans (State.wr_lnkPort ..)
  have hact : u.packetByDt p q = w := State.packetByDt_event u p q hdt hcut
  refine ⟨w.packetsLeft p rest, rxPacket_inOrder hhead hpay hseq hact,
    w.committed_packetsLeft p rest, ?_, ?_, ?_, ?_, ?_⟩
  · rw [State.vcOf_packetsLeft, State.vcOf_congr (congrArg LnkPort.vc hport)]
    exact congrArg VcSt.seq (State.vcOf_onVc_same ..)
  · rw [State.packetsLeft, State.rd_onLnk, hw.rd_eq (by simp), State.rd_count_ne _ _ _ _ (by simp), State.rd_wr_same]
    rfl
  · rw [State.packetsLeft, State.rd_onLnk, hw.rd_eq (by simp), State.rd_count, State.rd_wr_ne _ _ _ _ _ (by simp)]
    rfl
  · exact (RegsKept.onVc s p q.vc _).trans ((RegsKept.wr u _ _ (by simp)).trans ((RegsKept.count _ _ (by simp)).trans
      ((hw.regsKept (by simp) _).trans (.onLnk w p _))))
  · exact (Kept.onLnk s p _ (by simp)).trans ((Kept.wr u .lnk _ _ (by simp)).trans ((Kept.count _ .lnk _ (by simp)).trans
      ((hw.mono (by simp)).trans (.onLnk w p _ (by simp)))))

theorem rxPacket_lineStart (hdt : q.dt = 0x03) (hclaim : vcStreams s p q.vc ≠ []) (hopen : (s.vcOf p q.vc).line = none) : ∃ t,
    exec (.rxPacket p) s = .next t ∧ (t.lnkPort p).committed = rest.map .packet ∧
    (∃ o, (t.vcOf p q.vc).line = some o ∧ o.tag = leAt q.bytes 0 2 ∧ o.number = leAt q.bytes 4 4 ∧
      o.pixels = leAt q.bytes 8 2 ∧ o.bytes = [] ∧ o.arrived = q.arrived) ∧ RegsKept .lnk [] s t ∧ Kept [.lnk] s t := by
  let u := s.seqNoted p q
  have hclosed : (u.vcOf p q.vc).line = none := (congrArg VcSt.line (State.vcOf_onVc_same ..)).trans hopen
  have hact : u.packetByDt p q = u.lineOpened p q := State.packetByDt_lineStart u p q hdt hcut hclaim hclosed
  refine ⟨(u.lineOpened p q).packetsLeft p rest, rxPacket_inOrder hhead hpay hseq hact,
    State.committed_packetsLeft _ p rest, ⟨q.line, ?_, rfl, rfl, rfl, rfl, rfl⟩, ?_, ?_⟩
  · rw [State.vcOf_packetsLeft]
    exact congrArg VcSt.line (State.vcOf_onVc_same ..)
  · exact (RegsKept.onVc s p q.vc _).trans ((RegsKept.onVc u p q.vc _).trans (.onLnk _ p _))
  · exact (Kept.onLnk s p _ (by simp)).trans ((Kept.onLnk u p _ (by simp)).trans (.onLnk _ p _ (by simp)))

end

/-! ### Registers of the power unit while lines close -/

theorem Kept.pwrRegs {bs : List Blk} {s t : State} (h : Kept bs s t) (hb : Blk.pwr ∉ bs) : RegsKept .pwr [] s t := h.regsKept hb []

section
variable (s : State)

theorem RegsKept.deliver (l : CamLine) (ts : List Nat) : RegsKept .pwr [] s (s.deliver l ts) :=
  (RegsKept.each fun s t _ => (Kept.onPix (bs := [.pix]) s t _ (by simp)).pwrRegs (by simp)).trans (.onVc _ _ _ _)

theorem RegsKept.countMarks (p flags : Nat) : RegsKept .pwr [] s (s.countMarks p flags) :=
  (Kept.trans (bs := [.lnk]) (.ite (.count s .lnk _ (by simp)) (.refl _ s))
    (.ite (.count _ .lnk _ (by simp)) (.refl _ _))).pwrRegs (by simp)

theorem RegsKept.lineTo (l : CamLine) (found : Option Stamp) (lineStart : Option Nat) (ts : List Nat) :
    RegsKept .pwr [] s (s.lineTo l found lineStart ts) := by
  unfold State.lineTo
  extract_lets v drop s₁ r late fl s₂
  have hdrop : RegsKept .pwr [] s s₁ := .each fun s t _ => (Kept.count (bs := [.pix]) s .pix _ (by simp)).pwrRegs (by simp)
  exact hdrop.trans (.ite (.refl _ _ s₁) (((RegsKept.deliver s₁ _ _).trans (.countMarks _ _ _)).trans (.onVc _ _ _ _)))

theorem RegsKept.countLnk (a : Nat) : RegsKept .pwr [] s (s.count .lnk a) :=
  (Kept.count (bs := [.lnk]) s .lnk a (by simp)).pwrRegs (by simp)

theorem RegsKept.insertMissing (p vc pixels : Nat) (dt : Option Nat) (tags : List (Option Nat)) (area : Bool) :
    RegsKept .pwr [] s (s.insertMissing p vc pixels dt tags area) :=
  .each fun s _ _ => (RegsKept.lineTo s _ _ _ _).trans (.countLnk _ _)

theorem RegsKept.noteDelay (p arrived : Nat) (found : Option Stamp) : RegsKept .pwr [] s (s.noteDelay p arrived found) := by
  cases found <;> exact fun _ _ => rfl

theorem RegsKept.closeLine (p vc extra : Nat) : RegsKept .pwr [] s (s.closeLine p vc extra) := by
  unfold State.closeLine
  split
  · exact .refl _ _ s
  · extract_lets s₁ need short v c n missing tags s₂ s₃ s₄ fl l found
    have hgap : RegsKept .pwr [] s₁ s₂ := .insertMissing s₁ _ _ _ _ _ _
    have hresync : RegsKept .pwr [] s₂ s₃ := .ite (.countLnk s₂ _) (.refl _ _ s₂)
    have href : RegsKept .pwr [] s₃ s₄ := .onVc s₃ p vc _
    exact (RegsKept.onVc s p vc _).trans (.ite ((RegsKept.onVc s₁ p vc _).trans (.countLnk _ _))
      ((hgap.trans (hresync.trans href)).trans ((RegsKept.noteDelay s₄ _ _ _).trans (.lineTo _ _ _ _ _))))

theorem RegsKept.closeShort (p vc : Nat) : RegsKept .pwr [] s (s.closeShort p vc) :=
  .ite ((RegsKept.closeLine s p vc _).trans (.countLnk _ _)) (.refl _ _ s)

theorem RegsKept.closePort (p : Nat) : RegsKept .pwr [] s (s.closePort p) :=
  (RegsKept.onLnk s p _).trans (.ite (.each fun s v _ => .closeShort s p v) (.onLnk _ p _))

/-! ### Entering QUIET (R92) -/

variable (p : Nat)

theorem RegsKept.sigAll (b : Bool) : RegsKept .phy (laneRegs p) s (s.sigAll p b) :=
  (RegsKept.setb s _ 4 b (by simp)).trans (.setb _ _ 4 b (by simp))

theorem Kept.sigAll (b : Bool) : Kept [.phy] s (s.sigAll p b) := (Kept.setb s .phy _ 4 b (by simp)).trans (.setb _ .phy _ 4 b (by simp))

@[simp] theorem State.phyPort_sigAll (b : Bool) (q : Nat) : (s.sigAll p b).phyPort q = s.phyPort q := by simp [State.sigAll]

/-- The port has left ACTIVE for QUIET and counted it; its lanes are as they were. -/
def State.quietCounted : State := ((s.leaveActive p).closePort p).count .pwr PWR_CNT_QUIET

/-- The state machine has moved to QUIET. -/
def State.quietNow : State := ((s.quietCounted p).phyGo p phQuiet).onPhy p (fun x => { x with quietReq := none, quietExit := none })

theorem State.enterQuiet_eq : s.enterQuiet p = (((s.quietNow p).lanesDark p).sigAll p false).dropLocks p := rfl

theorem State.rd_quietCounted : (s.quietCounted p).rd .pwr PWR_CNT_QUIET = satAdd (s.rd .pwr PWR_CNT_QUIET) 1 := by
  rw [State.quietCounted, State.rd_count, RegsKept.closePort _ p _ (by simp),
    ((RegsOnly.leaveActive s p).kept (bs := [.phy]) (by simp)).rd_eq (by simp)]

theorem Kept.quietCounted : Kept [.phy, .lnk, .pix, .pwr] s (s.quietCounted p) :=
  ((RegsOnly.leaveActive s p).kept (by simp)).trans (((Kept.closePort _ p).mono (by simp)).trans (.count _ .pwr _ (by simp)))

theorem Kept.quietNow : Kept [.phy] (s.quietCounted p) (s.quietNow p) := (Kept.phyGo _ p _).trans (.onPhy _ p _ (by simp))

/-- In QUIET the lanes are dark and the locks are dropped. -/
theorem Kept.quietDark : Kept [.phy, .lnk] (s.quietNow p) (s.enterQuiet p) :=
  ((Kept.lanesDark _ p).mono (by simp)).trans (((Kept.sigAll _ p false).mono (by simp)).trans (.dropLocks _ p))

theorem RegsKept.quietDark : RegsKept .phy (laneRegs p) (s.quietNow p) (s.enterQuiet p) :=
  (RegsKept.lanesDark _ p).trans ((RegsKept.sigAll _ p false).trans (.dropLocks _ p))

theorem Kept.enterQuiet : Kept [.phy, .lnk, .pix, .pwr] s (s.enterQuiet p) :=
  (Kept.quietCounted s p).trans (((Kept.quietNow s p).mono (by simp)).trans ((Kept.quietDark s p).mono (by simp)))

theorem portState_enterQuiet : portState (s.enterQuiet p) p = phQuiet := by
  rw [portState_congr (RegsKept.quietDark s p _ (by simp))]
  exact (portState_congr (State.rd_onPhy ..)).trans (portState_phyGo (s.quietCounted p) p phQuiet)

theorem State.rd_enterQuiet : (s.enterQuiet p).rd .pwr PWR_CNT_QUIET = satAdd (s.rd .pwr PWR_CNT_QUIET) 1 := by
  rw [(Kept.quietDark s p).rd_eq (by simp), (Kept.quietNow s p).rd_eq (by simp), State.rd_quietCounted]

theorem State.quietReq_enterQuiet : ((s.enterQuiet p).phyPort p).quietReq = none := by
  rw [State.enterQuiet_eq, State.phyPort_dropLocks, State.phyPort_sigAll, State.phyPort_lanesDark, State.quietNow,
    State.onPhy_phyPort_same]

end

/-! ### RX_LCTL (R92, R115) -/

section
variable {p : Fin 24} {s : State} {b : Dword} {rest : List Dword}

/-- A block that carries a message of R115: the TYPE of LCTL and a good CRC. -/
def lctlOk (b : Dword) : Prop := b.toNat % 256 = 0x5A ∧ crc16 40 (b.toNat / 2 ^ 24) = nbits b.toNat 23 8

/-- The oldest link-control block has left its queue. -/
def State.lctlLeft (s : State) (p : Nat) (rest : List Dword) : State := s.onLnk p (fun x => { x with lctlIn := rest })

theorem rxLctl_of_none (h : (s.lnkPort p).lctlIn = []) : exec (.rxLctl p) s = .next s := by
  have hrun : exec (.rxLctl p) s = execRxLctl p s := rfl
  rw [hrun, execRxLctl, h]

theorem State.lctlTake_bad (s : State) (p : Nat) (h : b.toNat % 256 ≠ 0x5A ∨ crc16 40 (b.toNat / 2 ^ 24) ≠ nbits b.toNat 23 8) :
    s.lctlTake p b = s.count .lnk (DLK_CNT_LCTL_BAD p) := by
  have hok : (b.toNat % 256 == 0x5A && crc16 40 (b.toNat / 2 ^ 24) == nbits b.toNat 23 8) = false := by
    rcases h with h | h
    · rw [beq_false_of_ne h, Bool.false_and]
    · rw [beq_false_of_ne h, Bool.and_false]
  unfold State.lctlTake
  extract_lets w ok req inTime
  have hok' : ok = false := hok
  simp [hok']

section
variable {t0 : Nat} (hok : lctlOk b) (hreq : (s.phyPort p).quietReq = some t0)
include hok hreq

theorem State.lctlTake_ack (htime : s.now ≤ t0 + 10000) (hmsg : nbits b.toNat 63 56 = 0x81) (hact : portState s p = phActive) :
    s.lctlTake p b = s.enterQuiet p := by
  obtain ⟨htype, hcrc⟩ := hok
  unfold State.lctlTake
  extract_lets w ok req inTime
  have hok' : ok = true := by simp only [ok, w, htype, hcrc, beq_self_eq_true, Bool.and_self]
  have hin : inTime = true := by simp [inTime, req, hreq, htime]
  have hw : nbits w 63 56 = 0x81 := hmsg
  simp [hok', hin, hw, hact]

theorem State.lctlTake_nak (hmsg : nbits b.toNat 63 56 = 0x82) : s.lctlTake p b = s.quietNak p := by
  obtain ⟨htype, hcrc⟩ := hok
  unfold State.lctlTake
  extract_lets w ok req inTime
  have hok' : ok = true := by simp only [ok, w, htype, hcrc, beq_self_eq_true, Bool.and_self]
  have hasked : req.isSome = true := by simp [req, hreq]
  have hw : nbits w 63 56 = 0x82 := hmsg
  simp [hok', hasked, hw]

end

variable (hin : (s.lnkPort p).lctlIn = b :: rest)
include hin

theorem rxLctl_of_cons : exec (.rxLctl p) s = .next ((s.lctlLeft p rest).lctlTake p b) := by
  have hrun : exec (.rxLctl p) s = execRxLctl p s := rfl
  rw [hrun, execRxLctl, hin]
  rfl

theorem rxLctl_bad (h : b.toNat % 256 ≠ 0x5A ∨ crc16 40 (b.toNat / 2 ^ 24) ≠ nbits b.toNat 23 8) : ∃ t,
    exec (.rxLctl p) s = .next t ∧ t.lnkPort p = { s.lnkPort p with lctlIn := rest } ∧
      t.rd .lnk (DLK_CNT_LCTL_BAD p) = satAdd (s.rd .lnk (DLK_CNT_LCTL_BAD p)) 1 ∧
      RegsKept .lnk [DLK_CNT_LCTL_BAD p] s t ∧ Kept [.lnk] s t :=
  ⟨_, (rxLctl_of_cons hin).trans (congrArg _ (State.lctlTake_bad _ _ h)), State.lnkPort_onLnkCount s p _ _, State.rd_onLnkCount s p _ _,
    .onLnkCount s p _ _, .onLnkCount s p _ _⟩

variable {t0 : Nat} (hok : lctlOk b) (hreq : (s.phyPort p).quietReq = some t0)
include hok hreq

theorem rxLctl_ack (htime : s.now ≤ t0 + 10000) (hmsg : nbits b.toNat 63 56 = 0x81) (hact : portState s p = phActive) : ∃ t,
    exec (.rxLctl p) s = .next t ∧ portState t p = phQuiet ∧
      t.rd .pwr PWR_CNT_QUIET = satAdd (s.rd .pwr PWR_CNT_QUIET) 1 ∧ (t.phyPort p).quietReq = none ∧
      BlocksKept [.phy, .lnk, .pix, .evt, .pwr] s t := by
  let u := s.lctlLeft p rest
  have htake : u.lctlTake p b = u.enterQuiet p := State.lctlTake_ack hok hreq htime hmsg hact
  exact ⟨_, (rxLctl_of_cons hin).trans (congrArg _ htake), portState_enterQuiet u p, State.rd_enterQuiet u p,
    State.quietReq_enterQuiet u p, ((Kept.onLnk s p _ (by simp)).trans ((Kept.enterQuiet u p).mono (by simp))).blocks⟩

theorem rxLctl_nak (hmsg : nbits b.toNat 63 56 = 0x82) : ∃ t, exec (.rxLctl p) s = .next t ∧
    t.flag .phy (phyStatus p) 5 = true ∧ (t.phyPort p).quietHold = s.now + 1000000 ∧
    (t.phyPort p).quietReq = none ∧ RegsKept .phy [phyStatus p] s t ∧ Kept [.phy, .lnk] s t := by
  let u := s.lctlLeft p rest
  have htake : u.lctlTake p b = u.quietNak p := State.lctlTake_nak hok hreq hmsg
  refine ⟨_, (rxLctl_of_cons hin).trans (congrArg _ htake), ?_, ?_, ?_,
    (RegsKept.onLnk s p _).trans ((RegsKept.setb u _ 5 true (by simp)).trans (.onPhy _ p _)),
    (Kept.onLnk s p _ (by simp)).trans ((Kept.setb u .phy _ 5 true (by simp)).trans (.onPhy _ p _ (by simp)))⟩
  · rw [State.quietNak, State.flag_onPhy, State.flag_setb_same _ _ _ _ _ (by decide)]
  · rw [State.quietNak, State.onPhy_phyPort_same]
    rfl
  · rw [State.quietNak, State.onPhy_phyPort_same]

end

end Sys2Proof.Machine

end

/-! ## The back-channel and register requests (R110, R111, R127 to R129) -/

section

namespace Sys2Proof.Machine

/-! ### BC_BLOCK (R110, R111) -/

/-- The port after a block of the back-channel has left at time now. -/
def LnkPort.sends (x : LnkPort) (now : Nat) : BcNext → LnkPort
  | .trig tag off => ({ x with trig := x.trig.filter (fun t => t.1 != x.boundary) } : LnkPort).sentBlock true (trigBlock tag off) false
  | .data r => ({ x with reg := some { r with dataToSend := false } } : LnkPort).sentBlock false (regDataBlock r) false
  | .lctl m => ({ x with lctl := x.lctl.tail } : LnkPort).sentBlock true (lctlBlock m) false
  | .req r => ({ x with reg := some { r with toSend := false, dataToSend := r.write, launched := some now } } :
      LnkPort).sentBlock true (regBlock r) false
  | .fill => x.sentBlock true fillBlock true

theorem LnkPort.boundary_sends (x : LnkPort) (now : Nat) (b : BcNext) : (x.sends now b).boundary = x.boundary + 21120 := by
  cases b <;> rfl

/-- What the back-channel of a port sends next (R111). -/
def bcChoice (s : State) (p : Nat) : BcNext := bcNext (s.lnkPort p) (decide (portState s p = phActive ∨ portState s p = phQuiet))

theorem State.bcSend_eq (s : State) (p : Nat) : s.bcSend p = s.onLnk p (fun x => x.sends s.now (bcChoice s p)) := by
  unfold State.bcSend
  extract_lets st x
  have hnext : bcNext x (decide (st = phActive ∨ st = phQuiet)) = bcChoice s p := rfl
  rw [hnext]
  cases bcChoice s p <;> rfl

section
variable {p : Fin 24} {s : State}

theorem bcBlock_early (h : s.now * 1000 < (s.lnkPort p).boundary) : exec (.bcBlock p) s = .next s :=
  congrArg Host.Outcome.next (if_neg fun ⟨_, _, hdue⟩ => absurd hdue (by omega))

theorem bcBlock_due (hdue : (s.lnkPort p).boundary ≤ s.now * 1000) (hup : portUp s p = true) (halive : bcAlive s p = true) : ∃ t,
    exec (.bcBlock p) s = .next t ∧ (t.lnkPort p).boundary = (s.lnkPort p).boundary + 21120 ∧
    (match bcNext (s.lnkPort p) (decide (portState s p = phActive ∨ portState s p = phQuiet)) with
      | .trig tag off => (t.lnkPort p).sent = some (true, trigBlock tag off)
      | .data r => (t.lnkPort p).sent = some (false, regDataBlock r) ∧
          (t.lnkPort p).reg = some { r with dataToSend := false }
      | .lctl m => (t.lnkPort p).sent = some (true, lctlBlock m) ∧ (t.lnkPort p).lctl = (s.lnkPort p).lctl.tail
      | .req r => (t.lnkPort p).sent = some (true, regBlock r) ∧
          (t.lnkPort p).reg = some { r with toSend := false, dataToSend := r.write, launched := some s.now }
      | .fill => (t.lnkPort p).sent = some (true, fillBlock) ∧ (t.lnkPort p).sinceFill = 0) ∧
    RegsKept .lnk [] s t ∧ Kept [.lnk] s t := by
  let t := s.onLnk p (fun x => x.sends s.now (bcChoice s p))
  have hport : t.lnkPort p = (s.lnkPort p).sends s.now (bcChoice s p) := State.onLnk_lnkPort_same ..
  refine ⟨t, congrArg Host.Outcome.next ((if_pos ⟨hup, halive, hdue⟩).trans (s.bcSend_eq p)), ?_, ?_, .onLnk s p _,
    .onLnk s p _ (by simp)⟩
  · rw [hport, LnkPort.boundary_sends]
  · have hnext : bcNext (s.lnkPort p) (decide (portState s p = phActive ∨ portState s p = phQuiet)) = bcChoice s p := rfl
    rw [hnext, hport]
    cases bcChoice s p with
    | trig tag off => rfl
    | data r => exact ⟨rfl, rfl⟩
    | lctl m => exact ⟨rfl, rfl⟩
    | req r => exact ⟨rfl, rfl⟩
    | fill => exact ⟨rfl, rfl⟩

end

/-! ### The end of a request (R128) -/

section
variable (s : State) (p result : Nat)

theorem State.reg_endReg : ((s.endReg p result).lnkPort p).reg = none := by
  simp only [State.endReg, State.setb_lnkPort, State.put_lnkPort, State.onLnk_lnkPort_same]

theorem State.fld_endReg : (s.endReg p result).fld .lnk (DLK_REG_STATUS p) 27 24 = result % 16 := by
  rw [State.endReg, State.fld_setb_ne _ _ _ _ _ _ _ _ (by simp), State.fld_setb_bit _ _ _ _ _ _ _ (by decide),
    State.fld_setb_bit _ _ _ _ _ _ _ (by decide), State.fld_put_same _ _ _ _ _ _ (by decide) (by decide)]
  rfl

theorem State.flag_endReg_done : (s.endReg p result).flag .lnk (DLK_REG_STATUS p) 30 = true := by
  rw [State.endReg, State.flag_setb_ne _ _ _ _ _ _ _ (by simp), State.flag_setb_bit _ _ _ _ _ _ (by decide),
    State.flag_setb_same _ _ _ _ _ (by decide)]

theorem State.flag_endReg_busy : (s.endReg p result).flag .lnk (DLK_REG_STATUS p) 31 = false := by
  rw [State.endReg, State.flag_setb_ne _ _ _ _ _ _ _ (by simp), State.flag_setb_same _ _ _ _ _ (by decide)]

theorem RegsKept.endReg : RegsKept .lnk [DLK_REG_STATUS p, DLK_REG_CMD p] s (s.endReg p result) :=
  (RegsKept.onLnk s p _).trans ((RegsKept.put _ _ 27 24 result (by simp)).trans ((RegsKept.setb _ _ 30 true (by simp)).trans
    ((RegsKept.setb _ _ 31 false (by simp)).trans (.setb _ _ 31 false (by simp)))))

theorem Kept.endReg : Kept [.lnk] s (s.endReg p result) :=
  (Kept.onLnk s p _ (by simp)).trans ((Kept.put _ .lnk _ 27 24 result (by simp)).trans ((Kept.setb _ .lnk _ 30 true (by simp)).trans
    ((Kept.setb _ .lnk _ 31 false (by simp)).trans (.setb _ .lnk _ 31 false (by simp)))))

/-! ### An attempt (R128, R129) -/

theorem Kept.wakePort : Kept [.phy, .lnk] s (s.wakePort p) :=
  .ite ((Kept.quietExitStart s p (by simp)).trans (.onLnk _ p _ (by simp))) (.refl _ s)

theorem RegsKept.wakePort : RegsKept .lnk [] s (s.wakePort p) :=
  .ite (((Kept.quietExitStart (bs := [.phy]) s p (by simp)).regsKept (by simp) _).trans (.onLnk _ p _)) (.refl _ _ s)

theorem State.reg_wakePort : ((s.wakePort p).lnkPort p).reg = (s.lnkPort p).reg := by
  unfold State.wakePort
  split
  · have hexit : (s.quietExitStart p).lnkPort p = s.lnkPort p := by
      rw [State.lnkPort, (Kept.quietExitStart (bs := [.phy]) s p (by simp)).lnk_eq (by simp), State.lnkPort]
    rw [State.sendLctl, State.onLnk_lnkPort_same, hexit]
  · rfl

/-- The ID of the next attempt. -/
def State.nextId : Nat := ((s.lnkPort p).lastId + 1) % 256

/-- A request as its attempt with an ID waits for a boundary. -/
def RegReq.attempt (r : RegReq) (id : Nat) : RegReq := { r with id := id, toSend := true, dataToSend := false, launched := none }

/-- The request has its new ID; it is not yet shown. -/
def State.attemptNamed : State :=
  (s.onLnk p (fun x => { x with lastId := s.nextId p })).onReg p (fun r => r.attempt (s.nextId p))

theorem RegsKept.onReg {b : Blk} {as : List Nat} (f : RegReq → RegReq) : RegsKept b as s (s.onReg p f) := .onLnk s p _

theorem RegsKept.attemptNamed : RegsKept .lnk [] s (s.attemptNamed p) := (RegsKept.onLnk s p _).trans (.onReg _ p _)

theorem State.regAttempt_eq : s.regAttempt p = ((s.attemptNamed p).put .lnk (DLK_REG_STATUS p) 7 0 (s.nextId p)).wakePort p := rfl

theorem State.reg_regAttempt : ((s.regAttempt p).lnkPort p).reg = (s.lnkPort p).reg.map (fun r => r.attempt (s.nextId p)) := by
  rw [State.regAttempt_eq, State.reg_wakePort, State.put_lnkPort, State.attemptNamed, State.onReg, State.onLnk_lnkPort_same,
    State.onLnk_lnkPort_same]

theorem State.fld_regAttempt : (s.regAttempt p).fld .lnk (DLK_REG_STATUS p) 7 0 = s.nextId p := by
  rw [State.regAttempt_eq, (RegsKept.wakePort _ p).fld_eq (by simp), State.fld_put_same _ _ _ _ _ _ (by decide) (by decide)]
  exact Nat.mod_mod _ 256

theorem State.flag_regAttempt_busy : (s.regAttempt p).flag .lnk (DLK_REG_STATUS p) 31 = s.flag .lnk (DLK_REG_STATUS p) 31 := by
  rw [State.regAttempt_eq, (RegsKept.wakePort _ p).flag_eq (by simp), State.flag_put_bit _ _ _ _ _ _ _ (by decide),
    (RegsKept.attemptNamed s p).flag_eq (by simp)]

theorem RegsKept.regAttempt : RegsKept .lnk [DLK_REG_STATUS p] s (s.regAttempt p) :=
  ((RegsKept.attemptNamed s p).mono (by simp)).trans ((RegsKept.put _ _ 7 0 _ (by simp)).trans
    ((RegsKept.wakePort _ p).mono (by simp)))

theorem Kept.regAttempt : Kept [.phy, .lnk] s (s.regAttempt p) :=
  (Kept.onLnk s p _ (by simp)).trans ((Kept.onLnk _ p _ (by simp)).trans ((Kept.put _ .lnk _ 7 0 _ (by simp)).trans (.wakePort _ p)))

end

/-! ### REG_GO (R128, R129) -/

/-- DLK_REG_CMD. -/
def rowRegCmd : RegRow := ⟨0x20, 0x0, 1, .plain, 0x10000000, [fRow 31 31 .w1s, fRow 30 30 .rw, fRow 29 27 .rw]⟩

theorem regAt_regCmd : ∀ p : Fin 24, regAt (DLK_REG_CMD p) = some (unitDlk, rowRegCmd) := by decide +kernel

theorem cfgErrAt_regCmd : ∀ p : Fin 24, unitDlk.cfgErrAt (DLK_REG_CMD p) = some (DLK_STATUS p, 7) := by decide +kernel

section
variable (s : State) (p : Fin 24) (v : Word)

/-- The request that a command makes. -/
def State.asked : RegReq :=
  { write := bit v 30, addr := s.rd .lnk (DLK_REG_ADDR p), data := s.rd .lnk (DLK_REG_WDATA p), retries := bits v 29 27
    tries := 0, id := 0, toSend := true, dataToSend := false, launched := none }

/-- A command of R128 is stored and its tries start anew. -/
def State.cmdStored : State := (s.store .lnk (DLK_REG_CMD p) v).put .lnk (DLK_REG_STATUS p) 18 16 0

/-- The request of a command waits for its first attempt. -/
def State.regAsked : State :=
  ((s.cmdStored p v).setb .lnk (DLK_REG_STATUS p) 31 true).onLnk p (fun x => { x with reg := some (s.asked p v) })

theorem RegsKept.cmdStored : RegsKept .lnk [DLK_REG_CMD p, DLK_STATUS p, DLK_REG_STATUS p] s (s.cmdStored p v) :=
  (RegsKept.store_plain (regAt_regCmd p) rfl (cfgErrAt_regCmd p) s .lnk v (by simp) (by simp)).trans (.put _ _ 18 16 0 (by simp))

theorem Kept.cmdStored : Kept [.lnk] s (s.cmdStored p v) :=
  (Kept.store s .lnk _ v (by simp)).trans (.put _ .lnk _ 18 16 0 (by simp))

theorem Kept.regAsked : Kept [.lnk] s (s.regAsked p v) :=
  (Kept.cmdStored s p v).trans ((Kept.setb _ .lnk _ 31 true (by simp)).trans (.onLnk _ p _ (by simp)))

theorem State.lnkPort_regAsked : (s.regAsked p v).lnkPort p = { s.lnkPort p with reg := some (s.asked p v) } := by
  rw [State.regAsked, State.onLnk_lnkPort_same, State.setb_lnkPort, State.cmdStored, State.put_lnkPort, State.store_lnkPort]

theorem State.flag_regAsked : (s.regAsked p v).flag .lnk (DLK_REG_STATUS p) 31 = true := by
  rw [State.regAsked, State.flag, State.rd_onLnk]
  exact State.flag_setb_same _ _ _ _ _ (by decide)

variable {s p v}

theorem regGo_busy (hgo : bit v 31 = true) (hbusy : s.flag .lnk (DLK_REG_STATUS p) 31 = true) :
    exec (.regGo p v) s = .next (s.setb .lnk (DLK_STATUS p) 6 true) :=
  congrArg Host.Outcome.next (if_pos (by rw [hgo, hbusy]; rfl))

theorem regGo_free (hgo : bit v 31 = true) (hfree : s.flag .lnk (DLK_REG_STATUS p) 31 = false) : exec (.regGo p v) s = .next
    (if portUp s p = true then (s.regAsked p v).regAttempt p else (s.cmdStored p v).endReg p 6) := by
  have hup : portUp (s.cmdStored p v) p = portUp s p := portUp_congr ((Kept.cmdStored s p v).rd_eq (by simp) _)
  have haddr : ((s.cmdStored p v).setb .lnk (DLK_REG_STATUS p) 31 true).rd .lnk (DLK_REG_ADDR p) = s.rd .lnk (DLK_REG_ADDR p) :=
    (State.rd_setb_ne _ _ _ _ _ _ (by simp)).trans (RegsKept.cmdStored s p v _ (by simp))
  have hdata : ((s.cmdStored p v).setb .lnk (DLK_REG_STATUS p) 31 true).rd .lnk (DLK_REG_WDATA p) = s.rd .lnk (DLK_REG_WDATA p) :=
    (State.rd_setb_ne _ _ _ _ _ _ (by simp)).trans (RegsKept.cmdStored s p v _ (by simp))
  refine congrArg Host.Outcome.next ((if_neg (by simp [hfree])).trans ((if_neg (by simp [hgo])).trans ?_))
  rw [State.regAsked, State.asked, ← haddr, ← hdata, ← hup]
  by_cases h : portUp (s.cmdStored p v) p = true
  · rw [if_pos h]
    exact if_neg (show ¬ (!portUp (s.cmdStored p v) p) = true by simp [h])
  · rw [if_neg h]
    exact if_pos (show (!portUp (s.cmdStored p v) p) = true by simp [h])

theorem regGo_down (hgo : bit v 31 = true) (hfree : s.flag .lnk (DLK_REG_STATUS p) 31 = false) (hdown : portUp s p = false) : ∃ t,
    exec (.regGo p v) s = .next t ∧ t.fld .lnk (DLK_REG_STATUS p) 27 24 = 6 ∧
      t.flag .lnk (DLK_REG_STATUS p) 30 = true ∧ t.flag .lnk (DLK_REG_STATUS p) 31 = false ∧
      (t.lnkPort p).reg = none ∧ Kept [.lnk] s t := by
  let u := s.cmdStored p v
  refine ⟨u.endReg p 6, ?_, u.fld_endReg p 6, u.flag_endReg_done p 6, u.flag_endReg_busy p 6, u.reg_endReg p 6,
    (Kept.cmdStored s p v).trans (.endReg u p 6)⟩
  rw [regGo_free hgo hfree, if_neg (by simp [hdown])]

theorem regGo_up (hgo : bit v 31 = true) (hfree : s.flag .lnk (DLK_REG_STATUS p) 31 = false) (hup : portUp s p = true) : ∃ t r,
    exec (.regGo p v) s = .next t ∧ t.flag .lnk (DLK_REG_STATUS p) 31 = true ∧
      t.fld .lnk (DLK_REG_STATUS p) 7 0 = ((s.lnkPort p).lastId + 1) % 256 ∧ (t.lnkPort p).reg = some r ∧
      r.write = bit v 30 ∧ r.addr = s.rd .lnk (DLK_REG_ADDR p) ∧ r.data = s.rd .lnk (DLK_REG_WDATA p) ∧
      r.retries = bits v 29 27 ∧ r.tries = 0 ∧ r.id = ((s.lnkPort p).lastId + 1) % 256 ∧ r.toSend = true ∧
      r.launched = none ∧ Kept [.lnk, .phy] s t := by
  let u := s.regAsked p v
  have hid : u.nextId p = ((s.lnkPort p).lastId + 1) % 256 := by rw [State.nextId, State.lnkPort_regAsked]
  refine ⟨u.regAttempt p, (s.asked p v).attempt (u.nextId p), ?_, ?_, ?_, ?_, rfl, rfl, rfl, rfl, rfl, hid, rfl, rfl,
    ((Kept.regAsked s p v).mono (by simp)).trans ((Kept.regAttempt u p).mono (by simp))⟩
  · rw [regGo_free hgo hfree, if_pos hup]
  · rw [State.flag_regAttempt_busy, State.flag_regAsked]
  · rw [State.fld_regAttempt, hid]
  · rw [State.reg_regAttempt, State.lnkPort_regAsked]
    rfl

end

/-! ### REG_TIMEOUT (R128) -/

section
variable {s : State} {p result : Nat} {r : RegReq} (hreg : (s.lnkPort p).reg = some r)
include hreg

/-- The request has one try more. -/
def State.triesNoted (s : State) (p tries : Nat) : State :=
  (s.onReg p (fun r => { r with tries := r.tries + 1 })).put .lnk (DLK_REG_STATUS p) 18 16 tries

theorem State.regRetry_of_reg : s.regRetry p result =
    if r.tries < r.retries then (s.triesNoted p (r.tries + 1)).regAttempt p else s.endReg p result := by
  rw [State.regRetry, hreg]
  rfl

theorem State.reg_regRetry (hmore : r.tries < r.retries) : ((s.regRetry p result).lnkPort p).reg =
    some (({ r with tries := r.tries + 1 } : RegReq).attempt (s.nextId p)) := by
  have hport : (s.triesNoted p (r.tries + 1)).lnkPort p = { s.lnkPort p with reg := some { r with tries := r.tries + 1 } } := by
    rw [State.triesNoted, State.put_lnkPort, State.onReg, State.onLnk_lnkPort_same, hreg]
    rfl
  rw [State.regRetry_of_reg hreg, if_pos hmore, State.reg_regAttempt, State.nextId, hport]
  rfl

theorem RegsKept.regRetry : RegsKept .lnk [DLK_REG_STATUS p, DLK_REG_CMD p] s (s.regRetry p result) := by
  rw [State.regRetry_of_reg hreg]
  exact .ite ((RegsKept.onLnk s p _).trans ((RegsKept.put _ _ 18 16 _ (by simp)).trans ((RegsKept.regAttempt _ p).mono (by simp))))
    (.endReg s p result)

theorem Kept.regRetry : Kept [.phy, .lnk] s (s.regRetry p result) := by
  rw [State.regRetry_of_reg hreg]
  exact .ite ((Kept.onLnk s p _ (by simp)).trans ((Kept.put _ .lnk _ 18 16 _ (by simp)).trans (.regAttempt _ p)))
    ((Kept.endReg s p result).mono (by simp))

end

section
variable {p : Fin 24} {s : State} {r : RegReq} {t0 : Nat} (hreg : (s.lnkPort p).reg = some r) (hsent : r.launched = some t0)
include hreg hsent

theorem regTimeout_of_launched : exec (.regTimeout p) s = .next (if t0 + s.fld .lnk (DLK_REG_TIMEOUT p) 13 0 * 1000 ≤ s.now then
    (s.count .lnk (DLK_CNT_REG_TIMEOUT p)).regRetry p 5 else s) := by
  have hrun : exec (.regTimeout p) s = execRegTimeout p s := rfl
  rw [hrun, execRegTimeout, hreg, Option.bind_some, hsent]

theorem regTimeout_early (h : s.now < t0 + s.fld .lnk (DLK_REG_TIMEOUT p) 13 0 * 1000) : exec (.regTimeout p) s = .next s := by
  rw [regTimeout_of_launched hreg hsent, if_neg (by omega)]

theorem regTimeout_due (hdue : t0 + s.fld .lnk (DLK_REG_TIMEOUT p) 13 0 * 1000 ≤ s.now) : ∃ t, exec (.regTimeout p) s = .next t ∧
    t.rd .lnk (DLK_CNT_REG_TIMEOUT p) = satAdd (s.rd .lnk (DLK_CNT_REG_TIMEOUT p)) 1 ∧
    (r.tries < r.retries → (t.lnkPort p).reg = some { r with
      tries := r.tries + 1
      id := ((s.lnkPort p).lastId + 1) % 256
      toSend := true
      dataToSend := false
      launched := none }) ∧
    (r.retries ≤ r.tries → (t.lnkPort p).reg = none ∧ t.fld .lnk (DLK_REG_STATUS p) 27 24 = 5 ∧
      t.flag .lnk (DLK_REG_STATUS p) 30 = true ∧ t.flag .lnk (DLK_REG_STATUS p) 31 = false) ∧
    RegsKept .lnk [DLK_CNT_REG_TIMEOUT p, DLK_REG_STATUS p, DLK_REG_CMD p] s t ∧ Kept [.lnk, .phy] s t := by
  let u := s.count .lnk (DLK_CNT_REG_TIMEOUT p)
  have hport : u.lnkPort p = s.lnkPort p := State.count_lnkPort ..
  have hregu : (u.lnkPort p).reg = some r := by rw [hport, hreg]
  refine ⟨u.regRetry p 5, ?_, ?_, fun hmore => ?_, fun hlast => ?_, ?_, ?_⟩
  · rw [regTimeout_of_launched hreg hsent, if_pos hdue]
  · rw [RegsKept.regRetry hregu _ (by simp), State.rd_count]
  · rw [State.reg_regRetry hregu hmore, State.nextId, hport]
    rfl
  · rw [State.regRetry_of_reg hregu, if_neg (by omega)]
    exact ⟨u.reg_endReg p 5, u.fld_endReg p 5, u.flag_endReg_done p 5, u.flag_endReg_busy p 5⟩
  · exact (RegsKept.count s _ (by simp)).trans ((RegsKept.regRetry hregu).mono (by simp +contextual))
  · exact (Kept.count s .lnk _ (by simp)).trans ((Kept.regRetry hregu).mono (by simp))

end

end Sys2Proof.Machine

end

/-! ## The obligation on packets and control blocks -/

section

open Sys2Proof Sys2Proof.Machine

/-- Settles O20: each clause is the lemma of its instruction. -/
theorem packetsAndControlBlocks : Obligations.PacketsAndControlBlocks := by
  unfold Obligations.PacketsAndControlBlocks
  refine ⟨fun p s => rxBlock_of_none, fun p b rest x s hrx hx => ⟨rxBlock_deaf hrx hx, fun hp hact => rxBlock_span hrx hx hact hp,
      fun hp hact => rxBlock_header hrx hx hact hp, fun hp hact => rxBlock_badHeader hrx hx hact hp,
      fun hp hact => rxBlock_lctl hrx hx hact hp, fun hp hact => rxBlock_badType hrx hx hact hp,
      fun q hp hact => rxBlock_data hrx hx hact hp q⟩,
    fun p s q rest hhead hcut hpay hseq => ⟨rxPacket_event hhead hcut hpay hseq, rxPacket_lineStart hhead hcut hpay hseq⟩,
    fun p s => rxLctl_of_none, fun p b rest s hin => ⟨rxLctl_bad hin, fun t0 htype hcrc hreq htime =>
      ⟨rxLctl_ack hin ⟨htype, hcrc⟩ hreq htime, rxLctl_nak hin ⟨htype, hcrc⟩ hreq⟩⟩,
    fun p s => ⟨bcBlock_early, bcBlock_due⟩,
    fun p v s hgo => ⟨regGo_busy hgo, regGo_down hgo, regGo_up hgo⟩,
    fun p s r t0 hreg hsent => ⟨regTimeout_early hreg hsent, regTimeout_due hreg hsent⟩⟩

end

/-! ## The mailbox: how its commands start and end -/

section

namespace Sys2Proof.Machine

/-! ### Lists of registers -/

theorem RegsOnly.wrList {b : Blk} (ws : List Word) : ∀ (s : State) (a : Nat), RegsOnly b s (s.wrList b a ws) := by
  induction ws with
  | nil => exact fun s _ => .refl b s
  | cons w ws ih => exact fun s a => (RegsOnly.wr b s a w).trans (ih _ _)

theorem RegsOnly.put (b : Blk) (s : State) (a hi lo x : Nat) : RegsOnly b s (s.put b a hi lo x) := ⟨_, rfl⟩

theorem RegsKept.wrList {b : Blk} {as : List Nat} (ws : List Word) :
    ∀ (s : State) (a : Nat), (∀ k < ws.length, a + 4 * k ∈ as) → RegsKept b as s (s.wrList b a ws) := by
  induction ws with
  | nil => exact fun s _ _ => .refl b as s
  | cons w ws ih =>
    intro s a h
    refine (RegsKept.wr s a w (h 0 (by simp))).trans (ih _ _ fun k hk => ?_)
    have hmem := h (k + 1) (by simpa using hk)
    rwa [show a + 4 * (k + 1) = a + 4 + 4 * k by omega] at hmem

/-- A list of words written from a register on is read there. -/
theorem State.rd_wrList {b : Blk} (ws : List Word) :
    ∀ (s : State) (a k : Nat) (h : k < ws.length), (s.wrList b a ws).rd b (a + 4 * k) = ws[k] := by
  induction ws with
  | nil => exact fun _ _ _ h => absurd h (by simp)
  | cons w ws ih =>
    intro s a k h
    cases k with
    | zero => exact (State.rd_wrList_below ws _ _ (by omega)).trans (s.rd_wr_same b a w)
    | succ k =>
      rw [show a + 4 * (k + 1) = a + 4 + 4 * k by omega]
      exact ih _ _ k (by simpa using h)

/-! ### A vector of a function (R254, R263) -/

section
variable (s : State) (fn v : Nat)

theorem Kept.vector : Kept [.host] s (s.vector fn v) := by
  unfold State.vector State.vectorSend State.hostPut
  split <;> simp [Kept]

theorem State.rd_vector (b : Blk) (a : Nat) : (s.vector fn v).rd b a = s.rd b a := by
  unfold State.vector
  split <;> cases b <;> rfl

variable {s fn v}

theorem State.sent_vector (hup : s.host.up = true) (hopen : bit (msixWord s fn v 3) 0 = false) :
    Tab.get (fun _ => 0) (s.vector fn v).host.sent (vecKey fn v) = Tab.get (fun _ => 0) s.host.sent (vecKey fn v) + 1 := by
  rw [State.vector, if_neg (by simp [hup, hopen])]
  exact Tab.get_upd_same (fun _ => 0) s.host.sent (vecKey fn v) (· + 1)

theorem State.vecPend_vector (h : s.host.up = false ∨ bit (msixWord s fn v 3) 0 = true) :
    Tab.get (fun _ => false) (s.vector fn v).host.vecPend (vecKey fn v) = true := by
  rw [State.vector, if_pos (by rcases h with h | h <;> simp [h])]
  exact Tab.get_set_same (fun _ => false) s.host.vecPend (vecKey fn v) true

end

/-! ### The work of a command (R275) -/

/-- A command's work changes nothing when the mailbox does not run it. -/
theorem State.mbxRun_idle {s : State} {op : Nat} (h : s.host.mbx.all (fun r => r.op != op || r.code.isSome) = true)
    (f : State → State × Nat × List Word) : s.mbxRun op f = s := by
  unfold State.mbxRun
  split
  · next r hr =>
    rw [hr, Option.all_some, Bool.or_eq_true, bne_iff_ne] at h
    refine if_neg fun ⟨hop, hnone⟩ => h.elim (absurd hop) fun hsome => ?_
    rw [Option.isNone_iff_eq_none] at hnone
    simp [hnone] at hsome
  · rfl

/-- The mailbox command whose work is running ends with what its work comes to. -/
theorem State.mbxRun_ends {s t : State} {op code : Nat} {r : MbxRun} {res : List Word} {f : State → State × Nat × List Word}
    (h : s.mbxWorks op r) (hop : op ≠ 1) (hf : f s = (t, code, res)) :
    s.mbxRun op f = t.mbxEnded r code (if code = 0 then res else []) := by
  rw [State.mbxRun_of_works h hop, hf]

/-- The work that ends with a code other than DONE and changes nothing but LOADING of an IMG_LOAD. -/
theorem State.mbxRun_fails {s : State} {op : Nat} {r : MbxRun} (h : s.mbxWorks op r) (code : Nat) :
    s.mbxRun op (fun s => (s, code, [])) = (if op = 1 then s.setb .seq SEQ_IMG_STATUS 26 false else s).mbxEnded r code [] := by
  obtain ⟨hm, hr, hc⟩ := h
  simp [State.mbxRun, hm, hr, hc, State.mbxEnded]

section
variable {s : State} {r : MbxRun} (hrun : s.host.mbx = some r) (hworks : r.code = none)
include hrun

theorem mbxDone_working (hworks : r.code = none) : exec .mbxDone s = .next s := by
  change execMbxDone s = _
  rw [execMbxDone, hrun]
  dsimp only
  rw [hworks]

theorem mbxTimeout_early (h : s.now < r.since + mbxLimit s r.op) : exec .mbxTimeout s = .next s := by
  change execMbxTimeout s = _
  rw [execMbxTimeout, hrun]
  exact congrArg _ (if_neg (by omega))

theorem mbxUnknownOpcode_of_known (h : mbxKnown.contains r.op = true) : exec .mbxUnknownOpcode s = .next s := by
  change execMbxUnknownOpcode s = _
  rw [execMbxUnknownOpcode, hrun]
  exact congrArg _ (if_pos h)

include hworks

theorem mbxTimeout_due (h : r.since + mbxLimit s r.op ≤ s.now) : exec .mbxTimeout s =
    .next ((if r.op = 1 then s.setb .seq SEQ_IMG_STATUS 26 false else s).mbxEnded r 0xB []) := by
  rw [← State.mbxRun_fails ⟨hrun, rfl, hworks⟩]
  change execMbxTimeout s = _
  rw [execMbxTimeout, hrun]
  exact congrArg _ (if_pos h)

theorem mbxUnknownOpcode_of_unknown (h : mbxKnown.contains r.op = false) :
    exec .mbxUnknownOpcode s = .next (s.mbxEnded r 0xA []) := by
  have hop : r.op ≠ 1 := by
    intro hone
    rw [hone] at h
    exact absurd h (by decide)
  have hfails := State.mbxRun_fails ⟨hrun, rfl, hworks⟩ 0xA
  rw [if_neg hop] at hfails
  rw [← hfails]
  change execMbxUnknownOpcode s = _
  rw [execMbxUnknownOpcode, hrun]
  exact congrArg _ (if_neg (by rw [h]; exact Bool.false_ne_true))

end

/-! ### MBX_DONE (R275) -/

/-- The registers of the mailbox as the end of a command leaves them. -/
def State.mbxShown (s : State) (r : MbxRun) (code : Nat) : State :=
  let s := s.put .host HST_MBX_STATUS 7 0 code
  let s := s.wrList .host (HST_MBX_RES 0) ((r.res ++ List.replicate 8 0#32).take 8)
  let s := (s.setb .host HST_MBX_STATUS 31 false).setb .host HST_MBX_STATUS 30 true
  s.setb .host HST_MBX_CMD 31 false

section
variable (s : State) (r : MbxRun) (code : Nat)

theorem RegsOnly.mbxShown : RegsOnly .host s (s.mbxShown r code) :=
  (RegsOnly.put .host s _ 7 0 code).trans ((RegsOnly.wrList _ _ _).trans ((RegsOnly.setb .host _ _ 31 false).trans
    ((RegsOnly.setb .host _ _ 30 true).trans (.setb .host _ _ 31 false))))

theorem RegsKept.mbxShown : RegsKept .host ([HST_MBX_CMD, HST_MBX_STATUS] ++ (List.range 8).map HST_MBX_RES) s
    (s.mbxShown r code) := by
  refine (RegsKept.put s _ 7 0 code (by simp)).trans ((RegsKept.wrList _ _ _ fun k hk => ?_).trans
    ((RegsKept.setb _ _ 31 false (by simp)).trans ((RegsKept.setb _ _ 30 true (by simp)).trans (.setb _ _ 31 false (by simp)))))
  have h8 : k < 8 := by simpa using hk
  simp only [HST_MBX_RES, List.mem_append, List.mem_map, List.mem_range]
  exact .inr ⟨k, h8, by omega⟩

theorem State.rd_mbxShown_res {k : Nat} (h : k < 8) : (s.mbxShown r code).rd .host (HST_MBX_RES k) = atD r.res k 0#32 := by
  have hres : HST_MBX_RES k = HST_MBX_RES 0 + 4 * k := by simp only [HST_MBX_RES]; omega
  have hne : ∀ a, a = HST_MBX_STATUS ∨ a = HST_MBX_CMD → HST_MBX_RES k ≠ a := by
    simp only [HST_MBX_RES, HST_MBX_STATUS, HST_MBX_CMD]
    omega
  rw [State.mbxShown, State.rd_setb_ne _ _ _ _ _ _ (hne _ (.inr rfl)), State.rd_setb_ne _ _ _ _ _ _ (hne _ (.inl rfl)),
    State.rd_setb_ne _ _ _ _ _ _ (hne _ (.inl rfl)), hres, State.rd_wrList _ _ _ _ (by simpa using h)]
  rw [List.getElem_take, atD, List.getElem_append]
  split
  · next hk => rw [List.getElem?_eq_getElem hk, Option.getD_some]
  · next hk => rw [List.getElem?_eq_none (by omega), List.getElem_replicate, Option.getD_none]

theorem State.flag_mbxShown : (s.mbxShown r code).flag .host HST_MBX_STATUS 31 = false ∧
    (s.mbxShown r code).flag .host HST_MBX_STATUS 30 = true ∧ (s.mbxShown r code).flag .host HST_MBX_CMD 31 = false := by
  have hne : HST_MBX_STATUS ≠ HST_MBX_CMD := by decide
  unfold State.mbxShown
  refine ⟨?_, ?_, State.flag_setb_same _ _ _ _ _ (by decide)⟩
  · rw [State.flag_setb_ne _ _ _ _ _ _ _ hne, State.flag_setb_bit _ _ _ _ _ _ (by decide),
      State.flag_setb_same _ _ _ _ _ (by decide)]
  · rw [State.flag_setb_ne _ _ _ _ _ _ _ hne, State.flag_setb_same _ _ _ _ _ (by decide)]

theorem State.fld_mbxShown : (s.mbxShown r code).fld .host HST_MBX_STATUS 7 0 = code % 256 := by
  rw [State.mbxShown, State.fld_setb_ne _ _ _ _ _ _ _ _ (by decide), State.fld_setb_bit _ _ _ _ _ _ _ (by decide),
    State.fld_setb_bit _ _ _ _ _ _ _ (by decide), State.fld, State.rd_wrList_below _ _ _ (by decide), ← State.fld,
    State.fld_put_same _ _ _ _ _ _ (by decide) (by decide)]
  rfl

theorem Kept.withPwr {bs : List Blk} (x : PwrSt) (hb : Blk.pwr ∈ bs) : Kept bs s { s with pwr := x } := by simp [Kept, hb]

theorem Kept.withHost {bs : List Blk} (x : HostSt) (hb : Blk.host ∈ bs) : Kept bs s { s with host := x } := by simp [Kept, hb]

end

theorem mbxDone_ends {s : State} {r : MbxRun} {code : Nat} (hrun : s.host.mbx = some r) (hcode : r.code = some code) : ∃ t : State,
    exec .mbxDone s = .next t ∧ t.host.mbx = none ∧ t.fld .host HST_MBX_STATUS 7 0 = code % 256 ∧
      t.flag .host HST_MBX_STATUS 31 = false ∧ t.flag .host HST_MBX_STATUS 30 = true ∧
      t.flag .host HST_MBX_CMD 31 = false ∧ (∀ k, k < 8 → t.rd .host (HST_MBX_RES k) = atD r.res k 0#32) ∧
      (s.host.up = true → bit (msixWord s 0 0 3) 0 = false →
        Tab.get (fun _ => 0) t.host.sent 0 = Tab.get (fun _ => 0) s.host.sent 0 + 1) ∧
      (s.host.up = false ∨ bit (msixWord s 0 0 3) 0 = true → Tab.get (fun _ => false) t.host.vecPend 0 = true) ∧
      RegsKept .host ([HST_MBX_CMD, HST_MBX_STATUS] ++ (List.range 8).map HST_MBX_RES) s t ∧ Kept [.host] s t := by
  let u := s.mbxShown r code
  let t : State := { u.vector 0 0 with host := { (u.vector 0 0).host with mbx := none } }
  have hrd : ∀ a, t.rd .host a = u.rd .host a := u.rd_vector 0 0 .host
  have honly : RegsOnly .host s u := .mbxShown s r code
  have hmsix : msixWord u 0 0 3 = msixWord s 0 0 3 := by
    obtain ⟨regs, hu⟩ := honly
    rw [hu]
    rfl
  have hup : u.host.up = s.host.up := by
    obtain ⟨regs, hu⟩ := honly
    rw [hu]
    rfl
  have hsent : u.host.sent = s.host.sent := by
    obtain ⟨regs, hu⟩ := honly
    rw [hu]
    rfl
  have hflag : ∀ a i, t.flag .host a i = u.flag .host a i := fun a i => congrArg (bit · i) (hrd a)
  obtain ⟨hbusy, hdone, hgo⟩ := s.flag_mbxShown r code
  refine ⟨t, ?_, rfl, (congrArg (bits · 7 0) (hrd _)).trans (s.fld_mbxShown r code), (hflag _ _).trans hbusy,
    (hflag _ _).trans hdone, (hflag _ _).trans hgo, fun k hk => (hrd _).trans (s.rd_mbxShown_res r code hk),
    fun hlink hopen => ?_, fun hwait => ?_, ?_, ?_⟩
  · change execMbxDone s = _
    rw [execMbxDone, hrun]
    dsimp only
    rw [hcode]
    rfl
  · rw [← hup] at hlink
    rw [← hmsix] at hopen
    exact (State.sent_vector hlink hopen).trans (congrArg (fun m => Tab.get (fun _ => 0) m 0 + 1) hsent)
  · rw [← hup, ← hmsix] at hwait
    exact State.vecPend_vector hwait
  · exact (RegsKept.mbxShown s r code).trans fun a _ => hrd a
  · exact (honly.kept (by simp)).trans ((Kept.vector u 0 0).trans (.withHost _ _ (by simp)))

/-! ### PORT_CTRL (R82, R277) -/

/-- The registers of a page that a write to DLP_CTRL touches behind the stored value. -/
abbrev ctrlRegs (p : Nat) : List Nat := downRegs p ++ [phyBackoff p, phyLane p 0 0x40, phyLane p 1 0x40]

section
variable (s : State) (p : Nat) (v : Word)

theorem BlocksKept.mono {bs cs : List Blk} {s t : State} (h : BlocksKept bs s t) (hs : ∀ b ∈ bs, b ∈ cs) : BlocksKept cs s t := by
  have n : ∀ b, b ∉ cs → b ∉ bs := fun b hb hm => hb (hs b hm)
  obtain ⟨h1, h2, h3, h4, h5, h6, h7, h8, h9, h10, h11, h12, h13, h14, h15, h16, h17, h18⟩ := h
  exact ⟨fun x => h1 (n _ x), fun x => h2 (n _ x), fun x => h3 (n _ x), fun x => h4 (n _ x), fun x => h5 (n _ x),
    fun x => h6 (n _ x), fun x => h7 (n _ x), fun x => h8 (n _ x), fun x => h9 (n _ x), fun x => h10 (n _ x),
    fun x => h11 (n _ x), fun x => h12 (n _ x), fun x => h13 (n _ x), fun x => h14 (n _ x), fun x => h15 (n _ x),
    fun x => h16 (n _ x), fun x => h17 (n _ x), h18⟩

/-- What EN of a written value makes of a port that had another EN (R82, R84, R98). -/
def State.enActs (s : State) (p : Nat) (on was : Bool) : State :=
  if on && !was then if refOk (s.prbsOff p) p then (s.prbsOff p).phyStart p else s.prbsOff p
  else if !on && was then s.phyOffNow p
  else s

theorem State.phyCtrlWrite_eq : s.phyCtrlWrite p v =
    if bit v 30 then ((s.ctrlStored p v).enActs p (bit v 31) (s.flag .phy (phyCtrl p) 31)).retrain p
    else (s.ctrlStored p v).enActs p (bit v 31) (s.flag .phy (phyCtrl p) 31) := rfl

theorem State.enActs_kept (on was : Bool) : BlocksKept portBlks s (s.enActs p on was) ∧
    RegsKept .phy (ctrlRegs p) s (s.enActs p on was) := by
  have hoff : BlocksKept portBlks s (s.prbsOff p) ∧ RegsKept .phy (ctrlRegs p) s (s.prbsOff p) :=
    ⟨(Kept.prbsOff s p).blocks.mono (by simp), (RegsKept.prbsOff s p).mono (by simp)⟩
  obtain ⟨hblks, hregs⟩ := State.phyStart_kept (s.prbsOff p) p
  unfold State.enActs
  split
  · split
    · exact ⟨hoff.1.trans (hblks.mono (by simp)), hoff.2.trans (hregs.mono (by simp +contextual))⟩
    · exact hoff
  · split
    · exact ⟨(Kept.phyOffNow s p).blocks, (RegsKept.phyOffNow s p).mono (by simp +contextual)⟩
    · exact ⟨.refl s _, .refl _ _ s⟩

theorem State.retrain_kept : BlocksKept portBlks s (s.retrain p) ∧ RegsKept .phy (ctrlRegs p) s (s.retrain p) := by
  unfold State.retrain
  extract_lets u
  have hu : Kept portBlks s u := .put s .phy _ 3 0 0 (by simp)
  have hregs : RegsKept .phy (ctrlRegs p) s u := .put s _ 3 0 0 (by simp)
  split
  · exact ⟨.refl s _, .refl _ _ s⟩
  · split
    · exact ⟨(hu.trans (Kept.phyBackoffFor u p _)).blocks, hregs.trans ((RegsKept.phyBackoffFor u p _).mono (by simp +contextual))⟩
    · exact ⟨(hu.trans ((Kept.phyDetect u p).mono (by simp))).blocks, hregs.trans ((RegsKept.phyDetect u p).mono (by simp +contextual))⟩

/-- Behind the stored value a write to DLP_CTRL leaves the control registers of every port. -/
theorem State.phyCtrlWrite_kept : BlocksKept portBlks s (s.phyCtrlWrite p v) ∧
    RegsKept .phy (ctrlRegs p) (s.ctrlStored p v) (s.phyCtrlWrite p v) := by
  have hstored : BlocksKept portBlks s (s.ctrlStored p v) := (Kept.ctrlStored s p v).blocks.mono (by simp)
  rw [State.phyCtrlWrite_eq]
  obtain ⟨hblks, hregs⟩ := State.enActs_kept (s.ctrlStored p v) p (bit v 31) (s.flag .phy (phyCtrl p) 31)
  split
  · obtain ⟨hblks', hregs'⟩ := State.retrain_kept ((s.ctrlStored p v).enActs p (bit v 31) (s.flag .phy (phyCtrl p) 31)) p
    exact ⟨hstored.trans (hblks.trans hblks'), hregs.trans hregs'⟩
  · exact ⟨hstored.trans hblks, hregs⟩

end

theorem phyCtrl_not_mem_ctrlRegs (p q : Nat) : phyCtrl q ∉ ctrlRegs p := by
  simp [phyAt_eq_iff]

section
variable (s : State) (p : Fin 28) (v : Word)

theorem RegsKept.ctrlStored : RegsKept .phy [phyCtrl p, phyStatus p] s (s.ctrlStored p v) := by
  unfold State.ctrlStored
  extract_lets old fixed w u
  have hu : RegsKept .phy [phyCtrl p, phyStatus p] s u := .store_phy (regAt_phyCtrl p) rfl (by decide) s w
  exact .ite (hu.trans (.setb _ _ 7 true (by simp))) hu

/-- EN is stored as it is written. -/
theorem State.flag_ctrlStored (hp : p.val < 24) : (s.ctrlStored p v).flag .phy (phyCtrl p) 31 = bit v 31 := by
  have hstore : s.ctrlStored p v = s.store .phy (phyCtrl p) v := by
    rw [State.ctrlStored, if_pos hp, if_neg (by omega)]
  rw [hstore, State.flag, State.rd_store_phy (regAt_phyCtrl p) rfl (by decide) s v (by decide)]
  exact RegRow.bit_write_rw rfl (by simp [rowPhyCtrl]) (by decide) (by simp [rowPhyCtrl, fRow]) _ _

end

section
variable (s : State) {p : Nat} (hp : p < 24)
include hp

theorem State.flag_phyCtrlWrite (v : Word) : (s.phyCtrlWrite p v).flag .phy (phyCtrl p) 31 = bit v 31 := by
  obtain ⟨-, hregs⟩ := s.phyCtrlWrite_kept p v
  rw [State.flag, hregs _ (phyCtrl_not_mem_ctrlRegs p p)]
  exact s.flag_ctrlStored ⟨p, by omega⟩ v hp

theorem State.rd_phyCtrlWrite_ne (v : Word) {q : Nat} (hne : q ≠ p) :
    (s.phyCtrlWrite p v).rd .phy (phyCtrl q) = s.rd .phy (phyCtrl q) := by
  obtain ⟨-, hregs⟩ := s.phyCtrlWrite_kept p v
  rw [hregs _ (phyCtrl_not_mem_ctrlRegs p q)]
  exact RegsKept.ctrlStored s ⟨p, by omega⟩ v _ (by simp [phyAt_eq_iff, hne])

end

/-- The ports that a PORT_CTRL names take its EN, one after another. -/
def State.portsSet (s : State) : State :=
  s.each (idxs 24 (fun p => tbit (mbxArg s 0) p)) (fun t p =>
    t.phyCtrlWrite p (putBit (t.rd .phy (phyCtrl p)) 31 (tbit (mbxArg s 1) 0)))

theorem BlocksKept.portsSet (s : State) : BlocksKept portBlks s s.portsSet :=
  State.each_rel (BlocksKept.refl · _) (fun _ _ _ => .trans) fun t p _ => (t.phyCtrlWrite_kept p _).1

/-- Both registers of a port's control through the writes to the other ports. -/
theorem State.portsSet_named {s : State} {p : Nat} (hp : p < 24) (hnamed : tbit (mbxArg s 0) p = true) :
    s.portsSet.flag .phy (phyCtrl p) 31 = tbit (mbxArg s 1) 0 := by
  let R (t u : State) : Prop := u.rd .phy (phyCtrl p) = t.rd .phy (phyCtrl p)
  obtain ⟨u, -, hafter⟩ : ∃ u, R s u ∧ R (u.phyCtrlWrite p (putBit (u.rd .phy (phyCtrl p)) 31 (tbit (mbxArg s 1) 0))) s.portsSet :=
    State.each_at (R := R) (fun _ => rfl) (fun _ _ _ h k => k.trans h) (idxs_nodup 24 _) (mem_idxs.mpr ⟨hp, hnamed⟩)
      (fun t q hq hne => t.rd_phyCtrlWrite_ne (mem_idxs.mp hq).1 _ hne.symm) s
  rw [State.flag, hafter, ← State.flag, State.flag_phyCtrlWrite u hp, bit_putBit_same _ _ _ (by decide)]

theorem State.portsSet_other {s : State} {p : Nat} (hother : tbit (mbxArg s 0) p = false) :
    s.portsSet.rd .phy (phyCtrl p) = s.rd .phy (phyCtrl p) := by
  refine State.each_rel (R := fun t u : State => u.rd .phy (phyCtrl p) = t.rd .phy (phyCtrl p)) (fun _ => rfl)
    (fun _ _ _ h k => k.trans h) fun t q hq => ?_
  obtain ⟨hlt, hq⟩ := mem_idxs.mp hq
  exact t.rd_phyCtrlWrite_ne hlt _ (by rintro rfl; simp [hq] at hother)

theorem BlocksKept.host_eq {bs : List Blk} {s t : State} (h : BlocksKept bs s t) (hb : Blk.host ∉ bs) : t.host = s.host := by
  obtain ⟨-, -, -, -, -, -, -, -, -, hhost, -⟩ := h
  exact hhost hb

theorem BlocksKept.pending_eq {bs : List Blk} {s t : State} (h : BlocksKept bs s t) : t.pending = s.pending := by
  obtain ⟨-, -, -, -, -, -, -, -, -, -, -, -, -, -, -, -, -, -, hpending⟩ := h
  exact hpending

theorem portCtrl_sets {s : State} {r : MbxRun} (h : s.mbxWorks 0x0A r) : ∃ t : State,
    exec .portCtrl s = .next (t.mbxEnded r 0 []) ∧
      (∀ p, p < 24 → tbit (mbxArg s 0) p = true → t.flag .phy (phyCtrl p) 31 = tbit (mbxArg s 1) 0) ∧
      (∀ p, p < 24 → tbit (mbxArg s 0) p = false → t.rd .phy (phyCtrl p) = s.rd .phy (phyCtrl p)) ∧
      t.time = s.time ∧ t.host.regs = s.host.regs ∧ t.pending = s.pending := by
  have hkept := BlocksKept.portsSet s
  exact ⟨s.portsSet, congrArg Host.Outcome.next (State.mbxRun_of_works h (by decide) _), fun p => State.portsSet_named,
    fun p _ => State.portsSet_other, hkept.1 (by simp), congrArg HostSt.regs (hkept.host_eq (by simp)), hkept.pending_eq⟩

/-! ### KEY_PROGRAM, FW_LOAD and POWER (R243, R252, R370, R371) -/

section
variable {s : State} {r : MbxRun}

/-- The digest of a key that the arguments give. -/
def keyDigest (s : State) : Nat := (List.range 8).foldl (fun n i => n * 2 ^ 32 + mbxArg s (1 + i)) 0

/-- A digest goes into a fuse slot. -/
def State.keyPut (s : State) (k d : Nat) : State :=
  { s with host := { s.host with keys := Tab.set (fun _ => 0) s.host.keys k d } }

theorem State.keys_keyPut_same (s : State) (k d : Nat) : Tab.get (fun _ => 0) (s.keyPut k d).host.keys k = d :=
  Tab.get_set_same (fun _ => 0) s.host.keys k d

theorem State.keys_keyPut_ne (s : State) {k j : Nat} (d : Nat) (h : j ≠ k) :
    Tab.get (fun _ => 0) (s.keyPut k d).host.keys j = Tab.get (fun _ => 0) s.host.keys j :=
  Tab.get_set_ne (fun _ => 0) s.host.keys d h

theorem RegsKept.keyPut (s : State) (k d : Nat) : RegsKept .host [] s (s.keyPut k d) := fun _ _ => rfl

theorem Kept.keyPut (s : State) (k d : Nat) : Kept [.host] s (s.keyPut k d) := .withHost s _ (by simp)

theorem keyProgram_of_works (h : s.mbxWorks 0x0C r) : exec .keyProgram s = .next (
    if 4 ≤ mbxArg s 0 then s.mbxEnded r 2 []
    else if Tab.get (fun _ => 0) s.host.keys (mbxArg s 0) ≠ 0 then s.mbxEnded r 6 []
    else (s.keyPut (mbxArg s 0) (keyDigest s)).mbxEnded r 0 []) := by
  change execKeyProgram s = _
  unfold execKeyProgram
  rw [State.mbxRun_of_works h (by decide)]
  dsimp only
  split
  · rfl
  · split
    · rfl
    · unfold State.keyPut keyDigest
      rw [if_pos rfl]

theorem keyProgram_programs (h : s.mbxWorks 0x0C r) (hk : mbxArg s 0 < 4)
    (hfree : Tab.get (fun _ => 0) s.host.keys (mbxArg s 0) = 0) : ∃ t : State,
    exec .keyProgram s = .next (t.mbxEnded r 0 []) ∧
      Tab.get (fun _ => 0) t.host.keys (mbxArg s 0) = keyDigest s ∧
      (∀ j, j ≠ mbxArg s 0 → Tab.get (fun _ => 0) t.host.keys j = Tab.get (fun _ => 0) s.host.keys j) ∧
      RegsKept .host [] s t ∧ Kept [.host] s t := by
  refine ⟨s.keyPut (mbxArg s 0) (keyDigest s), ?_, s.keys_keyPut_same _ _,
    fun j hj => s.keys_keyPut_ne _ hj, .keyPut s _ _, .keyPut s _ _⟩
  rw [keyProgram_of_works h, if_neg (by omega), if_neg (not_not.mpr hfree)]

theorem power_refused (h : s.mbxWorks 0x0B r) (hcode : powerCode s (mbxArg s 0 % 4) ≠ 0) :
    exec .power s = .next (s.mbxEnded r (powerCode s (mbxArg s 0 % 4)) []) := by
  refine congrArg Host.Outcome.next ((State.mbxRun_ends h (by decide) (congrArg (·, _, []) (if_neg hcode))).trans ?_)
  rw [ite_self]

/-- The exit from STANDBY starts at the word of the host. -/
def State.exitStarts (s : State) : State :=
  let s := s.setb .pwr OAS_WAKE_CAUSE 5 true
  { s with pwr := { s.pwr with devCmd := some (0, false, false), exitAt := some (s.pwr.exitAt.getD s.now) } }

/-- The entry to a state starts. -/
def State.entryStarts (s : State) (target : Nat) (rtc : Bool) : State :=
  let s := s.put .pwr PWR_STATUS 31 28 3
  { s with pwr := { s.pwr with devCmd := some (target, rtc, false), wakeHeld := 0, motA := 0, motB := 0, awake := false } }

section
variable (h : s.mbxWorks 0x0B r) (hcode : powerCode s (mbxArg s 0 % 4) = 0)
include h hcode

theorem power_accepted : exec .power s = .next (
    (if dstate s = 2 ∧ mbxArg s 0 % 4 = 0 then s.exitStarts
      else if mbxArg s 0 % 4 = 0 ∨ dstate s = 2 ∧ mbxArg s 0 % 4 = 1 then s
      else s.entryStarts (mbxArg s 0 % 4) (tbit (mbxArg s 1) 0)).mbxEnded r 0 []) := by
  refine congrArg Host.Outcome.next (State.mbxRun_ends h (by decide) ?_)
  dsimp only
  rw [if_pos hcode, hcode]
  rfl

theorem power_same (hsame : dstate s = 2 ∧ mbxArg s 0 % 4 = 1 ∨ dstate s = 1 ∧ mbxArg s 0 % 4 = 0) :
    exec .power s = .next (s.mbxEnded r 0 []) := by
  rw [power_accepted h hcode, if_neg (by omega), if_pos (by omega)]

theorem power_leavesStandby (hstandby : dstate s = 2) (hrun : mbxArg s 0 % 4 = 0) : ∃ t : State,
    exec .power s = .next (t.mbxEnded r 0 []) ∧ t.flag .pwr OAS_WAKE_CAUSE 5 = true ∧
      t.pwr.devCmd = some (0, false, false) ∧ t.pwr.exitAt = some (s.pwr.exitAt.getD s.now) ∧
      RegsKept .pwr [OAS_WAKE_CAUSE] s t ∧ Kept [.pwr] s t := by
  refine ⟨s.exitStarts, ?_, s.flag_setb_same .pwr OAS_WAKE_CAUSE 5 true (by decide), rfl, rfl,
    RegsKept.setb (b := .pwr) s OAS_WAKE_CAUSE 5 true (List.mem_singleton_self _),
    (Kept.setb s .pwr OAS_WAKE_CAUSE 5 true (by simp)).trans (.withPwr _ _ (by simp))⟩
  rw [power_accepted h hcode, if_pos ⟨hstandby, hrun⟩]

theorem power_enters (htarget : 1 ≤ mbxArg s 0 % 4) (hstate : dstate s = 1 ∨ mbxArg s 0 % 4 = 2) : ∃ t : State,
    exec .power s = .next (t.mbxEnded r 0 []) ∧ dstate t = 3 ∧
      t.pwr.devCmd = some (mbxArg s 0 % 4, tbit (mbxArg s 1) 0, false) ∧ t.pwr.wakeHeld = 0 ∧
      t.pwr.motA = 0 ∧ t.pwr.motB = 0 ∧ t.pwr.awake = false ∧ RegsKept .pwr [PWR_STATUS] s t ∧ Kept [.pwr] s t := by
  refine ⟨s.entryStarts (mbxArg s 0 % 4) (tbit (mbxArg s 1) 0), ?_,
    s.fld_put_same .pwr PWR_STATUS 31 28 3 (by decide) (by decide), rfl, rfl, rfl, rfl, rfl,
    RegsKept.put (b := .pwr) s PWR_STATUS 31 28 3 (List.mem_singleton_self _),
    (Kept.put s .pwr PWR_STATUS 31 28 3 (by simp)).trans (.withPwr _ _ (by simp))⟩
  rw [power_accepted h hcode, if_neg (by omega), if_neg (by omega)]

end

end

/-! ### A command that the mailbox does not run -/

theorem reset_idle {s : State} (h : s.host.mbx.all (fun r => r.op != 3 || r.code.isSome) = true) : exec .reset s = .next s := by
  change execReset s = _
  unfold execReset
  split
  · next r hr =>
    rw [hr, Option.all_some, Bool.or_eq_true, bne_iff_ne] at h
    refine congrArg _ (if_neg fun ⟨hop, hnone, _⟩ => h.elim (absurd hop) fun hsome => ?_)
    rw [Option.isNone_iff_eq_none] at hnone
    simp [hnone] at hsome
  · rfl

end Sys2Proof.Machine

end

section
open Sys2Proof Sys2Proof.Machine

/-- Settles O33: each clause is the lemma of its command; a command that does not run is `State.mbxRun_idle`. -/
theorem mailboxCommandsStartAndEnd : Obligations.MailboxCommandsStartAndEnd := by
  unfold Obligations.MailboxCommandsStartAndEnd
  refine ⟨fun s r hrun hworks => ⟨mbxUnknownOpcode_of_known hrun, mbxUnknownOpcode_of_unknown hrun hworks, mbxTimeout_early hrun,
      mbxTimeout_due hrun hworks, mbxDone_working hrun hworks⟩,
    fun s r code => mbxDone_ends, fun s hnone => ?_, fun s => rfl, fun s r => portCtrl_sets, fun s r h => ⟨fun hk => ?_, fun hk hused => ?_,
      keyProgram_programs h⟩,
    fun s r h => ⟨congrArg _ (State.mbxRun_of_works h (by decide) _), congrArg _ (State.mbxRun_of_works h (by decide) _)⟩,
    fun s r h => ⟨power_refused h, power_same h, power_leavesStandby h, power_enters h⟩, fun s op c hidle hc => ?_, ?_, ?_⟩
  · refine ⟨?_, ?_, ?_⟩
    · change execMbxDone s = _
      rw [execMbxDone, hnone]
    · change execMbxTimeout s = _
      rw [execMbxTimeout, hnone]
    · change execMbxUnknownOpcode s = _
      rw [execMbxUnknownOpcode, hnone]
  · rw [keyProgram_of_works h, if_pos hk]
  · rw [keyProgram_of_works h, if_neg (by omega), if_pos hused]
  · by_cases hreset : op = 3
    · subst hreset
      obtain rfl : c = .reset := by simpa using hc
      exact reset_idle hidle
    · simp only [List.mem_cons, Prod.mk.injEq, List.not_mem_nil, or_false] at hc
      rcases hc with ⟨rfl, rfl⟩ | ⟨rfl, rfl⟩ | ⟨rfl, rfl⟩ | ⟨rfl, rfl⟩ | ⟨rfl, rfl⟩ | ⟨rfl, rfl⟩ | ⟨rfl, rfl⟩ | ⟨rfl, rfl⟩ |
        ⟨rfl, rfl⟩ | ⟨rfl, rfl⟩ | ⟨rfl, rfl⟩ | ⟨rfl, rfl⟩ | ⟨rfl, rfl⟩ | ⟨rfl, rfl⟩ | ⟨rfl, rfl⟩ | ⟨rfl, rfl⟩ | ⟨rfl, rfl⟩ |
        ⟨rfl, rfl⟩
      case inr.inr.inl => exact absurd rfl hreset
      all_goals exact congrArg Host.Outcome.next (State.mbxRun_idle hidle _)
  · exact fun vfs s hidle => congrArg Host.Outcome.next (State.mbxRun_idle (s := s.vfsSet vfs) hidle _)
  · exact fun en s hidle => congrArg Host.Outcome.next (State.mbxRun_idle (s := s.vfeSet en) hidle _)

end

/-! ## Entries in a client's rings: what their writing leaves -/

section

namespace Sys2Proof.Machine

/-- The registers of a client's page that follow the entries of its rings: PROD of the rings that Apnik fills, use, status and the
counts of entries dropped (R260, R267, R272, R273). -/
abbrev entryRegs (c : Nat) : List Nat :=
  [HST_CLI_PROD c 0, HST_CLI_PROD c 2, HST_CLI_PROD c 3, HST_CLI_CNT_REC_DROP c, HST_CLI_CNT_CPL_DROP c, HST_CLI_CNT_ERR_DROP c] ++
    syncRegs c

/-- Entries were written to a client's rings, or dropped there: host memory, interrupts and the registers that follow the entries
have changed; the copies owed, the fetches and the flag of a refused descriptor (R281) have not. -/
structure EntriesPut (c : Nat) (s t : State) : Prop where
  kept : Kept [.host] s t
  copies : t.host.copies = s.host.copies
  regs : RegsKept .host (entryRegs c) s t
  descRej : t.flag .host (HST_CLI_STATUS c) 4 = s.flag .host (HST_CLI_STATUS c) 4

section
variable {c : Nat}

theorem EntriesPut.refl (s : State) : EntriesPut c s s := ⟨.refl _ s, rfl, .refl _ _ s, rfl⟩

theorem EntriesPut.trans {s t u : State} (h : EntriesPut c s t) (k : EntriesPut c t u) : EntriesPut c s u :=
  ⟨h.kept.trans k.kept, k.copies.trans h.copies, h.regs.trans k.regs, k.descRej.trans h.descRej⟩

theorem EntriesPut.ite {s t u : State} {p : Prop} [Decidable p] (ht : EntriesPut c s t) (hu : EntriesPut c s u) :
    EntriesPut c s (if p then t else u) := by
  split
  · exact ht
  · exact hu

section
variable (s : State)

/-- A change of the host block that leaves its registers and the copies. -/
theorem EntriesPut.withHost (x : HostSt) (hregs : x.regs = s.host.regs) (hcopies : x.copies = s.host.copies) :
    EntriesPut c s { s with host := x } :=
  have hrd : ∀ a, State.rd { s with host := x } .host a = s.rd .host a := fun a => congrArg (rget · a) hregs
  ⟨.withHost s x (by simp), hcopies, fun a _ => hrd a, congrArg (bit · 4) (hrd _)⟩

theorem EntriesPut.hostPut (a : Nat) (bs : List Byte) (strict : Bool) (tph : Option (Nat × Nat)) :
    EntriesPut c s (s.hostPut a bs strict tph) := .withHost s _ rfl rfl

theorem EntriesPut.onClient (d : Nat) (f : ClientSt → ClientSt) : EntriesPut c s (s.onClient d f) := .withHost s _ rfl rfl

theorem EntriesPut.vector (fn v : Nat) : EntriesPut c s (s.vector fn v) := by
  unfold State.vector State.vectorSend State.hostPut
  split <;> exact .withHost s _ rfl rfl

/-- A register that is not the status follows the entries. -/
theorem EntriesPut.wr {a : Nat} (v : Word) (ha : a ∈ entryRegs c) (hne : HST_CLI_STATUS c ≠ a) : EntriesPut c s (s.wr .host a v) :=
  ⟨.wr s .host a v (by simp), rfl, .wr s a v ha, congrArg (bit · 4) (s.rd_wr_ne .host a _ v hne)⟩

theorem EntriesPut.count {a : Nat} (ha : a ∈ entryRegs c) (hne : HST_CLI_STATUS c ≠ a) : EntriesPut c s (s.count .host a) :=
  ⟨.count s .host a (by simp), rfl, .count s a ha, congrArg (bit · 4) (s.rd_count_ne .host a _ hne)⟩

/-- A bit of the status other than DESC_REJ follows the entries. -/
theorem EntriesPut.setbStatus {i : Nat} (x : Bool) (hi : 4 ≠ i) : EntriesPut c s (s.setb .host (HST_CLI_STATUS c) i x) :=
  ⟨.setb s .host _ i x (by simp), rfl, .setb s _ i x (by simp [syncRegs]), s.flag_setb_bit .host _ i 4 x hi⟩

theorem EntriesPut.cliSync : EntriesPut c s (s.cliSync c) := by
  unfold State.cliSync
  extract_lets rec0 cpl segs quota s₁ s₂ s₃ ov s₄
  have h₁ : EntriesPut c s s₁ := .wr s _ (by simp [syncRegs]) (by simp)
  have h₂ : EntriesPut c s s₂ := h₁.trans (.wr s₁ _ (by simp [syncRegs]) (by simp))
  have h₃ : EntriesPut c s s₃ := h₂.trans (.wr s₂ _ (by simp [syncRegs]) (by simp))
  have h₄ : EntriesPut c s s₄ := h₃.trans (.setbStatus s₃ _ (by decide))
  exact .ite (.refl s) (.ite (h₄.trans (.setbStatus s₄ _ (by decide))) (.ite (h₄.trans (.setbStatus s₄ _ (by decide))) h₄))

theorem EntriesPut.writeBack (d : Nat) : EntriesPut c s (s.writeBack d) :=
  .ite (.refl s) ((EntriesPut.onClient s d _).trans (.hostPut _ _ _ _ _))

theorem EntriesPut.interrupt (d : Nat) : EntriesPut c s (s.interrupt d) :=
  (EntriesPut.vector s _ _).trans (.onClient _ d _)

theorem EntriesPut.cliWrote (n : Nat) (err : Bool) : EntriesPut c s (s.cliWrote c n err) := by
  unfold State.cliWrote
  extract_lets s₁ s₂
  have h₁ : EntriesPut c s s₁ := (EntriesPut.cliSync s).trans (.writeBack _ c)
  have h₂ : EntriesPut c s s₂ := .ite h₁ (h₁.trans (.onClient s₁ c _))
  exact .ite (h₂.trans (.interrupt s₂ c)) h₂

theorem EntriesPut.ringPut {r : Nat} (bs : List Byte) (hr : HST_CLI_PROD c r ∈ entryRegs c) : EntriesPut c s (s.ringPut c r bs) :=
  (EntriesPut.hostPut s _ _ _ _).trans (.wr _ _ hr (by simp only [HST_CLI_STATUS, HST_CLI_PROD]; omega))

theorem EntriesPut.gapPut (r : Nat) : EntriesPut c s (s.gapPut c r).1 := by
  have hgap : ∀ (r : Nat) bs f, HST_CLI_PROD c r ∈ entryRegs c →
      EntriesPut c s (((s.ringPut c r bs).setb .host (HST_CLI_STATUS c) 5 true).onClient c f) := fun r bs f hr =>
    (EntriesPut.ringPut s bs hr).trans ((EntriesPut.setbStatus _ true (by decide)).trans (.onClient _ c f))
  unfold State.gapPut
  extract_lets x gapSet
  split
  · exact .refl s
  · split
    · split
      · exact hgap 0 _ _ (by simp)
      · exact .refl s
    · split
      · exact hgap 2 _ _ (by simp)
      · exact .refl s
    · split
      · exact .refl s
      · exact hgap 3 _ _ (by simp)
    · exact .refl s

theorem EntriesPut.recordPut {mk : State → Nat → State × List Byte} (hmk : ∀ t n, (mk t n).1 = t) :
    EntriesPut c s (s.recordPut c mk) := by
  unfold State.recordPut
  extract_lets g s₁ s₂ s₃ p
  have h₁ : EntriesPut c s s₁ := .gapPut s 0
  have h₃ : EntriesPut c s s₃ := (h₁.trans (.count s₁ (by simp) (by simp))).trans (.onClient s₂ c _)
  have hp : p.1 = s₁ := hmk _ _
  rw [hp]
  exact .ite (.refl s) (.ite (.ite (h₃.trans (.cliSync s₃)) (h₃.trans (.cliWrote s₃ _ _)))
    (h₁.trans ((EntriesPut.ringPut s₁ _ (by simp)).trans (.cliWrote _ _ _))))

theorem EntriesPut.errorPut (type status : Nat) (detail : List Byte) : EntriesPut c s (s.errorPut c type status detail) := by
  unfold State.errorPut
  extract_lets g s₁ s₂
  have h₁ : EntriesPut c s s₁ := .gapPut s 3
  have h₂ : EntriesPut c s s₂ := h₁.trans ((EntriesPut.count s₁ (by simp) (by simp)).trans (.onClient _ c _))
  exact .ite (.refl s) (.ite (.ite h₂ (h₂.trans (.cliWrote s₂ _ _)))
    (h₁.trans ((EntriesPut.ringPut s₁ _ (by simp)).trans (.cliWrote _ _ _))))

end

end

end Sys2Proof.Machine

end

/-! ## Copies of strip buffers and statistics -/

section

namespace Sys2Proof.Machine

/-! ### What the reading of the Erg leaves of it (R304, R308) -/

/-- The bytes of the Erg, the output rings and the queues are as before; counts and marks of errors may have changed. -/
structure ErgHeld (s t : State) : Prop where
  mem : t.erg.mem = s.erg.mem
  ring : t.erg.ring = s.erg.ring
  q : t.erg.q = s.erg.q

theorem ErgHeld.refl (s : State) : ErgHeld s s := ⟨rfl, rfl, rfl⟩

theorem ErgHeld.trans {s t u : State} (h : ErgHeld s t) (k : ErgHeld t u) : ErgHeld s u :=
  ⟨k.mem.trans h.mem, k.ring.trans h.ring, k.q.trans h.q⟩

theorem ErgHeld.of_eq {s t : State} (h : t.erg = s.erg) : ErgHeld s t := ⟨by rw [h], by rw [h], by rw [h]⟩

theorem ErgHeld.ite {s t u : State} {p : Prop} [Decidable p] (ht : ErgHeld s t) (hu : ErgHeld s u) :
    ErgHeld s (if p then t else u) := by
  split
  · exact ht
  · exact hu

theorem ErgHeld.of_regsOnly {s t : State} (h : RegsOnly .erg s t) : ErgHeld s t := by
  obtain ⟨r, rfl⟩ := h
  exact ⟨rfl, rfl, rfl⟩

section
variable (s : State)

theorem ErgHeld.countBy (a n : Nat) : ErgHeld s (s.countBy .erg a n) := ⟨rfl, rfl, rfl⟩

theorem ErgHeld.withErg (x : ErgSt) (hmem : x.mem = s.erg.mem) (hring : x.ring = s.erg.ring) (hq : x.q = s.erg.q) :
    ErgHeld s { s with erg := x } := ⟨hmem, hring, hq⟩

theorem ErgHeld.ergUncorr (a : Nat) : ErgHeld s (s.ergUncorr a) := by
  unfold State.ergUncorr
  extract_lets t s₁ s₂ keep
  have h₁ : ErgHeld s s₁ := .ite (.of_regsOnly (.wr64 .erg s _ _ _)) (.refl s)
  have h₂ : ErgHeld s s₂ := (h₁.trans (.countBy s₁ _ 1)).trans (.of_eq ((Kept.contained _ _ _ _ _).erg_eq (by simp)))
  exact .ite (h₂.trans (.withErg s₂ _ rfl rfl rfl)) (h₂.trans (.withErg s₂ _ rfl rfl rfl))

theorem ErgHeld.ergMeet (a n : Nat) : ErgHeld s (s.ergMeet a n) := by
  unfold State.ergMeet
  extract_lets soft s₁ s₂
  have h₁ : ErgHeld s s₁ := State.each_rel .refl (fun _ _ _ => .trans) fun t w _ => .ergUncorr t _
  have h₂ : ErgHeld s s₂ := h₁.trans (.countBy s₁ _ _)
  exact .ite (.refl s) (.ite h₁ (h₂.trans (.withErg s₂ _ rfl rfl rfl)))

theorem ErgHeld.qMeet (q n : Nat) : ErgHeld s (s.qMeet q n) :=
  State.each_rel .refl (fun _ _ _ => .trans) fun t _ _ => .ite ((ErgHeld.ergMeet t _ _).trans (.countBy _ _ 1)) (.ergMeet t _ _)

theorem Kept.qMeet (q n : Nat) : Kept [.erg, .flt] s (s.qMeet q n) :=
  .each _ (fun t _ => .ite ((Kept.ergMeet t _ _).trans (.count _ .erg _ (by simp))) (.ergMeet t _ _)) _ s

theorem ErgHeld.qRead (q : Nat) : ErgHeld s (s.qRead q) := by
  unfold State.qRead
  split
  · exact .qMeet s _ _
  · exact .refl s

theorem Kept.qRead (q : Nat) : Kept [.erg, .flt] s (s.qRead q) := by
  unfold State.qRead
  split
  · exact .qMeet s _ _
  · exact .refl _ s

end

/-! ### The head of a queue leaves it (R309) -/

section
variable {s : State} {q : Nat}

theorem State.ergQ_setQ (x : ErgQ) : (s.setQ q x).ergQ q = x := by
  have hset : ({ s with erg := { s.erg with q := Tab.set (fun _ => ErgQ.init) s.erg.q q x } } : State).ergQ q = x :=
    Tab.get_set_same (fun _ => ErgQ.init) s.erg.q q x
  unfold State.setQ
  split
  · exact hset
  · exact hset

theorem Kept.setQ (x : ErgQ) : Kept [.erg] s (s.setQ q x) :=
  .ite (.withErg s _ (by simp)) ((Kept.withErg s _ (by simp)).trans
    ((Kept.put _ .erg _ _ _ _ (by simp)).trans (.setb _ .erg _ _ _ (by simp))))

theorem State.mem_setQ (x : ErgQ) : (s.setQ q x).erg.mem = s.erg.mem := by
  unfold State.setQ
  split <;> rfl

/-- An item of a queue that is no record queue leaves nothing behind. -/
theorem State.itemLeft_of_other (hq : q % 4 ≠ 0) (it : List Dword) : s.itemLeft q it = s := by
  have hgone : s.itemGone q it = s := by
    unfold State.itemGone
    split
    · exact if_neg fun ⟨h, _⟩ => hq h
    · rfl
  unfold State.itemLeft
  rw [hgone]
  exact if_pos (.inl hq)

variable {it : List Dword} {rest : List (List Dword)} (hitems : (s.ergQ q).items = it :: rest) (hq : q % 4 ≠ 0)
include hitems hq

theorem State.qTake_of_items : ∃ x : ErgQ, s.qTake q = s.setQ q x ∧ x.items = rest := by
  unfold State.qTake
  extract_lets x
  rw [hitems]
  exact ⟨_, State.itemLeft_of_other hq _, rfl⟩

theorem State.qTake_leaves : ((s.qTake q).ergQ q).items = rest ∧ (s.qTake q).erg.mem = s.erg.mem ∧ Kept [.erg] s (s.qTake q) := by
  obtain ⟨x, htake, hrest⟩ := State.qTake_of_items hitems hq
  rw [htake, State.ergQ_setQ]
  exact ⟨hrest, State.mem_setQ x, .setQ x⟩

end

theorem ErgHeld.ergQ {s t : State} (h : ErgHeld s t) (q : Nat) : t.ergQ q = s.ergQ q := by rw [State.ergQ, h.q, State.ergQ]

theorem ErgHeld.outRing {s t : State} (h : ErgHeld s t) (n src : Nat) : outRing t n src = outRing s n src := by
  rw [Machine.outRing, h.ring, Machine.outRing]

/-! ### The data of a copy (R268, R270) -/

section
variable (s : State) (j : DataCopy) (data : List Byte) (bad : Bool)

theorem Kept.copyTake (ch n : Nat) : Kept [.dma] s (s.copyTake ch n) := .ite (.refl _ s) (.onDma s ch _ (by simp))

theorem State.copies_copyTake (ch n : Nat) : (s.copyTake ch n).host.copies = s.host.copies := by
  unfold State.copyTake
  split <;> rfl

theorem EntriesPut.dataPut (c d off : Nat) (bs : List Byte) : EntriesPut c s (s.dataPut d off bs).1 := by
  unfold State.dataPut
  extract_lets area
  split
  · exact .hostPut s _ _ _ _
  · exact .refl s

/-- The data of a copy go to host memory, its notices to the clients' rings, on the route's channel. -/
theorem State.dataCopied_leaves : Kept [.host, .dma] s (s.dataCopied j data bad) ∧
    (s.dataCopied j data bad).host.copies = s.host.copies := by
  unfold State.dataCopied
  extract_lets off nofit s₁
  have h₁ : Kept [.host, .dma] s s₁ := .ite (.refl _ s) ((Kept.copyTake s _ _).mono (by simp))
  have hcopies : s₁.host.copies = s.host.copies := by
    unfold s₁
    split
    · rfl
    · exact s.copies_copyTake _ _
  have hclient : ∀ (t : State) (c : Nat), EntriesPut c t (if !bound t c then t else
      (if nofit || bad then (t, false) else t.dataPut c off data).1.recordPut c (fun s _ =>
        (s, dataNotice j (if (if nofit || bad then (t, false) else t.dataPut c off data).2 then data.length else 0) off nofit
          (!nofit && !(if nofit || bad then (t, false) else t.dataPut c off data).2)))) := by
    intro t c
    refine .ite (.refl t) (EntriesPut.trans ?_ (.recordPut _ fun _ _ => rfl))
    split
    · exact .refl t
    · exact .dataPut t c c off data
  have hall : Kept [.host] s₁ (s₁.each j.clients _) ∧ (s₁.each j.clients _).host.copies = s₁.host.copies :=
    State.each_rel (R := fun t u => Kept [.host] t u ∧ u.host.copies = t.host.copies) (fun t => ⟨.refl _ t, rfl⟩)
      (fun _ _ _ h k => ⟨h.1.trans k.1, k.2.trans h.2⟩) fun t c _ => ⟨(hclient t c).kept, (hclient t c).copies⟩
  exact ⟨h₁.trans (hall.1.mono (by simp)), hall.2.trans hcopies⟩

end

/-! ### DATA_COPY_DONE (R148, R159, R270) -/

section
variable {n : Fin 96} {s : State}

theorem dataCopyDone_linkDown (st : Bool) (hdown : s.host.up = false) : exec (.dataCopyDone n st) s = .next s :=
  congrArg Host.Outcome.next (if_pos (by simp [hdown]))

theorem dataCopyDone_strip (hup : s.host.up = true) : exec (.dataCopyDone n false) s = .next (s.stripCopied n) :=
  congrArg Host.Outcome.next (if_neg (by simp [hup]))

theorem dataCopyDone_stat (hup : s.host.up = true) : exec (.dataCopyDone n true) s = .next (s.statCopied n) :=
  congrArg Host.Outcome.next ((if_neg (by simp [hup])).trans (if_pos rfl))

theorem stripCopied_none (h : s.host.copies.find? (fun j => j.stream == n.val && j.kind == 1 && dataFree s j j.size) = none) :
    s.stripCopied n = s := by
  rw [State.stripCopied, h]

/-- The copy of a strip buffer is over. -/
def State.stripSent (s : State) (n : Nat) (j : DataCopy) : State :=
  let s : State := { s with host := { s.host with copies := s.host.copies.erase j } }
  let s := (s.ergMeet j.addr j.size).dataCopied j (ergRead s j.addr j.size) (ergPoisoned s j.addr j.size)
  let r := outRing s n j.src
  s.setOutRing n j.src { r with busy := match j.slot with | some i => r.busy.filter (fun b => b.1 != i) | none => r.busy }

theorem stripCopied_ends {j : DataCopy}
    (h : s.host.copies.find? (fun j => j.stream == n.val && j.kind == 1 && dataFree s j j.size) = some j) :
    (s.stripCopied n).host.copies = s.host.copies.erase j ∧
      (∀ i, j.slot = some i → (outRing (s.stripCopied n) n j.src).busy = (outRing s n j.src).busy.filter (fun b => b.1 != i)) ∧
      (s.stripCopied n).erg.mem = s.erg.mem ∧ Kept [.erg, .host, .dma, .flt] s (s.stripCopied n) := by
  have hsent : s.stripCopied n = s.stripSent n j := by
    rw [State.stripCopied, h]
    rfl
  rw [hsent]
  unfold State.stripSent
  extract_lets host s₁ s₂ r
  have h₁ : Kept [.erg, .host, .dma, .flt] s s₁ := .withHost s _ (by simp)
  have hmeet : Kept [.erg, .flt] s₁ (s₁.ergMeet j.addr j.size) := .ergMeet _ _ _
  obtain ⟨hcopied, hcopies⟩ := State.dataCopied_leaves (s₁.ergMeet j.addr j.size) j (ergRead s₁ j.addr j.size)
    (ergPoisoned s₁ j.addr j.size)
  have hheld : ErgHeld s s₂ :=
    (ErgHeld.of_eq rfl : ErgHeld s s₁).trans ((ErgHeld.ergMeet s₁ _ _).trans (.of_eq (hcopied.erg_eq (by simp))))
  have hring : ∀ x, outRing (s₂.setOutRing n j.src x) n j.src = x := fun x =>
    Tab.get_set_same (fun _ => OutRing.init) s₂.erg.ring (n * 3 + j.src) x
  refine ⟨hcopies.trans (congrArg HostSt.copies (hmeet.blocks.host_eq (by simp))), fun i hi => ?_, hheld.mem,
    h₁.trans ((hmeet.mono (by simp)).trans ((hcopied.mono (by simp)).trans (.withErg s₂ _ (by simp))))⟩
  rw [hring, hi, show r = outRing s n j.src from hheld.outRing n j.src]

/-- The copy that a statistics record is due to: one that waits already, or one of the stream's route. -/
def statJob (s : State) (n : Nat) (b : List Byte) : Option DataCopy :=
  match s.host.copies.find? (fun j => j.stream == n && j.kind == 2 && j.strip == leAt b 0 4) with
  | some j => some j
  | none => (routeAt s n 2 (routeIdx s n 2)).map (fun r => DataCopy.ofRoute r 2 n (leAt b 0 4) 0 b.length none)

/-- The copy of the record at the head, if there is one, may run on its channel. -/
def statFree (s : State) (n : Nat) (it : List Dword) : Bool :=
  ((itemBytes it).bind (statJob s n)).all (fun j => dataFree s j ((itemBytes it).getD []).length)

/-- The record is copied to its clients. -/
def State.statSent (s : State) (n : Nat) (j : DataCopy) (b : List Byte) : State :=
  (({ s with host := { s.host with copies := s.host.copies.erase j } } : State).qRead (qOf n 1)).dataCopied j b false

theorem statCopied_idle (h : (s.ergQ (qOf n 1)).items = [] ∨ delivers s (qOf n 1) = false) : s.statCopied n = s := by
  unfold State.statCopied
  dsimp only
  split
  · rfl
  · next hitems =>
    refine if_pos ?_
    rcases h with h | h
    · rw [h] at hitems
      exact absurd hitems (by simp)
    · rw [h, Bool.not_false]

section
variable {it : List Dword} {rest : List (List Dword)} (hitems : (s.ergQ (qOf n 1)).items = it :: rest)
include hitems

/-- What takes the head of the statistics queue once its words are read. -/
theorem State.statTaken {u : State} (hkept : Kept [.erg, .obj, .host, .dma, .flt] s u) (hq : u.ergQ (qOf n 1) = s.ergQ (qOf n 1))
    (hmem : u.erg.mem = s.erg.mem) : ((u.qTake (qOf n 1)).ergQ (qOf n 1)).items = rest ∧
      (u.qTake (qOf n 1)).erg.mem = s.erg.mem ∧ Kept [.erg, .obj, .host, .dma, .flt] s (u.qTake (qOf n 1)) := by
  rw [← hq] at hitems
  obtain ⟨hrest, hmem', htake⟩ := State.qTake_leaves hitems (show qOf n 1 % 4 ≠ 0 by simp only [qOf]; omega)
  exact ⟨hrest, hmem'.trans hmem, hkept.trans (htake.mono (by simp))⟩

theorem State.statRead : (((s.qRead (qOf n 1)).qTake (qOf n 1)).ergQ (qOf n 1)).items = rest ∧
    ((s.qRead (qOf n 1)).qTake (qOf n 1)).erg.mem = s.erg.mem ∧
    Kept [.erg, .obj, .host, .dma, .flt] s ((s.qRead (qOf n 1)).qTake (qOf n 1)) :=
  State.statTaken hitems ((Kept.qRead s _).mono (by simp)) ((ErgHeld.qRead s _).ergQ _) (ErgHeld.qRead s _).mem

theorem State.statSent_taken (j : DataCopy) (b : List Byte) : (((s.statSent n j b).qTake (qOf n 1)).ergQ (qOf n 1)).items = rest ∧
    ((s.statSent n j b).qTake (qOf n 1)).erg.mem = s.erg.mem ∧
    Kept [.erg, .obj, .host, .dma, .flt] s ((s.statSent n j b).qTake (qOf n 1)) := by
  let u : State := { s with host := { s.host with copies := s.host.copies.erase j } }
  have hsent : Kept [.host, .dma] (u.qRead (qOf n 1)) (s.statSent n j b) := (State.dataCopied_leaves _ j b false).1
  have hheld : ErgHeld s (s.statSent n j b) :=
    (ErgHeld.of_eq rfl : ErgHeld s u).trans ((ErgHeld.qRead u _).trans (.of_eq (hsent.erg_eq (by simp))))
  exact State.statTaken hitems ((Kept.withHost s _ (by simp)).trans (((Kept.qRead u _).mono (by simp)).trans (hsent.mono (by simp))))
    (hheld.ergQ _) hheld.mem

variable (hdel : delivers s (qOf n 1) = true)
include hdel

theorem statCopied_bad (hbad : qHeadBad s (qOf n 1) = true) : s.statCopied n = s.qDiscard (qOf n 1) := by
  unfold State.statCopied
  dsimp only
  rw [hitems]
  exact (if_neg (by simp [hdel])).trans (if_pos hbad)

section
variable (hgood : qHeadBad s (qOf n 1) = false)
include hgood

theorem statCopied_marker (hit : itemBytes it = none) : s.statCopied n = (s.qRead (qOf n 1)).qTake (qOf n 1) := by
  unfold State.statCopied
  dsimp only
  rw [hitems]
  refine (if_neg (by simp [hdel])).trans ((if_neg (by simp [hgood])).trans ?_)
  rw [hit]

theorem statCopied_record {b : List Byte} (hit : itemBytes it = some b) : s.statCopied n = (match statJob s n b with
    | some j => if !dataFree s j b.length then s else (s.statSent n j b).qTake (qOf n 1)
    | none => (s.qRead (qOf n 1)).qTake (qOf n 1)) := by
  unfold State.statCopied
  dsimp only
  rw [hitems]
  refine (if_neg (by simp [hdel])).trans ((if_neg (by simp [hgood])).trans ?_)
  rw [hit]
  rfl

theorem statCopied_waits (hfree : statFree s n it = false) : s.statCopied n = s := by
  unfold statFree at hfree
  cases hit : itemBytes it with
  | none => simp [hit] at hfree
  | some b =>
    rw [statCopied_record hitems hdel hgood hit]
    cases hjob : statJob s n b with
    | none => simp [hit, hjob] at hfree
    | some j => exact if_pos (by simpa [hit, hjob] using hfree)

end

theorem statCopied_ends (h : qHeadBad s (qOf n 1) = true ∨ statFree s n it = true) :
    ((s.statCopied n).ergQ (qOf n 1)).items = rest ∧ (s.statCopied n).erg.mem = s.erg.mem ∧
      Kept [.erg, .obj, .host, .dma, .flt] s (s.statCopied n) := by
  obtain ⟨hrest, hmem, hkept⟩ := State.statRead hitems
  cases hbad : qHeadBad s (qOf n 1) with
  | true =>
    rw [statCopied_bad hitems hdel hbad, State.qDiscard, State.setb_ergQ, State.count_ergQ]
    exact ⟨hrest, hmem, hkept.trans ((Kept.count _ .erg _ (by simp)).trans (.setb _ .erg _ _ _ (by simp)))⟩
  | false =>
    have hfree : statFree s n it = true := h.resolve_left (by simp [hbad])
    unfold statFree at hfree
    cases hit : itemBytes it with
    | none =>
      rw [statCopied_marker hitems hdel hbad hit]
      exact ⟨hrest, hmem, hkept⟩
    | some b =>
      rw [statCopied_record hitems hdel hbad hit]
      cases hjob : statJob s n b with
      | none => exact ⟨hrest, hmem, hkept⟩
      | some j =>
        dsimp only
        rw [if_neg (by simpa [hit, hjob] using hfree)]
        exact State.statSent_taken hitems j b

end

end

end Sys2Proof.Machine

end

/-! ## Verdicts and descriptors are fetched -/

section

namespace Sys2Proof.Machine

/-! ### Verdicts (R271) -/

section
variable {c : Fin 1024} {es : List (BitVec 128)} {late : Nat} {s : State}

theorem verdictFetch_nothing (h : verdictTurn s c = false ∨ s.host.up = false ∨
    min 16 (min (ringUsed s c 1 - verdictsFlying s c) es.length) = 0 ∨ tagFree s none = false) :
    exec (.verdictFetch c es late) s = .next s := by
  refine congrArg Host.Outcome.next (if_pos ?_)
  rcases h with h | h | h | h <;> simp [h]

theorem verdictFetch_reads (hturn : verdictTurn s c = true) (hup : s.host.up = true)
    (hsome : min 16 (min (ringUsed s c 1 - verdictsFlying s c) es.length) ≠ 0) (htag : tagFree s none = true) : ∃ t,
      exec (.verdictFetch c es late) s = .next t ∧
      t.host.flights = s.host.flights ++ (es.take (min 16 (min (ringUsed s c 1 - verdictsFlying s c) es.length))).mapIdx (fun i e =>
        ⟨c.val, s.rd .host (HST_CLI_CONS c 1) + BitVec.ofNat 32 (verdictsFlying s c + i), e, s.now + late⟩) ∧ t.host.turn = c.val ∧
      t.host.reqs = reqsOut s ++ [⟨none, s.now + late⟩] ∧ t.host.mem = s.host.mem ∧
      RegsKept .host [] s t ∧ Kept [.host] s t :=
  ⟨_, congrArg Host.Outcome.next (if_neg (by simp [hturn, hup, hsome, htag])), rfl, rfl, rfl, rfl, fun _ _ => rfl,
    .withHost s _ (by simp)⟩

end

theorem RegsKept.writeBack (s : State) (d : Nat) (as : List Nat) : RegsKept .host as s (s.writeBack d) := by
  unfold State.writeBack
  split
  · exact .refl _ _ s
  · exact fun _ _ => rfl

theorem State.verdictFetched_leaves (s : State) (f : Flight) :
    (s.verdictFetched f).rd .host (HST_CLI_CNT_VER_FETCHED f.client) = satAdd (s.rd .host (HST_CLI_CNT_VER_FETCHED f.client)) 1 ∧
    (s.verdictFetched f).rd .host (HST_CLI_CONS f.client 1) =
      (if ringOn s f.client 1 = true ∧ s.rd .host (HST_CLI_CONS f.client 1) = f.idx
        then f.idx + 1#32 else s.rd .host (HST_CLI_CONS f.client 1)) ∧
    RegsKept .host [HST_CLI_CONS f.client 1, HST_CLI_CNT_VER_FETCHED f.client] s (s.verdictFetched f) ∧
    Kept [.host] s (s.verdictFetched f) := by
  let u := s.count .host (HST_CLI_CNT_VER_FETCHED f.client)
  have hcons : u.rd .host (HST_CLI_CONS f.client 1) = s.rd .host (HST_CLI_CONS f.client 1) :=
    s.rd_count_ne .host _ _ (by simp only [HST_CLI_CONS, HST_CLI_CNT_VER_FETCHED]; omega)
  have hon : ringOn u f.client 1 = ringOn s f.client 1 := by
    have hctrl : u.rd .host (HST_CLI_CTRL f.client) = s.rd .host (HST_CLI_CTRL f.client) := s.rd_count_ne .host _ _ (by simp)
    rw [ringOn, bound_of_id (s.rd_count_ne .host _ _ (by simp)), State.flag, hctrl, ringOn, State.flag]
  have hu : RegsKept .host [HST_CLI_CONS f.client 1, HST_CLI_CNT_VER_FETCHED f.client] s u := .count s _ (by simp)
  have hcount : u.rd .host (HST_CLI_CNT_VER_FETCHED f.client) = satAdd (s.rd .host (HST_CLI_CNT_VER_FETCHED f.client)) 1 :=
    s.rd_count .host _
  by_cases h : ringOn s f.client 1 = true ∧ s.rd .host (HST_CLI_CONS f.client 1) = f.idx
  · have hmoves : s.verdictFetched f = (u.wr .host (HST_CLI_CONS f.client 1) (f.idx + 1#32)).writeBack f.client :=
      if_pos (by rw [hon, hcons, h.1, h.2]; simp)
    have hback := RegsKept.writeBack (u.wr .host (HST_CLI_CONS f.client 1) (f.idx + 1#32)) f.client []
    rw [hmoves, if_pos h]
    refine ⟨?_, ?_, hu.trans ((RegsKept.wr u _ _ (by simp)).trans (.writeBack _ _ _)),
      (Kept.count s .host _ (by simp)).trans ((Kept.wr u .host _ _ (by simp)).trans (EntriesPut.writeBack (c := f.client) _ _).kept)⟩
    · rw [hback _ (by simp), State.rd_wr_ne _ _ _ _ _ (by simp only [HST_CLI_CONS, HST_CLI_CNT_VER_FETCHED]; omega), hcount]
    · rw [hback _ (by simp), State.rd_wr_same]
  · have hstays : s.verdictFetched f = u := if_neg (by
      rw [hon, hcons, Bool.and_eq_true, beq_iff_eq]
      exact h)
    rw [hstays, if_neg h]
    exact ⟨hcount, hcons, hu, .count s .host _ (by simp)⟩

/-! ### A descriptor joins its channel (R278) -/

/-- Descriptors joined a channel or left it: of the DMA block the channel's status has changed. -/
structure ChShown (n : Nat) (s t : State) : Prop where
  kept : Kept [.dma] s t
  ch : t.dma.ch = s.dma.ch
  regs : RegsKept .dma [DMA_CH_STATUS n] s t

section
variable {n : Nat}

theorem ChShown.refl (s : State) : ChShown n s s := ⟨.refl _ s, rfl, .refl _ _ s⟩

theorem ChShown.trans {s t u : State} (h : ChShown n s t) (k : ChShown n t u) : ChShown n s u :=
  ⟨h.kept.trans k.kept, k.ch.trans h.ch, h.regs.trans k.regs⟩

theorem ChShown.ite {s t u : State} {p : Prop} [Decidable p] (ht : ChShown n s t) (hu : ChShown n s u) :
    ChShown n s (if p then t else u) := by
  split
  · exact ht
  · exact hu

variable (s : State)

theorem ChShown.put (hi lo x : Nat) : ChShown n s (s.put .dma (DMA_CH_STATUS n) hi lo x) :=
  ⟨.put s .dma _ hi lo x (by simp), rfl, .put s _ hi lo x (by simp)⟩

theorem ChShown.setb (i : Nat) (x : Bool) : ChShown n s (s.setb .dma (DMA_CH_STATUS n) i x) :=
  ⟨.setb s .dma _ i x (by simp), rfl, .setb s _ i x (by simp)⟩

theorem ChShown.chSync : ChShown n s (s.chSync n) := by
  unfold State.chSync
  extract_lets q s₁ wait s₂
  have h₁ : ChShown n s s₁ := .put s _ _ _
  have h₂ : ChShown n s s₂ := h₁.trans (.setb s₁ _ _)
  exact .ite (.ite h₂ (h₂.trans (.put s₂ _ _ _))) h₁

end

/-- A client's descriptor is the last of its channel's queue, with the channel's next serial, and counts in its client's use. -/
theorem State.dmaEnqueue_joins (s : State) (n : Nat) (d : Desc) (hring : d.tmpl = false) :
    ((s.dmaEnqueue n d).dmaCh n).queue = (s.dmaCh n).queue ++ [{ d with serial := (s.rd .dma (DMA_CH_SERIAL n)).toNat }] ∧
    (s.dmaEnqueue n d).rd .dma (DMA_CH_SERIAL n) = s.rd .dma (DMA_CH_SERIAL n) + 1#32 ∧
    (s.dmaEnqueue n d).rd .host (HST_CLI_USE_DESC d.client) = s.rd .host (HST_CLI_USE_DESC d.client) + 1#32 ∧
    RegsKept .host [HST_CLI_USE_DESC d.client] s (s.dmaEnqueue n d) ∧
    RegsKept .dma [DMA_CH_SERIAL n, DMA_CH_STATUS n] s (s.dmaEnqueue n d) ∧ Kept [.host, .dma] s (s.dmaEnqueue n d) := by
  let d' : Desc := { d with serial := (s.rd .dma (DMA_CH_SERIAL n)).toNat }
  let u := (s.wr .dma (DMA_CH_SERIAL n) (s.rd .dma (DMA_CH_SERIAL n) + 1#32)).onDma n (fun x => { x with queue := x.queue ++ [d'] })
  let v := u.wr .host (HST_CLI_USE_DESC d.client) (u.rd .host (HST_CLI_USE_DESC d.client) + 1#32)
  have hshown : ChShown n v (s.dmaEnqueue n d) := by
    have huse : u.useDesc d' true = v := if_neg (by simp [d', hring])
    unfold State.dmaEnqueue
    dsimp only
    rw [huse]
    exact (ChShown.ite (.put v _ _ _) (.refl v)).trans (.chSync _)
  have hserial : u.rd .dma (DMA_CH_SERIAL n) = s.rd .dma (DMA_CH_SERIAL n) + 1#32 := s.rd_wr_same .dma _ _
  have hu : RegsKept .dma [DMA_CH_SERIAL n, DMA_CH_STATUS n] s u :=
    (RegsKept.wr s _ _ (by simp)).trans fun _ _ => State.rd_onDma ..
  have hv : ∀ a, v.rd .dma a = u.rd .dma a := fun a => u.rd_wr_blk .host .dma _ a _ (by decide)
  have hhost : ∀ a, (s.dmaEnqueue n d).rd .host a = v.rd .host a := hshown.kept.rd_eq (by simp)
  have hqueue : (u.dmaCh n).queue = (s.dmaCh n).queue ++ [d'] := congrArg DmaCh.queue (State.onDma_dmaCh_same ..)
  refine ⟨?_, ?_, ?_, fun a ha => ?_, hu.trans (RegsKept.trans (fun a _ => hv a) (hshown.regs.mono (by simp))), ?_⟩
  · rw [State.dmaCh, hshown.ch]
    exact hqueue
  · rw [hshown.regs _ (by simp), hv, hserial]
  · rw [hhost]
    exact u.rd_wr_same .host _ _
  · rw [hhost]
    exact u.rd_wr_ne .host _ a _ (by simpa using ha)
  · exact ((Kept.wr s .dma _ _ (by simp)).trans (.onDma _ n _ (by simp))).trans ((Kept.wr u .host _ _ (by simp)).trans
      (hshown.kept.mono (by simp)))

/-! ### A client's next descriptor (R281, R287) -/

theorem Kept.dma_eq {bs : List Blk} {s t : State} (h : Kept bs s t) (hb : Blk.dma ∉ bs) : t.dma = s.dma := by
  obtain ⟨-, -, -, -, -, -, -, -, -, -, hdma, -⟩ := h
  exact hdma hb

/-- The read of a descriptor is out, and the ring goes on. -/
def State.descRead (s : State) (c late : Nat) : State :=
  (s.request none late).wr .host (HST_CLI_CONS c 4) (s.rd .host (HST_CLI_CONS c 4) + 1#32)

section
variable (s : State) (c late : Nat)

theorem RegsKept.descRead : RegsKept .host [HST_CLI_CONS c 4] s (s.descRead c late) :=
  .wr (s.request none late) _ _ (by simp)

theorem Kept.descRead : Kept [.host] s (s.descRead c late) :=
  (Kept.withHost s _ (by simp)).trans (.wr _ .host _ _ (by simp))

theorem dataArea_descRead (d : Nat) : dataArea (s.descRead c late) d = dataArea s d := by
  have hrd : ∀ a, a ≠ HST_CLI_CONS c 4 → (s.descRead c late).rd .host a = s.rd .host a := fun a ha =>
    RegsKept.descRead s c late a (by simpa using ha)
  rw [dataArea, State.rd64, State.fld, hrd _ (by simp only [HST_CLI_DATA_LO, HST_CLI_CONS]; omega),
    hrd _ (by simp only [HST_CLI_DATA_HI, HST_CLI_CONS]; omega), hrd _ (by simp only [HST_CLI_DATA_SIZE, HST_CLI_CONS]; omega)]
  rfl

/-- The checks of a descriptor do not see that it was read. -/
theorem descStatus_descRead (ch : Nat) (bs : List Byte) (d : Desc) (ring : Nat) (act : Option Nat) :
    descStatus (s.descRead c late) ch bs d ring act = descStatus s ch bs d ring act := by
  have hown : (s.descRead c late).rd .dma (DMA_CH_OWNER ch) = s.rd .dma (DMA_CH_OWNER ch) := rfl
  have hseg : descSeg (s.descRead c late) = descSeg s := rfl
  unfold descStatus
  rw [hown, hseg, dataArea_descRead]

end

/-- A descriptor whose checks pass names the client whose ring it stands in (R281). -/
theorem descClient_of_passes {s : State} {ch : Nat} {bs : List Byte} {d : Desc} {ring : Nat}
    (h : descStatus s ch bs d ring none = 0) : d.client = ring := by
  unfold descStatus at h
  by_contra hne
  simp [hne] at h
  split at h <;> simp at h

/-- A descriptor that fails a check is noted and reported; the ring goes on. -/
def State.descRefused (s : State) (c : Nat) (i : Word) (ch st : Nat) : State :=
  ((s.setb .host (HST_CLI_STATUS c) 4 true).count .host (HST_CLI_CNT_DESC_REJ c)).errorPut c 2 st
    (leBytes 4 i.toNat ++ leBytes 1 ch)

/-- A descriptor that a ring of a client holds waits: its channel is full, the quota is used, or no tag is free. -/
def descWaits (s : State) (c ch : Nat) : Prop :=
  ch < 64 ∧ 64 ≤ (s.dmaCh ch).queue.length ∨
    (s.rd .host (HST_CLI_Q_DESC c)).toNat ≤ (s.rd .host (HST_CLI_USE_DESC c)).toNat ∨ tagFree s none = false

section
variable {s : State} {c : Nat} {bs : List Byte} {late : Nat}

theorem fetchDesc_waits (h : descWaits s c (leAt bs 2 1) ∨ ringOn s c 4 = false ∨ s.host.up = false ∨ ringUsed s c 4 = 0) :
    s.fetchDesc c bs late = s := by
  refine if_pos ?_
  rcases h with (⟨hch, hfull⟩ | hquota | htag) | h | h | h
  · simp [hch, hfull]
  · simp [hquota]
  all_goals simp [*]

section
variable (hwait : ¬ descWaits s c (leAt bs 2 1)) (hon : ringOn s c 4 = true) (hup : s.host.up = true) (hused : ringUsed s c 4 ≠ 0)
include hwait hon hup hused

theorem fetchDesc_reads : s.fetchDesc c bs late = ((
    if descStatus s (leAt bs 2 1) bs (Desc.ofBytes bs (leAt bs 4 2) 0 false) c none = 0
    then (s.descRead c late).dmaEnqueue (leAt bs 2 1) (Desc.ofBytes bs (leAt bs 4 2) 0 false)
    else (s.descRead c late).descRefused c (s.rd .host (HST_CLI_CONS c 4)) (leAt bs 2 1)
      (descStatus s (leAt bs 2 1) bs (Desc.ofBytes bs (leAt bs 4 2) 0 false) c none)).writeBack c) := by
  simp only [descWaits, not_or, not_and, Bool.not_eq_false] at hwait
  obtain ⟨hroom, hquota, htag⟩ := hwait
  rw [← descStatus_descRead s c late]
  refine if_neg ?_
  simp only [hon, hup, htag, Bool.not_true, Bool.false_or, Bool.or_false, Bool.or_eq_true, beq_iff_eq, hused, false_or,
    Bool.and_eq_true, decide_eq_true_eq, not_or, not_and]
  exact ⟨hroom, hquota⟩

theorem fetchDesc_joins (hst : descStatus s (leAt bs 2 1) bs (Desc.ofBytes bs (leAt bs 4 2) 0 false) c none = 0)
    (hclient : leAt bs 4 2 = c) :
    (s.fetchDesc c bs late).rd .host (HST_CLI_CONS c 4) = s.rd .host (HST_CLI_CONS c 4) + 1#32 ∧
    ((s.fetchDesc c bs late).dmaCh (leAt bs 2 1)).queue = (s.dmaCh (leAt bs 2 1)).queue ++
      [{ Desc.ofBytes bs (leAt bs 4 2) 0 false with serial := (s.rd .dma (DMA_CH_SERIAL (leAt bs 2 1))).toNat }] ∧
    (s.fetchDesc c bs late).rd .dma (DMA_CH_SERIAL (leAt bs 2 1)) = s.rd .dma (DMA_CH_SERIAL (leAt bs 2 1)) + 1#32 ∧
    (s.fetchDesc c bs late).rd .host (HST_CLI_USE_DESC c) = s.rd .host (HST_CLI_USE_DESC c) + 1#32 ∧
    RegsKept .dma [DMA_CH_SERIAL (leAt bs 2 1), DMA_CH_STATUS (leAt bs 2 1)] s (s.fetchDesc c bs late) ∧
    Kept [.host, .dma] s (s.fetchDesc c bs late) := by
  let d := Desc.ofBytes bs (leAt bs 4 2) 0 false
  let u := s.descRead c late
  obtain ⟨hqueue, hserial, huse, hhost, hdma, hkept⟩ := u.dmaEnqueue_joins (leAt bs 2 1) d rfl
  rw [show d.client = c from hclient] at huse hhost
  have hback := EntriesPut.writeBack (c := c) (u.dmaEnqueue (leAt bs 2 1) d) c
  have hregs := RegsKept.writeBack (u.dmaEnqueue (leAt bs 2 1) d) c []
  have hread : u.rd .host (HST_CLI_CONS c 4) = s.rd .host (HST_CLI_CONS c 4) + 1#32 := State.rd_wr_same ..
  have huse' : u.rd .host (HST_CLI_USE_DESC c) = s.rd .host (HST_CLI_USE_DESC c) :=
    RegsKept.descRead s c late _ (by simp only [HST_CLI_USE_DESC, HST_CLI_CONS, List.mem_singleton]; omega)
  have hdma' : ∀ a, ((u.dmaEnqueue (leAt bs 2 1) d).writeBack c).rd .dma a = (u.dmaEnqueue (leAt bs 2 1) d).rd .dma a :=
    hback.kept.rd_eq (by simp)
  rw [fetchDesc_reads hwait hon hup hused, if_pos hst]
  refine ⟨?_, ?_, (hdma' _).trans hserial, ?_, fun a ha => (hdma' a).trans (hdma a ha),
    ((Kept.descRead s c late).mono (by simp)).trans (hkept.trans (hback.kept.mono (by simp)))⟩
  · rw [hregs _ (by simp), hhost _ (by simp only [HST_CLI_USE_DESC, HST_CLI_CONS, List.mem_singleton]; omega), hread]
  · rw [State.dmaCh, (hback.kept.dma_eq (by simp))]
    exact hqueue
  · rw [hregs _ (by simp), huse, huse']

theorem fetchDesc_refuses (hst : descStatus s (leAt bs 2 1) bs (Desc.ofBytes bs (leAt bs 4 2) 0 false) c none ≠ 0) :
    (s.fetchDesc c bs late).rd .host (HST_CLI_CONS c 4) = s.rd .host (HST_CLI_CONS c 4) + 1#32 ∧
    (s.fetchDesc c bs late).flag .host (HST_CLI_STATUS c) 4 = true ∧
    (s.fetchDesc c bs late).rd .host (HST_CLI_CNT_DESC_REJ c) = satAdd (s.rd .host (HST_CLI_CNT_DESC_REJ c)) 1 ∧
    Kept [.host] s (s.fetchDesc c bs late) := by
  let u := s.descRead c late
  let v := u.setb .host (HST_CLI_STATUS c) 4 true
  let w := v.count .host (HST_CLI_CNT_DESC_REJ c)
  have hread : u.rd .host (HST_CLI_CONS c 4) = s.rd .host (HST_CLI_CONS c 4) + 1#32 := State.rd_wr_same ..
  have hcons : w.rd .host (HST_CLI_CONS c 4) = u.rd .host (HST_CLI_CONS c 4) :=
    (v.rd_count_ne .host _ _ (by simp only [HST_CLI_CONS, HST_CLI_CNT_DESC_REJ]; omega)).trans
      (u.rd_setb_ne .host _ _ _ _ (by simp only [HST_CLI_CONS, HST_CLI_STATUS]; omega))
  have hcount : w.rd .host (HST_CLI_CNT_DESC_REJ c) = satAdd (s.rd .host (HST_CLI_CNT_DESC_REJ c)) 1 := by
    rw [State.rd_count, State.rd_setb_ne _ _ _ _ _ _ (by simp),
      RegsKept.descRead s c late _ (by simp only [HST_CLI_CNT_DESC_REJ, HST_CLI_CONS, List.mem_singleton]; omega)]
  have hflag : w.flag .host (HST_CLI_STATUS c) 4 = true :=
    (congrArg (bit · 4) (v.rd_count_ne .host _ _ (by simp))).trans (u.flag_setb_same .host _ 4 true (by decide))
  have hput : EntriesPut c w (s.fetchDesc c bs late) := by
    rw [fetchDesc_reads hwait hon hup hused, if_neg hst]
    exact (EntriesPut.errorPut w _ _ _).trans (.writeBack _ c)
  have hout : HST_CLI_CONS c 4 ∉ entryRegs c ∧ HST_CLI_CNT_DESC_REJ c ∉ entryRegs c := by
    simp only [syncRegs, List.mem_append, List.mem_cons, List.not_mem_nil, or_false, HST_CLI_CONS, HST_CLI_CNT_DESC_REJ,
      HST_CLI_PROD, HST_CLI_CNT_REC_DROP, HST_CLI_CNT_CPL_DROP, HST_CLI_CNT_ERR_DROP, HST_CLI_USE_REC, HST_CLI_USE_CPL,
      HST_CLI_USE_ERG, HST_CLI_STATUS]
    omega
  refine ⟨?_, hput.descRej.trans hflag, (hput.regs _ hout.2).trans hcount,
    (Kept.descRead s c late).trans ((Kept.setb u .host _ _ _ (by simp)).trans ((Kept.count v .host _ (by simp)).trans hput.kept))⟩
  rw [hput.regs _ hout.1, hcons, hread]

end

end

end Sys2Proof.Machine

end

section
open Sys2Proof Sys2Proof.Machine

/-- Settles O41: copies end by `stripCopied_ends` and `statCopied_ends`, verdicts and descriptors by the lemmas of their fetches. -/
theorem dataVerdictsAndDescriptorsCross : Obligations.DataVerdictsAndDescriptorsCross := by
  unfold Obligations.DataVerdictsAndDescriptorsCross
  refine ⟨fun n s => ⟨dataCopyDone_linkDown, fun hup => ⟨fun hnone => ?_, fun j hj => ?_, fun hidle => ?_, fun it rest hitems hdel => ?_⟩⟩,
    fun c es late s => ⟨verdictFetch_nothing, verdictFetch_reads⟩, fun s f => ⟨_, rfl, s.verdictFetched_leaves f⟩,
    fun c desc late s => ⟨fun h => congrArg Host.Outcome.next (fetchDesc_waits h), fun hwait hon hup hused => ?_⟩⟩
  · rw [dataCopyDone_strip hup, stripCopied_none hnone]
  · exact ⟨_, dataCopyDone_strip hup, stripCopied_ends hj⟩
  · rw [dataCopyDone_stat hup, statCopied_idle hidle]
  · refine ⟨fun hgood hfree => ?_, fun h => ⟨_, dataCopyDone_stat hup, statCopied_ends hitems hdel h⟩⟩
    rw [dataCopyDone_stat hup, statCopied_waits hitems hdel hgood hfree]
  · let bs := leBytes 64 desc.toNat
    by_cases hst : descStatus s (leAt bs 2 1) bs (Desc.ofBytes bs (leAt bs 4 2) 0 false) c none = 0
    · obtain ⟨hcons, hqueue, hserial, huse, hdma, hkept⟩ :=
        fetchDesc_joins (late := late) hwait hon hup hused hst (descClient_of_passes hst)
      exact ⟨_, rfl, hcons, fun _ => ⟨hqueue, hserial, huse, hdma⟩, fun hne => absurd hst hne, hkept⟩
    · obtain ⟨hcons, hflag, hcount, hkept⟩ := fetchDesc_refuses (late := late) hwait hon hup hused hst
      exact ⟨_, rfl, hcons, fun heq => absurd heq hst, fun _ => ⟨hkept.dma_eq (by simp), hflag, hcount⟩, hkept.mono (by simp)⟩

end

/-! ## Lines of a stream: what the stages behind the tiles leave of the pixel block (R131 to R161) -/

section

namespace Sys2Proof.Machine

/-! ### Operations that leave the pixel block as it is -/

section
variable (s : State)

@[simp] theorem State.pix_ite (c : Prop) [Decidable c] (t : State) :
    (if c then s else t).pix = if c then s.pix else t.pix := apply_ite State.pix c s t

@[simp] theorem State.pix_wr (b : Blk) (a : Nat) (v : Word) (hb : b ≠ .pix) : (s.wr b a v).pix = s.pix :=
  s.setRegs_pix b _ hb

@[simp] theorem State.pix_put (b : Blk) (a hi lo x : Nat) (hb : b ≠ .pix) : (s.put b a hi lo x).pix = s.pix :=
  s.setRegs_pix b _ hb

@[simp] theorem State.pix_setb (b : Blk) (a i : Nat) (x : Bool) (hb : b ≠ .pix) : (s.setb b a i x).pix = s.pix :=
  s.setRegs_pix b _ hb

@[simp] theorem State.pix_countBy (b : Blk) (a n : Nat) (hb : b ≠ .pix) : (s.countBy b a n).pix = s.pix :=
  s.setRegs_pix b _ hb

@[simp] theorem State.pix_count (b : Blk) (a : Nat) (hb : b ≠ .pix) : (s.count b a).pix = s.pix :=
  s.pix_countBy b a 1 hb

@[simp] theorem State.pix_wr64 (b : Blk) (aLo aHi x : Nat) (hb : b ≠ .pix) : (s.wr64 b aLo aHi x).pix = s.pix := by
  simp [State.wr64, hb]

@[simp] theorem State.pix_wrList (b : Blk) (a : Nat) (ws : List Word) (hb : b ≠ .pix) : (s.wrList b a ws).pix = s.pix :=
  (Kept.wrList (List.mem_singleton.mpr rfl) ws s a).pix_eq (by simpa using hb.symm)

/-- A fold of changes that leave the pixel block leaves it. -/
@[simp] theorem State.pix_each {α : Type} (l : List α) (f : State → α → State) (hf : ∀ s x, (f s x).pix = s.pix) :
    (s.each l f).pix = s.pix :=
  State.each_rel (R := fun s t => t.pix = s.pix) (fun _ => rfl) (fun _ _ _ h k => k.trans h) fun t x _ => hf t x

@[simp] theorem State.pix_publish (id : Nat) (arg : Word) : (s.publish id arg).pix = s.pix :=
  (Kept.publish (bs := [.evt]) s id arg (by simp)).pix_eq (by simp)

@[simp] theorem State.pix_contained (domain code inst detail : Nat) : (s.contained domain code inst detail).pix = s.pix :=
  (Kept.contained s domain code inst detail).pix_eq (by simp)

@[simp] theorem State.pix_ergMeet (a n : Nat) : (s.ergMeet a n).pix = s.pix := (Kept.ergMeet s a n).pix_eq (by simp)

@[simp] theorem State.pix_ergWrite (a : Nat) (bs : List Byte) : (s.ergWrite a bs).pix = s.pix := by simp [State.ergWrite]

/-! #### Objects -/

@[simp] theorem State.pix_setObj (t : Nat) (x : ObjStream) : (s.setObj t x).pix = s.pix := rfl

@[simp] theorem State.pix_onObj (t : Nat) (f : ObjStream → ObjStream) : (s.onObj t f).pix = s.pix := rfl

@[simp] theorem State.pix_openSync (t : Nat) : (s.openSync t).pix = s.pix := by simp [State.openSync]

@[simp] theorem State.pix_closeObj (t : Nat) (o : Obj) : (s.closeObj t o).pix = s.pix := by
  simp [State.closeObj, State.loseObj]

@[simp] theorem State.pix_labelOne (t : Nat) (l : ClsLine) (mask : List Bool) : (s.labelOne t l mask).pix = s.pix := by
  simp [State.labelOne, State.cutSource]

@[simp] theorem State.pix_objLine (t : Nat) (l : ClsLine) : (s.objLine t l).pix = s.pix := by simp [State.objLine]

@[simp] theorem State.pix_noTableSync (t : Nat) : (s.noTableSync t).pix = s.pix := by simp [State.noTableSync]

@[simp] theorem State.pix_clsArm (t : Nat) : (s.clsArm t).pix = s.pix := by simp [State.clsArm]

@[simp] theorem State.pix_pairCheck (t : Nat) : (s.pairCheck t).pix = s.pix := by simp [State.pairCheck, State.setPair]

@[simp] theorem State.pix_pairFlush (t : Nat) : (s.pairFlush t).pix = s.pix := by simp [State.pairFlush, State.leaveAlone]

/-! #### Queues of the Erg -/

@[simp] theorem State.pix_setQ (q : Nat) (x : ErgQ) : (s.setQ q x).pix = s.pix := by simp [State.setQ]

@[simp] theorem State.pix_qWrite (q : Nat) (it : List Dword) : (s.qWrite q it).pix = s.pix := by simp [State.qWrite]

@[simp] theorem State.pix_itemGone (q : Nat) (it : List Dword) : (s.itemGone q it).pix = s.pix := by
  unfold State.itemGone
  split <;> simp [State.copyOver, State.onStaged]

@[simp] theorem State.pix_itemLeft (q : Nat) (it : List Dword) : (s.itemLeft q it).pix = s.pix := by
  unfold State.itemLeft
  dsimp only
  repeat' split
  all_goals simp

@[simp] theorem State.pix_qMeet (q n : Nat) : (s.qMeet q n).pix = s.pix := by simp [State.qMeet]

@[simp] theorem State.pix_qPop (q err : Nat) : (s.qPop q err).pix = s.pix := by
  unfold State.qPop
  dsimp only
  repeat' split
  all_goals simp [State.answer, State.ergStrike, State.draw]

@[simp] theorem State.pix_qServe (q : Nat) : (s.qServe q).pix = s.pix := by simp [State.qServe]

@[simp] theorem State.pix_qDrop (q : Nat) (it : List Dword) : (s.qDrop q it).pix = s.pix := by
  have hcount : (if q < 384 then Blk.erg else .cvn) ≠ .pix := by split <;> simp
  simp [State.qDrop, State.onClient, hcount]

@[simp] theorem State.pix_qRewind (q : Nat) (it : List Dword) : (s.qRewind q it).pix = s.pix := by
  have hcount : (if q < 384 then Blk.erg else .cvn) ≠ .pix := by split <;> simp
  simp [State.qRewind, hcount]

@[simp] theorem State.pix_qPush (q : Nat) (payload : List Dword) : (s.qPush q payload).pix = s.pix := by simp [State.qPush]

@[simp] theorem State.pix_lbWrite (t ln strip : Nat) (l : StrLine) : (s.lbWrite t ln strip l).pix = s.pix := by
  unfold State.lbWrite
  split <;> simp

/-! #### Records that leave -/

@[simp] theorem State.pix_handover (t : Nat) (rec : List Byte) : (s.handover t rec).1.pix = s.pix := by
  unfold State.handover
  dsimp only
  repeat' split
  all_goals simp [State.cvPut, State.onCv]

@[simp] theorem pix_releaseDeadline (r : Release) (vs : Option (Nat × Nat)) : (releaseDeadline s r vs).2.pix = s.pix := by
  unfold releaseDeadline
  repeat' split
  all_goals simp

@[simp] theorem State.pix_addRec (v : VRec) : (s.addRec v).pix = s.pix := by simp [State.addRec, State.pendSync]

@[simp] theorem State.pix_lostRelease (r : Release) : (s.lostRelease r).pix = s.pix := by
  unfold State.lostRelease
  dsimp only
  repeat' split
  all_goals simp

@[simp] theorem State.pix_lostOut (t : Nat) : (s.lostOut t).pix = s.pix := by
  unfold State.lostOut
  split <;> simp

/-! #### Sequencers and clusters -/

@[simp] theorem State.pix_onSeq (q : Nat) (f : SeqUnit → SeqUnit) : (s.onSeq q f).pix = s.pix := rfl

@[simp] theorem State.pix_leadStop (t : Nat) : (s.leadStop t).pix = s.pix := by
  unfold State.leadStop
  split <;> simp

@[simp] theorem State.pix_seqCause (q kind : Nat) (arg : Word) : (s.seqCause q kind arg).pix = s.pix := by
  unfold State.seqCause
  split <;> simp

@[simp] theorem State.pix_seqLineStart (t : Nat) : (s.seqLineStart t).pix = s.pix := by
  unfold State.seqLineStart
  split <;> simp

@[simp] theorem State.pix_seqStrip (t : Nat) (cause : Bool) : (s.seqStrip t cause).pix = s.pix := by
  unfold State.seqStrip
  split <;> simp

@[simp] theorem State.pix_seqGo (q st : Nat) : (s.seqGo q st).pix = s.pix := by simp [State.seqGo]

@[simp] theorem State.pix_loadX (q : Nat) (xs : List Word) : (s.loadX q xs).pix = s.pix := by simp [State.loadX]

@[simp] theorem State.pix_slotOver (q st : Nat) : (s.slotOver q st).pix = s.pix := by
  unfold State.slotOver
  split <;> simp

@[simp] theorem State.pix_seqSwitch (q : Nat) (init : Bool) : (s.seqSwitch q init).pix = s.pix := by
  unfold State.seqSwitch
  dsimp only
  split <;> simp

@[simp] theorem State.pix_mgtQueue (k : MgtKind) : (s.mgtQueue k).pix = s.pix := by
  unfold State.mgtQueue
  split <;> simp [State.mgtStart, State.draw]

@[simp] theorem State.pix_opGo (x : OpChange) (step : Nat) : (s.opGo x step).pix = s.pix := by
  simp [State.opGo, State.vcoreWrite]

@[simp] theorem State.pix_opStart (c : Nat) : (s.opStart c).pix = s.pix := by simp [State.opStart]

@[simp] theorem State.pix_opFailed (c : Nat) (b : Bool) : (s.opFailed c b).pix = s.pix := rfl

@[simp] theorem State.pix_opTarget (c op : Nat) : (s.opTarget c op).pix = s.pix := by simp [State.opTarget]

@[simp] theorem State.pix_imageOps (m : ResMap) : (s.imageOps m).pix = s.pix := by simp [State.imageOps]

@[simp] theorem State.pix_swapLeft : s.swapLeft.pix = s.pix := by simp [State.swapLeft]

@[simp] theorem State.pix_swapFinish : s.swapFinish.pix = s.pix := by
  unfold State.swapFinish
  split <;> simp [State.ejtSwap, State.imageRegs]

@[simp] theorem State.pix_clustersWork (t : Nat) : (s.clustersWork t).pix = s.pix := by
  simp [State.clustersWork, State.onUnit]

/-! #### Strip buffers -/

@[simp] theorem State.pix_startCopy (t kind : Nat) (r : List Byte) (src strip addr size : Nat) (slot : Option Nat) :
    (s.startCopy t kind r src strip addr size slot).pix = s.pix := by simp [State.startCopy]

@[simp] theorem State.pix_writeOut (p : State) (t : Nat) (x : StripSt) (early : Bool) (src : Nat) :
    (s.writeOut p t x early src).pix = s.pix := by
  unfold State.writeOut
  dsimp only
  repeat' split
  all_goals simp [State.setOutRing]

end

/-! ### What of a stream's lines stands while the stages work -/

/-- EN and RUNNING of a stream, the lines that wait for its tiles, and the count of those that entered them. -/
structure LineView where
  running : Bool
  begun : Bool
  waiting : List StrLine
  entered : Nat

def PixSt.lineView (x : PixSt) (n : Nat) : LineView :=
  let y := Tab.get (fun _ => PixStream.init) x.stream n
  ⟨bit (rget x.regs (PIX_SRC n)) 31, bit (rget x.regs (PIX_STATUS n)) 1, y.tileQ, y.inLines⟩

@[simp] theorem PixSt.lineView_ite (c : Prop) [Decidable c] (x y : PixSt) (n : Nat) :
    (if c then x else y).lineView n = if c then x.lineView n else y.lineView n := apply_ite (PixSt.lineView · n) c x y

/-- A line has entered the tiles. -/
def LineView.enter (v : LineView) : LineView := { v with begun := true, entered := v.entered + 1 }

section
variable (s : State) (n : Nat)

theorem State.lineView_eq : s.pix.lineView n =
    ⟨streamOn s n, s.flag .pix (PIX_STATUS n) 1, (s.pixStream n).tileQ, (s.pixStream n).inLines⟩ := rfl

@[simp] theorem State.lineView_setPix (x : PixStream) (hq : x.tileQ = (s.pixStream n).tileQ)
    (hl : x.inLines = (s.pixStream n).inLines) : (s.setPix n x).pix.lineView n = s.pix.lineView n := by
  simp only [State.lineView_eq, State.setPix_pixStream_same, hq, hl]
  rfl

@[simp] theorem State.lineView_onPix (t : Nat) (f : PixStream → PixStream) (hq : ∀ x, (f x).tileQ = x.tileQ)
    (hl : ∀ x, (f x).inLines = x.inLines) : (s.onPix t f).pix.lineView n = s.pix.lineView n := by
  rcases eq_or_ne n t with rfl | hne
  · exact s.lineView_setPix n _ (hq _) (hl _)
  · simp only [State.lineView_eq, State.onPix_pixStream_ne _ _ _ _ hne]
    rfl

@[simp] theorem State.lineView_wr (a : Nat) (v : Word) (hsrc : a ≠ PIX_SRC n) (hst : a ≠ PIX_STATUS n) :
    (s.wr .pix a v).pix.lineView n = s.pix.lineView n := by
  simp only [State.lineView_eq, streamOn, State.flag, State.rd_wr_ne _ _ _ _ _ hsrc.symm, State.rd_wr_ne _ _ _ _ _ hst.symm,
    State.wr_pixStream]

@[simp] theorem State.lineView_put (a hi lo x : Nat) (hsrc : a ≠ PIX_SRC n) (hst : a ≠ PIX_STATUS n) :
    (s.put .pix a hi lo x).pix.lineView n = s.pix.lineView n := s.lineView_wr n a _ hsrc hst

@[simp] theorem State.lineView_setb (a i : Nat) (x : Bool) (hsrc : a ≠ PIX_SRC n) (hst : a ≠ PIX_STATUS n) :
    (s.setb .pix a i x).pix.lineView n = s.pix.lineView n := s.lineView_wr n a _ hsrc hst

@[simp] theorem State.lineView_countBy (a k : Nat) (hsrc : a ≠ PIX_SRC n) (hst : a ≠ PIX_STATUS n) :
    (s.countBy .pix a k).pix.lineView n = s.pix.lineView n := s.lineView_wr n a _ hsrc hst

@[simp] theorem State.lineView_count (a : Nat) (hsrc : a ≠ PIX_SRC n) (hst : a ≠ PIX_STATUS n) :
    (s.count .pix a).pix.lineView n = s.pix.lineView n := s.lineView_countBy n a 1 hsrc hst

theorem State.lineView_setRunning (x : Bool) :
    (s.setb .pix (PIX_STATUS n) 1 x).pix.lineView n = { s.pix.lineView n with begun := x } := by
  simp [State.lineView_eq, streamOn, State.flag_setb_ne]

@[simp] theorem State.flag_onPix (b : Blk) (a i t : Nat) (f : PixStream → PixStream) :
    (s.onPix t f).flag b a i = s.flag b a i := congrArg (bit · i) (State.rd_onPix s b a t f)

theorem State.lineView_count_entered (f : PixStream → PixStream) (hq : ∀ x, (f x).tileQ = x.tileQ)
    (hl : ∀ x, (f x).inLines = x.inLines + 1) :
    (s.onPix n f).pix.lineView n = { s.pix.lineView n with entered := (s.pix.lineView n).entered + 1 } := by
  simp [State.lineView_eq, streamOn, hq, hl]

/-- A fold of changes that leave the lines leaves them. -/
theorem State.lineView_each {α : Type} (l : List α) (f : State → α → State)
    (hf : ∀ s, ∀ x ∈ l, (f s x).pix.lineView n = s.pix.lineView n) : (s.each l f).pix.lineView n = s.pix.lineView n :=
  State.each_rel (R := fun s t => t.pix.lineView n = s.pix.lineView n) (fun _ => rfl) (fun _ _ _ h k => k.trans h) hf

/-! ### The parts of a line's work (R148 to R161, R227) -/

@[simp] theorem State.lineView_statistics (p : State) (x : StripSt) (early : Bool) :
    (s.statistics p n x early).pix.lineView n = s.pix.lineView n := by
  unfold State.statistics
  dsimp only
  repeat' split
  all_goals simp

@[simp] theorem State.lineView_endStrip (p : State) (early : Bool) :
    (s.endStrip p n early).pix.lineView n = s.pix.lineView n := by
  unfold State.endStrip
  split <;> simp

@[simp] theorem State.lineView_applyArm (num : Nat) : (s.applyArm n num).pix.lineView n = s.pix.lineView n := by
  have hactive : ∀ s : State, (s.each shadowOffsets (fun s o => if (regAt (PIX_SRC n + o)).isSome then
      s.wr .pix (PIX_SRC n + 0x1000 + o) (s.rd .pix (PIX_SRC n + o)) else s)).pix.lineView n = s.pix.lineView n := by
    refine fun s => s.lineView_each n _ _ fun s o ho => ?_
    obtain ⟨i, -, rfl⟩ := List.mem_map.mp ho
    split
    · exact s.lineView_wr n _ _ (by simp [PIX_SRC]; omega) (by simp [PIX_SRC, PIX_STATUS]; omega)
    · rfl
  simp [State.applyArm, hactive]

@[simp] theorem State.lineView_boundary : (s.boundary n).pix.lineView n = s.pix.lineView n := by
  simp [State.boundary]

@[simp] theorem State.lineView_tablesUse (t : Nat) (i : Image) : (s.tablesUse t i).pix.lineView n = s.pix.lineView n := by
  simp [State.tablesUse]

@[simp] theorem State.lineView_bankSwitch (q : Nat) : (s.bankSwitch q).pix.lineView n = s.pix.lineView n := by
  have htables : ∀ (i : Image) (ts : List Nat) (s : State),
      (s.each ts (fun s t => s.tablesUse t i)).pix.lineView n = s.pix.lineView n :=
    fun i ts s => s.lineView_each n _ _ fun s t _ => s.lineView_tablesUse n t i
  unfold State.bankSwitch
  split <;> simp [htables]

@[simp] theorem State.lineView_seqBoundary : (s.seqBoundary n).pix.lineView n = s.pix.lineView n := by
  unfold State.seqBoundary
  split <;> simp

@[simp] theorem State.lineView_openStrip (num lines : Nat) :
    (s.openStrip n num lines).pix.lineView n = s.pix.lineView n := by
  simp [State.openStrip]

@[simp] theorem State.lineView_emitLine (p : State) (l : PlaneLine) :
    (s.emitLine p n l).pix.lineView n = s.pix.lineView n := by
  unfold State.emitLine
  dsimp only
  split <;> simp

@[simp] theorem State.lineView_mosaicFinish (p : State) (d : PlaneLine) :
    (s.mosaicFinish p n d).pix.lineView n = s.pix.lineView n := by
  unfold State.mosaicFinish
  split <;> simp

@[simp] theorem State.lineView_mosaicTake (p : State) (l : PlaneLine) :
    (s.mosaicTake p n l).pix.lineView n = s.pix.lineView n := by
  simp [State.mosaicTake]

/-- The line start alone sets RUNNING and counts the line (R161). -/
@[simp] theorem State.lineView_lineStart' (place : Nat) :
    (s.lineStart' n place).pix.lineView n = (s.pix.lineView n).enter := by
  simp [State.lineStart', State.lineView_setRunning, State.lineView_count_entered, LineView.enter]

/-- Of a line's way through the tiles, the waiting lines stand, and the line is counted. -/
theorem State.lineView_tileLine (l : StrLine) : (s.tileLine n l).pix.lineView n = (s.pix.lineView n).enter := by
  unfold State.tileLine
  dsimp only
  repeat' split
  all_goals simp

end

/-! ### A write to PIX_SRC (R135, R246) -/

section
variable {s t : State} (h : t.pix = s.pix) (n : Nat)
include h

theorem State.pixStream_of_pix : t.pixStream n = s.pixStream n :=
  congrArg (fun x : PixSt => Tab.get (fun _ => PixStream.init) x.stream n) h

theorem streamOn_of_pix : streamOn t n = streamOn s n :=
  congrArg (fun x : PixSt => bit (rget x.regs (PIX_SRC n)) 31) h

end

/-- No line of the stream waits anywhere, and no strip is open. -/
def PixStream.Emptied (x : PixStream) : Prop :=
  x.q0 = [] ∧ x.q1 = [] ∧ x.q2 = [] ∧ x.tileQ = [] ∧ x.strip = none

/-- The stream stands at input line 0 and strip 0, with no line waiting. -/
def PixStream.AtStart (x : PixStream) : Prop :=
  x.inLines = 0 ∧ x.nextStrip = 0 ∧ x.q0 = [] ∧ x.strip = none

/-- A running stream notes a write that asks for other fields. -/
def State.srcNoted (s : State) (n : Nat) (v : Word) : State :=
  if bits v 30 0 = bits (s.rd .pix (PIX_SRC n)) 30 0 then s else s.setb .pix (PIX_STATUS n) 7 true

/-- A stream that does not run takes the fields of a write. -/
def State.srcStored (s : State) (n : Nat) (v : Word) : State :=
  let p := srcFields (s.rd .pix (PIX_SRC n)) v
  (s.wr .pix (PIX_SRC n) (putBit p.1 31 false)).setb .pix (PIX_STATUS n) 7 (s.flag .pix (PIX_STATUS n) 7 || p.2)

section
variable {s : State} {n : Nat}

theorem State.streamOn_setb_status (i : Nat) (x : Bool) : streamOn (s.setb .pix (PIX_STATUS n) i x) n = streamOn s n :=
  s.flag_setb_ne .pix _ _ i 31 x (by simp)

theorem State.streamOn_setb_enable (x : Bool) : streamOn (s.setb .pix (PIX_SRC n) 31 x) n = x :=
  State.flag_setb_same _ _ _ _ _ (by decide)

theorem State.streamOn_srcStored (v : Word) : streamOn (s.srcStored n v) n = false := by
  refine State.streamOn_setb_status 7 _ |>.trans ?_
  simp [streamOn, State.flag]

theorem RegsKept.srcStored (v : Word) : RegsKept .pix [PIX_SRC n, PIX_STATUS n] s (s.srcStored n v) :=
  (RegsKept.wr s _ _ (by simp)).trans (.setb _ _ 7 _ (by simp))

theorem Kept.srcStored (v : Word) : Kept [.pix] s (s.srcStored n v) :=
  (Kept.wr s .pix _ _ (by simp)).trans (.setb _ .pix _ 7 _ (by simp))

theorem streamEnd_empties : ((s.streamEnd n).pixStream n).Emptied ∧ streamOn (s.streamEnd n) n = streamOn s n := by
  unfold State.streamEnd
  extract_lets p x s₁ s₂ s₃ s₄ s₅
  have hpix : (s₅.lostOut n).pix = s₄.pix := by simp [s₅]
  have hon : streamOn s₃ n = streamOn s n :=
    congrArg LineView.running (by simp [s₃, s₂, s₁] : s₃.pix.lineView n = s.pix.lineView n)
  rw [State.pixStream_of_pix hpix, streamOn_of_pix hpix, ← hon]
  simp [s₄, PixStream.Emptied, streamOn]

theorem streamBegin_atStart : ((s.streamBegin n).pixStream n).AtStart ∧ streamOn (s.streamBegin n) n = streamOn s n := by
  unfold State.streamBegin
  extract_lets s₁ s₂ s₃ s₄
  have hpix : (s₄.pairCheck n).pix = s₄.pix := by simp
  have h₃ : (s₃.pixStream n).AtStart ∧ streamOn s₃ n = streamOn s n := by
    have hopen : s₃.pix = (s₁.setb .pix (PIX_STATUS n) 1 false).pix := State.pix_openSync _ _
    rw [State.pixStream_of_pix hopen, streamOn_of_pix hopen, State.streamOn_setb_status]
    simp [s₁, PixStream.AtStart, streamOn]
  rw [State.pixStream_of_pix hpix, streamOn_of_pix hpix]
  unfold s₄
  split
  · rwa [State.streamOn_setb_status, State.setb_pixStream]
  · exact h₃

variable {v : Word}

section
variable (hon : streamOn s n = true)
include hon

theorem pixSrcWrite_of_running : s.pixSrcWrite n v = if bit v 31 then s.srcNoted n v
    else ((((s.srcNoted n v).setb .pix (PIX_SRC n) 31 false).leadStop n).streamEnd n).setb .pix (PIX_STATUS n) 1 false :=
  if_pos hon

theorem pixSrcWrite_same (hv : bit v 31 = true) (heq : bits v 30 0 = bits (s.rd .pix (PIX_SRC n)) 30 0) :
    s.pixSrcWrite n v = s := by
  rw [pixSrcWrite_of_running hon, if_pos hv, State.srcNoted, if_pos heq]

theorem pixSrcWrite_differs (hv : bit v 31 = true) (hne : bits v 30 0 ≠ bits (s.rd .pix (PIX_SRC n)) 30 0) :
    s.pixSrcWrite n v = s.setb .pix (PIX_STATUS n) 7 true := by
  rw [pixSrcWrite_of_running hon, if_pos hv, State.srcNoted, if_neg hne]

theorem pixSrcWrite_stops (hv : bit v 31 = false) :
    streamOn (s.pixSrcWrite n v) n = false ∧ ((s.pixSrcWrite n v).pixStream n).Emptied ∧
      (s.pixSrcWrite n v).flag .pix (PIX_STATUS n) 1 = false := by
  rw [pixSrcWrite_of_running hon, if_neg (by simp [hv])]
  obtain ⟨hempty, hstay⟩ := streamEnd_empties (s := ((s.srcNoted n v).setb .pix (PIX_SRC n) 31 false).leadStop n) (n := n)
  refine ⟨?_, ?_, State.flag_setb_same _ _ _ _ _ (by decide)⟩
  · rw [State.streamOn_setb_status, hstay, streamOn_of_pix (State.pix_leadStop _ _), State.streamOn_setb_enable]
  · rwa [State.setb_pixStream]

end

section
variable (hoff : streamOn s n = false) (hv : bit v 31 = true)
include hoff hv

theorem pixSrcWrite_of_stopped : s.pixSrcWrite n v = if (mapStream s n).isSome then
    ((s.srcStored n v).setb .pix (PIX_SRC n) 31 true).streamBegin n
    else (s.srcStored n v).setb .pix (PIX_STATUS n) 7 true := by
  have hstopped : s.pixSrcWrite n v = if !bit v 31 then s.srcStored n v else if (mapStream s n).isSome then
      ((s.srcStored n v).setb .pix (PIX_SRC n) 31 true).streamBegin n
      else (s.srcStored n v).setb .pix (PIX_STATUS n) 7 true := if_neg (by simpa [streamOn, State.flag] using hoff)
  rw [hstopped, if_neg (by simp [hv])]

theorem pixSrcWrite_unplaced (hmap : mapStream s n = none) :
    streamOn (s.pixSrcWrite n v) n = false ∧ (s.pixSrcWrite n v).flag .pix (PIX_STATUS n) 7 = true ∧
      RegsKept .pix [PIX_SRC n, PIX_STATUS n] s (s.pixSrcWrite n v) ∧ Kept [.pix] s (s.pixSrcWrite n v) := by
  rw [pixSrcWrite_of_stopped hoff hv, if_neg (by simp [hmap])]
  exact ⟨(State.streamOn_setb_status 7 true).trans (State.streamOn_srcStored v), State.flag_setb_same _ _ _ _ _ (by decide),
    (RegsKept.srcStored v).trans (.setb _ _ 7 true (by simp)), (Kept.srcStored v).trans (.setb _ .pix _ 7 true (by simp))⟩

theorem pixSrcWrite_starts (hmap : mapStream s n ≠ none) :
    streamOn (s.pixSrcWrite n v) n = true ∧ ((s.pixSrcWrite n v).pixStream n).AtStart := by
  rw [pixSrcWrite_of_stopped hoff hv, if_pos (Option.isSome_iff_ne_none.mpr hmap)]
  obtain ⟨hstart, hstay⟩ := streamBegin_atStart (s := (s.srcStored n v).setb .pix (PIX_SRC n) 31 true) (n := n)
  exact ⟨hstay.trans (State.streamOn_setb_enable true), hstart⟩

end

end

/-! ### Lines that join (R131, R132, R161) -/

theorem foldl_dropHead_stays (l : List Nat) : ∀ x : PixStream,
    (l.foldl PixStream.dropHead x).tileQ = x.tileQ ∧ (l.foldl PixStream.dropHead x).ln = x.ln := by
  have hone : ∀ (x : PixStream) i, (x.dropHead i).tileQ = x.tileQ ∧ (x.dropHead i).ln = x.ln := by
    intro x i
    unfold PixStream.dropHead
    split <;> exact ⟨rfl, rfl⟩
  induction l with
  | nil => exact fun _ => ⟨rfl, rfl⟩
  | cons i l ih => exact fun x => ⟨(ih _).1.trans (hone x i).1, (ih _).2.trans (hone x i).2⟩

theorem foldl_dropHead_others {l : List Nat} (hl : ∀ i ∈ l, i ≠ 0) :
    ∀ x : PixStream, (l.foldl PixStream.dropHead x).q0 = x.q0 := by
  induction l with
  | nil => exact fun _ => rfl
  | cons i l ih =>
    intro x
    have hdrop : (x.dropHead i).q0 = x.q0 := by
      unfold PixStream.dropHead
      split
      · exact absurd rfl (hl 0 (by simp))
      · rfl
      · rfl
    exact (ih (fun j hj => hl j (by simp [hj])) _).trans hdrop

theorem foldl_dropHead_first (k : Nat) (x : PixStream) :
    ((List.range (k + 1)).foldl PixStream.dropHead x).q0 = x.q0.tail := by
  rw [List.range_succ_eq_map]
  exact foldl_dropHead_others (by simp) (x.dropHead 0)

section
variable {s : State} {n : Nat}

/-- A set has at least the port of its first queue. -/
theorem heads_length_pos : ∃ k, (heads s n).length = k + 1 :=
  ⟨min (s.fld .pix (PIX_SRC n) 30 29) 2, by simp [heads]⟩

theorem joinDiscard_agreed (h : olderHeads (heads s n) = []) (k : Nat) : s.joinDiscard n k = s := by
  cases k with
  | zero => rfl
  | succ k =>
    unfold State.joinDiscard
    rw [h]

theorem Kept.lbWrite (ln strip : Nat) (l : StrLine) : Kept [.erg] s (s.lbWrite n ln strip l) := by
  unfold State.lbWrite
  split
  · exact .refl _ s
  · refine .ite (.refl _ s) ?_
    extract_lets i e s₁ s₂ ent s₃ s₄
    have h₃ : Kept [.erg] s s₃ := ((Kept.ergWrite s _ _).trans (.ergWrite s₁ _ _)).trans (.ergWrite s₂ _ _)
    have h₄ : Kept [.erg] s s₄ := h₃.trans ((RegsOnly.wr64 .erg s₃ _ _ _).kept (by simp))
    exact h₄.trans ((RegsOnly.wr64 .erg s₄ _ _ _).kept (by simp))

/-- A line with its number is in the look-back ring, and the next number goes on. -/
def State.lookedBack (s : State) (n : Nat) (l : StrLine) : State :=
  (s.lbWrite n l.ln (stripOf s n l) l).onPix n (fun x => { x with ln := x.ln + 1 })

/-- A line waits for the tiles. -/
def State.enqueued (s : State) (n : Nat) (l : StrLine) : State := s.onPix n (fun x => { x with tileQ := x.tileQ ++ [l] })

theorem RegsKept.enqueued (l : StrLine) : RegsKept .pix [] s (s.enqueued n l) := fun _ _ => State.rd_onPix ..

/-- An overrun of the tiles' buffer is counted and reported (R161). -/
def State.overran (s : State) (n domain inst detail : Nat) : State :=
  ((s.count .pix (PIX_CNT_OVERRUN n)).setb .pix (PIX_STATUS n) 6 true).contained domain 0x20 inst detail

theorem lookedBack_pixStream (l : StrLine) :
    (s.lookedBack n l).pixStream n = { s.pixStream n with ln := (s.pixStream n).ln + 1 } := by
  rw [State.lookedBack, State.onPix_pixStream_same, State.pixStream_of_pix (s.pix_lbWrite ..)]

theorem RegsKept.lookedBack (l : StrLine) : RegsKept .pix [] s (s.lookedBack n l) :=
  ((Kept.lbWrite _ _ _).regsKept (by simp) _).trans fun _ _ => State.rd_onPix ..

theorem Kept.lookedBack (l : StrLine) : Kept [.pix, .erg] s (s.lookedBack n l) :=
  ((Kept.lbWrite _ _ _).mono (by simp)).trans (.onPix _ n _ (by simp))

section
variable (htiles : hasTiles s n = true) (l : StrLine)
include htiles

theorem hasTiles_lookedBack : hasTiles (s.lookedBack n l) n = true := by
  have hseq : (s.lookedBack n l).seq = s.seq := (Kept.lookedBack l).seq_eq (by simp)
  rw [← htiles]
  unfold hasTiles mapStream
  rw [hseq]

theorem lineIn_room (hroom : (s.pixStream n).tileQ.length < 4) : s.lineIn n l = (s.lookedBack n l).enqueued n l := by
  have hq : ((s.lookedBack n l).pixStream n).tileQ.length < 4 := by rwa [lookedBack_pixStream]
  have hplaced : (!hasTiles (s.lookedBack n l) n) = false := by rw [hasTiles_lookedBack htiles, Bool.not_true]
  exact (if_neg (ne_true_of_eq_false hplaced)).trans (if_pos hq)

theorem lineIn_full (hfull : 4 ≤ (s.pixStream n).tileQ.length) : ∃ repl domain inst detail,
    s.lineIn n l = ((s.lookedBack n l).enqueued n repl).overran n domain inst detail := by
  have hq : ¬ ((s.lookedBack n l).pixStream n).tileQ.length < 4 := by
    rw [lookedBack_pixStream]
    exact Nat.not_lt.mpr hfull
  have hplaced : (!hasTiles (s.lookedBack n l) n) = false := by rw [hasTiles_lookedBack htiles, Bool.not_true]
  exact ⟨_, _, _, _, (if_neg (ne_true_of_eq_false hplaced)).trans (if_neg hq)⟩

end

theorem overran_shown (domain inst detail : Nat) : (s.overran n domain inst detail).pixStream n = s.pixStream n ∧
    (s.overran n domain inst detail).rd .pix (PIX_CNT_OVERRUN n) = satAdd (s.rd .pix (PIX_CNT_OVERRUN n)) 1 ∧
    (s.overran n domain inst detail).flag .pix (PIX_STATUS n) 6 = true ∧
    (s.overran n domain inst detail).flag .flt FLT_STATUS 30 = true ∧
    RegsKept .pix [PIX_CNT_OVERRUN n, PIX_STATUS n] s (s.overran n domain inst detail) ∧
    Kept [.pix, .flt] s (s.overran n domain inst detail) := by
  unfold State.overran
  generalize hshown : (s.count .pix (PIX_CNT_OVERRUN n)).setb .pix (PIX_STATUS n) 6 true = u
  have hreport : Kept [.flt] u (u.contained domain 0x20 inst detail) := .contained u domain 0x20 inst detail
  have hrd : ∀ a, (u.contained domain 0x20 inst detail).rd .pix a = u.rd .pix a := fun a => hreport.rd_eq (by simp) a
  refine ⟨?_, ?_, ?_, State.flag_contained_first .., ?_, ?_⟩
  · rw [State.pixStream_of_pix (State.pix_contained ..), ← hshown, State.setb_pixStream, State.count_pixStream]
  · rw [hrd, ← hshown, State.rd_setb_ne _ _ _ _ _ _ (by simp), State.rd_count]
  · rw [State.flag, hrd, ← hshown]
    exact State.flag_setb_same _ _ _ _ _ (by decide)
  · have hregs : RegsKept .pix [PIX_CNT_OVERRUN n, PIX_STATUS n] s u :=
      hshown ▸ (RegsKept.count s _ (by simp)).trans (.setb _ _ 6 true (by simp))
    exact hregs.trans fun a _ => hrd a
  · have hkept : Kept [.pix, .flt] s u := hshown ▸ (Kept.count s .pix _ (by simp)).trans (.setb _ .pix _ 6 true (by simp))
    exact hkept.trans (hreport.mono (by simp))

/-- The heads have left their queues. -/
def State.headsTaken (s : State) (n : Nat) : State :=
  s.onPix n (fun x => (List.range (heads s n).length).foldl PixStream.dropHead x)

theorem headsTaken_pixStream : ((s.headsTaken n).pixStream n).q0 = (s.pixStream n).q0.tail ∧
    ((s.headsTaken n).pixStream n).tileQ = (s.pixStream n).tileQ ∧ ((s.headsTaken n).pixStream n).ln = (s.pixStream n).ln := by
  obtain ⟨k, hk⟩ := heads_length_pos (s := s) (n := n)
  rw [State.headsTaken, State.onPix_pixStream_same, hk]
  exact ⟨foldl_dropHead_first k _, foldl_dropHead_stays _ _⟩

theorem RegsKept.headsTaken : RegsKept .pix [] s (s.headsTaken n) := fun _ _ => State.rd_onPix ..

theorem Kept.headsTaken : Kept [.pix] s (s.headsTaken n) := .onPix _ n _ (by simp)

/-- The joined line has its number and waits for the tiles, or another one in its place. -/
def State.joined (s : State) (n : Nat) (l : StrLine) : State :=
  ((s.headsTaken n).lookedBack n (joinLine s n (heads s n))).enqueued n l

theorem joined_pixStream (l : StrLine) : ((s.joined n l).pixStream n).q0 = (s.pixStream n).q0.tail ∧
    ((s.joined n l).pixStream n).ln = (s.pixStream n).ln + 1 ∧
    ((s.joined n l).pixStream n).tileQ = (s.pixStream n).tileQ ++ [l] := by
  obtain ⟨hq0, hwait, hln⟩ := headsTaken_pixStream (s := s) (n := n)
  rw [State.joined, State.enqueued, State.onPix_pixStream_same, lookedBack_pixStream]
  exact ⟨hq0, congrArg (· + 1) hln, congrArg (· ++ [l]) hwait⟩

theorem RegsKept.joined (l : StrLine) : RegsKept .pix [] s (s.joined n l) :=
  (RegsKept.headsTaken.trans (.lookedBack _)).trans (.enqueued l)

theorem Kept.joined (l : StrLine) : Kept [.pix, .erg] s (s.joined n l) :=
  ((Kept.headsTaken.mono (by simp)).trans (.lookedBack _)).trans (.onPix _ n _ (by simp))

section
variable (htiles : hasTiles s n = true)
include htiles

theorem joinNow_room (hroom : (s.pixStream n).tileQ.length < 4) : s.joinNow n = s.joined n (joinLine s n (heads s n)) := by
  obtain ⟨-, hwait, -⟩ := headsTaken_pixStream (s := s) (n := n)
  exact lineIn_room (s := s.headsTaken n) htiles _ (by rwa [hwait])

theorem joinNow_full (hfull : 4 ≤ (s.pixStream n).tileQ.length) :
    ∃ repl domain inst detail, s.joinNow n = (s.joined n repl).overran n domain inst detail := by
  obtain ⟨-, hwait, -⟩ := headsTaken_pixStream (s := s) (n := n)
  exact lineIn_full (s := s.headsTaken n) htiles _ (by rwa [hwait])

end

end

/-- The missing ports of a set (R132). -/
def missingHeads (s : State) (n : Nat) : Nat := ((heads s n).filter Option.isNone).length

section
variable {s : State} {n : Fin 96} (hagreed : olderHeads (heads s n) = []) (hon : streamOn s n = true)
include hagreed hon

theorem streamLineJoin_joins (hall : (heads s n).all Option.isSome = true) :
    exec (.streamLineJoin n) s = .next (s.joinNow n) := by
  have hexec : exec (.streamLineJoin n) s = .next (if streamOn s n then
      if (heads (s.joinDiscard n (queued (s.pixStream n))) n).all Option.isSome then
        (s.joinDiscard n (queued (s.pixStream n))).joinNow n
      else s.joinDiscard n (queued (s.pixStream n))
    else s) := rfl
  rw [hexec, if_pos hon, joinDiscard_agreed hagreed, if_pos hall]

theorem joinTimeout_fills {a : Nat} {as : List Nat}
    (harrived : (heads s n).filterMap (fun h => h.map (fun l => l.arrived)) = a :: as) :
    exec (.joinTimeout n) s = .next (
      if missingHeads s n ≠ 0 ∧ as.foldl min a + 1000 * s.fld .pix (PIX_CTRL n) 19 13 ≤ s.now then
        (s.joinNow n).countBy .pix (PIX_CNT_JOIN_FILL n) (missingHeads s n)
      else s) := by
  show execJoinTimeout n s = _
  unfold execJoinTimeout
  rw [if_neg (by simp [hon])]
  dsimp only
  rw [joinDiscard_agreed hagreed, harrived]
  rfl

end

section
variable {s : State} {n : Nat}

/-- A line without an overrun, and the ports that were filled for it (R132). -/
theorem joined_filled (l : StrLine) (k : Nat) :
    (((s.joined n l).countBy .pix (PIX_CNT_JOIN_FILL n) k).pixStream n).tileQ = (s.pixStream n).tileQ ++ [l] ∧
      ((s.joined n l).countBy .pix (PIX_CNT_JOIN_FILL n) k).rd .pix (PIX_CNT_JOIN_FILL n) =
        satAdd (s.rd .pix (PIX_CNT_JOIN_FILL n)) k ∧
      RegsKept .pix [PIX_CNT_JOIN_FILL n] s ((s.joined n l).countBy .pix (PIX_CNT_JOIN_FILL n) k) ∧
      Kept [.pix, .erg] s ((s.joined n l).countBy .pix (PIX_CNT_JOIN_FILL n) k) := by
  obtain ⟨-, -, hwait⟩ := joined_pixStream (s := s) (n := n) l
  refine ⟨?_, ?_, ((RegsKept.joined l).mono (by simp)).trans (.countBy _ k (by simp)),
    (Kept.joined l).trans (.countBy _ .pix _ k (by simp))⟩
  · rw [State.countBy_pixStream, hwait]
  · rw [State.rd_countBy, RegsKept.joined l _ (by simp)]

/-- What a joined line leaves, with room for it and without (R161). -/
theorem joinNow_outcomes (htiles : hasTiles s n = true) :
    ((s.joinNow n).pixStream n).q0 = (s.pixStream n).q0.tail ∧ ((s.joinNow n).pixStream n).ln = (s.pixStream n).ln + 1 ∧
      ((s.pixStream n).tileQ.length < 4 →
        ((s.joinNow n).pixStream n).tileQ = (s.pixStream n).tileQ ++ [joinLine s n (heads s n)] ∧
        RegsKept .pix [] s (s.joinNow n) ∧ Kept [.pix, .erg] s (s.joinNow n)) ∧
      (4 ≤ (s.pixStream n).tileQ.length →
        ((s.joinNow n).pixStream n).tileQ.length = (s.pixStream n).tileQ.length + 1 ∧
        (s.joinNow n).rd .pix (PIX_CNT_OVERRUN n) = satAdd (s.rd .pix (PIX_CNT_OVERRUN n)) 1 ∧
        (s.joinNow n).flag .pix (PIX_STATUS n) 6 = true ∧ (s.joinNow n).flag .flt FLT_STATUS 30 = true ∧
        RegsKept .pix [PIX_CNT_OVERRUN n, PIX_STATUS n] s (s.joinNow n) ∧
        Kept [.pix, .erg, .flt] s (s.joinNow n)) := by
  rcases lt_or_ge (s.pixStream n).tileQ.length 4 with hroom | hfull
  · obtain ⟨hq0, hln, hwait⟩ := joined_pixStream (s := s) (n := n) (joinLine s n (heads s n))
    rw [joinNow_room htiles hroom]
    exact ⟨hq0, hln, fun _ => ⟨hwait, .joined _, .joined _⟩, fun hfull => absurd hroom (Nat.not_lt.mpr hfull)⟩
  · obtain ⟨repl, domain, inst, detail, heq⟩ := joinNow_full htiles hfull
    obtain ⟨hq0, hln, hwait⟩ := joined_pixStream (s := s) (n := n) repl
    obtain ⟨hpix, hcount, hover, hfirst, hregs, hkept⟩ :=
      overran_shown (s := s.joined n repl) (n := n) domain inst detail
    rw [heq, hpix]
    refine ⟨hq0, hln, fun hroom => absurd hroom (Nat.not_lt.mpr hfull), fun _ => ⟨?_, ?_, hover, hfirst, ?_, ?_⟩⟩
    · rw [hwait, List.length_append, List.length_singleton]
    · rw [hcount, RegsKept.joined repl _ (by simp)]
    · exact ((RegsKept.joined repl).mono (by simp)).trans hregs
    · exact ((Kept.joined repl).mono (by simp)).trans (hkept.mono (by simp))

theorem missingHeads_ne_zero (h : (heads s n).any Option.isNone = true) : missingHeads s n ≠ 0 := by
  obtain ⟨x, hx, hnone⟩ := List.any_eq_true.mp h
  exact Nat.ne_of_gt (List.length_pos_of_mem (List.mem_filter.mpr ⟨hx, hnone⟩))

end

section
variable {s : State} {n : Fin 96} {a : Nat} {as : List Nat}
  (harrived : (heads s n).filterMap (fun h => h.map (fun l => l.arrived)) = a :: as) (hagreed : olderHeads (heads s n) = [])
include harrived hagreed

theorem joinTimeout_early (hearly : s.now < as.foldl min a + 1000 * s.fld .pix (PIX_CTRL n) 19 13) :
    exec (.joinTimeout n) s = .next s := by
  cases hon : streamOn s n with
  | false => exact congrArg Host.Outcome.next (if_pos (by simp [hon]))
  | true => rw [joinTimeout_fills hagreed hon harrived, if_neg fun ⟨_, hdue⟩ => Nat.not_lt.mpr hdue hearly]

theorem joinTimeout_due (hon : streamOn s n = true) (hdue : as.foldl min a + 1000 * s.fld .pix (PIX_CTRL n) 19 13 ≤ s.now)
    (hnone : (heads s n).any Option.isNone = true) :
    exec (.joinTimeout n) s = .next ((s.joinNow n).countBy .pix (PIX_CNT_JOIN_FILL n) (missingHeads s n)) := by
  rw [joinTimeout_fills hagreed hon harrived, if_pos ⟨missingHeads_ne_zero hnone, hdue⟩]

end

/-! ### Lines that enter the tiles (R161, R365) -/

section
variable {s : State} {n : Fin 96} {l : StrLine} {rest : List StrLine} (hq : (s.pixStream n).tileQ = l :: rest)
  (hon : streamOn s n = true)
include hq hon

theorem pipelineLine_works : exec (.pipelineLine n) s = .next (
    if (streamClusters s n).filter (fun c => clPstate s c == 2) ≠ [] then
      s.each ((streamClusters s n).filter (fun c => clPstate s c == 2)) (fun s c => s.mispredict c)
    else if (streamClusters s n).any (fun c => clPstate s c == 3) then s
    else ((s.onPix n (fun x => { x with tileQ := rest })).clustersWork n).tileLine n l) := by
  show execPipelineLine n s = _
  unfold execPipelineLine
  rw [hq]
  dsimp only
  rw [if_neg (by simp [hon])]

theorem pipelineLine_enters (hawake : ∀ c ∈ streamClusters s n, clPstate s c < 2) : exec (.pipelineLine n) s =
    .next (((s.onPix n (fun x => { x with tileQ := rest })).clustersWork n).tileLine n l) := by
  have hstate : ∀ k, 2 ≤ k → ∀ c ∈ streamClusters s n, ¬ (clPstate s c == k) = true := fun k hk c hc hst => by
    have := hawake c hc
    simp only [beq_iff_eq] at hst
    omega
  have hnaps : (streamClusters s n).filter (fun c => clPstate s c == 2) = [] := List.filter_eq_nil_iff.mpr (hstate 2 (by decide))
  have hoffs : ¬ (streamClusters s n).any (fun c => clPstate s c == 3) = true := fun h => by
    obtain ⟨c, hc, hst⟩ := List.any_eq_true.mp h
    exact hstate 3 (by decide) c hc hst
  rw [pipelineLine_works hq hon, if_neg (by simp [hnaps]), if_neg hoffs]

theorem pipelineLine_naps {c : Nat} (hc : streamClusters s n = [c]) (hnap : clPstate s c = 2) :
    exec (.pipelineLine n) s = .next (s.mispredict c) := by
  have hnaps : (streamClusters s n).filter (fun c => clPstate s c == 2) = [c] := by simp [hc, hnap]
  rw [pipelineLine_works hq hon, if_pos (by simp [hnaps]), hnaps]
  rfl

end

/-- A line that enters the tiles leaves the buffer, is counted, and sets RUNNING. -/
theorem tileLine_entered (s : State) (n : Nat) (l : StrLine) (rest : List StrLine) :
    (((s.onPix n (fun x => { x with tileQ := rest })).clustersWork n).tileLine n l).pix.lineView n =
      ⟨streamOn s n, true, rest, (s.pixStream n).inLines + 1⟩ := by
  rw [State.lineView_tileLine, State.pix_clustersWork, State.lineView_eq, State.onPix_pixStream_same]
  simp [LineView.enter, streamOn]

section
variable {s : State} {c : Nat}

theorem RegsKept.onUnit (f : PwrUnit → PwrUnit) : RegsKept .pwr [] s (s.onUnit c f) := fun _ _ => rfl

theorem unit_onUnit_same (f : PwrUnit → PwrUnit) : Tab.get (fun _ => PwrUnit.init) (s.onUnit c f).pwr.unit c =
    f (Tab.get (fun _ => PwrUnit.init) s.pwr.unit c) := Tab.get_upd_same _ s.pwr.unit c f

theorem mispredict_counted (hleft : (Tab.get (fun _ => PwrUnit.init) s.pwr.unit c).missed = false) :
    (s.mispredict c).pix = s.pix ∧
      (s.mispredict c).rd .pwr PWR_CNT_MISPREDICT = satAdd (s.rd .pwr PWR_CNT_MISPREDICT) 1 ∧
      (Tab.get (fun _ => PwrUnit.init) (s.mispredict c).pwr.unit c).missed = true ∧
      RegsKept .pwr [PWR_CNT_MISPREDICT] s (s.mispredict c) ∧ Kept [.pwr] s (s.mispredict c) := by
  have hexit : s.mispredict c = (s.count .pwr PWR_CNT_MISPREDICT).onUnit c (fun x => { x with
      missed := true, exitAt := some (x.exitAt.getD s.now) }) := if_neg (by simp [hleft])
  have hcount : Kept [.pwr] s (s.count .pwr PWR_CNT_MISPREDICT) := .count s .pwr _ (by simp)
  have hkept : Kept [.pwr] s (s.mispredict c) := hexit ▸ hcount.trans (.withPwr _ _ (by simp))
  refine ⟨hkept.pix_eq (by simp), ?_, ?_, ?_, hkept⟩
  · rw [hexit, RegsKept.onUnit _ _ (by simp), State.rd_count]
  · rw [hexit, unit_onUnit_same]
  · exact hexit ▸ (RegsKept.count s _ (by simp)).trans ((RegsKept.onUnit _).mono (by simp))

end

end Sys2Proof.Machine

end

section

open Sys2Proof Sys2Proof.Machine

/-- Settles O21: the lines of a stream are seen through the four things the stages leave alone, EN, RUNNING, the waiting lines
and their count, of which only the line start changes two. -/
theorem pixelStreamsJoinTheirLines : Obligations.PixelStreamsJoinTheirLines := by
  unfold Obligations.PixelStreamsJoinTheirLines
  refine ⟨fun n v s => ⟨fun hon => ⟨fun hv heq => ?_, fun hv hne => ?_, fun hv => ?_⟩,
      fun hoff hv => ⟨fun hmap => ?_, fun hmap => ?_⟩⟩,
    fun n s hagreed hall hon htiles => ?_,
    fun n s a as harrived hagreed => ⟨fun hearly => ?_, fun hdue hon hnone htiles hroom => ?_⟩,
    fun n s l rest hq hon => ⟨fun hawake => ?_, fun c hc hnap hleft => ?_⟩⟩
  · exact congrArg Host.Outcome.next (pixSrcWrite_same hon hv heq)
  · exact congrArg Host.Outcome.next (pixSrcWrite_differs hon hv hne)
  · obtain ⟨hstop, ⟨hq0, hq1, hq2, htileQ, hstrip⟩, hbegun⟩ := pixSrcWrite_stops hon hv
    exact ⟨_, rfl, hstop, hq0, hq1, hq2, htileQ, hstrip, hbegun, State.time_eq_of_clock (State.clock_pixSrcWrite ..),
      State.pending_eq_of_clock (State.clock_pixSrcWrite ..)⟩
  · exact ⟨_, rfl, pixSrcWrite_unplaced hoff hv hmap⟩
  · obtain ⟨hstart, hlines, hstrips, hq0, hstrip⟩ := pixSrcWrite_starts hoff hv hmap
    exact ⟨_, rfl, hstart, hlines, hstrips, hq0, hstrip, State.time_eq_of_clock (State.clock_pixSrcWrite ..),
      State.pending_eq_of_clock (State.clock_pixSrcWrite ..)⟩
  · refine ⟨_, streamLineJoin_joins hagreed hon hall, ?_⟩
    exact joinNow_outcomes htiles
  · exact joinTimeout_early harrived hagreed hearly
  · refine ⟨_, joinTimeout_due harrived hagreed hon hdue hnone, ?_⟩
    rw [joinNow_room htiles hroom]
    exact joined_filled _ _
  · have hview := tileLine_entered s n l rest
    exact ⟨_, pipelineLine_enters hq hon hawake, congrArg LineView.waiting hview, congrArg LineView.entered hview,
      congrArg LineView.begun hview, State.time_eq_of_clock (by simp), State.pending_eq_of_clock (by simp)⟩
  · exact ⟨_, pipelineLine_naps hq hon hc hnap, mispredict_counted hleft⟩

end

/-! ## Span tables: COMMIT, the switch and the old table (R343, R346, R351) -/

section

namespace Sys2Proof.Machine

/-! ### A cell is taken from the inbox (R341) -/

theorem Kept.obj_eq {bs : List Blk} {s t : State} (h : Kept bs s t) (hb : Blk.obj ∉ bs) : t.obj = s.obj := by
  obtain ⟨-, -, -, -, -, hobj, -⟩ := h
  exact hobj hb

/-- The state in which a cell has left the inbox and its buffer is free unless another cell holds it. -/
def State.cellTaken (s : State) (c : InCell) : State :=
  ({ s with cvn := { s.cvn with inbox := s.cvn.inbox.erase c } } : State).bufDone c.holds

/-- A buffer that is let go moves at most a port's count. -/
theorem State.bufDone_cases (s : State) (k : Option (Nat × Bool × Nat)) :
    s.bufDone k = s ∨ ∃ p f, s.bufDone k = s.onCv p f := by
  cases k with
  | none => exact .inl rfl
  | some k =>
    unfold State.bufDone
    dsimp only
    split
    · exact .inl rfl
    · exact .inr ⟨_, _, rfl⟩

/-- A taken cell leaves the inbox; the tables, the pass and the registers stay. -/
theorem State.cellTaken_leaves (s : State) (c : InCell) :
    (s.cellTaken c).cvn.inbox = s.cvn.inbox.erase c ∧ (s.cellTaken c).cvn.pass = s.cvn.pass ∧
      (s.cellTaken c).cvn.commit = s.cvn.commit ∧ (s.cellTaken c).cvn.cur = s.cvn.cur ∧
      RegsKept .cvn [] s (s.cellTaken c) ∧ Kept [.cvn] s (s.cellTaken c) := by
  have hin : Kept [.cvn] s { s with cvn := { s.cvn with inbox := s.cvn.inbox.erase c } } := by simp [Kept]
  obtain h | ⟨p, f, h⟩ :=
    State.bufDone_cases { s with cvn := { s.cvn with inbox := s.cvn.inbox.erase c } } c.holds
  · rw [State.cellTaken, h]
    exact ⟨rfl, rfl, rfl, rfl, fun _ _ => rfl, hin⟩
  · rw [State.cellTaken, h]
    exact ⟨rfl, rfl, rfl, rfl, fun _ _ => State.rd_onCv .., hin.trans (.onCv _ p f (by simp))⟩

section
variable {s : State} {p : Nat} {f : CvnMsg → Bool}

theorem State.cvTake_none (h : s.oldest p f = none) : s.cvTake p (fun c => f c.msg) = none := by
  unfold State.oldest at h
  unfold State.cvTake
  rw [h]

theorem State.cvTake_some {c : InCell} (h : s.oldest p f = some c) :
    s.cvTake p (fun c => f c.msg) = some (c.cell, s.cellTaken c) := by
  unfold State.oldest at h
  unfold State.cvTake
  rw [h]
  rfl

end

/-! ### COMMIT (R346) -/

/-- The message is a COMMIT. -/
def CvnMsg.isCommit (m : CvnMsg) : Bool := match m with | .commit _ _ _ => true | _ => false

section
variable {p : Fin 4} {s : State}

theorem commit_idle (h : s.oldest p CvnMsg.isCommit = none) : exec (.commit p) s = .next s := by
  have htake := State.cvTake_none h
  change execCommit p s = _
  unfold execCommit
  split
  · next heq => exact absurd (htake.symm.trans heq) (by simp)
  · next heq => exact absurd (htake.symm.trans heq) (by simp)
  · rfl

/-- The switch to the table of a finished pass is scheduled, and the pass is over. -/
def State.switchSet (s : State) (at_ : Nat) (e : EnumSt) : State :=
  { s with cvn := { s.cvn with commit := some (at_, 0, e.tab), pass := none } }

variable {c : InCell} {g n at_ : Nat} (h : s.oldest p CvnMsg.isCommit = some c) (hmsg : c.cell.msg = .commit g n at_)
include h hmsg

/-- What a COMMIT does to the state in which its cell is taken: its pass decides. -/
theorem execCommit_of_oldest : exec (.commit p) s = .next (
    match s.cvn.pass with
    | some e => if e.no = n ∧ e.done then (s.cellTaken c).switchSet at_ e else s.cellTaken c
    | none => s.cellTaken c) := by
  have htake := State.cvTake_some h
  obtain ⟨-, hpass, -⟩ := s.cellTaken_leaves c
  change execCommit p s = _
  unfold execCommit
  split
  · next heq =>
    obtain ⟨hcell, rfl⟩ := Prod.mk.inj (Option.some.inj (htake.symm.trans heq))
    rw [hcell, CvnMsg.commit.injEq] at hmsg
    obtain ⟨-, rfl, rfl⟩ := hmsg
    rw [hpass]
    rfl
  · next hnot heq =>
    obtain ⟨hcell, -⟩ := Prod.mk.inj (Option.some.inj (htake.symm.trans heq))
    exact (hnot _ _ _ _ _ _ _ _ g n at_ (hcell.symm.trans (by rw [← hmsg]))).elim
  · next heq => exact absurd (htake.symm.trans heq) (by simp)

theorem commit_schedules {e : EnumSt} (hpass : s.cvn.pass = some e) (hno : e.no = n) (hdone : e.done = true) :
    exec (.commit p) s = .next ((s.cellTaken c).switchSet at_ e) := by
  rw [execCommit_of_oldest h hmsg, hpass]
  exact congrArg Host.Outcome.next (if_pos ⟨hno, hdone⟩)

theorem commit_discarded (hother : ∀ e, s.cvn.pass = some e → e.no ≠ n ∨ e.done = false) :
    exec (.commit p) s = .next (s.cellTaken c) := by
  rw [execCommit_of_oldest h hmsg]
  split
  · next e hpass =>
    refine congrArg Host.Outcome.next (if_neg fun ⟨hno, hdone⟩ => ?_)
    obtain hne | hnot := hother e hpass
    · exact hne hno
    · exact absurd hdone (by simp [hnot])
  · rfl

/-- A COMMIT schedules the switch of the pass this device has finished, and of another pass only its cell goes. -/
theorem commit_outcomes : ∃ t, exec (.commit p) s = .next t ∧
    (∀ e, s.cvn.pass = some e → e.no = n → e.done = true → t.cvn.commit = some (at_, 0, e.tab) ∧ t.cvn.pass = none) ∧
    ((∀ e, s.cvn.pass = some e → e.no ≠ n ∨ e.done = false) → t.cvn.commit = s.cvn.commit ∧ t.cvn.pass = s.cvn.pass) ∧
    t.cvn.inbox = s.cvn.inbox.erase c ∧ t.cvn.cur = s.cvn.cur ∧ RegsKept .cvn [] s t ∧ Kept [.cvn] s t := by
  obtain ⟨hinbox, hpass, hcommit, hcur, hregs, hkept⟩ := s.cellTaken_leaves c
  by_cases hmine : ∃ e, s.cvn.pass = some e ∧ e.no = n ∧ e.done = true
  · obtain ⟨e, he, hno, hdone⟩ := hmine
    refine ⟨_, commit_schedules h hmsg he hno hdone, fun e' he' _ _ => ?_, fun hother => ?_, hinbox, hcur,
      hregs.trans fun _ _ => rfl, hkept.trans (by simp [Kept, State.switchSet])⟩
    · rw [Option.some.inj (he.symm.trans he')]
      exact ⟨rfl, rfl⟩
    · obtain hne | hnot := hother e he
      · exact absurd hno hne
      · exact absurd hdone (by simp [hnot])
  · have hother : ∀ e, s.cvn.pass = some e → e.no ≠ n ∨ e.done = false := fun e he =>
      not_or_of_imp fun hno => Bool.eq_false_iff.mpr fun hdone => hmine ⟨e, he, hno, hdone⟩
    exact ⟨_, commit_discarded h hmsg hother, fun e he hno hdone => absurd ⟨e, he, hno, hdone⟩ hmine,
      fun _ => ⟨hcommit, hpass⟩, hinbox, hcur, hregs, hkept⟩

end

/-! ### The registers of a table (R360) -/

section
variable (s : State)

/-- A port's role and range as the registers show them. -/
def State.portShown (t : RouteTab) (s : State) (p : Nat) : State :=
  ((s.put .cvn (CVN_PORT_STATUS p) 31 30 (t.role p)).put .cvn (CVN_PORT_RANGE p) 27 16
    (if t.role p = 2 then atD t.his p 0 else 0)).put .cvn (CVN_PORT_RANGE p) 11 0 (if t.role p = 2 then atD t.los p 0 else 0)

/-- DEPTH, ID, GEN and UPLINK as the registers show them. -/
def State.idShown (s : State) (t : RouteTab) : State :=
  (((s.put .cvn CVN_ID 19 16 t.depth).put .cvn CVN_ID 11 0 t.id).put .cvn CVN_GEN 15 0 t.gen).put .cvn CVN_STATUS 23 22
    (t.up.getD 0)

theorem State.tabRegs_eq : s.tabRegs = ((s.each cvPorts (State.portShown s.cvn.cur)).idShown s.cvn.cur).up2Sync := rfl

theorem RegsOnly.each {α : Type} {b : Blk} {f : State → α → State} {l : List α}
    (hf : ∀ t, ∀ x ∈ l, RegsOnly b t (f t x)) : RegsOnly b s (s.each l f) := State.each_rel (.refl b) (fun _ _ _ => .trans) hf

theorem RegsOnly.portShown (t : RouteTab) (p : Nat) : RegsOnly .cvn s (State.portShown t s p) :=
  ((RegsOnly.put .cvn s _ _ _ _).trans (.put .cvn _ _ _ _ _)).trans (.put .cvn _ _ _ _ _)

theorem RegsOnly.idShown (t : RouteTab) : RegsOnly .cvn s (s.idShown t) :=
  (((RegsOnly.put .cvn s _ _ _ _).trans (.put .cvn _ _ _ _ _)).trans (.put .cvn _ _ _ _ _)).trans (.put .cvn _ _ _ _ _)

theorem State.up2Sync_eq : ∃ valid up, s.up2Sync = (s.setb .cvn CVN_STATUS 26 valid).put .cvn CVN_STATUS 25 24 up := by
  unfold State.up2Sync
  split
  · exact ⟨_, _, rfl⟩
  · exact ⟨_, _, rfl⟩

theorem RegsOnly.up2Sync : RegsOnly .cvn s s.up2Sync := by
  obtain ⟨valid, up, h⟩ := s.up2Sync_eq
  rw [h]
  exact (RegsOnly.setb .cvn s _ _ _).trans (.put .cvn _ _ _ _ _)

theorem RegsKept.up2Sync : RegsKept .cvn [CVN_STATUS] s s.up2Sync := by
  obtain ⟨valid, up, h⟩ := s.up2Sync_eq
  rw [h]
  exact (RegsKept.setb s _ _ _ (by simp)).trans (.put _ _ _ _ _ (by simp))

theorem State.flag_up2Sync {i : Nat} (hi : 26 < i) : s.up2Sync.flag .cvn CVN_STATUS i = s.flag .cvn CVN_STATUS i := by
  obtain ⟨valid, up, h⟩ := s.up2Sync_eq
  rw [h, State.flag_put_bit _ _ _ _ _ _ _ (.inr (by omega)), State.flag_setb_bit _ _ _ _ _ _ (by omega)]

theorem RegsOnly.tabRegs : RegsOnly .cvn s s.tabRegs :=
  ((RegsOnly.each s fun t p _ => .portShown t _ p).trans (.idShown _ _)).trans (.up2Sync _)

theorem RegsKept.portShown (t : RouteTab) (p : Nat) :
    RegsKept .cvn [CVN_PORT_STATUS p, CVN_PORT_RANGE p] s (State.portShown t s p) :=
  ((RegsKept.put s _ _ _ _ (by simp)).trans (.put _ _ _ _ _ (by simp))).trans (.put _ _ _ _ _ (by simp))

theorem State.rd_portsShown (t : RouteTab) {a : Nat} (ha : a < 0xF01000) :
    (s.each cvPorts (State.portShown t)).rd .cvn a = s.rd .cvn a :=
  State.each_rel (R := fun s t => t.rd .cvn a = s.rd .cvn a) (fun _ => rfl) (fun _ _ _ h k => k.trans h) fun u p _ =>
    RegsKept.portShown u t p a (by simp only [List.mem_cons, List.not_mem_nil, or_false, CVN_PORT_STATUS, CVN_PORT_RANGE]; omega)

theorem RegsKept.idShown (t : RouteTab) : RegsKept .cvn [CVN_ID, CVN_GEN, CVN_STATUS] s (s.idShown t) :=
  (((RegsKept.put s _ _ _ _ (by simp)).trans (.put _ _ _ _ _ (by simp))).trans (.put _ _ _ _ _ (by simp))).trans
    (.put _ _ _ _ _ (by simp))

/-- Of the ports' steps, only a port's own touches its status. -/
theorem State.status_portShown_other (t : RouteTab) {p q : Nat} (hne : q ≠ p) :
    (State.portShown t s q).rd .cvn (CVN_PORT_STATUS p) = s.rd .cvn (CVN_PORT_STATUS p) :=
  RegsKept.portShown s t q _ (by simp only [List.mem_cons, List.not_mem_nil, or_false, CVN_PORT_STATUS, CVN_PORT_RANGE]; omega)

/-- Each port shows its role and keeps the rest of its status. -/
theorem State.status_portsShown (t : RouteTab) {p : Nat} (hp : p < 4) :
    (s.each cvPorts (State.portShown t)).rd .cvn (CVN_PORT_STATUS p) =
      putBits (s.rd .cvn (CVN_PORT_STATUS p)) 31 30 (t.role p) := by
  have hmem : p ∈ cvPorts := by simp only [cvPorts, List.mem_cons, List.not_mem_nil]; omega
  obtain ⟨u, hu, hlast⟩ := State.each_at (R := fun s t => t.rd .cvn (CVN_PORT_STATUS p) = s.rd .cvn (CVN_PORT_STATUS p))
    (fun _ => rfl) (fun _ _ _ h k => k.trans h) (f := State.portShown t) (by decide) hmem
    (fun v q _ hne => State.status_portShown_other v t hne) s
  have hrange : CVN_PORT_STATUS p ≠ CVN_PORT_RANGE p := by simp
  rw [hlast, State.portShown, State.rd_put_ne _ _ _ _ _ _ _ hrange, State.rd_put_ne _ _ _ _ _ _ _ hrange, State.rd_put, hu]

end

/-- The registers after the table in force is shown (R360). -/
theorem State.tabRegs_shows (s : State) :
    s.tabRegs.fld .cvn CVN_ID 11 0 = s.cvn.cur.id % 4096 ∧ s.tabRegs.flag .cvn CVN_ID 31 = s.flag .cvn CVN_ID 31 ∧
      s.tabRegs.fld .cvn CVN_GEN 15 0 = s.cvn.cur.gen % 65536 ∧
      (∀ i, 26 < i → s.tabRegs.flag .cvn CVN_STATUS i = s.flag .cvn CVN_STATUS i) ∧
      ∀ p, p < 4 → s.tabRegs.rd .cvn (CVN_PORT_STATUS p) =
        putBits (s.rd .cvn (CVN_PORT_STATUS p)) 31 30 (s.cvn.cur.role p) := by
  let u := s.each cvPorts (State.portShown s.cvn.cur)
  let w := u.idShown s.cvn.cur
  have hw : RegsKept .cvn [CVN_STATUS] w s.tabRegs := .up2Sync w
  have hid : w.rd .cvn CVN_ID = putBits (putBits (u.rd .cvn CVN_ID) 19 16 s.cvn.cur.depth) 11 0 s.cvn.cur.id := by
    change (u.idShown _).rd _ _ = _
    rw [State.idShown, State.rd_put_ne _ _ _ _ _ _ _ (by decide), State.rd_put_ne _ _ _ _ _ _ _ (by decide), State.rd_put,
      State.rd_put]
  refine ⟨?_, ?_, ?_, fun i hi => ?_, fun p hp => ?_⟩
  · rw [hw.fld_eq (by decide), State.fld, hid, bits_putBits_same _ _ _ _ (by decide) (by decide)]
    rfl
  · rw [hw.flag_eq (by decide), State.flag, hid, bit_putBits_ne _ _ _ _ _ (.inr (by decide)),
      bit_putBits_ne _ _ _ _ _ (.inr (by decide)), State.rd_portsShown s _ (by decide), State.flag]
  · rw [hw.fld_eq (by decide)]
    change (u.idShown _).fld _ _ _ _ = _
    rw [State.idShown, State.fld_put_ne _ _ _ _ _ _ _ _ _ (by decide),
      State.fld_put_same _ _ _ _ _ _ (by decide) (by decide)]
    rfl
  · rw [State.tabRegs_eq, State.flag_up2Sync _ hi, State.idShown, State.flag_put_bit _ _ _ _ _ _ _ (.inr (by omega)),
      State.flag_put_ne _ _ _ _ _ _ _ _ (by decide), State.flag_put_ne _ _ _ _ _ _ _ _ (by decide),
      State.flag_put_ne _ _ _ _ _ _ _ _ (by decide), State.flag, State.rd_portsShown s _ (by decide), State.flag]
  · have hhigh : CVN_PORT_STATUS p ∉ [CVN_ID, CVN_GEN, CVN_STATUS] := by
      simp only [List.mem_cons, List.not_mem_nil, or_false, CVN_PORT_STATUS, CVN_ID, CVN_GEN, CVN_STATUS]
      omega
    rw [hw _ fun h => hhigh (by simp_all), RegsKept.idShown u _ _ hhigh, State.status_portsShown s _ hp]

/-! ### The switch (R343, R346) -/

/-- The tables, the overrides and the scheduled switch are as before, and so is everything outside the block. -/
structure TablesHeld (s t : State) : Prop where
  cur : t.cvn.cur = s.cvn.cur
  prev : t.cvn.prev = s.cvn.prev
  overrides : t.cvn.overrides = s.cvn.overrides
  commit : t.cvn.commit = s.cvn.commit
  kept : Kept [.cvn] s t

theorem TablesHeld.refl (s : State) : TablesHeld s s := ⟨rfl, rfl, rfl, rfl, .refl _ s⟩

theorem TablesHeld.trans {s t u : State} (h : TablesHeld s t) (k : TablesHeld t u) : TablesHeld s u :=
  ⟨k.cur.trans h.cur, k.prev.trans h.prev, k.overrides.trans h.overrides, k.commit.trans h.commit, h.kept.trans k.kept⟩

theorem TablesHeld.of_regsOnly {s t : State} (h : RegsOnly .cvn s t) : TablesHeld s t := by
  have hkept := h.kept (List.mem_singleton.mpr rfl)
  obtain ⟨r, rfl⟩ := h
  exact ⟨rfl, rfl, rfl, rfl, hkept⟩

theorem TablesHeld.onCv (s : State) (p : Nat) (f : CvPort → CvPort) : TablesHeld s (s.onCv p f) :=
  ⟨rfl, rfl, rfl, rfl, .onCv s p f (by simp)⟩

theorem Kept.cvn_eq {bs : List Blk} {s t : State} (h : Kept bs s t) (hb : Blk.cvn ∉ bs) : t.cvn = s.cvn := by
  obtain ⟨-, -, -, -, -, -, -, -, -, -, -, -, -, -, hcvn, -⟩ := h
  exact hcvn hb

theorem Kept.cvActive_eq {s t : State} (h : Kept [.cvn] s t) (p : Nat) : cvActive t p = cvActive s p := by
  rw [cvActive, portState, State.fld, h.rd_eq (by simp), cvActive, portState, State.fld]

/-- The new table stands as the one in force, the old one beside it for 10 ms. -/
def State.tableNamed (s : State) (t : RouteTab) : State :=
  { s with cvn := { s.cvn with prev := some (s.cvn.cur, s.now + 10000000), cur := t, overrides := [], commit := none } }

/-- ID is valid, and the status of the tree tells of a table in force. -/
def State.switchFlags (s : State) : State :=
  (((s.setb .cvn CVN_ID 31 true).setb .cvn CVN_STATUS 30 true).setb .cvn CVN_STATUS 29 false).setb .cvn CVN_STATUS 27 false

/-- A port takes its part in the table: LINK, and the range it holds on. -/
def State.portTaken (t : RouteTab) (s : State) (p : Nat) : State :=
  (s.setb .cvn (CVN_PORT_STATUS p) 29 (t.role p != 0 && cvActive s p)).onCv p (fun x => { x with
    before := none, resv := if t.role p = 2 then atD t.his p 0 + 1 - atD t.los p 0 else x.resv })

/-- The new table in force and shown, the serials as they were. -/
def State.tableShown (s : State) (t : RouteTab) : State :=
  ((s.tableNamed t).switchFlags.each cvPorts (State.portTaken t)).tabRegs

theorem State.takeTable_eq (s : State) (t : RouteTab) : s.takeTable t =
    if s.fld .cvn CVN_ID 11 0 != t.id then (s.tableShown t).loadSerials else s.tableShown t := rfl

section
variable (s : State) (t : RouteTab)

theorem Kept.tableNamed : Kept [.cvn] s (s.tableNamed t) := by simp [Kept, State.tableNamed]

theorem State.switchFlags_shows : s.switchFlags.flag .cvn CVN_ID 31 = true ∧ s.switchFlags.flag .cvn CVN_STATUS 30 = true ∧
    s.switchFlags.flag .cvn CVN_STATUS 29 = false ∧ s.switchFlags.flag .cvn CVN_STATUS 27 = false := by
  unfold State.switchFlags
  refine ⟨?_, ?_, ?_, ?_⟩
  · rw [State.flag_setb_ne _ _ _ _ _ _ _ (by decide), State.flag_setb_ne _ _ _ _ _ _ _ (by decide),
      State.flag_setb_ne _ _ _ _ _ _ _ (by decide), State.flag_setb_same _ _ _ _ _ (by decide)]
  · rw [State.flag_setb_bit _ _ _ _ _ _ (by decide), State.flag_setb_bit _ _ _ _ _ _ (by decide),
      State.flag_setb_same _ _ _ _ _ (by decide)]
  · rw [State.flag_setb_bit _ _ _ _ _ _ (by decide), State.flag_setb_same _ _ _ _ _ (by decide)]
  · rw [State.flag_setb_same _ _ _ _ _ (by decide)]

theorem TablesHeld.switchFlags : TablesHeld s s.switchFlags :=
  .of_regsOnly ((((RegsOnly.setb .cvn s _ _ _).trans (.setb .cvn _ _ _ _)).trans (.setb .cvn _ _ _ _)).trans
    (.setb .cvn _ _ _ _))

theorem TablesHeld.portTaken (p : Nat) : TablesHeld s (State.portTaken t s p) :=
  (TablesHeld.of_regsOnly (.setb .cvn s _ _ _)).trans (.onCv _ p _)

theorem RegsKept.portTaken (p : Nat) : RegsKept .cvn [CVN_PORT_STATUS p] s (State.portTaken t s p) :=
  (RegsKept.setb s _ _ _ (by simp)).trans fun _ _ => State.rd_onCv ..

theorem State.flag_portTaken (p : Nat) :
    (State.portTaken t s p).flag .cvn (CVN_PORT_STATUS p) 29 = (t.role p != 0 && cvActive s p) := by
  rw [State.portTaken, State.flag, State.rd_onCv, ← State.flag, State.flag_setb_same _ _ _ _ _ (by decide)]

theorem State.rd_portsTaken {a : Nat} (ha : a < 0xF01000) : (s.each cvPorts (State.portTaken t)).rd .cvn a = s.rd .cvn a :=
  State.each_rel (R := fun s t => t.rd .cvn a = s.rd .cvn a) (fun _ => rfl) (fun _ _ _ h k => k.trans h) fun u p _ =>
    RegsKept.portTaken u t p a (by simp only [List.mem_cons, List.not_mem_nil, or_false, CVN_PORT_STATUS]; omega)

theorem TablesHeld.portsTaken : TablesHeld s (s.each cvPorts (State.portTaken t)) :=
  State.each_rel .refl (fun _ _ _ => .trans) fun u p _ => .portTaken u t p

/-- A port is in routing where the table uses it and its lane is up. -/
theorem State.flag_portsTaken {p : Nat} (hp : p < 4) : (s.each cvPorts (State.portTaken t)).flag .cvn (CVN_PORT_STATUS p) 29 =
    (t.role p != 0 && cvActive s p) := by
  have hmem : p ∈ cvPorts := by simp only [cvPorts, List.mem_cons, List.not_mem_nil]; omega
  obtain ⟨u, ⟨-, hu⟩, hlast, -⟩ := State.each_at
    (R := fun s t => t.rd .cvn (CVN_PORT_STATUS p) = s.rd .cvn (CVN_PORT_STATUS p) ∧ Kept [.cvn] s t)
    (fun s => ⟨rfl, .refl _ s⟩) (fun _ _ _ h k => ⟨k.1.trans h.1, h.2.trans k.2⟩) (f := State.portTaken t) (by decide) hmem
    (fun v q _ hne => ⟨RegsKept.portTaken v t q _
      (by simp only [List.mem_cons, List.not_mem_nil, or_false, CVN_PORT_STATUS]; omega), (TablesHeld.portTaken v t q).kept⟩) s
  rw [State.flag, hlast, ← State.flag, State.flag_portTaken, hu.cvActive_eq]

/-- The tables after the switch. -/
theorem State.tableShown_tables : (s.tableShown t).cvn.cur = t ∧
    (s.tableShown t).cvn.prev = some (s.cvn.cur, s.now + 10000000) ∧ (s.tableShown t).cvn.overrides = [] ∧
    (s.tableShown t).cvn.commit = none ∧ Kept [.cvn] s (s.tableShown t) := by
  have h : TablesHeld (s.tableNamed t) (s.tableShown t) :=
    ((TablesHeld.switchFlags _).trans (.portsTaken _ t)).trans (.of_regsOnly (.tabRegs _))
  exact ⟨h.cur, h.prev, h.overrides, h.commit, (Kept.tableNamed s t).trans h.kept⟩

/-- The registers after the switch (R360). -/
theorem State.tableShown_shows : (s.tableShown t).flag .cvn CVN_ID 31 = true ∧
    (s.tableShown t).fld .cvn CVN_ID 11 0 = t.id % 4096 ∧ (s.tableShown t).fld .cvn CVN_GEN 15 0 = t.gen % 65536 ∧
    (∀ p, p < 4 → (s.tableShown t).fld .cvn (CVN_PORT_STATUS p) 31 30 = t.role p % 4 ∧
      (s.tableShown t).flag .cvn (CVN_PORT_STATUS p) 29 = (t.role p != 0 && cvActive s p)) ∧
    (s.tableShown t).flag .cvn CVN_STATUS 30 = true ∧ (s.tableShown t).flag .cvn CVN_STATUS 29 = false ∧
    (s.tableShown t).flag .cvn CVN_STATUS 27 = false := by
  let v := (s.tableNamed t).switchFlags
  let u := v.each cvPorts (State.portTaken t)
  have hcur : u.cvn.cur = t := ((TablesHeld.switchFlags (s.tableNamed t)).trans (.portsTaken v t)).cur
  have hv : Kept [.cvn] s v := (Kept.tableNamed s t).trans (TablesHeld.switchFlags _).kept
  obtain ⟨hid, hvalid, hgen, hstatus, hport⟩ := u.tabRegs_shows
  obtain ⟨h31, h30, h29, h27⟩ := (s.tableNamed t).switchFlags_shows
  have hlow : ∀ {a i : Nat} {x : Bool}, a < 0xF01000 → v.flag .cvn a i = x → u.flag .cvn a i = x := fun ha hx =>
    (congrArg (bit · _) (State.rd_portsTaken v t ha)).trans hx
  rw [hcur] at hid hgen hport
  refine ⟨hvalid.trans (hlow (by decide) h31), hid, hgen, fun p hp => ⟨?_, ?_⟩, (hstatus 30 (by decide)).trans
    (hlow (by decide) h30), (hstatus 29 (by decide)).trans (hlow (by decide) h29), (hstatus 27 (by decide)).trans
    (hlow (by decide) h27)⟩
  · exact (congrArg (bits · 31 30) (hport p hp)).trans (bits_putBits_same _ _ _ _ (by decide) (by decide))
  · refine (congrArg (bit · 29) (hport p hp)).trans ((bit_putBits_ne _ _ _ _ _ (.inl (by decide))).trans ?_)
    exact (State.flag_portsTaken v t hp).trans (by rw [hv.cvActive_eq])

end

/-! ### Serials (R177) -/

section
variable (s : State)

theorem Kept.loadSerials : Kept [.obj] s s.loadSerials := .each _ (fun s n => .onObj s n _ (by simp)) _ s

/-- Every stream's serial and epoch are read from TB. -/
theorem State.objStream_loadSerials {n : Nat} (hn : n < 96) :
    (s.loadSerials.objStream n).serial = s.now / 512 % 2 ^ 45 ∧ (s.loadSerials.objStream n).epoch = tbit s.now 54 := by
  obtain ⟨u, ⟨-, htime⟩, hlast, -⟩ := State.each_at
    (R := fun s t => t.objStream n = s.objStream n ∧ t.time = s.time)
    (fun _ => ⟨rfl, rfl⟩) (fun _ _ _ h k => ⟨k.1.trans h.1, k.2.trans h.2⟩) List.nodup_range (List.mem_range.mpr hn)
    (f := fun s t => s.onObj t (fun x => { x with serial := s.now / 512 % 2 ^ 45, epoch := tbit s.now 54 }))
    (fun v m _ hne => ⟨State.onObj_objStream_ne v m n _ hne.symm, rfl⟩) s
  rw [State.loadSerials, hlast, State.onObj_objStream_same, State.now, htime]
  exact ⟨rfl, rfl⟩

theorem Kept.takeTable_serials (t : RouteTab) : Kept [.obj] (s.tableShown t) (s.takeTable t) := by
  rw [State.takeTable_eq]
  exact .ite (.loadSerials _) (.refl _ _)

end

/-! ### ENUM_SWITCH (R346, R351) -/

section
variable {s : State}

theorem enumSwitch_idle (h : s.cvn.commit = none) : exec .enumSwitch s = .next s := by
  change execEnumSwitch s = _
  rw [execEnumSwitch, h]

variable {at_ j : Nat} {tab : RouteTab} (h : s.cvn.commit = some (at_, j, tab))
include h

theorem enumSwitch_early (hearly : s.now < at_) : exec .enumSwitch s = .next s := by
  change execEnumSwitch s = _
  rw [execEnumSwitch, h]
  exact congrArg Host.Outcome.next (if_neg (by omega))

theorem enumSwitch_due (hdue : at_ ≤ s.now) :
    exec .enumSwitch s = .next ((s.takeTable tab).onTime (fun x => x.jump j)) := by
  change execEnumSwitch s = _
  rw [execEnumSwitch, h]
  exact congrArg Host.Outcome.next (if_pos hdue)

/-- At its instant the scheduled table is in force and shown, TB has jumped, and a changed ID has loaded the serials. -/
theorem enumSwitch_switches (hdue : at_ ≤ s.now) : ∃ t, exec .enumSwitch s = .next t ∧ t.cvn.cur = tab ∧
    t.cvn.prev = some (s.cvn.cur, s.now + 10000000) ∧ t.cvn.overrides = [] ∧ t.cvn.commit = none ∧
    t.now = s.now + j ∧ t.flag .cvn CVN_ID 31 = true ∧ t.fld .cvn CVN_ID 11 0 = tab.id % 4096 ∧
    t.fld .cvn CVN_GEN 15 0 = tab.gen % 65536 ∧
    (∀ p, p < 4 → t.fld .cvn (CVN_PORT_STATUS p) 31 30 = tab.role p % 4 ∧
      t.flag .cvn (CVN_PORT_STATUS p) 29 = (tab.role p != 0 && cvActive s p)) ∧
    t.flag .cvn CVN_STATUS 30 = true ∧ t.flag .cvn CVN_STATUS 29 = false ∧ t.flag .cvn CVN_STATUS 27 = false ∧
    (s.fld .cvn CVN_ID 11 0 ≠ tab.id → ∀ n, n < 96 → (t.objStream n).serial = s.now / 512 % 2 ^ 45 ∧
      (t.objStream n).epoch = tbit s.now 54) ∧
    (s.fld .cvn CVN_ID 11 0 = tab.id → t.obj = s.obj) ∧
    RegsKept .time [] s t ∧ Kept [.cvn, .obj, .time] s t := by
  let w := s.takeTable tab
  let t := w.onTime (fun x => x.jump j)
  obtain ⟨hcur, hprev, hover, hcommit, hshown⟩ := s.tableShown_tables tab
  obtain ⟨h31, hid, hgen, hport, h30, h29, h27⟩ := s.tableShown_shows tab
  have hserials : Kept [.obj] (s.tableShown tab) w := .takeTable_serials s tab
  have hw : Kept [.cvn, .obj] s w := (hshown.mono (by simp)).trans (hserials.mono (by simp))
  have htime : w.time = s.time := hw.time_eq (by simp)
  have hcvn : t.cvn = (s.tableShown tab).cvn := hserials.cvn_eq (by simp)
  have hrd : ∀ a, t.rd .cvn a = (s.tableShown tab).rd .cvn a := fun a => hserials.rd_eq (b := .cvn) (by simp) a
  simp only [State.flag, State.fld, ← hcvn, ← hrd] at hcur hprev hover hcommit h31 hid hgen hport h30 h29 h27
  refine ⟨t, enumSwitch_due h hdue, hcur, hprev, hover, hcommit, congrArg (fun x : TimeSt => x.tb + j) htime, h31, hid, hgen,
    hport, h30, h29, h27, fun hne n hn => ?_, fun heq => ?_, (hw.regsKept (by simp) []).trans (.onTime w _ fun _ _ => rfl),
    (hw.mono (by simp)).trans ((Kept.onTime w _).mono (by simp))⟩
  · have hload : w = (s.tableShown tab).loadSerials := (s.takeTable_eq tab).trans (if_pos (by simpa using hne))
    have hnow : (s.tableShown tab).now = s.now := congrArg TimeSt.tb (hshown.time_eq (by simp))
    have hn := State.objStream_loadSerials (s.tableShown tab) hn
    rwa [hnow, ← hload] at hn
  · have hstay : w = s.tableShown tab := (s.takeTable_eq tab).trans (if_neg (by simpa using heq))
    exact (congrArg State.obj hstay).trans (hshown.obj_eq (by simp))

end

/-! ### ROUTE_TABLE_EXPIRE (R343) -/

section
variable {s : State}

theorem routeTableExpire_idle (h : s.cvn.prev = none) : exec .routeTableExpire s = .next s := by
  change execRouteTableExpire s = _
  rw [execRouteTableExpire, h]

theorem routeTableExpire_of_prev {old : RouteTab} {at_ : Nat} (h : s.cvn.prev = some (old, at_)) :
    exec .routeTableExpire s = .next (if at_ ≤ s.now then { s with cvn := { s.cvn with prev := none } } else s) := by
  change execRouteTableExpire s = _
  rw [execRouteTableExpire, h]

end

end Sys2Proof.Machine

section

open Sys2Proof Sys2Proof.Machine

/-- Settles O49: a COMMIT by its pass, the switch by its instant and the registers it shows, the old table by its 10 ms. -/
theorem tablesCommitAndSwitch : Obligations.TablesCommitAndSwitch := by
  unfold Obligations.TablesCommitAndSwitch
  refine ⟨fun p s => ⟨commit_idle, fun c g n at_ => commit_outcomes⟩,
    fun s => ⟨enumSwitch_idle, fun at_ j tab h => ⟨enumSwitch_early h, enumSwitch_switches h⟩⟩,
    fun s => ⟨routeTableExpire_idle, fun old at_ h => ⟨fun hearly => ?_, fun hdue => ?_⟩⟩⟩
  · exact (routeTableExpire_of_prev h).trans (congrArg Host.Outcome.next (if_neg (by omega)))
  · exact (routeTableExpire_of_prev h).trans (congrArg Host.Outcome.next (if_pos hdue))

end

end

/-! ## Objects: classifier tables, views and pairing (R162 to R185, R191) -/

section

namespace Sys2Proof.Machine

/-! ### Classifier tables (R164, R304) -/

theorem Kept.putOtherBank (s : State) (n : Nat) (tiles : List Nat) (v : Bank) : Kept [.pix] s (s.putOtherBank n tiles v) :=
  .putBanks s tiles _ _ _ v

theorem State.tile_putOtherBank_congr {s t : State} {n : Nat} (htile : t.pix.tile = s.pix.tile)
    (hact : t.flag .obj (OBJ_STATUS n) 8 = s.flag .obj (OBJ_STATUS n) 8) (tiles : List Nat) (v : Bank) :
    (t.putOtherBank n tiles v).pix.tile = (s.putOtherBank n tiles v).pix.tile := by
  rw [State.putOtherBank, State.putOtherBank, hact]
  exact State.tile_putBanks_congr htile _ _ _ _ _

/-- Bytes of the Erg are read as its memory holds them. -/
theorem ErgHeld.ergRead {s t : State} (h : ErgHeld s t) (a n : Nat) : ergRead t a n = ergRead s a n := by
  unfold Machine.ergRead ergByte
  rw [h.mem]

/-- The bank not in use is emptied, and the source and the tiles of the load are noted. -/
def State.clsBegun (s : State) (n : Nat) : State :=
  (s.putOtherBank n (streamTiles s n) none).onObj n (fun x => { x with
    load := some (s.rd64 .obj (OBJ_TBL_ADDR_LO n) (OBJ_TBL_ADDR_HI n), streamTiles s n) })

section
variable {n : Fin 96} {v : Word} {s : State} (hgo : bit v 31 = true)
include hgo

theorem clsTblLoad_busy (hbusy : s.flag .obj (OBJ_STATUS n) 6 = true) : exec (.clsTblLoad n v) s =
    .next ((s.setb .obj (OBJ_STATUS n) 5 true).setb .obj (OBJ_TBL_CMD n) 31 false) := by
  change Host.Outcome.next (s.clsLoad n v) = _
  rw [State.clsLoad, if_neg (by simp [hgo])]
  exact congrArg Host.Outcome.next (if_pos (by simp [hbusy]))

theorem clsTblLoad_allowed (hidle : s.flag .obj (OBJ_STATUS n) 6 = false) (harm : s.flag .pix (PIX_ARM n) 31 = false)
    (htiles : hasTiles s n = true) (haddr : s.rd64 .obj (OBJ_TBL_ADDR_LO n) (OBJ_TBL_ADDR_HI n) % 64 = 0)
    (hswap : swapHolds s n = false) : exec (.clsTblLoad n v) s =
      .next (((s.clsBegun n).setb .obj (OBJ_TBL_CMD n) 31 true).setb .obj (OBJ_STATUS n) 6 true) := by
  change Host.Outcome.next (s.clsLoad n v) = _
  rw [State.clsLoad, if_neg (by simp [hgo])]
  exact congrArg Host.Outcome.next (if_neg (by simp [hidle, harm, htiles, haddr, hswap]))

theorem clsTblLoad_starts (hidle : s.flag .obj (OBJ_STATUS n) 6 = false) (harm : s.flag .pix (PIX_ARM n) 31 = false)
    (htiles : hasTiles s n = true) (haddr : s.rd64 .obj (OBJ_TBL_ADDR_LO n) (OBJ_TBL_ADDR_HI n) % 64 = 0)
    (hswap : swapHolds s n = false) : ∃ t, exec (.clsTblLoad n v) s = .next t ∧ t.flag .obj (OBJ_STATUS n) 6 = true ∧
      t.flag .obj (OBJ_TBL_CMD n) 31 = true ∧ t.pix.tile = (s.putOtherBank n (streamTiles s n) none).pix.tile ∧
      (t.objStream n).load = some (s.rd64 .obj (OBJ_TBL_ADDR_LO n) (OBJ_TBL_ADDR_HI n), streamTiles s n) ∧
      RegsKept .obj [OBJ_STATUS n, OBJ_TBL_CMD n] s t ∧ RegsKept .pix [] s t ∧ Kept [.obj, .pix] s t := by
  have hne : OBJ_TBL_CMD n ≠ OBJ_STATUS n := by simp
  have hbank : Kept [.pix] s (s.putOtherBank n (streamTiles s n) none) := .putOtherBank s n _ none
  have hbegun : Kept [.obj, .pix] s (s.clsBegun n) := (hbank.mono (by simp)).trans (.onObj _ n _ (by simp))
  refine ⟨_, clsTblLoad_allowed hgo hidle harm htiles haddr hswap, State.flag_setb_same _ _ _ _ _ (by decide), ?_, rfl, ?_,
    ?_, fun _ _ => rfl, (hbegun.trans (.setb _ .obj _ _ _ (by simp))).trans (.setb _ .obj _ _ _ (by simp))⟩
  · rw [State.flag_setb_ne _ _ _ _ _ _ _ hne, State.flag_setb_same _ _ _ _ _ (by decide)]
  · rw [State.setb_objStream, State.setb_objStream, State.clsBegun, State.onObj_objStream_same]
  · have hregs : RegsKept .obj [OBJ_STATUS n, OBJ_TBL_CMD n] s (s.clsBegun n) :=
      (hbank.regsKept (by simp) _).trans fun _ _ => State.rd_onObj ..
    exact (hregs.trans (.setb _ _ _ _ (by simp))).trans (.setb _ _ _ _ (by simp))

end

section
variable {n : Fin 96} {s : State}

theorem clsTblLoadDone_idle (h : (s.objStream n).load = none) : exec (.clsTblLoadDone n) s = .next s := by
  change execClsTblLoadDone n s = _
  rw [execClsTblLoadDone, h]

/-- The load is over: GO and BUSY are clear and nothing is noted. -/
def State.clsEnded (s : State) (n : Nat) : State :=
  ((s.setb .obj (OBJ_TBL_CMD n) 31 false).setb .obj (OBJ_STATUS n) 6 false).onObj n (fun x => { x with load := none })

theorem State.clsEnded_shows (s : State) (n : Nat) : (s.clsEnded n).flag .obj (OBJ_STATUS n) 6 = false ∧
    (s.clsEnded n).flag .obj (OBJ_TBL_CMD n) 31 = false ∧ ((s.clsEnded n).objStream n).load = none ∧
    (s.clsEnded n).flag .obj (OBJ_STATUS n) 5 = s.flag .obj (OBJ_STATUS n) 5 ∧ (s.clsEnded n).pix = s.pix ∧
    RegsKept .obj [OBJ_STATUS n, OBJ_TBL_CMD n] s (s.clsEnded n) ∧ Kept [.obj] s (s.clsEnded n) := by
  have hne : OBJ_TBL_CMD n ≠ OBJ_STATUS n := by simp
  have hkept : Kept [.obj] s (s.clsEnded n) :=
    ((Kept.setb s .obj _ _ _ (by simp)).trans (.setb _ .obj _ _ _ (by simp))).trans (.onObj _ n _ (by simp))
  refine ⟨?_, ?_, ?_, ?_, hkept.pix_eq (by simp), ?_, hkept⟩
  · rw [State.flag, State.clsEnded, State.rd_onObj, ← State.flag, State.flag_setb_same _ _ _ _ _ (by decide)]
  · rw [State.flag, State.clsEnded, State.rd_onObj, ← State.flag, State.flag_setb_ne _ _ _ _ _ _ _ hne,
      State.flag_setb_same _ _ _ _ _ (by decide)]
  · rw [State.clsEnded, State.onObj_objStream_same]
  · rw [State.flag, State.clsEnded, State.rd_onObj, ← State.flag, State.flag_setb_bit _ _ _ _ _ _ (by decide),
      State.flag_setb_ne _ _ _ _ _ _ _ hne.symm]
  · exact ((RegsKept.setb s _ _ _ (by simp)).trans (.setb _ _ _ _ (by simp))).trans fun _ _ => State.rd_onObj ..

variable {a : Nat} {tiles : List Nat} (hload : (s.objStream n).load = some (a, tiles))
include hload

/-- A load ends with the Erg's bytes in the bank not in use, or with LOAD_REJ where they cannot be used. -/
theorem execClsTblLoadDone_of_load : exec (.clsTblLoadDone n) s = .next (
    (if ergPoisoned s a 131072 then (s.ergMeet a 131072).setb .obj (OBJ_STATUS n) 5 true
    else (s.ergMeet a 131072).putOtherBank n tiles (some (ergRead s a 131072))).clsEnded n) := by
  change execClsTblLoadDone n s = _
  rw [execClsTblLoadDone, hload, ← (ErgHeld.ergMeet s a 131072).ergRead]
  rfl

theorem clsTblLoadDone_ends : ∃ t, exec (.clsTblLoadDone n) s = .next t ∧ t.flag .obj (OBJ_STATUS n) 6 = false ∧
    t.flag .obj (OBJ_TBL_CMD n) 31 = false ∧ (t.objStream n).load = none ∧
    (ergPoisoned s a 131072 = false → t.pix.tile = (s.putOtherBank n tiles (some (ergRead s a 131072))).pix.tile) ∧
    (ergPoisoned s a 131072 = true → t.flag .obj (OBJ_STATUS n) 5 = true ∧ t.pix = s.pix) ∧
    RegsKept .obj [OBJ_STATUS n, OBJ_TBL_CMD n] s t ∧ Kept [.obj, .pix, .erg, .flt] s t := by
  let u := s.ergMeet a 131072
  have hmeet : Kept [.erg, .flt] s u := .ergMeet s _ _
  have hpix : u.pix = s.pix := hmeet.pix_eq (by simp)
  have hregs : RegsKept .obj [OBJ_STATUS n, OBJ_TBL_CMD n] s u := hmeet.regsKept (by simp) _
  refine ⟨_, execClsTblLoadDone_of_load hload, ?_⟩
  split
  case isTrue hbad =>
    let w := u.setb .obj (OBJ_STATUS n) 5 true
    obtain ⟨hbusy, hcmd, hnone, hrej, hend, hkeptRegs, hkept⟩ := w.clsEnded_shows n
    have hw : Kept [.obj, .erg, .flt] s w := (hmeet.mono (by simp)).trans (.setb u .obj _ _ _ (by simp))
    exact ⟨hbusy, hcmd, hnone, fun hgood => absurd hbad (by simp [hgood]), fun _ =>
      ⟨hrej.trans (State.flag_setb_same _ _ _ _ _ (by decide)), hend.trans (hw.pix_eq (by simp))⟩,
      (hregs.trans (.setb u _ _ _ (by simp))).trans hkeptRegs, (hw.mono (by simp)).trans (hkept.mono (by simp))⟩
  case isFalse hok =>
    let w := u.putOtherBank n tiles (some (ergRead s a 131072))
    obtain ⟨hbusy, hcmd, hnone, -, hend, hkeptRegs, hkept⟩ := w.clsEnded_shows n
    have hbank : Kept [.pix] u w := .putOtherBank u n tiles _
    have hact : u.flag .obj (OBJ_STATUS n) 8 = s.flag .obj (OBJ_STATUS n) 8 :=
      congrArg (bit · 8) (hmeet.rd_eq (by simp) _)
    refine ⟨hbusy, hcmd, hnone, fun _ => ?_, fun hbad => absurd hbad hok, (hregs.trans (hbank.regsKept (by simp) _)).trans
      hkeptRegs, ((hmeet.mono (by simp)).trans (hbank.mono (by simp))).trans (hkept.mono (by simp))⟩
    exact (congrArg PixSt.tile hend).trans (State.tile_putOtherBank_congr (congrArg PixSt.tile hpix) hact tiles _)

end

/-! ### OBJ_OPEN (R162) -/

theorem State.fld_lt (s : State) (b : Blk) (a hi lo : Nat) : s.fld b a hi lo < 2 ^ (hi + 1 - lo) :=
  Nat.mod_lt _ (Nat.two_pow_pos _)

theorem objOpenWrite_peak (n : Fin 96) (s : State) : ∃ t, exec (.objOpenWrite n) s = .next t ∧
    t.fld .obj (OBJ_OPEN n) 28 16 = s.fld .obj (OBJ_OPEN n) 12 0 ∧
    t.fld .obj (OBJ_OPEN n) 12 0 = s.fld .obj (OBJ_OPEN n) 12 0 ∧ RegsKept .obj [OBJ_OPEN n] s t ∧
    t.obj = { s.obj with regs := t.obj.regs } ∧ Kept [.obj] s t := by
  refine ⟨s.put .obj (OBJ_OPEN n) 28 16 (s.fld .obj (OBJ_OPEN n) 12 0), rfl, ?_, ?_, .put s _ _ _ _ (by simp), rfl,
    .put s .obj _ _ _ _ (by simp)⟩
  · rw [State.fld_put_same _ _ _ _ _ _ (by decide) (by decide)]
    exact Nat.mod_eq_of_lt (s.fld_lt .obj (OBJ_OPEN n) 12 0)
  · exact State.fld_put_field _ _ _ _ _ _ _ _ (.inl (by decide))

/-! ### A view that is formed (R177, R191) -/

/-- Since its formation began a view has gone on through other stages: the close queue, the serial and the
instants of formation stand. -/
structure FormHeld (n : Nat) (s t : State) : Prop where
  closeQ : (t.objStream n).closeQ = (s.objStream n).closeQ
  serial : (t.objStream n).serial = (s.objStream n).serial
  formed : (t.objStream n).formed = (s.objStream n).formed
  lastFormed : t.obj.formed = s.obj.formed
  served : t.obj.served = s.obj.served
  kept : Kept [.obj, .erg] s t

theorem FormHeld.refl (n : Nat) (s : State) : FormHeld n s s := ⟨rfl, rfl, rfl, rfl, rfl, .refl _ s⟩

theorem FormHeld.trans {n : Nat} {s t u : State} (h : FormHeld n s t) (k : FormHeld n t u) : FormHeld n s u :=
  ⟨k.closeQ.trans h.closeQ, k.serial.trans h.serial, k.formed.trans h.formed, k.lastFormed.trans h.lastFormed,
    k.served.trans h.served, h.kept.trans k.kept⟩

theorem FormHeld.ite {n : Nat} {s t u : State} {c : Prop} [Decidable c] (ht : FormHeld n s t) (hu : FormHeld n s u) :
    FormHeld n s (if c then t else u) := by
  split
  · exact ht
  · exact hu

/-- A stream whose close queue, serial and instant of formation stand. -/
abbrev SameForm (x y : ObjStream) : Prop := y.closeQ = x.closeQ ∧ y.serial = x.serial ∧ y.formed = x.formed

section
variable (n : Nat) (s : State)

theorem FormHeld.onObj (m : Nat) {f : ObjStream → ObjStream} (hf : ∀ x, SameForm x (f x)) : FormHeld n s (s.onObj m f) := by
  have hsame : SameForm (s.objStream n) ((s.onObj m f).objStream n) := by
    by_cases h : n = m
    · rw [h, State.onObj_objStream_same]
      exact hf _
    · rw [State.onObj_objStream_ne s m n f h]
      exact ⟨rfl, rfl, rfl⟩
  obtain ⟨hclose, hserial, hformed⟩ := hsame
  exact ⟨hclose, hserial, hformed, rfl, rfl, .onObj s m f (by simp)⟩

theorem FormHeld.countBy (a k : Nat) : FormHeld n s (s.countBy .obj a k) := by
  refine ⟨?_, ?_, ?_, rfl, rfl, .countBy s .obj a k (by simp)⟩ <;> rw [State.countBy_objStream]

theorem FormHeld.of_erg {t : State} (h : Kept [.erg] s t) : FormHeld n s t := by
  have hobj : t.obj = s.obj := h.obj_eq (by simp)
  have hstream : t.objStream n = s.objStream n := congrArg (fun x : ObjSt => Tab.get (fun _ => ObjStream.init) x.stream n) hobj
  exact ⟨by rw [hstream], by rw [hstream], by rw [hstream], by rw [hobj], by rw [hobj], h.mono (by simp)⟩

theorem FormHeld.leaveAlone (v : ObjView) (unpaired : Bool) : FormHeld n s (s.leaveAlone v unpaired) := by
  unfold State.leaveAlone
  extract_lets s₁
  have h₁ : FormHeld n s s₁ := .ite (.countBy n s _ 1) (.refl n s)
  exact h₁.trans (.onObj n s₁ _ fun _ => ⟨rfl, rfl, rfl⟩)

theorem FormHeld.pairWait (v : ObjView) : FormHeld n s (s.pairWait v) := by
  unfold State.pairWait
  extract_lets s₁
  have h₁ : FormHeld n s s₁ := by
    unfold s₁
    split
    · next w ws _ =>
      have hleft : FormHeld n s (s.onObj v.stream (fun x => { x with wait := ws })) := .onObj n s _ fun _ => ⟨rfl, rfl, rfl⟩
      exact .ite (hleft.trans (.leaveAlone n _ w true)) (.refl n s)
    · exact .refl n s
  exact h₁.trans (.onObj n s₁ _ fun _ => ⟨rfl, rfl, rfl⟩)

theorem FormHeld.pairArrive (v : ObjView) : FormHeld n s (s.pairArrive v) := by
  unfold State.pairArrive
  split
  · exact .leaveAlone n s v false
  · extract_lets v' other cands
    split
    · extract_lets s₁ s₂ r
      have h₁ : FormHeld n s s₁ := .onObj n s other fun _ => ⟨rfl, rfl, rfl⟩
      have h₂ : FormHeld n s s₂ := h₁.trans (.countBy n s₁ _ 1)
      exact h₂.trans (.onObj n s₂ _ fun _ => ⟨rfl, rfl, rfl⟩)
    · exact .ite (.pairWait n s _) (.leaveAlone n s _ true)

theorem Kept.lbDirectory (t serial handle lnFirst height xMin xMax vflags : Nat) :
    Kept [.erg] s (s.lbDirectory t serial handle lnFirst height xMin xMax vflags) := by
  unfold State.lbDirectory
  split
  · exact .refl _ s
  · exact .ergWrite s _ _

theorem FormHeld.cutForm (t : Nat) (v : ObjView) : FormHeld n s (s.cutForm t v) :=
  .ite (.refl n s) ((FormHeld.countBy n s _ _).trans (.onObj n _ _ fun _ => ⟨rfl, rfl, rfl⟩))

end

/-! ### Pairs and records (R183 to R185) -/

/-- The pairs and the records that are ready are as before. -/
def PairHeld (s t : State) : Prop :=
  ∀ m, (t.objStream m).partner = (s.objStream m).partner ∧ (t.objStream m).ready = (s.objStream m).ready

theorem PairHeld.refl (s : State) : PairHeld s s := fun _ => ⟨rfl, rfl⟩

theorem PairHeld.trans {s t u : State} (h : PairHeld s t) (k : PairHeld t u) : PairHeld s u := fun m =>
  ⟨(k m).1.trans (h m).1, (k m).2.trans (h m).2⟩

theorem PairHeld.ite {s t u : State} {c : Prop} [Decidable c] (ht : PairHeld s t) (hu : PairHeld s u) :
    PairHeld s (if c then t else u) := by
  split
  · exact ht
  · exact hu

theorem PairHeld.countBy (s : State) (a k : Nat) : PairHeld s (s.countBy .obj a k) := fun m => by
  rw [State.countBy_objStream]
  exact ⟨rfl, rfl⟩

theorem PairHeld.onObj (s : State) (n : Nat) {f : ObjStream → ObjStream}
    (hf : (f (s.objStream n)).partner = (s.objStream n).partner ∧ (f (s.objStream n)).ready = (s.objStream n).ready) :
    PairHeld s (s.onObj n f) := fun m => by
  by_cases h : m = n
  · rw [h, State.onObj_objStream_same]
    exact hf
  · rw [State.onObj_objStream_ne s n m f h]
    exact ⟨rfl, rfl⟩

theorem PairHeld.of_obj {s t : State} (h : t.obj = s.obj) : PairHeld s t := fun m => by
  have hstream : t.objStream m = s.objStream m := congrArg (fun x : ObjSt => Tab.get (fun _ => ObjStream.init) x.stream m) h
  rw [hstream]
  exact ⟨rfl, rfl⟩

theorem PairHeld.cutForm (s : State) (t : Nat) (v : ObjView) : PairHeld s (s.cutForm t v) :=
  .ite (.refl s) ((PairHeld.countBy s _ _).trans (.onObj _ _ ⟨rfl, rfl⟩))

theorem PairHeld.pairOf {s t : State} (h : PairHeld s t) (n : Nat) : pairOf t n = pairOf s n := by
  unfold Machine.pairOf
  simp only [(h _).1]

/-! ### VIEW_FORM (R177, R191, R302, R308) -/

/-- The view of an object as it is formed now. -/
def formedView (s : State) (n : Nat) (o : Obj) : ObjView :=
  { obj := o, stream := n, serial := (s.objStream n).serial, epoch := (s.objStream n).epoch
    handle := handleOf (deviceId s) n (s.objStream n).serial, width := o.par.width, ncomp := o.csum.length, arrived := s.now
    leaveAt := s.now, isB := false }

/-- The head has left the close queue, the serial has gone on, and the instant of formation is noted. -/
def State.headFormed (s : State) (n : Nat) (rest : List Obj) : State :=
  let x := s.objStream n
  let s := s.setObj n { x with
    closeQ := rest, serial := (x.serial + 1) % 2 ^ 45, epoch := if (x.serial + 1) % 2 ^ 45 = 0 then !x.epoch else x.epoch
    formed := some s.now }
  { s with obj := { s.obj with formed := some s.now, served := n } }

/-- A formed view is counted, entered in the directory and given its cut-out. -/
def State.viewEntered (s : State) (n : Nat) (o : Obj) (v : ObjView) : State :=
  let s := if o.forced then s.count .obj (OBJ_CNT_FORCED n) else s
  let s := if o.incomplete then s.count .obj (OBJ_CNT_INCOMPLETE n) else s
  (s.lbDirectory n v.serial v.handle o.ln o.height o.xMin o.xMax (vflags v)).cutForm n v

theorem FormHeld.viewEntered (s : State) (m n : Nat) (o : Obj) (v : ObjView) : FormHeld m s (s.viewEntered n o v) := by
  unfold State.viewEntered
  extract_lets s₁ s₂
  have h₁ : FormHeld m s s₁ := .ite (.countBy m s _ 1) (.refl m s)
  have h₂ : FormHeld m s₁ s₂ := .ite (.countBy m s₁ _ 1) (.refl m s₁)
  exact ((h₁.trans h₂).trans (.of_erg m s₂ (.lbDirectory s₂ _ _ _ _ _ _ _ _))).trans (.cutForm m _ _ _)

theorem PairHeld.viewEntered (s : State) (n : Nat) (o : Obj) (v : ObjView) : PairHeld s (s.viewEntered n o v) := by
  unfold State.viewEntered
  extract_lets s₁ s₂
  have h₁ : PairHeld s s₁ := .ite (.countBy s _ 1) (.refl s)
  have h₂ : PairHeld s₁ s₂ := .ite (.countBy s₁ _ 1) (.refl s₁)
  exact ((h₁.trans h₂).trans (.of_obj ((Kept.lbDirectory s₂ _ _ _ _ _ _ _ _).obj_eq (by simp)))).trans (.cutForm _ _ _)

theorem State.headFormed_shows (s : State) (n : Nat) (rest : List Obj) :
    ((s.headFormed n rest).objStream n).closeQ = rest ∧
      ((s.headFormed n rest).objStream n).serial = ((s.objStream n).serial + 1) % 2 ^ 45 ∧
      ((s.headFormed n rest).objStream n).formed = some s.now ∧ PairHeld s (s.headFormed n rest) ∧
      Kept [.obj] s (s.headFormed n rest) := by
  have hstream : ∀ m, (s.headFormed n rest).objStream m = (s.setObj n _).objStream m := fun _ => rfl
  refine ⟨?_, ?_, ?_, fun m => ?_, by simp [Kept, State.headFormed, State.setObj]⟩
  · rw [hstream, State.setObj_objStream_same]
  · rw [hstream, State.setObj_objStream_same]
  · rw [hstream, State.setObj_objStream_same]
  · rw [hstream]
    by_cases h : m = n
    · rw [h, State.setObj_objStream_same]
      exact ⟨rfl, rfl⟩
    · rw [State.setObj_objStream_ne _ _ _ _ h]
      exact ⟨rfl, rfl⟩

theorem formView_of_head {n : Nat} {s : State} {o : Obj} {rest : List Obj}
    (hhead : (s.objStream n).closeQ = o :: rest) : s.formView n =
    ((s.headFormed n rest).viewEntered n o (formedView s n o)).pairArrive (formedView s n o) := by
  rw [State.formView, hhead]
  rfl

section
variable {n : Fin 96} {err : Fin 3} {s : State}

theorem viewForm_waits (h : viewDue s n = false) : exec (.viewForm n err) s = .next s :=
  congrArg Host.Outcome.next (if_pos (by simp [h]))

variable {o : Obj} {rest : List Obj} (hdue : viewDue s n = true) (hhead : (s.objStream n).closeQ = o :: rest)
include hdue hhead

/-- An entry that cannot be corrected leaves the queue as a lost object. -/
theorem viewForm_loses (herr : err = 2) : ∃ t, exec (.viewForm n err) s = .next t ∧
    t.objStream n = { s.objStream n with closeQ := rest, lost := some (LostSt.add (s.objStream n).lost o) } ∧
    t.rd .obj (OBJ_CNT_LOST n) = satAdd (s.rd .obj (OBJ_CNT_LOST n)) 1 ∧ t.flag .obj (OBJ_STATUS n) 2 = true ∧
    RegsKept .obj [OBJ_CNT_LOST n, OBJ_STATUS n] s t ∧ Kept [.obj] s t := by
  let u := s.onObj n (fun x => { x with closeQ := rest })
  have hrd : ∀ a, u.rd .obj a = s.rd .obj a := fun _ => State.rd_onObj ..
  have hlost : s.formLost n = u.loseObj n o := by
    rw [State.formLost, hhead]
  have hexec : exec (.viewForm n err) s = .next (u.loseObj n o) := by
    rw [← hlost]
    exact congrArg Host.Outcome.next ((if_neg (by simp [hdue])).trans (if_pos (by rw [herr]; rfl)))
  have hne : OBJ_CNT_LOST n ≠ OBJ_STATUS n := by simp
  refine ⟨_, hexec, ?_, ?_, ?_, ?_, ?_⟩
  · rw [State.loseObj, State.onObj_objStream_same, State.setb_objStream, State.count_objStream, State.onObj_objStream_same]
  · rw [State.loseObj, State.rd_onObj, State.rd_setb_ne _ _ _ _ _ _ hne, State.rd_count, hrd]
  · rw [State.loseObj, State.flag, State.rd_onObj, ← State.flag, State.flag_setb_same _ _ _ _ _ (by decide)]
  · have hregs : RegsKept .obj [OBJ_CNT_LOST n, OBJ_STATUS n] s u := fun a _ => hrd a
    exact ((hregs.trans (.count _ _ (by simp))).trans (.setb _ _ _ _ (by simp))).trans fun _ _ => State.rd_onObj ..
  · exact (((Kept.onObj s n _ (by simp)).trans (.count u .obj _ (by simp))).trans (.setb _ .obj _ _ _ (by simp))).trans
      (.onObj _ n _ (by simp))

/-- A due view takes the next serial and leaves the close queue; without a partner it is a record of its own. -/
theorem viewForm_forms (herr : err ≠ 2) : ∃ t, exec (.viewForm n err) s = .next t ∧ (t.objStream n).closeQ = rest ∧
    (t.objStream n).serial = ((s.objStream n).serial + 1) % 2 ^ 45 ∧ (t.objStream n).formed = some s.now ∧
    t.obj.formed = some s.now ∧ t.obj.served = n.val ∧
    (pairOf s n = none → ∃ v, (t.objStream n).ready = (s.objStream n).ready ++ [⟨some v, none, false, false⟩] ∧
      v.obj = o ∧ v.stream = n.val ∧ v.serial = (s.objStream n).serial ∧ v.arrived = s.now ∧ v.isB = false) ∧
    Kept [.obj, .erg] s t := by
  let v := formedView s n o
  let w := s.headFormed n rest
  let u := w.viewEntered n o v
  obtain ⟨hclose, hserial, hformed, hpair, hkept⟩ := s.headFormed_shows n rest
  have hheld : FormHeld n w (u.pairArrive v) := (FormHeld.viewEntered w n n o v).trans (.pairArrive n u v)
  have hexec : exec (.viewForm n err) s = .next (u.pairArrive v) := by
    rw [← formView_of_head hhead]
    exact congrArg Host.Outcome.next ((if_neg (by simp [hdue])).trans (if_neg fun h => herr (Fin.ext h)))
  refine ⟨_, hexec, hheld.closeQ.trans hclose, hheld.serial.trans hserial, hheld.formed.trans hformed, hheld.lastFormed,
    hheld.served, fun hnone => ⟨v, ?_, rfl, rfl, rfl, rfl, rfl⟩, (hkept.mono (by simp)).trans hheld.kept⟩
  have hu : PairHeld s u := hpair.trans (.viewEntered w n o v)
  have halone : u.pairArrive v = u.leaveAlone v false := by
    have hnone' : pairOf u v.stream = none := (hu.pairOf n).trans hnone
    rw [State.pairArrive, hnone']
  rw [halone, ← (hu n).2]
  exact congrArg ObjStream.ready (State.onObj_objStream_same u n _)

end

/-! ### PAIR_WAIT_EXPIRED (R185) -/

section
variable {n : Fin 96} {s : State} {w : ObjView} {ws : List ObjView} (hwait : (s.objStream n).wait = w :: ws)
include hwait

theorem pairWaitExpired_of_wait : exec (.pairWaitExpired n) s = .next (
    if w.leaveAt < s.now then (s.onObj n (fun x => { x with wait := ws })).leaveAlone w true else s) := by
  change execPairWaitExpired n s = _
  rw [execPairWaitExpired, hwait]

theorem pairWaitExpired_early (h : s.now ≤ w.leaveAt) : exec (.pairWaitExpired n) s = .next s :=
  (pairWaitExpired_of_wait hwait).trans (congrArg Host.Outcome.next (if_neg (by omega)))

/-- The oldest waiting view leaves as an unpaired record of its own. -/
theorem pairWaitExpired_leaves (hstream : w.stream = n.val) (h : w.leaveAt < s.now) : ∃ t,
    exec (.pairWaitExpired n) s = .next t ∧ (t.objStream n).wait = ws ∧
      (t.objStream n).ready = (s.objStream n).ready ++
        [⟨if w.isB then none else some w, if w.isB then some w else none, false, true⟩] ∧
      t.rd .obj (OBJ_CNT_UNPAIRED n) = satAdd (s.rd .obj (OBJ_CNT_UNPAIRED n)) 1 ∧
      RegsKept .obj [OBJ_CNT_UNPAIRED n] s t ∧ Kept [.obj] s t := by
  let u := s.onObj n (fun x => { x with wait := ws })
  have hrd : ∀ a, u.rd .obj a = s.rd .obj a := fun _ => State.rd_onObj ..
  have hleave : u.leaveAlone w true = (u.count .obj (OBJ_CNT_UNPAIRED n)).onObj n (fun x => { x with ready := x.ready ++
      [⟨if w.isB then none else some w, if w.isB then some w else none, false, true⟩] }) := by
    rw [State.leaveAlone, if_pos rfl, hstream]
  refine ⟨_, (pairWaitExpired_of_wait hwait).trans (congrArg Host.Outcome.next ((if_pos h).trans hleave)), ?_, ?_, ?_, ?_, ?_⟩
  · rw [State.onObj_objStream_same, State.count_objStream, State.onObj_objStream_same]
  · rw [State.onObj_objStream_same, State.count_objStream, State.onObj_objStream_same]
  · rw [State.rd_onObj, State.rd_count, hrd]
  · have hregs : RegsKept .obj [OBJ_CNT_UNPAIRED n] s u := fun a _ => hrd a
    exact (hregs.trans (.count _ _ (by simp))).trans fun _ _ => State.rd_onObj ..
  · exact ((Kept.onObj s n _ (by simp)).trans (.count _ .obj _ (by simp))).trans (.onObj _ n _ (by simp))

end

end Sys2Proof.Machine

end

/-! ## Objects: cut-outs and the release of records (R179 to R192, R302) -/

section

namespace Sys2Proof.Machine

/-! ### The cut-outs of a view (R182) -/

section
variable (s : State) (n serial : Nat)

theorem State.objStream_onCut (f : CutJob → CutJob) : (s.onCut n serial f).objStream n = { s.objStream n with
    cuts := (s.objStream n).cuts.map (fun j => if j.view.serial = serial then f j else j) } := State.onObj_objStream_same ..

/-- The cut-out of a view is as the change leaves it. -/
theorem State.cut_onCut {f : CutJob → CutJob} {k : CutJob} (hk : k ∈ ((s.onCut n serial f).objStream n).cuts)
    (hserial : k.view.serial = serial) : ∃ i, k = f i := by
  rw [State.objStream_onCut, List.mem_map] at hk
  obtain ⟨i, -, hi⟩ := hk
  split at hi
  · exact ⟨i, hi.symm⟩
  · next hne => exact absurd (hi ▸ hserial) hne

theorem RegsKept.onCut (f : CutJob → CutJob) : RegsKept .obj [] s (s.onCut n serial f) := fun _ _ => State.rd_onObj ..

theorem Kept.onCut (f : CutJob → CutJob) : Kept [.obj] s (s.onCut n serial f) := .onObj s n _ (by simp)

/-- A dropped cut-out is counted and flagged; the staging ring stands. -/
theorem State.cutDrop_drops {a : Nat} (ha : a ≠ OBJ_STATUS n) :
    ((s.cutDrop n serial a).objStream n).staging = (s.objStream n).staging ∧
      (s.cutDrop n serial a).rd .obj a = satAdd (s.rd .obj a) 1 ∧ (s.cutDrop n serial a).flag .obj (OBJ_STATUS n) 1 = true ∧
      (∀ k ∈ ((s.cutDrop n serial a).objStream n).cuts, k.view.serial = serial → k.st = .dropped) ∧
      RegsKept .obj [a, OBJ_STATUS n] s (s.cutDrop n serial a) ∧ Kept [.obj] s (s.cutDrop n serial a) := by
  let u := (s.count .obj a).setb .obj (OBJ_STATUS n) 1 true
  have hregs : RegsKept .obj [a, OBJ_STATUS n] s u := (RegsKept.count s _ (by simp)).trans (.setb _ _ _ _ (by simp))
  have hcut : RegsKept .obj [] u (s.cutDrop n serial a) := .onCut u n serial _
  have hkept : Kept [.obj] s u := (Kept.count s .obj _ (by simp)).trans (.setb _ .obj _ _ _ (by simp))
  refine ⟨?_, ?_, ?_, fun k hk hserial => ?_, hregs.trans (hcut.mono (by simp)), hkept.trans (.onCut u n serial _)⟩
  · rw [State.cutDrop, State.objStream_onCut, State.setb_objStream, State.count_objStream]
  · rw [hcut _ (by simp), State.rd_setb_ne _ _ _ _ _ _ ha, State.rd_count]
  · rw [hcut.flag_eq (by simp), State.flag_setb_same _ _ _ _ _ (by decide)]
  · obtain ⟨i, rfl⟩ := State.cut_onCut u n serial hk hserial
    rfl

end

/-! ### CUTOUT_WRITE_START (R179, R182) -/

/-- Bytes of the cut-out of a job whose rows are settled. -/
def cutSize (r : CutJob) : Nat :=
  (cutShape (r.col1 + 1 - r.col0) (r.row1 + 1 - r.row0) (2 ^ bits r.view.obj.par.cut 28 27) r.view.ncomp
    (bit r.view.obj.par.cut 30)).2.2.2.2

/-- A cut-out is being written at its place in the staging ring. -/
def State.cutPlaced (s : State) (n : Nat) (r : CutJob) (a : Nat) : State :=
  (s.onCut n r.view.serial (fun _ => { r with st := .writing, addr := a, size := cutSize r })).onObj n
    (fun x => { x with staging := x.staging ++ [⟨a, cutSize r, r.view.handle, false, 0, none, []⟩] })

theorem State.cutPlaced_places (s : State) (n : Nat) (r : CutJob) (a : Nat) :
    ((s.cutPlaced n r a).objStream n).staging =
      (s.objStream n).staging ++ [⟨a, cutSize r, r.view.handle, false, 0, none, []⟩] ∧
    (∀ k ∈ ((s.cutPlaced n r a).objStream n).cuts, k.view.serial = r.view.serial →
      k.st = .writing ∧ k.addr = a ∧ k.size = cutSize r) ∧
    RegsKept .obj [] s (s.cutPlaced n r a) ∧ Kept [.obj] s (s.cutPlaced n r a) := by
  let u := s.onCut n r.view.serial (fun _ => { r with st := .writing, addr := a, size := cutSize r })
  refine ⟨?_, fun k hk hserial => ?_, (RegsKept.onCut s n _ _).trans fun _ _ => State.rd_onObj ..,
    (Kept.onCut s n _ _).trans (.onObj u n _ (by simp))⟩
  · rw [State.cutPlaced, State.onObj_objStream_same, State.objStream_onCut]
  · rw [State.cutPlaced, State.onObj_objStream_same] at hk
    obtain ⟨i, rfl⟩ := State.cut_onCut s n _ hk hserial
    exact ⟨rfl, rfl, rfl⟩

/-- The staging ring decides: the cut-out has a place there, or it is dropped. -/
theorem cutStart_of_region {n : Nat} {s : State} {j : CutJob} {g : RegEnt} (hmap : mapRegion s n 2 = some g) : s.cutStart n j =
    match stagePlace (g.first * segBytes) ((g.first + g.count) * segBytes) (cutSize (clipRows s n j))
      (s.objStream n).staging with
    | none => s.cutDrop n j.view.serial (OBJ_CNT_CUT_DROP n)
    | some a => s.cutPlaced n (clipRows s n j) a := by
  rw [State.cutStart, hmap]
  rfl

section
variable {n : Fin 96} {s : State} {j : CutJob} (hfind : (s.objStream n).cuts.find? (fun j => j.st == .waiting) = some j)
include hfind

theorem cutoutWriteStart_of_waiting : exec (.cutoutWriteStart n) s =
    .next (if cutCanStart s n j then s.cutStart n j else s) := by
  change execCutoutWriteStart n s = _
  rw [execCutoutWriteStart, hfind]

theorem cutoutWriteStart_waits (h : cutCanStart s n j = false) : exec (.cutoutWriteStart n) s = .next s :=
  (cutoutWriteStart_of_waiting hfind).trans (congrArg Host.Outcome.next (if_neg (by simp [h])))

/-- A cut-out whose writer may start has its place in the staging ring, or is dropped and counted. -/
theorem cutoutWriteStart_starts (g : RegEnt) (r : CutJob) (size : Nat) (hcan : cutCanStart s n j = true)
    (hmap : mapRegion s n 2 = some g) (hr : r = clipRows s n j)
    (hsize : size = (cutShape (r.col1 + 1 - r.col0) (r.row1 + 1 - r.row0) (2 ^ bits j.view.obj.par.cut 28 27) j.view.ncomp
      (bit j.view.obj.par.cut 30)).2.2.2.2) : ∃ t, exec (.cutoutWriteStart n) s = .next t ∧
    (match stagePlace (g.first * segBytes) ((g.first + g.count) * segBytes) size (s.objStream n).staging with
      | some a => (t.objStream n).staging = (s.objStream n).staging ++ [⟨a, size, j.view.handle, false, 0, none, []⟩] ∧
          (∀ k ∈ (t.objStream n).cuts, k.view.serial = j.view.serial → k.st = .writing ∧ k.addr = a ∧ k.size = size)
      | none => (t.objStream n).staging = (s.objStream n).staging ∧
          t.rd .obj (OBJ_CNT_CUT_DROP n) = satAdd (s.rd .obj (OBJ_CNT_CUT_DROP n)) 1 ∧
          t.flag .obj (OBJ_STATUS n) 1 = true ∧
          (∀ k ∈ (t.objStream n).cuts, k.view.serial = j.view.serial → k.st = .dropped)) ∧
    RegsKept .obj [OBJ_CNT_CUT_DROP n, OBJ_STATUS n] s t ∧ Kept [.obj] s t := by
  have hsize' : size = cutSize (clipRows s n j) := by rw [hsize, hr]; rfl
  have hexec := (cutoutWriteStart_of_waiting hfind).trans (congrArg Host.Outcome.next (if_pos hcan))
  rw [cutStart_of_region hmap, ← hsize'] at hexec
  generalize stagePlace (g.first * segBytes) ((g.first + g.count) * segBytes) size (s.objStream n).staging = place at hexec ⊢
  refine ⟨_, hexec, ?_⟩
  cases place with
  | some a =>
    obtain ⟨hstaging, hcuts, hregs, hkept⟩ := s.cutPlaced_places n (clipRows s n j) a
    rw [← hsize'] at hstaging hcuts
    exact ⟨⟨hstaging, hcuts⟩, hregs.mono (by simp), hkept⟩
  | none =>
    obtain ⟨hstaging, hcount, hflag, hcuts, hregs, hkept⟩ :=
      s.cutDrop_drops n j.view.serial (show OBJ_CNT_CUT_DROP n ≠ OBJ_STATUS n by simp)
    exact ⟨⟨hstaging, hcount, hflag, hcuts⟩, hregs, hkept⟩

end

/-! ### CUTOUT_WRITE_DONE and CUTOUT_LATE (R180 to R182, R304) -/

theorem Kept.cutMeet (s : State) (n : Nat) (j : CutJob) : Kept [.erg, .flt] s (s.cutMeet n j) :=
  .each _ (fun t _ => .ergMeet t _ _) _ s

section
variable {n : Fin 96} {s : State} {j : CutJob}

/-- A cut-out in writing is written with its bytes. -/
theorem cutoutWriteDone_writes (hfind : (s.objStream n).cuts.find? (fun j => j.st == .writing) = some j) : ∃ t,
    exec (.cutoutWriteDone n) s = .next t ∧ t.erg = ((s.cutMeet n j).ergWrite j.addr (cutBytes s n j).1).erg ∧
      (∀ k ∈ (t.objStream n).cuts, k.view.serial = j.view.serial → k.st = .written) ∧
      (t.objStream n).staging = (s.objStream n).staging ∧ RegsKept .obj [] s t ∧ Kept [.obj, .erg, .flt] s t := by
  let u := (s.cutMeet n j).ergWrite j.addr (cutBytes s n j).1
  have hu : Kept [.erg, .flt] s u := (Kept.cutMeet s n j).trans ((Kept.ergWrite _ _ _).mono (by simp))
  have hobj : u.obj = s.obj := hu.obj_eq (by simp)
  have hexec : exec (.cutoutWriteDone n) s = .next (s.cutDone n j) := by
    change execCutoutWriteDone n s = _
    rw [execCutoutWriteDone, hfind]
  refine ⟨_, hexec, rfl, fun k hk hserial => ?_, ?_, (hu.regsKept (by simp) []).trans (.onCut u n _ _),
    (hu.mono (by simp)).trans ((Kept.onCut u n _ _).mono (by simp))⟩
  · obtain ⟨i, rfl⟩ := State.cut_onCut u n _ hk hserial
    rfl
  · rw [State.cutDone, State.objStream_onCut]
    exact congrArg (fun x : ObjSt => (Tab.get (fun _ => ObjStream.init) x.stream n).staging) hobj

/-- A cut-out that is late is dropped, and its place in the staging ring released. -/
theorem cutoutLate_drops (hfind : (s.objStream n).cuts.find? (fun j => (j.st == .writing || j.st == .waiting) &&
      decide (j.view.obj.closedAt + 1000 * bits j.view.obj.par.cut 9 0 ≤ s.now)) = some j) : ∃ t,
    exec (.cutoutLate n) s = .next t ∧ t.rd .obj (OBJ_CNT_CUT_LATE n) = satAdd (s.rd .obj (OBJ_CNT_CUT_LATE n)) 1 ∧
      t.flag .obj (OBJ_STATUS n) 1 = true ∧
      (∀ k ∈ (t.objStream n).cuts, k.view.serial = j.view.serial → k.st = .dropped) ∧
      RegsKept .obj [OBJ_CNT_CUT_LATE n, OBJ_STATUS n] s t ∧ Kept [.obj] s t := by
  obtain ⟨-, hcount, hflag, hcuts, hregs, hkept⟩ :=
    s.cutDrop_drops n j.view.serial (show OBJ_CNT_CUT_LATE n ≠ OBJ_STATUS n by simp)
  let u := s.cutDrop n j.view.serial (OBJ_CNT_CUT_LATE n)
  let t := u.onObj n (fun x => { x with staging := reapStaged u.now (x.staging.map (fun e =>
    if e.handle = j.view.handle then { e with released := true, freeAt := some u.now } else e)) })
  have hrd : ∀ a, t.rd .obj a = u.rd .obj a := fun _ => State.rd_onObj ..
  have hexec : exec (.cutoutLate n) s = .next t := by
    change execCutoutLate n s = _
    rw [execCutoutLate, hfind]
  refine ⟨t, hexec, (hrd _).trans hcount, (congrArg (bit · 1) (hrd _)).trans hflag, fun k hk => hcuts k ?_,
    hregs.trans fun a _ => hrd a, hkept.trans (.onObj u n _ (by simp))⟩
  rwa [State.onObj_objStream_same] at hk

end

/-! ### What a record's way to its queue leaves (R190, R194 to R201, R268, R308 to R314, R357) -/

/-- The blocks that the release of a record touches. -/
abbrev releaseBlks : List Blk := [.cvn, .ejt, .erg, .flt, .host, .obj]

/-- The records that are ready and the cut-outs are as before, and so are the blocks a release does not touch. -/
structure RecordsHeld (s t : State) : Prop where
  lists : ∀ m, (t.objStream m).ready = (s.objStream m).ready ∧ (t.objStream m).cuts = (s.objStream m).cuts
  kept : BlocksKept releaseBlks s t

theorem RecordsHeld.refl (s : State) : RecordsHeld s s := ⟨fun _ => ⟨rfl, rfl⟩, .refl s _⟩

theorem RecordsHeld.trans {s t u : State} (h : RecordsHeld s t) (k : RecordsHeld t u) : RecordsHeld s u :=
  ⟨fun m => ⟨(k.lists m).1.trans (h.lists m).1, (k.lists m).2.trans (h.lists m).2⟩, h.kept.trans k.kept⟩

theorem RecordsHeld.ite {s t u : State} {c : Prop} [Decidable c] (ht : RecordsHeld s t) (hu : RecordsHeld s u) :
    RecordsHeld s (if c then t else u) := by
  split
  · exact ht
  · exact hu

theorem RecordsHeld.each {α : Type} {f : State → α → State} (hf : ∀ s x, RecordsHeld s (f s x)) (l : List α) (s : State) :
    RecordsHeld s (s.each l f) := State.each_rel .refl (fun _ _ _ => .trans) fun t x _ => hf t x

/-- An operation on the other blocks of a release leaves the object block alone. -/
theorem RecordsHeld.of_kept {s t : State} {bs : List Blk} (h : Kept bs s t)
    (hbs : ∀ b ∈ bs, b ∈ ([.cvn, .ejt, .erg, .flt, .host] : List Blk)) : RecordsHeld s t := by
  have hstream : ∀ m, t.objStream m = s.objStream m := fun m =>
    congrArg (fun x : ObjSt => Tab.get (fun _ => ObjStream.init) x.stream m) ((h.mono hbs).obj_eq (by simp))
  exact ⟨fun m => by rw [hstream]; exact ⟨rfl, rfl⟩, (h.mono hbs).blocks.mono (by simp)⟩

/-- A stream whose ready records and cut-outs stand. -/
abbrev SameRecords (x y : ObjStream) : Prop := y.ready = x.ready ∧ y.cuts = x.cuts

section
variable (s : State)

theorem RecordsHeld.onObj (n : Nat) {f : ObjStream → ObjStream} (hf : ∀ x, SameRecords x (f x)) :
    RecordsHeld s (s.onObj n f) := by
  refine ⟨fun m => ?_, (Kept.onObj s n f (by simp)).blocks⟩
  by_cases h : m = n
  · rw [h, State.onObj_objStream_same]
    exact hf _
  · rw [State.onObj_objStream_ne s n m f h]
    exact ⟨rfl, rfl⟩

theorem RecordsHeld.draw : RecordsHeld s s.draw := ⟨fun _ => ⟨rfl, rfl⟩, .draw _ s⟩

theorem RecordsHeld.answer (v : Word) : RecordsHeld s (s.answer v) :=
  ⟨fun _ => ⟨rfl, rfl⟩, by simp [BlocksKept, State.answer]⟩

theorem RecordsHeld.withHost (x : HostSt) : RecordsHeld s { s with host := x } :=
  .of_kept (Kept.withHost (bs := [.host]) s x (by simp)) (by simp)

/-! #### Queues -/

theorem RecordsHeld.onStaged (rec : List Byte) (f : Staged → Staged) : RecordsHeld s (s.onStaged rec f) :=
  .ite (.refl s) (.each (fun t m => .onObj t m (f := fun x => { x with
    staging := reapStaged t.now (x.staging.map (fun e =>
      if e.released ∧ 0 < e.copies ∧ e.handle = leAt rec 8 8 then f e else e)) }) fun _ => ⟨rfl, rfl⟩) _ s)

theorem RecordsHeld.itemGone (q : Nat) (it : List Dword) : RecordsHeld s (s.itemGone q it) := by
  unfold State.itemGone
  split
  · exact .ite (.onStaged s _ _) (.refl s)
  · exact .refl s

theorem RecordsHeld.itemLeft (q : Nat) (it : List Dword) : RecordsHeld s (s.itemLeft q it) := by
  unfold State.itemLeft
  extract_lets s₁ t l host s₂
  have h₁ : RecordsHeld s s₁ := .itemGone s q it
  have h₂ : RecordsHeld s₁ s₂ := by
    unfold s₂
    split
    · exact .withHost s₁ _
    · exact .refl s₁
  exact .ite h₁ ((h₁.trans h₂).trans (.withHost s₂ _))

theorem RecordsHeld.setQ (q : Nat) (x : ErgQ) : RecordsHeld s (s.setQ q x) := .of_kept (Kept.setQ x) (by simp)

theorem RecordsHeld.ergWrite (a : Nat) (bs : List Byte) : RecordsHeld s (s.ergWrite a bs) :=
  .of_kept (Kept.ergWrite s a bs) (by simp)

theorem RecordsHeld.qWrite (q : Nat) (it : List Dword) : RecordsHeld s (s.qWrite q it) :=
  (RecordsHeld.each (fun t _ => .ergWrite t _ _) _ s).trans (.setQ _ q _)

theorem Kept.ergStrike (a : Nat) (double : Bool) : Kept [.erg] s (s.ergStrike a double) :=
  .ite (.withErg s _ (by simp)) (.ite (.refl _ s) (.withErg s _ (by simp)))

theorem RecordsHeld.qPop (q err : Nat) : RecordsHeld s (s.qPop q err) := by
  unfold State.qPop
  extract_lets x₀ a s₁ bad s₂ s₃ free s₄ x
  have h₁ : RecordsHeld s s₁ := .ite (.refl s) (.of_kept (Kept.ergStrike s a _) (by simp))
  have h₂ : RecordsHeld s s₂ := h₁.trans (.of_kept (Kept.qMeet s₁ q 1) (by simp))
  have h₃ : RecordsHeld s s₃ := .ite (h₂.trans (.of_kept (Kept.setb (bs := [.erg]) s₂ .erg _ _ _ (by simp)) (by simp))) h₂
  have h₄ : RecordsHeld s s₄ := .ite (h₃.trans (.draw s₃)) h₃
  refine .ite ((RecordsHeld.setQ s q _).trans (.answer _ _)) (.ite (.answer s _) (.ite (.setQ s q _) ?_))
  split
  · exact (h₄.trans (.setQ s₄ q _)).trans (.answer _ _)
  · exact ((h₄.trans (.setQ s₄ q _)).trans (.itemLeft _ q _)).trans (.answer _ _)
  · exact h₄

theorem RecordsHeld.qServe (q : Nat) : RecordsHeld s (s.qServe q) := .ite ((RecordsHeld.setQ s q _).trans (.qPop _ q 0)) (.refl s)

/-- An item that does not stay is counted with its queue. -/
theorem RecordsHeld.countDropped (q : Nat) : RecordsHeld s (s.count (if q < 384 then .erg else .cvn)
    (if q < 384 then qAddr q 0x14 else CVN_CNT_HO_DROP)) := by
  have hblk : (if q < 384 then Blk.erg else .cvn) ∈ [Blk.cvn, .erg] := by split <;> simp
  exact .of_kept (.count s _ _ hblk) (by simp)

theorem RecordsHeld.qDrop (q : Nat) (it : List Dword) : RecordsHeld s (s.qDrop q it) := by
  unfold State.qDrop
  extract_lets x first s₁ s₂ cs
  have h₁ : RecordsHeld s s₁ := (RecordsHeld.setQ s q _).trans (.countDropped _ q)
  have h₂ : RecordsHeld s s₂ := h₁.trans (.itemGone s₁ q it)
  exact .ite (h₂.trans (.each (fun t _ => .withHost t _) cs s₂)) h₂

theorem RecordsHeld.qRewind (q : Nat) (it : List Dword) : RecordsHeld s (s.qRewind q it) :=
  ((RecordsHeld.setQ s q _).trans (.countDropped _ q)).trans (.itemGone _ q it)

theorem RecordsHeld.qPush (q : Nat) (payload : List Dword) : RecordsHeld s (s.qPush q payload) := by
  unfold State.qPush
  extract_lets it x s₁
  have h₁ : RecordsHeld s s₁ := .ite (.refl s) ((RecordsHeld.setQ s q _).trans (.qWrite _ q _))
  exact .ite (.refl s) (.ite (.qDrop s q it) (.ite ((h₁.trans (.qServe s₁ q)).trans (.qRewind _ q it))
    ((h₁.trans (.qWrite s₁ q it)).trans (.qServe _ q))))

/-! #### Handover and the verdict stage -/

theorem Kept.handover (n : Nat) (rec : List Byte) : Kept [.cvn] s (s.handover n rec).1 := by
  unfold State.handover
  extract_lets h
  split
  · exact .refl _ s
  · split
    · next p _ =>
      extract_lets s₁ cvn s₂
      have h₁ : Kept [.cvn] s s₁ := .each _ (fun t _ => .onCv t p _ (by simp)) _ s
      have h₂ : Kept [.cvn] s₁ s₂ := by simp [Kept, s₂, cvn]
      exact (h₁.trans h₂).trans (.count s₂ .cvn _ (by simp))
    · exact .count s .cvn _ (by simp)

theorem Kept.releaseDeadline (r : Release) (vs : Option (Nat × Nat)) : Kept [.ejt] s (releaseDeadline s r vs).2 := by
  unfold Machine.releaseDeadline
  split
  · exact .count s .ejt _ (by simp)
  · split
    · exact .count s .ejt _ (by simp)
    · exact .refl _ s

theorem Kept.addRec (v : VRec) : Kept [.ejt] s (s.addRec v) := by
  have hadd : Kept [.ejt] s { s with ejt := { s.ejt with recs := s.ejt.recs ++ [v] } } := by simp [Kept]
  unfold State.addRec State.pendSync
  exact hadd.trans (.ite ((Kept.put _ .ejt _ _ _ _ (by simp)).trans (.put _ .ejt _ _ _ _ (by simp)))
    (.put _ .ejt _ _ _ _ (by simp)))

theorem Kept.settleRec (v : VRec) (src : VSource) (action : Nat) : Kept [.ejt] s (s.settleRec v src action).1 := by
  unfold State.settleRec
  extract_lets p s₁ s₂ s₃
  have h₁ : Kept [.ejt] s s₁ := .count s .ejt _ (by simp)
  have h₂ : Kept [.ejt] s s₂ := .ite (h₁.trans (.count s₁ .ejt _ (by simp))) h₁
  exact .ite (h₂.trans (.count s₂ .ejt _ (by simp))) h₂

theorem Kept.settleByRule (v : VRec) : Kept [.ejt] s (s.settleByRule v).1 := by
  unfold State.settleByRule
  split
  · exact .settleRec s v _ _
  · exact .settleRec s v _ _

theorem RecordsHeld.lostRelease (r : Release) : RecordsHeld s (s.lostRelease r) := by
  unfold State.lostRelease
  extract_lets eject vs p s₁ v dl bytes s₂
  have h₁ : RecordsHeld s s₁ := by
    unfold s₁ p
    split
    · exact .of_kept (.releaseDeadline s r vs) (by simp)
    · exact .refl s
  have h₂ : RecordsHeld s s₂ := h₁.trans (.qPush s₁ _ _)
  split
  · exact h₂
  · exact h₂.trans (.of_kept ((Kept.count s₂ .ejt _ (by simp)).trans (.addRec _ _)) (by simp))

theorem RecordsHeld.lostOut (n : Nat) : RecordsHeld s (s.lostOut n) := by
  unfold State.lostOut
  split
  · extract_lets r s₁ h
    have h₁ : RecordsHeld s s₁ := .onObj s n fun _ => ⟨rfl, rfl⟩
    have h₂ : RecordsHeld s h.1 := h₁.trans (.of_kept (.handover s₁ n _) (by simp))
    exact .ite h₂ (h₂.trans (.lostRelease _ r))
  · exact .refl s

theorem RecordsHeld.pushSettled (v : VRec) : RecordsHeld s (s.pushSettled v).1 := .qPush s _ _

theorem RecordsHeld.verdictRelease (r : Release) : RecordsHeld s (s.verdictRelease r) := by
  unfold State.verdictRelease
  extract_lets vs p s₁ v dl f bytes ev ri bytes' s₂ r₀ rec0 q q' full s₃ q''
  have h₁ : RecordsHeld s s₁ := .of_kept (.releaseDeadline s r vs) (by simp)
  have h₂ : RecordsHeld s s₂ := h₁.trans (.qPush s₁ _ _)
  have h₃ : RecordsHeld s s₃ := .ite (h₂.trans (.of_kept ((Kept.count (bs := [.ejt]) s₂ .ejt _ (by simp)).trans
    (.setb _ .ejt _ _ _ (by simp))) (by simp))) h₂
  have hfallback : RecordsHeld s q'.1 := (h₂.trans (.of_kept (.settleByRule s₂ rec0) (by simp))).trans (.pushSettled _ _)
  have hsettled : RecordsHeld s (q''.1.addRec q''.2) :=
    h₃.trans (.of_kept ((Kept.settleByRule s₃ _).trans (.addRec _ _)) (by simp))
  exact .ite hfallback (.ite hsettled (h₃.trans (.of_kept (.addRec s₃ _) (by simp))))

theorem RecordsHeld.linkCuts (r : RecJob) : RecordsHeld s (s.linkCuts r) := by
  unfold State.linkCuts
  split
  · exact .ergWrite s _ _
  · exact .refl s

end

/-! ### RECORD_RELEASE (R182, R190) -/

section
variable (s : State)

/-- Of the cut-outs some leave the writer's list; the ready records stand. -/
theorem State.dropCuts_leaves (v : Option ObjView) (handle : Nat) (free : Bool) :
    (∀ m, ((s.dropCuts v handle free).objStream m).ready = (s.objStream m).ready) ∧
      (∀ m, ∀ k ∈ ((s.dropCuts v handle free).objStream m).cuts, k ∈ (s.objStream m).cuts) ∧
      Kept [.obj] s (s.dropCuts v handle free) := by
  cases v with
  | none => exact ⟨fun _ => rfl, fun _ _ hk => hk, .refl _ s⟩
  | some v =>
    have hat : ∀ m, ((s.dropCuts (some v) handle free).objStream m).ready = (s.objStream m).ready ∧
        ∀ k ∈ ((s.dropCuts (some v) handle free).objStream m).cuts, k ∈ (s.objStream m).cuts := by
      intro m
      unfold State.dropCuts
      dsimp only
      by_cases h : m = v.stream
      · rw [h, State.onObj_objStream_same]
        exact ⟨rfl, fun k hk => List.mem_of_mem_filter hk⟩
      · rw [State.onObj_objStream_ne _ _ _ _ h]
        exact ⟨rfl, fun _ hk => hk⟩
    exact ⟨fun m => (hat m).1, fun m => (hat m).2, .onObj s v.stream _ (by simp)⟩

theorem State.dropCuts_drops (v : ObjView) (handle : Nat) (free : Bool) {k : CutJob}
    (hk : k ∈ ((s.dropCuts (some v) handle free).objStream v.stream).cuts) : k.view.serial ≠ v.serial := by
  rw [State.dropCuts, State.onObj_objStream_same] at hk
  simpa using List.of_mem_filter hk

/-- The record has left its list and gone to another device, or to the verdict stage and its queue. -/
def State.recordSent (s : State) (n : Nat) (j : RecJob) : State × Nat × Bool :=
  let s := s.onObj n (fun x => { x with ready := x.ready.erase j })
  let s := (s.each ([j.a, j.b].filterMap id) (fun s v => s.lostOut v.stream)).linkCuts j
  let r := buildRecord s j
  let h := s.handover r.stream r.bytes
  (if h.2 then h.1 else h.1.verdictRelease r, r.handle, h.2)

theorem State.recordOut_eq (n : Nat) (j : RecJob) : s.recordOut n j =
    ((s.recordSent n j).1.dropCuts j.a (s.recordSent n j).2.1 (s.recordSent n j).2.2).dropCuts j.b (s.recordSent n j).2.1
      (s.recordSent n j).2.2 := rfl

theorem RecordsHeld.recordSent (n : Nat) (j : RecJob) :
    RecordsHeld (s.onObj n (fun x => { x with ready := x.ready.erase j })) (s.recordSent n j).1 := by
  unfold State.recordSent
  extract_lets s₁ s₂ r h
  have h₂ : RecordsHeld s₁ s₂ := (RecordsHeld.each (fun t (v : ObjView) => .lostOut t v.stream) _ s₁).trans (.linkCuts _ j)
  have h₃ : RecordsHeld s₁ h.1 := h₂.trans (.of_kept (.handover s₂ _ _) (by simp))
  exact .ite h₃ (h₃.trans (.verdictRelease _ r))

end

section
variable {n : Fin 96} {s : State}

theorem recordRelease_waits (h : (s.objStream n).ready.find? (fun j => cutsOver s j) = none) :
    exec (.recordRelease n) s = .next s := by
  change execRecordRelease n s = _
  rw [execRecordRelease, h]

/-- A released record is ready no more, and its views' cut-outs are the writer's no more. -/
theorem recordRelease_releases {j : RecJob} (h : (s.objStream n).ready.find? (fun j => cutsOver s j) = some j) : ∃ t,
    exec (.recordRelease n) s = .next t ∧ (t.objStream n).ready = (s.objStream n).ready.erase j ∧
      (∀ v, j.a = some v → ∀ k ∈ (t.objStream v.stream).cuts, k.view.serial ≠ v.serial) ∧ BlocksKept releaseBlks s t := by
  let s₁ := s.onObj n (fun x => { x with ready := x.ready.erase j })
  let w := (s.recordSent n j).1
  let u := w.dropCuts j.a (s.recordSent n j).2.1 (s.recordSent n j).2.2
  have hsent : RecordsHeld s₁ w := .recordSent s n j
  obtain ⟨hreadyA, -, hkeptA⟩ := w.dropCuts_leaves j.a (s.recordSent n j).2.1 (s.recordSent n j).2.2
  obtain ⟨hreadyB, hcutsB, hkeptB⟩ := u.dropCuts_leaves j.b (s.recordSent n j).2.1 (s.recordSent n j).2.2
  have hexec : exec (.recordRelease n) s = .next (s.recordOut n j) := by
    change execRecordRelease n s = _
    rw [execRecordRelease, h]
  rw [State.recordOut_eq] at hexec
  have hready : (s₁.objStream n).ready = (s.objStream n).ready.erase j :=
    congrArg ObjStream.ready (State.onObj_objStream_same s n _)
  have hblocks : BlocksKept releaseBlks s w := (Kept.onObj s n _ (by simp)).blocks.trans hsent.kept
  refine ⟨_, hexec, ?_, fun v ha k hk => ?_,
    (hblocks.trans (hkeptA.mono (by simp)).blocks).trans (hkeptB.mono (by simp)).blocks⟩
  · rw [hreadyB, hreadyA, (hsent.lists n).1, hready]
  · have hA : k ∈ (u.objStream v.stream).cuts := hcutsB _ k hk
    unfold u at hA
    rw [ha] at hA
    exact w.dropCuts_drops v _ _ hA

end

end Sys2Proof.Machine

section

open Sys2Proof Sys2Proof.Machine

/-- Settles O23: tables by their start and end, views by their formation and pairing, cut-outs by their job, and a record by
what its release leaves of the lists. -/
theorem objectsFormPairAndReleaseRecords : Obligations.ObjectsFormPairAndReleaseRecords := by
  unfold Obligations.ObjectsFormPairAndReleaseRecords
  exact ⟨fun n v s hgo => ⟨clsTblLoad_busy hgo, clsTblLoad_starts hgo⟩, fun n s => clsTblLoadDone_idle,
    fun n a tiles s => clsTblLoadDone_ends, objOpenWrite_peak,
    fun n err s => ⟨viewForm_waits, fun o rest => viewForm_loses, fun o rest => viewForm_forms⟩,
    fun n s w ws hwait hstream => ⟨pairWaitExpired_early hwait, pairWaitExpired_leaves hwait hstream⟩,
    fun n s j hfind => ⟨cutoutWriteStart_waits hfind, cutoutWriteStart_starts hfind⟩,
    fun n s j => cutoutWriteDone_writes, fun n s j => cutoutLate_drops,
    fun n s => ⟨fun j => recordRelease_releases, recordRelease_waits⟩⟩

end

end
